-- ==== Sys2Proof/Word.lean ====
section
/-! DEFINITION. Words, octets and the plain bit-field arithmetic on natural numbers that the spec's
tables use (R4, R6, R7).  A register or memory word is a 36-bit vector; a field of it is read as a
natural number. -/

namespace Sys2Proof

/-- A 36-bit word (R4). -/
abbrev Word := BitVec 36

/-- An octet (R18). -/
abbrev Octet := BitVec 8

/-- A word with its poison bit (R78): the value of a Hergil register or of a delivered memory word. -/
structure PWord where
  /-- the 36 value bits -/
  v : Word
  /-- the poison bit -/
  p : Bool
  deriving DecidableEq, Repr, Inhabited

/-- The clean zero word. -/
def PWord.zero : PWord := ⟨0, false⟩

/-- Bits `hi` to `lo` of `n`. -/
def bitsOf (n hi lo : Nat) : Nat := n / 2 ^ lo % 2 ^ (hi + 1 - lo)

/-- `n` with its bits `hi` to `lo` replaced by `v` (taken modulo the field's width). -/
def setBits (n hi lo v : Nat) : Nat :=
  n / 2 ^ (hi + 1) * 2 ^ (hi + 1) + v % 2 ^ (hi + 1 - lo) * 2 ^ lo + n % 2 ^ lo

/-- The word whose value is `n` modulo 2^36. -/
def word (n : Nat) : Word := BitVec.ofNat 36 n

/-- Bits `hi` to `lo` of a word. -/
def Word.bits (w : Word) (hi lo : Nat) : Nat := bitsOf w.toNat hi lo

/-- One bit of a word. -/
def Word.bit (w : Word) (i : Nat) : Bool := w.getLsbD i

/-- The two's complement value of the `bits`-wide field value `n`. -/
def signed (bits n : Nat) : Int := if n < 2 ^ (bits - 1) then (n : Int) else (n : Int) - 2 ^ bits

/-- The `bits`-wide two's complement field of an integer. -/
def toField (bits : Nat) (z : Int) : Nat := (z % (2 ^ bits : Nat)).toNat

/-- An integer held within two bounds. -/
def clampInt (lo hi z : Int) : Int := if z < lo then lo else if hi < z then hi else z

/-- 1 for true, 0 for false. -/
def b2n (b : Bool) : Nat := if b then 1 else 0

/-- Quotient rounded up. -/
def ceilDiv (a b : Nat) : Nat := (a + b - 1) / b

/-- Word pair packing of two words into nine octets, most significant first (R6). -/
def packPair (x y : Word) : List Nat :=
  let n := x.toNat * 2 ^ 36 + y.toNat
  (List.range 9).map fun i => n / 2 ^ (8 * (8 - i)) % 256

/-- The number an octet list spells, most significant octet first (R7). -/
def octetsToNat (os : List Nat) : Nat := os.foldl (fun a o => a * 256 + o) 0

/-- `n` as `len` octets, most significant first (R7). -/
def natToOctets (len n : Nat) : List Nat :=
  (List.range len).map fun i => n / 2 ^ (8 * (len - 1 - i)) % 256

/-- Words packed in pairs into octets; an odd number of words is completed with a zero word (R84). -/
def packWords : List Word → List Nat
  | [] => []
  | [x] => packPair x 0
  | x :: y :: t => packPair x y ++ packWords t

end Sys2Proof
end

