-- ==== Sys2Proof/Syntax.lean ====
section
/-! DEFINITION. The commands of the block: one constructor per row of the spec's table of operations and
events.  An operand is what the step takes from outside the block: a register write with its master,
a packet from the host, an instruction of a core, a measured value, the answer of a surrounding. -/

namespace Sys2Proof

/-- A Hergil register by its number: `g0`–`g15` are 0–15, `a0`–`a7` are 16–23 (R124). -/
abbrev HReg := Fin 24

/-- A Hergil register pair by half its even number; 0o26 names no pair (R125). -/
abbrev HPair := Fin 11

/-- The second operand of an ALU operation: a register (opcode 01) or the immediate word (opcode 11). -/
inductive Src
  | reg (t : HReg)
  | imm (w : Word)
  deriving DecidableEq, Repr

/-- The base, mode, lanes and displacement of an M-format instruction (R123, R132); `md` 3 is reserved. -/
structure MemArgs where
  b : HReg
  md : Fin 3
  le : BitVec 4
  disp : BitVec 12
  deriving DecidableEq, Repr

/-- The conditions of `br` (R131). -/
inductive Cond
  | al | eq | ne | lt | ge | gt | le | ltu | geu | gtu | leu | mi | pl | vs | vc
  | rz (r : HReg) | rnz (r : HReg) | rneg (r : HReg) | rpos (r : HReg)
  deriving DecidableEq, Repr

/-- Where an instruction takes a tag from: the sh field (fn 0) or a register (fn 1). -/
inductive TagSrc
  | field (tag : Fin 64)
  | reg (t : HReg)
  deriving DecidableEq, Repr

/-- The condition of R44 that failed. -/
inductive RefCause
  /-- no measurement from the selected source for 4 s -/
  | noMeasurement
  /-- no qualified Announce within the receipt timeout of the profile -/
  | announce
  /-- the 10 MHz input is outside ±2 ppm -/
  | tenMHz
  /-- no accepted edge for 2 s -/
  | noEdge
  deriving DecidableEq, Repr

/-- What the two-step queue records of a message (R63): its sequenceId, messageType and domainNumber. -/
structure TwoStepMsg where
  seqId : BitVec 16
  msgType : BitVec 4
  domain : BitVec 8
  deriving DecidableEq, Repr

/-- A burst in progress of a master that is reset: its unit (R100), its matrix (0 module, 1 + k cluster)
and the beats still to come (R108). -/
structure Burst where
  unit : Fin 8
  matrix : Fin 9
  beats : Fin 16
  deriving DecidableEq, Repr

/-- A command packet from the host as it ends at the module, with its opcode given by the command
(R180, R181): its path, header fields, payload words, and for CRIT = 1 its counter and check octets.
Packets that fail R185 are the command HOST_PACKET_BAD. -/
structure HostPkt where
  /-- the packet came through the boot port -/
  boot : Bool
  crit : Bool
  psn : Bool
  fence : Bool
  page : Fin 64
  tag : Fin 512
  /-- octet 2 bits 6–1, reserved -/
  rsvd : Fin 64
  /-- LEN, in word pairs -/
  len : Nat
  /-- the 2 · LEN payload words -/
  words : List Word
  counter : BitVec 64
  /-- the 16 octets of CHECK -/
  check : List (BitVec 8)
  deriving DecidableEq, Repr


/-- Why a packet from the host is discarded with no completion (R169, R185). -/
inductive BadPkt
  /-- code violation or disparity error inside the packet, or its end in /E/ -/
  | code
  /-- CRC fails, or a link loss cuts the packet -/
  | crc
  /-- longer or shorter than its header and LEN imply -/
  | length
  /-- TYPE is not 1 or 5, or VER is not 1 -/
  | type
  deriving DecidableEq, Repr

/-- What a Telemark cycle measures on the spare of one ADC (R243): offset and RMS difference in 1/16 ADC
step, mean difference likewise, gain error in 0.01 dB, timing in 10 fs. -/
structure TelMeas where
  ofs : Int
  gain : Int
  timing : Int
  rms : Int
  mean : Int
  deriving DecidableEq, Repr

/-- The figures of one subcarrier over a quality window (R254, R261, R264): mean |e|² of the pilots of X and of Y, and of
the decided data symbols, all at unit mean power; cycle slips, and PRBS31 bit errors while the check runs. -/
structure ScFigures where
  errX : Rat
  errY : Rat
  evm2 : Rat
  slips : Nat
  testErr : Nat
  deriving DecidableEq, Repr

/-- What the receive side of a line has measured at a window end (R253, R261): the 32 subcarriers, and the fields of the
other registers. -/
structure RxFigures where
  sc : List ScFigures
  dgd : Nat
  pdl : Nat
  sop : Nat
  fofs : Int
  clk : Int
  deriving DecidableEq, Repr

/-- A received frame slot after decoding and descrambling (R279, R280): the information-bit position of
its first bit in the far end's stream, the FAW bits in error there, and its octets. -/
structure RxSlot where
  pos : Nat
  fawErr : Nat
  header : List (BitVec 8)
  payload : List (BitVec 8)
  trailer : List (BitVec 8)
  deriving DecidableEq, Repr

/-- What a channel's converters and samplers give at the end of a quality window (R345–R347): the received samples since the
last that were given, each with its symbol since frame 0; at each phase offset from −32 on, the three main decisions and the
monitor sampler's at each of 4,096 payload symbols; and the four levels of the downstream at the tap detector. -/
structure ChFigures where
  rx : List (Nat × Int)
  decisions : List (List (BitVec 3 × BitVec 3))
  levels : List Int
  deriving DecidableEq, Repr

/-- The commands of the block: one constructor per row of the spec's table of operations and events, with
what the step takes from outside the block as operands. -/
inductive Instr
  /-- PTP_SYNC_RECEIVED (R49): A Sync message received on the slave port in the active domain forms one servo measurement, which the servo judges and applies or discards according to its state. -/
  | ptpSyncReceived (ntRef : Int)
  /-- PTP_ANNOUNCE_RECEIVED (R44): A qualified Announce received on the slave port renews the announce receipt condition of reference qualification. -/
  | ptpAnnounceReceived
  /-- PPS_INPUT_EDGE (R45): An edge on the 1PPS input is taken or ignored, and a taken edge is accepted or not; while a TIME.TOD value is held it forms a measurement and advances the held seconds. -/
  | ppsInputEdge
  /-- REF_QUALIFY_LOSS (R44): A qualification condition fails (no measurement for 4 s, Announce timeout, 10 MHz outside ±2 ppm, or no accepted edge for 2 s) and REF_OK falls, with the servo transitions of R49. -/
  | refQualifyLoss (cause : RefCause)
  /-- REF_QUALIFY_GAIN (R44): All qualification conditions hold again and REF_OK becomes 1, which may move the servo from FREE to ACQUIRE. -/
  | refQualifyGain (tenMHz : Bool)
  /-- OCXO_WARM (R49): The OCXO reaches ±50 ppb 120–300 s after power-up, OCXO_WARM is set, and the servo leaves FREE when REF_OK and EN are also 1. -/
  | ocxoWarm
  /-- TIME_CTL_WRITE (R51): A write of TIME_CTL changes the source, slave port or enable, with the servo state and count effects of R49 and R51. -/
  | timeCtlWrite (m : Nat) (w : Word)
  /-- TIME_SERVO_WRITE (R75): A write of TIME_SERVO is rejected whole when JUMP_THR is not greater than LOCK_THR or when a field holds a reserved value, and otherwise takes the new thresholds and limits. -/
  | timeServoWrite (m : Nat) (w : Word)
  /-- TIME_LP_A_READ (R74): A read of TIME_LP_A latches LP word B and the network time words for the reading master. -/
  | timeLpARead (m : Nat)
  /-- TIME_RESTEP (R55): The TIME.RESTEP command checks its mode and offset against the servo state and schedules a new mapping offset. -/
  | timeRestep (p : HostPkt)
  /-- RESTEP_TAKES_EFFECT (R56): At the superframe boundary chosen for an accepted re-step, TIME_MAP is written, JUMP is cleared, the state becomes HOLDOVER and TIME_RESTEP_DONE is raised. -/
  | restepTakesEffect
  /-- TIME_TOD (R45): The TIME.TOD command sets the network-time seconds of the next taken 1PPS edge. -/
  | timeTod (p : HostPkt)
  /-- TIME_READ (R207): The TIME.READ command returns LP and network time read as one instant. -/
  | timeRead (p : HostPkt)
  /-- RTC_SET (R71): The RTC.SET command writes the calendar seconds with the fraction set to zero, or completes E_STATE while synchronised and LOCKED. -/
  | rtcSet (p : HostPkt)
  /-- PPS_OUTPUT_EDGE (R66): At a whole second of network time, or of T(LP) under PPS_FREE, the 1PPS output rises unless the edge is suppressed. -/
  | ppsOutputEdge
  /-- PPS_OUTPUT_WIDTH_END (R66): PPS_WIDTH after its rising edge, the 1PPS output falls. -/
  | ppsOutputWidthEnd
  /-- RTC_SYNC (R70): At each whole second while SYNC = 1 and LOCKED, the calendar is written from network time when it differs by more than one count, logging RTC_STEP for large steps or INVALID. -/
  | rtcSync
  /-- RTC_TRIM (R72): Every 32 s the calendar adds or drops crystal counts as RTC_CTL.TRIM sets, in every mode. -/
  | rtcTrim
  /-- RTC_XTAL_FAIL (R75): No crystal count for 1 ms sets RTC_STAT.XTAL_FAIL. -/
  | rtcXtalFail
  /-- TWO_STEP_STAMP (R63): A message marked for two-step stamping leaves its port and places one entry in the two-step queue, or is dropped and counted when the queue is full. -/
  | twoStepStamp (port : Fin 16)
  /-- TSQ_E0_READ (R64): A read of TIME_TSQ_E0 removes the oldest two-step entry and latches its words E1–E3 for the reading master. -/
  | tsqE0Read (m : Nat)
  /-- MEM_ZERO_DONE (R83): The zeroing of a memory after its domain powers up ends, and the requests held back meanwhile are served. -/
  | memZeroDone (inst : Nat)
  /-- MATRIX_ADMIT (R102): A request waiting at its master port is admitted once every bridge on its path and its target have space for the whole burst. -/
  | matrixAdmit (n : Nat) (room : Bool)
  /-- MATRIX_GRANT (R103): A target port grants a waiting request by starvation bound, class and round-robin pointer, and the burst holds the port to its last beat. -/
  | matrixGrant (target : Nat)
  /-- MATRIX_RESPONSE (R101): The response of a load or store returns to its master, completing the access and releasing requests of its ordering domain that were held back. -/
  | matrixResponse (n : Nat)
  /-- WINDOW_OPEN (R95): A write of CORE_WIN_H with MODE ≠ 0 asks the buffer controller to open a packet window on HANDLE. -/
  | windowOpen (m n : Nat) (win : Fin 4) (w : Word)
  /-- WINDOW_OPEN_RESOLVED (R95): The buffer controller accepts or refuses a pending window open, setting OPEN and LEN, or DENY with WIN_DENY, and releases waiting accesses. -/
  | windowOpenResolved (n : Nat) (win : Fin 4)
  /-- WINDOW_CLOSE (R95): A write of CORE_WIN_H with MODE = 0 closes the window, which may release a packet waiting to be sent or freed. -/
  | windowClose (m n : Nat) (win : Fin 4) (w : Word)
  /-- CORE_REMAP_WRITE (R110): A write of CORE_CTL.REMAP sets the slot mapping, taking effect at the core's next taken branch or, from the S-core, only while the core is not RUNNING. -/
  | coreRemapWrite (m n : Nat) (w : Word)
  /-- CORE_HALT_WRITE (R119): A write of 1 to CORE_CTL.HALT stops a RUNNING core after its current instruction, while its engine operations and armed actions continue. -/
  | coreHaltWrite (m n : Nat) (w : Word)
  /-- CORE_START_WRITE (R119): A write of 1 to CORE_CTL.START arms the start of a LOADED or HALTED core at CORE_START, or sets LATE when that LP has passed. -/
  | coreStartWrite (m n : Nat) (w : Word)
  /-- CORE_START_AT_LP (R119): The armed start LP of a core arrives and the core becomes RUNNING, with fresh registers from LOADED or resumed from HALTED. -/
  | coreStartAtLp (n : Nat)
  /-- CORE_SRST (R119): A write of 1 to CORE_CTL.SRST resets a core to EMPTY, cancelling its armed actions and engine operations and aborting its bursts. -/
  | coreSrst (m n : Nat) (w : Word) (bursts : List Burst)
  /-- CORE_LOAD (R117): The CORE.LOAD command checks the image from its source against the target cores and starts verification and copying. -/
  | coreLoad (p : HostPkt)
  /-- IMAGE_VERIFY_DONE (R117): Signature verification of an image ends, and the image loader either rejects the load with IMG_REJECT or begins copying. -/
  | imageVerifyDone
  /-- IMAGE_COPY_DONE (R118): The copy of an image into one target core ends, the core's image registers are set, it becomes LOADED and IMG_LOADED is raised. -/
  | imageCopyDone
  /-- CORE_START_CMD (R205): The CORE.START command checks every named core, writes CORE_START and arms each start. -/
  | coreStartCmd (p : HostPkt)
  /-- CORE_HALT_CMD (R205): The CORE.HALT command halts every named RUNNING core and leaves the others as they are. -/
  | coreHaltCmd (p : HostPkt)
  /-- SCORE_BOOT (R120): After the Edelweiss self-tests end, the S-core boot ROM loads the S-core image from the operator slot, or the reference slot with IMG_FALLBACK, or stays in the boot ROM with BOOT_FAIL. -/
  | scoreBoot
  /-- IMG_STORE (R206): The IMG.STORE command checks an image in the staging region and starts writing it into its kind's operator slot. -/
  | imgStore (p : HostPkt)
  /-- IMG_STORE_DONE (R206): The write of an image into the operator slot ends, the minimum version is raised when RAISE = 1, and the command completes. -/
  | imgStoreDone
  /-- ADD (R130): ALU fn 00 writes s + t, or s + immediate in opcode 11, and sets the flags. -/
  | add (n : Nat) (d a : HReg) (t : Src)
  /-- SUB (R130): ALU fn 01 writes s − t and sets the flags with no-borrow carry. -/
  | sub (n : Nat) (d a : HReg) (t : Src)
  /-- ADC (R130): ALU fn 02 writes s + t + C and sets the flags. -/
  | adc (n : Nat) (d a : HReg) (t : Src)
  /-- SBC (R130): ALU fn 03 writes s − t − (1 − C) and sets the flags. -/
  | sbc (n : Nat) (d a : HReg) (t : Src)
  /-- AND (R130): ALU fn 04 writes s and t. -/
  | and (n : Nat) (d a : HReg) (t : Src)
  /-- OR (R130): ALU fn 05 writes s or t. -/
  | or (n : Nat) (d a : HReg) (t : Src)
  /-- XOR (R130): ALU fn 06 writes s xor t. -/
  | xor (n : Nat) (d a : HReg) (t : Src)
  /-- ANDN (R130): ALU fn 07 writes s and not t. -/
  | andn (n : Nat) (d a : HReg) (t : Src)
  /-- SHL (R130): ALU fn 10 shifts s left by the amount in t or the immediate word. -/
  | shl (n : Nat) (d a : HReg) (t : Src)
  /-- SHR (R130): ALU fn 11 shifts s right logically. -/
  | shr (n : Nat) (d a : HReg) (t : Src)
  /-- SAR (R130): ALU fn 12 shifts s right arithmetically. -/
  | sar (n : Nat) (d a : HReg) (t : Src)
  /-- ROL (R130): ALU fn 13 rotates s left by the amount mod 36. -/
  | rol (n : Nat) (d a : HReg) (t : Src)
  /-- SHLI (R130): ALU fn 14 of opcode 01 shifts s left by the sh field. -/
  | shli (n : Nat) (d a : HReg) (sh : Fin 64)
  /-- SHRI (R130): ALU fn 15 of opcode 01 shifts s right logically by the sh field. -/
  | shri (n : Nat) (d a : HReg) (sh : Fin 64)
  /-- SARI (R130): ALU fn 16 of opcode 01 shifts s right arithmetically by the sh field. -/
  | sari (n : Nat) (d a : HReg) (sh : Fin 64)
  /-- ROLI (R130): ALU fn 17 of opcode 01 rotates s left by the sh field. -/
  | roli (n : Nat) (d a : HReg) (sh : Fin 64)
  /-- MUL (R130): ALU fn 20 writes the low 36 bits of s × t. -/
  | mul (n : Nat) (d a : HReg) (t : Src)
  /-- MULHU (R130): ALU fn 21 writes the high 36 bits of the unsigned product. -/
  | mulhu (n : Nat) (d a : HReg) (t : Src)
  /-- MULHS (R130): ALU fn 22 writes the high 36 bits of the signed product. -/
  | mulhs (n : Nat) (d a : HReg) (t : Src)
  /-- MIN (R130): ALU fn 23 writes the signed minimum of s and t. -/
  | min (n : Nat) (d a : HReg) (t : Src)
  /-- MINU (R130): ALU fn 24 writes the unsigned minimum of s and t. -/
  | minu (n : Nat) (d a : HReg) (t : Src)
  /-- MAX (R130): ALU fn 25 writes the signed maximum of s and t. -/
  | max (n : Nat) (d a : HReg) (t : Src)
  /-- MAXU (R130): ALU fn 26 writes the unsigned maximum of s and t. -/
  | maxu (n : Nat) (d a : HReg) (t : Src)
  /-- CMP (R130): ALU fn 30 sets the flags from s − t. -/
  | cmp (n : Nat) (a : HReg) (t : Src)
  /-- TST (R130): ALU fn 31 sets the flags from s and t. -/
  | tst (n : Nat) (a : HReg) (t : Src)
  /-- MOV (R130): ALU fn 32 copies s into d. -/
  | mov (n : Nat) (d a : HReg) (x : Bool)
  /-- BFX (R130): ALU fn 33 extracts a bit field of width sh from s shifted right by t or the immediate. -/
  | bfx (n : Nat) (d a : HReg) (t : Src) (width : Fin 36)
  /-- POP (R130): ALU fn 36 writes the number of 1 bits of s. -/
  | pop (n : Nat) (d a : HReg) (x : Bool)
  /-- CLZ (R130): ALU fn 37 writes the number of leading zero bits of s. -/
  | clz (n : Nat) (d a : HReg) (x : Bool)
  /-- ADDI (R128): Opcode 02 writes s plus the sign-extended 18-bit immediate. -/
  | addi (n : Nat) (d a : HReg) (imm : BitVec 18)
  /-- ANDI (R128): Opcode 03 writes s and the zero-extended immediate. -/
  | andi (n : Nat) (d a : HReg) (imm : BitVec 18)
  /-- ORI (R128): Opcode 04 writes s or the zero-extended immediate. -/
  | ori (n : Nat) (d a : HReg) (imm : BitVec 18)
  /-- XORI (R128): Opcode 05 writes s xor the zero-extended immediate. -/
  | xori (n : Nat) (d a : HReg) (imm : BitVec 18)
  /-- CMPI (R128): Opcode 06 sets the flags from s minus the sign-extended immediate. -/
  | cmpi (n : Nat) (a : HReg) (imm : BitVec 18)
  /-- LUI (R128): Opcode 07 writes the immediate shifted left by 18. -/
  | lui (n : Nat) (d : HReg) (imm : BitVec 18)
  /-- LI (R128): Opcode 10 writes the following immediate word into d. -/
  | li (n : Nat) (d : HReg) (imm : Word)
  /-- LD (R133): Opcode 20 loads the selected lanes of one word, with poison per lane, waiting for the data. -/
  | ld (n : Nat) (d : HReg) (m : MemArgs)
  /-- ST (R135): Opcode 21 stores one word with lane enables, posted to own local RAM and otherwise waiting for its response. -/
  | st (n : Nat) (d : HReg) (m : MemArgs)
  /-- LDP (R134): Opcode 22 loads a register pair from an even address in one beat. -/
  | ldp (n : Nat) (d : HPair) (m : MemArgs)
  /-- STP (R134): Opcode 23 stores a register pair to an even address in one beat. -/
  | stp (n : Nat) (d : HPair) (m : MemArgs)
  /-- AADD (R137): Opcode 24 atomically adds d to a memory word and returns the old value. -/
  | aadd (n : Nat) (d : HReg) (m : MemArgs)
  /-- ASWP (R137): Opcode 25 atomically swaps d with a memory word. -/
  | aswp (n : Nat) (d : HReg) (m : MemArgs)
  /-- BR (R131): Opcode 30 branches to PC + disp when its condition on F or on register s holds. -/
  | br (n : Nat) (c : Cond) (disp : BitVec 18)
  /-- JMP (R138): Opcode 31 jumps to PC + disp. -/
  | jmp (n : Nat) (disp : BitVec 24)
  /-- CALL (R138): Opcode 32 writes the return address into d and jumps to PC + disp. -/
  | call (n : Nat) (d : HReg) (disp : BitVec 24)
  /-- JR (R138): Opcode 33 jumps to the address in s, writing the return address into d unless d is g0. -/
  | jr (n : Nat) (d a : HReg)
  /-- BDEC (R128): Opcode 34 decrements s and branches when the result is not zero. -/
  | bdec (n : Nat) (a : HReg) (disp : BitVec 18)
  /-- AT (R142): Opcode 40 fn 0 checks an action block and arms it in the lowest free arm slot at an LP. -/
  | atArm (n : Nat) (d : HReg) (p : HPair) (t : HReg)
  /-- ATCAN (R146): Opcode 40 fn 1 cancels an arm slot and frees its tag. -/
  | atcan (n : Nat) (d a : HReg)
  /-- WAITP (R139): Opcode 41 begins a wait for an LP, or completes at once with C = 1 when the LP has passed. -/
  | waitp (n : Nat) (p : HPair)
  /-- WAITP_LP_REACHED (R139): The LP awaited by a waitp arrives and the instruction completes. -/
  | waitpLpReached (n : Nat)
  /-- RDLP (R141): Opcode 42 writes the LP of its clock into a register pair. -/
  | rdlp (n : Nat) (d : HPair)
  /-- LPADD (R141): Opcode 43 adds a tick count to an LP pair with carries. -/
  | lpadd (n : Nat) (d p : HPair) (t : HReg)
  /-- ISSUE (R147): Opcode 44 checks the tag, waits for earlier stores, reads and checks the descriptor, and posts the operation to its engine. -/
  | issue (n : Nat) (a : HReg) (tag : TagSrc) (room : Bool)
  /-- ENGINE_ACCEPT (R147): An engine with queue space accepts an operation that an issue was waiting to post, marking the tag busy and raising ENG_OUT. -/
  | engineAccept (n : Nat)
  /-- WAITT (R150): Opcode 45 fn 0 or 1 takes the completion entry of a named tag, waiting when it is busy and not yet posted. -/
  | waitt (n : Nat) (d : HPair) (tag : TagSrc) (upset : Bool)
  /-- WAITA (R150): Opcode 45 fn 2 takes the oldest completion entry, waiting when none is posted. -/
  | waita (n : Nat) (d : HPair) (upset : Bool)
  /-- CPOP (R150): Opcode 45 fn 3 takes the oldest completion entry, or writes zero with C = 1 when the ring is empty. -/
  | cpop (n : Nat) (d : HPair) (upset : Bool)
  /-- COMPLETION_AWAITED_POSTED (R150): The completion entry that a waitt or waita awaits is posted, and the waiting instruction takes it. -/
  | completionAwaitedPosted (n : Nat) (upset : Bool)
  /-- NOP (R160): System fn 00 does nothing. -/
  | nop (n : Nat)
  /-- HALT (R160): System fn 01 stops the core after itself, as a write of HALT. -/
  | halt (n : Nat)
  /-- BRK (R160): System fn 02 raises BREAK. -/
  | brk (n : Nat)
  /-- FENCE (R160): System fn 03 waits until every earlier load, store and fired timed store of the core has its response. -/
  | fence (n : Nat)
  /-- RDF (R160): System fn 04 reads the flags into d with their poison. -/
  | rdf (n : Nat) (d : HReg)
  /-- WRF (R160): System fn 05 writes the flags from s with its poison. -/
  | wrf (n : Nat) (a : HReg)
  /-- PCHK (R159): System fn 06 sets Z from the poison of s without consuming it. -/
  | pchk (n : Nat) (a : HReg)
  /-- PCLR (R159): System fn 07 copies s into d clean and counts POISON_CLR. -/
  | pclr (n : Nat) (d a : HReg)
  /-- SMARK (R160): System fn 10 writes a mark sampling record carrying s. -/
  | smark (n : Nat) (a : HReg)
  /-- RDCYC (R160): System fn 11 reads the core's clock count since start. -/
  | rdcyc (n : Nat) (d : HReg)
  /-- AT_TIMED_STORE (R144): An armed kind 0 action falls due and issues its store, counting AT_ERR and raising CORE_AT_ERR on an error or rejection. -/
  | atTimedStore (n : Nat) (slot : Fin 16) (upset : Bool)
  /-- AT_TIMED_ISSUE (R144): An armed kind 1 action falls due and hands its descriptor to its engine as if issued. -/
  | atTimedIssue (n : Nat) (slot : Fin 16) (upset : Bool)
  /-- AT_SIGNAL (R144): An armed kind 2 action falls due and posts a signal completion with the LP word B of the firing clock. -/
  | atSignal (n : Nat) (slot : Fin 16) (upset : Bool)
  /-- CIPHER_GCM_ENCRYPT (R153): The cipher engine encrypts text with an EGCM key under a fresh invocation counter, writes IV and tag, and posts its completion. -/
  | cipherGcmEncrypt (n : Nat) (tag : Fin 64) (upset : Bool) (words : Nat)
  /-- CIPHER_GCM_DECRYPT (R153): The cipher engine decrypts and verifies text, zeroing the output on a tag mismatch, and posts its completion. -/
  | cipherGcmDecrypt (n : Nat) (tag : Fin 64) (upset : Bool) (words : Nat)
  /-- CIPHER_HMAC (R153): The cipher engine computes an HMAC-SHA-256 with an EHMAC key and posts its completion. -/
  | cipherHmac (n : Nat) (tag : Fin 64) (upset : Bool) (words : Nat)
  /-- DMA_COPY (R154): The DMA engine copies NWORDS words with their poison, stopping at the first failing word, and posts its completion. -/
  | dmaCopy (n : Nat) (tag : Fin 64) (upset : Bool) (words : Nat)
  /-- DMA_FILL (R154): The DMA engine fills NWORDS words with a value and posts its completion. -/
  | dmaFill (n : Nat) (tag : Fin 64) (upset : Bool) (words : Nat)
  /-- DMA_PKT_NEW (R154): The DMA engine creates a zeroed packet held for the core and returns its handle. -/
  | dmaPktNew (n : Nat) (tag : Fin 64) (upset : Bool)
  /-- DMA_PKT_SEND (R154): The DMA engine sends a held packet to a queue after its windows close, subject to rights and admission. -/
  | dmaPktSend (n : Nat) (tag : Fin 64) (upset : Bool)
  /-- DMA_PKT_RECV (R154): The DMA engine takes the oldest packet of a mailbox, waiting for one when WAIT = 1, or completes E_EMPTY. -/
  | dmaPktRecv (n : Nat) (tag : Fin 64) (upset : Bool)
  /-- DMA_PKT_FREE (R154): The DMA engine frees a held packet after its windows close. -/
  | dmaPktFree (n : Nat) (tag : Fin 64) (upset : Bool)
  /-- MONITOR_INJECT_OP (R497): The monitor engine checks an INJECT operation at acceptance and lists it on its converter, or completes it with a failure status. -/
  | monitorInjectOp (n : Nat) (tag : Fin 64) (upset : Bool)
  /-- MONITOR_CAL_OP (R502): The monitor engine takes a CAL operation as a self-calibration request on the converter. -/
  | monitorCalOp (n : Nat) (tag : Fin 64) (upset : Bool)
  /-- GRANT_MAP_COMMIT (R156): The grant-map engine checks and commits a T-core's maps for one access frame, treating failing, late or poisoned maps as hold, and posts its completion. -/
  | grantMapCommit (n : Nat) (tag : Fin 64) (upset : Bool)
  /-- COUNTER_SNAP (R157): The counter engine writes snapshots of N counters into DST and posts its completion. -/
  | counterSnap (n : Nat) (tag : Fin 64) (upset : Bool) (words : Nat)
  /-- COUNTER_ADD (R543): The counter engine adds a value to one of the issuing core's program counters. -/
  | counterAdd (n : Nat) (tag : Fin 64) (upset : Bool)
  /-- SVC_CDR_LOCKED (R170): Clock recovery locks on all four receive lanes with equalisers adapted, and comma search starts. -/
  | svcCdrLocked
  /-- SVC_LANE_ALIGNED (R170): A lane finds 4 commas at one phase and is aligned; when all four are aligned, marker search starts. -/
  | svcLaneAligned (lane : Fin 4)
  /-- SVC_DESKEW (R170): Markers are found on every lane and the receive side becomes UP with RX_UP = 1, or counts SVC_SKEW and restarts when the spread exceeds 24 columns. -/
  | svcDeskew (spread : Nat)
  /-- SVC_BRINGUP_TIMEOUT (R170): ALIGN or DESKEW makes no progress for 100 µs, SVC_BRINGUP_RETRY is counted and the receive side returns to CDR. -/
  | svcBringupTimeout
  /-- SVC_LINK_LOSS (R170): Code violations, missing or skewed markers, or loss of signal take the receive side from UP to CDR, discarding the packet in progress and counting SVC_LINK_DOWN. -/
  | svcLinkLoss
  /-- SVC_ALIGN_MARKER_RECEIVED (R168): An alignment marker /A/ is received and its RX_UP bit is taken as the far end's receive state. -/
  | svcAlignMarkerReceived (rxUp : Bool)
  /-- SVC_MARKER_SEND (R168): Every 1,024 columns the transmitter sends an /A/ marker carrying RX_UP, inside a packet if the count falls there. -/
  | svcMarkerSend
  /-- SVC_L1_REQUEST (R173): A /P/ L1 request from the host is answered with accept or refuse, and after an accept both ends go to electrical idle in L1. -/
  | svcL1Request
  /-- SVC_L2_REQUEST (R173): A /P/ L2 request from the host is answered with accept or refuse, and after an accept both ends go to L2. -/
  | svcL2Request
  /-- SVC_POWER_SET_BAD (R167): A /P/ with an unknown D character, or an ordered set that differs between lanes, is ignored and counted as SVC_OS_BAD. -/
  | svcPowerSetBad (set : List (Nat × Nat))
  /-- SVC_LOW_POWER_EXIT (R175): Signal is detected in L1 or L2, or the module has a packet to send, and the receive side restarts from CDR. -/
  | svcLowPowerExit
  /-- SVC_EQM_LOW (R176): EQM of a lane stays below EQM_MIN for 1 ms and SVC_EQM_LOW is raised once. -/
  | svcEqmLow (lane : Fin 4)
  /-- SVC_EQM_RECOVERED (R176): EQM of a lane stays at or above EQM_MIN for 1 ms and the low-EQM event is re-armed. -/
  | svcEqmRecovered (lane : Fin 4)
  /-- SVC_PACKET_SELECT (R186): After the /T/ of the previous packet, the module chooses the next packet to send by class and age. -/
  | svcPacketSelect
  /-- SVC_PACKET_SENT (R187): A packet to the host is sent whole, freeing a completion's slot or removing event records from their ring. -/
  | svcPacketSent
  /-- HOST_PACKET_BAD (R185): A packet from the host with a failed CRC, wrong length, or bad TYPE or VER is discarded with no completion and counted. -/
  | hostPacketBad (boot : Bool) (why : BadPkt)
  /-- OVERHEAD_PACKET_IN (R184): An overhead packet from the host is placed in the slip buffer of its line channel, or discarded and counted as SVC_OH_BAD. -/
  | overheadPacketIn (line : Fin 4) (chan : Fin 2) (crit psn : Bool) (octets : List (BitVec 8))
  /-- COMMAND_START (R189): A command waiting in its queue starts when FENCE, instance exclusion, the 32-command limit and queue priority allow. -/
  | commandStart (bursts : List Burst)
  /-- BOOT_READ_PACKET (R201): A boot-port read-packet transaction sends the length and the next pending packet, removing it only when clocked out whole. -/
  | bootReadPacket (clocked : Nat)
  /-- BOOT_READ_STATUS (R201): A boot-port read-status transaction returns the link, boot ROM, intake and pending bits. -/
  | bootReadStatus
  /-- BOOT_BAD_OPERATION (R201): A boot-port transaction with an unknown operation octet is ignored and answered with zero octets. -/
  | bootBadOperation (octets : Nat)
  /-- SVC_NOP (R203): The SVC.NOP command returns the LP word B at intake. -/
  | svcNop (p : HostPkt)
  /-- SVC_RECALL (R193): The SVC.RECALL command resends a slot's last completion with RECALLED = 1. -/
  | svcRecall (p : HostPkt)
  /-- SVC_LOOP (R179): The SVC.LOOP command, after its completion, starts a near-end or far-end loop for the stated duration. -/
  | svcLoop (p : HostPkt)
  /-- SVC_LOOP_END (R179): The loop duration expires, the receive side restarts from RESET and SVC_LOOP_DONE is raised with the error counts. -/
  | svcLoopEnd (lanes : List (List Nat))
  /-- REG_READ (R204): The REG.READ command reads N register words with their poison. -/
  | regRead (p : HostPkt)
  /-- REG_WRITE (R204): The REG.WRITE command writes N register words in order, stopping at the first failing word. -/
  | regWrite (p : HostPkt) (bursts : List Burst)
  /-- MEM_READ (R204): The MEM.READ command reads N words of shared memory or core local windows. -/
  | memRead (p : HostPkt)
  /-- MEM_WRITE (R204): The MEM.WRITE command writes N words into the staging region. -/
  | memWrite (p : HostPkt)
  /-- PWR_MODE (R582): The PWR.MODE command changes the mode as the transition table allows, powering or turning off domains. -/
  | pwrMode (p : HostPkt)
  /-- PWR_DOMAIN_OFF (R591): PWR.DOMAIN OP 0 turns a domain off and sets HELD, clearing SHED and possibly returning to SERVICE. -/
  | pwrDomainOff (p : HostPkt)
  /-- PWR_DOMAIN_ON (R591): PWR.DOMAIN OP 1 powers a domain on when its estimate fits, clearing HELD and SHED. -/
  | pwrDomainOn (p : HostPkt)
  /-- PWR_DOMAIN_RESET (R587): PWR.DOMAIN OP 2 resets an ON domain after its laser ramps, holding it in reset for 10 µs. -/
  | pwrDomainReset (p : HostPkt) (bursts : List Burst)
  /-- PWR_RESET (R208): The PWR.RESET command closes intake, lets running commands finish up to 100 ms, aborts the rest and performs the module reset. -/
  | pwrReset (p : HostPkt)
  /-- PWR_RESET_DRAIN_END (R208): The 100 ms drain of a module reset command ends and the remaining commands complete E_ABORT before the reset. -/
  | pwrResetDrainEnd
  /-- PWR_READ (R591): The PWR.READ command returns the power status, mains, load, cell and log words. -/
  | pwrRead (p : HostPkt)
  /-- KEY_LOAD (R462): The KEY.LOAD command in FORM 0 checks and unwraps a key blob and installs it in its page slot and generation. -/
  | keyLoad (p : HostPkt)
  /-- KEY_LOAD_IMAGE_KEY (R465): The KEY.LOAD command in FORM 1 sets the operator image key, signed by the current key when one is present. -/
  | keyLoadImageKey (p : HostPkt)
  /-- KEY_LOAD_RECOVER (R467): KEY.LOAD with RECOVER replaces page 0's command key under an operator image key signature, even when page 0 is locked. -/
  | keyLoadRecover (p : HostPkt)
  /-- KEY_ERASE (R468): The KEY.ERASE command erases one key generation of a page. -/
  | keyErase (p : HostPkt)
  /-- KEY_ZEROISE (R469): The KEY.ZEROISE command performs the zeroise of R452 and the zeroise reset, with no completion. -/
  | keyZeroise (p : HostPkt)
  /-- KEY_IDENT_IDENTITY (R470): KEY.IDENT SEL 0 returns the fused identity, transport public key, certificate and an attestation over a challenge. -/
  | keyIdentIdentity (p : HostPkt)
  /-- KEY_IDENT_STATUS (R470): KEY.IDENT SEL 1 returns the status words of one key. -/
  | keyIdentStatus (p : HostPkt)
  /-- LINE_ENABLE_ON (R228): LINE.ENABLE with EN = 1 writes the transmit settings and arms the enable at its start LP, or changes power while LIT. -/
  | lineEnableOn (p : HostPkt)
  /-- LINE_ENABLE_OFF (R228): LINE.ENABLE with EN = 0 starts the DISABLE ramp and completes when the transmitter is DARK. -/
  | lineEnableOff (p : HostPkt)
  /-- LINE_RATE (R219): The LINE.RATE command computes a loading for a new rate and inner rate from measured SNR and sends it as a loading request. -/
  | lineRate (p : HostPkt)
  /-- LINE_LOAD_RECOMPUTE (R219): LINE.LOAD MODE 0 recomputes the loading at the current rate and sends the request. -/
  | lineLoadRecompute (p : HostPkt)
  /-- LINE_LOAD_EXPLICIT (R228): LINE.LOAD MODE 1 checks an explicit loading table locally and sends it as a loading request. -/
  | lineLoadExplicit (p : HostPkt)
  /-- LINE_TRACE (R303): The LINE.TRACE command writes the transmit and expected traces and the TIM settings. -/
  | lineTrace (p : HostPkt)
  /-- TREE_ENABLE_ON (R349): TREE.ENABLE with EN = 1 moves the named DARK slots to WARM, waiting for the start LP. -/
  | treeEnableOn (p : HostPkt)
  /-- TREE_ENABLE_OFF (R349): TREE.ENABLE with EN = 0 arms the disable of the named slots at the start LP. -/
  | treeEnableOff (p : HostPkt)
  /-- TREE_REFLECT (R350): The TREE.REFLECT command makes a reflectometry run pending on one slot, completing when the run ends. -/
  | treeReflect (p : HostPkt)
  /-- TREE_DISCOVER (R393): The TREE.DISCOVER command runs discovery pairs on the named lit slots and returns the serials found. -/
  | treeDiscover (p : HostPkt)
  /-- TREE_ACTIVATE (R393): The TREE.ACTIVATE command activates a discovered terminal through assignment, ranging and activation. -/
  | treeActivate (p : HostPkt)
  /-- TREE_DEACTIVATE (R393): The TREE.DEACTIVATE command returns a terminal to FREE after three DEACTIVATE messages. -/
  | treeDeactivate (p : HostPkt)
  /-- MON_INJECT (R511): The MON.INJECT command performs an injected conversion on the S-core's monitor engine and returns the sample word. -/
  | monInject (p : HostPkt)
  /-- MON_SEQ (R512): The MON.SEQ command writes a converter's sequence entries and control. -/
  | monSeq (p : HostPkt)
  /-- CAL_START (R513): The CAL.START command requests self-calibration of a range of converters and completes when all have ended. -/
  | calStart (p : HostPkt)
  /-- CNT_READ (R569): The CNT.READ command returns N counter snapshots within the page's reach. -/
  | cntRead (p : HostPkt)
  /-- EVT_CFG_CODE (R570): EVT.CFG OP 0 sets the record enable and priority of an event code. -/
  | evtCfgCode (p : HostPkt)
  /-- EVT_CFG_RATE (R570): EVT.CFG OP 1 sets the Avalanche rate limit. -/
  | evtCfgRate (p : HostPkt)
  /-- EVT_CFG_STREAM (R570): EVT.CFG OP 2 sets the words of one telemetry stream. -/
  | evtCfgStream (p : HostPkt)
  /-- EVT_CFG_READ (R554): EVT.CFG OP 3 returns the first and latest records of an event code. -/
  | evtCfgRead (p : HostPkt)
  /-- FWD_BIND (R434): The FWD.BIND command writes a service record, its policer and allocation words and its key entries. -/
  | fwdBind (p : HostPkt)
  /-- FWD_UNBIND (R435): The FWD.UNBIND command clears a service's key entries, allocation word and record. -/
  | fwdUnbind (p : HostPkt)
  /-- QUE_SET_QUEUE (R436): QUE.SET OP 0 sets a queue's quantum and limit. -/
  | queSetQueue (p : HostPkt)
  /-- QUE_SET_SHAPER (R436): QUE.SET OP 1 sets the shaper of a page at an egress point. -/
  | queSetShaper (p : HostPkt)
  /-- QUE_SET_PAGE_LIMIT (R436): QUE.SET OP 2 sets a page's cell limit. -/
  | queSetPageLimit (p : HostPkt)
  /-- QUE_SET_SAMPLE (R426): QUE.SET OP 3 samples up to 256 queues at intake and returns the samples. -/
  | queSetSample (p : HostPkt)
  /-- LINE_ENABLE_START (R229): The start LP of a line enable arrives, the laser is tuned and transmit calibration runs in CAL. -/
  | lineEnableStart (l : Fin 4)
  /-- LINE_CAL_DONE (R236): The laser locks and transmit calibration ends, its result is judged against the limits, and the bring-up format is loaded. -/
  | lineCalDone (l : Fin 4) (temp : Int) (vals : List Int) (taps : List (List Int))
  /-- LINE_CAL_TIMEOUT (R229): The laser does not lock within 200 ms, the laser goes off and LINE_TX_FAULT is raised. -/
  | lineCalTimeout (l : Fin 4)
  /-- LINE_TX_MODULATION_START (R229): At the multiframe boundary after calibration, modulation starts together with the ENABLE ramp. -/
  | lineTxModulationStart (l : Fin 4)
  /-- LINE_RAMP_END (R231): A line power ramp ends, moving RAMP_UP to LIT or RAMP_DOWN and SHUT to DARK with the laser off. -/
  | lineRampEnd (l : Fin 4)
  /-- LINE_LASER_FAULT (R229): A transmit laser frequency or current fault starts the SHUTDOWN ramp and raises LINE_TX_FAULT. -/
  | lineLaserFault (l : Fin 4)
  /-- LINE_TX_POWER_WRITE (R230): A write of LINE_TX_CTL.POWER while LIT starts a CHANGE ramp. -/
  | lineTxPowerWrite (m : Nat) (l : Fin 4) (w : Word)
  /-- LINE_TX_TEST_WRITE (R234): A write of LINE_TX_TEST in MAINTENANCE replaces the format with a tone or PRBS31 test signal. -/
  | lineTxTestWrite (m : Nat) (l : Fin 4) (w : Word)
  /-- LOAD_REQ_EVALUATE (R222): At the end of the multiframe in which a LOAD_REQ arrived whole, the transmitting end checks it and accepts it into the inactive bank or refuses it. -/
  | loadReqEvaluate (l : Fin 4)
  /-- LOAD_ACK_RECEIVED (R258): A LOAD_ACK for the outstanding request arrives at the receiving end, which writes an accepted request into its inactive receive bank. -/
  | loadAckReceived (l : Fin 4)
  /-- LOAD_SWITCH_RECEIVED (R296): A SWITCH message arrives at the receiving end and is taken as an announced switch, a late switch, a lost ACK, or an unexpected switch. -/
  | loadSwitchReceived (l : Fin 4)
  /-- LOAD_ACK_TIMEOUT (R228): No LOAD_ACK arrives within 64 multiframes of the first LOAD_REQ and the command completes E_STATE with reason 17. -/
  | loadAckTimeout (l : Fin 4)
  /-- LINE_FORMAT_SWITCH (R223): At the multiframe boundary after COUNTDOWN 0, the other bank becomes active at both ends and LINE_LOAD_SWITCH is raised. -/
  | lineFormatSwitch (l : Fin 4) (rx : Bool)
  /-- LINE_TX_FALLBACK (R226): RDI from the far end for 64 consecutive multiframes makes the transmitter switch to the bring-up format. -/
  | lineTxFallback (l : Fin 4)
  /-- LINE_TX_CAL_UPDATE (R235): Every 100 ms the L-core recomputes the interpolated transmit calibration and moves it by bounded steps. -/
  | lineTxCalUpdate (l : Fin 4) (temp : Int)
  /-- LINE_RX_CTL_WRITE (R256): A write of LINE_RX_CTL enables or disables the receiver or retunes the LO, restarting the receiver. -/
  | lineRxCtlWrite (m : Nat) (l : Fin 4) (w : Word)
  /-- LINE_LO_LOCKED (R256): The receive LO locks within 200 ms and the receiver enters IDLE. -/
  | lineLoLocked (l : Fin 4)
  /-- LINE_LO_TIMEOUT (R256): The LO does not lock within 200 ms, the receiver goes OFF with FAULT and raises LINE_RX_FAULT. -/
  | lineLoTimeout (l : Fin 4)
  /-- LINE_LO_FAULT (R240): An LO frequency or current fault moves the receiver to OFF with FAULT and raises LINE_RX_FAULT. -/
  | lineLoFault (l : Fin 4)
  /-- LINE_SIG_UP (R241): The input stays at or above SIG_THR for 10 µs, SIG becomes 1 and the dispersion search starts from IDLE or HOLD recovers. -/
  | lineSigUp (l : Fin 4) (pin : Int)
  /-- LINE_SIG_DOWN (R241): The input stays below SIG_THR − 1 dB for 10 µs, SIG becomes 0 and the receiver enters HOLD. -/
  | lineSigDown (l : Fin 4) (pin : Int)
  /-- LINE_CD_SEARCH_DONE (R249): The dispersion search completes and the receiver sets compensation and enters ACQ, or repeats the search when no tone was found. -/
  | lineCdSearchDone (l : Fin 4) (est : Option Int) (fofs clk : Int) (pow : List Nat)
  /-- LINE_ACQ_TIMEOUT (R256): The receiver spends 20 ms in ACQ without LOCKED, discards its estimates and returns to IDLE. -/
  | lineAcqTimeout (l : Fin 4)
  /-- LINE_HOLD_TIMEOUT (R256): The receiver spends 10 ms in HOLD, discards every estimate and returns to IDLE. -/
  | lineHoldTimeout (l : Fin 4)
  /-- LINE_SC_TRACK (R252): A subcarrier equaliser reaches pilot SNR over 16 blocks and enters TRACK; when all enabled subcarriers track, the receiver becomes LOCKED. -/
  | lineScTrack (l : Fin 4) (j : Fin 32)
  /-- LINE_SC_CONVERGE_TIMEOUT (R252): A subcarrier fails to reach TRACK within 1.2 ms and goes LOST, counting LINE_RX_SC_FAIL. -/
  | lineScConvergeTimeout (l : Fin 4) (j : Fin 32)
  /-- LINE_SC_LOST (R252): A tracking subcarrier's pilot SNR falls below 3 dB, it goes LOST and the receiver returns to ACQ. -/
  | lineScLost (l : Fin 4) (j : Fin 32)
  /-- TELEMARK_CYCLE (R243): Every 10 ms the spare ADC slices are calibrated and compared for one interleave position, with rejects counted. -/
  | telemarkCycle (l : Fin 4) (meas : List TelMeas)
  /-- TELEMARK_HANDOVER (R245): At the first allowed line frame after a passing cycle, the spares take the position and the replaced slices become spares. -/
  | telemarkHandover (l : Fin 4)
  /-- LINE_CD_REFINE (R250): Every 1 s in LOCKED, the dispersion estimate is refined and applied at a clear multiframe boundary. -/
  | lineCdRefine (l : Fin 4) (delta : Int)
  /-- LINE_RX_CAL_UPDATE (R247): Every 100 ms the receive front-end corrector is adapted, or LINE_RX_CAL_FAIL is raised when out of limits. -/
  | lineRxCalUpdate (l : Fin 4) (temp : Int) (vals : List Int)
  /-- LINE_QWIN_END (R260): A receive quality window ends and the subcarrier figures, BER and window status are updated together. -/
  | lineQwinEnd (l : Fin 4) (fig : RxFigures)
  /-- LINE_RX_QSTAT_READ (R262): A read of LINE_RX_QSTAT latches the window figures for the reading master. -/
  | lineRxQstatRead (m : Nat) (l : Fin 4)
  /-- LINE_RX_TEST_WRITE (R264): A write of LINE_RX_TEST.MODE starts or ends the PRBS31 check, rejected outside MAINTENANCE and LOCKED. -/
  | lineRxTestWrite (m : Nat) (l : Fin 4) (w : Word)
  /-- LINE_SLOT_TRANSMIT (R282): The transmitter builds and sends one frame slot with header, PSTATE, payload encryption and overhead. -/
  | lineSlotTransmit (l : Fin 4) (hits pt : List (Nat × BitVec 39))
  /-- LINE_SLOT_RECEIVED (R285): A received frame slot drives alignment, defects, overhead and trace, and its payload is checked and released. -/
  | lineSlotReceived (l : Fin 4) (slot : RxSlot) (ovr : Nat) (hits : List (Nat × BitVec 39))
  /-- LINE_OUTER_BLOCK_DONE (R275): An outer block leaves the decoding window, counting its uncorrected rows. -/
  | lineOuterBlockDone (l : Fin 4) (rx : List Int) (ph : Nat) (mf : Option Nat)
  /-- LINE_DEFECT_PERSIST (R290): A persistence time of 3 ms expires and LOF or LOM is declared or cleared, raising LINE_FR_DEFECT. -/
  | lineDefectPersist (l : Fin 4)
  /-- LINE_RX_FALLBACK (R297): LOF for 64 far-end multiframes makes the receiver fall back to the bring-up format and raise LINE_FR_FALLBACK. -/
  | lineRxFallback (l : Fin 4)
  /-- MDC_BLOCK_RECEIVED (R300): A management data channel block completes and enters its slip buffer, or is dropped when two blocks are unread. -/
  | mdcBlockReceived (l : Fin 4) (h : Fin 2)
  /-- MDC_BLOCK_NEEDED (R300): A serial port or transmitting line needs a block and takes one from the slip buffer, repeating the last when none is unread. -/
  | mdcBlockNeeded (l : Fin 4) (h : Fin 2) (port : Bool) (input : List (BitVec 8))
  /-- CH_DS_START (R315): The start LP of a slot enable arrives and the downstream starts sending frames with its ENABLE ramp. -/
  | chDsStart (c : Fin 512)
  /-- CH_DS_DISABLE_START (R315): The start LP of a slot disable arrives and the downstream starts its DISABLE ramp or turns its laser off from WARM. -/
  | chDsDisableStart (c : Fin 512)
  /-- CH_DS_RAMP_END (R316): A downstream ramp ends, moving RAMP_UP to LIT or RAMP_DOWN to DARK. -/
  | chDsRampEnd (c : Fin 512)
  /-- CH_DS_LASER_FAULT (R315): A downstream laser fault turns the laser off at once and raises CH_DS_FAULT. -/
  | chDsLaserFault (c : Fin 512)
  /-- CH_DS_POWER_WRITE (R316): A write of CH_DS_CTL.POWER while ramping up or lit starts a CHANGE ramp. -/
  | chDsPowerWrite (m : Nat) (c : Fin 512) (w : Word)
  /-- CH_WINDOW_OPEN (R326): A burst window from the map opens and the receiver sets its reference level and becomes ARMED. -/
  | chWindowOpen (c : Fin 512) (rx : List (Nat × Int))
  /-- CH_WINDOW_CLOSE (R328): A burst window closes with no step, counting a miss for data and ranging grants. -/
  | chWindowClose (c : Fin 512)
  /-- CH_ENERGY_STEP (R328): The detector finds an energy step, starting a delimiter search when armed or writing an UNSOLICITED record when idle. -/
  | chEnergyStep (c : Fin 512) (j : Nat) (rx : List (Nat × Int))
  /-- CH_DELIMITER_FOUND (R328): The delimiter is found, the burst power and levels are latched and the header is received. -/
  | chDelimiterFound (c : Fin 512) (j : Nat) (pburst : Int) (levels : List Int) (chips : BitVec 32)
  /-- CH_SEARCH_DEADLINE (R328): A delimiter search deadline passes without the delimiter and CH_FALSE_DET is counted. -/
  | chSearchDeadline (c : Fin 512) (rx : List (Nat × Int))
  /-- CH_HEADER_DECODED (R329): A burst header is decoded and checked, writing reports and records or discarding the burst. -/
  | chHeaderDecoded (c : Fin 512) (soft : List Int)
  /-- CH_COLLISION_STEP (R328): A collision step during a burst discards it and starts a capture search. -/
  | chCollisionStep (c : Fin 512) (j : Nat) (rx : List (Nat × Int))
  /-- CH_OVERLAP_STEP (R328): An overlap step during a burst counts CH_OVERLAP and writes one OVERLAP record. -/
  | chOverlapStep (c : Fin 512) (j : Nat) (rx : List (Nat × Int))
  /-- CH_BURST_LOSS (R328): Loss for 4 consecutive detector outputs ends the burst early with a SHORT record. -/
  | chBurstLoss (c : Fin 512) (j : Nat) (rx : List (Nat × Int)) (payload : List (BitVec 8))
  /-- CH_PAYLOAD_END (R328): The last payload symbol of a burst arrives and the receiver looks for the end marker. -/
  | chPayloadEnd (c : Fin 512)
  /-- CH_ENDMARK_DONE (R330): The 32 end-marker symbols are received, the burst is done and its payload is delivered. -/
  | chEndmarkDone (c : Fin 512) (chips : BitVec 32) (payload : List (BitVec 8))
  /-- CH_BURST_LONG (R328): Burst power persists 16 units after the expected end and a LONG record is written. -/
  | chBurstLong (c : Fin 512) (rx : List (Nat × Int))
  /-- CANC_LOAD (R336): A write of CH_CANC_CTL.LOAD starts the shadow tap set as written. -/
  | cancLoad (m : Nat) (c : Fin 512) (w : Word)
  /-- CANC_DROP (R336): A write of CH_CANC_CTL.DROP discards the shadow set at once. -/
  | cancDrop (m : Nat) (c : Fin 512) (w : Word)
  /-- CANC_SHADOW_SWAP (R336): At an access frame boundary after enough adaptation, the shadow set becomes active when its residual is not greater. -/
  | cancShadowSwap (c : Fin 512) (rx : List (Nat × Int))
  /-- CANC_SHADOW_TIMEOUT (R336): No swap within 8,000 frames of loading discards the shadow and raises CH_CANC_KEEP. -/
  | cancShadowTimeout (c : Fin 512)
  /-- OTDR_RUN_START (R339): The start frame of a pending reflectometry run arrives and the run becomes RUNNING. -/
  | otdrRunStart (t : Fin 64)
  /-- OTDR_SHOT (R340): A shot is taken over two quiet frames, or skipped and counted when the maps do not allow it. -/
  | otdrShot (t : Fin 64) (rx : List Int)
  /-- OTDR_RUN_END (R343): A reflectometry run ends DONE or FAILED, replacing the event table and loading shadow sets when APPLY is set. -/
  | otdrRunEnd (t : Fin 64)
  /-- CH_QWIN_END (R344): A channel quality window ends and its figures are updated together. -/
  | chQwinEnd (c : Fin 512) (fig : ChFigures)
  /-- CH_QSTAT_READ (R348): A read of CH_QSTAT latches the channel window figures for the reading master. -/
  | chQstatRead (m : Nat) (c : Fin 512)
  /-- TREE_BEV_E0_READ (R333): A read of TREE_BEV_E0 removes the oldest burst event record and latches E1 and E2. -/
  | treeBevE0Read (m : Nat) (t : Fin 64)
  /-- TREE_RPT_READ (R332): A read of a TREE_RPT word returns the report and clears FRESH. -/
  | treeRptRead (m : Nat) (t : Fin 64) (i : Fin 1024)
  /-- MAP_DEADLINE (R383): At the map deadline of a frame, each slot takes its committed or hold map, builds the downstream control area and arms the upstream frame. -/
  | mapDeadline (t : Fin 64) (hits : List (Fin 8 × Nat × BitVec 39))
  /-- DSM_SET (R365): A write of CH_DSM_CTL.SET marks downstream message slots valid for the next build. -/
  | dsmSet (m : Nat) (c : Fin 512) (w : Word)
  /-- CLIENT_FRAME_RECEIVED (R431): A frame received on a client port is dropped, delivered to an S-core mailbox, or looked up and admitted to its queue. -/
  | clientFrameReceived (p : Fin 16) (frame : List (BitVec 8)) (fcsOk ovr : Bool)
  /-- UPSTREAM_SEGMENT (R411): An upstream segment of an allocation is taken and handled by the reassembly table, lookup and admission. -/
  | upstreamSegment (c : Fin 512) (ovr : Bool)
  /-- UPSTREAM_TAG_RESULT (R416): At t_R the verifier gives a unit's tag result, making it eligible or dropping or truncating it. -/
  | upstreamTagResult (k : Fin 8)
  /-- REASSEMBLY_TIMEOUT (R413): A unit in progress without a segment for 1 s is discarded and counted as UP_TIMEOUT. -/
  | reassemblyTimeout (a : Fin 65536)
  /-- EGRESS_TX_OPPORTUNITY (R421): At a transmit opportunity of an egress point, the two-level DRR scheduler picks a page and queue and sends the oldest packet. -/
  | egressTxOpportunity (e : Fin 532)
  /-- QUEUE_SWEEP (R425): At each superframe boundary every queue's depth and delay are sampled in turn. -/
  | queueSweep
  /-- PORT_LINK_UP (R423): A client port's link comes up and its members may wake under R421. -/
  | portLinkUp (p : Fin 16)
  /-- PORT_LINK_DOWN (R423): A client port's link goes down, its egress stops and marked two-step messages that did not leave count as TIME_TSQ_NOTX. -/
  | portLinkDown (p : Fin 16)
  /-- EDW_SELFTEST_DONE (R446): The pre-operational self-tests and power-up CASTs end, setting APPROVED or entering the error state. -/
  | edwSelftestDone (fail : Option (Fin 12))
  /-- EDW_CAST_PERIODIC (R446): Every 24 h the conditional self-tests run again on the security domain, pipelines and engines. -/
  | edwCastPeriodic (fail : Option (Fin 12))
  /-- ENTROPY_HEALTH_FAIL (R448): A continuous health test of the entropy source fails and the module enters the error state. -/
  | entropyHealthFail (startup : Bool)
  /-- DRBG_RESEED (R448): After 2^20 generate requests or 600 s, the DRBG reseeds and counts EDW_DRBG_RESEED. -/
  | drbgReseed (requests : Bool)
  /-- TRANSPORT_KEY_GEN (R453): With no transport key present after the self-tests, the module generates and tests a transport key pair. -/
  | transportKeyGen (pairwiseOk : Bool)
  /-- TAMPER_TRIP (R450): A tamper sensor trips, the key store is overwritten, a log record is written and zeroise follows or is left pending in BACKUP. -/
  | tamperTrip (sensor : Fin 5)
  /-- ZEROISE_ERASE_DONE (R452): The non-volatile erasures of a zeroise end, within 2 s, releasing BSY. -/
  | zeroiseEraseDone
  /-- KEY_SWITCH (R459): A pending key switch reaches its LP and the active generation of a terminal or line transmit key changes. -/
  | keySwitch (terminal : Bool) (index : Nat)
  /-- MON_PASS_START (R494): A sequence pass starts PERIOD after the previous pass, or when the previous overran, counting MON_SEQ_OVR. -/
  | monPassStart (m : Fin 18)
  /-- MON_SEQ_ENTRY_END (R494): A sequence entry's conversion ends and its sample word is written to MON_RES. -/
  | monSeqEntryEnd (m : Fin 18) (raws : List Int) (bad : Bool)
  /-- MON_INJECT_TAKE (R499): At LP − 1.5 µs an accepted injection takes its converter, abandoning any sequence entry. -/
  | monInjectTake (m : Fin 18)
  /-- MON_INJECT_END (R499): The last sample of an injection is converted and its completion is posted with the sample word. -/
  | monInjectEnd (m : Fin 18) (raws : List Int) (bad : Bool)
  /-- MON_CAL_BEGIN (R502): A pending calibration starts when no injection runs or begins within the next 2.1 ms. -/
  | monCalBegin (m : Fin 18)
  /-- MON_CAL_END (R503): A calibration ends after 2.1 ms and its result is adopted or failed, completing its requests. -/
  | monCalEnd (m : Fin 18) (ofs gain : Int)
  /-- MON_CAL_WAIT (R502): A calibration pending for 1 s raises MON_CAL_WAIT once. -/
  | monCalWait (m : Fin 18)
  /-- MON_POWER_DOWN (R490): A converter with nothing due for 2 µs powers down. -/
  | monPowerDown (m : Fin 18)
  /-- MON_WAKE_DONE (R507): A converter's 1.5 µs start-up ends and it starts its due work. -/
  | monWakeDone (m : Fin 18)
  /-- MON_FACTOR_UPDATE (R504): Every 10 ms the converter's factors in force are recomputed from the temperature sets. -/
  | monFactorUpdate (m : Fin 18) (temp : Int)
  /-- MON_SEQ_CTL_WRITE (R496): A write of MON_SEQ_CTL starts or stops the sequence and changes LAST or PERIOD. -/
  | monSeqCtlWrite (k : Nat) (m : Fin 18) (w : Word)
  /-- GRM_PASS_START (R525): A Groomer walker pass starts PERIOD after the previous one, or at the first superframe boundary after EN. -/
  | grmPassStart (buffer : Bool)
  /-- GRM_LANE_VISIT (R527): The lane walker visits one word, writing back corrections or markers and counting and logging findings. -/
  | grmLaneVisit
  /-- GRM_BUFFER_VISIT (R527): The buffer walker visits one cell of 16 lanes with the same write-back and counting. -/
  | grmBufferVisit
  /-- GRM_DEMAND_VISIT (R529): The Groomer visits an address from its demand queue within 10 µs. -/
  | grmDemandVisit
  /-- GRM_SPARE_COPY_DONE (R531): The copy of a failing row into a spare ends, the row is remapped and GRM_SPARED is raised. -/
  | grmSpareCopyDone
  /-- GRM_RAW_WRITE (R534): GRM_TCMD.OP 1 writes raw data and check bits of one word or buffer lane in MAINTENANCE. -/
  | grmRawWrite (m : Nat) (w : Word)
  /-- GRM_RAW_READ (R534): GRM_TCMD.OP 2 reads the raw stored data and check bits of one word or buffer lane. -/
  | grmRawRead (m : Nat) (w : Word)
  /-- CNT_COUNT_WORD_READ (R547): A single-word load of a counter's count word latches its chain word for that master. -/
  | cntCountWordRead (m index : Nat)
  /-- EVT_SUPERFRAME_SUMMARY (R555): At a superframe boundary in AVALANCHE, summaries and last records of coalesced codes enter the ring. -/
  | evtSuperframeSummary
  /-- EVT_AVALANCHE_EXIT (R555): Fill and rate stay low for 1 s, summaries are emitted, every code closes and the path returns to NORMAL. -/
  | evtAvalancheExit
  /-- TLM_SNAPSHOT (R559): At an access frame start a multiple of PERIOD, an enabled telemetry stream takes a snapshot or skips it. -/
  | tlmSnapshot (strm : Fin 16)
  /-- CORE_SMP_ACK_WRITE (R565): A write of CORE_SMP_ACK removes the N oldest sampling records. -/
  | coreSmpAckWrite (m n : Nat) (w : Word)
  /-- MAINS_CYCLE_END (R576): A mains cycle ends, V_rms and V_low are updated and the budget is recomputed. -/
  | mainsCycleEnd (vrms freq pIn : Nat) (limiting : Bool)
  /-- MAINS_FAIL (R584): Mains fail is declared and the dying sequence stops traffic, ramps lasers down and enters BACKUP. -/
  | mainsFail
  /-- BACKUP_ENTRY (R584): The last SHUTDOWN ramp ends, every domain but always-on goes off and the module is in BACKUP. -/
  | backupEntry
  /-- MAINS_RETURN (R575): Mains is qualified for 500 ms, MAINS_OK becomes 1 and the power-on reset and start-up begin. -/
  | mainsReturn (vrms freq : Nat)
  /-- LOAD_MEASURE (R577): A P_dc update is compared with the budget and a shortfall sheds the fewest domains from the list. -/
  | loadMeasure (pdc : Nat)
  /-- SHED_SETTLE_END (R577): 50 ms after the shed domains are OFF, the load is measured again. -/
  | shedSettleEnd (pdc : Nat)
  /-- FAST_SHED (R579): The bulk bus stays below 360 V and the power manager sheds one domain every 1 ms. -/
  | fastShed (ends : Bool)
  /-- OVERTEMP_SHED (R579): A die temperature above TMAX for 1 s sheds the head of the list. -/
  | overtempShed (temp : Int)
  /-- DOMAIN_RESTORE (R580): Headroom holds for 10 s, or each further second, and the last shed domain is restored. -/
  | domainRestore (cool : Bool)
  /-- DOMAIN_ON (R571): A RISING domain reaches ON. -/
  | domainOn (d : Fin 80) (fails : BitVec 4) (cast : Bool)
  /-- DOMAIN_OFF (R571): A FALLING domain reaches OFF after its ramps. -/
  | domainOff (d : Fin 80)
  /-- DOMAIN_FAULT (R593): A domain supply outside its limits turns the domain off with SHED set. -/
  | domainFault (d : Fin 80)
  /-- CELL_MEASURE (R585): Hourly and at mains return the backup cell is measured and PWR_CELL_LOW raised when low. -/
  | cellMeasure (mv : Nat)
  /-- BACKUP_LOSS (R585): The cell falls below 2.0 V or is removed without mains, and the always-on state is lost. -/
  | backupLoss
  /-- HOST_RESET_PIN (R604): HRST_N sampled low 40 times takes the host reset of the module. -/
  | hostResetPin
  /-- WDOG_ARM (R588): A write of PWR_WDOG_CTL with EN = 1 arms the watchdog with T; later writes are discarded. -/
  | wdogArm (m : Nat) (w : Word)
  /-- WDOG_KICK (R588): A write of PWR_WDOG restarts the timeout for the kick value, or expires the watchdog for any other value. -/
  | wdogKick (m : Nat) (w : Word)
  /-- WDOG_EXPIRE (R588): The watchdog timeout passes without a kick, PWR_WDOG_EXPIRE is logged and the watchdog reset follows. -/
  | wdogExpire
  /-- REGISTER_WRITE (R12): A write to a register field with no behaviour of its own acts by its access code, with the checks of R13 and R14. -/
  | registerWrite (m addr : Nat) (w : Word)
  /-- ILLEGAL_INSTRUCTION (R126): A core fetches an instruction word with a reserved opcode, fn, cond or register number, or a non-zero must-be-zero field, raises ILLEGAL and becomes FAULTED with CORE_FAULT. -/
  | illegalInstruction (n : Nat)
  /-- UNLISTED_OPCODE_COMMAND (R202): A command packet whose opcode is not listed passes intake steps 1–5 and completes E_OPCODE. -/
  | unlistedOpcodeCommand (opcode : BitVec 16) (p : HostPkt)
  /-- HRST_N_RELEASE (R587): HRST_N rises after a host reset, ending the module's self-held reset so that boot starts, or starts at the end of the line ramps if these end later. -/
  | hrstNRelease
  /-- KEY_LOAD_COMPLETE (R463): Up to 2 ms after intake, a KEY.LOAD completes and the key is installed in that clock, resetting U and the counters and, for slot 0, switching the command key used for commands taken from then on. -/
  | keyLoadComplete (tag : Fin 512)
  deriving DecidableEq, Repr

end Sys2Proof
end

