-- ==== Sys2Proof/Decode.lean ====
section
/-! DEFINITION. The decoder over the rows of the table that give bits.  No row of the spec's table gives
bits: its commands are packets, register writes, instructions of a core and events. -/

namespace Sys2Proof

/-- The command a word spells by the table's bits: none, as no row of the table has bits.  The words of
the Hergil instructions are decoded by the cores (`Sys2Proof.Machine.decodeHergil`, R123). (DEDUCED, log entry 8.) -/
def decodeTableWord (_nbits _w : Nat) : Option Instr := none

end Sys2Proof
end

