-- ==== Sys2Proof/Config.lean ====
section
/-! DEFINITION. What the spec leaves open or fixes per module as shipped: opaque constants with no
body, so that nothing can be proved of their values. -/

namespace Sys2Proof

/-- A fresh open value for each reading of the machine's counter `State.free`: a value that the spec
leaves to the hardware (a choice it does not state, a random draw, an identifier). (DESIGN CHOICE, log entry 5.) -/
opaque Config.open : Nat → Nat

/-- The value fused at the factory into the field at a register address and bit position (reset
"fused" of the register tables). (DESIGN CHOICE, log entry 6.) -/
opaque Config.fused : (addr lo : Nat) → Nat

/-- The value a non-volatile store gives the register field at an address and bit position when its
domain powers up (reset "stored"), for a module as shipped. (DESIGN CHOICE, log entry 6.) -/
opaque Config.stored : (addr lo : Nat) → Nat

/-- The word at an offset of the boot ROM of a core kind; the spec does not give its contents. (DESIGN CHOICE, log entry 6.) -/
opaque Config.bootRom : (kind off : Nat) → Nat

/-- The module serial, fused (R471). (DESIGN CHOICE, log entry 6.) -/
opaque Config.serial : Nat

/-- The lot, wafer and die position, fused (R471). (DESIGN CHOICE, log entry 6.) -/
opaque Config.lot : Nat
/-- (DESIGN CHOICE, log entry 6.) -/
opaque Config.wafer : Nat
/-- (DESIGN CHOICE, log entry 6.) -/
opaque Config.dieX : Nat
/-- (DESIGN CHOICE, log entry 6.) -/
opaque Config.dieY : Nat

/-- The optics sub-assembly IDs, fused: lines L0–L3, then clusters 0–7 (R470, R471). (DESIGN CHOICE, log entry 6.) -/
opaque Config.opticsId : Nat → Nat

/-- The identity private key generated at the factory (R471). (DESIGN CHOICE, log entry 6.) -/
opaque Config.identityKey : Nat

/-- The identity certificate: its length and its octets (R470, R471). (DESIGN CHOICE, log entry 6.) -/
opaque Config.certLength : Nat
/-- (DESIGN CHOICE, log entry 6.) -/
opaque Config.certOctet : Nat → Nat

/-- The Ewethar image key, fused: the octets of a public key, x then y (R116). (DESIGN CHOICE, log entry 6.) -/
opaque Config.imageKey : Nat → Nat

/-- The reference image of a core kind: its header words, its body length and its body words (R114). (DESIGN CHOICE, log entry 6.) -/
opaque Config.refHeader : (kind word : Nat) → Nat
/-- (DESIGN CHOICE, log entry 6.) -/
opaque Config.refLength : (kind : Nat) → Nat
/-- (DESIGN CHOICE, log entry 6.) -/
opaque Config.refBody : (kind word : Nat) → Nat

/-- What the PTP program of the S-core image holds: whether G.8275.1 is the active profile, the active domain within those of
the profile, and the clock class that the profile assigns to holdover (R58, R59). (DESIGN CHOICE, log entry 106.) -/
opaque Config.ptpTelecom : Bool
/-- (DESIGN CHOICE, log entry 106.) -/
opaque Config.ptpDomain : Nat
/-- (DESIGN CHOICE, log entry 106.) -/
opaque Config.holdoverClass : Nat

/-- The state of the PRBS31 generator of a line's subcarrier when a test signal begins, by 32 · line + subcarrier; the spec
gives none (R234). (DESIGN CHOICE, log entry 116.) -/
opaque Config.prbsSeed : Nat → Nat

/-- Tap `k` of the filter of a line's DAC as the factory calibrated it for a temperature point (R233, R235, R236). (DESIGN
CHOICE, log entry 117.) -/
opaque Config.dacTap : (line point dac k : Nat) → Int

/-- Shaping, frequency shift and summing of the symbols of line frame `n` into the samples of the four DACs, and the
correction of skew, gain and phase with the calibrated values in force: the symbols as subcarrier, polarisation, I, Q, mean
of I² + Q² and share; the subcarrier of an unmodulated tone (R211, R233, R234). (DESIGN CHOICE, log entry 117.) -/
opaque Config.samples : (n : Nat) → (cal : List Int) → (tone : Option Nat) → (syms : List (List Int)) → (dac : Nat) → List Int

/-- Steps of an output likelihood of the inner decoder that make up the value 1.0 (R271). (DESIGN CHOICE, log entry 118.) -/
opaque Config.likelihoodOne : Nat

/-- Offsets and words of the notice of a calibration window that the K-core image writes into the shared memory of cluster
`k`, for its converter `p` and the tick `start` (R509). (DESIGN CHOICE, log entry 128.) -/
opaque Config.calNotice : (k p start : Nat) → List (Nat × Nat)

/-- The factory slope and intercept of channel `ch` of monitor converter `m` at temperature point `p`: the slope less one in
2^-20, and the intercept in 1/16 code (R488). (DESIGN CHOICE, log entry 135.) -/
opaque Config.monFront : (m ch p : Nat) → List Int

/-- The launch amplitude stored for a launch level in dBm (R334). (DESIGN CHOICE, log entry 124.) -/
opaque Config.launchAmplitude : Rat → Rat

/-- What the trace processor reads at a bin of a trace (R341): the height of the trace above the backscatter, and the fall of
the backscatter across the bin, in 0.05 dB. (DESIGN CHOICE, log entry 125.) -/
opaque Config.tracePeak : (trace : List Rat) → (bin : Nat) → Int
/-- (DESIGN CHOICE, log entry 125.) -/
opaque Config.traceStep : (trace : List Rat) → (bin : Nat) → Int
/-- The reflectance at a bin, and the fibre loss up to it by the backscatter slope, as −0.1 dB and 0.1 dB. (DESIGN CHOICE, log
entry 125.) -/
opaque Config.traceRefl : (trace : List Rat) → (bin : Nat) → Nat
/-- (DESIGN CHOICE, log entry 125.) -/
opaque Config.traceFibre : (trace : List Rat) → (bin : Nat) → Nat
/-- Whether the backscatter at a bin lies in the noise. (DESIGN CHOICE, log entry 125.) -/
opaque Config.traceNoise : (trace : List Rat) → (bin : Nat) → Bool

end Sys2Proof
end

