-- ==== Sys2Proof/Machine/Codes.lean ====
section
/-! DEFINITION. Event and counter codes: code numbers (R537), kinds (R549), keepings (R539) and counter
indices (R541, R542).  The names of each group are those of the closing rule of a chapter, in its order. -/

namespace Sys2Proof.Machine

/-- What a code produces: a counter only, an event record, or a priority-0 event record (R549). -/
inductive CodeKind
  | counter | event | priority0
  deriving DecidableEq, Repr

/-- How the counters of a code are kept (R539). -/
inductive Keep
  | module | line | channel | tree | port | page | core | converter | domain | matrix | face | memory
  | stream | engStatus | svcStatus | refuse | testErr | mailbox | slip | prog
  deriving DecidableEq, Repr

/-- The number of instances of a keeping (R539, R540, R543). -/
def Keep.size : Keep → Nat
  | .module => 1
  | .line => 4
  | .channel => 512
  | .tree => 64
  | .port => 16
  | .page => 64
  | .core => 77
  | .converter => 18
  | .domain => 80
  | .matrix => 9
  | .face => 532
  | .memory => 179
  | .stream => 16
  | .engStatus => 5082
  | .svcStatus => 1280
  | .refuse => 24
  | .testErr => 128
  | .mailbox => 308
  | .slip => 12
  | .prog => 4928

/-- A code with its number, its keepings (instances of the first, then of the second) and its kind. -/
structure Code where
  num : Nat
  keep : List Keep
  kind : CodeKind
  deriving DecidableEq, Repr

/-- COUNT of a code (R539). -/
def Code.count (c : Code) : Nat := (c.keep.map Keep.size).sum

namespace Ev

-- the names of R76
def TIME_LOCK : Code := ⟨0x010, [.module], .event⟩
def TIME_HOLDOVER : Code := ⟨0x011, [.module], .event⟩
def TIME_JUMP : Code := ⟨0x012, [.module], .event⟩
def TIME_RESTEP_DONE : Code := ⟨0x013, [.module], .event⟩
def TIME_OUTLIER : Code := ⟨0x014, [.module], .counter⟩
def TIME_TSQ_DROP : Code := ⟨0x015, [.module], .counter⟩
def TIME_TSQ_NOTX : Code := ⟨0x016, [.module], .counter⟩
def PTP_UNSUPP : Code := ⟨0x017, [.port], .counter⟩
def RTC_STEP : Code := ⟨0x018, [.module], .event⟩
-- the names of R122
def MTX_DECERR : Code := ⟨0x020, [.matrix], .counter⟩
def MTX_HOLD_ORD : Code := ⟨0x021, [.matrix], .counter⟩
def MTX_HOLD_DL : Code := ⟨0x022, [.matrix], .counter⟩
def MTX_STARVE : Code := ⟨0x023, [.matrix], .counter⟩
def MTX_BURST_ABORT : Code := ⟨0x024, [.matrix], .event⟩
def WIN_DENY : Code := ⟨0x025, [.core], .counter⟩
def WIN_OOB : Code := ⟨0x026, [.core], .counter⟩
def WIN_MERGE_POISON : Code := ⟨0x027, [.core], .counter⟩
def IMG_REJECT : Code := ⟨0x028, [.module], .event⟩
def IMG_LOADED : Code := ⟨0x029, [.module], .event⟩
def IMG_FALLBACK : Code := ⟨0x02a, [.module], .priority0⟩
-- the names of R165
def CORE_FAULT : Code := ⟨0x030, [.core], .event⟩
def CORE_AT_ERR : Code := ⟨0x031, [.core], .event⟩
def AT_LATE : Code := ⟨0x032, [.core], .counter⟩
def AT_ERR : Code := ⟨0x033, [.core], .counter⟩
def ENG_WAIT_FREE : Code := ⟨0x034, [.core], .counter⟩
def POISON_CLR : Code := ⟨0x035, [.core], .counter⟩
def ENG_STATUS : Code := ⟨0x036, [.engStatus], .counter⟩
-- the names of R209
def SVC_OS_BAD : Code := ⟨0x040, [.module], .counter⟩
def SVC_CV : Code := ⟨0x041, [.module], .counter⟩
def SVC_BRINGUP_RETRY : Code := ⟨0x042, [.module], .counter⟩
def SVC_SKEW : Code := ⟨0x043, [.module], .counter⟩
def SVC_LINK_DOWN : Code := ⟨0x044, [.module], .event⟩
def SVC_EQM_LOW : Code := ⟨0x045, [.module], .event⟩
def SVC_LOOP_DONE : Code := ⟨0x046, [.module], .event⟩
def SVC_OH_BAD : Code := ⟨0x047, [.module], .counter⟩
def SVC_CRC : Code := ⟨0x048, [.module], .counter⟩
def SVC_BADTYPE : Code := ⟨0x049, [.module], .counter⟩
def SVC_TAG_DUP : Code := ⟨0x04a, [.module], .counter⟩
def SVC_AUTH_FAIL : Code := ⟨0x04b, [.page], .priority0⟩
def SVC_REPLAY : Code := ⟨0x04c, [.page], .counter⟩
def SVC_CTR_HIGH : Code := ⟨0x04d, [.page], .event⟩
def SVC_PAGE_LOCK : Code := ⟨0x04e, [.page], .priority0⟩
def SVC_STATUS : Code := ⟨0x04f, [.svcStatus], .counter⟩
-- the names of R238
def LINE_LOAD_SWITCH : Code := ⟨0x050, [.line], .event⟩
def LINE_LOAD_LOWSNR : Code := ⟨0x051, [.line], .event⟩
def LINE_TX_FALLBACK : Code := ⟨0x052, [.line], .event⟩
def LINE_TX_FAULT : Code := ⟨0x053, [.line], .event⟩
def LINE_TX_CAL_DONE : Code := ⟨0x054, [.line], .event⟩
def LINE_TX_CAL_FAIL : Code := ⟨0x055, [.line], .event⟩
def LINE_PROF_BAD : Code := ⟨0x056, [.line], .counter⟩
def LINE_TX_CLIPPED : Code := ⟨0x057, [.line], .counter⟩
def LINE_TX_REFUSE : Code := ⟨0x058, [.refuse], .counter⟩
-- the names of R266
def LINE_RX_FAULT : Code := ⟨0x060, [.line], .event⟩
def LINE_RX_CD_FAIL : Code := ⟨0x061, [.line], .counter⟩
def LINE_RX_ACQ_RETRY : Code := ⟨0x062, [.line], .counter⟩
def LINE_RX_LOCK : Code := ⟨0x063, [.line], .event⟩
def LINE_RX_UNLOCK : Code := ⟨0x064, [.line], .event⟩
def LINE_RX_HOLD : Code := ⟨0x065, [.line], .event⟩
def LINE_RX_SC_FAIL : Code := ⟨0x066, [.line], .counter⟩
def LINE_RX_SLIP : Code := ⟨0x067, [.line], .counter⟩
def LINE_RX_LATE_SWITCH : Code := ⟨0x068, [.line], .counter⟩
def LINE_RX_SET_MISMATCH : Code := ⟨0x069, [.line], .event⟩
def LINE_RX_CAL_FAIL : Code := ⟨0x06a, [.line], .event⟩
def LINE_TEL_ROT : Code := ⟨0x06b, [.line], .counter⟩
def LINE_TEL_REJECT : Code := ⟨0x06c, [.line], .counter⟩
def LINE_TEL_NOSPARE : Code := ⟨0x06d, [.line], .event⟩
def LINE_RX_TEST_ERR : Code := ⟨0x06e, [.testErr], .counter⟩
-- the names of R307
def LINE_FEC_LOWREL : Code := ⟨0x070, [.line], .counter⟩
def LINE_FEC_PRE : Code := ⟨0x071, [.line], .counter⟩
def LINE_FEC_MID : Code := ⟨0x072, [.line], .counter⟩
def LINE_FEC_UNCORR : Code := ⟨0x073, [.line], .event⟩
def LINE_FEC_UNCORR_FRAME : Code := ⟨0x074, [.line], .event⟩
def LINE_FR_BIP : Code := ⟨0x075, [.line], .counter⟩
def LINE_FR_PSTATE_BAD : Code := ⟨0x076, [.line], .event⟩
def LINE_FR_CAND_FULL : Code := ⟨0x077, [.line], .event⟩
def LINE_FR_OOF : Code := ⟨0x078, [.line], .event⟩
def LINE_FR_BPTR_FAIL : Code := ⟨0x079, [.line], .event⟩
def LINE_FR_MFC_ERR : Code := ⟨0x07a, [.line], .event⟩
def LINE_FR_DEFECT : Code := ⟨0x07b, [.line], .event⟩
def LINE_FR_SW_UNEXP : Code := ⟨0x07c, [.line], .event⟩
def LINE_FR_FALLBACK : Code := ⟨0x07d, [.line], .event⟩
def LINE_LDC_CRC : Code := ⟨0x07e, [.line], .event⟩
def LINE_PKT_HCRC : Code := ⟨0x07f, [.line], .event⟩
def LINE_ENC_LIMIT : Code := ⟨0x080, [.line], .event⟩
def LINE_ENC_CLEAR : Code := ⟨0x081, [.line], .event⟩
def LINE_ENC_NOKEY : Code := ⟨0x082, [.line], .event⟩
def LINE_ENC_REPLAY : Code := ⟨0x083, [.line], .priority0⟩
def LINE_TAG_FAIL : Code := ⟨0x084, [.line], .priority0⟩
def LINE_PT_DROP : Code := ⟨0x085, [.line], .event⟩
def LINE_OH_SLIP_DROP : Code := ⟨0x086, [.slip], .event⟩
def LINE_OH_SLIP_REP : Code := ⟨0x087, [.slip], .event⟩
def LINE_TTI_NEW : Code := ⟨0x088, [.line], .event⟩
-- the names of R353
def CH_DS_FAULT : Code := ⟨0x090, [.channel], .event⟩
def CH_GRANT_SHORT : Code := ⟨0x091, [.channel], .counter⟩
def CH_UNSOL : Code := ⟨0x092, [.channel], .counter⟩
def CH_BURST_MISS : Code := ⟨0x093, [.channel], .counter⟩
def CH_REARM : Code := ⟨0x094, [.channel], .counter⟩
def CH_FALSE_DET : Code := ⟨0x095, [.channel], .counter⟩
def CH_COLLISION : Code := ⟨0x096, [.channel], .counter⟩
def CH_OVERLAP : Code := ⟨0x097, [.channel], .counter⟩
def CH_END_MISS : Code := ⟨0x098, [.channel], .counter⟩
def CH_HDR_CRC : Code := ⟨0x099, [.channel], .counter⟩
def CH_ALLOC_MISMATCH : Code := ⟨0x09a, [.channel], .counter⟩
def CH_MSG_UNGRANTED : Code := ⟨0x09b, [.channel], .counter⟩
def CH_BURST_OK : Code := ⟨0x09c, [.channel], .counter⟩
def CH_RS_CORR : Code := ⟨0x09d, [.channel], .counter⟩
def CH_RS_UNCORR : Code := ⟨0x09e, [.channel], .counter⟩
def CH_CANC_SWAP : Code := ⟨0x09f, [.channel], .counter⟩
def CH_CANC_KEEP : Code := ⟨0x0a0, [.channel], .event⟩
def TREE_BEV_DROP : Code := ⟨0x0a1, [.tree], .event⟩
def TREE_OTDR_SKIP : Code := ⟨0x0a2, [.tree], .counter⟩
def TREE_OTDR_DONE : Code := ⟨0x0a3, [.tree], .event⟩
def TREE_OTDR_FAIL : Code := ⟨0x0a4, [.tree], .event⟩
-- the names of R396
def CH_MAP_HOLD : Code := ⟨0x0b0, [.channel], .counter⟩
def TREE_MAP_STALL : Code := ⟨0x0b1, [.channel], .event⟩
def TREE_MSG_BAD : Code := ⟨0x0b2, [.tree], .counter⟩
def TREE_UP_NOTACT : Code := ⟨0x0b3, [.tree], .counter⟩
def TREE_ANN_REPEAT : Code := ⟨0x0b4, [.tree], .counter⟩
def TREE_ROGUE_EXT : Code := ⟨0x0b5, [.tree], .event⟩
def TRM_ACTIVE : Code := ⟨0x0b6, [.tree], .event⟩
def TRM_RERANGE : Code := ⟨0x0b7, [.tree], .event⟩
def TRM_LOST : Code := ⟨0x0b8, [.tree], .event⟩
def TRM_ROGUE : Code := ⟨0x0b9, [.tree], .event⟩
def SLALOM_MOVE : Code := ⟨0x0ba, [.tree], .event⟩
def SLALOM_FAIL : Code := ⟨0x0bb, [.tree], .event⟩
-- the names of R441
def FWD_NOMATCH : Code := ⟨0x0c0, [.page, .face], .counter⟩
def FWD_MODE_DROP : Code := ⟨0x0c1, [.face], .counter⟩
def FWD_TAG_FAIL : Code := ⟨0x0c2, [.page], .counter⟩
def FWD_CT_ABORT : Code := ⟨0x0c3, [.port], .event⟩
def UP_RSBAD : Code := ⟨0x0c4, [.tree, .page], .counter⟩
def UP_SEQ : Code := ⟨0x0c5, [.tree, .page], .counter⟩
def UP_ORPHAN : Code := ⟨0x0c6, [.tree, .page], .counter⟩
def UP_LEN : Code := ⟨0x0c7, [.tree, .page], .counter⟩
def UP_CLEAR : Code := ⟨0x0c8, [.tree, .page], .counter⟩
def UP_TIMEOUT : Code := ⟨0x0c9, [.tree, .page], .counter⟩
def UP_POLICE : Code := ⟨0x0ca, [.tree, .page], .counter⟩
def BUF_NODESC : Code := ⟨0x0cb, [.page], .counter⟩
def BUF_IN_DROP : Code := ⟨0x0cc, [.face], .counter⟩
def BUF_LOW : Code := ⟨0x0cd, [.module], .event⟩
def QUE_DROP_BUF : Code := ⟨0x0ce, [.page], .counter⟩
def QUE_DROP_PAGE : Code := ⟨0x0cf, [.page], .counter⟩
def QUE_DROP_Q : Code := ⟨0x0d0, [.page], .counter⟩
def MBX_FULL : Code := ⟨0x0d1, [.mailbox], .counter⟩
def PORT_FCS : Code := ⟨0x0d2, [.port], .counter⟩
def PORT_LEN : Code := ⟨0x0d3, [.port], .counter⟩
def PORT_MACCTL : Code := ⟨0x0d4, [.port], .counter⟩
def PORT_TX_LEN : Code := ⟨0x0d5, [.port], .counter⟩
-- the names of R481
def EDW_SELFTEST_FAIL : Code := ⟨0x0e0, [.module], .priority0⟩
def EDW_TAMPER : Code := ⟨0x0e1, [.module], .priority0⟩
def EDW_ZEROISED : Code := ⟨0x0e2, [.module], .priority0⟩
def EDW_BACKUP_LOST : Code := ⟨0x0e3, [.module], .priority0⟩
def EDW_CKEY_CHANGE : Code := ⟨0x0e4, [.page], .priority0⟩
def EDW_RECOVER : Code := ⟨0x0e5, [.module], .priority0⟩
def EDW_KEY_LIMIT : Code := ⟨0x0e6, [.page], .priority0⟩
def EDW_TRM_TAGFAIL : Code := ⟨0x0e7, [.page], .priority0⟩
def EDW_KEY_HIGH : Code := ⟨0x0e8, [.page], .event⟩
def EDW_KEY_LOADED : Code := ⟨0x0e9, [.page], .counter⟩
def EDW_KEY_ERASED : Code := ⟨0x0ea, [.page], .counter⟩
def EDW_UNWRAP_FAIL : Code := ⟨0x0eb, [.page], .counter⟩
def EDW_LIMIT_DROP : Code := ⟨0x0ec, [.page], .counter⟩
def EDW_NOKEY_DROP : Code := ⟨0x0ed, [.page], .counter⟩
def EDW_DRBG_RESEED : Code := ⟨0x0ee, [.module], .counter⟩
def UP_REPLAY : Code := ⟨0x0ef, [.tree, .page], .counter⟩
-- the names of R515
def MON_PREEMPT : Code := ⟨0x0f0, [.converter], .counter⟩
def MON_SETTLE : Code := ⟨0x0f1, [.converter], .counter⟩
def MON_SEQ_OVR : Code := ⟨0x0f2, [.converter], .counter⟩
def MON_INJ_CONFLICT : Code := ⟨0x0f3, [.converter], .counter⟩
def MON_CAL_DONE : Code := ⟨0x0f4, [.converter], .counter⟩
def MON_CAL_FAIL : Code := ⟨0x0f5, [.converter], .event⟩
def MON_CAL_WAIT : Code := ⟨0x0f6, [.converter], .event⟩
def MON_PLAUS : Code := ⟨0x0f7, [.converter], .event⟩
-- the names of R536
def MEM_CORR : Code := ⟨0x100, [.memory], .counter⟩
def MEM_UNCORR : Code := ⟨0x101, [.memory], .event⟩
def GRM_CORR : Code := ⟨0x102, [.memory], .counter⟩
def GRM_POISON_SEEN : Code := ⟨0x103, [.memory], .counter⟩
def GRM_MARK_FIX : Code := ⟨0x104, [.memory], .counter⟩
def GRM_QDROP : Code := ⟨0x105, [.memory], .counter⟩
def GRM_HARD : Code := ⟨0x106, [.memory], .counter⟩
def GRM_UNCORR : Code := ⟨0x107, [.memory], .event⟩
def GRM_SPARED : Code := ⟨0x108, [.module], .event⟩
def GRM_RETIRE : Code := ⟨0x109, [.module], .event⟩
def BUF_POISON_DROP : Code := ⟨0x10a, [.page], .counter⟩
def MEM_TBL_DROP : Code := ⟨0x10b, [.page], .counter⟩
def BUF_POISON_ABORT : Code := ⟨0x10c, [.port], .counter⟩
def FRM_UNCORR : Code := ⟨0x10d, [.line, .channel], .counter⟩
-- the names of R538
def CNT_STICK : Code := ⟨0x110, [.module], .event⟩
def CNT_RESTART : Code := ⟨0x111, [.module], .event⟩
def REG_RWL_REFUSE : Code := ⟨0x112, [.module], .counter⟩
def EVT_AVALANCHE : Code := ⟨0x113, [.module], .priority0⟩
def EVT_AVALANCHE_EXIT : Code := ⟨0x114, [.module], .event⟩
def EVT_COALESCED : Code := ⟨0x115, [.module], .counter⟩
def EVT_P0_COALESCED : Code := ⟨0x116, [.module], .counter⟩
def TLM_SKIP : Code := ⟨0x117, [.stream], .counter⟩
def SMP_DROP : Code := ⟨0x118, [.core], .counter⟩
def PROG : Code := ⟨0x119, [.prog], .counter⟩
def SVC_NO_INTAKE : Code := ⟨0x11a, [.module], .counter⟩
-- the names of R593
def PWR_MAINS_FAIL : Code := ⟨0x120, [.module], .priority0⟩
def PWR_MAINS_RETURN : Code := ⟨0x121, [.module], .priority0⟩
def PWR_LOWLINE : Code := ⟨0x122, [.module], .event⟩
def PWR_SHED : Code := ⟨0x123, [.domain], .priority0⟩
def PWR_RESTORE : Code := ⟨0x124, [.domain], .priority0⟩
def PWR_MODE : Code := ⟨0x125, [.module], .priority0⟩
def PWR_RESET : Code := ⟨0x126, [.module], .priority0⟩
def PWR_WDOG_EXPIRE : Code := ⟨0x127, [.module], .priority0⟩
def PWR_CELL_LOW : Code := ⟨0x128, [.module], .event⟩
def PWR_FASTSHED : Code := ⟨0x129, [.module], .priority0⟩
def PWR_OVERTEMP : Code := ⟨0x12a, [.domain], .priority0⟩
def PWR_DOMAIN_FAULT : Code := ⟨0x12b, [.domain], .priority0⟩
def PWR_ILIM_MS : Code := ⟨0x12c, [.module], .counter⟩

end Ev

open Ev

/-- The codes of R76, in code order. -/
def codesR76 : List Code :=
  [TIME_LOCK, TIME_HOLDOVER, TIME_JUMP, TIME_RESTEP_DONE, TIME_OUTLIER, TIME_TSQ_DROP,
   TIME_TSQ_NOTX, PTP_UNSUPP, RTC_STEP]

/-- The codes of R122, in code order. -/
def codesR122 : List Code :=
  [MTX_DECERR, MTX_HOLD_ORD, MTX_HOLD_DL, MTX_STARVE, MTX_BURST_ABORT, WIN_DENY,
   WIN_OOB, WIN_MERGE_POISON, IMG_REJECT, IMG_LOADED, IMG_FALLBACK]

/-- The codes of R165, in code order. -/
def codesR165 : List Code :=
  [CORE_FAULT, CORE_AT_ERR, AT_LATE, AT_ERR, ENG_WAIT_FREE, POISON_CLR,
   ENG_STATUS]

/-- The codes of R209, in code order. -/
def codesR209 : List Code :=
  [SVC_OS_BAD, SVC_CV, SVC_BRINGUP_RETRY, SVC_SKEW, SVC_LINK_DOWN, SVC_EQM_LOW,
   SVC_LOOP_DONE, SVC_OH_BAD, SVC_CRC, SVC_BADTYPE, SVC_TAG_DUP, SVC_AUTH_FAIL,
   SVC_REPLAY, SVC_CTR_HIGH, SVC_PAGE_LOCK, SVC_STATUS]

/-- The codes of R238, in code order. -/
def codesR238 : List Code :=
  [LINE_LOAD_SWITCH, LINE_LOAD_LOWSNR, LINE_TX_FALLBACK, LINE_TX_FAULT, LINE_TX_CAL_DONE, LINE_TX_CAL_FAIL,
   LINE_PROF_BAD, LINE_TX_CLIPPED, LINE_TX_REFUSE]

/-- The codes of R266, in code order. -/
def codesR266 : List Code :=
  [LINE_RX_FAULT, LINE_RX_CD_FAIL, LINE_RX_ACQ_RETRY, LINE_RX_LOCK, LINE_RX_UNLOCK, LINE_RX_HOLD,
   LINE_RX_SC_FAIL, LINE_RX_SLIP, LINE_RX_LATE_SWITCH, LINE_RX_SET_MISMATCH, LINE_RX_CAL_FAIL, LINE_TEL_ROT,
   LINE_TEL_REJECT, LINE_TEL_NOSPARE, LINE_RX_TEST_ERR]

/-- The codes of R307, in code order. -/
def codesR307 : List Code :=
  [LINE_FEC_LOWREL, LINE_FEC_PRE, LINE_FEC_MID, LINE_FEC_UNCORR, LINE_FEC_UNCORR_FRAME, LINE_FR_BIP,
   LINE_FR_PSTATE_BAD, LINE_FR_CAND_FULL, LINE_FR_OOF, LINE_FR_BPTR_FAIL, LINE_FR_MFC_ERR, LINE_FR_DEFECT,
   LINE_FR_SW_UNEXP, LINE_FR_FALLBACK, LINE_LDC_CRC, LINE_PKT_HCRC, LINE_ENC_LIMIT, LINE_ENC_CLEAR,
   LINE_ENC_NOKEY, LINE_ENC_REPLAY, LINE_TAG_FAIL, LINE_PT_DROP, LINE_OH_SLIP_DROP, LINE_OH_SLIP_REP,
   LINE_TTI_NEW]

/-- The codes of R353, in code order. -/
def codesR353 : List Code :=
  [CH_DS_FAULT, CH_GRANT_SHORT, CH_UNSOL, CH_BURST_MISS, CH_REARM, CH_FALSE_DET,
   CH_COLLISION, CH_OVERLAP, CH_END_MISS, CH_HDR_CRC, CH_ALLOC_MISMATCH, CH_MSG_UNGRANTED,
   CH_BURST_OK, CH_RS_CORR, CH_RS_UNCORR, CH_CANC_SWAP, CH_CANC_KEEP, TREE_BEV_DROP,
   TREE_OTDR_SKIP, TREE_OTDR_DONE, TREE_OTDR_FAIL]

/-- The codes of R396, in code order. -/
def codesR396 : List Code :=
  [CH_MAP_HOLD, TREE_MAP_STALL, TREE_MSG_BAD, TREE_UP_NOTACT, TREE_ANN_REPEAT, TREE_ROGUE_EXT,
   TRM_ACTIVE, TRM_RERANGE, TRM_LOST, TRM_ROGUE, SLALOM_MOVE, SLALOM_FAIL]

/-- The codes of R441, in code order. -/
def codesR441 : List Code :=
  [FWD_NOMATCH, FWD_MODE_DROP, FWD_TAG_FAIL, FWD_CT_ABORT, UP_RSBAD, UP_SEQ,
   UP_ORPHAN, UP_LEN, UP_CLEAR, UP_TIMEOUT, UP_POLICE, BUF_NODESC,
   BUF_IN_DROP, BUF_LOW, QUE_DROP_BUF, QUE_DROP_PAGE, QUE_DROP_Q, MBX_FULL,
   PORT_FCS, PORT_LEN, PORT_MACCTL, PORT_TX_LEN]

/-- The codes of R481, in code order. -/
def codesR481 : List Code :=
  [EDW_SELFTEST_FAIL, EDW_TAMPER, EDW_ZEROISED, EDW_BACKUP_LOST, EDW_CKEY_CHANGE, EDW_RECOVER,
   EDW_KEY_LIMIT, EDW_TRM_TAGFAIL, EDW_KEY_HIGH, EDW_KEY_LOADED, EDW_KEY_ERASED, EDW_UNWRAP_FAIL,
   EDW_LIMIT_DROP, EDW_NOKEY_DROP, EDW_DRBG_RESEED, UP_REPLAY]

/-- The codes of R515, in code order. -/
def codesR515 : List Code :=
  [MON_PREEMPT, MON_SETTLE, MON_SEQ_OVR, MON_INJ_CONFLICT, MON_CAL_DONE, MON_CAL_FAIL,
   MON_CAL_WAIT, MON_PLAUS]

/-- The codes of R536, in code order. -/
def codesR536 : List Code :=
  [MEM_CORR, MEM_UNCORR, GRM_CORR, GRM_POISON_SEEN, GRM_MARK_FIX, GRM_QDROP,
   GRM_HARD, GRM_UNCORR, GRM_SPARED, GRM_RETIRE, BUF_POISON_DROP, MEM_TBL_DROP,
   BUF_POISON_ABORT, FRM_UNCORR]

/-- The codes of R538, in code order. -/
def codesR538 : List Code :=
  [CNT_STICK, CNT_RESTART, REG_RWL_REFUSE, EVT_AVALANCHE, EVT_AVALANCHE_EXIT, EVT_COALESCED,
   EVT_P0_COALESCED, TLM_SKIP, SMP_DROP, PROG, SVC_NO_INTAKE]

/-- The codes of R593, in code order. -/
def codesR593 : List Code :=
  [PWR_MAINS_FAIL, PWR_MAINS_RETURN, PWR_LOWLINE, PWR_SHED, PWR_RESTORE, PWR_MODE,
   PWR_RESET, PWR_WDOG_EXPIRE, PWR_CELL_LOW, PWR_FASTSHED, PWR_OVERTEMP, PWR_DOMAIN_FAULT,
   PWR_ILIM_MS]

/-- Every code, in code order (R537). -/
def allCodes : List Code :=
  codesR76 ++ codesR122 ++ codesR165 ++ codesR209 ++ codesR238 ++ codesR266 ++ codesR307 ++ codesR353 ++
  codesR396 ++ codesR441 ++ codesR481 ++ codesR515 ++ codesR536 ++ codesR538 ++ codesR593

/-- The code of a number, when it is assigned. -/
def codeOf (h : Nat) : Option Code := allCodes.find? fun c => c.num = h

/-- The sum of the COUNTs of the codes of a list that lie below number `h`. -/
def countsBelow (h : Nat) : List Code → Nat
  | [] => 0
  | c :: t => (if c.num < h then c.count else 0) + countsBelow h t

/-- BASE of a code: the first of its counter indices (R542). -/
def Code.base (c : Code) : Nat := countsBelow c.num allCodes

/-- The first index above the general range (R541, R542). -/
def generalEnd : Nat := countsBelow 4096 allCodes

/-- The code whose counters hold an index of the general range, with the instance. -/
def codeAt (x : Nat) : List Code → Option (Code × Nat)
  | [] => none
  | c :: t => if x < c.count then some (c, x) else codeAt (x - c.count) t

/-- The page that owns instance `j` of a keeping list, when it has one (R569). -/
def keepPage : List Keep → Nat → Option Nat
  | [], _ => none
  | k :: t, j =>
    if j < k.size then
      match k with
      | .page => some j
      | .svcStatus => some (j / 20)
      | _ => none
    else keepPage t (j - k.size)

end Sys2Proof.Machine
end

