-- ==== Sys2Proof/Machine/Sparse.lean ====
section
/-! DEFINITION. Sparse tables in one canonical form: key and value pairs with strictly rising keys and
no entry equal to what an unlisted key reads as.  Registers, memory, counters and the per-instance
records of the machine are such tables. -/

namespace Sys2Proof.Machine

/-- The value at key `k`; an unlisted key reads `d k`. -/
def sget {α : Type} (d : Nat → α) : List (Nat × α) → Nat → α
  | [], k => d k
  | (j, v) :: t, k => if j = k then v else sget d t k

/-- The table without the keys that `p` names: they read as unlisted again. -/
def sdrop {α : Type} (p : Nat → Bool) (t : List (Nat × α)) : List (Nat × α) := t.filter fun e => !p e.1

/-- The table with the entry of key `k` set, in key order. -/
def sins {α : Type} : List (Nat × α) → Nat → α → List (Nat × α)
  | [], k, v => [(k, v)]
  | (j, u) :: t, k, v =>
    if k < j then (k, v) :: (j, u) :: t
    else if j = k then (k, v) :: t
    else (j, u) :: sins t k v

/-- The table with value `v` at key `k`; writing what an unlisted key reads as removes the entry. -/
def sput {α : Type} [DecidableEq α] (d : Nat → α) (t : List (Nat × α)) (k : Nat) (v : α) : List (Nat × α) :=
  if v = d k then sdrop (fun j => j == k) t else sins t k v

/-- The canonical form: keys strictly rising from `lo`, no entry equal to its default. -/
def swfFrom {α : Type} [DecidableEq α] (d : Nat → α) : Nat → List (Nat × α) → Bool
  | _, [] => true
  | lo, (j, v) :: t => decide (lo ≤ j) && decide (v ≠ d j) && swfFrom d (j + 1) t

/-- The canonical form of a whole table. -/
def swf {α : Type} [DecidableEq α] (d : Nat → α) (t : List (Nat × α)) : Bool := swfFrom d 0 t

end Sys2Proof.Machine
end

