-- ==== Sys2Proof/Machine/State.lean ====
section
/-! DEFINITION. The state of the module as plain data, its faults and refusals, and the state after
reset.  The registers of spec/02 to spec/16 are one sparse table of words by global word address
(`regs`), whose unlisted words read their reset values; the records below hold what the spec gives
the module beside its registers.  A field that is "the home of" a register is what that register
shows. -/

namespace Sys2Proof.Machine

/-- Faults of the block.  None is raised: every misuse the spec describes has an effect of its own (an
exception of a core, an error response, a completion status), so the type has no constructor. -/
inductive Fault
  deriving DecidableEq, Repr

/-- Refusals. -/
inductive Refusal
  /-- The command has no meaning yet; raised by the dispatch alone.  Safe: the run stops. -/
  | notModelled (mnemonic : String)
  deriving DecidableEq, Repr

/-! ### The timebase (spec/02) -/

/-- An entry of the two-step queue (R63): the message, its transmit stamp in 2^-16 ns, and the clock in which it was
written (R64). -/
structure TsqEntry where
  port : Nat
  msg : TwoStepMsg
  stamp : Int
  clk : Nat
  deriving DecidableEq, Repr

/-- An accepted re-step that waits for its boundary (R56): the new offset in 2^-16 ns, the superframe,
whether a jump was declared after acceptance, and the tick of its acceptance. -/
structure Restep where
  offset : Int
  sf : Nat
  jumpAfter : Bool
  at_ : Nat
  deriving DecidableEq, Repr

/-- Internal state of the servo and the time inputs and outputs, beside the `TIME` registers. (DESIGN CHOICE, log entry 4.) -/
structure TimeSt where
  /-- tick of the last measurement formed (R44) -/
  lastMeas : Option Nat := none
  /-- a qualified Announce was received and its timeout has not been reported (R44) -/
  annOk : Bool := false
  /-- the 10 MHz input was last reported within ±2 ppm (R44) -/
  tenOk : Bool := false
  /-- tick of the last accepted 1PPS edge (R44) -/
  lastAcc : Option Nat := none
  /-- tick of the last taken 1PPS edge (R45) -/
  lastTaken : Option Nat := none
  /-- network-time seconds of the next taken edge (R45) -/
  todNext : Option Nat := none
  /-- measurements counted in ACQUIRE, the first and the last p, in 2^-16 ns (R49, R627) -/
  acqCount : Nat := 0
  acqFirst : Int := 0
  acqLast : Int := 0
  /-- consecutive in-threshold measurements in HOLDOVER (R627) -/
  consec : Nat := 0
  /-- the outlier run: sign, length, sum of e (R49, R54) -/
  runNeg : Bool := false
  runLen : Nat := 0
  runSum : Int := 0
  /-- mean of the outlier run that set JUMP (R54) -/
  jumpMean : Int := 0
  /-- time spent LOCKED, newest first, as ticks and the rate in force, over the last 64 s; and the tick
  from which the present rate counts (R50) -/
  rates : List (Nat × Int) := []
  segAt : Nat := 0
  /-- rates of the last second that are no longer in force, newest first, with the tick of their end (R47) -/
  lately : List (Nat × Int) := []
  /-- the last measurement applied since the servo last changed its basis: its tick and its error (R47) -/
  lastErr : Option (Nat × Int) := none
  /-- ticks of the Sync and of the Announce messages received, and of the Delay_Req messages sent, in the last second on the
  slave port, newest first (R58) -/
  ptpSyncs : List Nat := []
  ptpAnns : List Nat := []
  ptpReqs : List Nat := []
  /-- the mapping offset M, in 2^-16 ns (R40); the home of `TIME_MAP` -/
  offset : Nat := 0
  restep : Option Restep := none
  /-- level of the 1PPS output and tick of its last rise (R66) -/
  ppsOut : Bool := false
  ppsRise : Option Nat := none
  tsq : List TsqEntry := []
  deriving DecidableEq, Repr

/-! ### Hergil cores (spec/03, spec/04) -/

/-- What an operation of the cipher engine has still to write (R153): words with their addresses, words written, and how
the operation ends: status, text blocks, whether COUNT follows the words written, RESULT. -/
structure EngOut where
  todo : List (Nat × PWord)
  done : Nat
  status : Nat
  blocks : Nat
  text : Bool
  result : PWord
  deriving DecidableEq, Repr

/-- An engine operation: tag, unit, descriptor, tick of acceptance, and for its sampling record the
address and word of its instruction and the effective address (R147, R161); words or counters moved so far, the words of
its input that it has read while one that comes after them waits (R99), and what a cipher operation has still to write
once it has its result (R109, R154, R157). -/
structure EngOp where
  tag : Nat
  unit : Nat
  desc : List PWord
  accepted : Nat
  pc : Nat
  iw : Word
  ea : Nat
  done : Nat := 0
  got : List PWord := []
  out : Option EngOut := none
  deriving DecidableEq, Repr

/-- An entry of a completion ring (R148), with the clock in which it was posted (R149). -/
structure RingEnt where
  tag : Nat
  unit : Nat
  status : Nat
  count : Nat
  result : PWord
  clk : Nat
  deriving DecidableEq, Repr

/-- An armed position-scheduled action (R142, R143): its LP as a tick, its block, its descriptor copy; and the clock in
which it was armed (R144). -/
structure AtSlot where
  lp : Nat
  w0 : Word
  w1 : Word
  desc : List PWord
  pc : Nat
  iw : Word
  ea : Nat
  armed : Nat
  deriving DecidableEq, Repr

/-- One Hergil core, beside its `CORE[n]` registers. (DESIGN CHOICE, log entry 4; DEDUCED, log entry 55.) -/
structure CoreSt where
  /-- `g0`–`a7` with poison; an unlisted register is a clean zero -/
  regs : List (Nat × PWord) := []
  /-- F: N, Z, C, V and its poison bit (R129) -/
  nf : Bool := false
  zf : Bool := false
  cf : Bool := false
  vf : Bool := false
  fp : Bool := false
  /-- PC; the home of `CORE_PC` -/
  pc : Nat := 0
  /-- the loaded image is an Ewethar reference image: its signer is 0 (R31, R115) -/
  ref : Bool := false
  /-- tick of the start from LOADED (R160 rdcyc) -/
  startT : Nat := 0
  /-- REMAP written by the core itself, waiting for its next taken branch (R110) -/
  remapPend : Option Bool := none
  /-- busy tags (R147) -/
  busy : List Nat := []
  /-- completion ring, oldest first (R148) -/
  ring : List RingEnt := []
  /-- engine operations outstanding, in order of acceptance -/
  ops : List EngOp := []
  /-- armed slots by number (R142), and the clock, plus one, in which an action fired last (R144) -/
  slots : List (Nat × AtSlot) := []
  fired : Nat := 0
  /-- the instruction that waits (an LP, a completion, an engine, a response) -/
  wait : Option Instr := none
  /-- the word of the waiting instruction, and the descriptor words that a waiting `issue` has read (R147) -/
  waitWord : Word := 0
  waitDesc : List PWord := []
  /-- HALT was written during an instruction that ends before the core stops (R119) -/
  haltReq : Bool := false
  /-- the LP, as a tick, of an armed start (R119) -/
  armed : Option Nat := none
  /-- windows whose open is pending (R95) -/
  winPend : List Nat := []
  /-- sampling records by slot, eight words each; records held; slot of the oldest; record number; instructions
  completed since the last selected one (R563–R566) -/
  smp : List (Nat × List PWord) := []
  smpHeld : Nat := 0
  smpHead : Nat := 0
  smpNo : Nat := 0
  smpCnt : Nat := 0
  deriving DecidableEq, Repr

/-- On whose behalf a core or the service link asks: the core itself, a timed store by its slot, the tick at which it
fired and its address, an operation of one of its engines, a command of the service link, or a unit whose access is a
command of its own.  Each is an ordering domain (R100, R101, R144). (DESIGN CHOICE, log entry 48.) -/
inductive Agent
  | core
  | timed (slot at_ addr : Nat)
  | op (unit tag : Nat)
  | link (tag : Nat)
  | row (unit : Nat)
  deriving DecidableEq, Repr

/-- The unit of a master ID (R100). -/
def Agent.unit : Agent → Nat
  | .op u _ | .row u => u
  | .core | .timed .. | .link _ => 0

/-- Whether an agent has at most one request that waits: it goes on once that has been answered. -/
def Agent.single : Agent → Bool
  | .op .. | .link _ => true
  | .core | .timed .. | .row _ => false

/-- How far a matrix request has come (R101–R105). -/
inductive ReqStage
  /-- held back behind an earlier request of its ordering domain (R101) -/
  | heldBack
  /-- waiting at its master port (R102) -/
  | waiting
  | admitted
  | granted
  /-- its burst is at its target: the port is its own until the response has returned (R105) -/
  | served
  deriving DecidableEq, Repr

/-- A request that could not be served in its own step: core, on whose behalf, address, stage, ticks of arrival and of
admission, and for a store that does not need its master its lane enables and value; REMAP of the core and the first
word of the open window that it names, as they were when it was issued (R95, R110). -/
structure MtxReq where
  core : Nat
  by_ : Agent
  addr : Nat
  stage : ReqStage
  since : Nat
  adm : Nat
  posted : Option (Nat × PWord)
  remap : Bool
  win : Option Word
  deriving DecidableEq, Repr

/-- An image: its 48 header words and its body (R115). -/
structure Image where
  header : List PWord
  body : List PWord
  deriving DecidableEq, Repr

/-- Who asked for an image load: a host command (its slot), the S-core boot ROM, or the S-core image (R120). -/
inductive LoadBy
  | command (slot : Nat)
  | bootRom
  | image
  deriving DecidableEq, Repr

/-- A load in the image loader (R117, R118): the image, its source (0 reference slot, 1 operator slot, 2 staging),
the targets and how many of them are loaded, whether its signature has verified, who asked for it, and the core whose
domain was reset or went off meanwhile, which ends the load after the copy in progress (R589). -/
structure ImgLoad where
  image : Image
  source : Nat
  targets : List Nat
  loaded : Nat
  verified : Bool
  by_ : LoadBy
  lost : Option Nat
  deriving DecidableEq, Repr

/-- An `IMG.STORE` in progress (R206). -/
structure ImgStore where
  kind : Nat
  image : Image
  raise : Bool
  slot : Nat
  deriving DecidableEq, Repr

/-- The image store and the image loader (R114–R121). -/
structure ImgSt where
  /-- operator slot of each kind -/
  opr : List (Nat × Option Image) := []
  /-- minimum version of each kind -/
  minver : List (Nat × Nat) := []
  /-- the load in progress, and those that wait for the loader, oldest first -/
  load : Option ImgLoad := none
  waiting : List ImgLoad := []
  /-- the S-core image has started and opens intake once the K-cores are loaded (R590) -/
  opening : Bool := false
  store : Option ImgStore := none
  deriving DecidableEq, Repr

/-! ### Counters and the event path (spec/15) -/

/-- An event record (R551); `seq` is given when it enters a ring. -/
structure EvRec where
  pri : Nat
  kind : Nat
  code : Nat
  inst : Nat
  seq : Nat
  lp : Nat
  args : List Nat
  deriving DecidableEq, Repr

/-- A record kept by R554, and whether it entered a ring. -/
structure Kept where
  rec_ : EvRec
  entered : Bool
  deriving DecidableEq, Repr

/-- A code's coalescing state (R555, R558): occurrences coalesced, the instance and LP of the first, the
record of the last, a KIND 1 record held for it, and whether its summary is due. -/
structure Coal where
  code : Nat
  count : Nat
  inst : Nat
  firstLp : Nat
  last : Option EvRec
  held : Option EvRec
  due : Bool
  deriving DecidableEq, Repr

/-- The event path (R551–R562). (DESIGN CHOICE, log entry 4.) -/
structure EvtSt where
  /-- main ring and priority-0 ring, oldest first -/
  main : List EvRec := []
  p0 : List EvRec := []
  seq : Nat := 0
  seqP0 : Nat := 0
  first : List (Nat × Option Kept) := []
  latest : List (Nat × Option Kept) := []
  /-- AVALANCHE (R555); the home of `EVT_STAT.AVAL` -/
  aval : Bool := false
  /-- open or coalescing codes of priority 1–3, in code order -/
  opens : List Coal := []
  /-- priority-0 codes that coalesce (R558) -/
  opensP0 : List Coal := []
  /-- occurrences coalesced since AVALANCHE was entered -/
  coalesced : Nat := 0
  /-- index of the current 1 ms window and its rate -/
  win : Nat := 0
  winRate : Nat := 0
  /-- tick from which the exit condition counts -/
  lowSince : Nat := 0
  /-- PRI and REC set by `EVT.CFG`, by code (R549) -/
  cfg : List (Nat × Option (Nat × Bool)) := []
  /-- the telemetry packet each stream waits to send: LP of the frame start and its pairs (R560) -/
  tlm : List (Nat × Option (Nat × List (PWord × PWord))) := []
  /-- the frame of each stream's last due snapshot, plus one -/
  tlmAt : List (Nat × Nat) := []
  /-- the superframe whose boundary was last handled, plus one (R555) -/
  sumSf : Nat := 0
  /-- the first window of a rate set by `EVT.CFG` and the rate before it (R570) -/
  rateFrom : Nat := 0
  rateOld : Nat := 0
  deriving DecidableEq, Repr

/-! ### Memory protection and the Groomer (spec/14) -/

/-- A stored lane-memory word: 36 data bits and the 5 check bits of its four lanes, lane 3 first (R517). -/
structure Stored where
  data : Word
  chk : BitVec 20
  deriving DecidableEq, Repr, Inhabited

/-- A stored buffer lane: 32 data bits and 7 check bits (R520). -/
structure StoredB where
  data : BitVec 32
  chk : BitVec 7
  deriving DecidableEq, Repr, Inhabited

/-- A corrected address in the recurrence table (R530), with the pass of its correction. -/
structure Recur where
  addr : Nat
  buffer : Bool
  pass : Nat
  deriving DecidableEq, Repr

/-- A row whose copy into a spare is in progress (R531). -/
structure RowCopy where
  row : Nat
  buffer : Bool
  inst : Nat
  deriving DecidableEq, Repr

/-- The Groomer, beside the `GRM` registers. (DESIGN CHOICE, log entry 4.) -/
structure GrmSt where
  /-- demand queue: address or cell, and whether it is a buffer cell (R529) -/
  demand : List (Nat × Bool) := []
  /-- recurrence table, oldest first -/
  recur : List Recur := []
  /-- rows retired: row base, buffer (R532); non-volatile -/
  retired : List (Nat × Bool) := []
  /-- spare rows used, by memory instance (R531); non-volatile -/
  spared : List (Nat × Nat) := []
  /-- rows whose copies run, oldest first -/
  copies : List RowCopy := []
  /-- start tick of the current lane and buffer passes; none before the first -/
  passL : Option Nat := none
  passB : Option Nat := none
  /-- visits made in the current passes -/
  visL : Nat := 0
  visB : Nat := 0
  /-- PERIOD of the current passes, in hours -/
  perL : Nat := 24
  perB : Nat := 24
  /-- numbers of the current passes, and the tick at which EN was last set (R525, R530) -/
  noL : Nat := 0
  noB : Nat := 0
  enAt : Nat := 0
  /-- owner structures reported in the current passes (R528) -/
  owners : List (Nat × Nat × Bool) := []
  /-- memory instances whose MEM_UNCORR record was raised, with the superframe (R522) -/
  uncorrSf : List (Nat × Nat) := []
  deriving DecidableEq, Repr

/-! ### The service link and the commands (spec/05) -/

/-- A completion as the module sends it (R181, R195, R203): its slot, path, page, opcode, status, detail,
result and data, and the counter and key of an authenticated one. -/
structure Completion where
  tag : Nat
  boot : Bool
  page : Nat
  opcode : Nat
  status : Nat
  detail : Nat
  result : PWord
  data : List PWord
  auth : Option (Nat × List Nat)
  recalled : Bool
  deriving DecidableEq, Repr

/-- How far a command has come: waiting in its queue, running, or completed and waiting to be sent. -/
inductive CmdStage
  | waiting | running | done
  deriving DecidableEq, Repr

/-- The command that holds a busy slot (R187): its packet and opcode, its stage, its place in the order of
arrival, the key that verified it (R195), and whether it still counts as running on its instances (R189). -/
structure Cmd where
  pkt : HostPkt
  opcode : Nat
  stage : CmdStage
  seq : Nat
  auth : Option (Nat × List Nat)
  holds : Bool
  /-- tick of intake -/
  at_ : Nat
  /-- words that a `REG.` or `MEM.` command has read, oldest first, and the number it has written, while a word that comes
  after them waits (R99, R204) -/
  got : List PWord := []
  put : Nat := 0
  /-- what `QUE.SET` OP 3 sampled at its intake (R426) -/
  taken : List Nat := []
  deriving DecidableEq, Repr

/-- A packet to the host that has been chosen (R186). -/
inductive OutPkt
  /-- one overhead block of line l, channel h -/
  | overhead (l h : Nat) (block : List Nat)
  /-- the oldest n records of the priority-0 ring -/
  | events0 (n : Nat)
  /-- the oldest n records of the main ring -/
  | events1 (n : Nat)
  | completion (c : Completion)
  | telemetry (strm : Nat)
  deriving DecidableEq, Repr

/-- A loop of `SVC.LOOP` (R178, R179): its mode, its duration in ms, its slot, and the state from which its PRBS31 starts. -/
structure Loop where
  mode : Nat
  ms : Nat
  tag : Nat
  seed : Nat
  deriving DecidableEq, Repr

/-- A `PWR.RESET` being carried out (R208): its slot and the tick of acceptance; the slots whose commands had not
completed then; the tick at which those that remained were completed. -/
structure Drain where
  tag : Nat
  since : Nat
  left : List Nat
  closed : Option Nat
  deriving DecidableEq, Repr

/-- The service link, boot port and command slots, beside the `SVC` registers. (DESIGN CHOICE, log entry 4.) -/
structure SvcSt where
  /-- busy slots by tag -/
  slots : List (Nat × Option Cmd) := []
  /-- the last completion each slot sent (R193) -/
  kept : List (Nat × Option Completion) := []
  /-- completions waiting on the link and on the boot port, oldest first -/
  linkOut : List Completion := []
  bootOut : List Completion := []
  /-- overhead blocks waiting to be sent to the host: line, channel, octets -/
  ohOut : List (Nat × Nat × List Nat) := []
  /-- the packet being sent on the link -/
  sending : Option OutPkt := none
  /-- arrival number of the next command -/
  seq : Nat := 0
  /-- queue served last (R190) -/
  rr : Nat := 7
  /-- tick of the last progress of the bring-up (R170) -/
  progAt : Nat := 0
  /-- the RX_UP bit of the last /A/ sent (R168) -/
  txUp : Bool := false
  /-- lanes whose low-EQM event has been raised and not re-armed; by lane, the ticks from which EQM has stayed below
  EQM_MIN, and at or above it, plus one (R176) -/
  eqmLow : List Nat := []
  eqmUnder : List (Nat × Nat) := []
  eqmOver : List (Nat × Nat) := []
  /-- an L1 or L2 request that waits for the end of the packet being sent (R173) -/
  lpReq : Option Nat := none
  /-- the packet the boot port offers until it has been clocked out whole, and the octets it sent on MISO in its
  last transaction (R201) -/
  bootOffer : Option OutPkt := none
  miso : List Nat := []
  /-- accepted loops whose completions have not been sent, oldest first; the loop that runs and the tick of its start;
  the bit errors on each lane that the last loop of modes 1 and 2 counted (R178, R179) -/
  loops : List Loop := []
  loop : Option (Loop × Nat) := none
  loopErrs : List Nat := []
  /-- the columns of the last packet, ordered set or loop that the module sent, each as the characters of its four lanes, a
  K character as 256 more than its octet (R167–R169, R173, R178) -/
  out : List (List Nat) := []
  /-- the reset that drains the commands (R208) -/
  drain : Option Drain := none
  /-- S-core image booted from the boot ROM is being awaited (R120); ALERT for BOOT_FAIL is a register -/
  booting : Bool := false
  deriving DecidableEq, Repr

/-! ### Power, modes and resets (spec/16) -/

/-- The kinds 1–6 of reset (R587) and the value `PWR_STAT.LAST_RST` shows. -/
inductive ResetKind
  | powerOn | backupLoss | hostPin | command | watchdog | zeroise
  deriving DecidableEq, Repr

/-- The code of a reset kind (R587). -/
def ResetKind.code : ResetKind → Nat
  | .powerOn => 1
  | .backupLoss => 2
  | .hostPin => 3
  | .command => 4
  | .watchdog => 5
  | .zeroise => 6

/-- The power manager, beside the `PWR` registers. (DESIGN CHOICE, log entry 4.) -/
structure PwrSt where
  /-- domains waiting to rise, in order (R571) -/
  rise : List Nat := []
  /-- domains to be held in reset until the tick given (R587), with the slot of the command -/
  resetting : List (Nat × Nat × Nat) := []
  /-- domains shed, oldest first (R580) -/
  shedOrder : List Nat := []
  /-- domains whose OFF a shortfall waits for, and the tick at which the last was OFF (R577) -/
  shedWait : List Nat := []
  settle : Option Nat := none
  /-- tick since which the headroom condition holds for the next domain, and of the last restore in an
  unbroken run (R580) -/
  headSince : Option Nat := none
  lastRestore : Option Nat := none
  /-- tick of the last temperature shed (R579) -/
  tempShed : Option Nat := none
  /-- domains shed for temperature (R580) -/
  tempShedDoms : List Nat := []
  /-- the fast-shed episode that runs: domains shed, and the tick of the last (R579) -/
  fast : Option (Nat × Nat) := none
  /-- domains that go off once the ramps of their lasers have ended (R571) -/
  going : List Nat := []
  /-- channels, and 512 + line, that were lit when their domain was shed (R580) -/
  lit : List Nat := []
  /-- mains cycles of the last second: tick of their end and V_rms in 0.1 V (R574) -/
  cycles : List (Nat × Nat) := []
  /-- `PWR_LOWLINE` may be raised (R576) -/
  lowArmed : Bool := true
  /-- a `PWR.MODE` in progress: next mode, slot; a `PWR.DOMAIN` in progress: OP, domain, slot -/
  modeCmd : Option (Nat × Nat) := none
  domCmd : Option (Nat × Nat × Nat) := none
  /-- domains that a mode change still has to turn off, in order (R582) -/
  fallList : List Nat := []
  /-- the dying sequence runs since the tick (R584) -/
  dying : Option Nat := none
  /-- backup loss has occurred and takes effect at the next power-on (R585) -/
  lostBackup : Bool := false
  /-- tick of the arming write or last kick (R588) -/
  wdogAt : Nat := 0
  /-- HRST_N has been sampled low and a host reset is held (R604) -/
  hrst : Bool := false
  /-- a reset of kinds 3–6 waits for line ramps (R587) -/
  pendReset : Option ResetKind := none
  /-- the reset whose `PWR_RESET` record the next boot raises (R593) -/
  bootReset : Option ResetKind := none
  deriving DecidableEq, Repr
/-! ### Coherent lines (spec/06, spec/07, spec/08) -/

/-- A ramp (R225, R230, R231): the segments its profile held at its start as (DUR, END), the total levels it joins in
dBm, its start and its end. -/
structure Ramp where
  segs : List (Nat × Nat)
  lo : Rat
  hi : Rat
  t0 : Nat
  tEnd : Nat
  /-- gains of the 32 subcarriers in dB, at its start and its end; none where no power is sent -/
  gLo : List (Option Rat)
  gHi : List (Option Rat)
  deriving DecidableEq, Repr

/-- A loading request (R221): its inner rate, its net rate and the B and G of the 32 subcarriers. -/
structure LoadReq where
  seq : Nat
  inner : Nat
  rate : Nat
  bs : List Nat
  gs : List Nat
  deriving DecidableEq, Repr

/-- How far a `LINE.RATE` or `LINE.LOAD` has come (R228, R263). -/
inductive LoadStage
  /-- waits for a window to compute from -/
  | window
  /-- LOAD_REQ is to be sent, and the tick at which it first was -/
  | sent (at_ : Option Nat)
  /-- accepted: waits for the switch -/
  | acked
  deriving DecidableEq, Repr

/-- The `LINE.RATE` or `LINE.LOAD` of a line that has not completed: its slot, the rates asked for, and its
request once sent. -/
structure LoadCmd where
  tag : Nat
  inner : Nat
  rate : Nat
  req : Option LoadReq
  stage : LoadStage
  deriving DecidableEq, Repr

/-- A packet of a line stream (R283): page, class, service tag and octets. -/
structure LinePkt where
  page : Nat
  cls : Nat
  stag : Nat
  octets : List Nat
  deriving DecidableEq, Repr

/-- A slip buffer (R300): unread blocks, oldest first, and the last block read. -/
structure SlipBuf where
  blocks : List (List Nat) := []
  last : Option (List Nat) := none
  deriving DecidableEq, Repr

/-- The outer and inner code of a line's transmit side (R268–R274): the inner register and its place in the puncturing
period; information bits in the present group of sixteen; the bits of the present block and the rows of the block
before; the parity bits still owed. (DEDUCED, log entry 78.) -/
structure Chain where
  reg : Nat := 0
  ph : Nat := 0
  grp : Nat := 0
  cur : List Bool := []
  prev : List (List Bool) := []
  owed : List Bool := []
  deriving DecidableEq, Repr

/-- A block of the outer code at the receiver (R273, R275, R277): its 480 rows as corrected so far and as they came from
the inner decoder, and the demapper's hard decisions, none where punctured, on the coded bits of the groups that carried
its information. -/
structure RxBlock where
  rows : List (List Bool)
  got : List (List Bool)
  hard : List (Option Bool × Option Bool)
  deriving DecidableEq, Repr

/-- The decoders of a line (R271, R275, R277): the likelihoods of the 48 stages before the next window; the information
bits and hard decisions of the block whose parity is still to come; the block before the window with its uncorrected
rows; the window, oldest block first; the register of the re-encoder; the number of the next block from block lock on. -/
structure RxCodes where
  tail : List (Int × Int) := []
  part : Option (List Bool × List (Option Bool × Option Bool)) := none
  prev : List (List Bool) := []
  prevBad : List Nat := []
  win : List RxBlock := []
  reg : Nat := 0
  next : Nat := 0
  deriving DecidableEq, Repr

/-- Errors and bits counted for the two error ratios of a quality window (R277). -/
structure BerCount where
  pre : Nat := 0
  coded : Nat := 0
  mid : Nat := 0
  bits : Nat := 0
  deriving DecidableEq, Repr

/-- One coherent line, beside its `LINE[l]` registers. (DESIGN CHOICE, log entry 4.) -/
structure LineSt where
  /-- output level in dBm while no ramp runs; the ramp, which moves the level and the shares of the subcarriers (R230) -/
  level : Rat := 0
  ramp : Option Ramp := none
  /-- flexgrid index to which the transmit laser is tuned; none while it is off (R229, R237) -/
  txFreq : Option Int := none
  /-- taps of the filters of the four DACs in force, 33 each; empty: those of the factory for the lowest point (R233) -/
  txTaps : List (List Int) := []
  /-- a calibration beyond 5 °C of every temperature point, used until the next one: its values and its taps (R236) -/
  txOwn : Option (List Int × List (List Int)) := none
  /-- line frames in which the test signal has been sent since it began; none once the format is back (R234) -/
  txTest : Option Nat := none
  /-- an armed enable: its slot, and its start LP as a tick; 0 is at once -/
  enable : Option (Nat × Nat) := none
  /-- slots of the commands that wait for LIT, for a CHANGE ramp's end and for DARK -/
  enTag : Option Nat := none
  powTag : Option Nat := none
  disTag : Option Nat := none
  /-- tick of entry into CAL, and of the calibration's end -/
  calAt : Nat := 0
  calDone : Option Nat := none
  /-- transmit calibration in force: IQ skew X and Y and X–Y skew in fs, gains in 0.001 dB, phases in 0.01° -/
  txCal : List Int := [0, 0, 0, 0, 0, 0, 0]
  rxCal : List Int := [0, 0, 0, 0, 0, 0, 0]
  /-- stored calibration sets by temperature point 0–7; non-volatile (R235, R236, R247) -/
  txSets : List (Nat × Option (List Int)) := []
  txTapSets : List (Nat × Option (List (List Int))) := []
  rxSets : List (Nat × Option (List Int)) := []
  txCalAt : Nat := 0
  rxCalAt : Nat := 0
  /-- a pending switch: the LP multiframe at whose start it takes effect (R223) -/
  switchMf : Option Nat := none
  /-- SEQ and REASON of the last request evaluated; the accepted SEQ that every multiframe answers until the switch; an
  answer to be sent once, as SEQ and REASON (R221, R222) -/
  lastEval : Option (Nat × Nat) := none
  ackSeq : Option Nat := none
  ackOnce : Option (Nat × Nat) := none
  /-- a loading request received whole, with its tick -/
  reqIn : Option (LoadReq × Nat) := none
  /-- a LOAD_ACK and a SWITCH received: SEQ and REASON; ACTIVE, COUNTDOWN, SEQ and the tick of receipt -/
  ackIn : Option (Nat × Nat) := none
  swIn : Option (Nat × Nat × Nat × Nat) := none
  /-- tick since which RDI from the far end holds (R226) -/
  rdiAt : Option Nat := none
  /-- SEQ of the next request; request and stage of the command that runs -/
  reqSeq : Nat := 0
  load : Option LoadCmd := none
  /-- SEQ of the last request accepted; the earliest tick of the announced or late receive switch (R258) -/
  rxSeq : Option Nat := none
  rxSwitch : Option Nat := none
  /-- tick of the last receive switch boundary -/
  rxSwAt : Option Nat := none
  /-- the SNR figures of the latest valid window since then (R263) -/
  snr : Option (List Nat) := none
  /-- flexgrid index to which the LO is tuned; none while it is off (R239) -/
  rxFreq : Option Int := none
  /-- ticks of entry into TUNE, ACQ and HOLD; consecutive ACQ timeouts -/
  tuneAt : Nat := 0
  acqAt : Nat := 0
  holdAt : Nat := 0
  acqFails : Nat := 0
  /-- start of the dispersion search that runs and its range, in ps/nm (R249) -/
  searchAt : Nat := 0
  cdLo : Int := 0
  cdHi : Int := 0
  /-- by subcarrier: tick of entry into CONVERGE, and the last tick of its 1.2 ms; subcarriers that left TRACK in the
  window, as a mask (R252, R256) -/
  convAt : List (Nat × Nat) := []
  convBy : List (Nat × Nat) := []
  untracked : Nat := 0
  /-- a switch boundary, or a running test, in the present window (R260) -/
  winSwitched : Bool := false
  winTest : Bool := false
  /-- QWIN of the present window and its start -/
  winLen : Nat := 6
  winAt : Nat := 0
  /-- tick of the last dispersion refinement; line frame of the last step or handover, and of the last switch (R245) -/
  cdAt : Nat := 0
  stepFrame : Option Nat := none
  swFrame : Option Nat := none
  /-- start of the Telemark cycle that runs; the line frame in which all ADCs passed, while a handover is due; the slice
  at each position, by 64 · ADC + position; timing of a slice's last calibration by 65 · ADC + slice, plus none -/
  telAt : Option Nat := none
  telPass : Option Nat := none
  slices : List (Nat × Option Nat) := []
  telPrev : List (Nat × Option Int) := []
  /-- frame candidates; position of the frame (R287) -/
  cands : List Nat := []
  framePos : Nat := 0
  /-- the length of the last slot of the old format, for the first FAW after a hitless switch (R288) -/
  rePos : Option Nat := none
  /-- slots seen and consecutive matches in PRESYNC with the block boundary they name; consecutive misses and BPTR
  disagreements in IF (R287) -/
  preSlots : Nat := 0
  preRun : Nat := 0
  boundary : Nat := 0
  miss : Nat := 0
  bptrBad : Nat := 0
  /-- multiframe alignment: the last MFC seen in OOM, the expected MFC, consecutive mismatches (R289) -/
  mfLast : Option Nat := none
  mfExp : Nat := 0
  mfMiss : Nat := 0
  /-- ticks from which the present FSTATE and IM conditions persist, and of the LOF declaration -/
  fsAt : Nat := 0
  imAt : Nat := 0
  lofAt : Nat := 0
  /-- runs of slots with AIS and with RDI, and without -/
  aisRun : Nat := 0
  aisOff : Nat := 0
  rdiRun : Nat := 0
  rdiOff : Nat := 0
  /-- BIP of the previous slot when it was received in frame -/
  bipPrev : Option Nat := none
  /-- trace octets of the run being collected; the two last complete runs -/
  traceRun : List Nat := []
  traceOk : Bool := false
  trace1 : Option (List Nat) := none
  trace2 : Option (List Nat) := none
  /-- octets of the LDC message and of the MDC blocks being collected, by channel, and the MFC with which the blocks go on -/
  ldc : List Nat := []
  mdc0 : List Nat := []
  mdc1 : List Nat := []
  mdcNext : Nat := 0
  /-- complete MDC blocks not yet in a slip buffer -/
  mdcDone0 : Option (List Nat) := none
  mdcDone1 : Option (List Nat) := none
  /-- the decoders; bit errors counted in the present window; where uncorrected rows lie, as the position of the first of
  their information bits (R275, R277, R285) -/
  codes : RxCodes := {}
  ber : BerCount := {}
  badRows : List Nat := []
  /-- octets of the packet stream received and not yet parsed; discarding up to the next FPP -/
  stream : List Nat := []
  lost : Bool := true
  /-- slip buffers by channel: receive path, transmit path; block being sent in each channel -/
  slipRx : List (Nat × SlipBuf) := []
  slipTx : List (Nat × SlipBuf) := []
  mdcTx : List (Nat × List Nat) := []
  /-- transmit side of frames: line frame of the last slot, its octets before scrambling, information bits of
  the outer code chain sent before the next slot (modulo 216,000), trace in use, BIP of the last slot sent,
  octets of a packet cut by a slot's end, the loading channel message being sent -/
  txFrame : Option Nat := none
  txSlot : List Nat := []
  txPos : Nat := 0
  txLdc : List Nat := []
  txTrace : List Nat := []
  txBip : Nat := 0
  txRest : List Nat := []
  /-- packets taken for sending, with their headers, oldest first (R283) -/
  txQ : List (List Nat) := []
  /-- pass-through FIFO of packets taken from PT_SRC (R304) -/
  ptFifo : List LinePkt := []
  /-- the codes of the transmit side; the coded bits of the last slot, led by those the mapper had left, with the data
  symbol time of the multiframe at which they begin (R214, R268–R274) -/
  chain : Chain := {}
  coded : List Bool := []
  mapAt : Nat := 0
  deriving DecidableEq, Repr

/-! ### Forwarding, buffer and queues (spec/11) -/

/-- A packet in the buffer (R405): its generation, length, the page its cells are charged to plus one, the core
that holds it plus one, its octets and its cells. -/
structure Packet where
  gen : Nat
  len : Nat
  page : Nat
  held : Nat
  octets : List Nat
  cells : List Nat
  deriving DecidableEq, Repr

/-- An entry of a queue (R417): descriptor, LEN, tick of admission, whether it is eligible; for an express
unit not yet verified, whether R417 lets it leave; whether a core sent it, and marked it for two-step
stamping; the tag of its egress endpoint; whether a channel encrypts it. -/
structure QEnt where
  desc : Nat
  len : Nat
  at_ : Nat
  ready : Bool
  express : Bool
  core : Bool
  twoStep : Bool
  tag : Nat
  enc : Bool
  deriving DecidableEq, Repr

/-- A member of a deficit round robin ring (R421): deficit, round stamp, backlogged when last seen. -/
structure Member where
  d : Nat := 0
  stamp : Nat := 0
  on : Bool := false
  deriving DecidableEq, Repr

/-- A ring's virtual time and pointer (R421). -/
structure Ring where
  v : Nat := 1
  p : Nat := 0
  deriving DecidableEq, Repr

/-- A token bucket in 1/32,000 octet (R414, R422), with the tick it was last brought up to date. -/
structure Bucket where
  tok : Int := 0
  at_ : Nat := 0
  deriving DecidableEq, Repr

/-- A unit being reassembled (R410–R412): discarding; its length, KEY_PHASE, ENC, CTR, the octets received;
its descriptor, queue and page; whether its last body octet arrived in the present burst. -/
structure UpUnit where
  disc : Bool
  len : Nat
  enc : Bool
  phase : Bool
  ctr : Nat
  octets : List Nat
  desc : Nat
  queue : Nat
  page : Nat
  express : Bool
  bodyAt : Option Nat
  deriving DecidableEq, Repr

/-- Reassembly state of an allocation (R411): expected SEQ, none after a reset; unit in progress; tick of the
last segment. -/
structure Reas where
  exp : Option Nat := none
  unit : Option UpUnit := none
  at_ : Nat := 0
  deriving DecidableEq, Repr

/-- A unit at its cluster's verifier (R416): allocation, descriptor, queue, page, generation and CTR, whether
its tag agrees, and t_R. -/
structure Verify where
  alloc : Nat
  desc : Nat
  queue : Nat
  page : Nat
  phase : Bool
  ctr : Nat
  good : Bool
  tR : Nat
  deriving DecidableEq, Repr

/-- An express frame selected before its tag result (R418): port, descriptor and start tick. -/
structure Express where
  port : Nat
  desc : Nat
  start : Nat
  /-- the frame as R432 builds it -/
  frame : List Nat
  deriving DecidableEq, Repr

/-- A burst's payload as delivered to the upstream path (R366, R409): allocation, octets, whether each
136-octet codeword was corrected, the octets already taken, and a number that tells bursts apart. -/
structure UpBurst where
  alloc : Nat
  octets : List Nat
  good : List Bool
  pos : Nat
  num : Nat
  deriving DecidableEq, Repr

/-- The buffer, queues, schedulers and mailboxes, beside the `FWD`, `QUE`, `BUF` and `PORT` registers. (DESIGN CHOICE, log entry 4.) -/
structure TrafSt where
  /-- packets by descriptor; generation numbers by descriptor -/
  packets : List (Nat × Option Packet) := []
  gens : List (Nat × Nat) := []
  /-- queues by number over the three sets, oldest entry first -/
  queues : List (Nat × List QEnt) := []
  /-- level 1 members and rings by 64 · e + page and by e; level 2 by queue and by 64 · e + page -/
  pages : List (Nat × Member) := []
  members : List (Nat × Member) := []
  rings1 : List (Nat × Ring) := []
  rings2 : List (Nat × Ring) := []
  /-- shaper tokens by 64 · e + page; policer tokens by allocation -/
  tokens : List (Nat × Bucket) := []
  police : List (Nat × Bucket) := []
  /-- reassembly by allocation; bursts delivered by channel and not yet taken whole; their next number -/
  reas : List (Nat × Reas) := []
  bursts : List (Nat × List UpBurst) := []
  burstNo : Nat := 0
  /-- verifiers by cluster, and t_R of the last unit of each -/
  verify : List (Nat × List Verify) := []
  lastTR : List (Nat × Nat) := []
  sent : List Express := []
  /-- the last frame that each client port has sent, with its FCS (R418, R432) -/
  wire : List (Nat × List Nat) := []
  /-- mailboxes by 4 · core + mailbox, oldest first: descriptors -/
  boxes : List (Nat × List Nat) := []
  /-- ports whose marked message has been taken for sending and has not left, with what the two-step queue records of
  it, oldest first (R63) -/
  marks : List (Nat × TwoStepMsg) := []
  /-- the last sweep begun: its superframe plus one and the tick of its first sample; the tick plus one of the sweep
  before's; and depth and delay of the queues that were not empty when last sampled (R425) -/
  sweepSf : Nat := 0
  sweepAt : Nat := 0
  sweepOld : Nat := 0
  sweep : List (Nat × Nat × Nat) := []
  /-- the tick from which the buckets fill: that of the last reset (R440) -/
  since : Nat := 0
  /-- `BUF_LOW` has been raised and not re-armed (R406) -/
  low : Bool := false
  deriving DecidableEq, Repr

/-! ### Access trees (spec/09, spec/10) -/

/-- A grant entry (R156, R358). -/
structure Grant where
  alloc : Nat
  kind : Nat
  report : Bool
  msg : Bool
  start : Nat
  len : Nat
  deriving DecidableEq, Repr

/-- A linear power ramp in dBm (R316). -/
structure LinRamp where
  lo : Rat
  hi : Rat
  t0 : Nat
  tEnd : Nat
  deriving DecidableEq, Repr

/-- The reflection canceller of a channel (R334–R336, R345): the coefficients of the 16 active and the 16 shadow taps,
h₋₂ first, in 2⁻¹⁴ of full scale; idle symbols on which the present shadow set has adapted, with the sums of the squares of
both sets' outputs over them; the first received symbol not yet taken; spans of received symbols that are not idle, the
present one open; over the quality window, idle symbols and the sums of the squares of output and input; and for the energy
detector, the squares of the last outputs with their symbols, and the mean squares at the last unit boundaries of idle spans,
newest first (R327). -/
structure Canceller where
  act : List (List Rat) := []
  sha : List (List Rat) := []
  adapted : Nat := 0
  actRes : Rat := 0
  shaRes : Rat := 0
  next : Nat := 0
  busy : List (Nat × Nat) := []
  busyFrom : Option Nat := none
  idle : Nat := 0
  outSum : Rat := 0
  inSum : Rat := 0
  recent : List (Nat × Rat) := []
  noise : List Rat := []
  deriving DecidableEq, Repr

/-- A window that is open (R324): its grant, its frame and the symbol of its end. -/
structure BWindow where
  grant : Grant
  frame : Nat
  close : Int
  deriving DecidableEq, Repr

/-- A decoded burst header (R321). -/
structure BHeader where
  alloc : Nat
  report : Nat
  msg : Bool
  deriving DecidableEq, Repr

/-- A burst being received, or the last one received (R328): grant and frame; search deadline; delimiter
position, both in symbols from the start of its frame; P_burst and the level-spacing ratio; header; the allocation of the
burst it captured, with AH; records already written for it; payload symbols already counted for EYE (R347). -/
structure BurstRx where
  grant : Grant
  frame : Nat
  deadline : Int
  dlm : Int
  pburst : Int
  lsr : Nat
  hdr : Option BHeader
  capture : Option (Nat × Bool)
  ovl : Bool
  long : Bool
  heard : Nat := 0
  deriving DecidableEq, Repr

/-- A search by halves (R388): the terminals that may be the source, those that are disabled, the first frame of the
observation once every DISABLE_TX is in a control area, and whether an observation was dark. -/
structure Hunt where
  cands : List Nat
  off : List Nat
  from_ : Option Nat
  dark : Bool
  deriving DecidableEq, Repr

/-- One channel, beside its `CH[c]` registers. (DESIGN CHOICE, log entry 4.) -/
structure ChSt where
  /-- the ramp that runs (R316) -/
  ramp : Option LinRamp := none
  /-- the launch level of the last frames, newest first: from a tick on, a ramp and then its end, or the laser off (R334) -/
  launch : List (Nat × Option LinRamp) := []
  /-- ticks of an armed enable and an armed disable (R315), and of entry into RAMP_UP and LIT -/
  enAt : Option Nat := none
  disAt : Option Nat := none
  upAt : Nat := 0
  litAt : Option Nat := none
  /-- committed maps by access frame count (R382), and the maps in force of recent frames (R383) -/
  commits : List (Nat × List Grant) := []
  maps : List (Nat × List Grant) := []
  /-- `TREE_MAP_STALL` has been raised (R384) -/
  stalled : Bool := false
  /-- the control areas of the last frames, newest first, each with its access frame count (R334, R357) -/
  ctrls : List (Nat × List Nat) := []
  /-- end of the last packet placed in the downstream, in payload octets since frame 0 (R360) -/
  dsEnd : Nat := 0
  /-- packets in the downstream stream, oldest first: the payload octet since frame 0 at which each begins, and its
  header, body and tag (R360, R472) -/
  down : List (Nat × List Nat) := []
  /-- grants whose windows have not opened, in order, each with its access frame count (R324) -/
  left : List (Nat × Grant) := []
  win : Option BWindow := none
  burst : Option BurstRx := none
  pref : Int := -512
  /-- energy steps during ENDMARK, each the symbol since frame 0 and P(n), to be taken when the state has moved on (R328) -/
  heldSteps : List (Nat × Int) := []
  /-- frame of the last UNSOLICITED record, plus one -/
  unsol : Nat := 0
  /-- message slots set in the clock of a build that has not been handled or later, and those of them that were not valid
  before (R365) -/
  dsmNext : Nat := 0
  dsmHeld : Nat := 0
  /-- tick at which a shadow set was loaded (R336) -/
  shAt : Nat := 0
  /-- the reflection canceller (R334) -/
  canc : Canceller := {}
  /-- the reference image's messages that wait for a message slot (R365); the frames of the last UNSOLICITED
  records, newest first, and the search for a rogue terminal that runs (R388) -/
  imgQ : List (List Nat) := []
  unsolFr : List Nat := []
  hunt : Option Hunt := none
  /-- the frame in which a terminal of the channel was last named as rogue or misranged (R387, R388) -/
  namedFr : Option Nat := none
  /-- discovery is suspended on the slot (R388) -/
  suspended : Bool := false
  /-- ranging and management grants to be placed, by access frame count (R377, R379) -/
  plan : List (Nat × Grant) := []
  /-- virtual time and pointer of the slot's deficit round robin (R381) -/
  drrV : Nat := 1
  drrP : Nat := 0
  /-- units granted, and frames mapped, in the present Slalom period (R389) -/
  units : Nat := 0
  frames : Nat := 0
  /-- window length and index in force; the least burst LSR with its terminal; LIT throughout (R344, R346) -/
  qLen : Nat := 3
  qIdx : Nat := 0
  qLsr : Option (Nat × Nat) := none
  /-- payload symbols received in the window (R347) -/
  qPay : Nat := 0
  deriving DecidableEq, Repr

/-- A reflectometry run (R339, R340, R343): slot, AVG, APPLY, start frame, command slot, shots looked at and taken, and the
correlation with the probe's sequence at each delay in symbols, summed over the shots taken. -/
structure OtdrRun where
  w : Nat
  avg : Nat
  apply : Bool
  frame : Nat
  tag : Nat
  shot : Nat
  taken : Nat
  corr : List Rat := []
  deriving DecidableEq, Repr

/-- A terminal found by discovery (R376). -/
structure Found where
  serial : Nat
  nonce : Nat
  slot : Nat
  cap : Nat
  rtt : Nat
  deriving DecidableEq, Repr

/-- A message to an ACTIVE terminal that is not acknowledged yet (R363, R377): type, body, attempts made, and the frame
whose build carried the last of them. -/
structure Ask where
  type : Nat
  body : List Nat
  tries : Nat
  at_ : Nat
  deriving DecidableEq, Repr

/-- A Slalom move that runs (R391): frame S, the slots it leaves and goes to, and the MISS records of its grants on the new
slot. -/
structure Move where
  frame : Nat
  src : Nat
  dst : Nat
  misses : Nat
  deriving DecidableEq, Repr

/-- What the reference image holds of a terminal that is not FREE (R377, R387–R393): its serial, its equalisation
delay, the SEQ of its last message, its fixed grants' codewords, consecutive misses, the frames of its LONG records,
and the frame of its entry into RERANGE; its quanta and the slots it can use; the message it has not acknowledged; its
Slalom move, and the superframe before which it is not moved again. -/
structure Trm where
  serial : Nat
  eqd : Int
  seq : Nat := 0
  fix : List Nat
  misses : Nat := 0
  longs : List Nat := []
  reAt : Nat := 0
  q : List Nat
  cap : Nat
  ask : Option Ask := none
  move : Option Move := none
  held : Nat := 0
  deriving DecidableEq, Repr

/-- What the reference image holds of an allocation (R379–R381, R389): deficit, round stamp, awake; the frame of its last
report and the octets granted in later frames; the frame of its last grant, and the units granted in the present Slalom
period. -/
structure Alloc where
  d : Nat := 0
  stamp : Nat := 0
  on : Bool := false
  rep : Nat := 0
  since : Nat := 0
  last : Nat := 0
  units : Nat := 0
  deriving DecidableEq, Repr

/-- A `TREE.ACTIVATE` that runs (R377): its command slot, terminal number, AEN, discovery entry, the message whose
answer is awaited (0 ASSIGN, 1 RANGED, 2 ACTIVATE), how often it was sent and the frame count of the last. -/
structure Activation where
  tag : Nat
  n : Nat
  aen : Nat
  found : Found
  phase : Nat
  tries : Nat
  at_ : Nat
  deriving DecidableEq, Repr

/-- A `TREE.DISCOVER` that runs (R374, R393): its command slot, slots, number and interval of pairs, frame count of
the first pair, and the serials found. -/
structure Discovery where
  tag : Nat
  mask : Nat
  pairs : Nat
  gap : Nat
  first : Nat
  serials : List Nat
  deriving DecidableEq, Repr

/-- A record of the burst event queue: its three words, and the clock in which it was written (R333). -/
structure BevEntry where
  e0 : Nat
  e1 : Nat
  e2 : Nat
  clk : Nat
  deriving DecidableEq, Repr

/-- One tree, beside its `TREE[t]` registers. (DESIGN CHOICE, log entry 4.) -/
structure TreeSt where
  /-- burst event queue, oldest first (R332) -/
  bev : List BevEntry := []
  otdr : Option OtdrRun := none
  /-- `TREE.ENABLE` that has not completed: slot, mask, EN, mask of the slots it changes -/
  enable : Option (Nat × Nat × Bool × Nat) := none
  /-- the frame whose map deadline passed last; the values that writes gave DL_LEAD, the last first, each with the first frame
  it holds for (R385) -/
  lastN : Nat := 0
  leads : List (Nat × Nat) := []
  /-- the last announcement built in a frame 4,096: its superframe plus one, and the tick at which the re-step pending then was
  accepted (R368) -/
  annSf : Nat := 0
  annRe : Option Nat := none
  /-- terminals of the discovery list, oldest first (R376) -/
  found : List Found := []
  /-- the work of the reference image: terminals by number, the `TREE.ACTIVATE` and `TREE.DISCOVER` that run, the
  `TREE.DEACTIVATE` that runs as command slot, terminal and sends left, and serials isolated as rogue (R377, R388) -/
  trms : List (Nat × Option Trm) := []
  /-- allocations of those terminals by 4 · n + j (R380, R381) -/
  allocs : List (Nat × Alloc) := []
  act : Option Activation := none
  disc : Option Discovery := none
  deact : Option (Nat × Nat × Nat) := none
  rogues : List Nat := []
  deriving DecidableEq, Repr

/-! ### Edelweiss (spec/12) -/

/-- A generation of a key (R457, R458, R463): the 32 key octets (96 octets of a public key for IMG), its two
salts, U, what has been raised for it, and the highest accepted counter H with the counters marked within
the last 64 below it (R285, R473). -/
structure KeyGen where
  key : List Nat
  saltA : Nat
  saltB : Nat
  used : Nat
  high : Bool
  limit : Bool
  hi : Nat
  marks : List Nat
  deriving DecidableEq, Repr

/-- A key slot of a page or a terminal's entry: its two generations, ACT, a pending switch with its
generation and tick (R459), USE (R461), and for a terminal the page of its keys. -/
structure KeySlot where
  g0 : Option KeyGen
  g1 : Option KeyGen
  act : Bool
  pend : Option (Bool × Nat)
  use : Nat
  page : Nat
  deriving DecidableEq, Repr

/-- A verified `KEY.LOAD` that runs until it completes (R462, R463): its command slot, the key it names and
the material to install. -/
structure KeyLoad where
  tag : Nat
  page : Nat
  slot : Nat
  gen : Bool
  use : Nat
  term : Nat
  switchLp : Option Nat
  recover : Bool
  key : List Nat
  saltA : Nat
  saltB : Nat
  deriving DecidableEq, Repr

/-- Edelweiss, beside the `EDW` registers. (DESIGN CHOICE, log entry 4; DEDUCED, log entry 73.) -/
structure EdwSt where
  /-- page keys by 256 · page + slot; the home of `EDW_KEY` -/
  keys : List (Nat × Option KeySlot) := []
  /-- terminal keys by terminal index; the home of `EDW_TRK` but for TAGFAIL -/
  trk : List (Nat × Option KeySlot) := []
  /-- the transport private key -/
  tkey : Option Nat := none
  /-- the self-tests of the present power-up or host reset have ended (R446) -/
  tested : Bool := false
  /-- the superframe of the last raised failure of each terminal, plus one (R474) -/
  tagSf : List (Nat × Nat) := []
  loads : List KeyLoad := []
  /-- the transport key pair or zeroise erasures still to be made: a zeroise in progress, with whether it
  includes the identity key (R452) -/
  zeroing : Option Bool := none
  /-- the zeroise began with a trip; its record is to be raised once the event path runs (R450) -/
  zTrip : Bool := false
  zRaise : Bool := false
  /-- records written in BACKUP whose `EDW_TAMPER` is to be raised: their sensors, oldest first (R450) -/
  trips : List Nat := []
  /-- a backup loss is to be raised at the next mains return (R452) -/
  lost : Bool := false
  /-- ticks of the last CASTs and of the last reseed (R446, R448) -/
  castAt : Nat := 0
  seedAt : Nat := 0
  /-- a pipeline or engine instance has failed its CAST before the power-up tests ended (R446) -/
  castFail : Bool := false
  deriving DecidableEq, Repr

/-! ### Monitor converters (spec/13) -/

/-- Who an injection is for: an engine operation, a `MON.INJECT` by its slot, or nobody after its core was reset
(R500). -/
inductive InjBy
  | op (core tag : Nat)
  | cmd (slot : Nat)
  | orphan
  deriving DecidableEq, Repr

/-- An accepted injection (R497–R499): its LP as a tick, gate in ns, and whether it has taken the converter. -/
structure Inj where
  chan : Nat
  avg : Nat
  shift : Nat
  lp : Nat
  gate : Nat
  by_ : InjBy
  taken : Bool
  deriving DecidableEq, Repr

/-- A calibration (R502): pending since a tick, `MON_CAL_WAIT` raised or not, or running since a tick. -/
inductive CalStage
  | none
  | pending (since : Nat) (raised : Bool)
  | running (since : Nat)
  deriving DecidableEq, Repr

/-- Who joined a calibration: an engine operation, a `CAL.START` by its slot, or the reference image of a K-core or the
S-core at the start of its window (R509). -/
inductive CalBy
  | op (core tag : Nat)
  | cmd (slot : Nat)
  | image
  deriving DecidableEq, Repr

/-- A sequence entry in progress: its number, CHAN, AVG and SHIFT at its start (R496), the tick from which samples are
taken, the samples discarded for settling, and whether it was restarted (R495). -/
structure SeqRun where
  e : Nat
  chan : Nat
  avg : Nat
  shift : Nat
  first : Nat
  settle : Nat
  pre : Bool
  deriving DecidableEq, Repr

/-- One converter, beside its `MON[m]` registers. (DESIGN CHOICE, log entry 4.) -/
structure MonSt where
  /-- accepted injections in order of acceptance, the one that runs included -/
  inj : List Inj := []
  cal : CalStage := .none
  joined : List CalBy := []
  /-- a pass is in progress; the next entry; it was interrupted; the entry in progress -/
  passOn : Bool := false
  next : Nat := 0
  pre : Bool := false
  entry : Option SeqRun := none
  /-- a pass starts at entry 0 once the entry in progress has ended (R512) -/
  restart : Bool := false
  /-- tick at which the next pass starts, LAST and PERIOD of the present pass (R496), end of the previous pass -/
  due : Nat := 0
  per : Nat := 0
  last : Nat := 0
  passEnd : Nat := 0
  /-- front end: channel, gain and filter in force, and the tick at which settling ends (R491) -/
  chan : Nat := 0
  gain : Nat := 0
  filt : Nat := 0
  settled : Nat := 0
  /-- ticks of entry into IDLE and WAKE, and of the last update of the factors -/
  idleAt : Nat := 0
  wakeAt : Nat := 0
  facAt : Nat := 0
  /-- die temperature of the passing calibration in force (R504) -/
  adopted : Option Int := none
  /-- UNCAL of the latest channel-63 result (R506) -/
  refUncal : Option Bool := none
  /-- entries whose result word is poisoned (R489) -/
  bad : List Nat := []
  /-- calibration sets of the non-volatile store that differ from the factory's: the two words of each point -/
  nv : List (Nat × Option (Nat × Nat)) := []
  /-- a calibration was ended by the domain powering off (R503) -/
  cut : Bool := false
  /-- start of the calibration window that the reference image has given notice of, and of the one in which it last
  requested a calibration since the domain powered up (R505, R509) -/
  window : Option Nat := none
  imgCal : Option Nat := none
  deriving DecidableEq, Repr


/-! ### The whole state -/

/-- The module. -/
structure State where
  /-- commands that wait, first in first out -/
  pending : List Instr := []
  /-- LP, as a count of ticks since `0:0:0` (R8, R37) -/
  now : Nat := 0
  /-- counter behind the values the spec leaves open; the model's own field -/
  free : Nat := 0
  /-- progress of the calendar crystal toward its next count, in 1/32,768 of a tick (R69) -/
  calAcc : Nat := 0
  /-- crystal counts since the calendar's last trim (R72) -/
  calCnt : Nat := 0
  /-- register words by global address (R11, R89) -/
  regs : List (Nat × Word) := []
  /-- lane memories: stored words by global address (R88, R516) -/
  mem : List (Nat × Stored) := []
  /-- stored words of the `FWD`, `QUE` and `CNT` tables that differ from the code of their value (R516) -/
  tblRaw : List (Nat × Option Stored) := []
  /-- buffer lanes whose stored bits differ from the code of their packet's octets (R520) -/
  bufRaw : List (Nat × Option StoredB) := []
  /-- counter values by index (R541) -/
  cnt : List (Nat × Nat) := []
  /-- latched words by 2^30 · master ID + address (R64, R74, R262, R333, R348, R547); under the last address of a
  master, the counter word it read last -/
  latch : List (Nat × PWord) := []
  time : TimeSt := {}
  /-- cores by number -/
  cores : List (Nat × CoreSt) := []
  /-- matrix requests that wait, in order of arrival (R101, R102) -/
  mtx : List MtxReq := []
  /-- by target port: the master granted last since the matrix was reset, plus one (R103, R104) -/
  mtxLast : List (Nat × Nat) := []
  /-- cores whose own access to their local RAM was granted last, so that the matrix port is served next (R107) -/
  ramTurn : List Nat := []
  /-- memory instances being zeroed after their domain powered up (R83) -/
  zeroing : List Nat := []
  img : ImgSt := {}
  evt : EvtSt := {}
  grm : GrmSt := {}
  svc : SvcSt := {}
  pwr : PwrSt := {}
  edw : EdwSt := {}
  /-- lines by number -/
  lines : List (Nat × LineSt) := []
  /-- the block that each serial overhead port sends, by port 2·l + channel (R299–R301) -/
  ohDo : List (Nat × List Nat) := []
  /-- the buffer, queues, schedulers and mailboxes (R405, R417) -/
  traf : TrafSt := {}
  /-- channels and trees by number -/
  chans : List (Nat × ChSt) := []
  trees : List (Nat × TreeSt) := []
  /-- converters by number -/
  mons : List (Nat × MonSt) := []
  /-- `CAL.START` commands that run: slot, converters still to end, result so far (R513) -/
  calCmds : List (Nat × List Nat × Nat) := []
  deriving DecidableEq, Repr

/-- The module right after its power-on reset: every register at its reset value (R15), no memory word
stored, no command waiting.  The always-on domain is ON (R572). (DESIGN CHOICE, log entries 3 and 4.) -/
def State.reset : State := { regs := [(0o404001217, BitVec.ofNat 36 (2 * 2 ^ 34))] }

end Sys2Proof.Machine
end

