-- ==== Sys2Proof/Machine/LaneCode.lean ====
section
/-! DEFINITION. The lane code and the buffer code of spec/14: check bits, poison marker, classification (R517–R520),
and the stored words built on them (R78–R81). -/

namespace Sys2Proof.Machine

/-- Whether `p` is a power of two: the positions of Hamming check bits. -/
def isPow2 (p : Nat) : Bool := p = 1 || p = 2 || p = 4 || p = 8 || p = 16 || p = 32

/-- The positions of `n` data bits, bit 0 first: those that are no power of two, from 3 up (R517, R520). -/
def dataPositions (n : Nat) : List Nat := ((List.range 48).filter fun p => 2 < p && !isPow2 p).take n

/-- The exclusive-or of the positions of the set bits of `d`: the Hamming check value (R517). -/
def hammingOf (d : Nat) : List Nat → Nat → Nat
  | [], _ => 0
  | p :: t, i => (if d.testBit i then p else 0) ^^^ hammingOf d t (i + 1)

/-- The number of set bits among the lowest `n` bits. -/
def popCount (n d : Nat) : Nat := ((List.range n).map fun i => b2n (d.testBit i)).sum

/-- The check bits of a code with `n` data bits and `k` Hamming bits: Hamming bits below, overall parity
above (R517, R520). -/
def codeBits (n k d : Nat) : Nat :=
  let h := hammingOf d (dataPositions n) 0
  h + (popCount n d + popCount k h) % 2 * 2 ^ k

/-- The classes of R518. -/
inductive LaneClass
  | clean | corrected | poisoned | uncorrectable
  deriving DecidableEq, Repr

/-- The number of differing bits between `(d, c)` and the poison marker: data zero, checks all ones. -/
def markerDistance (n k d c : Nat) : Nat := popCount n d + (k + 1 - popCount (k + 1) c)

/-- The index of the data bit at a Hamming position. -/
def posIndex (n p : Nat) : Option Nat := (dataPositions n).findIdx? (· = p)

/-- The class and delivered data of a stored codeword (R518). -/
def classify (n k d c : Nat) : LaneClass × Nat :=
  if markerDistance n k d c ≤ 1 then (.poisoned, 0)
  else
    let h := hammingOf d (dataPositions n) 0
    let syn := h ^^^ (c % 2 ^ k)
    let par := (popCount n d + popCount (k + 1) c) % 2
    if syn = 0 ∧ par = 0 then (.clean, d)
    else if par = 1 ∧ syn = 0 then (.corrected, d)
    else if par = 1 ∧ syn ≤ n + k then
      (.corrected, match posIndex n syn with
        | some i => d ^^^ 2 ^ i
        | none => d)
    else (.uncorrectable, d)

/-- Data bits of lane `l` of a word (R4). -/
def laneData (w : Word) (l : Nat) : Nat := w.bits (9 * l + 8) (9 * l)

/-- Check bits of lane `l` of a stored word, c4–c0. -/
def laneChk (c : BitVec 20) (l : Nat) : Nat := bitsOf c.toNat (5 * l + 4) (5 * l)

/-- Class and data of lane `l` of a stored lane-memory word. -/
def Stored.lane (x : Stored) (l : Nat) : LaneClass × Nat := classify 9 4 (laneData x.data l) (laneChk x.chk l)

/-- A stored word with the bits of lane `l` replaced. -/
def Stored.setLane (x : Stored) (l d c : Nat) : Stored :=
  ⟨word (setBits x.data.toNat (9 * l + 8) (9 * l) d), BitVec.ofNat 20 (setBits x.chk.toNat (5 * l + 4) (5 * l) c)⟩

/-- Lane `l` written clean with data `d` (R81). -/
def Stored.putClean (x : Stored) (l d : Nat) : Stored := x.setLane l d (codeBits 9 4 d)

/-- Lane `l` written with the poison marker (R519). -/
def Stored.putMarker (x : Stored) (l : Nat) : Stored := x.setLane l 0 31

/-- The stored form of a clean word. -/
def cleanStored (w : Word) : Stored :=
  (List.range 4).foldl (fun x l => x.putClean l (laneData w l)) ⟨0, 0⟩

/-- What an unlisted lane-memory address holds: a clean zero word (R83). -/
def memDefault (_ : Nat) : Stored := ⟨0, 0⟩

/-- The canonical form of the lane memories. -/
def Memory.wf (m : List (Nat × Stored)) : Bool := swf memDefault m

/-- The stored word at an address of a lane memory. -/
def State.memAt (s : State) (a : Nat) : Stored := sget memDefault s.mem a

/-- The state with a stored lane-memory word replaced. -/
def State.setMem (s : State) (a : Nat) (x : Stored) : State := { s with mem := sput memDefault s.mem a x }

/-- The lanes a mask names. -/
def lanesOf (le : Nat) : List Nat := (List.range 4).filter fun l => le.testBit l

/-- The word a stored word delivers for the lanes of `le`; other lanes read zero (R78, R133, R518). -/
def Stored.deliver (x : Stored) (le : Nat) : PWord :=
  ⟨word (((lanesOf le).map fun l => (x.lane l).2 * 2 ^ (9 * l)).sum),
   (lanesOf le).any fun l => (x.lane l).1 = .poisoned || (x.lane l).1 = .uncorrectable⟩

/-- A stored word after a store with lane enables `le`: poison is written as the marker (R80, R81). -/
def Stored.store (x : Stored) (le : Nat) (v : PWord) : Stored :=
  (lanesOf le).foldl (fun x l => if v.p then x.putMarker l else x.putClean l (laneData v.v l)) x

end Sys2Proof.Machine
end

