-- ==== Sys2Proof/Machine/RegField.lean ====
section
/-! DEFINITION. What a row of a register table says of a field (R11–R15): its place, its access code,
its reset value, its retention code and the values a write may carry. -/

namespace Sys2Proof.Machine

/-- Access codes of R12. -/
inductive Access
  | ro | rw | w1c | wo | rc | rwl
  deriving DecidableEq, Repr

/-- Retention codes of R15. -/
inductive Retention
  | c | w | b
  deriving DecidableEq, Repr

/-- The reset column of a register table. -/
inductive ResetVal
  /-- one value for every instance -/
  | val (n : Nat)
  /-- fused at the factory -/
  | fused
  /-- fused at the factory within the limits the spec prints -/
  | fusedIn (least most : Nat)
  /-- copied from a non-volatile store when the domain powers up -/
  | stored
  /-- by the index of the replicated word: the value of the first pair whose bound exceeds it -/
  | byIdx (l : List (Nat × Nat))
  /-- by the index of the block instance, in the same form -/
  | byInst (l : List (Nat × Nat))
  deriving DecidableEq, Repr

/-- A field of a register table: a block base with the stride and number of its instances, the word
offset of index 0, the two dimensions of the replicated words (number and stride), the bits, and the
columns of the table.  `legal` lists the value ranges that are not reserved; empty means all. -/
structure Field where
  base : Nat
  stride : Nat
  inst : Nat
  off : Nat
  n1 : Nat
  s1 : Nat
  n2 : Nat
  s2 : Nat
  hi : Nat
  lo : Nat
  acc : Access
  reset : ResetVal
  ret : Retention
  legal : List (Nat × Nat)
  deriving DecidableEq, Repr

/-- The word address of a field in block instance `i`, replicated word `a` (outer), `b` (inner). -/
def Field.addr (f : Field) (i a b : Nat) : Nat := f.base + i * f.stride + f.off + a * f.s1 + b * f.s2

/-- The width of a field. -/
def Field.width (f : Field) : Nat := f.hi + 1 - f.lo

/-- The replicated-word index of a word offset within the block, when the field covers it. -/
def Field.index? (f : Field) (o : Nat) : Option Nat :=
  if o < f.off then none
  else
    let d := o - f.off
    let a := if f.s1 = 0 then 0 else d / f.s1
    let r := if f.s1 = 0 then d else d % f.s1
    let b := if f.s2 = 0 then 0 else r / f.s2
    let q := if f.s2 = 0 then r else r % f.s2
    if a < f.n1 ∧ b < f.n2 ∧ q = 0 then some (a * f.n2 + b) else none

/-- Looks up the value of a bounded-pair list. -/
def pickIdx : List (Nat × Nat) → Nat → Nat
  | [], _ => 0
  | (b, v) :: t, i => if i < b then v else pickIdx t i

/-- The reset value of a field of block instance `i` at replicated word `k` (R15). -/
def Field.resetAt (f : Field) (i k addr : Nat) : Nat :=
  match f.reset with
  | .val n => n
  | .fused => Config.fused addr f.lo % 2 ^ f.width
  | .fusedIn l h => l + Config.fused addr f.lo % (h + 1 - l)
  | .stored => Config.stored addr f.lo % 2 ^ f.width
  | .byIdx l => pickIdx l k
  | .byInst l => pickIdx l i

/-- Whether a field value is not a reserved value of its encoding (R14). -/
def Field.ok (f : Field) (v : Nat) : Bool := f.legal.isEmpty || f.legal.any fun r => r.1 ≤ v && v ≤ r.2

end Sys2Proof.Machine
end

