-- ==== Sys2Proof/Machine/RegMap.lean ====
section
/-! DEFINITION. The register fields of the module, one constant per field of the register
tables of spec/02 to spec/16 (R11, R12, R15, R89), with the address, bits, access code, reset value,
retention code and legal values the tables give.  Where a table shows the rows of index 0, `n1`, `s1`,
`n2`, `s2` place the replicated words. -/

namespace Sys2Proof.Machine

namespace Reg

/-- `TIME_LP_A.SF` (spec/02): superframe number; a read latches R74 -/
def TIME_LP_A_SF : Field :=
  ⟨0o404000000, 0o0, 1, 0o0, 1, 0, 1, 0, 35, 0, .ro, .val 0o0, .w, []⟩
/-- `TIME_LP_B.FR` (spec/02): frame number of the latched LP -/
def TIME_LP_B_FR : Field :=
  ⟨0o404000000, 0o0, 1, 0o1, 1, 0, 1, 0, 35, 23, .ro, .val 0o0, .w, []⟩
/-- `TIME_LP_B.TK` (spec/02): tick of the latched LP -/
def TIME_LP_B_TK : Field :=
  ⟨0o404000000, 0o0, 1, 0o1, 1, 0, 1, 0, 22, 4, .ro, .val 0o0, .w, []⟩
/-- `TIME_CTL.SRC` (spec/02): reference source (R43); 5–7 reserved -/
def TIME_CTL_SRC : Field :=
  ⟨0o404000000, 0o0, 1, 0o2, 1, 0, 1, 0, 8, 6, .rw, .val 0o0, .w, [(0, 4)]⟩
/-- `TIME_CTL.PTP_PORT` (spec/02): slave port P0–P15 -/
def TIME_CTL_PTP_PORT : Field :=
  ⟨0o404000000, 0o0, 1, 0o2, 1, 0, 1, 0, 5, 2, .rw, .val 0o0, .w, []⟩
/-- `TIME_CTL.PPS_FREE` (spec/02): 1PPS output before first lock (R66) -/
def TIME_CTL_PPS_FREE : Field :=
  ⟨0o404000000, 0o0, 1, 0o2, 1, 0, 1, 0, 1, 1, .rw, .val 0o0, .w, []⟩
/-- `TIME_CTL.EN` (spec/02): servo enable -/
def TIME_CTL_EN : Field :=
  ⟨0o404000000, 0o0, 1, 0o2, 1, 0, 1, 0, 0, 0, .rw, .val 0o1, .w, []⟩
/-- `TIME_STAT.OCXO_WARM` (spec/02): OCXO within ±50 ppb; set 120–300 s after power-up -/
def TIME_STAT_OCXO_WARM : Field :=
  ⟨0o404000000, 0o0, 1, 0o3, 1, 0, 1, 0, 6, 6, .ro, .val 0o0, .w, []⟩
/-- `TIME_STAT.JUMP` (spec/02): jump declared and not resolved -/
def TIME_STAT_JUMP : Field :=
  ⟨0o404000000, 0o0, 1, 0o3, 1, 0, 1, 0, 5, 5, .ro, .val 0o0, .w, []⟩
/-- `TIME_STAT.STEPPED` (spec/02): first lock done -/
def TIME_STAT_STEPPED : Field :=
  ⟨0o404000000, 0o0, 1, 0o3, 1, 0, 1, 0, 4, 4, .ro, .val 0o0, .w, []⟩
/-- `TIME_STAT.REF_OK` (spec/02): reference qualified (R44) -/
def TIME_STAT_REF_OK : Field :=
  ⟨0o404000000, 0o0, 1, 0o3, 1, 0, 1, 0, 3, 3, .ro, .val 0o0, .w, []⟩
/-- `TIME_STAT.STATE` (spec/02): 0 FREE, 1 ACQUIRE, 2 LOCKED, 3 HOLDOVER; 4–7 reserved, never shown -/
def TIME_STAT_STATE : Field :=
  ⟨0o404000000, 0o0, 1, 0o3, 1, 0, 1, 0, 2, 0, .ro, .val 0o0, .w, []⟩
/-- `TIME_MAP_N0` (spec/02): mapping offset, word N0 (R41) -/
def TIME_MAP_N0 : Field :=
  ⟨0o404000000, 0o0, 1, 0o4, 1, 0, 1, 0, 35, 0, .ro, .val 0o0, .w, []⟩
/-- `TIME_MAP_N1` (spec/02): mapping offset, word N1 -/
def TIME_MAP_N1 : Field :=
  ⟨0o404000000, 0o0, 1, 0o5, 1, 0, 1, 0, 35, 0, .ro, .val 0o0, .w, []⟩
/-- `TIME_MAP_N2` (spec/02): mapping offset, word N2 -/
def TIME_MAP_N2 : Field :=
  ⟨0o404000000, 0o0, 1, 0o6, 1, 0, 1, 0, 35, 0, .ro, .val 0o0, .w, []⟩
/-- `TIME_NOW_N0` (spec/02): network time at the latched LP, word N0 -/
def TIME_NOW_N0 : Field :=
  ⟨0o404000000, 0o0, 1, 0o10, 1, 0, 1, 0, 35, 0, .ro, .val 0o0, .c, []⟩
/-- `TIME_NOW_N1` (spec/02): word N1 -/
def TIME_NOW_N1 : Field :=
  ⟨0o404000000, 0o0, 1, 0o11, 1, 0, 1, 0, 35, 0, .ro, .val 0o0, .c, []⟩
/-- `TIME_NOW_N2` (spec/02): word N2 -/
def TIME_NOW_N2 : Field :=
  ⟨0o404000000, 0o0, 1, 0o12, 1, 0, 1, 0, 35, 0, .ro, .val 0o0, .c, []⟩
/-- `TIME_RATE` (spec/02): applied rate correction, two's complement, units 2⁻⁵⁰ -/
def TIME_RATE : Field :=
  ⟨0o404000000, 0o0, 1, 0o13, 1, 0, 1, 0, 35, 0, .ro, .val 0o0, .w, []⟩
/-- `TIME_SERVO.LOCK_THR` (spec/02): units 4 ns; 1–511; 0 reserved -/
def TIME_SERVO_LOCK_THR : Field :=
  ⟨0o404000000, 0o0, 1, 0o14, 1, 0, 1, 0, 35, 27, .rw, .val 0o31, .w, [(1, 511)]⟩
/-- `TIME_SERVO.JUMP_THR` (spec/02): units 125 ns; 1–511; 0 reserved -/
def TIME_SERVO_JUMP_THR : Field :=
  ⟨0o404000000, 0o0, 1, 0o14, 1, 0, 1, 0, 26, 18, .rw, .val 0o10, .w, [(1, 511)]⟩
/-- `TIME_SERVO.LOCK_CNT` (spec/02): 1–15; 0 reserved -/
def TIME_SERVO_LOCK_CNT : Field :=
  ⟨0o404000000, 0o0, 1, 0o14, 1, 0, 1, 0, 17, 14, .rw, .val 0o10, .w, [(1, 15)]⟩
/-- `TIME_SERVO.JUMP_CNT` (spec/02): 1–7; 0 reserved -/
def TIME_SERVO_JUMP_CNT : Field :=
  ⟨0o404000000, 0o0, 1, 0o14, 1, 0, 1, 0, 13, 11, .rw, .val 0o3, .w, [(1, 7)]⟩
/-- `TIME_SERVO.RATE_MAX` (spec/02): units 0.5 ppm; 1–40; 0 and 41–63 reserved -/
def TIME_SERVO_RATE_MAX : Field :=
  ⟨0o404000000, 0o0, 1, 0o14, 1, 0, 1, 0, 10, 5, .rw, .val 0o10, .w, [(1, 40)]⟩
/-- `TIME_SERVO.SLEW` (spec/02): units 0.02 ppm/s; 1–31; 0 reserved -/
def TIME_SERVO_SLEW : Field :=
  ⟨0o404000000, 0o0, 1, 0o14, 1, 0, 1, 0, 4, 0, .rw, .val 0o5, .w, [(1, 31)]⟩
/-- `TIME_PPS.PPS_WIDTH` (spec/02): output pulse width, units 1 µs; 1–500,000; other values reserved -/
def TIME_PPS_PPS_WIDTH : Field :=
  ⟨0o404000000, 0o0, 1, 0o15, 1, 0, 1, 0, 35, 17, .rw, .val 0o144, .w, [(1, 500000)]⟩
/-- `TIME_PPS.IN_DELAY` (spec/02): 1PPS input cable delay, units 0.25 ns -/
def TIME_PPS_IN_DELAY : Field :=
  ⟨0o404000000, 0o0, 1, 0o15, 1, 0, 1, 0, 16, 0, .rw, .val 0o0, .w, []⟩
/-- `TIME_TOD.DS_FRAC` (spec/02): downstream share of the round trip, units 1/65,536; 0 reserved -/
def TIME_TOD_DS_FRAC : Field :=
  ⟨0o404000000, 0o0, 1, 0o16, 1, 0, 1, 0, 15, 0, .rw, .val 0o100000, .w, [(1, 65535)]⟩
/-- `TIME_TSQ_STAT.COUNT` (spec/02): entries held, 0–64 -/
def TIME_TSQ_STAT_COUNT : Field :=
  ⟨0o404000000, 0o0, 1, 0o17, 1, 0, 1, 0, 6, 0, .ro, .val 0o0, .c, []⟩
/-- `TIME_TSQ_E0.SEQ_ID` (spec/02): sequenceId; a read removes the entry (R64) -/
def TIME_TSQ_E0_SEQ_ID : Field :=
  ⟨0o404000000, 0o0, 1, 0o20, 1, 0, 1, 0, 35, 20, .ro, .val 0o0, .c, []⟩
/-- `TIME_TSQ_E0.MSG_TYPE` (spec/02): messageType -/
def TIME_TSQ_E0_MSG_TYPE : Field :=
  ⟨0o404000000, 0o0, 1, 0o20, 1, 0, 1, 0, 19, 16, .ro, .val 0o0, .c, []⟩
/-- `TIME_TSQ_E0.PORT` (spec/02): client port -/
def TIME_TSQ_E0_PORT : Field :=
  ⟨0o404000000, 0o0, 1, 0o20, 1, 0, 1, 0, 15, 12, .ro, .val 0o0, .c, []⟩
/-- `TIME_TSQ_E0.DOMAIN` (spec/02): domainNumber -/
def TIME_TSQ_E0_DOMAIN : Field :=
  ⟨0o404000000, 0o0, 1, 0o20, 1, 0, 1, 0, 11, 4, .ro, .val 0o0, .c, []⟩
/-- `TIME_TSQ_E0.VALID` (spec/02): 1 when an entry was removed -/
def TIME_TSQ_E0_VALID : Field :=
  ⟨0o404000000, 0o0, 1, 0o20, 1, 0, 1, 0, 0, 0, .ro, .val 0o0, .c, []⟩
/-- `TIME_TSQ_E1` (spec/02): transmit stamp, words N0–N2 -/
def TIME_TSQ_E1 : Field :=
  ⟨0o404000000, 0o0, 1, 0o21, 1, 0, 1, 0, 35, 0, .ro, .val 0o0, .c, []⟩
/-- `TIME_TSQ_E2` (spec/02): transmit stamp, words N0–N2 -/
def TIME_TSQ_E2 : Field :=
  ⟨0o404000000, 0o0, 1, 0o22, 1, 0, 1, 0, 35, 0, .ro, .val 0o0, .c, []⟩
/-- `TIME_TSQ_E3` (spec/02): transmit stamp, words N0–N2 -/
def TIME_TSQ_E3 : Field :=
  ⟨0o404000000, 0o0, 1, 0o23, 1, 0, 1, 0, 35, 0, .ro, .val 0o0, .c, []⟩
/-- `PORT_TSC.TX_CORR` (spec/02): factory transmit correction, units 0.25 ns -/
def PORT_TSC_TX_CORR : Field :=
  ⟨0o403000000, 0o2000, 16, 0o300, 1, 0, 1, 0, 16, 0, .ro, .fusedIn 304 324, .w, []⟩
/-- `PORT_TSC.RX_CORR` (spec/02): factory receive correction, units 0.25 ns -/
def PORT_TSC_RX_CORR : Field :=
  ⟨0o403000000, 0o2000, 16, 0o301, 1, 0, 1, 0, 16, 0, .ro, .fusedIn 515 535, .w, []⟩
/-- `PORT_TSU.TX_USER` (spec/02): added transmit correction, two's complement, units 0.25 ns -/
def PORT_TSU_TX_USER : Field :=
  ⟨0o403000000, 0o2000, 16, 0o302, 1, 0, 1, 0, 35, 18, .rw, .val 0o0, .w, []⟩
/-- `PORT_TSU.RX_USER` (spec/02): added receive correction, two's complement, units 0.25 ns -/
def PORT_TSU_RX_USER : Field :=
  ⟨0o403000000, 0o2000, 16, 0o302, 1, 0, 1, 0, 17, 0, .rw, .val 0o0, .w, []⟩
/-- `PORT_PTP.ONESTEP` (spec/02): 1: one-step Sync (R62); 0: two-step -/
def PORT_PTP_ONESTEP : Field :=
  ⟨0o403000000, 0o2000, 16, 0o303, 1, 0, 1, 0, 2, 2, .rw, .val 0o1, .w, []⟩
/-- `PORT_PTP.UDP4` (spec/02): 1: also parse UDP/IPv4 -/
def PORT_PTP_UDP4 : Field :=
  ⟨0o403000000, 0o2000, 16, 0o303, 1, 0, 1, 0, 1, 1, .rw, .val 0o0, .w, []⟩
/-- `PORT_PTP.EN` (spec/02): timestamp PTP event messages on this port -/
def PORT_PTP_EN : Field :=
  ⟨0o403000000, 0o2000, 16, 0o303, 1, 0, 1, 0, 0, 0, .rw, .val 0o0, .w, []⟩
/-- `RTC_SEC_A` (spec/02): calendar seconds bits 47–12; a read latches RTC_SEC_B -/
def RTC_SEC_A : Field :=
  ⟨0o404000100, 0o0, 1, 0o0, 1, 0, 1, 0, 35, 0, .ro, .val 0o0, .b, []⟩
/-- `RTC_SEC_B.SEC` (spec/02): seconds bits 11–0 -/
def RTC_SEC_B_SEC : Field :=
  ⟨0o404000100, 0o0, 1, 0o1, 1, 0, 1, 0, 35, 24, .ro, .val 0o0, .b, []⟩
/-- `RTC_SEC_B.FRAC` (spec/02): fraction, units 1/32,768 s -/
def RTC_SEC_B_FRAC : Field :=
  ⟨0o404000100, 0o0, 1, 0o1, 1, 0, 1, 0, 23, 9, .ro, .val 0o0, .b, []⟩
/-- `RTC_CTL.SYNC` (spec/02): synchronise from network time (R70) -/
def RTC_CTL_SYNC : Field :=
  ⟨0o404000100, 0o0, 1, 0o2, 1, 0, 1, 0, 8, 8, .rw, .val 0o1, .b, []⟩
/-- `RTC_CTL.TRIM` (spec/02): crystal trim, two's complement, 0.954 ppm per unit -/
def RTC_CTL_TRIM : Field :=
  ⟨0o404000100, 0o0, 1, 0o2, 1, 0, 1, 0, 7, 0, .rw, .val 0o0, .b, []⟩
/-- `RTC_STAT.XTAL_FAIL` (spec/02): no crystal count for 1 ms -/
def RTC_STAT_XTAL_FAIL : Field :=
  ⟨0o404000100, 0o0, 1, 0o3, 1, 0, 1, 0, 1, 1, .ro, .val 0o0, .b, []⟩
/-- `RTC_STAT.INVALID` (spec/02): calendar not set since backup loss -/
def RTC_STAT_INVALID : Field :=
  ⟨0o404000100, 0o0, 1, 0o3, 1, 0, 1, 0, 0, 0, .ro, .val 0o1, .b, []⟩
/-- `MTX_CTL.STARVE` (spec/03): starvation bound, units 1 clock; 16–2,047; 0–15 reserved -/
def MTX_CTL_STARVE : Field :=
  ⟨0o450020000, 0o0, 1, 0o0, 1, 0, 1, 0, 10, 0, .rwl, .val 0o2000, .w, [(16, 2047)]⟩
/-- `KMTX_CTL.STARVE` (spec/03): starvation bound, units 1 clock; 16–2,047; 0–15 reserved -/
def KMTX_CTL_STARVE : Field :=
  ⟨0o401400000, 0o10000, 8, 0o7700, 1, 0, 1, 0, 10, 0, .rwl, .val 0o2000, .w, [(16, 2047)]⟩
/-- `MTX_ABORT.MASTER` (spec/03): master ID of the last burst completed by R108 -/
def MTX_ABORT_MASTER : Field :=
  ⟨0o450020000, 0o0, 1, 0o1, 1, 0, 1, 0, 25, 16, .ro, .val 0o0, .w, []⟩
/-- `KMTX_ABORT.MASTER` (spec/03): master ID of the last burst completed by R108 -/
def KMTX_ABORT_MASTER : Field :=
  ⟨0o401400000, 0o10000, 8, 0o7701, 1, 0, 1, 0, 25, 16, .ro, .val 0o0, .w, []⟩
/-- `MTX_ABORT.BEATS` (spec/03): dummy beats issued, 1–15 -/
def MTX_ABORT_BEATS : Field :=
  ⟨0o450020000, 0o0, 1, 0o1, 1, 0, 1, 0, 15, 12, .ro, .val 0o0, .w, []⟩
/-- `KMTX_ABORT.BEATS` (spec/03): dummy beats issued, 1–15 -/
def KMTX_ABORT_BEATS : Field :=
  ⟨0o401400000, 0o10000, 8, 0o7701, 1, 0, 1, 0, 15, 12, .ro, .val 0o0, .w, []⟩
/-- `MTX_DECERR_ADDR` (spec/03): address of the last error response (R93) -/
def MTX_DECERR_ADDR : Field :=
  ⟨0o450020000, 0o0, 1, 0o2, 1, 0, 1, 0, 29, 0, .ro, .val 0o0, .w, []⟩
/-- `KMTX_DECERR_ADDR` (spec/03): address of the last error response (R93) -/
def KMTX_DECERR_ADDR : Field :=
  ⟨0o401400000, 0o10000, 8, 0o7702, 1, 0, 1, 0, 29, 0, .ro, .val 0o0, .w, []⟩
/-- `MTX_DECERR_SRC.CAUSE` (spec/03): 0 reserved address, 1 outside rights, 2 target off or in reset, 3 image region write (R118) -/
def MTX_DECERR_SRC_CAUSE : Field :=
  ⟨0o450020000, 0o0, 1, 0o3, 1, 0, 1, 0, 11, 10, .ro, .val 0o0, .w, []⟩
/-- `KMTX_DECERR_SRC.CAUSE` (spec/03): 0 reserved address, 1 outside rights, 2 target off or in reset, 3 image region write (R118) -/
def KMTX_DECERR_SRC_CAUSE : Field :=
  ⟨0o401400000, 0o10000, 8, 0o7703, 1, 0, 1, 0, 11, 10, .ro, .val 0o0, .w, []⟩
/-- `MTX_DECERR_SRC.MASTER` (spec/03): master ID -/
def MTX_DECERR_SRC_MASTER : Field :=
  ⟨0o450020000, 0o0, 1, 0o3, 1, 0, 1, 0, 9, 0, .ro, .val 0o0, .w, []⟩
/-- `KMTX_DECERR_SRC.MASTER` (spec/03): master ID -/
def KMTX_DECERR_SRC_MASTER : Field :=
  ⟨0o401400000, 0o10000, 8, 0o7703, 1, 0, 1, 0, 9, 0, .ro, .val 0o0, .w, []⟩
/-- `CORE_CTL.REMAP` (spec/03): slot mapping (R87, R110) -/
def CORE_CTL_REMAP : Field :=
  ⟨0o460000000, 0o10000, 77, 0o0, 1, 0, 1, 0, 3, 3, .rw, .val 0o0, .c, []⟩
/-- `CORE_CTL.HALT` (spec/03): 1: halt -/
def CORE_CTL_HALT : Field :=
  ⟨0o460000000, 0o10000, 77, 0o0, 1, 0, 1, 0, 2, 2, .wo, .val 0o0, .c, []⟩
/-- `CORE_CTL.START` (spec/03): 1: start at CORE_START -/
def CORE_CTL_START : Field :=
  ⟨0o460000000, 0o10000, 77, 0o0, 1, 0, 1, 0, 1, 1, .wo, .val 0o0, .c, []⟩
/-- `CORE_CTL.SRST` (spec/03): 1: core reset -/
def CORE_CTL_SRST : Field :=
  ⟨0o460000000, 0o10000, 77, 0o0, 1, 0, 1, 0, 0, 0, .wo, .val 0o0, .c, []⟩
/-- `CORE_STAT.ENG_OUT` (spec/03): engine operations outstanding, 0–64 -/
def CORE_STAT_ENG_OUT : Field :=
  ⟨0o460000000, 0o10000, 77, 0o1, 1, 0, 1, 0, 18, 12, .ro, .val 0o0, .c, []⟩
/-- `CORE_STAT.FAULT` (spec/03): exception code of the fault that stopped the core, as listed in The Hergil instruction set; 0 none -/
def CORE_STAT_FAULT : Field :=
  ⟨0o460000000, 0o10000, 77, 0o1, 1, 0, 1, 0, 11, 8, .ro, .val 0o0, .c, []⟩
/-- `CORE_STAT.KIND` (spec/03): 0 T-core, 1 K-core, 2 L-core, 3 S-core -/
def CORE_STAT_KIND : Field :=
  ⟨0o460000000, 0o10000, 77, 0o1, 1, 0, 1, 0, 7, 6, .ro, .byInst [(64, 0), (72, 1), (76, 2), (77, 3)], .c, []⟩
/-- `CORE_STAT.LATE` (spec/03): last START refused as late; cleared by the next START -/
def CORE_STAT_LATE : Field :=
  ⟨0o460000000, 0o10000, 77, 0o1, 1, 0, 1, 0, 3, 3, .ro, .val 0o0, .c, []⟩
/-- `CORE_STAT.STATE` (spec/03): 0 OFF, 1 EMPTY, 2 LOADING, 3 LOADED, 4 RUNNING, 5 HALTED, 6 FAULTED; 7 reserved, never shown -/
def CORE_STAT_STATE : Field :=
  ⟨0o460000000, 0o10000, 77, 0o1, 1, 0, 1, 0, 2, 0, .ro, .val 0o1, .c, []⟩
/-- `CORE_PC` (spec/03): next instruction when HALTED or FAULTED; when RUNNING, sampled at the read -/
def CORE_PC : Field :=
  ⟨0o460000000, 0o10000, 77, 0o2, 1, 0, 1, 0, 29, 0, .ro, .val 0o0, .c, []⟩
/-- `CORE_ENTRY` (spec/03): entry point of the loaded image -/
def CORE_ENTRY : Field :=
  ⟨0o460000000, 0o10000, 77, 0o3, 1, 0, 1, 0, 29, 0, .ro, .val 0o0, .c, []⟩
/-- `CORE_IMG_VER` (spec/03): version of the loaded image -/
def CORE_IMG_VER : Field :=
  ⟨0o460000000, 0o10000, 77, 0o4, 1, 0, 1, 0, 35, 0, .ro, .val 0o0, .c, []⟩
/-- `CORE_IMG_BASE` (spec/03): load address of the image region, in slot Z -/
def CORE_IMG_BASE : Field :=
  ⟨0o460000000, 0o10000, 77, 0o5, 1, 0, 1, 0, 29, 0, .ro, .val 0o0, .c, []⟩
/-- `CORE_IMG_LEN` (spec/03): image region length in words; 0 when EMPTY -/
def CORE_IMG_LEN : Field :=
  ⟨0o460000000, 0o10000, 77, 0o6, 1, 0, 1, 0, 21, 0, .ro, .val 0o0, .c, []⟩
/-- `CORE_START_A` (spec/03): start LP, word A -/
def CORE_START_A : Field :=
  ⟨0o460000000, 0o10000, 77, 0o10, 1, 0, 1, 0, 35, 0, .rw, .val 0o0, .c, []⟩
/-- `CORE_START_B` (spec/03): start LP, word B (R8); 0:0:0 starts at once -/
def CORE_START_B : Field :=
  ⟨0o460000000, 0o10000, 77, 0o11, 1, 0, 1, 0, 35, 0, .rw, .val 0o0, .c, []⟩
/-- `CORE_WIN_H.MODE` (spec/03): 0 closed, 1 read, 2 read-write; 3 reserved -/
def CORE_WIN_H_MODE : Field :=
  ⟨0o460000000, 0o10000, 77, 0o20, 4, 2, 1, 0, 35, 34, .rw, .val 0o0, .c, [(0, 2)]⟩
/-- `CORE_WIN_H.OPEN` (spec/03): window open (R95) -/
def CORE_WIN_H_OPEN : Field :=
  ⟨0o460000000, 0o10000, 77, 0o20, 4, 2, 1, 0, 33, 33, .ro, .val 0o0, .c, []⟩
/-- `CORE_WIN_H.DENY` (spec/03): last open refused; cleared by the next open -/
def CORE_WIN_H_DENY : Field :=
  ⟨0o460000000, 0o10000, 77, 0o20, 4, 2, 1, 0, 32, 32, .ro, .val 0o0, .c, []⟩
/-- `CORE_WIN_H.HANDLE` (spec/03): buffer packet handle -/
def CORE_WIN_H_HANDLE : Field :=
  ⟨0o460000000, 0o10000, 77, 0o20, 4, 2, 1, 0, 29, 0, .rw, .val 0o0, .c, []⟩
/-- `CORE_WIN_L.LEN` (spec/03): packet length in octets, 0–16,383 -/
def CORE_WIN_L_LEN : Field :=
  ⟨0o460000000, 0o10000, 77, 0o21, 4, 2, 1, 0, 13, 0, .ro, .val 0o0, .c, []⟩
/-- `IMG_STAT.LOADER` (spec/03): 0 idle, 1 verifying (R117), 2 copying (R118); 3 reserved, never shown -/
def IMG_STAT_LOADER : Field :=
  ⟨0o450030000, 0o0, 1, 0o0, 1, 0, 1, 0, 35, 34, .ro, .val 0o0, .c, []⟩
/-- `IMG_STAT.TARGET` (spec/03): core being copied, 0–76; 127 none -/
def IMG_STAT_TARGET : Field :=
  ⟨0o450030000, 0o0, 1, 0o0, 1, 0, 1, 0, 33, 27, .ro, .val 0o177, .c, []⟩
/-- `IMG_STAT.STORE` (spec/03): an IMG.STORE is running (R206) -/
def IMG_STAT_STORE : Field :=
  ⟨0o450030000, 0o0, 1, 0o0, 1, 0, 1, 0, 26, 26, .ro, .val 0o0, .c, []⟩
/-- `IMG_LAST.STATUS` (spec/03): STATUS (R209) of the last CORE.LOAD or IMG.STORE to complete -/
def IMG_LAST_STATUS : Field :=
  ⟨0o450030000, 0o0, 1, 0o1, 1, 0, 1, 0, 35, 27, .ro, .val 0o0, .c, []⟩
/-- `IMG_LAST.OP` (spec/03): 0 CORE.LOAD, 1 IMG.STORE -/
def IMG_LAST_OP : Field :=
  ⟨0o450030000, 0o0, 1, 0o1, 1, 0, 1, 0, 26, 26, .ro, .val 0o0, .c, []⟩
/-- `IMG_LAST.KIND` (spec/03): core kind named by that image's header; 0 when the header was not read -/
def IMG_LAST_KIND : Field :=
  ⟨0o450030000, 0o0, 1, 0o1, 1, 0, 1, 0, 25, 24, .ro, .val 0o0, .c, []⟩
/-- `IMG_MINVER` (spec/03): minimum version of kind k (R117) -/
def IMG_MINVER : Field :=
  ⟨0o450030000, 0o0, 1, 0o10, 4, 1, 1, 0, 35, 0, .ro, .stored, .w, []⟩
/-- `IMG_REF_VER` (spec/03): image version in the reference slot of kind k -/
def IMG_REF_VER : Field :=
  ⟨0o450030000, 0o0, 1, 0o20, 4, 4, 1, 0, 35, 0, .ro, .stored, .w, []⟩
/-- `IMG_OPR_VER` (spec/03): image version in the operator slot of kind k; 0 when OPR_VALID = 0 -/
def IMG_OPR_VER : Field :=
  ⟨0o450030000, 0o0, 1, 0o21, 4, 4, 1, 0, 35, 0, .ro, .stored, .w, []⟩
/-- `IMG_SLOT.OPR_VALID` (spec/03): the operator slot holds an image -/
def IMG_SLOT_OPR_VALID : Field :=
  ⟨0o450030000, 0o0, 1, 0o22, 4, 4, 1, 0, 35, 35, .ro, .stored, .w, []⟩
/-- `IMG_SLOT.OPR_SIGNER` (spec/03): signer of that image: 0 Ewethar image key, 1 operator image key -/
def IMG_SLOT_OPR_SIGNER : Field :=
  ⟨0o450030000, 0o0, 1, 0o22, 4, 4, 1, 0, 34, 34, .ro, .stored, .w, []⟩
/-- `CORE_ENG.RING` (spec/04): entries in the ring, 0–64 -/
def CORE_ENG_RING : Field :=
  ⟨0o460000000, 0o10000, 77, 0o100, 1, 0, 1, 0, 13, 7, .ro, .val 0o0, .c, []⟩
/-- `CORE_ENG.BUSY` (spec/04): busy tags, 0–64 -/
def CORE_ENG_BUSY : Field :=
  ⟨0o460000000, 0o10000, 77, 0o100, 1, 0, 1, 0, 6, 0, .ro, .val 0o0, .c, []⟩
/-- `CORE_TAGS_H` (spec/04): bit i: tag 32 + i busy -/
def CORE_TAGS_H : Field :=
  ⟨0o460000000, 0o10000, 77, 0o101, 1, 0, 1, 0, 31, 0, .ro, .val 0o0, .c, []⟩
/-- `CORE_TAGS_L` (spec/04): bit i: tag i busy -/
def CORE_TAGS_L : Field :=
  ⟨0o460000000, 0o10000, 77, 0o102, 1, 0, 1, 0, 31, 0, .ro, .val 0o0, .c, []⟩
/-- `CORE_AT.ARMED` (spec/04): bit s: slot s armed -/
def CORE_AT_ARMED : Field :=
  ⟨0o460000000, 0o10000, 77, 0o103, 1, 0, 1, 0, 15, 0, .ro, .val 0o0, .c, []⟩
/-- `CORE_RING` (spec/04): entry e at +0o0200 + 2·e, oldest first (R148); reading takes nothing; words beyond RING read zero -/
def CORE_RING : Field :=
  ⟨0o460000000, 0o10000, 77, 0o200, 128, 1, 1, 0, 35, 0, .ro, .val 0o0, .c, []⟩
/-- `CORE_AT_SLOT` (spec/04): slot s at +0o0400 + 4·s: LP word A, LP word B, action word 0, action word 1; a free slot reads zero -/
def CORE_AT_SLOT : Field :=
  ⟨0o460000000, 0o10000, 77, 0o400, 64, 1, 1, 0, 35, 0, .ro, .val 0o0, .c, []⟩
/-- `SVC_CTL.QEN` (spec/05): bit q: queue q enabled -/
def SVC_CTL_QEN : Field :=
  ⟨0o404010000, 0o0, 1, 0o0, 1, 0, 1, 0, 10, 3, .rw, .val 0o377, .w, []⟩
/-- `SVC_CTL.LPM_EN` (spec/05): accept L1 and L2 requests (R173) -/
def SVC_CTL_LPM_EN : Field :=
  ⟨0o404010000, 0o0, 1, 0o0, 1, 0, 1, 0, 2, 2, .rw, .val 0o1, .w, []⟩
/-- `SVC_STAT.LINK` (spec/05): 0 RESET, 1 CDR, 2 ALIGN, 3 DESKEW, 4 UP, 5 L1, 6 L2, 7 LOOP -/
def SVC_STAT_LINK : Field :=
  ⟨0o404010000, 0o0, 1, 0o1, 1, 0, 1, 0, 11, 9, .ro, .val 0o0, .c, []⟩
/-- `SVC_STAT.FAR_UP` (spec/05): RX_UP of the last /A/ received -/
def SVC_STAT_FAR_UP : Field :=
  ⟨0o404010000, 0o0, 1, 0o1, 1, 0, 1, 0, 8, 8, .ro, .val 0o0, .c, []⟩
/-- `SVC_STAT.INTAKE` (spec/05): commands taken; set by the S-core image -/
def SVC_STAT_INTAKE : Field :=
  ⟨0o404010000, 0o0, 1, 0o1, 1, 0, 1, 0, 7, 7, .ro, .val 0o0, .c, []⟩
/-- `SVC_STAT.BOOTROM` (spec/05): S-core held in its boot ROM -/
def SVC_STAT_BOOTROM : Field :=
  ⟨0o404010000, 0o0, 1, 0o1, 1, 0, 1, 0, 6, 6, .ro, .val 0o0, .c, []⟩
/-- `SVC_STAT.SKEW` (spec/05): lane spread found at the last deskew, columns 0–24 -/
def SVC_STAT_SKEW : Field :=
  ⟨0o404010000, 0o0, 1, 0o1, 1, 0, 1, 0, 4, 0, .ro, .val 0o0, .c, []⟩
/-- `SVC_ALERT.BOOT_FAIL` (spec/05): the S-core is held in its boot ROM because both S-core slots failed or the error state refused the loads (R120, R447) -/
def SVC_ALERT_BOOT_FAIL : Field :=
  ⟨0o404010000, 0o0, 1, 0o2, 1, 0, 1, 0, 2, 2, .ro, .val 0o0, .c, []⟩
/-- `SVC_ALERT.LINK_LOST` (spec/05): the receive side left UP other than for L1, L2 or LOOP -/
def SVC_ALERT_LINK_LOST : Field :=
  ⟨0o404010000, 0o0, 1, 0o2, 1, 0, 1, 0, 1, 1, .w1c, .val 0o0, .c, []⟩
/-- `SVC_ALERT.P0_PEND` (spec/05): a priority-0 record has been raised -/
def SVC_ALERT_P0_PEND : Field :=
  ⟨0o404010000, 0o0, 1, 0o2, 1, 0, 1, 0, 0, 0, .w1c, .val 0o0, .c, []⟩
/-- `SVC_ALERT_EN.LINK_LOST` (spec/05): enable for LINK_LOST -/
def SVC_ALERT_EN_LINK_LOST : Field :=
  ⟨0o404010000, 0o0, 1, 0o3, 1, 0, 1, 0, 1, 1, .rw, .val 0o1, .w, []⟩
/-- `SVC_ALERT_EN.P0_PEND` (spec/05): enable for P0_PEND -/
def SVC_ALERT_EN_P0_PEND : Field :=
  ⟨0o404010000, 0o0, 1, 0o3, 1, 0, 1, 0, 0, 0, .rw, .val 0o1, .w, []⟩
/-- `SVC_TX.PRE` (spec/05): pre-cursor de-emphasis, 0.25 dB per unit -/
def SVC_TX_PRE : Field :=
  ⟨0o404010000, 0o0, 1, 0o4, 1, 0, 1, 0, 11, 8, .rw, .val 0o0, .w, []⟩
/-- `SVC_TX.POST` (spec/05): post-cursor de-emphasis, 0.25 dB per unit -/
def SVC_TX_POST : Field :=
  ⟨0o404010000, 0o0, 1, 0o4, 1, 0, 1, 0, 7, 3, .rw, .val 0o10, .w, []⟩
/-- `SVC_TX.SWING` (spec/05): output swing step; levels in Connectors, electrical and optical characteristics -/
def SVC_TX_SWING : Field :=
  ⟨0o404010000, 0o0, 1, 0o4, 1, 0, 1, 0, 2, 0, .rw, .val 0o4, .w, []⟩
/-- `SVC_LANE.ALIGNED` (spec/05): comma alignment found -/
def SVC_LANE_ALIGNED : Field :=
  ⟨0o404010000, 0o0, 1, 0o10, 4, 1, 1, 0, 16, 16, .ro, .val 0o0, .c, []⟩
/-- `SVC_LANE.EQM` (spec/05): eye-quality metric (R176) -/
def SVC_LANE_EQM : Field :=
  ⟨0o404010000, 0o0, 1, 0o10, 4, 1, 1, 0, 15, 8, .ro, .val 0o0, .c, []⟩
/-- `SVC_LANE.EQM_MIN` (spec/05): EQM threshold for SVC_EQM_LOW -/
def SVC_LANE_EQM_MIN : Field :=
  ⟨0o404010000, 0o0, 1, 0o10, 4, 1, 1, 0, 7, 0, .rw, .val 0o100, .w, []⟩
/-- `SVC_QCFG.PRIO` (spec/05): intake priority, 3 highest (R190) -/
def SVC_QCFG_PRIO : Field :=
  ⟨0o404010000, 0o0, 1, 0o20, 8, 1, 1, 0, 8, 7, .rwl, .byIdx [(1, 3), (8, 1)], .w, []⟩
/-- `SVC_QCFG.SHARED` (spec/05): open to every page -/
def SVC_QCFG_SHARED : Field :=
  ⟨0o404010000, 0o0, 1, 0o20, 8, 1, 1, 0, 6, 6, .rwl, .byIdx [(1, 0), (8, 1)], .w, []⟩
/-- `SVC_QCFG.OWNER` (spec/05): page allowed when SHARED = 0 -/
def SVC_QCFG_OWNER : Field :=
  ⟨0o404010000, 0o0, 1, 0o20, 8, 1, 1, 0, 5, 0, .rwl, .val 0o0, .w, []⟩
/-- `SVC_QSTAT.BUSY` (spec/05): busy slots, 0–64 -/
def SVC_QSTAT_BUSY : Field :=
  ⟨0o404010000, 0o0, 1, 0o30, 8, 1, 1, 0, 13, 7, .ro, .val 0o0, .c, []⟩
/-- `SVC_QSTAT.RUN` (spec/05): commands running, 0–32 -/
def SVC_QSTAT_RUN : Field :=
  ⟨0o404010000, 0o0, 1, 0o30, 8, 1, 1, 0, 6, 0, .ro, .val 0o0, .c, []⟩
/-- `LINE_TX_CTL.FREQ` (spec/06): flexgrid index n, two's complement, −256 to +448; other values reserved; takes effect at the next enable -/
def LINE_TX_CTL_FREQ : Field :=
  ⟨0o402000000, 0o100000, 4, 0o0, 1, 0, 1, 0, 35, 26, .rw, .val 0o0, .w, [(0, 448), (768, 1023)]⟩
/-- `LINE_TX_CTL.POWER` (spec/06): output target, two's complement, 0.1 dBm, −120 to +30 (−12.0 to +3.0 dBm); other values reserved; reset −2.0 dBm -/
def LINE_TX_CTL_POWER : Field :=
  ⟨0o402000000, 0o100000, 4, 0o0, 1, 0, 1, 0, 25, 17, .rw, .val 0o754, .w, [(0, 30), (392, 511)]⟩
/-- `LINE_TX_CTL.FALLBACK` (spec/06): RDI fallback (R226) -/
def LINE_TX_CTL_FALLBACK : Field :=
  ⟨0o402000000, 0o100000, 4, 0o0, 1, 0, 1, 0, 2, 2, .rw, .val 0o1, .w, []⟩
/-- `LINE_TX_CTL.REMOTE_EN` (spec/06): accept loading requests (R222) -/
def LINE_TX_CTL_REMOTE_EN : Field :=
  ⟨0o402000000, 0o100000, 4, 0o0, 1, 0, 1, 0, 1, 1, .rw, .val 0o1, .w, []⟩
/-- `LINE_TX_MASK` (spec/06): bit j: subcarrier j may be enabled by a request -/
def LINE_TX_MASK : Field :=
  ⟨0o402000000, 0o100000, 4, 0o1, 1, 0, 1, 0, 31, 0, .rw, .val 0o37777777777, .w, []⟩
/-- `LINE_TX_STAT.RATE` (spec/06): net rate in force, units 100 Gb/s; 0 when not modulating -/
def LINE_TX_STAT_RATE : Field :=
  ⟨0o402000000, 0o100000, 4, 0o2, 1, 0, 1, 0, 35, 30, .ro, .val 0o0, .c, []⟩
/-- `LINE_TX_STAT.INNER` (spec/06): inner rate in force (R227) -/
def LINE_TX_STAT_INNER : Field :=
  ⟨0o402000000, 0o100000, 4, 0o2, 1, 0, 1, 0, 29, 28, .ro, .val 0o0, .c, []⟩
/-- `LINE_TX_STAT.BANK` (spec/06): active bank -/
def LINE_TX_STAT_BANK : Field :=
  ⟨0o402000000, 0o100000, 4, 0o2, 1, 0, 1, 0, 27, 27, .ro, .val 0o0, .c, []⟩
/-- `LINE_TX_STAT.COUNTDOWN` (spec/06): 0–15 pending switch; 31 none; 16–30 never shown -/
def LINE_TX_STAT_COUNTDOWN : Field :=
  ⟨0o402000000, 0o100000, 4, 0o2, 1, 0, 1, 0, 26, 22, .ro, .val 0o37, .c, []⟩
/-- `LINE_TX_STAT.SEQ` (spec/06): SEQ of the last accepted request -/
def LINE_TX_STAT_SEQ : Field :=
  ⟨0o402000000, 0o100000, 4, 0o2, 1, 0, 1, 0, 21, 14, .ro, .val 0o0, .c, []⟩
/-- `LINE_TX_STAT.RAMPING` (spec/06): a ramp runs (R230) -/
def LINE_TX_STAT_RAMPING : Field :=
  ⟨0o402000000, 0o100000, 4, 0o2, 1, 0, 1, 0, 13, 13, .ro, .val 0o0, .c, []⟩
/-- `LINE_TX_STAT.CAL_OK` (spec/06): last calibration within limits -/
def LINE_TX_STAT_CAL_OK : Field :=
  ⟨0o402000000, 0o100000, 4, 0o2, 1, 0, 1, 0, 12, 12, .ro, .val 0o0, .c, []⟩
/-- `LINE_TX_STAT.BRINGUP` (spec/06): bring-up format in force -/
def LINE_TX_STAT_BRINGUP : Field :=
  ⟨0o402000000, 0o100000, 4, 0o2, 1, 0, 1, 0, 11, 11, .ro, .val 0o0, .c, []⟩
/-- `LINE_TX_STAT.STATE` (spec/06): 0 OFF, 1 DARK, 2 CAL, 3 RAMP_UP, 4 LIT, 5 RAMP_DOWN, 6 SHUT; 7 reserved, never shown -/
def LINE_TX_STAT_STATE : Field :=
  ⟨0o402000000, 0o100000, 4, 0o2, 1, 0, 1, 0, 2, 0, .ro, .val 0o1, .c, []⟩
/-- `LINE_TX_PWR.OUT` (spec/06): measured output, two's complement, 0.1 dBm, every 1 ms; −256 means below −25.5 dBm -/
def LINE_TX_PWR_OUT : Field :=
  ⟨0o402000000, 0o100000, 4, 0o3, 1, 0, 1, 0, 35, 27, .ro, .val 0o400, .c, []⟩
/-- `LINE_TX_PWR.ATT` (spec/06): VOA attenuation, 0.1 dB -/
def LINE_TX_PWR_ATT : Field :=
  ⟨0o402000000, 0o100000, 4, 0o3, 1, 0, 1, 0, 26, 18, .ro, .val 0o777, .c, []⟩
/-- `LINE_TX_CLIP.LEVEL` (spec/06): clip level, units RMS/16, 32–63; 0–31 reserved -/
def LINE_TX_CLIP_LEVEL : Field :=
  ⟨0o402000000, 0o100000, 4, 0o4, 1, 0, 1, 0, 5, 0, .rw, .val 0o60, .w, [(32, 63)]⟩
/-- `LINE_TX_TEST.SC` (spec/06): tone subcarrier (R234) -/
def LINE_TX_TEST_SC : Field :=
  ⟨0o402000000, 0o100000, 4, 0o5, 1, 0, 1, 0, 7, 3, .rw, .val 0o0, .c, []⟩
/-- `LINE_TX_TEST.MODE` (spec/06): 0 off, 1 tone, 2 PRBS31 QPSK; 3–7 reserved -/
def LINE_TX_TEST_MODE : Field :=
  ⟨0o402000000, 0o100000, 4, 0o5, 1, 0, 1, 0, 2, 0, .rw, .val 0o0, .c, [(0, 2)]⟩
/-- `LINE_TX_CALV.SKEW_X` (spec/06): IQ skew in force, pol X, two's complement, 0.02 ps -/
def LINE_TX_CALV_SKEW_X : Field :=
  ⟨0o402000000, 0o100000, 4, 0o10, 1, 0, 1, 0, 35, 27, .ro, .val 0o0, .w, []⟩
/-- `LINE_TX_CALV.SKEW_Y` (spec/06): IQ skew, pol Y, same units -/
def LINE_TX_CALV_SKEW_Y : Field :=
  ⟨0o402000000, 0o100000, 4, 0o10, 1, 0, 1, 0, 26, 18, .ro, .val 0o0, .w, []⟩
/-- `LINE_TX_CALV.SKEW_XY` (spec/06): X–Y skew, two's complement, 0.1 ps -/
def LINE_TX_CALV_SKEW_XY : Field :=
  ⟨0o402000000, 0o100000, 4, 0o10, 1, 0, 1, 0, 17, 9, .ro, .val 0o0, .w, []⟩
/-- `LINE_TX_CALV.GAIN_X` (spec/06): IQ gain imbalance, pol X, two's complement, 0.01 dB -/
def LINE_TX_CALV_GAIN_X : Field :=
  ⟨0o402000000, 0o100000, 4, 0o11, 1, 0, 1, 0, 35, 27, .ro, .val 0o0, .w, []⟩
/-- `LINE_TX_CALV.GAIN_Y` (spec/06): same, pol Y -/
def LINE_TX_CALV_GAIN_Y : Field :=
  ⟨0o402000000, 0o100000, 4, 0o11, 1, 0, 1, 0, 26, 18, .ro, .val 0o0, .w, []⟩
/-- `LINE_TX_CALV.PHASE_X` (spec/06): quadrature error, pol X, two's complement, 0.1° -/
def LINE_TX_CALV_PHASE_X : Field :=
  ⟨0o402000000, 0o100000, 4, 0o11, 1, 0, 1, 0, 17, 9, .ro, .val 0o0, .w, []⟩
/-- `LINE_TX_CALV.PHASE_Y` (spec/06): same, pol Y -/
def LINE_TX_CALV_PHASE_Y : Field :=
  ⟨0o402000000, 0o100000, 4, 0o11, 1, 0, 1, 0, 8, 0, .ro, .val 0o0, .w, []⟩
/-- `LINE_TX_CALV.TEMP` (spec/06): die temperature of the values in force, two's complement, 0.5 °C -/
def LINE_TX_CALV_TEMP : Field :=
  ⟨0o402000000, 0o100000, 4, 0o12, 1, 0, 1, 0, 35, 27, .ro, .val 0o0, .w, []⟩
/-- `LINE_TX_BANK.RATE` (spec/06): bank net rate, units 100 Gb/s -/
def LINE_TX_BANK_RATE : Field :=
  ⟨0o402000000, 0o100000, 4, 0o100, 2, 64, 1, 0, 35, 30, .ro, .val 0o0, .c, []⟩
/-- `LINE_TX_BANK.INNER` (spec/06): bank inner rate -/
def LINE_TX_BANK_INNER : Field :=
  ⟨0o402000000, 0o100000, 4, 0o100, 2, 64, 1, 0, 29, 28, .ro, .val 0o0, .c, []⟩
/-- `LINE_TX_BANK.B` (spec/06): subcarrier loading (R215) -/
def LINE_TX_BANK_B : Field :=
  ⟨0o402000000, 0o100000, 4, 0o101, 2, 64, 32, 1, 35, 32, .ro, .val 0o0, .c, []⟩
/-- `LINE_TX_BANK.G` (spec/06): subcarrier gain, two's complement, 0.1 dB (R232) -/
def LINE_TX_BANK_G : Field :=
  ⟨0o402000000, 0o100000, 4, 0o101, 2, 64, 32, 1, 31, 26, .ro, .val 0o0, .c, []⟩
/-- `LINE_TX_PROF.DUR` (spec/06): segment duration, 0.1 ms -/
def LINE_TX_PROF_DUR : Field :=
  ⟨0o402000000, 0o100000, 4, 0o400, 4, 8, 8, 1, 17, 8, .rw, .byIdx [(1, 20), (2, 180), (8, 0), (9, 180), (10, 20), (16, 0), (17, 20), (24, 0), (25, 40), (26, 10), (32, 0)], .w, []⟩
/-- `LINE_TX_PROF.END` (spec/06): segment end, fraction of span × 255 -/
def LINE_TX_PROF_END : Field :=
  ⟨0o402000000, 0o100000, 4, 0o400, 4, 8, 8, 1, 7, 0, .rw, .byIdx [(1, 64), (2, 255), (8, 0), (9, 64), (10, 255), (16, 0), (17, 255), (24, 0), (25, 64), (26, 255), (32, 0)], .w, []⟩
/-- `LINE_LOAD_T0_0` (spec/06): T(4/5, b) for b = 2, 3, 4, 5 in lanes 3–0, 0.1 dB -/
def LINE_LOAD_T0_0 : Field :=
  ⟨0o402000000, 0o100000, 4, 0o500, 1, 0, 1, 0, 35, 0, .rw, .val 0o102152204243, .w, []⟩
/-- `LINE_LOAD_T0_1` (spec/06): T(4/5, b) for b = 6, 7, 8 in lanes 3–1; lane 0 reserved -/
def LINE_LOAD_T0_1 : Field :=
  ⟨0o402000000, 0o100000, 4, 0o501, 1, 0, 1, 0, 35, 0, .rw, .val 0o300337374000, .w, []⟩
/-- `LINE_LOAD_T1_0` (spec/06): 5/6, as above -/
def LINE_LOAD_T1_0 : Field :=
  ⟨0o402000000, 0o100000, 4, 0o502, 1, 0, 1, 0, 35, 0, .rw, .val 0o110160212251, .w, []⟩
/-- `LINE_LOAD_T1_1` (spec/06): 5/6, as above -/
def LINE_LOAD_T1_1 : Field :=
  ⟨0o402000000, 0o100000, 4, 0o503, 1, 0, 1, 0, 35, 0, .rw, .val 0o306345402000, .w, []⟩
/-- `LINE_LOAD_T2_0` (spec/06): 7/8, as above -/
def LINE_LOAD_T2_0 : Field :=
  ⟨0o402000000, 0o100000, 4, 0o504, 1, 0, 1, 0, 35, 0, .rw, .val 0o120170222261, .w, []⟩
/-- `LINE_LOAD_T2_1` (spec/06): 7/8, as above -/
def LINE_LOAD_T2_1 : Field :=
  ⟨0o402000000, 0o100000, 4, 0o505, 1, 0, 1, 0, 35, 0, .rw, .val 0o316355412000, .w, []⟩
/-- `LINE_LOAD_M_0` (spec/06): M_b, laid out as LINE_LOAD_T -/
def LINE_LOAD_M_0 : Field :=
  ⟨0o402000000, 0o100000, 4, 0o506, 1, 0, 1, 0, 35, 0, .rw, .val 0o12012012017, .w, []⟩
/-- `LINE_LOAD_M_1` (spec/06): M_b, laid out as LINE_LOAD_T -/
def LINE_LOAD_M_1 : Field :=
  ⟨0o402000000, 0o100000, 4, 0o507, 1, 0, 1, 0, 35, 0, .rw, .val 0o17024024000, .w, []⟩
/-- `LINE_LOAD_D` (spec/06): D_j for j = 4·i to 4·i + 3 in lanes 3–0, two's complement, 0.1 dB -/
def LINE_LOAD_D : Field :=
  ⟨0o402000000, 0o100000, 4, 0o510, 8, 1, 1, 0, 35, 0, .rw, .val 0o0, .w, []⟩
/-- `LINE_RX_CTL.FREQ` (spec/07): receive flexgrid index when FOLLOW = 0, two's complement, −256 to +448; other values reserved (R239) -/
def LINE_RX_CTL_FREQ : Field :=
  ⟨0o402000000, 0o100000, 4, 0o2000, 1, 0, 1, 0, 35, 26, .rw, .val 0o0, .w, [(0, 448), (768, 1023)]⟩
/-- `LINE_RX_CTL.FOLLOW` (spec/07): LO follows LINE_TX_CTL.FREQ -/
def LINE_RX_CTL_FOLLOW : Field :=
  ⟨0o402000000, 0o100000, 4, 0o2000, 1, 0, 1, 0, 25, 25, .rw, .val 0o1, .w, []⟩
/-- `LINE_RX_CTL.EN` (spec/07): receiver enable (R256) -/
def LINE_RX_CTL_EN : Field :=
  ⟨0o402000000, 0o100000, 4, 0o2000, 1, 0, 1, 0, 24, 24, .rw, .val 0o1, .w, []⟩
/-- `LINE_RX_CTL.QWIN` (spec/07): window 2^QWIN multiframes, 0–10; 11–15 reserved -/
def LINE_RX_CTL_QWIN : Field :=
  ⟨0o402000000, 0o100000, 4, 0o2000, 1, 0, 1, 0, 23, 20, .rw, .val 0o6, .w, [(0, 10)]⟩
/-- `LINE_RX_CTL.SIG_THR` (spec/07): SIG threshold, two's complement, 0.1 dBm, −300 to −100; other values reserved; reset −25.0 dBm -/
def LINE_RX_CTL_SIG_THR : Field :=
  ⟨0o402000000, 0o100000, 4, 0o2000, 1, 0, 1, 0, 19, 10, .rw, .val 0o1406, .w, [(724, 924)]⟩
/-- `LINE_RX_CDWIN.CD_MIN` (spec/07): search start, two's complement, ps/nm, −20,000 to +20,000; other values reserved -/
def LINE_RX_CDWIN_CD_MIN : Field :=
  ⟨0o402000000, 0o100000, 4, 0o2001, 1, 0, 1, 0, 35, 18, .rw, .val 0o730740, .w, [(0, 20000), (242144, 262143)]⟩
/-- `LINE_RX_CDWIN.CD_MAX` (spec/07): search end, same; not below CD_MIN (R249) -/
def LINE_RX_CDWIN_CD_MAX : Field :=
  ⟨0o402000000, 0o100000, 4, 0o2001, 1, 0, 1, 0, 17, 0, .rw, .val 0o47040, .w, [(0, 20000), (242144, 262143)]⟩
/-- `LINE_RX_STAT.STATE` (spec/07): 0 OFF, 1 TUNE, 2 IDLE, 3 CD_SEARCH, 4 ACQ, 5 LOCKED, 6 HOLD; 7 reserved, never shown -/
def LINE_RX_STAT_STATE : Field :=
  ⟨0o402000000, 0o100000, 4, 0o2002, 1, 0, 1, 0, 35, 33, .ro, .val 0o0, .c, []⟩
/-- `LINE_RX_STAT.SIG` (spec/07): signal present (R241) -/
def LINE_RX_STAT_SIG : Field :=
  ⟨0o402000000, 0o100000, 4, 0o2002, 1, 0, 1, 0, 32, 32, .ro, .val 0o0, .c, []⟩
/-- `LINE_RX_STAT.FAULT` (spec/07): LO fault; cleared on leaving OFF -/
def LINE_RX_STAT_FAULT : Field :=
  ⟨0o402000000, 0o100000, 4, 0o2002, 1, 0, 1, 0, 31, 31, .ro, .val 0o0, .c, []⟩
/-- `LINE_RX_STAT.BANK` (spec/07): active receive bank -/
def LINE_RX_STAT_BANK : Field :=
  ⟨0o402000000, 0o100000, 4, 0o2002, 1, 0, 1, 0, 30, 30, .ro, .val 0o0, .c, []⟩
/-- `LINE_RX_STAT.INNER` (spec/07): inner rate of the active bank (R227) -/
def LINE_RX_STAT_INNER : Field :=
  ⟨0o402000000, 0o100000, 4, 0o2002, 1, 0, 1, 0, 29, 28, .ro, .val 0o0, .c, []⟩
/-- `LINE_RX_STAT.RATE` (spec/07): net rate of the active bank, units 100 Gb/s -/
def LINE_RX_STAT_RATE : Field :=
  ⟨0o402000000, 0o100000, 4, 0o2002, 1, 0, 1, 0, 27, 22, .ro, .val 0o0, .c, []⟩
/-- `LINE_RX_STAT.MISMATCH` (spec/07): lit set differs from enabled set (R259) -/
def LINE_RX_STAT_MISMATCH : Field :=
  ⟨0o402000000, 0o100000, 4, 0o2002, 1, 0, 1, 0, 21, 21, .ro, .val 0o0, .c, []⟩
/-- `LINE_RX_PWR.IN` (spec/07): input power, two's complement, 0.1 dBm, every 1 ms; −512 means below −51.1 dBm -/
def LINE_RX_PWR_IN : Field :=
  ⟨0o402000000, 0o100000, 4, 0o2003, 1, 0, 1, 0, 35, 26, .ro, .val 0o1000, .c, []⟩
/-- `LINE_RX_PWR.GAIN` (spec/07): applied front-end gain, 0.25 dB -/
def LINE_RX_PWR_GAIN : Field :=
  ⟨0o402000000, 0o100000, 4, 0o2003, 1, 0, 1, 0, 25, 18, .ro, .val 0o0, .c, []⟩
/-- `LINE_RX_CD.EST` (spec/07): compensation in force, two's complement, ps/nm -/
def LINE_RX_CD_EST : Field :=
  ⟨0o402000000, 0o100000, 4, 0o2004, 1, 0, 1, 0, 35, 18, .ro, .val 0o0, .c, []⟩
/-- `LINE_RX_FOFS.FOFS` (spec/07): carrier offset, two's complement, MHz -/
def LINE_RX_FOFS_FOFS : Field :=
  ⟨0o402000000, 0o100000, 4, 0o2005, 1, 0, 1, 0, 35, 22, .ro, .val 0o0, .c, []⟩
/-- `LINE_RX_FOFS.CLK` (spec/07): symbol clock offset, two's complement, 0.01 ppm -/
def LINE_RX_FOFS_CLK : Field :=
  ⟨0o402000000, 0o100000, 4, 0o2005, 1, 0, 1, 0, 21, 8, .ro, .val 0o0, .c, []⟩
/-- `LINE_RX_PMD.DGD` (spec/07): DGD from the equaliser taps, mean over subcarriers, 0.5 ps -/
def LINE_RX_PMD_DGD : Field :=
  ⟨0o402000000, 0o100000, 4, 0o2006, 1, 0, 1, 0, 35, 27, .ro, .val 0o0, .c, []⟩
/-- `LINE_RX_PMD.PDL` (spec/07): PDL, 0.1 dB -/
def LINE_RX_PMD_PDL : Field :=
  ⟨0o402000000, 0o100000, 4, 0o2006, 1, 0, 1, 0, 26, 18, .ro, .val 0o0, .c, []⟩
/-- `LINE_RX_PMD.SOP` (spec/07): peak polarisation rotation in the last window, 0.1 Mrad/s -/
def LINE_RX_PMD_SOP : Field :=
  ⟨0o402000000, 0o100000, 4, 0o2006, 1, 0, 1, 0, 17, 9, .ro, .val 0o0, .c, []⟩
/-- `LINE_RX_QSTAT.QSEQ` (spec/07): window sequence number; a read latches R262 -/
def LINE_RX_QSTAT_QSEQ : Field :=
  ⟨0o402000000, 0o100000, 4, 0o2007, 1, 0, 1, 0, 35, 18, .ro, .val 0o0, .c, []⟩
/-- `LINE_RX_QSTAT.VALID` (spec/07): window valid (R260) -/
def LINE_RX_QSTAT_VALID : Field :=
  ⟨0o402000000, 0o100000, 4, 0o2007, 1, 0, 1, 0, 17, 17, .ro, .val 0o0, .c, []⟩
/-- `LINE_RX_QSTAT.SWITCHED` (spec/07): window held a switch boundary -/
def LINE_RX_QSTAT_SWITCHED : Field :=
  ⟨0o402000000, 0o100000, 4, 0o2007, 1, 0, 1, 0, 16, 16, .ro, .val 0o0, .c, []⟩
/-- `LINE_RX_QEND_A` (spec/07): LP of the window end, word A -/
def LINE_RX_QEND_A : Field :=
  ⟨0o402000000, 0o100000, 4, 0o2010, 1, 0, 1, 0, 35, 0, .ro, .val 0o0, .c, []⟩
/-- `LINE_RX_QEND_B` (spec/07): LP of the window end, word B (R8) -/
def LINE_RX_QEND_B : Field :=
  ⟨0o402000000, 0o100000, 4, 0o2011, 1, 0, 1, 0, 35, 0, .ro, .val 0o0, .c, []⟩
/-- `LINE_TEL_CTL.OFS_LIM` (spec/07): offset and RMS-difference limit, 1/16 ADC step, 1–511; 0 reserved -/
def LINE_TEL_CTL_OFS_LIM : Field :=
  ⟨0o402000000, 0o100000, 4, 0o2012, 1, 0, 1, 0, 35, 27, .rwl, .val 0o40, .w, [(1, 511)]⟩
/-- `LINE_TEL_CTL.GAIN_LIM` (spec/07): gain limit, 0.01 dB, 1–511; 0 reserved -/
def LINE_TEL_CTL_GAIN_LIM : Field :=
  ⟨0o402000000, 0o100000, 4, 0o2012, 1, 0, 1, 0, 26, 18, .rwl, .val 0o24, .w, [(1, 511)]⟩
/-- `LINE_TEL_CTL.SKEW_LIM` (spec/07): timing change limit, 10 fs, 1–511; 0 reserved -/
def LINE_TEL_CTL_SKEW_LIM : Field :=
  ⟨0o402000000, 0o100000, 4, 0o2012, 1, 0, 1, 0, 17, 9, .rwl, .val 0o144, .w, [(1, 511)]⟩
/-- `LINE_TEL_CTL.EN` (spec/07): Telemark enable (R243) -/
def LINE_TEL_CTL_EN : Field :=
  ⟨0o402000000, 0o100000, 4, 0o2012, 1, 0, 1, 0, 0, 0, .rwl, .val 0o1, .w, []⟩
/-- `LINE_TEL_STAT.POS` (spec/07): position of the current cycle -/
def LINE_TEL_STAT_POS : Field :=
  ⟨0o402000000, 0o100000, 4, 0o2013, 1, 0, 1, 0, 35, 30, .ro, .val 0o0, .c, []⟩
/-- `LINE_TEL_ADC.SPARE` (spec/07): physical slice that is spare, 0–64; 127 none -/
def LINE_TEL_ADC_SPARE : Field :=
  ⟨0o402000000, 0o100000, 4, 0o2014, 4, 1, 1, 0, 35, 29, .ro, .val 0o100, .c, []⟩
/-- `LINE_TEL_ADC.BAD` (spec/07): slice marked bad (R244, R246); 127 none -/
def LINE_TEL_ADC_BAD : Field :=
  ⟨0o402000000, 0o100000, 4, 0o2014, 4, 1, 1, 0, 28, 22, .ro, .val 0o177, .w, []⟩
/-- `LINE_TEL_ADC.REJ` (spec/07): consecutive rejects of the spare, 0–3 -/
def LINE_TEL_ADC_REJ : Field :=
  ⟨0o402000000, 0o100000, 4, 0o2014, 4, 1, 1, 0, 21, 20, .ro, .val 0o0, .c, []⟩
/-- `LINE_RX_TEST.MODE` (spec/07): 0 off, 2 PRBS31 QPSK check (R264); 1 and 3–7 reserved -/
def LINE_RX_TEST_MODE : Field :=
  ⟨0o402000000, 0o100000, 4, 0o2020, 1, 0, 1, 0, 2, 0, .rw, .val 0o0, .c, [(0, 0), (2, 2)]⟩
/-- `LINE_RX_CALV.SKEW_X` (spec/07): receive IQ skew in force, pol X, two's complement, 0.02 ps -/
def LINE_RX_CALV_SKEW_X : Field :=
  ⟨0o402000000, 0o100000, 4, 0o2021, 1, 0, 1, 0, 35, 27, .ro, .val 0o0, .w, []⟩
/-- `LINE_RX_CALV.SKEW_Y` (spec/07): same, pol Y -/
def LINE_RX_CALV_SKEW_Y : Field :=
  ⟨0o402000000, 0o100000, 4, 0o2021, 1, 0, 1, 0, 26, 18, .ro, .val 0o0, .w, []⟩
/-- `LINE_RX_CALV.SKEW_XY` (spec/07): X–Y skew, two's complement, 0.1 ps -/
def LINE_RX_CALV_SKEW_XY : Field :=
  ⟨0o402000000, 0o100000, 4, 0o2021, 1, 0, 1, 0, 17, 9, .ro, .val 0o0, .w, []⟩
/-- `LINE_RX_SC.SNR` (spec/07): SNR_j, 0.1 dB, 0–511 (R261) -/
def LINE_RX_SC_SNR : Field :=
  ⟨0o402000000, 0o100000, 4, 0o2100, 32, 1, 1, 0, 35, 27, .ro, .val 0o0, .c, []⟩
/-- `LINE_RX_SC.SNR_X` (spec/07): SNR of pol X, 0.1 dB -/
def LINE_RX_SC_SNR_X : Field :=
  ⟨0o402000000, 0o100000, 4, 0o2100, 32, 1, 1, 0, 26, 18, .ro, .val 0o0, .c, []⟩
/-- `LINE_RX_SC.SNR_Y` (spec/07): SNR of pol Y, 0.1 dB -/
def LINE_RX_SC_SNR_Y : Field :=
  ⟨0o402000000, 0o100000, 4, 0o2100, 32, 1, 1, 0, 17, 9, .ro, .val 0o0, .c, []⟩
/-- `LINE_RX_SC.EVM` (spec/07): EVM, 0.1 % -/
def LINE_RX_SC_EVM : Field :=
  ⟨0o402000000, 0o100000, 4, 0o2100, 32, 1, 1, 0, 8, 0, .ro, .val 0o0, .c, []⟩
/-- `LINE_RX_SCS.STATE` (spec/07): 0 OFF, 1 CONVERGE, 2 TRACK, 3 LOST; 4–7 reserved, never shown (R252) -/
def LINE_RX_SCS_STATE : Field :=
  ⟨0o402000000, 0o100000, 4, 0o2140, 32, 1, 1, 0, 35, 33, .ro, .val 0o0, .c, []⟩
/-- `LINE_RX_SCS.ON` (spec/07): power found on the subcarrier (R259) -/
def LINE_RX_SCS_ON : Field :=
  ⟨0o402000000, 0o100000, 4, 0o2140, 32, 1, 1, 0, 32, 32, .ro, .val 0o0, .c, []⟩
/-- `LINE_RX_SCS.VALID` (spec/07): figures valid for this window -/
def LINE_RX_SCS_VALID : Field :=
  ⟨0o402000000, 0o100000, 4, 0o2140, 32, 1, 1, 0, 31, 31, .ro, .val 0o0, .c, []⟩
/-- `LINE_RX_SCS.SLIPS` (spec/07): slips in the window, saturating at 255 -/
def LINE_RX_SCS_SLIPS : Field :=
  ⟨0o402000000, 0o100000, 4, 0o2140, 32, 1, 1, 0, 30, 23, .ro, .val 0o0, .c, []⟩
/-- `LINE_RX_BANK.RATE` (spec/07): bank net rate, units 100 Gb/s -/
def LINE_RX_BANK_RATE : Field :=
  ⟨0o402000000, 0o100000, 4, 0o2200, 2, 64, 1, 0, 35, 30, .ro, .val 0o0, .c, []⟩
/-- `LINE_RX_BANK.INNER` (spec/07): bank inner rate -/
def LINE_RX_BANK_INNER : Field :=
  ⟨0o402000000, 0o100000, 4, 0o2200, 2, 64, 1, 0, 29, 28, .ro, .val 0o0, .c, []⟩
/-- `LINE_RX_BANK.B` (spec/07): subcarrier loading (R215) -/
def LINE_RX_BANK_B : Field :=
  ⟨0o402000000, 0o100000, 4, 0o2201, 2, 64, 32, 1, 35, 32, .ro, .val 0o0, .c, []⟩
/-- `LINE_RX_BANK.G` (spec/07): subcarrier gain requested, two's complement, 0.1 dB -/
def LINE_RX_BANK_G : Field :=
  ⟨0o402000000, 0o100000, 4, 0o2201, 2, 64, 32, 1, 31, 26, .ro, .val 0o0, .c, []⟩
/-- `LINE_FR_CTL.MF_EN` (spec/08): multiframe alignment (R289) -/
def LINE_FR_CTL_MF_EN : Field :=
  ⟨0o402000000, 0o100000, 4, 0o4000, 1, 0, 1, 0, 35, 35, .rw, .val 0o1, .w, []⟩
/-- `LINE_FR_CTL.ENC` (spec/08): encrypt PAYLOAD slots (R284) -/
def LINE_FR_CTL_ENC : Field :=
  ⟨0o402000000, 0o100000, 4, 0o4000, 1, 0, 1, 0, 34, 34, .rwl, .val 0o0, .w, []⟩
/-- `LINE_FR_CTL.DEC_REQ` (spec/08): discard clear PAYLOAD slots (R285) -/
def LINE_FR_CTL_DEC_REQ : Field :=
  ⟨0o402000000, 0o100000, 4, 0o4000, 1, 0, 1, 0, 33, 33, .rwl, .val 0o0, .w, []⟩
/-- `LINE_FR_CTL.TIM_EN` (spec/08): trace comparison (R290) -/
def LINE_FR_CTL_TIM_EN : Field :=
  ⟨0o402000000, 0o100000, 4, 0o4000, 1, 0, 1, 0, 32, 32, .rw, .val 0o0, .w, []⟩
/-- `LINE_FR_CTL.TIM_ACT` (spec/08): TIM impairs the receive side (R293) -/
def LINE_FR_CTL_TIM_ACT : Field :=
  ⟨0o402000000, 0o100000, 4, 0o4000, 1, 0, 1, 0, 31, 31, .rw, .val 0o0, .w, []⟩
/-- `LINE_FR_CTL.FAW_TOL` (spec/08): FAW bit errors tolerated, 0–7 (R286) -/
def LINE_FR_CTL_FAW_TOL : Field :=
  ⟨0o402000000, 0o100000, 4, 0o4000, 1, 0, 1, 0, 30, 28, .rw, .val 0o3, .w, []⟩
/-- `LINE_FR_CTL.PT` (spec/08): pass-through (R304) -/
def LINE_FR_CTL_PT : Field :=
  ⟨0o402000000, 0o100000, 4, 0o4000, 1, 0, 1, 0, 27, 27, .rwl, .val 0o0, .w, []⟩
/-- `LINE_FR_CTL.PT_SRC` (spec/08): source line; the own index is reserved -/
def LINE_FR_CTL_PT_SRC : Field :=
  ⟨0o402000000, 0o100000, 4, 0o4000, 1, 0, 1, 0, 26, 25, .rwl, .val 0o0, .w, []⟩
/-- `LINE_FR_CTL.FORCE_AIS` (spec/08): send AIS; MAINTENANCE only (R294) -/
def LINE_FR_CTL_FORCE_AIS : Field :=
  ⟨0o402000000, 0o100000, 4, 0o4000, 1, 0, 1, 0, 24, 24, .rw, .val 0o0, .c, []⟩
/-- `LINE_FR_CTL.FORCE_RDI` (spec/08): send RDI; MAINTENANCE only -/
def LINE_FR_CTL_FORCE_RDI : Field :=
  ⟨0o402000000, 0o100000, 4, 0o4000, 1, 0, 1, 0, 23, 23, .rw, .val 0o0, .c, []⟩
/-- `LINE_FR_STAT.FSTATE` (spec/08): 0 OFF, 1 HUNT, 2 PRESYNC, 3 IF (R287) -/
def LINE_FR_STAT_FSTATE : Field :=
  ⟨0o402000000, 0o100000, 4, 0o4001, 1, 0, 1, 0, 35, 34, .ro, .val 0o0, .c, []⟩
/-- `LINE_FR_STAT.IM` (spec/08): in multiframe -/
def LINE_FR_STAT_IM : Field :=
  ⟨0o402000000, 0o100000, 4, 0o4001, 1, 0, 1, 0, 33, 33, .ro, .val 0o0, .c, []⟩
/-- `LINE_FR_STAT.CAND` (spec/08): candidates held, 0–4; 5–7 never shown -/
def LINE_FR_STAT_CAND : Field :=
  ⟨0o402000000, 0o100000, 4, 0o4001, 1, 0, 1, 0, 32, 30, .ro, .val 0o0, .c, []⟩
/-- `LINE_FR_STAT.LOS` (spec/08): defect holds (R290) -/
def LINE_FR_STAT_LOS : Field :=
  ⟨0o402000000, 0o100000, 4, 0o4001, 1, 0, 1, 0, 29, 29, .ro, .val 0o0, .c, []⟩
/-- `LINE_FR_STAT.LOF` (spec/08): defect holds -/
def LINE_FR_STAT_LOF : Field :=
  ⟨0o402000000, 0o100000, 4, 0o4001, 1, 0, 1, 0, 28, 28, .ro, .val 0o0, .c, []⟩
/-- `LINE_FR_STAT.LOM` (spec/08): defect holds -/
def LINE_FR_STAT_LOM : Field :=
  ⟨0o402000000, 0o100000, 4, 0o4001, 1, 0, 1, 0, 27, 27, .ro, .val 0o0, .c, []⟩
/-- `LINE_FR_STAT.AIS` (spec/08): defect holds -/
def LINE_FR_STAT_AIS : Field :=
  ⟨0o402000000, 0o100000, 4, 0o4001, 1, 0, 1, 0, 26, 26, .ro, .val 0o0, .c, []⟩
/-- `LINE_FR_STAT.RDI` (spec/08): defect holds -/
def LINE_FR_STAT_RDI : Field :=
  ⟨0o402000000, 0o100000, 4, 0o4001, 1, 0, 1, 0, 25, 25, .ro, .val 0o0, .c, []⟩
/-- `LINE_FR_STAT.TIM` (spec/08): defect holds -/
def LINE_FR_STAT_TIM : Field :=
  ⟨0o402000000, 0o100000, 4, 0o4001, 1, 0, 1, 0, 24, 24, .ro, .val 0o0, .c, []⟩
/-- `LINE_FR_STAT.IMPAIRED` (spec/08): receive side impaired (R293) -/
def LINE_FR_STAT_IMPAIRED : Field :=
  ⟨0o402000000, 0o100000, 4, 0o4001, 1, 0, 1, 0, 23, 23, .ro, .val 0o0, .c, []⟩
/-- `LINE_FR_STAT.PSTATE` (spec/08): PSTATE of the last slot received -/
def LINE_FR_STAT_PSTATE : Field :=
  ⟨0o402000000, 0o100000, 4, 0o4001, 1, 0, 1, 0, 22, 21, .ro, .val 0o0, .c, []⟩
/-- `LINE_FR_STAT.ENC` (spec/08): ENC of the last slot received -/
def LINE_FR_STAT_ENC : Field :=
  ⟨0o402000000, 0o100000, 4, 0o4001, 1, 0, 1, 0, 20, 20, .ro, .val 0o0, .c, []⟩
/-- `LINE_FR_STAT.MFC` (spec/08): MFC of the last slot received -/
def LINE_FR_STAT_MFC : Field :=
  ⟨0o402000000, 0o100000, 4, 0o4001, 1, 0, 1, 0, 19, 12, .ro, .val 0o0, .c, []⟩
/-- `LINE_FR_DEF` (spec/08): bit 5 LOS to bit 0 TIM; set on each declaration -/
def LINE_FR_DEF : Field :=
  ⟨0o402000000, 0o100000, 4, 0o4002, 1, 0, 1, 0, 5, 0, .w1c, .val 0o0, .c, []⟩
/-- `LINE_FR_BLK.LOCK` (spec/08): outer block lock -/
def LINE_FR_BLK_LOCK : Field :=
  ⟨0o402000000, 0o100000, 4, 0o4003, 1, 0, 1, 0, 35, 35, .ro, .val 0o0, .c, []⟩
/-- `LINE_FR_BLK.BPTR` (spec/08): BPTR of the last slot that agreed with the lock -/
def LINE_FR_BLK_BPTR : Field :=
  ⟨0o402000000, 0o100000, 4, 0o4003, 1, 0, 1, 0, 34, 17, .ro, .val 0o0, .c, []⟩
/-- `LINE_OH_CTL.ROUTE1` (spec/08): route of MDC1 (R299) -/
def LINE_OH_CTL_ROUTE1 : Field :=
  ⟨0o402000000, 0o100000, 4, 0o4004, 1, 0, 1, 0, 3, 2, .rw, .val 0o0, .w, []⟩
/-- `LINE_OH_CTL.ROUTE0` (spec/08): route of MDC0 -/
def LINE_OH_CTL_ROUTE0 : Field :=
  ⟨0o402000000, 0o100000, 4, 0o4004, 1, 0, 1, 0, 1, 0, .rw, .val 0o0, .w, []⟩
/-- `LINE_OH_STAT.RX1` (spec/08): unread blocks, MDC1 receive path, 0–2 -/
def LINE_OH_STAT_RX1 : Field :=
  ⟨0o402000000, 0o100000, 4, 0o4005, 1, 0, 1, 0, 7, 6, .ro, .val 0o0, .c, []⟩
/-- `LINE_OH_STAT.TX1` (spec/08): unread blocks, MDC1 transmit path -/
def LINE_OH_STAT_TX1 : Field :=
  ⟨0o402000000, 0o100000, 4, 0o4005, 1, 0, 1, 0, 5, 4, .ro, .val 0o0, .c, []⟩
/-- `LINE_OH_STAT.RX0` (spec/08): same, MDC0 receive -/
def LINE_OH_STAT_RX0 : Field :=
  ⟨0o402000000, 0o100000, 4, 0o4005, 1, 0, 1, 0, 3, 2, .ro, .val 0o0, .c, []⟩
/-- `LINE_OH_STAT.TX0` (spec/08): same, MDC0 transmit -/
def LINE_OH_STAT_TX0 : Field :=
  ⟨0o402000000, 0o100000, 4, 0o4005, 1, 0, 1, 0, 1, 0, .ro, .val 0o0, .c, []⟩
/-- `LINE_TTI_TX` (spec/08): transmit trace octets 4·i to 4·i + 3, lanes 3–0, lane bit 8 zero -/
def LINE_TTI_TX : Field :=
  ⟨0o402000000, 0o100000, 4, 0o4010, 16, 1, 1, 0, 35, 0, .rw, .val 0o0, .w, []⟩
/-- `LINE_TTI_EXP` (spec/08): expected trace, same layout -/
def LINE_TTI_EXP : Field :=
  ⟨0o402000000, 0o100000, 4, 0o4030, 16, 1, 1, 0, 35, 0, .rw, .val 0o0, .w, []⟩
/-- `LINE_TTI_ACC` (spec/08): accepted trace, same layout -/
def LINE_TTI_ACC : Field :=
  ⟨0o402000000, 0o100000, 4, 0o4050, 16, 1, 1, 0, 35, 0, .ro, .val 0o0, .c, []⟩
/-- `LINE_TTI_STAT.ACC_VALID` (spec/08): an accepted trace is held (R302) -/
def LINE_TTI_STAT_ACC_VALID : Field :=
  ⟨0o402000000, 0o100000, 4, 0o4070, 1, 0, 1, 0, 0, 0, .ro, .val 0o0, .c, []⟩
/-- `LINE_FEC_BER.PRE_M` (spec/08): pre-FEC BER mantissa, 100–999 as 1.00–9.99; 0 for no errors -/
def LINE_FEC_BER_PRE_M : Field :=
  ⟨0o402000000, 0o100000, 4, 0o4071, 1, 0, 1, 0, 35, 26, .ro, .val 0o0, .c, []⟩
/-- `LINE_FEC_BER.PRE_E` (spec/08): BER = mantissa × 10^−E -/
def LINE_FEC_BER_PRE_E : Field :=
  ⟨0o402000000, 0o100000, 4, 0o4071, 1, 0, 1, 0, 25, 22, .ro, .val 0o0, .c, []⟩
/-- `LINE_FEC_BER.MID_M` (spec/08): middle BER mantissa, same coding -/
def LINE_FEC_BER_MID_M : Field :=
  ⟨0o402000000, 0o100000, 4, 0o4071, 1, 0, 1, 0, 21, 12, .ro, .val 0o0, .c, []⟩
/-- `LINE_FEC_BER.MID_E` (spec/08): middle BER exponent -/
def LINE_FEC_BER_MID_E : Field :=
  ⟨0o402000000, 0o100000, 4, 0o4071, 1, 0, 1, 0, 11, 8, .ro, .val 0o0, .c, []⟩
/-- `LINE_ENC_RXCTR_A` (spec/08): last accepted SEC_CTR of the key of the last verified slot, bits 63–32 -/
def LINE_ENC_RXCTR_A : Field :=
  ⟨0o402000000, 0o100000, 4, 0o4072, 1, 0, 1, 0, 31, 0, .ro, .val 0o0, .c, []⟩
/-- `LINE_ENC_RXCTR_B` (spec/08): bits 31–0 -/
def LINE_ENC_RXCTR_B : Field :=
  ⟨0o402000000, 0o100000, 4, 0o4073, 1, 0, 1, 0, 31, 0, .ro, .val 0o0, .c, []⟩
/-- `CH_DS_CTL.POWER` (spec/09): launch power, two's complement, 0.1 dBm, 20–90; other values reserved; reset +7.0 dBm -/
def CH_DS_CTL_POWER : Field :=
  ⟨0o400000000, 0o1000, 512, 0o0, 1, 0, 1, 0, 35, 26, .rw, .val 0o106, .w, [(20, 90)]⟩
/-- `CH_DS_CTL.RAMP` (spec/09): ramp duration, 10 µs, 0–1,023 (R316) -/
def CH_DS_CTL_RAMP : Field :=
  ⟨0o400000000, 0o1000, 512, 0o0, 1, 0, 1, 0, 25, 16, .rw, .val 0o144, .w, []⟩
/-- `CH_DS_STAT.STATE` (spec/09): 0 OFF, 1 DARK, 2 WARM, 3 RAMP_UP, 4 LIT, 5 RAMP_DOWN; 6–7 reserved, never shown -/
def CH_DS_STAT_STATE : Field :=
  ⟨0o400000000, 0o1000, 512, 0o1, 1, 0, 1, 0, 35, 33, .ro, .val 0o1, .c, []⟩
/-- `CH_DS_STAT.RAMPING` (spec/09): a ramp runs -/
def CH_DS_STAT_RAMPING : Field :=
  ⟨0o400000000, 0o1000, 512, 0o1, 1, 0, 1, 0, 32, 32, .ro, .val 0o0, .c, []⟩
/-- `CH_DS_STAT.PEND` (spec/09): an enable waits for its start LP -/
def CH_DS_STAT_PEND : Field :=
  ⟨0o400000000, 0o1000, 512, 0o1, 1, 0, 1, 0, 31, 31, .ro, .val 0o0, .c, []⟩
/-- `CH_DS_STAT.OUT` (spec/09): measured launch power, two's complement, 0.1 dBm; −512 when dark -/
def CH_DS_STAT_OUT : Field :=
  ⟨0o400000000, 0o1000, 512, 0o1, 1, 0, 1, 0, 30, 21, .ro, .val 0o1000, .c, []⟩
/-- `CH_BRX_CTL.ETHR` (spec/09): energy threshold, two's complement, 0.1 dBm, −450 to −200; other values reserved; reset −36.0 dBm -/
def CH_BRX_CTL_ETHR : Field :=
  ⟨0o400000000, 0o1000, 512, 0o2, 1, 0, 1, 0, 35, 26, .rw, .val 0o1230, .w, [(574, 824)]⟩
/-- `CH_BRX_CTL.STEP_DB` (spec/09): step, 0.5 dB, 1–31; 0 reserved -/
def CH_BRX_CTL_STEP_DB : Field :=
  ⟨0o400000000, 0o1000, 512, 0o2, 1, 0, 1, 0, 25, 21, .rw, .val 0o6, .w, [(1, 31)]⟩
/-- `CH_BRX_CTL.COLL_DB` (spec/09): collision step, 0.5 dB, 1–31; 0 reserved -/
def CH_BRX_CTL_COLL_DB : Field :=
  ⟨0o400000000, 0o1000, 512, 0o2, 1, 0, 1, 0, 20, 16, .rw, .val 0o10, .w, [(1, 31)]⟩
/-- `CH_BRX_CTL.OVL_DB` (spec/09): overlap step, 0.5 dB, 1–31; 0 reserved -/
def CH_BRX_CTL_OVL_DB : Field :=
  ⟨0o400000000, 0o1000, 512, 0o2, 1, 0, 1, 0, 15, 11, .rw, .val 0o2, .w, [(1, 31)]⟩
/-- `CH_BRX_CTL.DLM_THR` (spec/09): chips that must agree, 16–32; other values reserved -/
def CH_BRX_CTL_DLM_THR : Field :=
  ⟨0o400000000, 0o1000, 512, 0o2, 1, 0, 1, 0, 10, 5, .rw, .val 0o34, .w, [(16, 32)]⟩
/-- `CH_BRX_STAT.STATE` (spec/09): 0 IDLE, 1 ARMED, 2 QUALIFY, 3 HEADER, 4 PAYLOAD, 5 ENDMARK; 6–7 reserved, never shown -/
def CH_BRX_STAT_STATE : Field :=
  ⟨0o400000000, 0o1000, 512, 0o3, 1, 0, 1, 0, 35, 33, .ro, .val 0o0, .c, []⟩
/-- `CH_BRX_STAT.NFLOOR` (spec/09): noise estimate, two's complement, 0.1 dBm (R327) -/
def CH_BRX_STAT_NFLOOR : Field :=
  ⟨0o400000000, 0o1000, 512, 0o3, 1, 0, 1, 0, 32, 23, .ro, .val 0o1000, .c, []⟩
/-- `CH_QCTL.QWIN` (spec/09): window 2^QWIN access frames, 0–13; 14–15 reserved -/
def CH_QCTL_QWIN : Field :=
  ⟨0o400000000, 0o1000, 512, 0o4, 1, 0, 1, 0, 35, 32, .rw, .val 0o3, .w, [(0, 13)]⟩
/-- `CH_QSTAT.QSEQ` (spec/09): window sequence; a read latches R348 -/
def CH_QSTAT_QSEQ : Field :=
  ⟨0o400000000, 0o1000, 512, 0o5, 1, 0, 1, 0, 35, 18, .ro, .val 0o0, .c, []⟩
/-- `CH_QSTAT.VALID` (spec/09): window valid (R344) -/
def CH_QSTAT_VALID : Field :=
  ⟨0o400000000, 0o1000, 512, 0o5, 1, 0, 1, 0, 17, 17, .ro, .val 0o0, .c, []⟩
/-- `CH_QSTAT.EYE_V` (spec/09): EYE measured (R347) -/
def CH_QSTAT_EYE_V : Field :=
  ⟨0o400000000, 0o1000, 512, 0o5, 1, 0, 1, 0, 16, 16, .ro, .val 0o0, .c, []⟩
/-- `CH_Q1.NOISE` (spec/09): two's complement, 0.1 dBm (R345) -/
def CH_Q1_NOISE : Field :=
  ⟨0o400000000, 0o1000, 512, 0o6, 1, 0, 1, 0, 35, 26, .ro, .val 0o1000, .c, []⟩
/-- `CH_Q1.REFL` (spec/09): two's complement, 0.1 dBm -/
def CH_Q1_REFL : Field :=
  ⟨0o400000000, 0o1000, 512, 0o6, 1, 0, 1, 0, 25, 16, .ro, .val 0o1000, .c, []⟩
/-- `CH_Q2.EYE` (spec/09): 1/64 UI, 0–63 -/
def CH_Q2_EYE : Field :=
  ⟨0o400000000, 0o1000, 512, 0o7, 1, 0, 1, 0, 35, 30, .ro, .val 0o0, .c, []⟩
/-- `CH_Q2.LSR` (spec/09): least upstream LSR, 0.001 -/
def CH_Q2_LSR : Field :=
  ⟨0o400000000, 0o1000, 512, 0o7, 1, 0, 1, 0, 29, 20, .ro, .val 0o0, .c, []⟩
/-- `CH_Q2.WORST` (spec/09): terminal number n of that burst -/
def CH_Q2_WORST : Field :=
  ⟨0o400000000, 0o1000, 512, 0o7, 1, 0, 1, 0, 19, 12, .ro, .val 0o0, .c, []⟩
/-- `CH_Q2.TX_LSR` (spec/09): downstream LSR, 0.001 -/
def CH_Q2_TX_LSR : Field :=
  ⟨0o400000000, 0o1000, 512, 0o7, 1, 0, 1, 0, 11, 2, .ro, .val 0o0, .c, []⟩
/-- `CH_QEND_A` (spec/09): LP of the window end, word A -/
def CH_QEND_A : Field :=
  ⟨0o400000000, 0o1000, 512, 0o10, 1, 0, 1, 0, 35, 0, .ro, .val 0o0, .c, []⟩
/-- `CH_QEND_B` (spec/09): LP of the window end, word B (R8) -/
def CH_QEND_B : Field :=
  ⟨0o400000000, 0o1000, 512, 0o11, 1, 0, 1, 0, 35, 0, .ro, .val 0o0, .c, []⟩
/-- `CH_CANC_CTL.EN` (spec/09): canceller enable (R334) -/
def CH_CANC_CTL_EN : Field :=
  ⟨0o400000000, 0o1000, 512, 0o20, 1, 0, 1, 0, 35, 35, .rw, .val 0o1, .w, []⟩
/-- `CH_CANC_CTL.MU` (spec/09): step size 2^−(MU+8) -/
def CH_CANC_CTL_MU : Field :=
  ⟨0o400000000, 0o1000, 512, 0o20, 1, 0, 1, 0, 34, 31, .rw, .val 0o6, .w, []⟩
/-- `CH_CANC_CTL.LOAD` (spec/09): 1: start the shadow set as written (R336) -/
def CH_CANC_CTL_LOAD : Field :=
  ⟨0o400000000, 0o1000, 512, 0o20, 1, 0, 1, 0, 30, 30, .wo, .val 0o0, .c, []⟩
/-- `CH_CANC_CTL.DROP` (spec/09): 1: discard the shadow -/
def CH_CANC_CTL_DROP : Field :=
  ⟨0o400000000, 0o1000, 512, 0o20, 1, 0, 1, 0, 29, 29, .wo, .val 0o0, .c, []⟩
/-- `CH_CANC_STAT.SHADOW` (spec/09): a shadow set adapts -/
def CH_CANC_STAT_SHADOW : Field :=
  ⟨0o400000000, 0o1000, 512, 0o21, 1, 0, 1, 0, 35, 35, .ro, .val 0o0, .c, []⟩
/-- `CH_CANC_STAT.NTAP` (spec/09): enabled active taps, 0–16 -/
def CH_CANC_STAT_NTAP : Field :=
  ⟨0o400000000, 0o1000, 512, 0o21, 1, 0, 1, 0, 34, 30, .ro, .val 0o0, .c, []⟩
/-- `CH_CANC_STAT.DEPTH` (spec/09): REFL − NOISE, 0.1 dB -/
def CH_CANC_STAT_DEPTH : Field :=
  ⟨0o400000000, 0o1000, 512, 0o21, 1, 0, 1, 0, 29, 20, .ro, .val 0o0, .c, []⟩
/-- `CH_CANC_ISO.OWN` (spec/09): isolation from the own source, 0.1 dB -/
def CH_CANC_ISO_OWN : Field :=
  ⟨0o400000000, 0o1000, 512, 0o22, 1, 0, 1, 0, 35, 26, .ro, .fused, .w, []⟩
/-- `CH_CANC_ISO.NEXT` (spec/09): isolation from the next source, 0.1 dB -/
def CH_CANC_ISO_NEXT : Field :=
  ⟨0o400000000, 0o1000, 512, 0o22, 1, 0, 1, 0, 25, 16, .ro, .fused, .w, []⟩
/-- `CH_CANC_ISO.LOOP_D` (spec/09): internal loop delay, symbols -/
def CH_CANC_ISO_LOOP_D : Field :=
  ⟨0o400000000, 0o1000, 512, 0o22, 1, 0, 1, 0, 15, 0, .ro, .fused, .w, []⟩
/-- `CH_TAP.EN` (spec/09): tap enabled -/
def CH_TAP_EN : Field :=
  ⟨0o400000000, 0o1000, 512, 0o100, 16, 4, 1, 0, 35, 35, .ro, .val 0o0, .c, []⟩
/-- `CH_STAP.EN` (spec/09): tap enabled -/
def CH_STAP_EN : Field :=
  ⟨0o400000000, 0o1000, 512, 0o200, 16, 4, 1, 0, 35, 35, .rw, .val 0o0, .c, []⟩
/-- `CH_TAP.SRC` (spec/09): 0 own, 1 next -/
def CH_TAP_SRC : Field :=
  ⟨0o400000000, 0o1000, 512, 0o100, 16, 4, 1, 0, 34, 34, .ro, .val 0o0, .c, []⟩
/-- `CH_STAP.SRC` (spec/09): 0 own, 1 next -/
def CH_STAP_SRC : Field :=
  ⟨0o400000000, 0o1000, 512, 0o200, 16, 4, 1, 0, 34, 34, .rw, .val 0o0, .c, []⟩
/-- `CH_TAP.POS` (spec/09): position, symbols (R338) -/
def CH_TAP_POS : Field :=
  ⟨0o400000000, 0o1000, 512, 0o100, 16, 4, 1, 0, 33, 16, .ro, .val 0o0, .c, []⟩
/-- `CH_STAP.POS` (spec/09): position, symbols (R338) -/
def CH_STAP_POS : Field :=
  ⟨0o400000000, 0o1000, 512, 0o200, 16, 4, 1, 0, 33, 16, .rw, .val 0o0, .c, [(2, 262141)]⟩
/-- `CH_TAP.H_M2` (spec/09): h₋₂, two's complement, 2⁻¹⁴ of full scale per level -/
def CH_TAP_H_M2 : Field :=
  ⟨0o400000000, 0o1000, 512, 0o101, 16, 4, 1, 0, 35, 24, .ro, .val 0o0, .c, []⟩
/-- `CH_STAP.H_M2` (spec/09): h₋₂, two's complement, 2⁻¹⁴ of full scale per level -/
def CH_STAP_H_M2 : Field :=
  ⟨0o400000000, 0o1000, 512, 0o201, 16, 4, 1, 0, 35, 24, .ro, .val 0o0, .c, []⟩
/-- `CH_TAP.H_M1` (spec/09): h₋₁ -/
def CH_TAP_H_M1 : Field :=
  ⟨0o400000000, 0o1000, 512, 0o101, 16, 4, 1, 0, 23, 12, .ro, .val 0o0, .c, []⟩
/-- `CH_STAP.H_M1` (spec/09): h₋₁ -/
def CH_STAP_H_M1 : Field :=
  ⟨0o400000000, 0o1000, 512, 0o201, 16, 4, 1, 0, 23, 12, .ro, .val 0o0, .c, []⟩
/-- `CH_TAP.H_0` (spec/09): h₀ -/
def CH_TAP_H_0 : Field :=
  ⟨0o400000000, 0o1000, 512, 0o101, 16, 4, 1, 0, 11, 0, .ro, .val 0o0, .c, []⟩
/-- `CH_STAP.H_0` (spec/09): h₀ -/
def CH_STAP_H_0 : Field :=
  ⟨0o400000000, 0o1000, 512, 0o201, 16, 4, 1, 0, 11, 0, .ro, .val 0o0, .c, []⟩
/-- `CH_TAP.H_P1` (spec/09): h₊₁ -/
def CH_TAP_H_P1 : Field :=
  ⟨0o400000000, 0o1000, 512, 0o102, 16, 4, 1, 0, 35, 24, .ro, .val 0o0, .c, []⟩
/-- `CH_STAP.H_P1` (spec/09): h₊₁ -/
def CH_STAP_H_P1 : Field :=
  ⟨0o400000000, 0o1000, 512, 0o202, 16, 4, 1, 0, 35, 24, .ro, .val 0o0, .c, []⟩
/-- `CH_TAP.H_P2` (spec/09): h₊₂ -/
def CH_TAP_H_P2 : Field :=
  ⟨0o400000000, 0o1000, 512, 0o102, 16, 4, 1, 0, 23, 12, .ro, .val 0o0, .c, []⟩
/-- `CH_STAP.H_P2` (spec/09): h₊₂ -/
def CH_STAP_H_P2 : Field :=
  ⟨0o400000000, 0o1000, 512, 0o202, 16, 4, 1, 0, 23, 12, .ro, .val 0o0, .c, []⟩
/-- `TREE_BRX.PRE_U` (spec/09): preamble units, 116–1,023; 0–115 reserved -/
def TREE_BRX_PRE_U : Field :=
  ⟨0o401000000, 0o4000, 64, 0o0, 1, 0, 1, 0, 35, 26, .rwl, .val 0o200, .w, [(116, 1023)]⟩
/-- `TREE_BRX.EARLY` (spec/09): window lead, units, 0–63 -/
def TREE_BRX_EARLY : Field :=
  ⟨0o401000000, 0o4000, 64, 0o0, 1, 0, 1, 0, 25, 20, .rw, .val 0o20, .w, []⟩
/-- `TREE_BRX.LATE` (spec/09): window lag, units, 0–63 -/
def TREE_BRX_LATE : Field :=
  ⟨0o401000000, 0o4000, 64, 0o0, 1, 0, 1, 0, 19, 14, .rw, .val 0o20, .w, []⟩
/-- `TREE_BRX.DLM_WIN` (spec/09): delimiter search margin, symbols, 0–127 -/
def TREE_BRX_DLM_WIN : Field :=
  ⟨0o401000000, 0o4000, 64, 0o0, 1, 0, 1, 0, 13, 7, .rw, .val 0o140, .w, []⟩
/-- `TREE_BRX2.RNG_U` (spec/09): payload units of discovery and ranging bursts, 0–4,095 -/
def TREE_BRX2_RNG_U : Field :=
  ⟨0o401000000, 0o4000, 64, 0o1, 1, 0, 1, 0, 35, 24, .rwl, .val 0o123, .w, []⟩
/-- `TREE_BRX2.DRIFT_THR` (spec/09): DRIFT limit, symbols, 1–1,023; 0 reserved -/
def TREE_BRX2_DRIFT_THR : Field :=
  ⟨0o401000000, 0o4000, 64, 0o1, 1, 0, 1, 0, 23, 14, .rw, .val 0o40, .w, [(1, 1023)]⟩
/-- `TREE_BEV_STAT.COUNT` (spec/09): records held, 0–128 -/
def TREE_BEV_STAT_COUNT : Field :=
  ⟨0o401000000, 0o4000, 64, 0o2, 1, 0, 1, 0, 7, 0, .ro, .val 0o0, .c, []⟩
/-- `TREE_BEV_E0.W` (spec/09): slot; a read removes the record (R333) -/
def TREE_BEV_E0_W : Field :=
  ⟨0o401000000, 0o4000, 64, 0o3, 1, 0, 1, 0, 35, 33, .ro, .val 0o0, .c, []⟩
/-- `TREE_BEV_E0.CODE` (spec/09): R332 -/
def TREE_BEV_E0_CODE : Field :=
  ⟨0o401000000, 0o4000, 64, 0o3, 1, 0, 1, 0, 32, 28, .ro, .val 0o0, .c, []⟩
/-- `TREE_BEV_E0.ALLOC` (spec/09): allocation concerned, or 0 -/
def TREE_BEV_E0_ALLOC : Field :=
  ⟨0o401000000, 0o4000, 64, 0o3, 1, 0, 1, 0, 27, 12, .ro, .val 0o0, .c, []⟩
/-- `TREE_BEV_E0.AH` (spec/09): ALLOC came from a decoded header -/
def TREE_BEV_E0_AH : Field :=
  ⟨0o401000000, 0o4000, 64, 0o3, 1, 0, 1, 0, 11, 11, .ro, .val 0o0, .c, []⟩
/-- `TREE_BEV_E0.VALID` (spec/09): a record was removed -/
def TREE_BEV_E0_VALID : Field :=
  ⟨0o401000000, 0o4000, 64, 0o3, 1, 0, 1, 0, 0, 0, .ro, .val 0o0, .c, []⟩
/-- `TREE_BEV_E1.ALLOC2` (spec/09): header ALLOC of a capture or of a discovery burst -/
def TREE_BEV_E1_ALLOC2 : Field :=
  ⟨0o401000000, 0o4000, 64, 0o4, 1, 0, 1, 0, 35, 20, .ro, .val 0o0, .c, []⟩
/-- `TREE_BEV_E1.A2V` (spec/09): ALLOC2 valid -/
def TREE_BEV_E1_A2V : Field :=
  ⟨0o401000000, 0o4000, 64, 0o4, 1, 0, 1, 0, 19, 19, .ro, .val 0o0, .c, []⟩
/-- `TREE_BEV_E1.FR` (spec/09): frame number of the grant -/
def TREE_BEV_E1_FR : Field :=
  ⟨0o401000000, 0o4000, 64, 0o4, 1, 0, 1, 0, 18, 6, .ro, .val 0o0, .c, []⟩
/-- `TREE_BEV_E2.POS` (spec/09): symbol within the frame (R332) -/
def TREE_BEV_E2_POS : Field :=
  ⟨0o401000000, 0o4000, 64, 0o5, 1, 0, 1, 0, 35, 15, .ro, .val 0o0, .c, []⟩
/-- `TREE_OTDR_STAT.STATE` (spec/09): 0 IDLE, 1 PENDING, 2 RUNNING, 3 DONE, 4 FAILED; 5–7 reserved, never shown -/
def TREE_OTDR_STAT_STATE : Field :=
  ⟨0o401000000, 0o4000, 64, 0o10, 1, 0, 1, 0, 35, 33, .ro, .val 0o0, .c, []⟩
/-- `TREE_OTDR_STAT.W` (spec/09): slot of the run -/
def TREE_OTDR_STAT_W : Field :=
  ⟨0o401000000, 0o4000, 64, 0o10, 1, 0, 1, 0, 32, 30, .ro, .val 0o0, .c, []⟩
/-- `TREE_OTDR_STAT.SHOTS` (spec/09): shots taken, 0–256 -/
def TREE_OTDR_STAT_SHOTS : Field :=
  ⟨0o401000000, 0o4000, 64, 0o10, 1, 0, 1, 0, 29, 21, .ro, .val 0o0, .c, []⟩
/-- `TREE_OTDR_STAT.NEV` (spec/09): events in the table, 0–64 -/
def TREE_OTDR_STAT_NEV : Field :=
  ⟨0o401000000, 0o4000, 64, 0o10, 1, 0, 1, 0, 20, 14, .ro, .val 0o0, .c, []⟩
/-- `TREE_OTDR_STAT.TRUNC` (spec/09): more than 64 events found -/
def TREE_OTDR_STAT_TRUNC : Field :=
  ⟨0o401000000, 0o4000, 64, 0o10, 1, 0, 1, 0, 13, 13, .ro, .val 0o0, .c, []⟩
/-- `TREE_OTDR_STAT.APPLIED` (spec/09): R342 performed -/
def TREE_OTDR_STAT_APPLIED : Field :=
  ⟨0o401000000, 0o4000, 64, 0o10, 1, 0, 1, 0, 12, 12, .ro, .val 0o0, .c, []⟩
/-- `TREE_OTDR_STAT.AVG` (spec/09): AVG of the run -/
def TREE_OTDR_STAT_AVG : Field :=
  ⟨0o401000000, 0o4000, 64, 0o10, 1, 0, 1, 0, 11, 8, .ro, .val 0o0, .c, []⟩
/-- `TREE_OTDR_LP_A` (spec/09): start LP of the run, word A -/
def TREE_OTDR_LP_A : Field :=
  ⟨0o401000000, 0o4000, 64, 0o11, 1, 0, 1, 0, 35, 0, .ro, .val 0o0, .c, []⟩
/-- `TREE_OTDR_LP_B` (spec/09): start LP of the run, word B -/
def TREE_OTDR_LP_B : Field :=
  ⟨0o401000000, 0o4000, 64, 0o12, 1, 0, 1, 0, 35, 0, .ro, .val 0o0, .c, []⟩
/-- `TREE_OTDR_CFG.NG` (spec/09): group index, 10⁻⁴, 13,000–16,000; other values reserved -/
def TREE_OTDR_CFG_NG : Field :=
  ⟨0o401000000, 0o4000, 64, 0o13, 1, 0, 1, 0, 35, 20, .rw, .val 0o34532, .w, [(13000, 16000)]⟩
/-- `TREE_OTDR_CFG.REF_THR` (spec/09): reflective threshold, 0.5 dB, 1–63; 0 reserved -/
def TREE_OTDR_CFG_REF_THR : Field :=
  ⟨0o401000000, 0o4000, 64, 0o13, 1, 0, 1, 0, 19, 14, .rw, .val 0o6, .w, [(1, 63)]⟩
/-- `TREE_OTDR_CFG.LOSS_THR` (spec/09): loss threshold, 0.05 dB, 1–63; 0 reserved -/
def TREE_OTDR_CFG_LOSS_THR : Field :=
  ⟨0o401000000, 0o4000, 64, 0o13, 1, 0, 1, 0, 13, 8, .rw, .val 0o4, .w, [(1, 63)]⟩
/-- `TREE_OTDR_CFG.TAP_MIN` (spec/09): least candidate level, as −TAP_MIN dB -/
def TREE_OTDR_CFG_TAP_MIN : Field :=
  ⟨0o401000000, 0o4000, 64, 0o13, 1, 0, 1, 0, 7, 0, .rw, .val 0o74, .w, []⟩
/-- `TREE_RPT.REPORT` (spec/09): last REPORT of allocation 1,024·t + i -/
def TREE_RPT_REPORT : Field :=
  ⟨0o401000000, 0o4000, 64, 0o1000, 1024, 1, 1, 0, 35, 16, .ro, .val 0o0, .c, []⟩
/-- `TREE_RPT.FRESH` (spec/09): written since the last read -/
def TREE_RPT_FRESH : Field :=
  ⟨0o401000000, 0o4000, 64, 0o1000, 1024, 1, 1, 0, 15, 15, .rc, .val 0o0, .c, []⟩
/-- `TREE_RPT.FR` (spec/09): frame number of the grant -/
def TREE_RPT_FR : Field :=
  ⟨0o401000000, 0o4000, 64, 0o1000, 1024, 1, 1, 0, 12, 0, .ro, .val 0o0, .c, []⟩
/-- `TREE_EV.TYPE` (spec/09): R341 -/
def TREE_EV_TYPE : Field :=
  ⟨0o401000000, 0o4000, 64, 0o3000, 64, 2, 1, 0, 35, 33, .ro, .val 0o0, .c, []⟩
/-- `TREE_EV.DIST` (spec/09): distance, 0.1 m -/
def TREE_EV_DIST : Field :=
  ⟨0o401000000, 0o4000, 64, 0o3000, 64, 2, 1, 0, 32, 15, .ro, .val 0o0, .c, []⟩
/-- `TREE_EV.REFL` (spec/09): reflectance as −REFL × 0.1 dB; 0 for loss events -/
def TREE_EV_REFL : Field :=
  ⟨0o401000000, 0o4000, 64, 0o3000, 64, 2, 1, 0, 14, 5, .ro, .val 0o0, .c, []⟩
/-- `TREE_EV.LOSS` (spec/09): loss across the event, 0.05 dB -/
def TREE_EV_LOSS : Field :=
  ⟨0o401000000, 0o4000, 64, 0o3001, 64, 2, 1, 0, 35, 26, .ro, .val 0o0, .c, []⟩
/-- `TREE_EV.LEVEL` (spec/09): LEVEL as −LEVEL × 0.1 dB (R341) -/
def TREE_EV_LEVEL : Field :=
  ⟨0o401000000, 0o4000, 64, 0o3001, 64, 2, 1, 0, 25, 16, .ro, .val 0o0, .c, []⟩
/-- `TREE_TRM.OFS` (spec/09): arrival offset, two's complement, symbols -/
def TREE_TRM_OFS : Field :=
  ⟨0o401000000, 0o4000, 64, 0o3400, 256, 1, 1, 0, 35, 24, .ro, .val 0o0, .c, []⟩
/-- `TREE_TRM.PWR` (spec/09): P_burst, two's complement, 0.1 dBm -/
def TREE_TRM_PWR : Field :=
  ⟨0o401000000, 0o4000, 64, 0o3400, 256, 1, 1, 0, 23, 14, .ro, .val 0o0, .c, []⟩
/-- `TREE_TRM.LSR` (spec/09): burst LSR, 0.001 -/
def TREE_TRM_LSR : Field :=
  ⟨0o401000000, 0o4000, 64, 0o3400, 256, 1, 1, 0, 13, 4, .ro, .val 0o0, .c, []⟩
/-- `TREE_TRM.VALID` (spec/09): written since the tree domain powered up -/
def TREE_TRM_VALID : Field :=
  ⟨0o401000000, 0o4000, 64, 0o3400, 256, 1, 1, 0, 0, 0, .ro, .val 0o0, .c, []⟩
/-- `TREE_MAPCTL.DL_LEAD` (spec/10): map deadline lead, µs, 2–60; other values reserved (R382) -/
def TREE_MAPCTL_DL_LEAD : Field :=
  ⟨0o401000000, 0o4000, 64, 0o200, 1, 0, 1, 0, 35, 30, .rw, .val 0o4, .w, [(2, 60)]⟩
/-- `TREE_MAPCTL.HOLD_MAX` (spec/10): holds before the empty hold map, frames, 1–65,535; 0 reserved -/
def TREE_MAPCTL_HOLD_MAX : Field :=
  ⟨0o401000000, 0o4000, 64, 0o200, 1, 0, 1, 0, 29, 14, .rw, .val 0o17500, .w, [(1, 65535)]⟩
/-- `TREE_MAPCTL.GUARD` (spec/10): guard between grants, units, 0–1,023; read by the image (R379) -/
def TREE_MAPCTL_GUARD : Field :=
  ⟨0o401000000, 0o4000, 64, 0o200, 1, 0, 1, 0, 13, 4, .rw, .val 0o40, .w, []⟩
/-- `TREE_MAPCTL.POLL` (spec/10): poll interval 2^POLL frames -/
def TREE_MAPCTL_POLL : Field :=
  ⟨0o401000000, 0o4000, 64, 0o200, 1, 0, 1, 0, 3, 0, .rw, .val 0o4, .w, []⟩
/-- `TREE_RNG.RTT_MIN` (spec/10): least round trip, symbols, 0–3,024,000; other values reserved -/
def TREE_RNG_RTT_MIN : Field :=
  ⟨0o401000000, 0o4000, 64, 0o201, 1, 0, 1, 0, 35, 14, .rw, .val 0o0, .w, [(0, 3024000)]⟩
/-- `TREE_RNG2.RD_MAX` (spec/10): discovery random delay, units, 1–97,173; other values reserved -/
def TREE_RNG2_RD_MAX : Field :=
  ⟨0o401000000, 0o4000, 64, 0o202, 1, 0, 1, 0, 35, 19, .rw, .val 0o234200, .w, [(1, 97173)]⟩
/-- `TREE_RNG2.RNG_SLACK` (spec/10): ranging slack, units, 8–511; other values reserved -/
def TREE_RNG2_RNG_SLACK : Field :=
  ⟨0o401000000, 0o4000, 64, 0o202, 1, 0, 1, 0, 18, 9, .rw, .val 0o40, .w, [(8, 511)]⟩
/-- `TREE_ROGUE.UNSOL_N` (spec/10): frames of 64, 1–64; other values reserved (R388) -/
def TREE_ROGUE_UNSOL_N : Field :=
  ⟨0o401000000, 0o4000, 64, 0o203, 1, 0, 1, 0, 35, 29, .rw, .val 0o10, .w, [(1, 64)]⟩
/-- `TREE_ROGUE.LONG_N` (spec/10): LONG records in 64 frames, 1–64; other values reserved -/
def TREE_ROGUE_LONG_N : Field :=
  ⟨0o401000000, 0o4000, 64, 0o203, 1, 0, 1, 0, 28, 22, .rw, .val 0o4, .w, [(1, 64)]⟩
/-- `TREE_ROGUE.MISS_N` (spec/10): consecutive misses, 1–63; 0 reserved (R377) -/
def TREE_ROGUE_MISS_N : Field :=
  ⟨0o401000000, 0o4000, 64, 0o203, 1, 0, 1, 0, 21, 16, .rw, .val 0o10, .w, [(1, 63)]⟩
/-- `TREE_SLALOM.EN` (spec/10): Slalom enable (R389) -/
def TREE_SLALOM_EN : Field :=
  ⟨0o401000000, 0o4000, 64, 0o204, 1, 0, 1, 0, 35, 35, .rw, .val 0o0, .w, []⟩
/-- `TREE_SLALOM.IMB` (spec/10): imbalance, %, 1–100; other values reserved -/
def TREE_SLALOM_IMB : Field :=
  ⟨0o401000000, 0o4000, 64, 0o204, 1, 0, 1, 0, 34, 28, .rw, .val 0o24, .w, [(1, 100)]⟩
/-- `TREE_SLALOM.MINLOAD` (spec/10): least load of the busiest slot, %, 1–100; other values reserved -/
def TREE_SLALOM_MINLOAD : Field :=
  ⟨0o401000000, 0o4000, 64, 0o204, 1, 0, 1, 0, 27, 21, .rw, .val 0o74, .w, [(1, 100)]⟩
/-- `TREE_SLALOM.PERIOD` (spec/10): superframes, 1–255; 0 reserved -/
def TREE_SLALOM_PERIOD : Field :=
  ⟨0o401000000, 0o4000, 64, 0o204, 1, 0, 1, 0, 20, 13, .rw, .val 0o1, .w, [(1, 255)]⟩
/-- `TREE_SLALOM.HOLDOFF` (spec/10): superframes, 1–1,023; 0 reserved -/
def TREE_SLALOM_HOLDOFF : Field :=
  ⟨0o401000000, 0o4000, 64, 0o204, 1, 0, 1, 0, 12, 3, .rw, .val 0o74, .w, [(1, 1023)]⟩
/-- `TREE_ANN.UTC_OFS` (spec/10): UTC offset, two's complement, s (R367) -/
def TREE_ANN_UTC_OFS : Field :=
  ⟨0o401000000, 0o4000, 64, 0o205, 1, 0, 1, 0, 35, 20, .rw, .val 0o0, .w, []⟩
/-- `TREE_ANN.LI61` (spec/10): last minute has 61 s; LI61 = LI59 = 1 is reserved -/
def TREE_ANN_LI61 : Field :=
  ⟨0o401000000, 0o4000, 64, 0o205, 1, 0, 1, 0, 19, 19, .rw, .val 0o0, .w, []⟩
/-- `TREE_ANN.LI59` (spec/10): last minute has 59 s -/
def TREE_ANN_LI59 : Field :=
  ⟨0o401000000, 0o4000, 64, 0o205, 1, 0, 1, 0, 18, 18, .rw, .val 0o0, .w, []⟩
/-- `TREE_MAPSTAT.SRC` (spec/10): map taken at the last deadline: 0 committed, 1 hold, 2 empty hold, 3 none (slot not lit) -/
def TREE_MAPSTAT_SRC : Field :=
  ⟨0o401000000, 0o4000, 64, 0o210, 8, 1, 1, 0, 35, 34, .ro, .val 0o3, .c, []⟩
/-- `TREE_MAPSTAT.HOLDRUN` (spec/10): consecutive holds, saturating at 65,535 (R384) -/
def TREE_MAPSTAT_HOLDRUN : Field :=
  ⟨0o401000000, 0o4000, 64, 0o210, 8, 1, 1, 0, 33, 18, .ro, .val 0o0, .c, []⟩
/-- `TREE_MAPSTAT.COUNT` (spec/10): entries of that map, 0–256 -/
def TREE_MAPSTAT_COUNT : Field :=
  ⟨0o401000000, 0o4000, 64, 0o210, 8, 1, 1, 0, 17, 9, .ro, .val 0o0, .c, []⟩
/-- `TREE_TST.STATE` (spec/10): 0 FREE, 1 ASSIGNED, 2 RANGED, 3 ACTIVE, 4 RETUNING, 5 ISOLATED, 6 RERANGE; 7 reserved -/
def TREE_TST_STATE : Field :=
  ⟨0o401000000, 0o4000, 64, 0o3200, 128, 1, 1, 0, 35, 33, .rw, .val 0o0, .c, [(0, 6)]⟩
/-- `TREE_TSTO.STATE` (spec/10): 0 FREE, 1 ASSIGNED, 2 RANGED, 3 ACTIVE, 4 RETUNING, 5 ISOLATED, 6 RERANGE; 7 reserved -/
def TREE_TSTO_STATE : Field :=
  ⟨0o401000000, 0o4000, 64, 0o3200, 128, 1, 1, 0, 17, 15, .rw, .val 0o0, .c, [(0, 6)]⟩
/-- `TREE_TST.W` (spec/10): slot of the terminal -/
def TREE_TST_W : Field :=
  ⟨0o401000000, 0o4000, 64, 0o3200, 128, 1, 1, 0, 32, 30, .rw, .val 0o0, .c, []⟩
/-- `TREE_TSTO.W` (spec/10): slot of the terminal -/
def TREE_TSTO_W : Field :=
  ⟨0o401000000, 0o4000, 64, 0o3200, 128, 1, 1, 0, 14, 12, .rw, .val 0o0, .c, []⟩
/-- `TREE_TST.PAGE` (spec/10): page of the terminal (R373) -/
def TREE_TST_PAGE : Field :=
  ⟨0o401000000, 0o4000, 64, 0o3200, 128, 1, 1, 0, 29, 24, .rw, .val 0o0, .c, []⟩
/-- `TREE_TSTO.PAGE` (spec/10): page of the terminal (R373) -/
def TREE_TSTO_PAGE : Field :=
  ⟨0o401000000, 0o4000, 64, 0o3200, 128, 1, 1, 0, 11, 6, .rw, .val 0o0, .c, []⟩
/-- `TREE_TST.AEN` (spec/10): bit j: allocation j enabled -/
def TREE_TST_AEN : Field :=
  ⟨0o401000000, 0o4000, 64, 0o3200, 128, 1, 1, 0, 23, 20, .rw, .val 0o0, .c, []⟩
/-- `TREE_TSTO.AEN` (spec/10): bit j: allocation j enabled -/
def TREE_TSTO_AEN : Field :=
  ⟨0o401000000, 0o4000, 64, 0o3200, 128, 1, 1, 0, 5, 2, .rw, .val 0o0, .c, []⟩
/-- `CH_DSM_CTL.SET` (spec/10): bit k: mark slot k valid (R365) -/
def CH_DSM_CTL_SET : Field :=
  ⟨0o400000000, 0o1000, 512, 0o300, 1, 0, 1, 0, 11, 0, .wo, .val 0o0, .c, []⟩
/-- `CH_DSM_STAT.LAST_FR` (spec/10): frame number of the control area last built -/
def CH_DSM_STAT_LAST_FR : Field :=
  ⟨0o400000000, 0o1000, 512, 0o301, 1, 0, 1, 0, 35, 23, .ro, .val 0o0, .c, []⟩
/-- `CH_DSM_STAT.VALID` (spec/10): bit k: slot k waits for a build -/
def CH_DSM_STAT_VALID : Field :=
  ⟨0o400000000, 0o1000, 512, 0o301, 1, 0, 1, 0, 11, 0, .ro, .val 0o0, .c, []⟩
/-- `CH_DSM` (spec/10): message octets 4·i to 4·i + 3 in word i, lanes 3–0 -/
def CH_DSM : Field :=
  ⟨0o400000000, 0o1000, 512, 0o400, 12, 16, 12, 1, 35, 0, .rw, .val 0o0, .c, []⟩
/-- `FWD_SVC.VALID` (spec/11): record in use -/
def FWD_SVC_VALID : Field :=
  ⟨0o430000000, 0o0, 1, 0o0, 131072, 4, 1, 0, 35, 35, .rw, .val 0o0, .w, []⟩
/-- `FWD_SVC.PAGE` (spec/11): page g -/
def FWD_SVC_PAGE : Field :=
  ⟨0o430000000, 0o0, 1, 0o0, 131072, 4, 1, 0, 34, 29, .rw, .val 0o0, .w, []⟩
/-- `FWD_SVC.CLASS_AB` (spec/11): R400 -/
def FWD_SVC_CLASS_AB : Field :=
  ⟨0o430000000, 0o0, 1, 0o0, 131072, 4, 1, 0, 28, 25, .rw, .val 0o0, .w, []⟩
/-- `FWD_SVC.CLASS_BA` (spec/11): R400 -/
def FWD_SVC_CLASS_BA : Field :=
  ⟨0o430000000, 0o0, 1, 0o0, 131072, 4, 1, 0, 24, 21, .rw, .val 0o0, .w, []⟩
/-- `FWD_SVC.EXPRESS` (spec/11): R418 -/
def FWD_SVC_EXPRESS : Field :=
  ⟨0o430000000, 0o0, 1, 0o0, 131072, 4, 1, 0, 20, 20, .rw, .val 0o0, .w, []⟩
/-- `FWD_SVC.ENC` (spec/11): encrypt downstream; require encrypted upstream (R412) -/
def FWD_SVC_ENC : Field :=
  ⟨0o430000000, 0o0, 1, 0o0, 131072, 4, 1, 0, 19, 19, .rw, .val 0o0, .w, []⟩
/-- `FWD_SVC.A_KIND` (spec/11): R397 -/
def FWD_SVC_A_KIND : Field :=
  ⟨0o430000000, 0o0, 1, 0o1, 131072, 4, 1, 0, 35, 34, .rw, .val 0o0, .w, []⟩
/-- `FWD_SVC.A_TAG` (spec/11): R399 -/
def FWD_SVC_A_TAG : Field :=
  ⟨0o430000000, 0o0, 1, 0o1, 131072, 4, 1, 0, 23, 0, .rw, .val 0o0, .w, []⟩
/-- `FWD_SVC.B_KIND` (spec/11): R397 -/
def FWD_SVC_B_KIND : Field :=
  ⟨0o430000000, 0o0, 1, 0o2, 131072, 4, 1, 0, 35, 34, .rw, .val 0o0, .w, []⟩
/-- `FWD_SVC.B_TAG` (spec/11): R399 -/
def FWD_SVC_B_TAG : Field :=
  ⟨0o430000000, 0o0, 1, 0o2, 131072, 4, 1, 0, 23, 0, .rw, .val 0o0, .w, []⟩
/-- `FWD_SVC.A_INDEX` (spec/11): allocation, line or port of A -/
def FWD_SVC_A_INDEX : Field :=
  ⟨0o430000000, 0o0, 1, 0o3, 131072, 4, 1, 0, 35, 20, .rw, .val 0o0, .w, []⟩
/-- `FWD_SVC.B_INDEX` (spec/11): line or port of B -/
def FWD_SVC_B_INDEX : Field :=
  ⟨0o430000000, 0o0, 1, 0o3, 131072, 4, 1, 0, 19, 4, .rw, .val 0o0, .w, []⟩
/-- `FWD_KEY.VALID` (spec/11): entry in use -/
def FWD_KEY_VALID : Field :=
  ⟨0o430000000, 0o0, 1, 0o2000000, 131072, 2, 1, 0, 35, 35, .rw, .val 0o0, .w, []⟩
/-- `FWD_KEY.KIND` (spec/11): 0 line, 1 port -/
def FWD_KEY_KIND : Field :=
  ⟨0o430000000, 0o0, 1, 0o2000000, 131072, 2, 1, 0, 34, 34, .rw, .val 0o0, .w, []⟩
/-- `FWD_KEY.FACE` (spec/11): line 0–3 or port 0–15 -/
def FWD_KEY_FACE : Field :=
  ⟨0o430000000, 0o0, 1, 0o2000000, 131072, 2, 1, 0, 33, 30, .rw, .val 0o0, .w, []⟩
/-- `FWD_KEY.PAGE` (spec/11): page of a line key; zero for a port key -/
def FWD_KEY_PAGE : Field :=
  ⟨0o430000000, 0o0, 1, 0o2000000, 131072, 2, 1, 0, 29, 24, .rw, .val 0o0, .w, []⟩
/-- `FWD_KEY.TAG` (spec/11): R399 -/
def FWD_KEY_TAG : Field :=
  ⟨0o430000000, 0o0, 1, 0o2000000, 131072, 2, 1, 0, 23, 0, .rw, .val 0o0, .w, []⟩
/-- `FWD_KEY.SERVICE` (spec/11): s -/
def FWD_KEY_SERVICE : Field :=
  ⟨0o430000000, 0o0, 1, 0o2000001, 131072, 2, 1, 0, 16, 0, .rw, .val 0o0, .w, []⟩
/-- `FWD_ALLOC.VALID` (spec/11): allocation bound -/
def FWD_ALLOC_VALID : Field :=
  ⟨0o430000000, 0o0, 1, 0o3000000, 65536, 2, 1, 0, 35, 35, .rw, .val 0o0, .w, []⟩
/-- `FWD_ALLOC.SERVICE` (spec/11): s -/
def FWD_ALLOC_SERVICE : Field :=
  ⟨0o430000000, 0o0, 1, 0o3000000, 65536, 2, 1, 0, 16, 0, .rw, .val 0o0, .w, []⟩
/-- `FWD_POL.POL_EN` (spec/11): policing (R414) -/
def FWD_POL_POL_EN : Field :=
  ⟨0o430000000, 0o0, 1, 0o3000001, 65536, 2, 1, 0, 35, 35, .rw, .val 0o0, .w, []⟩
/-- `FWD_POL.CIR` (spec/11): Mb/s, 1–25,000 when POL_EN = 1; other values reserved -/
def FWD_POL_CIR : Field :=
  ⟨0o430000000, 0o0, 1, 0o3000001, 65536, 2, 1, 0, 34, 13, .rw, .val 0o0, .w, []⟩
/-- `FWD_POL.CBS` (spec/11): KiB, 1–8,191 when POL_EN = 1; 0 reserved -/
def FWD_POL_CBS : Field :=
  ⟨0o430000000, 0o0, 1, 0o3000001, 65536, 2, 1, 0, 12, 0, .rw, .val 0o0, .w, []⟩
/-- `FWD_STAT.SERVICES` (spec/11): VALID records, 0–131,072 -/
def FWD_STAT_SERVICES : Field :=
  ⟨0o430000000, 0o0, 1, 0o3600000, 1, 0, 1, 0, 35, 18, .ro, .val 0o0, .c, []⟩
/-- `FWD_STAT.KEYS` (spec/11): VALID key entries, 0–131,072 -/
def FWD_STAT_KEYS : Field :=
  ⟨0o430000000, 0o0, 1, 0o3600000, 1, 0, 1, 0, 17, 0, .ro, .val 0o0, .c, []⟩
/-- `QUE_CFG.QUANTUM` (spec/11): 64 octets, 1–16,384 (64 octets – 1 MiB); other values reserved -/
def QUE_CFG_QUANTUM : Field :=
  ⟨0o440000000, 0o0, 1, 0o0, 131072, 4, 1, 0, 35, 21, .rw, .val 0o20, .w, [(1, 16384)]⟩
/-- `QUEL_CFG.QUANTUM` (spec/11): 64 octets, 1–16,384 (64 octets – 1 MiB); other values reserved -/
def QUEL_CFG_QUANTUM : Field :=
  ⟨0o440000000, 0o0, 1, 0o2000000, 2048, 4, 1, 0, 35, 21, .rw, .val 0o20, .w, [(1, 16384)]⟩
/-- `QUEC_CFG.QUANTUM` (spec/11): 64 octets, 1–16,384 (64 octets – 1 MiB); other values reserved -/
def QUEC_CFG_QUANTUM : Field :=
  ⟨0o440000000, 0o0, 1, 0o2020000, 8192, 4, 1, 0, 35, 21, .rw, .val 0o20, .w, [(1, 16384)]⟩
/-- `QUE_CFG.LIMIT` (spec/11): 64 octets; 0 admits nothing -/
def QUE_CFG_LIMIT : Field :=
  ⟨0o440000000, 0o0, 1, 0o0, 131072, 4, 1, 0, 20, 0, .rw, .val 0o400000, .w, []⟩
/-- `QUEL_CFG.LIMIT` (spec/11): 64 octets; 0 admits nothing -/
def QUEL_CFG_LIMIT : Field :=
  ⟨0o440000000, 0o0, 1, 0o2000000, 2048, 4, 1, 0, 20, 0, .rw, .val 0o400000, .w, []⟩
/-- `QUEC_CFG.LIMIT` (spec/11): 64 octets; 0 admits nothing -/
def QUEC_CFG_LIMIT : Field :=
  ⟨0o440000000, 0o0, 1, 0o2020000, 8192, 4, 1, 0, 20, 0, .rw, .val 0o400000, .w, []⟩
/-- `QUE_LIVE.DEPTH_O` (spec/11): octets held now -/
def QUE_LIVE_DEPTH_O : Field :=
  ⟨0o440000000, 0o0, 1, 0o1, 131072, 4, 1, 0, 35, 6, .ro, .val 0o0, .c, []⟩
/-- `QUEL_LIVE.DEPTH_O` (spec/11): octets held now -/
def QUEL_LIVE_DEPTH_O : Field :=
  ⟨0o440000000, 0o0, 1, 0o2000001, 2048, 4, 1, 0, 35, 6, .ro, .val 0o0, .c, []⟩
/-- `QUEC_LIVE.DEPTH_O` (spec/11): octets held now -/
def QUEC_LIVE_DEPTH_O : Field :=
  ⟨0o440000000, 0o0, 1, 0o2020001, 8192, 4, 1, 0, 35, 6, .ro, .val 0o0, .c, []⟩
/-- `QUE_SMP_A.DEPTH_O` (spec/11): sampled depth (R425) -/
def QUE_SMP_A_DEPTH_O : Field :=
  ⟨0o440000000, 0o0, 1, 0o2, 131072, 4, 1, 0, 35, 6, .ro, .val 0o0, .c, []⟩
/-- `QUEL_SMP_A.DEPTH_O` (spec/11): sampled depth (R425) -/
def QUEL_SMP_A_DEPTH_O : Field :=
  ⟨0o440000000, 0o0, 1, 0o2000002, 2048, 4, 1, 0, 35, 6, .ro, .val 0o0, .c, []⟩
/-- `QUEC_SMP_A.DEPTH_O` (spec/11): sampled depth (R425) -/
def QUEC_SMP_A_DEPTH_O : Field :=
  ⟨0o440000000, 0o0, 1, 0o2020002, 8192, 4, 1, 0, 35, 6, .ro, .val 0o0, .c, []⟩
/-- `QUE_SMP_B.DELAY` (spec/11): sampled delay, µs, saturating at 8,388,607 -/
def QUE_SMP_B_DELAY : Field :=
  ⟨0o440000000, 0o0, 1, 0o3, 131072, 4, 1, 0, 35, 13, .ro, .val 0o0, .c, []⟩
/-- `QUEL_SMP_B.DELAY` (spec/11): sampled delay, µs, saturating at 8,388,607 -/
def QUEL_SMP_B_DELAY : Field :=
  ⟨0o440000000, 0o0, 1, 0o2000003, 2048, 4, 1, 0, 35, 13, .ro, .val 0o0, .c, []⟩
/-- `QUEC_SMP_B.DELAY` (spec/11): sampled delay, µs, saturating at 8,388,607 -/
def QUEC_SMP_B_DELAY : Field :=
  ⟨0o440000000, 0o0, 1, 0o2020003, 8192, 4, 1, 0, 35, 13, .ro, .val 0o0, .c, []⟩
/-- `QUE_SMP_B.FR` (spec/11): access frame of the sample -/
def QUE_SMP_B_FR : Field :=
  ⟨0o440000000, 0o0, 1, 0o3, 131072, 4, 1, 0, 12, 0, .ro, .val 0o0, .c, []⟩
/-- `QUEL_SMP_B.FR` (spec/11): access frame of the sample -/
def QUEL_SMP_B_FR : Field :=
  ⟨0o440000000, 0o0, 1, 0o2000003, 2048, 4, 1, 0, 12, 0, .ro, .val 0o0, .c, []⟩
/-- `QUEC_SMP_B.FR` (spec/11): access frame of the sample -/
def QUEC_SMP_B_FR : Field :=
  ⟨0o440000000, 0o0, 1, 0o2020003, 8192, 4, 1, 0, 12, 0, .ro, .val 0o0, .c, []⟩
/-- `QUE_SH.SH_EN` (spec/11): shaper on -/
def QUE_SH_SH_EN : Field :=
  ⟨0o440000000, 0o0, 1, 0o2200000, 34048, 4, 1, 0, 35, 35, .rw, .val 0o0, .w, []⟩
/-- `QUE_SH.RATE` (spec/11): Mb/s, 1–3,200,000; other values reserved -/
def QUE_SH_RATE : Field :=
  ⟨0o440000000, 0o0, 1, 0o2200000, 34048, 4, 1, 0, 34, 13, .rw, .val 0o14152000, .w, [(1, 3200000)]⟩
/-- `QUE_SH.BURST` (spec/11): 64 octets, 1–262,143; 0 reserved -/
def QUE_SH_BURST : Field :=
  ⟨0o440000000, 0o0, 1, 0o2200001, 34048, 4, 1, 0, 35, 18, .rw, .val 0o4000, .w, [(1, 262143)]⟩
/-- `QUE_SH.PQ` (spec/11): page quantum, 64 octets, 1–16,384; other values reserved -/
def QUE_SH_PQ : Field :=
  ⟨0o440000000, 0o0, 1, 0o2200001, 34048, 4, 1, 0, 17, 3, .rw, .val 0o20, .w, [(1, 16384)]⟩
/-- `QUE_SH.TOKENS` (spec/11): tokens, two's complement, octets -/
def QUE_SH_TOKENS : Field :=
  ⟨0o440000000, 0o0, 1, 0o2200002, 34048, 4, 1, 0, 35, 0, .ro, .val 0o0, .c, []⟩
/-- `QUE_PAGE.LIMIT` (spec/11): cells of the page (R406) -/
def QUE_PAGE_LIMIT : Field :=
  ⟨0o440000000, 0o0, 1, 0o3000000, 64, 4, 1, 0, 29, 0, .rw, .val 0o7777777777, .w, []⟩
/-- `QUE_PAGE.USED` (spec/11): cells held by the page -/
def QUE_PAGE_USED : Field :=
  ⟨0o440000000, 0o0, 1, 0o3000001, 64, 4, 1, 0, 29, 0, .ro, .val 0o0, .c, []⟩
/-- `QUE_SWEEP.BUSY` (spec/11): a sweep runs (R425) -/
def QUE_SWEEP_BUSY : Field :=
  ⟨0o440000000, 0o0, 1, 0o3100000, 1, 0, 1, 0, 35, 35, .ro, .val 0o0, .c, []⟩
/-- `QUE_SWEEP_SF` (spec/11): superframe of the last completed sweep -/
def QUE_SWEEP_SF : Field :=
  ⟨0o440000000, 0o0, 1, 0o3100001, 1, 0, 1, 0, 35, 0, .ro, .val 0o0, .c, []⟩
/-- `BUF_CTL.RESERVE` (spec/11): cells kept back from forwarding (R406) -/
def BUF_CTL_RESERVE : Field :=
  ⟨0o450000000, 0o0, 1, 0o0, 1, 0, 1, 0, 29, 0, .rwl, .val 0o4000000, .w, []⟩
/-- `BUF_STAT.FREE` (spec/11): free cells -/
def BUF_STAT_FREE : Field :=
  ⟨0o450000000, 0o0, 1, 0o1, 1, 0, 1, 0, 30, 0, .ro, .val 0o10000000000, .c, []⟩
/-- `BUF_STAT.DESC` (spec/11): free descriptors -/
def BUF_STAT_DESC : Field :=
  ⟨0o450000000, 0o0, 1, 0o2, 1, 0, 1, 0, 26, 0, .ro, .val 0o400000000, .c, []⟩
/-- `PORT_CTL.EN` (spec/11): port enabled -/
def PORT_CTL_EN : Field :=
  ⟨0o403000000, 0o2000, 16, 0o0, 1, 0, 1, 0, 35, 35, .rw, .val 0o0, .w, []⟩
/-- `PORT_CTL.OWNER` (spec/11): owning page; 0 shared (R433) -/
def PORT_CTL_OWNER : Field :=
  ⟨0o403000000, 0o2000, 16, 0o0, 1, 0, 1, 0, 34, 29, .rwl, .val 0o0, .w, []⟩
/-- `PORT_CTL.MGMT` (spec/11): deliver LLDP to the S-core (R431) -/
def PORT_CTL_MGMT : Field :=
  ⟨0o403000000, 0o2000, 16, 0o0, 1, 0, 1, 0, 28, 28, .rw, .val 0o0, .w, []⟩
/-- `PORT_STAT.LINK` (spec/11): link up -/
def PORT_STAT_LINK : Field :=
  ⟨0o403000000, 0o2000, 16, 0o1, 1, 0, 1, 0, 35, 35, .ro, .val 0o0, .c, []⟩
/-- `PORT_STAT.ALIGN` (spec/11): PCS lanes aligned -/
def PORT_STAT_ALIGN : Field :=
  ⟨0o403000000, 0o2000, 16, 0o1, 1, 0, 1, 0, 34, 34, .ro, .val 0o0, .c, []⟩
/-- `EDW_PG_CTR_A` (spec/12): last accepted counter, bits 63–32 -/
def EDW_PG_CTR_A : Field :=
  ⟨0o420000000, 0o10000, 64, 0o0, 1, 0, 1, 0, 31, 0, .ro, .val 0o0, .b, []⟩
/-- `EDW_PG_CTR_B` (spec/12): last accepted counter, bits 31–0 -/
def EDW_PG_CTR_B : Field :=
  ⟨0o420000000, 0o10000, 64, 0o1, 1, 0, 1, 0, 31, 0, .ro, .val 0o0, .b, []⟩
/-- `EDW_PG_STAT.LOCKED` (spec/12): page locked (R198) -/
def EDW_PG_STAT_LOCKED : Field :=
  ⟨0o420000000, 0o10000, 64, 0o2, 1, 0, 1, 0, 35, 35, .ro, .val 0o0, .b, []⟩
/-- `EDW_PG_STAT.CTR_HIGH` (spec/12): SVC_CTR_HIGH raised for this key -/
def EDW_PG_STAT_CTR_HIGH : Field :=
  ⟨0o420000000, 0o10000, 64, 0o2, 1, 0, 1, 0, 34, 34, .ro, .val 0o0, .b, []⟩
/-- `EDW_PG_STAT.CKEY` (spec/12): command key present -/
def EDW_PG_STAT_CKEY : Field :=
  ⟨0o420000000, 0o10000, 64, 0o2, 1, 0, 1, 0, 33, 33, .ro, .val 0o0, .b, []⟩
/-- `EDW_PG_STAT.EPOCH` (spec/12): command key changes (R463) -/
def EDW_PG_STAT_EPOCH : Field :=
  ⟨0o420000000, 0o10000, 64, 0o2, 1, 0, 1, 0, 32, 17, .ro, .val 0o0, .b, []⟩
/-- `EDW_KEY.CLASS` (spec/12): 0 empty, 1 CMD, 2 IMG, 3 LTX, 4 LRX, 5 EGCM, 6 EHMAC; 7 reserved, never shown -/
def EDW_KEY_CLASS : Field :=
  ⟨0o420000000, 0o10000, 64, 0o100, 256, 4, 1, 0, 35, 33, .ro, .val 0o0, .b, []⟩
/-- `EDW_KEY.P0` (spec/12): generation 0 present -/
def EDW_KEY_P0 : Field :=
  ⟨0o420000000, 0o10000, 64, 0o100, 256, 4, 1, 0, 32, 32, .ro, .val 0o0, .b, []⟩
/-- `EDW_KEY.P1` (spec/12): generation 1 present -/
def EDW_KEY_P1 : Field :=
  ⟨0o420000000, 0o10000, 64, 0o100, 256, 4, 1, 0, 31, 31, .ro, .val 0o0, .b, []⟩
/-- `EDW_KEY.ACT` (spec/12): active generation (R459) -/
def EDW_KEY_ACT : Field :=
  ⟨0o420000000, 0o10000, 64, 0o100, 256, 4, 1, 0, 30, 30, .ro, .val 0o0, .b, []⟩
/-- `EDW_KEY.PEND` (spec/12): switch pending -/
def EDW_KEY_PEND : Field :=
  ⟨0o420000000, 0o10000, 64, 0o100, 256, 4, 1, 0, 29, 29, .ro, .val 0o0, .b, []⟩
/-- `EDW_KEY.USE` (spec/12): R461 -/
def EDW_KEY_USE : Field :=
  ⟨0o420000000, 0o10000, 64, 0o100, 256, 4, 1, 0, 28, 25, .ro, .val 0o0, .b, []⟩
/-- `EDW_KEY.USED_A` (spec/12): U of the active generation, bits 63–32 -/
def EDW_KEY_USED_A : Field :=
  ⟨0o420000000, 0o10000, 64, 0o101, 256, 4, 1, 0, 31, 0, .ro, .val 0o0, .b, []⟩
/-- `EDW_KEY.USED_B` (spec/12): U, bits 31–0 -/
def EDW_KEY_USED_B : Field :=
  ⟨0o420000000, 0o10000, 64, 0o102, 256, 4, 1, 0, 31, 0, .ro, .val 0o0, .b, []⟩
/-- `EDW_TRK.PAGE` (spec/12): page of the keys -/
def EDW_TRK_PAGE : Field :=
  ⟨0o420000000, 0o0, 1, 0o1000000, 16384, 4, 1, 0, 35, 30, .ro, .val 0o0, .c, []⟩
/-- `EDW_TRK.P0` (spec/12): generation 0 present -/
def EDW_TRK_P0 : Field :=
  ⟨0o420000000, 0o0, 1, 0o1000000, 16384, 4, 1, 0, 29, 29, .ro, .val 0o0, .c, []⟩
/-- `EDW_TRK.P1` (spec/12): generation 1 present -/
def EDW_TRK_P1 : Field :=
  ⟨0o420000000, 0o0, 1, 0o1000000, 16384, 4, 1, 0, 28, 28, .ro, .val 0o0, .c, []⟩
/-- `EDW_TRK.ACT` (spec/12): active downstream generation -/
def EDW_TRK_ACT : Field :=
  ⟨0o420000000, 0o0, 1, 0o1000000, 16384, 4, 1, 0, 27, 27, .ro, .val 0o0, .c, []⟩
/-- `EDW_TRK.PEND` (spec/12): switch pending -/
def EDW_TRK_PEND : Field :=
  ⟨0o420000000, 0o0, 1, 0o1000000, 16384, 4, 1, 0, 26, 26, .ro, .val 0o0, .c, []⟩
/-- `EDW_TRK.USED_A` (spec/12): downstream U, bits 63–32; bits 35–32 reserved -/
def EDW_TRK_USED_A : Field :=
  ⟨0o420000000, 0o0, 1, 0o1000001, 16384, 4, 1, 0, 31, 0, .ro, .val 0o0, .c, []⟩
/-- `EDW_TRK.USED_B` (spec/12): downstream U, bits 31–0; bits 35–32 reserved -/
def EDW_TRK_USED_B : Field :=
  ⟨0o420000000, 0o0, 1, 0o1000002, 16384, 4, 1, 0, 31, 0, .ro, .val 0o0, .c, []⟩
/-- `EDW_TRK.TAGFAIL` (spec/12): failures at t_R, saturating at 65,535 (R474) -/
def EDW_TRK_TAGFAIL : Field :=
  ⟨0o420000000, 0o0, 1, 0o1000003, 16384, 4, 1, 0, 35, 20, .ro, .val 0o0, .c, []⟩
/-- `EDW_STAT.APPROVED` (spec/12): approved-mode indicator (R445); set again only by passing self-tests (R447) -/
def EDW_STAT_APPROVED : Field :=
  ⟨0o420000000, 0o0, 1, 0o1200000, 1, 0, 1, 0, 35, 35, .ro, .val 0o0, .w, []⟩
/-- `EDW_STAT.ERROR` (spec/12): error state (R447); kept through the module reset command, watchdog and zeroise -/
def EDW_STAT_ERROR : Field :=
  ⟨0o420000000, 0o0, 1, 0o1200000, 1, 0, 1, 0, 34, 34, .ro, .val 0o0, .w, []⟩
/-- `EDW_STAT.TAMPERED` (spec/12): a tamper trip has occurred; non-volatile -/
def EDW_STAT_TAMPERED : Field :=
  ⟨0o420000000, 0o0, 1, 0o1200000, 1, 0, 1, 0, 33, 33, .ro, .val 0o0, .b, []⟩
/-- `EDW_STAT.ZPEND` (spec/12): non-volatile erasure pending (R450); non-volatile -/
def EDW_STAT_ZPEND : Field :=
  ⟨0o420000000, 0o0, 1, 0o1200000, 1, 0, 1, 0, 32, 32, .ro, .val 0o0, .b, []⟩
/-- `EDW_STAT.IDENT` (spec/12): identity key present; non-volatile -/
def EDW_STAT_IDENT : Field :=
  ⟨0o420000000, 0o0, 1, 0o1200000, 1, 0, 1, 0, 31, 31, .ro, .val 0o1, .b, []⟩
/-- `EDW_STAT.TKEY` (spec/12): transport key present -/
def EDW_STAT_TKEY : Field :=
  ⟨0o420000000, 0o0, 1, 0o1200000, 1, 0, 1, 0, 30, 30, .ro, .val 0o0, .b, []⟩
/-- `EDW_STAT.IMGKEY` (spec/12): operator image key present -/
def EDW_STAT_IMGKEY : Field :=
  ⟨0o420000000, 0o0, 1, 0o1200000, 1, 0, 1, 0, 29, 29, .ro, .val 0o0, .b, []⟩
/-- `EDW_STAT.BOOTSTRAP` (spec/12): page 0 holds no command key (R466) -/
def EDW_STAT_BOOTSTRAP : Field :=
  ⟨0o420000000, 0o0, 1, 0o1200000, 1, 0, 1, 0, 28, 28, .ro, .val 0o1, .b, []⟩
/-- `EDW_STAT.ECODE` (spec/12): 0 none, 1 integrity, 2 AES, 3 SHA or HMAC, 4 ECDSA, 5 ECDH or KDF, 6 KW, 7 DRBG, 8 entropy start-up, 9 entropy continuous, 10 pairwise consistency, 11 pipeline or engine instance; 12–15 reserved, never shown -/
def EDW_STAT_ECODE : Field :=
  ⟨0o420000000, 0o0, 1, 0o1200000, 1, 0, 1, 0, 27, 24, .ro, .val 0o0, .w, []⟩
/-- `EDW_ZCOUNT` (spec/12): zeroisations since manufacture; non-volatile -/
def EDW_ZCOUNT : Field :=
  ⟨0o420000000, 0o0, 1, 0o1200001, 1, 0, 1, 0, 31, 0, .ro, .val 0o0, .b, []⟩
/-- `EDW_RECOV_CNT` (spec/12): R467; non-volatile -/
def EDW_RECOV_CNT : Field :=
  ⟨0o420000000, 0o0, 1, 0o1200002, 1, 0, 1, 0, 31, 0, .ro, .val 0o0, .b, []⟩
/-- `EDW_TLOG_STAT.TOTAL` (spec/12): trips since manufacture, saturating at 65,535 -/
def EDW_TLOG_STAT_TOTAL : Field :=
  ⟨0o420000000, 0o0, 1, 0o1200003, 1, 0, 1, 0, 35, 20, .ro, .val 0o0, .b, []⟩
/-- `EDW_TLOG_STAT.NEXT` (spec/12): ring record to be written next, 1–63 -/
def EDW_TLOG_STAT_NEXT : Field :=
  ⟨0o420000000, 0o0, 1, 0o1200003, 1, 0, 1, 0, 19, 14, .ro, .val 0o1, .b, []⟩
/-- `EDW_TLOG_A` (spec/12): calendar seconds bits 47–12 -/
def EDW_TLOG_A : Field :=
  ⟨0o420000000, 0o0, 1, 0o1200100, 64, 2, 1, 0, 35, 0, .ro, .val 0o0, .b, []⟩
/-- `EDW_TLOG_B.SEC` (spec/12): seconds bits 11–0 -/
def EDW_TLOG_B_SEC : Field :=
  ⟨0o420000000, 0o0, 1, 0o1200101, 64, 2, 1, 0, 35, 24, .ro, .val 0o0, .b, []⟩
/-- `EDW_TLOG_B.FRAC` (spec/12): fraction, units 1/32,768 s -/
def EDW_TLOG_B_FRAC : Field :=
  ⟨0o420000000, 0o0, 1, 0o1200101, 64, 2, 1, 0, 23, 9, .ro, .val 0o0, .b, []⟩
/-- `EDW_TLOG_B.SENSOR` (spec/12): R449 -/
def EDW_TLOG_B_SENSOR : Field :=
  ⟨0o420000000, 0o0, 1, 0o1200101, 64, 2, 1, 0, 8, 5, .ro, .val 0o0, .b, []⟩
/-- `EDW_TLOG_B.MODE` (spec/12): mode at the trip, numbered as the table of R32 from 0 (BACKUP) -/
def EDW_TLOG_B_MODE : Field :=
  ⟨0o420000000, 0o0, 1, 0o1200101, 64, 2, 1, 0, 4, 2, .ro, .val 0o0, .b, []⟩
/-- `EDW_TLOG_B.CAL_INV` (spec/12): the calendar was invalid -/
def EDW_TLOG_B_CAL_INV : Field :=
  ⟨0o420000000, 0o0, 1, 0o1200101, 64, 2, 1, 0, 1, 1, .ro, .val 0o0, .b, []⟩
/-- `EDW_TLOG_B.VALID` (spec/12): the record is in use -/
def EDW_TLOG_B_VALID : Field :=
  ⟨0o420000000, 0o0, 1, 0o1200101, 64, 2, 1, 0, 0, 0, .ro, .val 0o0, .b, []⟩
/-- `MON_CTL.XCHK` (spec/13): reference node cross-check (R506) -/
def MON_CTL_XCHK : Field :=
  ⟨0o401500000, 0o1000, 18, 0o0, 1, 0, 1, 0, 35, 35, .rw, .val 0o1, .w, []⟩
/-- `MON_STAT.STATE` (spec/13): 0 OFF, 1 DOWN, 2 WAKE, 3 IDLE, 4 SEQ, 5 INJ, 6 CAL; 7 reserved, never shown -/
def MON_STAT_STATE : Field :=
  ⟨0o401500000, 0o1000, 18, 0o1, 1, 0, 1, 0, 35, 33, .ro, .val 0o1, .c, []⟩
/-- `MON_STAT.SELFCAL` (spec/13): a calibration has passed since power-up -/
def MON_STAT_SELFCAL : Field :=
  ⟨0o401500000, 0o1000, 18, 0o1, 1, 0, 1, 0, 32, 32, .ro, .val 0o0, .c, []⟩
/-- `MON_STAT.CALPEND` (spec/13): a calibration is pending (R502) -/
def MON_STAT_CALPEND : Field :=
  ⟨0o401500000, 0o1000, 18, 0o1, 1, 0, 1, 0, 31, 31, .ro, .val 0o0, .c, []⟩
/-- `MON_STAT.PLAUS` (spec/13): cross-check fault holds -/
def MON_STAT_PLAUS : Field :=
  ⟨0o401500000, 0o1000, 18, 0o1, 1, 0, 1, 0, 30, 30, .ro, .val 0o0, .c, []⟩
/-- `MON_STAT.INJQ` (spec/13): injections listed, 0–16 -/
def MON_STAT_INJQ : Field :=
  ⟨0o401500000, 0o1000, 18, 0o1, 1, 0, 1, 0, 29, 25, .ro, .val 0o0, .c, []⟩
/-- `MON_STAT.TEMP` (spec/13): die temperature, two's complement, 0.5 °C -/
def MON_STAT_TEMP : Field :=
  ⟨0o401500000, 0o1000, 18, 0o1, 1, 0, 1, 0, 24, 16, .ro, .val 0o0, .c, []⟩
/-- `MON_SEQ_CTL.EN` (spec/13): sequence enable (R494) -/
def MON_SEQ_CTL_EN : Field :=
  ⟨0o401500000, 0o1000, 18, 0o2, 1, 0, 1, 0, 35, 35, .rw, .val 0o0, .w, []⟩
/-- `MON_SEQ_CTL.LAST` (spec/13): last entry of a pass -/
def MON_SEQ_CTL_LAST : Field :=
  ⟨0o401500000, 0o1000, 18, 0o2, 1, 0, 1, 0, 34, 29, .rw, .val 0o77, .w, []⟩
/-- `MON_SEQ_CTL.PERIOD` (spec/13): pass period, µs, 0–1,000,000; other values reserved -/
def MON_SEQ_CTL_PERIOD : Field :=
  ⟨0o401500000, 0o1000, 18, 0o2, 1, 0, 1, 0, 28, 9, .rw, .val 0o1750, .w, [(0, 1000000)]⟩
/-- `MON_SEQ_STAT.ENTRY` (spec/13): entry in progress, or next -/
def MON_SEQ_STAT_ENTRY : Field :=
  ⟨0o401500000, 0o1000, 18, 0o3, 1, 0, 1, 0, 35, 30, .ro, .val 0o0, .c, []⟩
/-- `MON_SEQ_STAT.PASS` (spec/13): passes completed, modulo 2¹⁸ -/
def MON_SEQ_STAT_PASS : Field :=
  ⟨0o401500000, 0o1000, 18, 0o3, 1, 0, 1, 0, 29, 12, .ro, .val 0o0, .c, []⟩
/-- `MON_CALF.OFS` (spec/13): offset in force, two's complement, 1/16 code -/
def MON_CALF_OFS : Field :=
  ⟨0o401500000, 0o1000, 18, 0o4, 1, 0, 1, 0, 35, 20, .ro, .val 0o0, .c, []⟩
/-- `MON_CALF.GAIN` (spec/13): gain error in force, two's complement, 2⁻²⁰ -/
def MON_CALF_GAIN : Field :=
  ⟨0o401500000, 0o1000, 18, 0o4, 1, 0, 1, 0, 19, 4, .ro, .val 0o0, .c, []⟩
/-- `MON_CAL_STAT.LAST` (spec/13): 0 none, 1 passed, 2 failed, 3 interrupted -/
def MON_CAL_STAT_LAST : Field :=
  ⟨0o401500000, 0o1000, 18, 0o5, 1, 0, 1, 0, 35, 34, .ro, .val 0o0, .c, []⟩
/-- `MON_CAL_STAT.TEMP` (spec/13): die temperature of the last calibration, two's complement, 0.5 °C -/
def MON_CAL_STAT_TEMP : Field :=
  ⟨0o401500000, 0o1000, 18, 0o5, 1, 0, 1, 0, 33, 25, .ro, .val 0o0, .c, []⟩
/-- `MON_CALM` (spec/13): measured offset and gain error of the last calibration, laid out as MON_CALF -/
def MON_CALM : Field :=
  ⟨0o401500000, 0o1000, 18, 0o6, 1, 0, 1, 0, 35, 0, .ro, .val 0o0, .c, []⟩
/-- `MON_REF.MEAN` (spec/13): latest channel-63 mean code (R506) -/
def MON_REF_MEAN : Field :=
  ⟨0o401500000, 0o1000, 18, 0o7, 1, 0, 1, 0, 35, 20, .ro, .val 0o0, .c, []⟩
/-- `MON_REF_LP_A` (spec/13): end LP of that result, word A -/
def MON_REF_LP_A : Field :=
  ⟨0o401500000, 0o1000, 18, 0o10, 1, 0, 1, 0, 35, 0, .ro, .val 0o0, .c, []⟩
/-- `MON_REF_LP_B` (spec/13): end LP, word B (R8) -/
def MON_REF_LP_B : Field :=
  ⟨0o401500000, 0o1000, 18, 0o11, 1, 0, 1, 0, 35, 0, .ro, .val 0o0, .c, []⟩
/-- `MON_CHCFG.GAIN` (spec/13): gain ×4^GAIN; non-zero is reserved for TEMP, MV, MI and REF; RO 0 for channels 61–63 -/
def MON_CHCFG_GAIN : Field :=
  ⟨0o401500000, 0o1000, 18, 0o100, 64, 1, 1, 0, 35, 34, .rw, .val 0o0, .w, []⟩
/-- `MON_CHCFG.FILTER` (spec/13): R492; RO 0 for channels 61–63 -/
def MON_CHCFG_FILTER : Field :=
  ⟨0o401500000, 0o1000, 18, 0o100, 64, 1, 1, 0, 33, 32, .rw, .val 0o1, .w, []⟩
/-- `MON_SEQ.CHAN` (spec/13): channel; reserved channels are reserved values (R485) -/
def MON_SEQ_CHAN : Field :=
  ⟨0o401500000, 0o1000, 18, 0o200, 64, 1, 1, 0, 35, 30, .rw, .val 0o0, .w, []⟩
/-- `MON_SEQ.AVG` (spec/13): 0: one sample; n = 1–8: 2ⁿ samples; 9–15 reserved -/
def MON_SEQ_AVG : Field :=
  ⟨0o401500000, 0o1000, 18, 0o200, 64, 1, 1, 0, 29, 26, .rw, .val 0o0, .w, [(0, 8)]⟩
/-- `MON_SEQ.SHIFT` (spec/13): 0–8; 9–15 reserved -/
def MON_SEQ_SHIFT : Field :=
  ⟨0o401500000, 0o1000, 18, 0o200, 64, 1, 1, 0, 25, 22, .rw, .val 0o0, .w, [(0, 8)]⟩
/-- `MON_SEQ.EN` (spec/13): entry is converted -/
def MON_SEQ_EN : Field :=
  ⟨0o401500000, 0o1000, 18, 0o200, 64, 1, 1, 0, 21, 21, .rw, .val 0o0, .w, []⟩
/-- `MON_RES` (spec/13): sample word of entry e (R487) -/
def MON_RES : Field :=
  ⟨0o401500000, 0o1000, 18, 0o300, 64, 1, 1, 0, 35, 0, .ro, .val 0o0, .c, []⟩
/-- `MON_CALSET_W0` (spec/13): offset and gain error of the set, laid out as MON_CALF -/
def MON_CALSET_W0 : Field :=
  ⟨0o401500000, 0o1000, 18, 0o400, 8, 2, 1, 0, 35, 0, .ro, .stored, .w, []⟩
/-- `MON_CALSET.VALID` (spec/13): written by a calibration since manufacture -/
def MON_CALSET_VALID : Field :=
  ⟨0o401500000, 0o1000, 18, 0o401, 8, 2, 1, 0, 35, 35, .ro, .stored, .w, []⟩
/-- `MON_CALSET.TEMP` (spec/13): die temperature at capture, two's complement, 0.5 °C -/
def MON_CALSET_TEMP : Field :=
  ⟨0o401500000, 0o1000, 18, 0o401, 8, 2, 1, 0, 34, 26, .ro, .stored, .w, []⟩
/-- `GRM_CTL.EN` (spec/14): walkers run (R525) -/
def GRM_CTL_EN : Field :=
  ⟨0o450010000, 0o0, 1, 0o0, 1, 0, 1, 0, 35, 35, .rw, .val 0o1, .w, []⟩
/-- `GRM_CTL.PERIOD` (spec/14): pass period, hours, 1–168; 0 and 169–255 reserved -/
def GRM_CTL_PERIOD : Field :=
  ⟨0o450010000, 0o0, 1, 0o0, 1, 0, 1, 0, 34, 27, .rw, .val 0o30, .w, [(1, 168)]⟩
/-- `GRM_CTL.RECUR` (spec/14): recurrence window, passes, 1–15; 0 reserved (R530) -/
def GRM_CTL_RECUR : Field :=
  ⟨0o450010000, 0o0, 1, 0o0, 1, 0, 1, 0, 26, 23, .rwl, .val 0o2, .w, [(1, 15)]⟩
/-- `GRM_STAT.LPASS` (spec/14): lane walker passes completed, modulo 2¹⁶ -/
def GRM_STAT_LPASS : Field :=
  ⟨0o450010000, 0o0, 1, 0o1, 1, 0, 1, 0, 35, 20, .ro, .val 0o0, .c, []⟩
/-- `GRM_STAT.BPASS` (spec/14): buffer walker passes completed, modulo 2¹⁶ -/
def GRM_STAT_BPASS : Field :=
  ⟨0o450010000, 0o0, 1, 0o1, 1, 0, 1, 0, 19, 4, .ro, .val 0o0, .c, []⟩
/-- `GRM_POS_L` (spec/14): address of the lane walker's next visit -/
def GRM_POS_L : Field :=
  ⟨0o450010000, 0o0, 1, 0o2, 1, 0, 1, 0, 29, 0, .ro, .val 0o0, .c, []⟩
/-- `GRM_POS_B` (spec/14): cell index of the buffer walker's next visit -/
def GRM_POS_B : Field :=
  ⟨0o450010000, 0o0, 1, 0o3, 1, 0, 1, 0, 29, 0, .ro, .val 0o0, .c, []⟩
/-- `GRM_LAST_A.SPACE` (spec/14): 0 lane memory, 1 buffer lane -/
def GRM_LAST_A_SPACE : Field :=
  ⟨0o450010000, 0o0, 1, 0o4, 1, 0, 1, 0, 35, 34, .ro, .val 0o0, .c, []⟩
/-- `GRM_LAST_A.ADDR` (spec/14): address or buffer lane index of the last finding (R528) -/
def GRM_LAST_A_ADDR : Field :=
  ⟨0o450010000, 0o0, 1, 0o4, 1, 0, 1, 0, 33, 0, .ro, .val 0o0, .c, []⟩
/-- `GRM_LAST_O.OWNER` (spec/14): owner code (R528) -/
def GRM_LAST_O_OWNER : Field :=
  ⟨0o450010000, 0o0, 1, 0o5, 1, 0, 1, 0, 35, 31, .ro, .val 0o0, .c, []⟩
/-- `GRM_LAST_O.INDEX` (spec/14): owner index (R528) -/
def GRM_LAST_O_INDEX : Field :=
  ⟨0o450010000, 0o0, 1, 0o5, 1, 0, 1, 0, 29, 0, .ro, .val 0o0, .c, []⟩
/-- `GRM_LAST_P.PAGE` (spec/14): page of the packet, OWNER 2; otherwise 0 -/
def GRM_LAST_P_PAGE : Field :=
  ⟨0o450010000, 0o0, 1, 0o6, 1, 0, 1, 0, 5, 0, .ro, .val 0o0, .c, []⟩
/-- `GRM_SPARE.SPARE_L` (spec/14): spare rows left in the lane memories, 0–314 -/
def GRM_SPARE_SPARE_L : Field :=
  ⟨0o450010000, 0o0, 1, 0o7, 1, 0, 1, 0, 35, 27, .ro, .stored, .w, []⟩
/-- `GRM_SPARE.SPARE_B` (spec/14): spare rows left in the buffer, 0–4,096 -/
def GRM_SPARE_SPARE_B : Field :=
  ⟨0o450010000, 0o0, 1, 0o7, 1, 0, 1, 0, 26, 14, .ro, .stored, .w, []⟩
/-- `GRM_RETIRED.RET_L` (spec/14): retired lane-memory rows, saturating at 511 -/
def GRM_RETIRED_RET_L : Field :=
  ⟨0o450010000, 0o0, 1, 0o10, 1, 0, 1, 0, 35, 27, .ro, .stored, .w, []⟩
/-- `GRM_RETIRED.RET_B` (spec/14): retired buffer rows, saturating at 2,097,151 -/
def GRM_RETIRED_RET_B : Field :=
  ⟨0o450010000, 0o0, 1, 0o10, 1, 0, 1, 0, 26, 6, .ro, .stored, .w, []⟩
/-- `GRM_TADDR.SPACE` (spec/14): 0 lane memory address, 1 buffer lane index; 2–3 reserved -/
def GRM_TADDR_SPACE : Field :=
  ⟨0o450010000, 0o0, 1, 0o20, 1, 0, 1, 0, 35, 34, .rwl, .val 0o0, .c, [(0, 1)]⟩
/-- `GRM_TADDR.ADDR` (spec/14): R534 -/
def GRM_TADDR_ADDR : Field :=
  ⟨0o450010000, 0o0, 1, 0o20, 1, 0, 1, 0, 33, 0, .rwl, .val 0o0, .c, []⟩
/-- `GRM_TDATA` (spec/14): raw data; for SPACE 1, bits 35–32 must be zero -/
def GRM_TDATA : Field :=
  ⟨0o450010000, 0o0, 1, 0o21, 1, 0, 1, 0, 35, 0, .rwl, .val 0o0, .c, []⟩
/-- `GRM_TCHK.LE` (spec/14): lanes of a raw write, SPACE 0 -/
def GRM_TCHK_LE : Field :=
  ⟨0o450010000, 0o0, 1, 0o22, 1, 0, 1, 0, 35, 32, .rwl, .val 0o0, .c, []⟩
/-- `GRM_TCHK.CHK_L` (spec/14): c4–c0 of lanes 3 (bits 31–27) to 0 (bits 16–12) -/
def GRM_TCHK_CHK_L : Field :=
  ⟨0o450010000, 0o0, 1, 0o22, 1, 0, 1, 0, 31, 12, .rwl, .val 0o0, .c, []⟩
/-- `GRM_TCHK.CHK_B` (spec/14): 7 check bits of a buffer lane -/
def GRM_TCHK_CHK_B : Field :=
  ⟨0o450010000, 0o0, 1, 0o22, 1, 0, 1, 0, 6, 0, .rwl, .val 0o0, .c, []⟩
/-- `GRM_TCMD.OP` (spec/14): write 1 raw write, 2 raw read; 0 no action; 3 reserved; reads as 0 -/
def GRM_TCMD_OP : Field :=
  ⟨0o450010000, 0o0, 1, 0o23, 1, 0, 1, 0, 1, 0, .rwl, .val 0o0, .c, [(0, 2)]⟩
/-- `CORE_SMP_CTL.SEL` (spec/15): bit 0 instructions, bit 1 engine operations -/
def CORE_SMP_CTL_SEL : Field :=
  ⟨0o460000000, 0o10000, 77, 0o1000, 1, 0, 1, 0, 35, 34, .rw, .val 0o0, .c, []⟩
/-- `CORE_SMP_CTL.PERIOD` (spec/15): instructions per record, 1–65,535; 0 reserved -/
def CORE_SMP_CTL_PERIOD : Field :=
  ⟨0o460000000, 0o10000, 77, 0o1000, 1, 0, 1, 0, 33, 18, .rw, .val 0o1750, .c, [(1, 65535)]⟩
/-- `CORE_SMP_CTL.FULL` (spec/15): 0 drop new, 1 overwrite oldest -/
def CORE_SMP_CTL_FULL : Field :=
  ⟨0o460000000, 0o10000, 77, 0o1000, 1, 0, 1, 0, 17, 17, .rw, .val 0o0, .c, []⟩
/-- `CORE_SMP_CTL.LAT_MIN` (spec/15): least latency of a KIND 1 record, clocks -/
def CORE_SMP_CTL_LAT_MIN : Field :=
  ⟨0o460000000, 0o10000, 77, 0o1000, 1, 0, 1, 0, 16, 0, .rw, .val 0o0, .c, []⟩
/-- `CORE_SMP_STAT.COUNT` (spec/15): records held, 0–60 -/
def CORE_SMP_STAT_COUNT : Field :=
  ⟨0o460000000, 0o10000, 77, 0o1001, 1, 0, 1, 0, 35, 30, .ro, .val 0o0, .c, []⟩
/-- `CORE_SMP_STAT.HEAD` (spec/15): slot of the oldest record, 0–59 -/
def CORE_SMP_STAT_HEAD : Field :=
  ⟨0o460000000, 0o10000, 77, 0o1001, 1, 0, 1, 0, 29, 24, .ro, .val 0o0, .c, []⟩
/-- `CORE_SMP_ACK.N` (spec/15): records to remove (R565) -/
def CORE_SMP_ACK_N : Field :=
  ⟨0o460000000, 0o10000, 77, 0o1002, 1, 0, 1, 0, 5, 0, .wo, .val 0o0, .c, []⟩
/-- `CORE_SMP_REC` (spec/15): record r at +0o1040 + 8·r (R563) -/
def CORE_SMP_REC : Field :=
  ⟨0o460000000, 0o10000, 77, 0o1040, 480, 1, 1, 0, 35, 0, .ro, .val 0o0, .c, []⟩
/-- `EVT_CTL.RATE` (spec/15): rate limit, records per window, 1–65,535; 0 reserved -/
def EVT_CTL_RATE : Field :=
  ⟨0o404004000, 0o0, 1, 0o0, 1, 0, 1, 0, 35, 20, .rw, .val 0o10000, .w, [(1, 65535)]⟩
/-- `EVT_STAT.AVAL` (spec/15): 0 NORMAL, 1 AVALANCHE -/
def EVT_STAT_AVAL : Field :=
  ⟨0o404004000, 0o0, 1, 0o1, 1, 0, 1, 0, 35, 35, .ro, .val 0o0, .c, []⟩
/-- `EVT_STAT.FILL` (spec/15): main ring records, 0–65,536 -/
def EVT_STAT_FILL : Field :=
  ⟨0o404004000, 0o0, 1, 0o1, 1, 0, 1, 0, 34, 18, .ro, .val 0o0, .c, []⟩
/-- `EVT_STAT.FILL_P0` (spec/15): priority-0 ring records, 0–4,096 -/
def EVT_STAT_FILL_P0 : Field :=
  ⟨0o404004000, 0o0, 1, 0o1, 1, 0, 1, 0, 17, 5, .ro, .val 0o0, .c, []⟩
/-- `EVT_SEQ` (spec/15): next main ring SEQ -/
def EVT_SEQ : Field :=
  ⟨0o404004000, 0o0, 1, 0o2, 1, 0, 1, 0, 35, 0, .ro, .val 0o0, .c, []⟩
/-- `EVT_SEQ_P0` (spec/15): next priority-0 SEQ -/
def EVT_SEQ_P0 : Field :=
  ⟨0o404004000, 0o0, 1, 0o3, 1, 0, 1, 0, 35, 0, .ro, .val 0o0, .c, []⟩
/-- `EVT_TLM.EN` (spec/15): stream enabled -/
def EVT_TLM_EN : Field :=
  ⟨0o404004000, 0o0, 1, 0o20, 16, 2, 1, 0, 35, 35, .rw, .val 0o0, .w, []⟩
/-- `EVT_TLM.KIND` (spec/15): 0 counters, 1 queue samples -/
def EVT_TLM_KIND : Field :=
  ⟨0o404004000, 0o0, 1, 0o20, 16, 2, 1, 0, 34, 34, .rw, .val 0o0, .w, []⟩
/-- `EVT_TLM.FIRST` (spec/15): first index, or first queue -/
def EVT_TLM_FIRST : Field :=
  ⟨0o404004000, 0o0, 1, 0o20, 16, 2, 1, 0, 33, 14, .rw, .val 0o0, .w, []⟩
/-- `EVT_TLM.N` (spec/15): items, 1–1,023; 0 reserved -/
def EVT_TLM_N : Field :=
  ⟨0o404004000, 0o0, 1, 0o20, 16, 2, 1, 0, 13, 4, .rw, .val 0o1, .w, [(1, 1023)]⟩
/-- `EVT_TLM.QSET` (spec/15): KIND 1: queue set 0–2; 3 reserved -/
def EVT_TLM_QSET : Field :=
  ⟨0o404004000, 0o0, 1, 0o20, 16, 2, 1, 0, 3, 2, .rw, .val 0o0, .w, [(0, 2)]⟩
/-- `EVT_TLM.PERIOD` (spec/15): access frames, 8–65,535; 0–7 reserved -/
def EVT_TLM_PERIOD : Field :=
  ⟨0o404004000, 0o0, 1, 0o21, 16, 2, 1, 0, 35, 20, .rw, .val 0o10, .w, [(8, 65535)]⟩
/-- `PWR_CTL.CAP` (spec/16): budget cap, W, 300–1,260; other values reserved -/
def PWR_CTL_CAP : Field :=
  ⟨0o404001000, 0o0, 1, 0o0, 1, 0, 1, 0, 35, 25, .rw, .val 0o2354, .b, [(300, 1260)]⟩
/-- `PWR_CTL.MARGIN` (spec/16): W, 10–100; other values reserved -/
def PWR_CTL_MARGIN : Field :=
  ⟨0o404001000, 0o0, 1, 0o0, 1, 0, 1, 0, 24, 18, .rw, .val 0o36, .b, [(10, 100)]⟩
/-- `PWR_CTL.HYST` (spec/16): W, 5–100; other values reserved -/
def PWR_CTL_HYST : Field :=
  ⟨0o404001000, 0o0, 1, 0o0, 1, 0, 1, 0, 17, 11, .rw, .val 0o24, .b, [(5, 100)]⟩
/-- `PWR_CTL.TMAX` (spec/16): °C, 85–110; other values reserved -/
def PWR_CTL_TMAX : Field :=
  ⟨0o404001000, 0o0, 1, 0o0, 1, 0, 1, 0, 10, 4, .rw, .val 0o144, .b, [(85, 110)]⟩
/-- `PWR_WDOG_CTL.EN` (spec/16): watchdog armed; once 1, every write to this word is discarded (R588) -/
def PWR_WDOG_CTL_EN : Field :=
  ⟨0o404001000, 0o0, 1, 0o1, 1, 0, 1, 0, 35, 35, .rw, .val 0o0, .c, []⟩
/-- `PWR_WDOG_CTL.T` (spec/16): timeout, 0.1 s, 1–255; 0 reserved -/
def PWR_WDOG_CTL_T : Field :=
  ⟨0o404001000, 0o0, 1, 0o1, 1, 0, 1, 0, 34, 27, .rw, .val 0o62, .c, [(1, 255)]⟩
/-- `PWR_WDOG` (spec/16): kick (R588) -/
def PWR_WDOG : Field :=
  ⟨0o404001000, 0o0, 1, 0o2, 1, 0, 1, 0, 35, 0, .wo, .val 0o0, .c, []⟩
/-- `PWR_STAT.MODE` (spec/16): R582; 6–7 never shown -/
def PWR_STAT_MODE : Field :=
  ⟨0o404001000, 0o0, 1, 0o3, 1, 0, 1, 0, 35, 33, .ro, .val 0o1, .c, []⟩
/-- `PWR_STAT.MAINS_OK` (spec/16): R575 -/
def PWR_STAT_MAINS_OK : Field :=
  ⟨0o404001000, 0o0, 1, 0o3, 1, 0, 1, 0, 32, 32, .ro, .val 0o0, .c, []⟩
/-- `PWR_STAT.SHORT` (spec/16): budget shortfall (R577) -/
def PWR_STAT_SHORT : Field :=
  ⟨0o404001000, 0o0, 1, 0o3, 1, 0, 1, 0, 31, 31, .ro, .val 0o0, .c, []⟩
/-- `PWR_STAT.LOWLINE` (spec/16): V_low below 180 V -/
def PWR_STAT_LOWLINE : Field :=
  ⟨0o404001000, 0o0, 1, 0o3, 1, 0, 1, 0, 30, 30, .ro, .val 0o0, .c, []⟩
/-- `PWR_STAT.CELL_LOW` (spec/16): cell below 2.6 V at the last measurement -/
def PWR_STAT_CELL_LOW : Field :=
  ⟨0o404001000, 0o0, 1, 0o3, 1, 0, 1, 0, 29, 29, .ro, .val 0o0, .b, []⟩
/-- `PWR_STAT.NSHED` (spec/16): domains with SHED = 1, 0–77 -/
def PWR_STAT_NSHED : Field :=
  ⟨0o404001000, 0o0, 1, 0o3, 1, 0, 1, 0, 28, 22, .ro, .val 0o0, .c, []⟩
/-- `PWR_STAT.LAST_RST` (spec/16): R587; 0 and 7 never shown -/
def PWR_STAT_LAST_RST : Field :=
  ⟨0o404001000, 0o0, 1, 0o3, 1, 0, 1, 0, 21, 19, .ro, .val 0o1, .b, []⟩
/-- `PWR_STAT.ILIM` (spec/16): input current limit acting -/
def PWR_STAT_ILIM : Field :=
  ⟨0o404001000, 0o0, 1, 0o3, 1, 0, 1, 0, 18, 18, .ro, .val 0o0, .c, []⟩
/-- `PWR_MAINS.VRMS` (spec/16): V_rms of the last cycle, 0.1 V -/
def PWR_MAINS_VRMS : Field :=
  ⟨0o404001000, 0o0, 1, 0o4, 1, 0, 1, 0, 35, 24, .ro, .val 0o0, .c, []⟩
/-- `PWR_MAINS.VLOW` (spec/16): V_low, 0.1 V -/
def PWR_MAINS_VLOW : Field :=
  ⟨0o404001000, 0o0, 1, 0o4, 1, 0, 1, 0, 23, 12, .ro, .val 0o0, .c, []⟩
/-- `PWR_MAINS.FREQ` (spec/16): 0.02 Hz -/
def PWR_MAINS_FREQ : Field :=
  ⟨0o404001000, 0o0, 1, 0o4, 1, 0, 1, 0, 11, 0, .ro, .val 0o0, .c, []⟩
/-- `PWR_LOAD.P_IN` (spec/16): W -/
def PWR_LOAD_P_IN : Field :=
  ⟨0o404001000, 0o0, 1, 0o5, 1, 0, 1, 0, 35, 24, .ro, .val 0o0, .c, []⟩
/-- `PWR_LOAD.P_DC` (spec/16): W -/
def PWR_LOAD_P_DC : Field :=
  ⟨0o404001000, 0o0, 1, 0o5, 1, 0, 1, 0, 23, 12, .ro, .val 0o0, .c, []⟩
/-- `PWR_LOAD.BUDGET` (spec/16): B, W -/
def PWR_LOAD_BUDGET : Field :=
  ⟨0o404001000, 0o0, 1, 0o5, 1, 0, 1, 0, 11, 0, .ro, .val 0o0, .c, []⟩
/-- `PWR_CELL.V` (spec/16): cell voltage, mV -/
def PWR_CELL_V : Field :=
  ⟨0o404001000, 0o0, 1, 0o6, 1, 0, 1, 0, 35, 24, .ro, .val 0o0, .b, []⟩
/-- `PWR_LOG_STAT.NEXT` (spec/16): record written next, 0–127; non-volatile -/
def PWR_LOG_STAT_NEXT : Field :=
  ⟨0o404001000, 0o0, 1, 0o7, 1, 0, 1, 0, 35, 29, .ro, .val 0o0, .b, []⟩
/-- `PWR_LOG_STAT.TOTAL` (spec/16): records since manufacture, saturating at 65,535; non-volatile -/
def PWR_LOG_STAT_TOTAL : Field :=
  ⟨0o404001000, 0o0, 1, 0o7, 1, 0, 1, 0, 28, 13, .ro, .val 0o0, .b, []⟩
/-- `PWR_DOM.STATE` (spec/16): 0 OFF, 1 RISING, 2 ON, 3 FALLING -/
def PWR_DOM_STATE : Field :=
  ⟨0o404001000, 0o0, 1, 0o100, 80, 1, 1, 0, 35, 34, .ro, .val 0o0, .c, []⟩
/-- `PWR_DOM.SHED` (spec/16): shed (R577) -/
def PWR_DOM_SHED : Field :=
  ⟨0o404001000, 0o0, 1, 0o100, 80, 1, 1, 0, 33, 33, .ro, .val 0o0, .c, []⟩
/-- `PWR_DOM.HELD` (spec/16): off by command -/
def PWR_DOM_HELD : Field :=
  ⟨0o404001000, 0o0, 1, 0o100, 80, 1, 1, 0, 32, 32, .ro, .val 0o0, .w, []⟩
/-- `PWR_DOM.PRIO` (spec/16): 0–15; non-zero reserved for d = 77–79 -/
def PWR_DOM_PRIO : Field :=
  ⟨0o404001000, 0o0, 1, 0o100, 80, 1, 1, 0, 31, 28, .rw, .byIdx [(64, 10), (72, 5), (76, 3), (77, 6), (80, 0)], .b, []⟩
/-- `PWR_DOM.EST` (spec/16): estimate, 0.5 W, 1–255; 0 reserved for d ≤ 76 -/
def PWR_DOM_EST : Field :=
  ⟨0o404001000, 0o0, 1, 0o100, 80, 1, 1, 0, 27, 20, .rw, .byIdx [(64, 21), (72, 16), (76, 170), (77, 180), (78, 12), (79, 176), (80, 0)], .b, []⟩
/-- `PWR_LOG_A` (spec/16): calendar seconds bits 47–12 -/
def PWR_LOG_A : Field :=
  ⟨0o404001000, 0o0, 1, 0o400, 128, 4, 1, 0, 35, 0, .ro, .val 0o0, .b, []⟩
/-- `PWR_LOG_B.SEC` (spec/16): seconds bits 11–0 -/
def PWR_LOG_B_SEC : Field :=
  ⟨0o404001000, 0o0, 1, 0o401, 128, 4, 1, 0, 35, 24, .ro, .val 0o0, .b, []⟩
/-- `PWR_LOG_B.FRAC` (spec/16): 1/32,768 s -/
def PWR_LOG_B_FRAC : Field :=
  ⟨0o404001000, 0o0, 1, 0o401, 128, 4, 1, 0, 23, 9, .ro, .val 0o0, .b, []⟩
/-- `PWR_LOG_B.EV` (spec/16): event code − 0x120 -/
def PWR_LOG_B_EV : Field :=
  ⟨0o404001000, 0o0, 1, 0o401, 128, 4, 1, 0, 8, 3, .ro, .val 0o0, .b, []⟩
/-- `PWR_LOG_B.MODE` (spec/16): mode at the event -/
def PWR_LOG_B_MODE : Field :=
  ⟨0o404001000, 0o0, 1, 0o401, 128, 4, 1, 0, 2, 0, .ro, .val 0o0, .b, []⟩
/-- `PWR_LOG_C.VRMS` (spec/16): 0.1 V -/
def PWR_LOG_C_VRMS : Field :=
  ⟨0o404001000, 0o0, 1, 0o402, 128, 4, 1, 0, 35, 24, .ro, .val 0o0, .b, []⟩
/-- `PWR_LOG_C.P_DC` (spec/16): W -/
def PWR_LOG_C_P_DC : Field :=
  ⟨0o404001000, 0o0, 1, 0o402, 128, 4, 1, 0, 23, 12, .ro, .val 0o0, .b, []⟩
/-- `PWR_LOG_ARG` (spec/16): ARG0 of the event -/
def PWR_LOG_ARG : Field :=
  ⟨0o404001000, 0o0, 1, 0o403, 128, 4, 1, 0, 35, 0, .ro, .val 0o0, .b, []⟩

end Reg

open Reg

/-- The fields of a `TIME` block. -/
def timeFields : List Field :=
  [TIME_LP_A_SF, TIME_LP_B_FR, TIME_LP_B_TK, TIME_CTL_SRC, TIME_CTL_PTP_PORT, TIME_CTL_PPS_FREE, TIME_CTL_EN, TIME_STAT_OCXO_WARM, TIME_STAT_JUMP, TIME_STAT_STEPPED, TIME_STAT_REF_OK, TIME_STAT_STATE, TIME_MAP_N0, TIME_MAP_N1, TIME_MAP_N2, TIME_NOW_N0, TIME_NOW_N1, TIME_NOW_N2, TIME_RATE, TIME_SERVO_LOCK_THR, TIME_SERVO_JUMP_THR, TIME_SERVO_LOCK_CNT, TIME_SERVO_JUMP_CNT, TIME_SERVO_RATE_MAX, TIME_SERVO_SLEW, TIME_PPS_PPS_WIDTH, TIME_PPS_IN_DELAY, TIME_TOD_DS_FRAC, TIME_TSQ_STAT_COUNT, TIME_TSQ_E0_SEQ_ID] ++
  [TIME_TSQ_E0_MSG_TYPE, TIME_TSQ_E0_PORT, TIME_TSQ_E0_DOMAIN, TIME_TSQ_E0_VALID, TIME_TSQ_E1, TIME_TSQ_E2, TIME_TSQ_E3]

/-- The fields of a `PORT` block. -/
def portFields : List Field :=
  [PORT_TSC_TX_CORR, PORT_TSC_RX_CORR, PORT_TSU_TX_USER, PORT_TSU_RX_USER, PORT_PTP_ONESTEP, PORT_PTP_UDP4, PORT_PTP_EN, PORT_CTL_EN, PORT_CTL_OWNER, PORT_CTL_MGMT, PORT_STAT_LINK, PORT_STAT_ALIGN]

/-- The fields of a `RTC` block. -/
def rtcFields : List Field :=
  [RTC_SEC_A, RTC_SEC_B_SEC, RTC_SEC_B_FRAC, RTC_CTL_SYNC, RTC_CTL_TRIM, RTC_STAT_XTAL_FAIL, RTC_STAT_INVALID]

/-- The fields of a `MTX` block. -/
def mtxFields : List Field :=
  [MTX_CTL_STARVE, MTX_ABORT_MASTER, MTX_ABORT_BEATS, MTX_DECERR_ADDR, MTX_DECERR_SRC_CAUSE, MTX_DECERR_SRC_MASTER]

/-- The fields of a `KCL` block. -/
def kclFields : List Field :=
  [KMTX_CTL_STARVE, KMTX_ABORT_MASTER, KMTX_ABORT_BEATS, KMTX_DECERR_ADDR, KMTX_DECERR_SRC_CAUSE, KMTX_DECERR_SRC_MASTER]

/-- The fields of a `CORE` block. -/
def coreFields : List Field :=
  [CORE_CTL_REMAP, CORE_CTL_HALT, CORE_CTL_START, CORE_CTL_SRST, CORE_STAT_ENG_OUT, CORE_STAT_FAULT, CORE_STAT_KIND, CORE_STAT_LATE, CORE_STAT_STATE, CORE_PC, CORE_ENTRY, CORE_IMG_VER, CORE_IMG_BASE, CORE_IMG_LEN, CORE_START_A, CORE_START_B, CORE_WIN_H_MODE, CORE_WIN_H_OPEN, CORE_WIN_H_DENY, CORE_WIN_H_HANDLE, CORE_WIN_L_LEN, CORE_ENG_RING, CORE_ENG_BUSY, CORE_TAGS_H, CORE_TAGS_L, CORE_AT_ARMED, CORE_RING, CORE_AT_SLOT, CORE_SMP_CTL_SEL, CORE_SMP_CTL_PERIOD] ++
  [CORE_SMP_CTL_FULL, CORE_SMP_CTL_LAT_MIN, CORE_SMP_STAT_COUNT, CORE_SMP_STAT_HEAD, CORE_SMP_ACK_N, CORE_SMP_REC]

/-- The fields of a `IMG` block. -/
def imgFields : List Field :=
  [IMG_STAT_LOADER, IMG_STAT_TARGET, IMG_STAT_STORE, IMG_LAST_STATUS, IMG_LAST_OP, IMG_LAST_KIND, IMG_MINVER, IMG_REF_VER, IMG_OPR_VER, IMG_SLOT_OPR_VALID, IMG_SLOT_OPR_SIGNER]

/-- The fields of a `SVC` block. -/
def svcFields : List Field :=
  [SVC_CTL_QEN, SVC_CTL_LPM_EN, SVC_STAT_LINK, SVC_STAT_FAR_UP, SVC_STAT_INTAKE, SVC_STAT_BOOTROM, SVC_STAT_SKEW, SVC_ALERT_BOOT_FAIL, SVC_ALERT_LINK_LOST, SVC_ALERT_P0_PEND, SVC_ALERT_EN_LINK_LOST, SVC_ALERT_EN_P0_PEND, SVC_TX_PRE, SVC_TX_POST, SVC_TX_SWING, SVC_LANE_ALIGNED, SVC_LANE_EQM, SVC_LANE_EQM_MIN, SVC_QCFG_PRIO, SVC_QCFG_SHARED, SVC_QCFG_OWNER, SVC_QSTAT_BUSY, SVC_QSTAT_RUN]

/-- The fields of a `LINE` block. -/
def lineFields : List Field :=
  [LINE_TX_CTL_FREQ, LINE_TX_CTL_POWER, LINE_TX_CTL_FALLBACK, LINE_TX_CTL_REMOTE_EN, LINE_TX_MASK, LINE_TX_STAT_RATE, LINE_TX_STAT_INNER, LINE_TX_STAT_BANK, LINE_TX_STAT_COUNTDOWN, LINE_TX_STAT_SEQ, LINE_TX_STAT_RAMPING, LINE_TX_STAT_CAL_OK, LINE_TX_STAT_BRINGUP, LINE_TX_STAT_STATE, LINE_TX_PWR_OUT, LINE_TX_PWR_ATT, LINE_TX_CLIP_LEVEL, LINE_TX_TEST_SC, LINE_TX_TEST_MODE, LINE_TX_CALV_SKEW_X, LINE_TX_CALV_SKEW_Y, LINE_TX_CALV_SKEW_XY, LINE_TX_CALV_GAIN_X, LINE_TX_CALV_GAIN_Y, LINE_TX_CALV_PHASE_X, LINE_TX_CALV_PHASE_Y, LINE_TX_CALV_TEMP, LINE_TX_BANK_RATE, LINE_TX_BANK_INNER, LINE_TX_BANK_B] ++
  [LINE_TX_BANK_G, LINE_TX_PROF_DUR, LINE_TX_PROF_END, LINE_LOAD_T0_0, LINE_LOAD_T0_1, LINE_LOAD_T1_0, LINE_LOAD_T1_1, LINE_LOAD_T2_0, LINE_LOAD_T2_1, LINE_LOAD_M_0, LINE_LOAD_M_1, LINE_LOAD_D, LINE_RX_CTL_FREQ, LINE_RX_CTL_FOLLOW, LINE_RX_CTL_EN, LINE_RX_CTL_QWIN, LINE_RX_CTL_SIG_THR, LINE_RX_CDWIN_CD_MIN, LINE_RX_CDWIN_CD_MAX, LINE_RX_STAT_STATE, LINE_RX_STAT_SIG, LINE_RX_STAT_FAULT, LINE_RX_STAT_BANK, LINE_RX_STAT_INNER, LINE_RX_STAT_RATE, LINE_RX_STAT_MISMATCH, LINE_RX_PWR_IN, LINE_RX_PWR_GAIN, LINE_RX_CD_EST, LINE_RX_FOFS_FOFS] ++
  [LINE_RX_FOFS_CLK, LINE_RX_PMD_DGD, LINE_RX_PMD_PDL, LINE_RX_PMD_SOP, LINE_RX_QSTAT_QSEQ, LINE_RX_QSTAT_VALID, LINE_RX_QSTAT_SWITCHED, LINE_RX_QEND_A, LINE_RX_QEND_B, LINE_TEL_CTL_OFS_LIM, LINE_TEL_CTL_GAIN_LIM, LINE_TEL_CTL_SKEW_LIM, LINE_TEL_CTL_EN, LINE_TEL_STAT_POS, LINE_TEL_ADC_SPARE, LINE_TEL_ADC_BAD, LINE_TEL_ADC_REJ, LINE_RX_TEST_MODE, LINE_RX_CALV_SKEW_X, LINE_RX_CALV_SKEW_Y, LINE_RX_CALV_SKEW_XY, LINE_RX_SC_SNR, LINE_RX_SC_SNR_X, LINE_RX_SC_SNR_Y, LINE_RX_SC_EVM, LINE_RX_SCS_STATE, LINE_RX_SCS_ON, LINE_RX_SCS_VALID, LINE_RX_SCS_SLIPS, LINE_RX_BANK_RATE] ++
  [LINE_RX_BANK_INNER, LINE_RX_BANK_B, LINE_RX_BANK_G, LINE_FR_CTL_MF_EN, LINE_FR_CTL_ENC, LINE_FR_CTL_DEC_REQ, LINE_FR_CTL_TIM_EN, LINE_FR_CTL_TIM_ACT, LINE_FR_CTL_FAW_TOL, LINE_FR_CTL_PT, LINE_FR_CTL_PT_SRC, LINE_FR_CTL_FORCE_AIS, LINE_FR_CTL_FORCE_RDI, LINE_FR_STAT_FSTATE, LINE_FR_STAT_IM, LINE_FR_STAT_CAND, LINE_FR_STAT_LOS, LINE_FR_STAT_LOF, LINE_FR_STAT_LOM, LINE_FR_STAT_AIS, LINE_FR_STAT_RDI, LINE_FR_STAT_TIM, LINE_FR_STAT_IMPAIRED, LINE_FR_STAT_PSTATE, LINE_FR_STAT_ENC, LINE_FR_STAT_MFC, LINE_FR_DEF, LINE_FR_BLK_LOCK, LINE_FR_BLK_BPTR, LINE_OH_CTL_ROUTE1] ++
  [LINE_OH_CTL_ROUTE0, LINE_OH_STAT_RX1, LINE_OH_STAT_TX1, LINE_OH_STAT_RX0, LINE_OH_STAT_TX0, LINE_TTI_TX, LINE_TTI_EXP, LINE_TTI_ACC, LINE_TTI_STAT_ACC_VALID, LINE_FEC_BER_PRE_M, LINE_FEC_BER_PRE_E, LINE_FEC_BER_MID_M, LINE_FEC_BER_MID_E, LINE_ENC_RXCTR_A, LINE_ENC_RXCTR_B]

/-- The fields of a `CH` block. -/
def chFields : List Field :=
  [CH_DS_CTL_POWER, CH_DS_CTL_RAMP, CH_DS_STAT_STATE, CH_DS_STAT_RAMPING, CH_DS_STAT_PEND, CH_DS_STAT_OUT, CH_BRX_CTL_ETHR, CH_BRX_CTL_STEP_DB, CH_BRX_CTL_COLL_DB, CH_BRX_CTL_OVL_DB, CH_BRX_CTL_DLM_THR, CH_BRX_STAT_STATE, CH_BRX_STAT_NFLOOR, CH_QCTL_QWIN, CH_QSTAT_QSEQ, CH_QSTAT_VALID, CH_QSTAT_EYE_V, CH_Q1_NOISE, CH_Q1_REFL, CH_Q2_EYE, CH_Q2_LSR, CH_Q2_WORST, CH_Q2_TX_LSR, CH_QEND_A, CH_QEND_B, CH_CANC_CTL_EN, CH_CANC_CTL_MU, CH_CANC_CTL_LOAD, CH_CANC_CTL_DROP, CH_CANC_STAT_SHADOW] ++
  [CH_CANC_STAT_NTAP, CH_CANC_STAT_DEPTH, CH_CANC_ISO_OWN, CH_CANC_ISO_NEXT, CH_CANC_ISO_LOOP_D, CH_TAP_EN, CH_STAP_EN, CH_TAP_SRC, CH_STAP_SRC, CH_TAP_POS, CH_STAP_POS, CH_TAP_H_M2, CH_STAP_H_M2, CH_TAP_H_M1, CH_STAP_H_M1, CH_TAP_H_0, CH_STAP_H_0, CH_TAP_H_P1, CH_STAP_H_P1, CH_TAP_H_P2, CH_STAP_H_P2, CH_DSM_CTL_SET, CH_DSM_STAT_LAST_FR, CH_DSM_STAT_VALID, CH_DSM]

/-- The fields of a `TREE` block. -/
def treeFields : List Field :=
  [TREE_BRX_PRE_U, TREE_BRX_EARLY, TREE_BRX_LATE, TREE_BRX_DLM_WIN, TREE_BRX2_RNG_U, TREE_BRX2_DRIFT_THR, TREE_BEV_STAT_COUNT, TREE_BEV_E0_W, TREE_BEV_E0_CODE, TREE_BEV_E0_ALLOC, TREE_BEV_E0_AH, TREE_BEV_E0_VALID, TREE_BEV_E1_ALLOC2, TREE_BEV_E1_A2V, TREE_BEV_E1_FR, TREE_BEV_E2_POS, TREE_OTDR_STAT_STATE, TREE_OTDR_STAT_W, TREE_OTDR_STAT_SHOTS, TREE_OTDR_STAT_NEV, TREE_OTDR_STAT_TRUNC, TREE_OTDR_STAT_APPLIED, TREE_OTDR_STAT_AVG, TREE_OTDR_LP_A, TREE_OTDR_LP_B, TREE_OTDR_CFG_NG, TREE_OTDR_CFG_REF_THR, TREE_OTDR_CFG_LOSS_THR, TREE_OTDR_CFG_TAP_MIN, TREE_RPT_REPORT] ++
  [TREE_RPT_FRESH, TREE_RPT_FR, TREE_EV_TYPE, TREE_EV_DIST, TREE_EV_REFL, TREE_EV_LOSS, TREE_EV_LEVEL, TREE_TRM_OFS, TREE_TRM_PWR, TREE_TRM_LSR, TREE_TRM_VALID, TREE_MAPCTL_DL_LEAD, TREE_MAPCTL_HOLD_MAX, TREE_MAPCTL_GUARD, TREE_MAPCTL_POLL, TREE_RNG_RTT_MIN, TREE_RNG2_RD_MAX, TREE_RNG2_RNG_SLACK, TREE_ROGUE_UNSOL_N, TREE_ROGUE_LONG_N, TREE_ROGUE_MISS_N, TREE_SLALOM_EN, TREE_SLALOM_IMB, TREE_SLALOM_MINLOAD, TREE_SLALOM_PERIOD, TREE_SLALOM_HOLDOFF, TREE_ANN_UTC_OFS, TREE_ANN_LI61, TREE_ANN_LI59, TREE_MAPSTAT_SRC] ++
  [TREE_MAPSTAT_HOLDRUN, TREE_MAPSTAT_COUNT, TREE_TST_STATE, TREE_TSTO_STATE, TREE_TST_W, TREE_TSTO_W, TREE_TST_PAGE, TREE_TSTO_PAGE, TREE_TST_AEN, TREE_TSTO_AEN]

/-- The fields of a `FWD` block. -/
def fwdFields : List Field :=
  [FWD_SVC_VALID, FWD_SVC_PAGE, FWD_SVC_CLASS_AB, FWD_SVC_CLASS_BA, FWD_SVC_EXPRESS, FWD_SVC_ENC, FWD_SVC_A_KIND, FWD_SVC_A_TAG, FWD_SVC_B_KIND, FWD_SVC_B_TAG, FWD_SVC_A_INDEX, FWD_SVC_B_INDEX, FWD_KEY_VALID, FWD_KEY_KIND, FWD_KEY_FACE, FWD_KEY_PAGE, FWD_KEY_TAG, FWD_KEY_SERVICE, FWD_ALLOC_VALID, FWD_ALLOC_SERVICE, FWD_POL_POL_EN, FWD_POL_CIR, FWD_POL_CBS, FWD_STAT_SERVICES, FWD_STAT_KEYS]

/-- The fields of a `QUE` block. -/
def queFields : List Field :=
  [QUE_CFG_QUANTUM, QUEL_CFG_QUANTUM, QUEC_CFG_QUANTUM, QUE_CFG_LIMIT, QUEL_CFG_LIMIT, QUEC_CFG_LIMIT, QUE_LIVE_DEPTH_O, QUEL_LIVE_DEPTH_O, QUEC_LIVE_DEPTH_O, QUE_SMP_A_DEPTH_O, QUEL_SMP_A_DEPTH_O, QUEC_SMP_A_DEPTH_O, QUE_SMP_B_DELAY, QUEL_SMP_B_DELAY, QUEC_SMP_B_DELAY, QUE_SMP_B_FR, QUEL_SMP_B_FR, QUEC_SMP_B_FR, QUE_SH_SH_EN, QUE_SH_RATE, QUE_SH_BURST, QUE_SH_PQ, QUE_SH_TOKENS, QUE_PAGE_LIMIT, QUE_PAGE_USED, QUE_SWEEP_BUSY, QUE_SWEEP_SF]

/-- The fields of a `BUF` block. -/
def bufFields : List Field :=
  [BUF_CTL_RESERVE, BUF_STAT_FREE, BUF_STAT_DESC]

/-- The fields of a `EDWP` block. -/
def edwPageFields : List Field :=
  [EDW_PG_CTR_A, EDW_PG_CTR_B, EDW_PG_STAT_LOCKED, EDW_PG_STAT_CTR_HIGH, EDW_PG_STAT_CKEY, EDW_PG_STAT_EPOCH, EDW_KEY_CLASS, EDW_KEY_P0, EDW_KEY_P1, EDW_KEY_ACT, EDW_KEY_PEND, EDW_KEY_USE, EDW_KEY_USED_A, EDW_KEY_USED_B]

/-- The fields of a `EDW` block. -/
def edwFields : List Field :=
  [EDW_TRK_PAGE, EDW_TRK_P0, EDW_TRK_P1, EDW_TRK_ACT, EDW_TRK_PEND, EDW_TRK_USED_A, EDW_TRK_USED_B, EDW_TRK_TAGFAIL, EDW_STAT_APPROVED, EDW_STAT_ERROR, EDW_STAT_TAMPERED, EDW_STAT_ZPEND, EDW_STAT_IDENT, EDW_STAT_TKEY, EDW_STAT_IMGKEY, EDW_STAT_BOOTSTRAP, EDW_STAT_ECODE, EDW_ZCOUNT, EDW_RECOV_CNT, EDW_TLOG_STAT_TOTAL, EDW_TLOG_STAT_NEXT, EDW_TLOG_A, EDW_TLOG_B_SEC, EDW_TLOG_B_FRAC, EDW_TLOG_B_SENSOR, EDW_TLOG_B_MODE, EDW_TLOG_B_CAL_INV, EDW_TLOG_B_VALID]

/-- The fields of a `MON` block. -/
def monFields : List Field :=
  [MON_CTL_XCHK, MON_STAT_STATE, MON_STAT_SELFCAL, MON_STAT_CALPEND, MON_STAT_PLAUS, MON_STAT_INJQ, MON_STAT_TEMP, MON_SEQ_CTL_EN, MON_SEQ_CTL_LAST, MON_SEQ_CTL_PERIOD, MON_SEQ_STAT_ENTRY, MON_SEQ_STAT_PASS, MON_CALF_OFS, MON_CALF_GAIN, MON_CAL_STAT_LAST, MON_CAL_STAT_TEMP, MON_CALM, MON_REF_MEAN, MON_REF_LP_A, MON_REF_LP_B, MON_CHCFG_GAIN, MON_CHCFG_FILTER, MON_SEQ_CHAN, MON_SEQ_AVG, MON_SEQ_SHIFT, MON_SEQ_EN, MON_RES, MON_CALSET_W0, MON_CALSET_VALID, MON_CALSET_TEMP]

/-- The fields of a `GRM` block. -/
def grmFields : List Field :=
  [GRM_CTL_EN, GRM_CTL_PERIOD, GRM_CTL_RECUR, GRM_STAT_LPASS, GRM_STAT_BPASS, GRM_POS_L, GRM_POS_B, GRM_LAST_A_SPACE, GRM_LAST_A_ADDR, GRM_LAST_O_OWNER, GRM_LAST_O_INDEX, GRM_LAST_P_PAGE, GRM_SPARE_SPARE_L, GRM_SPARE_SPARE_B, GRM_RETIRED_RET_L, GRM_RETIRED_RET_B, GRM_TADDR_SPACE, GRM_TADDR_ADDR, GRM_TDATA, GRM_TCHK_LE, GRM_TCHK_CHK_L, GRM_TCHK_CHK_B, GRM_TCMD_OP]

/-- The fields of a `EVT` block. -/
def evtFields : List Field :=
  [EVT_CTL_RATE, EVT_STAT_AVAL, EVT_STAT_FILL, EVT_STAT_FILL_P0, EVT_SEQ, EVT_SEQ_P0, EVT_TLM_EN, EVT_TLM_KIND, EVT_TLM_FIRST, EVT_TLM_N, EVT_TLM_QSET, EVT_TLM_PERIOD]

/-- The fields of a `PWR` block. -/
def pwrFields : List Field :=
  [PWR_CTL_CAP, PWR_CTL_MARGIN, PWR_CTL_HYST, PWR_CTL_TMAX, PWR_WDOG_CTL_EN, PWR_WDOG_CTL_T, PWR_WDOG, PWR_STAT_MODE, PWR_STAT_MAINS_OK, PWR_STAT_SHORT, PWR_STAT_LOWLINE, PWR_STAT_CELL_LOW, PWR_STAT_NSHED, PWR_STAT_LAST_RST, PWR_STAT_ILIM, PWR_MAINS_VRMS, PWR_MAINS_VLOW, PWR_MAINS_FREQ, PWR_LOAD_P_IN, PWR_LOAD_P_DC, PWR_LOAD_BUDGET, PWR_CELL_V, PWR_LOG_STAT_NEXT, PWR_LOG_STAT_TOTAL, PWR_DOM_STATE, PWR_DOM_SHED, PWR_DOM_HELD, PWR_DOM_PRIO, PWR_DOM_EST, PWR_LOG_A] ++
  [PWR_LOG_B_SEC, PWR_LOG_B_FRAC, PWR_LOG_B_EV, PWR_LOG_B_MODE, PWR_LOG_C_VRMS, PWR_LOG_C_P_DC, PWR_LOG_ARG]

end Sys2Proof.Machine
end

