-- ==== Sys2Proof/Machine/Ops.lean ====
section
/-! DEFINITION. The named operations every family uses: register fields, line position words, open
values, counters and the event path. -/

namespace Sys2Proof.Machine

open Ev Reg

/-! ### Sorting -/

/-- Inserts an element into a sorted list, before the first that it may precede. -/
def insertBy {α : Type} (le : α → α → Bool) (x : α) : List α → List α
  | [] => [x]
  | y :: t => if le x y then x :: y :: t else y :: insertBy le x t

/-- The list in the order `le`; elements that are equal in it stay in their order. -/
def sortBy {α : Type} (le : α → α → Bool) (l : List α) : List α := l.foldr (insertBy le) []

/-! ### Blocks and register words (R11–R15, R89) -/

/-- A register block: base, span of an instance in words, instances, offset added to an instance-relative
offset, and its fields. -/
structure Block where
  base : Nat
  span : Nat
  inst : Nat
  fields : List Field

/-- The blocks of R89, each with the words its offsets span. -/
def blocks : List Block :=
  [⟨0o400000000, 0o1000, 512, chFields⟩, ⟨0o401000000, 0o4000, 64, treeFields⟩,
   ⟨0o401400000, 0o10000, 8, kclFields⟩, ⟨0o401500000, 0o1000, 18, monFields⟩,
   ⟨0o402000000, 0o100000, 4, lineFields⟩, ⟨0o403000000, 0o2000, 16, portFields⟩,
   ⟨0o404000000, 64, 1, timeFields⟩, ⟨0o404000100, 16, 1, rtcFields⟩, ⟨0o404001000, 768, 1, pwrFields⟩,
   ⟨0o404004000, 64, 1, evtFields⟩, ⟨0o404010000, 0o10000, 1, svcFields⟩] ++
  [⟨0o420000000, 0o10000, 64, edwPageFields⟩, ⟨0o420000000, 0o10000000, 1, edwFields⟩,
   ⟨0o430000000, 0o4000000, 1, fwdFields⟩, ⟨0o440000000, 0o4000000, 1, queFields⟩,
   ⟨0o450000000, 0o10000, 1, bufFields⟩, ⟨0o450010000, 0o10000, 1, grmFields⟩,
   ⟨0o450020000, 0o10000, 1, mtxFields⟩, ⟨0o450030000, 0o10000, 1, imgFields⟩,
   ⟨0o460000000, 0o10000, 77, coreFields⟩]

/-- Where an address lies among some blocks: the block, the instance and the offset within it. -/
def findBlock : List Block → Nat → Option (Block × Nat × Nat)
  | [], _ => none
  | b :: t, a =>
    if b.base ≤ a ∧ a < b.base + b.span * b.inst then some (b, (a - b.base) / b.span, (a - b.base) % b.span)
    else findBlock t a

/-- The fields of the word at an address, each with its replicated-word index, and the instance. -/
def fieldsAt (a : Nat) : Nat × List (Field × Nat) :=
  match findBlock blocks a with
  | none => (0, [])
  | some (b, i, o) => (i, b.fields.filterMap fun f => (f.index? o).map fun k => (f, k))

/-- Whether a channel of a converter is reserved (R483, R484). -/
def chanReserved (m ch : Nat) : Bool := if m < 16 then ch = 60 else decide (35 ≤ ch) && decide (ch ≤ 60)

/-- Whether an address is the `MON_CHCFG` word of a reserved channel, which is reserved (R514). -/
def reservedChanWord (a : Nat) : Bool :=
  decide (0o401500000 ≤ a) && decide (a < 0o401500000 + 18 * 0o1000) &&
    let o := (a - 0o401500000) % 0o1000
    decide (0o100 ≤ o) && decide (o < 0o200) && chanReserved ((a - 0o401500000) / 0o1000) (o - 0o100)

/-- Whether an address of the register region is assigned by a register table (R89, R514). -/
def assigned (a : Nat) : Bool := !(fieldsAt a).2.isEmpty && !reservedChanWord a

/-- The word with every listed field at its reset value. -/
def resetOf (i a : Nat) : List (Field × Nat) → Nat
  | [] => 0
  | (f, k) :: t => setBits (resetOf i a t) f.hi f.lo (f.resetAt i k a)

/-- The reset value of a register word (R15). (DESIGN CHOICE, log entry 3.) -/
def resetWord (a : Nat) : Word := word (resetOf (fieldsAt a).1 a (fieldsAt a).2)

/-- The stored register word at an address. -/
def State.reg (s : State) (a : Nat) : Word := sget resetWord s.regs a

/-- The state with a register word stored. -/
def State.setReg (s : State) (a : Nat) (w : Word) : State := { s with regs := sput resetWord s.regs a w }

/-- The value of a field, in block instance `i`, replicated word `a`, `b`. -/
def State.rd (s : State) (f : Field) (i : Nat := 0) (a : Nat := 0) (b : Nat := 0) : Nat :=
  bitsOf (s.reg (f.addr i a b)).toNat f.hi f.lo

/-- A one-bit field as a Boolean. -/
def State.rdb (s : State) (f : Field) (i : Nat := 0) (a : Nat := 0) (b : Nat := 0) : Bool := s.rd f i a b != 0

/-- The two's complement value of a field. -/
def State.rdi (s : State) (f : Field) (i : Nat := 0) (a : Nat := 0) (b : Nat := 0) : Int :=
  signed f.width (s.rd f i a b)

/-- The state with a field set. -/
def State.wr (s : State) (f : Field) (v : Nat) (i : Nat := 0) (a : Nat := 0) (b : Nat := 0) : State :=
  s.setReg (f.addr i a b) (word (setBits (s.reg (f.addr i a b)).toNat f.hi f.lo v))

/-- The state with a two's complement field set. -/
def State.wri (s : State) (f : Field) (v : Int) (i : Nat := 0) (a : Nat := 0) (b : Nat := 0) : State :=
  s.wr f (toField f.width v) i a b

/-- A field raised by `k`, modulo its width. -/
def State.inc (s : State) (f : Field) (k : Nat := 1) (i : Nat := 0) (a : Nat := 0) (b : Nat := 0) : State :=
  s.wr f (s.rd f i a b + k) i a b

/-- A field raised by 1 and held at its largest value. -/
def State.incSat (s : State) (f : Field) (i : Nat := 0) (a : Nat := 0) (b : Nat := 0) : State :=
  s.wr f (min (s.rd f i a b + 1) (2 ^ f.width - 1)) i a b

/-- The word at `a` with the fields of the retention codes `rs` at their reset values (R15). -/
def retWord (rs : List Retention) (a : Nat) (w : Word) : Word :=
  word ((fieldsAt a).2.foldl
    (fun n fk => if rs.contains fk.1.ret then setBits n fk.1.hi fk.1.lo (fk.1.resetAt (fieldsAt a).1 fk.2 a) else n)
    w.toNat)

/-- Every register word that `p` names loses the fields of the retention codes `rs` (R15, R589). -/
def State.resetRegs (s : State) (rs : List Retention) (p : Nat → Bool) : State :=
  let step := fun (acc : List (Nat × Word)) (e : Nat × Word) =>
    sput resetWord acc e.1 (if p e.1 then retWord rs e.1 e.2 else e.2)
  { s with regs := s.regs.foldl step [] }

/-- What the latch of a master holds for an address before anything has been latched: the reset value of the word (R15). -/
def unlatched (k : Nat) : PWord := ⟨resetWord (k % 2 ^ 30), false⟩

/-- The latched words of the registers that `p` names and whose retention code is in `rs` are lost; the others stay latched
(R15, R73, R74). -/
def State.resetLatches (s : State) (rs : List Retention) (p : Nat → Bool) : State :=
  let keeps := fun (a : Nat) => !(fieldsAt a).2.isEmpty && (fieldsAt a).2.all fun fk => !rs.contains fk.1.ret
  { s with latch := s.latch.filter fun e => !p (e.1 % 2 ^ 30) || keeps (e.1 % 2 ^ 30) }

/-! ### Open values -/

/-- The next value the spec leaves open. (DESIGN CHOICE, log entry 5.) -/
def State.open_ (s : State) : Nat := Config.open s.free

/-- The state after an open value has been used. (DESIGN CHOICE, log entry 5.) -/
def State.used (s : State) (k : Nat := 1) : State := { s with free := s.free + k }

/-! ### Line position (R8, R10, R39) -/

/-- Ticks of a superframe, an access frame, a line multiframe and a line frame (R39). -/
def ticksSf : Nat := 4096000000
def ticksFr : Nat := 500000
def ticksMf : Nat := 1024000
def ticksLf : Nat := 4000
/-- Ticks of a second, a millisecond and a microsecond. -/
def ticksSec : Nat := 4000000000
def ticksMs : Nat := 4000000
def ticksUs : Nat := 4000

/-- LP word A of a tick count. -/
def lpA (t : Nat) : Nat := t / ticksSf % 2 ^ 36

/-- LP word B of a tick count; reserved bits zero (R9). -/
def lpB (t : Nat) : Nat := t % ticksSf / ticksFr * 2 ^ 23 + t % ticksFr * 2 ^ 4

/-- Whether LP word B names a valid position (R9). -/
def lpOk (b : Nat) : Bool := decide (bitsOf b 22 4 < ticksFr)

/-- The tick count of a pair of LP words; the reserved bits are ignored (R9). -/
def lpTicks (a b : Nat) : Nat := a * ticksSf + bitsOf b 35 23 * ticksFr + bitsOf b 22 4

/-- The number of the core clock of 4 ticks that runs (R38, R139). (DESIGN CHOICE, log entry 109.) -/
def State.clock (s : State) : Nat := s.now / 4

/-- The LP of the core clock that runs: LP at its start, which what instructions do in the clock goes by (R38, R139,
R141, R144, R161). (DESIGN CHOICE, log entry 109.) -/
def State.clockLp (s : State) : Nat := 4 * s.clock

/-- The access frame count 8,192 · sf + fr. -/
def frameOf (t : Nat) : Nat := t / ticksFr

/-! ### Modes and domains (R32, R571) -/

/-- `PWR_STAT.MODE` values of R582. -/
def modeBackup : Nat := 0
def modeHousekeeping : Nat := 1
def modeProvision : Nat := 2
def modeService : Nat := 3
def modeConstrained : Nat := 4
def modeMaintenance : Nat := 5

/-- `PWR_DOM.STATE` values of R571. -/
def domOff : Nat := 0
def domRising : Nat := 1
def domOnSt : Nat := 2
def domFalling : Nat := 3

/-- The mode of the module. -/
def State.mode (s : State) : Nat := s.rd PWR_STAT_MODE

/-- Whether a domain is ON. -/
def State.domOn (s : State) (d : Nat) : Bool := s.rd PWR_DOM_STATE 0 d = domOnSt

/-- Whether the supervisor and management domain is ON: LP and every block of that domain run (R37). -/
def State.up (s : State) : Bool := s.domOn 78

/-- Whether a laser of a domain ramps or is lit: a channel in RAMP_UP, LIT or RAMP_DOWN, a line in RAMP_UP, LIT,
RAMP_DOWN or SHUT (R571). -/
def State.ramping (s : State) (d : Nat) : Bool :=
  if d < 64 then (List.range 8).any fun w => let st := s.rd CH_DS_STAT_STATE (8 * d + w); decide (3 ≤ st) && decide (st ≤ 5)
  else if 72 ≤ d ∧ d < 76 then let st := s.rd LINE_TX_STAT_STATE (d - 72); decide (3 ≤ st) && decide (st ≤ 6)
  else false

/-- A domain falls (R571). -/
def State.fall (s : State) (d : Nat) : State := if s.domOn d then s.wr PWR_DOM_STATE domFalling 0 d else s

/-- The head of a mode change's list that falls now: the domains before the first that still ramps. -/
def State.fallHead (s : State) : List Nat → State × List Nat
  | [] => (s, [])
  | d :: t => if s.ramping d then (s, d :: t) else (s.fall d).fallHead t

/-- Domains that are to go off fall once their ramps have ended (R571, R582). -/
def State.beginFalls (s : State) : State :=
  let now := s.pwr.going.filter fun d => !s.ramping d
  let s := now.foldl State.fall { s with pwr := { s.pwr with going := s.pwr.going.filter s.ramping } }
  let (s, l) := s.fallHead s.pwr.fallList
  { s with pwr := { s.pwr with fallList := l } }

/-! ### Counters (R541–R545) -/

/-- The largest value of a counter (R544). -/
def cntMax : Nat := 2 ^ 72 - 1

/-- The value of the counter at an index. -/
def State.cntAt (s : State) (x : Nat) : Nat := sget (fun _ => 0) s.cnt x

/-- The address of the count word of an index (R541). -/
def cntAddr (x : Nat) : Nat := if x < 524288 then 0o410000000 + 2 * x else 0o444000000 + 2 * (x - 524288)

/-- What an addition to a counter tells: nothing, that it stuck, or that it was restarted. -/
inductive CntNote
  | none | stuck | restarted
  deriving DecidableEq, Repr

/-- Whether a word of the counter file is uncorrectable or marked (R545). -/
def State.cntBad (s : State) (a : Nat) : Bool :=
  match sget (fun _ => none) s.tblRaw a with
  | some x => (x.deliver 15).p
  | none => false

/-- The pair of counter `x` written clean. -/
def State.cntPut (s : State) (x v : Nat) : State :=
  { s with
    tblRaw := sput (fun _ => none) (sput (fun _ => none) s.tblRaw (cntAddr x) none) (cntAddr x + 1) none
    cnt := sput (fun _ => 0) s.cnt x v }

/-- Adds to the counter at index `x`; a pair with an uncorrectable word is restarted (R544, R545). -/
def State.cntAdd (s : State) (x k : Nat) : State × CntNote :=
  if s.cntBad (cntAddr x) || s.cntBad (cntAddr x + 1) then (s.cntPut x k, .restarted)
  else if s.cntAt x = cntMax then (s, .none)
  else if s.cntAt x + k > cntMax then (s.cntPut x cntMax, .stuck)
  else (s.cntPut x (s.cntAt x + k), .none)

/-! ### The event path (R549–R558) -/

/-- PRI and REC of a code as the directory shows them (R546, R549). -/
def State.evCfg (s : State) (c : Code) : Nat × Bool :=
  match sget (fun _ => none) s.evt.cfg c.num with
  | some pr => pr
  | none => match c.kind with
    | .counter => (0, false)
    | .event => (2, true)
    | .priority0 => (0, true)

/-- The record of an occurrence now, not yet entered in a ring (R551, R554). -/
def State.evRec (s : State) (c : Code) (j : Nat) (args : List Int) : EvRec :=
  ⟨(s.evCfg c).1, 0, c.num, j, 0, s.now, (args ++ List.replicate 4 0).take 4 |>.map (toField 36)⟩

/-- Keeps a record as first, when none is kept, and as latest of its code (R554). (DEDUCED, log entry 28.) -/
def EvtSt.keep (e : EvtSt) (r : EvRec) (entered : Bool) : EvtSt :=
  { e with
    first := match sget (fun _ => none) e.first r.code with
      | none => sput (fun _ => none) e.first r.code (some ⟨r, entered⟩)
      | some _ => e.first
    latest := sput (fun _ => none) e.latest r.code (some ⟨r, entered⟩) }

/-- The record `r` takes the next SEQ and enters the main ring (R552); `at_` is the tick. -/
def EvtSt.putMain (e : EvtSt) (at_ : Nat) (r : EvRec) : EvtSt :=
  { e with
    main := e.main ++ [{ r with seq := e.seq }]
    seq := (e.seq + 1) % 2 ^ 36
    lowSince := if 16384 ≤ e.main.length + 1 then max e.lowSince at_ else e.lowSince }

/-- The record `r` takes the next priority-0 SEQ and enters the priority-0 ring. -/
def EvtSt.putP0 (e : EvtSt) (r : EvRec) : EvtSt :=
  { e with p0 := e.p0 ++ [{ r with seq := e.seqP0 }], seqP0 := (e.seqP0 + 1) % 2 ^ 36 }

/-- Coalesces a record into its code's entry of a list kept in code order (R555, R558). -/
def coalesce (r : EvRec) (due : Bool) : List Coal → List Coal
  | [] => [⟨r.code, 1, r.inst, r.lp, some r, none, due⟩]
  | c :: t =>
    if r.code < c.code then ⟨r.code, 1, r.inst, r.lp, some r, none, due⟩ :: c :: t
    else if r.code = c.code then
      (if c.count = 0 then { c with count := 1, inst := r.inst, firstLp := r.lp, last := some r, due := c.due || due }
       else { c with count := c.count + 1, last := some r, due := c.due || due }) :: t
    else c :: coalesce r due t

/-- Opens a code with nothing coalesced, with the KIND 1 record held for it if any (R555). -/
def openCode (code : Nat) (held : Option EvRec) : List Coal → List Coal
  | [] => [⟨code, 0, 0, 0, none, held, false⟩]
  | c :: t =>
    if code < c.code then ⟨code, 0, 0, 0, none, held, false⟩ :: c :: t
    else if code = c.code then { c with held := held } :: t
    else c :: openCode code held t

/-- The summary and last record of a coalesced entry (R551, R555). -/
def Coal.records (c : Coal) : List EvRec :=
  match c.last with
  | none => []
  | some r =>
    [{ r with kind := 2, inst := c.inst, lp := c.firstLp, args := [lpA r.lp, lpB r.lp, c.count % 2 ^ 36, 0] },
     { r with kind := 3 }]

/-- Keeps the KIND 1 record of an occurrence once it has entered the ring (R554). -/
def EvtSt.keepEntered (e : EvtSt) (r : EvRec) : EvtSt :=
  let f := fun (k : Option Kept) => match k with
    | some x => if x.rec_ = { r with kind := 0 } && !x.entered then some ⟨{ r with seq := (e.seq + 2 ^ 36 - 1) % 2 ^ 36 }, true⟩ else some x
    | none => none
  { e with
    first := sput (fun _ => none) e.first r.code (f (sget (fun _ => none) e.first r.code))
    latest := sput (fun _ => none) e.latest r.code (f (sget (fun _ => none) e.latest r.code)) }

/-- The held KIND 1 record of the earliest occurrence among open codes. -/
def firstHeld : List Coal → Option EvRec
  | [] => none
  | c :: t => match c.held, firstHeld t with
    | some r, some q => if q.lp < r.lp then some q else some r
    | some r, none => some r
    | none, q => q

/-- Held KIND 1 records enter the main ring while entries are free (R555). -/
def EvtSt.enterHeld (at_ : Nat) : Nat → EvtSt → EvtSt
  | 0, e => e
  | n + 1, e =>
    match firstHeld e.opens with
    | none => e
    | some r =>
      if e.main.length < 65536 then
        enterHeld at_ n ({ e with opens := openCode r.code none e.opens }.putMain at_ r |>.keepEntered r)
      else e

/-- Due summaries of the open codes enter the main ring in code order while two entries are free. -/
def EvtSt.enterDue (at_ : Nat) (e : EvtSt) : EvtSt :=
  e.opens.foldl
    (fun e c =>
      if c.due && e.main.length + 2 ≤ 65536 then
        let e' := c.records.foldl (fun e r => e.putMain at_ r) e
        { e' with opens := e'.opens.map fun o => if o.code = c.code then { o with count := 0, last := none, due := false } else o }
      else e)
    e

/-- Due summaries of priority-0 codes enter their ring while two entries are free (R558). -/
def EvtSt.enterDueP0 (e : EvtSt) : EvtSt :=
  e.opensP0.foldl
    (fun e c =>
      if e.p0.length + 2 ≤ 4096 then
        let e' := c.records.foldl (fun e r => e.putP0 r) e
        { e' with opensP0 := e'.opensP0.filter fun o => o.code ≠ c.code }
      else e)
    e

/-- Whatever waits for free entries enters its ring (R555, R558). -/
def EvtSt.drain (at_ : Nat) (e : EvtSt) : EvtSt :=
  (((e.enterHeld at_ e.opens.length).enterDue at_)).enterDueP0

/-- An occurrence handled in AVALANCHE (R550, R555). (DEDUCED, log entry 104.) -/
def EvtSt.avalanche (e : EvtSt) (at_ : Nat) (r : EvRec) : EvtSt × Bool :=
  let isOpen := e.opens.any fun c => c.code = r.code
  if r.pri = 1 ∧ e.main.length < 49152 then
    let e := if isOpen then e else { e with opens := openCode r.code none e.opens }
    ((e.keep { r with seq := e.seq } true).putMain at_ r, false)
  else if r.pri ≠ 3 ∧ !isOpen then
    if e.main.length < 65536 ∧ (firstHeld e.opens).isNone then
      (({ e with opens := openCode r.code none e.opens }.keep { r with kind := 1, seq := e.seq } true).putMain at_
        { r with kind := 1 }, false)
    else ({ e with opens := openCode r.code (some { r with kind := 1 }) e.opens }.keep r false, false)
  else
    ({ e with opens := coalesce r false e.opens, coalesced := e.coalesced + 1 }.keep r false, true)

/-- A priority-0 occurrence whose counter has been counted: its record enters the ring, or coalesces when
the ring is full (R556, R558). -/
def State.occurP0 (s : State) (r : EvRec) : State :=
  let s := s.wr SVC_ALERT_P0_PEND 1
  if s.evt.p0.length < 4096 then
    { s with evt := (s.evt.keep { r with seq := s.evt.seqP0 } true).putP0 r }
  else
    let s := { s with evt := { s.evt with opensP0 := coalesce r true s.evt.opensP0 }.keep r false }
    (s.cntAdd (EVT_P0_COALESCED.base) 1).1

/-- Enters AVALANCHE for cause 1 fill or 2 rate, and raises `EVT_AVALANCHE` (R555). (DEDUCED, log entry 104.) -/
def State.enterAvalanche (s : State) (cause : Nat) : State :=
  let s := { s with evt := { s.evt with
    aval := true, opens := [], coalesced := 0, lowSince := max s.evt.lowSince s.now, sumSf := s.now / ticksSf + 1 } }
  ((s.cntAdd EVT_AVALANCHE.base 1).1).occurP0 (s.evRec EVT_AVALANCHE 0 [cause])

/-- Adds an occurrence of priority 2 or 3 to the rate of its 1 ms window (R555); true when the rate
exceeds `EVT_CTL.RATE`. -/
def State.rateStep (s : State) (pri : Nat) : State × Bool :=
  if pri < 2 then (s, false)
  else
    let w := s.now / ticksMs
    let n := (if s.evt.win = w then s.evt.winRate else 0) + 1
    let ovr := decide ((if w < s.evt.rateFrom then s.evt.rateOld else s.rd EVT_CTL_RATE) < n)
    ({ s with evt := { s.evt with
        win := w, winRate := n
        lowSince := if ovr then max s.evt.lowSince ((w + 1) * ticksMs) else s.evt.lowSince } }, ovr)

/-- AVALANCHE is entered when the rate is over or the main ring is filling (R555). -/
def State.watchPath (s : State) (ovr : Bool) : State :=
  if s.evt.aval then s
  else if ovr then s.enterAvalanche 2
  else if 49152 ≤ s.evt.main.length + 1 then s.enterAvalanche 1
  else s

/-- A record of priority 1–3 goes on in NORMAL or in AVALANCHE (R552, R555). -/
def State.occurMain (s : State) (r : EvRec) : State :=
  if s.evt.aval then
    let x := s.evt.avalanche s.now r
    if x.2 then ({ s with evt := x.1 }.cntAdd EVT_COALESCED.base 1).1 else { s with evt := x.1 }
  else { s with evt := (s.evt.keep { r with seq := s.evt.seq } true).putMain s.now r }

/-- An occurrence whose counters have been counted: its record is kept and goes where R549–R558 say. (DEDUCED, log entry 28.) -/
def State.occurRec (s : State) (c : Code) (j : Nat) (args : List Int) : State :=
  let r := s.evRec c j args
  if !(s.evCfg c).2 then { s with evt := s.evt.keep r false }
  else if r.pri = 0 then s.occurP0 r
  else ((s.rateStep r.pri).1.watchPath (s.rateStep r.pri).2).occurMain r

/-- Adds `k` to counter instance `j` of a code, with what sticking and restarting raise (R544, R545). -/
def State.addCnt (s : State) (c : Code) (j k : Nat) : State :=
  let x := c.base + j
  let (s, n) := s.cntAdd x k
  match n with
  | .none => s
  | .stuck => ((s.cntAdd CNT_STICK.base 1).1).occurRec CNT_STICK 0 [x]
  | .restarted => ((s.cntAdd CNT_RESTART.base 1).1).occurRec CNT_RESTART 0 [x]

/-- The records of `k` occurrences of a code at one instance, one for each (R551). -/
def State.occurRecs (c : Code) (j : Nat) : Nat → State → State
  | 0, s => s
  | k + 1, s => State.occurRecs c j k (s.occurRec c j [])

/-- `k` occurrences of a code without ARG words, at instance `j` (R549, R551). -/
def State.count (s : State) (c : Code) (j : Nat := 0) (k : Nat := 1) : State :=
  if k = 0 then s
  else if (s.evCfg c).2 then State.occurRecs c j k (s.addCnt c j k)
  else (s.addCnt c j k).occurRec c j []

/-- One occurrence counted at two instances of a code kept per A and per B (R539). -/
def State.count2 (s : State) (c : Code) (j j' : Nat) : State := ((s.addCnt c j 1).addCnt c j' 1).occurRec c j []

/-- One occurrence of a code, with its ARG words. (DEDUCED, log entry 30.) -/
def State.occur (s : State) (c : Code) (j : Nat := 0) (args : List Int := []) : State :=
  (s.addCnt c j 1).occurRec c j args

end Sys2Proof.Machine
end

