-- ==== Sys2Proof/Machine/Lane.lean ====
section
/-! DEFINITION. Memory instances, and the reads and writes of lane memories (R30, R80, R81, R521, R522). -/

namespace Sys2Proof.Machine

open Ev Reg

/-! ### Memory instances (R30, R540) -/

/-- Local RAM size of a core in words (R30). -/
def localSize (n : Nat) : Nat := if n < 64 then 131072 else if n < 76 then 262144 else 2097152

/-- The core kind: 0 T, 1 K, 2 L, 3 S (R30). -/
def coreKind (n : Nat) : Nat := if n < 64 then 0 else if n < 72 then 1 else if n < 76 then 2 else 3

/-- The power domain of a core (R30). -/
def coreDomain (n : Nat) : Nat := if n < 76 then n else 78

/-- The global address of the first word of a core's local RAM (R88). -/
def localBase (n : Nat) : Nat := 0o2000000000 + n * 0o10000000

/-- The memory instance that holds a global address of the lane memories, or of `FWD`, `QUE`, `CNT`
(R88, R540). -/
def memInstance (a : Nat) : Option Nat :=
  if 0o2000000000 ≤ a then
    let n := (a - 0o2000000000) / 0o10000000
    if n < 77 ∧ (a - 0o2000000000) % 0o10000000 < localSize n then some n else none
  else if 0o100000000 ≤ a ∧ a < 0o200000000 then some 85
  else if 0o200000000 ≤ a ∧ a < 0o400000000 then some (77 + (a - 0o200000000) / 0o20000000)
  else if 0o410000000 ≤ a ∧ a < 0o414000000 then some 88
  else if 0o430000000 ≤ a ∧ a < 0o434000000 then some 86
  else if 0o440000000 ≤ a ∧ a < 0o450000000 then some 87
  else none

/-- The power domain of a memory instance (R30, R89). -/
def instDomain (i : Nat) : Nat :=
  if i < 77 then coreDomain i else if i < 85 then 64 + (i - 77) else 78

/-! ### Reads that meet an error (R521, R522, R529) -/

/-- Puts an address in the Groomer's demand queue: merged when queued, dropped when full (R529). -/
def State.demand (s : State) (a : Nat) (buffer : Bool) (inst : Nat) : State :=
  if s.grm.demand.contains (a, buffer) then s
  else if 16 ≤ s.grm.demand.length then s.count GRM_QDROP inst
  else { s with grm := { s.grm with demand := s.grm.demand ++ [(a, buffer)] } }

/-- Counts `k` uncorrectable lanes of one read against a memory instance; a record is raised at most once
per instance and superframe (R522). -/
def State.countUncorr (s : State) (inst k : Nat) : State :=
  if k = 0 then s
  else
    let sf := s.now / ticksSf
    if s.grm.uncorrSf.any fun e => e.1 = inst && e.2 = sf then s.addCnt MEM_UNCORR inst k
    else
      let s := { s with grm := { s.grm with uncorrSf := (inst, sf) :: s.grm.uncorrSf.filter (·.1 ≠ inst) } }
      (s.addCnt MEM_UNCORR inst k).occurRec MEM_UNCORR inst []

/-- A word of a core's engine state is read, `upset` when one of its lanes is uncorrectable (R516, R522, R524); nothing goes to
the Groomer, which does not scrub it. (DEDUCED, log entry 42.) -/
def State.noteUpset (s : State) (n : Nat) (upset : Bool) : State := if upset then s.countUncorr (102 + n) 1 else s

/-- The counts and queueing of a read of `le` lanes of the stored word `x` at `a` (R521, R522). -/
def State.noteRead (s : State) (a inst : Nat) (x : Stored) (le : Nat) : State :=
  let cs := (lanesOf le).map fun l => (x.lane l).1
  let nc := cs.count .corrected
  let nu := cs.count .uncorrectable
  let s := s.count MEM_CORR inst nc
  let s := s.countUncorr inst nu
  if nc + nu = 0 then s else s.demand a false inst

/-- A read of lanes of a lane-memory word: what it delivers, and the state after it. -/
def State.memRead (s : State) (a le : Nat) : PWord × State :=
  ((s.memAt a).deliver le, s.noteRead a ((memInstance a).getD 0) (s.memAt a) le)

/-- A store of lanes into a lane-memory word (R80, R81). -/
def State.memWrite (s : State) (a le : Nat) (v : PWord) : State := s.setMem a ((s.memAt a).store le v)

/-- The lane memories of the instances `p` names read as zeroed (R83). -/
def State.zeroMem (s : State) (p : Nat → Bool) : State :=
  let q := fun a => match memInstance a with
    | some i => p i
    | none => false
  { s with mem := sdrop q s.mem }

end Sys2Proof.Machine
end

