-- ==== Sys2Proof/Machine/Mem.lean ====
section
/-! DEFINITION. Address maps, access rights and error responses (R85–R93, R99, R100). -/

namespace Sys2Proof.Machine

open Ev Reg

/-- The record of a core. -/
def State.core (s : State) (n : Nat) : CoreSt := sget (fun _ => {}) s.cores n

/-- The state with a core's record replaced. -/
def State.setCore (s : State) (n : Nat) (c : CoreSt) : State := { s with cores := sput (fun _ => {}) s.cores n c }

/-- States of `CORE_STAT.STATE` (R119). -/
def cOff : Nat := 0
def cEmpty : Nat := 1
def cLoading : Nat := 2
def cLoaded : Nat := 3
def cRunning : Nat := 4
def cHalted : Nat := 5
def cFaulted : Nat := 6

/-- A core's state; OFF while its domain is not ON. -/
def State.coreState (s : State) (n : Nat) : Nat :=
  if n < 77 ∧ s.domOn (coreDomain n) then s.rd CORE_STAT_STATE n else cOff

/-- Whether a core runs a reference image (R31). (DEDUCED, log entry 67; DESIGN CHOICE, log entry 89.) -/
def State.refRuns (s : State) (n : Nat) : Bool := s.coreState n = cRunning && (s.core n).ref

/-- The core of the service link and of the other masters that are no core (R100). -/
def extMaster : Nat := 127

/-- The master ID of a core's unit (R100). -/
def masterId (n unit : Nat) : Nat := n * 8 + unit

/-- What an address names. -/
inductive Place
  /-- boot ROM of a core kind -/
  | rom (kind off : Nat)
  /-- a lane-memory word by its global address -/
  | mem (a : Nat)
  /-- word `o` of packet window `w` of core `n` -/
  | win (n w o : Nat)
  /-- a register word, or a word of the counter file -/
  | reg (a : Nat)
  deriving DecidableEq, Repr

/-- How an address fails: an error response with the cause of `MTX_DECERR_SRC`, or an address fault that
no matrix sees. -/
inductive Bad
  | dec (cause : Nat)
  | fault
  deriving DecidableEq, Repr

/-- Whether an address of the register region is assigned (R89, R541). -/
def regAssigned (a : Nat) : Bool :=
  (0o410000000 ≤ a && a < 0o414000000) || (0o444000000 ≤ a && a < 0o450000000) || assigned a

/-- The power domain of a register address (R89). -/
def regDomain (a : Nat) : Nat :=
  if a < 0o401000000 then (a - 0o400000000) / 0o1000 / 8
  else if a < 0o401400000 then (a - 0o401000000) / 0o4000
  else if a < 0o401500000 then 64 + (a - 0o401400000) / 0o10000
  else if a < 0o402000000 then
    let m := (a - 0o401500000) / 0o1000
    if m < 16 then 64 + m / 2 else 78
  else if a < 0o403000000 then 72 + (a - 0o402000000) / 0o100000
  else if a < 0o404000000 then 76
  else if a < 0o404000100 then 78
  else if a < 0o404004000 then 79
  else if 0o420000000 ≤ a ∧ a < 0o430000000 then 77
  else if 0o450030000 ≤ a ∧ a < 0o450040000 then 77
  else if 0o460000000 ≤ a then coreDomain ((a - 0o460000000) / 0o10000)
  else 78

/-- The cluster of a T- or K-core (R30). -/
def coreCluster (n : Nat) : Nat := if n < 64 then n / 8 else n - 64

/-- Loads and stores permitted to the core `n` (127: as the S-core) at an address above the own view (R91). (DEDUCED, log entry 102.) -/
def rights (n a : Nat) : Bool × Bool :=
  let n := if n = extMaster then 76 else n
  let none_ := (false, false)
  let r := (true, false)
  let rw := (true, true)
  let k := coreKind n
  if k = 3 then
    if 0o1000000000 ≤ a then r
    else if 0o410000000 ≤ a ∧ a < 0o414000000 then r
    else if 0o420000000 ≤ a ∧ a < 0o430000000 then rw
    else rw
  else if a < 0o200000000 then if k = 0 then none_ else r
  else if a < 0o400000000 then
    if k ≤ 1 ∧ (a - 0o200000000) / 0o20000000 = coreCluster n then rw else none_
  else if a < 0o401000000 then
    let t := (a - 0o400000000) / 0o1000 / 8
    if (k = 0 ∧ t = n) ∨ (k = 1 ∧ t / 8 = coreCluster n) then rw else none_
  else if a < 0o401400000 then
    let t := (a - 0o401000000) / 0o4000
    if (k = 0 ∧ t = n) ∨ (k = 1 ∧ t / 8 = coreCluster n) then rw else none_
  else if a < 0o402000000 then
    let c := if a < 0o401500000 then (a - 0o401400000) / 0o10000 else (a - 0o401500000) / 0o1000 / 2
    if k ≤ 1 ∧ c = coreCluster n then (true, k = 1) else none_
  else if a < 0o403000000 then
    if k = 2 ∧ (a - 0o402000000) / 0o100000 = n - 72 then rw else none_
  else if (0o404000000 ≤ a ∧ a < 0o404000100) ∨ (0o410000000 ≤ a ∧ a < 0o414000000) then r
  else none_

/-- What an address above the own view names; none when it is reserved (R88, R89). -/
def globalPlace (a : Nat) : Option Place :=
  if a < 0o400000000 then
    match memInstance a with
    | some _ => some (.mem a)
    | none => none
  else if a < 0o1000000000 then if regAssigned a then some (.reg a) else none
  else if a < 0o2000000000 then
    let d := a - 0o1000000000
    if d / 0o40000 < 77 then some (.win (d / 0o40000) (d % 0o40000 / 0o10000) (d % 0o10000)) else none
  else
    match memInstance a with
    | some _ => some (.mem a)
    | none => none

/-- The power domain of a place. -/
def Place.domain : Place → Nat
  | .rom .. => 78
  | .mem a => instDomain ((memInstance a).getD 0)
  | .win n .. => coreDomain n
  | .reg a => regDomain a

/-- Whether a domain answers: ON and not held in reset (R93, R587). -/
def State.answers (s : State) (d : Nat) : Bool := s.domOn d && !(s.pwr.resetting.any fun r => r.1 = d)

/-- Whether an address of a core's local RAM lies in its image region while that is read-only (R118). -/
def State.inImage (s : State) (a : Nat) : Bool :=
  match memInstance a with
  | some n =>
    decide (n < 77) &&
      (let st := s.coreState n
       let o := a - localBase n
       (st = cLoaded || st = cRunning || st = cHalted || st = cFaulted) &&
         decide (s.rd CORE_IMG_BASE n ≤ o) && decide (o < s.rd CORE_IMG_BASE n + s.rd CORE_IMG_LEN n))
  | none => false

/-- What an address of the own view of core `n` names (R86, R87); a slot beyond what it holds is an
address fault. -/
def State.ownPlace (s : State) (n a : Nat) : Except Bad Place :=
  let ram := fun o => if o < localSize n then Except.ok (.mem (localBase n + o)) else Except.error (.dec 0)
  let rom := fun o => if o < 0o40000 then Except.ok (.rom (coreKind n) o) else Except.error (.dec 0)
  let z := s.rdb CORE_CTL_REMAP n
  if a < 0o10000000 then if z then ram a else rom a
  else if a < 0o20000000 then if z then rom (a - 0o10000000) else ram (a - 0o10000000)
  else if a < 0o20010000 then
    let g := 0o460000000 + n * 0o10000 + (a - 0o20000000)
    if regAssigned g then .ok (.reg g) else .error (.dec 0)
  else if 0o30000000 ≤ a ∧ a < 0o30040000 then
    .ok (.win n ((a - 0o30000000) / 0o10000) ((a - 0o30000000) % 0o10000))
  else if 0o40000000 ≤ a ∧ a < 0o60000000 ∧ n < 72 then
    .ok (.mem (0o200000000 + coreCluster n * 0o20000000 + (a - 0o40000000)))
  else .error (.dec 0)

/-- The S-core reports the state of every core, also of one whose domain is off (R31): its own read of `CORE_STAT`, and the
host's, are answered then. (DEDUCED, log entry 21.) -/
def State.reported (s : State) (n a : Nat) (write : Bool) : Bool :=
  !write && decide (n = 76 ∨ n = extMaster) && decide (0o460000000 ≤ a ∧ (a - 0o460000000) % 0o10000 = 1) &&
    !s.domOn (coreDomain ((a - 0o460000000) / 0o10000))

/-- Where an access of core `n` (127: the service link) goes: reserved address first, then rights, then the
target's domain, then the image region (R85–R93, R118). -/
def State.resolve (s : State) (n a : Nat) (write : Bool) : Except Bad Place :=
  if 2 ^ 30 ≤ a then .error .fault
  else
    let found : Except Bad (Place × Bool) :=
      if a < 0o100000000 then
        if n = extMaster then .error (.dec 0)
        else match s.ownPlace n a with
          | .ok p => .ok (p, true)
          | .error e => .error e
      else match globalPlace a with
        | some p => .ok (p, if write then (rights n a).2 else (rights n a).1)
        | none => .error (.dec 0)
    match found with
    | .error e => .error e
    | .ok (p, allowed) =>
      match p with
      | .rom .. => if write then .error (.dec 1) else .ok p
      | _ =>
        if !allowed then .error (.dec 1)
        else if !s.answers p.domain && !s.reported n a write then .error (.dec 2)
        else match p with
          | .mem g => if write && s.inImage g then .error (.dec 3) else .ok p
          | _ => .ok p

/-- The matrix of a core: 0 the module matrix, 1 + k the matrix of cluster k. (DEDUCED, log entry 19.) -/
def matrixOf (n : Nat) : Nat := if n < 72 then 1 + coreCluster n else 0

/-- An error response is counted and recorded at the matrix of the master's port (R93, R111). (DEDUCED, log entries 18 and 19.) -/
def State.decErr (s : State) (n unit a cause : Nat) : State :=
  let x := matrixOf n
  let s := s.count MTX_DECERR x
  if x = 0 then
    ((s.wr MTX_DECERR_ADDR a).wr MTX_DECERR_SRC_CAUSE cause).wr MTX_DECERR_SRC_MASTER (masterId n unit)
  else
    ((s.wr KMTX_DECERR_ADDR a (x - 1)).wr KMTX_DECERR_SRC_CAUSE cause (x - 1)).wr KMTX_DECERR_SRC_MASTER
      (masterId n unit) (x - 1)

/-- The state after an address failed. -/
def State.badAccess (s : State) (n unit a : Nat) : Bad → State
  | .dec cause => s.decErr n unit a cause
  | .fault => s

/-! ### Target ports (R82, R101–R105) -/

/-- Whether a place is the core's own local RAM, which it reaches without the matrix (R107). (DEDUCED, log entry 49.) -/
def ownRam (n : Nat) : Place → Bool
  | .mem a => memInstance a = some n
  | _ => false

/-- The global address of a place (R88). -/
def Place.addr : Place → Nat
  | .mem g | .reg g => g
  | .win n w o => 0o1000000000 + n * 0o40000 + w * 0o10000 + o
  | .rom .. => 0

/-- The target port of a place: a memory instance, the register blocks of a domain, the windows of a core, or none. (DEDUCED, log entry 49.) -/
def Place.port : Place → Nat
  | .mem g => (memInstance g).getD 0
  | .reg g => 128 + regDomain g
  | .win n _ _ => 256 + n
  | .rom .. => 512

/-- The target port of an address. -/
def targetPort (a : Nat) : Nat := ((globalPlace a).map Place.port).getD 512

/-- The matrix that a port sits on: 1 + k for cluster k, else 0. -/
def portMatrix (port : Nat) : Nat :=
  let cluster := fun d => if d < 64 then 1 + d / 8 else if d < 72 then 1 + (d - 64) else 0
  if port < 77 then cluster port
  else if port < 85 then 1 + (port - 77)
  else if port < 128 then 0
  else if port < 256 then cluster (port - 128)
  else if port < 512 then cluster (port - 256)
  else 0

/-- The matrix that a target sits on. -/
def targetMatrix (a : Nat) : Nat := portMatrix (targetPort a)

/-- The lowest master ID that can reach a port, by the rights of R91: the first T-core of a cluster, the core whose
windows, engines or blocks the port holds, the first K-core for the module shared memory. (DEDUCED, log entry 49.) -/
def lowestMaster (port : Nat) : Nat :=
  if port < 77 then masterId port 1
  else if port < 85 then masterId (8 * (port - 77)) 0
  else if port < 128 then masterId 64 0
  else if port < 128 + 64 then masterId (port - 128) 0
  else if port < 128 + 72 then masterId (8 * (port - 192)) 0
  else if port < 128 + 76 then masterId (port - 128) 0
  else if port = 128 + 78 then masterId 0 0
  else if port < 256 then masterId 76 0
  else masterId (port - 256) 0

/-- The master on which an idle port is parked: the one granted last, or after a reset of its matrix the lowest that can
reach it (R104). -/
def State.parked (s : State) (port : Nat) : Nat :=
  match sget (fun _ => 0) s.mtxLast port with
  | 0 => lowestMaster port
  | k + 1 => k

/-- A matrix is reset with its domain: its ports park as after R104, and its round-robin pointers start again. -/
def State.resetMatrix (s : State) (x : Nat) : State := { s with mtxLast := sdrop (fun p => portMatrix p = x) s.mtxLast }

/-- Whether an earlier request of the same ordering domain waits for its response (R101). -/
def State.domainBusy (s : State) (n : Nat) (g : Agent) : Bool :=
  s.mtx.any fun r => r.core = n && r.by_ = g && r.stage ≠ .served

/-- The 32 aligned words beyond which a burst does not go (R99). -/
def burstOf (a : Nat) : Nat := a / 32

/-- Whether the port of a place holds another request that has been admitted and not answered: it is granted first, or
the port decides between the two (R82, R103, R105).  The burst that the port serves has it to its end, and the next one
of the same master comes with the others (R99, R103).  A core reaches its own local RAM by a port of its own (R107). -/
def State.portBusy (s : State) (n : Nat) (g : Agent) (p : Place) : Bool :=
  let here := s.mtx.filter fun r => targetPort r.addr = p.port
  !(g = .core && ownRam n p) &&
    !(here.any fun r => r.core = n && r.by_ = g && r.stage = .served && burstOf r.addr = burstOf p.addr) &&
    here.any fun r => r.stage = .admitted || r.stage = .granted

/-- The row of a lane-memory address: 64 aligned words (R530). -/
def rowOf (a : Nat) : Nat := a / 64 * 64

/-- Whether the row of a lane-memory address is being moved to a spare (R531). -/
def State.rowMoves (s : State) (a : Nat) : Bool := s.grm.copies.any fun c => !c.buffer && c.row = rowOf a

/-- Whether an access to a place is held back now: its memory is being zeroed (R83), its row is being moved
(R531), or its window's open is pending (R95). -/
def State.heldBack (s : State) : Place → Bool
  | .rom .. => false
  | .mem a =>
    s.zeroing.contains ((memInstance a).getD 0) || s.rowMoves a
  | .win n w _ => (s.core n).winPend.contains w
  | .reg a =>
    match memInstance a with
    | some i => s.zeroing.contains i || s.rowMoves a
    | none => false

end Sys2Proof.Machine
end

