-- ==== Sys2Proof/Machine/Tick.lean ====
section
/-! DEFINITION. The passing of time: one tick of the timebase and of the calendar crystal (R37, R69). -/

namespace Sys2Proof.Machine

open Reg

/-- The calendar as a count of 1/32,768 s (R69). -/
def State.calendar (s : State) : Nat := (s.rd RTC_SEC_A * 4096 + s.rd RTC_SEC_B_SEC) * 32768 + s.rd RTC_SEC_B_FRAC

/-- The calendar set to a count of 1/32,768 s; 48 bits of seconds. -/
def State.setCalendar (s : State) (c : Nat) : State :=
  ((s.wr RTC_SEC_A (c / 32768 / 4096)).wr RTC_SEC_B_SEC (c / 32768 % 4096)).wr RTC_SEC_B_FRAC (c % 32768)

/-- One tick of 250 ps: LP advances by one tick while the supervisor and management domain is ON (R37),
and the 32.768 kHz crystal, which runs in every mode, by its share, 32,768 counts to 4,000,000,000 ticks
(R69).  A crystal that has failed gives no counts. (DESIGN CHOICE, log entry 1; DEDUCED, log entries 33 and 36.) -/
def State.tick (s : State) : State :=
  let s := if s.up then { s with now := s.now + 1 } else s
  let c := s.calAcc + 32768
  if c < ticksSec then { s with calAcc := c }
  else
    let s := { s with calAcc := c - ticksSec }
    if s.rdb RTC_STAT_XTAL_FAIL then s
    else { s with calCnt := s.calCnt + 1 }.setCalendar (s.calendar + 1)

end Sys2Proof.Machine
end

