-- ==== Sys2Proof/Machine/Timebase.lean ====
section
/-! DEFINITION. Line position, network time, the servo, the time inputs and outputs and the calendar
(spec/02). -/

namespace Sys2Proof.Machine

open Ev Reg

/-! ### Network time (R40–R42) -/

/-- One nanosecond and one second of network time, in units of 2^-16 ns; a tick is `ntTick` of them. -/
def ntNs : Int := 65536
def ntSec : Int := 65536000000000
def ntTick : Int := 16384

/-- T(LP) of a tick count (R40). -/
def tOfLp (t : Nat) : Int := t * ntTick

/-- Network time of a tick count under the mapping offset in force (R40). -/
def State.ntAt (s : State) (t : Nat) : Int := s.time.offset + tOfLp t

/-- The three words of a network time value (R41); reserved bits zero. -/
def ntWords (z : Int) : List Nat :=
  let sec := (z / ntSec).toNat
  let ns := (z % ntSec / ntNs).toNat
  let fr := (z % ntNs).toNat
  [sec / 4096 % 2 ^ 36, sec % 4096 * 2 ^ 24 + ns / 64, ns % 64 * 2 ^ 30 + fr * 2 ^ 14]

/-- The seconds, nanoseconds and fraction of three network time words (R41). -/
def ntParts (a b c : Nat) : Nat × Nat × Nat :=
  (a * 4096 + bitsOf b 35 24, bitsOf b 23 0 * 64 + bitsOf c 35 30, bitsOf c 29 14)

/-- The value of three network time words; none when the nanoseconds are out of range (R42). -/
def ntOfWords (a b c : Nat) : Option Int :=
  let (sec, ns, fr) := ntParts a b c
  if 999999999 < ns then none else some (sec * ntSec + ns * ntNs + fr)

/-! ### The servo (R43–R53, R627) -/

/-- The states of `TIME_STAT.STATE`. -/
def stFree : Nat := 0
def stAcquire : Nat := 1
def stLocked : Nat := 2
def stHoldover : Nat := 3

/-- LOCK_THR and JUMP_THR in 2^-16 ns (R46). -/
def State.lockThr (s : State) : Int := s.rd TIME_SERVO_LOCK_THR * 4 * ntNs
def State.jumpThr (s : State) : Int := s.rd TIME_SERVO_JUMP_THR * 125 * ntNs

/-- The largest `TIME_RATE` magnitude, RATE_MAX in units of 2^-50 (R47). -/
def State.rateMax (s : State) : Int := s.rd TIME_SERVO_RATE_MAX * 2 ^ 50 / 2000000

/-- The largest change of `TIME_RATE` over `t` ticks, from SLEW (R47). -/
def State.slewMax (s : State) (t : Nat) : Int := s.rd TIME_SERVO_SLEW * 2 ^ 50 * t / (50000000 * ticksSec)

/-- The rates in force during the last second, the present one included (R47). -/
def State.lastRates (s : State) : List Int :=
  s.rdi TIME_RATE :: ((s.time.lately.filter fun e => decide (s.now < e.1 + ticksSec)).map (·.2))

/-- The bounds that SLEW sets: the rate changes by no more than SLEW against any rate of the last second (R47). -/
def State.slewLo (s : State) : Int := s.lastRates.foldl (fun m r => max m (r - s.slewMax ticksSec)) (s.rdi TIME_RATE - s.slewMax ticksSec)
def State.slewHi (s : State) : Int := s.lastRates.foldl (fun m r => min m (r + s.slewMax ticksSec)) (s.rdi TIME_RATE + s.slewMax ticksSec)

/-- The rate at which an error that grew by `d` over `t` ticks stays as it is: LP then keeps pace with the reference. (DEDUCED, log entry 32.) -/
def steadyRate (rate d : Int) (t : Nat) : Int := if t = 0 then rate else rate + d * 2 ^ 50 / (t * ntTick)

/-- The history of the time spent LOCKED, cut to its newest 64 s (R50). -/
def cutRates : Nat → List (Nat × Int) → List (Nat × Int)
  | _, [] => []
  | left, (d, r) :: t =>
    if left = 0 then [] else if left ≤ d then [(left, r)] else (d, r) :: cutRates (left - d) t

/-- The rate in force since the last segment joins the history while LOCKED (R50). (DESIGN CHOICE, log entry 32.) -/
def State.noteRate (s : State) : State :=
  if s.rd TIME_STAT_STATE = stLocked then
    { s with time := { s.time with
        rates := cutRates (64 * ticksSec) ((s.now - s.time.segAt, s.rdi TIME_RATE) :: s.time.rates)
        segAt := s.now } }
  else s

/-- The frozen rate of R50: the mean over the last 64 s spent LOCKED, rounded down to a unit of 2^-50; the spec gives no
rounding. (DESIGN CHOICE, log entry 32.) -/
def frozenRate (l : List (Nat × Int)) (present : Int) : Int :=
  let d := (l.map (·.1)).sum
  if d = 0 then present else (l.map fun e => (e.1 : Int) * e.2).sum / d

/-- A value between `a` and `b` that the spec leaves open. -/
def State.openBetween (s : State) (a b : Int) : Int := min a b + (s.open_ % ((b - a).natAbs + 1) : Nat)

/-- The rate that the servo goes for with error `e`: an open one on the side of the steady rate on which `e` is removed,
the steady rate itself when there is none; in ACQUIRE, toward zero drift, one between the present rate and the steady
one (R47, R49). (DESIGN CHOICE, log entry 32.) -/
def State.targetRate (s : State) (e : Int) (drift : Bool) : Int :=
  let (t, e0) := s.time.lastErr.getD (s.now, e)
  let steady := clampInt (-s.rateMax) s.rateMax (steadyRate (s.rdi TIME_RATE) (e - e0) (s.now - t))
  if drift then s.openBetween (s.rdi TIME_RATE) steady
  else if 0 < e then s.openBetween steady s.rateMax
  else if e < 0 then s.openBetween (-s.rateMax) steady
  else steady

/-- The rate becomes `r`; the former one has been in force until now (R47). -/
def State.setRate (s : State) (r : Int) : State :=
  let s' := s.wri TIME_RATE r
  { s' with time := { s'.time with
      lately := (s.now, s.rdi TIME_RATE) :: s.time.lately.filter fun x => decide (s.now < x.1 + ticksSec) } }

/-- A rate brought within RATE_MAX and then within SLEW of every rate of the last second.  Where no rate is, the step to a
frozen rate having been larger, the present one stays. (DESIGN CHOICE, log entry 32.) -/
def State.slewed (s : State) (r : Int) : Int :=
  if s.slewLo ≤ s.slewHi then clampInt s.slewLo s.slewHi (clampInt (-s.rateMax) s.rateMax r) else s.rdi TIME_RATE

/-- A measurement with error `e` is applied: the rate moves toward removing it (`drift`: toward zero drift of it), within
RATE_MAX and SLEW (R47, R49). Where a write has lowered RATE_MAX below the present rate, the bound of SLEW wins: the rate
comes back within RATE_MAX as fast as SLEW lets it; the spec gives no order of the two. (DESIGN CHOICE, log entry 32.) -/
def State.applyRate (s : State) (e : Int) (drift : Bool) : State :=
  let s := s.noteRate
  let s' := (s.setRate (s.slewed (s.targetRate e drift))).used
  { s' with time := { s'.time with lastErr := some (s.now, e) } }

/-- HOLDOVER is entered: the rate freezes (R50) and counting begins afresh. -/
def State.toHoldover (s : State) : State :=
  let s := s.noteRate
  let s := s.setRate (frozenRate s.time.rates (s.rdi TIME_RATE))
  { s with time := { s.time with consec := 0, lastErr := none } }.wr TIME_STAT_STATE stHoldover

/-- The counts of HOLDOVER and the outlier run are discarded (R51, R627). -/
def State.dropCounts (s : State) : State := { s with time := { s.time with consec := 0, runLen := 0, runSum := 0 } }

/-- LOCKED is entered: `TIME_LOCK` is raised and the counts are discarded. (DEDUCED, log entry 35.) -/
def State.toLocked (s : State) : State :=
  ({ s with time := { s.time with consec := 0, runLen := 0, runSum := 0, segAt := s.now } }.wr TIME_STAT_STATE
    stLocked).occur TIME_LOCK

/-- FREE is left once REF_OK, OCXO_WARM and EN are all 1 (R49). -/
def State.tryAcquire (s : State) : State :=
  if s.rd TIME_STAT_STATE = stFree ∧ s.rdb TIME_STAT_REF_OK ∧ s.rdb TIME_STAT_OCXO_WARM ∧ s.rdb TIME_CTL_EN then
    { s with time := { s.time with acqCount := 0 } }.wr TIME_STAT_STATE stAcquire
  else s

/-- A phase error in whole nanoseconds, rounded to the nearest, saturating (R76); half way between two it goes up, which
the spec leaves open. (DESIGN CHOICE, log entry 35.) -/
def eArg (e : Int) : Int := clampInt (-(2 ^ 35 - 1)) (2 ^ 35 - 1) ((e + ntNs / 2) / ntNs)

/-- An outlier extends the run of its sign or starts a new one (R49). -/
def State.extendRun (s : State) (e : Int) : State :=
  let neg := decide (e < 0)
  let t := s.time
  let t := if t.runLen ≠ 0 ∧ t.runNeg = neg then { t with runLen := t.runLen + 1, runSum := t.runSum + e }
    else { t with runNeg := neg, runLen := 1, runSum := e }
  { s with time := t }

/-- The mean of the outlier run; its rounding to 2^-16 ns is open. (DEDUCED, log entry 35.) -/
def State.runMean (s : State) : Int :=
  s.time.runSum / s.time.runLen +
    (if s.time.runSum % s.time.runLen = 0 then 0 else (s.open_ % 2 : Nat))

/-- An outlier run reached JUMP_CNT: JUMP is set and `TIME_JUMP` raised (R49); with a re-step pending JUMP
is set again after it (R56). (DEDUCED, log entry 35.) -/
def State.declareJump (s : State) (e : Int) : State :=
  let m := s.runMean
  let sign : Int := if s.time.runNeg then -1 else 1
  let s := { s.used with time := { s.time with
    jumpMean := m, runLen := 0, runSum := 0, consec := 0
    restep := s.time.restep.map fun (r : Restep) => { r with jumpAfter := true } } }
  (s.wr TIME_STAT_JUMP 1).occur TIME_JUMP 0 [sign, eArg e]

/-- A measurement in ACQUIRE with provisional offset `p ≥ 0` (R49, R627). -/
def State.measureAcquire (s : State) (p : Int) : State :=
  let t := s.time
  let inside := t.acqCount ≠ 0 ∧ |p - t.acqFirst| ≤ s.lockThr
  let s := if inside then
      { s with time := { t with acqCount := t.acqCount + 1, acqLast := p } }.applyRate p true
    else { s with time := { t with acqCount := 1, acqFirst := p, acqLast := p, lastErr := some (s.now, p) } }
  if s.rd TIME_SERVO_LOCK_CNT ≤ s.time.acqCount then
    ({ s with time := { s.time with offset := p.toNat, lastErr := none } }.wr TIME_STAT_STEPPED 1).toLocked
  else s

/-- A measurement while LOCKED (R49). -/
def State.measureLocked (s : State) (e : Int) (outlier : Bool) : State :=
  if outlier then
    let s := (s.count TIME_OUTLIER).extendRun e
    if s.rd TIME_SERVO_JUMP_CNT ≤ s.time.runLen then (s.toHoldover).declareJump e else s
  else { s.applyRate e false with time := { (s.applyRate e false).time with runLen := 0, runSum := 0 } }

/-- A measurement judged in HOLDOVER (R49, R627). -/
def State.measureHoldover (s : State) (e : Int) (outlier outside : Bool) : State :=
  let s := if outlier then s.count TIME_OUTLIER else s
  let good := if s.rdb TIME_STAT_JUMP then !outside && decide (|e| ≤ s.lockThr) else !outlier
  if good then
    let s := { s with time := { s.time with consec := s.time.consec + 1, runLen := 0, runSum := 0 } }
    if s.rd TIME_SERVO_LOCK_CNT ≤ s.time.consec then
      let s := { s with time := { s.time with restep := s.time.restep.map fun (r : Restep) => { r with jumpAfter := false } } }
      ((s.wr TIME_STAT_JUMP 0).applyRate e false).toLocked
    else s
  else
    let s := { s with time := { s.time with consec := 0 } }
    if s.rdb TIME_STAT_JUMP then s
    else
      let s := s.extendRun e
      if s.rd TIME_SERVO_JUMP_CNT ≤ s.time.runLen then s.declareJump e else s

/-- A measurement with phase error `e`, provisional offset `p`, and whether its edge lay outside the
window (R44–R46, R49). -/
def State.measure (s : State) (e p : Int) (outside : Bool) : State :=
  let s := { s with time := { s.time with lastMeas := some s.now } }
  if !s.rdb TIME_STAT_REF_OK then s
  else
    let outlier := outside || decide (s.jumpThr < |e|)
    if s.rd TIME_STAT_STATE = stFree then if p < 0 then s.count TIME_OUTLIER else s
    else if s.rd TIME_STAT_STATE = stAcquire then
      if p < 0 then s.count TIME_OUTLIER else s.measureAcquire p
    else if s.rd TIME_STAT_STATE = stLocked then s.measureLocked e outlier
    else if s.rdb TIME_CTL_EN && s.rd TIME_CTL_SRC ≠ 0 then s.measureHoldover e outlier outside
    else s

/-- PTP_SYNC_RECEIVED (R43, R44, R49): the reference's network time at the Sync's receive instant. -/
def execPtpSyncReceived (ntRef : Int) (s : State) : Host.Outcome State Fault Refusal :=
  .next (if s.up && (s.rd TIME_CTL_SRC = 1 || s.rd TIME_CTL_SRC = 2) then
      s.measure (ntRef - s.ntAt s.now) (ntRef - tOfLp s.now) false
    else s)

/-- PTP_ANNOUNCE_RECEIVED (R44). -/
def execPtpAnnounceReceived (s : State) : Host.Outcome State Fault Refusal :=
  .next (if s.up then { s with time := { s.time with annOk := true } } else s)

/-- The nearest whole second to a network time. -/
def nearestSec (z : Int) : Int := (z + ntSec / 2) / ntSec

/-- A taken edge of the 1PPS input whose instant is tick `at_` (may precede LP's start) (R45). -/
def State.ppsTaken (s : State) (at_ : Int) : State :=
  let nt := (s.time.offset : Int) + at_ * ntTick
  let window : Int := if s.rdb TIME_STAT_STEPPED then 1000 * ntNs else ntSec / 2
  let accepted := decide (|nt - nearestSec nt * ntSec| ≤ window)
  let s := { s with time := { s.time with
    lastTaken := some s.now
    lastAcc := if accepted then some s.now else s.time.lastAcc } }
  match s.time.todNext with
  | none => s
  | some sec =>
    let s := if s.rd TIME_CTL_SRC = 3 || s.rd TIME_CTL_SRC = 4 then
        s.measure (sec * ntSec - nt) (sec * ntSec - at_ * ntTick) (!accepted)
      else s
    { s with time := { s.time with todNext := some ((sec + 1) % 2 ^ 48) } }

/-- PPS_INPUT_EDGE (R45): an edge sooner than 0.5 s after the previous taken one is ignored. -/
def execPpsInputEdge (s : State) : Host.Outcome State Fault Refusal :=
  .next (
    let soon := match s.time.lastTaken with
      | some t => decide (s.now < t + ticksSec / 2)
      | none => false
    if s.up && !soon then s.ppsTaken (s.now - s.rd TIME_PPS_IN_DELAY) else s)

/-- Whether a tick lies within the last `d` ticks. -/
def State.within (s : State) (t : Option Nat) (d : Nat) : Bool :=
  match t with
  | some t => decide (s.now ≤ t + d)
  | none => false

/-- Whether the named condition of R44 fails now; the Announce timeout and the 10 MHz frequency are
reported by the cause itself. -/
def State.refFails (s : State) : RefCause → Bool
  | .noMeasurement => s.rd TIME_CTL_SRC = 0 || !s.within s.time.lastMeas (4 * ticksSec)
  | .announce => s.rd TIME_CTL_SRC = 1 || s.rd TIME_CTL_SRC = 2
  | .tenMHz => s.rd TIME_CTL_SRC = 2 || s.rd TIME_CTL_SRC = 3
  | .noEdge => (s.rd TIME_CTL_SRC = 3 || s.rd TIME_CTL_SRC = 4) &&
      (!s.within s.time.lastAcc (2 * ticksSec) || s.time.todNext.isNone)

/-- REF_OK falls, with the transitions of R49 and R627. -/
def State.refLost (s : State) : State :=
  let s := s.wr TIME_STAT_REF_OK 0
  if s.rd TIME_STAT_STATE = stAcquire then
    { s with time := { s.time with acqCount := 0 } }.wr TIME_STAT_STATE stFree
  else if s.rd TIME_STAT_STATE = stLocked then (s.dropCounts.toHoldover).occur TIME_HOLDOVER
  else s.dropCounts

/-- REF_QUALIFY_LOSS (R44). (DEDUCED, log entry 34.) -/
def execRefQualifyLoss (cause : RefCause) (s : State) : Host.Outcome State Fault Refusal :=
  .next (
    let s := match cause with
      | .announce => { s with time := { s.time with annOk := false } }
      | .tenMHz => { s with time := { s.time with tenOk := false } }
      | _ => s
    if s.up && s.rdb TIME_STAT_REF_OK && s.refFails cause then s.refLost else s)

/-- Whether every condition of R44 holds. A measurement or an Announce that the former PTP_PORT received still counts
after a write of PTP_PORT. (DEDUCED, log entry 34.) -/
def State.refHolds (s : State) : Bool :=
  let src := s.rd TIME_CTL_SRC
  src ≠ 0 && s.within s.time.lastMeas (4 * ticksSec) &&
    (!(src = 1 || src = 2) || s.time.annOk) && (!(src = 2 || src = 3) || s.time.tenOk) &&
    (!(src = 3 || src = 4) || (s.within s.time.lastAcc (2 * ticksSec) && s.time.todNext.isSome))

/-- REF_QUALIFY_GAIN (R44): `tenMHz` tells whether the 10 MHz input is within ±2 ppm. (DEDUCED, log entry 34.) -/
def execRefQualifyGain (tenMHz : Bool) (s : State) : Host.Outcome State Fault Refusal :=
  .next (
    let s := { s with time := { s.time with tenOk := tenMHz } }
    if s.up && !s.rdb TIME_STAT_REF_OK && s.refHolds then (s.wr TIME_STAT_REF_OK 1).tryAcquire else s)

/-- OCXO_WARM (R49): no sooner than 120 s after power-up. -/
def execOcxoWarm (s : State) : Host.Outcome State Fault Refusal :=
  .next (if s.up && decide (120 * ticksSec ≤ s.now) && !s.rdb TIME_STAT_OCXO_WARM then
      (s.wr TIME_STAT_OCXO_WARM 1).tryAcquire
    else s)

/-- What a write of `TIME_CTL` brings about beside its fields: EN and SRC transitions of R49, and the
counts of R51 and R627; `src` and `en` are the values before the write.  An outlier run goes on over a change of source in
LOCKED. (DEDUCED, log entries 34 and 35.) -/
def State.wroteTimeCtl (s : State) (src : Nat) (en : Bool) : State :=
  let st := s.rd TIME_STAT_STATE
  let enOff := en && !s.rdb TIME_CTL_EN
  let srcOff := src ≠ 0 && s.rd TIME_CTL_SRC = 0
  let srcNew := s.rd TIME_CTL_SRC ≠ src && s.rd TIME_CTL_SRC ≠ 0
  if st = stAcquire then
    if enOff then { s with time := { s.time with acqCount := 0 } }.wr TIME_STAT_STATE stFree
    else if srcNew || srcOff then { s with time := { s.time with acqCount := 0 } }
    else s
  else if st = stLocked then
    if enOff || srcOff then (s.dropCounts.toHoldover).occur TIME_HOLDOVER
    else if srcNew then { s with time := { s.time with lastErr := none } }
    else s
  else if st = stHoldover then if enOff || srcOff || srcNew then s.dropCounts else s
  else s.tryAcquire

/-- Whether a `TIME_SERVO` word satisfies R75. -/
def timeServoOk (w : Word) : Bool := decide (w.bits 35 27 * 4 < w.bits 26 18 * 125)

/-! ### Re-step (R54–R57) -/

/-- The next superframe boundary at least 8 access frames after now (R56). -/
def State.restepSf (s : State) : Nat := ceilDiv (s.now + 8 * ticksFr) ticksSf

/-- RESTEP_TAKES_EFFECT (R49, R56). -/
def execRestepTakesEffect (s : State) : Host.Outcome State Fault Refusal :=
  .next (
    match s.time.restep with
    | none => s
    | some r =>
      if s.up && decide (r.sf * ticksSf ≤ s.now) then
        let s := if s.rd TIME_STAT_STATE = stLocked then s.toHoldover else s
        let s := { s with time := { s.time with offset := r.offset.toNat, consec := 0, restep := none } }
        let b := r.sf * ticksSf
        (s.wr TIME_STAT_JUMP (b2n r.jumpAfter)).occur TIME_RESTEP_DONE 0 [lpA b, lpB b]
      else s)

/-! ### The 1PPS output (R66) -/

/-- The whole seconds of the timebase of the output's edges elapsed at a tick: network time while LOCKED
or in HOLDOVER, T(LP) otherwise. -/
def State.ppsSecond (s : State) (t : Int) : Int :=
  if s.rd TIME_STAT_STATE = stLocked ∨ s.rd TIME_STAT_STATE = stHoldover then
    ((s.time.offset : Int) + t * ntTick) / ntSec
  else t * ntTick / ntSec

/-- PPS_OUTPUT_EDGE (R57, R66). (DEDUCED, log entry 38.) -/
def execPpsOutputEdge (s : State) : Host.Outcome State Fault Refusal :=
  .next (
    let st := s.rd TIME_STAT_STATE
    let runs := st = stLocked || st = stHoldover || s.rdb TIME_CTL_PPS_FREE
    let boundary := decide (s.ppsSecond (s.now - 1) < s.ppsSecond s.now)
    let soon := match s.time.ppsRise with
      | some t => decide (s.now < t + ticksSec / 2)
      | none => false
    if s.up && runs && boundary && !soon then
      { s with time := { s.time with ppsOut := true, ppsRise := some s.now } }
    else s)

/-- PPS_OUTPUT_WIDTH_END (R66): a pulse that has begun ends with its width, also where PPS_FREE was cleared in it. (DEDUCED, log entry 38.) -/
def execPpsOutputWidthEnd (s : State) : Host.Outcome State Fault Refusal :=
  .next (
    match s.time.ppsRise with
    | none => s
    | some t =>
      if s.time.ppsOut && decide (t + s.rd TIME_PPS_PPS_WIDTH * ticksUs ≤ s.now) then
        { s with time := { s.time with ppsOut := false } }
      else s)

/-- Whether the 10 MHz output rises at this tick: each tenth of a microsecond of the timebase of the 1PPS output, in every
mode but BACKUP (R65). -/
def State.tenMhzRises (s : State) : Bool :=
  let z : Int := if s.rd TIME_STAT_STATE = stLocked ∨ s.rd TIME_STAT_STATE = stHoldover then s.time.offset else 0
  let k := fun (t : Int) => (z + t * ntTick) / (100 * ntNs)
  s.up && decide (k ((s.now : Int) - 1) < k s.now)

/-! ### The calendar (R69–R72) -/

/-- The calendar as the words of `RTC_SEC_A` and `RTC_SEC_B`. -/
def calWords (c : Nat) : List Int :=
  [((c / 32768 / 4096 : Nat) : Int), ((c / 32768 % 4096 * 2 ^ 24 + c % 32768 * 2 ^ 9 : Nat) : Int)]

/-- The calendar is set to whole seconds; `RTC_STEP` is logged and INVALID cleared when the step exceeds
1 s or INVALID was 1 (R70, R71). -/
def State.stepCalendar (s : State) (sec : Nat) : State :=
  let old := s.calendar
  let new := sec * 32768
  let big := decide (32768 < (if old < new then new - old else old - new)) || s.rdb RTC_STAT_INVALID
  let s := s.setCalendar new
  if big then (s.wr RTC_STAT_INVALID 0).occur RTC_STEP 0 (calWords old ++ calWords new) else s

/-- RTC_SYNC (R70). (DEDUCED, log entry 38.) -/
def execRtcSync (s : State) : Host.Outcome State Fault Refusal :=
  .next (
    let sec := (s.ntAt s.now / ntSec % 2 ^ 48).toNat
    let new := sec * 32768
    let boundary := decide (s.ntAt s.now - ntTick < s.ntAt s.now / ntSec * ntSec)
    let differs := decide (1 < (if s.calendar < new then new - s.calendar else s.calendar - new))
    if s.up && s.rdb RTC_CTL_SYNC && s.rd TIME_STAT_STATE = stLocked && boundary && differs then s.stepCalendar sec
    else s)

/-- RTC_TRIM (R72): every 32 s, that is 2^20 crystal counts, TRIM counts are added or dropped. -/
def execRtcTrim (s : State) : Host.Outcome State Fault Refusal :=
  .next (
    if 2 ^ 20 ≤ s.calCnt then
      { s with calCnt := s.calCnt - 2 ^ 20 }.setCalendar
        ((s.calendar : Int) + s.rdi RTC_CTL_TRIM).toNat
    else s)

/-- RTC_XTAL_FAIL (R73). (DEDUCED, log entry 36.) -/
def execRtcXtalFail (s : State) : Host.Outcome State Fault Refusal := .next (s.wr RTC_STAT_XTAL_FAIL 1)

/-! ### Timestamps and the two-step queue (R60–R64) -/

/-- The transmit stamp of a capture now on port `p` (R60). (DESIGN CHOICE, log entry 37.) -/
def State.txStamp (s : State) (p : Nat) : Int :=
  s.ntAt s.now + ((s.rd PORT_TSC_TX_CORR p : Int) + s.rdi PORT_TSU_TX_USER p) * ntTick

/-- The receive stamp of a capture now on port `p` (R60). -/
def State.rxStamp (s : State) (p : Nat) : Int :=
  s.ntAt s.now - ((s.rd PORT_TSC_RX_CORR p : Int) + s.rdi PORT_TSU_RX_USER p) * ntTick

/-- A marked message leaves port `p`: one entry, or a count when the queue is full (R63). -/
def State.stampTwoStep (s : State) (p : Nat) (msg : TwoStepMsg) : State :=
  if 64 ≤ s.time.tsq.length then s.count TIME_TSQ_DROP
  else { s with time := { s.time with tsq := s.time.tsq ++ [⟨p, msg, s.txStamp p, s.clock⟩] } }

/-- TWO_STEP_STAMP (R63): the oldest marked message taken for sending at the port leaves it, whether or not the port
stamps of itself (`PORT_PTP.EN`). (DEDUCED, log entry 38.) -/
def execTwoStepStamp (port : Fin 16) (s : State) : Host.Outcome State Fault Refusal :=
  .next (
    match s.traf.marks.find? fun m => m.1 = port.val with
    | none => s
    | some m =>
      if s.up then
        { s with traf := { s.traf with marks := s.traf.marks.erase m } }.stampTwoStep port m.2
      else s)

/-- `n` marked messages are discarded before they leave their ports (R63). -/
def State.notSent (s : State) (n : Nat) : State := s.count TIME_TSQ_NOTX 0 n

/-- Word E0 of an entry (R64). -/
def tsqE0 (e : TsqEntry) : Nat :=
  e.msg.seqId.toNat * 2 ^ 20 + e.msg.msgType.toNat * 2 ^ 16 + e.port * 2 ^ 12 + e.msg.domain.toNat * 2 ^ 4 + 1

/-- Removes the oldest two-step entry: its E0 word and the words E1–E3 to latch; zeros when the queue is empty but for what
was written in the clock of the read (R64). -/
def State.tsqPop (s : State) : List Nat × State :=
  match s.time.tsq with
  | [] => ([0, 0, 0, 0], s)
  | e :: t =>
    if e.clk = s.clock then ([0, 0, 0, 0], s)
    else (tsqE0 e :: ntWords e.stamp, { s with time := { s.time with tsq := t } })

end Sys2Proof.Machine
end

