-- ==== Sys2Proof/Machine/KeyUse.lean ====
section
/-! DEFINITION. Use of the keys of Edelweiss by pipelines and engines: generations, invocations and limits
(R456–R459), and the accepted counters of R285 and R473. -/

namespace Sys2Proof.Machine

open Ev Reg

/-- The name of a key: slot of a page, or a terminal's entry (R456). -/
inductive KeyRef
  | slot (page slot : Nat)
  | term (i : Nat)
  deriving DecidableEq, Repr

/-- The limit L of a key's class per generation (R457). -/
def KeyRef.limit : KeyRef → Option Nat
  | .term _ => some (2 ^ 40)
  | .slot _ k =>
    if 16 ≤ k ∧ k < 20 then some (2 ^ 40)
    else if 128 ≤ k ∧ k < 192 then some (2 ^ 36)
    else if 192 ≤ k then some (2 ^ 48)
    else none

/-- The key held under a name. -/
def State.keyOf (s : State) : KeyRef → Option KeySlot
  | .slot p k => sget (fun _ => none) s.edw.keys (256 * p + k)
  | .term i => sget (fun _ => none) s.edw.trk i

/-- The key a pipeline or engine can use under a name: none while the error state is in force (R447). -/
def State.liveKey (s : State) (r : KeyRef) : Option KeySlot := if s.rdb EDW_STAT_ERROR then none else s.keyOf r

/-- A self-test has failed: the error state, with its code (R447). -/
def State.selfTestFail (s : State) (code : Nat) : State :=
  (((s.wr EDW_STAT_ERROR 1).wr EDW_STAT_ECODE code).wr EDW_STAT_APPROVED 0).occur EDW_SELFTEST_FAIL

/-- The CAST that the pipeline and engine instances of a domain run as it powers up (R446): a failure enters the error state,
once the power-up tests have ended. (DESIGN CHOICE, log entry 139.) -/
def State.instanceCast (s : State) (fails : Bool) : State :=
  if !fails then s
  else if !s.edw.tested then { s with edw := { s.edw with castFail := true } }
  else if s.rdb EDW_STAT_ERROR then s
  else s.selfTestFail 11

/-- The state with a key set. -/
def State.setKey (s : State) (r : KeyRef) (k : Option KeySlot) : State :=
  match r with
  | .slot p n => { s with edw := { s.edw with keys := sput (fun _ => none) s.edw.keys (256 * p + n) k } }
  | .term i => { s with edw := { s.edw with trk := sput (fun _ => none) s.edw.trk i k } }

/-- A generation of a key. -/
def KeySlot.gen (k : KeySlot) (g : Bool) : Option KeyGen := if g then k.g1 else k.g0

/-- The key with a generation set. -/
def KeySlot.setGen (k : KeySlot) (g : Bool) (x : Option KeyGen) : KeySlot :=
  if g then { k with g1 := x } else { k with g0 := x }

/-- What an invocation meets: no such generation, the limit, or its counter value and the generation. -/
inductive Invoke
  | absent
  | refused
  | used (ctr : Nat) (gen : KeyGen)
  deriving DecidableEq, Repr

/-- One invocation of a generation (R458): it uses U + 1; `EDW_KEY_HIGH` and `EDW_KEY_LIMIT` are raised once
each, against the page that holds the key. -/
def State.invoke (s : State) (r : KeyRef) (page : Nat) (g : Bool) : Invoke × State :=
  match (s.liveKey r).bind fun k => (k.gen g).map fun x => (k, x) with
  | none => (.absent, s)
  | some (k, x) =>
    match r.limit with
    | none => (.used (x.used + 1) x, s.setKey r (some (k.setGen g (some { x with used := x.used + 1 }))))
    | some lim =>
      if lim ≤ x.used then (.refused, s)
      else
        let u := x.used + 1
        let hi := decide (7 * lim / 8 ≤ u)
        let full := decide (lim ≤ u)
        let s := s.setKey r (some (k.setGen g (some { x with used := u, high := x.high || hi, limit := x.limit || full })))
        let s := if hi && !x.high then s.occur EDW_KEY_HIGH page else s
        let s := if full && !x.limit then s.occur EDW_KEY_LIMIT page else s
        (.used u x, s)

/-- Whether a counter is fresh under a generation whose accepted counters are kept with a window of 64
(R473): not 0, not above 2^40, above H − 64 and not marked. -/
def KeyGen.fresh (x : KeyGen) (ctr : Nat) : Bool :=
  ctr ≠ 0 && decide (ctr ≤ 2 ^ 40) && decide (x.hi < ctr + 64) && !x.marks.contains ctr

/-- A counter has verified: it is marked, and H rises to it (R474). -/
def KeyGen.mark (x : KeyGen) (ctr : Nat) : KeyGen :=
  let hi := max x.hi ctr
  { x with hi := hi, marks := (ctr :: x.marks).filter fun c => decide (hi < c + 64) }

end Sys2Proof.Machine
end

