-- ==== Sys2Proof/Machine/Buffer.lean ====
section
/-! DEFINITION. The packet buffer, the queues and the two-level scheduler (R405–R406, R419–R423), and the
reads of the forwarding and queue tables (R516, R523). -/

namespace Sys2Proof.Machine

open Ev Reg

/-! ### Table words (R516, R523) -/

/-- The stored form of a word of the `FWD` or `QUE` tables. -/
def State.tblStored (s : State) (a : Nat) : Stored :=
  match sget (fun _ => none) s.tblRaw a with
  | some x => x
  | none => cleanStored (s.reg a)

/-- A table word written clean. -/
def State.tblPut (s : State) (a : Nat) (w : Word) : State :=
  { s with tblRaw := sput (fun _ => none) s.tblRaw a none }.setReg a w

/-- A table word read by the hardware: none when a lane is uncorrectable or marked. -/
def State.tblWord (s : State) (a : Nat) : Option Word × State :=
  match sget (fun _ => none) s.tblRaw a with
  | none => (some (s.reg a), s)
  | some x =>
    let p := x.deliver 15
    let s := s.noteRead a ((memInstance a).getD 0) x 15
    (if p.p then none else some p.v, s)

/-! ### Packets (R405) -/

/-- The packet of a descriptor. -/
def State.packet (s : State) (d : Nat) : Option Packet := sget (fun _ => none) s.traf.packets d

/-- The state with a descriptor's packet set. -/
def State.setPacket (s : State) (d : Nat) (p : Option Packet) : State :=
  { s with traf := { s.traf with packets := sput (fun _ => none) s.traf.packets d p } }

/-- Every packet held. -/
def State.allPackets (s : State) : List Packet := s.traf.packets.filterMap (·.2)

/-- Cells in use. -/
def State.usedCells (s : State) : List Nat := s.allPackets.flatMap (·.cells)

/-- Cells of retired buffer rows (R530, R532): a row is 16 cells. -/
def State.retiredRows (s : State) : List Nat := (s.grm.retired.filter (·.2)).map (·.1)

/-- Whether a cell lies in a retired row. -/
def State.cellRetired (s : State) (c : Nat) : Bool := s.retiredRows.contains (c / 16 * 256)

/-- Free cells (R405, R532). -/
def State.freeCells (s : State) : Nat :=
  2 ^ 30 - (s.usedCells.filter fun c => !s.cellRetired c).length - 16 * s.retiredRows.length

/-- Free descriptors. -/
def State.freeDescs (s : State) : Nat := 2 ^ 26 - s.allPackets.length

/-- Cells a packet of `len` octets occupies. -/
def cellsOf (len : Nat) : Nat := (len + 63) / 64

/-- Cells a page holds. -/
def State.pageCells (s : State) (g : Nat) : Nat :=
  ((s.allPackets.filter fun p => p.page = g + 1).map fun p => cellsOf p.len).sum

/-- The first number from `i` on, modulo `m`, that is not used; `n` bounds the search. (DESIGN CHOICE, log entry 27.) -/
def firstFree (used : Nat → Bool) (m : Nat) : Nat → Nat → Nat
  | 0, i => i % m
  | n + 1, i => if used (i % m) then firstFree used m n (i + 1) else i % m

/-- `k` free cells from `i` on. (DESIGN CHOICE, log entry 27.) -/
def pickCells (used : Nat → Bool) (bound : Nat) : Nat → Nat → List Nat
  | 0, _ => []
  | k + 1, i =>
    let c := firstFree used (2 ^ 30) bound i
    c :: pickCells used bound k (c + 1)

/-- The generation number of a descriptor that has been used `n` times. -/
def genOf (n : Nat) : Nat := (n + 15) % 16

/-- The handle of a packet (R405). -/
def handleOf (d gen : Nat) : Nat := gen * 2 ^ 26 + d

/-- The raw form of a cell's lanes is dropped: the cells are written anew. -/
def State.cleanCells (s : State) (cs : List Nat) : State :=
  { s with bufRaw := sdrop (fun a => cs.contains (a / 16)) s.bufRaw }

/-- `BUF_LOW` follows the free cells (R406). -/
def State.watchFree (s : State) : State :=
  let f := s.freeCells
  let r := s.rd BUF_CTL_RESERVE
  if !s.traf.low && decide (f < r) then { s with traf := { s.traf with low := true } }.occur BUF_LOW
  else if s.traf.low && decide (2 * r < f) then { s with traf := { s.traf with low := false } }
  else s

/-- A new packet takes a descriptor and cells; which free ones is open.  Callers have checked that they
exist. -/
def State.newPacket (s : State) (page held len : Nat) (octets : List Nat) : Nat × State :=
  let used := s.usedCells
  let d := firstFree (fun i => (s.packet i).isSome) (2 ^ 26) (s.traf.packets.length + 1) s.open_
  let s := s.used
  let bound := used.length + 16 * s.retiredRows.length + cellsOf len + 1
  let cs := pickCells (fun c => used.contains c || s.cellRetired c) bound (cellsOf len) s.open_
  let s := s.used
  let uses := sget (fun _ => 0) s.traf.gens d + 1
  let s := { s with traf := { s.traf with gens := sput (fun _ => 0) s.traf.gens d uses } }
  (d, ((s.cleanCells cs).setPacket d (some ⟨genOf uses, len, page, held, octets, cs⟩)).watchFree)

/-- A packet's cells and descriptor become free. -/
def State.freePacket (s : State) (d : Nat) : State := (s.setPacket d none).watchFree

/-- The descriptor a handle names, when its generation is current and a packet is there (R405). -/
def State.byHandle (s : State) (h : Nat) : Option (Nat × Packet) :=
  match s.packet (h % 2 ^ 26) with
  | some p => if p.gen = h / 2 ^ 26 % 16 ∧ h < 2 ^ 30 then some (h % 2 ^ 26, p) else none
  | none => none

/-! ### Buffer lanes (R520–R522) -/

/-- The four octets of lane `i` of a packet as 32 bits, the first octet most significant; octets beyond the
packet are zero. (DEDUCED, log entry 23.) -/
def laneOctets (os : List Nat) (i : Nat) : Nat := octetsToNat ((List.range 4).map fun k => os.getD (4 * i + k) 0)

/-- The buffer lane address of lane `i` of a packet. (DEDUCED, log entry 23.) -/
def Packet.laneAddr (p : Packet) (i : Nat) : Nat := p.cells.getD (i / 16) 0 * 16 + i % 16

/-- The memory instance of a buffer lane: its stack (R540). (DESIGN CHOICE, log entry 27.) -/
def bufInstance (lane : Nat) : Nat := 89 + lane / 16 / 2 ^ 27

/-- Class and data of a stored buffer lane (R520). -/
def StoredB.lane (x : StoredB) : LaneClass × Nat := classify 32 6 x.data.toNat x.chk.toNat

/-- The stored form of clean buffer data. -/
def cleanB (d : Nat) : StoredB := ⟨BitVec.ofNat 32 d, BitVec.ofNat 7 (codeBits 32 6 d)⟩

/-- The poison marker of a buffer lane. -/
def markerB : StoredB := ⟨0, 127⟩

/-- The packet and lane number that hold a buffer lane address. -/
def State.laneOwner (s : State) (a : Nat) : Option (Nat × Packet × Nat) :=
  s.traf.packets.findSome? fun e => match e.2 with
    | some p => (p.cells.findIdx? (· = a / 16)).map fun k => (e.1, p, 16 * k + a % 16)
    | none => none

/-- The stored bits at a buffer lane address. -/
def State.bufAt (s : State) (a : Nat) : StoredB :=
  match sget (fun _ => none) s.bufRaw a with
  | some x => x
  | none => match s.laneOwner a with
    | some (_, p, i) => cleanB (laneOctets p.octets i)
    | none => ⟨0, 0⟩

/-- A read of lane `i` of a packet: its data, whether it is poisoned, and what the read counts. -/
def State.readLane (s : State) (p : Packet) (i : Nat) : Nat × Bool × State :=
  let a := p.laneAddr i
  match sget (fun _ => none) s.bufRaw a with
  | none => (laneOctets p.octets i, false, s)
  | some x =>
    let inst := bufInstance a
    match x.lane with
    | (.clean, d) => (d, false, s)
    | (.corrected, d) => (d, false, (s.count MEM_CORR inst 1).demand a true inst)
    | (.poisoned, _) => (0, true, s)
    | (.uncorrectable, d) => (d, true, (s.countUncorr inst 1).demand a true inst)

/-- A whole packet read for its egress: its octets, and whether a lane is poisoned. -/
def State.readPacket (s : State) (p : Packet) : List Nat × Bool × State :=
  let (os, bad, s) := (List.range ((p.len + 3) / 4)).foldl
    (fun (acc : List Nat × Bool × State) i =>
      let (d, b, s) := acc.2.2.readLane p i
      (acc.1 ++ natToOctets 4 d, acc.2.1 || b, s)) (([] : List Nat), false, s)
  (os.take p.len, bad, s)

/-! ### The frame memories (R516, R520, R523) -/

/-- Lane `i` of frame-memory content as it is stored, the bits of `hit` having flipped since it was written: data in bits
31–0, check bits above (R520). -/
def hitLane (os : List Nat) (i : Nat) (hit : BitVec 39) : StoredB :=
  let x := cleanB (laneOctets os i)
  ⟨x.data ^^^ hit.extractLsb' 0 32, x.chk ^^^ hit.extractLsb' 32 7⟩

/-- Octets with lane `i` replaced. -/
def putLaneOctets (os : List Nat) (i d : Nat) : List Nat :=
  (os.take (4 * i) ++ natToOctets 4 d ++ os.drop (4 * i + 4)).take os.length

/-- A read of content of a frame memory that instance `inst` counts, with the lanes in which bits have flipped: none when a
lane is uncorrectable or marked (R518, R521–R523).  Nothing goes to the Groomer, which does not scrub these memories
(R516). (DEDUCED, log entry 142.) -/
def State.frameRead (s : State) (inst : Nat) (os : List Nat) (hits : List (Nat × BitVec 39)) : Option (List Nat) × State :=
  if hits.isEmpty then (some os, s)
  else
    let cs := (hits.filter fun h => decide (4 * h.1 < os.length)).map fun h => (h.1, (hitLane os h.1 h.2).lane)
    let s := s.count MEM_CORR inst (cs.countP fun c => c.2.1 = .corrected)
    let s := s.countUncorr inst (cs.countP fun c => c.2.1 = .uncorrectable)
    if cs.any fun c => c.2.1 = .uncorrectable || c.2.1 = .poisoned then (none, s)
    else (some (cs.foldl (fun os c => putLaneOctets os c.1 c.2.2) os), s)

/-! ### Queues (R23, R419, R541) -/

/-- The number of a queue over the three sets. -/
def accessQ (i cls : Nat) : Nat := 8 * i + cls
def lineQ (l g cls : Nat) : Nat := 131072 + 512 * l + 8 * g + cls
def clientQ (p g cls : Nat) : Nat := 133120 + 512 * p + 8 * g + cls

/-- A queue's number from its set and index, when in range. -/
def queueOf (set idx : Nat) : Option Nat :=
  if set = 0 ∧ idx < 131072 then some idx
  else if set = 1 ∧ idx < 2048 then some (131072 + idx)
  else if set = 2 ∧ idx < 8192 then some (133120 + idx)
  else none

/-- A terminal's entry of the terminal table: STATE, W, PAGE, AEN (R394). -/
def State.tst (s : State) (i : Nat) : Nat × Nat × Nat × Nat :=
  let t := i / 256
  let n := i % 256
  if n % 2 = 0 then
    (s.rd TREE_TST_STATE t (n / 2), s.rd TREE_TST_W t (n / 2), s.rd TREE_TST_PAGE t (n / 2), s.rd TREE_TST_AEN t (n / 2))
  else
    (s.rd TREE_TSTO_STATE t (n / 2), s.rd TREE_TSTO_W t (n / 2), s.rd TREE_TSTO_PAGE t (n / 2), s.rd TREE_TSTO_AEN t (n / 2))

/-- A terminal's page: 0 while it is FREE (R436). -/
def State.termPage (s : State) (i : Nat) : Nat := if (s.tst i).1 = 0 then 0 else (s.tst i).2.2.1

/-- The egress point of a queue (R419). -/
def State.egressOf (s : State) (q : Nat) : Nat :=
  if q < 131072 then 8 * (q / 2048) + (s.tst (q / 8)).2.1
  else if q < 133120 then 512 + (q - 131072) / 512
  else 516 + (q - 133120) / 512

/-- The page of a queue (R436). -/
def State.queuePage (s : State) (q : Nat) : Nat :=
  if q < 131072 then s.termPage (q / 8)
  else if q < 133120 then (q - 131072) / 8 % 64
  else (q - 133120) / 8 % 64

/-- The index of counter `k` of a queue: 0, 1 packets and octets admitted, 2, 3 sent, 4, 5 dropped (R541). -/
def queueCnt (q k : Nat) : Nat :=
  if q < 131072 then (if k < 4 then 524288 + 4 * q + k else 131072 + 2 * q + (k - 4))
  else if q < 133120 then 393216 + 6 * (q - 131072) + k
  else 405504 + 6 * (q - 133120) + k

/-- Adds to a queue counter, with what sticking and restarting raise. -/
def State.bump (s : State) (x k : Nat) : State :=
  let (s, n) := s.cntAdd x k
  match n with
  | .none => s
  | .stuck => ((s.cntAdd CNT_STICK.base 1).1).occurRec CNT_STICK 0 [x]
  | .restarted => ((s.cntAdd CNT_RESTART.base 1).1).occurRec CNT_RESTART 0 [x]

/-- Counts a packet of `len` octets in a queue's admitted (0), sent (2) or dropped (4) counters. -/
def State.countQueue (s : State) (q k len : Nat) : State := (s.bump (queueCnt q k) 1).bump (queueCnt q (k + 1)) len

/-- A queue's entries, oldest first. -/
def State.queue (s : State) (q : Nat) : List QEnt := sget (fun _ => []) s.traf.queues q

/-- The state with a queue replaced. -/
def State.setQueue (s : State) (q : Nat) (l : List QEnt) : State :=
  { s with traf := { s.traf with queues := sput (fun _ => []) s.traf.queues q l } }

/-- Octets a queue holds (R425). -/
def State.depth (s : State) (q : Nat) : Nat := ((s.queue q).map (·.len)).sum

/-- The base address of a queue's words (R438). -/
def queAddr (q : Nat) : Nat := 0o440000000 + 4 * q

/-- QUANTUM of a queue, in octets, and its LIMIT, in octets. -/
def State.quantum (s : State) (q : Nat) : Nat := (s.reg (queAddr q)).bits 35 21 * 64
def State.queLimit (s : State) (q : Nat) : Nat := (s.reg (queAddr q)).bits 20 0 * 64

/-! ### Depth and delay (R425, R426) -/

/-- Depth and delay of a queue now (R425). -/
def State.sample (s : State) (q : Nat) : Nat × Nat :=
  match s.queue q with
  | [] => (0, 0)
  | e :: _ => (s.depth q, min ((s.now - e.at_) / ticksUs) (2 ^ 23 - 1))

/-- The words `QUE_SMP_A` and `QUE_SMP_B` of a queue sampled now (R425, R426). -/
def State.sampleWords (s : State) (q : Nat) : List Nat :=
  let (d, t) := s.sample q
  [d * 64 % 2 ^ 36, t * 2 ^ 13 + s.now / ticksFr % 8192]

/-- What a command samples at its intake (R426): `QUE.SET` OP 3 the `N` queues that it names, any other nothing. -/
def State.samplesFor (s : State) (opc : Nat) (words : List Word) : List Nat :=
  let w := words.getD 0 0
  let n := (words.getD 1 0).bits 8 0
  if opc = 0x0F03 ∧ w.bits 35 33 = 3 ∧ n ≤ 256 then
    match queueOf (w.bits 32 31) (w.bits 16 0) with
    | some q => ((List.range n).map (q + ·)).flatMap s.sampleWords
    | none => []
  else []

/-! ### Admission (R406) -/

/-- The checks of R406 in order: the code that the first failing one counts. -/
def State.admitFails (s : State) (q g len : Nat) : Option Code :=
  if s.freeDescs = 0 then some BUF_NODESC
  else if s.freeCells < cellsOf len + s.rd BUF_CTL_RESERVE then some QUE_DROP_BUF
  else if s.rd QUE_PAGE_LIMIT 0 g < s.pageCells g + cellsOf len then some QUE_DROP_PAGE
  else if s.queLimit q < s.depth q + len then some QUE_DROP_Q
  else none

/-- Admits a forwarded packet: its descriptor, or none when it is dropped and counted. -/
def State.queueAdmit (s : State) (q g : Nat) (octets : List Nat) (e : QEnt) : Option Nat × State :=
  match s.admitFails q g e.len with
  | some c => (none, (s.count c g).countQueue q 4 e.len)
  | none =>
    let (d, s) := s.newPacket (g + 1) 0 e.len octets
    (some d, (s.setQueue q (s.queue q ++ [{ e with desc := d, at_ := s.now }])).countQueue q 0 e.len)

/-! ### Which queues may send (R417, R423) -/

/-- State of a channel's downstream; OFF while the tree domain is not ON. -/
def State.dsState (s : State) (c : Nat) : Nat := if s.domOn (c / 8) then s.rd CH_DS_STAT_STATE c else 0

/-- Whether the module is in a mode in which packets are forwarded (R424). -/
def State.forwards (s : State) : Bool :=
  (s.mode = modeService || s.mode = modeConstrained || s.mode = modeMaintenance) && s.pwr.dying.isNone

/-- Whether AIS is forced on a line's transmitter (R294). -/
def State.forceAis (s : State) (l : Nat) : Bool := s.mode = modeMaintenance && s.rdb LINE_FR_CTL_FORCE_AIS l

/-- Whether a line sends PAYLOAD slots (R282). -/
def State.sendsPayload (s : State) (l : Nat) : Bool :=
  s.domOn (72 + l) && s.rd LINE_TX_STAT_STATE l = 4 && s.forwards && !s.forceAis l

/-- Whether an egress point can send (R423). -/
def State.egressUp (s : State) (e : Nat) : Bool :=
  if e < 512 then s.dsState e = 4
  else if e < 516 then s.sendsPayload (e - 512) && !s.rdb LINE_FR_CTL_PT (e - 512)
  else s.domOn 76 && s.rdb PORT_STAT_LINK (e - 516) && s.rdb PORT_CTL_EN (e - 516)

/-- Whether a queue's egress can send, its terminal included. -/
def State.queueUp (s : State) (q : Nat) : Bool :=
  s.egressUp (s.egressOf q) && (131072 ≤ q || (s.tst (q / 8)).1 = 3)

/-- Whether a queue's configuration word is uncorrectable or marked (R523). -/
def State.queueBad (s : State) (q : Nat) : Bool :=
  match sget (fun _ => none) s.tblRaw (queAddr q) with
  | some x => (x.deliver 15).p
  | none => false

/-- Whether a queue is backlogged (R417, R421, R423, R523). -/
def State.backlogged (s : State) (q : Nat) : Bool :=
  match s.queue q with
  | e :: _ => (e.ready || e.express) && s.queueUp q && !s.queueBad q
  | [] => false

/-- T of a client port (R418, R420): 8 with a C-tag and 4 without. -/
def tagLen (e : QEnt) : Nat := if e.core || e.tag % 4096 = 0 then 4 else 8

/-- The counted length of a packet at its egress (R420); a core's packet is counted without its send prefix. -/
def countedLen (q : Nat) (e : QEnt) : Nat :=
  let len := if e.core then e.len - 8 else e.len
  if q < 131072 then len + 16 + (if e.enc then 16 else 0)
  else if q < 133120 then len + 8
  else max (len + tagLen e) 60 + 24

/-! ### Deficit round robin (R421, R422) -/

/-- The walk of `pick` from member `m` on: eligible members in order, quantum and packet length of each. -/
def drrWalk (quant len : Nat → Nat) (ms : List Nat) : Nat → Nat → Ring → List (Nat × Member) →
    Option (Nat × Ring × List (Nat × Member))
  | 0, _, _, _ => none
  | n + 1, m, r, t =>
    let x := sget (fun _ => {}) t m
    let x : Member := if x.stamp < r.v then { x with d := x.d + quant m, stamp := r.v } else x
    let t := sput (fun _ => {}) t m x
    if len m ≤ x.d then some (m, { r with p := m }, t)
    else
      match ms.find? fun k => decide (m < k) with
      | some k => drrWalk quant len ms n k r t
      | none => drrWalk quant len ms n (ms.headD 0) { r with v := r.v + 1 } t

/-- `pick` of R421 over the eligible members, in increasing order. -/
def drrPick (quant len : Nat → Nat) (ms : List Nat) (r : Ring) (t : List (Nat × Member)) :
    Option (Nat × Ring × List (Nat × Member)) :=
  match ms with
  | [] => none
  | f :: _ =>
    let fuel := 300 * ms.length + 2
    match ms.find? fun k => decide (r.p ≤ k) with
    | some k => drrWalk quant len ms fuel k r t
    | none => drrWalk quant len ms fuel f { r with v := r.v + 1 } t

/-- A member as it is when it becomes, stays or stops being backlogged (R421). (DEDUCED, log entry 96.) -/
def Member.see (x : Member) (on : Bool) (v : Nat) : Member :=
  if on && x.on then x
  else if on then ⟨0, v - 1, true⟩
  else ⟨0, x.stamp, false⟩

/-- The queues that have entries or members. -/
def State.knownQueues (s : State) : List Nat :=
  (s.traf.queues.map (·.1)) ++ ((s.traf.members.map (·.1)).filter fun q => !(s.traf.queues.any fun e => e.1 = q))

/-- The ring and page key of a page at an egress point. -/
def ringKey (e g : Nat) : Nat := 64 * e + g

/-- Members and rings of an egress point are brought up to date with what is backlogged there. (DEDUCED, log entry 96.) -/
def State.seeEgress (s : State) (e : Nat) : State :=
  let qs := s.knownQueues.filter fun q => s.egressOf q = e
  let t := s.traf
  let members := qs.foldl
    (fun m q =>
      let r := sget (fun _ => {}) t.rings2 (ringKey e (s.queuePage q))
      sput (fun _ => {}) m q ((sget (fun _ => {}) m q).see (s.backlogged q) r.v)) t.members
  let live := qs.filter s.backlogged
  let r1 := sget (fun _ => {}) t.rings1 e
  let pages := (List.range 64).foldl
    (fun m g => sput (fun _ => {}) m (ringKey e g)
      ((sget (fun _ => {}) m (ringKey e g)).see (live.any fun q => s.queuePage q = g) r1.v)) t.pages
  { s with traf := { t with members := members, pages := pages } }

/-- The shaper of a page at an egress point: on, tokens now in 1/32,000 octet (R422). (DEDUCED, log entry 97.) -/
def State.shaper (s : State) (e g : Nat) : Bool × Int :=
  let k := ringKey e g
  let a := 0o442200000 + 4 * k
  let on := (s.reg a).bit 35
  let b := sget (fun _ => {}) s.traf.tokens k
  let cap : Int := (s.reg (a + 1)).bits 35 18 * 64 * 32000
  let add : Int := if on then (s.reg a).bits 34 13 * (s.now - max b.at_ s.traf.since) else 0
  (on, min cap (b.tok + add))

/-- The shaper's tokens brought up to date and reduced by `x` octets. (DEDUCED, log entry 97.) -/
def State.takeTokens (s : State) (e g x : Nat) : State :=
  let (on, tok) := s.shaper e g
  let tok := if on then tok - 32000 * x else tok
  { s with traf := { s.traf with tokens := sput (fun _ => {}) s.traf.tokens (ringKey e g) ⟨tok, s.now⟩ } }

/-- PQ of a page at an egress point, in octets. -/
def State.pageQuantum (s : State) (e g : Nat) : Nat := (s.reg (0o442200000 + 4 * ringKey e g + 1)).bits 17 3 * 64

/-- The length of the oldest packet of a queue as R420 counts it. -/
def State.headLen (s : State) (q : Nat) : Nat :=
  match s.queue q with
  | e :: _ => countedLen q e
  | [] => 0

/-- Level 2 of a transmit opportunity for page `g`. -/
def State.pickQueue (s : State) (e g : Nat) : Option (Nat × Ring × List (Nat × Member)) :=
  let qs := sortBy (fun a b => decide (a ≤ b)) (s.knownQueues.filter fun q => s.egressOf q = e && s.queuePage q = g && s.backlogged q)
  drrPick s.quantum s.headLen qs (sget (fun _ => {}) s.traf.rings2 (ringKey e g)) s.traf.members

/-- The page and queue that R421 picks at egress point `e`, with the rings and members then. -/
def State.pickEgress (s : State) (e : Nat) : Option (Nat × State) :=
  let gs := (List.range 64).filter fun g =>
    (s.knownQueues.any fun q => s.egressOf q = e && s.queuePage q = g && s.backlogged q) &&
      (let (on, tok) := s.shaper e g; !on || decide (0 < tok))
  let len := fun k => match s.pickQueue e (k % 64) with
    | some (q, _, _) => s.headLen q
    | none => 0
  match drrPick (fun k => s.pageQuantum e (k % 64)) len (gs.map (ringKey e)) (sget (fun _ => {}) s.traf.rings1 e) s.traf.pages with
  | none => none
  | some (k, r1, pages) =>
    match s.pickQueue e (k % 64) with
    | none => none
    | some (q, r2, members) =>
      some (q, { s with traf := { s.traf with
        pages := pages, members := members
        rings1 := sput (fun _ => {}) s.traf.rings1 e r1, rings2 := sput (fun _ => {}) s.traf.rings2 k r2 } })

/-- The deficits and tokens of a packet of counted length `x` that queue `q` has sent (R421). (DEDUCED, log entry 96.) -/
def State.chargeSent (s : State) (e q x : Nat) : State :=
  let g := s.queuePage q
  let k := ringKey e g
  let a := sget (fun _ => {}) s.traf.pages k
  let b := sget (fun _ => {}) s.traf.members q
  let s := { s with traf := { s.traf with
    pages := sput (fun _ => {}) s.traf.pages k { a with d := a.d - x }
    members := sput (fun _ => {}) s.traf.members q { b with d := b.d - x } } }
  s.takeTokens e g x

/-- An entry leaves its queue otherwise than by being sent. -/
def State.unqueue (s : State) (q d : Nat) : State :=
  (s.setQueue q ((s.queue q).filter fun e => e.desc ≠ d)).seeEgress (s.egressOf q)

end Sys2Proof.Machine
end

