-- ==== Sys2Proof/Machine/Coding.lean ====
section
/-! DEFINITION. The codes of the optical signals: checks, generators and scramblers, the constellations and pilots of
a coherent line (spec/06), its inner and outer code (spec/08), and the downstream frame and upstream burst of an
access channel (spec/09).  Bits are Booleans, the first one sent at the head of the list. -/

namespace Sys2Proof.Machine

/-! ### Checks (R283, R321, R357, R432) -/

/-- CRC-16 of R283: x^16 + x^12 + x^5 + 1, initial value 0xFFFF, most significant bit first. -/
def crc16 (os : List Nat) : Nat :=
  os.foldl
    (fun c o => (List.range 8).foldl
      (fun (c : Nat) (_ : Nat) => if c.testBit 15 then (2 * c) % 65536 ^^^ 0x1021 else 2 * c)
      (c ^^^ o * 256)) 0xFFFF

/-- The CRC-16 of R283 over single bits (R321). -/
def crc16Bits (bs : List Bool) : Nat :=
  bs.foldl (fun c b => if c.testBit 15 ^^ b then (2 * c) % 65536 ^^^ 0x1021 else (2 * c) % 65536) 0xFFFF

/-- One octet of the reflected CRC-32. -/
def crc32Step (c o : Nat) : Nat :=
  (List.range 8).foldl (fun (c : Nat) (_ : Nat) => if c % 2 = 1 then c / 2 ^^^ 0xEDB88320 else c / 2) (c ^^^ o)

/-- CRC-32 of IEEE 802.3. (PRESUMED, log entry 12.) -/
def crc32 (os : List Nat) : Nat := 0xFFFFFFFF - os.foldl crc32Step 0xFFFFFFFF

/-- The frame check sequence of a client frame in the order of IEEE 802.3: least significant octet first. (PRESUMED, log entry 12; DEDUCED, log entry 81.) -/
def fcsOctets (os : List Nat) : List Nat := (natToOctets 4 (crc32 os)).reverse

/-- The bits of a number of `n` bits, most significant first. -/
def msbBits (n v : Nat) : List Bool := (List.range n).map fun i => v.testBit (n - 1 - i)

/-- The bits of octets, most significant first. -/
def octetBits (os : List Nat) : List Bool := os.flatMap (msbBits 8)

/-- The number that bits spell, most significant first. -/
def bitsToNat (bs : List Bool) : Nat := bs.foldl (fun a b => 2 * a + b2n b) 0

/-! ### Generators (R213, R234, R281, R313) -/

/-- A generator x^n + x^k + 1: the state holds its last `n` bits, the newest in bit 0; a step puts out, and takes in, the
exclusive-or of the bits sent `n` and `k` steps before. (DEDUCED, log entry 77.) -/
def prbsStep (n k st : Nat) : Bool × Nat :=
  let b := st.testBit (n - 1) ^^ st.testBit (k - 1)
  (b, (2 * st + b2n b) % 2 ^ n)

/-- The first `len` bits of a generator from state `st`. (DEDUCED, log entry 77.) -/
def prbs (n k st len : Nat) : List Bool :=
  ((List.range len).foldl
    (fun (acc : List Bool × Nat) _ => let (b, st) := prbsStep n k acc.2; (b :: acc.1, st)) ([], st)).1.reverse

/-- The scrambler of R281: x^23 + x^18 + 1 from all ones, exclusive-ored onto the bits. It undoes itself. (DEDUCED, log entry 77.) -/
def scramble (bs : List Bool) : List Bool := List.zipWith xor bs (prbs 23 18 (2 ^ 23 - 1) bs.length)

/-! ### Constellations and pilots (R213–R216) -/

/-- Gray decoding of `n` bits. -/
def grayIndex (n v : Nat) : Nat := (List.range n).foldl (fun a i => a ^^^ v / 2 ^ i) 0

/-- The amplitude of an axis of `m` bits (R216). -/
def axisLevel (m v : Nat) : Int := 2 * grayIndex m v - (2 ^ m - 1)

/-- The points of a quadrant of a cross constellation, in their order (R216). -/
def crossPoints (b : Nat) : List (Nat × Nat) :=
  let l := if b = 5 then 5 else 11
  let cut := 2 ^ ((b - 1) / 2)
  let odd := (List.range ((l + 1) / 2)).map fun k => 2 * k + 1
  (List.range (2 * l + 1)).flatMap fun sum =>
    odd.filterMap fun x =>
      if x < sum && odd.contains (sum - x) && !(decide (cut < x) && decide (cut < sum - x)) then some (x, sum - x) else none

/-- The point of a label of `b` bits before scaling to unit mean power (R216). -/
def constellation (b v : Nat) : Int × Int :=
  if b = 3 then (axisLevel 2 (v / 2), axisLevel 1 (v % 2))
  else if b % 2 = 0 then (axisLevel (b / 2) (v / 2 ^ (b / 2)), axisLevel (b / 2) (v % 2 ^ (b / 2)))
  else
    let p := (crossPoints b).getD (v % 2 ^ (b - 2)) (0, 0)
    let signed := fun (neg : Bool) (x : Nat) => if neg then -(x : Int) else (x : Int)
    (signed (v.testBit (b - 1)) p.1, signed (v.testBit (b - 2)) p.2)

/-- A point of a line's signal: I and Q as whole numbers, and the sum of their squares over the 2^b labels; the point
sent has unit mean power (R216). -/
structure Point where
  i : Int
  q : Int
  power : Nat
  deriving DecidableEq, Repr

/-- The sum over all labels of a loading of I² + Q². -/
def powerOf (b : Nat) : Nat :=
  ((List.range (2 ^ b)).map fun v => let p := constellation b v; (p.1 * p.1 + p.2 * p.2).toNat).sum

/-- The two bits of the pilot of symbol `n`, a multiple of 64, on subcarrier `j` and polarisation `p` (R213). (DEDUCED, log entry 77.) -/
def pilotBits (j p n : Nat) : List Bool := (prbs 15 14 (2 * j + p + 1) (n / 64 * 2 + 2)).drop (n / 64 * 2)

/-- The QPSK point of two bits, the first the sign of I, the second that of Q, 0 meaning + (R213). -/
def signPoint (bs : List Bool) : Int × Int :=
  let sign := fun b => if b then -1 else 1
  (sign (bs.getD 0 false), sign (bs.getD 1 false))

/-- The pilot of symbol `n` (R213). -/
def pilot (j p n : Nat) : Int × Int := signPoint (pilotBits j p n)

/-- The symbol index of data symbol time `i` of a multiframe: every 64th symbol is a pilot (R213). -/
def dataSymbol (i : Nat) : Nat := i / 63 * 64 + i % 63 + 1

/-- A symbol sent: its index in the multiframe, subcarrier, polarisation, loading and label.  A pilot is the point of a
QPSK label, whose bits are the complements of its two (R213, R216). -/
structure Label where
  n : Nat
  j : Nat
  pol : Nat
  b : Nat
  v : Nat
  deriving DecidableEq, Repr

/-- The pilot of a subcarrier and polarisation as a symbol. -/
def pilotLabel (j pol n : Nat) : Label := ⟨n, j, pol, 2, 3 - bitsToNat (pilotBits j pol n)⟩

/-- The pilots of symbol `n`, a multiple of 64: every enabled subcarrier, X and then Y (R213). -/
def pilotsAt (n : Nat) (loads : List (Nat × Nat)) : List Label :=
  (loads.filter fun x => decide (0 < x.2)).flatMap fun x => [pilotLabel x.1 0 n, pilotLabel x.1 1 n]

/-- The labels of one data symbol time: subcarriers 0 to 31 that carry bits, X and then Y (R214). -/
def labelsAt (n : Nat) (loads : List (Nat × Nat)) (bits : List Bool) : List Label × List Bool :=
  (loads.filter fun x => decide (0 < x.2)).foldl
    (fun (acc : List Label × List Bool) x =>
      let put := fun (acc : List Label × List Bool) pol =>
        (acc.1 ++ [⟨n, x.1, pol, x.2, bitsToNat (acc.2.take x.2)⟩], acc.2.drop x.2)
      put (put acc 0) 1) ([], bits)

/-- The symbol mapper over `k` whole data symbol times from time `i` on; the pilots of a symbol stand before the first of
the 63 data symbols that follow it (R213, R214). -/
def mapSymbols (loads : List (Nat × Nat)) : Nat → Nat → List Bool → List Label
  | 0, _, _ => []
  | k + 1, i, bits =>
    let (ls, bits) := labelsAt (dataSymbol i) loads bits
    (if i % 63 = 0 then pilotsAt (i / 63 * 64) loads else []) ++ ls ++ mapSymbols loads k (i + 1) bits

/-- Symbols of the test signal: `k` symbols from symbol `n` on, on every subcarrier, X and then Y, each the QPSK label of
the next two bits of its subcarrier's PRBS31, whose state is `seed` at symbol 0 (R234). (DESIGN CHOICE, log entry 116.) -/
def testSymbols (seed : Nat → Nat) (n k : Nat) : List Label :=
  (List.range 32).flatMap fun j =>
    let bs := (prbs 31 28 (seed j) (4 * (n + k))).drop (4 * n)
    (List.range (2 * k)).map fun i => ⟨n + i / 2, j, i % 2, 2, bitsToNat ((bs.drop (2 * i)).take 2)⟩

/-! ### Shares, pre-compensation and clipping (R232, R233) -/

/-- The largest number below 2^44 whose hundredth power is at most `p`. -/
def root100 (p : Nat) : Nat :=
  (List.range 44).foldl (fun v i => if (v + 2 ^ (43 - i)) ^ 100 ≤ p then v + 2 ^ (43 - i) else v) 0

/-- 10^(G/10) in units of 10^-10 for a gain of `n` tenths of a dB, at least −1000. (DESIGN CHOICE, log entry 117.) -/
def powerRatio (n : Int) : Nat := root100 (10 ^ (1000 + n).toNat)

/-- The share of each subcarrier in the total power, in units of 10^-10: in proportion to 10^(G/10) among those that are
lit (R232). (DESIGN CHOICE, log entry 117.) -/
def sharesOf (gains : List (Option Rat)) : List Nat :=
  let ps := gains.map fun g => match g with
    | some g => powerRatio (g * 10).floor
    | none => 0
  ps.map fun p => p * 10 ^ 10 / ps.sum

/-- One sample of a filter of taps in units of 1/4096 over the samples up to it, newest first (R233). -/
def firAt (taps samples : List Int) : Int := (List.zipWith (· * ·) taps samples).sum / 4096

/-- A stream through a filter; samples before its start are 0. -/
def fir (taps xs : List Int) : List Int :=
  (List.range xs.length).map fun n => firAt taps ((xs.take (n + 1)).reverse)

/-- Whether a magnitude is beyond `level`/16 of the RMS of a stream (R233). -/
def beyondRms (level : Nat) (xs : List Int) (k : Nat) : Bool :=
  decide (level * level * (xs.map fun x => x.natAbs * x.natAbs).sum < k * k * 256 * xs.length)

/-- The largest magnitude that is not beyond it. -/
def clipLimit (level : Nat) (xs : List Int) : Nat :=
  (List.range 24).foldl (fun v i => if beyondRms level xs (v + 2 ^ (23 - i)) then v else v + 2 ^ (23 - i)) 0

/-- A stream clipped at `level`/16 of its RMS, and the samples clipped (R233). (DESIGN CHOICE, log entry 117.) -/
def clipStream (level : Nat) (xs : List Int) : List Int × Nat :=
  let limit := clipLimit level xs
  let beyond := beyondRms level xs
  (xs.map fun x => if beyond x.natAbs then (if 0 < x then (limit : Int) else -limit) else x, xs.countP fun x => beyond x.natAbs)

/-- A sample as an 8-bit two's complement code, `top` being the largest magnitude (R233). (DESIGN CHOICE, log entry 117.) -/
def dacCode (top : Nat) (x : Int) : BitVec 8 :=
  BitVec.ofInt 8 (if top = 0 then 0 else clampInt (-128) 127 ((2 * 127 * x + top) / (2 * top)))

/-! ### The inner code (R269, R270) -/

/-- One input bit of the inner encoder: X, Y and the register after it; bit 0 of the register is the last bit taken. -/
def innerStep (reg : Nat) (u : Bool) : Bool × Bool × Nat :=
  let c := fun k => reg.testBit (k - 1)
  (u ^^ c 1 ^^ c 2 ^^ c 3 ^^ c 6, u ^^ c 2 ^^ c 3 ^^ c 5 ^^ c 6, (2 * reg + b2n u) % 64)

/-- Puncturing masks of an inner rate: X and Y (R270). -/
def innerMasks (inner : Nat) : List Bool × List Bool :=
  if inner = 0 then (msbBits 4 0b1000, msbBits 4 0b1111)
  else if inner = 1 then (msbBits 5 0b10101, msbBits 5 0b11010)
  else (msbBits 7 0b1000101, msbBits 7 0b1111010)

/-- The inner encoder with puncturing, from input bit `ph` of the period: the coded bits and the register. -/
def innerEncode (m : List Bool × List Bool) (reg ph : Nat) (us : List Bool) : List Bool × Nat :=
  let r := us.foldl
    (fun (acc : List Bool × Nat × Nat) u =>
      let (x, y, reg) := innerStep acc.2.1 u
      let k := acc.2.2 % m.1.length
      let out := if m.1.getD k false then x :: acc.1 else acc.1
      (if m.2.getD k false then y :: out else out, reg, k + 1)) ([], reg, ph)
  (r.1.reverse, r.2.1)

/-- The mother code without puncturing, X before Y (R321). -/
def motherCode : List Bool × List Bool := ([true], [true])

/-! ### The outer code (R272–R274) -/

/-- A product in GF(2^n) with field polynomial `p`. -/
def gfMul (n p a b : Nat) : Nat :=
  (List.range n).foldl
    (fun acc i =>
      let acc := 2 * acc
      let acc := if acc.testBit n then acc ^^^ p else acc
      if b.testBit (n - 1 - i) then acc ^^^ a else acc) 0

/-- A power of an element, its exponent below 1,024. -/
def gfPow (n p a k : Nat) : Nat :=
  (List.range 10).foldl
    (fun v i => let v := gfMul n p v v; if k.testBit (9 - i) then gfMul n p v a else v) 1

/-- A polynomial over the field, highest coefficient first, times x + r. -/
def gfTimesRoot (n p : Nat) (f : List Nat) (r : Nat) : List Nat :=
  List.zipWith (fun a b => a ^^^ gfMul n p b r) (f ++ [0]) (0 :: f)

/-- The generator of the component code: the minimal polynomials of α, α³ and α⁵ over x^10 + x^3 + 1, each the product
over the ten conjugates (R272). -/
def bchGenerator : List Nat :=
  [1, 3, 5].foldl
    (fun f i => (List.range 10).foldl (fun f k => gfTimesRoot 10 0x409 f (gfPow 10 0x409 2 (i * 2 ^ k % 1023))) f) [1]

/-- The generator's 30 low coefficients as a number. -/
def bchTaps : Nat := bitsToNat ((bchGenerator.drop 1).map fun c => decide (c = 1))

/-- The 30 parity bits of 930 information bits (R272). -/
def bchParity (bs : List Bool) : List Bool :=
  msbBits 30 (bs.foldl (fun r b => if r.testBit 29 ^^ b then (2 * r) % 2 ^ 30 ^^^ bchTaps else (2 * r) % 2 ^ 30) 0)

/-- The parity of each of the 480 rows of a block after block `prev` (R273). -/
def staircase (prev : List (List Bool)) (info : List Bool) : List (List Bool) :=
  (List.range 480).map fun j =>
    bchParity (((List.range 480).map fun r => (prev.getD r []).getD j false) ++ (info.drop (450 * j)).take 450)

/-- Information bits put into groups of sixteen, the last bit of each a parity bit owed for the block before (R268,
R274): the inner encoder's input, and the chain's place in its group and its owed bits after them. -/
def interleave (grp : Nat) (owed us : List Bool) : List Bool × Nat × List Bool :=
  let r := us.foldl
    (fun (acc : List Bool × Nat × List Bool) u =>
      if acc.2.1 = 14 then (acc.2.2.headD false :: u :: acc.1, 0, acc.2.2.drop 1) else (u :: acc.1, acc.2.1 + 1, acc.2.2))
    ([], grp, owed)
  (r.1.reverse, r.2)

/-- Information bits that do not pass the end of the present block. -/
def Chain.part (c : Chain) (us : List Bool) : List Bool × Chain :=
  let (out, grp, owed) := interleave c.grp c.owed us
  (out, { c with grp := grp, owed := owed, cur := c.cur ++ us })

/-- The present block is whole: its rows get their parity, which is owed from now on (R273, R274). -/
def Chain.close (c : Chain) : Chain :=
  let par := staircase c.prev c.cur
  { c with
    cur := [], owed := par.flatten,
    prev := (List.range 480).map fun j => (c.cur.drop (450 * j)).take 450 ++ par.getD j [] }

/-- The outer code over information bits that end at most `n` blocks. -/
def Chain.outer (c : Chain) : Nat → List Bool → List Bool × Chain
  | 0, us => c.part us
  | n + 1, us =>
    let need := 216000 - c.cur.length
    if us.length < need then c.part us
    else
      let (a, d) := c.part (us.take need)
      let (b, d) := d.close.outer n (us.drop need)
      (a ++ b, d)

/-- A run of information bits through both codes: the coded bits and the chain. (DEDUCED, log entry 78.) -/
def Chain.encode (c : Chain) (inner : Nat) (bs : List Bool) : List Bool × Chain :=
  let (us, c) := c.outer (bs.length / 216000 + 1) bs
  let m := innerMasks inner
  let (coded, reg) := innerEncode m c.reg c.ph us
  (coded, { c with reg := reg, ph := (c.ph + us.length) % m.1.length })

/-- A slot's information bits: its octets and the pad, scrambled after the alignment word (R279, R281). -/
def slotInfo (octets : List Nat) (len : Nat) : List Bool :=
  let bs := octetBits octets
  let all := bs ++ List.replicate (len - bs.length) false
  all.take 64 ++ scramble (all.drop 64)

/-! ### The downstream frame of a channel (R310–R314) -/

/-- Two bits to a PAM4 level (R310). -/
def pamLevel (a b : Bool) : Nat := if a then (if b then 2 else 3) else (if b then 1 else 0)

/-- Coded bits to levels. -/
def pamLevels : List Bool → List Nat
  | a :: b :: t => pamLevel a b :: pamLevels t
  | _ => []

/-- A chip's level (R310). -/
def chipLevel (b : Bool) : Nat := if b then 3 else 0

/-- PSYNC (R313). (DEDUCED, log entry 77.) -/
def psync : List Bool := prbs 11 9 (2 ^ 11 - 1) 2047 ++ [false]

/-- The scrambled information bits of the coded area: control area and payload area (R312, R314). -/
def dsInfo (ctrl payload : List Nat) : List Bool := scramble (octetBits (ctrl ++ payload))

/-- The levels of a downstream frame, the encoder's register standing at `reg` (R312–R314). -/
def dsFrame (reg : Nat) (ctrl payload : List Nat) : List Nat :=
  psync.map chipLevel ++ pamLevels (innerEncode (innerMasks 2) reg 0 (dsInfo ctrl payload)).1

/-! ### Upstream bursts (R319–R322) -/

/-- The delimiter and the end marker (R320). -/
def delimiterWord : BitVec 32 := 0xB5E62C1D
def endMarkerWord : BitVec 32 := 0x4A19D3E2

/-- The chips in which a received pattern agrees with a word (R320). (DEDUCED, log entry 79.) -/
def agreeing (w x : BitVec 32) : Nat := (List.range 32).countP fun i => w.getLsbD i == x.getLsbD i

/-- ALLOC, REPORT and MSG of a header (R321). -/
def hdrAlloc (h : BitVec 58) : Nat := h.toNat / 2 ^ 42
def hdrReport (h : BitVec 58) : Nat := h.toNat / 2 ^ 22 % 2 ^ 20
def hdrMsg (h : BitVec 58) : Bool := h.getLsbD 21

/-- Whether the CRC-16 of a header agrees with its bits 57–16 (R321). (DEDUCED, log entry 79.) -/
def hdrCrcOk (h : BitVec 58) : Bool := h.toNat % 65536 == crc16Bits (msbBits 42 (h.toNat / 65536))

/-- The 64 bits that carry a header: two coded bits for each of its bits and of six tail bits, unscrambled; the first of
the 128 coded bits leads (R321). -/
def hdrCoded (h : BitVec 58) : List Bool := (innerEncode motherCode 0 0 (msbBits 58 h.toNat ++ List.replicate 6 false)).1

/-- Products and inverses in GF(2^8) with x^8 + x^4 + x^3 + x^2 + 1 (R322). -/
def rsMul (a b : Nat) : Nat := gfMul 8 0x11D a b
def rsPow (k : Nat) : Nat := gfPow 8 0x11D 2 (k % 255)
def rsInv (a : Nat) : Nat := gfPow 8 0x11D a 254

/-- The value of a polynomial, its highest coefficient first. -/
def rsEval (f : List Nat) (x : Nat) : Nat := f.foldl (fun v c => rsMul v x ^^^ c) 0

/-- The eight syndromes of a received word (R322). -/
def rsSyndromes (w : List Nat) : List Nat := (List.range 8).map fun i => rsEval w (rsPow i)

/-- The error locator of syndromes by Berlekamp and Massey, lowest coefficient first: connection polynomial, its
predecessor, length, steps since, and the predecessor's discrepancy. -/
structure Massey where
  c : List Nat
  b : List Nat
  len : Nat
  m : Nat
  d : Nat

/-- `f` minus `k` x^m `g`, lowest coefficient first. -/
def rsSub (f : List Nat) (k m : Nat) (g : List Nat) : List Nat :=
  let g := List.replicate m 0 ++ g.map (rsMul k)
  (List.range (max f.length g.length)).map fun i => f.getD i 0 ^^^ g.getD i 0

def Massey.step (s : List Nat) (x : Massey) (n : Nat) : Massey :=
  let d := (List.range (x.len + 1)).foldl (fun a i => a ^^^ rsMul (x.c.getD i 0) (s.getD (n - i) 0)) 0
  if d = 0 then { x with m := x.m + 1 }
  else
    let c := rsSub x.c (rsMul d (rsInv x.d)) x.m x.b
    if 2 * x.len ≤ n then ⟨c, x.c, n + 1 - x.len, 1, d⟩ else { x with c := c, m := x.m + 1 }

/-- The error locator and its degree. -/
def rsLocator (s : List Nat) : Massey := (List.range 8).foldl (Massey.step s) ⟨[1], [1], 0, 1, 1⟩

/-- The decoder of a codeword: at most four octets are corrected; none when no codeword is that near (R322, R330). The
answer holds the corrected word and how many octets were corrected. (DEDUCED, log entry 79.) -/
def rsDecode (w : List Nat) : Option (List Nat × Nat) :=
  let s := rsSyndromes w
  if s.all (· == 0) then some (w, 0)
  else
    let x := rsLocator s
    let eval := fun (f : List Nat) v => rsEval f.reverse v
    let at_ := (List.range w.length).filter fun p => eval x.c (rsInv (rsPow (w.length - 1 - p))) == 0
    if 4 < x.len || at_.length ≠ x.len then none
    else
      let omega := (List.range 8).map fun k => (List.range (k + 1)).foldl (fun a i => a ^^^ rsMul (x.c.getD i 0) (s.getD (k - i) 0)) 0
      let der := (List.range 8).map fun i => if i % 2 = 0 then x.c.getD (i + 1) 0 else 0
      let fix := fun p =>
        let y := rsPow (w.length - 1 - p)
        rsMul y (rsMul (eval omega (rsInv y)) (rsInv (eval der (rsInv y))))
      let out := (List.range w.length).map fun p => w.getD p 0 ^^^ (if at_.contains p then fix p else 0)
      if (rsSyndromes out).all (· == 0) then some (out, x.len) else none

/-- Bits packed into octets. -/
def packBits : Nat → List Bool → List Nat
  | 0, _ => []
  | n + 1, bs => bitsToNat (bs.take 8) :: packBits n (bs.drop 8)

/-- Octets with the scrambler taken off (R281, R322). (DEDUCED, log entry 79.) -/
def descramble (os : List Nat) : List Nat := packBits os.length (scramble (octetBits os))

/-- A codeword of a burst as decoded: its 136 data octets as they stand when it cannot be corrected, whether it was,
and the octets corrected. -/
structure RsWord where
  data : List Nat
  ok : Bool
  corrected : Nat
  deriving DecidableEq, Repr

/-- The decoding of 144 received octets. -/
def rsWord (w : List Nat) : RsWord :=
  let os := (w ++ List.replicate 144 0).take 144
  match rsDecode os with
  | some (d, n) => ⟨d.take 136, true, n⟩
  | none => ⟨os.take 136, false, 0⟩

/-- The codewords of a descrambled payload, 144 octets each (R322). -/
def codewordsIn : Nat → List Nat → List (List Nat)
  | 0, _ => []
  | n + 1, os => os.take 144 :: codewordsIn n (os.drop 144)

end Sys2Proof.Machine
end

