-- ==== Sys2Proof/Machine/Crypto.lean ====
section
/-! DEFINITION. The published functions that the Edelweiss boundary uses (spec/00 R2, spec/12), on lists
of octets: SHA-256 and SHA-384 (FIPS 180-4), HMAC (FIPS 198-1), AES-256 (FIPS 197) with GCM
(SP 800-38D) and key wrap (SP 800-38F), and ECDSA and ECDH on P-384 (FIPS 186-5, SP 800-56A). -/

namespace Sys2Proof.Machine

/-! ### SHA-2

FIPS 180-4 defines its constants: the leading bits of the fractional parts of the square and cube roots of the
first primes.  They are computed so here. -/

/-- The first `n` primes above those of the list, each appended; `fuel` numbers from `m` on are tried. -/
def primesFrom (n : Nat) : Nat → Nat → List Nat → List Nat
  | 0, _, ps => ps
  | fuel + 1, m, ps =>
    if ps.length = n then ps
    else primesFrom n fuel (m + 1) (if ps.any fun p => m % p = 0 then ps else ps ++ [m])

/-- The 80 primes up to 409. -/
def shaPrimes : List Nat := primesFrom 80 420 2 []

/-- The first 64 bits of the fractional part of the `k`-th root of `p`, bit by bit from 2^68 down. -/
def rootBits (k p : Nat) : Nat :=
  ((List.range 69).foldr (fun i (r : Nat) => r + 2 ^ i * (if (r + 2 ^ i) ^ k ≤ p * 2 ^ (64 * k) then 1 else 0)) 0) % 2 ^ 64

/-- A hash function of the SHA-2 family: bits of a word; rounds; the words of its initial value; the three rotations of
Σ₀ and of Σ₁; the two rotations and the shift of σ₀ and of σ₁. -/
structure Sha2 where
  bits : Nat
  rounds : Nat
  start : List Nat
  sum0 : List Nat
  sum1 : List Nat
  sig0 : List Nat × Nat
  sig1 : List Nat × Nat

/-- The exclusive-or of a word's rotations right by the amounts listed. -/
def Sha2.turn (f : Sha2) (amounts : List Nat) (x : Nat) : Nat :=
  amounts.foldl (fun acc r => acc ^^^ ((x >>> r) ||| (x <<< (f.bits - r)) % 2 ^ f.bits)) 0

/-- The words while a block is compressed: the last values of a, newest first, the last of e, and the next sixteen words
of the message schedule, the next one first. -/
structure ShaWork where
  as : List Nat
  es : List Nat
  next : List Nat

/-- A round with its constant.  The working variables b, c, d are the earlier values of a, and f, g, h those of e. -/
def Sha2.round (f : Sha2) (s : ShaWork) (k : Nat) : ShaWork :=
  let a := fun i => s.as.getD i 0
  let e := fun i => s.es.getD i 0
  let w := fun i => s.next.getD i 0
  let choice := e 2 ^^^ (e 0 &&& (e 1 ^^^ e 2))
  let majority := (a 0 &&& a 1) ||| (a 2 &&& (a 0 ||| a 1))
  let t := k + w 0 + choice + f.turn f.sum1 (e 0) + e 3
  { as := (f.turn f.sum0 (a 0) + majority + t) % 2 ^ f.bits :: s.as.take 3
    es := (a 3 + t) % 2 ^ f.bits :: s.es.take 3
    next := s.next.drop 1 ++
      [(w 0 + w 9 + (f.turn f.sig0.1 (w 1) ^^^ w 1 >>> f.sig0.2) + (f.turn f.sig1.1 (w 14) ^^^ w 14 >>> f.sig1.2)) % 2 ^ f.bits] }

/-- A list cut into pieces of `k` items; `fuel` bounds their number. -/
def chunks {α : Type} (k : Nat) : Nat → List α → List (List α)
  | 0, _ => []
  | fuel + 1, l => if l.isEmpty then [] else l.take k :: chunks k fuel (l.drop k)

/-- The round constants, cut to the word. -/
def Sha2.ks (f : Sha2) : List Nat := (shaPrimes.take f.rounds).map fun p => rootBits 3 p / 2 ^ (64 - f.bits)

/-- A block of sixteen words taken into the hash value. -/
def Sha2.block (f : Sha2) (ks h : List Nat) (words : List Nat) : List Nat :=
  let z := ks.foldl f.round { as := h.take 4, es := h.drop 4, next := words }
  List.zipWith (fun x y => (x + y) % 2 ^ f.bits) h (z.as ++ z.es)

/-- The words of the hash of octets.  The message is followed by the octet 80₁₆, zeros, and its length in bits in the
last two words of a block. -/
def Sha2.hash (f : Sha2) (m : List Nat) : List Nat :=
  let wl := f.bits / 8
  let zeros := (16 * wl - (m.length + 1 + 2 * wl) % (16 * wl)) % (16 * wl)
  let padded := m ++ 0x80 :: List.replicate zeros 0 ++ natToOctets (2 * wl) (8 * m.length)
  let words := (chunks wl (padded.length / wl) padded).map octetsToNat
  (chunks 16 (words.length / 16) words).foldl (f.block f.ks) f.start

/-- SHA-256: its initial value is of the square roots of the first eight primes. -/
def sha2of256 : Sha2 where
  bits := 32
  rounds := 64
  start := (shaPrimes.take 8).map fun p => rootBits 2 p / 2 ^ 32
  sum0 := [2, 13, 22]
  sum1 := [6, 11, 25]
  sig0 := ([7, 18], 3)
  sig1 := ([17, 19], 10)

/-- SHA-384: its initial value is of the ninth to the sixteenth prime. -/
def sha2of384 : Sha2 where
  bits := 64
  rounds := 80
  start := ((shaPrimes.drop 8).take 8).map (rootBits 2)
  sum0 := [28, 34, 39]
  sum1 := [14, 18, 41]
  sig0 := ([1, 8], 7)
  sig1 := ([19, 61], 6)

/-- SHA-256 of octets (FIPS 180-4). (PRESUMED, log entry 12.) -/
def sha256 (m : List Nat) : List Nat := (sha2of256.hash m).flatMap (natToOctets 4)

/-- SHA-384 of octets (FIPS 180-4). (PRESUMED, log entry 12.) -/
def sha384 (m : List Nat) : List Nat := ((sha2of384.hash m).take 6).flatMap (natToOctets 8)

/-- HMAC-SHA-256 (FIPS 198-1). (PRESUMED, log entry 12.) -/
def hmac256 (key m : List Nat) : List Nat :=
  let k := if 64 < key.length then sha256 key else key
  let k := k ++ List.replicate (64 - k.length) 0
  sha256 (k.map (· ^^^ 0x5c) ++ sha256 (k.map (· ^^^ 0x36) ++ m))

/-! ### AES-256 -/

/-- Multiplication by x in the field of AES. -/
def xtime (a : Nat) : Nat := if a < 128 then 2 * a else (2 * a) % 256 ^^^ 0x1b

/-- Multiplication in the field of AES. -/
def gmul (a b : Nat) : Nat :=
  ((List.range 8).foldl (fun (r : Nat × Nat) i => (if b.testBit i then r.1 ^^^ r.2 else r.1, xtime r.2)) (0, a)).1

/-- The inverse in the field of AES, 0 for 0: a^254. -/
def ginv (a : Nat) : Nat :=
  let sq := fun x => gmul x x
  let a2 := sq a; let a4 := sq a2; let a8 := sq a4; let a16 := sq a8; let a32 := sq a16; let a64 := sq a32
  gmul (gmul (gmul a2 a4) (gmul a8 a16)) (gmul (gmul a32 a64) (sq a64))

/-- The substitution of AES, computed from its definition. -/
def sboxOf (a : Nat) : Nat :=
  let b := ginv a
  let rl := fun k => (b * 2 ^ k + b / 2 ^ (8 - k)) % 256
  b ^^^ rl 1 ^^^ rl 2 ^^^ rl 3 ^^^ rl 4 ^^^ 0x63

/-- The AES substitution table. -/
def sboxTable : List Nat := (List.range 256).map sboxOf

/-- The inverse substitution table. -/
def invSboxTable : List Nat := (List.range 256).map fun y => (sboxTable.findIdx? (· = y)).getD 0

/-- Word-wise exclusive-or of octet lists. -/
def xorList (a b : List Nat) : List Nat := List.zipWith (· ^^^ ·) a b

/-- The AES-256 key schedule, newest 4-octet word first: `n` further words after the first eight. -/
def aesExpand : Nat → Nat → List (List Nat) → List (List Nat)
  | 0, _, l => l
  | n + 1, i, l =>
    let t := l.headD []
    let sub := fun (x : List Nat) => x.map fun o => sboxTable.getD o 0
    let t := if i % 8 = 0 then xorList (sub (t.drop 1 ++ t.take 1)) [2 ^ (i / 8 - 1), 0, 0, 0]
             else if i % 8 = 4 then sub t else t
    aesExpand n (i + 1) (xorList (l.getD 7 []) t :: l)

/-- The fifteen round keys of AES-256. -/
def aesKeys (key : List Nat) : List (List Nat) :=
  (chunks 4 15 (aesExpand 52 8 (chunks 4 8 key).reverse).reverse).map List.flatten

/-- ShiftRows: output octet 4c + r is input octet 4(c + r) + r. -/
def shiftRows (b : List Nat) : List Nat := (List.range 16).map fun i => b.getD ((i + 4 * (i % 4)) % 16) 0

/-- The inverse of ShiftRows. -/
def invShiftRows (b : List Nat) : List Nat := (List.range 16).map fun i => b.getD ((i + 12 * (i % 4)) % 16) 0

/-- MixColumns with the first row `m` of its matrix. -/
def mixColumns (m b : List Nat) : List Nat :=
  (List.range 16).map fun i =>
    (List.range 4).foldl (fun x j => x ^^^ gmul (m.getD ((j + 4 - i % 4) % 4) 0) (b.getD (i / 4 * 4 + j) 0)) 0

/-- AES-256 encryption of one block. -/
def aesEnc (key blk : List Nat) : List Nat :=
  let ks := aesKeys key
  let sub := fun (x : List Nat) => x.map fun o => sboxTable.getD o 0
  let b := (ks.drop 1 |>.take 13).foldl (fun b k => xorList (mixColumns [2, 3, 1, 1] (shiftRows (sub b))) k)
    (xorList blk (ks.headD []))
  xorList (shiftRows (sub b)) (ks.getD 14 [])

/-- AES-256 decryption of one block. -/
def aesDec (key blk : List Nat) : List Nat :=
  let ks := (aesKeys key).reverse
  let sub := fun (x : List Nat) => x.map fun o => invSboxTable.getD o 0
  let b := (ks.drop 1 |>.take 13).foldl
    (fun b k => mixColumns [14, 11, 13, 9] (xorList (sub (invShiftRows b)) k)) (xorList blk (ks.headD []))
  xorList (sub (invShiftRows b)) (ks.getD 14 [])

/-! ### GCM and key wrap -/

/-- Multiplication in GF(2^128) of GCM, block values most significant bit first. -/
def ghashMul (x y : Nat) : Nat :=
  ((List.range 128).foldl
    (fun (r : Nat × Nat) i =>
      (if x.testBit (127 - i) then r.1 ^^^ r.2 else r.1,
       if r.2.testBit 0 then r.2 / 2 ^^^ 0xe1 * 2 ^ 120 else r.2 / 2)) (0, y)).1

/-- An octet list completed with zeros to whole 16-octet blocks. -/
def pad16 (l : List Nat) : List Nat := l ++ List.replicate ((16 - l.length % 16) % 16) 0

/-- GHASH of AAD and ciphertext under a hash key. -/
def ghash (h : Nat) (aad ct : List Nat) : Nat :=
  let d := pad16 aad ++ pad16 ct ++ natToOctets 8 (8 * aad.length) ++ natToOctets 8 (8 * ct.length)
  (chunks 16 (d.length / 16 + 1) d).foldl (fun y b => ghashMul (y ^^^ octetsToNat b) h) 0

/-- The key stream of GCM: counter blocks from `c` on. -/
def gcmStream (key iv : List Nat) : Nat → Nat → List Nat
  | 0, _ => []
  | n + 1, c => aesEnc key (iv ++ natToOctets 4 c) ++ gcmStream key iv n (c + 1)

/-- The GCM tag of AAD and ciphertext with a 12-octet IV. -/
def gcmTag (key iv aad ct : List Nat) : List Nat :=
  let h := octetsToNat (aesEnc key (List.replicate 16 0))
  xorList (natToOctets 16 (ghash h aad ct)) (aesEnc key (iv ++ [0, 0, 0, 1]))

/-- The GCM counter-mode transformation of text, the same in both directions. -/
def gcmText (key iv text : List Nat) : List Nat := xorList text (gcmStream key iv ((text.length + 15) / 16) 2)

/-- AES-256-GCM encryption: ciphertext and tag (SP 800-38D). (PRESUMED, log entry 12.) -/
def gcmEncrypt (key iv aad text : List Nat) : List Nat × List Nat :=
  let ct := gcmText key iv text
  (ct, gcmTag key iv aad ct)

/-- One unwrapping step of AES key wrap at index `t` for `n` semiblocks: the integrity register and the
semiblocks. -/
def kwStep (key : List Nat) (n : Nat) (st : List Nat × List (List Nat)) (t : Nat) : List Nat × List (List Nat) :=
  let i := (t - 1) % n
  let b := aesDec key (xorList st.1 (natToOctets 8 t) ++ st.2.getD i [])
  (b.take 8, st.2.set i (b.drop 8))

/-- AES key unwrap (SP 800-38F KW): the plaintext when the integrity value is right. (PRESUMED, log entry 12.) -/
def kwUnwrap (key c : List Nat) : Option (List Nat) :=
  let n := c.length / 8 - 1
  let r := ((List.range (6 * n)).map (· + 1)).reverse.foldl (kwStep key n) (c.take 8, chunks 8 n (c.drop 8))
  if c.length % 8 = 0 ∧ 2 ≤ n ∧ r.1 = List.replicate 8 0xa6 then some r.2.flatten else none

/-! ### P-384 -/

/-- The field prime of P-384. -/
def p384 : Nat := 2 ^ 384 - 2 ^ 128 - 2 ^ 96 + 2 ^ 32 - 1
/-- The order of its base point. -/
def n384 : Nat := 0xffffffffffffffffffffffffffffffffffffffffffffffffc7634d81f4372ddf581a0db248b0a77aecec196accc52973
/-- Its coefficient b. -/
def b384 : Nat := 0xb3312fa7e23ee7e4988e056be3f82d19181d9c6efe8141120314088f5013875ac656398d8a2ed19d2a85c8edd3ec2aef
/-- Its base point. -/
def g384 : Nat × Nat :=
  (0xaa87ca22be8b05378eb1c71ef320ad746e1d3b628ba79b9859f741e082542a385502f25dbf55296c3a545e3872760ab7,
   0x3617de4a96262c6f5d9e98bf9292dc29f8f41dbd289a147ce9da3113b5f0b8c00a60b1ce1d7e819d7a431d7c90ea0e5f)

/-- Modular exponentiation, least bit first; `fuel` bounds the bits. -/
def powMod (m : Nat) : Nat → Nat → Nat → Nat
  | 0, _, _ => 1 % m
  | fuel + 1, b, e =>
    if e = 0 then 1 % m
    else
      let r := powMod m fuel (b * b % m) (e / 2)
      if e % 2 = 1 then b * r % m else r

/-- The inverse modulo a prime. -/
def invMod (m a : Nat) : Nat := powMod m 400 (a % m) (m - 2)

/-- Doubling in Jacobian coordinates on P-384. -/
def jdbl (q : Nat × Nat × Nat) : Nat × Nat × Nat :=
  let p := p384
  let x := q.1; let y := q.2.1; let z := q.2.2
  let zz := z * z % p
  let m := 3 * ((x + p - zz) * (x + zz)) % p
  let s := 4 * x * (y * y % p) % p
  let x3 := (m * m + 2 * (p - s)) % p
  (x3, (m * (s + p - x3) + (p - 8 * (y * y % p * (y * y % p)) % p)) % p, 2 * y * z % p)

/-- Addition in Jacobian coordinates on P-384; z = 0 is the point at infinity. -/
def jadd (a b : Nat × Nat × Nat) : Nat × Nat × Nat :=
  let p := p384
  if a.2.2 = 0 then b
  else if b.2.2 = 0 then a
  else
    let z1 := a.2.2 * a.2.2 % p
    let z2 := b.2.2 * b.2.2 % p
    let u1 := a.1 * z2 % p
    let u2 := b.1 * z1 % p
    let s1 := a.2.1 * (z2 * b.2.2 % p) % p
    let s2 := b.2.1 * (z1 * a.2.2 % p) % p
    if u1 = u2 then (if s1 = s2 then jdbl a else (1, 1, 0))
    else
      let h := (u2 + p - u1) % p
      let r := (s2 + p - s1) % p
      let h2 := h * h % p
      let h3 := h2 * h % p
      let x3 := (r * r + (p - h3) + 2 * (p - u1 * h2 % p)) % p
      (x3, (r * ((u1 * h2 % p) + p - x3) + (p - s1 * h3 % p)) % p, h * (a.2.2 * b.2.2 % p) % p)

/-- Scalar multiplication on P-384; `fuel` bounds the bits. -/
def jmul : Nat → Nat → Nat × Nat × Nat → Nat × Nat × Nat
  | 0, _, _ => (1, 1, 0)
  | fuel + 1, k, q =>
    if k = 0 then (1, 1, 0)
    else
      let r := jmul fuel (k / 2) (jdbl q)
      if k % 2 = 1 then jadd q r else r

/-- The affine point of Jacobian coordinates; none at infinity. -/
def jaffine (q : Nat × Nat × Nat) : Option (Nat × Nat) :=
  if q.2.2 = 0 then none
  else
    let zi := invMod p384 q.2.2
    let z2 := zi * zi % p384
    some (q.1 * z2 % p384, q.2.1 * (z2 * zi % p384) % p384)

/-- Whether a point lies on P-384. -/
def onCurve (q : Nat × Nat) : Bool :=
  q.1 < p384 && q.2 < p384 &&
    q.2 * q.2 % p384 == (q.1 * q.1 % p384 * q.1 + (p384 - 3) * q.1 + b384) % p384

/-- The scalar multiple of an affine point. -/
def ecMul (k : Nat) (q : Nat × Nat) : Option (Nat × Nat) := jaffine (jmul 384 k (q.1, q.2, 1))

/-- ECDSA verification over a hash value (FIPS 186-5). (PRESUMED, log entry 12.) -/
def ecdsaVerify (pub : Nat × Nat) (hash r s : Nat) : Bool :=
  if !(onCurve pub) || r = 0 || s = 0 || n384 ≤ r || n384 ≤ s then false
  else
    let w := invMod n384 s
    let q := jadd (jmul 384 (hash * w % n384) (g384.1, g384.2, 1)) (jmul 384 (r * w % n384) (pub.1, pub.2, 1))
    match jaffine q with
    | none => false
    | some xy => xy.1 % n384 == r

/-- ECDSA signature with private key `d` and per-message secret `k` (FIPS 186-5). (PRESUMED, log entry 12; DEDUCED, log entry 75.) -/
def ecdsaSign (d hash k : Nat) : Nat × Nat :=
  match ecMul k g384 with
  | none => (0, 0)
  | some xy =>
    let r := xy.1 % n384
    (r, invMod n384 k * ((hash + r * d) % n384) % n384)

end Sys2Proof.Machine
end

