-- ==== Sys2Proof/Machine/Svc.lean ====
section
/-! DEFINITION. The command layer of the service link (spec/05): status codes, slots, completions, the
checks of intake and the choice of the command that starts next. -/

namespace Sys2Proof.Machine

open Ev Reg

/-! ### Status codes (R209) -/

def eOk : Nat := 0
def eFormat : Nat := 1
def eOpcode : Nat := 2
def eReserved : Nat := 3
def eRange : Nat := 4
def eState : Nat := 5
def eMode : Nat := 6
def ePage : Nat := 7
def eCrit : Nat := 8
def eLocked : Nat := 9
def eAuth : Nat := 10
def eReplay : Nat := 11
def eAddr : Nat := 12
def ePoison : Nat := 13
def eKind : Nat := 14
def eRollback : Nat := 15
def eKey : Nat := 16
def eSig : Nat := 17
def eLate : Nat := 18
def eAbort : Nat := 19
def eBusy : Nat := 20

/-! ### Slots -/

/-- Whether the service link and the boot port work: the supervisor and management domain is up and the host reset is
not held (R170, R604). -/
def State.svcLive (s : State) : Bool := s.up && !s.pwr.hrst

/-- The command that holds a slot (R187). -/
def State.cmdAt (s : State) (tag : Nat) : Option Cmd := sget (fun _ => none) s.svc.slots tag

/-- The state with a slot set. -/
def State.setCmd (s : State) (tag : Nat) (c : Option Cmd) : State :=
  { s with svc := { s.svc with slots := sput (fun _ => none) s.svc.slots tag c } }

/-- The commands of busy slots. -/
def State.cmds (s : State) : List Cmd := s.svc.slots.filterMap (·.2)

/-- Word `i` of a command's payload. -/
def Cmd.w (c : Cmd) (i : Nat) : Word := c.pkt.words.getD i 0

/-- The page of a command. -/
def Cmd.page (c : Cmd) : Nat := c.pkt.page

/-- The tag of a command. -/
def Cmd.tag (c : Cmd) : Nat := c.pkt.tag

/-! ### Completions (R181, R183, R195, R203) -/

/-- The payload words of a completion: status word, result, data, and the word that completes a pair. -/
def Completion.words (k : Completion) : List PWord :=
  let l := ⟨word (k.detail % 2 ^ 27 * 2 ^ 9 + k.status), false⟩ :: k.result :: k.data
  if l.length % 2 = 0 then l else l ++ [PWord.zero]

/-- The bits of a list as octets, first bit most significant, completed with zeros (R183). -/
def bitsToOctets (l : List Bool) : List Nat :=
  (List.range ((l.length + 7) / 8)).map fun i =>
    ((List.range 8).map fun j => b2n (l.getD (8 * i + j) false) * 2 ^ (7 - j)).sum

/-- The header octets of a command or completion with FLAG taken as 0 (R181, R195). -/
def headerOctets (type : Nat) (crit psn : Bool) (page rsvd tag opcode len : Nat) : List Nat :=
  [type * 16 + 1, b2n crit * 128 + b2n psn * 64 + page, rsvd * 2 + tag / 256, tag % 256, opcode / 256, opcode % 256,
   len / 256, len % 256]

/-- The octets of a completion that its CHECK covers (R195). -/
def Completion.covered (k : Completion) : List Nat :=
  let w := k.words
  let psn := w.any (·.p)
  headerOctets 2 k.auth.isSome psn k.page 0 k.tag k.opcode (w.length / 2) ++ packWords (w.map (·.v)) ++
    (if psn then bitsToOctets (w.map (·.p)) else []) ++
    (match k.auth with
      | some (ctr, _) => natToOctets 8 ctr
      | none => [])

/-- The CHECK of a completion that carries CRIT = 1 (R195). -/
def Completion.check (k : Completion) : List Nat :=
  match k.auth with
  | some (_, key) => (hmac256 key k.covered).take 16
  | none => []

/-- A completion joins the packets waiting on its path (R192). -/
def State.queueCompletion (s : State) (k : Completion) : State :=
  if k.boot then { s with svc := { s.svc with bootOut := s.svc.bootOut ++ [k] } }
  else { s with svc := { s.svc with linkOut := s.svc.linkOut ++ [k] } }

/-- Header word `i` of an image. -/
def Image.h (m : Image) (i : Nat) : Word := (m.header.getD i PWord.zero).v

/-- The core kind an image's header names. -/
def Image.kind (m : Image) : Nat := (m.h 1).bits 26 24

/-- The core kind of the image that the command of a slot has in the loader or the store; 0 when it has none there (R121). -/
def State.imageKind (s : State) (tag : Nat) : Nat :=
  match (s.img.load.toList ++ s.img.waiting).find? fun l => l.by_ = .command tag with
  | some l => l.image.kind % 4
  | none => match s.img.store with
    | some x => if x.slot = tag then x.kind else 0
    | none => 0

/-- The last `CORE.LOAD` or `IMG.STORE` to complete, as `IMG_LAST` shows it (R121). -/
def State.imgLast (s : State) (opcode status kind : Nat) : State :=
  if opcode = 0x0401 ∨ opcode = 0x0501 then
    ((s.wr IMG_LAST_STATUS status).wr IMG_LAST_OP (b2n (opcode = 0x0501))).wr IMG_LAST_KIND kind
  else s

/-- The command in a slot completes: it no longer runs or holds instances, and its completion waits
(R121, R187, R192, R195, R203). -/
def State.completeP (s : State) (tag status detail : Nat) (result : PWord) (data : List PWord) : State :=
  match s.cmdAt tag with
  | none => s
  | some c =>
    if c.stage = .done then s
    else
      ((s.setCmd tag (some { c with stage := .done, holds := false })).queueCompletion
        ⟨c.tag, c.pkt.boot, c.page, c.opcode, status, detail, result, data, c.auth, false⟩).imgLast
          c.opcode status (s.imageKind tag)

/-- A completion with a clean result. -/
def State.complete (s : State) (tag status : Nat) (detail : Nat := 0) (result : Nat := 0)
    (data : List PWord := []) : State :=
  s.completeP tag status detail ⟨word result, false⟩ data

/-- Clean data words. -/
def cleanWords (l : List Nat) : List PWord := l.map fun n => ⟨word n, false⟩

/-! ### Payload checks (R182) -/

/-- The index of the first payload word that has a bit set outside its mask; words beyond the masks are
not checked. -/
def reservedAt : List Word → List Nat → Nat → Option Nat
  | _, [], _ => none
  | ws, m :: ms, i => if (ws.getD i 0).toNat &&& m = (ws.getD i 0).toNat then reservedAt ws ms (i + 1) else some i

/-- A mask of bits `hi` to `lo`. -/
def mask (hi lo : Nat) : Nat := 2 ^ (hi + 1) - 2 ^ lo

/-- Runs `k` when the payload has no reserved bit set, else completes `E_RESERVED` with DETAIL (R182). -/
def State.unreserved (s : State) (c : Cmd) (masks : List Nat) (k : State → State) : State :=
  match reservedAt c.pkt.words masks 0 with
  | some i => s.complete c.tag eReserved i
  | none => k s

/-! ### Command keys and counters (R194–R198) -/

/-- A page's key slot. -/
def State.pageKey (s : State) (page slot : Nat) : Option KeySlot := sget (fun _ => none) s.edw.keys (256 * page + slot)

/-- A page's command key. -/
def State.commandKey (s : State) (page : Nat) : Option (List Nat) :=
  (s.pageKey page 0).bind fun k => k.g0.map (·.key)

/-- A page's last accepted counter. -/
def State.lastCounter (s : State) (page : Nat) : Nat := s.rd EDW_PG_CTR_A page * 2 ^ 32 + s.rd EDW_PG_CTR_B page

/-- The octets of a command that its CHECK covers (R195). -/
def pktCovered (p : HostPkt) (opcode : Nat) : List Nat :=
  headerOctets 1 p.crit p.psn p.page p.rsvd p.tag opcode p.len ++ packWords p.words ++
    (if p.psn then List.replicate ((2 * p.len + 7) / 8) 0 else []) ++ natToOctets 8 p.counter.toNat

/-- Whether CHECK verifies under a key (R194, R195). -/
def pktVerifies (p : HostPkt) (opcode : Nat) (key : List Nat) : Bool :=
  (hmac256 key (pktCovered p opcode)).take 16 = p.check.map BitVec.toNat

/-- A counter is accepted (R196, R198). -/
def State.acceptCounter (s : State) (page ctr : Nat) : State :=
  let s := (s.wr EDW_PG_CTR_A (ctr / 2 ^ 32) page).wr EDW_PG_CTR_B (ctr % 2 ^ 32) page
  let s := if 0xE000000000000000 ≤ ctr ∧ !s.rdb EDW_PG_STAT_CTR_HIGH page then
      (s.wr EDW_PG_STAT_CTR_HIGH 1 page).occur SVC_CTR_HIGH page
    else s
  if ctr = 2 ^ 64 - 1 then (s.wr EDW_PG_STAT_LOCKED 1 page).occur SVC_PAGE_LOCK page else s

/-! ### The command table (R202) -/

/-- How many payload words a command has. -/
inductive WordCount
  | fixed (n : Nat)
  /-- two words and N values, N in word 1 (R204) -/
  | counted
  /-- `KEY.LOAD` (R461) -/
  | keyLoad
  /-- `LINE.LOAD` (R227) -/
  | lineLoad
  deriving DecidableEq, Repr

/-- Who may use a command as far as intake step 11 judges it. -/
inductive Pages
  | any | zero
  /-- "own", judged by the command's own checks -/
  | own
  /-- "own", with the page named in word 0 bits 35–30 -/
  | ownWord0
  deriving DecidableEq, Repr

/-- A row of R202: opcode, critical, pages, the modes as a list of `PWR_STAT.MODE` values, payload. -/
structure CmdSpec where
  opcode : Nat
  crit : Bool
  pages : Pages
  modes : List Nat
  words : WordCount
  deriving DecidableEq, Repr

/-- Every mode in which commands are taken. -/
def mAll : List Nat := [1, 2, 3, 4, 5]

/-- The commands of R202. -/
def cmdTable : List CmdSpec :=
  [⟨0x0101, false, .any, mAll, .fixed 0⟩, ⟨0x0102, false, .any, mAll, .fixed 2⟩, ⟨0x0103, true, .zero, [5], .fixed 2⟩,
   ⟨0x0201, false, .own, mAll, .fixed 2⟩, ⟨0x0202, true, .zero, mAll, .counted⟩, ⟨0x0301, false, .zero, mAll, .fixed 2⟩,
   ⟨0x0302, false, .zero, mAll, .counted⟩, ⟨0x0401, true, .zero, [1, 2, 5], .fixed 3⟩, ⟨0x0402, true, .zero, mAll, .fixed 3⟩,
   ⟨0x0403, true, .zero, mAll, .fixed 1⟩, ⟨0x0501, true, .zero, [1, 2, 5], .fixed 2⟩, ⟨0x0601, true, .zero, mAll, .fixed 2⟩] ++
  [⟨0x0602, true, .zero, [2, 3, 4, 5], .fixed 2⟩, ⟨0x0603, true, .zero, mAll, .fixed 2⟩, ⟨0x0604, false, .any, mAll, .fixed 0⟩,
   ⟨0x0701, true, .zero, mAll, .fixed 4⟩, ⟨0x0702, true, .zero, mAll, .fixed 2⟩, ⟨0x0703, false, .any, mAll, .fixed 0⟩,
   ⟨0x0801, true, .zero, mAll, .fixed 2⟩, ⟨0x0901, true, .ownWord0, [2, 3, 4, 5], .keyLoad⟩,
   ⟨0x0902, true, .ownWord0, [2, 3, 4, 5], .fixed 2⟩, ⟨0x0903, true, .zero, mAll, .fixed 2⟩, ⟨0x0904, false, .any, mAll, .fixed 3⟩] ++
  [⟨0x0A01, true, .zero, [2, 3, 4, 5], .fixed 4⟩, ⟨0x0A02, true, .zero, [3, 4, 5], .fixed 2⟩,
   ⟨0x0A03, true, .zero, [3, 4, 5], .lineLoad⟩, ⟨0x0A04, true, .zero, [2, 3, 4, 5], .fixed 34⟩,
   ⟨0x0B01, true, .zero, [2, 3, 4, 5], .fixed 3⟩, ⟨0x0B02, true, .zero, [2, 3, 4, 5], .fixed 3⟩,
   ⟨0x0B03, true, .zero, [3, 4, 5], .fixed 2⟩, ⟨0x0B04, true, .own, [3, 4], .fixed 7⟩, ⟨0x0B05, true, .own, [3, 4, 5], .fixed 2⟩] ++
  [⟨0x0C01, false, .zero, mAll, .fixed 4⟩, ⟨0x0C02, true, .zero, mAll, .fixed 66⟩, ⟨0x0D01, true, .zero, mAll, .fixed 2⟩,
   ⟨0x0E01, false, .own, mAll, .fixed 2⟩, ⟨0x0E02, true, .zero, mAll, .fixed 3⟩, ⟨0x0F01, true, .own, [2, 3, 4], .fixed 6⟩,
   ⟨0x0F02, true, .own, [2, 3, 4, 5], .fixed 2⟩, ⟨0x0F03, true, .own, [2, 3, 4], .fixed 3⟩]

/-- The row of an opcode; none for a reserved opcode. -/
def findSpec : List CmdSpec → Nat → Option CmdSpec
  | [], _ => none
  | r :: t, opc => if r.opcode = opc then some r else findSpec t opc

/-- Whether LEN matches a word count (R182).  The count of `REG.WRITE` and `MEM.WRITE` is stated for an N
in range only; any other N is judged at step 13. -/
def lenOk (k : WordCount) (p : HostPkt) : Bool :=
  let w := fun i => (p.words.getD i 0).toNat
  let is := fun n => decide (p.len = (n + 1) / 2)
  match k with
  | .fixed n => is n
  | .counted =>
    let n := bitsOf (w 1) 11 0
    if 1 ≤ n ∧ n ≤ 2046 then is (2 + n) else decide (1 ≤ p.len)
  | .keyLoad =>
    if p.len < 2 then false
    else if bitsOf (w 3) 1 0 = 1 then is 52
    else if bitsOf (w 0) 16 16 = 1 then is 64
    else is 40
  | .lineLoad =>
    if p.len < 1 then false
    else if bitsOf (w 0) 9 8 = 1 then is 34 else is 2

/-! ### Intake (R191, R625) -/

/-- Whether intake is open on a path (R625). -/
def State.intakeOpen (s : State) (boot : Bool) : Bool :=
  s.rdb SVC_STAT_INTAKE || (boot && s.rdb SVC_STAT_BOOTROM)

/-- Commands taken while the S-core is held in its boot ROM (R201). (DEDUCED, log entry 65.) -/
def bootRomOpcodes : List Nat := [0x0101, 0x0201, 0x0302, 0x0501, 0x0603]

/-- Whether a packet is a `KEY.LOAD` with RECOVER of page 0 (R467). -/
def isRecover (opc : Nat) (p : HostPkt) : Bool :=
  opc = 0x0901 && p.page.val = 0 && (p.words.getD 0 0).bit 16

/-- The outcome of steps 8–10 for a packet with CRIT = 1: a failure status, or the key that verified it. -/
inductive CritCheck
  | fails (status : Nat)
  /-- the counter is accepted with this key; none under the bootstrap of R466 -/
  | accepted (key : Option (List Nat))
  /-- RECOVER: steps 9 and 10 are skipped and no counter is consumed (R467) -/
  | skipped
  deriving DecidableEq, Repr

/-- Steps 8–10 of R191 with R447, R466 and R467. (DEDUCED, log entry 61.) -/
def State.critCheck (s : State) (opc : Nat) (p : HostPkt) : CritCheck :=
  if s.rdb EDW_STAT_ERROR then .fails eLocked
  else if isRecover opc p then .skipped
  else if s.rdb EDW_PG_STAT_LOCKED p.page then .fails eLocked
  else
    match s.commandKey p.page with
    | some key =>
      if !pktVerifies p opc key then .fails eAuth
      else if p.counter.toNat ≤ s.lastCounter p.page then .fails eReplay
      else .accepted (some key)
    | none =>
      if p.page.val = 0 ∧ p.boot ∧ opc = 0x0901 ∧ (p.words.getD 0 0).bits 35 22 = 0 then
        if p.counter.toNat ≤ s.lastCounter p.page then .fails eReplay else .accepted none
      else .fails eAuth

/-- Steps 3–7 of R191; none when they pass. (DEDUCED, log entry 61.) -/
def State.earlyCheck (s : State) (opc : Nat) (p : HostPkt) : Option Nat :=
  let q := p.tag.val / 64
  let spec := findSpec cmdTable opc
  if !(s.rd SVC_CTL_QEN).testBit q then some eState
  else if !(s.rdb SVC_QCFG_SHARED 0 q || s.rd SVC_QCFG_OWNER 0 q = p.page) then some ePage
  else if p.rsvd.val ≠ 0 || p.psn || (match spec with | some r => !lenOk r.words p | none => false) then some eFormat
  else
    match spec with
    | none => some eOpcode
    | some r =>
      if s.rdb SVC_STAT_BOOTROM && !bootRomOpcodes.contains opc then some eState
      else if r.crit && !p.crit then some eCrit
      else none

/-- Steps 11 and 12 of R191, with R33 and R202; none when they pass. (DEDUCED, log entry 61.) -/
def State.lateCheck (s : State) (opc : Nat) (p : HostPkt) : Option Nat :=
  match findSpec cmdTable opc with
  | none => some eOpcode
  | some r =>
    let page := p.page.val
    let pageBad := match r.pages with
      | .any | .own => false
      | .zero => page ≠ 0
      | .ownWord0 => page ≠ 0 && (p.words.getD 0 0).bits 35 30 ≠ page
    if pageBad then some ePage
    else if !r.modes.contains s.mode || (opc = 0x0601 && s.rdb PWR_STAT_SHORT) then some eMode
    else none

/-- The slot of a packet becomes busy with a waiting command (R187, R191). -/
def State.takeSlot (s : State) (opc : Nat) (p : HostPkt) : State :=
  let s := { s with svc := { s.svc with seq := s.svc.seq + 1 } }
  s.setCmd p.tag (some ⟨p, opc, .waiting, s.svc.seq - 1, none, false, s.now, [], 0, s.samplesFor opc p.words⟩)

/-- Steps 8–10 applied: the counter accepted or the failure counted (R196); the status when they fail.  A bootstrap load,
which no key verifies, keeps the empty key until it installs one (R195). (DESIGN CHOICE, log entry 130.) -/
def State.applyCrit (s : State) (opc : Nat) (p : HostPkt) : State × Option Nat :=
  if !p.crit then (s, none)
  else
    match s.critCheck opc p with
    | .fails st =>
      if st = eAuth then (s.occur SVC_AUTH_FAIL p.page, some st)
      else if st = eReplay then (s.count SVC_REPLAY p.page, some st)
      else (s, some st)
    | .skipped => (s, none)
    | .accepted key =>
      let s := s.acceptCounter p.page p.counter.toNat
      (match s.cmdAt p.tag with
        | some c => s.setCmd p.tag (some { c with auth := some (p.counter.toNat, key.getD []) })
        | none => s, none)

/-! ### Starting commands (R189, R190, R624) -/

/-- The block instances a command acts on (R624), each as a number: kind · 2^20 + index. -/
def instancesOf (opc : Nat) (w : Nat → Word) : List Nat :=
  let one := fun k i => [k * 2 ^ 20 + i]
  let span := fun k a b => (List.range (b + 1)).filterMap fun i => if a ≤ i then some (k * 2 ^ 20 + i) else none
  match opc / 256 with
  | 0x04 =>
    let x := if opc = 0x0401 then w 2 else w 0
    span 1 (x.bits 16 10) (min (x.bits 6 0) 76)
  | 0x06 => if opc = 0x0601 ∨ opc = 0x0602 then one 2 0 else []
  | 0x07 => if opc = 0x0703 then [] else one 3 0
  | 0x08 => one 4 0
  | 0x09 =>
    if opc = 0x0903 then span 5 0 63 else if opc = 0x0904 then [] else one 5 ((w 0).bits 35 30)
  | 0x0A => one 6 ((w 0).bits 35 34)
  | 0x0B => one 7 ((w 0).bits 35 30)
  | 0x0C => if opc = 0x0C02 then one 8 ((w 0).bits 35 31) else []
  | 0x0D => span 8 ((w 0).bits 35 31) (min ((w 0).bits 30 26) 17)
  | 0x0F =>
    if opc = 0x0F01 then one 9 ((w 4).bits 16 0) else if opc = 0x0F02 then one 9 ((w 0).bits 16 0) else []
  | _ => []

/-- The instances of a command. -/
def Cmd.instances (c : Cmd) : List Nat := instancesOf c.opcode c.w

/-- The waiting command of a queue that arrived first. -/
def headOf (l : List Cmd) (q : Nat) : Option Cmd :=
  l.foldl
    (fun best c =>
      if c.stage = .waiting ∧ c.tag / 64 = q then
        match best with
        | some b => if c.seq < b.seq then some c else some b
        | none => some c
      else best)
    none

/-- Whether a running command holds an instance that a command acts on (R189, R624). -/
def State.instanceHeld (s : State) (c : Cmd) : Bool :=
  s.cmds.any fun x => x.stage = .running && x.holds && x.instances.any fun i => c.instances.contains i

/-- Whether a queue's head may start (R189, R624). -/
def State.mayStart (s : State) (c : Cmd) : Bool :=
  let l := s.cmds
  s.svc.drain.isNone && decide ((l.filter fun x => x.stage = .running).length < 32) &&
    !(c.pkt.fence && l.any fun x => decide (x.tag / 64 = c.tag / 64) && decide (x.seq < c.seq) && x.stage ≠ .done) &&
    !s.instanceHeld c

/-- The better of two candidates by R190: higher PRIO, then the round-robin pointer. -/
def State.better (s : State) (a b : Cmd) : Bool :=
  let pa := s.rd SVC_QCFG_PRIO 0 (a.tag / 64)
  let pb := s.rd SVC_QCFG_PRIO 0 (b.tag / 64)
  decide (pb < pa) || (pa = pb && decide ((a.tag / 64 + 7 - s.svc.rr) % 8 < (b.tag / 64 + 7 - s.svc.rr) % 8))

/-- The command that starts next, if any may (R190). (DEDUCED, log entry 61.) -/
def State.pick (s : State) : Option Cmd :=
  (List.range 8).foldl
    (fun best q =>
      match headOf s.cmds q with
      | none => best
      | some c =>
        if s.mayStart c then
          match best with
          | some b => if s.better c b then some c else some b
          | none => some c
        else best)
    none

/-- A command is marked as running and holds its instances (R189, R190). -/
def State.markStarted (s : State) (c : Cmd) : State :=
  { s with svc := { s.svc with rr := c.tag / 64 } }.setCmd c.tag (some { c with stage := .running, holds := true })

/-- Every command ends without a completion: slots free, nothing waiting to be sent (R208, R584). -/
def State.dropCommands (s : State) : State :=
  { s with svc := { s.svc with
    slots := [], linkOut := [], bootOut := [], bootOffer := none, sending := none, loops := [], loop := none, drain := none } }

/-- The checks of `REG.` and `MEM.` commands at step 13 (R182, R204): the status and DETAIL of the first that fails.
(DEDUCED, log entry 131.) -/
def Cmd.reachCheck (c : Cmd) (write : Bool) : Option (Nat × Nat) :=
  match reservedAt c.pkt.words [if write then mask 33 0 else mask 29 0, mask 11 0] 0 with
  | some i => some (eReserved, i)
  | none => if (c.w 1).bits 11 0 = 0 ∨ 2046 < (c.w 1).bits 11 0 then some (eRange, 0) else none

/-- Whether the completion of a slot waits to be sent with a status other than OK, of those that `p` names. -/
def State.failed (s : State) (tag : Nat) (p : Nat → Bool) : Bool :=
  (s.svc.linkOut ++ s.svc.bootOut).any fun k => k.tag = tag && !k.recalled && k.status ≠ eOk && p k.status

/-- The statuses of step 13 that the state of a block instance cannot change: reserved values, ranges, form and page (R191). -/
def eFixed (st : Nat) : Bool := st = eReserved || st = eRange || st = eFormat || st = ePage

/-- Step 13 of R191 for a command that cannot start yet: what the command's own checks refuse is refused at once, and the
rest waits.  A command that waits for a running one on the same instance is not judged by the state that the running one
leaves there meanwhile (R189).  A `REG.` or `MEM.` command is refused by the form of its payload alone, since the statuses
of its words are its work. (DEDUCED, log entry 61.) -/
def State.judgeWaiting (perform : Cmd → State → State) (c : Cmd) (s : State) : State :=
  if c.opcode / 256 = 2 ∨ c.opcode / 256 = 3 then
    match c.reachCheck (c.opcode % 2 = 0) with
    | some (st, d) => s.complete c.tag st d
    | none => s
  else
    let t := perform c (s.markStarted c)
    if t.failed c.tag fun st => !s.instanceHeld c || eFixed st then { t with svc := { t.svc with rr := s.svc.rr } } else s

/-- Intake for a packet with an opcode, up to the start of its command: `perform` is the command's own
checks and work (R191, R625).  A packet that ends on the link during a loop finds intake closed. (DEDUCED, log entry 61.) -/
def State.intakeWith (perform : Cmd → State → State) (opc : Nat) (p : HostPkt) (s : State) : State :=
  if !s.svcLive || (!p.boot && s.rd SVC_STAT_LINK ≠ 4 && s.rd SVC_STAT_LINK ≠ 7) then s
  else if !s.intakeOpen p.boot then s.count SVC_NO_INTAKE
  else if (s.cmdAt p.tag).isSome then s.count SVC_TAG_DUP
  else
    let s := s.takeSlot opc p
    match s.earlyCheck opc p with
    | some st => s.complete p.tag st
    | none =>
      let (s, fail) := s.applyCrit opc p
      match fail with
      | some st => s.complete p.tag st
      | none =>
        match s.lateCheck opc p with
        | some st => s.complete p.tag st
        | none =>
          let start := match s.pick with
            | some c => if c.tag = p.tag.val then some c else none
            | none => none
          match start, s.cmdAt p.tag with
          | some c, _ => perform c (s.markStarted c)
          | none, some c => s.judgeWaiting perform c
          | none, none => s

/-! ### SVC commands (R193, R203, R179) -/

/-- `SVC.NOP`: result LP word B at intake (R203). -/
def State.cmdNop (c : Cmd) (s : State) : State := s.complete c.tag eOk 0 (lpB c.at_)

/-- `SVC.RECALL` (R193). -/
def State.cmdRecall (c : Cmd) (s : State) : State :=
  s.unreserved c [mask 8 0, 0] fun s =>
    let t := (c.w 0).bits 8 0
    match sget (fun _ => none) s.svc.kept t with
    | none => s.complete c.tag eState
    | some k =>
      if (s.cmdAt t).isSome then s.complete c.tag eState
      else if k.page ≠ c.page then s.complete c.tag ePage
      else (s.queueCompletion { k with boot := c.pkt.boot, recalled := true }).complete c.tag eOk

/-- `SVC.LOOP` (R178, R179, R203): the loop starts once its completion has been sent; the state its PRBS31 starts from is
open (DESIGN CHOICE, log entry 111), and DETAIL of its E_RANGE is 0. (DEDUCED, log entries 57 and 131.) -/
def State.cmdLoop (c : Cmd) (s : State) : State :=
  s.unreserved c [mask 1 0, mask 13 0] fun s =>
    let m := (c.w 0).bits 1 0
    let d := (c.w 1).bits 13 0
    if m = 0 then s.complete c.tag eReserved
    else if d < 1 ∨ 10000 < d then s.complete c.tag eRange
    else if c.pkt.boot then s.complete c.tag eState
    else ({ s.used with svc := { s.svc with loops := s.svc.loops ++ [Loop.mk m d c.tag (s.open_ % 2 ^ 31)] } }).complete c.tag eOk

/-! ### TIME and RTC commands (R54–R56, R71, R207) -/

/-- `TIME.RESTEP` (R54–R56). -/
def State.cmdRestep (c : Cmd) (s : State) : State :=
  s.unreserved c [mask 2 0] fun s =>
    let m := (c.w 0).bits 2 0
    let n := ntOfWords (c.w 1).toNat (c.w 2).toNat (c.w 3).toNat
    if 2 ≤ m then s.complete c.tag eReserved
    else if m = 0 ∧ ¬(c.w 1 = 0 ∧ c.w 2 = 0 ∧ c.w 3 = 0) then s.complete c.tag eFormat
    else if m = 1 ∧ n = none then s.complete c.tag eRange
    else if s.rd TIME_STAT_STATE = stFree ∨ s.rd TIME_STAT_STATE = stAcquire then s.complete c.tag eState
    else if m = 0 ∧ !s.rdb TIME_STAT_JUMP then s.complete c.tag eState
    else
      let off := if m = 0 then (s.time.offset : Int) + s.time.jumpMean else n.getD 0
      if off < 0 then s.complete c.tag eRange
      else { s with time := { s.time with restep := some ⟨off, s.restepSf, false, s.now⟩ } }.complete c.tag eOk

/-- The seconds of a two-word payload: word N0 and the top 12 bits of N1 (R207). -/
def Cmd.seconds (c : Cmd) : Nat := (c.w 0).toNat * 4096 + (c.w 1).bits 35 24

/-- `TIME.TOD` (R45, R207). -/
def State.cmdTod (c : Cmd) (s : State) : State :=
  s.unreserved c [mask 35 0, mask 35 24] fun s =>
    { s with time := { s.time with todNext := some c.seconds } }.complete c.tag eOk

/-- `TIME.READ` (R207): LP words A and B and network time as one instant. -/
def State.cmdTimeRead (c : Cmd) (s : State) : State :=
  s.complete c.tag eOk 0 0 (cleanWords ([lpA s.now, lpB s.now] ++ ntWords (s.ntAt s.now)))

/-- `RTC.SET` (R71, R207). -/
def State.cmdRtcSet (c : Cmd) (s : State) : State :=
  s.unreserved c [mask 35 0, mask 35 24] fun s =>
    if s.rd TIME_STAT_STATE = stLocked ∧ s.rdb RTC_CTL_SYNC then s.complete c.tag eState
    else (s.stepCalendar c.seconds).complete c.tag eOk

end Sys2Proof.Machine
end

