-- ==== Sys2Proof/Machine/Traffic.lean ====
section
/-! DEFINITION. Forwarding (spec/11): lookups, mailboxes, client frames, upstream segments, tag results,
egress, the sweep and the `FWD` and `QUE` commands. -/

namespace Sys2Proof.Machine

open Ev Reg

/-! ### Mailboxes (R427, R428) -/

/-- A packet goes to a core's mailbox, whatever the mode; a full mailbox drops it. -/
def State.deliver (s : State) (core box : Nat) (octets : List Nat) : State :=
  let k := 4 * core + box
  let l := sget (fun _ => []) s.traf.boxes k
  if 256 ≤ l.length then s.count MBX_FULL k
  else if s.freeDescs = 0 ∨ s.freeCells < cellsOf octets.length then s.count BUF_NODESC 0
  else
    let (d, s) := s.newPacket 0 0 octets.length octets
    { s with traf := { s.traf with boxes := sput (fun _ => []) s.traf.boxes k (l ++ [d]) } }

/-- A network time value as one 94-bit number: 48-bit seconds, 30-bit nanoseconds, 16-bit fraction (R41). -/
def ntBits (z : Int) : Nat :=
  (z / ntSec).toNat % 2 ^ 48 * 2 ^ 46 + (z % ntSec / ntNs).toNat * 2 ^ 16 + (z % ntNs).toNat

/-- The 16-octet receive descriptor of R428: source, index, and the stamp of R61 in bits 95–2 of octets 2–13; none is
zero. -/
def rxDescriptor (source index : Nat) (stamp : Option Int) : List Nat :=
  let v := match stamp with
    | some z => ntBits z
    | none => 0
  [source, index] ++ natToOctets 12 (v * 4) ++ [0, 0]

/-! ### Lookup (R397, R401, R437) -/

/-- A service record (R437). -/
structure Service where
  num : Nat
  page : Nat
  classAB : Nat
  classBA : Nat
  express : Bool
  enc : Bool
  aKind : Nat
  aIndex : Nat
  aTag : Nat
  bKind : Nat
  bIndex : Nat
  bTag : Nat
  deriving DecidableEq, Repr

/-- A service record read from four words. -/
def serviceOf (n : Nat) (w0 w1 w2 w3 : Word) : Service :=
  ⟨n, w0.bits 34 29, w0.bits 28 25, w0.bits 24 21, w0.bit 20, w0.bit 19, w1.bits 35 34, w3.bits 35 20, w1.bits 23 0,
   w2.bits 35 34, w3.bits 19 4, w2.bits 23 0⟩

/-- What a lookup finds: no service, a word that cannot be used (R523), or a service. -/
inductive Look
  | none
  | bad
  | found (x : Service)
  deriving DecidableEq, Repr

/-- Addresses of a service record, a key entry and an allocation's words. -/
def svcAddr (n : Nat) : Nat := 0o430000000 + 4 * n
def keyAddr (k : Nat) : Nat := 0o432000000 + 2 * k
def allocAddr (a : Nat) : Nat := 0o433000000 + 2 * a

/-- The bucket of a key: KIND 0 line, 1 port (R437). (DEDUCED, log entry 95.) -/
def bucketOf (kind face page tag : Nat) : Nat :=
  (tag % 2 ^ 14 ^^^ tag / 2 ^ 14 ^^^ 16 * page ^^^ 1024 * face ^^^ kind) % 2 ^ 14

/-- Word 0 of a key entry in use. -/
def keyWord (kind face page tag : Nat) : Word :=
  word (2 ^ 35 + kind * 2 ^ 34 + face * 2 ^ 30 + page * 2 ^ 24 + tag)

/-- Reads words in turn; none when one cannot be used. -/
def State.tblWords (s : State) : List Nat → Option (List Word) × State
  | [] => (some [], s)
  | a :: t =>
    match s.tblWord a with
    | (none, s) => (none, s)
    | (some w, s) =>
      match s.tblWords t with
      | (some ws, s) => (some (w :: ws), s)
      | (none, s) => (none, s)

/-- The record of service `n`. -/
def State.readService (s : State) (n : Nat) : Look × State :=
  match s.tblWords ((List.range 4).map fun i => svcAddr n + i) with
  | (some [w0, w1, w2, w3], s) => (.found (serviceOf n w0 w1 w2 w3), s)
  | (_, s) => (.bad, s)

/-- Searches the slots of a bucket from `k` on for a key. -/
def State.scanBucket (s : State) (key : Word) : Nat → Nat → Look × State
  | 0, _ => (.none, s)
  | n + 1, k =>
    match s.tblWord (keyAddr k) with
    | (none, s) => (.bad, s)
    | (some w, s) =>
      if w = key then
        match s.tblWord (keyAddr k + 1) with
        | (none, s) => (.bad, s)
        | (some v, s) => s.readService (v.bits 16 0)
      else s.scanBucket key n (k + 1)

/-- The lookup of a line or port key. -/
def State.lookKey (s : State) (kind face page tag : Nat) : Look × State :=
  s.scanBucket (keyWord kind face page tag) 8 (8 * bucketOf kind face page tag)

/-- The lookup of an allocation. -/
def State.lookAlloc (s : State) (a : Nat) : Look × State :=
  match s.tblWord (allocAddr a) with
  | (none, s) => (.bad, s)
  | (some w, s) => if w.bit 35 then s.readService (w.bits 16 0) else (.none, s)

/-- The queue, tag and channel encryption of the endpoint a packet leaves by (R397, R400, R403). -/
def Service.target (x : Service) (fromA : Bool) (cls : Nat) : Nat × Nat × Bool :=
  let c := if fromA then x.classAB else x.classBA
  let c := if c = 8 then cls else c
  let (k, i, t) := if fromA then (x.bKind, x.bIndex, x.bTag) else (x.aKind, x.aIndex, x.aTag)
  if k = 0 then (accessQ (i / 4) c, 0, x.enc)
  else if k = 1 then (lineQ i x.page c, t, false)
  else (clientQ i x.page c, t, false)

/-- A packet taken at a line or a client port: mode, lookup and admission (R401, R406, R424).  `face` is its
face, `page` the page it counts against, `cls` its ingress class. -/
def State.takeKeyed (s : State) (kind index face page keyPage tag cls : Nat) (body : List Nat) (ovr : Bool) : State :=
  if ovr then s.count BUF_IN_DROP face
  else if !s.forwards then s.count FWD_MODE_DROP face
  else
    match s.lookKey kind index keyPage tag with
    | (.none, s) => s.count2 FWD_NOMATCH page (64 + face)
    | (.bad, s) => s.count MEM_TBL_DROP page
    | (.found x, s) =>
      let fromA := kind = 0 && x.aKind = 1
      let (q, t, enc) := x.target fromA cls
      ((s.queueAdmit q x.page body ⟨0, body.length, 0, true, false, false, false, t, enc⟩).2)

/-- A packet of a line's stream, released under R285 (R397, R401, R407, R427). -/
def State.takeLine (s : State) (l : Nat) (p : LinePkt) (ovr : Bool) : State :=
  if ovr then s.count BUF_IN_DROP (512 + l)
  else if p.page = 0 ∧ p.stag = 0xFFFFFF then s.deliver 76 3 (rxDescriptor 2 l none ++ p.octets)
  else s.takeKeyed 0 l (512 + l) p.page p.page p.stag p.cls p.octets ovr

/-! ### Client frames (R58, R59, R430, R431) -/

/-- Two octets of a list as a number. -/
def u16 (os : List Nat) (i : Nat) : Nat := os.getD i 0 * 256 + os.getD (i + 1) 0

/-- Where the EtherType of a frame lies after its 0x8100 and 0x88A8 tags, and how many tags there are. -/
def skipTags (os : List Nat) : Nat → Nat → Nat × Nat
  | 0, i => (i, 0)
  | n + 1, i =>
    if u16 os i = 0x8100 ∨ u16 os i = 0x88A8 then
      let (j, k) := skipTags os n (i + 4)
      (j, k + 1)
    else (i, 0)

/-- The offset of the PTP header of a frame: EtherType 0x88F7, or UDP/IPv4 on port 319 or 320 when `udp`. (PRESUMED, log entry 12.) -/
def ptpOffset (os : List Nat) (udp : Bool) : Option Nat :=
  let (i, _) := skipTags os 4 12
  if u16 os i = 0x88F7 then some (i + 2)
  else if udp && u16 os i = 0x0800 then
    let h := i + 2
    let ihl := os.getD h 0 % 16 * 4
    let port := u16 os (h + ihl + 2)
    if os.getD (h + 9) 0 = 17 ∧ (port = 319 ∨ port = 320) then some (h + ihl + 8) else none
  else none

/-- Whether a received frame is a PTP message the port parses: untagged or with one 0x8100 tag (R58). -/
def isPtp (os : List Nat) (udp : Bool) : Option Nat :=
  let (_, tags) := skipTags os 4 12
  if tags = 0 ∨ (tags = 1 ∧ u16 os 12 = 0x8100) then ptpOffset os udp else none

/-- The PTP message types the module supports (R58): Sync, Delay_Req, Follow_Up, Delay_Resp, Announce,
Signaling. -/
def ptpKinds : List Nat := [0, 1, 8, 9, 11, 12]

/-- The active domain: 0–127 in the default profile, 24–43 in G.8275.1 (R58). (DESIGN CHOICE, log entry 106.) -/
def activeDomain : Nat := if Config.ptpTelecom then 24 + Config.ptpDomain % 20 else Config.ptpDomain % 128

/-- Whether the active profile lets a message come as this frame does: in G.8275.1 over Ethernet, to one of its two
addresses (R58). -/
def transportOk (os : List Nat) (h : Nat) : Bool :=
  !Config.ptpTelecom ||
    (decide (u16 os (h - 2) = 0x88F7) &&
      (os.take 6 = [0x01, 0x1B, 0x19, 0, 0, 0] || os.take 6 = [0x01, 0x80, 0xC2, 0, 0, 0x0E]))

/-- Whether the message of kind `kind` whose PTP header lies at octet `h` is one the module supports: a Signaling message
only when its TLV asks for message intervals (R58, R59). (PRESUMED, log entry 12.) -/
def ptpSupported (os : List Nat) (h kind : Nat) : Bool :=
  transportOk os h && ptpKinds.contains kind &&
    (kind ≠ 12 || (u16 os (h + 44) = 3 && (os.drop (h + 48)).take 6 = [0x00, 0x80, 0xC2, 0x00, 0x00, 0x02]))

/-- The ticks of a list that lie within the last second. -/
def State.lastSecond (s : State) (l : List Nat) : List Nat := l.filter fun t => decide (s.now < t + ticksSec)

/-- Whether port `p` is the slave port. -/
def State.slavePort (s : State) (p : Nat) : Bool :=
  (s.rd TIME_CTL_SRC = 1 || s.rd TIME_CTL_SRC = 2) && s.rd TIME_CTL_PTP_PORT = p

/-- Whether a Delay_Req that a core sends on the slave port is within its rate, 16 in a second, and the state with it noted
(R58). (DEDUCED, log entry 106.) -/
def State.reqRate (s : State) (p : Nat) : Bool × State :=
  let l := s.lastSecond s.time.ptpReqs
  if !s.slavePort p then (true, s)
  else if 16 ≤ l.length then (false, s)
  else (true, { s with time := { s.time with ptpReqs := s.now :: l } })

/-- Whether a Sync or an Announce on the slave port is within its rate, 16 and 8 in a second, and the state with it
noted (R58). (DEDUCED, log entry 106.) -/
def State.ptpRate (s : State) (p kind : Nat) : Bool × State :=
  if !s.slavePort p then (true, s)
  else if kind = 0 then
    let l := s.lastSecond s.time.ptpSyncs
    if 16 ≤ l.length then (false, s) else (true, { s with time := { s.time with ptpSyncs := s.now :: l } })
  else if kind = 11 then
    let l := s.lastSecond s.time.ptpAnns
    if 8 ≤ l.length then (false, s) else (true, { s with time := { s.time with ptpAnns := s.now :: l } })
  else (true, s)

/-- The PTP program of the S-core's reference image writes the UTC offset and the leap flags of an Announce of the slave port,
whose header lies at octet `h`, into every tree that is ON; a last minute cannot have both lengths (R367). (PRESUMED, log
entry 12; DESIGN CHOICE, log entry 106.) -/
def State.noteUtc (s : State) (os : List Nat) (h : Nat) : State :=
  let leap := os.getD (h + 7) 0 % 4
  if s.coreState 76 = cRunning && (s.core 76).ref then
    ((List.range 64).filter s.domOn).foldl
      (fun (s : State) t => ((s.wr TREE_ANN_UTC_OFS (u16 os (h + 44)) t).wr TREE_ANN_LI61 (b2n (leap = 1)) t).wr TREE_ANN_LI59
        (b2n (leap = 2)) t) s
  else s

/-- A PTP message on port `p` whose header lies at octet `h`: one of a supported kind, in the active domain and within the
rate goes to the S-core, an event message with its receive stamp; any other is dropped and counted (R58, R59, R61). -/
def State.takePtp (s : State) (p : Nat) (os : List Nat) (h : Nat) : State :=
  let kind := os.getD h 0 % 16
  if !ptpSupported os h kind || decide (os.getD (h + 4) 0 ≠ activeDomain) then s.count PTP_UNSUPP p
  else
    let (ok, s) := s.ptpRate p kind
    if ok then
      let s := if kind = 11 && s.slavePort p then s.noteUtc os h else s
      s.deliver 76 1 (rxDescriptor 1 p (if kind < 4 then some (s.rxStamp p) else none) ++ os)
    else s.count PTP_UNSUPP p

/-- CLIENT_FRAME_RECEIVED (R431): a frame without its FCS at port `p`; `fcsOk` is the FCS check, `ovr` whether it lies
beyond the share of its face (R407). (DEDUCED, log entry 100.) -/
def execClientFrameReceived (p : Fin 16) (frame : List (BitVec 8)) (fcsOk ovr : Bool) (s : State) :
    Host.Outcome State Fault Refusal :=
  .next (
    let os := frame.map BitVec.toNat
    let n := os.length + 4
    let face := 516 + p.val
    let owner := s.rd PORT_CTL_OWNER p
    if !s.up || !s.domOn 76 || !s.rdb PORT_STAT_LINK p || !s.rdb PORT_CTL_EN p then s
    else if !fcsOk then s.count PORT_FCS p
    else if n < 64 ∨ 16383 < n then s.count PORT_LEN p
    else if u16 os 12 = 0x8808 then s.count PORT_MACCTL p
    else if ovr then s.count BUF_IN_DROP face
    else
      let ptp := if s.rdb PORT_PTP_EN p then isPtp os (s.rdb PORT_PTP_UDP4 p) else none
      match ptp with
      | some h => s.takePtp p os h
      | none =>
        if s.rdb PORT_CTL_MGMT p ∧ os.take 6 = [0x01, 0x80, 0xC2, 0, 0, 0x0E] ∧ u16 os 12 = 0x88CC then
          s.deliver 76 2 (rxDescriptor 1 p none ++ os)
        else if u16 os 12 ≠ 0x88A8 then
          (if !s.forwards then s.count FWD_MODE_DROP face else s.count2 FWD_NOMATCH owner (64 + face))
        else
          let inner := u16 os 16 = 0x8100
          let cvid := if inner then u16 os 18 % 4096 else 0
          let tag := u16 os 14 % 4096 * 4096 + cvid
          s.takeKeyed 1 p face owner 0 tag (u16 os 14 / 8192) (os.take 12 ++ os.drop (if inner then 20 else 16)) ovr)

/-! ### Upstream segments (R409–R414, R473) -/

/-- Counts an `UP_` code for an allocation: per tree and per page. -/
def State.countUp (s : State) (c : Code) (a : Nat) : State := s.count2 c (a / 1024) (64 + s.termPage (a / 4))

/-- The reassembly state of an allocation. -/
def State.reasAt (s : State) (a : Nat) : Reas := sget (fun _ => {}) s.traf.reas a

/-- The state with it replaced. -/
def State.setReas (s : State) (a : Nat) (r : Reas) : State :=
  { s with traf := { s.traf with reas := sput (fun _ => {}) s.traf.reas a r } }

/-- The unit in progress of an allocation is discarded, with what it holds. -/
def State.discardUnit (s : State) (a : Nat) : State :=
  let r := s.reasAt a
  match r.unit with
  | none => s
  | some u =>
    let s := s.setReas a { r with unit := none }
    if u.disc then s else (((s.unqueue u.queue u.desc).freePacket u.desc).countQueue u.queue 4 u.len)

/-- The reassembly state is reset (R413). -/
def State.resetReas (s : State) (a : Nat) : State :=
  (s.discardUnit a).setReas a { (s.discardUnit a).reasAt a with exp := none }

/-- The checks of R412, R424 and R473 at the first segment of a unit and its admission: the unit as it then is
in progress. -/
def State.beginUnit (s : State) (c a : Nat) (len : Nat) (enc phase : Bool) (ctr : Nat) (octets : List Nat) (ovr : Bool) :
    UpUnit × State :=
  let disc : UpUnit := ⟨true, len, enc, phase, ctr, octets, 0, 0, 0, false, none⟩
  let page := s.termPage (a / 4)
  if ovr then (disc, s.count BUF_IN_DROP c)
  else if !s.forwards then (disc, s.count FWD_MODE_DROP c)
  else
    match s.lookAlloc a with
    | (.none, s) => (disc, s.count2 FWD_NOMATCH page (64 + c))
    | (.bad, s) => (disc, s.count MEM_TBL_DROP page)
    | (.found x, s) =>
      let gen := (s.liveKey (.term (a / 4))).bind fun k => k.gen phase
      if x.enc && !enc then (disc, s.countUp UP_CLEAR a)
      else if enc && gen.isNone then (disc, s.count EDW_NOKEY_DROP page)
      else if enc && !(gen.any fun g => g.fresh ctr) then (disc, s.countUp UP_REPLAY a)
      else
        let (q, t, e) := x.target true 0
        match s.queueAdmit q x.page [] ⟨0, len, 0, false, false, false, false, t, e⟩ with
        | (none, s) => (disc, s)
        | (some d, s) => (⟨false, len, enc, phase, ctr, octets, d, q, x.page, x.express, none⟩, s)

/-- The state with the bucket of an allocation replaced. -/
def State.setBucket (s : State) (a : Nat) (tok : Int) : State :=
  { s with traf := { s.traf with police := sput (fun _ => {}) s.traf.police a ⟨tok, s.now⟩ } }

/-- The policer's tokens of an allocation now, in 1/32,000 octet (R414): it fills while POL_EN is set. (DEDUCED, log entry 97.) -/
def State.policeTokens (s : State) (a : Nat) : Int :=
  let w := s.reg (allocAddr a + 1)
  let b := sget (fun _ => {}) s.traf.police a
  let add : Int := if w.bit 35 then w.bits 34 13 * (s.now - max b.at_ s.traf.since) else 0
  min (w.bits 12 0 * 1024 * 32000) (b.tok + add)

/-- The policer of an allocation (R414): whether a packet of `len` octets goes on. (DEDUCED, log entry 97.) -/
def State.police (s : State) (a len : Nat) : Bool × State :=
  if !(s.reg (allocAddr a + 1)).bit 35 then (true, s)
  else
    let tok := s.policeTokens a
    let ok := decide ((len : Int) * 32000 ≤ tok)
    (ok, s.setBucket a (if ok then tok - len * 32000 else tok))

/-- An entry of a queue changed in place. -/
def State.editEntry (s : State) (q d : Nat) (f : QEnt → QEnt) : State :=
  s.setQueue q ((s.queue q).map fun e => if e.desc = d then f e else e)

/-- A unit is complete (R414, R416, R417, R473): its body is in the buffer as plaintext. -/
def State.endUnit (s : State) (a : Nat) (u : UpUnit) (burst : Nat) : State :=
  let s := s.setReas a { s.reasAt a with unit := none }
  if u.disc then s
  else
    let (ok, s) := s.police a u.len
    if !ok then (((s.unqueue u.queue u.desc).freePacket u.desc).countQueue u.queue 4 u.len).countUp UP_POLICE a
    else
      let text := (u.octets.drop 16).take u.len
      let put := fun (s : State) (os : List Nat) => match s.packet u.desc with
        | some p => s.setPacket u.desc (some { p with octets := os })
        | none => s
      if !u.enc then (put s text).editEntry u.queue u.desc fun e => { e with ready := true }
      else if s.rdb EDW_STAT_ERROR then
        (((s.unqueue u.queue u.desc).freePacket u.desc).countQueue u.queue 4 u.len).count EDW_NOKEY_DROP u.page
      else
        let gen := (s.keyOf (.term (a / 4))).bind fun k => k.gen u.phase
        let (plain, good) := match gen with
          | some g =>
            let iv := natToOctets 4 g.saltB ++ natToOctets 8 u.ctr
            let aad := u.octets.take 8 ++ natToOctets 2 a
            (gcmText g.key iv text, decide (gcmTag g.key iv aad text = (u.octets.drop (16 + u.len)).take 16))
          | none => (text, false)
        let k := a / 1024 / 8
        let tR := max s.now (sget (fun _ => 0) s.traf.lastTR k) + ceilDiv u.len 64 + 48
        let s := (put s plain).editEntry u.queue u.desc fun e => { e with express := u.express && u.bodyAt = some burst }
        { s with traf := { s.traf with
          lastTR := sput (fun _ => 0) s.traf.lastTR k tR
          verify := sput (fun _ => []) s.traf.verify k
            (sget (fun _ => []) s.traf.verify k ++ [⟨a, u.desc, u.queue, u.page, u.phase, u.ctr, good, tR⟩]) } }

/-- Rows 6 and 7 of R411: octets are added to the unit in progress. -/
def State.addOctets (s : State) (a : Nat) (u : UpUnit) (octets : List Nat) (last : Bool) (burst : Nat) : State :=
  let total := u.octets.length + octets.length
  let whole := 16 + u.len + (if u.enc then 16 else 0)
  if u.disc then s.setReas a { s.reasAt a with unit := if last then none else some u }
  else if whole < total ∨ (last ∧ total < whole) then
    (((s.setReas a { s.reasAt a with unit := some u }).discardUnit a).countUp UP_LEN a)
  else
    let u := { u with
      octets := u.octets ++ octets
      bodyAt := if u.bodyAt.isNone && decide (16 + u.len ≤ total) then some burst else u.bodyAt }
    if last then s.endUnit a u burst else s.setReas a { s.reasAt a with unit := some u }

/-- A segment whose header was read (R411): its fields and octets, and whether one lies in a bad codeword. -/
def State.takeSegment (s : State) (c a seq : Nat) (first last bad : Bool) (octets : List Nat) (burst : Nat) (ovr : Bool) :
    State :=
  let r := s.reasAt a
  let s := s.setReas a { r with exp := some ((seq + 1) % 64), at_ := s.now }
  if bad then (s.discardUnit a).countUp UP_RSBAD a
  else
    let off := r.exp.any (· ≠ seq)
    let s := if off && r.unit.isSome then (s.discardUnit a).countUp UP_SEQ a else s
    match (s.reasAt a).unit, first with
    | none, false => s.countUp UP_ORPHAN a
    | some u, false => s.addOctets a u octets last burst
    | cur, true =>
      let s := if cur.isSome then (s.discardUnit a).countUp UP_SEQ a else s
      let len := u16 octets 0 / 4
      let flags := octets.getD 2 0
      let rsv := octets.getD 1 0 % 4 ≠ 0 || flags % 64 ≠ 0 || ((octets.drop 3).take 5).any (· ≠ 0)
      let enc := 128 ≤ flags
      let whole := 16 + len + (if enc then 16 else 0)
      if octets.length < 16 ∨ len = 0 ∨ rsv then s.countUp UP_LEN a
      else if whole < octets.length ∨ (last ∧ octets.length < whole) then s.countUp UP_LEN a
      else
        let (u, s) := s.beginUnit c a len enc (flags / 64 % 2 = 1) (octetsToNat ((octets.drop 8).take 8)) [] ovr
        s.addOctets a u octets last burst

/-- The bursts delivered on a channel. -/
def State.burstsOf (s : State) (c : Nat) : List UpBurst := sget (fun _ => []) s.traf.bursts c

/-- The state with them replaced. -/
def State.setBursts (s : State) (c : Nat) (l : List UpBurst) : State :=
  { s with traf := { s.traf with bursts := sput (fun _ => []) s.traf.bursts c l } }

/-- Whether an octet range of a burst touches a codeword that could not be corrected. -/
def UpBurst.hit (b : UpBurst) (i n : Nat) : Bool :=
  n ≠ 0 && (List.range ((i + n - 1) / 136 + 1 - i / 136)).any fun k => !(b.good.getD (i / 136 + k) true)

/-- UPSTREAM_SEGMENT (R409, R411): the next segment of the oldest burst delivered on channel `c`. (DEDUCED, log entry 100.) -/
def execUpstreamSegment (c : Fin 512) (ovr : Bool) (s : State) : Host.Outcome State Fault Refusal :=
  .next (
    match s.burstsOf c with
    | [] => s
    | b :: rest =>
      let d := b.octets.length
      let a := b.alloc
      let done := s.setBursts c rest
      if d ≤ b.pos then done
      else if d < b.pos + 4 then done.countUp UP_LEN a
      else if b.hit b.pos 4 then (done.discardUnit a).countUp UP_RSBAD a
      else
        let h := octetsToNat ((b.octets.drop b.pos).take 4)
        let slen := h / 2 ^ 18
        if slen = 0 then done
        else
          let i := b.pos + 4
          let seq := h / 2 ^ 10 % 64
          if d < i + slen then
            (done.setReas a { done.reasAt a with exp := some ((seq + 1) % 64), at_ := s.now }).countUp UP_LEN a
          else
            let s := if d ≤ i + slen then done else s.setBursts c ({ b with pos := i + slen } :: rest)
            s.takeSegment c a seq (h.testBit 17) (h.testBit 16) (b.hit i slen) ((b.octets.drop i).take slen) b.num ovr)

/-- REASSEMBLY_TIMEOUT (R413). -/
def execReassemblyTimeout (a : Fin 65536) (s : State) : Host.Outcome State Fault Refusal :=
  .next (
    let r := s.reasAt a
    if r.unit.isSome ∧ r.at_ + 8000 * ticksFr ≤ s.now then (s.resetReas a).countUp UP_TIMEOUT a else s)

/-! ### Tag results (R416–R418, R474) -/

/-- Octets of a list replaced from octet `i` on. -/
def splice (os : List Nat) (i : Nat) (xs : List Nat) : List Nat := os.take i ++ xs ++ os.drop (i + xs.length)

/-- A Sync sent in one step (R62): its PTP header at octet `h`, the transmit stamp, and whether it goes over UDP. (PRESUMED, log entry 12; DESIGN CHOICE, log entry 37.) -/
def oneStepSync (os : List Nat) (h : Nat) (udp : Bool) (stamp : Int) : List Nat :=
  let corr := octetsToNat ((os.drop (h + 8)).take 8) + (stamp % ntNs).toNat
  let os := splice os (h + 8) (natToOctets 8 (corr % 2 ^ 64))
  let os := splice os (h + 34) (natToOctets 6 ((stamp / ntSec).toNat % 2 ^ 48) ++ natToOctets 4 (stamp % ntSec / ntNs).toNat)
  if udp then splice os (h - 2) [0, 0] else os

/-- What the two-step queue records of a marked message whose PTP header lies at octet `h` (R63). -/
def twoStepMsg (os : List Nat) (h : Nat) : TwoStepMsg :=
  ⟨BitVec.ofNat 16 (u16 os (h + 30)), BitVec.ofNat 4 (os.getD h 0), BitVec.ofNat 8 (os.getD (h + 4) 0)⟩

/-- Whether a PTP message of the S-core may leave a master port: an Announce or a Sync only while the servo is LOCKED or in
HOLDOVER (R59). -/
def State.ptpMaySend (s : State) (kind : Nat) : Bool :=
  !(kind = 0 || kind = 11) || s.rd TIME_STAT_STATE = stLocked || s.rd TIME_STAT_STATE = stHoldover

/-- An Announce leaves in HOLDOVER with the clock class of the active profile for holdover (R59). (PRESUMED, log entry 12; DESIGN CHOICE, log entry 106.) -/
def State.announced (s : State) (os : List Nat) (h : Nat) : List Nat :=
  if os.getD h 0 % 16 = 11 ∧ s.rd TIME_STAT_STATE = stHoldover then splice os (h + 48) [Config.holdoverClass % 256] else os

/-- A client frame as the port sends it, without its FCS (R429, R432): the tags of a service's packet, and the padding. -/
def portFrame (e : QEnt) (cls : Nat) (body : List Nat) : List Nat :=
  let tag := fun (tpid vid : Nat) => natToOctets 2 tpid ++ natToOctets 2 (cls * 8192 + vid)
  let os :=
    if e.core then body
    else body.take 12 ++ tag 0x88A8 (e.tag / 4096 % 4096) ++
      (if e.tag % 4096 = 0 then [] else tag 0x8100 (e.tag % 4096)) ++ body.drop 12
  os ++ List.replicate (60 - os.length) 0

/-- The last frame sent by a port. -/
def State.sendFrame (s : State) (port : Nat) (os : List Nat) : State :=
  { s with traf := { s.traf with wire := sput (fun _ => []) s.traf.wire port os } }

/-- A failure at t_R is counted against the terminal and the page (R474). -/
def State.tagFailed (s : State) (v : Verify) (replay : Bool) : State :=
  let i := v.alloc / 4
  let s := s.incSat EDW_TRK_TAGFAIL 0 i
  let s := if replay then s.countUp UP_REPLAY v.alloc else s.count FWD_TAG_FAIL v.page
  let sf := s.now / ticksSf + 1
  if sget (fun _ => 0) s.edw.tagSf i = sf then s.addCnt EDW_TRM_TAGFAIL v.page 1
  else
    let s := { s with edw := { s.edw with tagSf := sput (fun _ => 0) s.edw.tagSf i sf } }
    s.occur EDW_TRM_TAGFAIL v.page [(i : Int), (v.page : Int)]

/-- UPSTREAM_TAG_RESULT (R416, R447, R474): the oldest unit of cluster `k`'s verifier, at its t_R. (DEDUCED, log entry 81.) -/
def execUpstreamTagResult (k : Fin 8) (s : State) : Host.Outcome State Fault Refusal :=
  .next (
    match sget (fun _ => []) s.traf.verify k with
    | [] => s
    | v :: rest =>
      if s.now < v.tR then s
      else
        let s := { s with traf := { s.traf with verify := sput (fun _ => []) s.traf.verify k rest } }
        let r := KeyRef.term (v.alloc / 4)
        let key := s.keyOf r
        let marked := match key.bind fun x => x.gen v.phase with
          | some g => g.marks.contains v.ctr
          | none => false
        let flight := s.traf.sent.find? fun x => x.desc = v.desc
        let len := match s.packet v.desc with
          | some p => p.len
          | none => 0
        let land := fun (s : State) => { s with traf := { s.traf with sent := s.traf.sent.filter fun x => x.desc ≠ v.desc } }
        let dead := s.rdb EDW_STAT_ERROR
        if v.good && !marked && !dead then
          let s := match key with
            | some x => match x.gen v.phase with
              | some g => s.setKey r (some (x.setGen v.phase (some (g.mark v.ctr))))
              | none => s
            | none => s
          match flight with
          | some x => (((land s).freePacket v.desc).sendFrame x.port (x.frame ++ fcsOctets x.frame)).countQueue v.queue 2 len
          | none => s.editEntry v.queue v.desc fun e => { e with ready := true }
        else
          let s := if dead then s.count EDW_NOKEY_DROP v.page else s.tagFailed v marked
          match flight with
          | some x =>
            let s := (land s).freePacket v.desc
            if x.start ≤ v.tR then
              let cut := x.frame.take (25 * (v.tR - x.start))
              ((s.occur FWD_CT_ABORT x.port).sendFrame x.port (cut ++ (fcsOctets cut).map (255 - ·))).countQueue v.queue 2 len
            else s.countQueue v.queue 4 len
          | none => ((s.unqueue v.queue v.desc).freePacket v.desc).countQueue v.queue 4 len)

/-! ### Egress (R360, R403, R418, R421, R432) -/

/-- The line packet header of R283. -/
def lineHeader (len page cls stag : Nat) : List Nat :=
  let h := natToOctets 2 (len * 4 + page / 16) ++ [page % 16 * 16 + cls * 2] ++ natToOctets 3 stag
  h ++ natToOctets 2 (crc16 h)

/-- The downstream packet header (R360, R403): body length, terminal number, class, ENC, KEY_PHASE, page and CTR. (DEDUCED, log entry 80.) -/
def downHeader (len n cls : Nat) (enc phase : Bool) (page ctr : Nat) : List Nat :=
  let h := natToOctets 2 (len * 4) ++ [n % 256, cls * 32 + 16 * b2n enc + 8 * b2n phase, page * 4, 0]
  h ++ natToOctets 2 (crc16 h) ++ natToOctets 8 ctr

/-- A packet placed in a channel's downstream (R360): the stream moves on by whole idle headers to the present, then by
the packet. Packets that ended before the last four frames are let go. (DEDUCED, log entry 80.) -/
def State.placeDown (s : State) (c : Nat) (os : List Nat) : State :=
  let x := sget (fun _ => {}) s.chans c
  let cur := s.now / ticksFr * 390625 + s.now % ticksFr * 390625 / ticksFr
  let start := if cur ≤ x.dsEnd then x.dsEnd else x.dsEnd + ceilDiv (cur - x.dsEnd) 16 * 16
  let kept := x.down.filter fun p => decide ((s.now / ticksFr - 4) * 390625 < p.1 + p.2.length)
  { s with chans := sput (fun _ => {}) s.chans c { x with dsEnd := start + os.length, down := kept ++ [(start, os)] } }

/-- Idle headers from payload octet `p` on, one of them beginning at octet `anchor` modulo 16 (R360). -/
def idleFill (anchor p n : Nat) : List Nat :=
  (List.range n).map fun i => (downHeader 0 0 0 false false 0 0).getD ((p + i + 16 - anchor % 16) % 16) 0

/-- `n` octets of a downstream stream from octet `p` on, its packets in order; `anchor` is where the stream stood. (DEDUCED, log entry 80.) -/
def streamOctets : List (Nat × List Nat) → Nat → Nat → Nat → List Nat
  | [], p, n, anchor => idleFill anchor p n
  | (q, os) :: t, p, n, _ =>
    if p + n ≤ q then idleFill q p n
    else
      let body := (os.drop (p - q)).take (n - (q - p))
      idleFill q p (q - p) ++ body ++
        streamOctets t (max p q + body.length) (n - (q - p) - body.length) (q + os.length)

/-- The payload area of frame `m` of channel `c`, as far as it has been placed (R312, R360). -/
def State.downPayload (s : State) (c m : Nat) : List Nat :=
  let x := sget (fun _ => {}) s.chans c
  streamOctets x.down (m * 390625) 390625 x.dsEnd

/-- The level of a ramp at a tick, in dBm (R316): linear in dB, then its end. -/
def LinRamp.levelAt (r : LinRamp) (t : Nat) : Rat :=
  if r.tEnd ≤ t then r.hi else r.lo + (r.hi - r.lo) * ((t - r.t0 : Nat) : Rat) / ((r.tEnd - r.t0 : Nat) : Rat)

/-- The launch level of a channel at a tick of the last frames, in dBm; none while its laser was off. -/
def ChSt.launchAt (x : ChSt) (t : Nat) : Option Rat :=
  match x.launch.find? fun e => decide (e.1 ≤ t) with
  | some (_, some r) => some (r.levelAt t)
  | _ => none

/-- The levels of frame `m` on the fibre of channel `c` (R312–R315); none of a frame in which the laser was off: the
encoder runs on from the frame before unless the channel entered RAMP_UP in this one. (DEDUCED, log entry 78.) -/
def State.downLevels (s : State) (c m : Nat) : List Nat :=
  let x := sget (fun _ => {}) s.chans c
  if x.launchAt (m * ticksFr) = none ∧ x.launchAt ((m + 1) * ticksFr - 1) = none then []
  else
    let before := if x.upAt / ticksFr = m then [] else
      (scramble (octetBits (List.replicate 2677 0 ++ s.downPayload c (m - 1)))).drop (3146416 - 6)
    let ctrl := ((x.ctrls.find? fun e => e.1 = m).map (·.2)).getD []
    dsFrame (bitsToNat before) ctrl (s.downPayload c m)

/-- What became of a packet taken from its queue. -/
inductive Leave
  | sent | dropped | held
  deriving DecidableEq, Repr

/-- The oldest packet of queue `q`, entry `e`, leaves by its egress point `p`. (DESIGN CHOICE, log entry 37; DEDUCED, log entry 81.) -/
def State.leave (s : State) (p q : Nat) (e : QEnt) (k : Packet) : Leave × State :=
  let page := if k.page = 0 then s.queuePage q else k.page - 1
  let (os, bad, s) := s.readPacket k
  if bad then (.dropped, s.count BUF_POISON_DROP page)
  else
    let body := if e.core then os.drop 8 else os
    let cls := q % 8
    if p < 512 then
      let i := q / 8
      if e.enc then
        match s.liveKey (.term i) with
        | none => (.dropped, s.count EDW_NOKEY_DROP page)
        | some key =>
          match s.invoke (.term i) page key.act with
          | (.absent, s) => (.dropped, s.count EDW_NOKEY_DROP page)
          | (.refused, s) => (.dropped, s.count EDW_LIMIT_DROP page)
          | (.used ctr gen, s) =>
            let h := downHeader body.length i cls true key.act page ctr
            let (ct, tag) := gcmEncrypt gen.key (natToOctets 4 gen.saltA ++ natToOctets 8 ctr) (h.take 6) body
            (.sent, s.placeDown p (h ++ ct ++ tag))
      else (.sent, s.placeDown p (downHeader body.length i cls false false page 0 ++ body))
    else if p < 516 then
      let l := p - 512
      let stag := if e.core then octetsToNat (os.take 3) else e.tag
      let x := sget (fun _ => {}) s.lines l
      let x : LineSt := { x with txQ := x.txQ ++ [lineHeader body.length page cls stag ++ body] }
      (.sent, { s with lines := sput (fun _ => {}) s.lines l x })
    else
      let port := p - 516
      if !e.core && (decide (body.length < 14) || decide (16383 < body.length + tagLen e + 4)) then
        (.dropped, s.count PORT_TX_LEN port)
      else
        let at_ := ptpOffset body (s.rdb PORT_PTP_UDP4 port)
        let kind := at_.map fun h => body.getD h 0 % 16
        let sync := decide (kind = some 0)
        let one := e.core && s.rdb PORT_PTP_EN port && s.rdb PORT_PTP_ONESTEP port && sync
        let many := decide (2 ≤ (skipTags body 4 12).2)
        let stamp := { s with now := s.now + s.open_ % 161 }.txStamp port
        let plain := portFrame e cls body
        let frame := match one && !many, at_ with
          | true, some h => oneStepSync plain h (u16 body ((skipTags body 4 12).1) = 0x0800) stamp
          | _, some h => if e.core && s.rdb PORT_PTP_EN port then s.announced plain h else plain
          | _, _ => plain
        let ptp := e.core && s.rdb PORT_PTP_EN port
        let (inRate, s) := if ptp && kind = some 1 then s.reqRate port else (true, s)
        let s := if inRate then s else s.count PTP_UNSUPP port
        let held := !inRate || (ptp && kind.any fun k => !s.ptpMaySend k)
        let s := if one && many then s.count PTP_UNSUPP port else if one then s.used else s
        let msg := match ptpOffset body true with
          | some h => twoStepMsg body h
          | none => ⟨BitVec.ofNat 16 s.open_, BitVec.ofNat 4 (s.open_ / 2 ^ 16), BitVec.ofNat 8 (s.open_ / 2 ^ 20)⟩
        if held then (.dropped, s)
        else
        let s := if e.twoStep then { s with traf := { s.traf with marks := s.traf.marks ++ [(port, msg)] } }.used else s
        if e.ready then (.sent, s.sendFrame port (frame ++ fcsOctets frame))
        else
          let f := e.len - 16 * ((e.len - 1) / 16)
          let tR := (s.traf.verify.flatMap (·.2)).foldl (fun t v => if v.desc = e.desc then v.tR else t) 0
          let start := max (s.now + 160) (tR - (e.len - f + tagLen e) / 25)
          (.held, { s with traf := { s.traf with sent := s.traf.sent ++ [⟨port, e.desc, start, frame⟩] } })

/-- Whether an egress point has room for another packet: a line takes at most one slot's payload ahead. (DEDUCED, log entry 82.) -/
def State.hasRoom (s : State) (e : Nat) : Bool :=
  if 512 ≤ e ∧ e < 516 then
    decide ((((sget (fun _ => {}) s.lines (e - 512)).txQ.map (·.length)).sum) < s.rd LINE_TX_STAT_RATE (e - 512) * 12500)
  else true

/-- Packets whose queue word cannot be used are passed over and counted (R523). -/
def State.countBadQueues (s : State) (e : Nat) : State :=
  (s.knownQueues.filter fun q => s.egressOf q = e && s.queueBad q && !(s.queue q).isEmpty).foldl
    (fun s q => ((s.tblWord (queAddr q)).2).count MEM_TBL_DROP (s.queuePage q)) s

/-- EGRESS_TX_OPPORTUNITY (R421) at egress point `e`. (DEDUCED, log entry 96.) -/
def execEgressTxOpportunity (e : Fin 532) (s : State) : Host.Outcome State Fault Refusal :=
  .next (
    if !s.up || !s.forwards || !s.egressUp e || !s.hasRoom e then s
    else
      let s := (s.countBadQueues e).seeEgress e
      match s.pickEgress e with
      | none => s
      | some (q, s) =>
        match s.queue q with
        | [] => s
        | x :: rest =>
          match s.packet x.desc with
          | none => (s.setQueue q rest).seeEgress e
          | some k =>
            let n := countedLen q x
            let len := if x.core then x.len - 8 else x.len
            match s.leave e q x k with
            | (.sent, s) => (((s.setQueue q rest).chargeSent e q n).freePacket x.desc |>.countQueue q 2 len).seeEgress e
            | (.held, s) => ((s.setQueue q rest).chargeSent e q n).seeEgress e
            | (.dropped, s) =>
              ((((s.setQueue q rest).freePacket x.desc).countQueue q 4 len).seeEgress e).notSent
                (b2n (x.twoStep && decide (516 ≤ e.val))))

/-! ### Sweep and ports (R423, R425) -/

/-- Queues that a sweep samples, and the ticks between two samples: 10 ns (R425). -/
def sweepQueues : Nat := 141312
def sweepTicks : Nat := 40

/-- The sample of queue `q` is kept as the sweep's. -/
def State.keepSample (s : State) (q : Nat) : State :=
  { s with traf := { s.traf with sweep := sput (fun _ => (0, 0)) s.traf.sweep q (s.sample q) } }

/-- What a sweep does at a tick: one queue every 10 ns, in increasing address order; after the last one it has ended (R425). -/
def State.sweepGoesOn (s : State) : State :=
  let d := s.now - s.traf.sweepAt
  if !s.rdb QUE_SWEEP_BUSY || d % sweepTicks ≠ 0 then s
  else
    let s := if d / sweepTicks < sweepQueues then s.keepSample (d / sweepTicks) else s
    if d / sweepTicks + 1 < sweepQueues then s
    else (s.wr QUE_SWEEP_BUSY 0).wr QUE_SWEEP_SF (s.traf.sweepSf - 1)

/-- QUEUE_SWEEP (R425): the sweep of a superframe begins, with the first queue. (DEDUCED, log entry 98.) -/
def execQueueSweep (s : State) : Host.Outcome State Fault Refusal :=
  .next (
    let sf := s.now / ticksSf
    if s.up ∧ s.traf.sweepSf < sf + 1 then
      let old := if s.traf.sweepSf = 0 then 0 else s.traf.sweepAt + 1
      ({ s with traf := { s.traf with sweepSf := sf + 1, sweepAt := s.now, sweepOld := old } }.wr QUE_SWEEP_BUSY 1).sweepGoesOn
    else s)

/-- The tick at which the sample that `QUE_SMP_A` and `QUE_SMP_B` of queue `q` show was taken; none before its first. -/
def State.sampledAt (s : State) (q : Nat) : Option Nat :=
  let at_ := s.traf.sweepAt + sweepTicks * q
  if s.traf.sweepSf ≠ 0 ∧ at_ ≤ s.now then some at_
  else if s.traf.sweepOld ≠ 0 then some (s.traf.sweepOld - 1 + sweepTicks * q)
  else none

/-- PORT_LINK_UP (R423). -/
def execPortLinkUp (p : Fin 16) (s : State) : Host.Outcome State Fault Refusal :=
  .next (if s.domOn 76 then ((s.wr PORT_STAT_LINK 1 p).wr PORT_STAT_ALIGN 1 p).seeEgress (516 + p) else s)

/-- PORT_LINK_DOWN (R63, R423): a marked message taken for sending does not leave. -/
def execPortLinkDown (p : Fin 16) (s : State) : Host.Outcome State Fault Refusal :=
  .next (
    if s.domOn 76 ∧ s.rdb PORT_STAT_LINK p then
      let n := (s.traf.marks.filter fun m => m.1 = p.val).length
      let s := ((s.wr PORT_STAT_LINK 0 p).wr PORT_STAT_ALIGN 0 p).seeEgress (516 + p)
      { s with traf := { s.traf with marks := s.traf.marks.filter fun m => decide (m.1 ≠ p.val) } }.notSent n
    else s)

/-! ### FWD commands (R434, R435) -/

/-- Whether a tag is reserved for an endpoint kind (R399). -/
def tagReserved (kind tag : Nat) : Bool :=
  if kind = 0 then tag ≠ 0
  else if kind = 1 then tag = 0xFFFFFF
  else tag / 4096 = 0 || tag / 4096 = 4095 || tag % 4096 = 4095

/-- The first word of `FWD.BIND` that carries a reserved value. -/
def bindReserved (x : Service) (valid : Bool) (pol : Word) : Option Nat :=
  let c := fun v => 9 ≤ v
  if !valid || c x.classAB || c x.classBA || (x.classAB = 8 && x.aKind = 0) then some 0
  else if x.aKind = 3 || tagReserved x.aKind x.aTag then some 1
  else if x.bKind = 3 || tagReserved x.bKind x.bTag then some 2
  else if (x.aKind ≠ 0 && pol ≠ 0) ||
      (pol.bit 35 && (pol.bits 34 13 = 0 || decide (25000 < pol.bits 34 13) || pol.bits 12 0 = 0)) then some 5
  else none

/-- Whether an index lies within its kind. -/
def indexOk (kind i : Nat) : Bool := if kind = 0 then decide (i < 65536) else if kind = 1 then decide (i < 4) else decide (i < 16)

/-- Whether the record of `FWD.BIND` is out of range (R398, R403, R418). -/
def bindRange (x : Service) : Bool :=
  !((x.aKind = 0 && (x.bKind = 1 || x.bKind = 2)) || (x.aKind = 1 && x.bKind = 2)) ||
    !indexOk x.aKind x.aIndex || !indexOk x.bKind x.bIndex ||
    (x.express && !(x.aKind = 0 && x.bKind = 2 && x.classAB = 7 && x.enc)) || (x.enc && x.aKind ≠ 0)

/-- The keys of a service: kind, face, page, tag. -/
def Service.keys (x : Service) : List (Nat × Nat × Nat × Nat) :=
  let k : Nat → Nat → Nat → List (Nat × Nat × Nat × Nat) := fun kind i tag =>
    if kind = 1 then [(0, i, x.page, tag)] else if kind = 2 then [(1, i, 0, tag)] else []
  k x.aKind x.aIndex x.aTag ++ k x.bKind x.bIndex x.bTag

/-- The key entry that holds a key, and the first free entry of its bucket. -/
def State.keyEntry (s : State) (k : Nat × Nat × Nat × Nat) : Option Nat :=
  let b := 8 * bucketOf k.1 k.2.1 k.2.2.1 k.2.2.2
  ((List.range 8).find? fun i => s.reg (keyAddr (b + i)) = keyWord k.1 k.2.1 k.2.2.1 k.2.2.2).map (b + ·)

/-- (DEDUCED, log entry 95.) -/
def State.freeEntry (s : State) (k : Nat × Nat × Nat × Nat) : Option Nat :=
  let b := 8 * bucketOf k.1 k.2.1 k.2.2.1 k.2.2.2
  ((List.range 8).find? fun i => !(s.reg (keyAddr (b + i))).bit 35).map (b + ·)

/-- Whether the bucket of a key has no room for the keys of the list that fall into it. (DEDUCED, log entry 95.) -/
def State.bucketFull (s : State) (keys : List (Nat × Nat × Nat × Nat)) (k : Nat × Nat × Nat × Nat) : Bool :=
  let b := fun (k : Nat × Nat × Nat × Nat) => bucketOf k.1 k.2.1 k.2.2.1 k.2.2.2
  let room := (List.range 8).filter fun i => !(s.reg (keyAddr (8 * b k + i))).bit 35
  decide (room.length < (keys.filter fun x => b x = b k).length)

/-- VALID words of a table among the registers: those in a range at a stride with bit 35 set (`FWD_STAT`). -/
def State.countValid (s : State) (lo hi stride : Nat) : Nat :=
  (s.regs.filter fun e => decide (lo ≤ e.1) && decide (e.1 < hi) && (e.1 - lo) % stride = 0 && e.2.bit 35).length

def State.services (s : State) : Nat := s.countValid 0o430000000 0o432000000 4
def State.keyCount (s : State) : Nat := s.countValid 0o432000000 0o433000000 2

/-- The reason for `E_STATE` of `FWD.BIND`. -/
def State.bindState (s : State) (x : Service) : Option Nat :=
  if (s.reg (svcAddr x.num)).bit 35 then some 1
  else if x.keys.any fun k => (s.keyEntry k).isSome then some 2
  else if x.aKind = 0 && (s.reg (allocAddr x.aIndex)).bit 35 then some 3
  else if x.keys.any (s.bucketFull x.keys) || decide (131072 < s.keyCount + x.keys.length) then some 4
  else if x.aKind = 0 && (s.tst (x.aIndex / 4)).1 = 0 then some 5
  else none

/-- `FWD.BIND` (R434). -/
def State.cmdBind (c : Cmd) (s : State) : State :=
  s.unreserved c [mask 35 19, mask 35 34 + mask 23 0, mask 35 34 + mask 23 0, mask 35 4, mask 16 0, mask 35 0] fun s =>
    let x := serviceOf ((c.w 4).bits 16 0) (c.w 0) (c.w 1) (c.w 2) (c.w 3)
    let portBad := fun kind i => kind = 2 && s.rd PORT_CTL_OWNER i ≠ x.page && s.rd PORT_CTL_OWNER i ≠ 0
    match bindReserved x ((c.w 0).bit 35) (c.w 5) with
    | some i => s.complete c.tag eReserved i
    | none =>
      if bindRange x then s.complete c.tag eRange
      else if (c.page ≠ 0 && x.page ≠ c.page) || (x.aKind = 0 && (s.tst (x.aIndex / 4)).2.2.1 ≠ x.page) ||
          portBad x.aKind x.aIndex || portBad x.bKind x.bIndex then s.complete c.tag ePage
      else
        match s.bindState x with
        | some r => s.complete c.tag eState 0 r
        | none =>
          let s := (List.range 4).foldl (fun s i => s.tblPut (svcAddr x.num + i) (c.w i)) s
          let s := if x.aKind = 0 then
              let s := (s.tblPut (allocAddr x.aIndex + 1) (c.w 5)).tblPut (allocAddr x.aIndex) (word (2 ^ 35 + x.num))
              let b : Bucket := ⟨(c.w 5).bits 12 0 * 1024 * 32000, s.now⟩
              { s with traf := { s.traf with police := sput (fun _ => {}) s.traf.police x.aIndex b } }
            else s
          let s := x.keys.foldl
            (fun s k => match s.freeEntry k with
              | some i => (s.tblPut (keyAddr i + 1) (word x.num)).tblPut (keyAddr i) (keyWord k.1 k.2.1 k.2.2.1 k.2.2.2)
              | none => s) s
          s.complete c.tag eOk 0 x.num

/-- `FWD.UNBIND` (R435). -/
def State.cmdUnbind (c : Cmd) (s : State) : State :=
  s.unreserved c [mask 16 0, 0] fun s =>
    let n := (c.w 0).bits 16 0
    let w := fun i => s.reg (svcAddr n + i)
    let x := serviceOf n (w 0) (w 1) (w 2) (w 3)
    if !(w 0).bit 35 then s.complete c.tag eState
    else if c.page ≠ 0 ∧ x.page ≠ c.page then s.complete c.tag ePage
    else
      let s := x.keys.foldl
        (fun s k => match s.keyEntry k with
          | some i => s.tblPut (keyAddr i) (word (setBits (s.reg (keyAddr i)).toNat 35 35 0))
          | none => s) s
      let s := if x.aKind = 0 then
          s.tblPut (allocAddr x.aIndex) (word (setBits (s.reg (allocAddr x.aIndex)).toNat 35 35 0))
        else s
      (s.tblPut (svcAddr n) (word (setBits (s.reg (svcAddr n)).toNat 35 35 0))).complete c.tag eOk

/-! ### QUE commands (R426, R436) -/


/-- `QUE.SET` (R436). -/
def State.cmdQueSet (c : Cmd) (s : State) : State :=
  let op := (c.w 0).bits 35 33
  let set := (c.w 0).bits 32 31
  let idx := (c.w 0).bits 16 0
  let own := fun (g : Nat) => c.page = 0 || c.page = g
  if op = 0 then
    s.unreserved c [mask 35 31 + mask 16 0, mask 35 0, 0] fun s =>
      let quant := (c.w 1).bits 35 21
      if set = 3 then s.complete c.tag eReserved 0
      else if quant = 0 ∨ 16384 < quant then s.complete c.tag eReserved 1
      else match queueOf set idx with
        | none => s.complete c.tag eRange
        | some q =>
          if !own (s.queuePage q) then s.complete c.tag ePage
          else (s.tblPut (queAddr q) (c.w 1)).complete c.tag eOk
  else if op = 1 then
    s.unreserved c [mask 35 33 + mask 30 15, mask 35 13, mask 35 3] fun s =>
      let e := (c.w 0).bits 30 21
      let g := (c.w 0).bits 20 15
      let a := 0o442200000 + 4 * ringKey e g
      let rate := (c.w 1).bits 34 13
      let pq := (c.w 2).bits 17 3
      if rate = 0 ∨ 3200000 < rate then s.complete c.tag eReserved 1
      else if (c.w 2).bits 35 18 = 0 ∨ pq = 0 ∨ 16384 < pq then s.complete c.tag eReserved 2
      else if 532 ≤ e then s.complete c.tag eRange
      else if !own g then s.complete c.tag ePage
      else (((s.takeTokens e g 0).tblPut a (c.w 1)).tblPut (a + 1) (c.w 2)).complete c.tag eOk
  else if op = 2 then
    s.unreserved c [mask 35 33 + mask 20 15, mask 29 0, 0] fun s =>
      if c.page ≠ 0 then s.complete c.tag ePage
      else (s.tblPut (0o443000000 + 4 * (c.w 0).bits 20 15) (c.w 1)).complete c.tag eOk
  else if op = 3 then
    s.unreserved c [mask 35 31 + mask 16 0, mask 8 0, 0] fun s =>
      let n := (c.w 1).bits 8 0
      if set = 3 then s.complete c.tag eReserved 0
      else if n = 0 ∨ 256 < n then s.complete c.tag eRange
      else match queueOf set idx, queueOf set (idx + n - 1) with
        | some q, some _ =>
          let qs := (List.range n).map (q + ·)
          if !qs.all fun q => own (s.queuePage q) then s.complete c.tag ePage
          else s.complete c.tag eOk 0 n (cleanWords c.taken)
        | _, _ => s.complete c.tag eRange
  else s.complete c.tag eReserved 0

end Sys2Proof.Machine
end

