-- ==== Sys2Proof/Machine/Tree.lean ====
section
/-! DEFINITION. Access control (spec/10): terminals, the burst event queue, the control area, maps and their
deadline, and the work of the reference T-core image that R376, R377, R387 and R388 give.  A running T-core is
taken to run the reference image (R31, R392). -/

namespace Sys2Proof.Machine

open Ev Reg

/-- The record of a channel. -/
def State.chan (s : State) (c : Nat) : ChSt := sget (fun _ => {}) s.chans c
/-- The state with a channel's record replaced. -/
def State.setChan (s : State) (c : Nat) (x : ChSt) : State := { s with chans := sput (fun _ => {}) s.chans c x }
/-- The record of a tree. -/
def State.tree (s : State) (t : Nat) : TreeSt := sget (fun _ => {}) s.trees t
/-- The state with a tree's record replaced. -/
def State.setTree (s : State) (t : Nat) (x : TreeSt) : State := { s with trees := sput (fun _ => {}) s.trees t x }

/-- The tick in which a symbol of access frame `n` falls: 72 symbols last 20 ticks (R311). (DEDUCED, log entry 88.) -/
def symTick (n : Nat) (sym : Int) : Int := n * ticksFr + sym * 20 / 72

/-- PRE_U and RNG_U of a tree. -/
def State.preU (s : State) (t : Nat) : Nat := s.rd TREE_BRX_PRE_U t
def State.rngU (s : State) (t : Nat) : Nat := s.rd TREE_BRX2_RNG_U t

/-- States of `CH_DS_STAT.STATE` (R315). -/
def dsOff : Nat := 0
def dsDark : Nat := 1
def dsWarm : Nat := 2
def dsUp : Nat := 3
def dsLit : Nat := 4
def dsDown : Nat := 5

/-- Whether a channel's downstream is RAMP_UP, LIT or RAMP_DOWN. -/
def State.dsLight (s : State) (c : Nat) : Bool := s.dsState c = dsUp || s.dsState c = dsLit || s.dsState c = dsDown

/-! ### The terminal table (R377, R394, R413) -/

/-- States of `TREE_TST.STATE`. -/
def tFree : Nat := 0
def tAssigned : Nat := 1
def tRanged : Nat := 2
def tActive : Nat := 3
def tRetuning : Nat := 4
def tIsolated : Nat := 5
def tRerange : Nat := 6

/-- What a change of terminal `i`'s entry brings, `old` being its state before: reassembly is reset when the state
leaves ACTIVE and RETUNING (R413), a terminal that becomes FREE loses its key (R461), and the schedulers see which
of its queues may be served (R361). -/
def State.tstChanged (s : State) (i old : Nat) : State :=
  let st := (s.tst i).1
  let busy := fun x => x = tActive || x = tRetuning
  let s := if busy old && !busy st then (List.range 4).foldl (fun s j => s.resetReas (4 * i + j)) s else s
  let s := if old ≠ tFree ∧ st = tFree then (s.setKey (.term i) none).wr EDW_TRK_TAGFAIL 0 0 i else s
  (List.range 8).foldl (fun s w => s.seeEgress (8 * (i / 256) + w)) s

/-- Terminal `n` of tree `t` gets STATE, W, PAGE and AEN. -/
def State.setTst (s : State) (t n st w page aen : Nat) : State :=
  let old := (s.tst (256 * t + n)).1
  let s :=
    if n % 2 = 0 then
      (((s.wr TREE_TST_STATE st t (n / 2)).wr TREE_TST_W w t (n / 2)).wr TREE_TST_PAGE page t (n / 2)).wr TREE_TST_AEN aen t (n / 2)
    else
      (((s.wr TREE_TSTO_STATE st t (n / 2)).wr TREE_TSTO_W w t (n / 2)).wr TREE_TSTO_PAGE page t (n / 2)).wr TREE_TSTO_AEN aen t (n / 2)
  s.tstChanged (256 * t + n) old

/-- The state of terminal `n` of tree `t` changes, its other fields staying. -/
def State.setTstState (s : State) (t n st : Nat) : State :=
  let x := s.tst (256 * t + n)
  s.setTst t n st x.2.1 x.2.2.1 x.2.2.2

/-! ### The burst event queue (R332, R333, R339) -/

/-- Whether frame `n` is a shot frame of the run on a slot (R339). -/
def State.shotFrame (s : State) (t w n : Nat) : Bool :=
  (s.tree t).otdr.any fun r => r.w = w && decide (r.frame ≤ n) && decide (n < r.frame + 2 * 2 ^ r.avg)

/-- Whether now lies in a shot frame of a channel (R339). -/
def State.inShot (s : State) (c : Nat) : Bool := s.shotFrame (c / 8) (c % 8) (s.now / ticksFr)

/-- A burst event record; its position may lie before the frame, where a window opened early (R324). -/
structure BurstEvent where
  code : Nat
  alloc : Nat := 0
  ah : Bool := false
  alloc2 : Option Nat := none
  frame : Nat
  pos : Int

/-- A record of slot `w` enters the queue of tree `t`, or is dropped when 128 are held; in a shot frame of the slot none is
written (R339).  POS is the symbol within the frame in which it falls. (DEDUCED, log entry 138.) -/
def State.pushBev (s : State) (t w : Nat) (e : BurstEvent) : State :=
  let x := s.tree t
  if s.shotFrame t w (s.now / ticksFr) then s
  else if 128 ≤ x.bev.length then s.occur TREE_BEV_DROP t
  else
    let e0 := w * 2 ^ 33 + e.code * 2 ^ 28 + e.alloc % 65536 * 2 ^ 12 + b2n e.ah * 2 ^ 11 + 1
    let e1 := (e.alloc2.getD 0) % 65536 * 2 ^ 20 + b2n e.alloc2.isSome * 2 ^ 19 + e.frame % 8192 * 2 ^ 6
    let q := x.bev ++ [⟨e0, e1, (e.pos % 1800000).toNat * 2 ^ 15, s.clock⟩]
    (s.setTree t { x with bev := q }).wr TREE_BEV_STAT_COUNT q.length t

/-- The oldest record is removed: its three words, zeros when the queue is empty but for a record written in the clock of the
read (R333). -/
def State.popBev (s : State) (t : Nat) : (Nat × Nat × Nat) × State :=
  let x := s.tree t
  match x.bev with
  | [] => ((0, 0, 0), s)
  | e :: q =>
    if e.clk = s.clock then ((0, 0, 0), s)
    else ((e.e0, e.e1, e.e2), (s.setTree t { x with bev := q }).wr TREE_BEV_STAT_COUNT q.length t)

/-! ### Grants and codewords (R322, R379) -/

/-- Units of a data grant of `k` codewords (R379). -/
def grantUnits (pre k : Nat) : Nat := if k = 0 then 0 else pre + 16 + ceilDiv (1152 * k + 6) 14

/-- Codewords of a payload of `u` units (R322). -/
def codewordsOf (u : Nat) : Nat := (14 * u - 6) / 1152

/-- Data octets that a grant of KIND 0 carries (R322). -/
def State.grantOctets (s : State) (t : Nat) (g : Grant) : Nat := 136 * codewordsOf (g.len - (s.preU t + 16))

/-! ### Messages of the reference image (R363–R365) -/

/-- Whether the T-core of a tree runs its image. (DEDUCED, log entry 67.) -/
def State.imgRuns (s : State) (t : Nat) : Bool := s.coreState t = cRunning

/-- The image's record of terminal `n`. -/
def State.trm (s : State) (t n : Nat) : Option Trm := sget (fun _ => none) (s.tree t).trms n

/-- The state with it replaced. -/
def State.setTrm (s : State) (t n : Nat) (x : Option Trm) : State :=
  s.setTree t { s.tree t with trms := sput (fun _ => none) (s.tree t).trms n x }

/-- A message joins those that wait for a message slot of channel `c`; its CRC is computed when it is sent. -/
def State.sendMsg (s : State) (c type : Nat) (bcast : Bool) (n seq : Nat) (body : List Nat) : State :=
  let m := [type, 128 * b2n bcast, n, seq] ++ body
  let x := s.chan c
  s.setChan c { x with imgQ := x.imgQ ++ [m ++ List.replicate (46 - m.length) 0] }

/-- A message to terminal `n` with its next SEQ. -/
def State.tell (s : State) (t n type : Nat) (body : List Nat) : State :=
  match s.trm t n with
  | none => s
  | some x =>
    let seq := (x.seq + 1) % 256
    (s.setTrm t n (some { x with seq := seq })).sendMsg (8 * t + (s.tst (256 * t + n)).2.1) type false n seq body

/-- The last message to terminal `n` is sent once more, with its SEQ. (DEDUCED, log entry 92.) -/
def State.retell (s : State) (t n type : Nat) (body : List Nat) : State :=
  match s.trm t n with
  | none => s
  | some x => s.sendMsg (8 * t + (s.tst (256 * t + n)).2.1) type false n x.seq body

/-- A message that an ACTIVE terminal has to acknowledge. (DEDUCED, log entry 92.) -/
def State.ask (s : State) (t n type : Nat) (body : List Nat) : State :=
  match s.trm t n with
  | none => s
  | some x => (s.setTrm t n (some { x with ask := some ⟨type, body, 1, (s.tree t).lastN + 1⟩ })).tell t n type body

/-- EQD_ADJ by `d` symbols. (DEDUCED, log entry 92.) -/
def State.adjust (s : State) (t n : Nat) (d : Int) : State :=
  match s.trm t n with
  | none => s
  | some x =>
    let s := s.setTrm t n (some { x with eqd := x.eqd + d })
    let body := natToOctets 3 (toField 24 d)
    if (s.tst (256 * t + n)).1 = tActive then s.ask t n 0x05 body else s.tell t n 0x05 body

/-- The grant that the answer to a message calls for: a ranging grant for ASSIGN, a management grant for what an assigned
or operating terminal acknowledges (R377–R379). (DEDUCED, log entry 92.) -/
def State.answerGrant (s : State) (t : Nat) (m : List Nat) : Option Grant :=
  let type := m.headD 0
  let base := s.preU t + 16 + s.rngU t
  if type = 0x02 then some ⟨1024 * t + 4 * m.getD 14 0, 2, false, true, 0, base + 2 * s.rd TREE_RNG2_RNG_SLACK t⟩
  else if [0x03, 0x04, 0x05, 0x06].contains type then
    if (s.tst (256 * t + m.getD 2 0)).1 = tRerange then none else some ⟨1024 * t + 4 * m.getD 2 0, 0, false, true, 0, base⟩
  else none

/-- Waiting messages enter the free message slots of a channel, the lowest first, at the build for frame `n`; the grants
of their answers lie 10 frames after the frame that carries them (R365, R377).  A DISC_INVITE stands first in the queue and
leaves in this build (R374): where no slot is free it takes the last. (DEDUCED, log entry 92.) -/
def State.placeMsgs (s : State) (c n : Nat) : State :=
  let full := decide (s.rd CH_DSM_STAT_VALID c = 4095)
  (List.range 12).foldl
    (fun s k =>
      let x := s.chan c
      match x.imgQ with
      | [] => s
      | m :: q =>
        if (s.rd CH_DSM_STAT_VALID c).testBit k && !(full && k = 11 && m.headD 0 = 0x01) then s
        else
          let plan := match s.answerGrant (c / 8) m with
            | some g => x.plan ++ [(n + 8, g)]
            | none => x.plan
          let s := (List.range 12).foldl
            (fun s i => s.wr CH_DSM ((List.range 4).map fun j => m.getD (4 * i + j) 0 * 2 ^ (9 * (3 - j))).sum c k i) s
          (s.wr CH_DSM_STAT_VALID (s.rd CH_DSM_STAT_VALID c ||| 2 ^ k) c).setChan c { x with imgQ := q, plan := plan })
    s

/-! ### Activation (R369, R371, R372, R377) -/

/-- The equalisation delay of a terminal on time (R371). -/
def eqdBase : Int := 3024000

/-- DS_DELAY in ticks for a round trip in symbols (R369). -/
def dsDelay (rtt frac : Nat) : Nat := (2 * (rtt * 5 * frac) + 18 * 65536) / (2 * (18 * 65536))

/-- The message that `TREE.ACTIVATE` waits to be answered is sent, once more. -/
def State.sendAct (s : State) (t : Nat) : State :=
  match (s.tree t).act with
  | none => s
  | some a =>
    let x := s.tree t
    let s := s.setTree t { x with act := some { a with tries := a.tries + 1, at_ := x.lastN + 1 } }
    match s.trm t a.n with
    | none => s
    | some m =>
      if a.phase = 0 then
        s.sendMsg (8 * t + a.found.slot) 0x02 true 0 0
          (natToOctets 8 a.found.serial ++ natToOctets 2 a.found.nonce ++ [a.n] ++ natToOctets 3 m.eqd.toNat)
      else
        let send := if a.tries = 0 then s.tell t a.n else s.retell t a.n
        if a.phase = 1 then
          send 0x03 (natToOctets 3 m.eqd.toNat ++ natToOctets 4 (dsDelay (eqdBase - m.eqd).toNat (s.rd TIME_TOD_DS_FRAC)))
        else send 0x04 [4 * (s.tst (256 * t + a.n)).2.2.1, a.aen]

/-- The next message of an activation. -/
def State.nextPhase (s : State) (t : Nat) (a : Activation) : State :=
  (s.setTree t { s.tree t with act := some { a with phase := a.phase + 1, tries := 0 } }).sendAct t

/-- The allocations of a tree without those of terminal `n`. -/
def dropAllocs (n : Nat) (l : List (Nat × Alloc)) : List (Nat × Alloc) := l.filter fun e => e.1 / 4 ≠ n

/-- A terminal returns to FREE and the image forgets it. -/
def State.clearTrm (s : State) (t n : Nat) : State :=
  let s := (s.setTst t n tFree 0 0 0).setTrm t n none
  s.setTree t { s.tree t with allocs := dropAllocs n (s.tree t).allocs }

/-- An activation fails for want of an answer: `E_STATE` with DETAIL 1 or 2. -/
def State.failAct (s : State) (t : Nat) (a : Activation) : State :=
  let s := s.setTree t { s.tree t with act := none }
  if a.phase = 0 then (s.clearTrm t a.n).complete a.tag eState 1
  else ((s.tell t a.n 0x09 []).clearTrm t a.n).complete a.tag eState 2

/-- Frames from the control area that first can carry a message to the end of the grant in which its answer is
expected, 10 frames after it. (DEDUCED, log entry 92.) -/
def attemptFrames : Nat := 12

/-- An attempt whose grant has passed without an answer is repeated, at most three in all. -/
def State.retryAct (s : State) (t n : Nat) : State :=
  match (s.tree t).act with
  | none => s
  | some a => if a.at_ + attemptFrames ≤ n then (if 3 ≤ a.tries then s.failAct t a else s.sendAct t) else s

/-- Word 0 of the action block of a timed store into the entry of terminal `n` of tree `t`: an even `n` lies in lanes 3–2,
an odd one in lanes 1–0 (R142, R394). (DEDUCED, log entry 94.) -/
def tstStore (t n : Nat) : Word := word ((if n % 2 = 0 then 12 else 3) * 2 ^ 30 + TREE_TST_STATE.addr t (n / 2) 0)

/-- The armed actions of terminal `n` are cancelled, and with them its Slalom move (R377). (DEDUCED, log entry 94.) -/
def State.cancelArmed (s : State) (t n : Nat) : State :=
  let c := s.core t
  let s := if c.slots.any fun e => e.2.w0 = tstStore t n then
      s.setCore t { c with slots := c.slots.filter fun e => e.2.w0 ≠ tstStore t n }
    else s
  match s.trm t n with
  | some x => if x.move.isSome then s.setTrm t n (some { x with move := none }) else s
  | none => s

/-- A misranged terminal is re-ranged (R377, R387); what it was to do of its own is over. -/
def State.rerange (s : State) (t n : Nat) : State :=
  let s := s.cancelArmed t n
  match s.trm t n with
  | none => s
  | some x =>
    let s := s.setTrm t n (some { x with misses := 0, reAt := (s.tree t).lastN, ask := none })
    ((s.setTstState t n tRerange).occur TRM_RERANGE t).adjust t n (8 * s.rd TREE_RNG2_RNG_SLACK t)

/-- Whether terminal `n` is ACTIVE under the image. (DEDUCED, log entry 30.) -/
def State.imgActive (s : State) (t n : Nat) : Bool :=
  s.imgRuns t && (s.trm t n).isSome && (s.tst (256 * t + n)).1 = tActive

/-- The terminal of a Slalom move goes back to slot `w`: it gets a management grant there and is held off (R391). (DEDUCED, log entry 30; DESIGN CHOICE, log entry 93.) -/
def State.failMove (s : State) (t n : Nat) (x : Trm) (m : Move) : State :=
  let e := s.tst (256 * t + n)
  let s := s.setTrm t n (some { x with
    move := none, misses := 0, held := s.now / ticksSf + s.rd TREE_SLALOM_HOLDOFF t })
  let s := (s.setTst t n tActive m.src e.2.2.1 e.2.2.2).occur SLALOM_FAIL t
  let c := 8 * t + m.src
  let g : Grant := ⟨1024 * t + 4 * n, 0, false, true, 0, s.preU t + 16 + s.rngU t⟩
  s.setChan c { s.chan c with plan := (s.chan c).plan ++ [((s.tree t).lastN + 2, g)] }

/-- Terminal `n` is named as rogue or misranged on its channel (R388). -/
def State.named (s : State) (t n : Nat) : State :=
  let c := 8 * t + (s.tst (256 * t + n)).2.1
  s.setChan c { s.chan c with namedFr := some (s.now / ticksFr) }

/-- A MISS record on a grant of allocation `a` in frame `f`: the fourth on the new slot of a Slalom move undoes the move
(R391), and MISS_N consecutive ones re-range the terminal (R377). -/
def State.imgMiss (s : State) (t a f : Nat) : State :=
  let n := a / 4 % 256
  if !s.imgActive t n then s
  else match s.trm t n with
    | none => s
    | some x =>
      let y := { x with misses := x.misses + 1 }
      let again := fun (y : Trm) =>
        if s.rd TREE_ROGUE_MISS_N t ≤ y.misses then (s.named t n).rerange t n else s.setTrm t n (some y)
      match x.move with
      | some m =>
        if f < m.frame + 8 then again y
        else if 4 ≤ m.misses + 1 then s.failMove t n y m
        else again { y with move := some { m with misses := m.misses + 1 } }
      | none => again y

/-- A burst of allocation `a` was decoded in its own window in frame `f`: its misses are not consecutive, and a Slalom
move to the slot is completed (R391). -/
def State.imgHit (s : State) (t a f : Nat) : State :=
  let n := a / 4 % 256
  match s.trm t n with
  | none => s
  | some x =>
    let x := { x with misses := 0 }
    match x.move with
    | some m =>
      if s.imgActive t n = true ∧ m.frame + 8 ≤ f then
        (s.setTrm t n (some { x with
          move := none, held := s.now / ticksSf + s.rd TREE_SLALOM_HOLDOFF t })).occur SLALOM_MOVE t
      else s.setTrm t n (some x)
    | none => s.setTrm t n (some x)

/-- A report of allocation `a` in a burst of frame `f`: the demand counts the grants of later frames (R380). -/
def State.imgReport (s : State) (c a f : Nat) : State :=
  let x := s.tree (c / 8)
  let late := ((s.chan c).maps.filter fun m => decide (f < m.1)).flatMap (·.2)
  let oct := ((late.filter fun g => g.alloc = a && g.kind = 0).map fun g => s.grantOctets (c / 8) g).sum
  s.setTree (c / 8) { x with
    allocs := x.allocs.map fun e => if e.1 = a % 1024 then (e.1, { e.2 with rep := f, since := oct }) else e }

/-- A record with AH = 1 that names allocation `a`, if it is one of the tree, in another's grant (R377, R387). -/
def State.imgNamed (s : State) (t a : Nat) : State :=
  let n := a / 4 % 256
  if a / 1024 = t ∧ s.imgActive t n = true then (s.named t n).rerange t n else s

/-- A DRIFT record of allocation `a`. -/
def State.imgDrift (s : State) (t a : Nat) (ofs : Int) : State :=
  let n := a / 4 % 256
  if s.imgActive t n then (s.named t n).adjust t n (-ofs) else s

/-- A RANGED record of allocation `a`, `x` symbols late: a terminal in RERANGE becomes ACTIVE. -/
def State.imgRanged (s : State) (t a : Nat) (x : Int) : State :=
  let n := a / 4 % 256
  if s.imgRuns t ∧ (s.trm t n).isSome ∧ (s.tst (256 * t + n)).1 = tRerange then (s.setTstState t n tActive).adjust t n (-x)
  else s

/-- The terminal is rogue: it is disabled and ISOLATED (R377, R388). (DEDUCED, log entries 30 and 94.) -/
def State.isolate (s : State) (t n : Nat) : State :=
  let s := s.cancelArmed t n
  match s.trm t n with
  | none => s
  | some x =>
    let s := s.setTrm t n (some { x with ask := none })
    let s := ((s.tell t n 0x07 []).setTstState t n tIsolated).occur TRM_ROGUE t
    s.setTree t { s.tree t with rogues := x.serial :: (s.tree t).rogues.filter (· ≠ x.serial) }

/-- A LONG record of allocation `a`, if it is one of the tree, in frame `f` (R388). -/
def State.imgLong (s : State) (t a f : Nat) : State :=
  let n := a / 4 % 256
  if a / 1024 ≠ t ∨ s.imgActive t n = false then s
  else match s.trm t n with
    | none => s
    | some x =>
      let l := f :: x.longs.filter fun g => decide (f < g + 64)
      let s := s.setTrm t n (some { x with longs := l })
      if s.rd TREE_ROGUE_LONG_N t ≤ l.length then (s.named t n).isolate t n else s

/-! ### The search by halves (R388) -/

/-- The terminals of a channel that are ACTIVE or in RERANGE, by number. -/
def State.huntable (s : State) (c : Nat) : List Nat :=
  (List.range 256).filter fun n =>
    let x := s.tst (256 * (c / 8) + n)
    x.2.1 = c % 8 && (x.1 = tActive || x.1 = tRerange) && (s.trm (c / 8) n).isSome

/-- Terminals `l` of a channel get DISABLE_TX, and the light of `cands` is looked for; `dark` as in `Hunt`. -/
def State.huntDisable (s : State) (c : Nat) (cands l : List Nat) (dark : Bool) : State :=
  let s := l.foldl (fun s n => s.tell (c / 8) n 0x07 []) s
  s.setChan c { s.chan c with hunt := some ⟨cands, l, none, dark⟩ }

/-- A round of the search on channel `c`: half of the candidates is disabled.  The one that is left is rogue; but where every
observation saw light it may come from elsewhere, and every terminal of the channel is disabled first. (DEDUCED, log entry
92.) -/
def State.huntRound (s : State) (c : Nat) (cands : List Nat) (dark : Bool) : State :=
  match cands with
  | [] => s.setChan c { s.chan c with hunt := none }
  | [n] =>
    if dark then (s.setChan c { s.chan c with hunt := none, unsolFr := [] }).isolate (c / 8) n
    else s.huntDisable c cands (s.huntable c) dark
  | _ => s.huntDisable c cands (cands.take (cands.length / 2)) dark

/-- The light comes from no terminal of the channel: discovery is suspended on it (R388). -/
def State.huntOutside (s : State) (c : Nat) : State :=
  (s.setChan c { s.chan c with hunt := none, suspended := true }).occur TREE_ROGUE_EXT (c / 8)

/-- An UNSOLICITED record of frame `f` on channel `c`. -/
def State.imgUnsol (s : State) (c f : Nat) : State :=
  let t := c / 8
  if !s.imgRuns t then s
  else
    let x := s.chan c
    let l := f :: x.unsolFr.filter fun g => decide (f < g + 64)
    let s := s.setChan c { x with unsolFr := l }
    if x.hunt.isSome ∨ x.suspended ∨ l.length < s.rd TREE_ROGUE_UNSOL_N t ∨ (x.namedFr.any fun g => decide (f < g + 64)) then s
    else
      match s.huntable c with
      | [] => s.huntOutside c
      | l => s.huntRound c l false

/-- The search goes on at the deadline of frame `n`: the observation starts 8 frames after the last DISABLE_TX, which left in
the control area built before, and lasts 16.  Of the half that is kept disabled, those not disabled next are enabled too.
(DEDUCED, log entry 92.) -/
def State.huntFrame (s : State) (c n : Nat) : State :=
  let x := s.chan c
  match x.hunt with
  | none => s
  | some h =>
    match h.from_ with
    | none =>
      if x.imgQ.any fun m => m.headD 0 = 0x07 then s else s.setChan c { x with hunt := some { h with from_ := some (n + 5) } }
    | some f =>
      if s.now / ticksFr < f + 16 then s
      else
        let enable := fun (s : State) (l : List Nat) => l.foldl (fun (s : State) k => s.tell (c / 8) k 0x08 []) s
        let seen := x.unsolFr.any fun g => decide (f ≤ g) && decide (g < f + 16)
        match h.cands with
        | [k] => if seen then (enable s h.off).huntOutside c else (enable s (h.off.filter (· ≠ k))).huntRound c [k] true
        | _ =>
          let on := h.cands.filter fun k => !h.off.contains k
          let again := if seen then [] else if h.off.length = 1 then [] else h.off.drop (h.off.length / 2)
          (enable (enable s (if seen then h.off else on)) again).huntRound c (if seen then on else h.off) (h.dark || !seen)

/-! ### Discovery (R374–R376, R393) -/

/-- A DISCOVERY message received in frame `f`, its delimiter at `pos`. -/
def State.imgDiscovery (s : State) (t w f pos : Nat) (m : List Nat) : State :=
  let x := s.tree t
  match x.disc with
  | none => s
  | some d =>
    let serial := octetsToNat ((m.drop 4).take 8)
    let rd : Nat := octetsToNat ((m.drop 14).take 3) % 2 ^ 17
    let second : Nat := (f - d.first) % d.gap
    let rtt : Int := s.rd TREE_RNG_RTT_MIN t + 1800000 * second + pos - 8 * s.preU t - 8 * rd
    let e : Found := ⟨serial, octetsToNat ((m.drop 12).take 2), w, m.getD 17 0, rtt.toNat⟩
    let l := (x.found.filter fun k => k.serial ≠ serial) ++ [e]
    s.setTree t { x with
      found := l.drop (l.length - 256)
      disc := some { d with serials := if d.serials.contains serial then d.serials else d.serials ++ [serial] } }

/-- The invitation of a pair whose first frame is `n` (R374). -/
def State.imgInvite (s : State) (t n : Nat) : State :=
  match (s.tree t).disc with
  | none => s
  | some d =>
    if n < d.first ∨ d.pairs ≤ (n - d.first) / d.gap ∨ (n - d.first) % d.gap ≠ 0 then s
    else
      let body := natToOctets 3 (eqdBase - s.rd TREE_RNG_RTT_MIN t).toNat ++ natToOctets 3 (s.rd TREE_RNG2_RD_MAX t)
      (List.range 8).foldl
        (fun s w =>
          if d.mask.testBit w ∧ s.dsState (8 * t + w) = dsLit ∧ !(s.chan (8 * t + w)).suspended then
            let s := s.sendMsg (8 * t + w) 0x01 true 0 0 body
            let q := (s.chan (8 * t + w)).imgQ
            s.setChan (8 * t + w) { s.chan (8 * t + w) with imgQ := q.drop (q.length - 1) ++ q.take (q.length - 1) }
          else s) s

/-- The two word pairs of a serial in the result of `TREE.DISCOVER` (R393). -/
def Found.words (e : Found) : List PWord :=
  cleanWords [e.serial / 2 ^ 32, e.serial % 2 ^ 32, e.slot * 2 ^ 33 + e.cap * 2 ^ 25 + e.rtt % 2 ^ 22, 0]

/-- `TREE.DISCOVER` completes 1 ms after its last pair. -/
def State.discoverEnds (s : State) (t : Nat) : State :=
  let x := s.tree t
  match x.disc with
  | none => s
  | some d =>
    if s.now / ticksFr < d.first + (d.pairs - 1) * d.gap + 2 + 8 then s
    else
      let es := x.found.filter fun e => d.serials.contains e.serial
      (s.setTree t { x with disc := none }).complete d.tag eOk 0 es.length (es.flatMap Found.words)

/-! ### Upstream messages (R364, R377) -/

/-- Terminal `n` acknowledges the message with a SEQ. -/
def State.imgAck (s : State) (t n seq : Nat) : State :=
  match s.trm t n with
  | none => s
  | some x => if x.seq = seq then s.setTrm t n (some { x with ask := none }) else s

/-- What the image does with a message of terminal or discovery burst: `kind` of its grant, frame `f`, delimiter `pos`,
`late` by how many symbols. -/
def State.imgMessage (s : State) (t w kind a f pos : Nat) (late : Int) (m : List Nat) : State :=
  let n := a / 4 % 256
  let type := m.headD 0
  if !s.imgRuns t then s
  else if kind = 1 then (if type = 0x41 then s.imgDiscovery t w f pos m else s)
  else
    let s := if type = 0x43 then s.imgAck t n (m.getD 5 0) else s
    match (s.tree t).act, s.trm t n with
    | some act, some x =>
      if act.n ≠ n then s
      else if act.phase = 0 ∧ kind = 2 ∧ type = 0x42 ∧ octetsToNat ((m.drop 4).take 8) = x.serial then
        ((s.setTrm t n (some { x with eqd := x.eqd - late })).setTstState t n tRanged).nextPhase t act
      else if act.phase = 1 ∧ type = 0x43 ∧ m.getD 4 0 = 0x03 ∧ m.getD 5 0 = x.seq then s.nextPhase t act
      else if act.phase = 2 ∧ type = 0x43 ∧ m.getD 4 0 = 0x04 ∧ m.getD 5 0 = x.seq then
        let e := s.tst (256 * t + n)
        let s := (s.setTree t { s.tree t with act := none }).setTst t n tActive e.2.1 e.2.2.1 act.aen
        (s.occur TRM_ACTIVE t).complete act.tag eOk 0 (256 * t + n)
      else s
    | _, _ => s

/-! ### The image's work of each frame (R377) -/

/-- One send of `TREE.DEACTIVATE`; after the third the terminal is FREE. -/
def State.deactFrame (s : State) (t : Nat) : State :=
  match (s.tree t).deact with
  | none => s
  | some (tag, n, left) =>
    if left = 0 then ((s.setTree t { s.tree t with deact := none }).clearTrm t n).complete tag eOk
    else
      let s := s.setTree t { s.tree t with deact := some (tag, n, left - 1) }
      if (s.trm t n).isSome then s.tell t n 0x09 []
      else s.sendMsg (8 * t + (s.tst (256 * t + n)).2.1) 0x09 false n 0 []

/-- Terminals in RERANGE for 8,000 frames are lost. -/
def State.loseTrms (s : State) (t n : Nat) : State :=
  ((s.tree t).trms.map (·.1)).foldl
    (fun s k =>
      match s.trm t k with
      | none => s
      | some x =>
        if (s.tst (256 * t + k)).1 = tRerange ∧ x.reAt + 8000 ≤ n then (s.clearTrm t k).occur TRM_LOST t else s) s

/-! ### The control area (R357, R358, R367, R368) -/

/-- A grant entry in octets (R358). -/
def Grant.octets (g : Grant) : List Nat :=
  natToOctets 2 g.alloc ++ [16 * g.kind + 8 * b2n g.report + 4 * b2n g.msg] ++ natToOctets 5 (g.start * 2 ^ 22 + g.len * 16)

/-- The mapping offset that will be in force at the start of superframe `sf`. -/
def State.offsetAt (s : State) (sf : Nat) : Nat :=
  match s.time.restep with
  | some r => if r.sf ≤ sf then r.offset.toNat else s.time.offset
  | none => s.time.offset

/-- The announcement for superframe `sf` (R67, R367). -/
def State.announcement (s : State) (t sf : Nat) : List Nat :=
  let st := s.rd TIME_STAT_STATE
  let q := if st = stLocked then 1 else if st = stHoldover then 2 else 0
  let z : Int := s.offsetAt sf + tOfLp (sf * ticksSf)
  let nt := (z / ntSec).toNat % 2 ^ 48 * 2 ^ 46 + (z % ntSec / ntNs).toNat * 2 ^ 16 + (z % ntNs).toNat
  natToOctets 5 (sf % 2 ^ 36 * 16) ++ natToOctets 12 (if q = 0 then 0 else nt * 4) ++
    natToOctets 2 (s.rd TREE_ANN_UTC_OFS t) ++
    [128 * s.rd TREE_ANN_LI61 t + 64 * s.rd TREE_ANN_LI59 t + 16 * q, 0, 0, 0, 0]

/-- The announcement that the control area of frame `m` carries: in frame 4,096, and again in frame 8,188 when a re-step
accepted since takes effect at the same boundary, whatever its offset (R368). -/
def State.announce (s : State) (t m : Nat) : Option (List Nat) :=
  let sf := m / 8192 + 1
  if m % 8192 = 4096 then some (s.announcement t sf)
  else if m % 8192 = 8188 ∧ (s.tree t).annSf = sf + 1 ∧
      (s.time.restep.any fun r => r.sf = sf && (s.tree t).annRe ≠ some r.at_) then some (s.announcement t sf)
  else none

/-- The first octet from `start` on at which a packet header or an idle header begins, where one may begin at octet `e` and the
packets `l` follow in order (R360). -/
def firstHeader (start e : Nat) (l : List (Nat × List Nat)) : Nat :=
  let h := if start ≤ e then e else e + ceilDiv (start - e) 16 * 16
  match l with
  | [] => h
  | (q, os) :: t => if h ≤ q then h else firstHeader start (q + os.length) t

/-- Payload octet at which the first packet header of frame `m` begins (R357, R360); the stream starts with the first frame
sent (R315). (DEDUCED, log entry 80.) -/
def State.frameFpp (s : State) (c m : Nat) : Nat :=
  let x := s.chan c
  let origin := (x.enAt.getD x.upAt) / ticksFr * 390625
  let l := x.down.filter fun p => decide (origin ≤ p.1)
  let e := match l with
    | (q, _) :: _ => q % 16
    | [] => max origin x.dsEnd
  let start := m * 390625
  let h := firstHeader start (if x.enAt.isSome then origin else e) l
  if h < start + 390625 then h - start else 0x7FFFF

/-- The 48 octets of message slot `k`, with their CRC. -/
def State.dsMessage (s : State) (c k : Nat) : List Nat :=
  let os := (List.range 46).map fun q => s.rd CH_DSM c k (q / 4) / 2 ^ (9 * (3 - q % 4)) % 256
  os ++ natToOctets 2 (crc16 os)

/-- The control area of frame `m` of channel `c` with the map `gs` (R357). -/
def State.controlArea (s : State) (c m : Nat) (gs : List Grant) (ann : Option (List Nat)) : List Nat :=
  let t := c / 8
  let ms := (List.range 12).filter fun k => (s.rd CH_DSM_STAT_VALID c).testBit k && !(s.chan c).dsmHeld.testBit k
  let head := natToOctets 7 (m / 8192 % 2 ^ 36 * 2 ^ 20 + m % 8192 * 2 ^ 7 + c % 8 * 16) ++ [128 * b2n ann.isSome] ++
    natToOctets 3 (s.frameFpp c m) ++ natToOctets 2 gs.length ++ natToOctets 2 (s.preU t * 64) ++
    natToOctets 2 (s.rngU t * 16) ++ [ms.length] ++ List.replicate 6 0
  let map := gs.flatMap Grant.octets
  let msgs := ms.flatMap (s.dsMessage c)
  let body := head ++ map ++ List.replicate (2048 - map.length) 0 ++ ann.getD (List.replicate 24 0) ++
    msgs ++ List.replicate (576 - msgs.length) 0
  body ++ natToOctets 4 (crc32 body) ++ [0]

/-! ### The map deadline (R324, R325, R382–R385) -/

/-- The map deadline of frame `n` with lead `dl` µs, as a tick (R382). -/
def mapDeadline (dl n : Nat) : Int := ((n : Int) - 2) * ticksFr - dl * ticksUs

/-- The deadline of frame `n` of a tree, each value of DL_LEAD counting from its first frame (R385). -/
def State.deadline (s : State) (t n : Nat) : Int :=
  mapDeadline (match (s.tree t).leads.find? fun e => decide (e.1 ≤ n) with
    | some e => e.2
    | none => s.rd TREE_MAPCTL_DL_LEAD t) n

/-- The frame whose deadline had passed last at tick `k` of the last few frames (R382). -/
def State.passedBy (s : State) (t k : Nat) : Nat :=
  let l := (s.tree t).lastN
  l - ((List.range 9).filter fun i => decide ((k : Int) < s.deadline t (l - i))).length

/-- The last frame whose deadline has passed by now. -/
def State.lastDeadline (s : State) (dl : Nat) : Nat := (s.now + dl * ticksUs) / ticksFr + 2

/-- A write of `TREE_MAPCTL` takes effect: the new lead counts from the first frame whose new deadline lies after now. -/
def State.wroteMapCtl (s : State) (t old : Nat) : State :=
  let new := s.rd TREE_MAPCTL_DL_LEAD t
  if new = old then s
  else
    let x := s.tree t
    let from_ := max (x.lastN + 1) (s.lastDeadline new + 1)
    let kept := (if x.leads = [] then [(0, old)] else x.leads).filter fun e => decide (e.1 < from_)
    s.setTree t { x with leads := (from_, new) :: kept.takeWhile (fun e => decide (x.lastN < e.1)) ++
      (kept.dropWhile fun e => decide (x.lastN < e.1)).take 2 }

/-- The hold map of a slot (R384). -/
def holdMap (gs : List Grant) : List Grant :=
  (gs.filter fun g => g.kind ≠ 1).map fun g => if g.kind = 2 then { g with kind := 3 } else g

/-- The window of a grant: first and last symbol for a burst start; none for a quiet window, or for one too short to arm
(R324, R325). -/
def State.windowOf (s : State) (t : Nat) (g : Grant) : Option (Int × Int) :=
  let pre := s.preU t + 16
  if g.kind = 0 then
    if g.len < pre then none
    else some (8 * ((g.start : Int) - s.rd TREE_BRX_EARLY t), 8 * ((g.start : Int) + s.rd TREE_BRX_LATE t))
  else if g.kind = 3 then none
  else if g.len < pre + s.rngU t then none
  else some (8 * g.start, 8 * ((g.start : Int) + g.len - (pre + s.rngU t)))

/-- The map in force for frame `n` on channel `c`: the committed map, or the hold map, with SRC and HOLDRUN (R383,
R384). -/
def State.takeMap (s : State) (c n : Nat) : List Grant × State :=
  let t := c / 8
  let w := c % 8
  let x := s.chan c
  let prev := (x.maps.find? fun m => m.1 + 1 = n).map (·.2) |>.getD []
  let x' : ChSt := { x with commits := x.commits.filter fun m => decide (n < m.1) }
  match x.commits.find? fun m => m.1 = n with
  | some (_, gs) =>
    (gs, (((s.setChan c { x' with stalled := false }).wr TREE_MAPSTAT_SRC 0 t w).wr TREE_MAPSTAT_HOLDRUN 0 t w))
  | none =>
    let run := min (s.rd TREE_MAPSTAT_HOLDRUN t w + 1) 65535
    let s := ((s.setChan c x').count CH_MAP_HOLD c).wr TREE_MAPSTAT_HOLDRUN run t w
    if s.rd TREE_MAPCTL_HOLD_MAX t ≤ run then
      let s := s.wr TREE_MAPSTAT_SRC 2 t w
      ([], if x.stalled then s else (s.setChan c { x' with stalled := true }).occur TREE_MAP_STALL c)
    else if s.deadline t n < x.upAt + 2 * ticksFr then ([], s.wr TREE_MAPSTAT_SRC 2 t w)
    else (holdMap prev, s.wr TREE_MAPSTAT_SRC 1 t w)

/-- A write of `CH_DSM_CTL.SET` marks message slots valid; in the clock of the next build or after it, the slots stay valid for
the build that follows (R365). -/
def State.setDsm (s : State) (c bits : Nat) : State :=
  let valid := s.rd CH_DSM_STAT_VALID c
  let s := s.wr CH_DSM_STAT_VALID (valid ||| bits) c
  if s.deadline (c / 8) ((s.tree (c / 8)).lastN + 1) / 4 ≤ (s.clock : Int) then
    let x := s.chan c
    s.setChan c { x with dsmNext := x.dsmNext ||| bits, dsmHeld := x.dsmHeld ||| (bits &&& (4095 ^^^ valid)) }
  else s

/-! ### Commands (R392, R393) -/

/-- `TREE.DISCOVER`. -/
def State.cmdDiscover (c : Cmd) (s : State) : State :=
  s.unreserved c [mask 35 14, mask 12 0] fun s =>
    let t := (c.w 0).bits 35 30
    let m := (c.w 0).bits 29 22
    let pairs := (c.w 0).bits 21 14
    let gap := (c.w 1).bits 12 0
    if pairs = 0 ∨ gap < 16 then s.complete c.tag eReserved (if pairs = 0 then 0 else 1)
    else if !s.imgRuns t then s.complete c.tag eState
    else if m = 0 then s.complete c.tag eRange
    else if (List.range 8).all fun w => !m.testBit w || s.dsState (8 * t + w) ≠ dsLit then s.complete c.tag eState
    else
      let first := max (ceilDiv (s.now + 2 * ticksMs) ticksFr) ((s.tree t).lastN + 1)
      let s := s.setTree t { s.tree t with disc := some ⟨c.tag, m, pairs, gap, first, []⟩ }
      (List.range 8).foldl
        (fun s w => if m.testBit w then s.setChan (8 * t + w) { s.chan (8 * t + w) with suspended := false } else s) s

/-- Units of every fixed grant on slot `w` of a tree. -/
def State.fixedUnits (s : State) (t w : Nat) : Nat :=
  ((s.tree t).trms.map fun e => match e.2 with
    | some x => if (s.tst (256 * t + e.1)).2.1 = w then (x.fix.map (grantUnits (s.preU t))).sum else 0
    | none => 0).sum

/-- The allocations of terminal `n` from frame `f` on, none granted yet. -/
def newAllocs (n f : Nat) (l : List (Nat × Alloc)) : List (Nat × Alloc) :=
  dropAllocs n l ++ (List.range 4).map fun j => (4 * n + j, { last := f, rep := f })

/-- `TREE.ACTIVATE`.  The spec gives a channel 64 terminals (R36) and no status for one more; the image gives a free ID of
the tree whichever channel it is on, so a channel may have up to 256. (DESIGN CHOICE, log entry 115.) -/
def State.cmdActivate (c : Cmd) (s : State) : State :=
  s.unreserved c ([mask 35 20, mask 31 0, mask 31 0] ++ List.replicate 4 (mask 35 3)) fun s =>
    let t := (c.w 0).bits 35 30
    let page := (c.w 0).bits 29 24
    let aen := (c.w 0).bits 23 20
    let serial := (c.w 1).bits 31 0 * 2 ^ 32 + (c.w 2).bits 31 0
    let qs := (List.range 4).map fun j => (c.w (3 + j)).bits 35 15
    let fix := (List.range 4).map fun j => (c.w (3 + j)).bits 14 3
    if !s.imgRuns t then s.complete c.tag eState
    else if c.page ≠ 0 ∧ page ≠ c.page then s.complete c.tag ePage
    else if aen % 2 = 0 ∨ (qs.any fun q => decide (q < 64) || decide (1048576 < q)) ∨ fix.any (fun k => decide (2732 < k)) then
      s.complete c.tag eRange
    else
      match (s.tree t).found.find? fun e => e.serial = serial with
      | none => s.complete c.tag eState 0
      | some e =>
        if 200000 < s.fixedUnits t e.slot + (fix.map (grantUnits (s.preU t))).sum then s.complete c.tag eRange
        else if (s.tree t).act.isSome then s.complete c.tag eBusy
        else
          match (List.range 256).find? fun n => (s.tst (256 * t + n)).1 = tFree with
          | none => s.complete c.tag eState 3
          | some n =>
            let eqd : Int := eqdBase - e.rtt + 8 * s.rd TREE_RNG2_RNG_SLACK t
            let s := (s.setTst t n tAssigned e.slot page 0).setTrm t n
              (some { serial := serial, eqd := eqd, fix := fix, q := qs, cap := e.cap })
            let s := if (s.tree t).rogues.contains serial then s.tell t n 0x08 [] else s
            let x := s.tree t
            (s.setTree t { x with
              rogues := x.rogues.filter (· ≠ serial), act := some ⟨c.tag, n, aen, e, 0, 0, 0⟩
              allocs := newAllocs n x.lastN x.allocs }).sendAct t

/-- `TREE.DEACTIVATE`. (DEDUCED, log entry 94.) -/
def State.cmdDeactivate (c : Cmd) (s : State) : State :=
  s.unreserved c [mask 35 22, 0] fun s =>
    let t := (c.w 0).bits 35 30
    let n := (c.w 0).bits 29 22
    let x := s.tst (256 * t + n)
    if !s.imgRuns t then s.complete c.tag eState
    else if c.page ≠ 0 ∧ x.2.2.1 ≠ c.page then s.complete c.tag ePage
    else if x.1 = tFree then s.complete c.tag eState
    else
      let s := s.cancelArmed t n
      s.setTree t { s.tree t with deact := some (c.tag, n, 3) }

end Sys2Proof.Machine
end

