-- ==== Sys2Proof/Machine/Grants.lean ====
section
/-! DEFINITION. Grants and moves (spec/10): the maps that the reference T-core image computes and commits (R379–R381,
R386), Slalom on the reference K-core image (R389–R391), and the map deadline (R357, R382–R385). -/

namespace Sys2Proof.Machine

open Ev Reg

/-! ### The deficit round robin of a map (R381) -/

/-- A backlogged allocation in the walk: its quantum, deficit, round stamp, demand in octets and the codewords placed for it
in this map. -/
structure DrrM where
  a : Nat
  q : Nat
  d : Nat
  stamp : Nat
  demand : Int
  tot : Nat
  deriving DecidableEq, Repr

/-- The walk: units left, virtual time, members still to visit in this round, members visited in it, members that left, the
allocations in the order in which each was first given codewords, and the pointer. -/
structure Walk where
  cap : Nat
  v : Nat
  todo : List DrrM
  done : List DrrM
  gone : List DrrM
  order : List Nat
  p : Nat
  deriving DecidableEq, Repr

/-- Units that `n` codewords of an allocation take, guard included. -/
def walkUnits (pre guard n : Nat) : Nat := if n = 0 then 0 else grantUnits pre n + guard

/-- The largest number of codewords up to `k` that fits. -/
def cutTo (pre guard tot cap : Nat) : Nat → Nat
  | 0 => 0
  | k + 1 => if walkUnits pre guard (tot + (k + 1)) - walkUnits pre guard tot ≤ cap then k + 1 else cutTo pre guard tot cap k

/-- A member is given `k` codewords. -/
def DrrM.give (m : DrrM) (k : Nat) : DrrM := { m with tot := m.tot + k, d := m.d - 136 * k, demand := m.demand - 136 * k }

/-- One visit: the walk after it, and whether it stops there. (DEDUCED, log entry 91.) -/
def Walk.visit (pre guard : Nat) (x : Walk) (m : DrrM) (rest : List DrrM) : Walk × Bool :=
  let m := if m.stamp < x.v then { m with d := m.d + m.q, stamp := x.v } else m
  let k := min (ceilDiv m.demand.toNat 136) (m.d / 136)
  let cost := walkUnits pre guard (m.tot + k) - walkUnits pre guard m.tot
  let order := fun k => if k = 0 ∨ x.order.contains m.a = true then x.order else x.order ++ [m.a]
  if x.cap < cost then
    let k := cutTo pre guard m.tot x.cap k
    ({ x with todo := m.give k :: rest, order := order k, p := m.a }, true)
  else
    let m := m.give k
    let x := { x with cap := x.cap - cost, todo := rest, order := order k, p := m.a }
    if m.demand ≤ 0 then ({ x with gone := { m with d := 0, demand := 0 } :: x.gone }, false)
    else ({ x with done := x.done ++ [m] }, false)

/-- The walk, `rounds` having passed in this frame; `fuel` bounds the visits of 64 rounds. (DEDUCED, log entry 91.) -/
def Walk.run (pre guard : Nat) : Nat → Nat → Walk → Walk
  | 0, _, x => x
  | fuel + 1, rounds, x =>
    match x.todo with
    | m :: rest =>
      let (y, stop) := x.visit pre guard m rest
      if stop then y else Walk.run pre guard fuel rounds y
    | [] =>
      match x.done with
      | [] => x
      | m :: _ =>
        let x := { x with v := x.v + 1, todo := x.done, done := [] }
        if 64 ≤ rounds + 1 then { x with p := m.a } else Walk.run pre guard fuel (rounds + 1) x

/-- The walk over the members of a slot, in order of allocation, from the pointer on. (DEDUCED, log entry 91.) -/
def mapWalk (pre guard cap v p : Nat) (ms : List DrrM) : Walk :=
  let x : Walk := ⟨cap, v, ms.filter fun m => decide (p ≤ m.a), ms.filter fun m => decide (m.a < p), [], [], p⟩
  Walk.run pre guard (65 * (ms.length + 1)) 0 x

/-! ### The map of a slot (R379) -/

/-- The slot on which a terminal of the image has data grants in frame `n`; none while they are withheld (R377, R388,
R391). -/
def State.grantSlot (s : State) (t k n : Nat) : Option Nat :=
  let e := s.tst (256 * t + k)
  match s.trm t k with
  | none => none
  | some x =>
    if ((s.tree t).deact.any fun d => d.2.1 = k) || ((s.chan (8 * t + e.2.1)).hunt.any fun h => h.off.contains k) then none
    else match x.move with
      | some m =>
        if e.1 ≠ tActive ∧ e.1 ≠ tRetuning then none
        else if n < m.frame then some m.src
        else if n < m.frame + 8 then none
        else some m.dst
      | none => if e.1 = tActive then some e.2.1 else none

/-- The enabled allocations with data grants on slot `w` in frame `n`, as 4 · k + j, in order. -/
def State.slotAllocs (s : State) (t w n : Nat) : List Nat :=
  let ks := ((s.tree t).trms.map (·.1)).filter fun k => s.grantSlot t k n = some w
  ks.flatMap fun k => ((List.range 4).filter fun j => (s.tst (256 * t + k)).2.2.2.testBit j).map fun j => 4 * k + j

/-- The image's record of an allocation. -/
def State.alloc (s : State) (t r : Nat) : Alloc := sget (fun _ => {}) (s.tree t).allocs r

/-- The demand of an allocation (R380). (DEDUCED, log entry 90.) -/
def State.grantDemand (s : State) (t r : Nat) : Nat := 64 * s.rd TREE_RPT_REPORT t r - (s.alloc t r).since

/-- The quantum and the fixed codewords of an allocation. -/
def State.grantQuantum (s : State) (t r : Nat) : Nat := ((s.trm t (r / 4)).map fun x => x.q.getD (r % 4) 0).getD 0
def State.fixOf (s : State) (t r : Nat) : Nat := ((s.trm t (r / 4)).map fun x => x.fix.getD (r % 4) 0).getD 0

/-- Ranging grants that terminals in RERANGE get on slot `w` in frame `n`: the first 10 frames after their EQD_ADJ, then
every 16 frames (R377). (DEDUCED, log entry 92.) -/
def State.rerangeGrants (s : State) (t w n : Nat) : List Grant :=
  let ks := ((s.tree t).trms.map (·.1)).filter fun k =>
    let e := s.tst (256 * t + k)
    e.1 = tRerange && e.2.1 = w && !((s.tree t).deact.any fun d => d.2.1 = k) &&
      !((s.chan (8 * t + w)).hunt.any fun h => h.off.contains k) && (match s.trm t k with
      | some x => decide (x.reAt + 9 ≤ n) && decide ((n - (x.reAt + 9)) % 16 = 0)
      | none => false)
  ks.map fun k => ⟨1024 * t + 4 * k, 2, false, true, 0, s.preU t + 16 + s.rngU t + 2 * s.rd TREE_RNG2_RNG_SLACK t⟩

/-- Whether a terminal's Slalom move leaves it grants on slot `w` in frame `n` (R391). -/
def State.moveAllows (s : State) (t k w n : Nat) : Bool :=
  match (s.trm t k).bind (·.move) with
  | some m => if n < m.frame then w = m.src else decide (m.frame + 8 ≤ n) && w = m.dst
  | none => true

/-- The ranging and management grants due on a slot in frame `n`, ranging grants first; a terminal that is to be silent gets
none. (DEDUCED, log entry 90.) -/
def State.calledGrants (s : State) (t w n : Nat) : List Grant :=
  let c := 8 * t + w
  let l := ((s.chan c).plan.filter fun e => e.1 = n).map (·.2)
  let l := l.filter fun g =>
    let k := g.alloc / 4 % 256
    let st := (s.tst (256 * t + k)).1
    (s.trm t k).isSome && st ≠ tIsolated && !((s.tree t).deact.any fun d => d.2.1 = k) &&
      !((s.chan c).hunt.any fun h => h.off.contains k) && s.moveAllows t k w n
  s.rerangeGrants t w n ++ l.filter (fun g => g.kind = 2) ++ l.filter (fun g => g.kind = 0)

/-- Whether an allocation is due a report-only grant in frame `n`: it had none for 2^POLL frames, or its terminal has just
moved to the slot (R379, R391). (DEDUCED, log entry 90.) -/
def State.pollDue (s : State) (t r n : Nat) : Bool :=
  decide ((s.alloc t r).last + 2 ^ s.rd TREE_MAPCTL_POLL t ≤ n) ||
    (r % 4 = 0 && ((s.trm t (r / 4)).bind (·.move)).any fun m => n = m.frame + 8)

/-- Grants laid one after another from unit `at_` on, a guard between them, as far as they fit. (DEDUCED, log entry 90.) -/
def layGrants (guard : Nat) : Nat → List Grant → List Grant
  | _, [] => []
  | at_, g :: gs =>
    if at_ + g.len + guard ≤ 225000 then { g with start := at_ } :: layGrants guard (at_ + g.len + guard) gs
    else layGrants guard at_ gs

/-- The data grants and polls that stand before the walk: fixed grants, then report-only grants. (DEDUCED, log entry 90.) -/
def State.steadyGrants (s : State) (t n : Nat) (rs : List Nat) : List Grant :=
  let pre := s.preU t
  let fixed := rs.filter fun r => s.fixOf t r ≠ 0
  let polls := rs.filter fun r => s.fixOf t r = 0 && s.pollDue t r n
  (fixed.map fun r => ⟨1024 * t + r, 0, true, false, 0, grantUnits pre (s.fixOf t r)⟩) ++
    polls.map fun r => ⟨1024 * t + r, 0, true, false, 0, pre + 16⟩

/-- The members of the walk: the allocations with demand; one that wakes has no deficit and the stamp before V (R380). -/
def State.members (s : State) (t v : Nat) (placed : List Grant) (rs : List Nat) : List DrrM :=
  (rs.filter fun r => s.grantDemand t r ≠ 0).map fun r =>
    let x := s.alloc t r
    let fix := if placed.any fun g => g.alloc = 1024 * t + r && g.kind = 0 && !g.msg then s.fixOf t r else 0
    ⟨1024 * t + r, s.grantQuantum t r, if x.on then x.d else 0, if x.on then x.stamp else v - 1, s.grantDemand t r, fix⟩

/-- The deficits and stamps after the walk. (DEDUCED, log entry 91.) -/
def State.keepDrr (s : State) (t : Nat) (rs : List Nat) (x : Walk) : State :=
  let held := x.todo ++ x.done
  let y := s.tree t
  s.setTree t { y with
    allocs := y.allocs.map fun e =>
      if rs.contains e.1 then
        match held.find? fun m => m.a = 1024 * t + e.1 with
        | some m => (e.1, { e.2 with d := m.d, stamp := m.stamp, on := true })
        | none => (e.1, { e.2 with d := 0, on := false })
      else e }

/-- The map of a slot for frame `n` outside shots and discovery (R379–R381): at most 256 entries (R156). (DEDUCED, log entry 90.) -/
def State.dataMap (s : State) (t w n : Nat) : List Grant × State :=
  let c := 8 * t + w
  let pre := s.preU t
  let guard := s.rd TREE_MAPCTL_GUARD t
  let rs := s.slotAllocs t w n
  let first := (layGrants guard 0 (s.calledGrants t w n ++ s.steadyGrants t n rs)).take 256
  let cap := 225000 - (first.map fun g => g.len + guard).sum
  let x := s.chan c
  let y := mapWalk pre guard cap x.drrV x.drrP (s.members t x.drrV first rs)
  let tot := fun (a : Nat) => match (y.todo ++ y.done ++ y.gone).find? fun m => m.a = a with
    | some m => m.tot
    | none => 0
  let data := fun (g : Grant) => g.kind = 0 && !g.msg
  let grown := first.map fun g => if data g && tot g.alloc ≠ 0 then { g with len := grantUnits pre (tot g.alloc) } else g
  let fresh := (y.order.filter fun a => !(first.any fun g => data g && g.alloc = a)).map fun a =>
    (⟨a, 0, true, false, 0, grantUnits pre (tot a)⟩ : Grant)
  let s := (s.setChan c { x with drrV := y.v, drrP := y.p }).keepDrr t rs y
  ((layGrants guard 0 (grown ++ fresh)).take 256, s)


/-- Whether frame `n` belongs to a discovery pair of the slot (R374). -/
def State.pairFrame (s : State) (t w n : Nat) : Bool :=
  (s.tree t).disc.any fun d => d.mask.testBit w && decide (d.first ≤ n) && decide ((n - d.first) / d.gap < d.pairs) &&
    decide ((n - d.first) % d.gap < 2) && !(s.chan (8 * t + w)).suspended

/-- The map of a slot for frame `n`, in the order of R379. (DESIGN CHOICE, log entry 89.) -/
def State.imgMap (s : State) (t w n : Nat) : List Grant × State :=
  if s.shotFrame t w n then ([⟨0, 3, false, false, 0, 225000⟩], s)
  else if s.pairFrame t w n then ([⟨0, 1, false, true, 0, 225000⟩], s)
  else s.dataMap t w n

/-- The image reads the report table, which clears FRESH (R12, R332, R386). (DEDUCED, log entry 90.) -/
def State.readReports (s : State) (t : Nat) : State :=
  (s.tree t).allocs.foldl (fun s e => if s.rdb TREE_RPT_FRESH t e.1 then s.wr TREE_RPT_FRESH 0 t e.1 else s) s


/-- The reference image computes the maps of frame `n` of every LIT slot and commits them in one COMMIT (R379, R386). (DESIGN CHOICE, log entry 89.) -/
def State.imgCommit (s : State) (t n : Nat) : State :=
  if !s.refRuns t then s
  else
    (List.range 8).foldl
      (fun s w =>
        let c := 8 * t + w
        if s.dsState c ≠ dsLit then s
        else
          let (gs, s) := s.imgMap t w n
          let x := s.chan c
          s.setChan c { x with
            commits := (x.commits.filter fun e => e.1 ≠ n) ++ [(n, gs)], plan := x.plan.filter fun e => decide (n < e.1) })
      (s.readReports t)

/-- What the image learns from the map in force for frame `n` of a channel, committed or hold: octets granted since the last
report, the last grant, and the units granted (R379, R380, R389). -/
def State.noteMap (s : State) (c n : Nat) (gs : List Grant) : State :=
  let t := c / 8
  let x := s.tree t
  let note := fun (r : Nat) (y : Alloc) =>
    let l := gs.filter fun g => g.alloc = 1024 * t + r && (g.kind = 0 || g.kind = 2)
    if l.isEmpty then y
    else
      let oct := ((l.filter fun g => g.kind = 0).map fun g => s.grantOctets t g).sum
      { y with
        since := if y.rep < n then y.since + oct else y.since
        last := n
        units := y.units + (l.map (·.len)).sum }
  let z := s.chan c
  let units := ((gs.filter fun g => g.kind = 0 || g.kind = 2).map (·.len)).sum
  (s.setTree t { x with allocs := x.allocs.map fun e => (e.1, note e.1 e.2) }).setChan c { z with
    units := z.units + units, frames := z.frames + 1 }

/-! ### Slalom (R389–R391) -/

/-- The share of its units that a slot has granted in the present period (R389). (DESIGN CHOICE, log entry 93.) -/
def State.slotLoad (s : State) (c : Nat) : Rat :=
  let x := s.chan c
  if x.frames = 0 then 0 else (x.units : Rat) / (225000 * x.frames : Nat)

/-- The share of a terminal, over the frames of slot `w`. (DESIGN CHOICE, log entry 93.) -/
def State.trmLoad (s : State) (t w k : Nat) : Rat :=
  let x := s.chan (8 * t + w)
  let u := ((List.range 4).map fun j => (s.alloc t (4 * k + j)).units).sum
  if x.frames = 0 then 0 else (u : Rat) / (225000 * x.frames : Nat)

/-- The element with the least key, the first of equals. (DESIGN CHOICE, log entry 93.) -/
def leastBy (f : Nat → Rat) : List Nat → Option Nat
  | [] => none
  | a :: l => match leastBy f l with
    | none => some a
    | some b => if f a ≤ f b then some a else some b

/-- The half-word of `TREE_TST` with STATE `st` and W `w` for terminal `k`, its other fields staying, as the value of a timed
store (R394). -/
def State.tstValue (s : State) (t k st w : Nat) : Word :=
  let e := s.tst (256 * t + k)
  let h := st * 2 ^ 15 + w * 2 ^ 12 + e.2.2.1 * 2 ^ 6 + e.2.2.2 * 2 ^ 2
  word (if k % 2 = 0 then h * 2 ^ 18 else h)

/-- Terminal `k` moves from slot `w` to slot `w'` at the build for frame `n` (R391): RETUNE, whose frame S lies 16 frames
after the frame that carries it, and two timed stores on the T-core.  A T-core without two free arm slots starts no
move. (DESIGN CHOICE, log entry 93.) -/
def State.startMove (s : State) (t k w w' n : Nat) : State :=
  let c := s.core t
  let free := (List.range 16).filter fun i => !(c.slots.any fun e => e.1 = i)
  match free, s.trm t k with
  | i :: j :: _, some x =>
    let f := n + 14 + (s.chan (8 * t + w)).imgQ.length / 12
    let slot := fun (f st w : Nat) => (⟨f * ticksFr, tstStore t k, s.tstValue t k st w, [], 0, 0, 0, s.clock⟩ : AtSlot)
    let s := s.setCore t { c with slots := c.slots ++ [(i, slot f tRetuning w), (j, slot (f + 8) tActive w')] }
    (s.setTrm t k (some { x with move := some ⟨f, w, w', 0⟩ })).ask t k 0x06 ([w'] ++ natToOctets 2 (f % 8192))
  | _, _ => s

/-- Whether a slot has a discovery pair or a reflectometry run pending or running (R390). -/
def State.slotBusy (s : State) (t w : Nat) : Bool :=
  ((s.tree t).disc.any fun d => d.mask.testBit w) || (s.tree t).otdr.any fun r => r.w = w

/-- The move that the loads of the period call for (R389, R390). (DESIGN CHOICE, log entry 93.) -/
def State.slalomMove (s : State) (t n : Nat) : State :=
  let lit := (List.range 8).filter fun w => s.dsState (8 * t + w) = dsLit
  let load := fun w => s.slotLoad (8 * t + w)
  match leastBy (fun w => - load w) lit, leastBy load lit with
  | some hi, some lo =>
    if load hi * 100 < s.rd TREE_SLALOM_MINLOAD t ∨ (load hi - load lo) * 100 < s.rd TREE_SLALOM_IMB t ∨ hi = lo then s
    else
      let ks := ((s.tree t).trms.map (·.1)).filter fun k =>
        (s.tst (256 * t + k)).2.1 = hi && (match s.trm t k with
          | some x => x.cap.testBit lo && decide (x.held ≤ n / 8192) && x.move.isNone
          | none => false)
      let gap := fun k =>
        let d := s.trmLoad t hi k - (load hi - load lo) / 2
        if d < 0 then -d else d
      match leastBy gap ks with
      | none => s
      | some k =>
        if s.slotBusy t hi || s.slotBusy t lo || (s.tst (256 * t + k)).1 ≠ tActive ||
            ((s.trm t k).bind (·.ask)).isSome then s
        else s.startMove t k hi lo n
  | _, _ => s

/-- A new Slalom period begins. -/
def State.newPeriod (s : State) (t : Nat) : State :=
  let x := s.tree t
  let s := s.setTree t { x with allocs := x.allocs.map fun e => (e.1, { e.2 with units := 0 }) }
  (List.range 8).foldl (fun s w => s.setChan (8 * t + w) { s.chan (8 * t + w) with units := 0, frames := 0 }) s

/-- Slalom at the build for frame `n`: once every PERIOD superframes (R389). (DESIGN CHOICE, log entry 93.) -/
def State.slalom (s : State) (t n : Nat) : State :=
  if n % 8192 ≠ 0 ∨ n / 8192 % s.rd TREE_SLALOM_PERIOD t ≠ 0 then s
  else
    let s := if s.rdb TREE_SLALOM_EN t && s.refRuns (64 + t / 8) && s.refRuns t then s.slalomMove t n else s
    s.newPeriod t

/-! ### The image's work of each frame (R377) -/

/-- A message that has not been acknowledged in its grant is sent again, at most three times in all. (DEDUCED, log entry 92.) -/
def State.retryAsks (s : State) (t n : Nat) : State :=
  ((s.tree t).trms.map (·.1)).foldl
    (fun s k =>
      match s.trm t k with
      | none => s
      | some x =>
        match x.ask with
        | none => s
        | some a =>
          if n < a.at_ + attemptFrames then s
          else if 3 ≤ a.tries then s.setTrm t k (some { x with ask := none })
          else (s.setTrm t k (some { x with ask := some { a with tries := a.tries + 1, at_ := n } })).retell t k a.type a.body) s

/-- What the running image does before the build for frame `n`. (DEDUCED, log entry 67.) -/
def State.imgFrame (s : State) (t n : Nat) : State :=
  if !s.imgRuns t then s
  else
    let s := (((s.retryAct t n).retryAsks t n).deactFrame t).loseTrms t n
    let s := ((s.imgInvite t n).discoverEnds t).slalom t n
    (List.range 8).foldl (fun s w => (s.huntFrame (8 * t + w) n).placeMsgs (8 * t + w) n) s

/-! ### The map deadline (R357, R382–R385) -/

/-- A control area with every bit of its CRC changed. -/
def failingArea (os : List Nat) : List Nat :=
  let i := os.length - 5
  os.take i ++ ((os.drop i).take 4).map (255 - ·) ++ os.drop (i + 4)

/-- The control area of frame `m` of a channel is built: it takes the messages (R357, R365).  An uncorrectable lane of its
store sends it with a CRC that fails (R523). (DEDUCED, log entry 142.) -/
def State.buildArea (s : State) (c m : Nat) (gs : List Grant) (ann : Option (List Nat)) (hits : List (Nat × BitVec 39)) : State :=
  let x := s.chan c
  let built := s.controlArea c m gs ann
  let (area, s) := match s.frameRead 101 built hits with
    | (some os, s) => (os, s)
    | (none, s) => (failingArea built, s.count FRM_UNCORR (4 + c))
  let s := s.setChan c { x with ctrls := (m, area) :: x.ctrls.take 7, dsmNext := 0, dsmHeld := 0 }
  (s.wr CH_DSM_STAT_VALID x.dsmNext c).wr CH_DSM_STAT_LAST_FR (m % 8192) c

/-- Whether a channel sends frame `m`: it is lit, or WARM with its start no later (R315). -/
def State.sendsFrame (s : State) (c m : Nat) : Bool :=
  s.dsLight c || (s.dsState c = dsWarm && (s.chan c).enAt.any fun t => decide (t ≤ m * ticksFr))

/-- The map of frame `n` is in force on a channel. -/
def State.keepMap (s : State) (c n : Nat) (gs : List Grant) : State :=
  s.setChan c { s.chan c with maps := (n, gs) :: (s.chan c).maps.take 7 }

/-- One slot at the deadline of frame `n`. -/
def State.slotDeadline (s : State) (c n : Nat) (ann : Option (List Nat)) (hits : List (Nat × BitVec 39)) : State :=
  let t := c / 8
  let w := c % 8
  if !s.dsLight c then
    let s := s.setChan c { s.chan c with commits := (s.chan c).commits.filter fun m => decide (n < m.1) }
    let s := ((s.keepMap c n []).wr TREE_MAPSTAT_SRC 3 t w).wr TREE_MAPSTAT_COUNT 0 t w
    if s.sendsFrame c (n - 2) then s.buildArea c (n - 2) [] ann hits else s
  else
    let (gs, s) := s.takeMap c n
    let s := s.wr TREE_MAPSTAT_COUNT gs.length t w
    let short := (gs.filter fun g => g.kind ≠ 3 && (s.windowOf t g).isNone).length
    let armed := (gs.filter fun g => (s.windowOf t g).isSome).map fun g => (n, g)
    let s := s.setChan c { s.chan c with left := (s.chan c).left ++ armed }
    ((((s.keepMap c n gs).count CH_GRANT_SHORT c short).buildArea c (n - 2) gs ann hits).noteMap c n gs)

/-- Whether a COMMIT for frame `n` that the T-core's engine accepted in time has not ended: its maps are the frame's (R382,
R383). -/
def State.commitRuns (s : State) (t n : Nat) : Bool :=
  (s.core t).ops.any fun o =>
    let w := fun i => (o.desc.getD i PWord.zero).v
    o.unit = 4 && (w 0).bits 32 27 = 1 && frameOf (lpTicks (w 1).toNat (w 2).toNat) = n && o.out.isNone &&
      decide ((o.accepted : Int) < s.deadline t n)

/-- The flipped bits of one slot's control area. -/
def slotHits (hits : List (Fin 8 × Nat × BitVec 39)) (w : Nat) : List (Nat × BitVec 39) :=
  (hits.filter fun h => h.1.val = w).map (·.2)

/-- MAP_DEADLINE (R357, R382–R386): the computation for the next frame starts once the deadline is handled, which waits for a
COMMIT accepted in time.  `hits` are the bits that flip, by slot and lane, in the control areas until they are sent (R523).
(DEDUCED, log entry 2; DESIGN CHOICE, log entry 89.) -/
def execMapDeadline (t : Fin 64) (hits : List (Fin 8 × Nat × BitVec 39)) (s : State) : Host.Outcome State Fault Refusal :=
  .next (
    let x := s.tree t
    let n := x.lastN + 1
    if !s.domOn t ∨ (s.now : Int) < s.deadline t n ∨ n < 2 ∨ s.commitRuns t n = true then s
    else
      let s := (s.setTree t { x with lastN := n }).imgFrame t n
      let m := n - 2
      let ann := s.announce t m
      let s := match ann with
        | some _ =>
          if m % 8192 = 8188 then s.count TREE_ANN_REPEAT t
          else s.setTree t { s.tree t with annSf := m / 8192 + 2, annRe := s.time.restep.map fun (r : Restep) => r.at_ }
        | none => s
      ((List.range 8).foldl (fun (s : State) w => s.slotDeadline (8 * t + w) n ann (slotHits hits w)) s).imgCommit t (n + 1))

end Sys2Proof.Machine
end

