-- ==== Sys2Proof/Machine/Canceller.lean ====
section
/-! DEFINITION. The reflection canceller of an access channel (spec/09, R334–R338): idle spans, what the sources sent, the
subtraction, the adaptation of both tap sets, and the residuals and powers measured on the way. -/

namespace Sys2Proof.Machine

open Ev Reg

/-! ### Symbols and idle spans (R311, R335) -/

/-- Symbols of an access frame. -/
def symsFr : Nat := 1800000

/-- The symbol since frame 0 that falls at a tick: 72 symbols last 20 ticks. -/
def symOf (t : Nat) : Nat := t * 18 / 5

/-- The state with a channel's canceller changed. -/
def State.editCanc (s : State) (c : Nat) (f : Canceller → Canceller) : State :=
  s.setChan c { s.chan c with canc := f (s.chan c).canc }

/-- From symbol `j` since frame 0 on, the receiver is neither IDLE nor ARMED with no step since arming. -/
def State.endIdle (s : State) (c j : Nat) : State := s.editCanc c fun x => { x with busyFrom := some (x.busyFrom.getD j) }

/-- The receiver is IDLE: idle spans begin `tail` symbols from now. (DEDUCED, log entry 124.) -/
def State.beginIdle (s : State) (c tail : Nat) : State :=
  s.editCanc c fun x =>
    match x.busyFrom with
    | none => x
    | some j => { x with busy := x.busy ++ [(j, symOf s.now + tail)], busyFrom := none }

/-- Whether symbol `j` since frame 0 is an idle symbol of a channel (R335). -/
def State.idleSym (s : State) (c j : Nat) : Bool :=
  let x := (s.chan c).canc
  !(x.busy.any fun b => decide (b.1 ≤ j) && decide (j < b.2)) && !(x.busyFrom.any fun b => decide (b ≤ j)) &&
    !s.shotFrame (c / 8) (c % 8) (j / symsFr)

/-! ### What was sent (R334) -/

/-- The light of symbol `j` since frame 0, A · x: `fr` holds the levels of the frames concerned, each with its access frame
count.  A block of 256 symbols has the amplitude at its first symbol. (DESIGN CHOICE, log entry 124.) -/
def ChSt.sentLight (x : ChSt) (fr : List (Nat × List Nat)) (j : Nat) : Rat :=
  match x.launchAt (j / 256 * 256 * 5 / 18), (fr.find? fun e => e.1 = j / symsFr).bind fun e => e.2[j % symsFr]? with
  | some dbm, some v => Config.launchAmplitude dbm * (2 * (v : Rat) - 3)
  | _, _ => 0

/-- The light of the own source (0) and of the next source (1) of a channel, for symbols of the frames `ms`. -/
def State.sources (s : State) (c : Nat) (ms : List Nat) : Nat → Nat → Rat :=
  let own := ms.map fun m => (m, s.downLevels c m)
  let next := if c % 8 = 7 then [] else ms.map fun m => (m, s.downLevels (c + 1) m)
  fun src j => if src = 0 then (s.chan c).sentLight own j else (s.chan (c + 1)).sentLight next j

/-- The source and the position of each enabled tap of a set, given its three fields. -/
def State.tapsOf (s : State) (c : Nat) (en src pos : Field) : List (Option (Nat × Nat)) :=
  (List.range 16).map fun i => if s.rdb en c i then some (s.rd src c i, s.rd pos c i) else none

/-- The light that the five coefficients of each tap weigh at received symbol `j`: the source's symbols sent POS + k
before. -/
def tapInputs (taps : List (Option (Nat × Nat))) (sent : Nat → Nat → Rat) (j : Nat) : List (List Rat) :=
  taps.map fun tap =>
    match tap with
    | none => []
    | some (src, pos) => (List.range 5).map fun k => if j + 2 < pos + k then 0 else sent src (j + 2 - (pos + k))

/-- The sum over the taps of h_k · A · x. -/
def echoSum (h x : List (List Rat)) : Rat :=
  (List.zipWith (fun h x => (List.zipWith (fun a b => a * b) h x).sum) h x).sum

/-- One step of least mean squares with step size 2^−(MU+8) toward zero output; `e` is the output (R335). -/
def adaptSet (mu : Nat) (e : Rat) (h x : List (List Rat)) : List (List Rat) :=
  (List.range 16).map fun i =>
    match x.getD i [] with
    | [] => h.getD i []
    | v => (List.range 5).map fun k => (h.getD i []).getD k 0 + e * v.getD k 0 / 2 ^ (mu + 8)

/-! ### The canceller at work -/

/-- What the canceller of a channel works with: EN, MU, the taps of both sets, whether a shadow adapts, and the light sent. -/
structure CancIn where
  en : Bool
  mu : Nat
  act : List (Option (Nat × Nat))
  sha : Option (List (Option (Nat × Nat)))
  sent : Nat → Nat → Rat

/-- The same, from the registers and the frames `ms`. -/
def State.cancIn (s : State) (c : Nat) (ms : List Nat) : CancIn where
  en := s.rdb CH_CANC_CTL_EN c
  mu := s.rd CH_CANC_CTL_MU c
  act := s.tapsOf c CH_TAP_EN CH_TAP_SRC CH_TAP_POS
  sha := if s.rdb CH_CANC_STAT_SHADOW c then some (s.tapsOf c CH_STAP_EN CH_STAP_SRC CH_STAP_POS) else none
  sent := s.sources c ms

/-- The canceller output at received symbol `j`, whose sample is `y` (R334). -/
def Canceller.output (x : Canceller) (i : CancIn) (j : Nat) (y : Int) : Rat :=
  if i.en then (y : Rat) - echoSum x.act (tapInputs i.act i.sent j) else y

/-- An idle symbol adapts both sets on the same sample and is measured (R335, R336, R345). (DESIGN CHOICE, log entry 124.) -/
def Canceller.idleStep (x : Canceller) (i : CancIn) (j : Nat) (y : Int) : Canceller :=
  let e := x.output i j y
  let x := { x with idle := x.idle + 1, outSum := x.outSum + e * e, inSum := x.inSum + (y : Rat) * y }
  if !i.en then x
  else
    let x := { x with act := adaptSet i.mu e x.act (tapInputs i.act i.sent j) }
    match i.sha with
    | none => x
    | some taps =>
      let v := tapInputs taps i.sent j
      let es := (y : Rat) - echoSum x.sha v
      { x with
        sha := adaptSet i.mu es x.sha v, adapted := x.adapted + 1, actRes := x.actRes + e * e, shaRes := x.shaRes + es * es }

/-- The squares of the outputs at the 16 symbols before symbol `n`, as far as they are known (R327). -/
def Canceller.before (x : Canceller) (n : Nat) : List Rat :=
  (x.recent.filter fun e => decide (n ≤ e.1 + 16) && decide (e.1 < n)).map (·.2)

/-- The output at received symbol `j` passes the energy detector: in an idle span, the mean square at each unit boundary counts
toward the noise, 65,536 symbols back (R327). -/
def Canceller.sense (x : Canceller) (j : Nat) (idle : Bool) (e : Rat) : Canceller :=
  let x := { x with recent := (j, e * e) :: x.recent.take 47 }
  if idle && (j + 1) % 8 = 0 then { x with noise := (x.before (j + 1)).sum / 16 :: x.noise.take 8191 } else x

/-- The received samples up to now: those of the last two frames that were not taken yet. -/
def Canceller.takeAll (s : State) (c : Nat) (i : CancIn) (rx : List (Nat × Int)) (x : Canceller) : Canceller :=
  rx.foldl
    (fun x e =>
      if e.1 < x.next ∨ e.1 < (s.now / ticksFr - 2) * symsFr ∨ symOf s.now ≤ e.1 then x
      else
        let idle := s.idleSym c e.1
        let x := { x with next := e.1 + 1 }.sense e.1 idle (x.output i e.1 e.2)
        if idle then x.idleStep i e.1 e.2 else x) x

/-! ### Optical power (R327, R345) -/

/-- The largest `k` below `lo + 2 ^ n` with 10^k · d ≤ v, `lo` being one if any is. -/
def powerStep (v d : Nat) : Nat → Nat → Nat
  | 0, lo => lo
  | n + 1, lo => powerStep v d n (if 10 ^ (lo + 2 ^ n) * d ≤ v then lo + 2 ^ n else lo)

/-- A mean square of samples as optical power at the connector in 0.1 dBm: samples are given in a unit whose mean square of 1
is −90 dBm, which is the least value shown. (DESIGN CHOICE, log entry 124.) -/
def connectorPower (m : Rat) : Int := -900 + powerStep (m.num.toNat ^ 100) (m.den ^ 100) 11 0

/-- The noise estimate; the least power while no idle span has been seen (R327). (DESIGN CHOICE, log entry 138.) -/
def State.noiseFloor (s : State) (c : Nat) : Int :=
  let l := (s.chan c).canc.noise
  connectorPower (l.sum / (l.length : Nat))

/-- P(n), the detector output at symbol `n` since frame 0, in 0.1 dBm (R327). -/
def State.power (s : State) (c n : Nat) : Int := connectorPower (((s.chan c).canc.before n).sum / 16)

/-- Whether P(n) is formed: `n` is a unit boundary that has come, and the 16 symbols before it are known. -/
def State.formed (s : State) (c n : Nat) : Bool :=
  n % 8 = 0 && decide (n ≤ symOf s.now) && ((s.chan c).canc.before n).length = 16

/-- A coefficient as its register shows it: the nearest value of 12 bits. (DESIGN CHOICE, log entry 124.) -/
def coefField (h : Rat) : Nat := toField 12 (clampInt (-2048) 2047 (h + 1 / 2).floor)

/-- The coefficients of active tap `i` are shown. -/
def State.showTap (s : State) (c i : Nat) (h : List Rat) : State :=
  let v := fun k => coefField (h.getD k 0)
  ((((s.wr CH_TAP_H_M2 (v 0) c i).wr CH_TAP_H_M1 (v 1) c i).wr CH_TAP_H_0 (v 2) c i).wr CH_TAP_H_P1 (v 3) c i).wr
    CH_TAP_H_P2 (v 4) c i

/-- The coefficients of shadow tap `i` are shown. -/
def State.showShadow (s : State) (c i : Nat) (h : List Rat) : State :=
  let v := fun k => coefField (h.getD k 0)
  ((((s.wr CH_STAP_H_M2 (v 0) c i).wr CH_STAP_H_M1 (v 1) c i).wr CH_STAP_H_0 (v 2) c i).wr CH_STAP_H_P1 (v 3) c i).wr
    CH_STAP_H_P2 (v 4) c i

/-- Both sets are shown as they stand. -/
def State.showTaps (s : State) (c : Nat) : State :=
  let x := (s.chan c).canc
  let s := (List.range 16).foldl (fun s i => s.showTap c i (x.act.getD i [])) s
  if s.rdb CH_CANC_STAT_SHADOW c then (List.range 16).foldl (fun s i => s.showShadow c i (x.sha.getD i [])) s else s

/-- The canceller of a channel takes the samples received up to now, each with its symbol since frame 0; the noise estimate is
shown (R327, R334–R336). (DESIGN CHOICE, log entry 124.) -/
def State.receive (s : State) (c : Nat) (rx : List (Nat × Int)) : State :=
  let m := s.now / ticksFr
  let i := s.cancIn c [m - 3, m - 2, m - 1, m]
  let u := s.editCanc c fun x =>
    let x := Canceller.takeAll s c i rx x
    { x with busy := x.busy.filter fun b => decide (x.next < b.2) }
  let x := (s.chan c).canc
  let y := (u.chan c).canc
  let u := if y.noise = x.noise then u else u.wri CH_BRX_STAT_NFLOOR (clampInt (-512) 511 (u.noiseFloor c)) c
  if y.act = x.act ∧ y.sha = x.sha then u else u.showTaps c

/-! ### The shadow set (R336, R337) -/

/-- The shadow set is loaded as its tap words stand: a tap with the source and position of an active one starts from its
coefficients, another from zero. -/
def State.loadShadow (s : State) (c : Nat) : State :=
  let act := (s.chan c).canc.act
  let sha := (List.range 16).map fun i =>
    match (List.range 16).find? fun k =>
        s.rdb CH_TAP_EN c k && s.rd CH_TAP_SRC c k = s.rd CH_STAP_SRC c i && s.rd CH_TAP_POS c k = s.rd CH_STAP_POS c i with
    | some k => act.getD k []
    | none => []
  let s := s.setChan c { s.chan c with shAt := s.now }
  let s := s.editCanc c fun x => { x with sha := sha, adapted := 0, actRes := 0, shaRes := 0 }
  (s.wr CH_CANC_STAT_SHADOW 1 c).showTaps c

/-- A write of `CH_CANC_CTL` with LOAD or DROP set (R336). -/
def State.wroteCanc (s : State) (c : Nat) (load drop : Bool) : State :=
  let s := if load then s.loadShadow c else s
  if drop then s.wr CH_CANC_STAT_SHADOW 0 c else s

/-- The shadow set becomes the active set. -/
def State.swapTaps (s : State) (c : Nat) : State :=
  let s := (List.range 16).foldl
    (fun s i =>
      ((s.wr CH_TAP_EN (s.rd CH_STAP_EN c i) c i).wr CH_TAP_SRC (s.rd CH_STAP_SRC c i) c i).wr
        CH_TAP_POS (s.rd CH_STAP_POS c i) c i) s
  let s := (s.editCanc c fun x => { x with act := x.sha }).wr CH_CANC_STAT_SHADOW 0 c
  let n := ((List.range 16).filter fun i => s.rdb CH_TAP_EN c i).length
  ((s.showTaps c).wr CH_CANC_STAT_NTAP n c).count CH_CANC_SWAP c

/-- Whether the shadow set takes over at this access frame boundary. -/
def State.swapDue (s : State) (c : Nat) : Bool :=
  let x := s.chan c
  s.rdb CH_CANC_STAT_SHADOW c && s.now % ticksFr = 0 && decide (x.shAt / ticksFr < s.now / ticksFr) &&
    decide (1048576 ≤ x.canc.adapted) && decide (x.canc.shaRes ≤ x.canc.actRes) && !s.inShot c

/-- CANC_SHADOW_SWAP (R335, R336): an access frame boundary; `rx` are the samples received since the last that were given. -/
def execCancShadowSwap (c : Fin 512) (rx : List (Nat × Int)) (s : State) : Host.Outcome State Fault Refusal :=
  .next (
    if !s.domOn (c / 8) then s
    else
      let s := s.receive c rx
      if s.swapDue c then s.swapTaps c else s)

/-- CANC_SHADOW_TIMEOUT (R336). -/
def execCancShadowTimeout (c : Fin 512) (s : State) : Host.Outcome State Fault Refusal :=
  .next (
    if s.domOn (c / 8) ∧ s.rdb CH_CANC_STAT_SHADOW c ∧ (s.chan c).shAt + 8000 * ticksFr ≤ s.now then
      (s.wr CH_CANC_STAT_SHADOW 0 c).occur CH_CANC_KEEP c
    else s)

end Sys2Proof.Machine
end

