-- ==== Sys2Proof/Machine/Decoding.lean ====
section
/-! DEFINITION. The decoders of a coherent line (spec/08): the sliding-window max-log-MAP decoder of the inner code (R271),
the bounded-distance decoder of the component code (R272, R275), the window of the outer code (R275), and what they count
(R277). -/

namespace Sys2Proof.Machine

/-! ### The inner decoder (R269, R271) -/

/-- What a stage adds to the metric of input bit `u` at register `reg`: the likelihoods of X and of Y, positive for a 1, where
the output is 1. -/
def branch (l : Int × Int) (reg : Nat) (u : Bool) : Int :=
  (if (innerStep reg u).1 then l.1 else 0) + (if (innerStep reg u).2.1 then l.2 else 0)

/-- The metrics of the 64 states when nothing is known. -/
def evenMetrics : List Int := List.replicate 64 0

/-- Forward metrics after a stage. -/
def forwardStep (a : List Int) (l : Int × Int) : List Int :=
  (List.range 64).map fun s =>
    let u := decide (s % 2 = 1)
    max (a.getD (s / 2) 0 + branch l (s / 2) u) (a.getD (s / 2 + 32) 0 + branch l (s / 2 + 32) u)

/-- Backward metrics before a stage. -/
def backwardStep (l : Int × Int) (b : List Int) : List Int :=
  (List.range 64).map fun r =>
    max (branch l r false + b.getD (2 * r % 64) 0) (branch l r true + b.getD ((2 * r + 1) % 64) 0)

/-- The largest of 64 values. -/
def bestOf (f : Nat → Int) : Int := (List.range 63).foldl (fun m r => max m (f (r + 1))) (f 0)

/-- The likelihood of a stage's input bit in 6 bits: the best path on which it is 1 against the best on which it is 0. (DESIGN CHOICE, log entry 118.) -/
def likelihood (a b : List Int) (l : Int × Int) : Int :=
  let via := fun (u : Bool) => bestOf fun r => a.getD r 0 + branch l r u + b.getD ((2 * r + b2n u) % 64) 0
  clampInt (-32) 31 (via true - via false)

/-- A window: the outputs of its stages, and the backward metrics at its start. -/
def decodeWindow (a : List Int) (b : List Int) : List (Int × Int) → List Int × List Int
  | [] => ([], b)
  | l :: t =>
    let (out, b) := decodeWindow (forwardStep a l) b t
    (likelihood a b l :: out, backwardStep l b)

/-- `k` windows of 64 stages, each after learning over the 48 stages on either side (R271). -/
def decodeStages : Nat → List (Int × Int) → List (Int × Int) → List Int
  | 0, _, _ => []
  | k + 1, before, stages =>
    let w := stages.take 64
    let after := (stages.drop 64).take 48
    (decodeWindow (before.foldl forwardStep evenMetrics) (after.foldr backwardStep evenMetrics) w).1 ++
      decodeStages k (w.drop 16) (stages.drop 64)

/-- Received likelihoods put back at the stages and outputs of the mother code, by the puncturing masks `m` (R270, R271):
the period restarts at stage `mf`, where a multiframe begins, and is at place `ph` at stage 0; `n` bounds the stages, from
stage `i` on.  A punctured position has no likelihood. -/
def depuncture (m : List Bool × List Bool) (ph : Nat) (mf : Option Nat) : Nat → Nat → List Int → List (Option Int × Option Int)
  | 0, _, _ => []
  | _ + 1, _, [] => []
  | n + 1, i, x :: t =>
    let place := (match mf with
      | some k => if k ≤ i then i - k else ph + i
      | none => ph + i) % m.1.length
    match m.1.getD place false, m.2.getD place false, t with
    | true, true, y :: t => (some x, some y) :: depuncture m ph mf n (i + 1) t
    | true, true, [] => [(some x, none)]
    | true, false, t => (some x, none) :: depuncture m ph mf n (i + 1) t
    | false, true, t => (none, some x) :: depuncture m ph mf n (i + 1) t
    | false, false, t => (none, none) :: depuncture m ph mf n (i + 1) (x :: t)

/-- Stages of a block: 14,400 groups of 16 (R268, R273). -/
def blockStages : Nat := 230400

/-- Outputs whose magnitude is below 2.0 (R271). -/
def lowReliable (out : List Int) : Nat := out.countP fun v => decide (v.natAbs < 2 * Config.likelihoodOne)

/-! ### The trellis search (R269, R321) -/

/-- The better of two paths, each a metric with its input bits, the last first; of equals the first. -/
def betterPath : Option (Int × List Bool) → Option (Int × List Bool) → Option (Int × List Bool)
  | none, q => q
  | p, none => p
  | some p, some q => if p.1 < q.1 then some q else some p

/-- The best paths into the 64 states after a stage. -/
def searchStep (a : List (Option (Int × List Bool))) (l : Int × Int) : List (Option (Int × List Bool)) :=
  (List.range 64).map fun s =>
    let u := decide (s % 2 = 1)
    let via := fun r => (a.getD r none).map fun p => (p.1 + branch l r u, u :: p.2)
    betterPath (via (s / 2)) (via (s / 2 + 32))

/-- The input bits of the best path through all stages, from a cleared register to state zero (R321). (DEDUCED, log entry 138.) -/
def trellisSearch (ls : List (Int × Int)) : List Bool :=
  match ((ls.foldl searchStep (some (0, []) :: List.replicate 63 none)).getD 0 none) with
  | some p => p.2.reverse
  | none => []

/-! ### The component code (R272, R275) -/

/-- Products and powers of α in the field of the component code. -/
def bchMul (a b : Nat) : Nat := gfMul 10 0x409 a b
def bchPow (k : Nat) : Nat := gfPow 10 0x409 2 (k % 1023)
def bchInv (a : Nat) : Nat := gfPow 10 0x409 a 1022

/-- The syndrome of a word at α^i, its first bit the highest coefficient. -/
def bchSyndrome (i : Nat) (w : List Bool) : Nat := w.foldl (fun v b => bchMul v (bchPow i) ^^^ b2n b) 0

/-- The exponents at which at most three errors give the syndromes S1, S3 and S5; none when no such errors do. -/
def bchErrors (s1 s3 s5 : Nat) : Option (List Nat) :=
  let sq := bchMul s1 s1
  let d := bchMul s1 sq ^^^ s3
  let q2 := if d = 0 then 0 else bchMul (bchMul sq s3 ^^^ s5) (bchInv d)
  let q3 := if d = 0 then 0 else d ^^^ bchMul s1 q2
  let deg := if q3 ≠ 0 then 3 else if q2 ≠ 0 then 2 else 1
  let roots := (List.range 1023).filter fun k =>
    let z := bchPow k
    bchMul (bchMul (z ^^^ s1) z ^^^ q2) z ^^^ q3 == 0
  if s1 = 0 ∧ s3 = 0 ∧ s5 = 0 then some []
  else if roots.length = deg ∧ (d ≠ 0 ∨ s5 = bchMul sq (bchMul sq s1)) then some roots
  else none

/-- Whether a word of 960 bits is a codeword. -/
def bchOk (w : List Bool) : Bool := [1, 3, 5].all fun i => bchSyndrome i w == 0

/-- The positions that the decoder corrects in a word of 960 bits; none are where it has more than three errors or one would
fall in the shortened part (R275). -/
def bchFlips (w : List Bool) : List Nat :=
  match bchErrors (bchSyndrome 1 w) (bchSyndrome 3 w) (bchSyndrome 5 w) with
  | some ks => if ks.all (· < 960) then ks.map (959 - ·) else []
  | none => []

/-! ### The window of the outer code (R273, R275) -/

/-- A bit of a block turned over. -/
def flipBit (b : List (List Bool)) (r c : Nat) : List (List Bool) := b.set r ((b.getD r []).set c (!(b.getD r []).getD c false))

/-- The component codeword of row `j` of a block: column `j` of the block before, which is all zeros before the first, then
the row (R273). -/
def outerWord (prev b : List (List Bool)) (j : Nat) : List Bool :=
  ((List.range 480).map fun r => (prev.getD r []).getD j false) ++ b.getD j []

/-- Row `j` of a block is decoded; corrections fall in the block and in the one before it. -/
def decodeRow (x : List (List Bool) × List (List Bool)) (j : Nat) : List (List Bool) × List (List Bool) :=
  (bchFlips (outerWord x.1 x.2 j)).foldl
    (fun x p => if p < 480 then (flipBit x.1 p j, x.2) else (x.1, flipBit x.2 j (p - 480))) x

/-- One pass over the rows of a window after block `prev`, oldest block first. -/
def outerPass : List (List Bool) → List RxBlock → List (List Bool) × List RxBlock
  | prev, [] => (prev, [])
  | prev, b :: t =>
    let (p, r) := (List.range 480).foldl decodeRow (prev, b.rows)
    let (r, t) := outerPass r t
    (p, { b with rows := r } :: t)

/-- The rows of a block whose syndrome is not zero (R275). -/
def badRowsOf (prev b : List (List Bool)) : List Nat := (List.range 480).filter fun j => !bchOk (outerWord prev b j)


/-! ### What is counted (R277) -/

/-- How many pairs of two lists differ. -/
def differing (a b : List Bool) : Nat := ((List.zipWith xor a b).filter id).length

/-- The corrected bits, and all bits, of the rows of a block that are not `bad`. -/
def midCount (b : RxBlock) (bad : List Nat) : Nat × Nat :=
  let good := (List.range 480).filter fun j => !bad.contains j
  ((good.map fun j => differing (b.got.getD j []) (b.rows.getD j [])).sum, 480 * good.length)

/-- The inner encoder's input in the groups that carry a block's information: each bit, and whether it lies in an uncorrected
row (R268, R274). -/
def innerInput (prev b : List (List Bool)) (prevBad bad : List Nat) : List (Bool × Bool) :=
  (List.range 14400).flatMap fun g =>
    ((List.range 15).map fun k =>
      let i := 15 * g + k
      ((b.getD (i / 450) []).getD (i % 450) false, bad.contains (i / 450))) ++
    [((prev.getD (g / 30) []).getD (450 + g % 30) false, prevBad.contains (g / 30))]

/-- The demapper's hard decisions that differ from the re-encoded bits, the coded bits compared, and the encoder's register;
bits of uncorrected rows count toward neither. -/
def preCount (reg : Nat) (us : List (Bool × Bool)) (hard : List (Option Bool × Option Bool)) : Nat × Nat × Nat :=
  (List.zip us hard).foldl
    (fun acc e =>
      let (x, y, reg) := innerStep acc.2.2 e.1.1
      let wrong := fun (h : Option Bool) (v : Bool) => b2n (h.any (· != v))
      if e.1.2 then (acc.1, acc.2.1, reg)
      else (acc.1 + wrong e.2.1 x + wrong e.2.2 y, acc.2.1 + b2n e.2.1.isSome + b2n e.2.2.isSome, reg))
    (0, 0, reg)

/-! ### A block's stages -/

/-- What the decoders report for one block of stages: low likelihoods; of the block that leaves the window, its number, its
uncorrected rows, and the errors and bits for the two error ratios. -/
structure BlockReport where
  low : Nat
  left : Option (Nat × List Nat) := none
  ber : BerCount := {}
  deriving DecidableEq, Repr

/-- The block that leaves a window of six after its passes (R275, R277). -/
def RxCodes.leave (c : RxCodes) : RxCodes × Option (Nat × List Nat) × BerCount :=
  let (prev, win) := (List.range 4).foldl (fun (x : List (List Bool) × List RxBlock) _ => outerPass x.1 x.2) (c.prev, c.win)
  match win with
  | [] => (c, none, {})
  | b :: t =>
    let bad := badRowsOf prev b.rows
    let (mid, bits) := midCount b bad
    let (pre, coded, reg) := preCount c.reg (innerInput prev b.rows c.prevBad bad) b.hard
    ({ c with prev := b.rows, prevBad := bad, win := t, reg := reg }, some (c.next - 7, bad), ⟨pre, coded, mid, bits⟩)

/-- The stages of one block, with the 48 that follow, through the decoders; without block lock only the inner decoder runs
(R271, R275, R287).  A punctured position has no likelihood. (DEDUCED, log entry 76; DESIGN CHOICE, log entry 118.) -/
def RxCodes.block (c : RxCodes) (lock : Bool) (stages : List (Option Int × Option Int)) : RxCodes × BlockReport :=
  let soft := stages.map fun e => (e.1.getD 0, e.2.getD 0)
  let out := decodeStages (blockStages / 64) c.tail soft
  let tail := (soft.take blockStages).drop (blockStages - 48)
  if !lock then ({ tail := tail }, { low := lowReliable out })
  else
    let us := out.map fun v => decide (0 < v)
    let pick := fun (p : Nat → Bool) => (us.zipIdx.filter fun e => p (e.2 % 16)).map (·.1)
    let hard := (stages.take blockStages).map fun e => (e.1.map fun v => decide (0 < v), e.2.map fun v => decide (0 < v))
    let d := { c with tail := tail, part := some (pick (· ≠ 15), hard), next := c.next + 1 }
    match c.part with
    | none => (d, { low := lowReliable out })
    | some (info, h) =>
      let par := pick (· = 15)
      let rows := (List.range 480).map fun j => (info.drop (450 * j)).take 450 ++ (par.drop (30 * j)).take 30
      let d := { d with win := c.win ++ [⟨rows, rows, h⟩] }
      if d.win.length < 6 then (d, { low := lowReliable out })
      else
        let (d, left, ber) := d.leave
        (d, ⟨lowReliable out, left, ber⟩)

end Sys2Proof.Machine
end

