-- ==== Sys2Proof/Machine/Access.lean ====
section
/-! DEFINITION. The access channels (spec/09): downstream states and ramps, burst reception, reflectometry and
quality windows. -/

namespace Sys2Proof.Machine

open Ev Reg

/-! ### Reflectometry runs end early (R343) -/

/-- States of `TREE_OTDR_STAT.STATE`. -/
def otPending : Nat := 1
def otRunning : Nat := 2
def otDone : Nat := 3
def otFailed : Nat := 4

/-- A run is over: its shot frames up to now gave no idle spans (R335). -/
def State.otdrOver (s : State) (t : Nat) (r : OtdrRun) : State :=
  let last := min (symOf s.now) ((r.frame + 2 * 2 ^ r.avg) * symsFr)
  let s := s.editCanc (8 * t + r.w) fun x => { x with busy := x.busy ++ [(r.frame * symsFr, last)] }
  s.setTree t { s.tree t with otdr := none }

/-- A run ends FAILED: the event table stays. -/
def State.otdrFail (s : State) (t status : Nat) : State :=
  match (s.tree t).otdr with
  | none => s
  | some r => (((s.otdrOver t r).wr TREE_OTDR_STAT_STATE otFailed t).occur TREE_OTDR_FAIL t).complete r.tag status

/-- Slot `w` of a tree is not LIT any more: its run ends. -/
def State.leftLit (s : State) (c : Nat) : State :=
  match (s.tree (c / 8)).otdr with
  | some r => if r.w = c % 8 then s.otdrFail (c / 8) eAbort else s
  | none => s


/-! ### The downstream transmitter (R315, R316, R349) -/

/-- `CH_DS_CTL.POWER` in dBm. -/
def State.chPower (s : State) (c : Nat) : Rat := (s.rdi CH_DS_CTL_POWER c : Rat) / 10

/-- The launch level in force (R316); 0 dBm stands for a laser that is off. -/
def State.chLevel (s : State) (c : Nat) : Rat := ((s.chan c).launchAt s.now).getD 0

/-- From now on the laser follows a ramp, or is off: noted with what the last four frames need (R334). -/
def State.noteLaunch (s : State) (c : Nat) (r : Option LinRamp) : State :=
  let x := s.chan c
  let recent := x.launch.takeWhile fun e => decide (s.now ≤ e.1 + 4 * ticksFr)
  s.setChan c { x with launch := (s.now, r) :: recent ++ (x.launch.drop recent.length).take 1 }

/-- A ramp of RAMP × 10 µs starts; the one it interrupts is abandoned. -/
def State.chRamp (s : State) (c : Nat) (lo hi : Rat) : State :=
  let r : LinRamp := ⟨lo, hi, s.now, s.now + s.rd CH_DS_CTL_RAMP c * 10 * ticksUs⟩
  let s := s.noteLaunch c (some r)
  (s.setChan c { s.chan c with ramp := some r }).wr CH_DS_STAT_RAMPING 1 c

/-- `TREE.ENABLE` completes once every named slot is LIT, or DARK (R349). -/
def State.finishEnable (s : State) (t : Nat) : State :=
  match (s.tree t).enable with
  | none => s
  | some (tag, m, en, changed) =>
    if (List.range 8).all fun w => !m.testBit w || s.dsState (8 * t + w) = (if en then dsLit else dsDark) then
      (s.setTree t { s.tree t with enable := none }).complete tag eOk 0 changed
    else s

/-- States of `CH_BRX_STAT.STATE`. -/
def bIdle : Nat := 0
def bArmed : Nat := 1
def bQualify : Nat := 2
def bHeader : Nat := 3
def bPayload : Nat := 4
def bEndmark : Nat := 5

/-- The receiver's state; IDLE while the tree domain is not ON. -/
def State.brxState (s : State) (c : Nat) : Nat := if s.domOn (c / 8) then s.rd CH_BRX_STAT_STATE c else bIdle

/-- The receiver changes state. -/
def State.setBrx (s : State) (c st : Nat) : State := s.wr CH_BRX_STAT_STATE st c

/-- The burst a channel is receiving or received last. -/
def State.burst (s : State) (c : Nat) : BurstRx :=
  (s.chan c).burst.getD ⟨⟨0, 3, false, false, 0, 0⟩, 0, 0, 0, 0, 0, none, none, false, false, 0⟩

/-- The state with it changed. -/
def State.editBurst (s : State) (c : Nat) (f : BurstRx → BurstRx) : State :=
  s.setChan c { s.chan c with burst := some (f (s.burst c)) }

/-- U of the burst of a channel: its payload units (R318). -/
def State.payloadUnits (s : State) (c : Nat) : Nat :=
  let g := (s.burst c).grant
  if g.kind = 0 then g.len - (s.preU (c / 8) + 16) else s.rngU (c / 8)

/-- The payload symbols of the burst before symbol `pos` of its frame (R318). -/
def State.heardBy (s : State) (c : Nat) (pos : Int) : Nat := min (pos - ((s.burst c).dlm + 96)).toNat (8 * s.payloadUnits c)

/-- The payload symbols received before symbol `pos` count in the window, each once (R347). -/
def State.hear (s : State) (c : Nat) (pos : Int) : State :=
  if s.brxState c ≠ bPayload then s
  else
    let n := s.heardBy c pos
    let b := s.burst c
    s.setChan c { s.chan c with
      qPay := (s.chan c).qPay + (n - b.heard), burst := some { b with heard := max n b.heard } }

/-- The symbol now, counted in the frame of the burst. -/
def State.symNow (s : State) (c : Nat) : Int := (symOf s.now : Int) - (s.burst c).frame * symsFr

/-- The receiver of a channel is IDLE with no window and no burst (R328, last row). -/
def State.brxClear (s : State) (c : Nat) : State :=
  let s := (s.hear c (s.symNow c)).beginIdle c 33
  (s.wr CH_BRX_STAT_STATE 0 c).setChan c { s.chan c with win := none, burst := none, left := [], heldSteps := [] }

/-- The downstream is DARK: frames stop and the laser is off. -/
def State.chDark (s : State) (c : Nat) : State :=
  let s := (((s.wr CH_DS_STAT_STATE dsDark c).wr CH_DS_STAT_PEND 0 c).wr CH_DS_STAT_RAMPING 0 c).wr CH_DS_STAT_OUT 512 c
  let s := s.brxClear c
  let s := s.noteLaunch c none
  let s := s.setChan c { s.chan c with ramp := none, enAt := none, disAt := none, litAt := none }
  ((s.leftLit c).seeEgress c).finishEnable (c / 8)

/-- CH_DS_START (R315). -/
def execChDsStart (c : Fin 512) (s : State) : Host.Outcome State Fault Refusal :=
  .next (
    match (s.chan c).enAt with
    | none => s
    | some t =>
      if s.dsState c = dsWarm ∧ t ≤ s.now then
        let s := (s.wr CH_DS_STAT_STATE dsUp c).wr CH_DS_STAT_PEND 0 c
        let s := s.setChan c { s.chan c with enAt := none, upAt := s.now, dsEnd := s.now / ticksFr * 390625 }
        s.chRamp c (s.chPower c - 20) (s.chPower c)
      else s)

/-- The payload area carries no payload from now on: packets placed in it are cut off here (R315). (DEDUCED, log entry 126.) -/
def State.endPayload (s : State) (c : Nat) : State :=
  let x := s.chan c
  let cur := s.now / ticksFr * 390625 + s.now % ticksFr * 390625 / ticksFr
  let down := (x.down.filter fun p => decide (p.1 < cur)).map fun p => (p.1, p.2.take (cur - p.1))
  s.setChan c { x with down := down, dsEnd := min x.dsEnd cur }

/-- The DISABLE ramp, from the level in force to 20 dB below it. -/
def State.chDisable (s : State) (c : Nat) : State :=
  let lv := s.chLevel c
  ((((s.wr CH_DS_STAT_STATE dsDown c).chRamp c lv (lv - 20)).endPayload c).leftLit c).seeEgress c

/-- CH_DS_DISABLE_START (R315). -/
def execChDsDisableStart (c : Fin 512) (s : State) : Host.Outcome State Fault Refusal :=
  .next (
    match (s.chan c).disAt with
    | none => s
    | some t =>
      if s.now < t then s
      else
        let st := s.dsState c
        let s := s.setChan c { s.chan c with disAt := none }
        if st = dsWarm then s.chDark c
        else if st = dsUp ∨ st = dsLit then s.chDisable c
        else s)

/-- CH_DS_RAMP_END (R315, R316). -/
def execChDsRampEnd (c : Fin 512) (s : State) : Host.Outcome State Fault Refusal :=
  .next (
    match (s.chan c).ramp with
    | none => s
    | some r =>
      let st := s.dsState c
      if s.now < r.tEnd ∨ st < dsUp then s
      else
        let s := (s.setChan c { s.chan c with ramp := none }).wr CH_DS_STAT_RAMPING 0 c
        if st = dsUp then
          let s := (s.wr CH_DS_STAT_STATE dsLit c).setChan c { s.chan c with litAt := some s.now }
          (s.seeEgress c).finishEnable (c / 8)
        else if st = dsDown then (s.chDark c).beginFalls
        else s)

/-- CH_DS_LASER_FAULT (R315): a `TREE.ENABLE` that waits for the slot to be LIT ends `E_STATE` with the slot. -/
def execChDsLaserFault (c : Fin 512) (s : State) : Host.Outcome State Fault Refusal :=
  .next (
    if s.dsState c < dsWarm then s
    else
      let s := ((s.chDark c).occur CH_DS_FAULT c).beginFalls
      let t := c.val / 8
      match (s.tree t).enable with
      | some (tag, m, true, _) =>
        if m.testBit (c.val % 8) then (s.setTree t { s.tree t with enable := none }).complete tag eState (c.val % 8) else s
      | _ => s)

/-- A write of `CH_DS_CTL.POWER` takes effect (R315, R316). -/
def State.wroteDsCtl (s : State) (c : Nat) : State :=
  let st := s.dsState c
  if st = dsUp ∨ st = dsLit then s.chRamp c (s.chLevel c) (s.chPower c) else s

/-- The start LP of `TREE.ENABLE` and `TREE.REFLECT` as a tick, at the least `lead` ticks after their acceptance at tick
`acc`, when intake has passed; the status that refuses it (R191, R349, R350). (DEDUCED, log entry 61.) -/
def treeStart (acc a b lead : Nat) : Except Nat Nat :=
  if !lpOk b ∨ bitsOf b 22 4 ≠ 0 then .error eReserved
  else
    let t := lpTicks a b
    if t = 0 then .ok (ceilDiv (acc + lead) ticksFr * ticksFr)
    else if t < acc + lead then .error eLate
    else .ok t

/-- `TREE.ENABLE` (R349). -/
def State.cmdTreeEnable (c : Cmd) (s : State) : State :=
  s.unreserved c [mask 35 21] fun s =>
    let t := (c.w 0).bits 35 30
    let m := (c.w 0).bits 29 22
    let en := (c.w 0).bit 21
    let ws := (List.range 8).filter fun w => m.testBit w
    match treeStart c.at_ (c.w 1).toNat (c.w 2).toNat (20 * ticksMs) with
    | .error e => if e = eReserved then s.complete c.tag e 2 else if m = 0 then s.complete c.tag eRange else s.complete c.tag e
    | .ok at_ =>
      if m = 0 then s.complete c.tag eRange
      else
        match ws.find? fun w => !s.domOn t || (en && s.dsState (8 * t + w) = dsDown) with
        | some w => s.complete c.tag eState w
        | none =>
          let change := ws.filter fun w =>
            let st := s.dsState (8 * t + w)
            if en then st = dsDark || st = dsWarm else st ≠ dsDark
          let s := change.foldl
            (fun s w =>
              let k := 8 * t + w
              if en then
                ((s.wr CH_DS_STAT_STATE dsWarm k).wr CH_DS_STAT_PEND 1 k).setChan k { s.chan k with enAt := some at_, disAt := none }
              else s.setChan k { s.chan k with disAt := some at_ }) s
          let bits := (change.map fun w => 2 ^ w).sum
          (s.setTree t { s.tree t with enable := some (c.tag, m, en, bits) }).finishEnable t

/-! ### Burst reception (R324–R331) -/

/-- The receiver is IDLE after a burst (`tail` 33: an idle span begins past the 32 symbols after it) or a window (0); what is
known of the burst is kept for the LONG check. -/
def State.brxIdle (s : State) (c tail : Nat) : State :=
  let s := s.beginIdle c tail
  (s.setBrx c bIdle).setChan c { s.chan c with win := none }

/-- The allocation a record of the burst concerns, and whether a header gave it (R332). -/
def BurstRx.name (b : BurstRx) : Nat × Bool :=
  match b.hdr with
  | some h => (h.alloc, true)
  | none => (b.grant.alloc, false)

/-- A record of the burst of a channel. -/
def State.burstRecord (s : State) (c code : Nat) (pos : Int) : State :=
  let b := s.burst c
  s.pushBev (c / 8) (c % 8) { code := code, alloc := b.name.1, ah := b.name.2, frame := b.frame, pos := pos }

/-- The one COLLISION record of a capture, with the allocation the capture carries if its header was decoded.  With AH = 1 it
names the terminals of both allocations where they are not the grant's, or the window is for discovery (R377, R387). (DEDUCED,
log entry 138.) -/
def State.collisionRecord (s : State) (c : Nat) (alloc2 : Option Nat) : State :=
  let b := s.burst c
  match b.capture with
  | none => s
  | some (a, ah) =>
    let s := s.pushBev (c / 8) (c % 8)
      { code := 4, alloc := a, ah := ah, alloc2 := alloc2, frame := b.frame, pos := b.dlm }
    let s := s.editBurst c fun b => { b with capture := none }
    if ah && b.grant.kind ≠ 1 then
      ((a :: alloc2.toList).filter (· ≠ b.grant.alloc)).foldl (fun s k => s.imgNamed (c / 8) k) s
    else s

/-- A window of KIND 0 or 2 ended without a burst: a MISS, recorded outside shot frames (R339). -/
def State.missBurst (s : State) (c : Nat) (g : Grant) (frame : Nat) (pos : Int) : State :=
  let s := (s.brxIdle c 0).setChan c { (s.brxIdle c 0).chan c with burst := none }
  if g.kind = 1 then s
  else
    let s := s.count CH_BURST_MISS c
    if s.inShot c then s
    else
      let s := s.pushBev (c / 8) (c % 8) { code := 1, alloc := g.alloc, frame := frame, pos := pos }
      s.imgMiss (c / 8) g.alloc frame

/-- P_ref as a window opens: the greater of the noise estimate and the present detector output (R326). -/
def State.refLevel (s : State) (c : Nat) : Int := max (s.noiseFloor c) (s.power c (symOf s.now / 8 * 8))

/-- CH_WINDOW_OPEN (R324–R326): the next window of the maps in force opens; `rx` are the samples received since the last that
were given. -/
def execChWindowOpen (c : Fin 512) (rx : List (Nat × Int)) (s : State) : Host.Outcome State Fault Refusal :=
  .next (
    match (s.chan c).left with
    | [] => s
    | (n, g) :: rest =>
      if !s.domOn (c / 8) then s
      else
        match s.windowOf (c / 8) g with
        | none => s.setChan c { s.chan c with left := rest }
        | some (o, e) =>
          if (s.now : Int) < symTick n o ∨ s.brxState c ≠ bIdle then s
          else
            let s := s.setChan c { s.chan c with left := rest }
            if !s.dsLight c then s
            else
              let s := (s.receive c rx).setBrx c bArmed
              s.setChan c { s.chan c with win := some ⟨g, n, e⟩, pref := s.refLevel c })

/-- CH_WINDOW_CLOSE (R328, R331): past the last symbol of the window. -/
def execChWindowClose (c : Fin 512) (s : State) : Host.Outcome State Fault Refusal :=
  .next (
    match (s.chan c).win with
    | none => s
    | some w =>
      if !s.domOn (c / 8) ∨ (s.now : Int) ≤ symTick w.frame w.close then s
      else if s.brxState c = bArmed then s.missBurst c w.grant w.frame w.close
      else s.setChan c { s.chan c with win := none })

/-- Half decibels as tenths. -/
def State.dbField (s : State) (f : Field) (c : Nat) : Int := 5 * (s.rd f c : Int)

/-- A search starts at the step at symbol `j` since frame 0 with detector output `p`. -/
def State.search (s : State) (c j : Nat) (p : Int) : State :=
  let t := c / 8
  let pos : Int := (j : Int) - (s.burst c).frame * symsFr
  let d := pos + 8 * s.preU t + s.rd TREE_BRX_DLM_WIN t
  ((s.setBrx c bQualify).setChan c { s.chan c with pref := p }).editBurst c fun b => { b with deadline := d, dlm := pos, heard := 0 }

/-- A step at symbol `j` since frame 0 outside every window (R328). -/
def State.unsolicited (s : State) (c j : Nat) : State :=
  let s := s.count CH_UNSOL c
  let f := j / symsFr
  if (s.chan c).unsol = f + 1 then s
  else
    let s := s.setChan c { s.chan c with unsol := f + 1 }
    (s.pushBev (c / 8) (c % 8) { code := 8, frame := f, pos := (j % symsFr : Nat) }).imgUnsol c f

/-- The detector output at symbol `j` since frame 0 is `p`: an energy step, if it is one, is taken in the window that is
open up to and with its last symbol; one during ENDMARK is held (R327, R328, R331). -/
def State.energyStep (s : State) (c j : Nat) (p : Int) : State :=
  let x := s.chan c
  let st := s.brxState c
  if p < s.rdi CH_BRX_CTL_ETHR c ∨ p < x.pref + s.dbField CH_BRX_CTL_STEP_DB c then s
  else if st = bIdle then s.unsolicited c j
  else if st = bArmed then
    match x.win with
    | none => s
    | some w =>
      if w.close < (j : Int) - w.frame * symsFr then (s.missBurst c w.grant w.frame w.close).unsolicited c j
      else
        let s := s.endIdle c j
        (s.setChan c { s.chan c with burst := some ⟨w.grant, w.frame, 0, 0, 0, 0, none, none, false, false, 0⟩ }).search c j p
  else if st = bQualify then (s.search c j p).count CH_REARM c
  else if st = bEndmark then s.setChan c { x with heldSteps := x.heldSteps ++ [(j, p)] }
  else s

/-- The detector output at symbol `j` since frame 0 is looked at, once the samples `rx` are taken: `f` is what follows from it.
None is formed while the domain is off, and none is looked at in a shot frame (R327, R339). -/
def State.detect (s : State) (c j : Nat) (rx : List (Nat × Int)) (f : State → Int → State) : State :=
  if !s.domOn (c / 8) ∨ s.shotFrame (c / 8) (c % 8) (j / symsFr) then s
  else
    let u := s.receive c rx
    if u.formed c j then f u (u.power c j) else u

/-- CH_ENERGY_STEP (R327, R328): the detector output at symbol `j` since frame 0, `rx` being the samples received since the last
that were given. -/
def execChEnergyStep (c : Fin 512) (j : Nat) (rx : List (Nat × Int)) (s : State) : Host.Outcome State Fault Refusal :=
  .next (s.detect c j rx fun s p => s.energyStep c j p)

/-- The level-spacing ratio of four levels, in 0.001 (R346). -/
def spacing (l : List Int) : Nat :=
  let g := fun i => l.getD i 0
  let d := min (g 1 - g 0) (min (g 2 - g 1) (g 3 - g 2))
  if g 3 ≤ g 0 ∨ d < 0 then 0 else (3000 * d / (g 3 - g 0)).toNat

/-- CH_DELIMITER_FOUND (R319, R320, R328, R331): the 32 chips from symbol `j` since frame 0 on; P_burst and the four levels are
those of the preamble. -/
def execChDelimiterFound (c : Fin 512) (j : Nat) (pburst : Int) (levels : List Int) (chips : BitVec 32) (s : State) :
    Host.Outcome State Fault Refusal :=
  .next (
    let pos : Int := (j : Int) - (s.burst c).frame * symsFr
    if s.brxState c = bQualify ∧ pos + 32 ≤ (s.burst c).deadline ∧ s.rd CH_BRX_CTL_DLM_THR c ≤ agreeing delimiterWord chips then
      (s.setBrx c bHeader).editBurst c fun b =>
        { b with dlm := pos, pburst := pburst, lsr := spacing levels, hdr := none, ovl := false, long := false }
    else s)

/-- CH_SEARCH_DEADLINE (R328): `rx` are the samples received since the last that were given. -/
def execChSearchDeadline (c : Fin 512) (rx : List (Nat × Int)) (s : State) : Host.Outcome State Fault Refusal :=
  .next (
    let b := s.burst c
    if s.brxState c = bQualify ∧ symTick b.frame b.deadline < s.now then
      let s := (s.count CH_FALSE_DET c).collisionRecord c none
      match (s.chan c).win with
      | some w =>
        if (s.now : Int) ≤ symTick w.frame w.close then
          let s := (s.receive c rx).setBrx c bArmed
          s.setChan c { s.chan c with pref := s.refLevel c, burst := none }
        else s.missBurst c b.grant b.frame b.deadline
      | none => s.missBurst c b.grant b.frame b.deadline
    else s)

/-- How many symbols late a delimiter is (R332, R372). -/
def State.lateness (s : State) (c : Nat) : Int :=
  let b := s.burst c
  b.dlm - 8 * (b.grant.start + s.preU (c / 8) : Nat)

/-- The level-spacing ratio of the burst enters its window, `a` being the allocation that names its terminal: the header's,
or the grant's where no header was decoded (R346). (DEDUCED, log entry 127.) -/
def State.noteSpacing (s : State) (c a : Nat) : State :=
  let x := s.chan c
  let v := (s.burst c).lsr
  match x.qLsr with
  | some (least, _) => if v < least then s.setChan c { x with qLsr := some (v, a / 4 % 256) } else s
  | none => s.setChan c { x with qLsr := some (v, a / 4 % 256) }

/-- A burst that ends before its header is decoded. -/
def State.noteUnread (s : State) (c : Nat) : State :=
  if s.brxState c = bHeader then s.noteSpacing c (s.burst c).grant.alloc else s

/-- A header that passed the checks of R329. -/
def State.headerPassed (s : State) (c : Nat) (h : BHeader) : State :=
  let t := c / 8
  let b := s.burst c
  let r := h.alloc % 1024
  let s :=
    if b.grant.report then
      (((s.wr TREE_RPT_REPORT h.report t r).wr TREE_RPT_FRESH 1 t r).wr TREE_RPT_FR (b.frame % 8192) t r).imgReport c h.alloc
        b.frame
    else s
  let s :=
    if b.grant.kind = 1 then
      s.pushBev t (c % 8) { code := 11, alloc := b.grant.alloc, alloc2 := some h.alloc, frame := b.frame, pos := b.dlm }
    else if b.grant.kind = 2 then (s.burstRecord c 12 b.dlm).imgRanged t h.alloc (s.lateness c)
    else s.imgHit t h.alloc b.frame
  s.setBrx c bPayload

/-- The header that the trellis search finds in the likelihoods of its 128 coded bits (R321). -/
def decodeHeader (soft : List Int) : BitVec 58 :=
  BitVec.ofNat 58 (bitsToNat ((trellisSearch ((List.range 64).map fun i => (soft.getD (2 * i) 0, soft.getD (2 * i + 1) 0))).take 58))

/-- CH_HEADER_DECODED (R321, R328, R329): `soft` are the likelihoods of the 128 coded bits received, positive for a 1. -/
def execChHeaderDecoded (c : Fin 512) (soft : List Int) (s : State) : Host.Outcome State Fault Refusal :=
  .next (
    let b := s.burst c
    let header := decodeHeader soft
    let crcOk := hdrCrcOk header
    let alloc := hdrAlloc header
    let msg := hdrMsg header
    if s.brxState c ≠ bHeader ∨ (s.now : Int) < symTick b.frame (b.dlm + 96) then s
    else
      let captured := b.capture.isSome
      let s := (s.collisionRecord c (if crcOk then some alloc else none)).noteSpacing c (if crcOk then alloc else b.grant.alloc)
      if !crcOk then (((s.count CH_HDR_CRC c).burstRecord c 2 b.dlm).brxIdle c 33)
      else
        let h : BHeader := ⟨alloc, hdrReport header, msg⟩
        let s := s.editBurst c fun b => { b with hdr := some h }
        if b.grant.kind ≠ 1 ∧ alloc ≠ b.grant.alloc then
          let s := s.count CH_ALLOC_MISMATCH c
          let s := if captured then s else (s.burstRecord c 3 b.dlm).imgNamed (c / 8) alloc
          s.brxIdle c 33
        else if msg ∧ !b.grant.msg then ((s.count CH_MSG_UNGRANTED c).burstRecord c 10 b.dlm).brxIdle c 33
        else s.headerPassed c h)

/-- A collision step at symbol `j` since frame 0: the burst is discarded, and the stronger one searched for (R327, R328). -/
def State.collide (s : State) (c j : Nat) (p : Int) : State :=
  let b := s.burst c
  let st := s.brxState c
  if (st = bHeader ∨ st = bPayload) ∧ b.pburst + s.dbField CH_BRX_CTL_COLL_DB c ≤ p then
    let s := (((s.hear c ((j : Int) - b.frame * symsFr)).noteUnread c).collisionRecord c none).count CH_COLLISION c
    let s := s.editBurst c fun b => { b with capture := some b.name, hdr := none }
    s.search c j p
  else s

/-- CH_COLLISION_STEP (R327, R328). -/
def execChCollisionStep (c : Fin 512) (j : Nat) (rx : List (Nat × Int)) (s : State) : Host.Outcome State Fault Refusal :=
  .next (s.detect c j rx fun s p => s.collide c j p)

/-- An overlap step: it is counted, and recorded once in a burst (R327, R328). -/
def State.overlap (s : State) (c : Nat) (p : Int) : State :=
  let b := s.burst c
  let st := s.brxState c
  if (st = bHeader ∨ st = bPayload) ∧ b.pburst + s.dbField CH_BRX_CTL_OVL_DB c ≤ p ∧
      p < b.pburst + s.dbField CH_BRX_CTL_COLL_DB c then
    let s := s.count CH_OVERLAP c
    if b.ovl then s else (s.editBurst c fun b => { b with ovl := true }).burstRecord c 5 b.dlm
  else s

/-- CH_OVERLAP_STEP (R327, R328). -/
def execChOverlapStep (c : Fin 512) (j : Nat) (rx : List (Nat × Int)) (s : State) : Host.Outcome State Fault Refusal :=
  .next (s.detect c j rx fun s p => s.overlap c p)

/-- The message types a module accepts from a terminal (R364). -/
def upstreamTypes : List Nat := [0x41, 0x42, 0x43]

/-- The leading message of a burst (R364, R366). -/
def State.takeUpMessage (s : State) (c : Nat) (h : BHeader) (ok : Bool) (m : List Nat) : State :=
  let t := c / 8
  let b := s.burst c
  if !ok ∨ m.drop 46 ≠ natToOctets 2 (crc16 (m.take 46)) ∨ !upstreamTypes.contains (m.headD 0) then s.count TREE_MSG_BAD t
  else
    let note := [c % 8 * 32 + b.grant.kind] ++ natToOctets 2 (b.frame % 8192) ++ natToOctets 3 (b.dlm % 1800000).toNat ++
      natToOctets 2 h.alloc ++ List.replicate 8 0
    (s.deliver t 0 (note ++ m)).imgMessage t (c % 8) b.grant.kind h.alloc b.frame b.dlm.toNat (s.lateness c) m

/-- The first `n` codewords of a payload as received (R322, R330). (DEDUCED, log entry 79.) -/
def receivedWords (n : Nat) (payload : List (BitVec 8)) : List RsWord :=
  (codewordsIn n (descramble (payload.map BitVec.toNat))).map rsWord

/-- The first `n` codewords of a burst go to the upstream path (R330, R366, R373). -/
def State.deliverBurst (s : State) (c : Nat) (h : BHeader) (n : Nat) (payload : List (BitVec 8)) : State :=
  let t := c / 8
  let b := s.burst c
  let cs := receivedWords n payload
  let s := s.count CH_RS_CORR c ((cs.map fun k => if k.ok then k.corrected else 0).sum)
  let s := s.count CH_RS_UNCORR c (cs.filter fun k => !k.ok).length
  let os := cs.flatMap (·.data)
  let s := if h.msg ∧ cs ≠ [] then s.takeUpMessage c h ((cs.head?.map (·.ok)).getD false) (os.take 48) else s
  let from_ := if h.msg then 48 else 0
  if b.grant.kind ≠ 0 ∨ os.length ≤ from_ then s
  else
    let e := s.tst (h.alloc / 4)
    if (e.1 = tActive ∨ e.1 = tRetuning) ∧ e.2.2.2.testBit (h.alloc % 4) then
      let u : UpBurst := ⟨h.alloc, os, cs.map (·.ok), from_, s.traf.burstNo⟩
      let s := { s with traf := { s.traf with burstNo := s.traf.burstNo + 1 } }
      s.setBursts c (s.burstsOf c ++ [u])
    else s.count TREE_UP_NOTACT t


/-- A detector output that is a loss and no collision step, which takes precedence (R327, R331). -/
def State.isLoss (s : State) (c : Nat) (p : Int) : Bool :=
  let b := s.burst c
  decide (p < max (s.rdi CH_BRX_CTL_ETHR c) (b.pburst - 100)) && decide (p < b.pburst + s.dbField CH_BRX_CTL_COLL_DB c)

/-- The burst ends at symbol `j` since frame 0 for want of light; its codewords received whole are kept (R328). -/
def State.endShort (s : State) (c j : Nat) (payload : List (BitVec 8)) : State :=
  let b := s.burst c
  let pos : Int := (j : Int) - b.frame * symsFr
  let s := ((s.hear c pos).noteUnread c).collisionRecord c none
  let s := match b.hdr with
    | some h => s.deliverBurst c h (s.heardBy c pos / 8 * 14 / 1152) payload
    | none => s
  (s.burstRecord c 6 b.dlm).brxIdle c 33

/-- CH_BURST_LOSS (R327, R328): the detector outputs at symbol `j` since frame 0 and at the three unit boundaries before. -/
def execChBurstLoss (c : Fin 512) (j : Nat) (rx : List (Nat × Int)) (payload : List (BitVec 8)) (s : State) :
    Host.Outcome State Fault Refusal :=
  .next (s.detect c j rx fun s _ =>
    let st := s.brxState c
    if (st = bHeader ∨ st = bPayload) ∧
        ((List.range 4).all fun i => s.formed c (j - 8 * i) && s.isLoss c (s.power c (j - 8 * i))) = true then s.endShort c j payload
    else s)

/-- CH_PAYLOAD_END (R328). -/
def execChPayloadEnd (c : Fin 512) (s : State) : Host.Outcome State Fault Refusal :=
  .next (
    let b := s.burst c
    if s.brxState c = bPayload ∧ symTick b.frame (b.dlm + 96 + 8 * s.payloadUnits c) ≤ s.now then
      (s.hear c (b.dlm + 96 + (8 * s.payloadUnits c : Nat))).setBrx c bEndmark
    else s)

/-- The terminal table after a KIND 0 burst (R332). -/
def State.terminalTable (s : State) (c : Nat) (h : BHeader) : State :=
  let t := c / 8
  let n := h.alloc / 4 % 256
  let b := s.burst c
  let ofs := s.lateness c
  let s := ((s.wri TREE_TRM_OFS ofs t n).wri TREE_TRM_PWR (clampInt (-512) 511 b.pburst) t n).wr TREE_TRM_LSR b.lsr t n
  let s := s.wr TREE_TRM_VALID 1 t n
  if s.rd TREE_BRX2_DRIFT_THR t < ofs.natAbs then (s.burstRecord c 9 b.dlm).imgDrift t h.alloc ofs else s

/-- The receiver is ARMED again, or IDLE, after a burst; the steps held during ENDMARK are taken now (R328). -/
def State.afterBurst (s : State) (c : Nat) : State :=
  let steps := (s.chan c).heldSteps
  let s := match (s.chan c).win with
    | some w =>
      if w.grant.kind = 1 ∧ (s.now : Int) ≤ symTick w.frame w.close then s.setBrx c bArmed else s.brxIdle c 33
    | none => s.brxIdle c 33
  let s := s.setChan c { s.chan c with heldSteps := [] }
  steps.foldl (fun s e => s.energyStep c e.1 e.2) s

/-- CH_ENDMARK_DONE (R320, R328, R330): the burst is done; `chips` stood in the end marker's place, and `payload` is what
the inner decoder gave for its octets, still scrambled. -/
def execChEndmarkDone (c : Fin 512) (chips : BitVec 32) (payload : List (BitVec 8)) (s : State) :
    Host.Outcome State Fault Refusal :=
  .next (
    let b := s.burst c
    let found := decide (s.rd CH_BRX_CTL_DLM_THR c ≤ agreeing endMarkerWord chips)
    if s.brxState c ≠ bEndmark ∨ (s.now : Int) < symTick b.frame (b.dlm + 128 + 8 * s.payloadUnits c) then s
    else
      let s := if found then s else s.count CH_END_MISS c
      let s := match b.hdr with
        | some h =>
          let s := (s.deliverBurst c h (codewordsOf (s.payloadUnits c)) payload).count CH_BURST_OK c
          if b.grant.kind = 0 then s.terminalTable c h else s
        | none => s
      s.afterBurst c)

/-- The unit boundary at which a burst that has not ended is LONG, as a symbol since frame 0: 16 units after its expected end
(R328). -/
def State.longAt (s : State) (c : Nat) : Nat :=
  let b := s.burst c
  (ceilDiv (b.frame * symsFr + b.dlm + 128 + 8 * s.payloadUnits c + 128).toNat 8) * 8

/-- Light of the burst is still there at that boundary: a LONG record, once. -/
def State.longBurst (s : State) (c : Nat) (p : Int) : State :=
  match (s.chan c).burst with
  | none => s
  | some b =>
    let st := s.brxState c
    if b.long ∨ st = bQualify ∨ st = bHeader ∨ p < b.pburst - 100 then s
    else
      let s := (s.editBurst c fun b => { b with long := true }).burstRecord c 7 b.dlm
      if b.name.2 && b.grant.kind ≠ 1 then s.imgLong (c / 8) b.name.1 b.frame else s

/-- CH_BURST_LONG (R328): `rx` are the samples received since the last that were given. -/
def execChBurstLong (c : Fin 512) (rx : List (Nat × Int)) (s : State) : Host.Outcome State Fault Refusal :=
  .next (s.detect c (s.longAt c) rx fun s p => s.longBurst c p)

/-! ### Reflectometry (R339–R343, R350) -/

/-- `TREE.REFLECT` (R350). -/
def State.cmdReflect (c : Cmd) (s : State) : State :=
  s.unreserved c [mask 35 22] fun s =>
    let t := (c.w 0).bits 35 30
    let w := (c.w 0).bits 29 27
    let avg := (c.w 0).bits 26 23
    if 8 < avg then s.complete c.tag eReserved
    else
      match treeStart c.at_ (c.w 1).toNat (c.w 2).toNat (2 * ticksMs) with
      | .error e => s.complete c.tag e (if e = eReserved then 2 else 0)
      | .ok at_ =>
        if s.dsState (8 * t + w) ≠ dsLit then s.complete c.tag eState
        else
          let s := ((s.wr TREE_OTDR_STAT_STATE otPending t).wr TREE_OTDR_STAT_W w t).wr TREE_OTDR_STAT_AVG avg t
          let s := ((s.wr TREE_OTDR_STAT_SHOTS 0 t).wr TREE_OTDR_STAT_APPLIED 0 t).wr TREE_OTDR_LP_A (lpA at_) t
          let s := s.wr TREE_OTDR_LP_B (lpB at_) t
          s.setTree t { s.tree t with otdr := some ⟨w, avg, (c.w 0).bit 22, at_ / ticksFr, c.tag, 0, 0, []⟩ }

/-- OTDR_RUN_START (R343). -/
def execOtdrRunStart (t : Fin 64) (s : State) : Host.Outcome State Fault Refusal :=
  .next (
    match (s.tree t).otdr with
    | none => s
    | some r =>
      if s.rd TREE_OTDR_STAT_STATE t = otPending ∧ r.frame * ticksFr ≤ s.now then s.wr TREE_OTDR_STAT_STATE otRunning t else s)

/-- Whether the map in force for frame `n` on a channel is the single quiet grant of R339. -/
def State.quietMap (s : State) (c n : Nat) : Bool :=
  match (s.chan c).maps.find? fun m => m.1 = n with
  | some (_, [g]) => g.kind = 3 && g.start = 0 && g.len = 225000
  | _ => false

/-- The chips that the probe sends from the start of a shot's first frame (R340). -/
def probeChips : List Bool := prbs 15 14 (2 ^ 15 - 1) 32767

/-- The correlation of a shot with the probe's sequence at each delay of its two frames: `out` is the canceller output. -/
def correlate (out : List Rat) : List Rat :=
  (List.range (2 * symsFr)).map fun d => (List.zipWith (fun (b : Bool) y => if b then y else -y) probeChips (out.drop d)).sum

/-- The canceller output over the two frames from frame `f` on, `rx` being the received samples (R334, R340). -/
def State.shotOutput (s : State) (c f : Nat) (rx : List Int) : List Rat :=
  let i := s.cancIn c [f - 1, f, f + 1]
  rx.zipIdx.map fun e => (s.chan c).canc.output i (f * symsFr + e.2) e.1

/-- OTDR_SHOT (R339, R340): `rx` are the samples received in the shot's two frames. -/
def execOtdrShot (t : Fin 64) (rx : List Int) (s : State) : Host.Outcome State Fault Refusal :=
  .next (
    let x := s.tree t
    match x.otdr with
    | none => s
    | some r =>
      let f := r.frame + 2 * r.shot
      let c := 8 * t.val + r.w
      if s.rd TREE_OTDR_STAT_STATE t ≠ otRunning ∨ 2 ^ r.avg ≤ r.shot ∨ s.now < (f + 2) * ticksFr then s
      else if s.quietMap c f && s.quietMap c (f + 1) then
        let new := correlate (s.shotOutput c f rx)
        let corr := if r.taken = 0 then new else List.zipWith (fun a b => a + b) r.corr new
        (s.setTree t { x with otdr := some { r with shot := r.shot + 1, taken := r.taken + 1, corr := corr } }).wr
          TREE_OTDR_STAT_SHOTS (r.taken + 1) t
      else (s.setTree t { x with otdr := some { r with shot := r.shot + 1 } }).count TREE_OTDR_SKIP t)

/-- The tap position of a reflection at `d` tenths of a metre for a group index and a loop delay (R338). -/
def tapPos (d ng loop : Nat) : Nat :=
  let num := d * 2 * ng * 14400000000
  let den := 100000 * 299792458
  (2 * num + den) / (2 * den) + loop

/-- An event of a reflectometry trace in the units of the event table (R341, R352). -/
structure TraceEvent where
  type : Nat
  dist : Nat
  refl : Nat
  loss : Nat
  level : Nat
  deriving DecidableEq, Repr

/-- The trace of a run: the shots' mean correlation in each bin of 0.1 m from 0 to 25,000 m (R338, R340). (DESIGN CHOICE, log
entry 125.) -/
def State.traceOf (s : State) (t : Nat) (r : OtdrRun) : List Rat :=
  let ng := s.rd TREE_OTDR_CFG_NG t
  let loop := s.rd CH_CANC_ISO_LOOP_D (8 * t + r.w)
  (List.range 250000).map fun b =>
    let lo := tapPos b ng loop
    let l := (r.corr.drop lo).take (tapPos (b + 1) ng loop - lo)
    l.sum / ((l.length * r.taken : Nat) : Rat)

/-- The event at a bin, if any, `before` being the losses of the events before it (R341). (DESIGN CHOICE, log entry 125.) -/
def eventAt (trace : List Rat) (refThr lossThr before b : Nat) : Option TraceEvent :=
  let step := Config.traceStep trace b
  let refl := Config.traceRefl trace b
  let fibre := 2 * Config.traceFibre trace b
  if 10 * (refThr : Int) ≤ Config.tracePeak trace b then some ⟨1, b, refl, step.toNat, refl + before + fibre⟩
  else if 120 ≤ step then some ⟨3, b, 0, step.toNat, before + fibre⟩
  else if (lossThr : Int) ≤ step then some ⟨2, b, 0, step.toNat, before + fibre⟩
  else none

/-- The events at the given bins, in their order. -/
def eventsAlong (trace : List Rat) (refThr lossThr : Nat) : Nat → List Nat → List TraceEvent
  | _, [] => []
  | before, b :: rest =>
    match eventAt trace refThr lossThr before b with
    | some e => e :: eventsAlong trace refThr lossThr (before + e.loss) rest
    | none => eventsAlong trace refThr lossThr before rest

/-- The bin from which on the backscatter lies in the noise for good, if it does. -/
def traceEnd (trace : List Rat) : Option Nat :=
  let n := ((List.range trace.length).reverse.takeWhile (Config.traceNoise trace)).length
  if n = 0 then none else some (trace.length - n)

/-- The events of a trace, sorted by distance, its end last (R341). (DESIGN CHOICE, log entry 125.) -/
def traceEvents (trace : List Rat) (refThr lossThr : Nat) : List TraceEvent :=
  match traceEnd trace with
  | none => eventsAlong trace refThr lossThr 0 (List.range trace.length)
  | some b =>
    let es := eventsAlong trace refThr lossThr 0 (List.range (b + 1))
    es ++ [⟨4, b, Config.traceRefl trace b, (Config.traceStep trace b).toNat,
      Config.traceRefl trace b + (es.map (·.loss)).sum + 2 * Config.traceFibre trace b⟩]

/-- The taps of a channel from the events of a run: source and position, the highest levels first (R342). -/
def State.candidates (s : State) (c : Nat) (es : List TraceEvent) : List (Nat × Nat) :=
  let t := c / 8
  let ng := s.rd TREE_OTDR_CFG_NG t
  let loop := s.rd CH_CANC_ISO_LOOP_D c
  let iso := fun src => if src = 0 then s.rd CH_CANC_ISO_OWN c else s.rd CH_CANC_ISO_NEXT c
  let srcs := if c % 8 = 7 then [0] else [0, 1]
  let all := (es.filter fun e => e.type = 1).flatMap fun e =>
    srcs.map fun src => (e.level + iso src, e.dist, src, tapPos e.dist ng loop)
  let ok := all.filter fun k => 2 ≤ k.2.2.2 && decide (k.2.2.2 ≤ 262141) && decide (k.1 ≤ 10 * s.rd TREE_OTDR_CFG_TAP_MIN t)
  let le := fun (a b : Nat × Nat × Nat × Nat) =>
    decide (a.1 < b.1) || (a.1 = b.1 && (decide (a.2.1 < b.2.1) || (a.2.1 = b.2.1 && decide (a.2.2.1 ≤ b.2.2.1))))
  ((sortBy le ok).take 16).map fun k => (k.2.2.1, k.2.2.2)

/-- The shadow sets of R342. -/
def State.applyEvents (s : State) (t : Nat) (es : List TraceEvent) : State :=
  let s := (List.range 8).foldl
    (fun s w =>
      let c := 8 * t + w
      if s.dsState c ≠ dsLit then s
      else if s.rdb CH_CANC_STAT_SHADOW c then s.occur CH_CANC_KEEP c
      else
        let taps := s.candidates c es
        let s := (List.range 16).foldl
          (fun s i =>
            match taps[i]? with
            | some (src, pos) => ((s.wr CH_STAP_EN 1 c i).wr CH_STAP_SRC src c i).wr CH_STAP_POS pos c i
            | none => ((s.wr CH_STAP_EN 0 c i).wr CH_STAP_SRC 0 c i).wr CH_STAP_POS 0 c i) s
        s.loadShadow c) s
  s.wr TREE_OTDR_STAT_APPLIED 1 t

/-- The event table of a run: the nearest 64 events, unused entries of TYPE 0 (R341, R352). -/
def State.putEvents (s : State) (t : Nat) (events : List TraceEvent) : State :=
  let es := events.take 64
  let s := (List.range 64).foldl
    (fun s i =>
      let e := es.getD i ⟨0, 0, 0, 0, 0⟩
      ((((s.wr TREE_EV_TYPE e.type t i).wr TREE_EV_DIST e.dist t i).wr TREE_EV_REFL (min e.refl 1023) t i).wr
        TREE_EV_LOSS (min e.loss 1023) t i).wr TREE_EV_LEVEL (min e.level 1023) t i) s
  (s.wr TREE_OTDR_STAT_NEV es.length t).wr TREE_OTDR_STAT_TRUNC (b2n (decide (64 < events.length))) t

/-- A run that took shots ends DONE with the events of its trace (R342, R343, R350). -/
def State.otdrDone (s : State) (t : Nat) (r : OtdrRun) (events : List TraceEvent) : State :=
  let es := events.take 64
  let s := ((s.putEvents t events).wr TREE_OTDR_STAT_STATE otDone t).otdrOver t r
  let s := s.occur TREE_OTDR_DONE t
  let s := if r.apply then s.applyEvents t es else s
  s.complete r.tag eOk 0 es.length

/-- OTDR_RUN_END (R340–R343, R350). -/
def execOtdrRunEnd (t : Fin 64) (s : State) : Host.Outcome State Fault Refusal :=
  .next (
    match (s.tree t).otdr with
    | none => s
    | some r =>
      if s.rd TREE_OTDR_STAT_STATE t ≠ otRunning ∨ r.shot < 2 ^ r.avg then s
      else if r.taken = 0 then s.otdrFail t eState
      else s.otdrDone t r (traceEvents (s.traceOf t r) (s.rd TREE_OTDR_CFG_REF_THR t) (s.rd TREE_OTDR_CFG_LOSS_THR t)))

/-! ### Quality windows (R344–R348) -/

/-- NOISE, REFL and DEPTH of the window, from its idle symbols: fewer than 4,096 leave them as they were (R345). -/
def State.showNoise (s : State) (c : Nat) : State :=
  let x := (s.chan c).canc
  if x.idle < 4096 then s
  else
    let noise := clampInt (-512) 511 (connectorPower (x.outSum / (x.idle : Nat)))
    let refl := clampInt (-512) 511 (connectorPower (x.inSum / (x.idle : Nat)))
    ((s.wri CH_Q1_NOISE noise c).wri CH_Q1_REFL refl c).wri CH_CANC_STAT_DEPTH (clampInt (-512) 511 (refl - noise)) c

/-- In how many of 4,096 payload symbols any of the monitor sampler's three decisions differs from the main one; symbols that
are not given count as differing (R347). -/
def decisionsDiffer (l : List (BitVec 3 × BitVec 3)) : Nat :=
  let l := l.take 4096
  (4096 - l.length) + l.countP fun e => e.1 != e.2

/-- EYE (R347): how many consecutive offsets, 0 among them, have a difference ratio of 2⁻¹⁶ at most; `differ` counts the
differences in 4,096 symbols at each offset from −32 on. -/
def eyeOpening (differ : List Nat) : Nat :=
  let ok := fun (i : Nat) => decide (differ.getD i 4096 * 2 ^ 16 ≤ 4096)
  if !ok 32 then 0
  else ((List.range 32).reverse.takeWhile ok).length + ((List.range 32).map (32 + ·) |>.takeWhile ok).length

/-- CH_QWIN_END (R344–R347). (DEDUCED, log entry 87.) -/
def execChQwinEnd (c : Fin 512) (fig : ChFigures) (s : State) : Host.Outcome State Fault Refusal :=
  .next (
    let f := s.now / ticksFr
    if !s.domOn (c / 8) ∨ f / 2 ^ (s.chan c).qLen ≤ (s.chan c).qIdx then s
    else
      let s := s.receive c fig.rx
      let s := s.hear c (((s.chan c).qIdx + 1) * 2 ^ (s.chan c).qLen * symsFr - (s.burst c).frame * symsFr : Int)
      let x := s.chan c
      let start := x.qIdx * 2 ^ x.qLen * ticksFr
      let valid := s.dsState c = dsLit && (match x.litAt with
        | some t => decide (t ≤ start)
        | none => false)
      let s := s.showNoise c
      let eye := decide (64 * 4096 ≤ x.qPay)
      let s := (s.wr CH_Q2_EYE (if eye then min (eyeOpening (fig.decisions.map decisionsDiffer)) 63 else 0) c).wr CH_QSTAT_EYE_V (b2n eye) c
      let s := match x.qLsr with
        | some (v, n) => (s.wr CH_Q2_LSR v c).wr CH_Q2_WORST n c
        | none => (s.wr CH_Q2_LSR 0 c).wr CH_Q2_WORST 0 c
      let end_ := (x.qIdx + 1) * 2 ^ x.qLen * ticksFr
      let s := ((s.wr CH_Q2_TX_LSR (spacing fig.levels) c).wr CH_QEND_A (lpA end_) c).wr CH_QEND_B (lpB end_) c
      let s := (s.inc CH_QSTAT_QSEQ 1 c).wr CH_QSTAT_VALID (b2n valid) c
      let q := s.rd CH_QCTL_QWIN c
      s.setChan c { x with
        qLen := q, qIdx := f / 2 ^ q, qLsr := none, qPay := 0, canc := { x.canc with idle := 0, outSum := 0, inSum := 0 } })

/-! ### The tree domain (R315, R328, R343, R394) -/

/-- The tree domain has powered up: its channels are DARK, its windows start, and its map deadlines count from now. -/
def State.treeOn (s : State) (t : Nat) : State :=
  let dl := s.rd TREE_MAPCTL_DL_LEAD t
  let s := s.setTree t { s.tree t with lastN := s.lastDeadline dl, leads := [] }
  (List.range 8).foldl
    (fun s w =>
      let c := 8 * t + w
      let q := s.rd CH_QCTL_QWIN c
      (s.wr CH_DS_STAT_STATE dsDark c).setChan c { s.chan c with qLen := q, qIdx := s.now / ticksFr / 2 ^ q, qLsr := none }) s

/-- The tree domain goes off: what its hardware and its image hold is lost, a run and the tree's commands end. -/
def State.treeOff (s : State) (t : Nat) : State :=
  let x := s.tree t
  let s := s.otdrFail t eAbort
  let tags := (x.enable.map (·.1)).toList ++ (x.act.map (·.tag)).toList ++ (x.disc.map (·.tag)).toList ++
    (x.deact.map (·.1)).toList
  let s := tags.foldl (fun s k => s.complete k eAbort) s
  let s := (List.range 256).foldl (fun s n => if (s.tst (256 * t + n)).1 = tFree then s else s.setTst t n tFree 0 0 0) s
  let s := (List.range 8).foldl (fun s w => (s.setChan (8 * t + w) {}).setBursts (8 * t + w) []) s
  let s := s.setTree t {}
  (List.range 8).foldl (fun s w => s.seeEgress (8 * t + w)) s

/-- A channel of a domain about to be shed is disabled (R315). -/
def State.treeShed (s : State) (t : Nat) : State :=
  (List.range 8).foldl
    (fun s w =>
      let c := 8 * t + w
      let st := s.dsState c
      if st = dsUp ∨ st = dsLit then s.chDisable c else if st = dsWarm then s.chDark c else s) s

end Sys2Proof.Machine
end

