-- ==== Sys2Proof/Machine/Columns.lean ====
section
/-! DEFINITION. The characters of the service link: ordered sets, packets as columns, the pattern of a loop (R167–R169,
R178). -/

namespace Sys2Proof.Machine

/-- Character K`x`.`y`, told from a D character by 256 (R167). -/
def kChar (x y : Nat) : Nat := 256 + 32 * y + x

/-- Character D`x`.`y`. -/
def dChar (x y : Nat) : Nat := 32 * y + x

/-- An ordered set: columns that carry the same character on every lane (R167). -/
def onLanes (l : List Nat) : List (List Nat) := l.map fun c => [c, c, c, c]

/-- The ordered sets of R167. -/
def setIdle : List (List Nat) := onLanes [kChar 28 5, dChar 16 2]
def setMarker (rxUp : Bool) : List (List Nat) := onLanes [kChar 28 3, b2n rxUp]
def setStart : List (List Nat) := onLanes [kChar 27 7]
def setEnd : List (List Nat) := onLanes [kChar 29 7]
def setAbort : List (List Nat) := onLanes [kChar 30 7]
def setPower (d : Nat) : List (List Nat) := onLanes [kChar 28 1, d]

/-- `k` columns of idle fill. -/
def idleColumns (k : Nat) : List (List Nat) := ((List.replicate k setIdle).flatten).take k

/-- A packet as columns: /S/, octet n on lane n mod 4 of column n div 4, /T/ (R169). -/
def packetColumns (octets : List Nat) : List (List Nat) :=
  setStart ++ (List.range (octets.length / 4)).map (fun k => (octets.drop (4 * k)).take 4) ++ setEnd

/-- Whether a received ordered set is ignored and counted (R167), given the two characters that each lane received: its
characters differ between lanes, or it is a /P/ that names none of the four requests and answers. -/
def setBad : List (Nat × Nat) → Bool
  | [] => true
  | c :: t => !(t.all (· = c)) || (c.1 = kChar 28 1 && !(decide (1 ≤ c.2) && decide (c.2 ≤ 4)))

/-- The bit errors of a lane whose received bits are checked against PRBS31 from a state (R178), by the polynomial
x³¹ + x²⁸ + 1. (DESIGN CHOICE, log entry 111.) -/
def loopErrors (seed : Nat) (bits : List Nat) : Nat :=
  ((List.zipWith xor (bits.map (· % 2 = 1)) (prbs 31 28 seed bits.length)).filter id).length

/-- The columns that the characters received on four lanes are sent back in (R178 mode 3). -/
def backColumns (lanes : List (List Nat)) : List (List Nat) :=
  (List.range ((lanes.getD 0 []).length)).map fun k => (List.range 4).map fun i => (lanes.getD i []).getD k 0

end Sys2Proof.Machine
end

