-- ==== Sys2Proof/Machine/LineTx.lean ====
section
/-! DEFINITION. The transmit side of a coherent line: states, ramps, calibration, loading requests and
format switches (spec/06). -/

namespace Sys2Proof.Machine

open Ev Reg

/-- The record of a line. -/
def State.line (s : State) (l : Nat) : LineSt := sget (fun _ => {}) s.lines l

/-- The state with a line's record replaced. -/
def State.setLine (s : State) (l : Nat) (x : LineSt) : State := { s with lines := sput (fun _ => {}) s.lines l x }

/-- The power domain of a line (R30). -/
def lineDomain (l : Nat) : Nat := 72 + l

/-- States of `LINE_TX_STAT.STATE` (R229). -/
def txOff : Nat := 0
def txDark : Nat := 1
def txCal : Nat := 2
def txRampUp : Nat := 3
def txLit : Nat := 4
def txRampDown : Nat := 5
def txShut : Nat := 6

/-- The transmitter's state; OFF while the line domain is not ON. -/
def State.txState (s : State) (l : Nat) : Nat :=
  if s.domOn (lineDomain l) then s.rd LINE_TX_STAT_STATE l else txOff

/-- The state with the transmitter's state set; the line's queues stop or can send again with it (R423). -/
def State.setTx (s : State) (l st : Nat) : State := (s.wr LINE_TX_STAT_STATE st l).seeEgress (512 + l)

/-! ### Ramps (R230, R231) -/

/-- Ticks of 0.1 ms. -/
def ticksTenth : Nat := 400000

/-- The segments up to the first whose END is 255; true when there is one. -/
def cutSegs : List (Nat × Nat) → List (Nat × Nat) × Bool
  | [] => ([], false)
  | (d, e) :: t => if e = 255 then ([(d, e)], true) else ((d, e) :: (cutSegs t).1, (cutSegs t).2)

/-- The part of a ramp's span reached `t` ticks after its start. -/
def fracAt : List (Nat × Nat) → Nat → Nat → Rat
  | [], _, _ => 1
  | (d, e) :: r, prev, t =>
    if t < d * ticksTenth then (prev : Rat) / 255 + ((e : Rat) - prev) / 255 * t / (d * ticksTenth)
    else fracAt r e (t - d * ticksTenth)

/-- The level of a ramp at a tick. -/
def Ramp.levelAt (r : Ramp) (t : Nat) : Rat :=
  if r.tEnd ≤ t then r.hi else r.lo + (r.hi - r.lo) * fracAt r.segs 0 (t - r.t0)

/-- The output level in force. -/
def State.levelNow (s : State) (l : Nat) : Rat :=
  match (s.line l).ramp with
  | some r => r.levelAt s.now
  | none => (s.line l).level

/-- The eight segments of profile `p` as the registers hold them. -/
def State.profile (s : State) (l p : Nat) : List (Nat × Nat) :=
  (List.range 8).map fun k => (s.rd LINE_TX_PROF_DUR l p k, s.rd LINE_TX_PROF_END l p k)

/-- The gains of the active bank in dB; none where a subcarrier is off (R215, R232). -/
def State.bankGains (s : State) (l : Nat) : List (Option Rat) :=
  let x := s.rd LINE_TX_STAT_BANK l
  (List.range 32).map fun j =>
    if s.rd LINE_TX_BANK_B l x j = 0 then none else some ((s.rdi LINE_TX_BANK_G l x j : Rat) / 10)

/-- A gain of a ramp at a tick; a subcarrier sends nothing where one of its ends has no gain. -/
def Ramp.gainAt (r : Ramp) (t : Nat) (lo hi : Option Rat) : Option Rat :=
  lo.bind fun a => hi.map fun b => if r.tEnd ≤ t then b else a + (b - a) * fracAt r.segs 0 (t - r.t0)

/-- The gains in force (R230). -/
def State.gainsNow (s : State) (l : Nat) : List (Option Rat) :=
  match (s.line l).ramp with
  | some r => List.zipWith (r.gainAt s.now) r.gLo r.gHi
  | none => s.bankGains l

/-- The share of each subcarrier in the total output now, in units of 10^-10 (R230, R232). -/
def State.shares (s : State) (l : Nat) : List Nat := sharesOf (s.gainsNow l)

/-- The ends of a subcarrier's gain when gain `a` in force gives way to gain `b`: one that is switched on comes from 40 dB
below its share, one that is switched off goes to 40 dB below it (R225). -/
def gainEnds (a b : Option Rat) : Option Rat × Option Rat :=
  match a, b with
  | some x, some y => (some x, some y)
  | some x, none => (some x, some (x - 40))
  | none, some y => (some (y - 40), some y)
  | none, none => (none, none)

/-- The ramp of profile `p` starting now between two levels and between two sets of gains, and how many cases of
`LINE_PROF_BAD` it meets (R225, R230, R231). -/
def State.makeRamp (s : State) (l p : Nat) (lo hi : Rat) (from_ to_ : List (Option Rat)) : Ramp × Nat :=
  let (segs, full) := cutSegs (s.profile l p)
  let len := (segs.map (·.1)).sum * ticksTenth
  let ovr := p = 3 ∧ 80 * ticksTenth < len
  let ends := List.zipWith gainEnds from_ to_
  (⟨segs, lo, hi, s.now, s.now + (if ovr then 80 * ticksTenth else len), ends.map (·.1), ends.map (·.2)⟩,
   (if full then 0 else 1) + (if ovr then 1 else 0))

/-- `LINE_TX_STAT.RAMPING` follows the ramp (R230). -/
def State.showRamping (s : State) (l : Nat) : State := s.wr LINE_TX_STAT_RAMPING (b2n (s.line l).ramp.isSome) l

/-- A ramp starts; the one it interrupts is abandoned (R230). -/
def State.startRamp (s : State) (l p : Nat) (lo hi : Rat) (from_ to_ : List (Option Rat)) : State :=
  let (r, bad) := s.makeRamp l p lo hi from_ to_
  ((s.setLine l { s.line l with ramp := some r }).count LINE_PROF_BAD l bad).showRamping l

/-- `LINE_TX_CTL.POWER` in dBm. -/
def State.powerDbm (s : State) (l : Nat) : Rat := (s.rdi LINE_TX_CTL_POWER l : Rat) / 10

/-! ### Banks and formats (R217, R218, R220) -/

/-- Numerator and denominator of an inner rate. -/
def innerRate (i : Nat) : Nat × Nat := if i = 0 then (4, 5) else if i = 1 then (5, 6) else (7, 8)

/-- Whether V × 129/128 ≤ C for net rate `n` (100 Gb/s), inner rate `i` and S (R217). -/
def rateFits (n i sum : Nat) : Bool :=
  decide (n * 100 * 129 * 8 * (innerRate i).2 ≤ 18900 * (innerRate i).1 * sum)

/-- Q of a loading: information bits of a multiframe (R267). -/
def LoadReq.infoBits (r : LoadReq) : Nat := 4725000 * r.bs.sum * (innerRate r.inner).1 / (innerRate r.inner).2

/-- The loading of the bring-up format (R218). -/
def bringUp : LoadReq := ⟨0, 0, 9, List.replicate 32 2, List.replicate 32 0⟩

/-- The contents of transmit bank `x`. -/
def State.txBank (s : State) (l x : Nat) : LoadReq :=
  ⟨0, s.rd LINE_TX_BANK_INNER l x, s.rd LINE_TX_BANK_RATE l x,
   (List.range 32).map fun j => s.rd LINE_TX_BANK_B l x j, (List.range 32).map fun j => s.rd LINE_TX_BANK_G l x j⟩

/-- Transmit bank `x` loaded. -/
def State.setTxBank (s : State) (l x : Nat) (r : LoadReq) : State :=
  let s := (s.wr LINE_TX_BANK_RATE r.rate l x).wr LINE_TX_BANK_INNER r.inner l x
  (List.range 32).foldl
    (fun s j => (s.wr LINE_TX_BANK_B (r.bs.getD j 0) l x j).wr LINE_TX_BANK_G (r.gs.getD j 0) l x j) s

/-- Whether two loadings are the same but for their SEQ. -/
def sameLoading (a b : LoadReq) : Bool :=
  a.inner = b.inner && a.rate = b.rate && a.bs = b.bs && a.gs = b.gs

/-- Whether a switch between two loadings is hitless (R224). -/
def hitless (a b : LoadReq) : Bool :=
  a.inner = b.inner && (a.bs.map fun x => decide (x = 0)) = (b.bs.map fun x => decide (x = 0))

/-- The active bank becomes `x`: the format in force and whether it is the bring-up format are shown. -/
def State.activateTx (s : State) (l x : Nat) : State :=
  let b := s.txBank l x
  (((s.wr LINE_TX_STAT_BANK x l).wr LINE_TX_STAT_INNER b.inner l).wr LINE_TX_STAT_RATE b.rate l).wr
    LINE_TX_STAT_BRINGUP (b2n (sameLoading b bringUp)) l

/-- A pending switch is cancelled, and its answer no longer sent (R226). -/
def State.cancelSwitch (s : State) (l : Nat) : State := s.setLine l { s.line l with switchMf := none, ackSeq := none }

/-! ### Leaving light (R228, R229) -/

/-- A command that waits for a line's transmitter completes. -/
def State.completeOpt (s : State) (tag : Option Nat) (status : Nat) : State :=
  match tag with
  | some t => s.complete t status
  | none => s

/-- The commands that waited for LIT complete `E_STATE` when the transmitter will not reach it. -/
def State.enableFails (s : State) (l : Nat) : State :=
  let x := s.line l
  ((s.setLine l { x with enTag := none, powTag := none, enable := none }).completeOpt x.enTag eState).completeOpt
    x.powTag eState

/-- The DISABLE ramp from RAMP_UP or LIT (R229): by command, or when the line domain is shed. -/
def State.lineDisable (s : State) (l : Nat) : State :=
  let lv := s.levelNow l
  (((s.cancelSwitch l).enableFails l).startRamp l 1 lv (lv - 40) (s.gainsNow l) (s.gainsNow l)).setTx l txRampDown

/-- The SHUTDOWN ramp from a lit or ramping state (R229): mains loss or laser fault. -/
def State.lineShutdown (s : State) (l : Nat) : State :=
  let lv := s.levelNow l
  (((s.cancelSwitch l).enableFails l).startRamp l 3 lv (lv - 40) (s.gainsNow l) (s.gainsNow l)).setTx l txShut

/-- The transmitter is DARK: modulation has stopped, the VOA is closed, the laser is off (R229).  RATE is 0; BRINGUP and
INNER stay (R237). (DESIGN CHOICE, log entry 133.) -/
def State.lineDark (s : State) (l : Nat) : State :=
  let x := s.line l
  let s := s.setLine l { x with ramp := none, disTag := none, calDone := none, txFreq := none, txTest := none }
  (((s.setTx l txDark).wr LINE_TX_STAT_RATE 0 l).showRamping l).completeOpt x.disTag eOk

/-! ### The receiver's local oscillator follows (R239) -/

/-- States of `LINE_RX_STAT.STATE` (R256). -/
def rxOff : Nat := 0
def rxTune : Nat := 1
def rxIdle : Nat := 2
def rxSearch : Nat := 3
def rxAcq : Nat := 4
def rxLocked : Nat := 5
def rxHold : Nat := 6

/-- The receiver's state; OFF while the line domain is not ON. -/
def State.rxState (s : State) (l : Nat) : Nat :=
  if s.domOn (lineDomain l) then s.rd LINE_RX_STAT_STATE l else rxOff

/-- The state with the receiver's state set. -/
def State.setRx (s : State) (l st : Nat) : State := s.wr LINE_RX_STAT_STATE st l

/-- The contents of receive bank `x`. -/
def State.rxBank (s : State) (l x : Nat) : LoadReq :=
  ⟨0, s.rd LINE_RX_BANK_INNER l x, s.rd LINE_RX_BANK_RATE l x,
   (List.range 32).map fun j => s.rd LINE_RX_BANK_B l x j, (List.range 32).map fun j => s.rd LINE_RX_BANK_G l x j⟩

/-- Receive bank `x` loaded. -/
def State.setRxBank (s : State) (l x : Nat) (r : LoadReq) : State :=
  let s := (s.wr LINE_RX_BANK_RATE r.rate l x).wr LINE_RX_BANK_INNER r.inner l x
  (List.range 32).foldl
    (fun s j => (s.wr LINE_RX_BANK_B (r.bs.getD j 0) l x j).wr LINE_RX_BANK_G (r.gs.getD j 0) l x j) s

/-- The active receive bank becomes `x`. -/
def State.activateRx (s : State) (l x : Nat) : State :=
  let b := s.rxBank l x
  ((s.wr LINE_RX_STAT_BANK x l).wr LINE_RX_STAT_INNER b.inner l).wr LINE_RX_STAT_RATE b.rate l

/-- The active receive loading. -/
def State.rxActive (s : State) (l : Nat) : LoadReq := s.rxBank l (s.rd LINE_RX_STAT_BANK l)

/-- Whether subcarrier `j` is enabled in the active receive bank. -/
def State.scOn (s : State) (l j : Nat) : Bool := s.rd LINE_RX_BANK_B l (s.rd LINE_RX_STAT_BANK l) j ≠ 0

/-! ### Defects (R290–R293) -/

/-- The defect fields of `LINE_FR_STAT` in rank order. -/
def defectField (d : Nat) : Field :=
  [LINE_FR_STAT_LOS, LINE_FR_STAT_LOF, LINE_FR_STAT_LOM, LINE_FR_STAT_AIS, LINE_FR_STAT_RDI].getD d LINE_FR_STAT_TIM

/-- Whether defect `d` (0 LOS … 5 TIM) holds. -/
def State.defect (s : State) (l d : Nat) : Bool := s.rdb (defectField d) l

/-- Whether the receive side of a line is impaired (R293). -/
def State.impaired (s : State) (l : Nat) : Bool :=
  s.rd LINE_FR_STAT_FSTATE l ≠ 3 || (s.rdb LINE_FR_CTL_MF_EN l && !s.rdb LINE_FR_STAT_IM l) ||
    s.defect l 0 || s.defect l 1 || s.defect l 2 || s.defect l 3 ||
    (s.defect l 5 && s.rdb LINE_FR_CTL_TIM_ACT l)

/-- The route of channel `h` of line `l` (R299). -/
def State.route (s : State) (l h : Nat) : Nat := if h = 0 then s.rd LINE_OH_CTL_ROUTE0 l else s.rd LINE_OH_CTL_ROUTE1 l

/-- The line whose packets line `l` passes through (R304). -/
def State.ptSource (s : State) (l : Nat) : Option Nat :=
  if s.rdb LINE_FR_CTL_PT l then some (s.rd LINE_FR_CTL_PT_SRC l) else none

/-- The lines that take the packet stream of line `l` (R304). -/
def State.ptTargets (s : State) (l : Nat) : List Nat := (List.range 4).filter fun m => s.ptSource m = some l

/-- The slip buffer of a channel with its unread blocks gone (R293). -/
def SlipBuf.emptied (b : SlipBuf) : SlipBuf := { b with blocks := [] }

/-- What an impaired receive side takes away at once (R293, R305): the blocks that wait on the receive paths of its management
data channels, whatever their routes, and the packets that a line passes through from it. -/
def State.emptyRx (s : State) (l : Nat) : State :=
  if s.impaired l then
    let x := s.line l
    let s := s.setLine l { x with slipRx := x.slipRx.map fun e => (e.1, e.2.emptied), stream := [], lost := true, ldc := [], traceOk := false }
    let s := { s with svc := { s.svc with ohOut := s.svc.ohOut.filter fun b => b.1 ≠ l } }
    (s.ptTargets l).foldl
      (fun (s : State) m =>
        let y := s.line m
        s.setLine m { y with
          ptFifo := [], slipTx := y.slipTx.map fun e => (e.1, if s.route m e.1 = 3 then e.2.emptied else e.2) }) s
  else s

/-- Whether a defect above `d` holds. -/
def State.defectAbove (s : State) (l d : Nat) : Bool := (List.range d).any fun i => s.defect l i

/-- The persistence counts of the defects below `d` restart when it clears (R291). (DEDUCED, log entry 86.) -/
def State.restartPersist (s : State) (l d : Nat) : State :=
  let x := s.line l
  let x : LineSt := if d < 1 then { x with fsAt := s.now } else x
  let x : LineSt := if d < 2 then { x with imAt := s.now } else x
  let x : LineSt := if d < 3 then { x with aisRun := 0, aisOff := 0 } else x
  s.setLine l (if d < 4 then { x with rdiRun := 0, rdiOff := 0 } else x)

/-- Defect `d` no longer holds: `LINE_FR_DEFECT` is raised (R290). -/
def State.dropDefect (s : State) (l d : Nat) : State :=
  if s.defect l d then
    let s := ((s.wr (defectField d) 0 l).occur LINE_FR_DEFECT l).restartPersist l d
    if d = 4 then s.setLine l { s.line l with rdiAt := none } else s
  else s

/-- Defect `d` is declared, unless a higher one holds; every lower one clears (R290, R291). -/
def State.declareDefect (s : State) (l d : Nat) : State :=
  if s.defect l d || s.defectAbove l d then s
  else
    let s := (List.range 6).foldl (fun s i => if d < i then s.dropDefect l i else s) s
    let s := (s.wr (defectField d) 1 l).wr LINE_FR_DEF (s.rd LINE_FR_DEF l ||| 2 ^ (5 - d)) l
    let s := s.occur LINE_FR_DEFECT l
    let x := s.line l
    (s.setLine l { x with
      rdiAt := if d = 4 then some s.now else x.rdiAt
      lofAt := if d = 1 then s.now else x.lofAt }).emptyRx l

/-- TIM follows the traces and TIM_EN (R290, R302); ACC_VALID cleared leaves a declared TIM as it is. -/
def State.updateTim (s : State) (l : Nat) : State :=
  let differ := (List.range 16).any fun i => s.rd LINE_TTI_ACC l i ≠ s.rd LINE_TTI_EXP l i
  let valid := s.rdb LINE_TTI_STAT_ACC_VALID l
  if !s.rdb LINE_FR_CTL_TIM_EN l then s.dropDefect l 5
  else if valid && differ then s.declareDefect l 5
  else if valid then s.dropDefect l 5
  else s

/-- Defect `d` clears; TIM, which has no persistence, is declared at once where only `d` kept it from it (R290, R291). -/
def State.clearDefect (s : State) (l d : Nat) : State :=
  if s.defect l d then (s.dropDefect l d).updateTim l else s

/-! ### Frame alignment leaves and enters (R287, R289) -/

/-- FSTATE changes; the multiframe state leaves IM unless the state is IF, and the persistence counts of
LOF and LOM run anew. -/
def State.setFstate (s : State) (l st : Nat) : State :=
  let old := s.rd LINE_FR_STAT_FSTATE l
  let s := s.wr LINE_FR_STAT_FSTATE st l
  let s := if (old = 3) = (st = 3) then s else s.setLine l { s.line l with fsAt := s.now, imAt := s.now }
  if st = 3 then s
  else
    let s := (s.wr LINE_FR_STAT_IM 0 l).wr LINE_FR_BLK_LOCK 0 l
    (s.setLine l { s.line l with
      mfLast := none, mfMiss := 0, bipPrev := none, codes := { tail := (s.line l).codes.tail }, badRows := []
      mdc0 := [], mdc1 := [] }).emptyRx l

/-- HUNT is entered with no candidates (R287). -/
def State.toHunt (s : State) (l : Nat) : State :=
  ((s.setFstate l 1).wr LINE_FR_STAT_CAND 0 l).setLine l
    { (s.setFstate l 1).line l with cands := [], preSlots := 0, preRun := 0, miss := 0, bptrBad := 0, rePos := none }

/-- The rate or load command of a line ends when the receive side is no longer aligned: with 16 while it waits to compute,
with 18 once its request is under way (R228, R263). (DEDUCED, log entry 84.) -/
def State.loadFails (s : State) (l : Nat) : State :=
  match (s.line l).load with
  | none => s
  | some c =>
    (s.setLine l { s.line l with load := none }).complete c.tag eState 0 (if c.stage = .window then 16 else 18)

/-- The receiver leaves LOCKED: frame alignment goes OFF, the accepted trace is no longer valid, the window
is abandoned, and a rate or load command ends (R228, R260, R263, R287, R302).  A switch that has been announced stays so
(R223, R258). -/
def State.leaveLocked (s : State) (l : Nat) : State :=
  let s := ((s.setFstate l 0).wr LINE_FR_STAT_CAND 0 l).wr LINE_TTI_STAT_ACC_VALID 0 l
  (s.setLine l { s.line l with cands := [], codes := {}, badRows := [], winTest := false }).loadFails l

/-- Slips, and in a test bit errors, that no window end has reported when LOCKED or ACQ is left: their numbers are open
(R254, R264). (DESIGN CHOICE, log entry 119.) -/
def State.countUnseen (s : State) (l : Nat) : State :=
  let s := (s.count LINE_RX_SLIP l s.open_).used
  if (s.line l).winTest then
    (List.range 32).foldl (fun s j => if s.scOn l j then (s.count LINE_RX_TEST_ERR (32 * l + j) s.open_).used else s) s
  else s

/-- The receiver moves to a state, leaving LOCKED if it was there; every subcarrier goes OFF unless the new
state keeps the equalisers (R252, R256). -/
def State.rxTo (s : State) (l st : Nat) : State :=
  let old := s.rxState l
  let s := if (old = rxLocked ∨ old = rxAcq) ∧ st ≠ old then s.countUnseen l else s
  let s := if old = rxLocked ∧ st ≠ rxLocked then s.leaveLocked l else s
  let s := s.setRx l st
  if st = rxAcq ∨ st = rxLocked ∨ st = rxHold then s
  else (List.range 32).foldl (fun s j => s.wr LINE_RX_SCS_STATE 0 l j) s

/-- SIG becomes 0, which declares LOS (R241, R290). -/
def State.sigOff (s : State) (l : Nat) : State := (s.wr LINE_RX_STAT_SIG 0 l).declareDefect l 0

/-- The receive frequency of a line (R239). -/
def State.rxTarget (s : State) (l : Nat) : Int :=
  if s.rdb LINE_RX_CTL_FOLLOW l then s.rdi LINE_TX_CTL_FREQ l else s.rdi LINE_RX_CTL_FREQ l

/-- The LO is tuned: the receiver is in TUNE, with no signal indication (R239, R256). -/
def State.rxTuneNow (s : State) (l : Nat) : State :=
  let s := (s.rxTo l rxTune).sigOff l
  s.setLine l { s.line l with tuneAt := s.now, rxFreq := some (s.rxTarget l) }

/-- A retune restarts the receiver from TUNE (R239). -/
def State.rxRetune (s : State) (l : Nat) : State :=
  if s.rxState l = rxOff then s else s.rxTuneNow l

/-! ### Transmit calibration (R235, R236) -/

/-- The set of a temperature point as stored: IQ skew X, Y and X–Y in fs, gains in 0.001 dB, phases in
0.01°; a factory set is not known to the model. -/
def calSet (base : Nat) (sets : List (Nat × Option (List Int))) (l k : Nat) : List Int :=
  match sget (fun _ => none) sets k with
  | some v => v
  | none => (List.range 7).map fun i => signed 14 (Config.stored (base + 8 * l + k) i % 2 ^ 14)

/-- The interpolated set at a die temperature in 0.5 °C, held constant beyond the end points (R235). (DEDUCED, log entry 83.) -/
def interpSet (f : Nat → List Int) (temp : Int) : List Int :=
  if temp ≤ 60 then f 0
  else if 200 ≤ temp then f 7
  else
    let k := ((temp - 60) / 20).toNat
    let d := (temp - 60) % 20
    List.zipWith (fun a b => a + (b - a) * d / 20) (f k) (f (k + 1))

/-- The filters of the four DACs of a temperature point as stored (R233, R235, R236). -/
def State.tapSet (s : State) (l k : Nat) : List (List Int) :=
  (sget (fun _ => none) (s.line l).txTapSets k).getD
    ((List.range 4).map fun a => (List.range 33).map fun i => Config.dacTap l k a i)

/-- The filters of the four DACs at a die temperature (R235). -/
def State.interpTaps (s : State) (l : Nat) (temp : Int) : List (List Int) :=
  (List.range 4).map fun a => interpSet (fun k => (s.tapSet l k).getD a []) temp

/-- The largest step of each value per update (R235). -/
def calStep : List Int := [50, 50, 50, 20, 20, 10, 10]

/-- The limit of each value (R236). -/
def calLimit : List Int := [3000, 3000, 10000, 1000, 1000, 500, 500]

/-- Values moved toward their target by bounded steps. -/
def calMove : List Int → List Int → List Int → List Int
  | a :: as_, b :: bs, d :: ds => clampInt (a - d) (a + d) b :: calMove as_ bs ds
  | _, _, _ => []

/-- Whether every value is within its limit. -/
def calWithin (v : List Int) : Bool := decide (v.length = 7) && (List.zipWith (fun a b => decide (|a| ≤ b)) v calLimit).all id

/-- A value in register units, rounded to the nearest. (DEDUCED, log entry 83.) -/
def roundTo (unit v : Int) : Int := (v + unit / 2) / unit

/-- The transmit values in force are shown (R237). -/
def State.showTxCal (s : State) (l : Nat) (temp : Int) : State :=
  let v := (s.line l).txCal
  let g := fun i unit => roundTo unit (v.getD i 0)
  let s := ((s.wri LINE_TX_CALV_SKEW_X (g 0 20) l).wri LINE_TX_CALV_SKEW_Y (g 1 20) l).wri LINE_TX_CALV_SKEW_XY (g 2 100) l
  let s := ((s.wri LINE_TX_CALV_GAIN_X (g 3 10) l).wri LINE_TX_CALV_GAIN_Y (g 4 10) l).wri LINE_TX_CALV_PHASE_X (g 5 10) l
  (s.wri LINE_TX_CALV_PHASE_Y (g 6 10) l).wri LINE_TX_CALV_TEMP temp l

/-- The temperature point nearest to a die temperature in 0.5 °C. -/
def nearestPoint (temp : Int) : Nat := (clampInt 0 7 ((temp - 60 + 10) / 20)).toNat

/-- LINE_TX_CAL_UPDATE (R235, R236): every 100 ms, by the running L-core; a calibration that belongs to no temperature
point is what the values stay at until the next one.  The filters follow the temperature at once: R235 bounds no step of
theirs. (DEDUCED, log entry 83; DESIGN CHOICE, log entry 117.) -/
def execLineTxCalUpdate (l : Fin 4) (temp : Int) (s : State) : Host.Outcome State Fault Refusal :=
  .next (
    let x := s.line l
    if s.coreState (72 + l.val) = cRunning ∧ x.txCalAt + ticksSec / 10 ≤ s.now then
      let (vals, taps) := x.txOwn.getD (interpSet (calSet 0o402000000 x.txSets l) temp, s.interpTaps l temp)
      (s.setLine l { x with txCal := calMove x.txCal vals calStep, txTaps := taps, txCalAt := s.now }).showTxCal l temp
    else s)

/-! ### Events of the transmitter (R229) -/

/-- LINE_ENABLE_START (R229, R239). -/
def execLineEnableStart (l : Fin 4) (s : State) : Host.Outcome State Fault Refusal :=
  .next (
    match (s.line l).enable with
    | none => s
    | some (tag, lp) =>
      if s.txState l = txDark ∧ lp ≤ s.now then
        let s := (s.setLine l { s.line l with
          enable := none, enTag := some tag, calAt := s.now, calDone := none, txFreq := some (s.rdi LINE_TX_CTL_FREQ l) }).setTx l txCal
        if s.rdb LINE_RX_CTL_FOLLOW l then s.rxRetune l else s
      else s)

/-- LINE_CAL_DONE (R229, R233, R236): the laser is locked and the calibration has given `vals` and the filters `taps` at die
temperature `temp`. (DEDUCED, log entry 83; DESIGN CHOICE, log entry 117.) -/
def execLineCalDone (l : Fin 4) (temp : Int) (vals : List Int) (taps : List (List Int)) (s : State) :
    Host.Outcome State Fault Refusal :=
  .next (
    let x := s.line l
    if s.txState l = txCal ∧ x.calDone = none then
      let k := nearestPoint temp
      let s :=
        if calWithin vals then
          let near := decide (|temp - (60 + 20 * (k : Int))| ≤ 10)
          let x : LineSt := if near then { x with
              txSets := sput (fun _ => none) x.txSets k (some vals), txTapSets := sput (fun _ => none) x.txTapSets k (some taps)
              txOwn := none }
            else { x with txOwn := some (vals, taps) }
          (((s.setLine l { x with txCal := vals, txTaps := taps }).showTxCal l temp).wr
              LINE_TX_STAT_CAL_OK 1 l).occur LINE_TX_CAL_DONE l
        else ((s.setLine l { x with txOwn := none }).wr LINE_TX_STAT_CAL_OK 0 l).occur LINE_TX_CAL_FAIL l
      let s := (s.setTxBank l 0 bringUp).setTxBank l 1 bringUp
      s.setLine l { s.line l with calDone := some s.now }
    else s)

/-- LINE_CAL_TIMEOUT (R229). -/
def execLineCalTimeout (l : Fin 4) (s : State) : Host.Outcome State Fault Refusal :=
  .next (
    let x := s.line l
    if s.txState l = txCal ∧ x.calDone = none ∧ x.calAt + 200 * ticksMs ≤ s.now then
      let s := s.enableFails l
      ((s.setLine l { s.line l with txFreq := none }).setTx l txDark).occur LINE_TX_FAULT l
    else s)

/-- LINE_TX_MODULATION_START (R229, R230): at a multiframe boundary after the calibration. -/
def execLineTxModulationStart (l : Fin 4) (s : State) : Host.Outcome State Fault Refusal :=
  .next (
    match (s.line l).calDone with
    | none => s
    | some t =>
      if s.txState l = txCal ∧ t / ticksMf < s.now / ticksMf then
        let s := s.setLine l { s.line l with 
          calDone := none, lastEval := none, ackSeq := none, ackOnce := none, reqSeq := 0, reqIn := none, txFrame := none, txPos := 0
          txBip := 0, txRest := [], chain := {}, txTest := none }
        let s := s.activateTx l (s.rd LINE_TX_STAT_BANK l)
        (s.startRamp l 0 (s.powerDbm l - 40) (s.powerDbm l) (s.bankGains l) (s.bankGains l)).setTx l txRampUp
      else s)

/-- LINE_RAMP_END (R225, R229, R230): the ramp whose end has come ends; a subcarrier that was switched off sends nothing
from then on. -/
def execLineRampEnd (l : Fin 4) (s : State) : Host.Outcome State Fault Refusal :=
  .next (
    let x := s.line l
    match x.ramp with
    | none => s
    | some r =>
      if s.domOn (lineDomain l) ∧ r.tEnd ≤ s.now then
        let s := (s.setLine l { s.line l with ramp := none, level := r.hi }).showRamping l
        let st := s.rd LINE_TX_STAT_STATE l
        if st = txRampUp then
          (((s.setLine l { s.line l with enTag := none }).setTx l txLit).completeOpt x.enTag eOk)
        else if st = txRampDown ∨ st = txShut then (s.lineDark l).beginFalls
        else (s.setLine l { s.line l with powTag := none }).completeOpt x.powTag eOk
      else s)

/-- LINE_LASER_FAULT (R229). -/
def execLineLaserFault (l : Fin 4) (s : State) : Host.Outcome State Fault Refusal :=
  .next (
    let st := s.txState l
    if st = txRampUp ∨ st = txLit ∨ st = txRampDown then (s.lineShutdown l).occur LINE_TX_FAULT l else s)

/-- A write of `LINE_TX_CTL` that changes POWER while LIT starts a CHANGE ramp; the shares move on to those of the format in
force (R225, R230). -/
def State.wroteTxCtl (s : State) (l power : Nat) : State :=
  if s.txState l = txLit ∧ s.rd LINE_TX_CTL_POWER l ≠ power then
    s.startRamp l 2 (s.levelNow l) (s.powerDbm l) (s.gainsNow l) (s.bankGains l)
  else s

/-! ### Requests and switches (R221–R226) -/

/-- The REASON a request meets (R222). -/
def State.judgeReq (s : State) (l : Nat) (r : LoadReq) : Nat :=
  if s.txState l ≠ txLit then 6
  else if !s.rdb LINE_TX_CTL_REMOTE_EN l then 2
  else if (s.line l).switchMf.isSome then 1
  else if r.bs.any (fun b => b = 1 || 8 < b) || r.inner = 3 || r.rate < 4 || 32 < r.rate then 4
  else if (List.range 32).any (fun j => r.bs.getD j 0 ≠ 0 && !(s.rd LINE_TX_MASK l).testBit j) then 3
  else if !rateFits r.rate r.inner r.bs.sum then 5
  else 0

/-- LOAD_REQ_EVALUATE (R221–R223). (DEDUCED, log entry 85.) -/
def execLoadReqEvaluate (l : Fin 4) (s : State) : Host.Outcome State Fault Refusal :=
  .next (
    let x := s.line l
    match x.reqIn with
    | none => s
    | some (r, t) =>
      if s.domOn (lineDomain l) ∧ t / ticksMf < s.now / ticksMf then
        let old := match x.lastEval with
          | some (q, reason) => if q = r.seq then some reason else none
          | none => none
        let reason := old.getD (s.judgeReq l r)
        let s := s.setLine l { x with reqIn := none, lastEval := some (r.seq, reason) }
        if reason ≠ 0 ∨ (old.isSome ∧ x.ackSeq ≠ some r.seq) then s.setLine l { s.line l with ackOnce := some (r.seq, reason) }
        else if old.isSome then s
        else
          let s := (s.setTxBank l (1 - s.rd LINE_TX_STAT_BANK l) r).wr LINE_TX_STAT_SEQ r.seq l
          s.setLine l { s.line l with ackSeq := some r.seq, switchMf := some (s.now / ticksMf + 16) }
      else s)

/-- The transmit side changes to its other bank (R220, R223–R225); a switch that is not `keep` starts the codes anew. (DEDUCED, log entry 85.) -/
def State.switchTx (s : State) (l : Nat) (keep : Bool) : State :=
  let x := s.line l
  let gains := s.gainsNow l
  let s := (s.setLine l { x with
    switchMf := none, ackSeq := none, swFrame := some (s.now / ticksLf)
    txPos := if keep then x.txPos else 0, chain := if keep then x.chain else {} }).activateTx l (1 - s.rd LINE_TX_STAT_BANK l)
  if gains = s.bankGains l then s else s.startRamp l 2 (s.levelNow l) (s.powerDbm l) gains (s.bankGains l)

/-- Whether the pending switch of the transmit side is hitless (R224). -/
def State.txHitless (s : State) (l : Nat) : Bool :=
  hitless (s.txBank l (s.rd LINE_TX_STAT_BANK l)) (s.txBank l (1 - s.rd LINE_TX_STAT_BANK l))

/-- Whether the transmit side falls back at the multiframe boundary at which the present line frame starts (R226). -/
def State.txFallbackDue (s : State) (l : Nat) : Bool :=
  s.rdb LINE_TX_CTL_FALLBACK l && s.txState l = txLit && s.now / ticksLf % 256 = 0 &&
    (s.line l).rdiAt.any fun t => decide (t + 64 * ticksMf ≤ s.now / ticksMf * ticksMf)

/-- LINE_TX_FALLBACK (R226): the bring-up format from the first multiframe boundary after 64 multiframes of RDI that shares
its line frame with no handover or dispersion step (R245); the switch is never hitless. (DEDUCED, log entry 85.) -/
def execLineTxFallback (l : Fin 4) (s : State) : Host.Outcome State Fault Refusal :=
  .next (
    if s.txFallbackDue l ∧ s.now % ticksMf = 0 ∧ (s.line l).stepFrame ≠ some (s.now / ticksLf) then
      let s := s.cancelSwitch l
      let s := (s.setTxBank l (1 - s.rd LINE_TX_STAT_BANK l) bringUp).switchTx l false
      (s.setLine l { s.line l with rdiAt := some s.now }).occur LINE_TX_FALLBACK l
    else s)

/-! ### The loading computation (R219) -/

/-- Entry `b` of a threshold or margin table: words `w0`, `w1`, in 0.1 dB. -/
def tableEntry (w0 w1 b : Nat) : Int :=
  let k := b - 2
  if k < 4 then bitsOf w0 (9 * (3 - k) + 8) (9 * (3 - k)) else bitsOf w1 (9 * (7 - k) + 8) (9 * (7 - k))

/-- The margin m_j at `b` for inner rate `i` and an SNR (R219). -/
def State.margin (s : State) (l i j : Nat) (snr : Int) (b : Nat) : Int :=
  let (t0, t1) :=
    if i = 0 then (s.rd LINE_LOAD_T0_0 l, s.rd LINE_LOAD_T0_1 l)
    else if i = 1 then (s.rd LINE_LOAD_T1_0 l, s.rd LINE_LOAD_T1_1 l)
    else (s.rd LINE_LOAD_T2_0 l, s.rd LINE_LOAD_T2_1 l)
  let d := bitsOf (s.rd LINE_LOAD_D l (j / 4)) (9 * (3 - j % 4) + 8) (9 * (3 - j % 4))
  snr - tableEntry t0 t1 b - tableEntry (s.rd LINE_LOAD_M_0 l) (s.rd LINE_LOAD_M_1 l) b - signed 9 d

/-- The largest b from 8 down to 2 with a margin of at least 0. -/
def largestB (m : Nat → Int) : Nat → Option Nat
  | 0 => none
  | k + 1 => if 0 ≤ m (k + 2) then some (k + 2) else largestB m k

/-- Least S for a net rate: S_req of R219. -/
def sReq (n i : Nat) : Nat := ceilDiv (n * 100 * 129 * 8 * (innerRate i).2) (18900 * (innerRate i).1)

/-- The subcarrier to trim next: b at least 3, least margin, then higher b, then lower j. -/
def trimNext (m : Nat → Nat → Int) (bs : List Nat) : Option Nat :=
  (List.range 32).foldl
    (fun best j =>
      let b := bs.getD j 0
      if b < 3 then best
      else match best with
        | none => some j
        | some k =>
          let c := bs.getD k 0
          if m j b < m k c ∨ (m j b = m k c ∧ c < b) then some j else some k)
    none

/-- Trims the loading to S_req bits. (DEDUCED, log entry 84.) -/
def trim (m : Nat → Nat → Int) (sReq : Nat) : Nat → List Nat → List Nat
  | 0, bs => bs
  | n + 1, bs =>
    if bs.sum ≤ sReq then bs
    else match trimNext m bs with
      | none => bs
      | some j => trim m sReq n (bs.set j (bs.getD j 0 - 1))

/-- The highest net rate, in 100 Gb/s, that S bits carry; 0 below 400 Gb/s (R219). (DEDUCED, log entry 84.) -/
def bestRate (i sum : Nat) : Nat := ((List.range 33).filter fun n => 4 ≤ n && rateFits n i sum).foldl max 0

/-- A loading request is sent: the command waits for its answer and no longer holds the line (R189). -/
def State.sendReq (s : State) (l : Nat) (c : LoadCmd) (r : LoadReq) : State :=
  let x := s.line l
  let r := { r with seq := x.reqSeq }
  let s := s.setLine l { x with reqSeq := (x.reqSeq + 1) % 256, load := some { c with req := some r, stage := .sent none } }
  match s.cmdAt c.tag with
  | some k => s.setCmd c.tag (some { k with holds := false })
  | none => s

/-- The result word of a completed `LINE.RATE` or `LINE.LOAD`; the spec states none for OK. (DESIGN CHOICE, log entry 63; DEDUCED, log entry 84.) -/
def State.loadOk (s : State) (l tag : Nat) : State :=
  let v := s.open_ % 2 ^ 36
  (s.used.setLine l { s.line l with load := none }).complete tag eOk 0 v

/-- The computation of R219 runs for a command, from the figures of a valid window. (DEDUCED, log entry 84.) -/
def State.computeLoad (s : State) (l : Nat) (c : LoadCmd) (snr : List Nat) : State :=
  let cur := s.rxActive l
  let m := fun j b => s.margin l c.inner j (snr.getD j 0) b
  let first := (List.range 32).map fun j =>
    if cur.bs.getD j 0 = 0 then (0, false)
    else match largestB (m j) 7 with
      | some b => (b, false)
      | none => (2, true)
  let s := first.foldl (fun s e => if e.2 then s.occur LINE_LOAD_LOWSNR l else s) s
  let bs := first.map (·.1)
  if bs.sum < sReq c.rate c.inner then
    (s.setLine l { s.line l with load := none }).complete c.tag eRange 0 (bestRate c.inner bs.sum)
  else
    let r : LoadReq := ⟨0, c.inner, c.rate, trim m (sReq c.rate c.inner) 256 bs, cur.gs⟩
    if sameLoading r cur then s.loadOk l c.tag else s.sendReq l c r

/-- A rate or load command that waits for figures computes once they are there and the L-core runs an image, the reference
image or another (R219). (DEDUCED, log entry 84.) -/
def State.tryLoad (s : State) (l : Nat) : State :=
  match (s.line l).load, (s.line l).snr with
  | some c, some snr =>
    if c.stage = .window ∧ s.coreState (72 + l) = cRunning then s.computeLoad l c snr else s
  | _, _ => s

/-- Whether the receive side is frame-aligned (R228, R256, R287). -/
def State.rxAligned (s : State) (l : Nat) : Bool := s.rxState l = rxLocked && s.rd LINE_FR_STAT_FSTATE l = 3

/-- Starts a `LINE.RATE` or `LINE.LOAD` MODE 0 (R219, R228, R263). -/
def State.startLoad (s : State) (l tag inner rate : Nat) : State :=
  if (s.line l).load.isSome then s.complete tag eBusy
  else if !s.rxAligned l then s.complete tag eState 0 16
  else (s.setLine l { s.line l with load := some ⟨tag, inner, rate, none, .window⟩ }).tryLoad l

/-! ### Commands (R227, R228, R303) -/

/-- The line of a `LINE` command. -/
def Cmd.ln (c : Cmd) : Nat := (c.w 0).bits 35 34

/-- `LINE.ENABLE` (R227, R228); E_STATE in the states that R228 does not name. (DESIGN CHOICE, log entry 132.) -/
def State.cmdLineEnable (c : Cmd) (s : State) : State :=
  s.unreserved c [mask 35 33 + 3, mask 35 17] fun s =>
    let l := c.ln
    let freq := signed 10 ((c.w 1).bits 35 26)
    let pow := signed 9 ((c.w 1).bits 25 17)
    let lp := lpTicks (c.w 2).toNat (c.w 3).toNat
    let st := s.txState l
    let put := fun (s : State) =>
      (((s.wri LINE_TX_CTL_FREQ freq l).wri LINE_TX_CTL_POWER pow l).wr LINE_TX_CTL_REMOTE_EN (b2n ((c.w 0).bit 1)) l).wr
        LINE_TX_CTL_FALLBACK (b2n ((c.w 0).bit 0)) l
    if !lpOk (c.w 3).toNat then s.complete c.tag eReserved 3
    else if (c.w 0).bit 33 then
      if freq < -256 ∨ 448 < freq ∨ pow < -120 ∨ 30 < pow then s.complete c.tag eRange
      else if st = txOff then s.complete c.tag eState
      else if st = txDark then
        if lp ≠ 0 ∧ lp < s.now then s.complete c.tag eLate
        else (put s).setLine l { s.line l with enable := some (c.tag, lp) }
      else if st = txLit then
        if s.rdi LINE_TX_CTL_FREQ l ≠ freq then s.complete c.tag eState
        else
          let old := s.rd LINE_TX_CTL_POWER l
          let s := put s
          if s.rd LINE_TX_CTL_POWER l = old then s.complete c.tag eOk
          else (s.wroteTxCtl l old).setLine l { (s.wroteTxCtl l old).line l with powTag := some c.tag }
      else s.complete c.tag eState
    else if st = txRampUp ∨ st = txLit then (s.lineDisable l).setLine l { (s.lineDisable l).line l with disTag := some c.tag }
    else if st = txRampDown ∨ st = txShut then s.setLine l { s.line l with disTag := some c.tag }
    else if st = txCal then s.complete c.tag eState
    else s.complete c.tag eOk

/-- `LINE.RATE` (R219, R227, R228). -/
def State.cmdLineRate (c : Cmd) (s : State) : State :=
  s.unreserved c [mask 35 34 + mask 7 0, 0] fun s =>
    let i := (c.w 0).bits 7 6
    let n := (c.w 0).bits 5 0
    if i = 3 ∨ n < 4 ∨ 32 < n then s.complete c.tag eReserved else s.startLoad c.ln c.tag i n

/-- The explicit table of `LINE.LOAD` MODE 1. -/
def Cmd.table (c : Cmd) : LoadReq :=
  ⟨0, (c.w 0).bits 7 6, (c.w 0).bits 5 0, (List.range 32).map fun j => (c.w (2 + j)).bits 35 32,
   (List.range 32).map fun j => (c.w (2 + j)).bits 31 26⟩

/-- `LINE.LOAD` (R227, R228). -/
def State.cmdLineLoad (c : Cmd) (s : State) : State :=
  let l := c.ln
  let mode := (c.w 0).bits 9 8
  if mode = 1 then
    s.unreserved c ([mask 35 34 + mask 9 0, 0] ++ List.replicate 32 (mask 35 26)) fun s =>
      let r := c.table
      match (List.range 32).find? fun j => r.bs.getD j 0 = 1 || 8 < r.bs.getD j 0 with
      | some j => s.complete c.tag eReserved j
      | none =>
        if r.inner = 3 ∨ r.rate < 4 ∨ 32 < r.rate then s.complete c.tag eReserved
        else if !rateFits r.rate r.inner r.bs.sum then s.complete c.tag eRange
        else if (s.line l).load.isSome then s.complete c.tag eBusy
        else if !s.rxAligned l then s.complete c.tag eState 0 16
        else s.sendReq l ⟨c.tag, r.inner, r.rate, none, .window⟩ r
  else
    s.unreserved c [mask 35 34 + mask 9 8, 0] fun s =>
      if mode ≠ 0 then s.complete c.tag eReserved
      else s.startLoad l c.tag (s.rd LINE_RX_STAT_INNER l) (s.rd LINE_RX_STAT_RATE l)

/-- `LINE.TRACE` (R303). -/
def State.cmdLineTrace (c : Cmd) (s : State) : State :=
  let lanes := mask 7 0 + mask 16 9 + mask 25 18 + mask 34 27
  let part := fun (on : Bool) => List.replicate 16 (if on then lanes else mask 35 0)
  let tx := (c.w 0).bit 33
  let ex := (c.w 0).bit 32
  s.unreserved c ([mask 35 30, 0] ++ part tx ++ part ex) fun s =>
    let l := c.ln
    let s := if tx then (List.range 16).foldl (fun s i => s.wr LINE_TTI_TX (c.w (2 + i)).toNat l i) s else s
    let s := if ex then (List.range 16).foldl (fun s i => s.wr LINE_TTI_EXP (c.w (18 + i)).toNat l i) s else s
    let s := (s.wr LINE_FR_CTL_TIM_EN (b2n ((c.w 0).bit 31)) l).wr LINE_FR_CTL_TIM_ACT (b2n ((c.w 0).bit 30)) l
    ((s.updateTim l).emptyRx l).complete c.tag eOk

end Sys2Proof.Machine
end

