-- ==== Sys2Proof/Machine/LineRx.lean ====
section
/-! DEFINITION. The receive side of a coherent line: acquisition, subcarrier equalisers, Telemark, quality
windows and the receiver's half of a format switch (spec/07, R295–R297). -/

namespace Sys2Proof.Machine

open Ev Reg

/-- States of `LINE_RX_SCS.STATE` (R252). -/
def scOff : Nat := 0
def scConverge : Nat := 1
def scTrack : Nat := 2

/-- States of `LINE_FR_STAT.FSTATE` (R287). -/
def fsOff : Nat := 0
def fsHunt : Nat := 1
def fsPresync : Nat := 2
def fsIf : Nat := 3

/-! ### Subcarriers (R252, R259) -/

/-- A subcarrier's equaliser is reset to a centre spike and converges; its 1.2 ms begin after at most `sync` µs of frequency,
clock and pilot acquisition (R252, R256, R257). (DEDUCED, log entry 120.) -/
def State.converge (s : State) (l j : Nat) (sync : Nat := 0) : State :=
  let s := s.wr LINE_RX_SCS_STATE scConverge l j
  let x := s.line l
  s.setLine l { x with
    convAt := sput (fun _ => 0) x.convAt j s.now
    convBy := sput (fun _ => 0) x.convBy j (s.now + (sync + 1200) * ticksUs), untracked := x.untracked ||| 2 ^ j }

/-- Every enabled subcarrier converges and every other is OFF; `sync` as for one. -/
def State.convergeAll (s : State) (l sync : Nat) : State :=
  (List.range 32).foldl
    (fun s j => if s.scOn l j then s.converge l j sync else s.wr LINE_RX_SCS_STATE scOff l j) s

/-- Whether every enabled subcarrier is in TRACK. -/
def State.allTrack (s : State) (l : Nat) : Bool :=
  (List.range 32).all fun j => !s.scOn l j || s.rd LINE_RX_SCS_STATE l j = scTrack

/-- The 8 strongest of the powers found on the subcarriers, on a linear scale: their sum. -/
def strongestSum (pow : List Nat) : Nat :=
  let at_ := fun j => pow.getD j 0
  (((List.range 32).filter fun j =>
    decide (((List.range 32).countP fun k => decide (at_ j < at_ k) || (at_ j = at_ k && decide (k < j))) < 8)).map at_).sum

/-- Whether subcarrier `j` is lit: its power is within 15 dB of the mean of the 8 strongest, a ratio whose square is 1,000
(R259). (DESIGN CHOICE, log entry 137.) -/
def litAt (pow : List Nat) (j : Nat) : Bool :=
  let p := pow.getD j 0
  decide (0 < p) && decide (strongestSum pow * strongestSum pow ≤ 64 * 1000 * p * p)

/-- Whether a switch boundary of the receive side lies less than 2 ms back (R259). -/
def State.rxSwitched (s : State) (l : Nat) : Bool := (s.line l).rxSwAt.any fun t => decide (s.now < t + 2 * ticksMs)

/-- The check of R259 on the powers found on the subcarriers; none is made during the 2 ms after a switch boundary. -/
def State.checkLit (s : State) (l : Nat) (pow : List Nat) : State :=
  if s.rxSwitched l then s
  else
    let s := (List.range 32).foldl (fun s j => s.wr LINE_RX_SCS_ON (b2n (litAt pow j)) l j) s
    if (List.range 32).all fun j => litAt pow j = s.scOn l j then s.wr LINE_RX_STAT_MISMATCH 0 l
    else if s.rdb LINE_RX_STAT_MISMATCH l then s
    else (s.wr LINE_RX_STAT_MISMATCH 1 l).occur LINE_RX_SET_MISMATCH l

/-- The check of R259 on the powers that the receiver finds now, which are open. (DESIGN CHOICE, log entry 114.) -/
def State.findLit (s : State) (l : Nat) : State :=
  (s.used 32).checkLit l ((List.range 32).map fun j => Config.open (s.free + j))

/-! ### Receiver states (R256) -/

/-- The receiver goes OFF. -/
def State.rxGoOff (s : State) (l : Nat) : State :=
  let s := (s.rxTo l rxOff).sigOff l
  s.setLine l { s.line l with telAt := none, telPass := none, rxFreq := none }

/-- The receiver leaves OFF: FAULT clears, both receive banks hold the bring-up format, the LO tunes. -/
def State.rxStart (s : State) (l : Nat) : State :=
  let s := (s.wr LINE_RX_STAT_FAULT 0 l).setRxBank l 0 bringUp |>.setRxBank l 1 bringUp
  let s := (s.activateRx l (s.rd LINE_RX_STAT_BANK l)).rxTuneNow l
  s.setLine l { s.line l with
    rxSwitch := none, snr := none, acqFails := 0
    telAt := if s.rdb LINE_TEL_CTL_EN l then some s.now else none }

/-- An LO fault (R240). -/
def State.rxFault (s : State) (l : Nat) : State :=
  ((s.rxGoOff l).wr LINE_RX_STAT_FAULT 1 l).occur LINE_RX_FAULT l

/-- The dispersion search starts (R249). -/
def State.startSearch (s : State) (l : Nat) : State :=
  let s := s.rxTo l rxSearch
  let full := 2 ≤ (s.line l).acqFails
  s.setLine l { s.line l with
    searchAt := s.now
    cdLo := if full then -20000 else s.rdi LINE_RX_CDWIN_CD_MIN l
    cdHi := if full then 20000 else s.rdi LINE_RX_CDWIN_CD_MAX l }

/-- Every estimate is discarded and the receiver is IDLE; with SIG = 1 the search starts at once. -/
def State.rxIdleNow (s : State) (l : Nat) : State :=
  let s := (((s.wr LINE_RX_CD_EST 0 l).wr LINE_RX_FOFS_FOFS 0 l).wr LINE_RX_FOFS_CLK 0 l).rxTo l rxIdle
  if s.rdb LINE_RX_STAT_SIG l then s.startSearch l else s

/-- SIG = 0 in ACQ or LOCKED: estimates and equalisers freeze in HOLD. -/
def State.rxHoldNow (s : State) (l : Nat) : State :=
  let s := s.rxTo l rxHold
  (s.setLine l { s.line l with holdAt := s.now }).occur LINE_RX_HOLD l

/-- ACQ is entered with the equalisers of enabled subcarriers in CONVERGE, after at most `sync` µs; the power on the
subcarriers is found by the caller (R256, R259). -/
def State.rxAcqNow (s : State) (l sync : Nat) : State :=
  let s := s.rxTo l rxAcq
  let s := (s.setLine l { s.line l with acqAt := s.now }).convergeAll l sync
  if s.rdb LINE_RX_STAT_SIG l then s else s.rxHoldNow l

/-- A quality window starts at tick `at_` (R260). -/
def State.startWindow (s : State) (l at_ : Nat) : State :=
  let out := ((List.range 32).map fun j => if s.rd LINE_RX_SCS_STATE l j = scTrack then 0 else 2 ^ j).sum
  s.setLine l { s.line l with
    winAt := at_, winLen := s.rd LINE_RX_CTL_QWIN l, winSwitched := false
    winTest := s.rd LINE_RX_TEST_MODE l ≠ 0, untracked := out, ber := {} }

/-- LOCKED is entered: quality windows start at the next far-end multiframe boundary, whose place in LP is open, frame
alignment hunts, and LOF counts toward the fallback from here on (R256, R260, R287, R297). (DESIGN CHOICE, log entry 121.) -/
def State.rxLockNow (s : State) (l : Nat) : State :=
  let s := s.rxTo l rxLocked
  let s := ((s.startWindow l (s.now + s.open_ % 1024103)).toHunt l).used
  (s.setLine l { s.line l with acqFails := 0, cdAt := s.now, lofAt := max s.now (s.line l).lofAt }).occur LINE_RX_LOCK l

/-- Whether the next thing the receiver gets is the start of a far-end multiframe, as far as it knows the position (R255,
R289). (DEDUCED, log entry 85.) -/
def State.atFarMf (s : State) (l : Nat) : Bool :=
  s.rd LINE_FR_STAT_FSTATE l ≠ fsIf ||
    (if s.rdb LINE_FR_STAT_IM l then (s.line l).mfExp = 0 else s.rd LINE_FR_STAT_MFC l = 255)

/-- LINE_LO_LOCKED (R256). (DEDUCED, log entry 2.) -/
def execLineLoLocked (l : Fin 4) (s : State) : Host.Outcome State Fault Refusal :=
  .next (
    if s.rxState l = rxTune ∧ s.now ≤ (s.line l).tuneAt + 200 * ticksMs then (s.rxTo l rxIdle).declareDefect l 0
    else s)

/-- LINE_LO_TIMEOUT (R256). -/
def execLineLoTimeout (l : Fin 4) (s : State) : Host.Outcome State Fault Refusal :=
  .next (if s.rxState l = rxTune ∧ (s.line l).tuneAt + 200 * ticksMs ≤ s.now then s.rxFault l else s)

/-- LINE_LO_FAULT (R240). -/
def execLineLoFault (l : Fin 4) (s : State) : Host.Outcome State Fault Refusal :=
  .next (if s.rxState l = rxOff ∨ s.rxState l = rxTune then s else s.rxFault l)

/-- LINE_SIG_UP (R241, R256): `pin` is the input, in 0.1 dBm, over the 10 µs. -/
def execLineSigUp (l : Fin 4) (pin : Int) (s : State) : Host.Outcome State Fault Refusal :=
  .next (
    let st := s.rxState l
    if st = rxOff ∨ st = rxTune ∨ s.rdb LINE_RX_STAT_SIG l ∨ pin < s.rdi LINE_RX_CTL_SIG_THR l then s
    else
      let s := (s.wr LINE_RX_STAT_SIG 1 l).clearDefect l 0
      if st = rxIdle then s.startSearch l
      else if st = rxHold ∧ s.now ≤ (s.line l).holdAt + 10 * ticksMs then (s.rxAcqNow l 512).findLit l
      else s)

/-- LINE_SIG_DOWN (R241, R256). -/
def execLineSigDown (l : Fin 4) (pin : Int) (s : State) : Host.Outcome State Fault Refusal :=
  .next (
    let st := s.rxState l
    if st = rxOff ∨ st = rxTune ∨ !s.rdb LINE_RX_STAT_SIG l ∨ s.rdi LINE_RX_CTL_SIG_THR l - 10 ≤ pin then s
    else
      let s := s.sigOff l
      if st = rxAcq ∨ st = rxLocked then s.rxHoldNow l else s)

/-- Points of the coarse dispersion search (R249). -/
def cdPoints (lo hi : Int) : Nat := ((hi - lo) / 100).toNat + 1

/-- LINE_CD_SEARCH_DONE (R249, R256): the best estimate, none when no tone reached the threshold, with the
carrier and clock offsets then acquired and the powers found on the subcarriers. -/
def execLineCdSearchDone (l : Fin 4) (est : Option Int) (fofs clk : Int) (pow : List Nat) (s : State) :
    Host.Outcome State Fault Refusal :=
  .next (
    let x := s.line l
    if s.rxState l = rxSearch ∧ x.searchAt + (cdPoints x.cdLo x.cdHi * 20 + 420) * ticksUs ≤ s.now then
      match est with
      | none => (s.count LINE_RX_CD_FAIL l).startSearch l
      | some e =>
        let e := clampInt (max (-20000) (x.cdLo - 100)) (min 20000 (x.cdHi + 100)) e
        let s := ((s.wri LINE_RX_CD_EST e l).wri LINE_RX_FOFS_FOFS (clampInt (-6000) 6000 fofs) l).wri
          LINE_RX_FOFS_CLK (clampInt (-5000) 5000 clk) l
        (s.rxAcqNow l 1012).checkLit l pow
    else s)

/-- LINE_ACQ_TIMEOUT (R256). -/
def execLineAcqTimeout (l : Fin 4) (s : State) : Host.Outcome State Fault Refusal :=
  .next (
    let x := s.line l
    if s.rxState l = rxAcq ∧ x.acqAt + 20 * ticksMs ≤ s.now then
      ((s.setLine l { x with acqFails := x.acqFails + 1 }).count LINE_RX_ACQ_RETRY l).rxIdleNow l
    else s)

/-- LINE_HOLD_TIMEOUT (R256). -/
def execLineHoldTimeout (l : Fin 4) (s : State) : Host.Outcome State Fault Refusal :=
  .next (if s.rxState l = rxHold ∧ (s.line l).holdAt + 10 * ticksMs ≤ s.now then s.rxIdleNow l else s)

/-- LINE_SC_TRACK (R252, R256). -/
def execLineScTrack (l : Fin 4) (j : Fin 32) (s : State) : Host.Outcome State Fault Refusal :=
  .next (
    let st := s.rxState l
    if (st = rxAcq ∨ st = rxLocked) ∧ s.rd LINE_RX_SCS_STATE l j = scConverge ∧
        s.now ≤ sget (fun _ => 0) (s.line l).convBy j then
      let s := s.wr LINE_RX_SCS_STATE scTrack l j
      if st = rxAcq ∧ s.allTrack l then s.rxLockNow l else s
    else s)

/-- LINE_SC_CONVERGE_TIMEOUT (R252): CONVERGE ends in LOST, which resets the taps and converges anew. -/
def execLineScConvergeTimeout (l : Fin 4) (j : Fin 32) (s : State) : Host.Outcome State Fault Refusal :=
  .next (
    let st := s.rxState l
    if (st = rxAcq ∨ st = rxLocked) ∧ s.rd LINE_RX_SCS_STATE l j = scConverge ∧
        sget (fun _ => 0) (s.line l).convAt j + 1200 * ticksUs ≤ s.now then
      (s.count LINE_RX_SC_FAIL l).converge l j
    else s)

/-- LINE_SC_LOST (R252, R256). -/
def execLineScLost (l : Fin 4) (j : Fin 32) (s : State) : Host.Outcome State Fault Refusal :=
  .next (
    let st := s.rxState l
    if (st = rxAcq ∨ st = rxLocked) ∧ s.rd LINE_RX_SCS_STATE l j = scTrack then
      let s := s.converge l j
      if st = rxLocked then
        let s := s.rxTo l rxAcq
        ((s.setLine l { s.line l with acqAt := s.now }).occur LINE_RX_UNLOCK l).findLit l
      else s
    else s)

/-- A write of `LINE_RX_CTL` takes effect (R239, R256, R260); `freq` and `en` say which fields it covered.  A new QWIN holds
for a window that has not started. (DEDUCED, log entry 16.) -/
def State.wroteRxCtl (s : State) (l : Nat) (freq en : Bool) : State :=
  let on := s.rdb LINE_RX_CTL_EN l
  let st := s.rxState l
  let s := if s.now < (s.line l).winAt then s.setLine l { s.line l with winLen := s.rd LINE_RX_CTL_QWIN l } else s
  if !s.domOn (lineDomain l) then s
  else if en && !on then (if st = rxOff then s else s.rxGoOff l)
  else if en && st = rxOff then s.rxStart l
  else if freq && on && !s.rdb LINE_RX_CTL_FOLLOW l then s.rxRetune l
  else s

/-- A write of `LINE_RX_TEST.MODE` that took effect (R264): entering the check spoils the window; its end
sends the receiver to ACQ. -/
def State.wroteRxTest (s : State) (l old : Nat) : State :=
  let m := s.rd LINE_RX_TEST_MODE l
  if m = old then s
  else if m = 2 then s.setLine l { s.line l with winTest := true }
  else if s.rxState l = rxLocked then (s.rxAcqNow l 512).findLit l
  else s

/-! ### Telemark (R242–R246) -/

/-- The slice of an ADC at a position. -/
def LineSt.sliceAt (x : LineSt) (a p : Nat) : Nat := (sget (fun _ => none) x.slices (64 * a + p)).getD p

/-- Whether a spare passes steps 2 and 3 of a cycle. -/
def State.telOk (s : State) (l a : Nat) (m : TelMeas) : Bool :=
  let spare := s.rd LINE_TEL_ADC_SPARE l a
  let ofs := (s.rd LINE_TEL_CTL_OFS_LIM l : Int)
  let timing := match sget (fun _ => none) (s.line l).telPrev (65 * a + spare) with
    | some p => decide (|m.timing - p| ≤ s.rd LINE_TEL_CTL_SKEW_LIM l)
    | none => decide (|m.timing| ≤ 125)
  decide (|m.ofs| ≤ ofs) && decide (|m.gain| ≤ s.rd LINE_TEL_CTL_GAIN_LIM l) && timing &&
    decide (|m.rms| ≤ ofs) && decide (2 * |m.mean| ≤ ofs)

/-- One ADC at the end of a cycle: its new calibration is held, or the reject counts, once for each ADC (R244).
(DESIGN CHOICE, log entry 134.) -/
def State.telAdc (s : State) (l a : Nat) (m : TelMeas) : State :=
  let spare := s.rd LINE_TEL_ADC_SPARE l a
  if spare = 127 then s
  else if s.telOk l a m then
    let x := s.line l
    s.setLine l { x with telPrev := sput (fun _ => none) x.telPrev (65 * a + spare) (some m.timing) }
  else
    let s := (s.incSat LINE_TEL_ADC_REJ l a).count LINE_TEL_REJECT l
    if s.rd LINE_TEL_ADC_REJ l a = 3 then
      ((s.wr LINE_TEL_ADC_BAD spare l a).wr LINE_TEL_ADC_SPARE 127 l a).occur LINE_TEL_NOSPARE l
    else s

/-- TELEMARK_CYCLE (R243, R244): `meas` is what the cycle measured on the four spares. -/
def execTelemarkCycle (l : Fin 4) (meas : List TelMeas) (s : State) : Host.Outcome State Fault Refusal :=
  .next (
    match (s.line l).telAt with
    | none => s
    | some t =>
      if s.rxState l = rxOff ∨ s.now < t + 9750 * ticksUs ∨ meas.length ≠ 4 then s
      else
        let ok := (List.range 4).all fun a =>
          s.rd LINE_TEL_ADC_SPARE l a ≠ 127 && s.telOk l a (meas.getD a ⟨0, 0, 0, 0, 0⟩)
        let s := (List.range 4).foldl (fun s a => s.telAdc l a (meas.getD a ⟨0, 0, 0, 0, 0⟩)) s
        s.setLine l { s.line l with
          telPass := if ok then some (s.now / ticksLf) else none
          telAt := if s.rdb LINE_TEL_CTL_EN l then some (t + 10 * ticksMs) else none })

/-- Whether the receive side falls back at the next far-end multiframe boundary (R297). -/
def State.rxFallbackDue (s : State) (l : Nat) : Bool :=
  s.rdb LINE_TX_CTL_FALLBACK l && s.rxState l = rxLocked && s.defect l 1 &&
    decide ((s.line l).lofAt + 64 * ticksMf ≤ s.now) && !sameLoading (s.rxActive l) bringUp

/-- Whether the present line frame holds a format switch, a dispersion step or a handover, or is to hold a switch that is
announced or a fallback that is due (R245). -/
def State.frameTaken (s : State) (l : Nat) : Bool :=
  let x := s.line l
  x.stepFrame = some (s.now / ticksLf) || x.swFrame = some (s.now / ticksLf) ||
    (x.switchMf.any fun m => decide (m * 256 ≤ s.now / ticksLf)) ||
    (x.rxSwitch.any fun t => decide (t / ticksLf ≤ s.now / ticksLf)) || s.txFallbackDue l || s.rxFallbackDue l

/-- TELEMARK_HANDOVER (R243–R245): at a line frame boundary after all ADCs have passed. -/
def execTelemarkHandover (l : Fin 4) (s : State) : Host.Outcome State Fault Refusal :=
  .next (
    if ((s.line l).telPass.any fun f => decide (f < s.now / ticksLf)) ∧ s.rxState l ≠ rxOff ∧ !s.frameTaken l then
      let p := s.rd LINE_TEL_STAT_POS l
      let s := (List.range 4).foldl
        (fun s a =>
          let x := s.line l
          let spare := s.rd LINE_TEL_ADC_SPARE l a
          let s := s.setLine l { x with slices := sput (fun _ => none) x.slices (64 * a + p) (if spare = p then none else some spare) }
          (s.wr LINE_TEL_ADC_SPARE (x.sliceAt a p) l a).wr LINE_TEL_ADC_REJ 0 l a)
        s
      ((s.wr LINE_TEL_STAT_POS ((p + 1) % 64) l).setLine l
        { s.line l with telPass := none, stepFrame := some (s.now / ticksLf) }).count LINE_TEL_ROT l
    else s)

/-- A write of `LINE_TEL_CTL` takes effect: cycles start when EN becomes 1, and none starts after EN = 0
(R243). -/
def State.wroteTelCtl (s : State) (l : Nat) : State :=
  let x := s.line l
  if s.rdb LINE_TEL_CTL_EN l then
    if x.telAt = none ∧ s.rxState l ≠ rxOff then s.setLine l { x with telAt := some s.now } else s
  else
    match x.telAt with
    | some t => if s.now < t then s.setLine l { x with telAt := none } else s
    | none => s

/-! ### Refinement and calibration (R247, R250) -/

/-- LINE_CD_REFINE (R245, R250), at a far-end multiframe boundary: `delta` is the step the averaged group delay asks for, in ps/nm. -/
def execLineCdRefine (l : Fin 4) (delta : Int) (s : State) : Host.Outcome State Fault Refusal :=
  .next (
    let x := s.line l
    if s.rxState l = rxLocked ∧ x.cdAt + ticksSec ≤ s.now ∧ !s.frameTaken l ∧ s.atFarMf l then
      let e := clampInt (-20000) 20000 (s.rdi LINE_RX_CD_EST l + clampInt (-2) 2 delta)
      (s.wri LINE_RX_CD_EST e l).setLine l { x with cdAt := s.now, stepFrame := some (s.now / ticksLf) }
    else s)

/-- The receive skews in force are shown. -/
def State.showRxCal (s : State) (l : Nat) : State :=
  let v := (s.line l).rxCal
  ((s.wri LINE_RX_CALV_SKEW_X (roundTo 20 (v.getD 0 0)) l).wri LINE_RX_CALV_SKEW_Y (roundTo 20 (v.getD 1 0)) l).wri
    LINE_RX_CALV_SKEW_XY (roundTo 100 (v.getD 2 0)) l

/-- LINE_RX_CAL_UPDATE (R247, R508): `vals` is what the equalised signal asks for at die temperature `temp`; outside the
limits it leaves the values in force unchanged.  Without a locked signal the values move toward those interpolated from
the sets, by the steps of R235. (DEDUCED, log entry 83.) -/
def execLineRxCalUpdate (l : Fin 4) (temp : Int) (vals : List Int) (s : State) : Host.Outcome State Fault Refusal :=
  .next (
    let x := s.line l
    if s.rxState l ≠ rxOff ∧ x.rxCalAt + ticksSec / 10 ≤ s.now then
      let adapted := decide (s.rxState l = rxLocked)
      if adapted ∧ calWithin vals then
        let v := calMove x.rxCal vals calStep
        let k := nearestPoint temp
        let near := decide (|temp - (60 + 20 * (k : Int))| ≤ 10)
        (s.setLine l { x with
          rxCal := v, rxCalAt := s.now, rxSets := if near then sput (fun _ => none) x.rxSets k (some v) else x.rxSets }).showRxCal l
      else if adapted then (s.setLine l { x with rxCalAt := s.now }).occur LINE_RX_CAL_FAIL l
      else
        let v := calMove x.rxCal (interpSet (calSet 0o402002000 x.rxSets l) temp) calStep
        (s.setLine l { x with rxCal := v, rxCalAt := s.now }).showRxCal l
    else s)

/-! ### Quality windows (R260–R263, R277) -/

/-- 10·log10 of `x` in 0.1 dB to the nearest: 0 below the range, 511 above it (R261). (DESIGN CHOICE, log entry 122.) -/
def tenthsDb (x : Rat) : Nat := (List.range 511).countP fun k => (10 : Rat) ^ (2 * k + 1) ≤ x ^ 200

/-- The figure of a mean squared error of points of unit mean power: 511 without any error (R261). -/
def snrOf (err : Rat) : Nat := if err ≤ 0 then 511 else tenthsDb (1 / err)

/-- An RMS error whose square is `v`, in 0.1 % to the nearest, at most 511 (R261). (DESIGN CHOICE, log entry 122.) -/
def evmOf (v : Rat) : Nat := (List.range 511).countP fun k => ((2 * k + 1 : Nat) : Rat) ^ 2 ≤ 4000000 * v

/-- One subcarrier's figures at a window end (R254, R260, R261, R264). -/
def State.showFigures (s : State) (l j : Nat) (valid : Bool) (f : ScFigures) : State :=
  let on := s.scOn l j
  let v := fun n => if on then n else 0
  let s := s.wr LINE_RX_SC_SNR (v (snrOf ((f.errX + f.errY) / 2))) l j
  let s := (s.wr LINE_RX_SC_SNR_X (v (snrOf f.errX)) l j).wr LINE_RX_SC_SNR_Y (v (snrOf f.errY)) l j
  let s := (s.wr LINE_RX_SC_EVM (v (evmOf f.evm2)) l j).wr LINE_RX_SCS_SLIPS (v (min f.slips 255)) l j
  let s := s.wr LINE_RX_SCS_VALID (b2n (valid && on && !(s.line l).untracked.testBit j)) l j
  let s := if on then s.count LINE_RX_SLIP l f.slips else s
  if on && s.rd LINE_RX_TEST_MODE l = 2 then s.count LINE_RX_TEST_ERR (32 * l + j) f.testErr else s

/-- Mantissa and exponent of `errors` in `bits`: 100–999 as 1.00–9.99, times 10^−E, cut to three digits; 0 for no errors, and
1.00 · 10^−15 for fewer (R306). (DESIGN CHOICE, log entry 122.) -/
def berOf (errors bits : Nat) : Nat × Nat :=
  if errors = 0 then (0, 0)
  else
    match (List.range 16).find? fun e => decide (bits ≤ errors * 10 ^ e) with
    | some e => (min 999 (errors * 10 ^ (e + 2) / bits), e)
    | none => (100, 15)

/-- `LINE_FEC_BER` of the window that ends (R277). -/
def State.showBer (s : State) (l : Nat) : State :=
  let b := (s.line l).ber
  let s := (s.wr LINE_FEC_BER_PRE_M (berOf b.pre b.coded).1 l).wr LINE_FEC_BER_PRE_E (berOf b.pre b.coded).2 l
  (s.wr LINE_FEC_BER_MID_M (berOf b.mid b.bits).1 l).wr LINE_FEC_BER_MID_E (berOf b.mid b.bits).2 l

/-- LINE_QWIN_END (R260–R263, R277), at a far-end multiframe boundary. -/
def execLineQwinEnd (l : Fin 4) (fig : RxFigures) (s : State) : Host.Outcome State Fault Refusal :=
  .next (
    let x := s.line l
    if s.rxState l = rxLocked ∧ x.winAt + 2 ^ x.winLen * ticksMf * 9999 / 10000 ≤ s.now ∧ s.atFarMf l then
      let valid := !x.winSwitched && !x.winTest
      let s := (List.range 32).foldl (fun s j => s.showFigures l j valid (fig.sc.getD j ⟨1, 1, 0, 0, 0⟩)) s
      let s := ((s.inc LINE_RX_QSTAT_QSEQ 1 l).wr LINE_RX_QSTAT_VALID (b2n valid) l).wr LINE_RX_QSTAT_SWITCHED (b2n x.winSwitched) l
      let s := (s.wr LINE_RX_QEND_A (lpA s.now) l).wr LINE_RX_QEND_B (lpB s.now) l
      let s := ((s.wr LINE_RX_PMD_DGD fig.dgd l).wr LINE_RX_PMD_PDL fig.pdl l).wr LINE_RX_PMD_SOP fig.sop l
      let s := (s.wri LINE_RX_FOFS_FOFS (clampInt (-6000) 6000 fig.fofs) l).wri LINE_RX_FOFS_CLK (clampInt (-5000) 5000 fig.clk) l
      let s := s.showBer l
      let snr := (List.range 32).map fun j => if s.rdb LINE_RX_SCS_VALID l j then s.rd LINE_RX_SC_SNR l j else 0
      let s := if valid then s.setLine l { s.line l with snr := some snr } else s
      (s.startWindow l s.now).tryLoad l
    else s)

/-! ### Answers and switches at the receiving end (R228, R258, R296) -/

/-- The accepted request goes into the inactive receive bank (R258). -/
def State.takeAck (s : State) (l : Nat) (c : LoadCmd) (r : LoadReq) : State :=
  let s := s.setRxBank l (1 - s.rd LINE_RX_STAT_BANK l) r
  s.setLine l { s.line l with rxSeq := some r.seq, load := some { c with stage := .acked } }

/-- Whether a command waits for the answer to its request of SEQ `q`, with the request. -/
def LoadCmd.waits (c : LoadCmd) (q : Nat) : Option LoadReq :=
  match c.stage, c.req with
  | .sent _, some r => if r.seq = q then some r else none
  | _, _ => none

/-- LOAD_ACK_RECEIVED (R228, R258). -/
def execLoadAckReceived (l : Fin 4) (s : State) : Host.Outcome State Fault Refusal :=
  .next (
    let x := s.line l
    match x.ackIn with
    | none => s
    | some (q, reason) =>
      let s := s.setLine l { x with ackIn := none }
      match x.load with
      | none => s
      | some c =>
        match c.waits q with
        | none => s
        | some r =>
          if reason = 0 then s.takeAck l c r
          else (s.setLine l { s.line l with load := none }).complete c.tag eState 0 reason)

/-- A SWITCH of the accepted request, received at tick `t` (R223, R258): announced, at the boundary after as many further
multiframes as COUNTDOWN tells, of which two slots have passed; no longer announced, when the switch has been cancelled;
late, when the far end already uses its other bank. (DEDUCED, log entry 85.) -/
def State.knownSwitch (s : State) (l active count t : Nat) : State :=
  let arm := fun (s : State) t => s.setLine l { s.line l with rxSwitch := some t }
  if active = s.rd LINE_RX_STAT_BANK l then
    if count < 16 then arm s (t + ((count + 1) * 256 - 2) * ticksLf * 9999 / 10000)
    else s.setLine l { s.line l with rxSwitch := none }
  else if (s.line l).rxSwitch.isSome then s
  else (arm s t).count LINE_RX_LATE_SWITCH l

/-- LOAD_SWITCH_RECEIVED (R258, R296). -/
def execLoadSwitchReceived (l : Fin 4) (s : State) : Host.Outcome State Fault Refusal :=
  .next (
    let x := s.line l
    match x.swIn with
    | none => s
    | some (active, count, q, t) =>
      let s := s.setLine l { x with swIn := none }
      let waits := x.load.bind fun c => (c.waits q).map fun r => (c, r)
      match waits with
      | some (c, r) => if count < 16 then (s.takeAck l c r).knownSwitch l active count t else s
      | none =>
        if x.rxSeq = some q then s.knownSwitch l active count t
        else if active ≠ s.rd LINE_RX_STAT_BANK l then s.occur LINE_FR_SW_UNEXP l
        else s)

/-- LOAD_ACK_TIMEOUT (R228). -/
def execLoadAckTimeout (l : Fin 4) (s : State) : Host.Outcome State Fault Refusal :=
  .next (
    let x := s.line l
    match x.load with
    | none => s
    | some c =>
      match c.stage with
      | .sent (some t) => if t + 64 * ticksMf ≤ s.now then (s.setLine l { x with load := none }).complete c.tag eState 0 17 else s
      | _ => s)

/-- The receive side makes its other bank active at a far-end multiframe boundary; a switch that is not `keep` starts the
search for frames and the decoders anew (R252, R258, R260, R287, R288).  The equalisers follow it in ACQ and LOCKED; in
another state they start for the active bank when ACQ is entered. (DEDUCED, log entry 85.) -/
def State.switchRx (s : State) (l : Nat) (keep : Bool) : State :=
  let a := s.rd LINE_RX_STAT_BANK l
  let old := s.rxBank l a
  let new := s.rxBank l (1 - a)
  let s := s.activateRx l (1 - a)
  let s := if s.rxState l ≠ rxAcq ∧ s.rxState l ≠ rxLocked then s
    else (List.range 32).foldl
      (fun s j =>
        if old.bs.getD j 0 = 0 ∧ new.bs.getD j 0 ≠ 0 then s.converge l j
        else if new.bs.getD j 0 = 0 then s.wr LINE_RX_SCS_STATE scOff l j
        else s) s
  let x := s.line l
  let s := s.setLine l { x with
    rxSwitch := none, rxSwAt := some s.now, winSwitched := x.winSwitched || decide (x.winAt ≤ s.now), snr := none
    swFrame := some (s.now / ticksLf) }
  if keep then
    (if s.rd LINE_FR_STAT_FSTATE l = fsIf then s.setLine l { s.line l with rePos := some (ceilDiv old.infoBits 256) } else s)
  else if s.rd LINE_FR_STAT_FSTATE l = fsOff then s
  else (s.toHunt l).setLine l { (s.toHunt l).line l with codes := {}, badRows := [] }

/-- Whether the receive switch to the other bank is hitless (R224). -/
def State.rxHitless (s : State) (l : Nat) : Bool :=
  hitless (s.rxActive l) (s.rxBank l (1 - s.rd LINE_RX_STAT_BANK l))

/-- LINE_FORMAT_SWITCH (R223, R258): of the transmit side, or of the receive side when `rx`, at its announced boundary,
whether the receiver is LOCKED then or not. (DEDUCED, log entry 85.) -/
def execLineFormatSwitch (l : Fin 4) (rx : Bool) (s : State) : Host.Outcome State Fault Refusal :=
  .next (
    let x := s.line l
    if rx then
      if (x.rxSwitch.any fun t => decide (t ≤ s.now)) ∧ s.rxState l ≠ rxOff ∧ s.atFarMf l then
        let s := s.switchRx l (s.rxHitless l)
        match x.load with
        | some c => if c.stage = .acked then s.loadOk l c.tag else s
        | none => s
      else s
    else
      match x.switchMf with
      | some m =>
        if s.txState l = txLit ∧ m ≤ s.now / ticksMf then (s.switchTx l (s.txHitless l)).occur LINE_LOAD_SWITCH l else s
      | none => s)

/-- LINE_RX_FALLBACK (R297): both receive banks take the bring-up format, which is active from the far-end multiframe
boundary of this step, in a line frame with no handover or dispersion step (R245); a command whose request is under way
ends. (DEDUCED, log entry 85.) -/
def execLineRxFallback (l : Fin 4) (s : State) : Host.Outcome State Fault Refusal :=
  .next (
    let x := s.line l
    if s.rxFallbackDue l ∧ s.atFarMf l ∧ x.stepFrame ≠ some (s.now / ticksLf) then
      let s := (s.setRxBank l (1 - s.rd LINE_RX_STAT_BANK l) bringUp).switchRx l false
      let s := s.setRxBank l (1 - s.rd LINE_RX_STAT_BANK l) bringUp
      let s := s.occur LINE_FR_FALLBACK l
      if x.load.any fun c => decide (c.stage ≠ .window) then s.loadFails l else s
    else s)

end Sys2Proof.Machine
end

