-- ==== Sys2Proof/Machine/LineFrame.lean ====
section
/-! DEFINITION. The frame layer of a coherent line: slots sent and received, alignment, defects, line
encryption, the loading channel, management data channels, trace and pass-through (spec/08). -/

namespace Sys2Proof.Machine

open Ev Reg

/-- The frame alignment word (R280). -/
def faw : List Nat := [0x3A, 0x6F, 0xC7, 0x15, 0x9E, 0x02, 0xB8, 0xD4]

/-- The length of slot `f` in bits (R278). -/
def slotBits (q f : Nat) : Nat := q * (f + 1) / 256 - q * f / 256

/-- Information bits of an outer block (R273). -/
def blockBits : Nat := 216000

/-- The BIP of a slot: the exclusive-or of its octets from header octet 8 to the trailer (R280). -/
def bipOf (os : List Nat) : Nat := (os.drop 8).foldl (· ^^^ ·) 0

/-- A message of the loading channel with its CRC-16 (R295). -/
def ldcMessage (os : List Nat) : List Nat := os ++ natToOctets 2 (crc16 os)

/-- Bit fields, widest value first in the list's order, packed into octets. -/
def packFields (fs : List (Nat × Nat)) : List Nat :=
  let n := fs.foldl (fun a f => a * 2 ^ f.1 + f.2 % 2 ^ f.1) 0
  let w := (fs.map (·.1)).sum
  natToOctets (w / 8) n

/-- Trace octet `q` of a trace held in sixteen words (R306). -/
def State.traceOctet (s : State) (f : Field) (l q : Nat) : Nat := (s.rd f l (q / 4)) / 2 ^ (9 * (3 - q % 4)) % 256

/-! ### The transmitted slot (R278–R285, R294, R295, R302) -/

/-- The SWITCH message of the present multiframe (R221, R223). -/
def State.switchMsg (s : State) (l : Nat) : List Nat :=
  let count := match (s.line l).switchMf with
    | some m => min 15 (m - 1 - s.now / ticksMf)
    | none => 31
  ldcMessage [128 + 64 * s.rd LINE_TX_STAT_BANK l + 2 * count, s.rd LINE_TX_STAT_SEQ l, 0, 0, 0, 0]

/-- The LOAD_ACK message (R221): of the accepted request until its switch, else an answer that is sent once. (DEDUCED, log entry 85.) -/
def State.ackMsg (s : State) (l : Nat) : List Nat :=
  match (s.line l).ackSeq, (s.line l).ackOnce with
  | some q, _ => ldcMessage [128, q, 0, 0, 0, 0]
  | none, some (q, reason) => ldcMessage [128, q, reason, 0, 0, 0]
  | none, none => List.replicate 8 0

/-- The answer that is sent once has been put on the loading channel; a refusal is counted (R221, R238). -/
def State.ackSent (s : State) (l : Nat) : State :=
  match (s.line l).ackSeq, (s.line l).ackOnce with
  | none, some (_, reason) =>
    let s := s.setLine l { s.line l with ackOnce := none }
    if reason = 0 then s else s.count LINE_TX_REFUSE (6 * l + (reason - 1))
  | _, _ => s

/-- A LOAD_REQ goes out; the time of the first is kept (R228). -/
def State.reqSent (s : State) (l : Nat) : State :=
  match (s.line l).load with
  | some c => if c.stage = .sent none then s.setLine l { s.line l with load := some { c with stage := .sent (some s.now) } } else s
  | none => s

/-- The LOAD_REQ message of a request. -/
def LoadReq.message (r : LoadReq) : List Nat :=
  ldcMessage ([128 + r.inner, r.seq, r.rate] ++
    packFields ((List.range 32).flatMap fun j => [(4, r.bs.getD j 0), (6, r.gs.getD j 0)]) ++ [0, 0, 0])

/-- The LOAD_REQ being sent, if one is. -/
def State.reqMsg (s : State) (l : Nat) : List Nat :=
  match (s.line l).load with
  | some c => match c.stage, c.req with
    | .sent _, some r => r.message
    | _, _ => List.replicate 48 0
  | none => List.replicate 48 0

/-- The loading channel at MFC `f`: the message that begins there is built (R295). -/
def State.loadChannel (s : State) (l f : Nat) : State :=
  let put := fun (s : State) (m : List Nat) => s.setLine l { s.line l with txLdc := m }
  if f = 0 then put s (s.switchMsg l)
  else if f = 2 then (put s (s.ackMsg l)).ackSent l
  else if f = 4 then (put s (s.reqMsg l)).reqSent l
  else if f = 16 then put s []
  else s

/-- The four LDC octets of MFC `f`. -/
def State.ldcOctets (s : State) (l f : Nat) : List Nat :=
  let k := if f < 2 then f else if f < 4 then f - 2 else f - 4
  (List.range 4).map fun i => if f < 16 then (s.line l).txLdc.getD (4 * k + i) 0 else 0

/-- Packets with their headers taken until `need` octets are there. -/
def takeUntil (need : Nat) : List (List Nat) → List (List Nat) × List (List Nat)
  | [] => ([], [])
  | p :: t => if need = 0 then ([], p :: t) else let (a, b) := takeUntil (need - p.length) t; (p :: a, b)

/-- What waits to be sent on a line, each packet with its header (R283, R304). -/
def State.lineWaiting (s : State) (l : Nat) : List (List Nat) :=
  if (s.ptSource l).isSome then (s.line l).ptFifo.map fun p => lineHeader p.octets.length p.page p.cls p.stag ++ p.octets
  else (s.line l).txQ

/-- The payload of a PAYLOAD slot of `cap` octets: its octets, its FPP, how many packets were taken for it, and the
line after them. (DEDUCED, log entry 82.) -/
def State.fillPayload (s : State) (l cap : Nat) : List Nat × Nat × Nat × LineSt :=
  let x := s.line l
  let rest := x.txRest
  let (taken, _) := takeUntil (cap - rest.length) (s.lineWaiting l)
  let have_ := rest ++ taken.flatten
  let idle := List.replicate (ceilDiv (cap - have_.length) 8) (lineHeader 0 0 0 0)
  let all := have_ ++ idle.flatten
  let n := taken.length
  let x : LineSt :=
    if (s.ptSource l).isSome then { x with ptFifo := x.ptFifo.drop n } else { x with txQ := x.txQ.drop n }
  (all.take cap, if rest.length < cap then rest.length else 0x7FFFF, n, { x with txRest := all.drop cap })

/-- The packets at the head of a pass-through FIFO that the next `need` octets are taken from, as they are read: one with an
uncorrectable lane is dropped and counted (R304, R523).  Lanes are counted over the FIFO from `base` on, each packet from
a lane of its own. (DEDUCED, log entry 142.) -/
def State.readFifo (l : Nat) (hits : List (Nat × BitVec 39)) : Nat → Nat → List LinePkt → State → List LinePkt × State
  | _, _, [], s => ([], s)
  | need, base, p :: t, s =>
    if need = 0 then (p :: t, s)
    else
      let k := ceilDiv p.octets.length 4
      let own := (hits.filter fun h => decide (base ≤ h.1) && decide (h.1 < base + k)).map fun h => (h.1 - base, h.2)
      match s.frameRead (97 + l) p.octets own with
      | (none, s) => State.readFifo l hits need (base + k) t (s.count FRM_UNCORR l)
      | (some os, s) =>
        let (ps, s) := State.readFifo l hits (need - (8 + os.length)) (base + k) t s
        ({ p with octets := os } :: ps, s)

/-- The pass-through FIFO of a line is read for a slot of `cap` octets. -/
def State.readPt (s : State) (l cap : Nat) (hits : List (Nat × BitVec 39)) : State :=
  if hits.isEmpty || (s.ptSource l).isNone then s
  else
    let (ps, s) := State.readFifo l hits (cap - (s.line l).txRest.length) 0 (s.line l).ptFifo s
    s.setLine l { s.line l with ptFifo := ps }

/-- The 96 header octets of a slot. -/
def State.slotHeader (s : State) (l f pstate : Nat) (enc phase : Bool) (fpp ctr : Nat) : List Nat :=
  let x := s.line l
  let rdi := s.defect l 0 || s.defect l 1 || s.defect l 2 || s.defect l 3 ||
    (s.defect l 5 && s.rdb LINE_FR_CTL_TIM_ACT l) || (s.mode = modeMaintenance && s.rdb LINE_FR_CTL_FORCE_RDI l)
  let bptr := (blockBits - x.txPos % blockBits) % blockBits
  let mdc := fun h => (List.range 12).map fun i => (sget (fun _ => []) x.mdcTx h).getD (12 * (f % 8) + i) 0
  faw ++ [f, 128 * b2n rdi + 32 * pstate + 16 * b2n enc + 8 * b2n phase] ++ natToOctets 3 bptr ++
    [x.txTrace.getD (f % 64) 0, x.txBip, 0] ++ natToOctets 3 fpp ++ [0] ++ mdc 0 ++ mdc 1 ++ s.ldcOctets l f ++
    natToOctets 8 ctr ++ List.replicate 40 0

/-- What a slot carries before its header is built: PSTATE, payload, FPP, and the key generation and counter of an
encrypted one. -/
structure SlotBody where
  pstate : Nat
  payload : List Nat
  fpp : Nat
  key : Option (Bool × Nat × KeyGen)

/-- A slot without packets: the cut packet is lost. -/
def State.emptySlot (s : State) (l pstate fill cap : Nat) : SlotBody × State :=
  (⟨pstate, List.replicate cap fill, 0x7FFFF, none⟩, s.setLine l { s.line l with txRest := [] })

/-- The body of the next slot (R282, R284, R304, R305): the slot memory is read whole first, and an uncorrectable lane makes it
an IDLE slot whose packets are dropped (R523). -/
def State.slotBody (s : State) (l cap : Nat) (hits pt : List (Nat × BitVec 39)) : SlotBody × State :=
  let ptBad := match s.ptSource l with
    | some m => s.impaired m
    | none => false
  if ptBad then (s.setLine l { s.line l with ptFifo := [] }).emptySlot l 2 255 cap
  else if s.forceAis l then s.emptySlot l 2 255 cap
  else if !s.sendsPayload l then s.emptySlot l 1 0 cap
  else
    let s := s.readPt l cap pt
    let (payload, fpp, n, x) := s.fillPayload l cap
    match s.frameRead (97 + l) payload hits with
    | (none, s) => ((s.setLine l x).count FRM_UNCORR l).emptySlot l 1 0 cap
    | (some payload, s) =>
    if !s.rdb LINE_FR_CTL_ENC l then (⟨0, payload, fpp, none⟩, s.setLine l x)
    else
      let act := (s.liveKey (.slot 0 (16 + l))).any (·.act)
      let none_ := fun (s : State) => (((s.setLine l x).count LINE_ENC_LIMIT l n).emptySlot l 1 0 cap)
      match s.invoke (.slot 0 (16 + l)) 0 act with
      | (.absent, s) => s.emptySlot l 1 0 cap
      | (.refused, s) => none_ s
      | (.used ctr gen, s) => (⟨0, payload, fpp, some (act, ctr, gen)⟩, s.setLine l x)

/-- The information bits of slot `f` go through the codes to the mapper, which starts afresh with each multiframe (R214,
R268–R274). (DEDUCED, log entry 78.) -/
def State.encodeSlot (s : State) (l f : Nat) (bank : LoadReq) (info : List Bool) : State :=
  let x := s.line l
  let times := x.coded.length / (2 * bank.bs.sum)
  let chain := if f = 0 then { x.chain with ph := 0, grp := 0 } else x.chain
  let (coded, c) := chain.encode bank.inner info
  s.setLine l { x with
    chain := c, coded := (if f = 0 then [] else x.coded.drop (times * (2 * bank.bs.sum))) ++ coded,
    mapAt := if f = 0 then 0 else x.mapAt + times }

/-- A symbol's point of unit mean power, and the share of its subcarrier in the total power. -/
def Label.sent (k : Label) (shares : List Nat) : Label × Point × Nat :=
  let p := constellation k.b k.v
  (k, ⟨p.1, p.2, powerOf k.b⟩, shares.getD k.j 0)

/-- The symbols that the mapper has put out for the last slot sent, pilots among them, with the share of power of each
subcarrier (R213–R216, R232).  A subcarrier that a switch turns off carries none while its share ramps down (R225).
(DEDUCED, log entry 78; DESIGN CHOICE, log entry 133.) -/
def State.lineSymbols (s : State) (l : Nat) : List (Label × Point × Nat) :=
  let x := s.line l
  let bs := (s.txBank l (s.rd LINE_TX_STAT_BANK l)).bs
  let loads := (List.range 32).map fun j => (j, bs.getD j 0)
  (mapSymbols loads (x.coded.length / (2 * bs.sum)) x.mapAt x.coded).map fun k => k.sent (s.shares l)

/-! ### Test signals and the converters (R233, R234) -/

/-- Whether the transmitter sends a test signal in place of the format (R234). -/
def State.lineTesting (s : State) (l : Nat) : Bool := s.rd LINE_TX_TEST_MODE l ≠ 0 && s.mode = modeMaintenance

/-- The subcarrier of the unmodulated tone. -/
def State.toneOf (s : State) (l : Nat) : Option Nat :=
  if s.lineTesting l && s.rd LINE_TX_TEST_MODE l = 1 then some (s.rd LINE_TX_TEST_SC l) else none

/-- Symbols of a subcarrier in a line frame (R211). -/
def frameSymbols : Nat := 10000

/-- The symbols sent in the present line frame: of the format, of the PRBS31 test, or none beside a tone (R234). (DESIGN CHOICE, log entry 116.) -/
def State.sentSymbols (s : State) (l : Nat) : List (Label × Point × Nat) :=
  if !s.lineTesting l then s.lineSymbols l
  else if s.rd LINE_TX_TEST_MODE l = 2 then
    (testSymbols (fun j => Config.prbsSeed (32 * l + j)) (frameSymbols * ((s.line l).txTest.getD 0)) frameSymbols).map
      fun k => k.sent (List.replicate 32 (10 ^ 10 / 32))
  else []

/-- Tap `k` of the filter of a DAC (R233). -/
def State.dacTap (s : State) (l a k : Nat) : Int :=
  if (s.line l).txTaps.isEmpty then Config.dacTap l 0 a k else ((s.line l).txTaps.getD a []).getD k 0

/-- The stream of a DAC in the present line frame before it is clipped, a = 0–3 for XI, XQ, YI and YQ (R233): shaped, summed
and corrected with the calibrated values in force, then equalised. (DESIGN CHOICE, log entry 117.) -/
def State.equalised (s : State) (l a : Nat) : List Int :=
  let syms := (s.sentSymbols l).map fun e => [(e.1.j : Int), e.1.pol, e.2.1.i, e.2.1.q, e.2.1.power / 2 ^ e.1.b, e.2.2]
  fir ((List.range 33).map (s.dacTap l a)) (Config.samples (s.now / ticksLf) (s.line l).txCal (s.toneOf l) syms a)

/-- The stream of a DAC in the present line frame, and the samples clipped (R233). (DESIGN CHOICE, log entry 117.) -/
def State.dacStream (s : State) (l a : Nat) : List Int × Nat := clipStream (s.rd LINE_TX_CLIP_LEVEL l) (s.equalised l a)

/-- The codes that a DAC converts in the present line frame, in two's complement (R233): the largest magnitude that is not
clipped is the largest code. (DESIGN CHOICE, log entry 117.) -/
def State.dacCodes (s : State) (l a : Nat) : List (BitVec 8) :=
  let top := clipLimit (s.rd LINE_TX_CLIP_LEVEL l) (s.equalised l a)
  (s.dacStream l a).1.map (dacCode top)

/-- Whether the bias loop of the modulator holds its six arms at their working points (R233). -/
def State.biasLoop (s : State) (l : Nat) : Bool := txCal ≤ s.txState l

/-- The samples that the four DACs of a line clip in the present line frame. -/
def State.clippedNow (s : State) (l : Nat) : Nat := ((List.range 4).map fun a => (s.dacStream l a).2).sum

/-- The slot of line frame `F` is built: its header, payload and trailer before scrambling (R279). -/
def State.buildSlot (s : State) (l f : Nat) (hits pt : List (Nat × BitVec 39)) : State :=
  let bank := s.txBank l (s.rd LINE_TX_STAT_BANK l)
  let s := if f % 64 = 0 then s.setLine l { s.line l with txTrace := (List.range 64).map (s.traceOctet LINE_TTI_TX l) } else s
  let (b, s) := s.slotBody l (bank.rate * 12500) hits pt
  let s := s.loadChannel l f
  let (hdr, text, tag) := match b.key with
    | none => (s.slotHeader l f b.pstate false false b.fpp 0, b.payload, List.replicate 16 0)
    | some (phase, ctr, gen) =>
      let hdr := s.slotHeader l f b.pstate true phase b.fpp ctr
      let (ct, tag) := gcmEncrypt gen.key (natToOctets 4 gen.saltA ++ natToOctets 8 ctr) (hdr.drop 8) b.payload
      (hdr, ct, tag)
  let slot := hdr ++ text ++ tag
  let x := s.line l
  let len := slotBits bank.infoBits f
  (s.setLine l { x with txSlot := slot, txBip := bipOf slot, txPos := (x.txPos + len) % blockBits }).encodeSlot l f bank
    (slotInfo slot len)

/-- LINE_SLOT_TRANSMIT (R233, R234, R278, R282): one slot, or one line frame of a test signal, for each line frame while the
transmitter modulates.  The first slot, and the first after a test, is one that starts a multiframe.  `hits` and `pt` are the
bits that have flipped in the lanes read of the slot memory and of the pass-through FIFO (R523). -/
def execLineSlotTransmit (l : Fin 4) (hits pt : List (Nat × BitVec 39)) (s : State) : Host.Outcome State Fault Refusal :=
  .next (
    let x := s.line l
    let frame := s.now / ticksLf
    if s.txState l < txRampUp ∨ x.txFrame = some frame then s
    else if s.lineTesting l then
      let s := s.setLine l { x with txFrame := some frame, txTest := some ((x.txTest.map (· + 1)).getD 0) }
      s.count LINE_TX_CLIPPED l (s.clippedNow l)
    else if frame % 256 ≠ 0 ∧ (x.txFrame = none ∨ x.txTest.isSome) then s
    else
      let s := (s.setLine l { x with txFrame := some frame, txTest := none }).buildSlot l (frame % 256) hits pt
      s.count LINE_TX_CLIPPED l (s.clippedNow l))

/-! ### Alignment (R286–R289) -/

/-- ⌊Q/256⌋ of the active receive format. -/
def State.rxStep (s : State) (l : Nat) : Nat := (s.rxActive l).infoBits / 256

/-- Whether `p` is an expected position after `q`. -/
def State.expectedPos (s : State) (l q p : Nat) : Bool := p = q + s.rxStep l || p = q + s.rxStep l + 1

/-- The candidates held, shown. -/
def State.setCands (s : State) (l : Nat) (c : List Nat) : State :=
  (s.wr LINE_FR_STAT_CAND c.length l).setLine l { (s.wr LINE_FR_STAT_CAND c.length l).line l with cands := c }

/-- A match in HUNT (R287); candidates whose expected positions have passed are dropped. -/
def State.huntMatch (s : State) (l p : Nat) (ok : Bool) : State :=
  let live := (s.line l).cands.filter fun c => decide (p ≤ c + s.rxStep l + 1)
  let s := s.setCands l live
  if !ok then s
  else if live.any fun c => s.expectedPos l c p then
    let s := (s.setCands l []).setFstate l fsPresync
    s.setLine l { s.line l with framePos := p, preSlots := 0, preRun := 0, boundary := 0 }
  else if live.any fun c => decide (c ≤ p) && decide (p ≤ c + 64) then s
  else if 4 ≤ live.length then s.count LINE_FR_CAND_FULL l
  else s.setCands l (live ++ [p])

/-- A slot in PRESYNC (R287): `b` is the block boundary its BPTR names. -/
def State.presyncSlot (s : State) (l p : Nat) (ok : Bool) (bptr : Nat) : State :=
  let x := s.line l
  let b := (p + bptr) % blockBits
  if !(ok && s.expectedPos l x.framePos p) then s.toHunt l
  else
    let run := if x.preRun ≠ 0 ∧ b = x.boundary then x.preRun + 1 else 1
    let n := x.preSlots + 1
    if run = 3 then
      let s := (((s.setFstate l fsIf).wr LINE_FR_BLK_LOCK 1 l).wr LINE_FR_BLK_BPTR bptr l)
      s.setLine l { s.line l with
        framePos := p, boundary := b, miss := 0, bptrBad := 0, mfLast := none, mfMiss := 0, bipPrev := none
        codes := { (s.line l).codes with next := (p + bptr) / blockBits } }
    else if n = 8 then (s.count LINE_FR_BPTR_FAIL l).toHunt l
    else s.setLine l { x with framePos := p, preSlots := n, preRun := run, boundary := b }

/-- Whether a match at `p` lies where the next FAW is expected (R287): after a hitless switch at the first information bit of
the new multiframe, whose place is less certain by a bit for each slot missed before it (R288). -/
def State.ifExpected (s : State) (l p : Nat) : Bool :=
  let x := s.line l
  match x.rePos with
  | some d => decide (x.framePos + d ≤ p) && decide (p ≤ x.framePos + d + x.miss)
  | none => s.expectedPos l x.framePos p

/-- Position and block lock of a slot in IF (R287, R288); a rate or load command that waits ends when alignment is lost
(R228). -/
def State.ifSlot (s : State) (l p : Nat) (ok : Bool) (bptr : Nat) : State :=
  let x := s.line l
  let step := x.rePos.getD (s.rxStep l)
  let hit := ok && s.ifExpected l p
  let x : LineSt := if hit then { x with framePos := p, miss := 0, rePos := none }
    else { x with framePos := x.framePos + step, miss := x.miss + 1, rePos := none }
  if x.miss = 5 then (((s.setLine l x).count LINE_FR_OOF l).toHunt l).loadFails l
  else if (x.framePos + bptr) % blockBits = x.boundary then
    (s.setLine l { x with bptrBad := 0 }).wr LINE_FR_BLK_BPTR bptr l
  else if x.bptrBad = 2 then (((s.setLine l x).count LINE_FR_BPTR_FAIL l).toHunt l).loadFails l
  else s.setLine l { x with bptrBad := x.bptrBad + 1 }

/-- Multiframe alignment by one slot's MFC (R289): the MFC by which its channels are read, if any.  A slot that
fails check 1 is skipped; the expected MFC passes over it. -/
def State.multiframe (s : State) (l mfc : Nat) (uncorr : Bool) : Option Nat × State :=
  let x := s.line l
  if !s.rdb LINE_FR_CTL_MF_EN l then (some mfc, s)
  else if s.rdb LINE_FR_STAT_IM l then
    let next := (x.mfExp + 1) % 256
    if uncorr then (some x.mfExp, s.setLine l { x with mfExp := next })
    else if mfc = x.mfExp then (some x.mfExp, s.setLine l { x with mfExp := next, mfMiss := 0 })
    else
      let s := s.count LINE_FR_MFC_ERR l
      if x.mfMiss = 4 then
        (none, ((s.wr LINE_FR_STAT_IM 0 l).setLine l { x with mfMiss := 0, mfLast := none, imAt := s.now }).emptyRx l)
      else (some x.mfExp, s.setLine l { x with mfExp := next, mfMiss := x.mfMiss + 1 })
  else if uncorr then (none, s)
  else if x.mfLast.any fun m => (m + 1) % 256 = mfc then
    (none, (s.wr LINE_FR_STAT_IM 1 l).setLine l { x with mfExp := (mfc + 1) % 256, mfMiss := 0, imAt := s.now })
  else (none, s.setLine l { x with mfLast := some mfc })

/-! ### What a received header brings (R280, R290, R292, R295, R298, R302) -/

/-- AIS and RDI of a slot that passes check 1 (R290, R292). (DEDUCED, log entry 86.) -/
def State.slotDefects (s : State) (l : Nat) (ais rdi : Bool) : State :=
  let x := s.line l
  let run := fun (b : Bool) (n : Nat) => if b then n + 1 else 0
  let x : LineSt := { x with
    aisRun := run ais x.aisRun, aisOff := run (!ais) x.aisOff, rdiRun := run rdi x.rdiRun, rdiOff := run (!rdi) x.rdiOff }
  let s := s.setLine l x
  let s := if 3 ≤ x.aisRun then s.declareDefect l 3 else if 3 ≤ x.aisOff then s.clearDefect l 3 else s
  let x := s.line l
  if 5 ≤ x.rdiRun then s.declareDefect l 4 else if 5 ≤ x.rdiOff then s.clearDefect l 4 else s

/-- A received slot's BIP against the previous slot (R280). -/
def State.checkBip (s : State) (l bip : Nat) (os : List Nat) : State :=
  let s := match (s.line l).bipPrev with
    | some p => s.count LINE_FR_BIP l (popCount 8 (p ^^^ bip))
    | none => s
  s.setLine l { s.line l with bipPrev := some (bipOf os) }

/-- A trace octet of MFC `f` (R302); `ok` is false for a slot that fails check 1. -/
def State.takeTrace (s : State) (l f o : Nat) (ok : Bool) : State :=
  let x := s.line l
  let q := f % 64
  let good := (q = 0 || (x.traceOk && x.traceRun.length = q)) && ok
  let run := (if q = 0 then [] else x.traceRun) ++ [o]
  let s := s.setLine l { x with traceRun := run, traceOk := good }
  if q ≠ 63 ∨ !good then s
  else
    let accept := x.trace1 = some run && x.trace2 = some run
    let s := s.setLine l { s.line l with trace1 := some run, trace2 := x.trace1, traceRun := [], traceOk := false }
    if !accept then s
    else
      let word_ := fun i => ((List.range 4).map fun k => run.getD (4 * i + k) 0 * 2 ^ (9 * (3 - k))).sum
      let new := (List.range 16).any fun i => s.rd LINE_TTI_ACC l i ≠ word_ i
      let s := (List.range 16).foldl (fun s i => s.wr LINE_TTI_ACC (word_ i) l i) s
      let s := s.wr LINE_TTI_STAT_ACC_VALID 1 l
      (if new then s.occur LINE_TTI_NEW l else s).updateTim l

/-- A loading channel message received whole (R295). -/
def State.takeMessage (s : State) (l f : Nat) (m : List Nat) : State :=
  let n := m.length
  if m.headD 0 < 128 then s
  else if m.drop (n - 2) ≠ natToOctets 2 (crc16 (m.take (n - 2))) then s.count LINE_LDC_CRC l
  else
    let x := s.line l
    let o := fun i => m.getD i 0
    if f = 1 then s.setLine l { x with swIn := some (bitsOf (o 0) 6 6, bitsOf (o 0) 5 1, o 1, s.now) }
    else if f = 3 then s.setLine l { x with ackIn := some (o 1, o 2) }
    else
      let t := octetsToNat ((m.drop 3).take 40)
      let at_ := fun j => t / 2 ^ (10 * (31 - j)) % 1024
      s.setLine l { x with
        reqIn := some (⟨o 1, o 0 % 4, o 2 % 64, (List.range 32).map fun j => at_ j / 64, (List.range 32).map fun j => at_ j % 64⟩, s.now) }

/-- The LDC octets of MFC `f`; `ok` as for the trace. -/
def State.takeLdc (s : State) (l f : Nat) (os : List Nat) (ok : Bool) : State :=
  let start := if f < 2 then 0 else if f < 4 then 2 else 4
  let last := if f < 2 then 1 else if f < 4 then 3 else 15
  let have_ := if f = start then [] else (s.line l).ldc
  if 16 ≤ f ∨ !ok ∨ have_.length ≠ 4 * (f - start) then s.setLine l { s.line l with ldc := [] }
  else
    let m := have_ ++ os
    if f = last then (s.setLine l { s.line l with ldc := [] }).takeMessage l f m else s.setLine l { s.line l with ldc := m }

/-- Management data octets of MFC `f`: a block completes with its eighth slot (R298). -/
def State.takeMdc (s : State) (l f : Nat) (o0 o1 : List Nat) : State :=
  let x := s.line l
  let k := f % 8
  let goesOn := fun (have_ : List Nat) => x.mdcNext = f && have_.length = 12 * k
  let cat := fun (have_ o : List Nat) => if k = 0 then o else if goesOn have_ then have_ ++ o else []
  let m0 := cat x.mdc0 o0
  let m1 := cat x.mdc1 o1
  if k = 7 ∧ m0.length = 96 then
    s.setLine l { x with mdc0 := [], mdc1 := [], mdcDone0 := some m0, mdcDone1 := some m1 }
  else s.setLine l { x with mdc0 := m0, mdc1 := m1, mdcNext := f + 1 }

/-- A slot whose MFC is not known: the management data blocks being collected are not whole (R289, R298). -/
def State.dropMdc (s : State) (l : Nat) : State := s.setLine l { s.line l with mdc0 := [], mdc1 := [] }

/-- A slot received in frame while the receive side is impaired: no packet, trace octet or message is taken, and the received
octets of its management data channels are all ones (R293, R305). -/
def State.impairedSlot (s : State) (l : Nat) (idx : Option Nat) : State :=
  let s := s.emptyRx l
  match idx with
  | some f => s.takeMdc l f (List.replicate 12 255) (List.replicate 12 255)
  | none => s.dropMdc l

/-! ### Release (R283, R285, R304) -/

/-- A packet enters the pass-through FIFO of line `m`, or is dropped when it does not fit. -/
def State.putPt (s : State) (m : Nat) (p : LinePkt) : State :=
  let x := s.line m
  let used := (x.ptFifo.map fun q => q.octets.length + 8).sum
  let room := 2 * s.rd LINE_TX_STAT_RATE m * 12500
  if used + p.octets.length + 8 ≤ room then s.setLine m { x with ptFifo := x.ptFifo ++ [p] }
  else s.count LINE_PT_DROP m

/-- The packet at the head of a stream: none when it is not whole, else its outcome and the rest. -/
inductive Head
  | partial_
  | bad
  | idle (rest : List Nat)
  | packet (p : LinePkt) (rest : List Nat)

/-- Reads the header at the head of a stream. -/
def headOfStream (os : List Nat) : Head :=
  if os.length < 8 then .partial_
  else if (os.drop 6).take 2 ≠ natToOctets 2 (crc16 (os.take 6)) then .bad
  else
    let n := u16 os 0 / 4
    if n = 0 then .idle (os.drop 8)
    else if os.length < 8 + n then .partial_
    else
      .packet ⟨u16 os 0 % 4 * 16 + os.getD 2 0 / 16, os.getD 2 0 / 2 % 8, octetsToNat ((os.drop 3).take 3),
        (os.drop 8).take n⟩ (os.drop (8 + n))

/-- Packets of a stream are released in turn; `k` counts them against the bits of `ovr`, `n` bounds them. (DEDUCED, log entry 100.) -/
def State.release (l ovr : Nat) : Nat → Nat → List Nat → State → State
  | 0, _, os, s => s.setLine l { s.line l with stream := os, lost := false }
  | n + 1, k, os, s =>
    match headOfStream os with
    | .partial_ => s.setLine l { s.line l with stream := os, lost := false }
    | .bad => (s.setLine l { s.line l with stream := [], lost := true }).count LINE_PKT_HCRC l
    | .idle rest => release l ovr n k rest s
    | .packet p rest =>
      let ts := s.ptTargets l
      let s := if ts.isEmpty then s.takeLine l p (ovr.testBit k) else ts.foldl (fun s m => s.putPt m p) s
      release l ovr n (k + 1) rest s

/-- The checks of R285 on a PAYLOAD slot: the code of the first that fails, or the clear payload. -/
def State.payloadChecks (s : State) (l : Nat) (uncorr : Bool) (hdr payload trailer : List Nat) :
    Except Code (List Nat × Option (KeySlot × Bool × KeyGen × Nat)) :=
  let enc := (hdr.getD 9 0).testBit 4
  let phase := (hdr.getD 9 0).testBit 3
  let ctr := octetsToNat ((hdr.drop 48).take 8)
  if uncorr then .error LINE_FEC_UNCORR_FRAME
  else if !enc then (if s.rdb LINE_FR_CTL_DEC_REQ l then .error LINE_ENC_CLEAR else .ok (payload, none))
  else
    match (s.liveKey (.slot 0 (20 + l))).bind fun k => (k.gen phase).map fun g => (k, g) with
    | none => .error LINE_ENC_NOKEY
    | some (k, g) =>
      let iv := natToOctets 4 g.saltA ++ natToOctets 8 ctr
      if ctr ≤ g.hi then .error LINE_ENC_REPLAY
      else if gcmTag g.key iv (hdr.drop 8) payload ≠ trailer then .error LINE_TAG_FAIL
      else .ok (gcmText g.key iv payload, some (k, phase, g, ctr))

/-- The payload area of a received slot (R283, R285): the checks run, and their counters with them, also while the receive side
is impaired; then nothing is released.  An uncorrectable lane of the hold memory discards it (R523). -/
def State.takePayload (s : State) (l ovr : Nat) (uncorr : Bool) (hdr payload trailer : List Nat) (hits : List (Nat × BitVec 39)) :
    State :=
  let lose := fun (s : State) => s.setLine l { s.line l with stream := [], lost := true }
  match s.frameRead (97 + l) payload hits with
  | (none, s) => (lose s).count FRM_UNCORR l
  | (some payload, s) =>
  match s.payloadChecks l uncorr hdr payload trailer with
  | .error c => (lose s).count c l
  | .ok (text, key) =>
    let s := match key with
      | some (k, phase, g, ctr) =>
        ((s.setKey (.slot 0 (20 + l)) (some (k.setGen phase (some { g with hi := ctr })))).wr LINE_ENC_RXCTR_A
          (ctr / 2 ^ 32) l).wr LINE_ENC_RXCTR_B ctr l
      | none => s
    let x := s.line l
    let fpp := octetsToNat ((hdr.drop 16).take 3) % 2 ^ 19
    if s.impaired l then lose s
    else if x.lost then
      if fpp < text.length then State.release l ovr (text.length + 1) 0 (text.drop fpp) s else s
    else State.release l ovr (x.stream.length + text.length + 1) 0 (x.stream ++ text) s

/-- Bits of a slot from its first to its last trailer bit (R279). -/
def slotSpan (x : RxSlot) : Nat := 8 * (x.header.length + x.payload.length + x.trailer.length)

/-- Whether a bit of a slot lies in an uncorrected row (R275, R285). (DEDUCED, log entry 76.) -/
def State.slotUncorr (s : State) (l : Nat) (x : RxSlot) : Bool :=
  (s.line l).badRows.any fun b => decide (b < x.pos + slotSpan x) && decide (x.pos < b + 450)

/-- A slot received in frame. -/
def State.slotInFrame (s : State) (l ovr : Nat) (uncorr : Bool) (hdr payload trailer : List Nat) (hits : List (Nat × BitVec 39)) :
    State :=
  let o := fun i => hdr.getD i 0
  let mfc := o 8
  let pst := bitsOf (o 9) 6 5
  let s := ((s.wr LINE_FR_STAT_PSTATE pst l).wr LINE_FR_STAT_ENC (bitsOf (o 9) 4 4) l).wr LINE_FR_STAT_MFC mfc l
  let s := s.checkBip l (o 14) (hdr ++ payload ++ trailer)
  let s := if pst = 3 then s.count LINE_FR_PSTATE_BAD l else s
  let (idx, s) := s.multiframe l mfc uncorr
  let s := if uncorr then s else s.slotDefects l (pst = 2) ((o 9).testBit 7)
  let s :=
    if s.impaired l then s.impairedSlot l idx
    else match idx with
      | some f =>
        ((s.takeTrace l f (o 13) (!uncorr)).takeLdc l f ((hdr.drop 44).take 4) (!uncorr)).takeMdc l f
          ((hdr.drop 20).take 12) ((hdr.drop 32).take 12)
      | none => s.dropMdc l
  if pst = 0 then s.takePayload l ovr uncorr hdr payload trailer hits
  else s.setLine l { s.line l with stream := [], lost := true }

/-- LINE_SLOT_RECEIVED (R285–R289): bit k of `ovr` tells that the k-th packet released lies beyond the share of
the line's face (R407), and `hits` are the bits that have flipped in the lanes of the hold memory (R523). (DEDUCED, log
entry 76.) -/
def execLineSlotReceived (l : Fin 4) (slot : RxSlot) (ovr : Nat) (hits : List (Nat × BitVec 39)) (s : State) :
    Host.Outcome State Fault Refusal :=
  .next (
    if s.rxState l ≠ rxLocked then s
    else
      let hdr := slot.header.map BitVec.toNat
      let payload := slot.payload.map BitVec.toNat
      let trailer := slot.trailer.map BitVec.toNat
      let ok := decide (slot.fawErr ≤ s.rd LINE_FR_CTL_FAW_TOL l)
      let bptr := octetsToNat ((hdr.drop 10).take 3) % 2 ^ 18
      let st := s.rd LINE_FR_STAT_FSTATE l
      if st = fsHunt then s.huntMatch l slot.pos ok
      else if st = fsPresync then s.presyncSlot l slot.pos ok bptr
      else if st = fsIf then
        let s := s.ifSlot l slot.pos ok bptr
        let uncorr := s.slotUncorr l slot
        let s := s.setLine l { s.line l with badRows := (s.line l).badRows.filter fun b => decide (slot.pos < b + 450) }
        if s.rd LINE_FR_STAT_FSTATE l = fsIf then s.slotInFrame l ovr uncorr hdr payload trailer hits else s
      else s)

/-- LINE_OUTER_BLOCK_DONE (R271, R275, R277): the demapper's likelihoods of the coded bits of one block's stages, with those of
the next 48, go through the decoders; the first stage is at place `ph` of the puncturing period, and a multiframe begins
at stage `mf`. (DEDUCED, log entry 76.) -/
def execLineOuterBlockDone (l : Fin 4) (rx : List Int) (ph : Nat) (mf : Option Nat) (s : State) : Host.Outcome State Fault Refusal :=
  .next (
    if s.rxState l ≠ rxLocked then s
    else
      let x := s.line l
      let stages := depuncture (innerMasks (s.rxActive l).inner) ph mf (blockStages + 48) 0 rx
      let (codes, r) := x.codes.block (s.rdb LINE_FR_BLK_LOCK l) stages
      let bad := match r.left with
        | some (k, rows) => rows.map fun j => x.boundary + blockBits * k + 450 * j
        | none => []
      let b : BerCount := ⟨x.ber.pre + r.ber.pre, x.ber.coded + r.ber.coded, x.ber.mid + r.ber.mid, x.ber.bits + r.ber.bits⟩
      let s := s.setLine l { x with codes := codes, badRows := x.badRows ++ bad, ber := b }
      (((s.count LINE_FEC_UNCORR l bad.length).count LINE_FEC_LOWREL l r.low).count LINE_FEC_PRE l r.ber.pre).count
        LINE_FEC_MID l r.ber.mid)

/-- The persistence times of LOF and LOM in ticks (R290). -/
def persistTicks : Nat := 12000000

/-- LINE_DEFECT_PERSIST (R290, R291), while the line's domain is ON. (DEDUCED, log entry 86.) -/
def execLineDefectPersist (l : Fin 4) (s : State) : Host.Outcome State Fault Refusal :=
  .next (
    if !s.domOn (lineDomain l) then s
    else
      let inFrame := s.rd LINE_FR_STAT_FSTATE l = fsIf
      let s :=
        if s.now < (s.line l).fsAt + persistTicks then s
        else if inFrame then s.clearDefect l 1 else s.declareDefect l 1
      if !s.rdb LINE_FR_CTL_MF_EN l ∨ !inFrame ∨ s.now < (s.line l).imAt + persistTicks then s
      else if s.rdb LINE_FR_STAT_IM l then s.clearDefect l 2
      else s.declareDefect l 2)

/-! ### Management data channels (R298–R301) -/

/-- The slip buffer of a channel: of the receive path, or of the transmit path when `tx`. -/
def State.slip (s : State) (l h : Nat) (tx : Bool) : SlipBuf :=
  sget (fun _ => {}) (if tx then (s.line l).slipTx else (s.line l).slipRx) h

/-- The state with a slip buffer replaced. -/
def State.setSlip (s : State) (l h : Nat) (tx : Bool) (b : SlipBuf) : State :=
  let x := s.line l
  s.setLine l (if tx then { x with slipTx := sput (fun _ => {}) x.slipTx h b }
    else { x with slipRx := sput (fun _ => {}) x.slipRx h b })

/-- A block completes on its way into a slip buffer (R300); the counters are per line and per channel. -/
def State.pushSlip (s : State) (l h : Nat) (tx : Bool) (blk : List Nat) : State :=
  let b := s.slip l h tx
  if 2 ≤ b.blocks.length then s.count2 LINE_OH_SLIP_DROP l (4 + 2 * l + h)
  else s.setSlip l h tx { b with blocks := b.blocks ++ [blk] }

/-- A block is read from a slip buffer, the last one again when none is unread (R300). -/
def State.pullSlip (s : State) (l h : Nat) (tx : Bool) : List Nat × State :=
  let b := s.slip l h tx
  match b.blocks, b.last with
  | x :: t, _ => (x, s.setSlip l h tx ⟨t, some x⟩)
  | [], some x => (x, s.count2 LINE_OH_SLIP_REP l (4 + 2 * l + h))
  | [], none => (List.replicate 96 255, s)

/-- The block of a channel that an impaired receive side gives in place of what it received (R293). -/
def allOnes : List Nat := List.replicate 96 255

/-- MDC_BLOCK_RECEIVED (R293, R298–R300): the block goes where the channel's route says; while the receive side is impaired
its slip buffers stay empty, and the service link is given blocks of all ones. -/
def execMdcBlockReceived (l : Fin 4) (h : Fin 2) (s : State) : Host.Outcome State Fault Refusal :=
  .next (
    let x := s.line l
    if !s.domOn (lineDomain l) then s
    else
      let imp := s.impaired l
      match (if imp then some allOnes else if h.val = 0 then x.mdcDone0 else x.mdcDone1) with
      | none => s
      | some blk =>
        let s := s.setLine l (if h.val = 0 then { x with mdcDone0 := none } else { x with mdcDone1 := none })
        let r := s.route l h
        if r = 2 then
          if 2 ≤ (s.svc.ohOut.filter fun b => b.1 = l.val && b.2.1 = h.val).length then
            s.count2 LINE_OH_SLIP_DROP l (4 + 2 * l + h)
          else { s with svc := { s.svc with ohOut := s.svc.ohOut ++ [(l.val, h.val, blk)] } }
        else if imp then s
        else if r = 1 then s.pushSlip l h false blk
        else if r = 3 then
          (s.ptTargets l).foldl (fun s m => if s.route m h = 3 then s.pushSlip m h true blk else s) s
        else s)

/-- The block that a serial port sends next (R299–R301, R611). -/
def State.portBlock (s : State) (l h : Nat) : List Nat × State :=
  if s.route l h ≠ 1 then (List.replicate 96 0, s)
  else if !s.domOn (lineDomain l) || s.impaired l then (allOnes, s)
  else s.pullSlip l h false

/-- MDC_BLOCK_NEEDED (R299–R301): the serial port of the channel needs a block when `port`, else the transmitter;
`input` is the block the port has received from the host. -/
def execMdcBlockNeeded (l : Fin 4) (h : Fin 2) (port : Bool) (input : List (BitVec 8)) (s : State) :
    Host.Outcome State Fault Refusal :=
  .next (
    let r := s.route l h
    let put := fun (s : State) (blk : List Nat) =>
      s.setLine l { s.line l with mdcTx := sput (fun _ => []) (s.line l).mdcTx h blk }
    if port then
      if s.mode = modeBackup then s
      else
        let (b, s) := s.portBlock l h
        { s with ohDo := sput (fun _ => allOnes) s.ohDo (2 * l + h) b }
    else if !s.domOn (lineDomain l) then s
    else if r = 0 then put s []
    else if r = 1 then put s ((input.map BitVec.toNat).take 96)
    else if r = 2 then let (b, s) := s.pullSlip l h true; put s b
    else
      match s.ptSource l with
      | none => put s allOnes
      | some m => if s.impaired m then put s allOnes else let (b, s) := s.pullSlip l h true; put s b)

/-- What serial overhead port `q` drives: none in BACKUP, where OHCLK, OHFS and OHDO are held low; else the bits that OHDO carries
in the present block, the first one while OHFS is high, OHCLK running at 96 MHz (R301, R611). (DEDUCED, log entry 123.) -/
def State.ohPort (s : State) (q : Nat) : Option (List Bool) :=
  let l := q / 2
  if s.mode = modeBackup then none
  else if s.route l (q % 2) ≠ 1 then some (List.replicate 768 false)
  else if !s.domOn (lineDomain l) then some (List.replicate 768 true)
  else some (octetBits (sget (fun _ => allOnes) s.ohDo q))

end Sys2Proof.Machine
end

