-- ==== Sys2Proof/Machine/Edw.lean ====
section
/-! DEFINITION. Edelweiss keys, providers and the self-tests (spec/12): what its words show, loading, erasing
and switching keys, identity, and the error state. -/

namespace Sys2Proof.Machine

open Ev Reg

/-! ### Key slots and classes (R456, R457) -/

/-- The classes of R456. -/
inductive KeyClass
  | cmd | img | trm | ltx | lrx | egcm | ehmac
  deriving DecidableEq, Repr

/-- The class of a slot of a page; none for a reserved slot. -/
def classOf (page slot : Nat) : Option KeyClass :=
  if slot = 0 then some .cmd
  else if slot = 1 then if page = 0 then some .img else none
  else if slot = 2 then some .trm
  else if 16 ≤ slot ∧ slot < 20 then if page = 0 then some .ltx else none
  else if 20 ≤ slot ∧ slot < 24 then if page = 0 then some .lrx else none
  else if 128 ≤ slot ∧ slot < 192 then some .egcm
  else if 192 ≤ slot ∧ slot < 256 then some .ehmac
  else none

/-- `EDW_KEY.CLASS` of a class held in a page slot (R479). -/
def KeyClass.code : KeyClass → Nat
  | .cmd => 1
  | .img => 2
  | .trm => 0
  | .ltx => 3
  | .lrx => 4
  | .egcm => 5
  | .ehmac => 6

/-- Whether a class has two generations (R456). -/
def KeyClass.twoGens : KeyClass → Bool
  | .trm | .ltx | .lrx => true
  | .cmd | .img | .egcm | .ehmac => false

/-- Whether a class takes a switch (R459). -/
def KeyClass.switches : KeyClass → Bool
  | .trm | .ltx => true
  | .cmd | .img | .lrx | .egcm | .ehmac => false

/-- Whether a class carries USE (R461). -/
def KeyClass.engine : KeyClass → Bool
  | .egcm | .ehmac => true
  | .cmd | .img | .trm | .ltx | .lrx => false

/-- U of the active generation. -/
def KeySlot.used (k : KeySlot) : Nat := ((k.gen k.act).map (·.used)).getD 0

/-- The four words `EDW_KEY[s]` of a page (R479). -/
def State.keyWords (s : State) (page slot : Nat) : List Nat :=
  match sget (fun _ => none) s.edw.keys (256 * page + slot), classOf page slot with
  | some k, some c =>
    if k.g0.isNone && k.g1.isNone then [0, 0, 0, 0]
    else
      [c.code * 2 ^ 33 + b2n k.g0.isSome * 2 ^ 32 + b2n k.g1.isSome * 2 ^ 31 + b2n k.act * 2 ^ 30 +
        b2n k.pend.isSome * 2 ^ 29 + k.use % 16 * 2 ^ 25, k.used / 2 ^ 32 % 2 ^ 32, k.used % 2 ^ 32, 0]
  | _, _ => [0, 0, 0, 0]

/-- The four words `EDW_TRK[i]` (R480). -/
def State.trkWords (s : State) (i : Nat) : List Nat :=
  let fail := s.rd EDW_TRK_TAGFAIL 0 i * 2 ^ 20
  match sget (fun _ => none) s.edw.trk i with
  | none => [0, 0, 0, fail]
  | some k =>
    [k.page % 64 * 2 ^ 30 + b2n k.g0.isSome * 2 ^ 29 + b2n k.g1.isSome * 2 ^ 28 + b2n k.act * 2 ^ 27 +
      b2n k.pend.isSome * 2 ^ 26, k.used / 2 ^ 32 % 2 ^ 32, k.used % 2 ^ 32, fail]

/-! ### Octet fields of a payload (R461) -/

/-- Octet `q` of a field that begins at word `w`. -/
def Cmd.octet (c : Cmd) (w q : Nat) : Nat := (c.w (w + q / 4)).bits (9 * (3 - q % 4) + 7) (9 * (3 - q % 4))

/-- `n` octets of a field that begins at word `w`. -/
def Cmd.octets (c : Cmd) (w n : Nat) : List Nat := (List.range n).map (c.octet w)

/-- The mask of a word of four octets: lane bits 8 are zero. -/
def octetMask : Nat := 0o377377377377

/-- A point of 96 octets, x then y. -/
def pointOf (os : List Nat) : Nat × Nat := (octetsToNat (os.take 48), octetsToNat (os.drop 48))

/-- The octets of a point. -/
def pointOctets (p : Nat × Nat) : List Nat := natToOctets 48 p.1 ++ natToOctets 48 p.2

/-- Whether the 96 octets `sig`, r then s, sign the message under a public key of 96 octets (R116). -/
def signs (key sig msg : List Nat) : Bool :=
  ecdsaVerify (pointOf key) (octetsToNat (sha384 msg)) (octetsToNat (sig.take 48)) (octetsToNat (sig.drop 48))

/-- The operator image key, as 96 octets. -/
def State.operatorKey (s : State) : Option (List Nat) :=
  ((sget (fun _ => none) s.edw.keys 1).bind (·.g0)).map (·.key)

/-- The module serial as 8 octets. -/
def serialOctets : List Nat := natToOctets 8 Config.serial

/-! ### `KEY.LOAD` (R461–R467) -/

/-- A key named as word 0 of `KEY.LOAD` names it. -/
structure KeyName where
  page : Nat
  slot : Nat
  gen : Bool
  use : Nat
  recover : Bool
  switch : Bool
  spare : Bool
  term : Nat
  deriving DecidableEq, Repr

/-- The name in a word. -/
def keyName (w : Word) : KeyName :=
  ⟨w.bits 35 30, w.bits 29 22, w.bit 21, w.bits 20 17, w.bit 16, w.bit 15, w.bit 14, w.bits 13 0⟩

/-- What the name refers to in the key store. -/
def KeyName.ref (n : KeyName) : KeyRef := if n.slot = 2 then .term n.term else .slot n.page n.slot

/-- Whether the name itself is in order for its class (R462 step 1). -/
def KeyName.ok (n : KeyName) : Bool :=
  match classOf n.page n.slot with
  | none => false
  | some c =>
    !n.spare && (c.engine || n.use = 0) && (c.twoGens || !n.gen) && (c.switches || !n.switch) &&
      (!n.recover || (n.page = 0 && n.slot = 0)) && (n.slot = 2 || n.term = 0)

/-- The first payload word that R462 step 1 finds at fault. -/
def Cmd.loadFault (c : Cmd) (n : KeyName) : Option Nat :=
  let form := (c.w 3).bits 1 0
  let lpBad := n.switch && !lpOk (c.w 2).toNat
  let last := if form = 1 then 52 else if n.recover then 64 else 40
  if !n.ok then some 0
  else if !n.switch && c.w 1 ≠ 0 then some 1
  else if (!n.switch && c.w 2 ≠ 0) || lpBad then some 2
  else if (c.w 3).bits 35 2 ≠ 0 || form ≠ b2n (n.slot = 1) then some 3
  else (reservedAt c.pkt.words (List.replicate (last - 4) octetMask) 4)

/-- Whether generation `g` may not be reloaded or erased: it is active while present, or a pending switch names
it (R459). -/
def KeySlot.bound (k : KeySlot) (g : Bool) : Bool :=
  (k.act = g && (k.gen g).isSome) || (match k.pend with
    | some (h, _) => h = g
    | none => false)

/-- R462 steps 3 and 4, shared with `KEY.ERASE`. -/
def State.keyState (s : State) (n : KeyName) : Option Nat :=
  let t := s.tst n.term
  let held : Bool := match classOf n.page n.slot, s.keyOf n.ref with
    | some .trm, some k | some .ltx, some k => k.bound n.gen || (n.switch && k.pend.isSome)
    | _, _ => false
  if n.slot = 2 ∧ t.2.2.1 ≠ n.page then some ePage
  else if (n.slot = 2 ∧ t.1 = tFree) ∨ held then some eState
  else none

/-- FixedInfo of R460. -/
def KeyName.info (n : KeyName) : List Nat :=
  serialOctets ++ [n.page, n.slot, b2n n.gen] ++ natToOctets 2 n.term ++ [n.use]

/-- The blob that 48 wrapped octets carry, under the key agreed from the ephemeral key E (R460). -/
def unwrapBlob (d : Nat) (e : Nat × Nat) (info wrapped : List Nat) : Option (List Nat) :=
  match ecMul d e with
  | none => none
  | some z => kwUnwrap ((sha384 ([0, 0, 0, 1] ++ natToOctets 48 z.1 ++ info)).take 32) wrapped

/-- The salts a blob of the class must leave zero (R460). -/
def unusedSalts (c : KeyClass) (blob : List Nat) : List Nat :=
  match c with
  | .trm => []
  | .ltx | .lrx | .egcm => blob.drop 36
  | .cmd | .img | .ehmac => blob.drop 32

/-- The message that a RECOVER load signs (R467). -/
def State.recoverMsg (s : State) (c : Cmd) : List Nat :=
  serialOctets ++ natToOctets 4 (s.rd EDW_RECOV_CNT) ++ packWords (c.pkt.words.take 40)

/-- Steps 2 to 10 of R462: the status of the first that fails, or what is installed. -/
def State.judgeLoad (s : State) (c : Cmd) (n : KeyName) (cls : KeyClass) : Except (Nat × State) KeyLoad :=
  let fail := fun st => Except.error (st, s)
  let key := c.octets 4 96
  let swLp := lpTicks (c.w 1).toNat (c.w 2).toNat
  let lp := if n.switch then some swLp else none
  let load := fun k a b => Except.ok ⟨c.tag, n.page, n.slot, n.gen, n.use, n.term, lp, n.recover, k, a, b⟩
  if !onCurve (pointOf key) then fail eRange
  else
    match s.keyState n with
    | some st => fail st
    | none =>
      if cls = .img then
        let sig := c.octets 28 96
        match s.operatorKey with
        | none => if sig.all (· = 0) then load key 0 0 else fail eSig
        | some old => if signs old sig (serialOctets ++ [1] ++ key) then load key 0 0 else fail eSig
      else
        match s.edw.tkey with
        | none => fail eKey
        | some d =>
          if n.recover && s.operatorKey.isNone then fail eKey
          else if n.switch && swLp ≠ 0 && decide (swLp < s.now) then fail eLate
          else if n.recover && !(s.operatorKey.any fun k => signs k (c.octets 40 96) (s.recoverMsg c)) then fail eSig
          else
            match unwrapBlob d (pointOf key) n.info (c.octets 28 48) with
            | none => .error (eAuth, s.count EDW_UNWRAP_FAIL n.page)
            | some blob =>
              let a := octetsToNat ((blob.drop 32).take 4)
              let b := octetsToNat ((blob.drop 36).take 4)
              if !((unusedSalts cls blob).all (· = 0)) then fail eReserved
              else if cls = .trm ∧ a = b then fail eRange
              else load (blob.take 32) a b

/-- `KEY.LOAD` (R462): a load that passes is installed when the command completes (R463). -/
def State.cmdKeyLoad (c : Cmd) (s : State) : State :=
  let n := keyName (c.w 0)
  match c.loadFault n, classOf n.page n.slot with
  | some i, _ => s.complete c.tag eReserved i
  | none, none => s.complete c.tag eReserved
  | none, some cls =>
    match s.judgeLoad c n cls with
    | .error (st, s) => s.complete c.tag st
    | .ok l => { s with edw := { s.edw with loads := s.edw.loads ++ [l] } }

/-- An empty slot. -/
def KeySlot.empty : KeySlot := ⟨none, none, false, none, 0, 0⟩

/-- The name a load installs under. -/
def KeyLoad.ref (l : KeyLoad) : KeyRef := if l.slot = 2 then .term l.term else .slot l.page l.slot

/-- The generation a load names is replaced (R463), and its switch is scheduled or made (R459). -/
def State.installKey (s : State) (l : KeyLoad) : State :=
  let k := (s.keyOf l.ref).getD KeySlot.empty
  let k := { k.setGen l.gen (some ⟨l.key, l.saltA, l.saltB, 0, false, false, 0, []⟩) with use := l.use, page := l.page }
  let k := match l.switchLp with
    | none => k
    | some t => if t ≤ s.now then { k with act := l.gen, pend := none } else { k with pend := some (l.gen, t) }
  (s.setKey l.ref (some k)).count EDW_KEY_LOADED l.page

/-- What loading slot 0 of a page does beside (R463, R466). -/
def State.commandKeyLoaded (s : State) (page : Nat) : State :=
  let s := (((s.wr EDW_PG_CTR_A 0 page).wr EDW_PG_CTR_B 0 page).wr EDW_PG_STAT_LOCKED 0 page).wr EDW_PG_STAT_CTR_HIGH 0 page
  let s := (s.wr EDW_PG_STAT_CKEY 1 page).inc EDW_PG_STAT_EPOCH 1 page
  let s := if page = 0 then s.wr EDW_STAT_BOOTSTRAP 0 else s
  s.occur EDW_CKEY_CHANGE page [page, s.rd EDW_PG_STAT_EPOCH page]

/-- The completion of the bootstrap load is authenticated by the key it installed (R463). -/
def State.bootstrapAuth (s : State) (l : KeyLoad) : State :=
  match s.cmdAt l.tag with
  | some c => match c.auth with
    | some (ctr, []) => s.setCmd l.tag (some { c with auth := some (ctr, l.key) })
    | _ => s
  | none => s

/-- KEY_LOAD_COMPLETE (R462, R463, R467). -/
def execKeyLoadComplete (tag : Fin 512) (s : State) : Host.Outcome State Fault Refusal :=
  .next (
    match s.edw.loads.find? fun l => l.tag = tag.val with
    | none => s
    | some l =>
      if !s.up then s
      else
        let s := { s with edw := { s.edw with loads := s.edw.loads.filter fun x => x.tag ≠ tag.val } }
        let s := s.installKey l
        let s := if l.slot = 0 then (s.commandKeyLoaded l.page).bootstrapAuth l else s
        let s := if l.slot = 1 then s.wr EDW_STAT_IMGKEY 1 else s
        let s := if l.recover then (s.inc EDW_RECOV_CNT).occur EDW_RECOVER else s
        s.complete tag eOk 0 1)

/-- KEY_SWITCH (R459): the pending switch of a terminal's key, or of the transmit key of line `index`. -/
def execKeySwitch (terminal : Bool) (index : Nat) (s : State) : Host.Outcome State Fault Refusal :=
  .next (
    let r : KeyRef := if terminal then .term index else .slot 0 (16 + index % 4)
    match s.keyOf r with
    | none => s
    | some k => match k.pend with
      | none => s
      | some (g, t) => if s.up && decide (t ≤ s.now) then s.setKey r (some { k with act := g, pend := none }) else s)

/-! ### `KEY.ERASE` and `KEY.IDENT` (R468, R470) -/

/-- A slot without one of its generations; none once it holds no generation. -/
def KeySlot.erase (k : KeySlot) (g : Bool) : Option KeySlot :=
  let k := k.setGen g none
  if k.g0.isNone && k.g1.isNone then none else some k

/-- `KEY.ERASE` (R468). -/
def State.cmdKeyErase (c : Cmd) (s : State) : State :=
  let n := keyName (c.w 0)
  if !n.ok || n.use ≠ 0 || n.recover || n.switch then s.complete c.tag eReserved 0
  else if c.w 1 ≠ 0 then s.complete c.tag eReserved 1
  else
    match s.keyState n with
    | some st => s.complete c.tag st
    | none =>
      if n.page = 0 ∧ n.slot < 2 then s.complete c.tag eState
      else
        match s.keyOf n.ref with
        | none => s.complete c.tag eOk
        | some k =>
          if (k.gen n.gen).isNone then s.complete c.tag eOk
          else
            let s := (s.setKey n.ref (k.erase n.gen)).count EDW_KEY_ERASED n.page
            let s :=
              if n.slot = 0 then
                (s.wr EDW_PG_STAT_CKEY 0 n.page).occur EDW_CKEY_CHANGE n.page [n.page, s.rd EDW_PG_STAT_EPOCH n.page]
              else s
            s.complete c.tag eOk 0 1

/-- The transport public key (R453). -/
def State.transportKey (s : State) : List Nat :=
  match s.edw.tkey with
  | none => List.replicate 96 0
  | some d => pointOctets ((ecMul d g384).getD (0, 0))

/-- Four octets a word, in lanes 3 to 0 (R461). -/
def octetWords (os : List Nat) : List Nat :=
  (List.range ((os.length + 3) / 4)).map fun i =>
    ((List.range 4).map fun j => os.getD (4 * i + j) 0 * 2 ^ (9 * (3 - j))).sum

/-- d16 bits 35–30 (R470). -/
def State.identFlags (s : State) : Nat :=
  32 * s.rd EDW_STAT_IDENT + 16 * s.rd EDW_STAT_TKEY + 8 * s.rd EDW_STAT_TAMPERED + 4 * s.rd EDW_STAT_ERROR +
    2 * s.rd EDW_STAT_APPROVED + s.rd EDW_STAT_IMGKEY

/-- The attestation signature (R470); its random value is the DRBG's, which the spec leaves open. (DESIGN CHOICE, log entry 63; DEDUCED, log entry 75.) -/
def State.attestation (s : State) (challenge : Nat) : List Nat :=
  if !s.rdb EDW_STAT_IDENT || s.edw.tkey.isNone || s.rdb EDW_STAT_ERROR then List.replicate 96 0
  else
    let msg := serialOctets ++ natToOctets 8 challenge ++ natToOctets 4 (s.rd EDW_ZCOUNT) ++ [4 * s.identFlags] ++
      s.transportKey
    pointOctets (ecdsaSign Config.identityKey (octetsToNat (sha384 msg)) (1 + s.open_ % (n384 - 1)))

/-- The data of `KEY.IDENT` SEL 0. -/
def State.identWords (s : State) (challenge : Nat) : List Nat :=
  let len := Config.certLength % 2049
  [Config.lot % 2 ^ 24 * 2 ^ 12 + Config.wafer % 32 * 2 ^ 7, Config.dieX % 256 * 2 ^ 28 + Config.dieY % 256 * 2 ^ 20,
    Config.serial / 2 ^ 32 % 2 ^ 32, Config.serial % 2 ^ 32] ++
    (List.range 12).map (fun i => Config.opticsId i % 2 ^ 32) ++ [s.identFlags * 2 ^ 30, s.rd EDW_ZCOUNT] ++
    octetWords s.transportKey ++ octetWords (s.attestation challenge) ++ [len] ++
    octetWords ((List.range len).map fun i => Config.certOctet i % 256)

/-- Whether a key named for a page of 1–63 is a terminal key of another page: by `TREE_TST` or by its own entry (R454). -/
def State.foreignTerm (s : State) (n : KeyName) : Bool :=
  n.slot = 2 && ((s.tst n.term).2.2.1 ≠ n.page || (s.keyOf n.ref).any fun k => k.page ≠ n.page)

/-- `KEY.IDENT` (R454, R470); the result word, which the spec does not state, is an open value. (DESIGN CHOICE, log entry 63;
DEDUCED, log entry 140.) -/
def State.cmdIdent (c : Cmd) (s : State) : State :=
  s.unreserved c [mask 1 0] fun s =>
    let sel := (c.w 0).bits 1 0
    if 2 ≤ sel then s.complete c.tag eReserved
    else if sel = 0 then
      s.unreserved c [mask 1 0, mask 31 0, mask 31 0] fun s =>
        (s.used 2).complete c.tag eOk 0 (Config.open (s.free + 1))
          (cleanWords (s.identWords ((c.w 1).toNat * 2 ^ 32 + (c.w 2).toNat)))
    else
      let n := keyName (c.w 1)
      if !n.ok || n.use ≠ 0 || n.recover || n.switch || n.gen then s.complete c.tag eReserved 1
      else if c.w 2 ≠ 0 then s.complete c.tag eReserved 2
      else if c.page ≠ 0 ∧ (n.page ≠ c.page ∨ s.foreignTerm n) then s.complete c.tag ePage
      else
        s.used.complete c.tag eOk 0 s.open_
          (cleanWords (if n.slot = 2 then s.trkWords n.term else s.keyWords n.page n.slot))

/-! ### Self-tests, the error state, the DRBG and the transport key (R446–R448, R453) -/

/-- The pre-operational self-tests and power-up CASTs have ended (R446, R447). -/
def State.testsEnded (s : State) : State :=
  { s with edw := { s.edw with tested := true, castAt := s.now, seedAt := s.now, castFail := false } }

/-- EDW_SELFTEST_DONE (R446, R447): `fail` is the ECODE of the test that failed; an instance that has failed its CAST keeps
the error state in force. -/
def execEdwSelftestDone (fail : Option (Fin 12)) (s : State) : Host.Outcome State Fault Refusal :=
  .next (
    if !s.domOn 77 || s.edw.tested || s.pwr.hrst then s
    else match fail with
      | none =>
        if s.edw.castFail then s.testsEnded.selfTestFail 11
        else ((s.testsEnded.wr EDW_STAT_APPROVED 1).wr EDW_STAT_ERROR 0).wr EDW_STAT_ECODE 0
      | some k => if k.val = 0 then s else s.testsEnded.selfTestFail k)

/-- Ticks of an hour. -/
def ticksHour : Nat := 3600 * ticksSec

/-- EDW_CAST_PERIODIC (R446, R447). -/
def execEdwCastPeriodic (fail : Option (Fin 12)) (s : State) : Host.Outcome State Fault Refusal :=
  .next (
    if !s.up || !s.edw.tested || s.rdb EDW_STAT_ERROR || decide (s.now < s.edw.castAt + 24 * ticksHour) then s
    else
      let s := { s with edw := { s.edw with castAt := s.now } }
      match fail with
      | none => s
      | some k => if k.val = 0 then s else s.selfTestFail k)

/-- ENTROPY_HEALTH_FAIL (R446–R448): in the start-up tests, or continuously. -/
def execEntropyHealthFail (startup : Bool) (s : State) : Host.Outcome State Fault Refusal :=
  .next (
    if !s.up then s
    else if startup then (if s.edw.tested then s else s.testsEnded.selfTestFail 8)
    else if s.rdb EDW_STAT_ERROR then s
    else s.selfTestFail 9)

/-- DRBG_RESEED (R448): after 2^20 requests, which the command tells, or 600 s. -/
def execDrbgReseed (requests : Bool) (s : State) : Host.Outcome State Fault Refusal :=
  .next (
    if s.up && s.edw.tested && !s.rdb EDW_STAT_ERROR && (requests || decide (s.edw.seedAt + 600 * ticksSec ≤ s.now)) then
      { s with edw := { s.edw with seedAt := s.now } }.count EDW_DRBG_RESEED
    else s)

/-- TRANSPORT_KEY_GEN (R446, R453), after the tests and not during a zeroise: the private key is drawn from the DRBG, an
open value. (DEDUCED, log entry 75.) -/
def execTransportKeyGen (pairwiseOk : Bool) (s : State) : Host.Outcome State Fault Refusal :=
  .next (
    if s.up && s.edw.tested && !s.rdb EDW_STAT_ERROR && s.edw.tkey.isNone && s.edw.zeroing.isNone then
      if pairwiseOk then
        ({ s.used with edw := { s.edw with tkey := some (1 + s.open_ % (n384 - 1)) } }).wr EDW_STAT_TKEY 1
      else s.selfTestFail 10
    else s)

end Sys2Proof.Machine
end

