-- ==== Sys2Proof/Machine/Cores.lean ====
section
/-! DEFINITION. Cores as the module sees them from outside (spec/03): packet windows, the image store and the
image loader, starting, halting and resetting. -/

namespace Sys2Proof.Machine

open Ev Reg

/-! ### Packet windows (R94–R98) -/

/-- A write of a window's first word has been made (R95): MODE 0 closes it; any other MODE asks for it to be
opened on HANDLE. -/
def State.wroteWindow (s : State) (n w : Nat) : State :=
  let c := s.core n
  let s := s.wr CORE_WIN_H_OPEN 0 n w
  if s.rd CORE_WIN_H_MODE n w = 0 then s.setCore n { c with winPend := c.winPend.filter (· ≠ w) }
  else (s.wr CORE_WIN_H_DENY 0 n w).setCore n { c with winPend := w :: c.winPend.filter (· ≠ w) }

/-- WINDOW_OPEN_RESOLVED (R95): the buffer controller accepts a packet held for this core. -/
def execWindowOpenResolved (n : Nat) (win : Fin 4) (s : State) : Host.Outcome State Fault Refusal :=
  .next (
    let c := s.core n
    if !c.winPend.contains win.val || s.coreState n = cOff then s
    else
      let s := s.setCore n { c with winPend := c.winPend.filter (· ≠ win.val) }
      match s.byHandle (s.rd CORE_WIN_H_HANDLE n win) with
      | some (_, p) =>
        if p.held = n + 1 then (s.wr CORE_WIN_H_OPEN 1 n win).wr CORE_WIN_L_LEN p.len n win
        else ((s.wr CORE_WIN_H_MODE 0 n win).wr CORE_WIN_H_DENY 1 n win).count WIN_DENY n
      | none => ((s.wr CORE_WIN_H_MODE 0 n win).wr CORE_WIN_H_DENY 1 n win).count WIN_DENY n)

/-- Whether any window is open on the packet of a descriptor, or an access issued while one was has not completed
(R95, R98). -/
def State.windowed (s : State) (d : Nat) : Bool :=
  ((List.range 77).any fun n => (List.range 4).any fun w =>
    s.rdb CORE_WIN_H_OPEN n w && s.rd CORE_WIN_H_HANDLE n w % 2 ^ 26 = d) ||
  s.mtx.any fun r => r.win.any fun v => v.bits 25 0 = d

/-! ### Requests that wait at the matrix (R101, R102) -/

/-- The first word of the window that a place names, where it is open (R95). -/
def State.openWindow (s : State) : Place → Option Word
  | .win n w _ => if s.rdb CORE_WIN_H_OPEN n w then some (s.reg (CORE_WIN_H_MODE.addr n w 0)) else none
  | _ => none

/-- A request that cannot be served now enters the list of those that wait: behind an earlier request of its ordering
domain to a different target (R101), at its master port while its target has no space for it (R102), or admitted, at the
port of its target (R103).  An engine operation whose request waits has no second one. (DESIGN CHOICE, log entry 48; DEDUCED, log entry 49.) -/
def State.request (s : State) (n : Nat) (g : Agent) (p : Place) (posted : Option (Nat × PWord)) : State :=
  let mine := s.mtx.filter fun r => r.core = n && r.by_ = g && r.stage ≠ .served
  let put := fun (st : ReqStage) (adm : Nat) =>
    { s with mtx := s.mtx ++ [⟨n, g, p.addr, st, s.now, adm, posted, s.rdb CORE_CTL_REMAP n, s.openWindow p⟩] }
  if g.single ∧ !mine.isEmpty then s
  else if mine.any fun r => targetPort r.addr ≠ p.port then (put .heldBack 0).count MTX_HOLD_ORD (matrixOf n)
  else if s.heldBack p then
    let s := put .waiting 0
    match p with
    | .mem _ | .reg _ => if ownRam n p then s else s.count MTX_HOLD_DL (matrixOf n)
    | _ => s
  else put .admitted s.now

/-! ### The zeroing of memories (R83) -/

/-- MEM_ZERO_DONE (R83). -/
def execMemZeroDone (inst : Nat) (s : State) : Host.Outcome State Fault Refusal :=
  .next { s with zeroing := s.zeroing.filter (· ≠ inst) }

/-! ### Starting and halting (R77, R119) -/

/-- Registers at a start from LOADED (R77). -/
def startRegs (n : Nat) : List (Nat × PWord) :=
  sput (fun _ => PWord.zero) (sput (fun _ => PWord.zero) [] 1 ⟨word n, false⟩) 23 ⟨word (localSize n), false⟩

/-- The core becomes RUNNING: fresh from LOADED, resumed from HALTED (R77, R119). -/
def State.coreRuns (s : State) (n : Nat) : State :=
  let c := s.core n
  if s.rd CORE_STAT_STATE n = cLoaded then
    ((s.setCore n { c with
        regs := startRegs n, nf := false, zf := false, cf := false, vf := false, fp := false
        pc := s.rd CORE_ENTRY n, startT := s.now, remapPend := none, wait := none, waitDesc := [], haltReq := false, armed := none
        smpCnt := 0 }).wr CORE_CTL_REMAP 1 n).wr CORE_STAT_STATE cRunning n
  else (s.setCore n { c with armed := none, wait := none, waitDesc := [], haltReq := false }).wr CORE_STAT_STATE cRunning n

/-- CORE_START_AT_LP (R119). (DEDUCED, log entry 8.) -/
def execCoreStartAtLp (n : Nat) (s : State) : Host.Outcome State Fault Refusal :=
  .next (
    let st := s.coreState n
    match (s.core n).armed with
    | none => s
    | some t => if t ≤ s.now ∧ (st = cLoaded ∨ st = cHalted) then s.coreRuns n else s)

/-- The instructions that HALT interrupts while they wait: the core stops at them (R139, R147, R150). -/
def stopsAt : Instr → Bool
  | .waitp .. | .issue .. | .waitt .. | .waita .. => true
  | _ => false

/-- HALT written to a RUNNING core (R119): it stops after its current instruction, or at one that HALT interrupts. -/
def State.haltCore (s : State) (n : Nat) : State :=
  let c := s.core n
  match c.wait with
  | none => s.wr CORE_STAT_STATE cHalted n
  | some i =>
    if stopsAt i then (s.setCore n { c with wait := none, waitDesc := [] }).wr CORE_STAT_STATE cHalted n
    else s.setCore n { c with haltReq := true }

/-- The start LP of a core as a tick; `0:0:0` is now (R112). -/
def State.startLp (s : State) (n : Nat) : Nat :=
  let t := lpTicks (s.rd CORE_START_A n) (s.rd CORE_START_B n)
  if t = 0 then s.now else t

/-- START of a core (R119): armed, or refused as late. (DEDUCED, log entry 66.) -/
def State.startCore (s : State) (n : Nat) : State :=
  let st := s.coreState n
  if st = cLoaded ∨ st = cHalted then
    if s.startLp n < s.now then s.wr CORE_STAT_LATE 1 n
    else (s.wr CORE_STAT_LATE 0 n).setCore n { s.core n with armed := some (s.startLp n) }
  else s

/-! ### The image loader's work on a core (R117–R119, R589) -/

/-- The target being copied. -/
def ImgLoad.target (l : ImgLoad) : Nat := l.targets.getD l.loaded 127

/-- The loader takes the next load that waits. (DEDUCED, log entry 64.) -/
def State.nextLoad (s : State) : State :=
  { s with img := { s.img with load := s.img.waiting.head?, waiting := s.img.waiting.tail } }

/-- A load ends with a status: its command completes. -/
def State.answerLoad (s : State) (l : ImgLoad) (status detail : Nat) : State :=
  match l.by_ with
  | .command tag => s.complete tag status detail l.loaded
  | .bootRom | .image => s

/-- The load in progress ends with a status, and the loader goes on. (DEDUCED, log entry 64.) -/
def State.endLoad (s : State) (l : ImgLoad) (status detail : Nat) : State := (s.answerLoad l status detail).nextLoad

/-- The S-core image sets INTAKE when its loads of the K-cores have ended (R590 step 3). (DEDUCED, log entry 101.) -/
def State.openIntake (s : State) : State :=
  let k := fun (l : ImgLoad) => l.by_ = .image && l.image.kind = 1
  if s.img.opening && !s.img.load.any k && !s.img.waiting.any k then
    { s with img := { s.img with opening := false } }.wr SVC_STAT_INTAKE 1
  else s

/-- Whether the loader may take a core (R119). -/
def State.loadable (s : State) (n : Nat) : Bool :=
  let st := s.coreState n
  st = cEmpty || st = cLoaded || st = cHalted || st = cFaulted

/-- A load fails: `IMG_REJECT` with the status for a `CORE.LOAD` (R117). -/
def State.rejectLoad (s : State) (l : ImgLoad) (status detail : Nat) : State :=
  let s := match l.by_ with
    | .command _ => s.occur IMG_REJECT 0 [status]
    | .bootRom | .image => s
  s.endLoad l status detail

/-- A target is taken by the loader: LOADING (R118 step 1). -/
def State.beginCopy (s : State) (l : ImgLoad) : State :=
  let n := l.target
  let s := { s with img := { s.img with load := some { l with verified := true } } }
  (s.setCore n { s.core n with armed := none }).wr CORE_STAT_STATE cLoading n

/-- A target that cannot be loaded ends a load: its domain is going off (R589), or it runs (R119). (DEDUCED, log entry 64.) -/
def State.refuseTarget (s : State) (l : ImgLoad) (n : Nat) : State :=
  if s.coreState n = cOff then s.endLoad l eAbort n else s.rejectLoad l eState n

/-- The loader goes on with a load whose image is in order: with its next target, or to its end (R117–R119, R589).  A
target that cannot be loaded ends a `CORE.LOAD`; the S-core image passes it over. (DEDUCED, log entry 64.) -/
def State.takeTarget (s : State) (l : ImgLoad) : State :=
  let l := if l.by_ = .image then { l with targets := l.targets.take l.loaded ++ (l.targets.drop l.loaded).filter s.loadable } else l
  match l.lost with
  | some n => s.endLoad l eAbort n
  | none =>
    if l.targets.length ≤ l.loaded then s.endLoad l eOk 0
    else if s.loadable l.target then s.beginCopy l
    else s.refuseTarget l l.target

/-- The copy into core `n` is cut short by its reset (R119): a command ends, the S-core image goes on. (DEDUCED, log entry 64.) -/
def State.cutCopy (s : State) (n : Nat) : State :=
  match s.img.load with
  | some l =>
    if l.verified ∧ l.target = n then
      (if l.by_ = .image then s.takeTarget { l with targets := l.targets.eraseIdx l.loaded } else s.endLoad l eAbort n).openIntake
    else s
  | none => s

/-- The domain of core `n` is reset or goes off: the `CORE.LOAD` commands that act on it complete `E_ABORT`, one that is
copying into another core after that copy; the S-core image takes it off its loads (R589). (DEDUCED, log entry 64.) -/
def State.dropTarget (s : State) (n : Nat) : State :=
  let hit := fun (l : ImgLoad) => l.by_ ≠ .image && l.targets.contains n
  let trim := fun (l : ImgLoad) =>
    let k := l.loaded + b2n l.verified  -- the core being copied into stays, and its reset ends the copy
    if l.by_ = .image then { l with targets := l.targets.take k ++ (l.targets.drop k).filter (· ≠ n) } else l
  let s := (s.img.waiting.filter hit).foldl (fun s l => s.answerLoad l eAbort n) s
  let s := { s with img := { s.img with waiting := (s.img.waiting.filter fun l => !hit l).map trim } }
  (match s.img.load with
    | none => s
    | some l =>
      if hit l then
        if l.verified then { s with img := { s.img with load := some { l with lost := some (l.lost.getD n) } } }
        else s.endLoad l eAbort n
      else { s with img := { s.img with load := some (trim l) } }).openIntake

/-- Injections and calibrations of a core that is reset (R500): one that has not begun is removed, one that has begun
runs on for nobody. -/
def MonSt.coreReset (x : MonSt) (n : Nat) : MonSt :=
  let mine := fun (b : InjBy) => match b with
    | .op k _ => k = n
    | _ => false
  let kept := x.inj.filter fun (i : Inj) => i.taken || !mine i.by_
  let inj := kept.map fun (i : Inj) => if mine i.by_ then { i with by_ := .orphan } else i
  let joined := x.joined.filter fun (b : CalBy) => match b with
    | .op k _ => k ≠ n
    | _ => true
  { x with inj := inj, joined := joined }

/-! ### Images (R114–R117) -/

/-- The magic word of an image. -/
def imgMagic : Word := 0o150145162147

/-- Whether a header's reserved fields, signature lanes and body length are in order (R117 step 4). (DEDUCED, log entry 65.) -/
def Image.formOk (m : Image) : Bool :=
  (m.h 1).bits 23 0 = 0 && (m.h 3).bits 35 30 = 0 && (m.h 4).bits 35 22 = 0 && (m.h 5).bits 35 30 = 0 &&
    (m.h 6).bits 35 3 = 0 && decide ((m.h 6).bits 2 0 < 2) && (List.range 9).all (fun i => m.h (7 + i) = 0) &&
    (List.range 24).all (fun i => (m.h (16 + i)).toNat &&& octetMask = (m.h (16 + i)).toNat) &&
    (List.range 8).all (fun i => m.h (40 + i) = 0) && (m.h 4).bits 21 0 % 2 = 0 && decide (2 ≤ (m.h 4).bits 21 0)

/-- Body length, load address and entry point. -/
def Image.len (m : Image) : Nat := (m.h 4).bits 21 0
def Image.base (m : Image) : Nat := (m.h 3).bits 29 0
def Image.entry (m : Image) : Nat := (m.h 5).bits 29 0

/-- A core of a kind, for its local RAM size. -/
def kindCore (k : Nat) : Nat := if k = 0 then 0 else if k = 1 then 64 else if k = 2 then 72 else 76

/-- Whether an image fits its kind (R117 step 5). -/
def Image.fits (m : Image) : Bool :=
  decide (m.base + m.len ≤ localSize (kindCore m.kind)) && decide (m.base ≤ m.entry) && decide (m.entry < m.base + m.len)

/-- Whether the key of an image's signer is present, as its 96 octets. -/
def State.signerKey (s : State) (m : Image) : Option (List Nat) :=
  if (m.h 6).bits 2 0 = 0 then some ((List.range 96).map fun i => Config.imageKey i % 256) else s.operatorKey

/-- The minimum version of a kind (R117). -/
def State.minVersion (s : State) (k : Nat) : Nat := sget (fun _ => 0) s.img.minver k

/-- Steps 2 to 7 of R117 for a list of target cores, none for a store: the first that fails, with its DETAIL.  A poisoned
header word, whose place among the steps no rule gives, is found before step 2. (DEDUCED, log entry 65; DESIGN CHOICE, log
entry 113.) -/
def State.judgeImage (s : State) (m : Image) (targets : List Nat) (raise : Bool) : Option (Nat × Nat) :=
  match m.header.findIdx? (·.p), targets.find? fun n => coreKind n ≠ m.kind with
  | some i, _ => some (ePoison, i)
  | none, bad =>
    if m.header.length ≠ 48 ∨ m.h 0 ≠ imgMagic then some (eFormat, 0)
    else if (m.h 1).bits 35 27 ≠ 1 then some (eFormat, 1)
    else match bad with
      | some n => some (eKind, n)
      | none =>
        if !m.formOk || decide (4 ≤ m.kind) then some (eFormat, 0)
        else if !m.fits || m.body.length ≠ m.len || (raise && (m.h 6).bits 2 0 = 0) then some (eRange, 0)
        else if (m.h 6).bits 2 0 = 1 ∧ (m.h 2).toNat < s.minVersion m.kind then some (eRollback, 0)
        else if (s.signerKey m).isNone then some (eKey, 0)
        else none

/-- Step 8 of R117; a poisoned body word is found before the signature is judged. -/
def State.judgeSignature (s : State) (m : Image) : Option (Nat × Nat) :=
  match m.body.findIdx? (·.p) with
  | some i => some (ePoison, 48 + i)
  | none =>
    let sig := (List.range 96).map fun q => (m.h (16 + q / 4)).bits (9 * (3 - q % 4) + 7) (9 * (3 - q % 4))
    let msg := packWords (((m.header.take 16) ++ m.body).map (·.v))
    match s.signerKey m with
    | none => some (eKey, 0)
    | some key => if signs key sig msg then none else some (eSig, 0)

/-- The staging region (R204). -/
def stageLo : Nat := 0o160000000
def stageHi : Nat := 0o200000000

/-- `k` words from address `a` of the shared memory, as the image loader reads them. -/
def State.readWords (s : State) (a k : Nat) : List PWord × State :=
  let (l, s) := (List.range k).foldl
    (fun (x : List PWord × State) i => let (w, s) := x.2.memRead (a + i) 15; (w :: x.1, s)) ([], s)
  (l.reverse, s)

/-- The image at a staging address: its header, and the body its header names where that ends in the region. (DEDUCED, log entry 65.) -/
def State.stagedImage (s : State) (a : Nat) : Image × State :=
  let (h, s) := s.readWords a (min 48 (stageHi - a))
  let m : Image := ⟨h, []⟩
  if h.length = 48 ∧ a + 48 + m.len ≤ stageHi then
    let (b, s) := s.readWords (a + 48) m.len
    (⟨h, b⟩, s)
  else (m, s)

/-- The image in the reference slot of a kind (R114). -/
def refImage (k : Nat) : Image :=
  ⟨cleanWords ((List.range 48).map (Config.refHeader k)), cleanWords ((List.range (Config.refLength k)).map (Config.refBody k))⟩

/-- The image in a slot of a kind; an empty operator slot holds no header. (DEDUCED, log entry 65.) -/
def State.slotImage (s : State) (source k : Nat) : Image :=
  if source = 0 then refImage k else (sget (fun _ => none) s.img.opr k).getD ⟨[], []⟩

/-! ### The image loader (R117, R118, R120) -/

/-- A load enters the loader, or waits for it. (DEDUCED, log entry 64.) -/
def State.enterLoad (s : State) (l : ImgLoad) : State :=
  if s.img.load.isNone then { s with img := { s.img with load := some l } }
  else { s with img := { s.img with waiting := s.img.waiting ++ [l] } }

/-- The cores FIRST to LAST of a word (R205), and whether the range is in order. -/
def coreRange (w : Word) : List Nat := (List.range (w.bits 6 0 + 1)).filter fun n => w.bits 16 10 ≤ n
def coreRangeOk (w : Word) : Bool := decide (w.bits 16 10 ≤ w.bits 6 0) && decide (w.bits 6 0 ≤ 76)
def coreRangeMask : Nat := mask 16 10 + mask 6 0

/-- The S-core is held in its boot ROM (R120). -/
def State.bootFails (s : State) : State := (s.wr SVC_ALERT_BOOT_FAIL 1).wr SVC_STAT_BOOTROM 1

/-- A load of cores of one kind that the boot ROM or the S-core image asks for (R120) from a slot: `none` where the
image fails before its signature is judged. -/
def State.autoLoadFrom (s : State) (source : Nat) (ts : List Nat) (by_ : LoadBy) : Option State :=
  let m := s.slotImage source (coreKind (ts.headD 0))
  if (s.judgeImage m ts false).isSome then none else some (s.enterLoad ⟨m, source, ts, 0, false, by_, none⟩)

/-- A load of the boot ROM or of the S-core image is refused for good. -/
def State.noLoad (s : State) (by_ : LoadBy) : State := if by_ = .bootRom then s.bootFails else s

/-- The reference slot after the operator slot failed (R120); the error state refuses the load, and no `IMG_FALLBACK` is
raised (R120, R447). (DEDUCED, log entry 101.) -/
def State.fallBack (s : State) (ts : List Nat) (by_ : LoadBy) : State :=
  if s.rdb EDW_STAT_ERROR then s.noLoad by_
  else
    let s := s.occur IMG_FALLBACK
    (s.autoLoadFrom 0 ts by_).getD (s.noLoad by_)

/-- A load of cores of one kind, from the operator slot with fallback to the reference slot (R120); the error state
refuses it (R447). (DEDUCED, log entry 101.) -/
def State.autoLoad (s : State) (ts : List Nat) (by_ : LoadBy) : State :=
  if s.rdb EDW_STAT_ERROR then s.noLoad by_ else (s.autoLoadFrom 1 ts by_).getD (s.fallBack ts by_)

/-- SCORE_BOOT (R120, R447). (DEDUCED, log entry 8.) -/
def execScoreBoot (s : State) : Host.Outcome State Fault Refusal :=
  .next (
    if s.up && s.svc.booting && s.edw.tested && s.coreState 76 = cEmpty then
      { s with svc := { s.svc with booting := false } }.autoLoad [76] .bootRom
    else s)

/-- The S-core image loads a core that has become EMPTY with its domain (R120, R580, R589). (DEDUCED, log entry 101.) -/
def State.imageLoads (s : State) (n : Nat) : State :=
  if s.coreState 76 = cRunning ∧ n < 76 ∧ s.coreState n = cEmpty then s.autoLoad [n] .image else s

/-- `CORE.LOAD` (R117, R205). -/
def State.cmdCoreLoad (c : Cmd) (s : State) : State :=
  s.unreserved c [mask 2 0, if (c.w 0).bits 2 0 = 2 then mask 29 0 else 0, coreRangeMask] fun s =>
    let src := (c.w 0).bits 2 0
    let a := (c.w 1).toNat
    let ts := coreRange (c.w 2)
    let busy := ts.find? fun n => !s.loadable n
    if 3 ≤ src then s.complete c.tag eReserved
    else if (src = 2 ∧ (a < stageLo ∨ stageHi ≤ a)) ∨ !coreRangeOk (c.w 2) then s.complete c.tag eRange
    else
      let fail := fun (s : State) (st d k : Nat) => ((s.occur IMG_REJECT 0 [st]).complete c.tag st d).wr IMG_LAST_KIND k
      match s.rdb EDW_STAT_ERROR, busy with
      | true, _ => fail s eState 0 0
      | false, some n => fail s eState n 0
      | false, none =>
        let (m, s) := if src = 2 then s.stagedImage a else (s.slotImage src (coreKind (ts.headD 0)), s)
        match s.judgeImage m ts false with
        | some (st, d) => fail s st d (if m.header.length = 48 then m.kind % 4 else 0)
        | none => s.enterLoad ⟨m, src, ts, 0, false, .command c.tag, none⟩

/-- IMAGE_VERIFY_DONE (R117, R118, R120): an image in order goes to its targets, none of which may have started to run
meanwhile (R119); in the error state every load is refused (R447). -/
def execImageVerifyDone (s : State) : Host.Outcome State Fault Refusal :=
  .next (
    match s.img.load with
    | none => s
    | some l =>
      if l.verified || !s.up then s
      else if s.rdb EDW_STAT_ERROR then
        (if l.by_ = .bootRom then s.bootFails.nextLoad else (s.rejectLoad l eState 0).openIntake)
      else match s.judgeSignature l.image with
        | none =>
          match l.by_, l.targets.find? fun n => !s.loadable n with
          | .command _, some n => s.refuseTarget l n
          | .command _, none => s.takeTarget l
          | _, _ => (s.takeTarget l).openIntake
        | some (st, d) =>
          let s := s.rejectLoad l st d
          match l.by_ with
          | .command _ => s
          | _ =>
            (if l.source = 1 then s.fallBack l.targets l.by_
              else if l.by_ = .bootRom then s.bootFails
              else s).openIntake)

/-- The body of an image in a core's local RAM, its registers, and whose image it is (R31, R118 steps 2 to 4). -/
def State.placeImage (s : State) (n : Nat) (m : Image) : State :=
  let s := s.zeroMem (· = n)
  let s := (List.range m.body.length).foldl
    (fun (s : State) i => s.memWrite (localBase n + m.base + i) 15 (m.body.getD i PWord.zero)) s
  let s := (((s.wr CORE_ENTRY m.entry n).wr CORE_IMG_VER (m.h 2).toNat n).wr CORE_IMG_BASE m.base n).wr CORE_IMG_LEN m.len n
  s.setCore n { s.core n with ref := (m.h 6).bits 2 0 = 0 }

/-- The S-core runs its image after the boot ROM (R120, R590, R593): the reset that came before is reported, the cores
whose domains are ON are loaded, the K-cores first, and intake opens once those are loaded. (DEDUCED, log entries 67 and 101.) -/
def State.scoreRuns (s : State) : State :=
  let s := s.coreRuns 76
  let s := match s.pwr.bootReset with
    | none => s
    | some k => { s with pwr := { s.pwr with bootReset := none } }.occur PWR_RESET 0 [k.code]
  let s := { s with img := { s.img with opening := true } }
  ([(List.range 8).map (64 + ·), List.range 64, (List.range 4).map (72 + ·)].foldl
    (fun (s : State) (k : List Nat) =>
      let ts := k.filter fun n => s.coreState n = cEmpty
      if ts.isEmpty then s else s.autoLoad ts .image) s).openIntake

/-- IMAGE_COPY_DONE (R118, R120): the target is LOADED; the boot ROM and the S-core image start it. (DEDUCED, log entry 8.) -/
def execImageCopyDone (s : State) : Host.Outcome State Fault Refusal :=
  .next (
    match s.img.load with
    | none => s
    | some l =>
      let n := l.target
      if !l.verified || s.zeroing.contains n || s.coreState n ≠ cLoading then s
      else if s.rdb EDW_STAT_ERROR && l.by_ = .bootRom then (s.bootFails.wr CORE_STAT_STATE cEmpty n).nextLoad
      else
        let s := (((s.placeImage n l.image).wr CORE_STAT_FAULT 0 n).wr CORE_STAT_STATE cLoaded n).occur IMG_LOADED
        let l := { l with loaded := l.loaded + 1 }
        let s := { s with img := { s.img with load := some l } }
        match l.by_ with
        | .command _ => s.takeTarget l
        | .bootRom => (s.takeTarget l).scoreRuns
        | .image => ((s.coreRuns n).takeTarget l).openIntake)

/-- `CORE.START` (R205, R119): every core is checked before any is armed; the core that fails for the LP shows LATE. (DEDUCED, log entry 66.) -/
def State.cmdCoreStart (c : Cmd) (s : State) : State :=
  s.unreserved c [coreRangeMask] fun s =>
    let a := (c.w 1).toNat
    let b := (c.w 2).toNat
    let t := lpTicks a b
    let ts := coreRange (c.w 0)
    let st := fun n => s.coreState n
    let late := decide (t ≠ 0 ∧ t < s.now)
    let bad := ts.find? fun n => !(st n = cLoaded || st n = cHalted) || late
    if !lpOk b then s.complete c.tag eReserved 2
    else if !coreRangeOk (c.w 0) then s.complete c.tag eRange
    else match bad with
      | some n =>
        if st n = cLoaded ∨ st n = cHalted then (s.wr CORE_STAT_LATE 1 n).complete c.tag eLate n
        else s.complete c.tag eState n
      | none =>
        (ts.foldl (fun (s : State) n => ((s.wr CORE_START_A a n).wr CORE_START_B (lpB t) n).startCore n) s).complete c.tag eOk 0
          ts.length

/-- `CORE.HALT` (R205). -/
def State.cmdCoreHalt (c : Cmd) (s : State) : State :=
  s.unreserved c [coreRangeMask] fun s =>
    if !coreRangeOk (c.w 0) then s.complete c.tag eRange
    else
      let ts := (coreRange (c.w 0)).filter fun n => s.coreState n = cRunning
      (ts.foldl (fun (s : State) n => s.haltCore n) s).complete c.tag eOk 0 ts.length

/-! ### `IMG.STORE` (R206) -/

/-- `IMG.STORE` (R206): an image that passes is being written from then on. (DEDUCED, log entry 65.) -/
def State.cmdImgStore (c : Cmd) (s : State) : State :=
  s.unreserved c [mask 29 0, 1] fun s =>
    let a := (c.w 0).toNat
    let raise := (c.w 1).bit 0
    if a < stageLo ∨ stageHi ≤ a then s.complete c.tag eRange
    else if s.img.store.isSome then s.complete c.tag eBusy
    else
      let (m, t) := s.stagedImage a
      let k := if m.header.length = 48 then m.kind % 4 else 0
      let fail := fun (s : State) (st d : Nat) => ((s.occur IMG_REJECT 0 [st]).complete c.tag st d).wr IMG_LAST_KIND k
      if s.rdb EDW_STAT_ERROR then fail s eState 0
      else
      let s := t
      match s.judgeImage m [] raise with
      | some (st, d) => fail s st d
      | none => match s.judgeSignature m with
        | some (st, d) => fail s st d
        | none => { s with img := { s.img with store := some ⟨k, m, raise, c.tag⟩ } }

/-- IMG_STORE_DONE (R206). -/
def execImgStoreDone (s : State) : Host.Outcome State Fault Refusal :=
  .next (
    match s.img.store with
    | none => s
    | some x =>
      if !s.up then s
      else
        let v := (x.image.h 2).toNat
        let s := { s with img := { s.img with
          opr := sput (fun _ => none) s.img.opr x.kind (some x.image)
          minver := if x.raise then sput (fun _ => 0) s.img.minver x.kind v else s.img.minver } }
        let s := s.complete x.slot eOk 0 v
        { s with img := { s.img with store := none } })

/-- An `IMG.STORE` that is interrupted leaves the old contents (R206). -/
def State.abandonStore (s : State) : State :=
  match s.img.store with
  | none => s
  | some x => { s.complete x.slot eAbort with img := { (s.complete x.slot eAbort).img with store := none } }

/-- What the words of the `IMG` block show of the loader and the store (R121), by offset; none elsewhere. -/
def State.imgWord (s : State) (o : Nat) : Option Nat :=
  let ver := fun (m : Option Image) => ((m.map fun m => (m.h 2).toNat)).getD 0
  if o = 0 then
    let (ld, t) := match s.img.load with
      | none => (0, 127)
      | some l => if l.verified then (2, l.target) else (1, 127)
    some (ld * 2 ^ 34 + t * 2 ^ 27 + b2n s.img.store.isSome * 2 ^ 26)
  else if 0o10 ≤ o ∧ o < 0o14 then some (s.minVersion (o - 0o10))
  else if 0o20 ≤ o ∧ o < 0o40 then
    let k := (o - 0o20) / 4
    let m : Option Image := sget (fun _ => none) s.img.opr k
    if o % 4 = 0 then some (ver (some (refImage k)))
    else if o % 4 = 1 then some (ver m)
    else if o % 4 = 2 then some (b2n m.isSome * 2 ^ 35 + (m.map fun m => (m.h 6).bits 2 0).getD 0 * 2 ^ 34)
    else none
  else none

end Sys2Proof.Machine
end

