-- ==== Sys2Proof/Machine/Observe.lean ====
section
/-! DEFINITION. Counters as they are read, the event path's summaries, telemetry, sampling records and
completion rings (R148, R541–R570). -/

namespace Sys2Proof.Machine

open Ev Reg

/-! ### Reading counters (R541, R545–R548) -/

/-- The index of a counter word and whether it is the chain word (R541). -/
def cntIndexAt (a : Nat) : Option (Nat × Bool) :=
  if 0o410000000 ≤ a ∧ a < 0o414000000 then some ((a - 0o410000000) / 2, a % 2 = 1)
  else if 0o444000000 ≤ a ∧ a < 0o450000000 then some (524288 + (a - 0o444000000) / 2, a % 2 = 1)
  else none

/-- The first index of the directory. -/
def dirBase : Nat := 522240

/-- Directory word of code `h` (R546). -/
def State.dirWord (s : State) (h : Nat) : Nat :=
  match codeOf h with
  | none => 0
  | some c => (s.evCfg c).1 * 2 ^ 34 + b2n (s.evCfg c).2 * 2 ^ 33 + c.base * 2 ^ 13 + c.count

/-- Whether an index names a counter: no directory, not unassigned (R541). -/
def cntAssigned (x : Nat) : Bool :=
  decide (x < generalEnd) || (decide (131072 ≤ x) && decide (x < 454656)) || (decide (524288 ≤ x) && decide (x < 1048576))

/-- The stored form of a word of the counter file. -/
def State.cntStored (s : State) (a : Nat) : Stored :=
  match sget (fun _ => none) s.tblRaw a, cntIndexAt a with
  | some x, _ => x
  | none, none => cleanStored 0
  | none, some (x, chain) =>
    cleanStored (word (
      if dirBase ≤ x ∧ x < 524288 then s.dirWord (2 * (x - dirBase) + b2n chain)
      else if !cntAssigned x then 0
      else if chain then s.cntAt x / 2 ^ 36 else s.cntAt x))

/-- A counter word read live, with what the read meets (R521, R545). -/
def State.cntRead (s : State) (a le : Nat) : PWord × State :=
  ((s.cntStored a).deliver le, s.noteRead a ((memInstance a).getD 88) (s.cntStored a) le)

/-- A snapshot of a counter: chain word, then count word (R547); of a directory index, its two words in the order of
their codes (R548). (DEDUCED, log entry 103.) -/
def State.snapshot (s : State) (x : Nat) : (PWord × PWord) × State :=
  let (c, s) := s.cntRead (cntAddr x) 15
  let (h, s) := s.cntRead (cntAddr x + 1) 15
  (if 522240 ≤ x ∧ x < 524288 then (c, h) else (h, c), s)

/-- Snapshots of `k` counters from index `x`. -/
def State.snapshots (s : State) (x k : Nat) : List (PWord × PWord) × State :=
  let (l, s) := (List.range k).foldl
    (fun (y : List (PWord × PWord) × State) i => let (p, s) := y.2.snapshot (x + i); (p :: y.1, s)) ([], s)
  (l.reverse, s)

/-- The queue that a queue counter's index counts (R541). -/
def cntQueue (x : Nat) : Option Nat :=
  if 131072 ≤ x ∧ x < 393216 then some ((x - 131072) / 2)
  else if 393216 ≤ x ∧ x < 405504 then some (131072 + (x - 393216) / 6)
  else if 405504 ≤ x ∧ x < 454656 then some (133120 + (x - 405504) / 6)
  else if 524288 ≤ x ∧ x < 1048576 then some ((x - 524288) / 4)
  else none

/-- Whether page `g` may read an index with `CNT.READ` (R569). -/
def State.cntOwn (s : State) (g x : Nat) : Bool :=
  g = 0 || !cntAssigned x ||
    (match cntQueue x with
      | some q => s.queuePage q = g
      | none => match codeAt x allCodes with
        | some (c, j) => keepPage c.keep j = some g
        | none => true)

/-- `CNT.READ` (R569). -/
def State.cmdCntRead (c : Cmd) (s : State) : State :=
  s.unreserved c [mask 19 0, mask 8 0] fun s =>
    let x := (c.w 0).bits 19 0
    let k := (c.w 1).bits 8 0
    if k = 0 ∨ 256 < k ∨ 2 ^ 20 < x + k then s.complete c.tag eRange
    else match (List.range k).find? fun i => !s.cntOwn c.page (x + i) with
      | some i => s.complete c.tag ePage i
      | none =>
        let (l, s) := s.snapshots x k
        s.complete c.tag eOk 0 k (l.flatMap fun p => [p.1, p.2])

/-! ### `EVT.CFG` (R561, R570) -/

/-- Whether a stream's words carry no reserved value (R561, R568). -/
def tlmOk (w0 w1 : Word) : Bool :=
  let first := w0.bits 33 14
  let n := w0.bits 13 4
  let set := w0.bits 3 2
  n ≠ 0 && set ≠ 3 && decide (8 ≤ w1.bits 35 20) &&
    (if w0.bit 34 then (queueOf set (first + n - 1)).isSome
     else decide (first + n ≤ 2 ^ 20) && (decide (first + n ≤ dirBase) || decide (524288 ≤ first)))

/-- The eight words of a kept record (R551, R554). -/
def EvRec.words (r : EvRec) : List Nat :=
  [r.pri * 2 ^ 34 + r.kind * 2 ^ 32 + r.code * 2 ^ 20 + r.inst, r.seq,  lpA r.lp, lpB r.lp] ++
    (r.args ++ List.replicate 4 0).take 4

/-- A kept record as `EVT.CFG` OP 3 returns it: its words, or zeros. -/
def keptWords : Option Kept → List Nat
  | none => List.replicate 8 0
  | some k => k.rec_.words

/-- `EVT.CFG` (R549, R554, R570). (DEDUCED, log entry 29.) -/
def State.cmdEvtCfg (c : Cmd) (s : State) : State :=
  let op := (c.w 0).bits 35 33
  let code := (c.w 0).bits 11 0
  let top := mask 35 33
  if op = 0 then
    s.unreserved c [top + mask 11 0, mask 2 0, 0] fun s =>
      let pri := (c.w 1).bits 1 0
      let rec_ := (c.w 1).bit 2
      match codeOf code with
      | none => s.complete c.tag eRange
      | some e =>
        let ok : Bool := match e.kind with
          | .counter => false
          | .priority0 => pri = 0 && rec_
          | .event => pri ≠ 0
        if !ok then s.complete c.tag eReserved
        else
          let s := { s with evt := { s.evt with cfg := sput (fun _ => none) s.evt.cfg code (some (pri, rec_)) } }
          s.complete c.tag eOk
  else if op = 1 then
    s.unreserved c [top, mask 15 0, 0] fun s =>
      let r := (c.w 1).bits 15 0
      if r = 0 then s.complete c.tag eReserved
      else
        let old := s.rd EVT_CTL_RATE
        let s := { s with evt := { s.evt with rateFrom := s.now / ticksMs + 1, rateOld := old } }
        (s.wr EVT_CTL_RATE r).complete c.tag eOk
  else if op = 2 then
    s.unreserved c [top + mask 3 0, mask 35 2, mask 35 20] fun s =>
      let k := (c.w 0).bits 3 0
      if !tlmOk (c.w 1) (c.w 2) then s.complete c.tag eReserved
      else
        ((s.setReg (EVT_TLM_EN.addr 0 k 0) (c.w 1)).setReg (EVT_TLM_PERIOD.addr 0 k 0) (c.w 2)).complete c.tag eOk
  else if op = 3 then
    s.unreserved c [top + mask 11 0, 0, 0] fun s =>
      match codeOf code with
      | none => s.complete c.tag eRange
      | some _ =>
        let f := sget (fun _ => none) s.evt.first code
        let l := sget (fun _ => none) s.evt.latest code
        let bit := fun (k : Option Kept) => b2n k.isSome + 2 * b2n (k.any (·.entered))
        s.complete c.tag eOk 0 (bit f + 4 * bit l) (cleanWords (keptWords f ++ keptWords l))
  else s.complete c.tag eReserved

/-! ### Summaries and the exit from AVALANCHE (R555) -/

/-- The summaries of every code with occurrences coalesced become due, and enter while there is room. -/
def State.summaries (s : State) : State :=
  let opens := s.evt.opens.map fun (o : Coal) => { o with due := o.due || decide (0 < o.count) }
  let e : EvtSt := { s.evt with opens := opens }
  { s with evt := e.drain s.now }

/-- EVT_SUPERFRAME_SUMMARY (R555). (DEDUCED, log entry 104.) -/
def execEvtSuperframeSummary (s : State) : Host.Outcome State Fault Refusal :=
  .next (
    let sf := s.now / ticksSf
    if s.up && s.evt.aval && decide (s.evt.sumSf < sf + 1) then
      { s with evt := { s.evt with sumSf := sf + 1 } }.summaries
    else s)

/-- EVT_AVALANCHE_EXIT (R555). -/
def execEvtAvalancheExit (s : State) : Host.Outcome State Fault Refusal :=
  .next (
    if s.up && s.evt.aval && decide (s.evt.main.length < 16384) && decide (s.evt.lowSince + 8000 * ticksFr ≤ s.now) then
      let s := s.summaries
      let n := s.evt.coalesced
      { s with evt := { s.evt with aval := false, opens := [], coalesced := 0 } }.occur EVT_AVALANCHE_EXIT 0 [n]
    else s)

/-! ### Telemetry (R559–R562) -/

/-- The items of a stream's snapshot (R559, R560). -/
def State.tlmItems (s : State) (k : Nat) : List (PWord × PWord) × State :=
  let first := s.rd EVT_TLM_FIRST 0 k
  let n := s.rd EVT_TLM_N 0 k
  if s.rdb EVT_TLM_KIND 0 k then
    ((List.range n).map fun i =>
      match queueOf (s.rd EVT_TLM_QSET 0 k) (first + i) with
      | none => (PWord.zero, PWord.zero)
      | some q => match s.traf.sweep.find? fun e => e.1 = q with
        | some (_, d, t) => (⟨word (d * 64), false⟩, ⟨word (t * 2 ^ 13 + q / 12500), false⟩)
        | none => (PWord.zero, ⟨word (q / 12500), false⟩), s)
  else s.snapshots first n

/-- TLM_SNAPSHOT (R559, R562): a stream's snapshot falls due at a frame start. -/
def execTlmSnapshot (strm : Fin 16) (s : State) : Host.Outcome State Fault Refusal :=
  .next (
    let k := strm.val
    let f := frameOf s.now
    let done := sget (fun _ => 0) s.evt.tlmAt k
    if s.up && s.rdb EVT_TLM_EN 0 k && f % s.rd EVT_TLM_PERIOD 0 k = 0 && done ≠ f + 1 then
      let s := { s with evt := { s.evt with tlmAt := sput (fun _ => 0) s.evt.tlmAt k (f + 1) } }
      if (sget (fun _ => none) s.evt.tlm k).isSome then s.count TLM_SKIP k
      else
        let (l, s) := s.tlmItems k
        { s with evt := { s.evt with tlm := sput (fun _ => none) s.evt.tlm k (some (f * ticksFr, l)) } }
    else s)

/-! ### Sampling records (R161, R563–R566) -/

/-- A sampling record arises on core `n`, with the LP of its clock (R161, R563, R566). (DEDUCED, log entry 31.) -/
def State.sampleRec (s : State) (n kind pc : Nat) (iw : Word) (ea w5 : Nat) (w6 : PWord) : State :=
  let c := s.core n
  let r := cleanWords [kind * 2 ^ 34 + pc, iw.toNat, ea % 2 ^ 30, lpA s.clockLp, lpB s.clockLp, w5] ++ [w6, ⟨word c.smpNo, false⟩]
  let c := { c with smpNo := (c.smpNo + 1) % 2 ^ 36 }
  let put := fun (c : CoreSt) (k : Nat) => { c with smp := sput (fun _ => []) c.smp k r }
  if c.smpHeld < 60 then s.setCore n { put c ((c.smpHead + c.smpHeld) % 60) with smpHeld := c.smpHeld + 1 }
  else if s.rdb CORE_SMP_CTL_FULL n then
    (s.setCore n { put c c.smpHead with smpHead := (c.smpHead + 1) % 60 }).count SMP_DROP n
  else (s.setCore n c).count SMP_DROP n

/-- A write of N to `CORE_SMP_ACK` (R565). (DEDUCED, log entry 31.) -/
def State.ackSamples (s : State) (n k : Nat) : State :=
  let c := s.core n
  let k := min k c.smpHeld
  s.setCore n { c with smpHeld := c.smpHeld - k, smpHead := (c.smpHead + k) % 60 }

/-- An instruction has completed while the core was RUNNING (R564). (DEDUCED, log entry 31.) -/
def State.sampleInstr (s : State) (n pc : Nat) (iw : Word) (ea : Nat) : State :=
  if (s.rd CORE_SMP_CTL_SEL n).testBit 0 then
    let k := (s.core n).smpCnt + 1
    if s.rd CORE_SMP_CTL_PERIOD n ≤ k then
      (s.setCore n { s.core n with smpCnt := 0 }).sampleRec n 0 pc iw ea 0 PWord.zero
    else s.setCore n { s.core n with smpCnt := k }
  else s

/-! ### Completion rings (R148, R149) -/

/-- Word 0 of a ring entry (R148). -/
def RingEnt.word0 (e : RingEnt) : Nat := e.tag * 2 ^ 30 + e.unit * 2 ^ 27 + e.status * 2 ^ 18 + e.count % 2 ^ 18

/-- Whether an entry goes before another: posted in an earlier clock, or in the same with a lower UNIT, or TAG (R149). -/
def RingEnt.before (x e : RingEnt) : Bool :=
  x.clk ≠ e.clk || decide (x.unit < e.unit) || (x.unit = e.unit && decide (x.tag < e.tag))

/-- A ring with an entry posted to it (R149). -/
def placeEntry (e : RingEnt) (ring : List RingEnt) : List RingEnt :=
  (ring.filter fun x => x.before e) ++ [e] ++ ring.filter fun x => !x.before e

/-- The entries of a ring that instructions of a clock see (R149). -/
def CoreSt.seen (c : CoreSt) (clk : Nat) : List RingEnt := c.ring.filter fun e => e.clk < clk

/-- An entry is posted to a core's ring, and a status other than OK is counted (R148, R149, R165). -/
def State.postEntry (s : State) (n : Nat) (e : RingEnt) : State :=
  let s := s.setCore n { s.core n with ring := placeEntry e (s.core n).ring }
  if 1 ≤ e.status ∧ e.status ≤ 11 then s.count ENG_STATUS (66 * n + 11 * e.unit + (e.status - 1)) else s

/-- Completion statuses of R149. -/
def gOk : Nat := 0
def gDesc : Nat := 1
def gAddr : Nat := 2
def gPoison : Nat := 3
def gRights : Nat := 4
def gKey : Nat := 5
def gLimit : Nat := 6
def gAuth : Nat := 7
def gLate : Nat := 8
def gMap : Nat := 9
def gFull : Nat := 10
def gEmpty : Nat := 11

/-- The operation of a tag that is outstanding on a core. -/
def State.engOp (s : State) (n tag : Nat) : Option EngOp := (s.core n).ops.find? fun o => o.tag = tag

/-- The state with the outstanding operations of a core replaced; ENG_OUT follows them (R147). -/
def State.setOps (s : State) (n : Nat) (ops : List EngOp) : State :=
  (s.setCore n { s.core n with ops := ops }).wr CORE_STAT_ENG_OUT ops.length n

/-- The operation of a tag ends: its completion is posted, with its sampling record, whose latency counts clocks from that
of the acceptance to that of the posting (R148, R161, R564). -/
def State.endOp (s : State) (n tag status count : Nat) (result : PWord) : State :=
  match s.engOp n tag with
  | none => s
  | some o =>
    let s := s.setOps n ((s.core n).ops.filter fun x => x.tag ≠ tag)
    let e : RingEnt := ⟨tag, o.unit, status, count, result, s.clock⟩
    let lat := s.clock - o.accepted / 4
    let s :=
      if (s.rd CORE_SMP_CTL_SEL n).testBit 1 && decide (s.rd CORE_SMP_CTL_LAT_MIN n ≤ lat) then
        s.sampleRec n 1 o.pc o.iw o.ea lat ⟨word e.word0, false⟩
      else s
    s.postEntry n e

/-- What the words of a `CORE` block show of its engines, ring, slots and sampling records (R164, R567), by offset. -/
def State.coreWord (s : State) (n o : Nat) : Option PWord :=
  let c := s.core n
  let clean := fun (x : Nat) => some (⟨word x, false⟩ : PWord)
  let tags := fun (lo : Nat) => ((List.range 32).map fun i => b2n (c.busy.contains (lo + i)) * 2 ^ i).sum
  let ring := c.seen s.clock
  if o = 2 then clean c.pc
  else if o = 0o100 then clean (ring.length * 2 ^ 7 + c.busy.length)
  else if o = 0o101 then clean (tags 32)
  else if o = 0o102 then clean (tags 0)
  else if o = 0o103 then clean ((List.range 16).map fun i => b2n (sget (fun _ => none) (c.slots.map fun e => (e.1, some e.2)) i).isSome * 2 ^ i).sum
  else if 0o200 ≤ o ∧ o < 0o400 then
    match ring[(o - 0o200) / 2]? with
    | none => clean 0
    | some e => if o % 2 = 0 then clean e.word0 else some e.result
  else if 0o400 ≤ o ∧ o < 0o500 then
    match c.slots.find? fun e => e.1 = (o - 0o400) / 4 with
    | none => clean 0
    | some (_, x) => clean (if o % 4 = 0 then lpA x.lp else if o % 4 = 1 then lpB x.lp else if o % 4 = 2 then x.w0.toNat else x.w1.toNat)
  else if o = 0o1001 then clean (c.smpHeld * 2 ^ 30 + c.smpHead * 2 ^ 24)
  else if 0o1040 ≤ o ∧ o < 0o2000 then
    some ((sget (fun _ => []) c.smp ((o - 0o1040) / 8)).getD (o % 8) PWord.zero)
  else none

end Sys2Proof.Machine
end

