-- ==== Sys2Proof/Machine/Monitor.lean ====
section
/-! DEFINITION. Monitor converters (spec/13): the sample word, the front end, sequences, injections,
self-calibration and the reference node cross-check.  What a converter measures comes with the command. -/

namespace Sys2Proof.Machine

open Ev Reg

/-- The record of converter `m`. -/
def State.mon (s : State) (m : Nat) : MonSt := sget (fun _ => {}) s.mons m

/-- The state with a converter's record replaced. -/
def State.setMon (s : State) (m : Nat) (x : MonSt) : State := { s with mons := sput (fun _ => {}) s.mons m x }

/-- The power domain of a converter (R89). -/
def monDomain (m : Nat) : Nat := if m < 16 then 64 + m / 2 else 78

/-- States of `MON_STAT.STATE` (R507). -/
def mOff : Nat := 0
def mDown : Nat := 1
def mWake : Nat := 2
def mIdle : Nat := 3
def mSeq : Nat := 4
def mInj : Nat := 5
def mCal : Nat := 6

/-- A converter's state; OFF while its domain is not ON. -/
def State.monState (s : State) (m : Nat) : Nat := if s.domOn (monDomain m) then s.rd MON_STAT_STATE m else mOff

/-- A converter's state set. -/
def State.setMonState (s : State) (m st : Nat) : State := s.wr MON_STAT_STATE st m

/-- Ticks of a sample period, of a start-up and of a calibration (R490, R491, R503). -/
def samplePeriod : Nat := 2000
def startUp : Nat := 6000
def calTicks : Nat := 8400000

/-! ### Channels (R482–R485) -/

/-- Whether a channel's kind is TEMP, MV, MI or REF, which convert at GAIN 0 (R482–R484). -/
def gainFixed (m ch : Nat) : Bool :=
  decide (61 ≤ ch) ||
    (if m < 16 then ch = 56 || ch = 59 || (m % 2 = 0 && decide (32 ≤ ch) && decide (ch < 40))
     else decide (8 ≤ ch) && decide (ch < 12) || ch = 16 || ch = 19 ||
      (if m = 16 then decide (20 ≤ ch) && decide (ch < 28) || ch = 34 else ch = 32 || ch = 34))

/-- The gain and the filter set for a channel (R492, R514). -/
def State.chGain (s : State) (m ch : Nat) : Nat := if gainFixed m ch then 0 else s.rd MON_CHCFG_GAIN m ch
def State.chFilt (s : State) (m ch : Nat) : Nat := if 61 ≤ ch then 0 else s.rd MON_CHCFG_FILTER m ch

/-- The front end is set for a channel at tick `t` (R491): the settling tag of what changes.  A gated conversion leaves
the filter. -/
def State.frontEnd (s : State) (m ch t : Nat) (gated : Bool) : State :=
  let x := s.mon m
  let g := s.chGain m ch
  let f := if gated then x.filt else s.chFilt m ch
  let tag := if f ≠ x.filt then 8 else if g ≠ x.gain then 3 else if ch ≠ x.chan then 1 else 0
  s.setMon m { x with chan := ch, gain := g, filt := f, settled := max x.settled (t + tag * samplePeriod) }

/-- Samples discarded for settling by a conversion that samples from tick `t` (R491). -/
def State.settleAt (s : State) (m t : Nat) : Nat := min 8 (ceilDiv ((s.mon m).settled - t) samplePeriod)

/-! ### The sample word (R487, R488) -/

/-- A code held to 0–65,535 (R488). -/
def clampCode (c : Int) : Nat := (clampInt 0 65535 c).toNat

/-- The offset and the gain error of the set of a point in `MON_CALSET`. -/
def State.calSetOf (s : State) (m p : Nat) : List Int :=
  [signed 16 (bitsOf (s.rd MON_CALSET_W0 m p) 35 20), signed 16 (bitsOf (s.rd MON_CALSET_W0 m p) 19 4)]

/-- The die temperature in 0.5 °C. -/
def State.monTemp (s : State) (m : Nat) : Int := s.rdi MON_STAT_TEMP m

/-- The corrected code of a raw code of channel `ch` before it is clamped (R488 steps 1 and 2): the converter's offset in
1/16 code and gain error in 2^-20 in force, then the slope and intercept of the channel at the die temperature, and the
result rounded to a code. (DESIGN CHOICE, log entry 135.) -/
def State.corrected (s : State) (m ch : Nat) (raw : Int) : Int :=
  let one : Rat := 2 ^ 20
  let c := ((raw : Rat) - (s.rdi MON_CALF_OFS m : Rat) / 16) * one / (one + (s.rdi MON_CALF_GAIN m : Rat))
  let f := interpSet (Config.monFront m ch) (s.monTemp m)
  (c * (one + ((f.getD 0 0 : Int) : Rat)) / one + ((f.getD 1 0 : Int) : Rat) / 16 + 1 / 2).floor

/-- The corrected codes of the samples of a conversion of channel `ch` (R488). -/
def State.correctedAll (s : State) (m ch : Nat) (raws : List Int) : List Int := raws.map (s.corrected m ch)

/-- The sum of corrected codes shifted right by SHIFT: VALUE (R487, R488). -/
def valueOf (codes : List Int) (shift : Nat) : Nat := (codes.map clampCode).sum / 2 ^ shift

/-- Whether the factors in force are held at an end point: the die temperature beyond 30–100 °C, and no calibration in
force without interpolation (R487, R504). -/
def State.extrapolates (s : State) (m : Nat) : Bool :=
  (s.mon m).adopted.isNone && (decide (s.monTemp m < 60) || decide (200 < s.monTemp m))

/-- The sample word of a conversion whose valid samples have the given corrected codes before they are clamped (R487). -/
def State.sampleWord (s : State) (m : Nat) (codes : List Int) (shift settle : Nat) (pre inj : Bool) : Nat :=
  let x := s.mon m
  let sat := codes.any fun c => decide (c < 0) || decide (65535 < c)
  let xcal := s.extrapolates m
  valueOf codes shift % 2 ^ 24 * 2 ^ 12 + settle * 2 ^ 8 + x.gain * 2 ^ 6 + b2n sat * 32 + b2n (!s.rdb MON_STAT_SELFCAL m) * 16 +
    b2n xcal * 8 + b2n pre * 4 + b2n inj * 2 + s.rd MON_STAT_PLAUS m

/-- The other converter of a pair. -/
def partner (m : Nat) : Nat := if m % 2 = 0 then m + 1 else m - 1

/-- The cross-check after a conversion of channel 63 with its corrected codes, by its mean code (R488, R506). -/
def State.crossCheck (s : State) (m : Nat) (codes : List Int) (shift : Nat) : State :=
  let mean := valueOf codes shift * 2 ^ shift / codes.length
  let q := partner m
  let unc := !s.rdb MON_STAT_SELFCAL m
  let pEnd := lpTicks (s.rd MON_REF_LP_A q) (s.rd MON_REF_LP_B q)
  let pMean := s.rd MON_REF_MEAN q
  let fresh := (s.mon q).refUncal = some unc && decide (s.now ≤ pEnd + 400000000)
  let s := ((s.wr MON_REF_MEAN mean m).wr MON_REF_LP_A (lpA s.now) m).wr MON_REF_LP_B (lpB s.now) m
  let s := s.setMon m { s.mon m with refUncal := some unc }
  if !s.rdb MON_CTL_XCHK m || !fresh then s
  else if mean < pMean + 328 ∧ pMean < mean + 328 then (s.wr MON_STAT_PLAUS 0 m).wr MON_STAT_PLAUS 0 q
  else
    let was := s.rdb MON_STAT_PLAUS m
    let s := (s.wr MON_STAT_PLAUS 1 m).wr MON_STAT_PLAUS 1 q
    let a := if m % 2 = 0 then mean else pMean
    let b := if m % 2 = 0 then pMean else mean
    if was then s else s.occur MON_PLAUS m [a, b]

/-- The cross-check of a conversion of channel `ch`. -/
def State.checkRef (s : State) (m ch : Nat) (codes : List Int) (shift : Nat) : State :=
  if ch = 63 then s.crossCheck m codes shift else s

/-! ### What a free converter does next (R494–R496, R499, R502, R507) -/

/-- The first enabled entry of the present pass from entry `e` on. -/
def State.nextEntry (s : State) (m e : Nat) : Option Nat :=
  (List.range 64).find? fun i => decide (e ≤ i) && decide (i ≤ (s.mon m).last) && s.rdb MON_SEQ_EN m i

/-- `MON_SEQ_STAT.ENTRY`: the entry in progress, or the next, of the present pass or of the one to come (R514). -/
def State.seqEntry (s : State) (m : Nat) : Nat :=
  let x := s.mon m
  let first := ((List.range 64).find? fun i => decide (i ≤ s.rd MON_SEQ_CTL_LAST m) && s.rdb MON_SEQ_EN m i).getD 0
  match x.entry with
  | some r => r.e
  | none => if x.passOn && !x.restart then (s.nextEntry m x.next).getD first else first

/-- Whether a pending calibration may start now (R502). -/
def State.calMayStart (s : State) (m : Nat) : Bool :=
  match (s.mon m).cal with
  | .pending .. => (s.mon m).inj.all fun i => !i.taken && decide (s.now + calTicks + startUp + startUp ≤ i.lp)
  | _ => false

/-- A pass ends (R494). -/
def State.endPass (s : State) (m : Nat) : State :=
  (s.inc MON_SEQ_STAT_PASS 1 m).setMon m { s.mon m with passOn := false, pre := false, next := 0, passEnd := s.now }

/-- A pass starts at entry 0 at tick `t` (R494). -/
def State.startPass (s : State) (m t : Nat) : State :=
  s.setMon m { s.mon m with
    passOn := true, next := 0, pre := false, restart := false
    last := s.rd MON_SEQ_CTL_LAST m, per := s.rd MON_SEQ_CTL_PERIOD m, due := t + s.rd MON_SEQ_CTL_PERIOD m * ticksUs }

/-- The calibration starts: the front end goes to channel 61, which it converts alternately with channel 62 (R502, R503,
R507). -/
def State.beginCal (s : State) (m : Nat) : State :=
  let s := s.frontEnd m 61 s.now false
  ((s.setMon m { s.mon m with cal := .running s.now }).wr MON_STAT_CALPEND 0 m).setMonState m mCal

/-- A sequence entry starts with the channel and averaging set for it (R491, R494, R496, R507); a converter that is down
starts up first.  PRE belongs to the interrupted entry alone (R495). -/
def State.beginEntry (s : State) (m e : Nat) (down : Bool) : State :=
  let ch := s.rd MON_SEQ_CHAN m e
  let s := s.frontEnd m ch s.now false
  let x := s.mon m
  let x := { x with next := e, pre := x.pre && decide (e = x.next) }
  if down then (s.setMon m { x with wakeAt := s.now }).setMonState m mWake
  else
    let r : SeqRun := ⟨e, ch, s.rd MON_SEQ_AVG m e, s.rd MON_SEQ_SHIFT m e, s.now, s.settleAt m s.now, x.pre⟩
    (s.setMon m { x with entry := some r }).setMonState m mSeq

/-- The occupancy of an injection: its start and its end (R498). -/
def Inj.from_ (i : Inj) : Nat := i.lp - startUp
def Inj.until_ (i : Inj) : Nat :=
  if 0 < i.gate then i.lp + i.gate * 4 + samplePeriod else i.lp + (2 ^ i.avg + 5) * samplePeriod

/-- The injection that takes the converter in this clock, or should have before (R499, R501). -/
def State.dueInj (s : State) (m : Nat) : Option Inj :=
  (s.mon m).inj.find? fun i => !i.taken && decide (i.from_ / 4 ≤ s.clock)

/-- An injection takes the converter, with the front end on its channel (R499). -/
def State.takeInj (s : State) (m : Nat) (i : Inj) : State :=
  let s := s.frontEnd m i.chan i.from_ (decide (0 < i.gate))
  let x := s.mon m
  (s.setMon m { x with inj := x.inj.map fun j => if j = i then { j with taken := true } else j }).setMonState m mInj

/-- The sequence goes on at its next entry, or the converter is idle (R494, R496, R507); an injection that falls in the
clock of the entry's start wins (R501). -/
def State.goOn (s : State) (m : Nat) (down : Bool) : State :=
  let x := s.mon m
  let idle := fun (s : State) => if down then s else (s.setMon m { s.mon m with idleAt := s.now }).setMonState m mIdle
  if !s.rdb MON_SEQ_CTL_EN m then idle (s.setMon m { x with passOn := false, pre := false, restart := false })
  else
    let s := if x.restart then s.startPass m s.now else s
    if !(s.mon m).passOn then idle s
    else match s.nextEntry m (s.mon m).next with
      | some e => match s.dueInj m with
        | some i => s.takeInj m i
        | none => s.beginEntry m e down
      | none => idle (s.endPass m)

/-- A converter that has become free: a calibration that may start, else the sequence, else idle (R499). -/
def State.monFree (s : State) (m : Nat) : State := if s.calMayStart m then s.beginCal m else s.goOn m false

/-- The entry in progress is abandoned (R495). -/
def State.abandon (s : State) (m : Nat) : State :=
  let x := s.mon m
  match x.entry with
  | none => s
  | some r => (s.setMon m { x with entry := none, next := r.e, pre := true }).count MON_PREEMPT m

/-! ### Sequences (R494) -/

/-- MON_PASS_START (R494). (DEDUCED, log entry 2.) -/
def execMonPassStart (m : Fin 18) (s : State) : Host.Outcome State Fault Refusal :=
  .next (
    let x := s.mon m
    let st := s.monState m
    if st = mOff || !s.rdb MON_SEQ_CTL_EN m || x.passOn || decide (s.now < x.due) then s
    else
      let t := max x.due x.passEnd
      let s := if x.due < x.passEnd ∧ x.per ≠ 0 then s.count MON_SEQ_OVR m else s
      let s := s.startPass m t
      if st = mIdle then s.goOn m false else if st = mDown then s.goOn m true else s)

/-- MON_SEQ_ENTRY_END (R487–R489, R494, R496): `raws` are the raw codes of the valid samples, `bad` that a factor was read
uncorrectable. (DEDUCED, log entry 99.) -/
def execMonSeqEntryEnd (m : Fin 18) (raws : List Int) (bad : Bool) (s : State) : Host.Outcome State Fault Refusal :=
  .next (
    match (s.mon m).entry with
    | none => s
    | some r =>
      let k := 2 ^ r.avg
      if s.monState m ≠ mSeq ∨ raws.length ≠ k ∨ s.now < r.first + (r.settle + k) * samplePeriod then s
      else
        let codes := s.correctedAll m r.chan raws
        let s := s.checkRef m r.chan codes r.shift
        let w := s.sampleWord m codes r.shift r.settle r.pre false
        let s := (s.wr MON_RES w m r.e).count MON_SETTLE m r.settle
        let x := s.mon m
        let marks := x.bad.filter (· ≠ r.e)
        (s.setMon m { x with entry := none, next := r.e + 1, pre := false, bad := if bad then r.e :: marks else marks }).monFree m)

/-- A write of `MON_SEQ_CTL` has been made; `en` is EN before it (R494, R496). -/
def State.wroteSeqCtl (s : State) (m : Nat) (en : Bool) : State :=
  if en || !s.rdb MON_SEQ_CTL_EN m then s
  else
    let st := s.monState m
    if st = mSeq then s.setMon m { s.mon m with restart := true }
    else
      let s := s.startPass m s.now
      if st = mIdle then s.goOn m false else if st = mDown then s.goOn m true else s

/-- A write of XCHK = 0 clears PLAUS (R506). -/
def State.wroteMonCtl (s : State) (m : Nat) : State := if s.rdb MON_CTL_XCHK m then s else s.wr MON_STAT_PLAUS 0 m

/-! ### Injected conversions (R497–R501, R511) -/

/-- Whether an injection's occupancy overlaps what is accepted (R497 step 6). -/
def State.injOverlaps (s : State) (m : Nat) (i : Inj) : Bool :=
  ((s.mon m).inj.any fun j => decide (i.from_ < j.until_) && decide (j.from_ < i.until_)) ||
    (match (s.mon m).cal with
      | .running t => decide (i.from_ < t + calTicks) && decide (t < i.until_)
      | _ => false)

/-- Checks 2 to 6 of R497 on a descriptor that the engine accepted at tick `at_`: the engine status of the first that fails
with the check's number, or the injection. -/
def State.judgeInj (s : State) (w0 w1 w2 w3 : Nat) (by_ : InjBy) (at_ : Nat) : Except (Nat × Nat) (Nat × Inj) :=
  let m := bitsOf w0 26 22
  let ch := bitsOf w0 21 16
  let avg := bitsOf w0 15 12
  let shift := bitsOf w0 11 8
  let gate := bitsOf w3 17 0
  let lp := lpTicks w1 w2
  let i : Inj := ⟨ch, avg, shift, lp, gate, by_, false⟩
  if 18 ≤ m then .error (gDesc, 2)
  else if s.monState m = mOff then .error (gAddr, 2)
  else if chanReserved m ch || decide (8 < avg) || decide (8 < shift) || !lpOk w2 ||
      (gainFixed m ch && decide (ch < 61) && s.rd MON_CHCFG_GAIN m ch ≠ 0) then .error (gDesc, 2)
  else if 0 < gate ∧ ((avg = 0 ∧ gate < 100) ∨ (0 < avg ∧ gate / 2 ^ avg < 500)) then .error (gDesc, 3)
  else if lp < at_ + startUp then .error (gLate, 4)
  else if 16 ≤ (s.mon m).inj.length then .error (gFull, 5)
  else if s.injOverlaps m i then .error (gLate, 6)
  else .ok (m, i)

/-- An injection is accepted. -/
def State.acceptInj (s : State) (m : Nat) (i : Inj) : State := s.setMon m { s.mon m with inj := (s.mon m).inj ++ [i] }

/-- `MON.INJECT` (R511). -/
def State.cmdInject (c : Cmd) (s : State) : State :=
  s.unreserved c [mask 26 8, mask 35 0, mask 35 0, mask 17 0] fun s =>
    match s.judgeInj (c.w 0).toNat (c.w 1).toNat (c.w 2).toNat (c.w 3).toNat (.cmd c.tag) s.now with
    | .ok (m, i) => s.acceptInj m i
    | .error (st, k) =>
      if st = gDesc then s.complete c.tag (if k = 2 then eReserved else eRange)
      else if st = gAddr then s.complete c.tag eState
      else if st = gFull then s.complete c.tag eBusy
      else (if k = 6 then s.count MON_INJ_CONFLICT ((c.w 0).bits 26 22) else s).complete c.tag eLate

/-- MON_INJECT_TAKE (R499, R501). -/
def execMonInjectTake (m : Fin 18) (s : State) : Host.Outcome State Fault Refusal :=
  .next (
    let st := s.monState m
    match (s.mon m).inj.find? fun i => !i.taken && decide (i.from_ ≤ s.now) with
    | none => s
    | some i =>
      if st = mOff ∨ st = mInj ∨ st = mCal then s else (s.abandon m).takeInj m i)

/-- MON_INJECT_END (R487–R489, R499), with the raw codes of the valid samples. (DEDUCED, log entry 99.) -/
def execMonInjectEnd (m : Fin 18) (raws : List Int) (bad : Bool) (s : State) : Host.Outcome State Fault Refusal :=
  .next (
    match (s.mon m).inj.find? fun i => i.taken with
    | none => s
    | some i =>
      let k := 2 ^ i.avg
      let settle := if 0 < i.gate then 0 else s.settleAt m i.lp
      let tEnd := if 0 < i.gate then i.lp + i.gate * 4 + samplePeriod else i.lp + (settle + k) * samplePeriod
      if s.monState m ≠ mInj ∨ raws.length ≠ k ∨ s.now < tEnd then s
      else
        let codes := s.correctedAll m i.chan raws
        let s := s.checkRef m i.chan codes i.shift
        let w : PWord := ⟨word (s.sampleWord m codes i.shift settle false true), bad⟩
        let s := s.count MON_SETTLE m settle
        let s := s.setMon m { s.mon m with inj := (s.mon m).inj.filter fun j => !j.taken }
        let s := match i.by_ with
          | .op n tag => s.endOp n tag gOk (k + settle) w
          | .cmd tag => s.completeP tag eOk 0 w (cleanWords [k + settle, 0])
          | .orphan => s
        s.monFree m)

/-! ### Self-calibration (R502–R504, R513) -/

/-- A calibration is requested: pending, or joined (R502). -/
def State.requestCal (s : State) (m : Nat) (by_ : CalBy) : State :=
  let x := s.mon m
  let s := s.setMon m { x with joined := x.joined ++ [by_] }
  match x.cal with
  | .none => (s.setMon m { s.mon m with cal := .pending s.now false }).wr MON_STAT_CALPEND 1 m
  | _ => s

/-- The calibration of converter `m` has ended for a `CAL.START` (R513). -/
def State.calCmdEnds (s : State) (tag m : Nat) (bad : Bool) : State :=
  match s.calCmds.find? fun e => e.1 = tag with
  | none => s
  | some (_, left, res) =>
    let left := left.filter (· ≠ m)
    let res := res + if bad then 2 ^ m else 0
    let rest := s.calCmds.filter fun e => e.1 ≠ tag
    if left.isEmpty then { s with calCmds := rest }.complete tag eOk 0 res
    else { s with calCmds := (tag, left, res) :: rest }

/-- The requests of a calibration that has ended complete: engine operations with `status` and `result` (R503). -/
def State.calEnds (s : State) (m status : Nat) (result : PWord) (bad : Bool) : State :=
  let x := s.mon m
  let s := (s.setMon m { x with cal := .none, joined := [] }).wr MON_STAT_CALPEND 0 m
  x.joined.foldl
    (fun (s : State) b => match b with
      | .op n tag => s.used.endOp n tag status (if status = gOk then s.open_ % 2 ^ 18 else 0) result
      | .cmd tag => s.calCmdEnds tag m bad
      | .image => s) s

/-- `CAL.START` (R513). -/
def State.cmdCalStart (c : Cmd) (s : State) : State :=
  s.unreserved c [mask 35 26, 0] fun s =>
    let a := (c.w 0).bits 35 31
    let b := (c.w 0).bits 30 26
    let ms := (List.range 18).filter fun m => decide (a ≤ m) && decide (m ≤ b)
    if b < a ∨ 17 < b then s.complete c.tag eRange
    else match ms.find? fun m => s.monState m = mOff with
      | some m => s.complete c.tag eState m
      | none =>
        ms.foldl (fun (s : State) m => s.requestCal m (.cmd c.tag))
          { s with calCmds := (c.tag, ms, 0) :: s.calCmds }

/-- Ticks of a calibration window (R509). -/
def calWindow : Nat := 3 * ticksMs

/-- The core whose reference image calibrates a converter (R505). -/
def calOwner (m : Nat) : Nat := if m < 16 then 64 + m / 2 else 76

/-- Whether the occupancy of an injection meets the calibration window of a converter (R509). -/
def State.inWindow (s : State) (m : Nat) (i : Inj) : Bool :=
  (s.mon m).window.any fun t => decide (i.from_ < t + calWindow) && decide (t < i.until_)

/-- Whether the reference image owes a converter a calibration: the first since power-up, then one every 24 h (R505). -/
def State.calDue (s : State) (m : Nat) : Bool :=
  match (s.mon m).imgCal with
  | none => true
  | some t => decide (t + 86400 * ticksSec ≤ s.now)

/-- The notice of a window that starts at tick `t` stands in the shared memory of the converter's cluster (R509). -/
def State.calNotice (s : State) (m t : Nat) : State :=
  (Config.calNotice (m / 2) (m % 2) t).foldl
    (fun s e => s.setMem (0o200000000 + m / 2 * 0o20000000 + e.1 % 2 ^ 22) (cleanStored (word e.2))) s

/-- The reference image's calibrations of a converter, at an access frame boundary (R505, R509): a window is announced 8
frames before it, one at a time in a pair; the calibration is requested at its start. (DESIGN CHOICE, log entry 128.) -/
def State.imageCal (s : State) (m : Nat) : State :=
  let x := s.mon m
  if s.monState m = mOff || !s.refRuns (calOwner m) then s
  else
    match x.window with
    | none =>
      if s.calDue m && (s.mon (partner m)).window.isNone && !s.zeroing.contains (77 + m / 2) then
        let t := s.now + 8 * ticksFr
        let s := if m < 16 then s.calNotice m t else s
        s.setMon m { s.mon m with window := some t }
      else s
    | some t =>
      if s.now < t then s
      else if x.imgCal ≠ some t then (s.requestCal m .image).setMon m { (s.requestCal m .image).mon m with imgCal := some t }
      else if t + calWindow ≤ s.now then s.setMon m { x with window := none }
      else s

/-- MON_CAL_BEGIN (R502, R507). -/
def execMonCalBegin (m : Fin 18) (s : State) : Host.Outcome State Fault Refusal :=
  .next (
    let st := s.monState m
    if !s.calMayStart m then s
    else if st = mIdle then s.beginCal m
    else if st = mSeq then (s.abandon m).beginCal m
    else if st = mDown then (s.setMon m { s.mon m with wakeAt := s.now }).setMonState m mWake
    else s)

/-- Whether a measured offset (1/16 code) and gain error (2^-20) pass (R503). -/
def calPasses (ofs gain : Int) : Bool := decide (|ofs| ≤ 1024) && decide (100 * |gain| ≤ 2 * 2 ^ 20)

/-- A 16-bit field of `MON_CALF`, held at its ends. -/
def calField (z : Int) : Nat := toField 16 (clampInt (-32768) 32767 z)

/-- A passing result replaces the set of the point within 5 °C (R503). -/
def State.keepSet (s : State) (m : Nat) (temp : Int) (w : Nat) : State :=
  if temp < 50 ∨ 210 < temp then s
  else
    let p := nearestPoint temp
    let t := 2 ^ 35 + toField 9 temp * 2 ^ 26
    let s := (s.setReg (MON_CALSET_W0.addr m p 0) (word w)).setReg (MON_CALSET_VALID.addr m p 0) (word t)
    s.setMon m { s.mon m with nv := sput (fun _ => none) (s.mon m).nv p (some (w, t)) }

/-- MON_CAL_END (R503): the offset in 1/16 code and the gain error in 2^-20 then measured. (DEDUCED, log entry 99.) -/
def execMonCalEnd (m : Fin 18) (ofs gain : Int) (s : State) : Host.Outcome State Fault Refusal :=
  .next (
    match (s.mon m).cal with
    | .running t =>
      if s.monState m ≠ mCal ∨ s.now < t + calTicks then s
      else
        let s := s.frontEnd m 62 (t + calTicks - samplePeriod) false
        let temp := s.monTemp m
        let w := calField ofs * 2 ^ 20 + calField gain * 2 ^ 4
        let pass := calPasses ofs gain
        let s := (s.wr MON_CALM w m).wri MON_CAL_STAT_TEMP temp m
        let s :=
          if pass then
            let s := ((s.wri MON_CALF_OFS ofs m).wri MON_CALF_GAIN gain m).wr MON_STAT_SELFCAL 1 m
            let s := ((s.wr MON_CAL_STAT_LAST 1 m).setMon m { s.mon m with adopted := some temp }).count MON_CAL_DONE m
            s.keepSet m temp w
          else (s.wr MON_CAL_STAT_LAST 2 m).occur MON_CAL_FAIL m [ofs, gain]
        (s.calEnds m gOk ⟨word w, false⟩ !pass).monFree m
    | _ => s)

/-- MON_CAL_WAIT (R502). -/
def execMonCalWait (m : Fin 18) (s : State) : Host.Outcome State Fault Refusal :=
  .next (
    match (s.mon m).cal with
    | .pending t false =>
      if s.monState m ≠ mOff ∧ t + ticksSec ≤ s.now then
        (s.setMon m { s.mon m with cal := .pending t true }).occur MON_CAL_WAIT m
      else s
    | _ => s)

/-- The factors in force at a die temperature, by interpolation (R504). -/
def State.interpolated (s : State) (m : Nat) (temp : Int) : State :=
  let v := interpSet (s.calSetOf m) temp
  let s := s.setMon m { s.mon m with adopted := none }
  (s.wri MON_CALF_OFS (v.getD 0 0) m).wri MON_CALF_GAIN (v.getD 1 0) m

/-- MON_FACTOR_UPDATE (R504): the die temperature in 0.5 °C, and the factors in force. -/
def execMonFactorUpdate (m : Fin 18) (temp : Int) (s : State) : Host.Outcome State Fault Refusal :=
  .next (
    let x := s.mon m
    if s.monState m = mOff ∨ s.now < x.facAt + 10 * ticksMs then s
    else
      let s := (s.wri MON_STAT_TEMP temp m).setMon m { x with facAt := s.now }
      let stays := match x.adopted with
        | some t => decide (|temp - t| < 4)
        | none => false
      if stays then s else s.interpolated m temp)

/-! ### Power-down and start-up (R490, R507) -/

/-- Whether a converter has work due: a calibration that may start, an entry or a pass of the sequence, or an injection
(R490, R507). -/
def State.monDue (s : State) (m : Nat) : Bool :=
  let x := s.mon m
  s.calMayStart m || (s.rdb MON_SEQ_CTL_EN m && (x.passOn || decide (x.due ≤ s.now))) || (s.dueInj m).isSome

/-- MON_POWER_DOWN (R490, R507). -/
def execMonPowerDown (m : Fin 18) (s : State) : Host.Outcome State Fault Refusal :=
  .next (
    if s.monState m = mIdle ∧ (s.mon m).idleAt + 8000 ≤ s.now ∧ s.monDue m = false then s.setMonState m mDown else s)

/-- MON_WAKE_DONE (R490, R507). -/
def execMonWakeDone (m : Fin 18) (s : State) : Host.Outcome State Fault Refusal :=
  .next (if s.monState m = mWake ∧ (s.mon m).wakeAt + startUp ≤ s.now then s.monFree m else s)

/-- The domain of a converter has reached ON (R505, R507, R514); the die temperature then is a free value. (DESIGN CHOICE,
log entry 135.) -/
def State.monOn (s : State) (m : Nat) : State :=
  let x := s.mon m
  let s := (s.setMonState m mDown).setReg (MON_SEQ_CTL_EN.addr m 0 0) (resetWord (MON_SEQ_CTL_EN.addr m 0 0))
  let s := (List.range 8).foldl
    (fun (s : State) p => match sget (fun _ => none) x.nv p with
      | some (w, t) => (s.setReg (MON_CALSET_W0.addr m p 0) (word w)).setReg (MON_CALSET_VALID.addr m p 0) (word t)
      | none => s) s
  let s := if x.cut then s.wr MON_CAL_STAT_LAST 3 m else s
  let temp := signed 9 (s.open_ % 512)
  ((s.used.wri MON_STAT_TEMP temp m).setMon m { nv := x.nv, facAt := s.now, idleAt := s.now }).interpolated m temp

/-- The domain of a converter goes off (R500, R503, R507). -/
def State.monOff (s : State) (m : Nat) : State :=
  let x := s.mon m
  let cut := match x.cal with
    | .running _ => true
    | _ => false
  let s := x.inj.foldl
    (fun (s : State) (i : Inj) => match i.by_ with
      | .op n tag => s.endOp n tag gAddr 0 PWord.zero
      | .cmd tag => s.complete tag eState
      | .orphan => s) s
  let s := s.calEnds m gAddr PWord.zero true
  s.setMon m { nv := x.nv, cut := cut }

/-! ### `MON.SEQ` (R512) -/

/-- Whether a word is a sequence entry without a reserved value (R485, R514). -/
def seqEntryOk (m : Nat) (w : Word) : Bool :=
  !chanReserved m (w.bits 35 30) && decide (w.bits 29 26 ≤ 8) && decide (w.bits 25 22 ≤ 8) && w.bits 20 0 = 0

/-- `MON.SEQ` (R512). -/
def State.cmdMonSeq (c : Cmd) (s : State) : State :=
  s.unreserved c [mask 35 4, 1] fun s =>
    let m := (c.w 0).bits 35 31
    let only := (c.w 1).bit 0
    let entries := (List.range 64).map fun i => c.w (2 + i)
    let bad := if only then none else entries.findIdx? fun w => !seqEntryOk m w
    if 18 ≤ m ∨ 1000000 < (c.w 0).bits 23 4 then s.complete c.tag eReserved
    else match bad with
      | some i => s.complete c.tag eReserved (2 + i)
      | none =>
        if s.monState m = mOff then s.complete c.tag eState
        else
          let s :=
            if only then s
            else (List.range 64).foldl (fun (s : State) i => s.setReg (MON_SEQ_EN.addr m i 0) (entries.getD i 0)) s
          let ctl := word (((c.w 0).bits 30 30 * 2 ^ 6 + (c.w 0).bits 29 24) * 2 ^ 29 + (c.w 0).bits 23 4 * 2 ^ 9)
          let s := s.setReg (MON_SEQ_CTL_EN.addr m 0 0) ctl
          (s.wroteSeqCtl m false).complete c.tag eOk

end Sys2Proof.Machine
end

