-- ==== Sys2Proof/Machine/RegRead.lean ====
section
/-! DEFINITION. What a register word shows, and a read of one: the registers whose home is elsewhere in the state,
the per-master latches (R64, R74, R262, R333, R348, R547), the fields that a read clears (R12), and the tables whose
words are lane memories (R516). -/

namespace Sys2Proof.Machine

open Reg

/-! ### Registers whose home is elsewhere -/

/-- The words of the `TIME` block that have another home, by offset (R41, R63). -/
def State.timeWord (s : State) (o : Nat) : Option Nat :=
  if o = 0 then some (lpA s.now)
  else if 4 ≤ o ∧ o < 7 then (ntWords s.time.offset)[o - 4]?
  else if o = 0o17 then some s.time.tsq.length
  else none

/-- The words of the `EVT` block that have another home (R568). -/
def State.evtWord (s : State) (o : Nat) : Option Nat :=
  if o = 1 then some (b2n s.evt.aval * 2 ^ 35 + s.evt.main.length * 2 ^ 18 + s.evt.p0.length * 2 ^ 5)
  else if o = 2 then some s.evt.seq
  else if o = 3 then some s.evt.seqP0
  else none

/-- `SVC_QSTAT` of queue `q`: busy slots and commands running. -/
def State.svcQueueWord (s : State) (q : Nat) : Nat :=
  let l := s.cmds.filter fun c => c.tag / 64 = q
  l.length * 2 ^ 7 + (l.filter fun c => c.stage = .running).length

/-- The words of the `EDW` block that show keys (R480), by offset from its base. -/
def State.edwWord (s : State) (o : Nat) : Option Nat :=
  if o < 0o1000000 ∧ 0o100 ≤ o % 0o10000 ∧ o % 0o10000 < 0o2100 then
    (s.keyWords (o / 0o10000) ((o % 0o10000 - 0o100) / 4))[o % 4]?
  else if 0o1000000 ≤ o ∧ o < 0o1200000 then (s.trkWords ((o - 0o1000000) / 4))[o % 4]?
  else none

/-- The words of the `QUE` block below its counters that show queues, pages and shapers (R425, R438). -/
def State.queWord (s : State) (o : Nat) : Option Nat :=
  let q := o / 4
  if q < 141312 then
    let smp := sget (fun _ => (0, 0)) s.traf.sweep q
    if o % 4 = 1 then some (s.depth q * 2 ^ 6)
    else if o % 4 = 2 then some (smp.1 * 2 ^ 6)
    else if o % 4 = 3 then (s.sampledAt q).map fun t => smp.2 * 2 ^ 13 + t / ticksFr % 8192
    else none
  else if 0o2200000 ≤ o ∧ o < 0o2200000 + 4 * 34048 then
    let k := (o - 0o2200000) / 4
    if o % 4 = 2 then some (toField 36 ((s.shaper (k / 64) (k % 64)).2 / 32000)) else none
  else if 0o3000000 ≤ o ∧ o < 0o3000400 ∧ o % 4 = 1 then some (s.pageCells ((o - 0o3000000) / 4))
  else none

/-- Spare rows of a memory instance (R531). (DEDUCED, log entry 24.) -/
def spareRows (i : Nat) : Nat :=
  if i < 77 then 2 else if i < 85 then 16 else if i = 85 then 32 else if 89 ≤ i ∧ i < 97 then 512 else 0

/-- Spare rows of a memory instance that are left. -/
def State.sparesLeft (s : State) (i : Nat) : Nat := spareRows i - sget (fun _ => 0) s.grm.spared i

/-- `GRM_SPARE` and `GRM_RETIRED`, from the repair map (R533, R535). -/
def State.grmWord (s : State) (o : Nat) : Option Nat :=
  let left := fun (l : List Nat) => (l.map s.sparesLeft).sum
  if o = 7 then some (left (List.range 86) * 2 ^ 27 + left ((List.range 8).map (89 + ·)) * 2 ^ 14)
  else if o = 8 then
    some (min 511 (s.grm.retired.filter fun r => !r.2).length * 2 ^ 27 +
      min 2097151 (s.grm.retired.filter fun r => r.2).length * 2 ^ 6)
  else none

/-- Unread blocks on the receive path of a channel, which its route leads to the service link or to a serial port (R300). -/
def State.rxBlocks (s : State) (l h : Nat) : Nat :=
  min 2 (if s.route l h = 2 then (s.svc.ohOut.filter fun b => b.1 = l && b.2.1 = h).length
    else (s.slip l h false).blocks.length)

/-- `LINE_OH_STAT` of a line (R300, R306). -/
def State.ohWord (s : State) (l : Nat) : Nat :=
  let tx := fun h => min 2 (s.slip l h true).blocks.length
  s.rxBlocks l 1 * 2 ^ 6 + tx 1 * 2 ^ 4 + s.rxBlocks l 0 * 2 ^ 2 + tx 0

/-- `LINE_TX_STAT` with its countdown (R223), and `LINE_FR_STAT` with the impairment (R293). -/
def State.lineWord (s : State) (l o : Nat) : Option Nat :=
  let w := (s.reg (0o402000000 + l * 0o100000 + o)).toNat
  if o = 2 then
    some (setBits w 26 22 (match (s.line l).switchMf with
      | some m => min 15 (m - 1 - s.now / ticksMf)
      | none => 31))
  else if o = 0o4001 then some (setBits w 23 23 (b2n (s.impaired l)))
  else if o = 0o4005 then some (s.ohWord l)
  else none

/-- The words of a register whose home is elsewhere in the state; none when the stored word is shown. -/
def State.homeWord (s : State) (a : Nat) : Option PWord :=
  let clean := fun (w : Option Nat) => w.map fun n => (⟨word n, false⟩ : PWord)
  if 0o460000000 ≤ a then
    let n := (a - 0o460000000) / 0o10000
    let o := (a - 0o460000000) % 0o10000
    if o = 1 then
      clean (some (if s.domOn (coreDomain n) then setBits (s.reg a).toNat 18 12 (s.core n).ops.length
        else setBits (resetWord a).toNat 2 0 cOff))
    else s.coreWord n o
  else if 0o450030000 ≤ a then clean (s.imgWord (a - 0o450030000))
  else if 0o450020000 ≤ a then none
  else if 0o450010000 ≤ a then clean (s.grmWord (a - 0o450010000))
  else if 0o450000000 ≤ a then
    clean (if a = 0o450000001 then some s.freeCells else if a = 0o450000002 then some s.freeDescs else none)
  else if 0o440000000 ≤ a then clean (s.queWord (a - 0o440000000))
  else if a = 0o433600000 then clean (some (s.services * 2 ^ 18 + s.keyCount))
  else if 0o430000000 ≤ a then none
  else if 0o420000000 ≤ a then clean (s.edwWord (a - 0o420000000))
  else if 0o404010030 ≤ a ∧ a < 0o404010040 then clean (some (s.svcQueueWord (a - 0o404010030)))
  else if 0o404004000 ≤ a ∧ a < 0o404004100 then clean (s.evtWord (a - 0o404004000))
  else if 0o404000000 ≤ a ∧ a < 0o404000100 then clean (s.timeWord (a - 0o404000000))
  else if 0o402000000 ≤ a ∧ a < 0o403000000 then clean (s.lineWord ((a - 0o402000000) / 0o100000) ((a - 0o402000000) % 0o100000))
  else if 0o401500000 ≤ a ∧ a < 0o402000000 then
    let m := (a - 0o401500000) / 0o1000
    let o := (a - 0o401500000) % 0o1000
    if o = 1 then clean (some (setBits (s.reg a).toNat 29 25 (s.mon m).inj.length))
    else if o = 3 then clean (some (setBits (s.reg a).toNat 35 30 (s.seqEntry m)))
    else if 0o175 ≤ o ∧ o < 0o200 then clean (some 0)
    else if 0o400 ≤ o ∧ o < 0o500 ∧ o % 2 = 0 then clean (some ((s.reg a).toNat / 16 * 16))
    else if 0o300 ≤ o ∧ o < 0o400 then some ⟨s.reg a, (s.mon m).bad.contains (o - 0o300)⟩
    else none
  else none

/-- What the register word at `a` shows. (DEDUCED, log entry 21.) -/
def State.shown (s : State) (a : Nat) : PWord := (s.homeWord a).getD ⟨s.reg a, false⟩

/-! ### Tables kept in lane memories (R516) -/

/-- The stored form of a word of any lane memory, the tables included. (DEDUCED, log entry 21.) -/
def State.wordStored (s : State) (a : Nat) : Stored :=
  match sget (fun _ => none) s.tblRaw a, memInstance a with
  | some x, _ => x
  | none, some i =>
    if i < 86 then s.memAt a
    else if (cntIndexAt a).isSome then s.cntStored a
    else cleanStored (s.shown a).v
  | none, none => cleanStored 0

/-- The value of a counter word replaced. -/
def State.cntSetWord (s : State) (x : Nat) (chain : Bool) (v : Nat) : State :=
  let old := s.cntAt x
  { s with cnt := sput (fun _ => 0) s.cnt x (if chain then v * 2 ^ 36 + old % 2 ^ 36 else old / 2 ^ 36 * 2 ^ 36 + v) }

/-- The state with a lane-memory word stored as given.  A table word takes the value its lanes deliver, and keeps
its stored form where that is not the code of the value. -/
def State.putStored (s : State) (a : Nat) (x : Stored) : State :=
  match memInstance a with
  | none => s
  | some i =>
    if i < 86 then s.setMem a x
    else
      let v := (x.deliver 15).v
      let s : State :=
        match cntIndexAt a with
        | some (c, chain) => if cntAssigned c then s.cntSetWord c chain v.toNat else s
        | none => if (s.homeWord a).isSome then s else s.setReg a v
      let s := { s with tblRaw := sput (fun _ => none) s.tblRaw a none }
      if s.wordStored a = x then s else { s with tblRaw := sput (fun _ => none) s.tblRaw a (some x) }

/-- A read of lanes of a lane-memory word, the tables included (R521, R522). -/
def State.laneRead (s : State) (a le : Nat) : PWord × State :=
  ((s.wordStored a).deliver le, s.noteRead a ((memInstance a).getD 0) (s.wordStored a) le)

/-! ### Reads with an effect -/

/-- The key of a master's latch for an address. -/
def latchKey (m a : Nat) : Nat := 2 ^ 30 * m + a

/-- Latches words for a master. (DEDUCED, log entry 20.) -/
def State.latchWords (s : State) (m : Nat) (l : List (Nat × PWord)) : State :=
  { s with latch := l.foldl (fun t e => sput unlatched t (latchKey m e.1) e.2) s.latch }

/-- What a master's latch of an address holds: the reset value until something has been latched (R15). (DEDUCED, log entry 20.) -/
def State.latched (s : State) (m a : Nat) : PWord := sget unlatched s.latch (latchKey m a)

/-- Latches the words from address `a` on. -/
def State.latchFrom (s : State) (m a : Nat) (l : List Nat) : State :=
  s.latchWords m ((List.range l.length).map fun i => (a + i, ⟨word (l.getD i 0), false⟩))

/-- Latches what the registers at some addresses show. -/
def State.latchShown (s : State) (m : Nat) (l : List Nat) : State := s.latchWords m (l.map fun a => (a, s.shown a))

/-- The last address a master has: it stands for the counter word the master read last. -/
def lastCntKey : Nat := 2 ^ 30 - 1

/-- A load of one counter word (R547): a count word latches its chain word; the chain word returns the latch when the
master's previous load of the counter file was that count word. (DEDUCED, log entry 20.) -/
def State.cntLoad (s : State) (m a le : Nat) : PWord × State :=
  let prev := (s.latched m lastCntKey).v.toNat
  let note := fun (s : State) => s.latchWords m [(lastCntKey, ⟨word a, false⟩)]
  if a % 2 = 0 then
    let chain := (s.cntStored (a + 1)).deliver 15
    let (w, s) := s.cntRead a le
    (w, (note s).latchWords m [(a + 1, chain)])
  else if prev + 1 = a then (s.latched m a, note s)
  else
    let (w, s) := s.cntRead a le
    (w, note s)

/-- A read of a register word by the master of ID `m` (R100), with lane enables `le` for the tables. (DEDUCED, log entry 20.) -/
def State.busRead (s : State) (m a le : Nat) : PWord × State :=
  if (cntIndexAt a).isSome then s.cntLoad m a le
  else if (memInstance a).isSome then s.laneRead a le
  else if a = 0o404000000 then
    (s.shown a, (s.latchFrom m 0o404000001 [lpB s.now]).latchFrom m 0o404000010 (ntWords (s.ntAt s.now)))
  else if a = 0o404000020 then
    let (l, s) := s.tsqPop
    (⟨word (l.headD 0), false⟩, s.latchFrom m 0o404000021 l.tail)
  else if a = 0o404000100 then (s.shown a, s.latchShown m [a + 1])
  else if a = 0o404000001 ∨ (0o404000010 ≤ a ∧ a < 0o404000013) ∨ (0o404000021 ≤ a ∧ a < 0o404000024) ∨ a = 0o404000101 then
    (s.latched m a, s)
  else if 0o400000000 ≤ a ∧ a < 0o401000000 then
    let o := (a - 0o400000000) % 0o1000
    if o = 5 then (s.shown a, s.latchShown m [a + 1, a + 2, a + 3, a + 4])
    else if 6 ≤ o ∧ o < 0o12 then (s.latched m a, s)
    else (s.shown a, s)
  else if 0o401000000 ≤ a ∧ a < 0o401400000 then
    let t := (a - 0o401000000) / 0o4000
    let o := (a - 0o401000000) % 0o4000
    if o = 3 then
      let (e, s) := s.popBev t
      (⟨word e.1, false⟩, s.latchFrom m (a + 1) [e.2.1, e.2.2])
    else if o = 4 ∨ o = 5 then (s.latched m a, s)
    else if 0o1000 ≤ o ∧ o < 0o3000 then (s.shown a, s.wr TREE_RPT_FRESH 0 t (o - 0o1000))
    else (s.shown a, s)
  else if 0o402000000 ≤ a ∧ a < 0o403000000 then
    let o := (a - 0o402000000) % 0o100000
    if o = 0o2007 then
      (s.shown a, s.latchShown m ([a + 1, a + 2, a - 0o2007 + 0o4071] ++
        (List.range 64).map fun i => a - 0o2007 + 0o2100 + i))
    else if o = 0o2010 ∨ o = 0o2011 ∨ o = 0o4071 ∨ (0o2100 ≤ o ∧ o < 0o2200) then (s.latched m a, s)
    else (s.shown a, s)
  else (s.shown a, s)

end Sys2Proof.Machine
end

