-- ==== Sys2Proof/Machine/CoreReset.lean ====
section
/-! DEFINITION. Reads through a packet window (R94, R96), the bursts that a reset cuts and the matrix completes (R108), the
reset of a core (R119), and a write of `CORE_CTL` (R110, R113). -/

namespace Sys2Proof.Machine

open Ev Reg

/-! ### Loads through a packet window (R94, R96) -/

/-- The packet that an open window shows. -/
def State.windowPacket (s : State) (n w : Nat) : Option (Nat × Packet) :=
  if s.rdb CORE_WIN_H_OPEN n w then s.byHandle (s.rd CORE_WIN_H_HANDLE n w) else none

/-- The octet of a packet that lane `l` of window word `o` shows (R94). -/
def winOctet (o l : Nat) : Nat := 4 * o + (3 - l)

/-- A load of a window word: octets with bit 8 set, zero beyond LEN, all lanes poisoned when the buffer lane is (R96). -/
def State.windowRead (s : State) (p : Packet) (o : Nat) : PWord × State :=
  if p.len ≤ 4 * o then (PWord.zero, s)
  else
    let (d, bad, s) := s.readLane p o
    let lane := fun l => if winOctet o l < p.len then (256 + bitsOf d (8 * l + 7) (8 * l)) * 2 ^ (9 * l) else 0
    (⟨word (((List.range 4).map lane).sum), bad⟩, s)

/-! ### Bursts that a reset cuts (R108) -/

/-- Whether a register word lies in the `CORE` block of core `n`. -/
def inCoreBlock (n a : Nat) : Bool := decide (0o460000000 + n * 0o10000 ≤ a) && decide (a < 0o460000000 + (n + 1) * 0o10000)

/-- The address `k` words on in pieces of memory that follow one another, each a start and a length. -/
def pieceAt : List (Nat × Nat) → Nat → Option Nat
  | [], _ => none
  | (a, n) :: t, k => if k < n then some (a + k) else pieceAt t (k - n)

/-- Where an operation reads next, while it does: a copy has moved `done` words, the inputs of a cipher operation follow
one another, the maps of a commit lie in one piece (R153, R154, R156). -/
def EngOp.readsAt (o : EngOp) : Option Nat :=
  let w := fun i => (o.desc.getD i PWord.zero).v
  let at_ := fun i => (w i).toNat
  let text := (w 4).bits 35 18
  match o.unit, (w 0).bits 32 27, o.out with
  | 1, 1, none => pieceAt [(at_ 3, 4 * (w 4).bits 17 0), (at_ 1, 4 * text)] o.got.length
  | 1, 2, none => pieceAt [(at_ 3, 4 * (w 4).bits 17 0), (at_ 5, 3), (at_ 1, 4 * text), (at_ 6, 4)] o.got.length
  | 1, 3, none => pieceAt [(at_ 1, 16 * text)] o.got.length
  | 2, 1, _ => some (at_ 1 + o.done)
  | 4, 1, _ => some (at_ 3 + o.got.length)
  | _, _, _ => none

/-- A word of a place that unit `u` of core `n` reads and that is discarded. -/
def State.discards (s : State) (n u : Nat) : Place → State
  | .rom .. => s
  | .mem g => (s.memRead g 15).2
  | .reg g => (s.busRead (masterId n u) g 15).2
  | .win k w o => match s.windowPacket k w with
    | some (_, p) => (s.windowRead p o).2
    | none => s

/-- A word that is read and discarded where a read of it is answered (R108). -/
def State.dummyRead (s : State) (n u a : Nat) : State :=
  match s.resolve n a false with
  | .error _ => s
  | .ok p => if s.heldBack p then s else s.discards n u p

/-- The words of a burst's remaining beats are read and discarded where its operation reads; a beat that writes has every
lane off and does nothing (R108). -/
def State.dummyBeats (s : State) (n : Nat) (b : Burst) : State :=
  match ((s.core n).ops.filter fun o => o.unit = b.unit.val).findSome? EngOp.readsAt with
  | none => s
  | some a => (List.range (2 * b.beats.val)).foldl (fun (s : State) i => s.dummyRead n b.unit (a + i)) s

/-- Whether a granted request reads: one of the core's own loads and atomics, of an operation at its next read, or of a
command that is a read. -/
def State.reqReads (s : State) (r : MtxReq) : Bool :=
  r.posted.isNone &&
    match r.by_ with
    | .core => match (s.core r.core).wait with
      | some (.st ..) | some (.stp ..) => false
      | _ => true
    | .op _ tag => ((s.core r.core).ops.filter fun o => o.tag = tag).any fun o =>
        o.readsAt.any fun a => match s.resolve r.core a false with
          | .ok p => p.addr = r.addr
          | .error _ => false
    | .timed .. | .link _ => false
    | .row _ => true

/-- The beat of a granted request of a core that is reset (R108). -/
def State.dummyBeat (s : State) (r : MtxReq) : State :=
  match globalPlace r.addr with
  | some p => if s.reqReads r && !s.heldBack p && s.answers p.domain then s.discards r.core r.by_.unit p else s
  | none => s

/-- A burst of a master that is reset is completed by the matrix (R108). (DEDUCED, log entry 50.) -/
def State.abortBurst (s : State) (n : Nat) (b : Burst) : State :=
  if b.beats.val = 0 then s
  else
    let m := masterId n b.unit
    let s :=
      if b.matrix.val = 0 then (s.wr MTX_ABORT_MASTER m).wr MTX_ABORT_BEATS b.beats
      else (s.wr KMTX_ABORT_MASTER m (b.matrix.val - 1)).wr KMTX_ABORT_BEATS b.beats (b.matrix.val - 1)
    s.occur MTX_BURST_ABORT b.matrix


/-- The bursts of core `n` that a reset finds at target ports: a request that has been granted has its one beat to come
(R108). -/
def State.grantedBursts (s : State) (n : Nat) : List Burst :=
  (s.mtx.filter fun r => r.core = n && r.stage = .granted).map fun r =>
    ⟨Fin.ofNat 8 r.by_.unit, Fin.ofNat 9 (targetMatrix r.addr), 1⟩

/-- The operations of core `n` that may be in the middle of a burst: those none of whose requests waits, is held back or
has been granted (R108). -/
def State.bursting (s : State) (n : Nat) : List EngOp :=
  (s.core n).ops.filter fun o => !(s.mtx.any fun r => r.core = n && r.by_ = .op o.unit o.tag)

/-- The engine bursts that a reset of core `n` cuts where no operand names them: each operation that may be in one has an
open number of beats to come, none among them, at the core's own matrix (R108). (DESIGN CHOICE, log entry 50.) -/
def State.openBursts (s : State) (n : Nat) : List Burst × State :=
  let units := (s.bursting n).map (·.unit)
  ((List.range units.length).map fun i =>
      ⟨Fin.ofNat 8 (units.getD i 0), Fin.ofNat 9 (matrixOf n), Fin.ofNat 16 (Config.open (s.free + i))⟩,
    s.used units.length)

/-- Core `n` is reset (R108, R119, R151): armed actions and engine operations are cancelled, bursts in progress are
completed, a load into it ends, and it is EMPTY. -/
def State.resetCore (s : State) (n : Nat) (bursts : List Burst) : State :=
  let loading := s.rd CORE_STAT_STATE n = cLoading
  let granted := s.grantedBursts n
  let s := (s.mtx.filter fun r => r.core = n && r.stage = .granted).foldl State.dummyBeat s
  let s := bursts.foldl (fun s b => s.dummyBeats n b) s
  let s := (granted ++ bursts).foldl (fun s b => s.abortBurst n b) s
  let s := { s.setCore n {} with mtx := s.mtx.filter fun r => r.core ≠ n }
  let s := { s with mons := s.mons.map fun (e : Nat × MonSt) => (e.1, e.2.coreReset n) }
  let s := s.resetRegs [.c] (inCoreBlock n)
  if loading then s.cutCopy n else s

/-- Core `n` is reset and taken off the loads that name it; `bursts` are the engine bursts in progress where they are
given, else they are open (R108, R119, R589); a unit none of whose operations can be in a burst has none. (DESIGN CHOICE,
log entry 50.) -/
def State.cutCore (s : State) (n : Nat) (bursts : Option (List Burst)) : State :=
  match bursts with
  | some l => (s.dropTarget n).resetCore n (l.filter fun b => (s.bursting n).any fun o => o.unit = b.unit.val)
  | none => let (l, s) := s.openBursts n; (s.dropTarget n).resetCore n l

/-- A write of `CORE_CTL` of core `n` by unit `u` of master core `m` (127: the service link), issued to address `a` (R110,
R113, R119): REMAP, then HALT, START and SRST where their bits are 1.  START and SRST of the S-core's own block, which R113
both lets the S-core write and has discarded, are discarded; a discarded write is recorded with the address that was
issued, in the own view where the core used that (DESIGN CHOICE, log entry 112).  SRST of a core takes it off the loads that
name it. -/
def State.wroteCoreCtl (s : State) (m u n a : Nat) (w : Word) (bursts : Option (List Burst)) : State :=
  if s.coreState n = cOff then s
  else
    let s :=
      if m = n then s.setCore n { s.core n with remapPend := some (w.bit 3) }
      else if s.coreState n = cRunning then s
      else s.wr CORE_CTL_REMAP (b2n (w.bit 3)) n
    let s := if w.bit 2 && s.coreState n = cRunning then s.haltCore n else s
    if m = n then (if w.bit 1 || w.bit 0 then s.decErr m u a 1 else s)
    else
      let s := if w.bit 1 then s.startCore n else s
      if w.bit 0 then s.cutCore n bursts else s

end Sys2Proof.Machine
end

