-- ==== Sys2Proof/Machine/Groomer.lean ====
section
/-! DEFINITION. The Groomer: its walkers and demand queue, hard errors, spares and retirement, and the check-bit test
path (R525–R534). -/

namespace Sys2Proof.Machine

open Ev Reg

/-! ### The stored bits of buffer lanes -/

/-- The state with a buffer lane stored as given. -/
def State.putLane (s : State) (a : Nat) (x : StoredB) : State :=
  let s := { s with bufRaw := sput (fun _ => none) s.bufRaw a none }
  if s.bufAt a = x then s else { s with bufRaw := sput (fun _ => none) s.bufRaw a (some x) }

/-! ### The walk (R525) -/

/-- Words of the lane memories and cells of the buffer. -/
def laneWords : Nat := 68157440
def bufCells : Nat := 2 ^ 30

/-- The address of lane-walker visit `j`: module shared memory, cluster shared memories, local RAMs, `FWD`, `QUE`,
`CNT`, each in address order. -/
def walkAddr (j : Nat) : Nat :=
  if j < 2 ^ 24 then 0o100000000 + j
  else
    let j := j - 2 ^ 24
    if j < 2 ^ 25 then 0o200000000 + j
    else
      let j := j - 2 ^ 25
      if j < 64 * 131072 then localBase (j / 131072) + j % 131072
      else
        let j := j - 64 * 131072
        if j < 12 * 262144 then localBase (64 + j / 262144) + j % 262144
        else
          let j := j - 12 * 262144
          if j < 2097152 then localBase 76 + j
          else
            let j := j - 2097152
            if j < 2 ^ 20 then 0o430000000 + j
            else if j < 3 * 2 ^ 20 then 0o440000000 + (j - 2 ^ 20)
            else 0o410000000 + (j - 3 * 2 ^ 20)

/-- Ticks of a pass of `h` hours. -/
def passTicks (h : Nat) : Nat := h * 3600 * ticksSec

/-- The tick at which the next pass of a walker starts. (DEDUCED, log entry 25.) -/
def State.passDue (s : State) (pass : Option Nat) (per : Nat) : Nat :=
  match pass with
  | none => (s.grm.enAt / ticksSf + 1) * ticksSf
  | some t => t + passTicks per

/-- GRM_PASS_START (R525). (DEDUCED, log entry 25.) -/
def execGrmPassStart (buffer : Bool) (s : State) : Host.Outcome State Fault Refusal :=
  .next (
    let g := s.grm
    let due := if buffer then s.passDue g.passB g.perB else s.passDue g.passL g.perL
    if !s.up || !s.rdb GRM_CTL_EN || decide (s.now < due) then s
    else
      let owners := g.owners.filter fun o => o.2.2 ≠ buffer
      let h := s.rd GRM_CTL_PERIOD
      if buffer then
        { s with grm := { g with passB := some due, perB := h, visB := 0, noB := g.noB + 1, owners := owners } }.wr GRM_POS_B 0
      else
        { s with grm := { g with passL := some due, perL := h, visL := 0, noL := g.noL + 1, owners := owners } }.wr GRM_POS_L
          (walkAddr 0))

/-- EN of `GRM_CTL` has been written; it was `en` (R525). -/
def State.wroteGrmCtl (s : State) (en : Bool) : State :=
  if en && !s.rdb GRM_CTL_EN then { s with grm := { s.grm with passL := none, passB := none } }
  else if !en && s.rdb GRM_CTL_EN then { s with grm := { s.grm with enAt := s.now } }
  else s

/-! ### Hard errors, spares and retirement (R530–R532) -/

/-- The base of the row of a lane-memory address or of a buffer lane. -/
def grmRow (a : Nat) (buffer : Bool) : Nat := if buffer then a / 256 * 256 else rowOf a

/-- A row is repaired: moved to a spare when one is left, or retired. -/
def State.repairRow (s : State) (row : Nat) (buffer : Bool) (inst : Nat) : State :=
  if s.grm.retired.contains (row, buffer) || s.grm.copies.any fun c => c.row = row && c.buffer = buffer then s
  else if 0 < s.sparesLeft inst then
    { s with grm := { s.grm with
      spared := sput (fun _ => 0) s.grm.spared inst (sget (fun _ => 0) s.grm.spared inst + 1)
      copies := s.grm.copies ++ [⟨row, buffer, inst⟩] } }
  else
    let s := { s with grm := { s.grm with retired := s.grm.retired ++ [(row, buffer)] } }
    (if buffer then s.watchFree else s).occur GRM_RETIRE

/-- A corrected address enters the recurrence table; one that recurs within RECUR passes is a hard error (R530, R532). (DEDUCED, log entry 22.) -/
def State.recurs (s : State) (a : Nat) (buffer : Bool) (inst : Nat) : State :=
  if !buffer && s.grm.retired.contains (grmRow a buffer, buffer) then s
  else
    let no := if buffer then s.grm.noB else s.grm.noL
    let hard := s.grm.recur.any fun r => r.addr = a && r.buffer = buffer && decide (no ≤ r.pass + s.rd GRM_CTL_RECUR)
    let rest := s.grm.recur.filter fun r => !(decide (r.addr = a) && decide (r.buffer = buffer))
    let t := rest ++ [⟨a, buffer, no⟩]
    let s := { s with grm := { s.grm with recur := t.drop (t.length - 256) } }
    if hard then (s.count GRM_HARD inst).repairRow (grmRow a buffer) buffer inst else s

/-! ### What a visit does to a lane (R527, R528) -/

/-- The owner structure of a lane-memory address: OWNER, INDEX and PAGE. -/
def State.laneOwnerOf (s : State) (a : Nat) : Nat × Nat × Nat :=
  match memInstance a with
  | none => (0, 0, 0)
  | some i =>
    if i < 77 then (if s.inImage a then 3 else 4, i, 0)
    else if i < 85 then (5, i - 77, 0)
    else if i = 85 then (if stageLo ≤ a ∧ a < stageHi then 6 else 7, 0, 0)
    else if i = 86 then (8, a - 0o430000000, 0)
    else if i = 87 then (9, a - 0o440000000, 0)
    else (10, a - 0o410000000, 0)

/-- The owner structure of a buffer lane. -/
def State.bufOwnerOf (s : State) (a : Nat) : Nat × Nat × Nat :=
  match s.laneOwner a with
  | some (d, p, _) => (2, handleOf d p.gen, p.page - 1)
  | none => (1, a / 16, 0)

/-- An uncorrectable lane has been found: counted, and logged when a walker found it (R527, R528). -/
def State.grmUncorr (s : State) (a : Nat) (buffer demand : Bool) (inst : Nat) : State :=
  let s := s.addCnt GRM_UNCORR inst 1
  if demand then s
  else
    let (o, x, g) := if buffer then s.bufOwnerOf a else s.laneOwnerOf a
    let w0 := b2n buffer * 2 ^ 34 + a
    let w1 := o * 2 ^ 31 + x
    let s := ((s.setReg 0o450010004 (word w0)).setReg 0o450010005 (word w1)).setReg 0o450010006 (word g)
    if s.grm.owners.contains (o, x, buffer) then s
    else
      ({ s with grm := { s.grm with owners := s.grm.owners ++ [(o, x, buffer)] } }).occurRec GRM_UNCORR inst
        [(w0 : Int), (w1 : Int), (g : Int)]

/-- The counts of a lane by its class; `exact` tells a marker from one bit off it. -/
def State.grmCount (s : State) (c : LaneClass) (exact : Bool) (a : Nat) (buffer demand : Bool) (inst : Nat) : State :=
  match c with
  | .clean => s
  | .corrected => s.count GRM_CORR inst
  | .poisoned => if exact then s.count GRM_POISON_SEEN inst else s.count GRM_MARK_FIX inst
  | .uncorrectable => s.grmUncorr a buffer demand inst

/-- What a visit writes back into lane `l` of a stored word. -/
def Stored.groom (x : Stored) (l : Nat) : Stored :=
  match x.lane l with
  | (.clean, _) => x
  | (.corrected, d) => x.putClean l d
  | _ => x.putMarker l

/-- What a visit writes back into a buffer lane. -/
def StoredB.groom (x : StoredB) : StoredB :=
  match x.lane with
  | (.clean, _) => x
  | (.corrected, d) => cleanB d
  | _ => markerB

/-- A visit of a lane-memory word (R526, R527). (DEDUCED, log entry 22.) -/
def State.visitWord (s : State) (a : Nat) (demand : Bool) : State :=
  let inst := (memInstance a).getD 0
  let x := s.wordStored a
  let y := (List.range 4).foldl (fun y l => y.groom l) x
  let s := (List.range 4).foldl
    (fun s l => s.grmCount (x.lane l).1 (decide (laneData x.data l = 0) && decide (laneChk x.chk l = 31)) a false demand inst) s
  let s := if x = y then s else s.putStored a y
  if (List.range 4).any fun l => (x.lane l).1 = .corrected then s.recurs a false inst else s

/-- A visit of a buffer cell (R526, R527). (DEDUCED, log entry 23.) -/
def State.visitCell (s : State) (c : Nat) (demand : Bool) : State :=
  (List.range 16).foldl
    (fun s i =>
      let a := 16 * c + i
      let x := s.bufAt a
      let s := s.grmCount x.lane.1 (decide (x = markerB)) a true demand (bufInstance a)
      let s := if x = x.groom then s else s.putLane a x.groom
      if x.lane.1 = .corrected then s.recurs a true (bufInstance a) else s) s

/-- Whether a visit of an address is held back now: its memory is being zeroed, or its row is being moved. -/
def State.visitHeld (s : State) (a : Nat) (buffer : Bool) : Bool :=
  if buffer then s.grm.copies.any fun c => c.buffer && c.row = grmRow a true
  else s.zeroing.contains ((memInstance a).getD 0) || s.rowMoves a

/-- Whether the domain of a lane-memory address answers. -/
def State.wordAnswers (s : State) (a : Nat) : Bool := s.answers (instDomain ((memInstance a).getD 0))

/-- GRM_LANE_VISIT (R525, R527). -/
def execGrmLaneVisit (s : State) : Host.Outcome State Fault Refusal :=
  .next (
    match s.grm.passL with
    | none => s
    | some t =>
      let j := s.grm.visL
      let a := walkAddr j
      let due := t + j * (passTicks s.grm.perL / laneWords)
      if !s.up || !s.rdb GRM_CTL_EN || decide (laneWords ≤ j) || decide (s.now < due) || s.visitHeld a false then s
      else
        let s := if s.wordAnswers a then s.visitWord a false else s
        let s := { s with grm := { s.grm with visL := j + 1 } }
        if j + 1 = laneWords then (s.inc GRM_STAT_LPASS).wr GRM_POS_L (walkAddr 0) else s.wr GRM_POS_L (walkAddr (j + 1)))

/-- GRM_BUFFER_VISIT (R525, R527). -/
def execGrmBufferVisit (s : State) : Host.Outcome State Fault Refusal :=
  .next (
    match s.grm.passB with
    | none => s
    | some t =>
      let j := s.grm.visB
      let due := t + j * (passTicks s.grm.perB / bufCells)
      if !s.up || !s.rdb GRM_CTL_EN || decide (bufCells ≤ j) || decide (s.now < due) || s.visitHeld (16 * j) true then s
      else
        let s := s.visitCell j false
        let s := { s with grm := { s.grm with visB := j + 1 } }
        if j + 1 = bufCells then (s.inc GRM_STAT_BPASS).wr GRM_POS_B 0 else s.wr GRM_POS_B (j + 1))

/-- GRM_DEMAND_VISIT (R529). -/
def execGrmDemandVisit (s : State) : Host.Outcome State Fault Refusal :=
  .next (
    match s.grm.demand with
    | [] => s
    | (a, buffer) :: t =>
      if !s.up || s.visitHeld a buffer then s
      else
        let s := { s with grm := { s.grm with demand := t } }
        if buffer then s.visitCell (a / 16) true
        else if s.wordAnswers a then s.visitWord a true
        else s)

/-- GRM_SPARE_COPY_DONE (R531). -/
def execGrmSpareCopyDone (s : State) : Host.Outcome State Fault Refusal :=
  .next (
    match s.grm.copies with
    | [] => s
    | c :: t =>
      if !s.up then s
      else
        let s :=
          if c.buffer then (List.range 256).foldl (fun s i => s.putLane (c.row + i) (s.bufAt (c.row + i)).groom) s
          else
            (List.range 64).foldl
              (fun s i => s.putStored (c.row + i) ((List.range 4).foldl (fun y l => y.groom l) (s.wordStored (c.row + i)))) s
        ({ s with grm := { s.grm with copies := t } }).occur GRM_SPARED 0 [(c.row : Int), (s.sparesLeft c.inst : Int)])

/-! ### The check-bit test path (R534) -/

/-- How the address of a raw operation fails: the cause of `MTX_DECERR`. (DEDUCED, log entry 19.) -/
def State.rawFault (s : State) (write : Bool) (a : Nat) : Option Nat :=
  match if a < 2 ^ 30 then memInstance a else none with
  | none => some 0
  | some i =>
    if !s.answers (instDomain i) then some 2
    else if write && s.inImage a then some 3
    else none

/-- The raw write of `GRM_TADDR`, `GRM_TDATA` and `GRM_TCHK`. -/
def State.rawWrite (s : State) : State :=
  let a := s.rd GRM_TADDR_ADDR
  let d := s.rd GRM_TDATA
  if s.rd GRM_TADDR_SPACE = 1 then
    s.putLane a ⟨BitVec.ofNat 32 d, BitVec.ofNat 7 (s.rd GRM_TCHK_CHK_B)⟩
  else
    match s.rawFault true a with
    | some cause => s.decErr extMaster 1 (a % 2 ^ 30) cause
    | none =>
      let k := s.rd GRM_TCHK_CHK_L
      s.putStored a ((lanesOf (s.rd GRM_TCHK_LE)).foldl
        (fun x l => x.setLane l (bitsOf d (9 * l + 8) (9 * l)) (bitsOf k (5 * l + 4) (5 * l))) (s.wordStored a))

/-- The raw read into `GRM_TDATA` and `GRM_TCHK`. -/
def State.rawRead (s : State) : State :=
  let a := s.rd GRM_TADDR_ADDR
  if s.rd GRM_TADDR_SPACE = 1 then
    (s.wr GRM_TDATA (s.bufAt a).data.toNat).wr GRM_TCHK_CHK_B (s.bufAt a).chk.toNat
  else
    match s.rawFault false a with
    | some cause => s.decErr extMaster 1 (a % 2 ^ 30) cause
    | none => (s.wr GRM_TDATA (s.wordStored a).data.toNat).wr GRM_TCHK_CHK_L (s.wordStored a).chk.toNat

/-- A write of `GRM_TCMD.OP`: it acts in MAINTENANCE and is refused elsewhere (R534). -/
def State.wroteTcmd (s : State) (op : Nat) : State :=
  if op = 0 then s
  else if s.mode ≠ modeMaintenance then s.count REG_RWL_REFUSE
  else if op = 1 then s.rawWrite
  else s.rawRead

end Sys2Proof.Machine
end

