-- ==== Sys2Proof/Machine/PowerOps.lean ====
section
/-! DEFINITION. The power manager's operations: the budget, turning domains on and off, shedding, mode changes and the
power log (R571–R583, R586). -/

namespace Sys2Proof.Machine

open Ev Reg

/-- `PWR_DOM.STATE` of a domain. -/
def State.dom (s : State) (d : Nat) : Nat := s.rd PWR_DOM_STATE 0 d

/-! ### Figures (R574, R576, R586) -/

/-- V_low in 0.1 V: the lowest V_rms of the last second; 0 before the first cycle. -/
def State.vLow (s : State) : Nat :=
  match s.pwr.cycles with
  | [] => 0
  | c :: t => t.foldl (fun m e => min m e.2) c.2

/-- The power budget, recomputed into `PWR_LOAD.BUDGET` (R576). (DEDUCED, log entry 68.) -/
def State.rebudget (s : State) : State := s.wr PWR_LOAD_BUDGET (min (min 1260 (s.rd PWR_CTL_CAP)) (7 * s.vLow / 10))

/-- B − MARGIN − P_dc in W. -/
def State.headroom (s : State) : Int := s.rd PWR_LOAD_BUDGET - s.rd PWR_CTL_MARGIN - (s.rd PWR_LOAD_P_DC : Int)

/-- EST of a domain, in 0.5 W, is within `x` W. -/
def State.estWithin (s : State) (d : Nat) (x : Int) : Bool := decide ((s.rd PWR_DOM_EST 0 d : Int) ≤ 2 * x)

/-- A record of the power log (R586). (DEDUCED, log entry 105.) -/
def State.logPwr (s : State) (c : Code) (arg : Int) : State :=
  let r := s.rd PWR_LOG_STAT_NEXT
  let k := s.calendar
  let s := (((s.wr PWR_LOG_A (k / 32768 / 4096) 0 r).wr PWR_LOG_B_SEC (k / 32768 % 4096) 0 r).wr PWR_LOG_B_FRAC (k % 32768) 0 r)
  let s := (s.wr PWR_LOG_B_EV (c.num - 0x120) 0 r).wr PWR_LOG_B_MODE s.mode 0 r
  let s := (s.wr PWR_LOG_C_VRMS (s.rd PWR_MAINS_VRMS) 0 r).wr PWR_LOG_C_P_DC (s.rd PWR_LOAD_P_DC) 0 r
  ((s.wri PWR_LOG_ARG arg 0 r).wr PWR_LOG_STAT_NEXT ((r + 1) % 128)).incSat PWR_LOG_STAT_TOTAL

/-! ### What a domain's power does to its blocks (R83, R119, R573, R589) -/

/-- The core of a domain. -/
def domainCore (d : Nat) : Option Nat := if d < 76 then some d else if d = 78 then some 76 else none

/-- The converters of a domain (R89). -/
def domainMons (d : Nat) : List Nat :=
  if 64 ≤ d ∧ d < 72 then [2 * (d - 64), 2 * (d - 64) + 1] else if d = 78 then [16, 17] else []

/-- What a line keeps without supply: its calibration sets (R235, R236, R247). -/
def LineSt.stored (x : LineSt) : LineSt := { txSets := x.txSets, txTapSets := x.txTapSets, rxSets := x.rxSets }

/-- What a line keeps while its domain is off: its calibration sets, and the calibration in force that `LINE_TX_CALV` and
`LINE_RX_CALV` show (R15, R237, R265). -/
def LineSt.held (x : LineSt) : LineSt :=
  { x.stored with txCal := x.txCal, rxCal := x.rxCal, txTaps := x.txTaps, txOwn := x.txOwn }

/-- The commands that act on a line complete `E_ABORT` (R589). -/
def State.lineAborts (s : State) (l : Nat) : State :=
  let x := s.line l
  let tags := (x.enable.map (·.1)).toList ++ x.enTag.toList ++ x.powTag.toList ++ x.disTag.toList ++ (x.load.map (·.tag)).toList
  tags.foldl (fun s k => s.complete k eAbort) s

/-- The entries `EDW_TRK` of a tree are erased, TAGFAIL among them (R480). -/
def State.eraseTree (s : State) (t : Nat) : State :=
  { s with
    regs := sdrop (fun a => a % 4 = 3 && (a - 0o421000000) / 1024 = t && 0o421000000 ≤ a && a < 0o421200000) s.regs
    edw := { s.edw with trk := sdrop (fun i => i / 256 = t) s.edw.trk } }

/-- The bus matrix of a domain (R99). -/
def domainMatrix (d : Nat) : Option Nat := if 64 ≤ d ∧ d < 72 then some (d - 63) else if d = 78 then some 0 else none

/-- The hardware of a domain stops: its core, its matrix, its converters, its channels, line or ports, and what acts on
them; `bursts` as in `State.cutCore`. (DEDUCED, log entry 21.) -/
def State.stopDomain (s : State) (d : Nat) (bursts : Option (List Burst)) : State :=
  let s := match domainCore d with
    | some n => s.cutCore n bursts
    | none => s
  let s := match domainMatrix d with
    | some x => s.resetMatrix x
    | none => s
  let s := (domainMons d).foldl State.monOff s
  if d < 64 then (s.treeOff d).eraseTree d
  else if 72 ≤ d ∧ d < 76 then
    let s := (s.lineAborts (d - 72)).rxGoOff (d - 72)
    (s.setLine (d - 72) (s.line (d - 72)).held).seeEgress (512 + (d - 72))
  else if d = 76 then
    let s := { s with traf := { s.traf with sent := [], marks := [] } }.notSent s.traf.marks.length
    (List.range 16).foldl (fun s p => s.seeEgress (516 + p)) s
  else s

/-- The hardware of a domain that has been stopped starts: C fields at their reset values (R573); a line has no signal yet,
which is LOS (R290). -/
def State.startDomain (s : State) (d : Nat) : State :=
  let s := (s.resetRegs [.c] fun a => regDomain a = d).resetLatches [.c] fun a => regDomain a = d
  let s := (domainMons d).foldl State.monOn s
  if d < 64 then (s.treeOn d).eraseTree d
  else if 72 ≤ d ∧ d < 76 then
    let s := s.declareDefect (d - 72) 0
    if s.rdb LINE_RX_CTL_EN (d - 72) then s.rxStart (d - 72) else s
  else s

/-- The bad slices of a line are tested at power-up (R246); `fails` names the ADCs whose bad slice fails. -/
def State.testSlices (s : State) (l : Nat) (fails : BitVec 4) : State :=
  (List.range 4).foldl
    (fun (s : State) a =>
      let b := s.rd LINE_TEL_ADC_BAD l a
      if b = 127 then s
      else if fails.toNat.testBit a then
        let s := s.wr LINE_TEL_ADC_SPARE 127 l a
        if b < 64 then s.setLine l { s.line l with slices := sput (fun _ => none) (s.line l).slices (64 * a + b) (some 64) } else s
      else s.wr LINE_TEL_ADC_BAD 127 l a) s

/-- The lane memories of a domain (R83, R540). -/
def domainMems (d : Nat) : List Nat := (List.range 86).filter fun i => instDomain i = d


/-- A domain is OFF: its hardware has stopped and its memories are lost (R589); `bursts` as in `State.cutCore`. (DEDUCED, log entry 71.) -/
def State.powerOff (s : State) (d : Nat) (bursts : Option (List Burst) := none) : State :=
  let s := (s.stopDomain d bursts).wr PWR_DOM_STATE domOff 0 d
  { s.zeroMem (fun i => instDomain i = d) with
    zeroing := s.zeroing.filter fun i => instDomain i ≠ d
    pwr := { s.pwr with
      going := s.pwr.going.filter (· ≠ d), fallList := s.pwr.fallList.filter (· ≠ d)
      resetting := s.pwr.resetting.filter (·.1 ≠ d) } }

/-- The slots and lines that were lit when their domain was shed are lit again by the S-core image (R580). (DEDUCED, log entry 67.) -/
def State.relight (s : State) (d : Nat) : State :=
  let mine := s.pwr.lit.filter fun e => if e < 512 then e / 8 = d else 72 + (e - 512) = d
  let s := { s with pwr := { s.pwr with lit := s.pwr.lit.filter fun e => !mine.contains e } }
  if s.coreState 76 ≠ cRunning then s
  else
    mine.foldl
      (fun (s : State) e =>
        if e < 512 then
          let at_ := ceilDiv (s.now + 20 * ticksMs) ticksFr * ticksFr
          ((s.wr CH_DS_STAT_STATE dsWarm e).wr CH_DS_STAT_PEND 1 e).setChan e { s.chan e with enAt := some at_ }
        else s.setLine (e - 512) { s.line (e - 512) with enable := some (512, 0) }) s

/-- A domain other than 78 has reached ON (R571, R573, R83, R119, R446). -/
def State.powerUp (s : State) (d : Nat) (fails : BitVec 4) (cast : Bool) : State :=
  let s := (s.wr PWR_DOM_STATE domOnSt 0 d).startDomain d
  let s := { s with zeroing := s.zeroing ++ domainMems d }
  let s := if 72 ≤ d ∧ d < 76 then s.testSlices (d - 72) fails else s
  let s := if d = 77 then { s with edw := { s.edw with tested := false } } else s
  let s := s.instanceCast (cast && (domainCore d).isSome)
  let s := match domainCore d with
    | some n => s.imageLoads n
    | none => s
  s.relight d

/-! ### Shedding (R577, R578, R581) -/

/-- The domains with SHED = 1 are counted into NSHED. (DEDUCED, log entry 69.) -/
def State.setShed (s : State) (d : Nat) (on : Bool) : State :=
  let s := s.wr PWR_DOM_SHED (b2n on) 0 d
  s.wr PWR_STAT_NSHED ((List.range 77).filter fun k => s.rdb PWR_DOM_SHED 0 k).length

/-- Settings that leaving MAINTENANCE clears (R234, R264, R294, R582). -/
def State.clearTests (s : State) : State :=
  (List.range 4).foldl
    (fun (s : State) l =>
      let old := s.rd LINE_RX_TEST_MODE l
      let s := (s.wr LINE_TX_TEST_MODE 0 l).wr LINE_TX_TEST_SC 0 l
      let s := (s.wr LINE_FR_CTL_FORCE_AIS 0 l).wr LINE_FR_CTL_FORCE_RDI 0 l
      (s.wr LINE_RX_TEST_MODE 0 l).wroteRxTest l old) s

/-- The module enters a mode (R582, R593). (DEDUCED, log entry 70.) -/
def State.setMode (s : State) (m : Nat) : State :=
  let old := s.mode
  if old = m then s
  else
    let s := if old = modeMaintenance then s.clearTests else s
    let s := (s.wr PWR_STAT_MODE m).occur Ev.PWR_MODE 0 [(old : Int), (m : Int)]
    (List.range 4).foldl (fun s l => s.seeEgress (512 + l)) s

/-- The shedding list (R578). -/
def State.shedList (s : State) : List Nat :=
  let prio := fun d => s.rd PWR_DOM_PRIO 0 d
  let l := (List.range 77).filter fun d =>
    s.domOn d && decide (prio d ≠ 0) && !s.pwr.going.contains d && !s.pwr.fallList.contains d &&
      (d < 64 || 72 ≤ d || (List.range 8).all fun w => decide (s.dom (8 * (d - 64) + w) = domOff))
  sortBy (fun a b => decide (prio b < prio a) || (decide (prio a = prio b) && decide (b ≤ a))) l

/-- The fewest domains from the head of a list whose EST add up to `e` half-watts. -/
def State.headFor (s : State) (e : Int) : List Nat → List Nat
  | [] => []
  | d :: t => if e ≤ 0 then [] else d :: s.headFor (e - s.rd PWR_DOM_EST 0 d) t

/-- The lasers of a domain that is to go off ramp down (R571); a domain that still rises falls. -/
def State.rampDown (s : State) (d : Nat) : State :=
  let s := { s with pwr := { s.pwr with rise := s.pwr.rise.filter (· ≠ d) } }
  if s.dom d = domRising then s.wr PWR_DOM_STATE domFalling 0 d
  else if s.dom d ≠ domOnSt then s
  else if d < 64 then s.treeShed d
  else if 72 ≤ d ∧ d < 76 then
    let l := d - 72
    let st := s.txState l
    if st = txRampUp ∨ st = txLit then s.lineDisable l
    else if st = txCal ∨ st = txDark then (s.enableFails l).lineDark l
    else s
  else s

/-- A domain is to go off: its lasers ramp down, then it falls (R571). -/
def State.turnOff (s : State) (d : Nat) : State :=
  let s := s.rampDown d
  if s.dom d ≠ domOnSt then s else { s with pwr := { s.pwr with going := s.pwr.going ++ [d] } }.beginFalls

/-- The channels and lines of a domain that are lit. -/
def State.litOf (s : State) (d : Nat) : List Nat :=
  if d < 64 then ((List.range 8).map (8 * d + ·)).filter fun c => s.dsState c = dsUp ∨ s.dsState c = dsLit
  else if 72 ≤ d ∧ d < 76 then if s.txState (d - 72) = txRampUp ∨ s.txState (d - 72) = txLit then [512 + (d - 72)] else []
  else []

/-- SHED of a domain is set and the domain joins the restore order; `ev` is the event raised for it. -/
def State.markShed (s : State) (d : Nat) (ev : Option (Code × List Int)) : State :=
  let first := s.pwr.shedOrder.isEmpty
  let s := (s.setShed d true)
  let s := { s with pwr := { s.pwr with
    shedOrder := s.pwr.shedOrder.filter (· ≠ d) ++ [d], headSince := none, lastRestore := none
    lit := s.pwr.lit ++ s.litOf d } }
  let s := match ev with
    | some (c, args) => s.occur c d args
    | none => s
  let s := if first then s.logPwr PWR_SHED (s.rd PWR_LOAD_P_DC) else s
  if s.mode = modeService then s.setMode modeConstrained else s

/-- The arguments of `PWR_SHED` and `PWR_RESTORE`. -/
def State.loadArgs (s : State) : List Int := [(s.rd PWR_LOAD_P_DC : Int), (s.rd PWR_LOAD_BUDGET : Int)]

/-- A domain is shed (R577). -/
def State.shed (s : State) (d : Nat) : State := (s.markShed d (some (PWR_SHED, s.loadArgs))).turnOff d

/-- SHED of a domain is cleared: it leaves the restore order, and CONSTRAINED ends with the last (R581, R591). (DEDUCED, log entry 69.) -/
def State.unshed (s : State) (d : Nat) : State :=
  let s := { s.setShed d false with pwr := { s.pwr with
    shedOrder := s.pwr.shedOrder.filter (· ≠ d), tempShedDoms := s.pwr.tempShedDoms.filter (· ≠ d) } }
  if s.mode = modeConstrained ∧ s.pwr.shedOrder.isEmpty then s.setMode modeService else s

/-- The next domain to be restored, when the headroom condition holds for it (R572, R580). -/
def State.mayRestore (s : State) : Option Nat :=
  match s.pwr.shedOrder.getLast? with
  | none => none
  | some d =>
    if (d < 64 ∧ s.dom (64 + d / 8) ≠ domOnSt ∧ s.dom (64 + d / 8) ≠ domRising) ∨
        !s.estWithin d (s.headroom - s.rd PWR_CTL_HYST) then none
    else some d

/-- The time for which the headroom condition has held (R580). -/
def State.noteHead (s : State) : State :=
  match s.mayRestore with
  | none => { s with pwr := { s.pwr with headSince := none, lastRestore := none } }
  | some _ => { s with pwr := { s.pwr with headSince := some (s.pwr.headSince.getD s.now) } }

/-! ### Rising, and the commands that wait (R571, R572, R582, R583, R591) -/

/-- Whether a mode change runs, which may power domains up (R582). -/
def State.modeRises (s : State) : Bool := s.pwr.modeCmd.isSome

/-- Whether a waiting domain may rise now: a tree needs its cluster (R572). -/
def State.ready (s : State) (d : Nat) : Bool :=
  s.dom d = domOff && (decide (64 ≤ d) || decide (s.dom (64 + d / 8) = domOnSt))

/-- A domain whose EST does not fit at its turn in a mode change is left OFF with SHED = 1; so are the waiting trees of a
cluster, which go first so that they come back after it (R32, R572, R580, R582). (DEDUCED, log entry 71.) -/
def State.leaveOff (s : State) (d : Nat) : State :=
  let trees := s.pwr.rise.filter fun t => decide (t < 64 ∧ 64 + t / 8 = d)
  let s := { s with pwr := { s.pwr with rise := s.pwr.rise.filter fun t => !trees.contains t } }
  (trees.reverse ++ [d]).foldl (fun (s : State) t => s.markShed t (some (PWR_SHED, s.loadArgs))) s

/-- The next waiting domain rises, or is left OFF. -/
def State.riseFrom (s : State) : Nat → State
  | 0 => s
  | k + 1 =>
    match s.pwr.rise.find? s.ready with
    | none => s
    | some d =>
      let s := { s with pwr := { s.pwr with rise := s.pwr.rise.filter (· ≠ d) } }
      if s.modeRises && decide (d < 77) && !s.estWithin d s.headroom then
        (s.leaveOff d).riseFrom k
      else
        let s := if s.modeRises && s.rdb PWR_DOM_SHED 0 d then s.unshed d else s
        s.wr PWR_DOM_STATE domRising 0 d

/-- At most one domain rises at a time (R571); none while erasures are still to be made or mains is failing. -/
def State.startRise (s : State) : State :=
  if (List.range 80).any (fun d => decide (s.dom d = domRising)) || s.edw.zeroing.isSome || s.pwr.dying.isSome then s
  else
    let s := s.riseFrom (s.pwr.rise.length + 1)
    if s.modeRises && !(List.range 80).any (fun d => decide (s.dom d = domRising)) then
      -- a tree whose cluster is left off by command stays OFF
      { s with pwr := { s.pwr with rise := s.pwr.rise.filter fun d => 64 ≤ d || s.pwr.rise.contains (64 + d / 8) } }
    else s

/-- A domain is requested to rise; waiting domains rise in increasing order. -/
def State.requestRise (s : State) (d : Nat) : State :=
  if s.dom d = domOnSt ∨ s.dom d = domRising ∨ s.pwr.rise.contains d then s
  else
    let l := s.pwr.rise
    { s with pwr := { s.pwr with rise := (l.filter (· < d)) ++ [d] ++ l.filter (d < ·) } }.startRise

/-- The clusters that are OFF: HOUSEKEEPING has all of them powered (R32). -/
def State.clustersOff (s : State) : List Nat := ((List.range 8).map (64 + ·)).filter fun d => s.dom d = domOff

/-- The domains that a change to HOUSEKEEPING turns off, in order (R582). -/
def housekeepingOff : List Nat := [76, 75, 74, 73, 72] ++ (List.range 64).reverse

/-- A mode command or a `PWR.DOMAIN` whose work is done completes (R583, R591). (DEDUCED, log entry 71.) -/
def State.progress (s : State) : State :=
  let rising := (List.range 80).any fun d => decide (s.dom d = domRising)
  let s := match s.pwr.modeCmd with
    | some (m, tag) =>
      let done := s.pwr.rise.isEmpty && !rising &&
        (m = modeProvision || housekeepingOff.all fun d => decide (s.dom d = domOff))
      if done then ({ s with pwr := { s.pwr with modeCmd := none } }.setMode m).complete tag eOk 0 m else s
    | none => s
  match s.pwr.domCmd with
  | some (op, d, tag) =>
    if s.dom d = (if op = 0 then domOff else domOnSt) then
      { s with pwr := { s.pwr with domCmd := none } }.complete tag eOk
    else s
  | none => s

/-- The end of a wait for shed domains to be OFF (R577 step 3). -/
def State.shedGone (s : State) (d : Nat) : State :=
  if s.pwr.shedWait.contains d then
    let l := s.pwr.shedWait.filter (· ≠ d)
    { s with pwr := { s.pwr with shedWait := l, settle := if l.isEmpty then some s.now else s.pwr.settle } }
  else s

/-- P_dc is compared with the budget; a shortfall sheds (R577 steps 1, 2). -/
def State.compareLoad (s : State) : State :=
  let short := decide (s.headroom < 0)
  let s := s.wr PWR_STAT_SHORT (b2n short)
  if short then
    let l := s.headFor (-2 * s.headroom) s.shedList
    let s := { s with pwr := { s.pwr with shedWait := l, settle := if l.isEmpty then some s.now else none } }
    l.foldl State.shed s
  else { s with pwr := { s.pwr with shedWait := [], settle := none } }

end Sys2Proof.Machine
end

