-- ==== Sys2Proof/Machine/Reset.lean ====
section
/-! DEFINITION. Losing mains, the reset kinds, tamper and zeroisation (R450–R452, R469, R584–R589). -/

namespace Sys2Proof.Machine

open Ev Reg

/-! ### Lines that are lit before a reset or a loss of mains -/

/-- Every lit or ramping line starts its SHUTDOWN ramp (R584, R587). -/
def State.shutLines (s : State) : State :=
  (List.range 4).foldl
    (fun (s : State) l =>
      let st := s.txState l
      if st = txRampUp ∨ st = txLit ∨ st = txRampDown then s.lineShutdown l else s) s

/-- Whether the SHUTDOWN ramp of some line runs. (DEDUCED, log entry 72.) -/
def State.linesRamp (s : State) : Bool := (List.range 4).any fun l => s.domOn (72 + l) && s.ramping (72 + l)

/-! ### Losing mains (R584) -/

/-- Mains fail is declared: the dying sequence begins. (DEDUCED, log entry 68.) -/
def State.mainsFail (s : State) : State :=
  let s := (s.wr PWR_STAT_MAINS_OK 0).wr SVC_STAT_INTAKE 0
  let s := s.abandonStore.dropCommands
  let s := if s.edw.zeroing.isSome then s.wr EDW_STAT_ZPEND 1 else s
  let v := s.rd PWR_MAINS_VRMS
  let s := (if s.up then s.occur PWR_MAINS_FAIL 0 [(v : Int)] else s).logPwr PWR_MAINS_FAIL v
  let s := { s with pwr := { s.pwr with dying := some s.now, modeCmd := none, domCmd := none, rise := [], pendReset := none } }
  let s := s.shutLines
  (List.range 512).foldl (fun (s : State) c => if dsWarm ≤ s.dsState c then s.chDark c else s) s

/-- Every domain but 79 is OFF and the module is in BACKUP; the matrices end with the masters. (DESIGN CHOICE, log entry 50.) -/
def State.enterBackup (s : State) : State :=
  let s := ((List.range 79).reverse).foldl (fun (s : State) d => if s.dom d = domOff then s else s.powerOff d (some [])) s
  let s := s.wr PWR_STAT_MODE modeBackup
  { s with
    svc := {}
    pwr := { cycles := s.pwr.cycles, lowArmed := s.pwr.lowArmed, lostBackup := s.pwr.lostBackup } }

/-! ### The key store (R450, R452) -/

/-- The whole key store is overwritten: keys, image key, transport key, page counters, locks and epochs. -/
def State.wipeKeys (s : State) : State :=
  let s := { s with edw := { s.edw with keys := [], trk := [], tkey := none, loads := [], tagSf := [], seedAt := s.now } }
  let page := fun (a : Nat) => decide (0o420000000 ≤ a) && decide (a < 0o421000000) && decide (a % 0o10000 < 3)
  let s := { s with regs := s.regs.filter fun e => !page e.1 }
  ((s.wr EDW_STAT_TKEY 0).wr EDW_STAT_IMGKEY 0).wr EDW_STAT_BOOTSTRAP 1

/-- A tamper log record (R450, R451): the first trip is record 0, the others a ring of records 1–63. -/
def State.logTrip (s : State) (sensor : Nat) : State :=
  let total := s.rd EDW_TLOG_STAT_TOTAL
  let next := s.rd EDW_TLOG_STAT_NEXT
  let r := if total = 0 then 0 else next
  let k := s.calendar
  let s := ((s.wr EDW_TLOG_A (k / 32768 / 4096) 0 r).wr EDW_TLOG_B_SEC (k / 32768 % 4096) 0 r).wr EDW_TLOG_B_FRAC (k % 32768) 0 r
  let s := (s.wr EDW_TLOG_B_SENSOR sensor 0 r).wr EDW_TLOG_B_MODE s.mode 0 r
  let s := (s.wr EDW_TLOG_B_CAL_INV (s.rd RTC_STAT_INVALID) 0 r).wr EDW_TLOG_B_VALID 1 0 r
  let s := if total = 0 then s else s.wr EDW_TLOG_STAT_NEXT (if next = 63 then 1 else next + 1)
  s.incSat EDW_TLOG_STAT_TOTAL

/-- The non-volatile erasures of a zeroise have been made (R452). (DEDUCED, log entry 73.) -/
def State.erased (s : State) (ident : Bool) : State :=
  let s := { s with img := { s.img with opr := [], minver := [] } }
  let s := if ident then s.wr EDW_STAT_IDENT 0 else s
  let s := (s.inc EDW_ZCOUNT).wr EDW_STAT_ZPEND 0
  { s with edw := { s.edw with zeroing := none, zTrip := false, zRaise := true } }

/-- `EDW_ZEROISED` of a zeroise whose erasures have been made (R452). (DEDUCED, log entries 30 and 73.) -/
def State.raiseZeroised (s : State) : State :=
  if s.edw.zRaise then { s with edw := { s.edw with zRaise := false } }.occur EDW_ZEROISED else s

/-! ### Warm resets (R587, R589) -/

/-- The marked messages that a loss of the queues discards: those taken for sending and those still queued for a client
port (R63). -/
def State.markedAll (s : State) : Nat :=
  s.traf.marks.length +
    (s.traf.queues.map fun q => (q.2.filter fun e => e.twoStep && decide (516 ≤ s.egressOf q.1)).length).sum

/-- What a reset of kinds 3–6 leaves: C fields at their reset values, domains 0–63 and 72–76 OFF but for those `keep`
names, the other domains ON with their memories, cores EMPTY, HOUSEKEEPING.  The matrices are reset with the masters, so no burst is completed for one.  The power log records it as
it comes (R586). (DEDUCED, log entries 26 and 105; DESIGN CHOICE, log entry 50.) -/
def State.applyReset (s : State) (kind : ResetKind) (keep : List Nat) : State :=
  let s := s.logPwr PWR_RESET kind.code
  let old := s.mode
  let off := (housekeepingOff.filter fun d => !keep.contains d)
  let stay := (([78, 77] ++ (List.range 8).map (64 + ·)).filter fun d => s.dom d = domOnSt)
  let s := (s.notSent s.markedAll).resetLatches [.c] fun a => !keep.contains (regDomain a)
  let s := { s with
    svc := { kept := s.svc.kept }, traf := { since := s.now }, mtx := [], mtxLast := [], calCmds := []
    img := { opr := s.img.opr, minver := s.img.minver }
    time := { s.time with tsq := [] }
    evt := { s.evt with tlm := [] }
    edw := { s.edw with loads := [] }
    grm := { s.grm with demand := [], passL := none, passB := none, visL := 0, visB := 0, enAt := s.now } }
  let s := off.foldl (fun (s : State) d => if s.dom d = domOff then s else s.powerOff d (some [])) s
  let s := stay.foldl (fun s d => s.stopDomain d (some [])) s
  let s := s.resetRegs [.c] fun a => !keep.contains (regDomain a)
  let s := stay.foldl (fun (s : State) d => (s.wr PWR_DOM_STATE domOnSt 0 d).startDomain d) s
  let s := ((([79] ++ keep).foldl (fun (s : State) d => s.wr PWR_DOM_STATE domOnSt 0 d) s).wr PWR_STAT_MAINS_OK 1).rebudget
  let s := if kind = .hostPin then
      { s.wr EDW_STAT_APPROVED 0 with edw := { s.edw with tested := false, castFail := false } }
    else s
  let s := (s.wr PWR_STAT_MODE old).setMode modeHousekeeping
  let s := { s with pwr := {
    cycles := s.pwr.cycles, lowArmed := s.pwr.lowArmed, lostBackup := s.pwr.lostBackup, hrst := s.pwr.hrst
    bootReset := some kind, rise := s.clustersOff } }
  (s.wr PWR_STAT_LAST_RST kind.code).startRise

/-- The S-core boots once the reset is over (R587). -/
def State.bootNow (s : State) : State :=
  if s.pwr.hrst || s.pwr.pendReset.isSome then s else { s with svc := { s.svc with booting := true } }

/-- A reset of kinds 3–6 is taken: lit lines run their SHUTDOWN ramps first; the host reset pin resets everything else
at once (R587).  In the dying sequence none is taken: absence of mains wins over every other cause (R33). (DEDUCED, log entry 72.) -/
def State.warmReset (s : State) (kind : ResetKind) : State :=
  if s.pwr.dying.isSome then s
  else
  let s := s.shutLines
  let ramp := (List.range 4).map (72 + ·) |>.filter fun d => s.domOn d && s.ramping d
  if ramp.isEmpty then (s.applyReset kind []).bootNow
  else
    let s := if kind = .hostPin then s.applyReset kind ramp else s
    { s with pwr := { s.pwr with pendReset := some kind, going := s.pwr.going.filter (fun d => !ramp.contains d) ++ ramp } }

/-- The ramps that a pending reset waits for have ended. -/
def State.resetGoesOn (s : State) : State :=
  match s.pwr.pendReset with
  | none => s
  | some kind =>
    if s.linesRamp || (List.range 4).any fun l => decide (s.dom (72 + l) = domFalling) then s
    else
      let s := { s with pwr := { s.pwr with pendReset := none } }
      (if kind = .hostPin then s else s.applyReset kind []).bootNow

/-! ### Power-on (R37, R587, R589, R590) -/

/-- Register words whose B fields are kept in non-volatile store, backup loss included (R451, R586). (DEDUCED, log entry 74.) -/
def nonVolatile (a : Nat) : Bool :=
  (0o404001400 ≤ a && a < 0o404002400) || a = 0o404001007 || (0o421200000 ≤ a && a < 0o421200300)

/-- The power-on reset, with mains qualified at V_rms `v` in 0.1 V and frequency `f` in 0.02 Hz. (DEDUCED, log entry 74.) -/
def State.powerOnReset (s : State) (v f : Nat) : State :=
  let lost := s.pwr.lostBackup
  let s := s.resetLatches (if lost then [.c, .w, .b] else [.c, .w]) fun _ => true
  let s : State := {
    pending := s.pending, free := s.free, regs := s.regs, latch := s.latch
    calAcc := if lost then 0 else s.calAcc, calCnt := if lost then 0 else s.calCnt
    img := { opr := s.img.opr, minver := s.img.minver }
    grm := { retired := s.grm.retired, spared := s.grm.spared }
    edw := { keys := s.edw.keys, tkey := s.edw.tkey, zeroing := s.edw.zeroing, zTrip := s.edw.zTrip
             trips := s.edw.trips, lost := lost }
    lines := s.lines.map fun (e : Nat × LineSt) => (e.1, e.2.stored)
    mons := s.mons.map fun (e : Nat × MonSt) => (e.1, { nv := e.2.nv })
    pwr := { cycles := [(0, v)], bootReset := some (if lost then .backupLoss else .powerOn) } }
  let s := s.resetRegs [.c, .w] fun _ => true
  let s := if lost then (s.resetRegs [.b] fun a => !nonVolatile a).wipeKeys else s
  let s := (s.wr PWR_DOM_STATE domOnSt 0 79).wr PWR_STAT_MAINS_OK 1
  let s := (((s.wr PWR_MAINS_VRMS v).wr PWR_MAINS_VLOW v).wr PWR_MAINS_FREQ f).rebudget
  let s := (s.wr PWR_STAT_LAST_RST (if lost then 2 else 1)).logPwr PWR_MAINS_RETURN v
  { s with pwr := { s.pwr with rise := [78, 77] ++ (List.range 8).map (64 + ·) } }.startRise

/-- Domain 78 has reached ON: LP starts at `0:0:0`, the events of the power-on are raised, the S-core boots. (DEDUCED, log entry 26.) -/
def State.supervisorUp (s : State) (fails : BitVec 4) (cast : Bool) : State :=
  let s := { s with now := 0 }.powerUp 78 fails cast
  let s := { s with grm := { s.grm with enAt := 0 } }
  let s := s.occur PWR_MAINS_RETURN 0 [(s.rd PWR_MAINS_VLOW : Int), (s.rd PWR_STAT_LAST_RST : Int)]
  let s := s.occur Ev.PWR_MODE 0 [(modeBackup : Int), (modeHousekeeping : Int)]
  let s := s.edw.trips.foldl (fun s _ => s.occur EDW_TAMPER) s
  let s := s.raiseZeroised
  let s := if s.edw.lost then s.occur EDW_BACKUP_LOST else s
  { s with edw := { s.edw with trips := [], lost := false } }.bootNow

/-! ### The rows of tamper and zeroise -/

/-- A zeroise begins with mains present (R452, R469): intake closes and every command ends; one that has begun goes on, the
identity key included when either includes it. (DEDUCED, log entry 73.) -/
def State.beginZeroise (s : State) (ident trip : Bool) : State :=
  let s := (s.wr SVC_STAT_INTAKE 0).dropCommands
  match s.edw.zeroing with
  | none => { s with edw := { s.edw with zeroing := some ident, zTrip := trip } }
  | some old => { s with edw := { s.edw with zeroing := some (old || ident), zTrip := s.edw.zTrip || trip } }

/-- TAMPER_TRIP (R450, R469). (DEDUCED, log entry 73.) -/
def execTamperTrip (sensor : Fin 5) (s : State) : Host.Outcome State Fault Refusal :=
  .next (
    if s.pwr.lostBackup then s
    else
      let s := (s.wipeKeys.logTrip (sensor.val + 1)).wr EDW_STAT_TAMPERED 1
      if !s.rdb PWR_STAT_MAINS_OK then
        { s with edw := { s.edw with zeroing := some true, zTrip := true, trips := s.edw.trips ++ [sensor.val + 1] } }.wr EDW_STAT_ZPEND 1
      else match s.edw.zeroing with
        | none => (s.beginZeroise true true).occur EDW_TAMPER
        | some _ => if s.edw.zTrip then s else ((s.beginZeroise true true).wr EDW_STAT_ZPEND 1).occur EDW_TAMPER)

/-- ZEROISE_ERASE_DONE (R450, R452, R469): erasures left pending are made at the next mains return, before the domains
rise; else the zeroise reset follows. (DEDUCED, log entry 73.) -/
def execZeroiseEraseDone (s : State) : Host.Outcome State Fault Refusal :=
  .next (
    match s.edw.zeroing with
    | none => s
    | some ident =>
      if !s.rdb PWR_STAT_MAINS_OK then s
      else if s.up then
        if s.rdb EDW_STAT_ZPEND then s else ((s.erased ident).raiseZeroised).warmReset .zeroise
      else (s.erased ident).startRise)

/-- `KEY.ZEROISE` (R469): once accepted it sends no completion. -/
def State.cmdZeroise (c : Cmd) (s : State) : State :=
  s.unreserved c [1, mask 35 0] fun s =>
    if c.w 1 ≠ 0o172145162157 then s.complete c.tag eReserved 1
    else
      s.wipeKeys.beginZeroise ((c.w 0).bit 0) false

end Sys2Proof.Machine
end

