-- ==== Sys2Proof/Machine/Power.lean ====
section
/-! DEFINITION. The rows of power, modes and resets: metering, shedding and restoring, domains, mains, the host reset
pin, the supervisor watchdog and the `PWR` commands (R571–R591, R604). -/

namespace Sys2Proof.Machine

open Ev Reg

/-! ### Metering (R574–R577) -/

/-- MAINS_CYCLE_END (R574–R576): V_rms in 0.1 V, frequency in 0.02 Hz, P_in in W, and whether the input stage limits the
current.  The power manager lies in the always-on domain and measures from the return of mains on (R34). (DEDUCED, log entry 68.) -/
def execMainsCycleEnd (vrms freq pIn : Nat) (limiting : Bool) (s : State) : Host.Outcome State Fault Refusal :=
  .next (
    if s.pwr.dying.isSome || !s.rdb PWR_STAT_MAINS_OK then s
    else
      let keep := (s.pwr.cycles ++ [(s.now, vrms)]).filter fun c => s.now < c.1 + ticksSec
      let s := { s with pwr := { s.pwr with cycles := keep } }
      let low := s.vLow
      let s := ((s.wr PWR_MAINS_VRMS vrms).wr PWR_MAINS_VLOW low).wr PWR_MAINS_FREQ freq
      let s := ((s.wr PWR_LOAD_P_IN pIn).rebudget).wr PWR_STAT_LOWLINE (b2n (decide (low < 1800)))
      let s := s.wr PWR_STAT_ILIM (b2n (limiting && decide (vrms < 1800)))
      let s :=
        if low < 1800 ∧ s.pwr.lowArmed then { s with pwr := { s.pwr with lowArmed := false } }.occur PWR_LOWLINE 0 [(low : Int)]
        else if 1850 ≤ low then { s with pwr := { s.pwr with lowArmed := true } }
        else s
      if vrms < 750 ∨ 2750 < vrms then s.mainsFail else s.noteHead)

/-- LOAD_MEASURE (R577): P_dc in W. -/
def execLoadMeasure (pdc : Nat) (s : State) : Host.Outcome State Fault Refusal :=
  .next (
    if s.pwr.dying.isSome || !s.rdb PWR_STAT_MAINS_OK then s
    else
      let s := s.wr PWR_LOAD_P_DC pdc
      let s := if s.rdb PWR_STAT_ILIM then s.count PWR_ILIM_MS else s
      let waits := !s.pwr.shedWait.isEmpty || s.pwr.settle.isSome
      (if waits then s else s.compareLoad).noteHead)

/-- SHED_SETTLE_END (R577 steps 3, 4): 50 ms after the domains shed are OFF the load is measured again. -/
def execShedSettleEnd (pdc : Nat) (s : State) : Host.Outcome State Fault Refusal :=
  .next (
    match s.pwr.settle with
    | none => s
    | some t =>
      if !s.up || s.pwr.dying.isSome || decide (s.now < t + 50 * ticksMs) then s
      else ((s.wr PWR_LOAD_P_DC pdc).compareLoad).noteHead)

/-- FAST_SHED (R579): the bulk bus has stayed below 360 V, and one more domain is shed; with `ends`, the bus is at or
above 370 V again. (DEDUCED, log entry 72.) -/
def execFastShed (ends : Bool) (s : State) : Host.Outcome State Fault Refusal :=
  .next (
    if !s.rdb PWR_STAT_MAINS_OK || s.pwr.dying.isSome then s
    else match s.pwr.fast with
      | none =>
        if ends then s
        else match s.shedList with
          | d :: _ => { s.shed d with pwr := { (s.shed d).pwr with fast := some (1, s.now) } }
          | [] => { s with pwr := { s.pwr with fast := some (0, s.now) } }
      | some (k, t) =>
        if ends then { s with pwr := { s.pwr with fast := none } }.occur PWR_FASTSHED 0 [(k : Int)]
        else if s.now < t + ticksMs then s
        else match s.shedList with
          | d :: _ => { s.shed d with pwr := { (s.shed d).pwr with fast := some (k + 1, s.now) } }
          | [] => s)

/-- OVERTEMP_SHED (R579): a die temperature, in 0.5 °C, has stayed above TMAX for 1 s. -/
def execOvertempShed (temp : Int) (s : State) : Host.Outcome State Fault Refusal :=
  .next (
    let waits := match s.pwr.tempShed with
      | some t => decide (s.now < t + 60 * ticksSec)
      | none => false
    if !s.up || s.pwr.dying.isSome || waits || decide (temp ≤ 2 * s.rd PWR_CTL_TMAX) then s
    else match s.shedList with
      | [] => s
      | d :: _ =>
        let s := s.shed d
        { s with pwr := { s.pwr with tempShed := some s.now, tempShedDoms := s.pwr.tempShedDoms ++ [d] } }.occur
          PWR_OVERTEMP d [temp])

/-- DOMAIN_RESTORE (R580): the domain shed last is restored; `cool` says whether every die temperature is at least 5 °C
below TMAX. -/
def execDomainRestore (cool : Bool) (s : State) : Host.Outcome State Fault Refusal :=
  .next (
    match s.mayRestore, s.pwr.headSince with
    | some d, some t =>
      let due := match s.pwr.lastRestore with
        | some r => r + ticksSec
        | none => t + 10 * ticksSec
      if !s.up || s.pwr.dying.isSome || decide (s.now < due) || (s.pwr.tempShedDoms.contains d && !cool) then s
      else
        let s := s.occur PWR_RESTORE d s.loadArgs
        let s := { s with pwr := { s.pwr with lastRestore := some s.now } }
        let s := s.unshed d
        let s := if s.pwr.shedOrder.isEmpty then s.logPwr PWR_RESTORE (s.rd PWR_LOAD_P_DC) else s
        (s.requestRise d).noteHead
    | _, _ => s)

/-! ### Domains (R571, R593) -/

/-- DOMAIN_ON (R571): a RISING domain reaches ON; `fails` names the ADCs of a line whose bad slice fails its test, and `cast`
says that a pipeline or engine instance of the domain fails its CAST (R446).  A domain held in reset by `PWR.DOMAIN` enters the reset when its ramps have ended, and leaves it 10 µs later (R587). -/
def execDomainOn (d : Fin 80) (fails : BitVec 4) (cast : Bool) (s : State) : Host.Outcome State Fault Refusal :=
  .next (
    if s.dom d = domRising then
      let s := if d.val = 78 then s.supervisorUp fails cast else s.powerUp d fails cast
      s.startRise.progress
    else match s.pwr.resetting.find? fun r => r.1 = d.val with
      | none => s
      | some (_, t, tag) =>
        let rest := s.pwr.resetting.filter fun r => r.1 ≠ d.val
        if t = 0 then
          if s.ramping d then s
          else { (s.stopDomain d none).startDomain d with pwr := { s.pwr with resetting := rest ++ [(d.val, s.now + 10 * ticksUs, tag)] } }
        else if s.now < t then s
        else
          let s := { s with pwr := { s.pwr with resetting := rest } }
          let s := match domainCore d with
            | some n => s.imageLoads n
            | none => s
          s.complete tag eOk)

/-- DOMAIN_OFF (R571). -/
def execDomainOff (d : Fin 80) (s : State) : Host.Outcome State Fault Refusal :=
  .next (
    if s.dom d ≠ domFalling then s
    else ((s.powerOff d).shedGone d).resetGoesOn.startRise.progress)

/-- DOMAIN_FAULT (R593): the domain is turned off and SHED set; the trees of a cluster that fails go with it (R572). (DEDUCED, log entry 71.) -/
def execDomainFault (d : Fin 80) (s : State) : Host.Outcome State Fault Refusal :=
  .next (
    if 77 ≤ d.val ∨ s.dom d = domOff ∨ s.dom d = domFalling ∨ !s.up ∨ s.pwr.dying.isSome then s
    else
      let trees := if 64 ≤ d.val ∧ d.val < 72 then ((List.range 8).map (8 * (d.val - 64) + ·)).filter fun t => s.dom t = domOnSt else []
      let s := trees.foldl (fun (s : State) t => (s.markShed t none).turnOff t) s
      (s.markShed d (some (PWR_DOMAIN_FAULT, []))).turnOff d)

/-! ### Mains (R575, R584, R585) -/

/-- MAINS_FAIL (R32, R575, R584): in every mode but BACKUP, from the return of mains on. -/
def execMainsFail (s : State) : Host.Outcome State Fault Refusal :=
  .next (if s.rdb PWR_STAT_MAINS_OK ∧ s.pwr.dying.isNone then s.mainsFail else s)

/-- BACKUP_ENTRY (R584 step 6). -/
def execBackupEntry (s : State) : Host.Outcome State Fault Refusal :=
  .next (
    match s.pwr.dying with
    | none => s
    | some t => if s.linesRamp && decide (s.now < t + 8 * ticksMs) then s else s.enterBackup)

/-- MAINS_RETURN (R575, R582, R590): every cycle of 500 ms had V_rms and frequency within limits; the last of them is
given in 0.1 V and 0.02 Hz. -/
def execMainsReturn (vrms freq : Nat) (s : State) : Host.Outcome State Fault Refusal :=
  .next (
    if s.rdb PWR_STAT_MAINS_OK || s.pwr.dying.isSome || s.up ||
        !(decide (800 ≤ vrms) && decide (vrms ≤ 2700) && decide (2250 ≤ freq) && decide (freq ≤ 3250)) then s
    else s.powerOnReset vrms freq)

/-- CELL_MEASURE (R585): the backup cell in mV. -/
def execCellMeasure (mv : Nat) (s : State) : Host.Outcome State Fault Refusal :=
  .next (
    if s.pwr.dying.isSome || !s.rdb PWR_STAT_MAINS_OK then s
    else
      let low := decide (mv < 2600)
      let s := (s.wr PWR_CELL_V (min mv 4095)).wr PWR_STAT_CELL_LOW (b2n low)
      if low then s.occur PWR_CELL_LOW 0 [(mv : Int)] else s)

/-- BACKUP_LOSS (R585): the key store keeps nothing, and the next power-on is a backup loss too. (DEDUCED, log entry 74.) -/
def execBackupLoss (s : State) : Host.Outcome State Fault Refusal :=
  .next (
    if s.rdb PWR_STAT_MAINS_OK || s.up then s
    else { s.wipeKeys with pwr := { s.pwr with lostBackup := true } })

/-! ### Resets (R587, R588, R604) -/

/-- HOST_RESET_PIN (R604, R587). -/
def execHostResetPin (s : State) : Host.Outcome State Fault Refusal :=
  .next (
    if !s.up || s.pwr.hrst || s.pwr.dying.isSome then s
    else { s with pwr := { s.pwr with hrst := true } }.warmReset .hostPin)

/-- HRST_N_RELEASE (R587). -/
def execHrstNRelease (s : State) : Host.Outcome State Fault Refusal :=
  .next (if !s.up || !s.pwr.hrst then s else { s with pwr := { s.pwr with hrst := false } }.bootNow)

/-- The watchdog expires: 1 timeout, 2 wrong kick value (R588). -/
def State.wdogExpires (s : State) (cause : Nat) : State :=
  let s := (s.occur PWR_WDOG_EXPIRE 0 [(cause : Int)]).logPwr PWR_WDOG_EXPIRE cause
  (s.wr PWR_WDOG_CTL_EN 0).warmReset .watchdog

/-- A write of `PWR_WDOG_CTL` has taken effect (R588). (DEDUCED, log entry 18.) -/
def State.wroteWdogCtl (s : State) : State :=
  if s.rdb PWR_WDOG_CTL_EN then { s with pwr := { s.pwr with wdogAt := s.now } } else s

/-- A write of `PWR_WDOG` (R588). -/
def State.wroteWdog (s : State) (w : Word) : State :=
  if !s.rdb PWR_WDOG_CTL_EN then s
  else if w = 0o153151143153 then { s with pwr := { s.pwr with wdogAt := s.now } }
  else s.wdogExpires 2

/-- WDOG_EXPIRE (R588). -/
def execWdogExpire (s : State) : Host.Outcome State Fault Refusal :=
  .next (
    if s.up && s.pwr.dying.isNone && s.rdb PWR_WDOG_CTL_EN && decide (s.pwr.wdogAt + s.rd PWR_WDOG_CTL_T * (ticksSec / 10) ≤ s.now) then s.wdogExpires 1
    else s)

/-! ### Commands (R208, R583, R591) -/

/-- `PWR.MODE` (R582, R583, R33).  A change to HOUSEKEEPING, which clears HELD and SHED, powers the clusters that are OFF, as
R32 has them powered in that mode. (DEDUCED, log entry 70.) -/
def State.cmdPwrMode (c : Cmd) (s : State) : State :=
  s.unreserved c [mask 2 0, 0] fun s =>
    let m := (c.w 0).bits 2 0
    let old := s.mode
    let ends := fun (s : State) => s.complete c.tag eOk 0 s.mode
    if 6 ≤ m then s.complete c.tag eReserved
    else if m = 0 ∨ m = 4 then s.complete c.tag eRange
    else if s.rdb PWR_STAT_SHORT then s.complete c.tag eMode
    else if m = old then ends s
    else if m = modeMaintenance ∧ (old = modeHousekeeping ∨ old = modeProvision) then ends (s.setMode m)
    else if m = modeService ∧ old = modeProvision then
      ends (s.setMode (if s.pwr.shedOrder.isEmpty then modeService else modeConstrained))
    else if m = modeProvision ∧ (old = modeService ∨ old = modeConstrained) then ends (s.setMode m)
    else if m = modeProvision ∧ (old = modeHousekeeping ∨ old = modeMaintenance) then
      let l := (List.range 77).filter fun d => s.dom d = domOff && !s.rdb PWR_DOM_HELD 0 d
      ({ s with pwr := { s.pwr with modeCmd := some (m, c.tag), rise := l } }.startRise).progress
    else if m = modeHousekeeping ∧ old ≠ modeBackup then
      let s := (List.range 77).foldl (fun (s : State) d => (s.setShed d false).wr PWR_DOM_HELD 0 0 d) s
      let s := { s with pwr := { s.pwr with
        modeCmd := some (m, c.tag), shedOrder := [], tempShedDoms := [], headSince := none, lastRestore := none, lit := [] } }
      let s := housekeepingOff.foldl State.rampDown s
      { s with pwr := { s.pwr with fallList := housekeepingOff, rise := s.clustersOff } }.beginFalls.startRise.progress
    else s.complete c.tag eState

/-- `PWR.DOMAIN` (R591, R587); `bursts` are the engine bursts in progress that a reset cuts (R108). (DEDUCED, log entry 69.) -/
def State.cmdPwrDomain (bursts : Option (List Burst)) (c : Cmd) (s : State) : State :=
  s.unreserved c [mask 35 34 + mask 6 0, 0] fun s =>
    let op := (c.w 0).bits 35 34
    let d := (c.w 0).bits 6 0
    let treesUp := (List.range 8).any fun w => decide (s.dom (8 * (d - 64) + w) ≠ domOff)
    if op = 3 ∨ 80 ≤ d then s.complete c.tag eReserved
    else if 77 ≤ d then s.complete c.tag eState 0 1
    else if (op ≠ 0 ∧ d < 64 ∧ s.dom (64 + d / 8) = domOff) ∨ (op = 0 ∧ 64 ≤ d ∧ d < 72 ∧ treesUp) then
      s.complete c.tag eState 0 2
    else if op = 2 ∧ s.dom d ≠ domOnSt then s.complete c.tag eState 0 4
    else if op = 1 ∧ s.rdb PWR_STAT_SHORT then s.complete c.tag eMode
    else if op = 1 ∧ s.dom d ≠ domOnSt ∧ !s.estWithin d s.headroom then s.complete c.tag eState 0 3
    else if op = 2 then
      let l := d - 72
      let s :=
        if d < 64 then s.treeShed d
        else if 72 ≤ d ∧ d < 76 ∧ (s.txState l = txRampUp ∨ s.txState l = txLit) then s.lineShutdown l
        else s
      if s.ramping d then { s with pwr := { s.pwr with resetting := s.pwr.resetting ++ [(d, 0, c.tag)] } }
      else
        let s := (s.stopDomain d bursts).startDomain d
        { s with pwr := { s.pwr with resetting := s.pwr.resetting ++ [(d, s.now + 10 * ticksUs, c.tag)] } }
    else
      let s := s.wr PWR_DOM_HELD (b2n (decide (op = 0))) 0 d
      let s := if s.rdb PWR_DOM_SHED 0 d then s.unshed d else s
      let s := { s with pwr := { s.pwr with domCmd := some (op, d, c.tag) } }
      (if op = 0 then s.turnOff d else s.requestRise d).progress

/-- `PWR.READ` (R591). -/
def State.cmdPwrRead (c : Cmd) (s : State) : State :=
  let r := fun (o : Nat) => (s.reg (0o404001000 + o)).toNat
  s.complete c.tag eOk 0 (r 3) (cleanWords [r 4, r 5, r 6, r 7])

/-- `PWR.RESET` (R208, R591). -/
def State.cmdPwrReset (c : Cmd) (s : State) : State :=
  s.unreserved c [mask 35 0, 0] fun s =>
    if c.w 0 ≠ 0o162145163164 then s.complete c.tag eReserved
    else
      let left := (s.cmds.filter fun x => x.tag ≠ c.tag && x.stage ≠ .done).map (·.tag)
      { s.wr SVC_STAT_INTAKE 0 with svc := { s.svc with drain := some ⟨c.tag, s.now, left, none⟩ } }

/-- The commands that remain complete `E_ABORT`, an `IMG.STORE` among them leaving the old contents (R206, R208). -/
def State.abortCommands (s : State) (l : List Cmd) : State :=
  let s := match s.img.store with
    | some x => if l.any fun c => c.tag = x.slot then s.abandonStore else s
    | none => s
  l.foldl (fun (s : State) c => s.complete c.tag eAbort) s

/-- The drain of `PWR.RESET` goes on (R208 steps 2–5): its own completion waits until those of steps 2 and 3 have been
sent, on whichever path. -/
def State.drainStep (s : State) : State :=
  match s.svc.drain with
  | none => s
  | some d =>
    match d.closed with
    | none =>
      let others := s.cmds.filter fun c => c.tag ≠ d.tag && c.stage ≠ .done
      let run := others.any fun c => c.stage = .running
      if run && decide (s.now < d.since + 100 * ticksMs) then s
      else
        let s := s.abortCommands others
        let s := { s with svc := { s.svc with drain := some { d with closed := some s.now } } }
        if d.left.all fun k => (s.cmdAt k).isNone then s.complete d.tag eOk else s
    | some t =>
      if (s.cmdAt d.tag).isNone || decide (t + 100 * ticksMs ≤ s.now) then s.warmReset .command
      else if d.left.all fun k => (s.cmdAt k).isNone then s.complete d.tag eOk
      else s

/-- PWR_RESET_DRAIN_END (R208). -/
def execPwrResetDrainEnd (s : State) : Host.Outcome State Fault Refusal :=
  .next (if s.up ∧ s.pwr.pendReset.isNone then s.drainStep else s)

end Sys2Proof.Machine
end

