-- ==== Sys2Proof/Machine/Link.lean ====
section
/-! DEFINITION. The service link below the commands (spec/05): bring-up, low-power states, lane quality, loops, the
packets to the host and their order, overhead packets, the boot port, and the two pins. -/

namespace Sys2Proof.Machine

open Ev Reg

/-! ### States of `SVC_STAT.LINK` (R170) -/

def lkReset : Nat := 0
def lkCdr : Nat := 1
def lkAlign : Nat := 2
def lkDeskew : Nat := 3
def lkUp : Nat := 4
def lkL1 : Nat := 5
def lkL2 : Nat := 6
def lkLoop : Nat := 7

/-- The state of the receive side. -/
def State.link (s : State) : Nat := s.rd SVC_STAT_LINK

/-- The receive side enters a state, which is progress for the bring-up's time limit. -/
def State.toLink (s : State) (st : Nat) : State :=
  { s.wr SVC_STAT_LINK st with svc := { s.svc with progAt := s.now } }

/-- What the module sends: the columns of a packet, an ordered set or a loop. -/
def State.sendCols (s : State) (l : List (List Nat)) : State := { s with svc := { s.svc with out := l } }

/-- Idle fills every column of the transmitters that is part of no packet or other ordered set (R167); in a low-power state
they are in electrical idle, and a loop has columns of its own (R173, R179). (DESIGN CHOICE, log entry 136.) -/
def State.idleFill (s : State) : State :=
  if !s.svcLive ∨ s.link = lkL1 ∨ s.link = lkL2 then s.sendCols []
  else if s.link = lkLoop ∨ s.svc.sending.isSome = true then s
  else s.sendCols setIdle

/-- The receive side goes to CDR or RESET: no lane is aligned, and a packet being sent is abandoned with /E/ and keeps its
place (R167, R170, R186). -/
def State.linkDown (s : State) (st : Nat) : State :=
  let s := (List.range 4).foldl (fun (s : State) i => s.wr SVC_LANE_ALIGNED 0 0 i) s
  let s := if s.svc.sending.isSome then s.sendCols setAbort else s
  { s with svc := { s.svc with sending := none, lpReq := none } }.toLink st

/-! ### Bring-up (R168, R170) -/

/-- SVC_CDR_LOCKED (R170). -/
def execSvcCdrLocked (s : State) : Host.Outcome State Fault Refusal :=
  .next (if s.svcLive ∧ s.link = lkCdr then s.toLink lkAlign else s)

/-- SVC_LANE_ALIGNED (R170). -/
def execSvcLaneAligned (lane : Fin 4) (s : State) : Host.Outcome State Fault Refusal :=
  .next (
    if s.svcLive ∧ s.link = lkAlign ∧ !s.rdb SVC_LANE_ALIGNED 0 lane then
      let s := (s.wr SVC_LANE_ALIGNED 1 0 lane).toLink lkAlign
      if (List.range 4).all fun i => s.rdb SVC_LANE_ALIGNED 0 i then s.toLink lkDeskew else s
    else s)

/-- SVC_DESKEW (R170): markers are found on every lane, `spread` columns apart. (DEDUCED, log entry 2.) -/
def execSvcDeskew (spread : Nat) (s : State) : Host.Outcome State Fault Refusal :=
  .next (
    if s.svcLive ∧ s.link = lkDeskew then
      if spread ≤ 24 then
        let s := (s.wr SVC_STAT_SKEW spread).toLink lkUp
        { s with svc := { s.svc with bootOffer := s.svc.bootOffer.filter fun p => match p with
          | .completion _ => true
          | _ => false } }
      else (s.linkDown lkCdr).count SVC_SKEW
    else s)

/-- SVC_BRINGUP_TIMEOUT (R170). -/
def execSvcBringupTimeout (s : State) : Host.Outcome State Fault Refusal :=
  .next (
    if s.svcLive ∧ (s.link = lkAlign ∨ s.link = lkDeskew) ∧ s.svc.progAt + 100 * ticksUs ≤ s.now then
      (s.linkDown lkCdr).count SVC_BRINGUP_RETRY
    else s)

/-- SVC_LINK_LOSS (R170, R210). -/
def execSvcLinkLoss (s : State) : Host.Outcome State Fault Refusal :=
  .next (
    if s.svcLive ∧ s.link = lkUp then ((s.linkDown lkCdr).wr SVC_ALERT_LINK_LOST 1).occur SVC_LINK_DOWN else s)

/-- SVC_ALIGN_MARKER_RECEIVED (R168). -/
def execSvcAlignMarkerReceived (rxUp : Bool) (s : State) : Host.Outcome State Fault Refusal :=
  .next (if s.svcLive ∧ (s.link = lkDeskew ∨ s.link = lkUp) then s.wr SVC_STAT_FAR_UP (b2n rxUp) else s)

/-- SVC_MARKER_SEND (R168): the marker carries RX_UP, which is 1 while the receive side is UP. -/
def execSvcMarkerSend (s : State) : Host.Outcome State Fault Refusal :=
  .next (
    if s.svcLive ∧ s.link ≠ lkL1 ∧ s.link ≠ lkL2 then
      { s with svc := { s.svc with txUp := s.link = lkUp } }.sendCols (setMarker (s.link = lkUp))
    else s)

/-! ### Low-power states (R173–R175) -/

/-- Whether an overhead channel is mapped to the service link (R173, R299). (DEDUCED, log entry 58.) -/
def State.overheadMapped (s : State) : Bool :=
  (List.range 4).any fun l => s.domOn (lineDomain l) && (s.route l 0 = 2 || s.route l 1 = 2)

/-- The module answers a request for a low-power state with /P/: an accept, after which 16 /I/ columns precede electrical
idle, or a refusal (R173). (DEDUCED, log entry 56.) -/
def State.lpAnswer (s : State) (st : Nat) : State :=
  if s.rdb SVC_CTL_LPM_EN ∧ !s.overheadMapped ∧ s.svc.loop.isNone then (s.sendCols (setPower 3 ++ idleColumns 16)).toLink st
  else s.sendCols (setPower 4)

/-- A request for a low-power state, which a loop that runs does not keep from its answer (R173); the answer waits for the
end of a packet being sent. (DEDUCED, log entry 56.) -/
def State.lpRequest (s : State) (st : Nat) : State :=
  if s.svcLive ∧ (s.link = lkUp ∨ s.link = lkLoop) then
    if s.svc.sending.isSome then { s with svc := { s.svc with lpReq := some st } } else s.lpAnswer st
  else s

/-- SVC_L1_REQUEST (R173). -/
def execSvcL1Request (s : State) : Host.Outcome State Fault Refusal := .next (s.lpRequest lkL1)

/-- SVC_L2_REQUEST (R173). -/
def execSvcL2Request (s : State) : Host.Outcome State Fault Refusal := .next (s.lpRequest lkL2)

/-- SVC_POWER_SET_BAD (R167): an ordered set ends with the characters `set` received on the four lanes. -/
def execSvcPowerSetBad (set : List (Nat × Nat)) (s : State) : Host.Outcome State Fault Refusal :=
  .next (if s.svcLive ∧ s.link = lkUp ∧ setBad set then s.count SVC_OS_BAD else s)

/-- SVC_LOW_POWER_EXIT (R175). -/
def execSvcLowPowerExit (s : State) : Host.Outcome State Fault Refusal :=
  .next (if s.svcLive ∧ (s.link = lkL1 ∨ s.link = lkL2) then s.linkDown lkCdr else s)

/-! ### Lane quality (R176) -/

/-- Whether a condition noted with its tick plus one, 0 while it does not hold, has held for 1 ms. -/
def State.heldMs (s : State) (since : Nat) : Bool := decide (since ≠ 0) && decide (since + ticksMs ≤ s.now + 1)

/-- SVC_EQM_LOW (R176): EQM of the lane has stayed below EQM_MIN for 1 ms. -/
def execSvcEqmLow (lane : Fin 4) (s : State) : Host.Outcome State Fault Refusal :=
  .next (
    if s.svcLive ∧ s.heldMs (sget (fun _ => 0) s.svc.eqmUnder lane) ∧ !s.svc.eqmLow.contains lane.val then
      { s with svc := { s.svc with eqmLow := lane.val :: s.svc.eqmLow } }.occur SVC_EQM_LOW
    else s)

/-- SVC_EQM_RECOVERED (R176): EQM of the lane has been at or above EQM_MIN for 1 ms. -/
def execSvcEqmRecovered (lane : Fin 4) (s : State) : Host.Outcome State Fault Refusal :=
  .next (
    if s.svcLive ∧ s.heldMs (sget (fun _ => 0) s.svc.eqmOver lane) then
      { s with svc := { s.svc with eqmLow := s.svc.eqmLow.filter (· ≠ lane.val) } }
    else s)

/-! ### Packets to the host (R180, R181, R553, R560) -/

/-- Parts 1–4 of a packet completed with pad and CRC (R180). -/
def sealPacket (l : List Nat) : List Nat :=
  let l := l ++ List.replicate ((4 - l.length % 4) % 4) 0
  l ++ natToOctets 4 (crc32 l)

/-- The octets of an event packet that carries records (R553). -/
def eventOctets (strm : Nat) (l : List EvRec) : List Nat :=
  let w := l.flatMap EvRec.words
  sealPacket (headerOctets 3 false false 0 0 0 strm (w.length / 2) ++ packWords (w.map word))

/-- The octets of a completion packet (R181, R193, R195, R203). -/
def completionOctets (k : Completion) : List Nat :=
  let l := k.covered ++ k.check
  sealPacket (if k.recalled then l.set 2 (l.getD 2 0 + 128) else l)

/-- The octets of a telemetry packet of stream `strm` (R560). -/
def telemetryOctets (strm : Nat) (x : Nat × List (PWord × PWord)) : List Nat :=
  let w : List PWord := cleanWords [lpA x.1, lpB x.1] ++ x.2.flatMap fun p => [p.1, p.2]
  let psn := w.any (·.p)
  sealPacket (headerOctets 4 false psn 0 0 0 strm (w.length / 2) ++ packWords (w.map (·.v)) ++
    (if psn then bitsToOctets (w.map (·.p)) else []))

/-- The octets of a packet to the host as it would be sent now. -/
def State.packetOctets (s : State) : OutPkt → List Nat
  | .overhead l h b => sealPacket (headerOctets 5 false false 0 0 0 (2 * l + h) b.length ++ b)
  | .events0 n => eventOctets 1 (s.evt.p0.take n)
  | .events1 n => eventOctets 0 (s.evt.main.take n)
  | .completion k => completionOctets k
  | .telemetry t =>
    match sget (fun _ => none) s.evt.tlm t with
    | some x => telemetryOctets t x
    | none => []

/-! ### The order of packets (R186) -/

/-- The telemetry stream whose waiting packet is oldest; of one frame the lowest stream. (DESIGN CHOICE, log entry 129.) -/
def State.oldestTlm (s : State) : Option Nat :=
  ((List.range 16).foldl
    (fun (best : Option (Nat × Nat)) t =>
      match sget (fun _ => none) s.evt.tlm t, best with
      | some x, some b => if x.1 < b.2 then some (t, x.1) else best
      | some x, none => some (t, x.1)
      | none, _ => best)
    none).map (·.1)

/-- The packet that goes next on the link. -/
def State.nextPacket (s : State) : Option OutPkt :=
  match s.svc.ohOut, s.evt.p0, s.svc.linkOut, s.evt.main with
  | (l, h, b) :: _, _, _, _ => some (.overhead l h b)
  | [], _ :: _, _, _ => some (.events0 (min 32 s.evt.p0.length))
  | [], [], k :: _, _ => some (.completion k)
  | [], [], [], _ :: _ => some (.events1 (min 32 s.evt.main.length))
  | [], [], [], [] => s.oldestTlm.map .telemetry

/-- SVC_PACKET_SELECT (R171, R186). -/
def execSvcPacketSelect (s : State) : Host.Outcome State Fault Refusal :=
  .next (
    if s.svcLive ∧ s.link = lkUp ∧ s.rdb SVC_STAT_FAR_UP ∧ s.svc.sending.isNone ∧ s.svc.lpReq.isNone then
      { s with svc := { s.svc with sending := s.nextPacket } }
    else s)

/-- A completion has been sent whole: it is counted by status and kept by its slot, which becomes free (R187, R193,
R209); a loop it announces starts (R179). -/
def State.completionSent (s : State) (k : Completion) : State :=
  if k.recalled then s
  else
    let s := if k.status = 0 then s else s.count SVC_STATUS (20 * k.page + (k.status - 1))
    let s := { s.setCmd k.tag none with svc := { (s.setCmd k.tag none).svc with kept := sput (fun _ => none) s.svc.kept k.tag (some k) } }
    match s.svc.loops.find? fun x => x.tag = k.tag with
    | some x =>
      let s := (s.linkDown lkLoop).wr SVC_STAT_INTAKE 0
      { s with svc := { s.svc with loops := s.svc.loops.filter fun y => y.tag ≠ k.tag, loop := some (x, s.now) } }
    | none => s

/-- The oldest `n` priority-0 records leave their ring (R553, R558). -/
def State.p0Sent (s : State) (n : Nat) : State :=
  { s with evt := { s.evt with p0 := s.evt.p0.drop n }.drain s.now }

/-- The oldest `n` records leave the main ring (R553, R555). -/
def State.mainSent (s : State) (n : Nat) : State :=
  { s with evt := { s.evt with
      main := s.evt.main.drop n
      lowSince := if 16384 ≤ s.evt.main.length then s.now else s.evt.lowSince }.drain s.now }

/-- The telemetry packet of a stream leaves (R562). -/
def State.tlmSent (s : State) (t : Nat) : State :=
  { s with evt := { s.evt with tlm := sput (fun _ => none) s.evt.tlm t none } }

/-- SVC_PACKET_SENT (R187, R208, R553, R562); a request for a low-power state that waited for it is answered then, also when
the packet starts a loop (R173). -/
def execSvcPacketSent (s : State) : Host.Outcome State Fault Refusal :=
  .next (
    if !s.svcLive ∨ s.link ≠ lkUp then s
    else match s.svc.sending with
      | none => s
      | some p =>
        let req := s.svc.lpReq
        let s := { s with svc := { s.svc with sending := none, lpReq := none } }.sendCols (packetColumns (s.packetOctets p))
        let s : State :=
          match p with
          | .overhead l h b =>
            if s.svc.ohOut.head? = some (l, h, b) then { s with svc := { s.svc with ohOut := s.svc.ohOut.drop 1 } } else s
          | .events0 n => s.p0Sent n
          | .events1 n => s.mainSent n
          | .completion k => ({ s with svc := { s.svc with linkOut := s.svc.linkOut.drop 1 } }.completionSent k).drainStep
          | .telemetry t => s.tlmSent t
        match req with
        | some st => s.lpAnswer st
        | none => s)

/-! ### Packets from the host that carry no command (R169, R184, R185) -/

/-- HOST_PACKET_BAD (R169, R185), which step 1 of R191 finds in a loop as well (R625). -/
def execHostPacketBad (boot : Bool) (why : BadPkt) (s : State) : Host.Outcome State Fault Refusal :=
  .next (
    if !s.svcLive ∨ (!boot ∧ s.link ≠ lkUp ∧ s.link ≠ lkLoop) then s
    else match why with
      | .code => if boot then s else s.count SVC_CV
      | .crc | .length => s.count SVC_CRC
      | .type => s.count SVC_BADTYPE)

/-- OVERHEAD_PACKET_IN (R184, R299, R300). (DEDUCED, log entry 58.) -/
def execOverheadPacketIn (line : Fin 4) (chan : Fin 2) (crit psn : Bool) (octets : List (BitVec 8)) (s : State) :
    Host.Outcome State Fault Refusal :=
  .next (
    if !s.svcLive ∨ s.link ≠ lkUp then s
    else if octets.length ≠ 96 ∨ crit ∨ psn ∨ !s.domOn (lineDomain line) ∨ s.route line chan ≠ 2 then s.count SVC_OH_BAD
    else s.pushSlip line chan true (octets.map BitVec.toNat))

/-! ### The loop (R178, R179) -/

/-- SVC_LOOP_END (R178, R179): `lanes` holds what each lane received during the loop: the bits that PRBS31 is checked
against in modes 1 and 2, the characters that are sent back in mode 3.  A record has four ARG words (R551), which the mode
and lanes 0 to 2 fill. (DEDUCED, log entry 57.) -/
def execSvcLoopEnd (lanes : List (List Nat)) (s : State) : Host.Outcome State Fault Refusal :=
  .next (
    match s.svc.loop with
    | some (x, t) =>
      if s.svcLive ∧ s.link = lkLoop ∧ t + x.ms * ticksMs ≤ s.now then
        let s := (s.linkDown lkReset).wr SVC_STAT_INTAKE (b2n (s.svc.drain.isNone && !s.rdb SVC_STAT_BOOTROM))
        let s := { s with svc := { s.svc with loop := none } }
        if x.mode = 3 then (s.sendCols (backColumns lanes)).occur SVC_LOOP_DONE 0 [3]
        else
          let errs := (List.range 4).map fun i => loopErrors x.seed (lanes.getD i [])
          { s with svc := { s.svc with loopErrs := errs } }.occur SVC_LOOP_DONE 0
            ((x.mode : Int) :: errs.map fun e => (e : Int))
      else s
    | none => s)

/-! ### The boot port (R201) -/

/-- What the boot port offers at a read when nothing is kept from an earlier read: priority-0 records while the link is
not UP, else its oldest completion. (DEDUCED, log entry 59.) -/
def State.bootNext (s : State) : Option OutPkt :=
  match s.svc.bootOffer with
  | some p => some p
  | none =>
    if s.link ≠ lkUp ∧ s.evt.p0 ≠ [] then some (.events0 (min 32 s.evt.p0.length))
    else match s.svc.bootOut with
      | k :: _ => some (.completion k)
      | [] => none

/-- BOOT_READ_PACKET (R201): `clocked` octets are clocked out before chip select rises; the packet leaves when they
cover its length and all of it. (DEDUCED, log entry 59.) -/
def execBootReadPacket (clocked : Nat) (s : State) : Host.Outcome State Fault Refusal :=
  .next (
    if !s.svcLive then s
    else match s.bootNext with
      | none => { s with svc := { s.svc with miso := (List.replicate 2 0).take clocked } }
      | some p =>
        let o := s.packetOctets p
        let out := natToOctets 2 o.length ++ o
        let s : State := { s with svc := { s.svc with miso := out.take clocked, bootOffer := some p } }
        if clocked < out.length then s
        else
          let s : State := { s with svc := { s.svc with bootOffer := none } }
          match p with
          | .events0 n => s.p0Sent n
          | .completion k => ({ s with svc := { s.svc with bootOut := s.svc.bootOut.drop 1 } }.completionSent k).drainStep
          | _ => s)

/-- The octet of a read-status transaction (R201). -/
def State.bootStatus (s : State) : Nat :=
  8 * b2n (decide (s.link = lkUp)) + 4 * s.rd SVC_STAT_BOOTROM + 2 * s.rd SVC_STAT_INTAKE + b2n s.bootNext.isSome

/-- BOOT_READ_STATUS (R201). -/
def execBootReadStatus (s : State) : Host.Outcome State Fault Refusal :=
  .next (if s.svcLive then { s with svc := { s.svc with miso := [s.bootStatus] } } else s)

/-- BOOT_BAD_OPERATION (R201): the module sends zero octets until chip select rises. -/
def execBootBadOperation (octets : Nat) (s : State) : Host.Outcome State Fault Refusal :=
  .next (if s.svcLive then { s with svc := { s.svc with miso := List.replicate octets 0 } } else s)

/-! ### The pins (R199, R200) -/

/-- Whether RDY/BSY shows BSY (R199), during the erasures of a zeroise too (R450, R452). -/
def State.busy (s : State) : Bool :=
  let qen := s.rd SVC_CTL_QEN
  !s.rdb SVC_STAT_INTAKE || s.edw.zeroing.isSome ||
    ((List.range 8).filter fun q => qen.testBit q).all fun q => decide (64 ≤ (s.cmds.filter fun c => c.tag / 64 = q).length)

/-- Whether ALERT is asserted. -/
def State.alert (s : State) : Bool :=
  s.rdb SVC_ALERT_BOOT_FAIL || (s.rdb SVC_ALERT_LINK_LOST && s.rdb SVC_ALERT_EN_LINK_LOST) ||
    (s.rdb SVC_ALERT_P0_PEND && s.rdb SVC_ALERT_EN_P0_PEND)

end Sys2Proof.Machine
end

