-- ==== Sys2Proof/Machine/RegWrite.lean ====
section
/-! DEFINITION. A write of a register word (R12–R14, R80, R113, R337, R588): the checks that reject it whole, the
access codes of its fields, and what the write brings beside the stored value. -/

namespace Sys2Proof.Machine

open Ev Reg

/-- How a register write ended. (DEDUCED, log entry 13.) -/
inductive Written
  /-- performed, or discarded without a report -/
  | done
  /-- rejected whole for a reserved value (R14) -/
  | reserved
  /-- rejected whole, with E_STATE for a host command (R264, R337) -/
  | badState
  /-- rejected whole, with E_RANGE for a host command (R75, R249, R351) -/
  | badRange
  /-- discarded whole: it would change an RWL field outside PROVISION and MAINTENANCE (R12) -/
  | refused
  deriving DecidableEq, Repr

/-! ### What is written (R12, R13, R80) -/

/-- The bits of the lanes a store enables. -/
def lanesMask (le : Nat) : Nat := ((lanesOf le).map fun l => 511 * 2 ^ (9 * l)).sum

/-- The bits of a register word that a wide field holds but the spec reserves: lane bit 8 of trace octets (R302,
R306), lane 0 of the second loading words (R237), the low bits of LP word B (R9), the settings of channels 61–63 (R514). -/
def keptBits (a : Nat) : Nat :=
  let o := (a - 0o402000000) % 0o100000
  if 0o402000000 ≤ a ∧ a < 0o403000000 then
    if 0o4010 ≤ o ∧ o < 0o4050 then octetMask
    else if o = 0o501 ∨ o = 0o503 ∨ o = 0o505 ∨ o = 0o507 then 2 ^ 36 - 512
    else 2 ^ 36 - 1
  else if 0o460000000 ≤ a ∧ (a - 0o460000000) % 0o10000 = 0o11 then 2 ^ 36 - 16
  else if 0o401500000 ≤ a ∧ a < 0o402000000 ∧ 0o175 ≤ (a - 0o401500000) % 0o1000 ∧ (a - 0o401500000) % 0o1000 < 0o200 then 0
  else 2 ^ 36 - 1

/-- Whether a field takes a written value. -/
def Field.writable (f : Field) : Bool := f.acc = .rw || f.acc = .rwl

/-- A stored word after a write of `x` (the enabled lanes of the written word, blended with the old word in `b`). (DEDUCED, log entry 13.) -/
def mergeWord (fields : List (Field × Nat)) (old b x : Nat) : Nat :=
  fields.foldl
    (fun n e =>
      if e.1.writable then setBits n e.1.hi e.1.lo (bitsOf b e.1.hi e.1.lo)
      else if e.1.acc = .w1c then
        setBits n e.1.hi e.1.lo (bitsOf old e.1.hi e.1.lo &&& (2 ^ e.1.width - 1 - bitsOf x e.1.hi e.1.lo))
      else n)
    old

/-! ### Rejected writes (R14) -/

/-- The checks of single registers beyond the reserved values of their fields; `b` is the word as it would be. (DEDUCED, log entries 13 and 14.) -/
def State.wordCheck (s : State) (a : Nat) (b : Word) : Written :=
  let reservedIf := fun (p : Bool) => if p then Written.reserved else .done
  if 0o460000000 ≤ a then reservedIf ((a - 0o460000000) % 0o10000 = 0o11 && decide (ticksFr ≤ b.bits 22 4))
  else if 0o430000000 ≤ a ∧ a < 0o440000000 then
    reservedIf (
      if a < 0o432000000 then
        if a % 4 = 0 then decide (9 ≤ b.bits 28 25) || decide (9 ≤ b.bits 24 21)
        else if a % 4 = 3 then false
        else b.bits 35 34 = 3 || tagReserved (b.bits 35 34) (b.bits 23 0)
      else if a < 0o433000000 then a % 2 = 0 && b.bit 35 && tagReserved (1 + b2n (b.bit 34)) (b.bits 23 0)
      else a < 0o433400000 && a % 2 = 1 && b.bit 35 &&
        (b.bits 34 13 = 0 || decide (25000 < b.bits 34 13) || b.bits 12 0 = 0))
  else if 0o404004020 ≤ a ∧ a < 0o404004060 then
    reservedIf !(if a % 2 = 0 then tlmOk b (s.reg (a + 1)) else tlmOk (s.reg (a - 1)) b)
  else if 0o404001100 ≤ a ∧ a < 0o404001220 then
    let d := a - 0o404001100
    reservedIf (if d ≤ 76 then b.bits 27 20 = 0 else b.bits 31 28 ≠ 0)
  else if a = 0o404000014 then (if timeServoOk b then .done else .badRange)
  else if 0o402000000 ≤ a ∧ a < 0o403000000 then
    let l := (a - 0o402000000) / 0o100000
    let o := (a - 0o402000000) % 0o100000
    if o = 0o2001 then (if signed 18 (b.bits 17 0) < signed 18 (b.bits 35 18) then .badRange else .done)
    else if o = 0o2020 then
      if b.bits 2 0 = 2 ∧ ¬(s.mode = modeMaintenance ∧ s.rxState l = rxLocked) then .badState else .done
    else reservedIf (o = 0o4000 && b.bits 26 25 = l)
  else if 0o401500000 ≤ a ∧ a < 0o402000000 then
    let m := (a - 0o401500000) / 0o1000
    let o := (a - 0o401500000) % 0o1000
    if 0o100 ≤ o ∧ o < 0o175 then reservedIf (gainFixed m (o - 0o100) && b.bits 35 34 ≠ 0)
    else if 0o200 ≤ o ∧ o < 0o300 then reservedIf !(seqEntryOk m (word (b.toNat / 2 ^ 21 * 2 ^ 21)))
    else .done
  else if 0o401000000 ≤ a ∧ a < 0o401400000 then
    reservedIf ((a - 0o401000000) % 0o4000 = 0o205 && b.bit 19 && b.bit 18)
  else if 0o400000000 ≤ a ∧ a < 0o401000000 then
    let c := (a - 0o400000000) / 0o1000
    let o := (a - 0o400000000) % 0o1000
    if o = 2 then
      if b.bits 20 16 ≤ b.bits 15 11 ∨ b.bits 20 16 ≤ b.bits 25 21 then .badRange else .done
    else if 0o200 ≤ o ∧ o < 0o300 ∧ o % 4 = 0 then
      if c % 8 = 7 ∧ b.bit 34 then .reserved
      else if s.rdb CH_CANC_STAT_SHADOW c then .badState else .done
    else .done
  else .done

/-- Whether a write is rejected or refused, and how: a reserved field value first, then the register's own checks, then
the RWL fields outside PROVISION and MAINTENANCE (R12, R14). (DEDUCED, log entry 13.) -/
def State.writeCheck (s : State) (fields : List (Field × Nat)) (a b x : Nat) : Written :=
  let old := (s.reg a).toNat
  let value := fun (f : Field) => if f.writable then bitsOf b f.hi f.lo else bitsOf x f.hi f.lo
  let written := fields.filter fun e => e.1.writable || e.1.acc = .wo
  if written.any fun e => !e.1.ok (value e.1) then .reserved
  else match s.wordCheck a (word b) with
    | .done =>
      if s.mode ≠ modeProvision ∧ s.mode ≠ modeMaintenance ∧
          fields.any fun e => e.1.acc = .rwl && bitsOf b e.1.hi e.1.lo ≠ bitsOf old e.1.hi e.1.lo
      then .refused else .done
    | r => r

/-! ### What a write brings -/

/-- Multiframe alignment and its defect after a write of MF_EN, `old` being what it was (R289, R290): written 0 it goes
OOM; from 0 to 1 the 3 ms of LOM begin anew. (DEDUCED, log entry 17.) -/
def State.mfWritten (s : State) (l : Nat) (old : Bool) : State :=
  if s.rdb LINE_FR_CTL_MF_EN l then (if old then s else s.setLine l { s.line l with imAt := s.now })
  else
    let s := (s.wr LINE_FR_STAT_IM 0 l).setLine l { s.line l with imAt := s.now, mfMiss := 0, mfLast := none }
    s.clearDefect l 2

/-- The buffers of a channel whose route changed start empty, those of the service link among them (R300). (DEDUCED, log
entry 15.) -/
def State.routeWritten (s : State) (l h old : Nat) : State :=
  if s.route l h = old then s
  else
    let s := (s.setSlip l h false {}).setSlip l h true {}
    { s with svc := { s.svc with ohOut := s.svc.ohOut.filter fun b => !(b.1 = l && b.2.1 = h) } }

/-- The effect of a write of a `LINE` word beside its stored value, `old` being the state before and `le` the lanes
written. -/
def State.wroteLine (s old : State) (l o le : Nat) : State :=
  if o = 0 then s.wroteTxCtl l (old.rd LINE_TX_CTL_POWER l)
  else if o = 0o2000 then s.wroteRxCtl l (le.testBit 3 || le.testBit 2) (le.testBit 2)
  else if o = 0o2012 then s.wroteTelCtl l
  else if o = 0o2020 then s.wroteRxTest l (old.rd LINE_RX_TEST_MODE l)
  else if o = 0o4000 then (((s.mfWritten l (old.rdb LINE_FR_CTL_MF_EN l)).updateTim l).emptyRx l).seeEgress (512 + l)
  else if o = 0o4004 then (s.routeWritten l 0 (old.route l 0)).routeWritten l 1 (old.route l 1)
  else if 0o4030 ≤ o ∧ o < 0o4050 then s.updateTim l
  else s

/-- What a performed write brings beside the stored value, `old` being the state before and `x` the bits written. (DEDUCED, log entry 29.) -/
def State.afterWrite (s old : State) (a le : Nat) (x : Word) : State :=
  if 0o450010000 ≤ a ∧ a < 0o450020000 then
    if a = 0o450010000 then s.wroteGrmCtl (old.rdb GRM_CTL_EN)
    else if a = 0o450010023 then s.wroteTcmd (x.bits 1 0)
    else s
  else if a = 0o404000002 then s.wroteTimeCtl (old.rd TIME_CTL_SRC) (old.rdb TIME_CTL_EN)
  else if a = 0o404001001 then s.wroteWdogCtl
  else if a = 0o404001002 then s.wroteWdog x
  else if 0o403000000 ≤ a ∧ a < 0o403100000 ∧ (a - 0o403000000) % 0o2000 = 0 then
    s.seeEgress (516 + (a - 0o403000000) / 0o2000)
  else if 0o402000000 ≤ a ∧ a < 0o403000000 then
    s.wroteLine old ((a - 0o402000000) / 0o100000) ((a - 0o402000000) % 0o100000) le
  else if 0o401500000 ≤ a ∧ a < 0o402000000 then
    let m := (a - 0o401500000) / 0o1000
    let o := (a - 0o401500000) % 0o1000
    if o = 0 then s.wroteMonCtl m else if o = 2 then s.wroteSeqCtl m (old.rdb MON_SEQ_CTL_EN m) else s
  else if 0o401000000 ≤ a ∧ a < 0o401400000 then
    let t := (a - 0o401000000) / 0o4000
    let o := (a - 0o401000000) % 0o4000
    if o = 0o200 then s.wroteMapCtl t (old.rd TREE_MAPCTL_DL_LEAD t)
    else if 0o3200 ≤ o ∧ o < 0o3400 then
      let i := 256 * t + 2 * (o - 0o3200)
      (s.tstChanged i (old.tst i).1).tstChanged (i + 1) (old.tst (i + 1)).1
    else s
  else if 0o400000000 ≤ a ∧ a < 0o401000000 then
    let c := (a - 0o400000000) / 0o1000
    let o := (a - 0o400000000) % 0o1000
    if o = 0 then (if le.testBit 3 || le.testBit 2 then s.wroteDsCtl c else s)
    else if o = 0o20 then s.wroteCanc c (x.bit 30) (x.bit 29)
    else if o = 0o300 then s.setDsm c (x.bits 11 0)
    else s
  else s

/-! ### The `CORE` blocks (R113, R567) -/

/-- A write of the lanes `le` of word `o` of core `n`'s block by a master of core number `k` that no check rejects, issued
to the address `issued`; the fields of `CORE_CTL` all lie in lane 0. (DEDUCED, log entry 18.) -/
def State.coreWrite (s : State) (k u n o issued le : Nat) (b x : Word) (bursts : Option (List Burst)) : State :=
  let a := 0o460000000 + n * 0o10000 + o
  if o = 0 then (if le.testBit 0 then s.wroteCoreCtl k u n issued x bursts else s)
  else if 0o1000 ≤ o then
    if k ≠ 76 ∧ k ≠ extMaster then s.decErr k u issued 1
    else if o = 0o1002 then s.ackSamples n (x.bits 5 0)
    else s.setReg a b
  else
    let s := s.setReg a b
    if 0o20 ≤ o ∧ o < 0o30 ∧ o % 2 = 0 then s.wroteWindow n ((o - 0o20) / 2) else s

/-! ### The write -/

/-- A write of `w` with lane enables `le` to the register word at `a` by the master of ID `m`, issued to `issued`. -/
def State.busWrite (s : State) (m a le : Nat) (w : Word) (bursts : Option (List Burst) := none) (issued : Nat := a) :
    Written × State :=
  if le % 16 = 0 ∨ (a = 0o404001001 ∧ s.rdb PWR_WDOG_CTL_EN) then (.done, s)
  else
    let fields := (fieldsAt a).2
    let old := (s.reg a).toNat
    let k := lanesMask le
    let x := w.toNat &&& k &&& keptBits a
    let b := (old &&& (2 ^ 36 - 1 - k)) + x
    match s.writeCheck fields a b x with
    | .done =>
      let v := word (mergeWord fields old b x)
      if 0o460000000 ≤ a then
        (.done,
          s.coreWrite (m / 8) (m % 8) ((a - 0o460000000) / 0o10000) ((a - 0o460000000) % 0o10000) issued le v (word x) bursts)
      else if (memInstance a).isSome then
        if fields.any fun e => e.1.writable then
          let e := (a - 0o442200000) / 4
          let t :=
            if 0o442200000 ≤ a ∧ a < 0o443000000 then s.takeTokens (e / 64) (e % 64) 0
            else if 0o433000000 ≤ a ∧ a < 0o433400000 ∧ a % 2 = 1 then
              s.setBucket ((a - 0o433000000) / 2) (s.policeTokens ((a - 0o433000000) / 2))
            else s
          (.done, t.putStored a ((s.wordStored a).store le ⟨v, false⟩))
        else (.done, s)
      else (.done, (s.setReg a v).afterWrite s a le (word x))
    | .refused => (.refused, s.count REG_RWL_REFUSE)
    | r => (r, s)

/-- Whether a number is the ID of a master that can write registers: a unit of a core, or the service link (R100). (DEDUCED, log entry 11.) -/
def isMaster (m : Nat) : Bool := decide (m / 8 < 77) || m = masterId extMaster 0

/-- The address by which master `m` reaches the register at `a`: a core and its engines reach their own `CORE` words
through the own view (R86, R91). (DEDUCED, log entries 11 and 102.) -/
def coreView (m a : Nat) : Nat := if a / 0o10000 = 0o46000 + m / 8 then 0o20000000 + a % 0o10000 else a

/-- Whether an access to a place cannot be served now: its target holds it back, an earlier request of its ordering domain
waits (R101), or its port serves or decides between others (R82, R105). (DESIGN CHOICE, log entry 48.) -/
def State.blocked (s : State) (n : Nat) (g : Agent) (p : Place) : Bool :=
  s.heldBack p || s.domainBusy n g || s.portBusy n g p

/-- A write request of a whole word that reaches the matrix from the master of ID `m` (R91–R93); one that cannot be served
now waits there. (DEDUCED, log entry 11; DESIGN CHOICE, log entry 48.) -/
def State.portWrite (s : State) (m a : Nat) (w : Word) (bursts : Option (List Burst) := none) : State :=
  if !isMaster m then s
  else match s.resolve (m / 8) (coreView m a) true with
    | .error e => s.badAccess (m / 8) (m % 8) a e
    | .ok (.reg g) =>
      if s.blocked (m / 8) (.row (m % 8)) (.reg g) then s.request (m / 8) (.row (m % 8)) (.reg g) (some (15, ⟨w, false⟩))
      else (s.busWrite m g 15 w bursts (coreView m a)).2
    | .ok _ => s

/-- A read request of a whole word of the register region that reaches the matrix from the master of ID `m`; one that
cannot be served now waits there. (DEDUCED, log entry 11; DESIGN CHOICE, log entry 48.) -/
def State.portRead (s : State) (m a : Nat) : State :=
  if !isMaster m then s
  else match s.resolve (m / 8) (coreView m a) false with
    | .error e => s.badAccess (m / 8) (m % 8) a e
    | .ok (.reg g) =>
      if s.blocked (m / 8) (.row (m % 8)) (.reg g) then s.request (m / 8) (.row (m % 8)) (.reg g) none
      else (s.busRead m g 15).2
    | .ok _ => s

/-! ### The rows that are one access -/

/-- REGISTER_WRITE (R12–R14). (DEDUCED, log entry 11.) -/
def execRegisterWrite (m addr : Nat) (w : Word) (s : State) : Host.Outcome State Fault Refusal :=
  .next (if 0o400000000 ≤ addr ∧ addr < 0o1000000000 then s.portWrite m addr w else s)

/-- TIME_CTL_WRITE (R49, R51). -/
def execTimeCtlWrite (m : Nat) (w : Word) (s : State) : Host.Outcome State Fault Refusal :=
  .next (s.portWrite m (TIME_CTL_SRC.addr 0 0 0) w)

/-- TIME_SERVO_WRITE (R75). -/
def execTimeServoWrite (m : Nat) (w : Word) (s : State) : Host.Outcome State Fault Refusal :=
  .next (s.portWrite m (TIME_SERVO_SLEW.addr 0 0 0) w)

/-- TIME_LP_A_READ (R74). -/
def execTimeLpARead (m : Nat) (s : State) : Host.Outcome State Fault Refusal :=
  .next (s.portRead m (TIME_LP_A_SF.addr 0 0 0))

/-- TSQ_E0_READ (R64). -/
def execTsqE0Read (m : Nat) (s : State) : Host.Outcome State Fault Refusal := .next (s.portRead m 0o404000020)

/-- WINDOW_OPEN (R95): a write of a window's word with MODE ≠ 0. -/
def execWindowOpen (m n : Nat) (win : Fin 4) (w : Word) (s : State) : Host.Outcome State Fault Refusal :=
  .next (if w.bits 35 34 ≠ 0 then s.portWrite m (CORE_WIN_H_MODE.addr n win 0) w else s)

/-- WINDOW_CLOSE (R95, R98): a write of a window's word with MODE = 0. -/
def execWindowClose (m n : Nat) (win : Fin 4) (w : Word) (s : State) : Host.Outcome State Fault Refusal :=
  .next (if w.bits 35 34 = 0 then s.portWrite m (CORE_WIN_H_MODE.addr n win 0) w else s)

/-- CORE_REMAP_WRITE (R110, R113). -/
def execCoreRemapWrite (m n : Nat) (w : Word) (s : State) : Host.Outcome State Fault Refusal :=
  .next (s.portWrite m (CORE_CTL_REMAP.addr n 0 0) (w &&& 8))

/-- CORE_HALT_WRITE (R119). -/
def execCoreHaltWrite (m n : Nat) (w : Word) (s : State) : Host.Outcome State Fault Refusal :=
  .next (if w.bit 2 then s.portWrite m (CORE_CTL_HALT.addr n 0 0) w else s)

/-- CORE_START_WRITE (R113, R119). -/
def execCoreStartWrite (m n : Nat) (w : Word) (s : State) : Host.Outcome State Fault Refusal :=
  .next (if w.bit 1 then s.portWrite m (CORE_CTL_START.addr n 0 0) w else s)

/-- CORE_SRST (R113, R119). (DEDUCED, log entry 50.) -/
def execCoreSrst (m n : Nat) (w : Word) (bursts : List Burst) (s : State) : Host.Outcome State Fault Refusal :=
  .next (if w.bit 0 then s.portWrite m (CORE_CTL_SRST.addr n 0 0) w (some bursts) else s)

/-- CORE_SMP_ACK_WRITE (R565, R567). -/
def execCoreSmpAckWrite (m n : Nat) (w : Word) (s : State) : Host.Outcome State Fault Refusal :=
  .next (s.portWrite m (CORE_SMP_ACK_N.addr n 0 0) w)

/-- LINE_TX_POWER_WRITE (R230). -/
def execLineTxPowerWrite (m : Nat) (l : Fin 4) (w : Word) (s : State) : Host.Outcome State Fault Refusal :=
  .next (s.portWrite m (LINE_TX_CTL_POWER.addr l 0 0) w)

/-- LINE_TX_TEST_WRITE (R234). -/
def execLineTxTestWrite (m : Nat) (l : Fin 4) (w : Word) (s : State) : Host.Outcome State Fault Refusal :=
  .next (s.portWrite m (LINE_TX_TEST_MODE.addr l 0 0) w)

/-- LINE_RX_CTL_WRITE (R239, R256). -/
def execLineRxCtlWrite (m : Nat) (l : Fin 4) (w : Word) (s : State) : Host.Outcome State Fault Refusal :=
  .next (s.portWrite m (LINE_RX_CTL_EN.addr l 0 0) w)

/-- LINE_RX_QSTAT_READ (R262). -/
def execLineRxQstatRead (m : Nat) (l : Fin 4) (s : State) : Host.Outcome State Fault Refusal :=
  .next (s.portRead m (LINE_RX_QSTAT_VALID.addr l 0 0))

/-- LINE_RX_TEST_WRITE (R264). -/
def execLineRxTestWrite (m : Nat) (l : Fin 4) (w : Word) (s : State) : Host.Outcome State Fault Refusal :=
  .next (s.portWrite m (LINE_RX_TEST_MODE.addr l 0 0) w)

/-- CH_DS_POWER_WRITE (R316). -/
def execChDsPowerWrite (m : Nat) (c : Fin 512) (w : Word) (s : State) : Host.Outcome State Fault Refusal :=
  .next (s.portWrite m (CH_DS_CTL_POWER.addr c 0 0) w)

/-- CANC_LOAD (R336): a write of `CH_CANC_CTL` with LOAD = 1. -/
def execCancLoad (m : Nat) (c : Fin 512) (w : Word) (s : State) : Host.Outcome State Fault Refusal :=
  .next (if w.bit 30 then s.portWrite m (CH_CANC_CTL_LOAD.addr c 0 0) w else s)

/-- CANC_DROP (R336): a write of `CH_CANC_CTL` with DROP = 1. -/
def execCancDrop (m : Nat) (c : Fin 512) (w : Word) (s : State) : Host.Outcome State Fault Refusal :=
  .next (if w.bit 29 then s.portWrite m (CH_CANC_CTL_DROP.addr c 0 0) w else s)

/-- CH_QSTAT_READ (R348). -/
def execChQstatRead (m : Nat) (c : Fin 512) (s : State) : Host.Outcome State Fault Refusal :=
  .next (s.portRead m (0o400000005 + 0o1000 * c))

/-- TREE_BEV_E0_READ (R333). -/
def execTreeBevE0Read (m : Nat) (t : Fin 64) (s : State) : Host.Outcome State Fault Refusal :=
  .next (s.portRead m (TREE_BEV_E0_W.addr t 0 0))

/-- TREE_RPT_READ (R332). -/
def execTreeRptRead (m : Nat) (t : Fin 64) (i : Fin 1024) (s : State) : Host.Outcome State Fault Refusal :=
  .next (s.portRead m (TREE_RPT_FRESH.addr t i 0))

/-- DSM_SET (R365). -/
def execDsmSet (m : Nat) (c : Fin 512) (w : Word) (s : State) : Host.Outcome State Fault Refusal :=
  .next (s.portWrite m (CH_DSM_CTL_SET.addr c 0 0) w)

/-- MON_SEQ_CTL_WRITE (R490, R496). -/
def execMonSeqCtlWrite (k : Nat) (m : Fin 18) (w : Word) (s : State) : Host.Outcome State Fault Refusal :=
  .next (s.portWrite k (MON_SEQ_CTL_EN.addr m 0 0) w)

/-- GRM_RAW_WRITE (R534): a write of `GRM_TCMD` with OP 1. -/
def execGrmRawWrite (m : Nat) (w : Word) (s : State) : Host.Outcome State Fault Refusal :=
  .next (if w.bits 1 0 = 1 then s.portWrite m (GRM_TCMD_OP.addr 0 0 0) w else s)

/-- GRM_RAW_READ (R534): a write of `GRM_TCMD` with OP 2. -/
def execGrmRawRead (m : Nat) (w : Word) (s : State) : Host.Outcome State Fault Refusal :=
  .next (if w.bits 1 0 = 2 then s.portWrite m (GRM_TCMD_OP.addr 0 0 0) w else s)

/-- CNT_COUNT_WORD_READ (R547): a load of the count word of the counter of directory index `index`. -/
def execCntCountWordRead (m index : Nat) (s : State) : Host.Outcome State Fault Refusal :=
  .next (s.portRead m (cntAddr index))

/-- WDOG_ARM (R588). -/
def execWdogArm (m : Nat) (w : Word) (s : State) : Host.Outcome State Fault Refusal :=
  .next (s.portWrite m (PWR_WDOG_CTL_EN.addr 0 0 0) w)

/-- WDOG_KICK (R588). -/
def execWdogKick (m : Nat) (w : Word) (s : State) : Host.Outcome State Fault Refusal :=
  .next (s.portWrite m (PWR_WDOG.addr 0 0 0) w)

end Sys2Proof.Machine
end

