-- ==== Sys2Proof/Machine/Commands.lean ====
section
/-! DEFINITION. The host commands (R202): the register and memory commands of R204, the work of every opcode, the row of
each command packet, and the start of a waiting command. -/

namespace Sys2Proof.Machine

open Ev Reg

/-! ### `REG.READ`, `REG.WRITE`, `MEM.READ`, `MEM.WRITE` (R204) -/

/-- The reach of `REG.READ` and `REG.WRITE`. (DEDUCED, log entry 60.) -/
def regReach (page a : Nat) : Bool :=
  if page = 0 then decide (0o400000000 ≤ a) && decide (a < 0o1000000000)
  else decide (0o420000000 + page * 0o10000 ≤ a) && decide (a < 0o420000000 + (page + 1) * 0o10000)

/-- The reach of `MEM.READ`: module and cluster shared memory, and core local windows. (DEDUCED, log entry 60.) -/
def memReach (a : Nat) : Bool :=
  (decide (0o100000000 ≤ a) && decide (a < 0o400000000)) || decide (0o2000000000 ≤ a)

/-- The reach of `MEM.WRITE`: the staging region. -/
def stagingReach (a : Nat) : Bool := decide (0o160000000 ≤ a) && decide (a < 0o200000000)

/-- Whether an access of the command `tag` waits at the matrix: as that of any master does (R102, R204, R624). -/
def State.linkWaits (s : State) (tag : Nat) (p : Place) : Bool :=
  s.heldBack p || s.domainBusy extMaster (.link tag) || s.portBusy extMaster (.link tag) p

/-- One word read by the service link for the command `tag`; none where it fails with E_ADDR; or the place that it waits
for. (DEDUCED, log entry 60.) -/
def State.linkRead (s : State) (tag a : Nat) : Except Place (Option PWord × State) :=
  match s.resolve extMaster a false with
  | .error e => .ok (none, s.badAccess extMaster 0 a e)
  | .ok p =>
    if s.linkWaits tag p then .error p
    else match p with
      | .reg g => let (w, s) := s.busRead (masterId extMaster 0) g 15; .ok (some w, s)
      | .mem g => let (w, s) := s.memRead g 15; .ok (some w, s)
      | _ => .ok (none, s)

/-- The status of a register write (R12, R14, R204). -/
def Written.status : Written → Nat
  | .done => eOk
  | .reserved => eReserved
  | .badState => eState
  | .badRange => eRange
  | .refused => eMode

/-- One word written by the service link for the command `tag`, with the status of the word, or the place that it waits
for. (DEDUCED, log entry 60.) -/
def State.linkWrite (s : State) (tag a le : Nat) (w : Word) (bursts : Option (List Burst)) : Except Place (Nat × State) :=
  match s.resolve extMaster a true with
  | .error e => .ok (eAddr, s.badAccess extMaster 0 a e)
  | .ok p =>
    if s.linkWaits tag p then .error p
    else match p with
      | .reg g => let (r, s) := s.busWrite (masterId extMaster 0) g le w bursts; .ok (r.status, s)
      | .mem g => .ok (eOk, s.memWrite g le ⟨w, false⟩)
      | _ => .ok (eAddr, s)

/-- Reads `n` words from `a` on, up to the first that fails: the words read, newest first, and whether all were; or the
place that a word waits for, the words read before it and the state. (DEDUCED, log entry 60.) -/
def State.readRun (reach : Nat → Bool) (tag : Nat) :
    Nat → Nat → List PWord → State → Except (Place × List PWord × State) (List PWord × Bool × State)
  | 0, _, acc, s => .ok (acc, true, s)
  | n + 1, a, acc, s =>
    if !reach a then .ok (acc, false, s)
    else match s.linkRead tag a with
      | .error p => .error (p, acc, s)
      | .ok (some w, s) => State.readRun reach tag n (a + 1) (w :: acc) s
      | .ok (none, s) => .ok (acc, false, s)

/-- Writes words from `a` on, up to the first that fails: the number written, the status, and the state; or the place that
a word waits for, the number written before it and the state. (DEDUCED, log entry 60.) -/
def State.writeRun (reach : Nat → Bool) (tag le : Nat) (bursts : Option (List Burst)) :
    List Word → Nat → Nat → State → Except (Place × Nat × State) (Nat × Nat × State)
  | [], _, k, s => .ok (k, eOk, s)
  | w :: t, a, k, s =>
    if !reach a then .ok (k, eAddr, s)
    else match s.linkWrite tag a le w bursts with
      | .error p => .error (p, k, s)
      | .ok (st, s) => if st = eOk then State.writeRun reach tag le bursts t (a + 1) (k + 1) s else .ok (k, st, s)

/-- The running command of slot `tag` notes by `f` how far it is and waits for its access at `p` (R99, R204). -/
def State.linkHeld (s : State) (tag : Nat) (p : Place) (f : Cmd → Cmd) : State :=
  match s.cmdAt tag with
  | none => s
  | some c => if c.stage = .running then (s.setCmd tag (some (f c))).request extMaster (.link tag) p none else s

/-- `REG.READ` and `MEM.READ` (R204): the words follow those that it has read already. (DEDUCED, log entry 60.) -/
def State.cmdRead (reach : Nat → Bool) (c : Cmd) (s : State) : State :=
  let k := c.got.length
  match c.reachCheck false with
  | some (st, d) => s.complete c.tag st d
  | none => match State.readRun reach c.tag ((c.w 1).bits 11 0 - k) ((c.w 0).bits 29 0 + k) c.got.reverse s with
    | .error (p, l, s) => s.linkHeld c.tag p fun c => { c with got := l.reverse }
    | .ok (l, all_, s) => s.complete c.tag (if all_ then eOk else eAddr) (if all_ then 0 else l.length) l.length l.reverse

/-- `REG.WRITE` and `MEM.WRITE` (R204): the words follow those that it has written already. (DEDUCED, log entry 60.) -/
def State.cmdWrite (reach : Nat → Bool) (bursts : Option (List Burst)) (c : Cmd) (s : State) : State :=
  match c.reachCheck true with
  | some (st, d) => s.complete c.tag st d
  | none =>
    match State.writeRun reach c.tag ((c.w 0).bits 33 30) bursts (((c.pkt.words.drop 2).take ((c.w 1).bits 11 0)).drop c.put)
        ((c.w 0).bits 29 0 + c.put) c.put s with
    | .error (p, k, s) => s.linkHeld c.tag p fun c => { c with put := k }
    | .ok (k, st, s) => s.complete c.tag st (if st = eOk then 0 else k) k

/-- The `REG.` or `MEM.` command of a slot goes on when an access that it waited for has been answered. -/
def State.linkGoesOn (s : State) (tag : Nat) : State :=
  match s.cmdAt tag with
  | none => s
  | some c =>
    if c.stage ≠ .running then s
    else match c.opcode with
      | 0x0201 => s.cmdRead (regReach c.page) c
      | 0x0202 => s.cmdWrite (regReach 0) none c
      | 0x0301 => s.cmdRead memReach c
      | 0x0302 => s.cmdWrite stagingReach none c
      | _ => s

/-! ### The work of an opcode (R202) -/

/-- The checks of step 13 and the work of a command that has started. -/
def State.perform (bursts : Option (List Burst)) (c : Cmd) (s : State) : State :=
  match c.opcode with
  | 0x0101 => s.cmdNop c
  | 0x0102 => s.cmdRecall c
  | 0x0103 => s.cmdLoop c
  | 0x0201 => s.cmdRead (regReach c.page) c
  | 0x0202 => s.cmdWrite (regReach 0) bursts c
  | 0x0301 => s.cmdRead memReach c
  | 0x0302 => s.cmdWrite stagingReach bursts c
  | 0x0401 => s.cmdCoreLoad c
  | 0x0402 => s.cmdCoreStart c
  | 0x0403 => s.cmdCoreHalt c
  | 0x0501 => s.cmdImgStore c
  | 0x0601 => s.cmdPwrMode c
  | 0x0602 => s.cmdPwrDomain bursts c
  | 0x0603 => s.cmdPwrReset c
  | 0x0604 => s.cmdPwrRead c
  | 0x0701 => s.cmdRestep c
  | 0x0702 => s.cmdTod c
  | 0x0703 => s.cmdTimeRead c
  | 0x0801 => s.cmdRtcSet c
  | 0x0901 => s.cmdKeyLoad c
  | 0x0902 => s.cmdKeyErase c
  | 0x0903 => s.cmdZeroise c
  | 0x0904 => s.cmdIdent c
  | 0x0A01 => s.cmdLineEnable c
  | 0x0A02 => s.cmdLineRate c
  | 0x0A03 => s.cmdLineLoad c
  | 0x0A04 => s.cmdLineTrace c
  | 0x0B01 => s.cmdTreeEnable c
  | 0x0B02 => s.cmdReflect c
  | 0x0B03 => s.cmdDiscover c
  | 0x0B04 => s.cmdActivate c
  | 0x0B05 => s.cmdDeactivate c
  | 0x0C01 => s.cmdInject c
  | 0x0C02 => s.cmdMonSeq c
  | 0x0D01 => s.cmdCalStart c
  | 0x0E01 => s.cmdCntRead c
  | 0x0E02 => s.cmdEvtCfg c
  | 0x0F01 => s.cmdBind c
  | 0x0F02 => s.cmdUnbind c
  | 0x0F03 => s.cmdQueSet c
  | _ => s.complete c.tag eOpcode

/-- Word `i` of a packet's payload. -/
def payloadWord (p : HostPkt) (i : Nat) : Word := p.words.getD i 0

/-! ### The rows of command packets -/

/-- SVC_NOP: `SVC.NOP` (R203). -/
def execSvcNop (p : HostPkt) (s : State) : Host.Outcome State Fault Refusal :=
  .next (s.intakeWith (State.perform none) 0x0101 p)

/-- SVC_RECALL: `SVC.RECALL` (R193). -/
def execSvcRecall (p : HostPkt) (s : State) : Host.Outcome State Fault Refusal :=
  .next (s.intakeWith (State.perform none) 0x0102 p)

/-- SVC_LOOP: `SVC.LOOP` (R179). -/
def execSvcLoop (p : HostPkt) (s : State) : Host.Outcome State Fault Refusal :=
  .next (s.intakeWith (State.perform none) 0x0103 p)

/-- REG_READ: `REG.READ` (R204). -/
def execRegRead (p : HostPkt) (s : State) : Host.Outcome State Fault Refusal :=
  .next (s.intakeWith (State.perform none) 0x0201 p)

/-- REG_WRITE: `REG.WRITE` (R204); `bursts` are the engine bursts in progress that a core reset it writes cuts (R108). -/
def execRegWrite (p : HostPkt) (bursts : List Burst) (s : State) : Host.Outcome State Fault Refusal :=
  .next (s.intakeWith (State.perform (some bursts)) 0x0202 p)

/-- MEM_READ: `MEM.READ` (R204). -/
def execMemRead (p : HostPkt) (s : State) : Host.Outcome State Fault Refusal :=
  .next (s.intakeWith (State.perform none) 0x0301 p)

/-- MEM_WRITE: `MEM.WRITE` (R204). -/
def execMemWrite (p : HostPkt) (s : State) : Host.Outcome State Fault Refusal :=
  .next (s.intakeWith (State.perform none) 0x0302 p)

/-- CORE_LOAD: `CORE.LOAD` (R205). -/
def execCoreLoad (p : HostPkt) (s : State) : Host.Outcome State Fault Refusal :=
  .next (s.intakeWith (State.perform none) 0x0401 p)

/-- CORE_START_CMD: `CORE.START` (R205). -/
def execCoreStartCmd (p : HostPkt) (s : State) : Host.Outcome State Fault Refusal :=
  .next (s.intakeWith (State.perform none) 0x0402 p)

/-- CORE_HALT_CMD: `CORE.HALT` (R205). -/
def execCoreHaltCmd (p : HostPkt) (s : State) : Host.Outcome State Fault Refusal :=
  .next (s.intakeWith (State.perform none) 0x0403 p)

/-- IMG_STORE: `IMG.STORE` (R206). -/
def execImgStore (p : HostPkt) (s : State) : Host.Outcome State Fault Refusal :=
  .next (s.intakeWith (State.perform none) 0x0501 p)

/-- PWR_MODE: `PWR.MODE` (R582, R583). -/
def execPwrMode (p : HostPkt) (s : State) : Host.Outcome State Fault Refusal :=
  .next (s.intakeWith (State.perform none) 0x0601 p)

/-- PWR_DOMAIN_OFF: `PWR.DOMAIN` (R591) with OP 0, or with the reserved OP 3. (DEDUCED, log entry 62.) -/
def execPwrDomainOff (p : HostPkt) (s : State) : Host.Outcome State Fault Refusal :=
  .next (if (payloadWord p 0).bits 35 34 = 0 ∨ (payloadWord p 0).bits 35 34 = 3 then s.intakeWith (State.perform none) 0x0602 p else s)

/-- PWR_DOMAIN_ON: `PWR.DOMAIN` (R591) with OP 1. -/
def execPwrDomainOn (p : HostPkt) (s : State) : Host.Outcome State Fault Refusal :=
  .next (if (payloadWord p 0).bits 35 34 = 1 then s.intakeWith (State.perform none) 0x0602 p else s)

/-- PWR_DOMAIN_RESET: `PWR.DOMAIN` (R587, R591) with OP 2; `bursts` are the engine bursts in progress (R108). (DEDUCED, log entry 72.) -/
def execPwrDomainReset (p : HostPkt) (bursts : List Burst) (s : State) : Host.Outcome State Fault Refusal :=
  .next (if (payloadWord p 0).bits 35 34 = 2 then s.intakeWith (State.perform (some bursts)) 0x0602 p else s)

/-- PWR_RESET: `PWR.RESET` (R208). -/
def execPwrReset (p : HostPkt) (s : State) : Host.Outcome State Fault Refusal :=
  .next (s.intakeWith (State.perform none) 0x0603 p)

/-- PWR_READ: `PWR.READ` (R591). -/
def execPwrRead (p : HostPkt) (s : State) : Host.Outcome State Fault Refusal :=
  .next (s.intakeWith (State.perform none) 0x0604 p)

/-- TIME_RESTEP: `TIME.RESTEP` (R54–R56, R207). -/
def execTimeRestep (p : HostPkt) (s : State) : Host.Outcome State Fault Refusal :=
  .next (s.intakeWith (State.perform none) 0x0701 p)

/-- TIME_TOD: `TIME.TOD` (R45, R207). -/
def execTimeTod (p : HostPkt) (s : State) : Host.Outcome State Fault Refusal :=
  .next (s.intakeWith (State.perform none) 0x0702 p)

/-- TIME_READ: `TIME.READ` (R207). -/
def execTimeRead (p : HostPkt) (s : State) : Host.Outcome State Fault Refusal :=
  .next (s.intakeWith (State.perform none) 0x0703 p)

/-- RTC_SET: `RTC.SET` (R71, R207). -/
def execRtcSet (p : HostPkt) (s : State) : Host.Outcome State Fault Refusal :=
  .next (s.intakeWith (State.perform none) 0x0801 p)

/-- KEY_LOAD: `KEY.LOAD` (R462) that is neither of FORM 1 nor with RECOVER. -/
def execKeyLoad (p : HostPkt) (s : State) : Host.Outcome State Fault Refusal :=
  .next (if (payloadWord p 3).bits 1 0 ≠ 1 ∧ ¬(payloadWord p 0).bit 16 then s.intakeWith (State.perform none) 0x0901 p else s)

/-- KEY_LOAD_IMAGE_KEY: `KEY.LOAD` (R465) of FORM 1. -/
def execKeyLoadImageKey (p : HostPkt) (s : State) : Host.Outcome State Fault Refusal :=
  .next (if (payloadWord p 3).bits 1 0 = 1 then s.intakeWith (State.perform none) 0x0901 p else s)

/-- KEY_LOAD_RECOVER: `KEY.LOAD` (R467) with RECOVER. -/
def execKeyLoadRecover (p : HostPkt) (s : State) : Host.Outcome State Fault Refusal :=
  .next (if (payloadWord p 3).bits 1 0 ≠ 1 ∧ (payloadWord p 0).bit 16 then s.intakeWith (State.perform none) 0x0901 p else s)

/-- KEY_ERASE: `KEY.ERASE` (R468). -/
def execKeyErase (p : HostPkt) (s : State) : Host.Outcome State Fault Refusal :=
  .next (s.intakeWith (State.perform none) 0x0902 p)

/-- KEY_ZEROISE: `KEY.ZEROISE` (R469). -/
def execKeyZeroise (p : HostPkt) (s : State) : Host.Outcome State Fault Refusal :=
  .next (s.intakeWith (State.perform none) 0x0903 p)

/-- KEY_IDENT_IDENTITY: `KEY.IDENT` (R470) with SEL 0, or with a reserved SEL. -/
def execKeyIdentIdentity (p : HostPkt) (s : State) : Host.Outcome State Fault Refusal :=
  .next (if (payloadWord p 0).bits 1 0 ≠ 1 then s.intakeWith (State.perform none) 0x0904 p else s)

/-- KEY_IDENT_STATUS: `KEY.IDENT` (R470) with SEL 1. -/
def execKeyIdentStatus (p : HostPkt) (s : State) : Host.Outcome State Fault Refusal :=
  .next (if (payloadWord p 0).bits 1 0 = 1 then s.intakeWith (State.perform none) 0x0904 p else s)

/-- LINE_ENABLE_ON: `LINE.ENABLE` (R228) with EN = 1. -/
def execLineEnableOn (p : HostPkt) (s : State) : Host.Outcome State Fault Refusal :=
  .next (if (payloadWord p 0).bit 33 then s.intakeWith (State.perform none) 0x0A01 p else s)

/-- LINE_ENABLE_OFF: `LINE.ENABLE` (R228) with EN = 0. -/
def execLineEnableOff (p : HostPkt) (s : State) : Host.Outcome State Fault Refusal :=
  .next (if ¬(payloadWord p 0).bit 33 then s.intakeWith (State.perform none) 0x0A01 p else s)

/-- LINE_RATE: `LINE.RATE` (R219, R228). -/
def execLineRate (p : HostPkt) (s : State) : Host.Outcome State Fault Refusal :=
  .next (s.intakeWith (State.perform none) 0x0A02 p)

/-- LINE_LOAD_RECOMPUTE: `LINE.LOAD` (R228) with MODE 0, or with a reserved MODE. -/
def execLineLoadRecompute (p : HostPkt) (s : State) : Host.Outcome State Fault Refusal :=
  .next (if (payloadWord p 0).bits 9 8 ≠ 1 then s.intakeWith (State.perform none) 0x0A03 p else s)

/-- LINE_LOAD_EXPLICIT: `LINE.LOAD` (R228) with MODE 1. -/
def execLineLoadExplicit (p : HostPkt) (s : State) : Host.Outcome State Fault Refusal :=
  .next (if (payloadWord p 0).bits 9 8 = 1 then s.intakeWith (State.perform none) 0x0A03 p else s)

/-- LINE_TRACE: `LINE.TRACE` (R303). -/
def execLineTrace (p : HostPkt) (s : State) : Host.Outcome State Fault Refusal :=
  .next (s.intakeWith (State.perform none) 0x0A04 p)

/-- TREE_ENABLE_ON: `TREE.ENABLE` (R349) with EN = 1. -/
def execTreeEnableOn (p : HostPkt) (s : State) : Host.Outcome State Fault Refusal :=
  .next (if (payloadWord p 0).bit 21 then s.intakeWith (State.perform none) 0x0B01 p else s)

/-- TREE_ENABLE_OFF: `TREE.ENABLE` (R349) with EN = 0. -/
def execTreeEnableOff (p : HostPkt) (s : State) : Host.Outcome State Fault Refusal :=
  .next (if ¬(payloadWord p 0).bit 21 then s.intakeWith (State.perform none) 0x0B01 p else s)

/-- TREE_REFLECT: `TREE.REFLECT` (R350). -/
def execTreeReflect (p : HostPkt) (s : State) : Host.Outcome State Fault Refusal :=
  .next (s.intakeWith (State.perform none) 0x0B02 p)

/-- TREE_DISCOVER: `TREE.DISCOVER` (R393). -/
def execTreeDiscover (p : HostPkt) (s : State) : Host.Outcome State Fault Refusal :=
  .next (s.intakeWith (State.perform none) 0x0B03 p)

/-- TREE_ACTIVATE: `TREE.ACTIVATE` (R393). -/
def execTreeActivate (p : HostPkt) (s : State) : Host.Outcome State Fault Refusal :=
  .next (s.intakeWith (State.perform none) 0x0B04 p)

/-- TREE_DEACTIVATE: `TREE.DEACTIVATE` (R393). -/
def execTreeDeactivate (p : HostPkt) (s : State) : Host.Outcome State Fault Refusal :=
  .next (s.intakeWith (State.perform none) 0x0B05 p)

/-- MON_INJECT: `MON.INJECT` (R511). -/
def execMonInject (p : HostPkt) (s : State) : Host.Outcome State Fault Refusal :=
  .next (s.intakeWith (State.perform none) 0x0C01 p)

/-- MON_SEQ: `MON.SEQ` (R512). -/
def execMonSeq (p : HostPkt) (s : State) : Host.Outcome State Fault Refusal :=
  .next (s.intakeWith (State.perform none) 0x0C02 p)

/-- CAL_START: `CAL.START` (R513). -/
def execCalStart (p : HostPkt) (s : State) : Host.Outcome State Fault Refusal :=
  .next (s.intakeWith (State.perform none) 0x0D01 p)

/-- CNT_READ: `CNT.READ` (R569). -/
def execCntRead (p : HostPkt) (s : State) : Host.Outcome State Fault Refusal :=
  .next (s.intakeWith (State.perform none) 0x0E01 p)

/-- EVT_CFG_CODE: `EVT.CFG` (R570) with OP 0, or with a reserved OP. (DEDUCED, log entry 62.) -/
def execEvtCfgCode (p : HostPkt) (s : State) : Host.Outcome State Fault Refusal :=
  .next (if (payloadWord p 0).bits 35 33 = 0 ∨ 3 < (payloadWord p 0).bits 35 33 then s.intakeWith (State.perform none) 0x0E02 p else s)

/-- EVT_CFG_RATE: `EVT.CFG` (R570) with OP 1. -/
def execEvtCfgRate (p : HostPkt) (s : State) : Host.Outcome State Fault Refusal :=
  .next (if (payloadWord p 0).bits 35 33 = 1 then s.intakeWith (State.perform none) 0x0E02 p else s)

/-- EVT_CFG_STREAM: `EVT.CFG` (R561, R570) with OP 2. -/
def execEvtCfgStream (p : HostPkt) (s : State) : Host.Outcome State Fault Refusal :=
  .next (if (payloadWord p 0).bits 35 33 = 2 then s.intakeWith (State.perform none) 0x0E02 p else s)

/-- EVT_CFG_READ: `EVT.CFG` (R554, R570) with OP 3. -/
def execEvtCfgRead (p : HostPkt) (s : State) : Host.Outcome State Fault Refusal :=
  .next (if (payloadWord p 0).bits 35 33 = 3 then s.intakeWith (State.perform none) 0x0E02 p else s)

/-- FWD_BIND: `FWD.BIND` (R434). -/
def execFwdBind (p : HostPkt) (s : State) : Host.Outcome State Fault Refusal :=
  .next (s.intakeWith (State.perform none) 0x0F01 p)

/-- FWD_UNBIND: `FWD.UNBIND` (R435). -/
def execFwdUnbind (p : HostPkt) (s : State) : Host.Outcome State Fault Refusal :=
  .next (s.intakeWith (State.perform none) 0x0F02 p)

/-- QUE_SET_QUEUE: `QUE.SET` (R436) with OP 0, or with a reserved OP. (DEDUCED, log entry 62.) -/
def execQueSetQueue (p : HostPkt) (s : State) : Host.Outcome State Fault Refusal :=
  .next (if (payloadWord p 0).bits 35 33 = 0 ∨ 3 < (payloadWord p 0).bits 35 33 then s.intakeWith (State.perform none) 0x0F03 p else s)

/-- QUE_SET_SHAPER: `QUE.SET` (R436) with OP 1. -/
def execQueSetShaper (p : HostPkt) (s : State) : Host.Outcome State Fault Refusal :=
  .next (if (payloadWord p 0).bits 35 33 = 1 then s.intakeWith (State.perform none) 0x0F03 p else s)

/-- QUE_SET_PAGE_LIMIT: `QUE.SET` (R436) with OP 2. -/
def execQueSetPageLimit (p : HostPkt) (s : State) : Host.Outcome State Fault Refusal :=
  .next (if (payloadWord p 0).bits 35 33 = 2 then s.intakeWith (State.perform none) 0x0F03 p else s)

/-- QUE_SET_SAMPLE: `QUE.SET` (R425, R426, R436) with OP 3. -/
def execQueSetSample (p : HostPkt) (s : State) : Host.Outcome State Fault Refusal :=
  .next (if (payloadWord p 0).bits 35 33 = 3 then s.intakeWith (State.perform none) 0x0F03 p else s)

/-- UNLISTED_OPCODE_COMMAND (R202). -/
def execUnlistedOpcodeCommand (opcode : BitVec 16) (p : HostPkt) (s : State) : Host.Outcome State Fault Refusal :=
  .next (
    if (findSpec cmdTable opcode.toNat).isNone then s.intakeWith (State.perform none) opcode.toNat p else s)

/-- COMMAND_START (R189, R190): `bursts` are the engine bursts in progress that the command's own effect cuts (R108). (DEDUCED, log entry 61.) -/
def execCommandStart (bursts : List Burst) (s : State) : Host.Outcome State Fault Refusal :=
  .next (
    if !s.svcLive then s
    else match s.pick with
      | some c => State.perform (some bursts) c (s.markStarted c)
      | none => s)

end Sys2Proof.Machine
end

