-- ==== Sys2Proof/Machine/Flags.lean ====
section
/-! DEFINITION. The flags of the Hergil instructions and the ALU operations with the flags they give (R129–R131). -/

namespace Sys2Proof.Machine

/-- N, Z, C and V (R129). -/
structure Flags where
  n : Bool
  z : Bool
  c : Bool
  v : Bool
  deriving DecidableEq, Repr

/-- The flags of a core. -/
def CoreSt.flags (c : CoreSt) : Flags := ⟨c.nf, c.zf, c.cf, c.vf⟩

/-- The core with its flags and their poison bit written. -/
def CoreSt.setFlags (c : CoreSt) (f : Flags) (p : Bool) : CoreSt :=
  { c with nf := f.n, zf := f.z, cf := f.c, vf := f.v, fp := p }

/-- The flags of a result with the C and V that its operation states (R129). (DEDUCED, log entry 41.) -/
def resultFlags (r : Word) (c v : Bool) : Flags := ⟨r.msb, r == 0, c, v⟩

/-- Flags as `rdf` reads them: bits 3–0 N, Z, C, V (R129). -/
def Flags.word (f : Flags) : Word := Sys2Proof.word (b2n f.n * 8 + b2n f.z * 4 + b2n f.c * 2 + b2n f.v)

/-- The flags in bits 3–0 of a word. -/
def flagsOfWord (w : Word) : Flags := ⟨w.bit 3, w.bit 2, w.bit 1, w.bit 0⟩

/-- An ALU operation: its operands and C give the result and the flags. -/
abbrev AluOp := Word → Word → Bool → Word × Flags

/-- s + t + carry: C is the carry out of bit 35, V signed overflow (R130). -/
def addCarry (s t : Word) (c : Bool) : Word × Flags :=
  let r := s + t + word (b2n c)
  (r, resultFlags r (decide (2 ^ 36 ≤ s.toNat + t.toNat + b2n c)) (decide (r.toInt ≠ s.toInt + t.toInt + b2n c)))

/-- s − t − borrow: C is 1 when no borrow occurs, V signed overflow (R130). -/
def subBorrow (s t : Word) (b : Bool) : Word × Flags :=
  let r := s - t - word (b2n b)
  (r, resultFlags r (decide (t.toNat + b2n b ≤ s.toNat)) (decide (r.toInt ≠ s.toInt - t.toInt - b2n b)))

/-- A result with C = V = 0. -/
def plain (r : Word) : Word × Flags := (r, resultFlags r false false)

def aluAdd : AluOp := fun s t _ => addCarry s t false
def aluSub : AluOp := fun s t _ => subBorrow s t false
def aluAdc : AluOp := fun s t c => addCarry s t c
def aluSbc : AluOp := fun s t c => subBorrow s t !c
def aluAnd : AluOp := fun s t _ => plain (s &&& t)
def aluOr : AluOp := fun s t _ => plain (s ||| t)
def aluXor : AluOp := fun s t _ => plain (s ^^^ t)
def aluAndn : AluOp := fun s t _ => plain (s &&& ~~~t)

/-- A shift amount: bits 5–0 of t (R130). -/
def amount (t : Word) : Nat := t.bits 5 0

/-- Left shift; C is the last bit shifted out, 0 for amount 0 (R130). -/
def aluShl : AluOp := fun s t _ =>
  let k := amount t
  let r := s <<< k
  (r, resultFlags r (decide (0 < k) && decide (k ≤ 36) && s.getLsbD (36 - k)) false)

/-- Logical right shift (R130). -/
def aluShr : AluOp := fun s t _ =>
  let k := amount t
  let r := s >>> k
  (r, resultFlags r (decide (0 < k) && s.getLsbD (k - 1)) false)

/-- Arithmetic right shift; past the width every bit shifted out is bit 35 (R130). -/
def aluSar : AluOp := fun s t _ =>
  let k := amount t
  let r := s.sshiftRight k
  (r, resultFlags r (decide (0 < k) && (if k ≤ 36 then s.getLsbD (k - 1) else s.msb)) false)

/-- Left rotation by the amount mod 36 (R130). -/
def aluRol : AluOp := fun s t _ => plain (s.rotateLeft (amount t % 36))

def aluMul : AluOp := fun s t _ => plain (s * t)
def aluMulhu : AluOp := fun s t _ => plain (word (s.toNat * t.toNat / 2 ^ 36))
def aluMulhs : AluOp := fun s t _ => plain (BitVec.ofInt 36 (s.toInt * t.toInt / 2 ^ 36))
def aluMin : AluOp := fun s t _ => plain (if s.toInt ≤ t.toInt then s else t)
def aluMinu : AluOp := fun s t _ => plain (if s.toNat ≤ t.toNat then s else t)
def aluMax : AluOp := fun s t _ => plain (if s.toInt ≤ t.toInt then t else s)
def aluMaxu : AluOp := fun s t _ => plain (if s.toNat ≤ t.toNat then t else s)

/-- `mov`: the result is s (R130). -/
def aluMov : AluOp := fun s _ _ => plain s

/-- `bfx`: a field of `width` bits of s shifted right by bits 5–0 of t (R130). -/
def aluBfx (width : Nat) : AluOp := fun s t _ => plain ((s >>> amount t) &&& word (2 ^ width - 1))

/-- The number of 1 bits among the lowest `k`. -/
def onesBelow (s : Word) : Nat → Nat
  | 0 => 0
  | k + 1 => onesBelow s k + b2n (s.getLsbD k)

/-- The number of leading zero bits among the lowest `k`. -/
def zerosAbove (s : Word) : Nat → Nat
  | 0 => 0
  | k + 1 => if s.getLsbD k then 0 else zerosAbove s k + 1

def aluPop : AluOp := fun s _ _ => plain (word (onesBelow s 36))
def aluClz : AluOp := fun s _ _ => plain (word (zerosAbove s 36))

/-- `lui`: the immediate shifted left 18, C = V = 0 (R128). (DEDUCED, log entry 41.) -/
def aluLui : AluOp := fun _ t _ => plain (t <<< 18)

/-- Whether a condition on F holds (R131); the conditions on a register are false here. -/
def Flags.holds (f : Flags) : Cond → Bool
  | .al => true
  | .eq => f.z
  | .ne => !f.z
  | .lt => f.n != f.v
  | .ge => f.n == f.v
  | .gt => !f.z && f.n == f.v
  | .le => f.z || f.n != f.v
  | .ltu => !f.c
  | .geu => f.c
  | .gtu => f.c && !f.z
  | .leu => !f.c || f.z
  | .mi => f.n
  | .pl => !f.n
  | .vs => f.v
  | .vc => !f.v
  | .rz _ | .rnz _ | .rneg _ | .rpos _ => false

/-- The register of a condition that reads one, with what it asks of it (R131). -/
def condReg : Cond → Option (HReg × (Word → Bool))
  | .rz r => some (r, fun w => w == 0)
  | .rnz r => some (r, fun w => w != 0)
  | .rneg r => some (r, fun w => w.msb)
  | .rpos r => some (r, fun w => !w.msb)
  | _ => none

end Sys2Proof.Machine
end

