-- ==== Sys2Proof/Machine/HergilCode.lean ====
section
/-! DEFINITION. The words of the Hergil instructions (R123–R131, R133–R160): decoding, total on any word and rejecting
every word that R126 calls illegal, and an encoder from the same tables. -/

namespace Sys2Proof.Machine

/-! ### Fields (R123–R125) -/

/-- A G-format or X-format word from its six fields. -/
def packG (op d s t fn sh : Nat) : Word :=
  word (op * 2 ^ 30 + d * 2 ^ 24 + s * 2 ^ 18 + t * 2 ^ 12 + fn * 2 ^ 6 + sh)

/-- An I-format or B-format word: op, d or cond, s, and an 18-bit field. -/
def packI (op d s x : Nat) : Word := word (op * 2 ^ 30 + d * 2 ^ 24 + s * 2 ^ 18 + x)

/-- A J-format word. -/
def packJ (op d disp : Nat) : Word := word (op * 2 ^ 30 + d * 2 ^ 24 + disp)

/-- The register that a field names; none for a reserved number (R124). -/
def hreg (x : Nat) : Option HReg := if h : x < 24 then some ⟨x, h⟩ else none

/-- The pair that a field names; none for an odd or a reserved number (R125). -/
def hpair (x : Nat) : Option HPair := if h : x / 2 < 11 then (if x % 2 = 0 then some ⟨x / 2, h⟩ else none) else none

/-- The number of a pair. -/
def pairNum (p : HPair) : Nat := 2 * p.val

/-- A value under a condition. -/
def givenThat {α : Type} (c : Prop) [Decidable c] (x : Option α) : Option α := if c then x else none

/-- A tag from a six-bit field. -/
def tagOf (x : Nat) : Fin 64 := ⟨x % 64, Nat.mod_lt _ (by decide)⟩

/-! ### The ALU (R130) -/

/-- An operation of opcodes 01 and 11 that takes d, s and t and has sh zero. -/
def codeThree (n fn : Nat) (d a : HReg) (t : Src) : Option Instr :=
  match fn with
  | 0o00 => some (.add n d a t)
  | 0o01 => some (.sub n d a t)
  | 0o02 => some (.adc n d a t)
  | 0o03 => some (.sbc n d a t)
  | 0o04 => some (.and n d a t)
  | 0o05 => some (.or n d a t)
  | 0o06 => some (.xor n d a t)
  | 0o07 => some (.andn n d a t)
  | 0o10 => some (.shl n d a t)
  | 0o11 => some (.shr n d a t)
  | 0o12 => some (.sar n d a t)
  | 0o13 => some (.rol n d a t)
  | 0o20 => some (.mul n d a t)
  | 0o21 => some (.mulhu n d a t)
  | 0o22 => some (.mulhs n d a t)
  | 0o23 => some (.min n d a t)
  | 0o24 => some (.minu n d a t)
  | 0o25 => some (.max n d a t)
  | 0o26 => some (.maxu n d a t)
  | 0o30 => givenThat (d.val = 0) (some (.cmp n a t))
  | 0o31 => givenThat (d.val = 0) (some (.tst n a t))
  | _ => none

/-- An operation that takes d and s alone; `x` for its form of opcode 11. -/
def codeTwo (n fn : Nat) (d a : HReg) (x : Bool) : Option Instr :=
  match fn with
  | 0o32 => some (.mov n d a x)
  | 0o36 => some (.pop n d a x)
  | 0o37 => some (.clz n d a x)
  | _ => none

/-- A shift of opcode 01 with its amount in sh. -/
def codeShift (n fn : Nat) (d a : HReg) (sh : Fin 64) : Option Instr :=
  match fn with
  | 0o14 => some (.shli n d a sh)
  | 0o15 => some (.shri n d a sh)
  | 0o16 => some (.sari n d a sh)
  | 0o17 => some (.roli n d a sh)
  | _ => none

/-- `bfx` with its width in sh: 1–36. -/
def codeBfx (n : Nat) (d a : HReg) (t : Src) (sh : Nat) : Option Instr :=
  if h : sh - 1 < 36 then (if sh = 0 then none else some (.bfx n d a t ⟨sh - 1, h⟩)) else none

/-- Opcodes 01 and 11: `t` is the operand, `tz` that the field or word of an operation without t is zero. -/
def codeAlu (n fn : Nat) (d a : HReg) (t : Src) (tz x : Bool) (sh : Nat) : Option Instr :=
  if fn = 0o33 then codeBfx n d a t sh
  else if 0o14 ≤ fn ∧ fn < 0o20 then givenThat (tz = true ∧ x = false) (codeShift n fn d a (tagOf sh))
  else if fn = 0o32 ∨ fn = 0o36 ∨ fn = 0o37 then givenThat (tz = true ∧ sh = 0) (codeTwo n fn d a x)
  else givenThat (sh = 0) (codeThree n fn d a t)

/-! ### Branch conditions (R131) -/

/-- The condition of a cond field on F. -/
def condF : Nat → Option Cond
  | 0o00 => some .al
  | 0o01 => some .eq
  | 0o02 => some .ne
  | 0o03 => some .lt
  | 0o04 => some .ge
  | 0o05 => some .gt
  | 0o06 => some .le
  | 0o10 => some .ltu
  | 0o11 => some .geu
  | 0o12 => some .gtu
  | 0o13 => some .leu
  | 0o14 => some .mi
  | 0o15 => some .pl
  | 0o16 => some .vs
  | 0o17 => some .vc
  | _ => none

/-- The condition of a cond field on register s. -/
def condR (c : Nat) (r : HReg) : Option Cond :=
  match c with
  | 0o20 => some (.rz r)
  | 0o21 => some (.rnz r)
  | 0o22 => some (.rneg r)
  | 0o23 => some (.rpos r)
  | _ => none

/-- The condition of cond and s. (DEDUCED, log entry 39.) -/
def condOf (c : Nat) (r : HReg) : Option Cond := if c < 0o20 then givenThat (r.val = 0) (condF c) else condR c r

/-- The cond field and the s field of a condition. -/
def condCode : Cond → Nat × Nat
  | .al => (0o00, 0)
  | .eq => (0o01, 0)
  | .ne => (0o02, 0)
  | .lt => (0o03, 0)
  | .ge => (0o04, 0)
  | .gt => (0o05, 0)
  | .le => (0o06, 0)
  | .ltu => (0o10, 0)
  | .geu => (0o11, 0)
  | .gtu => (0o12, 0)
  | .leu => (0o13, 0)
  | .mi => (0o14, 0)
  | .pl => (0o15, 0)
  | .vs => (0o16, 0)
  | .vc => (0o17, 0)
  | .rz r => (0o20, r.val)
  | .rnz r => (0o21, r.val)
  | .rneg r => (0o22, r.val)
  | .rpos r => (0o23, r.val)

/-! ### Decoding -/

/-- The base, mode, lanes and displacement of an M-format word; md 3 is reserved (R132). -/
def memArgs (w : Word) : Option MemArgs :=
  (hreg (w.bits 23 18)).bind fun b =>
    if h : w.bits 13 12 < 3 then
      some ⟨b, ⟨w.bits 13 12, h⟩, BitVec.ofNat 4 (w.bits 17 14), BitVec.ofNat 12 (w.bits 11 0)⟩
    else none

/-- Opcodes 20–25 (R132–R137). (DEDUCED, log entry 39.) -/
def decodeM (n : Nat) (w : Word) : Option Instr :=
  (memArgs w).bind fun m =>
    match w.bits 35 30 with
    | 0o20 => givenThat (m.le ≠ 0) ((hreg (w.bits 29 24)).map fun d => .ld n d m)
    | 0o21 => (hreg (w.bits 29 24)).map fun d => .st n d m
    | 0o22 => givenThat (m.le ≠ 0) ((hpair (w.bits 29 24)).map fun d => .ldp n d m)
    | 0o23 => (hpair (w.bits 29 24)).map fun d => .stp n d m
    | 0o24 => givenThat (m.le = 15) ((hreg (w.bits 29 24)).map fun d => .aadd n d m)
    | 0o25 => givenThat (m.le = 15) ((hreg (w.bits 29 24)).map fun d => .aswp n d m)
    | _ => none

/-- Opcodes 40 and 43, and `issue` and the completion instructions: position and engine instructions (R139–R150). -/
def decodePos (n : Nat) (w : Word) (s t : HReg) : Option Instr :=
  let d := w.bits 29 24
  let fn := w.bits 11 6
  let sh := w.bits 5 0
  match w.bits 35 30 with
  | 0o40 =>
    if fn = 0 then (hreg d).bind fun d => (hpair s.val).map fun p => .atArm n d p t
    else givenThat (fn = 1) ((hreg d).map fun d => .atcan n d s)
  | 0o41 => givenThat (fn = 0) ((hreg d).bind fun _ => (hpair s.val).map fun p => .waitp n p)
  | 0o42 => givenThat (fn = 0) ((hpair d).map fun d => .rdlp n d)
  | 0o43 => givenThat (fn = 0) ((hpair d).bind fun d => (hpair s.val).map fun p => .lpadd n d p t)
  | 0o44 =>
    givenThat (d = 0)
      (if fn = 0 then givenThat (t.val = 0) (some (.issue n s (.field (tagOf sh)) false))
       else givenThat (fn = 1 ∧ sh = 0) (some (.issue n s (.reg t) false)))
  | 0o45 =>
    (hpair d).bind fun d =>
      if fn = 0 then givenThat (t.val = 0) (some (.waitt n d (.field (tagOf sh)) false))
      else if fn = 1 then givenThat (sh = 0) (some (.waitt n d (.reg t) false))
      else givenThat (s.val = 0 ∧ t.val = 0 ∧ sh = 0)
        (if fn = 2 then some (.waita n d false) else givenThat (fn = 3) (some (.cpop n d false)))
  | _ => none

/-- Opcode 50 (R160). (DEDUCED, log entry 39.) -/
def decodeSys (n : Nat) (fn : Nat) (d s : HReg) : Option Instr :=
  let none_ := fun (i : Instr) => givenThat (d.val = 0 ∧ s.val = 0) (some i)
  let onlyD := fun (i : Instr) => givenThat (s.val = 0) (some i)
  let onlyS := fun (i : Instr) => givenThat (d.val = 0) (some i)
  match fn with
  | 0o00 => none_ (.nop n)
  | 0o01 => none_ (.halt n)
  | 0o02 => none_ (.brk n)
  | 0o03 => none_ (.fence n)
  | 0o04 => onlyD (.rdf n d)
  | 0o05 => onlyS (.wrf n s)
  | 0o06 => onlyS (.pchk n s)
  | 0o07 => some (.pclr n d s)
  | 0o10 => onlyS (.smark n s)
  | 0o11 => onlyD (.rdcyc n d)
  | _ => none

/-- Opcodes 02–07 (R128). -/
def decodeI (n : Nat) (w : Word) (d s : HReg) : Option Instr :=
  let imm := BitVec.ofNat 18 (w.bits 17 0)
  match w.bits 35 30 with
  | 0o02 => some (.addi n d s imm)
  | 0o03 => some (.andi n d s imm)
  | 0o04 => some (.ori n d s imm)
  | 0o05 => some (.xori n d s imm)
  | 0o06 => givenThat (d.val = 0) (some (.cmpi n s imm))
  | 0o07 => givenThat (s.val = 0) (some (.lui n d imm))
  | _ => none

/-- Opcodes 10 and 11 with their immediate word (R127, R128, R130). (DEDUCED, log entry 39.) -/
def decodeX (n : Nat) (w imm : Word) (d s : HReg) : Option Instr :=
  let fn := w.bits 11 6
  let sh := w.bits 5 0
  givenThat (w.bits 17 12 = 0)
    (if w.bits 35 30 = 0o10 then givenThat (s.val = 0 ∧ fn = 0 ∧ sh = 0) (some (.li n d imm))
     else codeAlu n fn d s (.imm imm) (imm = 0) true sh)

/-- Opcodes 30–34 (R128, R131, R138). -/
def decodeB (n : Nat) (w : Word) : Option Instr :=
  let d := w.bits 29 24
  let s := w.bits 23 18
  match w.bits 35 30 with
  | 0o30 => (hreg s).bind fun r => (condOf d r).map fun c => .br n c (BitVec.ofNat 18 (w.bits 17 0))
  | 0o31 => givenThat (d = 0) (some (.jmp n (BitVec.ofNat 24 (w.bits 23 0))))
  | 0o32 => (hreg d).map fun d => .call n d (BitVec.ofNat 24 (w.bits 23 0))
  | 0o33 => givenThat (w.bits 17 0 = 0) ((hreg d).bind fun d => (hreg s).map fun s => .jr n d s)
  | 0o34 => givenThat (d = 0) ((hreg s).map fun s => .bdec n s (BitVec.ofNat 18 (w.bits 17 0)))
  | _ => none

/-- Whether a word is followed by an immediate word (R127). -/
def isX (w : Word) : Bool := w.bits 35 30 = 0o10 || w.bits 35 30 = 0o11

/-- The instruction of core `n` that a word spells, with its immediate word where it has one; none when R126 calls the
word illegal. (DEDUCED, log entries 10 and 39.) -/
def decodeHergil (n : Nat) (w imm : Word) : Option Instr :=
  let op := w.bits 35 30
  if 0o20 ≤ op ∧ op < 0o30 then decodeM n w
  else if 0o30 ≤ op ∧ op < 0o40 then decodeB n w
  else if op = 0o42 ∨ op = 0o43 ∨ op = 0o45 ∨ op = 0o40 ∨ op = 0o41 ∨ op = 0o44 then
    (hreg (w.bits 23 18)).bind fun s => (hreg (w.bits 17 12)).bind fun t => decodePos n w s t
  else
    (hreg (w.bits 29 24)).bind fun d => (hreg (w.bits 23 18)).bind fun s =>
      if 0o02 ≤ op ∧ op < 0o10 then decodeI n w d s
      else if isX w then decodeX n w imm d s
      else if op = 0o01 then
        (hreg (w.bits 17 12)).bind fun t => codeAlu n (w.bits 11 6) d s (.reg t) (t.val = 0) false (w.bits 5 0)
      else if op = 0o50 then givenThat (w.bits 17 12 = 0 ∧ w.bits 5 0 = 0) (decodeSys n (w.bits 11 6) d s)
      else none

/-! ### Encoding -/

/-- The words of an ALU operation with a second operand (R123, R130). -/
def encAlu (fn : Nat) (d a : HReg) (t : Src) (sh : Nat) : List Word :=
  match t with
  | .reg t => [packG 0o01 d a t fn sh]
  | .imm x => [packG 0o11 d a 0 fn sh, x]

/-- The words of an ALU operation with no second operand. -/
def encTwo (fn : Nat) (d a : HReg) (x : Bool) : List Word :=
  if x then [packG 0o11 d a 0 fn 0, 0] else [packG 0o01 d a 0 fn 0]

/-- The word of an M-format instruction. -/
def encMem (op d : Nat) (m : MemArgs) : List Word :=
  [packI op d m.b (m.le.toNat * 2 ^ 14 + m.md.val * 2 ^ 12 + m.disp.toNat)]

/-- The word of an instruction that takes a tag: `g` the fields op, d, s and the fn of the field form. -/
def encTag (op d s : Nat) : TagSrc → List Word
  | .field tag => [packG op d s 0 0 tag]
  | .reg t => [packG op d s t 1 0]

/-- The words of a Hergil instruction; none for the other commands. -/
def encodeHergil : Instr → Option (List Word)
  | .add _ d a t => some (encAlu 0o00 d a t 0)
  | .sub _ d a t => some (encAlu 0o01 d a t 0)
  | .adc _ d a t => some (encAlu 0o02 d a t 0)
  | .sbc _ d a t => some (encAlu 0o03 d a t 0)
  | .and _ d a t => some (encAlu 0o04 d a t 0)
  | .or _ d a t => some (encAlu 0o05 d a t 0)
  | .xor _ d a t => some (encAlu 0o06 d a t 0)
  | .andn _ d a t => some (encAlu 0o07 d a t 0)
  | .shl _ d a t => some (encAlu 0o10 d a t 0)
  | .shr _ d a t => some (encAlu 0o11 d a t 0)
  | .sar _ d a t => some (encAlu 0o12 d a t 0)
  | .rol _ d a t => some (encAlu 0o13 d a t 0)
  | .shli _ d a sh => some [packG 0o01 d a 0 0o14 sh]
  | .shri _ d a sh => some [packG 0o01 d a 0 0o15 sh]
  | .sari _ d a sh => some [packG 0o01 d a 0 0o16 sh]
  | .roli _ d a sh => some [packG 0o01 d a 0 0o17 sh]
  | .mul _ d a t => some (encAlu 0o20 d a t 0)
  | .mulhu _ d a t => some (encAlu 0o21 d a t 0)
  | .mulhs _ d a t => some (encAlu 0o22 d a t 0)
  | .min _ d a t => some (encAlu 0o23 d a t 0)
  | .minu _ d a t => some (encAlu 0o24 d a t 0)
  | .max _ d a t => some (encAlu 0o25 d a t 0)
  | .maxu _ d a t => some (encAlu 0o26 d a t 0)
  | .cmp _ a t => some (encAlu 0o30 0 a t 0)
  | .tst _ a t => some (encAlu 0o31 0 a t 0)
  | .mov _ d a x => some (encTwo 0o32 d a x)
  | .bfx _ d a t w => some (encAlu 0o33 d a t (w.val + 1))
  | .pop _ d a x => some (encTwo 0o36 d a x)
  | .clz _ d a x => some (encTwo 0o37 d a x)
  | .addi _ d a i => some [packI 0o02 d a i.toNat]
  | .andi _ d a i => some [packI 0o03 d a i.toNat]
  | .ori _ d a i => some [packI 0o04 d a i.toNat]
  | .xori _ d a i => some [packI 0o05 d a i.toNat]
  | .cmpi _ a i => some [packI 0o06 0 a i.toNat]
  | .lui _ d i => some [packI 0o07 d 0 i.toNat]
  | .li _ d i => some [packG 0o10 d 0 0 0 0, i]
  | .ld _ d m => some (encMem 0o20 d m)
  | .st _ d m => some (encMem 0o21 d m)
  | .ldp _ d m => some (encMem 0o22 (pairNum d) m)
  | .stp _ d m => some (encMem 0o23 (pairNum d) m)
  | .aadd _ d m => some (encMem 0o24 d m)
  | .aswp _ d m => some (encMem 0o25 d m)
  | .br _ c x => some [packI 0o30 (condCode c).1 (condCode c).2 x.toNat]
  | .jmp _ x => some [packJ 0o31 0 x.toNat]
  | .call _ d x => some [packJ 0o32 d x.toNat]
  | .jr _ d a => some [packG 0o33 d a 0 0 0]
  | .bdec _ a x => some [packI 0o34 0 a x.toNat]
  | .atArm _ d p t => some [packG 0o40 d (pairNum p) t 0 0]
  | .atcan _ d a => some [packG 0o40 d a 0 1 0]
  | .waitp _ p => some [packG 0o41 0 (pairNum p) 0 0 0]
  | .rdlp _ d => some [packG 0o42 (pairNum d) 0 0 0 0]
  | .lpadd _ d p t => some [packG 0o43 (pairNum d) (pairNum p) t 0 0]
  | .issue _ a tag _ => some (encTag 0o44 0 a tag)
  | .waitt _ d tag _ => some (encTag 0o45 (pairNum d) 0 tag)
  | .waita _ d _ => some [packG 0o45 (pairNum d) 0 0 2 0]
  | .cpop _ d _ => some [packG 0o45 (pairNum d) 0 0 3 0]
  | .nop _ => some [packG 0o50 0 0 0 0o00 0]
  | .halt _ => some [packG 0o50 0 0 0 0o01 0]
  | .brk _ => some [packG 0o50 0 0 0 0o02 0]
  | .fence _ => some [packG 0o50 0 0 0 0o03 0]
  | .rdf _ d => some [packG 0o50 d 0 0 0o04 0]
  | .wrf _ a => some [packG 0o50 0 a 0 0o05 0]
  | .pchk _ a => some [packG 0o50 0 a 0 0o06 0]
  | .pclr _ d a => some [packG 0o50 d a 0 0o07 0]
  | .smark _ a => some [packG 0o50 0 a 0 0o10 0]
  | .rdcyc _ d => some [packG 0o50 d 0 0 0o11 0]
  | _ => none

end Sys2Proof.Machine
end

