-- ==== Sys2Proof/Machine/Operands.lean ====
section
/-! DEFINITION. Registers, operands and addresses of the Hergil instructions (R77, R78, R125, R130, R132, R138). -/

namespace Sys2Proof.Machine

/-- The value of register `r` with its poison; `g0` reads as a clean zero (R77). -/
def CoreSt.reg (c : CoreSt) (r : Nat) : PWord := if r = 0 then PWord.zero else sget (fun _ => PWord.zero) c.regs r

/-- The core with register `r` written; a write of `g0` is discarded (R77). -/
def CoreSt.setReg (c : CoreSt) (r : Nat) (v : PWord) : CoreSt :=
  if r = 0 then c else { c with regs := sput (fun _ => PWord.zero) c.regs r v }

/-- The second operand of an ALU operation: a register, or the immediate word, which is clean (R130). -/
def CoreSt.src (c : CoreSt) : Src → PWord
  | .reg t => c.reg t
  | .imm w => ⟨w, false⟩

/-- The first and the second register of a pair (R125). -/
def pairLo (p : HPair) : Nat := 2 * p.val
def pairHi (p : HPair) : Nat := 2 * p.val + 1

/-- The core with a pair written; a pair that starts at `g0` discards its first word (R125). -/
def CoreSt.setPair (c : CoreSt) (p : HPair) (x y : PWord) : CoreSt := (c.setReg (pairLo p) x).setReg (pairHi p) y

/-- An immediate or a displacement of `k` bits, sign-extended to a word (R127). -/
def sextW {k : Nat} (x : BitVec k) : Word := x.signExtend 36

/-- An immediate of 18 bits, zero-extended to a word. -/
def zextW (x : BitVec 18) : Word := x.zeroExtend 36

/-- The address of an M-format instruction with size step `k` and base value `b` (R132). -/
def memAddr (m : MemArgs) (k : Nat) (b : Word) : Word := (if m.md.val = 2 then b - word k else b) + sextW m.disp

/-- The base after an M-format instruction with size step `k` (R132). -/
def memBase (m : MemArgs) (k : Nat) (b : Word) : Word :=
  if m.md.val = 1 then b + word k else if m.md.val = 2 then b - word k else b

/-- The lane enables of an M-format instruction. -/
def memLanes (m : MemArgs) : Nat := m.le.toNat

/-- A branch target relative to the branch itself, as a 30-bit address (R127, R128). -/
def relTarget {k : Nat} (pc : Nat) (disp : BitVec k) : Nat := (((pc : Int) + disp.toInt) % 2 ^ 30).toNat

/-- The tag a tag operand names (R147, R150). -/
def CoreSt.tag (c : CoreSt) : TagSrc → Nat
  | .field t => t.val
  | .reg t => (c.reg t).v.bits 5 0

/-- Whether a tag operand is poisoned. -/
def CoreSt.tagPoison (c : CoreSt) : TagSrc → Bool
  | .field _ => false
  | .reg t => (c.reg t).p

end Sys2Proof.Machine
end

