-- ==== Sys2Proof/Machine/Hergil.lean ====
section
/-! DEFINITION. How a Hergil core runs an instruction: fetch, the end of an instruction, exceptions, and waiting
(R101, R119, R127, R138, R161–R163). -/

namespace Sys2Proof.Machine

open Ev Reg

/-! ### Exceptions (R162) -/

/-- Exception codes. -/
def xIllegal : Nat := 1
def xAddr : Nat := 2
def xAlign : Nat := 3
def xPoison : Nat := 4
def xFetchPoison : Nat := 5
def xLpBad : Nat := 6
def xTagBusy : Nat := 7
def xResVal : Nat := 8
def xAtFull : Nat := 9
def xBreak : Nat := 10

/-- An exception: code and PC recorded, the core FAULTED, `CORE_FAULT` raised (R119, R162). (DEDUCED, log entry 40.) -/
def State.raiseExc (s : State) (n pc code : Nat) : State :=
  let s := s.setCore n { s.core n with pc := pc, wait := none, waitDesc := [], haltReq := false }
  ((s.wr CORE_STAT_FAULT code n).wr CORE_STAT_STATE cFaulted n).occur CORE_FAULT n [n, code, pc]

/-! ### How an instruction goes (R135, R136, R147, R150) -/

/-- What running an instruction came to. -/
inductive Run
  /-- completed: the next address and the effective address of its sampling record (R161) -/
  | done (s : State) (next ea : Nat)
  /-- completed, with a mark record carrying `v` (R160 `smark`) -/
  | marked (s : State) (next : Nat) (v : PWord)
  /-- an exception -/
  | trap (s : State) (code : Nat)
  /-- the core waits at the instruction -/
  | stay (s : State)
  /-- its access to a place is held back -/
  | held (s : State) (p : Place)

/-- The core goes on after an instruction at `pc`: its sampling record, the next address, and the stop that HALT asked
for (R119, R161, R164); a target beyond 30 bits raises ADDR at its fetch (R138). -/
def State.retire (s : State) (n pc : Nat) (iw : Word) (next ea : Nat) : State :=
  let s := s.sampleInstr n pc iw ea
  let c := s.core n
  let s := s.setCore n { c with pc := next % 2 ^ 30, wait := none, waitDesc := [], haltReq := false }
  if 2 ^ 30 ≤ next then s.raiseExc n (next % 2 ^ 30) xAddr
  else if c.haltReq then s.wr CORE_STAT_STATE cHalted n
  else s

/-- The core waits at its instruction `i` of word `iw`. -/
def State.waitAt (s : State) (n : Nat) (i : Instr) (iw : Word) : State :=
  s.setCore n { s.core n with wait := some i, waitWord := iw }

/-- The end of what the instruction `i` of word `iw` at the PC of core `n` came to. -/
def State.settle (s : State) (n : Nat) (i : Instr) (iw : Word) : Run → State
  | .done s' next ea => s'.retire n (s.core n).pc iw next ea
  | .marked s' next v => (s'.retire n (s.core n).pc iw next 0).sampleRec n 2 (s.core n).pc iw 0 0 v
  | .trap s' code => s'.raiseExc n (s.core n).pc code
  | .stay s' => s'.waitAt n i iw
  | .held s' p => (s'.request n .core p none).waitAt n i iw

/-! ### Fetch (R127) -/

/-- What an instruction fetch finds. -/
inductive Fetched
  /-- the word's row is being moved; the fetch waits -/
  | stall
  /-- an exception of the fetch -/
  | bad (s : State) (code : Nat)
  /-- a word that R126 calls illegal -/
  | illegal (s : State)
  | instr (s : State) (i : Instr) (iw : Word)

/-- What an address fetches from: slot Z or slot H of the core's own view, within the contents of the slot. -/
def State.fetchPlace (s : State) (n a : Nat) : Option Place :=
  if a < 0o20000000 then
    match s.ownPlace n a with
    | .ok p => some p
    | .error _ => none
  else none

/-- The word at a place that instructions are fetched from. (DEDUCED, log entry 10.) -/
def State.fetchWord (s : State) : Place → PWord × State
  | .rom kind off => (⟨word (Config.bootRom kind off), false⟩, s)
  | .mem a => s.memRead a 15
  | _ => (PWord.zero, s)

/-- The immediate word at `a` of an instruction with word `iw`. -/
def State.fetchImm (s : State) (n a : Nat) (iw : Word) : Fetched :=
  match s.fetchPlace n a with
  | none => .bad s xAddr
  | some p =>
    if s.heldBack p then .stall
    else
      let (w, s) := s.fetchWord p
      if w.p then .bad s xFetchPoison
      else match decodeHergil n iw w.v with
        | none => .illegal s
        | some i => .instr s i iw

/-- The instruction at the PC of core `n` (R126, R127, R162). (DEDUCED, log entry 10.) -/
def State.fetch (s : State) (n : Nat) : Fetched :=
  let pc := (s.core n).pc
  match s.fetchPlace n pc with
  | none => .bad s xAddr
  | some p =>
    if s.heldBack p then .stall
    else
      let (w, s) := s.fetchWord p
      if w.p then .bad s xFetchPoison
      else match decodeHergil n w.v 0 with
        | none => .illegal s
        | some i => if isX w.v then s.fetchImm n (pc + 1) w.v else .instr s i w.v

/-- The words of an instruction. -/
def instrLen (iw : Word) : Nat := if isX iw then 2 else 1

/-- Whether core `n` begins an instruction now: RUNNING, with none that waits. -/
def State.begins (s : State) (n : Nat) : Bool := s.up && s.coreState n = cRunning && (s.core n).wait.isNone

/-- Core `n` runs its next instruction, which is `i`: `body` takes the address after it.  A core whose next instruction is
another one does not run `i`; a fault of the fetch stops the core whatever the instruction would have been. (DEDUCED, log entry 10.) -/
def State.hergil (s : State) (n : Nat) (i : Instr) (body : Nat → State → Run) : State :=
  if !s.begins n then s
  else match s.fetch n with
    | .stall => s
    | .illegal _ => s
    | .bad s' code => s'.raiseExc n (s.core n).pc code
    | .instr s' j iw => if j = i then s'.settle n i iw (body ((s.core n).pc + instrLen iw) s') else s

/-- A taken branch, jump, call or return: a REMAP that the core has written takes effect (R110). -/
def State.branched (s : State) (n : Nat) : State :=
  match (s.core n).remapPend with
  | none => s
  | some b => (s.setCore n { s.core n with remapPend := none }).wr CORE_CTL_REMAP (b2n b) n

end Sys2Proof.Machine
end

