-- ==== Sys2Proof/Machine/HergilMem.lean ====
section
/-! DEFINITION. Loads, stores and atomics of a core and of its engines (R80, R84, R92, R93, R96, R97, R132–R137). -/

namespace Sys2Proof.Machine

open Ev Reg

/-- How an access came out. -/
inductive Acc (α : Type)
  /-- performed -/
  | ok (s : State) (x : α)
  /-- held back at a place -/
  | held (p : Place)
  /-- failed, with the code of the exception of a core (R135, R136) -/
  | bad (s : State) (code : Nat)

/-! ### Packet windows (R94–R97) -/

/-- The lanes of a store that write an octet of the packet (R97). (DEDUCED, log entry 47.) -/
def winWrites (p : Packet) (o le : Nat) (v : Word) : List Nat :=
  (lanesOf le).filter fun l => v.bit (9 * l + 8) && decide (winOctet o l < p.len)

/-- The octets that a store writes beyond LEN (R97). -/
def winBeyond (p : Packet) (o le : Nat) (v : Word) : Nat :=
  ((lanesOf le).filter fun l => v.bit (9 * l + 8) && decide (p.len ≤ winOctet o l)).length

/-- The packet with the octets of buffer lane `i` replaced by the 32 bits `d`. (DEDUCED, log entry 47.) -/
def Packet.putLane (p : Packet) (i d : Nat) : Packet :=
  { p with octets := ((List.range p.len).map fun k => if k / 4 = i then bitsOf d (8 * (3 - k % 4) + 7) (8 * (3 - k % 4)) else p.octets.getD k 0) }

/-- A store through a window in MODE 2 (R97): a store of fewer than four octets of the buffer lane is merged with it, and
a merge that finds the lane uncorrectable leaves it poisoned. (DEDUCED, log entry 47.) -/
def State.windowWrite (s : State) (n d : Nat) (p : Packet) (o le : Nat) (v : Word) : State :=
  let s := s.count WIN_OOB n (winBeyond p o le v)
  let ls := winWrites p o le v
  if ls.isEmpty then s
  else
    let put := fun (s : State) (old : Nat) =>
      let x := ls.foldl (fun x l => setBits x (8 * l + 7) (8 * l) (laneData v l)) old
      let s := { s with bufRaw := sput (fun _ => none) s.bufRaw (p.laneAddr o) none }
      s.setPacket d (some (p.putLane o x))
    if ls.length = 4 then put s 0
    else
      let cls := match sget (fun _ => none) s.bufRaw (p.laneAddr o) with
        | some x => x.lane.1
        | none => .clean
      let (old, bad, s) := s.readLane p o
      if !bad then put s old
      else if cls = .uncorrectable then
        { s with bufRaw := sput (fun _ => none) s.bufRaw (p.laneAddr o) (some markerB) }.count WIN_MERGE_POISON n
      else s

/-! ### One word -/


/-- The word that a place delivers for the lanes of `le`: the other lanes read zero (R133). -/
def State.readPlace (s : State) (n u le : Nat) : Place → Option (PWord × State)
  | .rom kind off => some (⟨word (Config.bootRom kind off) &&& word (lanesMask le), false⟩, s)
  | .mem g => some (s.memRead g le)
  | .win k w o => (s.windowPacket k w).map fun dp =>
      let r := s.windowRead dp.2 o
      (⟨r.1.v &&& word (lanesMask le), r.1.p⟩, r.2)
  | .reg g =>
    let r := s.busRead (masterId n u) g le
    some (⟨r.1.v &&& word (lanesMask le), r.1.p⟩, r.2)

/-- A load of one word on behalf of `g` of core `n` (R93, R95, R136). -/
def State.loadWord (s : State) (n : Nat) (g : Agent) (a le : Nat) : Acc PWord :=
  match s.resolve n a false with
  | .error e => .bad (s.badAccess n g.unit a e) xAddr
  | .ok p =>
    if s.blocked n g p then .held p
    else match s.readPlace n g.unit le p with
      | some (w, s) => .ok s w
      | none => .bad s xAddr

/-- A store to a place, none of whose accesses is held back, issued to the address `issued` (R92, R95, R97, R135): the
exception it raises, or the state after it. -/
def State.writePlace (s : State) (n u le issued : Nat) (v : PWord) : Place → Except Nat State
  | .rom .. => .error xAddr
  | .mem g => .ok (s.memWrite g le v)
  | .win k w o =>
    match s.windowPacket k w with
    | none => .error xAddr
    | some (d, p) =>
      if s.rd CORE_WIN_H_MODE k w ≠ 2 then .error xAddr
      else if v.p then .error xPoison
      else .ok (s.windowWrite k d p o le v.v)
  | .reg g =>
    if v.p then .error xPoison
    else match s.busWrite (masterId n u) g le v.v (issued := issued) with
      | (.reserved, _) | (.badState, _) | (.badRange, _) => .error xResVal
      | (.done, s) | (.refused, s) => .ok s

/-- A store of one word on behalf of `g` of core `n` (R135). -/
def State.storeWord (s : State) (n : Nat) (g : Agent) (a le : Nat) (v : PWord) : Acc Unit :=
  match s.resolve n a true with
  | .error e => .bad (s.badAccess n g.unit a e) xAddr
  | .ok p =>
    if s.blocked n g p then .held p
    else match s.writePlace n g.unit le a v p with
      | .ok s => .ok s ()
      | .error code => .bad s code

/-! ### Loads -/

/-- The checks of an access by a core on its address and base (R85, R134, R158, R162): the lowest code among them. (DEDUCED, log entry 40.) -/
def addrFault (ea : Word) (pair : Bool) (b : PWord) : Option Nat :=
  if 2 ^ 30 ≤ ea.toNat then some xAddr
  else if pair && ea.toNat % 2 = 1 then some xAlign
  else if b.p then some xPoison
  else none

/-- The core after the base of an M-format instruction is updated (R132). -/
def CoreSt.stepBase (c : CoreSt) (m : MemArgs) (k : Nat) : CoreSt :=
  if m.md.val = 0 then c else c.setReg m.b ⟨memBase m k (c.reg m.b).v, (c.reg m.b).p⟩

/-- LD as it runs (R132, R133, R136).  Where d is also the base that md steps, the word loaded wins. (DESIGN CHOICE, log entry 107.) -/
def ldBody (n : Nat) (d : HReg) (m : MemArgs) (next : Nat) (s : State) : Run :=
  let c := s.core n
  let ea := memAddr m 1 (c.reg m.b).v
  match addrFault ea false (c.reg m.b) with
  | some code => .trap s code
  | none => match s.loadWord n .core ea.toNat (memLanes m) with
    | .bad s code => .trap s code
    | .held p => .held s p
    | .ok s w => .done (s.setCore n (((s.core n).stepBase m 1).setReg d w)) next ea.toNat

/-- A second access after a first. -/
def Acc.andThen {α β : Type} (x : Acc α) (f : State → α → Acc β) : Acc β :=
  match x with
  | .ok s y => f s y
  | .held p => .held p
  | .bad s code => .bad s code

/-- The first word of a counter pair that an even address names, when nothing holds it back. (DEDUCED, log entry 46.) -/
def State.counterPair (s : State) (n a : Nat) : Option Nat :=
  match s.resolve n a false with
  | .ok (.reg g) => if (cntIndexAt g).isSome && !s.blocked n .core (.reg g) then some g else none
  | _ => none

/-- A load of the words at `a` and `a + 1` by a core (R134): the two words of a counter are read live (R547). (DEDUCED, log entry 46.) -/
def State.loadPair (s : State) (n a le : Nat) : Acc (PWord × PWord) :=
  match s.counterPair n a with
  | some g =>
    let x := s.cntRead g le
    let y := x.2.cntRead (g + 1) le
    .ok y.2 (x.1, y.1)
  | none => (s.loadWord n .core a le).andThen fun s x => (s.loadWord n .core (a + 1) le).andThen fun s y => .ok s (x, y)

/-- LDP as it runs (R134): both words in one beat; they win over the step of a base among them. (DEDUCED, log entry 46;
DESIGN CHOICE, log entry 107.) -/
def ldpBody (n : Nat) (d : HPair) (m : MemArgs) (next : Nat) (s : State) : Run :=
  let c := s.core n
  let ea := memAddr m 2 (c.reg m.b).v
  match addrFault ea true (c.reg m.b) with
  | some code => .trap s code
  | none => match s.loadPair n ea.toNat (memLanes m) with
    | .bad s code => .trap s code
    | .held p => .held s p
    | .ok s w => .done (s.setCore n (((s.core n).stepBase m 2).setPair d w.1 w.2)) next ea.toNat

/-! ### Stores -/

/-- The place of the next word. -/
def Place.succ : Place → Place
  | .mem g => .mem (g + 1)
  | .reg g => .reg (g + 1)
  | .win n w o => .win n w (o + 1)
  | .rom k o => .rom k (o + 1)

/-- A store to the core's own local RAM that is held back is posted (R135). (DEDUCED, log entry 49.) -/
def State.post (s : State) (n le : Nat) (p : Place) (v : PWord) : State := s.request n .core p (some (le, v))

/-- ST as it runs (R132, R133, R135). -/
def stBody (n : Nat) (d : HReg) (m : MemArgs) (next : Nat) (s : State) : Run :=
  let c := s.core n
  let ea := memAddr m 1 (c.reg m.b).v
  let after := fun (s : State) => s.setCore n ((s.core n).stepBase m 1)
  match addrFault ea false (c.reg m.b) with
  | some code => .trap s code
  | none => match s.storeWord n .core ea.toNat (memLanes m) (c.reg d) with
    | .bad s code => .trap s code
    | .held p =>
      if ownRam n p then .done (after (s.post n (memLanes m) p (c.reg d))) next ea.toNat else .held s p
    | .ok s _ => .done (after s) next ea.toNat

/-- The exception that a store would raise, if any. -/
def Acc.fault (x : Acc Unit) : Option Nat :=
  match x with
  | .bad _ code => some code
  | _ => none

/-- The lower of two exception codes (R162). (DEDUCED, log entry 40.) -/
def lowestCode : Option Nat → Option Nat → Option Nat
  | some x, some y => some (min x y)
  | some x, none => some x
  | none, y => y

/-- The state after the addresses of a pair of stores that fails have been judged: what has no place is counted (R93). -/
def State.pairFails (s : State) (n a : Nat) : State :=
  match s.resolve n a true with
  | .error e => s.badAccess n 0 a e
  | .ok _ => match s.resolve n (a + 1) true with
    | .error e => s.badAccess n 0 (a + 1) e
    | .ok _ => s

/-- STP as it runs (R134, R135): both words in one beat, or neither. (DEDUCED, log entry 46.) -/
def stpBody (n : Nat) (d : HPair) (m : MemArgs) (next : Nat) (s : State) : Run :=
  let c := s.core n
  let ea := memAddr m 2 (c.reg m.b).v
  let le := memLanes m
  let x := c.reg (pairLo d)
  let y := c.reg (pairHi d)
  let after := fun (s : State) => s.setCore n ((s.core n).stepBase m 2)
  let first := s.storeWord n .core ea.toNat le x
  match addrFault ea true (c.reg m.b) with
  | some code => .trap s code
  | none => match lowestCode first.fault (s.storeWord n .core (ea.toNat + 1) le y).fault with
    | some code => .trap (s.pairFails n ea.toNat) code
    | none =>
      match first.andThen fun s _ => s.storeWord n .core (ea.toNat + 1) le y with
      | .bad s code => .trap s code
      | .held p =>
        if ownRam n p then .done (after ((s.post n le p x).post n le p.succ y)) next ea.toNat
        else .held s p
      | .ok s _ => .done (after s) next ea.toNat

/-! ### Atomics -/

/-- AADD and ASWP as they run (R137): `f` gives the word written of the old word and d. -/
def atomicBody (n : Nat) (d : HReg) (m : MemArgs) (f : PWord → PWord → PWord) (next : Nat) (s : State) : Run :=
  let c := s.core n
  let ea := memAddr m 1 (c.reg m.b).v
  match addrFault ea false (c.reg m.b) with
  | some code => .trap s code
  | none => match s.resolve n ea.toNat true with
    | .error e => .trap (s.badAccess n 0 ea.toNat e) xAddr
    | .ok (.mem g) =>
      if s.blocked n .core (.mem g) then .held s (.mem g)
      else
        let r := s.memRead g 15
        let s := r.2.memWrite g 15 (f r.1 (c.reg d))
        .done (s.setCore n (((s.core n).stepBase m 1).setReg d r.1)) next ea.toNat
    | .ok _ => .trap s xAddr

/-- The word `aadd` writes, and the word `aswp` writes: poisoned when m or d was (R137). -/
def aaddWord (m d : PWord) : PWord := ⟨m.v + d.v, m.p || d.p⟩
def aswpWord (m d : PWord) : PWord := ⟨d.v, m.p || d.p⟩

/-! ### The rows -/

/-- LD (R133). -/
def execLd (n : Nat) (d : HReg) (m : MemArgs) (s : State) : Host.Outcome State Fault Refusal :=
  .next (s.hergil n (.ld n d m) (ldBody n d m))

/-- ST (R135). -/
def execSt (n : Nat) (d : HReg) (m : MemArgs) (s : State) : Host.Outcome State Fault Refusal :=
  .next (s.hergil n (.st n d m) (stBody n d m))

/-- LDP (R134). -/
def execLdp (n : Nat) (d : HPair) (m : MemArgs) (s : State) : Host.Outcome State Fault Refusal :=
  .next (s.hergil n (.ldp n d m) (ldpBody n d m))

/-- STP (R134). -/
def execStp (n : Nat) (d : HPair) (m : MemArgs) (s : State) : Host.Outcome State Fault Refusal :=
  .next (s.hergil n (.stp n d m) (stpBody n d m))

/-- AADD (R137). -/
def execAadd (n : Nat) (d : HReg) (m : MemArgs) (s : State) : Host.Outcome State Fault Refusal :=
  .next (s.hergil n (.aadd n d m) (atomicBody n d m aaddWord))

/-- ASWP (R137). -/
def execAswp (n : Nat) (d : HReg) (m : MemArgs) (s : State) : Host.Outcome State Fault Refusal :=
  .next (s.hergil n (.aswp n d m) (atomicBody n d m aswpWord))

end Sys2Proof.Machine
end

