-- ==== Sys2Proof/Machine/Engines.lean ====
section
/-! DEFINITION. Engine operations as they run and end (R149, R152–R157, R429, R447, R478, R497, R502, R524, R543, R548). -/

namespace Sys2Proof.Machine

open Ev Reg

/-! ### Operations and descriptors -/

/-- Word `i` of an operation's descriptor. -/
def EngOp.w (o : EngOp) (i : Nat) : Word := (o.desc.getD i PWord.zero).v

/-- OP of an operation (R152). -/
def EngOp.op (o : EngOp) : Nat := (o.w 0).bits 32 27

/-- The bits of UNIT and OP. -/
def descTop : Nat := mask 35 27

/-- Whether a descriptor is zero outside the bits that its operation uses, by word (R152). -/
def EngOp.clean (o : EngOp) (masks : List Nat) : Bool :=
  (List.range masks.length).all fun i => (o.w i).toNat &&& masks.getD i 0 = (o.w i).toNat

/-- The operation of a tag that a row of unit `unit` runs: one of OP `op`, or for the unit's first row one of a reserved
OP, the unit having OPs 1 to `ops`. -/
def State.opFor (s : State) (n tag unit op ops : Nat) : Option EngOp :=
  if !s.up || s.coreState n = cOff then none
  else match s.engOp n tag with
    | none => none
    | some o =>
      if o.unit = unit ∧ (o.op = op ∨ (op = 1 ∧ (o.op = 0 ∨ ops < o.op))) then some o else none

/-- An operation ends where the spec states neither COUNT nor RESULT: both are open. (DESIGN CHOICE, log entries 52 and 63.) -/
def State.endOpen (s : State) (n tag status : Nat) : State :=
  (s.used 2).endOp n tag status (Config.open s.free % 2 ^ 18) ⟨word (Config.open (s.free + 1)), false⟩

/-- An operation ends where the spec states COUNT and no RESULT. -/
def State.endCount (s : State) (n tag status count : Nat) : State :=
  s.used.endOp n tag status count ⟨word s.open_, false⟩

/-- A failing status that the spec leaves open. (DESIGN CHOICE, log entry 52.) -/
def State.openStatus (s : State) : Nat := 1 + s.open_ % 11

/-- An operation ends with nothing done and RESULT 0. -/
def State.endZero (s : State) (n tag status : Nat) : State := s.endOp n tag status 0 PWord.zero

/-- An operation ends with nothing done and an open RESULT. (DESIGN CHOICE, log entry 52.) -/
def State.endNone (s : State) (n tag status : Nat) : State := s.endCount n tag status 0

/-- A row of an engine: an upset descriptor ends the operation before it begins (R524), a reserved OP and a reserved
field end it E_DESC (R149, R152); `fail` ends an operation that has done nothing.  After a reserved OP of the cipher
engine RESULT is 0 (R153); of another engine it is open. (DESIGN CHOICE, log entry 52.) -/
def State.engineRow (s : State) (n tag unit op ops : Nat) (upset : Bool) (masks : List Nat)
    (fail : State → Nat → Nat → Nat → State) (body : EngOp → State → State) : State :=
  match s.opFor n tag unit op ops with
  | none => s
  | some o =>
    let upset := upset && o.done = 0 && o.out.isNone
    let s := s.noteUpset n upset
    if o.op ≠ op then
      let st := if upset then gPoison else gDesc
      if unit = 1 then s.endZero n tag st else s.endNone n tag st
    else if upset then fail s n tag gPoison
    else if !o.clean masks then fail s n tag gDesc
    else body o s

/-! ### Reads and writes of an engine -/

/-- What ends a run of accesses early: nothing, a place that an access waits for, or a failure with the code of a core's
exception. -/
inductive Stop
  | none
  | held (p : Place)
  | failed (code : Nat)

/-- `k` words from address `a` as the agent `g` of core `n` loads them, up to the first that stops it. (DEDUCED, log entry 50.) -/
def State.engRead (s : State) (n : Nat) (g : Agent) (a : Nat) : Nat → State × List PWord × Stop
  | 0 => (s, [], .none)
  | k + 1 => match s.loadWord n g a 15 with
    | .held p => (s, [], .held p)
    | .bad s code => (s, [], .failed code)
    | .ok s w =>
      let r := s.engRead n g (a + 1) k
      (r.1, w :: r.2.1, r.2.2)

/-- `k` words from address `a`, the first of which have been read before and are `got` (R99). -/
def State.engTake (s : State) (n : Nat) (g : Agent) (got : List PWord) (a k : Nat) : State × List PWord × Stop :=
  let r := s.engRead n g (a + got.length) (k - got.length)
  (r.1, got.take k ++ r.2.1, r.2.2)

/-- Words stored at their addresses by the agent `g` of core `n`, up to the first that stops it: how many were written. (DEDUCED, log entry 50.) -/
def State.engWrite (s : State) (n : Nat) (g : Agent) : List (Nat × PWord) → State × Nat × Stop
  | [] => (s, 0, .none)
  | (a, w) :: t => match s.storeWord n g a 15 w with
    | .held p => (s, 0, .held p)
    | .bad s code => (s, 0, .failed code)
    | .ok s _ =>
      let r := s.engWrite n g t
      (r.1, r.2.1 + 1, r.2.2)

/-- The operation of a tag changed where it is. -/
def State.setOp (s : State) (n : Nat) (o : EngOp) : State :=
  s.setCore n { s.core n with ops := (s.core n).ops.map fun x => if x.tag = o.tag then o else x }

/-- An operation that goes on later: the access that stopped it, if one did, waits at the matrix. (DESIGN CHOICE, log entry 50.) -/
def State.goesOn (s : State) (n : Nat) (g : Agent) : Stop → State
  | .held p => s.request n g p none
  | _ => s

/-- The status of a failed access: E_ADDR, E_POISON, or one the spec leaves open for a rejected register write (R149). -/
def State.accStatus (s : State) (code : Nat) : Nat × State :=
  if code = xAddr then (gAddr, s) else if code = xPoison then (gPoison, s) else (s.openStatus, s.used)

/-! ### Cipher engine (R153, R478) -/

/-- The octet of lane `l` of a word, and the lane's bit 8. -/
def laneOctet (w : Word) (l : Nat) : Nat := w.bits (9 * l + 7) (9 * l)

/-- The octets of words in lane form, lane 3 first. -/
def wordOctets (l : List PWord) : List Nat := l.flatMap fun w => [laneOctet w.v 3, laneOctet w.v 2, laneOctet w.v 1, laneOctet w.v 0]

/-- Words in lane form of octets, filled with zero lanes. -/
def asLanes (k : Nat) (os : List Nat) : List PWord :=
  (List.range k).map fun i =>
    ⟨word (((List.range 4).map fun l =>
      match os[4 * i + (3 - l)]? with
      | some o => (256 + o % 256) * 2 ^ (9 * l)
      | none => 0).sum), false⟩

/-- The first of words read that fails, of which the first `counted` octets count: poisoned, or a counted lane with bit 8
zero (R153, R158). -/
def badLane (counted : Nat) (l : List PWord) : Option (Nat × Nat) :=
  (List.range l.length).findSome? fun i =>
    let w := l.getD i PWord.zero
    if w.p then some (gPoison, i)
    else if (List.range 4).any fun k => decide (4 * i + k < counted) && !w.v.bit (9 * (3 - k) + 8) then some (gDesc, i)
    else none

/-- Input of the cipher engine: octets, or the status and the index of the word that failed. -/
structure CipherIn where
  octets : List Nat
  fail : Option (Nat × Nat)

/-- `k` words of input, of which the first `counted` octets count and the first words have been read before as `got`; or the
place that they wait for, with the state and the words read. -/
def State.cipherRead (s : State) (n : Nat) (g : Agent) (got : List PWord) (a k counted : Nat) :
    Except (Place × State × List PWord) (State × CipherIn) :=
  match s.engTake n g got a k with
  | (s, l, .held p) => .error (p, s, l)
  | (s, l, .failed _) => .ok (s, ⟨[], some ((badLane counted l).getD (gAddr, l.length))⟩)
  | (s, l, .none) => .ok (s, ⟨(wordOctets l).take counted, badLane counted l⟩)

/-- The fields of a cipher descriptor. -/
def EngOp.page (o : EngOp) : Nat := (o.w 0).bits 26 21
def EngOp.key (o : EngOp) : Nat := (o.w 0).bits 20 13
def EngOp.last (o : EngOp) : Nat := (o.w 0).bits 12 6
def EngOp.alast (o : EngOp) : Nat := (o.w 0).bits 5 0
def EngOp.ntext (o : EngOp) : Nat := (o.w 4).bits 35 18
def EngOp.naad (o : EngOp) : Nat := (o.w 4).bits 17 0

/-- Octets that count of `k` blocks of `b` octets, the last with `last`. -/
def counted (b k last : Nat) : Nat := if k = 0 then 0 else b * (k - 1) + last

/-- Whether a count of octets fits its number of blocks. -/
def lastOk (b k last : Nat) : Bool := if k = 0 then last = 0 else decide (1 ≤ last) && decide (last ≤ b)

/-- Whether the fields of a cipher descriptor are in range (R153). (DEDUCED, log entry 51.) -/
def EngOp.cipherOk (o : EngOp) : Bool :=
  if o.op = 3 then
    decide (1 ≤ o.ntext) && lastOk 64 o.ntext o.last && o.alast = 0 && o.naad = 0 && o.w 3 = 0 && o.w 5 = 0 && o.w 6 = 0
  else decide (0 < o.ntext + o.naad) && lastOk 16 o.ntext o.last && lastOk 16 o.naad o.alast

/-- The checks of the key in the order of R478. -/
def State.cipherKey (s : State) (n : Nat) (o : EngOp) : Except Nat KeyGen :=
  if o.key < 128 then .error gRights
  else match s.liveKey (.slot o.page o.key) with
    | none => .error gKey
    | some k => match k.g0 with
      | none => .error gKey
      | some g =>
        if decide (o.op = 3) != decide (192 ≤ o.key) then .error gKey
        else if !k.use.testBit (3 - coreKind n) then .error gKey
        else if o.op ≠ 2 ∧ (match (KeyRef.slot o.page o.key).limit with
            | some l => decide (l ≤ g.used)
            | none => false) = true then .error gLimit
        else .ok g

/-- A piece of output: its words at their addresses. -/
def piece (a : Nat) (l : List PWord) : List (Nat × PWord) := (List.range l.length).map fun i => (a + i, l.getD i PWord.zero)

/-- The agent that an operation's accesses are made for. -/
def EngOp.agent (o : EngOp) : Agent := .op o.unit o.tag

/-- COUNT of a cipher operation when its output stops: the text blocks whose output has been written. (DEDUCED, log entry 51.) -/
def EngOut.count (x : EngOut) : Nat := if x.text then min x.blocks (x.done / 4) else x.blocks

/-- The output of the cipher engine is written, up to `words` words of it; the operation ends with its last, or with one
that fails. (DEDUCED, log entry 51.) -/
def State.cipherWrite (s : State) (n : Nat) (o : EngOp) (words : Nat) (x : EngOut) : State :=
  let r := s.engWrite n o.agent (x.todo.take words)
  let x := { x with todo := x.todo.drop r.2.1, done := x.done + r.2.1 }
  match r.2.2 with
  | .failed code =>
    let (st, s) := r.1.accStatus code
    s.endOp n o.tag st x.count x.result
  | stop =>
    if x.todo.isEmpty then r.1.endOp n o.tag x.status x.blocks x.result
    else (r.1.setOp n { o with out := some x }).goesOn n o.agent stop

/-- A cipher operation whose input fails ends with nothing processed; where its key fails as well the spec does not say
which of the two statuses it shows. (DESIGN CHOICE, log entry 51.) -/
def State.inputFails (s : State) (n : Nat) (o : EngOp) (st : Nat) : State :=
  match s.cipherKey n o with
  | .ok _ => s.endZero n o.tag st
  | .error k => s.used.endZero n o.tag (if s.open_ % 2 = 0 then st else k)

/-- The operation keeps the words that it has read and waits for a place (R99). -/
def State.keepsRead (s : State) (n : Nat) (o : EngOp) (got : List PWord) (p : Place) : State :=
  (s.setOp n { o with got := got }).goesOn n o.agent (.held p)

/-- Input is read, the key is checked, and then `body` runs (R153, R464, R478): input that fails ends the operation
before it uses its key, with nothing processed.  `past` are the words of the inputs before, `got` those of the inputs to
come that have been read already. (DEDUCED, log entry 51.) -/
def State.cipherWith (s : State) (n : Nat) (o : EngOp) (past got : List PWord) :
    List (Nat × Nat × Nat) → List (List Nat) → (State → List (List Nat) → KeyGen → State) → State
  | [], l, body => match s.cipherKey n o with
    | .error st => s.endZero n o.tag st
    | .ok g => body s l.reverse g
  | (a, k, c) :: t, l, body => match s.cipherRead n o.agent got a k c with
    | .error (p, s1, ws) => s1.keepsRead n o (past ++ ws) p
    | .ok (s1, x) => match x.fail with
      | some (st, _) => s1.inputFails n o st
      | none => s1.cipherWith n o (past ++ asLanes k x.octets) (got.drop k) t (x.octets :: l) body

/-- What each input of a cipher operation is: address, words, and octets that count. -/
def EngOp.textIn (o : EngOp) (b : Nat) : Nat × Nat × Nat := ((o.w 1).toNat, b / 4 * o.ntext, counted b o.ntext o.last)
def EngOp.aadIn (o : EngOp) : Nat × Nat × Nat := ((o.w 3).toNat, 4 * o.naad, counted 16 o.naad o.alast)

/-- GCM encryption (R153, R457, R458). (DEDUCED, log entry 51.) -/
def State.gcmSeal (s : State) (n : Nat) (o : EngOp) (words : Nat) : State :=
  s.cipherWith n o [] o.got [o.aadIn, o.textIn 16] [] fun s l _ =>
    match s.invoke (.slot o.page o.key) o.page false with
    | (.used ctr g, s) =>
      let iv := natToOctets 4 g.saltA ++ natToOctets 8 ctr
      let (ct, tag) := gcmEncrypt g.key iv (l.getD 0 []) (l.getD 1 [])
      s.cipherWrite n o words
        { todo := piece (o.w 2).toNat (asLanes (4 * o.ntext) ct) ++ piece (o.w 5).toNat (asLanes 3 iv) ++
            piece (o.w 6).toNat (asLanes 4 tag)
          done := 0, status := gOk, blocks := o.ntext, text := true, result := ⟨word ctr, false⟩ }
    | (_, s) => s.endZero n o.tag gLimit

/-- GCM decryption (R153): nothing is written before the tag is known, and zero lanes when it does not match. (DEDUCED, log entry 51.) -/
def State.gcmOpen (s : State) (n : Nat) (o : EngOp) (words : Nat) : State :=
  s.cipherWith n o [] o.got [o.aadIn, ((o.w 5).toNat, 3, 12), o.textIn 16, ((o.w 6).toNat, 4, 16)] [] fun s l g =>
    let iv := l.getD 1 []
    let text := l.getD 2 []
    let good := gcmTag g.key iv (l.getD 0 []) text = l.getD 3 []
    s.cipherWrite n o words
      { todo := piece (o.w 2).toNat (asLanes (4 * o.ntext) (if good then gcmText g.key iv text else []))
        done := 0, status := if good then gOk else gAuth, blocks := o.ntext, text := true, result := PWord.zero }

/-- HMAC-SHA-256 (R153, R457, R458). -/
def State.hmacOp (s : State) (n : Nat) (o : EngOp) (words : Nat) : State :=
  s.cipherWith n o [] o.got [o.textIn 64] [] fun s l _ =>
    match s.invoke (.slot o.page o.key) o.page false with
    | (.used _ g, s) =>
      s.cipherWrite n o words
        { todo := piece (o.w 2).toNat (asLanes 8 (hmac256 g.key (l.getD 0 [])))
          done := 0, status := gOk, blocks := o.ntext, text := false, result := PWord.zero }
    | (_, s) => s.endZero n o.tag gLimit

/-- The bits that cipher descriptors use. -/
def cipherMasks : List Nat := [2 ^ 36 - 1, mask 29 0, mask 29 0, mask 29 0, 2 ^ 36 - 1, mask 29 0, mask 29 0]

/-- A cipher operation (R153, R478) goes on by up to `words` words of its output; in the error state every one completes
E_KEY (R447). (DEDUCED, log entry 51.) -/
def State.cipherOp (s : State) (n tag op : Nat) (upset : Bool) (words : Nat) : State :=
  if s.rdb EDW_STAT_ERROR && (s.opFor n tag 1 op 3).isSome then s.endZero n tag gKey
  else
    s.engineRow n tag 1 op 3 upset cipherMasks State.endZero fun o s =>
      match o.out with
      | some x => s.cipherWrite n o words x
      | none =>
        if !o.cipherOk then s.endZero n tag gDesc
        else if op = 1 then s.gcmSeal n o words else if op = 2 then s.gcmOpen n o words else s.hmacOp n o words

/-- CIPHER_GCM_ENCRYPT (R153). -/
def execCipherGcmEncrypt (n : Nat) (tag : Fin 64) (upset : Bool) (words : Nat) (s : State) : Host.Outcome State Fault Refusal :=
  .next (s.cipherOp n tag 1 upset words)

/-- CIPHER_GCM_DECRYPT (R153). -/
def execCipherGcmDecrypt (n : Nat) (tag : Fin 64) (upset : Bool) (words : Nat) (s : State) : Host.Outcome State Fault Refusal :=
  .next (s.cipherOp n tag 2 upset words)

/-- CIPHER_HMAC (R153). -/
def execCipherHmac (n : Nat) (tag : Fin 64) (upset : Bool) (words : Nat) (s : State) : Host.Outcome State Fault Refusal :=
  .next (s.cipherOp n tag 3 upset words)

/-! ### DMA engine (R154) -/

/-- NWORDS of a COPY or FILL. -/
def EngOp.nwords (o : EngOp) : Nat := (o.w 3).bits 17 0

/-- `k` words copied from `a` to `b` one by one with their poison, up to the first that stops it. -/
def State.copyRun (s : State) (n : Nat) (g : Agent) (a b : Nat) : Nat → State × Nat × Stop
  | 0 => (s, 0, .none)
  | k + 1 => match s.loadWord n g a 15 with
    | .held p => (s, 0, .held p)
    | .bad s code => (s, 0, .failed code)
    | .ok s w => match s.storeWord n g b 15 w with
      | .held p => (s, 0, .held p)
      | .bad s code => (s, 0, .failed code)
      | .ok s _ =>
        let r := s.copyRun n g (a + 1) (b + 1) k
        (r.1, r.2.1 + 1, r.2.2)

/-- A COPY or FILL of NWORDS words after a run of it: words moved before stay moved (R109), and it ends with the last word
or with one that fails. -/
def State.endWords (n : Nat) (o : EngOp) (r : State × Nat × Stop) : State :=
  let k := o.done + r.2.1
  match r.2.2 with
  | .failed code => let (st, t) := r.1.accStatus code; t.endOp n o.tag st k PWord.zero
  | stop =>
    if o.nwords ≤ k then r.1.endOp n o.tag gOk k PWord.zero
    else (r.1.setOp n { o with done := k }).goesOn n o.agent stop

/-- DMA_COPY (R154, R158): it goes on by up to `words` words. -/
def execDmaCopy (n : Nat) (tag : Fin 64) (upset : Bool) (words : Nat) (s : State) : Host.Outcome State Fault Refusal :=
  .next (s.engineRow n tag 2 1 6 upset [descTop, mask 29 0, mask 29 0, mask 17 0] State.endZero fun o s =>
    if o.nwords = 0 then s.endZero n tag gDesc
    else State.endWords n o
      (s.copyRun n o.agent ((o.w 1).toNat + o.done) ((o.w 2).toNat + o.done) (min words (o.nwords - o.done))))

/-- DMA_FILL (R154): it goes on by up to `words` words. -/
def execDmaFill (n : Nat) (tag : Fin 64) (upset : Bool) (words : Nat) (s : State) : Host.Outcome State Fault Refusal :=
  .next (s.engineRow n tag 2 2 6 upset [descTop, 2 ^ 36 - 1, mask 29 0, mask 17 0] State.endZero fun o s =>
    if o.nwords = 0 then s.endZero n tag gDesc
    else State.endWords n o
      (s.engWrite n o.agent (piece ((o.w 2).toNat + o.done) (List.replicate (min words (o.nwords - o.done)) ⟨o.w 1, false⟩))))

/-- DMA_PKT_NEW (R154): a packet of zeros held for the core. -/
def execDmaPktNew (n : Nat) (tag : Fin 64) (upset : Bool) (s : State) : Host.Outcome State Fault Refusal :=
  .next (s.engineRow n tag 2 3 6 upset [descTop, 0, 0, mask 13 0] State.endNone fun o s =>
    let len := (o.w 3).bits 13 0
    if len = 0 then s.endNone n tag gDesc
    else if s.freeDescs = 0 ∨ s.freeCells < cellsOf len then s.used.endNone n tag s.openStatus
    else
      let (d, s) := s.newPacket 0 (n + 1) len (List.replicate len 0)
      let gen := ((s.packet d).map (·.gen)).getD 0
      s.endOp n tag gOk 0 ⟨word (handleOf d gen), false⟩)

/-- Whether core `n` may send to a queue (R429). -/
def State.maySend (s : State) (n q : Nat) : Bool :=
  let k := coreKind n
  k = 3 || (k = 0 && decide (q < 131072) && q / 2048 = n) ||
    (k = 2 && decide (131072 ≤ q) && decide (q < 133120) && (q - 131072) / 512 = n - 72 && s.coreState n ≠ cOff)

/-- Whether the send prefix of a packet is in order for its queue (R429). (DEDUCED, log entry 54.) -/
def prefixOk (q : Nat) (os : List Nat) : Bool :=
  let line := decide (131072 ≤ q) && decide (q < 133120)
  let client := decide (133120 ≤ q)
  (line || (os.take 3).all (· = 0)) && (os.getD 3 0 = 0 || (client && os.getD 3 0 = 1)) && ((os.drop 4).take 4).all (· = 0)

/-- A packet held for the core goes to a queue (R406, R429). (DEDUCED, log entry 54.) -/
def State.sendPacket (s : State) (q d : Nat) (p : Packet) : State :=
  let g := s.queuePage q
  let s := s.setPacket d (some { p with held := 0, page := g + 1 })
  let e : QEnt := ⟨d, p.len, s.now, true, false, true, p.octets.getD 3 0 = 1, 0, false⟩
  ((s.setQueue q (s.queue q ++ [e])).countQueue q 0 (p.len - 8)).seeEgress (s.egressOf q)

/-- The packet of a handle when it is held for core `n`. -/
def State.heldPacket (s : State) (n h : Nat) : Option (Nat × Packet) :=
  match s.byHandle h with
  | some (d, p) => if p.held = n + 1 then some (d, p) else none
  | none => none

/-- DMA_PKT_SEND (R98, R154, R424, R429). (DEDUCED, log entry 54.) -/
def execDmaPktSend (n : Nat) (tag : Fin 64) (upset : Bool) (s : State) : Host.Outcome State Fault Refusal :=
  .next (s.engineRow n tag 2 4 6 upset [descTop, mask 29 0, mask 35 34 + mask 16 0, 0] State.endZero fun o s =>
    match queueOf ((o.w 2).bits 35 34) ((o.w 2).bits 16 0) with
    | none => s.endZero n tag gDesc
    | some q =>
      if !s.maySend n q then s.endZero n tag gRights
      else match s.heldPacket n (o.w 1).toNat with
        | none => s.used.endZero n tag s.openStatus
        | some (d, p) =>
          if p.len < 9 || !prefixOk q p.octets then s.endZero n tag gDesc
          else if s.windowed d then s
          else if !s.forwards || (s.admitFails q (s.queuePage q) p.len).isSome then s.endZero n tag gFull
          else (s.sendPacket q d p).endOp n tag gOk 0 PWord.zero)

/-- DMA_PKT_RECV (R154). -/
def execDmaPktRecv (n : Nat) (tag : Fin 64) (upset : Bool) (s : State) : Host.Outcome State Fault Refusal :=
  .next (s.engineRow n tag 2 5 6 upset [descTop, 0, 2 ^ 35 + 3, 0] State.endNone fun o s =>
    let k := 4 * n + (o.w 2).bits 1 0
    match sget (fun _ => []) s.traf.boxes k with
    | [] => if (o.w 2).bit 35 then s else s.endNone n tag gEmpty
    | d :: t =>
      let s := { s with traf := { s.traf with boxes := sput (fun _ => []) s.traf.boxes k t } }
      match s.packet d with
      | none => s.endNone n tag gEmpty
      | some p =>
        (s.setPacket d (some { p with held := n + 1 })).endOp n tag gOk p.len ⟨word (handleOf d p.gen), false⟩)

/-- DMA_PKT_FREE (R98, R154). -/
def execDmaPktFree (n : Nat) (tag : Fin 64) (upset : Bool) (s : State) : Host.Outcome State Fault Refusal :=
  .next (s.engineRow n tag 2 6 6 upset [descTop, mask 29 0, 0, 0] State.endZero fun o s =>
    match s.heldPacket n (o.w 1).toNat with
    | none => s.used.endZero n tag s.openStatus
    | some (d, _) => if s.windowed d then s else (s.freePacket d).endOp n tag gOk 0 PWord.zero)

/-! ### Monitor engine (R155, R497, R502) -/

/-- Whether core `n` may use converter `m` (R155). -/
def mayConvert (n m : Nat) (cal : Bool) : Bool :=
  let k := coreKind n
  k = 3 || (((k = 0 && !cal) || k = 1) && decide (m < 16) && m / 2 = coreCluster n)

/-- MONITOR_INJECT_OP (R497): accepted once, then listed until it completes; a T-core's reference image places none in a
calibration window of the converter (R509). (DEDUCED, log entry 54; DESIGN CHOICE, log entry 128.) -/
def execMonitorInjectOp (n : Nat) (tag : Fin 64) (upset : Bool) (s : State) : Host.Outcome State Fault Refusal :=
  .next (
    let listed := s.mons.any fun (e : Nat × MonSt) => e.2.inj.any fun (i : Inj) => i.by_ = .op n tag
    if listed then s
    else s.engineRow n tag 3 1 2 upset [] State.endNone fun o s =>
      let m := (o.w 0).bits 26 22
      if !mayConvert n m false then s.endNone n tag gRights
      else if !o.clean [descTop + mask 26 8, 2 ^ 36 - 1, 2 ^ 36 - 1, mask 17 0] then s.endNone n tag gDesc
      else match s.judgeInj (o.w 0).toNat (o.w 1).toNat (o.w 2).toNat (o.w 3).toNat (.op n tag) o.accepted with
        | .ok (m, i) => if n < 64 ∧ s.refRuns n = true ∧ s.inWindow m i = true then s else s.acceptInj m i
        | .error (st, k) => (if k = 6 then s.count MON_INJ_CONFLICT m else s).endNone n tag st)

/-- MONITOR_CAL_OP (R155, R502). -/
def execMonitorCalOp (n : Nat) (tag : Fin 64) (upset : Bool) (s : State) : Host.Outcome State Fault Refusal :=
  .next (
    let joined := s.mons.any fun (e : Nat × MonSt) => e.2.joined.any fun (b : CalBy) => b = .op n tag
    if joined then s
    else s.engineRow n tag 3 2 2 upset [descTop + mask 26 22, 0, 0, 0] State.endNone fun o s =>
      let m := (o.w 0).bits 26 22
      if !mayConvert n m true then s.endNone n tag gRights
      else if 18 ≤ m then s.endNone n tag gDesc
      else if s.monState m = mOff then s.endNone n tag gAddr
      else s.requestCal m (.op n tag))

/-! ### Grant-map engine (R156, R382) -/

/-- The grant that two words spell. -/
def grantOf (w0 w1 : Word) : Grant :=
  ⟨w0.bits 35 20, w0.bits 19 16, w0.bit 15, w0.bit 14, w1.bits 35 18, w1.bits 17 0⟩

/-- Whether a grant entry of tree `t` is in range (R156). (DEDUCED, log entry 53.) -/
def grantOk (t : Nat) (w0 : Word) (g : Grant) : Bool :=
  decide (g.kind < 4) && w0.bits 13 0 = 0 &&
    (if g.kind = 1 ∨ g.kind = 3 then g.alloc = 0 else g.alloc / 1024 = t) && decide (1 ≤ g.len) &&
    decide (g.start + g.len ≤ 225000)

/-- Whether grants are sorted by START without overlap. -/
def grantsSorted : List Grant → Bool
  | [] => true
  | [_] => true
  | a :: b :: t => decide (a.start + a.len ≤ b.start) && grantsSorted (b :: t)

/-- The grants of a map of tree `t` from its header and its entry words; none when it fails its checks (R156). (DEDUCED, log entry 53.) -/
def mapOf (t : Nat) (h : Word) (l : List PWord) : Option (List Grant) :=
  let gs := (List.range (l.length / 2)).map fun i =>
    ((l.getD (2 * i) PWord.zero).v, grantOf (l.getD (2 * i) PWord.zero).v (l.getD (2 * i + 1) PWord.zero).v)
  if h.toNat ≤ 256 && (gs.all fun x => grantOk t x.1 x.2) && grantsSorted (gs.map (·.2)) then some (gs.map (·.2)) else none

/-- What a COMMIT has done so far: the next map's address, slots committed, slots on hold, entries, statuses; and the words
of the maps read. -/
structure Committed where
  addr : Nat
  done : List Nat
  hold : List Nat
  entries : Nat
  status : List Nat
  read : List PWord := []

/-- Whether `k` words from `a` lie in the local RAM of core `n`. -/
def State.ownWords (s : State) (n a k : Nat) : Bool :=
  (List.range k).all fun i => match s.resolve n (a + i) false with
    | .ok p => ownRam n p
    | .error _ => false

/-- A map that is not committed: the channel runs the hold map, and a map committed for the frame before is dropped
(R156); after the deadline nothing changes a map committed in time (R383). (DEDUCED, log entry 53.) -/
def State.holdMap (s : State) (n frame : Nat) (late : Bool) (w : Nat) (st : List Nat) (x : Committed) : State × Committed :=
  let ch := s.chan (8 * n + w)
  let x := { x with status := st ++ x.status }
  if late && ch.commits.any (fun e => e.1 = frame) then (s, x)
  else (s.setChan (8 * n + w) { ch with commits := ch.commits.filter fun e => e.1 ≠ frame }, { x with hold := w :: x.hold })

/-- One map of a COMMIT for slot `w` of tree `n` (R156, R382), or the place that it waits for with the state and the words of
the map read so far; its first words have been read before as `got`. (DEDUCED, log entry 53.) -/
def State.commitMap (s : State) (n : Nat) (g : Agent) (frame : Nat) (late : Bool) (got : List PWord) (w : Nat) (x : Committed) :
    Except (Place × State × List PWord) (State × Committed) :=
  let fails := fun (s : State) => .ok (s.holdMap n frame late w [gAddr] x)
  if x.status.contains gAddr then .ok (s.holdMap n frame late w [] x)
  else if !s.ownWords n x.addr 1 then fails s
  else match s.engTake n g got x.addr 1 with
    | (s, l, .held p) => .error (p, s, l)
    | (s, l, _) =>
      let h := l.headD PWord.zero
      let k := h.v.bits 8 0
      if !s.ownWords n (x.addr + 1) (2 * k) then fails s
      else match s.engTake n g (got.drop 1) (x.addr + 1) (2 * k) with
        | (s, l, .held p) => .error (p, s, h :: l)
        | (s, l, _) =>
          let bad := h.p || l.any (·.p)
          let m := mapOf n h.v l
          let x := { x with addr := x.addr + 1 + 2 * k, read := x.read ++ h :: l }
          match m, bad || late with
          | some gs, false =>
            let c := 8 * n + w
            let ch := s.chan c
            .ok (s.setChan c { ch with commits := (ch.commits.filter fun e => e.1 ≠ frame) ++ [(frame, gs)] },
              { x with done := w :: x.done, entries := x.entries + k })
          | _, _ =>
            let st := (if bad then [gPoison] else []) ++ (if late then [gLate] else []) ++ (if !bad && m.isNone then [gMap] else [])
            .ok (s.holdMap n frame late w st x)

/-- The maps of a COMMIT in increasing slot. (DEDUCED, log entry 53.) -/
def State.commitMaps (s : State) (n : Nat) (g : Agent) (frame : Nat) (late : Bool) (got : List PWord) :
    List Nat → Committed → Except (Place × State × List PWord) (State × Committed)
  | [], x => .ok (s, x)
  | w :: t, x => match s.commitMap n g frame late (got.drop x.read.length) w x with
    | .error (p, s, l) => .error (p, s, x.read ++ l)
    | .ok (s, x) => s.commitMaps n g frame late got t x

/-- The lowest status other than 0 (R156). -/
def lowestStatus : List Nat → Nat
  | [] => 0
  | st :: t => if lowestStatus t = 0 then st else min st (lowestStatus t)

/-- GRANT_MAP_COMMIT (R156, R382): in time when the engine accepted it before the deadline of its frame. -/
def execGrantMapCommit (n : Nat) (tag : Fin 64) (upset : Bool) (s : State) : Host.Outcome State Fault Refusal :=
  .next (s.engineRow n tag 4 1 1 upset [] State.endZero fun o s =>
    let a := (o.w 1).toNat
    let b := (o.w 2).toNat
    let f := frameOf (lpTicks a b)
    let lastN := s.passedBy n o.accepted
    if coreKind n ≠ 0 then s.endZero n tag gRights
    else if !o.clean [descTop + mask 26 19, 2 ^ 36 - 1, 2 ^ 36 - 1, mask 29 0] || bitsOf b 22 4 ≠ 0 ||
        decide (f ≤ lastN) || decide (lastN + 8 < f) then s.endZero n tag gDesc
    else
      let late := decide (s.deadline n f ≤ (o.accepted : Int))
      let ws := (List.range 8).filter fun w => (o.w 0).bit (19 + w)
      match s.commitMaps n o.agent f late o.got ws { addr := (o.w 3).toNat, done := [], hold := [], entries := 0, status := [] } with
      | .error (p, s, l) => s.keepsRead n o l p
      | .ok (s, x) =>
        let bits := fun (l : List Nat) => (l.map fun w => 2 ^ w).sum
        s.endOp n tag (lowestStatus x.status) x.entries ⟨word (bits x.done + 256 * bits x.hold), false⟩)

/-! ### Counter engine (R157, R543, R548) -/

/-- `k` snapshots from index `x` written from address `a` on, chain word first: how many were written (R157).  A counter
whose words cannot both be written now is read again when they can. (DEDUCED, log entry 54.) -/
def State.snapRun (s : State) (n : Nat) (g : Agent) (x a : Nat) : Nat → State × Nat × Stop
  | 0 => (s, 0, .none)
  | k + 1 =>
    let r := s.snapshot x
    match r.2.engWrite n g (piece a [r.1.1, r.1.2]) with
    | (_, _, .held p) => (s, 0, .held p)
    | (s, _, .failed code) => (s, 0, .failed code)
    | (s, _, .none) =>
      let r := s.snapRun n g (x + 1) (a + 2) k
      (r.1, r.2.1 + 1, r.2.2)

/-- COUNTER_SNAP (R157, R548): it goes on by up to `words` counters. -/
def execCounterSnap (n : Nat) (tag : Fin 64) (upset : Bool) (words : Nat) (s : State) : Host.Outcome State Fault Refusal :=
  .next (s.engineRow n tag 5 1 2 upset [descTop, mask 19 0, mask 29 0, mask 12 0] State.endNone fun o s =>
    let x := (o.w 1).toNat
    let k := (o.w 3).toNat
    if k = 0 ∨ 4096 < k ∨ 2 ^ 20 < x + k then s.endNone n tag gDesc
    else if 524288 < x + k ∧ coreKind n ≠ 3 then s.endNone n tag gRights
    else
      let r := s.snapRun n o.agent (x + o.done) ((o.w 2).toNat + 2 * o.done) (min words (k - o.done))
      let j := o.done + r.2.1
      match r.2.2 with
      | .failed code => let (st, t) := r.1.accStatus code; t.endCount n tag st j
      | stop => if k ≤ j then r.1.endCount n tag gOk j else (r.1.setOp n { o with done := j }).goesOn n o.agent stop)

/-- COUNTER_ADD (R157, R543). -/
def execCounterAdd (n : Nat) (tag : Fin 64) (upset : Bool) (s : State) : Host.Outcome State Fault Refusal :=
  .next (s.engineRow n tag 5 2 2 upset [descTop, mask 19 0, 2 ^ 36 - 1, 0] State.endNone fun o s =>
    let x := (o.w 1).toNat
    if PROG.base + 64 * n ≤ x ∧ x < PROG.base + 64 * n + 64 then
      (s.addCnt PROG (x - PROG.base) (o.w 2).toNat).endOpen n tag gOk
    else s.endNone n tag gRights)

/-- An operation whose access has been granted and answered goes on to its end, or to the next access that waits. -/
def State.engineGoesOn (s : State) (n : Nat) (o : EngOp) : State :=
  let t : Fin 64 := Fin.ofNat 64 o.tag
  let all := 2 ^ 20
  let r : Host.Outcome State Fault Refusal := match o.unit, o.op with
    | 1, k => .next (s.cipherOp n t k false all)
    | 2, 1 => execDmaCopy n t false all s
    | 2, 2 => execDmaFill n t false all s
    | 4, 1 => execGrantMapCommit n t false s
    | 5, 1 => execCounterSnap n t false all s
    | _, _ => .next s
  match r with
  | .next t => t
  | _ => s

end Sys2Proof.Machine
end

