-- ==== Sys2Proof/Machine/HergilAlu.lean ====
section
/-! DEFINITION. The ALU instructions (R128–R130), opcodes 01–07, 10 and 11. -/

namespace Sys2Proof.Machine

/-- An instruction of opcodes 01–07 or 11: `d` receives what `f` gives of two operands and C, all four flags are written,
and result and F are poisoned when an operand was; `usesC` for the operations of which C is an operand (R78, R129). -/
def aluBody (n d : Nat) (x y : CoreSt → PWord) (f : AluOp) (usesC : Bool) (next : Nat) (s : State) : Run :=
  let c := s.core n
  let r := f (x c).v (y c).v c.cf
  let p := (x c).p || (y c).p || (usesC && c.fp)
  .done (s.setCore n ((c.setReg d ⟨r.1, p⟩).setFlags r.2 p)) next 0

/-- The operand of an instruction that has one register operand. -/
def noSrc (_ : CoreSt) : PWord := PWord.zero

/-- A constant operand. -/
def immSrc (w : Word) (_ : CoreSt) : PWord := ⟨w, false⟩

/-- ADD (R130). -/
def execAdd (n : Nat) (d a : HReg) (t : Src) (s : State) : Host.Outcome State Fault Refusal :=
  .next (s.hergil n (.add n d a t) (aluBody n d (·.reg a) (·.src t) aluAdd false))

/-- SUB (R130). -/
def execSub (n : Nat) (d a : HReg) (t : Src) (s : State) : Host.Outcome State Fault Refusal :=
  .next (s.hergil n (.sub n d a t) (aluBody n d (·.reg a) (·.src t) aluSub false))

/-- ADC (R130). -/
def execAdc (n : Nat) (d a : HReg) (t : Src) (s : State) : Host.Outcome State Fault Refusal :=
  .next (s.hergil n (.adc n d a t) (aluBody n d (·.reg a) (·.src t) aluAdc true))

/-- SBC (R130). -/
def execSbc (n : Nat) (d a : HReg) (t : Src) (s : State) : Host.Outcome State Fault Refusal :=
  .next (s.hergil n (.sbc n d a t) (aluBody n d (·.reg a) (·.src t) aluSbc true))

/-- AND (R130). -/
def execAnd (n : Nat) (d a : HReg) (t : Src) (s : State) : Host.Outcome State Fault Refusal :=
  .next (s.hergil n (.and n d a t) (aluBody n d (·.reg a) (·.src t) aluAnd false))

/-- OR (R130). -/
def execOr (n : Nat) (d a : HReg) (t : Src) (s : State) : Host.Outcome State Fault Refusal :=
  .next (s.hergil n (.or n d a t) (aluBody n d (·.reg a) (·.src t) aluOr false))

/-- XOR (R130). -/
def execXor (n : Nat) (d a : HReg) (t : Src) (s : State) : Host.Outcome State Fault Refusal :=
  .next (s.hergil n (.xor n d a t) (aluBody n d (·.reg a) (·.src t) aluXor false))

/-- ANDN (R130). -/
def execAndn (n : Nat) (d a : HReg) (t : Src) (s : State) : Host.Outcome State Fault Refusal :=
  .next (s.hergil n (.andn n d a t) (aluBody n d (·.reg a) (·.src t) aluAndn false))

/-- SHL (R130). -/
def execShl (n : Nat) (d a : HReg) (t : Src) (s : State) : Host.Outcome State Fault Refusal :=
  .next (s.hergil n (.shl n d a t) (aluBody n d (·.reg a) (·.src t) aluShl false))

/-- SHR (R130). -/
def execShr (n : Nat) (d a : HReg) (t : Src) (s : State) : Host.Outcome State Fault Refusal :=
  .next (s.hergil n (.shr n d a t) (aluBody n d (·.reg a) (·.src t) aluShr false))

/-- SAR (R130). -/
def execSar (n : Nat) (d a : HReg) (t : Src) (s : State) : Host.Outcome State Fault Refusal :=
  .next (s.hergil n (.sar n d a t) (aluBody n d (·.reg a) (·.src t) aluSar false))

/-- ROL (R130). -/
def execRol (n : Nat) (d a : HReg) (t : Src) (s : State) : Host.Outcome State Fault Refusal :=
  .next (s.hergil n (.rol n d a t) (aluBody n d (·.reg a) (·.src t) aluRol false))

/-- MUL (R130). -/
def execMul (n : Nat) (d a : HReg) (t : Src) (s : State) : Host.Outcome State Fault Refusal :=
  .next (s.hergil n (.mul n d a t) (aluBody n d (·.reg a) (·.src t) aluMul false))

/-- MULHU (R130). -/
def execMulhu (n : Nat) (d a : HReg) (t : Src) (s : State) : Host.Outcome State Fault Refusal :=
  .next (s.hergil n (.mulhu n d a t) (aluBody n d (·.reg a) (·.src t) aluMulhu false))

/-- MULHS (R130). -/
def execMulhs (n : Nat) (d a : HReg) (t : Src) (s : State) : Host.Outcome State Fault Refusal :=
  .next (s.hergil n (.mulhs n d a t) (aluBody n d (·.reg a) (·.src t) aluMulhs false))

/-- MIN (R130). -/
def execMin (n : Nat) (d a : HReg) (t : Src) (s : State) : Host.Outcome State Fault Refusal :=
  .next (s.hergil n (.min n d a t) (aluBody n d (·.reg a) (·.src t) aluMin false))

/-- MINU (R130). -/
def execMinu (n : Nat) (d a : HReg) (t : Src) (s : State) : Host.Outcome State Fault Refusal :=
  .next (s.hergil n (.minu n d a t) (aluBody n d (·.reg a) (·.src t) aluMinu false))

/-- MAX (R130). -/
def execMax (n : Nat) (d a : HReg) (t : Src) (s : State) : Host.Outcome State Fault Refusal :=
  .next (s.hergil n (.max n d a t) (aluBody n d (·.reg a) (·.src t) aluMax false))

/-- MAXU (R130). -/
def execMaxu (n : Nat) (d a : HReg) (t : Src) (s : State) : Host.Outcome State Fault Refusal :=
  .next (s.hergil n (.maxu n d a t) (aluBody n d (·.reg a) (·.src t) aluMaxu false))

/-- SHLI (R130): the amount is the sh field. -/
def execShli (n : Nat) (d a : HReg) (sh : Fin 64) (s : State) : Host.Outcome State Fault Refusal :=
  .next (s.hergil n (.shli n d a sh) (aluBody n d (·.reg a) (immSrc (word sh)) aluShl false))

/-- SHRI (R130): the amount is the sh field. -/
def execShri (n : Nat) (d a : HReg) (sh : Fin 64) (s : State) : Host.Outcome State Fault Refusal :=
  .next (s.hergil n (.shri n d a sh) (aluBody n d (·.reg a) (immSrc (word sh)) aluShr false))

/-- SARI (R130): the amount is the sh field. -/
def execSari (n : Nat) (d a : HReg) (sh : Fin 64) (s : State) : Host.Outcome State Fault Refusal :=
  .next (s.hergil n (.sari n d a sh) (aluBody n d (·.reg a) (immSrc (word sh)) aluSar false))

/-- ROLI (R130): the amount is the sh field. -/
def execRoli (n : Nat) (d a : HReg) (sh : Fin 64) (s : State) : Host.Outcome State Fault Refusal :=
  .next (s.hergil n (.roli n d a sh) (aluBody n d (·.reg a) (immSrc (word sh)) aluRol false))

/-- CMP (R130): flags only. -/
def execCmp (n : Nat) (a : HReg) (t : Src) (s : State) : Host.Outcome State Fault Refusal :=
  .next (s.hergil n (.cmp n a t) (aluBody n 0 (·.reg a) (·.src t) aluSub false))

/-- TST (R130): flags only. -/
def execTst (n : Nat) (a : HReg) (t : Src) (s : State) : Host.Outcome State Fault Refusal :=
  .next (s.hergil n (.tst n a t) (aluBody n 0 (·.reg a) (·.src t) aluAnd false))

/-- MOV (R130). -/
def execMov (n : Nat) (d a : HReg) (x : Bool) (s : State) : Host.Outcome State Fault Refusal :=
  .next (s.hergil n (.mov n d a x) (aluBody n d (·.reg a) noSrc aluMov false))

/-- POP (R130). -/
def execPop (n : Nat) (d a : HReg) (x : Bool) (s : State) : Host.Outcome State Fault Refusal :=
  .next (s.hergil n (.pop n d a x) (aluBody n d (·.reg a) noSrc aluPop false))

/-- CLZ (R130). -/
def execClz (n : Nat) (d a : HReg) (x : Bool) (s : State) : Host.Outcome State Fault Refusal :=
  .next (s.hergil n (.clz n d a x) (aluBody n d (·.reg a) noSrc aluClz false))

/-- BFX (R130). -/
def execBfx (n : Nat) (d a : HReg) (t : Src) (width : Fin 36) (s : State) : Host.Outcome State Fault Refusal :=
  .next (s.hergil n (.bfx n d a t width) (aluBody n d (·.reg a) (·.src t) (aluBfx (width.val + 1)) false))

/-- ADDI (R128). -/
def execAddi (n : Nat) (d a : HReg) (imm : BitVec 18) (s : State) : Host.Outcome State Fault Refusal :=
  .next (s.hergil n (.addi n d a imm) (aluBody n d (·.reg a) (immSrc (sextW imm)) aluAdd false))

/-- ANDI (R128). -/
def execAndi (n : Nat) (d a : HReg) (imm : BitVec 18) (s : State) : Host.Outcome State Fault Refusal :=
  .next (s.hergil n (.andi n d a imm) (aluBody n d (·.reg a) (immSrc (zextW imm)) aluAnd false))

/-- ORI (R128). -/
def execOri (n : Nat) (d a : HReg) (imm : BitVec 18) (s : State) : Host.Outcome State Fault Refusal :=
  .next (s.hergil n (.ori n d a imm) (aluBody n d (·.reg a) (immSrc (zextW imm)) aluOr false))

/-- XORI (R128). -/
def execXori (n : Nat) (d a : HReg) (imm : BitVec 18) (s : State) : Host.Outcome State Fault Refusal :=
  .next (s.hergil n (.xori n d a imm) (aluBody n d (·.reg a) (immSrc (zextW imm)) aluXor false))

/-- CMPI (R128): flags only. -/
def execCmpi (n : Nat) (a : HReg) (imm : BitVec 18) (s : State) : Host.Outcome State Fault Refusal :=
  .next (s.hergil n (.cmpi n a imm) (aluBody n 0 (·.reg a) (immSrc (sextW imm)) aluSub false))

/-- LUI (R128). -/
def execLui (n : Nat) (d : HReg) (imm : BitVec 18) (s : State) : Host.Outcome State Fault Refusal :=
  .next (s.hergil n (.lui n d imm) (aluBody n d noSrc (immSrc (zextW imm)) aluLui false))

/-- LI (R128, R129): no flag is written. -/
def execLi (n : Nat) (d : HReg) (imm : Word) (s : State) : Host.Outcome State Fault Refusal :=
  .next (s.hergil n (.li n d imm) fun next s => .done (s.setCore n ((s.core n).setReg d ⟨imm, false⟩)) next 0)

end Sys2Proof.Machine
end

