-- ==== Sys2Proof/Machine/HergilCtl.lean ====
section
/-! DEFINITION. Branches and calls (R131, R138), position-scheduled instructions and armed actions (R139–R146), `issue`
and the completion instructions (R147–R150), and the system instructions (R159, R160). -/

namespace Sys2Proof.Machine

open Ev Reg

/-! ### Branches and calls -/

/-- A branch taken to `target` by core `n`. (DEDUCED, log entry 44.) -/
def State.branchTo (s : State) (n target : Nat) : Run := .done (s.branched n) target 0

/-- BR as it runs (R131, R158). -/
def brBody (n : Nat) (c : Cond) (disp : BitVec 18) (next : Nat) (s : State) : Run :=
  let k := s.core n
  let t := relTarget k.pc disp
  match condReg c with
  | some (r, f) =>
    if (k.reg r).p then .trap s xPoison
    else if f (k.reg r).v then s.branchTo n t else .done s next 0
  | none =>
    if c ≠ .al ∧ k.fp = true then .trap s xPoison
    else if k.flags.holds c then s.branchTo n t else .done s next 0

/-- BDEC as it runs (R128, R158); on `g0` the result is −1 and the write is discarded. -/
def bdecBody (n : Nat) (a : HReg) (disp : BitVec 18) (next : Nat) (s : State) : Run :=
  let c := s.core n
  let x := (c.reg a).v - 1
  let s' := s.setCore n (c.setReg a ⟨x, false⟩)
  if (c.reg a).p then .trap s xPoison
  else if x ≠ 0 then s'.branchTo n (relTarget c.pc disp) else .done s' next 0

/-- BR (R131). -/
def execBr (n : Nat) (c : Cond) (disp : BitVec 18) (s : State) : Host.Outcome State Fault Refusal :=
  .next (s.hergil n (.br n c disp) (brBody n c disp))

/-- JMP (R138). -/
def execJmp (n : Nat) (disp : BitVec 24) (s : State) : Host.Outcome State Fault Refusal :=
  .next (s.hergil n (.jmp n disp) fun _ s => s.branchTo n (relTarget (s.core n).pc disp))

/-- CALL (R138). -/
def execCall (n : Nat) (d : HReg) (disp : BitVec 24) (s : State) : Host.Outcome State Fault Refusal :=
  .next (s.hergil n (.call n d disp) fun next s =>
    (s.setCore n ((s.core n).setReg d ⟨word next, false⟩)).branchTo n (relTarget (s.core n).pc disp))

/-- JR as it runs (R138): its effective address is its target (R161). (DEDUCED, log entry 44.) -/
def jrBody (n : Nat) (d a : HReg) (next : Nat) (s : State) : Run :=
  let c := s.core n
  if (c.reg a).p then .trap s xPoison
  else
    let t := (c.reg a).v.toNat
    .done ((s.setCore n (c.setReg d ⟨word next, false⟩)).branched n) t t

/-- JR (R138). -/
def execJr (n : Nat) (d a : HReg) (s : State) : Host.Outcome State Fault Refusal :=
  .next (s.hergil n (.jr n d a) (jrBody n d a))

/-- BDEC (R128). -/
def execBdec (n : Nat) (a : HReg) (disp : BitVec 18) (s : State) : Host.Outcome State Fault Refusal :=
  .next (s.hergil n (.bdec n a disp) (bdecBody n a disp))

/-! ### LP operands (R9, R139–R141) -/

/-- The poison and the tick of the LP in a pair; no tick when it is invalid (R140). (DEDUCED, log entry 43.) -/
def CoreSt.lpPair (c : CoreSt) (p : HPair) : Bool × Option Nat :=
  let a := c.reg (pairLo p)
  let b := c.reg (pairHi p)
  (a.p || b.p, if lpOk b.v.toNat then some (lpTicks a.v.toNat b.v.toNat) else none)

/-- The core with C written and no other flag, by an instruction whose operands are all clean (R129). (DEDUCED, log entry 41.) -/
def CoreSt.setC (c : CoreSt) (b : Bool) : CoreSt := { c with cf := b, fp := false }

/-- WAITP as it runs (R139, R140, R158): an operand equal to the LP of the clock in which it begins has not yet passed.
(DEDUCED, log entry 108.) -/
def waitpBody (n : Nat) (p : HPair) (next : Nat) (s : State) : Run :=
  let c := s.core n
  match c.lpPair p with
  | (true, _) => .trap s xPoison
  | (false, none) => .trap s xLpBad
  | (false, some t) =>
    if t ≤ s.clockLp then .done (s.setCore n (c.setC (decide (t < s.clockLp)))) next 0 else .stay s

/-- WAITP (R139). -/
def execWaitp (n : Nat) (p : HPair) (s : State) : Host.Outcome State Fault Refusal :=
  .next (s.hergil n (.waitp n p) (waitpBody n p))

/-- The instruction at which core `n` waits, when it is RUNNING. -/
def State.waiting (s : State) (n : Nat) : Option Instr := if s.up && s.coreState n = cRunning then (s.core n).wait else none

/-- The address after the instruction at which core `n` waits: each that waits is one word. (DEDUCED, log entry 45.) -/
def State.afterWait (s : State) (n : Nat) : Nat := ((s.core n).pc + instrLen (s.core n).waitWord) % 2 ^ 30

/-- WAITP_LP_REACHED (R139). -/
def execWaitpLpReached (n : Nat) (s : State) : Host.Outcome State Fault Refusal :=
  .next (
    match s.waiting n with
    | some (.waitp k p) =>
      match (s.core n).lpPair p with
      | (_, some t) =>
        if t ≤ s.clockLp then
          s.settle n (.waitp k p) (s.core n).waitWord (.done (s.setCore n ((s.core n).setC false)) (s.afterWait n) 0)
        else s
      | _ => s
    | _ => s)

/-- RDLP (R141). -/
def execRdlp (n : Nat) (d : HPair) (s : State) : Host.Outcome State Fault Refusal :=
  .next (s.hergil n (.rdlp n d) fun next s =>
    .done (s.setCore n ((s.core n).setPair d ⟨word (lpA s.clockLp), false⟩ ⟨word (lpB s.clockLp), false⟩)) next 0)

/-- LPADD as it runs (R10, R140, R141). (DEDUCED, log entry 43.) -/
def lpaddBody (n : Nat) (d p : HPair) (t : HReg) (next : Nat) (s : State) : Run :=
  let c := s.core n
  let (bad, lp) := c.lpPair p
  match lp with
  | none => .trap s xLpBad
  | some x =>
    let y := x + (c.reg t).v.toNat
    let q := bad || (c.reg t).p
    if 2 ^ 36 * ticksSf ≤ y then .trap s xLpBad
    else .done (s.setCore n (c.setPair d ⟨word (lpA y), q⟩ ⟨word (lpB y), q⟩)) next 0

/-- LPADD (R141). -/
def execLpadd (n : Nat) (d p : HPair) (t : HReg) (s : State) : Host.Outcome State Fault Refusal :=
  .next (s.hergil n (.lpadd n d p t) (lpaddBody n d p t))

/-! ### Descriptors (R147, R152) -/

/-- The length of a descriptor by its UNIT; none for a UNIT that `issue` refuses (R152). -/
def descLen (unit : Nat) : Option Nat :=
  if unit = 1 then some 7 else if 2 ≤ unit ∧ unit ≤ 5 then some 4 else none

/-- `k` words from address `a` as a core loads them: the first error response or hold-back ends it. -/
def State.loadWords (s : State) (n a : Nat) : Nat → Acc (List PWord)
  | 0 => .ok s []
  | k + 1 => (s.loadWord n .core a 15).andThen fun s x => (s.loadWords n (a + 1) k).andThen fun s l => .ok s (x :: l)

/-- The descriptor at `a`, read and checked (R147 step 4). -/
def State.readDesc (s : State) (n a : Nat) : Acc (List PWord) :=
  (s.loadWord n .core a 15).andThen fun s w =>
    if w.p then .bad s xPoison
    else match descLen (w.v.bits 35 33) with
      | none => .bad s xResVal
      | some k => (s.loadWords n (a + 1) (k - 1)).andThen fun s l =>
        if l.any (·.p) then .bad s xPoison else .ok s (w :: l)

/-- UNIT and OP of a descriptor. -/
def descUnit (d : List PWord) : Nat := (d.headD PWord.zero).v.bits 35 33
def descOp (d : List PWord) : Nat := (d.headD PWord.zero).v.bits 32 27

/-! ### `at` and `atcan` (R142, R143, R146) -/

/-- KIND, LE, ADDR and TAG of an action block. -/
def blkKind (w0 : Word) : Nat := w0.bits 35 34
def blkLe (w0 : Word) : Nat := w0.bits 33 30
def blkAddr (w0 : Word) : Nat := w0.bits 29 0
def blkTag (w1 : Word) : Nat := w1.bits 5 0

/-- Whether an action block holds no reserved value (R142, R143). -/
def blkOk (w0 w1 : Word) : Bool :=
  blkKind w0 = 0 ||
    (blkKind w0 ≠ 3 && blkLe w0 = 0 && w1.bits 35 6 = 0 && (blkKind w0 = 1 || blkAddr w0 = 0))

/-- The lowest free arm slot. -/
def CoreSt.freeSlot (c : CoreSt) : Option Nat := (List.range 16).find? fun k => !(c.slots.any fun e => e.1 = k)

/-- Whether a tag is busy. -/
def CoreSt.isBusy (c : CoreSt) (tag : Nat) : Bool := c.busy.contains tag

/-- The core with a tag made busy, and with a tag freed. -/
def CoreSt.takeTag (c : CoreSt) (tag : Nat) : CoreSt := { c with busy := tag :: c.busy }
def CoreSt.freeTag (c : CoreSt) (tag : Nat) : CoreSt := { c with busy := c.busy.filter (· ≠ tag) }

/-- The slot is armed (R142, R144). -/
def State.arm (s : State) (n : Nat) (d : HReg) (slot : Nat) (x : AtSlot) (next : Nat) : Run :=
  let late := decide (x.lp ≤ s.clockLp)
  let c := s.core n
  let c := if blkKind x.w0 = 0 then c else c.takeTag (blkTag x.w1)
  let c := ({ c with slots := c.slots ++ [(slot, x)] }.setC late).setReg d ⟨word slot, false⟩
  let s := s.setCore n c
  .done (if late then s.count AT_LATE n else s) next x.ea

/-- AT after its block and descriptor are read and checked: the tag, then the slot (R142, R143). -/
def State.armChecked (s : State) (n : Nat) (d : HReg) (x : AtSlot) (next : Nat) : Run :=
  if blkKind x.w0 ≠ 0 ∧ (s.core n).isBusy (blkTag x.w1) = true then .trap s xTagBusy
  else match (s.core n).freeSlot with
    | none => .trap s xAtFull
    | some slot => s.arm n d slot x next

/-- The word at which core `n` is, as its records name it. -/
def State.wordAt (s : State) (n : Nat) : Word :=
  match s.fetchPlace n (s.core n).pc with
  | some p => (s.fetchWord p).1.v
  | none => 0

/-- AT as it runs, in the order of the pseudocode of R142–R146. -/
def atBody (n : Nat) (d : HReg) (p : HPair) (t : HReg) (next : Nat) (s : State) : Run :=
  let c := s.core n
  let (bad, lp) := c.lpPair p
  let ea := (c.reg t).v.toNat
  if bad || (c.reg t).p then .trap s xPoison
  else match lp with
    | none => .trap s xLpBad
    | some lp => match s.loadWords n ea 2 with
      | .bad s code => .trap s code
      | .held p => .held s p
      | .ok s l =>
        let w0 := (l.getD 0 PWord.zero).v
        let w1 := (l.getD 1 PWord.zero).v
        if l.any (·.p) then .trap s xPoison
        else if !blkOk w0 w1 then .trap s xResVal
        else
          let x : AtSlot := ⟨lp, w0, w1, [], c.pc, s.wordAt n, ea, s.clock⟩
          if blkKind w0 = 1 then
            match s.readDesc n (blkAddr w0) with
            | .bad s code => .trap s code
            | .held p => .held s p
            | .ok s desc => s.armChecked n d { x with desc := desc } next
          else s.armChecked n d x next

/-- AT (R142). -/
def execAtArm (n : Nat) (d : HReg) (p : HPair) (t : HReg) (s : State) : Host.Outcome State Fault Refusal :=
  .next (s.hergil n (.atArm n d p t) (atBody n d p t))

/-- A slot becomes free. -/
def CoreSt.dropSlot (c : CoreSt) (slot : Nat) : CoreSt := { c with slots := c.slots.filter fun e => e.1 ≠ slot }

/-- The action of an arm slot. -/
def CoreSt.slot (c : CoreSt) (k : Nat) : Option AtSlot := (c.slots.find? fun e => e.1 = k).map (·.2)

/-- Whether an action is due: armed in an earlier clock, its LP reached (R144). -/
def AtSlot.due (x : AtSlot) (s : State) : Bool := decide (x.lp ≤ s.clockLp) && decide (x.armed < s.clock)

/-- The slot that fires in this clock, of those due the one of the lowest LP, then the lowest slot; none when an action
has fired in it already (R144). -/
def State.dueSlot (s : State) (n : Nat) : Option (Nat × AtSlot) :=
  if (s.core n).fired = s.clock + 1 then none
  else
    (s.core n).slots.foldl
      (fun best e =>
        if !e.2.due s then best
        else match best with
          | none => some e
          | some b => if e.2.lp < b.2.lp ∨ (e.2.lp = b.2.lp ∧ e.1 < b.1) then some e else best)
      none

/-- ATCAN as it runs (R146): the action that fires in this clock is not cancelled. -/
def atcanBody (n : Nat) (d a : HReg) (next : Nat) (s : State) : Run :=
  let c := s.core n
  let k := (c.reg a).v.toNat
  if (c.reg a).p then .trap s xPoison
  else if 15 < k then .trap s xResVal
  else match c.slot k with
    | none => .done (s.setCore n (c.setReg d PWord.zero)) next 0
    | some x =>
      if (s.dueSlot n).any fun e => e.1 = k then .done (s.setCore n (c.setReg d PWord.zero)) next 0
      else
      let c := c.dropSlot k
      let c := if blkKind x.w0 = 0 then c else c.freeTag (blkTag x.w1)
      .done (s.setCore n (c.setReg d ⟨1, false⟩)) next 0

/-- ATCAN (R146). -/
def execAtcan (n : Nat) (d a : HReg) (s : State) : Host.Outcome State Fault Refusal :=
  .next (s.hergil n (.atcan n d a) (atcanBody n d a))

/-! ### Armed actions that fall due (R144, R145, R524) -/


/-- The action of `slot` of core `n` when it is the one that fires now and is of a kind. -/
def State.firing (s : State) (n slot kind : Nat) : Option AtSlot :=
  if !s.up || s.coreState n = cOff then none
  else match s.dueSlot n with
    | some (k, x) => if k = slot ∧ blkKind x.w0 = kind then some x else none
    | none => none

/-- A timed store that is not made (R145). -/
def State.atErr (s : State) (n slot addr : Nat) : State :=
  (s.count AT_ERR n).occur CORE_AT_ERR n [n, slot, addr]

/-- An action of core `n` fires: its slot is free, and no other fires in this clock (R144). -/
def State.fired (s : State) (n slot : Nat) : State :=
  s.setCore n { (s.core n).dropSlot slot with fired := s.clock + 1 }

/-- AT_TIMED_STORE (R144, R145); `upset` when a word of the slot is uncorrectable (R524).  A store that cannot be served
at once waits at the matrix, in an ordering domain of its own. -/
def execAtTimedStore (n : Nat) (slot : Fin 16) (upset : Bool) (s : State) : Host.Outcome State Fault Refusal :=
  .next (
    match s.firing n slot 0 with
    | none => s
    | some x =>
      let s := s.fired n slot
      if upset then (s.noteUpset n true).atErr n slot (blkAddr x.w0)
      else
        let g : Agent := .timed slot s.now (blkAddr x.w0)
        match s.storeWord n g (blkAddr x.w0) (blkLe x.w0) ⟨x.w1, false⟩ with
        | .held p => s.request n g p (some (blkLe x.w0, ⟨x.w1, false⟩))
        | .bad s _ => s.atErr n slot (blkAddr x.w0)
        | .ok s _ => s)

/-- A kind 1 or kind 2 slot with an uncorrectable word (R524): COUNT and RESULT of its completion are open. (DEDUCED, log entry 42.) -/
def State.slotUpset (s : State) (n slot : Nat) (x : AtSlot) : State :=
  let e : RingEnt := ⟨blkTag x.w1, 0, gPoison, Config.open s.free % 2 ^ 18, ⟨word (Config.open (s.free + 1)), false⟩, s.clock⟩
  (((s.used 2).fired n slot).noteUpset n true).postEntry n e

/-- An engine takes an operation: it is outstanding, and ENG_OUT rises (R147). -/
def State.accept (s : State) (n : Nat) (o : EngOp) : State := s.setOps n ((s.core n).ops ++ [o])

/-- AT_TIMED_ISSUE (R144): the descriptor goes to its engine as if issued now. -/
def execAtTimedIssue (n : Nat) (slot : Fin 16) (upset : Bool) (s : State) : Host.Outcome State Fault Refusal :=
  .next (
    match s.firing n slot 1 with
    | none => s
    | some x =>
      if upset then s.slotUpset n slot x
      else (s.fired n slot).accept n
        { tag := blkTag x.w1, unit := descUnit x.desc, desc := x.desc, accepted := s.now, pc := x.pc, iw := x.iw, ea := x.ea })

/-- AT_SIGNAL (R144). -/
def execAtSignal (n : Nat) (slot : Fin 16) (upset : Bool) (s : State) : Host.Outcome State Fault Refusal :=
  .next (
    match s.firing n slot 2 with
    | none => s
    | some x =>
      if upset then s.slotUpset n slot x
      else (s.fired n slot).postEntry n ⟨blkTag x.w1, 0, gOk, 0, ⟨word (lpB s.clockLp), false⟩, s.clock⟩)

/-! ### `issue` (R147) -/

/-- Steps 5 and 6 of R147: with room, the engine accepts; without, the core waits with the descriptor read.  `iw` and `ea`
are the instruction's word and the descriptor's address, for its sampling record. -/
def State.postOp (s : State) (n tag : Nat) (desc : List PWord) (iw : Word) (ea : Nat) (room : Bool) (next : Nat) : Run :=
  let c := s.core n
  if room then
    .done ((s.setCore n (c.takeTag tag)).accept n
      { tag := tag, unit := descUnit desc, desc := desc, accepted := s.now, pc := c.pc, iw := iw, ea := ea }) next ea
  else .stay (s.setCore n { c with waitDesc := desc })

/-- ISSUE as it runs (R147): `room` when the engine has queue space at once. -/
def issueBody (n : Nat) (a : HReg) (tag : TagSrc) (room : Bool) (next : Nat) (s : State) : Run :=
  let c := s.core n
  let iw := if c.wait.isSome then c.waitWord else s.wordAt n
  let ea := (c.reg a).v.toNat
  if (c.reg a).p || c.tagPoison tag then .trap s xPoison
  else if c.isBusy (c.tag tag) then .trap s xTagBusy
  else if s.domainBusy n .core then .stay s
  else match s.readDesc n ea with
    | .bad s code => .trap s code
    | .held p => .held s p
    | .ok s desc => s.postOp n (c.tag tag) desc iw ea room next

/-- ISSUE (R147). -/
def execIssue (n : Nat) (a : HReg) (tag : TagSrc) (room : Bool) (s : State) : Host.Outcome State Fault Refusal :=
  .next (s.hergil n (.issue n a tag false) (issueBody n a tag room))

/-- ENGINE_ACCEPT (R147 steps 5 and 6). -/
def execEngineAccept (n : Nat) (s : State) : Host.Outcome State Fault Refusal :=
  .next (
    match s.waiting n with
    | some (.issue k a tag r) =>
      let c := s.core n
      if c.waitDesc.isEmpty then s
      else s.settle n (.issue k a tag r) c.waitWord (s.postOp n (c.tag tag) c.waitDesc c.waitWord (c.reg a).v.toNat true (s.afterWait n))
    | _ => s)

/-! ### Taking completions (R150, R524) -/

/-- The entry `e` is taken into pair `d`; `upset` when a word of it is uncorrectable. (DEDUCED, log entry 42.) -/
def State.takeEntry (s : State) (n : Nat) (d : HPair) (e : RingEnt) (upset : Bool) (next : Nat) : Run :=
  let s := s.noteUpset n upset
  let c := s.core n
  let c := { c with ring := c.ring.filter fun x => x.tag ≠ e.tag }.freeTag e.tag
  let c := c.setPair d ⟨word e.word0, upset⟩ ⟨e.result.v, e.result.p || upset⟩
  .done (s.setCore n (c.setFlags ⟨false, decide (e.status = 0), false, false⟩ (e.result.p || upset))) next 0

/-- STATUS 511: a `waitt` of a tag that is not busy, or a `waita` with no tag busy (R150). (DEDUCED, log entry 45.) -/
def State.waitFree (s : State) (n : Nat) (d : HPair) (tag next : Nat) : Run :=
  let c := (s.core n).setPair d ⟨word (tag * 2 ^ 30 + 511 * 2 ^ 18), false⟩ PWord.zero
  .done ((s.setCore n (c.setFlags ⟨false, false, false, false⟩ false)).count ENG_WAIT_FREE n) next 0

/-- WAITT as it runs (R150). -/
def waittBody (n : Nat) (d : HPair) (tag : TagSrc) (upset : Bool) (next : Nat) (s : State) : Run :=
  let c := s.core n
  let k := c.tag tag
  if c.tagPoison tag then .trap s xPoison
  else if !c.isBusy k then s.waitFree n d k next
  else match (c.seen s.clock).find? fun e => e.tag = k with
    | some e => s.takeEntry n d e upset next
    | none => .stay s

/-- WAITA as it runs (R150). -/
def waitaBody (n : Nat) (d : HPair) (upset : Bool) (next : Nat) (s : State) : Run :=
  let c := s.core n
  match c.seen s.clock with
  | e :: _ => s.takeEntry n d e upset next
  | [] => if c.busy.isEmpty then s.waitFree n d 0 next else .stay s

/-- CPOP as it runs (R150): from an empty ring the pair is zero, whose STATUS is 0. (DEDUCED, log entry 42.) -/
def cpopBody (n : Nat) (d : HPair) (upset : Bool) (next : Nat) (s : State) : Run :=
  let c := s.core n
  match c.seen s.clock with
  | e :: _ => s.takeEntry n d e upset next
  | [] => .done (s.setCore n ((c.setPair d PWord.zero PWord.zero).setFlags ⟨false, true, true, false⟩ false)) next 0

/-- WAITT (R150). -/
def execWaitt (n : Nat) (d : HPair) (tag : TagSrc) (upset : Bool) (s : State) : Host.Outcome State Fault Refusal :=
  .next (s.hergil n (.waitt n d tag false) (waittBody n d tag upset))

/-- WAITA (R150). -/
def execWaita (n : Nat) (d : HPair) (upset : Bool) (s : State) : Host.Outcome State Fault Refusal :=
  .next (s.hergil n (.waita n d false) (waitaBody n d upset))

/-- CPOP (R150). -/
def execCpop (n : Nat) (d : HPair) (upset : Bool) (s : State) : Host.Outcome State Fault Refusal :=
  .next (s.hergil n (.cpop n d false) (cpopBody n d upset))

/-- COMPLETION_AWAITED_POSTED (R150). -/
def execCompletionAwaitedPosted (n : Nat) (upset : Bool) (s : State) : Host.Outcome State Fault Refusal :=
  .next (
    let c := s.core n
    match s.waiting n with
    | some (.waitt k d tag u) =>
      match (c.seen s.clock).find? fun e => e.tag = c.tag tag with
      | some e => s.settle n (.waitt k d tag u) c.waitWord (s.takeEntry n d e upset (s.afterWait n))
      | none => s
    | some (.waita k d u) =>
      match c.seen s.clock with
      | e :: _ => s.settle n (.waita k d u) c.waitWord (s.takeEntry n d e upset (s.afterWait n))
      | [] => s
    | _ => s)

/-! ### System instructions (R159, R160) -/

/-- NOP (R160). -/
def execNop (n : Nat) (s : State) : Host.Outcome State Fault Refusal := .next (s.hergil n (.nop n) fun next s => .done s next 0)

/-- HALT (R160): the core stops after it, as a write of HALT. -/
def execHalt (n : Nat) (s : State) : Host.Outcome State Fault Refusal :=
  .next (s.hergil n (.halt n) fun next s => .done (s.setCore n { s.core n with haltReq := true }) next 0)

/-- BRK (R160). -/
def execBrk (n : Nat) (s : State) : Host.Outcome State Fault Refusal := .next (s.hergil n (.brk n) fun _ s => .trap s xBreak)

/-- Whether a request is one that `fence` waits for: an access of the core, or a timed store that has fired. -/
def Agent.fenced : Agent → Bool
  | .core | .timed .. => true
  | .op .. | .link _ | .row _ => false

/-- FENCE as it runs (R160). -/
def fenceBody (n : Nat) (next : Nat) (s : State) : Run :=
  if s.mtx.any fun r => r.core = n && r.by_.fenced && r.stage ≠ .served then .stay s else .done s next 0

/-- FENCE (R160). -/
def execFence (n : Nat) (s : State) : Host.Outcome State Fault Refusal := .next (s.hergil n (.fence n) (fenceBody n))

/-- RDF (R160). -/
def execRdf (n : Nat) (d : HReg) (s : State) : Host.Outcome State Fault Refusal :=
  .next (s.hergil n (.rdf n d) fun next s =>
    let c := s.core n
    .done (s.setCore n (c.setReg d ⟨c.flags.word, c.fp⟩)) next 0)

/-- WRF (R160). -/
def execWrf (n : Nat) (a : HReg) (s : State) : Host.Outcome State Fault Refusal :=
  .next (s.hergil n (.wrf n a) fun next s =>
    let c := s.core n
    .done (s.setCore n (c.setFlags (flagsOfWord (c.reg a).v) (c.reg a).p)) next 0)

/-- PCHK (R159): Z alone, and F is clean or poisoned as its operand is (R129). (DEDUCED, log entry 41.) -/
def execPchk (n : Nat) (a : HReg) (s : State) : Host.Outcome State Fault Refusal :=
  .next (s.hergil n (.pchk n a) fun next s =>
    let c := s.core n
    .done (s.setCore n { c with zf := (c.reg a).p, fp := (c.reg a).p }) next 0)

/-- PCLR (R159). -/
def execPclr (n : Nat) (d a : HReg) (s : State) : Host.Outcome State Fault Refusal :=
  .next (s.hergil n (.pclr n d a) fun next s =>
    let c := s.core n
    .done ((s.setCore n (c.setReg d ⟨(c.reg a).v, false⟩)).count POISON_CLR n) next 0)

/-- SMARK (R160, R564): a mark record whatever the selection. -/
def execSmark (n : Nat) (a : HReg) (s : State) : Host.Outcome State Fault Refusal :=
  .next (s.hergil n (.smark n a) fun next s => .marked s next ((s.core n).reg a))

/-- RDCYC (R160): clocks of 4 ticks since the start. (DEDUCED, log entry 55.) -/
def execRdcyc (n : Nat) (d : HReg) (s : State) : Host.Outcome State Fault Refusal :=
  .next (s.hergil n (.rdcyc n d) fun next s =>
    .done (s.setCore n ((s.core n).setReg d ⟨word (s.clock - (s.core n).startT / 4), false⟩)) next 0)

/-- ILLEGAL_INSTRUCTION (R126, R162): the next word of the core is one that R126 calls illegal. (DEDUCED, log entry 10.) -/
def execIllegalInstruction (n : Nat) (s : State) : Host.Outcome State Fault Refusal :=
  .next (
    if !s.begins n then s
    else match s.fetch n with
      | .illegal s' => s'.raiseExc n (s.core n).pc xIllegal
      | .bad s' code => s'.raiseExc n (s.core n).pc code
      | _ => s)

end Sys2Proof.Machine
end

