-- ==== Sys2Proof/Machine/Matrix.lean ====
section
/-! DEFINITION. The bus matrices for the requests that could not be served in the step of their instruction: admission,
arbitration and response (R101–R107). -/

namespace Sys2Proof.Machine

open Ev Reg

/-- The place of a request. -/
def MtxReq.place (r : MtxReq) : Option Place := globalPlace r.addr

/-- Whether a target holds a request back: not a window that was open when the request was issued (R95). -/
def State.targetHeld (s : State) (r : MtxReq) : Bool :=
  match globalPlace r.addr with
  | some p => r.win.isNone && s.heldBack p
  | none => false

/-- The list with the first entry equal to `r` replaced. -/
def replaceFirst (r q : MtxReq) : List MtxReq → List MtxReq
  | [] => []
  | x :: t => if x = r then q :: t else x :: replaceFirst r q t

/-- The list without its first entry equal to `r`. -/
def removeFirst (r : MtxReq) : List MtxReq → List MtxReq
  | [] => []
  | x :: t => if x = r then t else x :: removeFirst r t

/-- A request moves to a stage. -/
def State.stageTo (s : State) (r : MtxReq) (st : ReqStage) : State :=
  { s with mtx := replaceFirst r { r with stage := st } s.mtx }

/-- Whether the ordering domain of a request no longer holds it back: each earlier request of the domain that has no
response is to the same target (R101). -/
def State.released (s : State) (r : MtxReq) : Bool :=
  (s.mtx.takeWhile (· ≠ r)).all fun q => q.core ≠ r.core || q.by_ ≠ r.by_ || targetPort q.addr = targetPort r.addr

/-- Whether a request can move toward its target now (R101, R102). -/
def State.movable (s : State) (r : MtxReq) : Bool :=
  match r.stage with
  | .heldBack => s.released r
  | .waiting => !s.targetHeld r
  | .admitted | .granted | .served => false

/-- MATRIX_ADMIT (R101, R102): the first request of core `n` that can move is released by its ordering domain, waits at
its master port, or is admitted; `room` when every bridge on its path has space for the whole burst. (DESIGN CHOICE, log entry 48.) -/
def execMatrixAdmit (n : Nat) (room : Bool) (s : State) : Host.Outcome State Fault Refusal :=
  .next (
    match s.mtx.find? fun r => r.core = n && s.movable r with
    | none => s
    | some r =>
      if room && !s.targetHeld r then { s with mtx := replaceFirst r { r with stage := .admitted, adm := s.now } s.mtx }
      else if r.stage = .heldBack then (s.stageTo r .waiting).count MTX_HOLD_DL (matrixOf n)
      else s)

/-- The ID of a request's master (R100). -/
def MtxReq.master (r : MtxReq) : Nat := masterId r.core r.by_.unit

/-- Whether a request is of the urgent class: a T-core or its grant-map engine to the `TREE` and `CH` blocks of its own
tree (R103). -/
def MtxReq.urgent (r : MtxReq) : Bool :=
  decide (r.core < 64) && (r.by_.unit = 0 || r.by_.unit = 4) && decide (0o400000000 ≤ r.addr) &&
    decide (r.addr < 0o401400000) && regDomain r.addr = r.core

/-- The starvation bound of the matrix of a target, in clocks (R103, R111). (DEDUCED, log entry 49.) -/
def State.starve (s : State) (a : Nat) : Nat :=
  let x := targetMatrix a
  if x = 0 then s.rd MTX_CTL_STARVE else s.rd KMTX_CTL_STARVE (x - 1)

/-- The request that round robin chooses after the master granted last; `last` is its ID plus one (R103). -/
def roundRobin (last : Nat) (l : List MtxReq) : Option MtxReq :=
  let least := fun (l : List MtxReq) => l.foldl
    (fun (b : Option MtxReq) r => match b with
      | none => some r
      | some q => if r.master < q.master then some r else some q) none
  match least (l.filter fun r => decide (last ≤ r.master)) with
  | some r => some r
  | none => least l

/-- The requests that have waited longest, by the clock of their arrival. -/
def longest (l : List MtxReq) : List MtxReq := l.filter fun r => l.all fun q => decide (r.since / 4 ≤ q.since / 4)

/-- Whether an admitted request may be granted now: in the clock of its arrival at the port only if the port is parked on
its master and no other master's request is there for R103 to decide between (R104). -/
def State.arrived (s : State) (r : MtxReq) : Bool :=
  r.stage = .admitted &&
    (decide (r.adm / 4 < s.clock) ||
      (s.parked (targetPort r.addr) = r.master &&
        s.mtx.all fun q => q.stage ≠ .admitted || targetPort q.addr ≠ targetPort r.addr || q.master = r.master))

/-- Whether a request has waited to the starvation bound, in clocks (R103). -/
def State.starved (s : State) (r : MtxReq) : Bool := decide (r.since / 4 + s.starve r.addr ≤ s.clock)

/-- Whether a request is a core's own access to its local RAM, which does not come by the matrix (R107). -/
def MtxReq.own (r : MtxReq) : Bool := decide (r.core = targetPort r.addr) && r.by_ = .core

/-- The request among those of the matrix that a target port grants, and whether it is for starvation (R103): the two
classes share the port's pointer, which starts at master 0 when the matrix is reset (DESIGN CHOICE, log entry 110). -/
def State.choose (s : State) (target : Nat) (ready : List MtxReq) : Option (MtxReq × Bool) :=
  let last := sget (fun _ => 0) s.mtxLast target
  let starved := ready.filter s.starved
  if starved.isEmpty then
    let urgent := ready.filter MtxReq.urgent
    (roundRobin last (if urgent.isEmpty then ready else urgent)).map fun r => (r, false)
  else (roundRobin last (longest starved)).map fun r => (r, true)

/-- The request that a target port grants now, and whether it is for starvation (R103).  A core's own access to its local
RAM goes first, and after it the matrix has the next turn (R107). -/
def State.chosen (s : State) (target : Nat) : Option (MtxReq × Bool) :=
  let here := s.mtx.filter fun r => targetPort r.addr = target
  let ready := here.filter s.arrived
  let matrix := ready.filter fun r => !r.own
  if here.any fun r => r.stage = .granted then none
  else match ready.find? MtxReq.own with
    | some r => if s.ramTurn.contains target && !matrix.isEmpty then s.choose target matrix else some (r, false)
    | none => s.choose target matrix

/-- MATRIX_GRANT (R103–R105): the port is held until the response; a core's own access to its local RAM leaves the pointer
of the matrix port alone (R107). (DESIGN CHOICE, log entry 48.) -/
def execMatrixGrant (target : Nat) (s : State) : Host.Outcome State Fault Refusal :=
  .next (
    match s.chosen target with
    | none => s
    | some (r, starved) =>
      let s := s.stageTo r .granted
      let others := s.ramTurn.filter (· ≠ target)
      if r.own then { s with ramTurn := target :: others }
      else
        let s := { s with mtxLast := sput (fun _ => 0) s.mtxLast target (r.master + 1), ramTurn := others }
        if starved then s.count MTX_STARVE (targetMatrix r.addr) else s)

/-- What an instruction that waits for a response runs when it returns. -/
def waitBody : Instr → Option (Nat → State → Run)
  | .ld n d m => some (ldBody n d m)
  | .st n d m => some (stBody n d m)
  | .ldp n d m => some (ldpBody n d m)
  | .stp n d m => some (stpBody n d m)
  | .aadd n d m => some (atomicBody n d m aaddWord)
  | .aswp n d m => some (atomicBody n d m aswpWord)
  | .atArm n d p t => some (atBody n d p t)
  | .issue n a tag room => some (issueBody n a tag room)
  | .fence n => some (fenceBody n)
  | _ => none

/-- The instruction at which core `n` waits goes on. (DESIGN CHOICE, log entry 48.) -/
def State.resume (s : State) (n : Nat) : State :=
  match s.waiting n with
  | none => s
  | some i => match waitBody i with
    | none => s
    | some body => s.settle n i (s.core n).waitWord (body (s.afterWait n) s)

/-- A core that waits at a `fence`, or at an `issue` for its earlier stores, looks again (R147, R160). -/
def State.stir (s : State) (n : Nat) : State :=
  match s.waiting n with
  | some (.fence _) => s.resume n
  | some (.issue ..) => if (s.core n).waitDesc.isEmpty then s.resume n else s
  | _ => s

/-- How a store to a place fails when its grant comes: its domain is gone (R109), or an image holds the word (R118). -/
def State.lostPlace (s : State) (p : Place) : Option Nat :=
  if !s.answers p.domain then some 2
  else match p with
    | .mem g => if s.inImage g then some 3 else none
    | _ => none

/-- The timed store of a request is made, or gets an error (R145). -/
def State.timedAnswer (s : State) (r : MtxReq) (slot addr le : Nat) (v : PWord) : State :=
  match globalPlace r.addr with
  | none => s.atErr r.core slot addr
  | some p => match s.lostPlace p with
    | some cause => (s.decErr r.core 0 r.addr cause).atErr r.core slot addr
    | none => match s.writePlace r.core 0 le addr v p with
      | .ok s => s
      | .error _ => s.atErr r.core slot addr

/-- A posted store of a core to its local RAM is made, unless an image has come to hold the word (R118). -/
def State.postedAnswer (s : State) (r : MtxReq) (le : Nat) (v : PWord) : State :=
  match s.lostPlace (.mem r.addr) with
  | some cause => s.decErr r.core 0 r.addr cause
  | none => s.memWrite r.addr le v

/-- The register access of a command that is one access is made (R82, R93). -/
def State.rowAnswer (s : State) (r : MtxReq) (u : Nat) : State :=
  let m := masterId r.core u
  match s.lostPlace (.reg r.addr), r.posted with
  | some cause, _ => s.decErr r.core u r.addr cause
  | none, some (le, v) => (s.busWrite m r.addr le v.v (issued := coreView m r.addr)).2
  | none, none => (s.busRead m r.addr 15).2

/-- The state after `f`, run with register word `a` holding `w`; what `f` itself writes there stays. -/
def State.withReg (s : State) (a : Nat) (w : Word) (f : State → State) : State :=
  let t := f (s.setReg a w)
  if t.reg a = w then t.setReg a (s.reg a) else t

/-- The state after `f`, run with the open of window `w` of core `n` not pending. -/
def State.withoutPend (s : State) (n w : Nat) (f : State → State) : State :=
  let c := s.core n
  if !c.winPend.contains w then f s
  else
    let t := f (s.setCore n { c with winPend := c.winPend.filter (· ≠ w) })
    if (t.core n).winPend.contains w then t else t.setCore n { t.core n with winPend := w :: (t.core n).winPend }

/-- The state after `f`, run with the mapping of the core and the window as they were when the request was issued (R95,
R101, R110). -/
def State.asIssued (s : State) (r : MtxReq) (f : State → State) : State :=
  let mapped := fun (s : State) =>
    if r.core < 77 ∧ s.rdb CORE_CTL_REMAP r.core ≠ r.remap then
      s.withReg (CORE_CTL_REMAP.addr r.core 0 0) (word (setBits (s.reg (CORE_CTL_REMAP.addr r.core 0 0)).toNat 3 3 (b2n r.remap))) f
    else f s
  match globalPlace r.addr, r.win with
  | some (.win n w _), some v =>
    if s.reg (CORE_WIN_H_MODE.addr n w 0) = v then mapped s
    else s.withoutPend n w fun s => s.withReg (CORE_WIN_H_MODE.addr n w 0) v mapped
  | _, _ => mapped s

/-- The access of a request whose port is its own is performed, and its response returns to whoever asked. -/
def State.answer (s : State) (r : MtxReq) : State :=
  match r.by_, r.posted with
  | .core, none => s.resume r.core
  | .core, some (le, v) => (s.postedAnswer r le v).stir r.core
  | .timed slot _ addr, some (le, v) => (s.timedAnswer r slot addr le v).stir r.core
  | .timed .., none => s
  | .op _ tag, _ => match s.engOp r.core tag with
    | some o => s.engineGoesOn r.core o
    | none => s
  | .link tag, _ => s.linkGoesOn tag
  | .row u, _ => s.rowAnswer r u

/-- The same, in the view that its master had when it issued the request (R95, R110). -/
def State.respond (s : State) (r : MtxReq) : State := s.asIssued r fun s => s.answer r

/-- MATRIX_RESPONSE (R101, R105, R135, R136): the access of the first granted request of core `n` is performed and its
response returns; its burst holds the port meanwhile. (DESIGN CHOICE, log entry 48.) -/
def execMatrixResponse (n : Nat) (s : State) : Host.Outcome State Fault Refusal :=
  .next (
    match s.mtx.find? fun r => r.core = n && r.stage = .granted && !s.targetHeld r with
    | none => s
    | some r =>
      let s := (s.stageTo r .served).respond r
      { s with mtx := removeFirst { r with stage := .served } s.mtx })

end Sys2Proof.Machine
end

