-- ==== Sys2Proof/Machine/Dispatch.lean ====
section
/-! DEFINITION. The dispatch: one arm per command. -/

namespace Sys2Proof.Machine

/-- The effect of a command on everything but the queue. (DEDUCED, log entry 7.) -/
def exec (i : Instr) (s : State) : Host.Outcome State Fault Refusal :=
  match i with
  | .ptpSyncReceived ntRef => Sys2Proof.Machine.execPtpSyncReceived ntRef s
  | .ptpAnnounceReceived => Sys2Proof.Machine.execPtpAnnounceReceived s
  | .ppsInputEdge => Sys2Proof.Machine.execPpsInputEdge s
  | .refQualifyLoss cause => Sys2Proof.Machine.execRefQualifyLoss cause s
  | .refQualifyGain tenMHz => Sys2Proof.Machine.execRefQualifyGain tenMHz s
  | .ocxoWarm => Sys2Proof.Machine.execOcxoWarm s
  | .timeCtlWrite m w => Sys2Proof.Machine.execTimeCtlWrite m w s
  | .timeServoWrite m w => Sys2Proof.Machine.execTimeServoWrite m w s
  | .timeLpARead m => Sys2Proof.Machine.execTimeLpARead m s
  | .timeRestep p => Sys2Proof.Machine.execTimeRestep p s
  | .restepTakesEffect => Sys2Proof.Machine.execRestepTakesEffect s
  | .timeTod p => Sys2Proof.Machine.execTimeTod p s
  | .timeRead p => Sys2Proof.Machine.execTimeRead p s
  | .rtcSet p => Sys2Proof.Machine.execRtcSet p s
  | .ppsOutputEdge => Sys2Proof.Machine.execPpsOutputEdge s
  | .ppsOutputWidthEnd => Sys2Proof.Machine.execPpsOutputWidthEnd s
  | .rtcSync => Sys2Proof.Machine.execRtcSync s
  | .rtcTrim => Sys2Proof.Machine.execRtcTrim s
  | .rtcXtalFail => Sys2Proof.Machine.execRtcXtalFail s
  | .twoStepStamp port => Sys2Proof.Machine.execTwoStepStamp port s
  | .tsqE0Read m => Sys2Proof.Machine.execTsqE0Read m s
  | .memZeroDone inst => Sys2Proof.Machine.execMemZeroDone inst s
  | .matrixAdmit n room => Sys2Proof.Machine.execMatrixAdmit n room s
  | .matrixGrant target => Sys2Proof.Machine.execMatrixGrant target s
  | .matrixResponse n => Sys2Proof.Machine.execMatrixResponse n s
  | .windowOpen m n win w => Sys2Proof.Machine.execWindowOpen m n win w s
  | .windowOpenResolved n win => Sys2Proof.Machine.execWindowOpenResolved n win s
  | .windowClose m n win w => Sys2Proof.Machine.execWindowClose m n win w s
  | .coreRemapWrite m n w => Sys2Proof.Machine.execCoreRemapWrite m n w s
  | .coreHaltWrite m n w => Sys2Proof.Machine.execCoreHaltWrite m n w s
  | .coreStartWrite m n w => Sys2Proof.Machine.execCoreStartWrite m n w s
  | .coreStartAtLp n => Sys2Proof.Machine.execCoreStartAtLp n s
  | .coreSrst m n w bursts => Sys2Proof.Machine.execCoreSrst m n w bursts s
  | .coreLoad p => Sys2Proof.Machine.execCoreLoad p s
  | .imageVerifyDone => Sys2Proof.Machine.execImageVerifyDone s
  | .imageCopyDone => Sys2Proof.Machine.execImageCopyDone s
  | .coreStartCmd p => Sys2Proof.Machine.execCoreStartCmd p s
  | .coreHaltCmd p => Sys2Proof.Machine.execCoreHaltCmd p s
  | .scoreBoot => Sys2Proof.Machine.execScoreBoot s
  | .imgStore p => Sys2Proof.Machine.execImgStore p s
  | .imgStoreDone => Sys2Proof.Machine.execImgStoreDone s
  | .add n d a t => Sys2Proof.Machine.execAdd n d a t s
  | .sub n d a t => Sys2Proof.Machine.execSub n d a t s
  | .adc n d a t => Sys2Proof.Machine.execAdc n d a t s
  | .sbc n d a t => Sys2Proof.Machine.execSbc n d a t s
  | .and n d a t => Sys2Proof.Machine.execAnd n d a t s
  | .or n d a t => Sys2Proof.Machine.execOr n d a t s
  | .xor n d a t => Sys2Proof.Machine.execXor n d a t s
  | .andn n d a t => Sys2Proof.Machine.execAndn n d a t s
  | .shl n d a t => Sys2Proof.Machine.execShl n d a t s
  | .shr n d a t => Sys2Proof.Machine.execShr n d a t s
  | .sar n d a t => Sys2Proof.Machine.execSar n d a t s
  | .rol n d a t => Sys2Proof.Machine.execRol n d a t s
  | .shli n d a sh => Sys2Proof.Machine.execShli n d a sh s
  | .shri n d a sh => Sys2Proof.Machine.execShri n d a sh s
  | .sari n d a sh => Sys2Proof.Machine.execSari n d a sh s
  | .roli n d a sh => Sys2Proof.Machine.execRoli n d a sh s
  | .mul n d a t => Sys2Proof.Machine.execMul n d a t s
  | .mulhu n d a t => Sys2Proof.Machine.execMulhu n d a t s
  | .mulhs n d a t => Sys2Proof.Machine.execMulhs n d a t s
  | .min n d a t => Sys2Proof.Machine.execMin n d a t s
  | .minu n d a t => Sys2Proof.Machine.execMinu n d a t s
  | .max n d a t => Sys2Proof.Machine.execMax n d a t s
  | .maxu n d a t => Sys2Proof.Machine.execMaxu n d a t s
  | .cmp n a t => Sys2Proof.Machine.execCmp n a t s
  | .tst n a t => Sys2Proof.Machine.execTst n a t s
  | .mov n d a x => Sys2Proof.Machine.execMov n d a x s
  | .bfx n d a t width => Sys2Proof.Machine.execBfx n d a t width s
  | .pop n d a x => Sys2Proof.Machine.execPop n d a x s
  | .clz n d a x => Sys2Proof.Machine.execClz n d a x s
  | .addi n d a imm => Sys2Proof.Machine.execAddi n d a imm s
  | .andi n d a imm => Sys2Proof.Machine.execAndi n d a imm s
  | .ori n d a imm => Sys2Proof.Machine.execOri n d a imm s
  | .xori n d a imm => Sys2Proof.Machine.execXori n d a imm s
  | .cmpi n a imm => Sys2Proof.Machine.execCmpi n a imm s
  | .lui n d imm => Sys2Proof.Machine.execLui n d imm s
  | .li n d imm => Sys2Proof.Machine.execLi n d imm s
  | .ld n d m => Sys2Proof.Machine.execLd n d m s
  | .st n d m => Sys2Proof.Machine.execSt n d m s
  | .ldp n d m => Sys2Proof.Machine.execLdp n d m s
  | .stp n d m => Sys2Proof.Machine.execStp n d m s
  | .aadd n d m => Sys2Proof.Machine.execAadd n d m s
  | .aswp n d m => Sys2Proof.Machine.execAswp n d m s
  | .br n c disp => Sys2Proof.Machine.execBr n c disp s
  | .jmp n disp => Sys2Proof.Machine.execJmp n disp s
  | .call n d disp => Sys2Proof.Machine.execCall n d disp s
  | .jr n d a => Sys2Proof.Machine.execJr n d a s
  | .bdec n a disp => Sys2Proof.Machine.execBdec n a disp s
  | .atArm n d p t => Sys2Proof.Machine.execAtArm n d p t s
  | .atcan n d a => Sys2Proof.Machine.execAtcan n d a s
  | .waitp n p => Sys2Proof.Machine.execWaitp n p s
  | .waitpLpReached n => Sys2Proof.Machine.execWaitpLpReached n s
  | .rdlp n d => Sys2Proof.Machine.execRdlp n d s
  | .lpadd n d p t => Sys2Proof.Machine.execLpadd n d p t s
  | .issue n a tag room => Sys2Proof.Machine.execIssue n a tag room s
  | .engineAccept n => Sys2Proof.Machine.execEngineAccept n s
  | .waitt n d tag upset => Sys2Proof.Machine.execWaitt n d tag upset s
  | .waita n d upset => Sys2Proof.Machine.execWaita n d upset s
  | .cpop n d upset => Sys2Proof.Machine.execCpop n d upset s
  | .completionAwaitedPosted n upset => Sys2Proof.Machine.execCompletionAwaitedPosted n upset s
  | .nop n => Sys2Proof.Machine.execNop n s
  | .halt n => Sys2Proof.Machine.execHalt n s
  | .brk n => Sys2Proof.Machine.execBrk n s
  | .fence n => Sys2Proof.Machine.execFence n s
  | .rdf n d => Sys2Proof.Machine.execRdf n d s
  | .wrf n a => Sys2Proof.Machine.execWrf n a s
  | .pchk n a => Sys2Proof.Machine.execPchk n a s
  | .pclr n d a => Sys2Proof.Machine.execPclr n d a s
  | .smark n a => Sys2Proof.Machine.execSmark n a s
  | .rdcyc n d => Sys2Proof.Machine.execRdcyc n d s
  | .atTimedStore n slot upset => Sys2Proof.Machine.execAtTimedStore n slot upset s
  | .atTimedIssue n slot upset => Sys2Proof.Machine.execAtTimedIssue n slot upset s
  | .atSignal n slot upset => Sys2Proof.Machine.execAtSignal n slot upset s
  | .cipherGcmEncrypt n tag upset words => Sys2Proof.Machine.execCipherGcmEncrypt n tag upset words s
  | .cipherGcmDecrypt n tag upset words => Sys2Proof.Machine.execCipherGcmDecrypt n tag upset words s
  | .cipherHmac n tag upset words => Sys2Proof.Machine.execCipherHmac n tag upset words s
  | .dmaCopy n tag upset words => Sys2Proof.Machine.execDmaCopy n tag upset words s
  | .dmaFill n tag upset words => Sys2Proof.Machine.execDmaFill n tag upset words s
  | .dmaPktNew n tag upset => Sys2Proof.Machine.execDmaPktNew n tag upset s
  | .dmaPktSend n tag upset => Sys2Proof.Machine.execDmaPktSend n tag upset s
  | .dmaPktRecv n tag upset => Sys2Proof.Machine.execDmaPktRecv n tag upset s
  | .dmaPktFree n tag upset => Sys2Proof.Machine.execDmaPktFree n tag upset s
  | .monitorInjectOp n tag upset => Sys2Proof.Machine.execMonitorInjectOp n tag upset s
  | .monitorCalOp n tag upset => Sys2Proof.Machine.execMonitorCalOp n tag upset s
  | .grantMapCommit n tag upset => Sys2Proof.Machine.execGrantMapCommit n tag upset s
  | .counterSnap n tag upset words => Sys2Proof.Machine.execCounterSnap n tag upset words s
  | .counterAdd n tag upset => Sys2Proof.Machine.execCounterAdd n tag upset s
  | .svcCdrLocked => Sys2Proof.Machine.execSvcCdrLocked s
  | .svcLaneAligned lane => Sys2Proof.Machine.execSvcLaneAligned lane s
  | .svcDeskew spread => Sys2Proof.Machine.execSvcDeskew spread s
  | .svcBringupTimeout => Sys2Proof.Machine.execSvcBringupTimeout s
  | .svcLinkLoss => Sys2Proof.Machine.execSvcLinkLoss s
  | .svcAlignMarkerReceived rxUp => Sys2Proof.Machine.execSvcAlignMarkerReceived rxUp s
  | .svcMarkerSend => Sys2Proof.Machine.execSvcMarkerSend s
  | .svcL1Request => Sys2Proof.Machine.execSvcL1Request s
  | .svcL2Request => Sys2Proof.Machine.execSvcL2Request s
  | .svcPowerSetBad set => Sys2Proof.Machine.execSvcPowerSetBad set s
  | .svcLowPowerExit => Sys2Proof.Machine.execSvcLowPowerExit s
  | .svcEqmLow lane => Sys2Proof.Machine.execSvcEqmLow lane s
  | .svcEqmRecovered lane => Sys2Proof.Machine.execSvcEqmRecovered lane s
  | .svcPacketSelect => Sys2Proof.Machine.execSvcPacketSelect s
  | .svcPacketSent => Sys2Proof.Machine.execSvcPacketSent s
  | .hostPacketBad boot why => Sys2Proof.Machine.execHostPacketBad boot why s
  | .overheadPacketIn line chan crit psn octets => Sys2Proof.Machine.execOverheadPacketIn line chan crit psn octets s
  | .commandStart bursts => Sys2Proof.Machine.execCommandStart bursts s
  | .bootReadPacket clocked => Sys2Proof.Machine.execBootReadPacket clocked s
  | .bootReadStatus => Sys2Proof.Machine.execBootReadStatus s
  | .bootBadOperation octets => Sys2Proof.Machine.execBootBadOperation octets s
  | .svcNop p => Sys2Proof.Machine.execSvcNop p s
  | .svcRecall p => Sys2Proof.Machine.execSvcRecall p s
  | .svcLoop p => Sys2Proof.Machine.execSvcLoop p s
  | .svcLoopEnd lanes => Sys2Proof.Machine.execSvcLoopEnd lanes s
  | .regRead p => Sys2Proof.Machine.execRegRead p s
  | .regWrite p bursts => Sys2Proof.Machine.execRegWrite p bursts s
  | .memRead p => Sys2Proof.Machine.execMemRead p s
  | .memWrite p => Sys2Proof.Machine.execMemWrite p s
  | .pwrMode p => Sys2Proof.Machine.execPwrMode p s
  | .pwrDomainOff p => Sys2Proof.Machine.execPwrDomainOff p s
  | .pwrDomainOn p => Sys2Proof.Machine.execPwrDomainOn p s
  | .pwrDomainReset p bursts => Sys2Proof.Machine.execPwrDomainReset p bursts s
  | .pwrReset p => Sys2Proof.Machine.execPwrReset p s
  | .pwrResetDrainEnd => Sys2Proof.Machine.execPwrResetDrainEnd s
  | .pwrRead p => Sys2Proof.Machine.execPwrRead p s
  | .keyLoad p => Sys2Proof.Machine.execKeyLoad p s
  | .keyLoadImageKey p => Sys2Proof.Machine.execKeyLoadImageKey p s
  | .keyLoadRecover p => Sys2Proof.Machine.execKeyLoadRecover p s
  | .keyErase p => Sys2Proof.Machine.execKeyErase p s
  | .keyZeroise p => Sys2Proof.Machine.execKeyZeroise p s
  | .keyIdentIdentity p => Sys2Proof.Machine.execKeyIdentIdentity p s
  | .keyIdentStatus p => Sys2Proof.Machine.execKeyIdentStatus p s
  | .lineEnableOn p => Sys2Proof.Machine.execLineEnableOn p s
  | .lineEnableOff p => Sys2Proof.Machine.execLineEnableOff p s
  | .lineRate p => Sys2Proof.Machine.execLineRate p s
  | .lineLoadRecompute p => Sys2Proof.Machine.execLineLoadRecompute p s
  | .lineLoadExplicit p => Sys2Proof.Machine.execLineLoadExplicit p s
  | .lineTrace p => Sys2Proof.Machine.execLineTrace p s
  | .treeEnableOn p => Sys2Proof.Machine.execTreeEnableOn p s
  | .treeEnableOff p => Sys2Proof.Machine.execTreeEnableOff p s
  | .treeReflect p => Sys2Proof.Machine.execTreeReflect p s
  | .treeDiscover p => Sys2Proof.Machine.execTreeDiscover p s
  | .treeActivate p => Sys2Proof.Machine.execTreeActivate p s
  | .treeDeactivate p => Sys2Proof.Machine.execTreeDeactivate p s
  | .monInject p => Sys2Proof.Machine.execMonInject p s
  | .monSeq p => Sys2Proof.Machine.execMonSeq p s
  | .calStart p => Sys2Proof.Machine.execCalStart p s
  | .cntRead p => Sys2Proof.Machine.execCntRead p s
  | .evtCfgCode p => Sys2Proof.Machine.execEvtCfgCode p s
  | .evtCfgRate p => Sys2Proof.Machine.execEvtCfgRate p s
  | .evtCfgStream p => Sys2Proof.Machine.execEvtCfgStream p s
  | .evtCfgRead p => Sys2Proof.Machine.execEvtCfgRead p s
  | .fwdBind p => Sys2Proof.Machine.execFwdBind p s
  | .fwdUnbind p => Sys2Proof.Machine.execFwdUnbind p s
  | .queSetQueue p => Sys2Proof.Machine.execQueSetQueue p s
  | .queSetShaper p => Sys2Proof.Machine.execQueSetShaper p s
  | .queSetPageLimit p => Sys2Proof.Machine.execQueSetPageLimit p s
  | .queSetSample p => Sys2Proof.Machine.execQueSetSample p s
  | .lineEnableStart l => Sys2Proof.Machine.execLineEnableStart l s
  | .lineCalDone l temp vals taps => Sys2Proof.Machine.execLineCalDone l temp vals taps s
  | .lineCalTimeout l => Sys2Proof.Machine.execLineCalTimeout l s
  | .lineTxModulationStart l => Sys2Proof.Machine.execLineTxModulationStart l s
  | .lineRampEnd l => Sys2Proof.Machine.execLineRampEnd l s
  | .lineLaserFault l => Sys2Proof.Machine.execLineLaserFault l s
  | .lineTxPowerWrite m l w => Sys2Proof.Machine.execLineTxPowerWrite m l w s
  | .lineTxTestWrite m l w => Sys2Proof.Machine.execLineTxTestWrite m l w s
  | .loadReqEvaluate l => Sys2Proof.Machine.execLoadReqEvaluate l s
  | .loadAckReceived l => Sys2Proof.Machine.execLoadAckReceived l s
  | .loadSwitchReceived l => Sys2Proof.Machine.execLoadSwitchReceived l s
  | .loadAckTimeout l => Sys2Proof.Machine.execLoadAckTimeout l s
  | .lineFormatSwitch l rx => Sys2Proof.Machine.execLineFormatSwitch l rx s
  | .lineTxFallback l => Sys2Proof.Machine.execLineTxFallback l s
  | .lineTxCalUpdate l temp => Sys2Proof.Machine.execLineTxCalUpdate l temp s
  | .lineRxCtlWrite m l w => Sys2Proof.Machine.execLineRxCtlWrite m l w s
  | .lineLoLocked l => Sys2Proof.Machine.execLineLoLocked l s
  | .lineLoTimeout l => Sys2Proof.Machine.execLineLoTimeout l s
  | .lineLoFault l => Sys2Proof.Machine.execLineLoFault l s
  | .lineSigUp l pin => Sys2Proof.Machine.execLineSigUp l pin s
  | .lineSigDown l pin => Sys2Proof.Machine.execLineSigDown l pin s
  | .lineCdSearchDone l est fofs clk pow => Sys2Proof.Machine.execLineCdSearchDone l est fofs clk pow s
  | .lineAcqTimeout l => Sys2Proof.Machine.execLineAcqTimeout l s
  | .lineHoldTimeout l => Sys2Proof.Machine.execLineHoldTimeout l s
  | .lineScTrack l j => Sys2Proof.Machine.execLineScTrack l j s
  | .lineScConvergeTimeout l j => Sys2Proof.Machine.execLineScConvergeTimeout l j s
  | .lineScLost l j => Sys2Proof.Machine.execLineScLost l j s
  | .telemarkCycle l meas => Sys2Proof.Machine.execTelemarkCycle l meas s
  | .telemarkHandover l => Sys2Proof.Machine.execTelemarkHandover l s
  | .lineCdRefine l delta => Sys2Proof.Machine.execLineCdRefine l delta s
  | .lineRxCalUpdate l temp vals => Sys2Proof.Machine.execLineRxCalUpdate l temp vals s
  | .lineQwinEnd l fig => Sys2Proof.Machine.execLineQwinEnd l fig s
  | .lineRxQstatRead m l => Sys2Proof.Machine.execLineRxQstatRead m l s
  | .lineRxTestWrite m l w => Sys2Proof.Machine.execLineRxTestWrite m l w s
  | .lineSlotTransmit l hits pt => Sys2Proof.Machine.execLineSlotTransmit l hits pt s
  | .lineSlotReceived l slot ovr hits => Sys2Proof.Machine.execLineSlotReceived l slot ovr hits s
  | .lineOuterBlockDone l rx ph mf => Sys2Proof.Machine.execLineOuterBlockDone l rx ph mf s
  | .lineDefectPersist l => Sys2Proof.Machine.execLineDefectPersist l s
  | .lineRxFallback l => Sys2Proof.Machine.execLineRxFallback l s
  | .mdcBlockReceived l h => Sys2Proof.Machine.execMdcBlockReceived l h s
  | .mdcBlockNeeded l h port input => Sys2Proof.Machine.execMdcBlockNeeded l h port input s
  | .chDsStart c => Sys2Proof.Machine.execChDsStart c s
  | .chDsDisableStart c => Sys2Proof.Machine.execChDsDisableStart c s
  | .chDsRampEnd c => Sys2Proof.Machine.execChDsRampEnd c s
  | .chDsLaserFault c => Sys2Proof.Machine.execChDsLaserFault c s
  | .chDsPowerWrite m c w => Sys2Proof.Machine.execChDsPowerWrite m c w s
  | .chWindowOpen c rx => Sys2Proof.Machine.execChWindowOpen c rx s
  | .chWindowClose c => Sys2Proof.Machine.execChWindowClose c s
  | .chEnergyStep c j rx => Sys2Proof.Machine.execChEnergyStep c j rx s
  | .chDelimiterFound c sym pburst levels chips => Sys2Proof.Machine.execChDelimiterFound c sym pburst levels chips s
  | .chSearchDeadline c rx => Sys2Proof.Machine.execChSearchDeadline c rx s
  | .chHeaderDecoded c soft => Sys2Proof.Machine.execChHeaderDecoded c soft s
  | .chCollisionStep c j rx => Sys2Proof.Machine.execChCollisionStep c j rx s
  | .chOverlapStep c j rx => Sys2Proof.Machine.execChOverlapStep c j rx s
  | .chBurstLoss c j rx payload => Sys2Proof.Machine.execChBurstLoss c j rx payload s
  | .chPayloadEnd c => Sys2Proof.Machine.execChPayloadEnd c s
  | .chEndmarkDone c chips payload => Sys2Proof.Machine.execChEndmarkDone c chips payload s
  | .chBurstLong c rx => Sys2Proof.Machine.execChBurstLong c rx s
  | .cancLoad m c w => Sys2Proof.Machine.execCancLoad m c w s
  | .cancDrop m c w => Sys2Proof.Machine.execCancDrop m c w s
  | .cancShadowSwap c rx => Sys2Proof.Machine.execCancShadowSwap c rx s
  | .cancShadowTimeout c => Sys2Proof.Machine.execCancShadowTimeout c s
  | .otdrRunStart t => Sys2Proof.Machine.execOtdrRunStart t s
  | .otdrShot t rx => Sys2Proof.Machine.execOtdrShot t rx s
  | .otdrRunEnd t => Sys2Proof.Machine.execOtdrRunEnd t s
  | .chQwinEnd c fig => Sys2Proof.Machine.execChQwinEnd c fig s
  | .chQstatRead m c => Sys2Proof.Machine.execChQstatRead m c s
  | .treeBevE0Read m t => Sys2Proof.Machine.execTreeBevE0Read m t s
  | .treeRptRead m t k => Sys2Proof.Machine.execTreeRptRead m t k s
  | .mapDeadline t hits => Sys2Proof.Machine.execMapDeadline t hits s
  | .dsmSet m c w => Sys2Proof.Machine.execDsmSet m c w s
  | .clientFrameReceived p frame fcsOk ovr => Sys2Proof.Machine.execClientFrameReceived p frame fcsOk ovr s
  | .upstreamSegment c ovr => Sys2Proof.Machine.execUpstreamSegment c ovr s
  | .upstreamTagResult k => Sys2Proof.Machine.execUpstreamTagResult k s
  | .reassemblyTimeout a => Sys2Proof.Machine.execReassemblyTimeout a s
  | .egressTxOpportunity e => Sys2Proof.Machine.execEgressTxOpportunity e s
  | .queueSweep => Sys2Proof.Machine.execQueueSweep s
  | .portLinkUp p => Sys2Proof.Machine.execPortLinkUp p s
  | .portLinkDown p => Sys2Proof.Machine.execPortLinkDown p s
  | .edwSelftestDone fail => Sys2Proof.Machine.execEdwSelftestDone fail s
  | .edwCastPeriodic fail => Sys2Proof.Machine.execEdwCastPeriodic fail s
  | .entropyHealthFail startup => Sys2Proof.Machine.execEntropyHealthFail startup s
  | .drbgReseed requests => Sys2Proof.Machine.execDrbgReseed requests s
  | .transportKeyGen pairwiseOk => Sys2Proof.Machine.execTransportKeyGen pairwiseOk s
  | .tamperTrip sensor => Sys2Proof.Machine.execTamperTrip sensor s
  | .zeroiseEraseDone => Sys2Proof.Machine.execZeroiseEraseDone s
  | .keySwitch terminal index => Sys2Proof.Machine.execKeySwitch terminal index s
  | .monPassStart m => Sys2Proof.Machine.execMonPassStart m s
  | .monSeqEntryEnd m codes bad => Sys2Proof.Machine.execMonSeqEntryEnd m codes bad s
  | .monInjectTake m => Sys2Proof.Machine.execMonInjectTake m s
  | .monInjectEnd m codes bad => Sys2Proof.Machine.execMonInjectEnd m codes bad s
  | .monCalBegin m => Sys2Proof.Machine.execMonCalBegin m s
  | .monCalEnd m ofs gain => Sys2Proof.Machine.execMonCalEnd m ofs gain s
  | .monCalWait m => Sys2Proof.Machine.execMonCalWait m s
  | .monPowerDown m => Sys2Proof.Machine.execMonPowerDown m s
  | .monWakeDone m => Sys2Proof.Machine.execMonWakeDone m s
  | .monFactorUpdate m temp => Sys2Proof.Machine.execMonFactorUpdate m temp s
  | .monSeqCtlWrite k m w => Sys2Proof.Machine.execMonSeqCtlWrite k m w s
  | .grmPassStart buffer => Sys2Proof.Machine.execGrmPassStart buffer s
  | .grmLaneVisit => Sys2Proof.Machine.execGrmLaneVisit s
  | .grmBufferVisit => Sys2Proof.Machine.execGrmBufferVisit s
  | .grmDemandVisit => Sys2Proof.Machine.execGrmDemandVisit s
  | .grmSpareCopyDone => Sys2Proof.Machine.execGrmSpareCopyDone s
  | .grmRawWrite m w => Sys2Proof.Machine.execGrmRawWrite m w s
  | .grmRawRead m w => Sys2Proof.Machine.execGrmRawRead m w s
  | .cntCountWordRead m index => Sys2Proof.Machine.execCntCountWordRead m index s
  | .evtSuperframeSummary => Sys2Proof.Machine.execEvtSuperframeSummary s
  | .evtAvalancheExit => Sys2Proof.Machine.execEvtAvalancheExit s
  | .tlmSnapshot strm => Sys2Proof.Machine.execTlmSnapshot strm s
  | .coreSmpAckWrite m n w => Sys2Proof.Machine.execCoreSmpAckWrite m n w s
  | .mainsCycleEnd vrms freq pIn limiting => Sys2Proof.Machine.execMainsCycleEnd vrms freq pIn limiting s
  | .mainsFail => Sys2Proof.Machine.execMainsFail s
  | .backupEntry => Sys2Proof.Machine.execBackupEntry s
  | .mainsReturn vrms freq => Sys2Proof.Machine.execMainsReturn vrms freq s
  | .loadMeasure pdc => Sys2Proof.Machine.execLoadMeasure pdc s
  | .shedSettleEnd pdc => Sys2Proof.Machine.execShedSettleEnd pdc s
  | .fastShed ends => Sys2Proof.Machine.execFastShed ends s
  | .overtempShed temp => Sys2Proof.Machine.execOvertempShed temp s
  | .domainRestore cool => Sys2Proof.Machine.execDomainRestore cool s
  | .domainOn d fails cast => Sys2Proof.Machine.execDomainOn d fails cast s
  | .domainOff d => Sys2Proof.Machine.execDomainOff d s
  | .domainFault d => Sys2Proof.Machine.execDomainFault d s
  | .cellMeasure mv => Sys2Proof.Machine.execCellMeasure mv s
  | .backupLoss => Sys2Proof.Machine.execBackupLoss s
  | .hostResetPin => Sys2Proof.Machine.execHostResetPin s
  | .wdogArm m w => Sys2Proof.Machine.execWdogArm m w s
  | .wdogKick m w => Sys2Proof.Machine.execWdogKick m w s
  | .wdogExpire => Sys2Proof.Machine.execWdogExpire s
  | .registerWrite m addr w => Sys2Proof.Machine.execRegisterWrite m addr w s
  | .illegalInstruction n => Sys2Proof.Machine.execIllegalInstruction n s
  | .unlistedOpcodeCommand opcode p => Sys2Proof.Machine.execUnlistedOpcodeCommand opcode p s
  | .hrstNRelease => Sys2Proof.Machine.execHrstNRelease s
  | .keyLoadComplete tag => Sys2Proof.Machine.execKeyLoadComplete tag s

end Sys2Proof.Machine
end

