-- ==== Sys2Proof/Machine/Measure.lean ====
section
/-! DEFINITION. What the module measures at fixed intervals while it idles: eye quality, output and input powers, launch
powers (R176, R237, R241, R317); the reference images' calibrations (R509); and the receive side of the service link leaving RESET (R170). -/

namespace Sys2Proof.Machine

open Reg

/-- A field takes a measured value: open, any value of the field. (DESIGN CHOICE, log entry 114.) -/
def State.measured (s : State) (f : Field) (i : Nat := 0) (a : Nat := 0) : State :=
  (s.wr f (s.open_ % 2 ^ f.width) i a).used

/-- A measured power in 0.1 dB: open, within 0.5 dB of the level that the module holds (R615, R618). (DESIGN CHOICE, log
entry 114.) -/
def State.nearLevel (s : State) (lv : Rat) : Int :=
  let lo := -(5 - 10 * lv).floor
  lo + (s.open_ : Int) % ((10 * lv + 5).floor - lo + 1)

/-- `LINE_TX_PWR.OUT` (R237, R615): −256 with no light, or with less than −25.5 dBm. -/
def State.measureOut (s : State) (l : Nat) : State :=
  let lv := s.levelNow l
  let z := if s.txState l < txRampUp ∨ lv < -51 / 2 then -256 else max (-256) (s.nearLevel lv)
  (s.wri LINE_TX_PWR_OUT z l).used

/-- `CH_DS_STAT.OUT` (R317, R618): near the launch power while LIT, open while the laser ramps up or down. -/
def State.measureLaunch (s : State) (c : Nat) : State :=
  let st := s.dsState c
  if st = dsLit then (s.wri CH_DS_STAT_OUT (s.nearLevel (s.chLevel c)) c).used
  else if dsUp ≤ st then s.measured CH_DS_STAT_OUT c
  else s

/-- EQM of a lane, and since when it has been below EQM_MIN or not (R176). -/
def State.measureLane (s : State) (i : Nat) : State :=
  let s := s.measured SVC_LANE_EQM 0 i
  let low := decide (s.rd SVC_LANE_EQM 0 i < s.rd SVC_LANE_EQM_MIN 0 i)
  let note := fun (holds : Bool) (l : List (Nat × Nat)) =>
    sput (fun _ => 0) l i (if !holds then 0 else if sget (fun _ => 0) l i = 0 then s.now + 1 else sget (fun _ => 0) l i)
  { s with svc := { s.svc with eqmUnder := note low s.svc.eqmUnder, eqmOver := note (!low) s.svc.eqmOver } }

/-- The measurements of each microsecond: lanes that receive (R174, R176). -/
def State.measureUs (s : State) : State :=
  if s.svcLive ∧ s.link ≠ lkL1 ∧ s.link ≠ lkL2 then (List.range 4).foldl State.measureLane s else s

/-- The measurements of each millisecond: the lines, the subcarriers lit included, and the channels whose laser is lit or ramps
(R237, R241, R259, R317). -/
def State.measureMs (s : State) : State :=
  let s := (List.range 4).foldl
    (fun (s : State) l =>
      if s.domOn (lineDomain l) then
        let s := (((s.measureOut l).measured LINE_TX_PWR_ATT l).measured LINE_RX_PWR_IN l).measured LINE_RX_PWR_GAIN l
        if s.rxState l = rxLocked ∧ !s.rxSwitched l then s.findLit l else s
      else s) s
  (List.range 512).foldl State.measureLaunch s

/-- The reference images see to the converters' calibrations at each access frame boundary (R509). -/
def State.imageCals (s : State) : State := (List.range 18).foldl State.imageCal s

/-- What follows the passing of a tick: the receive side of the service link leaves RESET once the supervisor is up (R170;
DESIGN CHOICE, log entry 56), and measurements fall due at the microseconds and milliseconds of LP. (DESIGN CHOICE, log entry 114.) -/
def State.readMeters (s : State) : State :=
  if !s.up then s
  else
    let s := if s.svcLive ∧ s.link = lkReset then s.toLink lkCdr else s
    let s := if s.now % ticksFr = 0 then s.imageCals else s
    let s := s.sweepGoesOn
    let s := if s.now % ticksUs = 0 then s.measureUs else s
    if s.now % ticksMs = 0 then s.measureMs else s

end Sys2Proof.Machine
end

