-- ==== Sys2Proof/Machine/Step.lean ====
section
/-! DEFINITION. The step of the block: the command at the front of the queue runs; on an empty queue
the timebase advances by one tick, and what is measured at fixed intervals is measured. -/

namespace Sys2Proof.Machine

/-- One step.  With a command waiting, its effect on the state with the queue's rest; with none, one
tick passes (DESIGN CHOICE: the table has no row for a tick). (DESIGN CHOICE, log entries 1, 114 and 136.) -/
def step (s : State) : Host.Outcome State Fault Refusal :=
  match s.pending with
  | [] => .next s.tick.readMeters.idleFill
  | c :: rest => exec c { s with pending := rest }

/-- The state with the command a table word spells at the front of its queue; unchanged where it spells
none. (DEDUCED, log entry 8.) -/
def State.withFetchWord (s : State) (nbits w : Nat) : State :=
  match decodeTableWord nbits w with
  | none => s
  | some c => { s with pending := c :: s.pending }

end Sys2Proof.Machine
end

