-- ==== Sys2Proof/WellFormed.lean ====
section
/-! DEFINITION. Which commands are well formed: what the outside can send at all, and the Hergil instructions that have a
word (R123–R126).  A command that is not is refused here by the name of what is wrong with it. -/

namespace Sys2Proof

/-- What is wrong with an ill-formed command. -/
inductive Malformed
  /-- a core number above 76 (R30) -/
  | core
  /-- a master ID that no master has (R100) -/
  | master
  /-- a packet whose payload is not 2 · LEN words, whose LEN does not fit its field, or whose CHECK is not 16 octets when
  CRIT is set or is present when it is not (R180, R181) -/
  | packet
  /-- a load without lanes, or an atomic without all four (R133, R137) -/
  | lanes
  /-- an address outside the register region (R88) -/
  | address
  /-- a counter index above 1,048,575 (R541) -/
  | counter
  /-- no memory instance (R540) -/
  | memory
  /-- no target port of a matrix (R103) -/
  | port
  /-- no key that switches generations (R456) -/
  | key
  /-- more octets than a packet, frame or block holds (R154, R300, R430) -/
  | octets
  /-- a sample outside what its converter or demapper gives, or not the samples of a whole header (R271, R321, R482) -/
  | sample
  deriving DecidableEq, Repr

/-- A check that names what is wrong when it fails. -/
def demand (ok : Bool) (e : Malformed) : Option Malformed := if ok then none else some e

def coreOk (n : Nat) : Option Malformed := demand (decide (n < 77)) .core

/-- A core number, or the service link's (R100). -/
def requesterOk (n : Nat) : Option Malformed := demand (decide (n < 77) || decide (n = 127)) .core

/-- Unit 0–5 of a core, or a master that is no core with units 0–4 (R100). -/
def masterOk (m : Nat) : Option Malformed :=
  demand ((decide (m / 8 < 77) && decide (m % 8 < 6)) || (m / 8 = 127 && decide (m % 8 < 5))) .master

def packetOk (p : HostPkt) : Option Malformed :=
  demand (decide (p.len < 65536) && p.words.length = 2 * p.len && p.check.length = (if p.crit then 16 else 0)) .packet

def loadLanes (m : MemArgs) : Option Malformed := demand (m.le != 0) .lanes

def allLanes (m : MemArgs) : Option Malformed := demand (m.le == 15) .lanes

def samplesOk (lo hi : Int) (l : List Int) : Option Malformed := demand (l.all fun x => decide (lo ≤ x) && decide (x ≤ hi)) .sample

def regAddrOk (a : Nat) : Option Malformed := demand (decide (0o400000000 ≤ a) && decide (a < 0o1000000000)) .address

def indexOk (x : Nat) : Option Malformed := demand (decide (x < 1048576)) .counter

/-- Local RAMs 0–76, cluster memories 77–84, module memory 85, `FWD` 86, `QUE` 87, `CNT` 88, buffer stacks 89–96. -/
def instanceOk (i : Nat) : Option Malformed := demand (decide (i < 97)) .memory

def portOk (t : Nat) : Option Malformed := demand (decide (t < 89) || (decide (128 ≤ t) && decide (t < 208)) || (decide (256 ≤ t) && decide (t < 333))) .port

/-- A terminal's entry, or the transmit key of a line. -/
def keyIndexOk (terminal : Bool) (i : Nat) : Option Malformed := demand (decide (i < if terminal then 16384 else 4)) .key

def octetsOk (l : List (BitVec 8)) : Option Malformed := demand (decide (l.length < 16384)) .octets

/-- The checks of a command. -/
def Instr.checks : Instr → List (Option Malformed)
  | .ptpSyncReceived _ => []
  | .ptpAnnounceReceived => []
  | .ppsInputEdge => []
  | .refQualifyLoss _ => []
  | .refQualifyGain _ => []
  | .ocxoWarm => []
  | .timeCtlWrite m _ => [masterOk m]
  | .timeServoWrite m _ => [masterOk m]
  | .timeLpARead m => [masterOk m]
  | .timeRestep p => [packetOk p]
  | .restepTakesEffect => []
  | .timeTod p => [packetOk p]
  | .timeRead p => [packetOk p]
  | .rtcSet p => [packetOk p]
  | .ppsOutputEdge => []
  | .ppsOutputWidthEnd => []
  | .rtcSync => []
  | .rtcTrim => []
  | .rtcXtalFail => []
  | .twoStepStamp _ => []
  | .tsqE0Read m => [masterOk m]
  | .memZeroDone inst => [instanceOk inst]
  | .matrixAdmit n _ => [requesterOk n]
  | .matrixGrant target => [portOk target]
  | .matrixResponse n => [requesterOk n]
  | .windowOpen m n _ _ => [masterOk m, coreOk n]
  | .windowOpenResolved n _ => [coreOk n]
  | .windowClose m n _ _ => [masterOk m, coreOk n]
  | .coreRemapWrite m n _ => [masterOk m, coreOk n]
  | .coreHaltWrite m n _ => [masterOk m, coreOk n]
  | .coreStartWrite m n _ => [masterOk m, coreOk n]
  | .coreStartAtLp n => [coreOk n]
  | .coreSrst m n _ _ => [masterOk m, coreOk n]
  | .coreLoad p => [packetOk p]
  | .imageVerifyDone => []
  | .imageCopyDone => []
  | .coreStartCmd p => [packetOk p]
  | .coreHaltCmd p => [packetOk p]
  | .scoreBoot => []
  | .imgStore p => [packetOk p]
  | .imgStoreDone => []
  | .add n _ _ _ => [coreOk n]
  | .sub n _ _ _ => [coreOk n]
  | .adc n _ _ _ => [coreOk n]
  | .sbc n _ _ _ => [coreOk n]
  | .and n _ _ _ => [coreOk n]
  | .or n _ _ _ => [coreOk n]
  | .xor n _ _ _ => [coreOk n]
  | .andn n _ _ _ => [coreOk n]
  | .shl n _ _ _ => [coreOk n]
  | .shr n _ _ _ => [coreOk n]
  | .sar n _ _ _ => [coreOk n]
  | .rol n _ _ _ => [coreOk n]
  | .shli n _ _ _ => [coreOk n]
  | .shri n _ _ _ => [coreOk n]
  | .sari n _ _ _ => [coreOk n]
  | .roli n _ _ _ => [coreOk n]
  | .mul n _ _ _ => [coreOk n]
  | .mulhu n _ _ _ => [coreOk n]
  | .mulhs n _ _ _ => [coreOk n]
  | .min n _ _ _ => [coreOk n]
  | .minu n _ _ _ => [coreOk n]
  | .max n _ _ _ => [coreOk n]
  | .maxu n _ _ _ => [coreOk n]
  | .cmp n _ _ => [coreOk n]
  | .tst n _ _ => [coreOk n]
  | .mov n _ _ _ => [coreOk n]
  | .bfx n _ _ _ _ => [coreOk n]
  | .pop n _ _ _ => [coreOk n]
  | .clz n _ _ _ => [coreOk n]
  | .addi n _ _ _ => [coreOk n]
  | .andi n _ _ _ => [coreOk n]
  | .ori n _ _ _ => [coreOk n]
  | .xori n _ _ _ => [coreOk n]
  | .cmpi n _ _ => [coreOk n]
  | .lui n _ _ => [coreOk n]
  | .li n _ _ => [coreOk n]
  | .ld n _ m => [coreOk n, loadLanes m]
  | .st n _ _ => [coreOk n]
  | .ldp n _ m => [coreOk n, loadLanes m]
  | .stp n _ _ => [coreOk n]
  | .aadd n _ m => [coreOk n, allLanes m]
  | .aswp n _ m => [coreOk n, allLanes m]
  | .br n _ _ => [coreOk n]
  | .jmp n _ => [coreOk n]
  | .call n _ _ => [coreOk n]
  | .jr n _ _ => [coreOk n]
  | .bdec n _ _ => [coreOk n]
  | .atArm n _ _ _ => [coreOk n]
  | .atcan n _ _ => [coreOk n]
  | .waitp n _ => [coreOk n]
  | .waitpLpReached n => [coreOk n]
  | .rdlp n _ => [coreOk n]
  | .lpadd n _ _ _ => [coreOk n]
  | .issue n _ _ _ => [coreOk n]
  | .engineAccept n => [coreOk n]
  | .waitt n _ _ _ => [coreOk n]
  | .waita n _ _ => [coreOk n]
  | .cpop n _ _ => [coreOk n]
  | .completionAwaitedPosted n _ => [coreOk n]
  | .nop n => [coreOk n]
  | .halt n => [coreOk n]
  | .brk n => [coreOk n]
  | .fence n => [coreOk n]
  | .rdf n _ => [coreOk n]
  | .wrf n _ => [coreOk n]
  | .pchk n _ => [coreOk n]
  | .pclr n _ _ => [coreOk n]
  | .smark n _ => [coreOk n]
  | .rdcyc n _ => [coreOk n]
  | .atTimedStore n _ _ => [coreOk n]
  | .atTimedIssue n _ _ => [coreOk n]
  | .atSignal n _ _ => [coreOk n]
  | .cipherGcmEncrypt n _ _ _ => [coreOk n]
  | .cipherGcmDecrypt n _ _ _ => [coreOk n]
  | .cipherHmac n _ _ _ => [coreOk n]
  | .dmaCopy n _ _ _ => [coreOk n]
  | .dmaFill n _ _ _ => [coreOk n]
  | .dmaPktNew n _ _ => [coreOk n]
  | .dmaPktSend n _ _ => [coreOk n]
  | .dmaPktRecv n _ _ => [coreOk n]
  | .dmaPktFree n _ _ => [coreOk n]
  | .monitorInjectOp n _ _ => [coreOk n]
  | .monitorCalOp n _ _ => [coreOk n]
  | .grantMapCommit n _ _ => [coreOk n]
  | .counterSnap n _ _ _ => [coreOk n]
  | .counterAdd n _ _ => [coreOk n]
  | .svcCdrLocked => []
  | .svcLaneAligned _ => []
  | .svcDeskew _ => []
  | .svcBringupTimeout => []
  | .svcLinkLoss => []
  | .svcAlignMarkerReceived _ => []
  | .svcMarkerSend => []
  | .svcL1Request => []
  | .svcL2Request => []
  | .svcPowerSetBad _ => []
  | .svcLowPowerExit => []
  | .svcEqmLow _ => []
  | .svcEqmRecovered _ => []
  | .svcPacketSelect => []
  | .svcPacketSent => []
  | .hostPacketBad _ _ => []
  | .overheadPacketIn _ _ _ _ octets => [octetsOk octets]
  | .commandStart _ => []
  | .bootReadPacket _ => []
  | .bootReadStatus => []
  | .bootBadOperation _ => []
  | .svcNop p => [packetOk p]
  | .svcRecall p => [packetOk p]
  | .svcLoop p => [packetOk p]
  | .svcLoopEnd _ => []
  | .regRead p => [packetOk p]
  | .regWrite p _ => [packetOk p]
  | .memRead p => [packetOk p]
  | .memWrite p => [packetOk p]
  | .pwrMode p => [packetOk p]
  | .pwrDomainOff p => [packetOk p]
  | .pwrDomainOn p => [packetOk p]
  | .pwrDomainReset p _ => [packetOk p]
  | .pwrReset p => [packetOk p]
  | .pwrResetDrainEnd => []
  | .pwrRead p => [packetOk p]
  | .keyLoad p => [packetOk p]
  | .keyLoadImageKey p => [packetOk p]
  | .keyLoadRecover p => [packetOk p]
  | .keyErase p => [packetOk p]
  | .keyZeroise p => [packetOk p]
  | .keyIdentIdentity p => [packetOk p]
  | .keyIdentStatus p => [packetOk p]
  | .lineEnableOn p => [packetOk p]
  | .lineEnableOff p => [packetOk p]
  | .lineRate p => [packetOk p]
  | .lineLoadRecompute p => [packetOk p]
  | .lineLoadExplicit p => [packetOk p]
  | .lineTrace p => [packetOk p]
  | .treeEnableOn p => [packetOk p]
  | .treeEnableOff p => [packetOk p]
  | .treeReflect p => [packetOk p]
  | .treeDiscover p => [packetOk p]
  | .treeActivate p => [packetOk p]
  | .treeDeactivate p => [packetOk p]
  | .monInject p => [packetOk p]
  | .monSeq p => [packetOk p]
  | .calStart p => [packetOk p]
  | .cntRead p => [packetOk p]
  | .evtCfgCode p => [packetOk p]
  | .evtCfgRate p => [packetOk p]
  | .evtCfgStream p => [packetOk p]
  | .evtCfgRead p => [packetOk p]
  | .fwdBind p => [packetOk p]
  | .fwdUnbind p => [packetOk p]
  | .queSetQueue p => [packetOk p]
  | .queSetShaper p => [packetOk p]
  | .queSetPageLimit p => [packetOk p]
  | .queSetSample p => [packetOk p]
  | .lineEnableStart _ => []
  | .lineCalDone _ _ _ _ => []
  | .lineCalTimeout _ => []
  | .lineTxModulationStart _ => []
  | .lineRampEnd _ => []
  | .lineLaserFault _ => []
  | .lineTxPowerWrite m _ _ => [masterOk m]
  | .lineTxTestWrite m _ _ => [masterOk m]
  | .loadReqEvaluate _ => []
  | .loadAckReceived _ => []
  | .loadSwitchReceived _ => []
  | .loadAckTimeout _ => []
  | .lineFormatSwitch _ _ => []
  | .lineTxFallback _ => []
  | .lineTxCalUpdate _ _ => []
  | .lineRxCtlWrite m _ _ => [masterOk m]
  | .lineLoLocked _ => []
  | .lineLoTimeout _ => []
  | .lineLoFault _ => []
  | .lineSigUp _ _ => []
  | .lineSigDown _ _ => []
  | .lineCdSearchDone _ _ _ _ _ => []
  | .lineAcqTimeout _ => []
  | .lineHoldTimeout _ => []
  | .lineScTrack _ _ => []
  | .lineScConvergeTimeout _ _ => []
  | .lineScLost _ _ => []
  | .telemarkCycle _ _ => []
  | .telemarkHandover _ => []
  | .lineCdRefine _ _ => []
  | .lineRxCalUpdate _ _ _ => []
  | .lineQwinEnd _ _ => []
  | .lineRxQstatRead m _ => [masterOk m]
  | .lineRxTestWrite m _ _ => [masterOk m]
  | .lineSlotTransmit _ _ _ => []
  | .lineSlotReceived _ _ _ _ => []
  | .lineOuterBlockDone _ rx _ _ => [samplesOk (-16) 15 rx]
  | .lineDefectPersist _ => []
  | .lineRxFallback _ => []
  | .mdcBlockReceived _ _ => []
  | .mdcBlockNeeded _ _ _ input => [octetsOk input]
  | .chDsStart _ => []
  | .chDsDisableStart _ => []
  | .chDsRampEnd _ => []
  | .chDsLaserFault _ => []
  | .chDsPowerWrite m _ _ => [masterOk m]
  | .chWindowOpen _ _ => []
  | .chWindowClose _ => []
  | .chEnergyStep _ _ _ => []
  | .chDelimiterFound _ _ _ _ _ => []
  | .chSearchDeadline _ _ => []
  | .chHeaderDecoded _ l => [demand (l.length = 128) .sample]
  | .chCollisionStep _ _ _ => []
  | .chOverlapStep _ _ _ => []
  | .chBurstLoss _ _ _ _ => []
  | .chPayloadEnd _ => []
  | .chEndmarkDone _ _ _ => []
  | .chBurstLong _ _ => []
  | .cancLoad m _ _ => [masterOk m]
  | .cancDrop m _ _ => [masterOk m]
  | .cancShadowSwap _ _ => []
  | .cancShadowTimeout _ => []
  | .otdrRunStart _ => []
  | .otdrShot _ _ => []
  | .otdrRunEnd _ => []
  | .chQwinEnd _ _ => []
  | .chQstatRead m _ => [masterOk m]
  | .treeBevE0Read m _ => [masterOk m]
  | .treeRptRead m _ _ => [masterOk m]
  | .mapDeadline _ _ => []
  | .dsmSet m _ _ => [masterOk m]
  | .clientFrameReceived _ frame _ _ => [octetsOk frame]
  | .upstreamSegment _ _ => []
  | .upstreamTagResult _ => []
  | .reassemblyTimeout _ => []
  | .egressTxOpportunity _ => []
  | .queueSweep => []
  | .portLinkUp _ => []
  | .portLinkDown _ => []
  | .edwSelftestDone _ => []
  | .edwCastPeriodic _ => []
  | .entropyHealthFail _ => []
  | .drbgReseed _ => []
  | .transportKeyGen _ => []
  | .tamperTrip _ => []
  | .zeroiseEraseDone => []
  | .keySwitch terminal index => [keyIndexOk terminal index]
  | .monPassStart _ => []
  | .monSeqEntryEnd _ raws _ => [samplesOk 0 65535 raws]
  | .monInjectTake _ => []
  | .monInjectEnd _ raws _ => [samplesOk 0 65535 raws]
  | .monCalBegin _ => []
  | .monCalEnd _ _ _ => []
  | .monCalWait _ => []
  | .monPowerDown _ => []
  | .monWakeDone _ => []
  | .monFactorUpdate _ _ => []
  | .monSeqCtlWrite k _ _ => [masterOk k]
  | .grmPassStart _ => []
  | .grmLaneVisit => []
  | .grmBufferVisit => []
  | .grmDemandVisit => []
  | .grmSpareCopyDone => []
  | .grmRawWrite m _ => [masterOk m]
  | .grmRawRead m _ => [masterOk m]
  | .cntCountWordRead m index => [masterOk m, indexOk index]
  | .evtSuperframeSummary => []
  | .evtAvalancheExit => []
  | .tlmSnapshot _ => []
  | .coreSmpAckWrite m n _ => [masterOk m, coreOk n]
  | .mainsCycleEnd _ _ _ _ => []
  | .mainsFail => []
  | .backupEntry => []
  | .mainsReturn _ _ => []
  | .loadMeasure _ => []
  | .shedSettleEnd _ => []
  | .fastShed _ => []
  | .overtempShed _ => []
  | .domainRestore _ => []
  | .domainOn _ _ _ => []
  | .domainOff _ => []
  | .domainFault _ => []
  | .cellMeasure _ => []
  | .backupLoss => []
  | .hostResetPin => []
  | .wdogArm m _ => [masterOk m]
  | .wdogKick m _ => [masterOk m]
  | .wdogExpire => []
  | .registerWrite m addr _ => [masterOk m, regAddrOk addr]
  | .illegalInstruction n => [coreOk n]
  | .unlistedOpcodeCommand _ p => [packetOk p]
  | .hrstNRelease => []
  | .keyLoadComplete _ => []

/-- The first check that a command fails. -/
def Instr.malformed (i : Instr) : Option Malformed := i.checks.findSome? id

/-- A command is well formed when no check fails. -/
def Instr.wf (i : Instr) : Bool := i.malformed.isNone

end Sys2Proof
end

