-- ==== Sys2Proof/Safety.lean ====
section
/-! DEFINITION. What counts as a sound state and a safe run, in the terms the statements use. -/

namespace Sys2Proof.Machine

open Reg

/-- The lane memories, the stored bits of tables and buffer, the registers and the counters are in their one canonical
form, so that equal contents are equal data (R11, R79, R516, R541). -/
def State.canonical (s : State) : Bool :=
  Memory.wf s.mem && swf resetWord s.regs && swf (fun _ => (none : Option Stored)) s.tblRaw &&
    swf (fun _ => (none : Option StoredB)) s.bufRaw && swf (fun _ => 0) s.cnt

/-- A mode that R582 names. -/
def State.legalMode (s : State) : Bool := decide (s.mode ≤ modeMaintenance)

/-- Every command that waits is well formed. -/
def State.queueOk (s : State) : Bool := s.pending.all Instr.wf

/-- `k` steps from a state: the state reached, or none when a step does not answer a next state. -/
def run : Nat → State → Option State
  | 0, s => some s
  | k + 1, s => match step s with
    | .next t => run k t
    | _ => none

/-- A safe run: every step answers a next state. -/
def Safe (s : State) : Prop := ∀ k, (run k s).isSome

/-! ### What counting and events leave (R541–R558) -/

/-- The word of `SVC_ALERT`, which every priority-0 event writes (R556). -/
def alertAddr : Nat := SVC_ALERT_P0_PEND.addr 0 0 0

/-- `t` differs from `s` at most in counters, the event path and `SVC_ALERT`: what counting and raising events may change. -/
def Events (s t : State) : Prop :=
  t = { s with regs := t.regs, cnt := t.cnt, tblRaw := t.tblRaw, evt := t.evt } ∧ ∀ a, a ≠ alertAddr → t.reg a = s.reg a

/-- The code's event was raised last at instance `j` with ARG words `args`, at the LP of `s`: that is its latest record
(R551, R554). -/
def Code.raised (c : Code) (s t : State) (j : Nat) (args : List Int) : Prop :=
  ∃ k, sget (fun _ => none) t.evt.latest c.num = some k ∧ k.rec_.code = c.num ∧ k.rec_.inst = j ∧ k.rec_.lp = s.now ∧
    k.rec_.args = ((args ++ List.replicate 4 0).take 4).map (toField 36)

/-- Instance `j` of the code was counted up by `k`; a counter that would pass its largest value, or that an uncorrectable
word restarts, has rules of its own (R544, R545). -/
def Code.counted (c : Code) (s t : State) (j k : Nat) : Prop :=
  s.cntBad (cntAddr (c.base + j)) = false → s.cntBad (cntAddr (c.base + j) + 1) = false → s.cntAt (c.base + j) + k ≤ cntMax →
    t.cntAt (c.base + j) = s.cntAt (c.base + j) + k

/-! ### What a core's instruction leaves (R119, R127, R161, R162) -/

/-- Core `n` is about to run `i`: it begins an instruction now, and its fetch finds `i` in the word `iw`. -/
def State.runs (s : State) (n : Nat) (i : Instr) (iw : Word) : Prop :=
  s.begins n = true ∧ ∃ u, s.fetch n = .instr u i iw

/-- The word of `CORE_STAT` of core `n`. -/
def coreStat (n : Nat) : Nat := CORE_STAT_STATE.addr n 0 0

/-- `t` is `s` after the counting and the events that an instruction may bring with it, and a change of core `n`: memory,
the other cores, and every register word but `CORE_STAT` of the core and `SVC_ALERT` are as before. -/
structure Beside (s t : State) (n : Nat) : Prop where
  same : t = { s with regs := t.regs, cnt := t.cnt, tblRaw := t.tblRaw, evt := t.evt, grm := t.grm, cores := t.cores }
  regs : ∀ a, a ≠ alertAddr → a ≠ coreStat n → t.reg a = s.reg a
  others : ∀ k, k ≠ n → t.core k = s.core k

/-- The core `c` after an instruction whose end leaves the PC at `next`; `t` gives its sampling records, which every
instruction may add to (R564). -/
def CoreSt.goes (c t : CoreSt) (next : Nat) : CoreSt :=
  { c with pc := next, wait := none, waitDesc := [], haltReq := false, smp := t.smp, smpHeld := t.smpHeld,
           smpHead := t.smpHead, smpNo := t.smpNo, smpCnt := t.smpCnt }

/-- Core `n` went on to `next` after an instruction whose own effect left it as `c`: it stays RUNNING, or stops HALTED when
a HALT was asked for (R119). -/
structure Went (s t : State) (n next : Nat) (c : CoreSt) : Prop extends Beside s t n where
  core : t.core n = c.goes (t.core n) next
  stat : t.reg (coreStat n) = (if c.haltReq then s.wr CORE_STAT_STATE cHalted n else s).reg (coreStat n)

/-- Core `n` became `c`, with its `CORE_STAT` as it was. -/
structure Became (s t : State) (n : Nat) (c : CoreSt) : Prop extends Beside s t n where
  core : t.core n = c
  stat : t.reg (coreStat n) = s.reg (coreStat n)

/-- Core `n` stays at its instruction `i` of word `iw` and waits. -/
def Stays (s t : State) (n : Nat) (i : Instr) (iw : Word) : Prop :=
  Became s t n { s.core n with wait := some i, waitWord := iw }

/-- Core `n` stopped in an exception at its instruction: the PC stays there, the core is FAULTED with the code, and
`CORE_FAULT` is raised with the core, the code and the PC (R119, R162). -/
structure Faulted (s t : State) (n code : Nat) : Prop extends Beside s t n where
  core : t.core n = { s.core n with wait := none, waitDesc := [], haltReq := false }
  stat : t.reg (coreStat n) = ((s.wr CORE_STAT_FAULT code n).wr CORE_STAT_STATE cFaulted n).reg (coreStat n)
  raised : Ev.CORE_FAULT.raised s t n [n, code, (s.core n).pc]

/-! ### Register accesses (R11–R14, R91–R93) -/

/-- A whole-word request of the master of ID `m` at address `a` reaches a register, and nothing makes it wait: no erasure or
move, no work of its domain, no access that its port serves already (R82, R91). -/
def State.reaches (s : State) (m a : Nat) (write : Bool) : Prop :=
  isMaster m = true ∧ s.resolve (m / 8) (coreView m a) write = .ok (.reg a) ∧
    s.blocked (m / 8) (.row (m % 8)) (.reg a) = false

/-- The bits of a written word that the register at `a` has. -/
def written (a : Nat) (w : Word) : Nat := w.toNat &&& keptBits a

/-- What the checks say of a write of `w` to the register at `a`. -/
def State.judged (s : State) (a : Nat) (w : Word) : Written := s.writeCheck (fieldsAt a).2 a (written a w) (written a w)

/-- A write of `w` to the register at `a` by master `m` is made. -/
def State.accepts (s : State) (m a : Nat) (w : Word) : Prop := s.reaches m a true ∧ s.judged a w = .done

/-- The word that the register at `a` holds after a write of `w`. -/
def State.after (s : State) (a : Nat) (w : Word) : Word :=
  word (mergeWord (fieldsAt a).2 (s.reg a).toNat (written a w) (written a w))

/-! ### What an engine operation leaves (R147–R149) -/

/-- The operation `o` of `tag` is outstanding on core `n`, which is not OFF, and is one of unit `unit` with OP `op`. -/
structure EngRuns (s : State) (n tag unit op : Nat) (o : EngOp) : Prop where
  up : s.up = true
  on : s.coreState n ≠ cOff
  out : s.engOp n tag = some o
  unit : o.unit = unit
  op : o.op = op

/-- The operation `o` of core `n` ended: it is no longer outstanding, ENG_OUT follows, and its completion stands in the ring,
among those of this clock by unit and tag (R149). -/
structure Ended (s t : State) (n : Nat) (o : EngOp) (status count : Nat) (result : PWord) : Prop extends Beside s t n where
  core : t.core n =
    { s.core n with
      ops := (s.core n).ops.filter fun x => x.tag ≠ o.tag
      ring := placeEntry ⟨o.tag, o.unit, status, count, result, s.clock⟩ (s.core n).ring
      smp := (t.core n).smp, smpHeld := (t.core n).smpHeld, smpHead := (t.core n).smpHead, smpNo := (t.core n).smpNo }
  stat : t.reg (coreStat n) =
    (s.wr CORE_STAT_ENG_OUT ((s.core n).ops.filter fun x => x.tag ≠ o.tag).length n).reg (coreStat n)

/-! ### What a host command leaves (R187–R196, R202) -/

/-- The packet `p` of opcode `opc` arrives on a path that takes commands, its TAG is free, it passes steps 3 to 12 of intake,
and its command `c` is the one that starts; `u` is the state it starts in (R187–R191, R624, R625). -/
def Starts (s : State) (opc : Nat) (p : HostPkt) (c : Cmd) (u : State) : Prop :=
  s.svcLive = true ∧ (p.boot = true ∨ s.rd SVC_STAT_LINK = 4) ∧ s.intakeOpen p.boot = true ∧ s.cmdAt p.tag = none ∧
    (s.takeSlot opc p).earlyCheck opc p = none ∧
    ∃ v, (s.takeSlot opc p).applyCrit opc p = (v, none) ∧ v.lateCheck opc p = none ∧ v.pick = some c ∧ c.pkt = p ∧
      c.opcode = opc ∧ u = v.markStarted c

/-- No payload word of the command has a bit set that its row of masks leaves out (R182). -/
def Cmd.clean (c : Cmd) (masks : List Nat) : Prop := reservedAt c.pkt.words masks 0 = none

/-- The command `c` completed: its slot holds it as done, and its completion with STATUS, DETAIL, the result word and the data
waits last on the path the command came by; the other slots and the rest of the service link are as in `u`
(R187, R192, R195, R203). -/
structure Answered (u t : State) (c : Cmd) (status detail result : Nat) (data : List PWord) : Prop where
  slot : t.cmdAt c.tag = some { c with stage := .done, holds := false }
  others : ∀ k, k ≠ c.tag → t.cmdAt k = u.cmdAt k
  sent : t.svc =
    ({ u with svc := { u.svc with slots := t.svc.slots } }.queueCompletion
      ⟨c.tag, c.pkt.boot, c.page, c.opcode, status, detail, ⟨word result, false⟩, data, c.auth, false⟩).svc

/-- The opcode, the packet and the cut bursts (where the row names them) of the row of a listed command, when the packet is
of the row's form. -/
def commandOf : Instr → Option (Nat × HostPkt × Option (List Burst))
  | .svcNop p => some (0x0101, p, none)
  | .svcRecall p => some (0x0102, p, none)
  | .svcLoop p => some (0x0103, p, none)
  | .regRead p => some (0x0201, p, none)
  | .regWrite p bursts => some (0x0202, p, some bursts)
  | .memRead p => some (0x0301, p, none)
  | .memWrite p => some (0x0302, p, none)
  | .coreLoad p => some (0x0401, p, none)
  | .coreStartCmd p => some (0x0402, p, none)
  | .coreHaltCmd p => some (0x0403, p, none)
  | .imgStore p => some (0x0501, p, none)
  | .pwrMode p => some (0x0601, p, none)
  | .pwrDomainOff p => if (payloadWord p 0).bits 35 34 = 0 ∨ (payloadWord p 0).bits 35 34 = 3 then some (0x0602, p, none) else none
  | .pwrDomainOn p => if (payloadWord p 0).bits 35 34 = 1 then some (0x0602, p, none) else none
  | .pwrDomainReset p bursts => if (payloadWord p 0).bits 35 34 = 2 then some (0x0602, p, some bursts) else none
  | .pwrReset p => some (0x0603, p, none)
  | .pwrRead p => some (0x0604, p, none)
  | .timeRestep p => some (0x0701, p, none)
  | .timeTod p => some (0x0702, p, none)
  | .timeRead p => some (0x0703, p, none)
  | .rtcSet p => some (0x0801, p, none)
  | .keyLoad p => if (payloadWord p 3).bits 1 0 ≠ 1 ∧ ¬(payloadWord p 0).bit 16 then some (0x0901, p, none) else none
  | .keyLoadImageKey p => if (payloadWord p 3).bits 1 0 = 1 then some (0x0901, p, none) else none
  | .keyLoadRecover p => if (payloadWord p 3).bits 1 0 ≠ 1 ∧ (payloadWord p 0).bit 16 then some (0x0901, p, none) else none
  | .keyErase p => some (0x0902, p, none)
  | .keyZeroise p => some (0x0903, p, none)
  | .keyIdentIdentity p => if (payloadWord p 0).bits 1 0 ≠ 1 then some (0x0904, p, none) else none
  | .keyIdentStatus p => if (payloadWord p 0).bits 1 0 = 1 then some (0x0904, p, none) else none
  | .lineEnableOn p => if (payloadWord p 0).bit 33 then some (0x0A01, p, none) else none
  | .lineEnableOff p => if ¬(payloadWord p 0).bit 33 then some (0x0A01, p, none) else none
  | .lineRate p => some (0x0A02, p, none)
  | .lineLoadRecompute p => if (payloadWord p 0).bits 9 8 ≠ 1 then some (0x0A03, p, none) else none
  | .lineLoadExplicit p => if (payloadWord p 0).bits 9 8 = 1 then some (0x0A03, p, none) else none
  | .lineTrace p => some (0x0A04, p, none)
  | .treeEnableOn p => if (payloadWord p 0).bit 21 then some (0x0B01, p, none) else none
  | .treeEnableOff p => if ¬(payloadWord p 0).bit 21 then some (0x0B01, p, none) else none
  | .treeReflect p => some (0x0B02, p, none)
  | .treeDiscover p => some (0x0B03, p, none)
  | .treeActivate p => some (0x0B04, p, none)
  | .treeDeactivate p => some (0x0B05, p, none)
  | .monInject p => some (0x0C01, p, none)
  | .monSeq p => some (0x0C02, p, none)
  | .calStart p => some (0x0D01, p, none)
  | .cntRead p => some (0x0E01, p, none)
  | .evtCfgCode p => if (payloadWord p 0).bits 35 33 = 0 ∨ 3 < (payloadWord p 0).bits 35 33 then some (0x0E02, p, none) else none
  | .evtCfgRate p => if (payloadWord p 0).bits 35 33 = 1 then some (0x0E02, p, none) else none
  | .evtCfgStream p => if (payloadWord p 0).bits 35 33 = 2 then some (0x0E02, p, none) else none
  | .evtCfgRead p => if (payloadWord p 0).bits 35 33 = 3 then some (0x0E02, p, none) else none
  | .fwdBind p => some (0x0F01, p, none)
  | .fwdUnbind p => some (0x0F02, p, none)
  | .queSetQueue p => if (payloadWord p 0).bits 35 33 = 0 ∨ 3 < (payloadWord p 0).bits 35 33 then some (0x0F03, p, none) else none
  | .queSetShaper p => if (payloadWord p 0).bits 35 33 = 1 then some (0x0F03, p, none) else none
  | .queSetPageLimit p => if (payloadWord p 0).bits 35 33 = 2 then some (0x0F03, p, none) else none
  | .queSetSample p => if (payloadWord p 0).bits 35 33 = 3 then some (0x0F03, p, none) else none
  | _ => none

end Sys2Proof.Machine
end

