-- ==== Sys2Proof/Certificates/Slice0/Obligations.lean ====
section
/-! DEFINITION. The statements for the provers. -/

open Sys2Proof Sys2Proof.Machine Sys2Proof.Machine.Ev Sys2Proof.Machine.Reg

/-- For every core about to run an ALU instruction with two operands (add, sub, adc, sbc, and, or, xor, andn, shl,
shr, sar, rol, mul, mulhu, mulhs, min, minu, max, maxu, bfx; registers or an immediate word), the command answers a
next state in which the core has gone on to the next instruction with d holding the result of the table, N and Z those
of the result, C and V as the table says, result and F poisoned exactly when an operand was (C being an operand of adc
and sbc); nothing else of the core, no other core, no memory and no other register word changes. A write of g0 is
discarded.
Forms that complete here: add, sub, adc, sbc, and, or, xor, andn, shl, shr, sar, rol, mul, mulhu, mulhs, min, minu,
max, maxu, bfx. -/
def Obligations.AluOperationsComplete : Prop :=
  ∀ (s : State) (n : Nat) (d a : HReg) (t : Src) (iw : Word) (wid : Fin 36),
    ∀ r ∈ ([
      (.add n d a t, false, fun x y _ => (x + y, decide (2 ^ 36 ≤ x.toNat + y.toNat), decide ((x + y).toInt ≠ x.toInt + y.toInt))),
      (.sub n d a t, false, fun x y _ => (x - y, decide (y.toNat ≤ x.toNat), decide ((x - y).toInt ≠ x.toInt - y.toInt))),
      (.adc n d a t, true, fun x y c =>
        (word (x.toNat + y.toNat + b2n c), decide (2 ^ 36 ≤ x.toNat + y.toNat + b2n c),
          decide ((word (x.toNat + y.toNat + b2n c)).toInt ≠ x.toInt + y.toInt + b2n c))),
      (.sbc n d a t, true, fun x y c =>
        (x - y - word (1 - b2n c), decide (y.toNat + (1 - b2n c) ≤ x.toNat),
          decide ((x - y - word (1 - b2n c)).toInt ≠ x.toInt - y.toInt - (1 - b2n c : Nat)))),
      (.and n d a t, false, fun x y _ => (x &&& y, false, false)),
      (.or n d a t, false, fun x y _ => (x ||| y, false, false)),
      (.xor n d a t, false, fun x y _ => (x ^^^ y, false, false)),
      (.andn n d a t, false, fun x y _ => (x &&& ~~~y, false, false)),
      (.shl n d a t, false, fun x y _ =>
        (word (x.toNat * 2 ^ (y.toNat % 64)), (x.toNat * 2 ^ (y.toNat % 64)).testBit 36, false)),
      (.shr n d a t, false, fun x y _ =>
        (word (x.toNat / 2 ^ (y.toNat % 64)), decide (y.toNat % 64 ≠ 0) && x.getLsbD (y.toNat % 64 - 1), false)),
      (.sar n d a t, false, fun x y _ =>
        (BitVec.ofInt 36 (x.toInt / 2 ^ (y.toNat % 64)),
          decide (y.toNat % 64 ≠ 0) && x.getLsbD (min (y.toNat % 64 - 1) 35), false)),
      (.rol n d a t, false, fun x y _ =>
        (word (x.toNat * 2 ^ (y.toNat % 64 % 36)) ||| word (x.toNat / 2 ^ (36 - y.toNat % 64 % 36)), false, false)),
      (.mul n d a t, false, fun x y _ => (word (x.toNat * y.toNat), false, false)),
      (.mulhu n d a t, false, fun x y _ => (word (x.toNat * y.toNat / 2 ^ 36), false, false)),
      (.mulhs n d a t, false, fun x y _ => (BitVec.ofInt 36 (x.toInt * y.toInt / 2 ^ 36), false, false)),
      (.min n d a t, false, fun x y _ => (BitVec.ofInt 36 (min x.toInt y.toInt), false, false)),
      (.minu n d a t, false, fun x y _ => (word (min x.toNat y.toNat), false, false)),
      (.max n d a t, false, fun x y _ => (BitVec.ofInt 36 (max x.toInt y.toInt), false, false)),
      (.maxu n d a t, false, fun x y _ => (word (max x.toNat y.toNat), false, false)),
      (.bfx n d a t wid, false, fun x y _ => (word (x.toNat / 2 ^ (y.toNat % 64) % 2 ^ (wid.val + 1)), false, false))]
      : List (Instr × Bool × (Word → Word → Bool → Word × Bool × Bool))),
      s.runs n r.1 iw →
      let c := s.core n
      let x := c.reg a
      let y := c.src t
      let z := r.2.2 x.v y.v c.cf
      let p := x.p || y.p || (r.2.1 && c.fp)
      ∃ u, exec r.1 s = .next u ∧
        Went s u n (c.pc + instrLen iw) { c.setReg d ⟨z.1, p⟩ with nf := z.1.msb, zf := z.1 == 0, cf := z.2.1, vf := z.2.2, fp := p }

/-- For every core about to run shli, shri, sari, roli, addi, andi, ori, xori, lui, mov, pop or clz, the command
answers a next state in which the core has gone on to the next instruction with d holding the table's result, all four
flags written from it (addi as add; the shift forms with the sh amount; the others with C = V = 0), and result and F
poisoned exactly when the register operand was. lui takes no register operand, so both are clean. li writes the
immediate word, clean, and leaves F as it was. Nothing else changes.  C and V of lui are written, with values the
statement does not name, since the opcode map names none.
Forms that complete here: shli, shri, sari, roli, mov, pop, clz, addi, andi, ori, xori, lui, li. -/
def Obligations.ImmediateAndUnaryComplete : Prop :=
  (∀ (s : State) (n : Nat) (d a : HReg) (sh : Fin 64) (imm : BitVec 18) (xf : Bool) (iw : Word),
    ∀ r ∈ ([
      (.shli n d a sh, fun x => (word (x.toNat * 2 ^ sh.val), (x.toNat * 2 ^ sh.val).testBit 36, false)),
      (.shri n d a sh, fun x => (word (x.toNat / 2 ^ sh.val), decide (sh.val ≠ 0) && x.getLsbD (sh.val - 1), false)),
      (.sari n d a sh, fun x =>
        (BitVec.ofInt 36 (x.toInt / 2 ^ sh.val), decide (sh.val ≠ 0) && x.getLsbD (min (sh.val - 1) 35), false)),
      (.roli n d a sh, fun x =>
        (word (x.toNat * 2 ^ (sh.val % 36)) ||| word (x.toNat / 2 ^ (36 - sh.val % 36)), false, false)),
      (.addi n d a imm, fun x =>
        (x + imm.signExtend 36, decide (2 ^ 36 ≤ x.toNat + (imm.signExtend 36).toNat),
          decide ((x + imm.signExtend 36).toInt ≠ x.toInt + imm.toInt))),
      (.andi n d a imm, fun x => (x &&& word imm.toNat, false, false)),
      (.ori n d a imm, fun x => (x ||| word imm.toNat, false, false)),
      (.xori n d a imm, fun x => (x ^^^ word imm.toNat, false, false)),
      (.mov n d a xf, fun x => (x, false, false)),
      (.pop n d a xf, fun x => (word ((List.range 36).filter fun i => x.getLsbD i).length, false, false)),
      (.clz n d a xf, fun x => (if x = 0 then 36 else word (35 - Nat.log2 x.toNat), false, false))]
      : List (Instr × (Word → Word × Bool × Bool))),
      s.runs n r.1 iw →
      let c := s.core n
      let x := c.reg a
      let z := r.2 x.v
      ∃ u, exec r.1 s = .next u ∧
        Went s u n (c.pc + instrLen iw) { c.setReg d ⟨z.1, x.p⟩ with nf := z.1.msb, zf := z.1 == 0, cf := z.2.1, vf := z.2.2, fp := x.p }) ∧
  (∀ (s : State) (n : Nat) (d : HReg) (imm : BitVec 18) (iw : Word), s.runs n (.lui n d imm) iw →
    let c := s.core n
    let z := word (imm.toNat * 2 ^ 18)
    ∃ u cv vv, exec (.lui n d imm) s = .next u ∧
      Went s u n (c.pc + instrLen iw) { c.setReg d ⟨z, false⟩ with nf := z.msb, zf := z == 0, cf := cv, vf := vv, fp := false }) ∧
  (∀ (s : State) (n : Nat) (d : HReg) (w iw : Word), s.runs n (.li n d w) iw →
    ∃ u, exec (.li n d w) s = .next u ∧ Went s u n ((s.core n).pc + instrLen iw) ((s.core n).setReg d ⟨w, false⟩))

/-- For every core about to run cmp, cmpi or tst, the command answers a next state in which the core has gone on with
no register changed: N and Z are those of s − t (of s and t for tst), C says that s is not below t unsigned and V that
the signed difference overflows (both 0 for tst), and F is poisoned exactly when an operand was.
Forms that complete here: cmp, tst, cmpi. -/
def Obligations.CompareWritesFlagsOnly : Prop :=
  ∀ (s : State) (n : Nat) (a : HReg) (t : Src) (imm : BitVec 18) (iw : Word),
    ∀ r ∈ ([
      (.cmp n a t, fun c => c.src t, fun x y => (x - y, decide (y.toNat ≤ x.toNat), decide ((x - y).toInt ≠ x.toInt - y.toInt))),
      (.cmpi n a imm, fun _ => ⟨imm.signExtend 36, false⟩,
        fun x y => (x - y, decide (y.toNat ≤ x.toNat), decide ((x - y).toInt ≠ x.toInt - y.toInt))),
      (.tst n a t, fun c => c.src t, fun x y => (x &&& y, false, false))]
      : List (Instr × (CoreSt → PWord) × (Word → Word → Word × Bool × Bool))),
      s.runs n r.1 iw →
      let c := s.core n
      let x := c.reg a
      let y := r.2.1 c
      let z := r.2.2 x.v y.v
      let p := x.p || y.p
      ∃ u, exec r.1 s = .next u ∧
        Went s u n (c.pc + instrLen iw) { c with nf := z.1.msb, zf := z.1 == 0, cf := z.2.1, vf := z.2.2, fp := p }

/-- For every core about to run br whose condition reads clean flags or a clean register, the next PC is the branch's
own address plus the displacement modulo 2^30 when the condition holds and the next instruction otherwise; the same of
jmp, always; call also writes the address after it to d; jr with a clean register goes to the register's value, when
that is an address of 30 bits, and writes the address after it to d; bdec with a clean register writes its value less
one and branches when that is not zero. A REMAP that waits takes effect on a taken branch, jump, call or return: in
each clause the register file is that of s.branched on a branch taken. No flag changes.
Forms that complete here: br, jmp, call, jr, bdec. -/
def Obligations.BranchesComplete : Prop :=
  (∀ (s : State) (n : Nat) (cond : Cond) (disp : BitVec 18) (iw : Word), s.runs n (.br n cond disp) iw →
    let c := s.core n
    (match condReg cond with
      | some (r, _) => (c.reg r).p = false
      | none => cond = .al ∨ c.fp = false) →
    let holds := match cond with
      | .al => true
      | .eq => c.zf
      | .ne => !c.zf
      | .lt => c.nf ^^ c.vf
      | .ge => !(c.nf ^^ c.vf)
      | .gt => !c.zf && !(c.nf ^^ c.vf)
      | .le => c.zf || (c.nf ^^ c.vf)
      | .ltu => !c.cf
      | .geu => c.cf
      | .gtu => c.cf && !c.zf
      | .leu => !c.cf || c.zf
      | .mi => c.nf
      | .pl => !c.nf
      | .vs => c.vf
      | .vc => !c.vf
      | .rz r => (c.reg r).v == 0
      | .rnz r => (c.reg r).v != 0
      | .rneg r => (c.reg r).v.msb
      | .rpos r => !(c.reg r).v.msb
    ∃ t, exec (.br n cond disp) s = .next t ∧
      if holds = true then Went (s.branched n) t n (relTarget c.pc disp) ((s.branched n).core n)
      else Went s t n (c.pc + instrLen iw) c) ∧
  (∀ (s : State) (n : Nat) (disp : BitVec 24) (iw : Word), s.runs n (.jmp n disp) iw →
    ∃ t, exec (.jmp n disp) s = .next t ∧
      Went (s.branched n) t n (relTarget (s.core n).pc disp) ((s.branched n).core n)) ∧
  (∀ (s : State) (n : Nat) (d : HReg) (disp : BitVec 24) (iw : Word), s.runs n (.call n d disp) iw →
    ∃ t, exec (.call n d disp) s = .next t ∧
      Went (s.branched n) t n (relTarget (s.core n).pc disp)
        (((s.branched n).core n).setReg d ⟨word ((s.core n).pc + instrLen iw), false⟩)) ∧
  (∀ (s : State) (n : Nat) (d a : HReg) (iw : Word), s.runs n (.jr n d a) iw → ((s.core n).reg a).p = false →
    ((s.core n).reg a).v.toNat < 2 ^ 30 →
    ∃ t, exec (.jr n d a) s = .next t ∧
      Went (s.branched n) t n ((s.core n).reg a).v.toNat
        (((s.branched n).core n).setReg d ⟨word ((s.core n).pc + instrLen iw), false⟩)) ∧
  (∀ (s : State) (n : Nat) (a : HReg) (disp : BitVec 18) (iw : Word), s.runs n (.bdec n a disp) iw →
    ((s.core n).reg a).p = false →
    let x := ((s.core n).reg a).v - 1
    ∃ t, exec (.bdec n a disp) s = .next t ∧
      if x = 0 then Went s t n ((s.core n).pc + instrLen iw) ((s.core n).setReg a ⟨x, false⟩)
      else Went (s.branched n) t n (relTarget (s.core n).pc disp) (((s.branched n).core n).setReg a ⟨x, false⟩))

/-- A core about to run waitp with a clean, valid LP pair goes on at once when the LP of the clock is at it or past it, with C
telling whether it is past; when the LP is still to come it stays at the instruction. WAITP_LP_REACHED ends that wait
once the LP is reached, with C = 0. F is clean after both, which write a flag from clean operands. That an LP equal to the
operand is not past is the model's choice (log entry 108), and so is that the LP of a clock is its first tick's (log entry
109). rdlp writes the two LP words of the clock. lpadd writes the LP of the operand advanced by the register's ticks,
poisoned when an operand was, when the sum does not pass the largest LP. No other flag and no other register changes.
Forms that complete here: waitp, waitpLpReached, rdlp, lpadd. -/
def Obligations.PositionInstructionsComplete : Prop :=
  (∀ (s : State) (n : Nat) (p : HPair) (iw : Word) (lp : Nat), s.runs n (.waitp n p) iw → (s.core n).lpPair p = (false, some lp) →
    ∃ t, exec (.waitp n p) s = .next t ∧
      (lp ≤ s.now / 4 * 4 →
        Went s t n ((s.core n).pc + instrLen iw) { s.core n with cf := decide (lp < s.now / 4 * 4), fp := false }) ∧
      (s.now / 4 * 4 < lp → Stays s t n (.waitp n p) iw)) ∧
  (∀ (s : State) (n : Nat) (p : HPair) (q : Bool) (lp : Nat), s.waiting n = some (.waitp n p) →
    (s.core n).lpPair p = (q, some lp) → lp ≤ s.now / 4 * 4 →
    ∃ t, exec (.waitpLpReached n) s = .next t ∧
      Went s t n (((s.core n).pc + instrLen (s.core n).waitWord) % 2 ^ 30) { s.core n with cf := false, fp := false }) ∧
  (∀ (s : State) (n : Nat) (d : HPair) (iw : Word), s.runs n (.rdlp n d) iw →
    let lp := s.now / 4 * 4
    ∃ t, exec (.rdlp n d) s = .next t ∧
      Went s t n ((s.core n).pc + instrLen iw)
        ((s.core n).setPair d ⟨word (lp / 4096000000), false⟩
          ⟨word (lp % 4096000000 / 500000 * 2 ^ 23 + lp % 500000 * 2 ^ 4), false⟩)) ∧
  (∀ (s : State) (n : Nat) (d p : HPair) (r : HReg) (iw : Word) (q : Bool) (lp : Nat), s.runs n (.lpadd n d p r) iw →
    (s.core n).lpPair p = (q, some lp) → lp + ((s.core n).reg r).v.toNat < 2 ^ 36 * 4096000000 →
    let y := lp + ((s.core n).reg r).v.toNat
    let z := q || ((s.core n).reg r).p
    ∃ t, exec (.lpadd n d p r) s = .next t ∧
      Went s t n ((s.core n).pc + instrLen iw)
        ((s.core n).setPair d ⟨word (y / 4096000000), z⟩ ⟨word (y % 4096000000 / 500000 * 2 ^ 23 + y % 500000 * 2 ^ 4), z⟩))

/-- For every core about to run one of these, the command answers a next state in which the core has gone on to the
next instruction: nop leaves the core as it was but for its PC and what every instruction may add to its sampling records;
halt stops the core HALTED at the address after it; fence goes on when no
access of the core and no timed store that has fired waits for its response, and waits at its address while one does; rdf
writes the flags N, Z, C, V to bits 3–0 of d, zeros above them, with F's poison; wrf writes the flags and F's poison from a
register; pchk sets Z to the register's poison, which F has afterwards too, and no other flag; pclr writes the register's
value clean and counts POISON_CLR; smark leaves the core as it was but for its sampling records, of which it adds one of kind
2 with the PC, the instruction word, the LP of the clock, the register and the record's number, which stands last in the
buffer where there was room or the oldest gives way; rdcyc writes the clocks of four ticks from that of the core's start to
the present one (log entry 55: the model's choice). Forms that complete here: nop, halt, fence, rdf, wrf, pchk, pclr,
smark, rdcyc. -/
def Obligations.SystemInstructionsComplete : Prop :=
  (∀ (s : State) (n : Nat) (iw : Word), s.runs n (.nop n) iw →
    ∃ t, exec (.nop n) s = .next t ∧ Went s t n ((s.core n).pc + instrLen iw) (s.core n)) ∧
  (∀ (s : State) (n : Nat) (iw : Word), s.runs n (.halt n) iw →
    ∃ t, exec (.halt n) s = .next t ∧ t.coreState n = 5 ∧
      Went s t n ((s.core n).pc + instrLen iw) { s.core n with haltReq := true }) ∧
  (∀ (s : State) (n : Nat) (iw : Word), s.runs n (.fence n) iw →
    ∃ t, exec (.fence n) s = .next t ∧
      ((∀ r ∈ s.mtx, r.core = n → r.by_.fenced = true → r.stage = .served) →
        Went s t n ((s.core n).pc + instrLen iw) (s.core n)) ∧
      ((∃ r ∈ s.mtx, r.core = n ∧ r.by_.fenced = true ∧ r.stage ≠ .served) → Stays s t n (.fence n) iw)) ∧
  (∀ (s : State) (n : Nat) (d : HReg) (iw : Word), s.runs n (.rdf n d) iw →
    let c := s.core n
    ∃ t, exec (.rdf n d) s = .next t ∧
      Went s t n (c.pc + instrLen iw)
        (c.setReg d ⟨word (b2n c.nf * 8 + b2n c.zf * 4 + b2n c.cf * 2 + b2n c.vf), c.fp⟩)) ∧
  (∀ (s : State) (n : Nat) (a : HReg) (iw : Word), s.runs n (.wrf n a) iw →
    let x := (s.core n).reg a
    ∃ t, exec (.wrf n a) s = .next t ∧
      Went s t n ((s.core n).pc + instrLen iw)
        { s.core n with nf := x.v.getLsbD 3, zf := x.v.getLsbD 2, cf := x.v.getLsbD 1, vf := x.v.getLsbD 0, fp := x.p }) ∧
  (∀ (s : State) (n : Nat) (a : HReg) (iw : Word), s.runs n (.pchk n a) iw →
    ∃ t, exec (.pchk n a) s = .next t ∧
      Went s t n ((s.core n).pc + instrLen iw) { s.core n with zf := ((s.core n).reg a).p, fp := ((s.core n).reg a).p }) ∧
  (∀ (s : State) (n : Nat) (d a : HReg) (iw : Word), s.runs n (.pclr n d a) iw →
    ∃ t, exec (.pclr n d a) s = .next t ∧ POISON_CLR.raised s t n [] ∧ POISON_CLR.counted s t n 1 ∧
      Went s t n ((s.core n).pc + instrLen iw) ((s.core n).setReg d ⟨((s.core n).reg a).v, false⟩)) ∧
  (∀ (s : State) (n : Nat) (a : HReg) (iw : Word), s.runs n (.smark n a) iw →
    let lp := s.now / 4 * 4
    ∃ t no, exec (.smark n a) s = .next t ∧ Went s t n ((s.core n).pc + instrLen iw) (s.core n) ∧
      (no = (s.core n).smpNo ∨ no = ((s.core n).smpNo + 1) % 2 ^ 36) ∧ (t.core n).smpNo = (no + 1) % 2 ^ 36 ∧
      ((s.core n).smpHeld < 59 ∨ (s.core n).smpHead < 60 ∧ (s.core n).smpHeld ≤ 60 ∧ s.rdb CORE_SMP_CTL_FULL n = true →
        sget (fun _ => []) (t.core n).smp (((t.core n).smpHead + (t.core n).smpHeld + 59) % 60) =
          [⟨word (2 * 2 ^ 34 + (s.core n).pc), false⟩, ⟨iw, false⟩, ⟨0, false⟩, ⟨word (lp / 4096000000), false⟩,
            ⟨word (lp % 4096000000 / 500000 * 2 ^ 23 + lp % 500000 * 2 ^ 4), false⟩, ⟨0, false⟩, (s.core n).reg a,
            ⟨word no, false⟩])) ∧
  (∀ (s : State) (n : Nat) (d : HReg) (iw : Word), s.runs n (.rdcyc n d) iw →
    ∃ t, exec (.rdcyc n d) s = .next t ∧
      Went s t n ((s.core n).pc + instrLen iw)
        ((s.core n).setReg d ⟨word (s.now / 4 - (s.core n).startT / 4), false⟩))

/-- For every core about to run brk, the command answers a next state in which the core is FAULTED with code 10
(BREAK) at its instruction and CORE_FAULT is raised with the core, the code and the PC; for every core whose next word
is illegal, ILLEGAL_INSTRUCTION answers the same with code 1. No register of the core, no memory, no other core and no
register word but CORE_STAT of the core and SVC_ALERT changes.
Forms that complete here: brk, illegalInstruction. -/
def Obligations.BreakAndIllegalFault : Prop :=
  (∀ (s : State) (n : Nat) (iw : Word), s.runs n (.brk n) iw → ∃ t, exec (.brk n) s = .next t ∧ Faulted s t n 10) ∧
  (∀ (s u : State) (n : Nat), s.begins n = true → s.fetch n = .illegal u →
    ∃ t, exec (.illegalInstruction n) s = .next t ∧ Faulted s t n 1)

/-- A load or store whose address passes 30 bits raises ADDR (2); a pair form with an odd address raises ALIGN (3) and
one with a poisoned base POISON (4), the lowest code first; br on poisoned flags, jr and bdec on a poisoned register,
waitp on a poisoned pair raise POISON; waitp and lpadd on an invalid LP raise LPBAD (6). Each stops the core FAULTED
at its instruction with no register of the core changed. -/
def Obligations.OperandExceptions : Prop :=
  (∀ (s : State) (n : Nat) (d : HReg) (p : HPair) (m : MemArgs) (iw : Word),
    ∀ r ∈ ([(.ld n d m, 1, false), (.st n d m, 1, false), (.aadd n d m, 1, false), (.aswp n d m, 1, false),
            (.ldp n p m, 2, true), (.stp n p m, 2, true)] : List (Instr × Nat × Bool)),
      s.runs n r.1 iw →
      let b := (s.core n).reg m.b
      let ea := (memAddr m r.2.1 b.v).toNat
      (2 ^ 30 ≤ ea → ∃ t, exec r.1 s = .next t ∧ Faulted s t n 2) ∧
      (ea < 2 ^ 30 → r.2.2 = true → ea % 2 = 1 → ∃ t, exec r.1 s = .next t ∧ Faulted s t n 3) ∧
      (ea < 2 ^ 30 → (r.2.2 = true → ea % 2 = 0) → b.p = true → ∃ t, exec r.1 s = .next t ∧ Faulted s t n 4)) ∧
  (∀ (s : State) (n : Nat) (disp : BitVec 18) (iw : Word), s.runs n (.br n .eq disp) iw → (s.core n).fp = true →
    ∃ t, exec (.br n .eq disp) s = .next t ∧ Faulted s t n 4) ∧
  (∀ (s : State) (n : Nat) (d a : HReg) (iw : Word), s.runs n (.jr n d a) iw → ((s.core n).reg a).p = true →
    ∃ t, exec (.jr n d a) s = .next t ∧ Faulted s t n 4) ∧
  (∀ (s : State) (n : Nat) (a : HReg) (disp : BitVec 18) (iw : Word), s.runs n (.bdec n a disp) iw →
    ((s.core n).reg a).p = true → ∃ t, exec (.bdec n a disp) s = .next t ∧ Faulted s t n 4) ∧
  (∀ (s : State) (n : Nat) (p : HPair) (iw : Word) (lp : Option Nat), s.runs n (.waitp n p) iw →
    (s.core n).lpPair p = (true, lp) → ∃ t, exec (.waitp n p) s = .next t ∧ Faulted s t n 4) ∧
  (∀ (s : State) (n : Nat) (p : HPair) (iw : Word), s.runs n (.waitp n p) iw →
    (s.core n).lpPair p = (false, none) → ∃ t, exec (.waitp n p) s = .next t ∧ Faulted s t n 6) ∧
  (∀ (s : State) (n : Nat) (d p : HPair) (r : HReg) (q : Bool) (iw : Word), s.runs n (.lpadd n d p r) iw →
    (s.core n).lpPair p = (q, none) → ∃ t, exec (.lpadd n d p r) s = .next t ∧ Faulted s t n 6)

/-- For every core about to run ld or ldp with a clean base and an address of 30 bits (even for ldp) that names lane
memory which can be served now (not held back, no earlier request of the core waiting, its port free), the command answers a next state in
which the core has gone on, the base is stepped as md says, and d (the pair) holds what the stored word delivers for
the lanes enabled, other lanes zero, with its poison; a d that is also the base holds the loaded word. Memory, the
other cores and every register word but CORE_STAT of the core and SVC_ALERT are unchanged. For any other place (a
register, a window, ROM), d holds what that place delivers, after the effects of reading it.
Forms that complete here: ld, ldp. -/
def Obligations.LoadsComplete : Prop :=
  (∀ (s : State) (n g : Nat) (d : HReg) (m : MemArgs) (iw : Word), s.runs n (.ld n d m) iw →
    let c := s.core n
    let b := c.reg m.b
    let ea := (memAddr m 1 b.v).toNat
    ea < 2 ^ 30 → b.p = false → s.resolve n ea false = .ok (.mem g) → s.blocked n .core (.mem g) = false →
    ∃ t, exec (.ld n d m) s = .next t ∧
      Went s t n (c.pc + instrLen iw) ((c.stepBase m 1).setReg d ((s.memAt g).deliver m.le.toNat))) ∧
  (∀ (s : State) (n g h : Nat) (d : HPair) (m : MemArgs) (iw : Word), s.runs n (.ldp n d m) iw →
    let c := s.core n
    let b := c.reg m.b
    let ea := (memAddr m 2 b.v).toNat
    ea < 2 ^ 30 → ea % 2 = 0 → b.p = false → s.resolve n ea false = .ok (.mem g) → s.resolve n (ea + 1) false = .ok (.mem h) →
    s.blocked n .core (.mem g) = false → s.blocked n .core (.mem h) = false →
    ∃ t, exec (.ldp n d m) s = .next t ∧
      Went s t n (c.pc + instrLen iw)
        (((c.stepBase m 2).setReg (2 * d.val) ((s.memAt g).deliver m.le.toNat)).setReg (2 * d.val + 1)
          ((s.memAt h).deliver m.le.toNat))) ∧
  (∀ (s u v : State) (n : Nat) (d : HReg) (m : MemArgs) (iw : Word) (w : PWord), s.begins n = true →
    s.fetch n = .instr u (.ld n d m) iw →
    let ea := (memAddr m 1 ((s.core n).reg m.b).v).toNat
    ea < 2 ^ 30 → ((s.core n).reg m.b).p = false → u.loadWord n .core ea m.le.toNat = .ok v w →
    ∃ t, exec (.ld n d m) s = .next t ∧
      Went v t n ((s.core n).pc + instrLen iw) (((v.core n).stepBase m 1).setReg d w))

/-- For every core about to run st or stp with a clean base and an address of 30 bits (even for stp) that names lane
memory it may write and that can be served now, the command answers a
next state in which the addressed word (the two words) holds the enabled lanes of the register (the pair), poisoned
when the register is, every other word of memory reads as before, the core has gone on with the base stepped as md
says, and nothing else changes. For any other place, the state is the one that writing that place leaves.
Forms that complete here: st, stp. -/
def Obligations.StoresComplete : Prop :=
  (∀ (s : State) (n g : Nat) (d : HReg) (m : MemArgs) (iw : Word), s.runs n (.st n d m) iw →
    let c := s.core n
    let b := c.reg m.b
    let ea := (memAddr m 1 b.v).toNat
    ea < 2 ^ 30 → b.p = false → s.resolve n ea true = .ok (.mem g) → s.blocked n .core (.mem g) = false →
    ∃ t, exec (.st n d m) s = .next t ∧ t.memAt g = (s.memAt g).store m.le.toNat (c.reg d) ∧
      (∀ a, a ≠ g → t.memAt a = s.memAt a) ∧ Went { s with mem := t.mem } t n (c.pc + instrLen iw) (c.stepBase m 1)) ∧
  (∀ (s : State) (n g : Nat) (d : HPair) (m : MemArgs) (iw : Word), s.runs n (.stp n d m) iw →
    let c := s.core n
    let b := c.reg m.b
    let ea := (memAddr m 2 b.v).toNat
    ea < 2 ^ 30 → ea % 2 = 0 → b.p = false → s.resolve n ea true = .ok (.mem g) → s.resolve n (ea + 1) true = .ok (.mem (g + 1)) →
    s.blocked n .core (.mem g) = false → s.blocked n .core (.mem (g + 1)) = false →
    ∃ t, exec (.stp n d m) s = .next t ∧ t.memAt g = (s.memAt g).store m.le.toNat (c.reg (2 * d.val)) ∧
      t.memAt (g + 1) = (s.memAt (g + 1)).store m.le.toNat (c.reg (2 * d.val + 1)) ∧
      (∀ a, a ≠ g → a ≠ g + 1 → t.memAt a = s.memAt a) ∧
      Went { s with mem := t.mem } t n (c.pc + instrLen iw) (c.stepBase m 2)) ∧
  (∀ (s u v : State) (n : Nat) (d : HReg) (m : MemArgs) (iw : Word), s.begins n = true →
    s.fetch n = .instr u (.st n d m) iw →
    let ea := (memAddr m 1 ((s.core n).reg m.b).v).toNat
    ea < 2 ^ 30 → ((s.core n).reg m.b).p = false → u.storeWord n .core ea m.le.toNat ((s.core n).reg d) = .ok v () →
    ∃ t, exec (.st n d m) s = .next t ∧ Went v t n ((s.core n).pc + instrLen iw) ((v.core n).stepBase m 1))

/-- For every core about to run aadd or aswp with a clean base and an address of 30 bits that names lane memory it may
write and that can be served now, the command answers a next state in
which d holds the old word with its poison, the addressed word holds the sum of the old word and d (aadd) or d (aswp),
poisoned when either was, every other word of memory reads as before, and the core has gone on with the base stepped
as md says.
Forms that complete here: aadd, aswp. -/
def Obligations.AtomicsComplete : Prop :=
  ∀ (s : State) (n g : Nat) (d : HReg) (m : MemArgs) (iw : Word),
    ∀ r ∈ ([(.aadd n d m, fun x y => x + y), (.aswp n d m, fun _ y => y)] : List (Instr × (Word → Word → Word))),
      s.runs n r.1 iw →
      let c := s.core n
      let b := c.reg m.b
      let ea := (memAddr m 1 b.v).toNat
      let old := (s.memAt g).deliver 15
      ea < 2 ^ 30 → b.p = false → s.resolve n ea true = .ok (.mem g) → s.blocked n .core (.mem g) = false →
      ∃ t, exec r.1 s = .next t ∧
        t.memAt g = (s.memAt g).store 15 ⟨r.2 old.v (c.reg d).v, old.p || (c.reg d).p⟩ ∧
        (∀ a, a ≠ g → t.memAt a = s.memAt a) ∧
        Went { s with mem := t.mem } t n (c.pc + instrLen iw) ((c.stepBase m 1).setReg d old)

/-- For every core about to run at with a clean, valid LP pair and a clean pointer to an action block without reserved
values, of kind 0 or 2, or of kind 1 with a readable descriptor, whose tag is free and with a slot free, the command
answers a next state in which the lowest free slot holds the action, d holds its number, C tells whether the LP is
reached already (AT_LATE is then counted), F is clean, and for kinds 1 and 2 the tag is busy. For every core about to
run atcan with a clean slot number up to 15: when the slot is free, or holds the action that fires in this clock, d
holds 0 and the slot is as it was; else the slot is free afterwards, its tag too for kinds 1 and 2, and d holds 1.
Forms that complete here: atArm, atcan. -/
def Obligations.ArmedActionsComplete : Prop :=
  (∀ (s u v : State) (n : Nat) (d : HReg) (p : HPair) (r : HReg) (iw w0 w1 : Word) (lp k : Nat), s.begins n = true →
    s.fetch n = .instr u (.atArm n d p r) iw → (s.core n).lpPair p = (false, some lp) → ((s.core n).reg r).p = false →
    let ea := ((s.core n).reg r).v.toNat
    u.loadWords n ea 2 = .ok v [⟨w0, false⟩, ⟨w1, false⟩] → blkOk w0 w1 = true → blkKind w0 ≠ 1 →
    let c := v.core n
    (blkKind w0 = 2 → c.busy.contains (blkTag w1) = false) → k < 16 → (∀ e ∈ c.slots, e.1 ≠ k) →
    (∀ j, j < k → ∃ e ∈ c.slots, e.1 = j) →
    ∃ t, exec (.atArm n d p r) s = .next t ∧ (lp ≤ v.now / 4 * 4 → AT_LATE.raised v t n []) ∧
      Went v t n ((s.core n).pc + instrLen iw)
        ({ c with
            busy := if blkKind w0 = 0 then c.busy else blkTag w1 :: c.busy
            slots := c.slots ++ [(k, (⟨lp, w0, w1, [], (s.core n).pc, v.wordAt n, ea, v.now / 4⟩ : AtSlot))]
            cf := decide (lp ≤ v.now / 4 * 4), fp := false : CoreSt }.setReg d ⟨word k, false⟩)) ∧
  (∀ (s u v x : State) (n : Nat) (d : HReg) (p : HPair) (r : HReg) (iw w0 w1 : Word) (lp k : Nat) (desc : List PWord),
    s.begins n = true → s.fetch n = .instr u (.atArm n d p r) iw → (s.core n).lpPair p = (false, some lp) →
    ((s.core n).reg r).p = false →
    let ea := ((s.core n).reg r).v.toNat
    u.loadWords n ea 2 = .ok v [⟨w0, false⟩, ⟨w1, false⟩] → blkOk w0 w1 = true → blkKind w0 = 1 →
    v.readDesc n (blkAddr w0) = .ok x desc →
    let c := x.core n
    c.busy.contains (blkTag w1) = false → k < 16 → (∀ e ∈ c.slots, e.1 ≠ k) → (∀ j, j < k → ∃ e ∈ c.slots, e.1 = j) →
    ∃ t, exec (.atArm n d p r) s = .next t ∧ (lp ≤ x.now / 4 * 4 → AT_LATE.raised x t n []) ∧
      Went x t n ((s.core n).pc + instrLen iw)
        ({ c with
            busy := blkTag w1 :: c.busy
            slots := c.slots ++ [(k, (⟨lp, w0, w1, desc, (s.core n).pc, v.wordAt n, ea, v.now / 4⟩ : AtSlot))]
            cf := decide (lp ≤ x.now / 4 * 4), fp := false : CoreSt }.setReg d ⟨word k, false⟩)) ∧
  (∀ (s : State) (n : Nat) (d a : HReg) (iw : Word), s.runs n (.atcan n d a) iw →
    let c := s.core n
    let k := (c.reg a).v.toNat
    let fires := (s.dueSlot n).map (·.1) = some k
    (c.reg a).p = false → k ≤ 15 →
    ∃ t, exec (.atcan n d a) s = .next t ∧
      (c.slot k = none ∨ fires → Went s t n (c.pc + instrLen iw) (c.setReg d ⟨0, false⟩)) ∧
      (∀ x, c.slot k = some x → ¬fires →
        Went s t n (c.pc + instrLen iw)
          ({ c with
              slots := c.slots.filter fun e => e.1 ≠ k
              busy := if blkKind x.w0 = 0 then c.busy else c.busy.filter (· ≠ blkTag x.w1) : CoreSt }.setReg d ⟨1, false⟩)))

/-- When a slot of a core in any state but OFF is the one that fires, its event frees it, lets no other fire in this
clock, and performs its action: a timed store writes its word at its address for its lanes (to lane memory that can be
served: that word, and no other), waits in its own ordering domain when it cannot be served now, or is counted and
recorded as AT_ERR when the address does not take it; a timed issue puts the descriptor among the engine operations
outstanding, ENG_OUT following; a signal posts a completion with status OK whose result is LP word B. The slot chosen
was armed in an earlier clock and is due, no action has fired in this clock, and no due slot has a lower LP, nor the same
LP and a lower number. That armings and firings count clocks of four ticks is the model's choice (log entry 109).
Forms that complete here: atTimedStore, atTimedIssue, atSignal. -/
def Obligations.ArmedActionsFire : Prop :=
  (∀ (s : State) (n : Nat) (e : Nat × AtSlot), s.dueSlot n = some e →
    e ∈ (s.core n).slots ∧ e.2.lp ≤ s.now / 4 * 4 ∧ e.2.armed < s.now / 4 ∧ (s.core n).fired ≠ s.now / 4 + 1 ∧
      ∀ f ∈ (s.core n).slots, f.2.lp ≤ s.now / 4 * 4 → f.2.armed < s.now / 4 →
        e.2.lp < f.2.lp ∨ (e.2.lp = f.2.lp ∧ e.1 ≤ f.1)) ∧
  (∀ (s : State) (n : Nat) (k : Fin 16) (x : AtSlot), s.up = true → s.coreState n ≠ 0 → s.dueSlot n = some (k.val, x) →
    blkKind x.w0 = 0 →
    let u := s.setCore n { (s.core n).dropSlot k with fired := s.now / 4 + 1 }
    let g : Agent := .timed k s.now (blkAddr x.w0)
    let asks := u.storeWord n g (blkAddr x.w0) (blkLe x.w0) ⟨x.w1, false⟩
    (∀ a, u.resolve n (blkAddr x.w0) true = .ok (.mem a) → u.blocked n g (.mem a) = false →
      ∃ t, exec (.atTimedStore n k false) s = .next t ∧ t.memAt a = (s.memAt a).store (blkLe x.w0) ⟨x.w1, false⟩ ∧
        (∀ b, b ≠ a → t.memAt b = s.memAt b) ∧ t = { u with mem := t.mem }) ∧
    (∀ v, asks = .ok v () → exec (.atTimedStore n k false) s = .next v) ∧
    (∀ p, asks = .held p →
      exec (.atTimedStore n k false) s = .next (u.request n g p (some (blkLe x.w0, ⟨x.w1, false⟩)))) ∧
    (∀ v code, asks = .bad v code →
      ∃ t, exec (.atTimedStore n k false) s = .next t ∧ Events v t ∧ CORE_AT_ERR.raised v t n [n, k.val, blkAddr x.w0])) ∧
  (∀ (s : State) (n : Nat) (k : Fin 16) (x : AtSlot), s.up = true → s.coreState n ≠ 0 → s.dueSlot n = some (k.val, x) →
    blkKind x.w0 = 1 →
    ∃ t, exec (.atTimedIssue n k false) s = .next t ∧
      Became (s.wr CORE_STAT_ENG_OUT ((s.core n).ops.length + 1) n) t n
        { (s.core n).dropSlot k with
          fired := s.now / 4 + 1
          ops := (s.core n).ops ++
            [{ tag := blkTag x.w1, unit := descUnit x.desc, desc := x.desc, accepted := s.now, pc := x.pc, iw := x.iw, ea := x.ea }] }) ∧
  (∀ (s : State) (n : Nat) (k : Fin 16) (x : AtSlot), s.up = true → s.coreState n ≠ 0 → s.dueSlot n = some (k.val, x) →
    blkKind x.w0 = 2 →
    ∃ t, exec (.atSignal n k false) s = .next t ∧
      Became s t n
        { (s.core n).dropSlot k with
          fired := s.now / 4 + 1
          ring := placeEntry ⟨blkTag x.w1, 0, 0, 0, ⟨word (lpB (s.now / 4 * 4)), false⟩, s.now / 4⟩ (s.core n).ring })

/-- For every core about to run issue with a clean pointer and tag, a tag not busy, no access of the core waiting and
a descriptor that reads clean, the command answers a next state in which the tag is busy and the operation outstanding
with ENG_OUT following, when the engine has room; without room, the core waits at the instruction with the descriptor
read. ENGINE_ACCEPT ends that wait with the same effect.
Forms that complete here: issue, engineAccept. -/
def Obligations.IssueComplete : Prop :=
  (∀ (s u v : State) (n : Nat) (a : HReg) (tag : TagSrc) (iw : Word) (desc : List PWord), s.begins n = true →
    s.fetch n = .instr u (.issue n a tag false) iw →
    let ea := ((s.core n).reg a).v.toNat
    ((s.core n).reg a).p = false → (s.core n).tagPoison tag = false → (s.core n).busy.contains ((s.core n).tag tag) = false →
    s.domainBusy n .core = false → u.readDesc n ea = .ok v desc →
    let c := v.core n
    (∃ t, exec (.issue n a tag true) s = .next t ∧
      Went (v.wr CORE_STAT_ENG_OUT (c.ops.length + 1) n) t n ((s.core n).pc + instrLen iw)
        { c with
          busy := (s.core n).tag tag :: c.busy
          ops := c.ops ++
            [{ tag := (s.core n).tag tag, unit := descUnit desc, desc := desc, accepted := v.now, pc := c.pc,
               iw := u.wordAt n, ea := ea }] }) ∧
    (∃ t, exec (.issue n a tag false) s = .next t ∧
      Became v t n { c with waitDesc := desc, wait := some (.issue n a tag false), waitWord := iw })) ∧
  (∀ (s : State) (n : Nat) (a : HReg) (tag : TagSrc) (r : Bool), s.waiting n = some (.issue n a tag r) →
    (s.core n).waitDesc ≠ [] →
    let c := s.core n
    ∃ t, exec (.engineAccept n) s = .next t ∧
      Went (s.wr CORE_STAT_ENG_OUT (c.ops.length + 1) n) t n ((c.pc + instrLen c.waitWord) % 2 ^ 30)
        { c with
          busy := c.tag tag :: c.busy
          ops := c.ops ++
            [{ tag := c.tag tag, unit := descUnit c.waitDesc, desc := c.waitDesc, accepted := s.now, pc := c.pc,
               iw := c.waitWord, ea := (c.reg a).v.toNat }] })

/-- A core about to run waitt (with a clean tag) or waita or cpop takes the entry the spec names (that of the tag; the
oldest; the oldest) among those posted in an earlier clock: the pair holds its two words, the entry leaves the ring, its tag is free, N, C and V are 0 and Z
tells whether its status is OK, and F is poisoned when the result is. waitt of a busy tag without an entry and waita
with tags busy and an empty ring wait at the instruction, and COMPLETION_AWAITED_POSTED ends that wait when the entry
is there. waitt of a free tag and waita with no tag busy give status 511; cpop of an empty ring gives a zero pair with
C = 1.
Forms that complete here: waitt, waita, cpop, completionAwaitedPosted. -/
def Obligations.CompletionsTaken : Prop :=
  (∀ (s : State) (n : Nat) (d : HPair) (tag : TagSrc) (iw : Word) (e : RingEnt),
    let c := s.core n
    let taken : CoreSt :=
      { ({ c with ring := c.ring.filter fun x => x.tag ≠ e.tag, busy := c.busy.filter (· ≠ e.tag) : CoreSt }.setPair d
          ⟨word (e.tag * 2 ^ 30 + e.unit * 2 ^ 27 + e.status * 2 ^ 18 + e.count % 2 ^ 18), false⟩ e.result) with
        nf := false, zf := decide (e.status = 0), cf := false, vf := false, fp := e.result.p }
    let ring := c.ring.filter fun x => x.clk < s.now / 4
    (s.runs n (.waitt n d tag false) iw → c.tagPoison tag = false → c.busy.contains (c.tag tag) = true →
      (ring.find? fun x => x.tag = c.tag tag) = some e →
      ∃ t, exec (.waitt n d tag false) s = .next t ∧ Went s t n (c.pc + instrLen iw) taken) ∧
    (s.runs n (.waita n d false) iw → ring.head? = some e →
      ∃ t, exec (.waita n d false) s = .next t ∧ Went s t n (c.pc + instrLen iw) taken) ∧
    (s.runs n (.cpop n d false) iw → ring.head? = some e →
      ∃ t, exec (.cpop n d false) s = .next t ∧ Went s t n (c.pc + instrLen iw) taken) ∧
    (s.waiting n = some (.waitt n d tag false) → (ring.find? fun x => x.tag = c.tag tag) = some e →
      ∃ t, exec (.completionAwaitedPosted n false) s = .next t ∧ Went s t n ((c.pc + instrLen c.waitWord) % 2 ^ 30) taken) ∧
    (s.waiting n = some (.waita n d false) → ring.head? = some e →
      ∃ t, exec (.completionAwaitedPosted n false) s = .next t ∧ Went s t n ((c.pc + instrLen c.waitWord) % 2 ^ 30) taken)) ∧
  (∀ (s : State) (n : Nat) (d : HPair) (tag : TagSrc) (iw : Word),
    let c := s.core n
    let ring := c.ring.filter fun x => x.clk < s.now / 4
    (s.runs n (.waitt n d tag false) iw → c.tagPoison tag = false → c.busy.contains (c.tag tag) = true →
      (∀ x ∈ ring, x.tag ≠ c.tag tag) →
      ∃ t, exec (.waitt n d tag false) s = .next t ∧ Stays s t n (.waitt n d tag false) iw) ∧
    (s.runs n (.waita n d false) iw → c.busy ≠ [] → ring = [] →
      ∃ t, exec (.waita n d false) s = .next t ∧ Stays s t n (.waita n d false) iw) ∧
    (s.runs n (.waitt n d tag false) iw → c.tagPoison tag = false → c.busy.contains (c.tag tag) = false →
      ∃ t, exec (.waitt n d tag false) s = .next t ∧ Went s t n (c.pc + instrLen iw)
        { c.setPair d ⟨word (c.tag tag * 2 ^ 30 + 511 * 2 ^ 18), false⟩ ⟨0, false⟩ with
          nf := false, zf := false, cf := false, vf := false, fp := false }) ∧
    (s.runs n (.waita n d false) iw → c.busy = [] → ring = [] →
      ∃ t, exec (.waita n d false) s = .next t ∧ Went s t n (c.pc + instrLen iw)
        { c.setPair d ⟨word (511 * 2 ^ 18), false⟩ ⟨0, false⟩ with
          nf := false, zf := false, cf := false, vf := false, fp := false }) ∧
    (s.runs n (.cpop n d false) iw → ring = [] →
      ∃ t, exec (.cpop n d false) s = .next t ∧ Went s t n (c.pc + instrLen iw)
        { c.setPair d ⟨0, false⟩ ⟨0, false⟩ with nf := false, zf := true, cf := true, vf := false, fp := false }))

/-- The first request of a core that can move is admitted when the bridges of its path have room and its target does not
hold it back, and else waits at its master port, counted there when its ordering domain held it back before; the request that a target port
chooses is granted: of a core's own local RAM, the port remembers that the matrix has the next turn, and of any other, its
master; a granted request is answered in the view its master had when it issued it, and is then gone: the response to a store
that was posted writes its lanes where its domain still answers and no image holds the word, and no other word of memory
changes; the response to a load lets the load complete with the word of its place. A choice made for starvation is of a
request that has waited at least the bound of clocks, and none that is as ready has waited more clocks. That a request is
admitted, granted and answered by three commands is the model's choice (log entry 48). Forms that complete here:
matrixAdmit, matrixGrant, matrixResponse. -/
def Obligations.MatrixRequestsProceed : Prop :=
  (∀ (s : State) (n : Nat) (room : Bool) (r : MtxReq), (s.mtx.find? fun q => q.core = n && s.movable q) = some r →
    (room = true ∧ s.targetHeld r = false →
      exec (.matrixAdmit n room) s =
        .next { s with mtx := replaceFirst r { r with stage := .admitted, adm := s.now } s.mtx }) ∧
    (¬(room = true ∧ s.targetHeld r = false) → r.stage = .waiting → exec (.matrixAdmit n room) s = .next s) ∧
    (¬(room = true ∧ s.targetHeld r = false) → r.stage = .heldBack →
      let u := { s with mtx := replaceFirst r { r with stage := .waiting } s.mtx }
      ∃ t, exec (.matrixAdmit n room) s = .next t ∧ Events u t ∧ MTX_HOLD_DL.counted u t (matrixOf n) 1)) ∧
  (∀ (s : State) (target : Nat) (r : MtxReq) (b : Bool), s.chosen target = some (r, b) →
    let mtx := replaceFirst r { r with stage := .granted } s.mtx
    let others := s.ramTurn.filter (· ≠ target)
    (r.core = target ∧ r.by_ = .core → exec (.matrixGrant target) s = .next { s with mtx := mtx, ramTurn := target :: others }) ∧
    (¬(r.core = target ∧ r.by_ = .core) → ∃ t, exec (.matrixGrant target) s = .next t ∧
      Events { s with mtx := mtx, mtxLast := sput (fun _ => 0) s.mtxLast target (r.master + 1), ramTurn := others } t)) ∧
  (∀ (s : State) (target : Nat) (r : MtxReq), s.chosen target = some (r, true) →
    r ∈ s.mtx ∧ r.since / 4 + s.starve r.addr ≤ s.now / 4 ∧
      ∀ q ∈ s.mtx, targetPort q.addr = target → s.arrived q = true → ¬(q.core = target ∧ q.by_ = .core) →
        q.since / 4 + s.starve q.addr ≤ s.now / 4 → r.since / 4 ≤ q.since / 4) ∧
  (∀ (s : State) (n : Nat) (r : MtxReq),
    (s.mtx.find? fun q => q.core = n && q.stage = .granted && !s.targetHeld q) = some r →
    let q := { r with stage := .served }
    let u := { s with mtx := replaceFirst r q s.mtx }
    (let t := u.respond r
     exec (.matrixResponse n) s = .next { t with mtx := removeFirst q t.mtx }) ∧
    (∀ le v, r.by_ = .core → s.rdb CORE_CTL_REMAP n = r.remap → r.win = none → r.posted = some (le, v) → s.waiting n = none →
      s.answers (Place.mem r.addr).domain = true → s.inImage r.addr = false →
      ∃ t, exec (.matrixResponse n) s = .next t ∧ t.memAt r.addr = (s.memAt r.addr).store le v ∧
        (∀ a, a ≠ r.addr → t.memAt a = s.memAt a) ∧ t = { s with mtx := removeFirst q u.mtx, mem := t.mem }) ∧
    (∀ d m v w, r.by_ = .core → s.rdb CORE_CTL_REMAP n = r.remap → r.win = none → r.posted = none →
      s.waiting n = some (.ld n d m) →
      let ea := (memAddr m 1 ((s.core n).reg m.b).v).toNat
      ea < 2 ^ 30 → ((s.core n).reg m.b).p = false → u.loadWord n .core ea m.le.toNat = .ok v w →
      ∃ t, exec (.matrixResponse n) s = .next { t with mtx := removeFirst q t.mtx } ∧
        Went v t n (((s.core n).pc + instrLen (s.core n).waitWord) % 2 ^ 30) (((v.core n).stepBase m 1).setReg d w)))

/-- When an outstanding DMA copy that has moved nothing yet has its reserved bits zero, a non-zero word count, sources
that read from lane memory and destinations in lane memory that may be written, apart from the sources and all of which
can be served, and its engine goes on by all its words, the operation ends OK
with the number of words as COUNT and RESULT 0; each destination word holds its source word with its poison, and every
other word of memory reads as before. A fill does the same with the word of its descriptor. Besides the completion,
ENG_OUT, counting and events nothing else changes. Going on by fewer words, either has moved just those and stays
outstanding (log entry 50: the model's choice of how far one command takes an operation).
Forms that complete here: dmaCopy, dmaFill. -/
def Obligations.MemoryTransfersComplete : Prop :=
  (∀ (s : State) (n g h k words j : Nat) (tag : Fin 64) (o : EngOp), EngRuns s n tag 2 1 o → o.done = 0 →
    k = (o.w 3).bits 17 0 → 0 < k → j = min words k →
    o.clean [2 ^ 36 - 2 ^ 27, 2 ^ 30 - 1, 2 ^ 30 - 1, 2 ^ 18 - 1] = true →
    (∀ i, i < k → s.resolve n ((o.w 1).toNat + i) false = .ok (.mem (g + i)) ∧ s.blocked n o.agent (.mem (g + i)) = false) →
    (∀ i, i < k → s.resolve n ((o.w 2).toNat + i) true = .ok (.mem (h + i)) ∧ s.blocked n o.agent (.mem (h + i)) = false) →
    (g + k ≤ h ∨ h + k ≤ g) →
    ∃ t, exec (.dmaCopy n tag false words) s = .next t ∧
      (∀ i, i < j → t.memAt (h + i) = (s.memAt (h + i)).store 15 ((s.memAt (g + i)).deliver 15)) ∧
      (∀ a, (a < h ∨ h + j ≤ a) → t.memAt a = s.memAt a) ∧
      (k ≤ words → Ended { s with mem := t.mem } t n o 0 k ⟨0, false⟩) ∧
      (words < k → t.engOp n tag = some { o with done := words })) ∧
  (∀ (s : State) (n h k words j : Nat) (tag : Fin 64) (o : EngOp), EngRuns s n tag 2 2 o → o.done = 0 →
    k = (o.w 3).bits 17 0 → 0 < k → j = min words k →
    o.clean [2 ^ 36 - 2 ^ 27, 2 ^ 36 - 1, 2 ^ 30 - 1, 2 ^ 18 - 1] = true →
    (∀ i, i < k → s.resolve n ((o.w 2).toNat + i) true = .ok (.mem (h + i)) ∧ s.blocked n o.agent (.mem (h + i)) = false) →
    ∃ t, exec (.dmaFill n tag false words) s = .next t ∧
      (∀ i, i < j → t.memAt (h + i) = (s.memAt (h + i)).store 15 ⟨o.w 1, false⟩) ∧
      (∀ a, (a < h ∨ h + j ≤ a) → t.memAt a = s.memAt a) ∧
      (k ≤ words → Ended { s with mem := t.mem } t n o 0 k ⟨0, false⟩) ∧
      (words < k → t.engOp n tag = some { o with done := words }))

/-- With their fields in order, an outstanding PKT_NEW with room in the buffer ends OK with the handle of a new packet
of zeros of the length asked, held for the core; PKT_SEND by a core that may send to the queue, of a packet held for
it with its prefix in order, no window open on it, in a mode that forwards, and admitted by the queue, ends OK with the packet at the queue's
tail and held by nobody; PKT_RECV from a mailbox that is not empty ends OK with its oldest packet, held for the core,
its length as COUNT and its handle as RESULT; PKT_FREE of a packet held for the core with no window open on it ends OK
with the packet gone.
Forms that complete here: dmaPktNew, dmaPktSend, dmaPktRecv, dmaPktFree. -/
def Obligations.PacketOperationsComplete : Prop :=
  (∀ (s : State) (n len : Nat) (tag : Fin 64) (o : EngOp), EngRuns s n tag 2 3 o → len = (o.w 3).bits 13 0 → 0 < len →
    o.clean [2 ^ 36 - 2 ^ 27, 0, 0, 2 ^ 14 - 1] = true → 0 < s.freeDescs → (len + 63) / 64 ≤ s.freeCells →
    ∃ t d p, exec (.dmaPktNew n tag false) s = .next t ∧ s.packet d = none ∧ t.packet d = some p ∧ p.held = n + 1 ∧ p.len = len ∧
      p.octets = List.replicate len 0 ∧ (∀ e, e ≠ d → t.packet e = s.packet e) ∧
      ∃ v, Ended v t n o 0 0 ⟨word (p.gen * 2 ^ 26 + d), false⟩ ∧ v.mem = s.mem ∧ v.cores = s.cores) ∧
  (∀ (s : State) (n q d : Nat) (p : Packet) (tag : Fin 64) (o : EngOp), EngRuns s n tag 2 4 o →
    o.clean [2 ^ 36 - 2 ^ 27, 2 ^ 30 - 1, 3 * 2 ^ 34 + 2 ^ 17 - 1, 0] = true →
    queueOf ((o.w 2).bits 35 34) ((o.w 2).bits 16 0) = some q → s.maySend n q = true →
    s.byHandle (o.w 1).toNat = some (d, p) → p.held = n + 1 → 9 ≤ p.len → prefixOk q p.octets = true → s.windowed d = false →
    s.forwards = true → s.admitFails q (s.queuePage q) p.len = none →
    ∃ t, exec (.dmaPktSend n tag false) s = .next t ∧ t.packet d = some { p with held := 0, page := s.queuePage q + 1 } ∧
      t.queue q = s.queue q ++ [(⟨d, p.len, s.now, true, false, true, decide (p.octets.getD 3 0 = 1), 0, false⟩ : QEnt)] ∧
      (∀ r, r ≠ q → t.queue r = s.queue r) ∧ ∃ v, Ended v t n o 0 0 ⟨0, false⟩ ∧ v.mem = s.mem ∧ v.cores = s.cores) ∧
  (∀ (s : State) (n d : Nat) (rest : List Nat) (p : Packet) (tag : Fin 64) (o : EngOp), EngRuns s n tag 2 5 o →
    o.clean [2 ^ 36 - 2 ^ 27, 0, 2 ^ 35 + 3, 0] = true →
    sget (fun _ => []) s.traf.boxes (4 * n + (o.w 2).bits 1 0) = d :: rest → s.packet d = some p →
    ∃ t, exec (.dmaPktRecv n tag false) s = .next t ∧ t.packet d = some { p with held := n + 1 } ∧
      sget (fun _ => []) t.traf.boxes (4 * n + (o.w 2).bits 1 0) = rest ∧
      Ended { s with traf := t.traf } t n o 0 p.len ⟨word (p.gen * 2 ^ 26 + d), false⟩) ∧
  (∀ (s : State) (n d : Nat) (p : Packet) (tag : Fin 64) (o : EngOp), EngRuns s n tag 2 6 o →
    o.clean [2 ^ 36 - 2 ^ 27, 2 ^ 30 - 1, 0, 0] = true → s.byHandle (o.w 1).toNat = some (d, p) → p.held = n + 1 →
    s.windowed d = false →
    ∃ t, exec (.dmaPktFree n tag false) s = .next t ∧ t.packet d = none ∧ (∀ e, e ≠ d → t.packet e = s.packet e) ∧
      ∃ v, Ended v t n o 0 0 ⟨0, false⟩ ∧ v.mem = s.mem ∧ v.cores = s.cores)

/-- When an outstanding cipher operation that has written nothing yet has its fields in range and a usable key, its input
reads without failure after the words it holds already, and its engine goes on by all the words of its output: encryption writes the GCM text, the IV made
of the key's salt and its new invocation count, and the tag to
the three places of the descriptor and ends OK with the blocks as COUNT and the invocation count as RESULT; decryption
with a matching tag writes the text and ends OK; with a tag that does not match it writes zero lanes and ends E_AUTH
(7); HMAC writes the 32 octets of the code and ends OK. In the error state of the key engine each of the three ends
E_KEY (5) with nothing processed.
Forms that complete here: cipherGcmEncrypt, cipherGcmDecrypt, cipherHmac. -/
def Obligations.CipherOperationsComplete : Prop :=
  (∀ (s u v x y : State) (n ctr words k : Nat) (tag : Fin 64) (o : EngOp) (g0 g : KeyGen) (aad text : List Nat),
    EngRuns s n tag 1 1 o → o.out = none → s.rdb EDW_STAT_ERROR = false → o.clean cipherMasks = true → o.cipherOk = true →
    s.cipherRead n o.agent o.got (o.w 3).toNat (4 * o.naad) (counted 16 o.naad o.alast) = .ok (u, ⟨aad, none⟩) →
    u.cipherRead n o.agent (o.got.drop (4 * o.naad)) (o.w 1).toNat (4 * o.ntext) (counted 16 o.ntext o.last) = .ok (v, ⟨text, none⟩) →
    v.cipherKey n o = .ok g0 → v.invoke (.slot o.page o.key) o.page false = (.used ctr g, x) →
    let iv := natToOctets 4 g.saltA ++ natToOctets 8 ctr
    let c := gcmEncrypt g.key iv aad text
    let out := piece (o.w 2).toNat (asLanes (4 * o.ntext) c.1) ++ piece (o.w 5).toNat (asLanes 3 iv) ++
      piece (o.w 6).toNat (asLanes 4 c.2)
    out.length ≤ words → x.engWrite n o.agent out = (y, k, .none) → y.engOp n tag = some o →
    ∃ t, exec (.cipherGcmEncrypt n tag false words) s = .next t ∧ Ended y t n o 0 o.ntext ⟨word ctr, false⟩) ∧
  (∀ (s u v x y : State) (n words : Nat) (tag : Fin 64) (o : EngOp) (g : KeyGen) (aad iv text mac : List Nat),
    EngRuns s n tag 1 2 o → o.out = none → s.rdb EDW_STAT_ERROR = false → o.clean cipherMasks = true → o.cipherOk = true →
    s.cipherRead n o.agent o.got (o.w 3).toNat (4 * o.naad) (counted 16 o.naad o.alast) = .ok (u, ⟨aad, none⟩) →
    u.cipherRead n o.agent (o.got.drop (4 * o.naad)) (o.w 5).toNat 3 12 = .ok (v, ⟨iv, none⟩) →
    v.cipherRead n o.agent ((o.got.drop (4 * o.naad)).drop 3) (o.w 1).toNat (4 * o.ntext) (counted 16 o.ntext o.last) = .ok (x, ⟨text, none⟩) →
    x.cipherRead n o.agent (((o.got.drop (4 * o.naad)).drop 3).drop (4 * o.ntext)) (o.w 6).toNat 4 16 = .ok (y, ⟨mac, none⟩) → y.cipherKey n o = .ok g → 4 * o.ntext ≤ words →
    (∀ z k, gcmTag g.key iv aad text = mac →
      y.engWrite n o.agent (piece (o.w 2).toNat (asLanes (4 * o.ntext) (gcmText g.key iv text))) = (z, k, .none) →
      z.engOp n tag = some o →
      ∃ t, exec (.cipherGcmDecrypt n tag false words) s = .next t ∧ Ended z t n o 0 o.ntext ⟨0, false⟩) ∧
    (∀ z k, gcmTag g.key iv aad text ≠ mac →
      y.engWrite n o.agent (piece (o.w 2).toNat (asLanes (4 * o.ntext) [])) = (z, k, .none) → z.engOp n tag = some o →
      ∃ t, exec (.cipherGcmDecrypt n tag false words) s = .next t ∧ Ended z t n o 7 o.ntext ⟨0, false⟩)) ∧
  (∀ (s u v w : State) (n ctr k words : Nat) (tag : Fin 64) (o : EngOp) (g0 g : KeyGen) (text : List Nat),
    EngRuns s n tag 1 3 o → o.out = none → s.rdb EDW_STAT_ERROR = false → o.clean cipherMasks = true → o.cipherOk = true →
    s.cipherRead n o.agent o.got (o.w 1).toNat (16 * o.ntext) (counted 64 o.ntext o.last) = .ok (u, ⟨text, none⟩) →
    u.cipherKey n o = .ok g0 → u.invoke (.slot o.page o.key) o.page false = (.used ctr g, v) → 8 ≤ words →
    v.engWrite n o.agent (piece (o.w 2).toNat (asLanes 8 (hmac256 g.key text))) = (w, k, .none) → w.engOp n tag = some o →
    ∃ t, exec (.cipherHmac n tag false words) s = .next t ∧ Ended w t n o 0 o.ntext ⟨0, false⟩) ∧
  (∀ (s : State) (n op words : Nat) (tag : Fin 64) (o : EngOp), EngRuns s n tag 1 op o → s.rdb EDW_STAT_ERROR = true →
    ∀ i ∈ ([(1, .cipherGcmEncrypt n tag false words), (2, .cipherGcmDecrypt n tag false words),
            (3, .cipherHmac n tag false words)] : List (Nat × Instr)), i.1 = op →
      ∃ t, exec i.2 s = .next t ∧ Ended s t n o 5 0 ⟨0, false⟩)

/-- An outstanding injection of a core with the right to its converter, fields in order, that the schedule accepts, held
against the tick at which its engine took it, joins that converter's injections and stays outstanding, unless it is a T-core's reference image's in a calibration
window (log entry 128: the model's choice); a calibration request joins those of its converter, which is
pending from then on; a commit of maps ends with the statuses, entries and slots of what its maps did; a map read
whole from the core's own RAM, in order and in time, is committed to its channel for the frame; a counter snapshot
whose engine goes on by all its pairs, and whose pairs were all written, ends OK with their number as COUNT; a counter
add of the core's own range adds its amount and ends OK.
Forms that complete here: monitorInjectOp, monitorCalOp, grantMapCommit, counterSnap, counterAdd. -/
def Obligations.MonitorMapAndCounterOperations : Prop :=
  (∀ (s : State) (n : Nat) (tag : Fin 64) (o : EngOp) (i : Inj), EngRuns s n tag 3 1 o →
    (∀ e ∈ s.mons, ∀ j ∈ (e.2 : MonSt).inj, (j : Inj).by_ ≠ .op n tag) →
    let m := (o.w 0).bits 26 22
    mayConvert n m false = true →
    o.clean [2 ^ 36 - 2 ^ 8, 2 ^ 36 - 1, 2 ^ 36 - 1, 2 ^ 18 - 1] = true →
    s.judgeInj (o.w 0).toNat (o.w 1).toNat (o.w 2).toNat (o.w 3).toNat (.op n tag) o.accepted = .ok (m, i) →
    ¬(n < 64 ∧ s.refRuns n = true ∧ s.inWindow m i = true) →
    ∃ t, exec (.monitorInjectOp n tag false) s = .next t ∧ (t.mon m).inj = (s.mon m).inj ++ [i] ∧
      (∀ k, k ≠ m → t.mon k = s.mon k) ∧ t = { s with mons := t.mons }) ∧
  (∀ (s : State) (n : Nat) (tag : Fin 64) (o : EngOp), EngRuns s n tag 3 2 o →
    (∀ e ∈ s.mons, ∀ j ∈ (e.2 : MonSt).joined, (j : CalBy) ≠ .op n tag) →
    let m := (o.w 0).bits 26 22
    o.clean [2 ^ 36 - 2 ^ 22, 0, 0, 0] = true → mayConvert n m true = true → m < 18 → s.monState m ≠ mOff →
    ∃ t, exec (.monitorCalOp n tag false) s = .next t ∧ (t.mon m).joined = (s.mon m).joined ++ [.op n tag] ∧
      (∀ k, k ≠ m → t.mon k = s.mon k) ∧ t = { s with mons := t.mons, regs := t.regs } ∧
      ((s.mon m).cal = .none → (t.mon m).cal = .pending s.now false ∧ t.rd MON_STAT_CALPEND m = 1)) ∧
  (∀ (s v : State) (n : Nat) (tag : Fin 64) (o : EngOp) (x : Committed), EngRuns s n tag 4 1 o → n < 64 →
    o.clean [2 ^ 36 - 2 ^ 19, 2 ^ 36 - 1, 2 ^ 36 - 1, 2 ^ 30 - 1] = true → bitsOf (o.w 2).toNat 22 4 = 0 →
    let f := frameOf (lpTicks (o.w 1).toNat (o.w 2).toNat)
    s.passedBy n o.accepted < f → f ≤ s.passedBy n o.accepted + 8 →
    s.commitMaps n o.agent f (decide (s.deadline n f ≤ (o.accepted : Int)))
      o.got ((List.range 8).filter fun w => (o.w 0).bit (19 + w)) ⟨(o.w 3).toNat, [], [], 0, [], []⟩ = .ok (v, x) →
    v.engOp n tag = some o →
    ∃ t, exec (.grantMapCommit n tag false) s = .next t ∧
      Ended v t n o (lowestStatus x.status) x.entries
        ⟨word ((x.done.map fun w => 2 ^ w).sum + 256 * (x.hold.map fun w => 2 ^ w).sum), false⟩) ∧
  (∀ (s u v : State) (n f w : Nat) (g : Agent) (x : Committed) (h : Word) (got l : List PWord) (gs : List Grant),
    x.status.contains gAddr = false → s.ownWords n x.addr 1 = true → s.engTake n g got x.addr 1 = (u, [⟨h, false⟩], .none) →
    u.ownWords n (x.addr + 1) (2 * h.bits 8 0) = true →
    u.engTake n g (got.drop 1) (x.addr + 1) (2 * h.bits 8 0) = (v, l, .none) →
    (∀ y ∈ l, y.p = false) → mapOf n h l = some gs →
    ∃ t y, s.commitMap n g f false got w x = .ok (t, y) ∧ (f, gs) ∈ (t.chan (8 * n + w)).commits ∧ y.done = w :: x.done ∧
      y.hold = x.hold ∧ y.status = x.status ∧ y.entries = x.entries + h.bits 8 0 ∧
      (∀ c, c ≠ 8 * n + w → t.chan c = v.chan c)) ∧
  (∀ (s v : State) (n k words : Nat) (tag : Fin 64) (o : EngOp), EngRuns s n tag 5 1 o → o.done = 0 → k ≤ words →
    o.clean [2 ^ 36 - 2 ^ 27, 2 ^ 20 - 1, 2 ^ 30 - 1, 2 ^ 13 - 1] = true → k = (o.w 3).toNat → 0 < k → k ≤ 4096 →
    (o.w 1).toNat + k ≤ 2 ^ 20 → ((o.w 1).toNat + k ≤ 524288 ∨ n = 76) →
    s.snapRun n o.agent (o.w 1).toNat (o.w 2).toNat k = (v, k, .none) → v.engOp n tag = some o →
    ∃ t r, exec (.counterSnap n tag false words) s = .next t ∧ Ended { v with free := t.free } t n o 0 k r) ∧
  (∀ (s : State) (n j : Nat) (tag : Fin 64) (o : EngOp), EngRuns s n tag 5 2 o →
    o.clean [2 ^ 36 - 2 ^ 27, 2 ^ 20 - 1, 2 ^ 36 - 1, 0] = true → (o.w 1).toNat = PROG.base + 64 * n + j → j < 64 →
    ∃ t c r, exec (.counterAdd n tag false) s = .next t ∧ Ended { s with free := t.free } t n o 0 c r ∧
      PROG.counted s t (64 * n + j) (o.w 2).toNat)

/-- In a word whose fields do not overlap, a write leaves each RW or RWL field with the written bits, each W1C field
without the bits written 1, and every other field and every bit of no field as it was. -/
def Obligations.WriteByAccessCode : Prop :=
  ∀ (fields : List (Field × Nat)) (old b x : Nat), old < 2 ^ 36 →
    (∀ e ∈ fields, e.1.lo ≤ e.1.hi ∧ e.1.hi < 36) →
    fields.Pairwise (fun e f => e.1.hi < f.1.lo ∨ f.1.hi < e.1.lo) →
    let v := mergeWord fields old b x
    (∀ e ∈ fields, bitsOf v e.1.hi e.1.lo =
      if e.1.acc = .rw ∨ e.1.acc = .rwl then bitsOf b e.1.hi e.1.lo
      else if e.1.acc = .w1c then bitsOf old e.1.hi e.1.lo &&& (2 ^ (e.1.hi + 1 - e.1.lo) - 1 - bitsOf x e.1.hi e.1.lo)
      else bitsOf old e.1.hi e.1.lo) ∧
    (∀ i, (∀ e ∈ fields, i < e.1.lo ∨ e.1.hi < i) → v.testBit i = old.testBit i)

/-- A REGISTER_WRITE of a master to a register that it reaches, outside the CORE blocks and the table memories, stores
the word its access codes give, with what the register's own rules bring, when no check rejects it; a write with a
reserved value, in a wrong state or out of range leaves the state as it was; a write that would change an RWL field
outside PROVISION and MAINTENANCE stores nothing and counts REG_RWL_REFUSE; one of the host or the S-core that reaches
no register is counted as an error response, with address, cause and master in the registers of the module matrix.
Forms that complete here: registerWrite. -/
def Obligations.RegisterWriteComplete : Prop :=
  (∀ (s : State) (m a : Nat) (w : Word), 0o400000000 ≤ a → a < 0o460000000 → memInstance a = none → a ≠ 0o404001001 → s.accepts m a w →
    exec (.registerWrite m a w) s = .next ((s.setReg a (s.after a w)).afterWrite s a 15 (word (written a w)))) ∧
  (∀ (s : State) (m a : Nat) (w : Word), 0o400000000 ≤ a → a < 0o1000000000 → s.reaches m a true →
    (s.judged a w = .reserved ∨ s.judged a w = .badState ∨ s.judged a w = .badRange) →
    exec (.registerWrite m a w) s = .next s) ∧
  (∀ (s : State) (m a : Nat) (w : Word), 0o400000000 ≤ a → a < 0o1000000000 → a ≠ 0o404001001 → s.reaches m a true →
    s.judged a w = .refused →
    ∃ t, exec (.registerWrite m a w) s = .next t ∧ Events s t ∧ REG_RWL_REFUSE.raised s t 0 []) ∧
  (∀ (s : State) (m a cause : Nat) (w : Word), 0o400000000 ≤ a → a < 0o1000000000 → (m / 8 = 76 ∨ m = 1016) →
    s.resolve (m / 8) (coreView m a) true = .error (.dec cause) → cause ≤ 3 →
    ∃ t, exec (.registerWrite m a w) s = .next t ∧ t.rd MTX_DECERR_ADDR = a ∧ t.rd MTX_DECERR_SRC_CAUSE = cause ∧
      t.rd MTX_DECERR_SRC_MASTER = m ∧ MTX_DECERR.raised s t 0 [] ∧
      t = { s with regs := t.regs, cnt := t.cnt, tblRaw := t.tblRaw, evt := t.evt })

/-- For a master that reaches the register: a read of TIME_LP_A latches LP word B and the three network time words of
the same instant for it; a read of TIME_TSQ_E0 removes the oldest two-step entry, unless it was written in the same clock, and
latches the words of its stamp; a
read of the first quality word of a line or of a channel latches the other words of the set as they stand; a read of
TREE_BEV_E0 removes the oldest burst record not written in the same clock, with COUNT following, and latches its other two words; a read of a report
word clears its FRESH bit; a read of a count word latches its chain word. Nothing else changes but what a read of a
protected table counts.
Forms that complete here: timeLpARead, tsqE0Read, lineRxQstatRead, chQstatRead, treeBevE0Read, treeRptRead,
cntCountWordRead. -/
def Obligations.ReadsWithEffectComplete : Prop :=
  (∀ (s : State) (m : Nat), s.reaches m 0o404000000 false →
    ∃ t, exec (.timeLpARead m) s = .next t ∧
      t.latched m 0o404000001 = ⟨word (s.now % 4096000000 / 500000 * 2 ^ 23 + s.now % 500000 * 2 ^ 4), false⟩ ∧
      (∀ i, i < 3 → t.latched m (0o404000010 + i) = ⟨word ((ntWords (s.ntAt s.now)).getD i 0), false⟩) ∧
      t = { s with latch := t.latch }) ∧
  (∀ (s : State) (m : Nat) (e : TsqEntry) (rest : List TsqEntry), s.reaches m 0o404000020 false → s.time.tsq = e :: rest →
    e.clk ≠ s.clock →
    ∃ t, exec (.tsqE0Read m) s = .next t ∧ t.time = { s.time with tsq := rest } ∧
      (∀ i, i < 3 → t.latched m (0o404000021 + i) = ⟨word ((ntWords e.stamp).getD i 0), false⟩) ∧
      t = { s with latch := t.latch, time := t.time }) ∧
  (∀ (s : State) (m : Nat) (l : Fin 4), let a := LINE_RX_QSTAT_VALID.addr l 0 0
    s.reaches m a false →
    ∃ t, exec (.lineRxQstatRead m l) s = .next t ∧ t.latched m (a + 1) = s.shown (a + 1) ∧ t.latched m (a + 2) = s.shown (a + 2) ∧
      (∀ i, i < 64 → t.latched m (a - 0o2007 + 0o2100 + i) = s.shown (a - 0o2007 + 0o2100 + i)) ∧
      t.latched m (a - 0o2007 + 0o4071) = s.shown (a - 0o2007 + 0o4071) ∧
      t = { s with latch := t.latch }) ∧
  (∀ (s : State) (m : Nat) (c : Fin 512), let a := 0o400000005 + 0o1000 * c.val
    s.reaches m a false →
    ∃ t, exec (.chQstatRead m c) s = .next t ∧ (∀ i, 1 ≤ i → i ≤ 4 → t.latched m (a + i) = s.shown (a + i)) ∧
      t = { s with latch := t.latch }) ∧
  (∀ (s : State) (m : Nat) (k : Fin 64) (e : BevEntry) (q : List BevEntry), let a := TREE_BEV_E0_W.addr k 0 0
    s.reaches m a false → (s.tree k).bev = e :: q → e.clk ≠ s.clock → q.length < 256 →
    ∃ t, exec (.treeBevE0Read m k) s = .next t ∧ t.tree k = { s.tree k with bev := q } ∧ t.rd TREE_BEV_STAT_COUNT k = q.length ∧
      t.latched m (a + 1) = ⟨word e.e1, false⟩ ∧ t.latched m (a + 2) = ⟨word e.e2, false⟩ ∧
      t = { s with latch := t.latch, trees := t.trees, regs := t.regs }) ∧
  (∀ (s : State) (m : Nat) (k : Fin 64) (i : Fin 1024), s.reaches m (TREE_RPT_FRESH.addr k i 0) false →
    ∃ t, exec (.treeRptRead m k i) s = .next t ∧ t.rd TREE_RPT_FRESH k i = 0 ∧ t.rd TREE_RPT_REPORT k i = s.rd TREE_RPT_REPORT k i ∧
      t = { s with regs := t.regs }) ∧
  (∀ (s : State) (m x : Nat), x < 1048576 → s.reaches m (cntAddr x) false →
    ∃ t, exec (.cntCountWordRead m x) s = .next t ∧
      t.latched m (cntAddr x + 1) = (s.cntStored (cntAddr x + 1)).deliver 15 ∧
      t.latched m (2 ^ 30 - 1) = ⟨word (cntAddr x), false⟩ ∧
      t = { s with latch := t.latch, regs := t.regs, cnt := t.cnt, tblRaw := t.tblRaw, evt := t.evt, grm := t.grm })

/-- For a master whose write is accepted: MODE other than 0 in a window's word asks for the window, which is then
pending and neither open nor denied; MODE 0 closes it; a core's own REMAP waits for its next taken branch, another
master's takes effect at once unless the core is RUNNING; HALT of a RUNNING core that waits at no instruction stops it
HALTED, one that waits for its access is stopped after it; START of a LOADED or HALTED core arms it for its start LP,
or sets LATE when that is past; SRST leaves the core without armed actions, operations, tags or requests, and EMPTY
when no load into it runs, with the other cores and memory as they were when it cuts no burst short; a write of N to CORE_SMP_ACK drops the N oldest records held.
Forms that complete here: windowOpen, windowClose, coreRemapWrite, coreHaltWrite, coreStartWrite, coreSrst,
coreSmpAckWrite. -/
def Obligations.CoreRegisterWritesComplete : Prop :=
  (∀ (s : State) (m n : Nat) (win : Fin 4) (w : Word), n < 77 → let a := CORE_WIN_H_MODE.addr n win 0
    s.accepts m a w → w.bits 35 34 ≠ 0 → (s.setReg a (s.after a w)).rd CORE_WIN_H_MODE n win = w.bits 35 34 →
    ∃ t, exec (.windowOpen m n win w) s = .next t ∧ win.val ∈ (t.core n).winPend ∧ t.rd CORE_WIN_H_OPEN n win = 0 ∧
      (∀ k, k ≠ n → t.core k = s.core k) ∧ (∀ b, b ≠ a → t.reg b = s.reg b) ∧ t = { s with cores := t.cores, regs := t.regs }) ∧
  (∀ (s : State) (m n : Nat) (win : Fin 4) (w : Word), n < 77 → let a := CORE_WIN_H_MODE.addr n win 0
    s.accepts m a w → w.bits 35 34 = 0 → (s.setReg a (s.after a w)).rd CORE_WIN_H_MODE n win = w.bits 35 34 →
    ∃ t, exec (.windowClose m n win w) s = .next t ∧ win.val ∉ (t.core n).winPend ∧ t.rd CORE_WIN_H_OPEN n win = 0 ∧
      (∀ k, k ≠ n → t.core k = s.core k) ∧ (∀ b, b ≠ a → t.reg b = s.reg b) ∧ t = { s with cores := t.cores, regs := t.regs }) ∧
  (∀ (s : State) (m n : Nat) (w : Word), n < 77 → s.accepts m (CORE_CTL_REMAP.addr n 0 0) (w &&& 8) → s.coreState n ≠ 0 →
    (m / 8 = n → exec (.coreRemapWrite m n w) s = .next (s.setCore n { s.core n with remapPend := some (w.getLsbD 3) })) ∧
    (m / 8 ≠ n → s.coreState n ≠ 4 → exec (.coreRemapWrite m n w) s = .next (s.wr CORE_CTL_REMAP (b2n (w.getLsbD 3)) n)) ∧
    (m / 8 ≠ n → s.coreState n = 4 → exec (.coreRemapWrite m n w) s = .next s)) ∧
  (∀ (s : State) (m n : Nat) (w : Word), n < 77 → s.accepts m (CORE_CTL_HALT.addr n 0 0) w → m / 8 ≠ n → s.coreState n = 4 →
    w.getLsbD 2 = true → w.getLsbD 1 = false → w.getLsbD 0 = false →
    ∃ t, exec (.coreHaltWrite m n w) s = .next t ∧ (∀ k, k ≠ n → t.core k = s.core k) ∧
      t = { s with cores := t.cores, regs := t.regs } ∧
      match (s.core n).wait with
      | none => t.coreState n = 5 ∧ t.core n = s.core n
      | some i =>
        if stopsAt i then t.coreState n = 5 ∧ t.core n = { s.core n with wait := none, waitDesc := [] }
        else t.coreState n = 4 ∧ t.core n = { s.core n with haltReq := true }) ∧
  (∀ (s : State) (m n : Nat) (w : Word), n < 77 → s.accepts m (CORE_CTL_START.addr n 0 0) w → m / 8 ≠ n →
    (s.coreState n = 3 ∨ s.coreState n = 5) → w.getLsbD 2 = false → w.getLsbD 1 = true → w.getLsbD 0 = false →
    ∃ t, exec (.coreStartWrite m n w) s = .next t ∧ t = { s with cores := t.cores, regs := t.regs } ∧
      if s.startLp n < s.now then t.rd CORE_STAT_LATE n = 1 ∧ t.core n = s.core n
      else t.rd CORE_STAT_LATE n = 0 ∧ t.core n = { s.core n with armed := some (s.startLp n) }) ∧
  (∀ (s : State) (m n : Nat) (w : Word) (bursts : List Burst), n < 77 → s.accepts m (CORE_CTL_SRST.addr n 0 0) w → m / 8 ≠ n →
    s.coreState n ≠ 0 → w.getLsbD 2 = false → w.getLsbD 1 = false → w.getLsbD 0 = true → s.img.load = none →
    ∃ t, exec (.coreSrst m n w bursts) s = .next t ∧ t.core n = {} ∧ t.rd CORE_STAT_STATE n = 1 ∧ (∀ r ∈ t.mtx, r.core ≠ n) ∧
      (s.bursting n = [] → (∀ r ∈ s.mtx, r.core = n → r.stage ≠ .granted) →
        (∀ k, k ≠ n → t.core k = s.core k) ∧ t.mem = s.mem)) ∧
  (∀ (s : State) (m n : Nat) (w : Word), n < 77 → s.accepts m (CORE_SMP_ACK_N.addr n 0 0) w → (m / 8 = 76 ∨ m / 8 = 127) →
    let k := min (w.bits 5 0) (s.core n).smpHeld
    exec (.coreSmpAckWrite m n w) s =
      .next (s.setCore n { s.core n with smpHeld := (s.core n).smpHeld - k, smpHead := ((s.core n).smpHead + k) % 60 }))

/-- For a master whose write is accepted, the register holds the word afterwards, and: a changed POWER of a LIT line
starts a CHANGE ramp from the level and the gains in force to the new power and the gains of the format in force; a write
of LINE_TX_TEST does no more; EN = 0 takes a receiver OFF, EN = 1 brings one that was OFF into TUNE, and one that runs
under FREQ of its own is retuned from TUNE on; entering the check of a receiver marks its window, and leaving it while
LOCKED with a signal returns it to ACQ; POWER of a channel that is UP or LIT starts a ramp to it from the level in force; LOAD makes
the shadow set of a channel present with its load instant, DROP removes it; SET marks message slots valid, and
from the clock on in which the next control area is built it does so for the build after that.
Forms that complete here: lineTxPowerWrite, lineTxTestWrite, lineRxCtlWrite, lineRxTestWrite, chDsPowerWrite,
cancLoad, cancDrop, dsmSet. -/
def Obligations.LineChannelRegisterWritesComplete : Prop :=
  (∀ (s : State) (m : Nat) (l : Fin 4) (w : Word), let a := LINE_TX_CTL_POWER.addr l 0 0
    s.accepts m a w → let r := s.setReg a (s.after a w)
    ∃ t, exec (.lineTxPowerWrite m l w) s = .next t ∧ t.reg a = s.after a w ∧
      (s.txState l = 4 → r.rd LINE_TX_CTL_POWER l ≠ s.rd LINE_TX_CTL_POWER l →
        (t.line l).ramp = some (r.makeRamp l 2 (s.levelNow l) (r.powerDbm l) (s.gainsNow l) (s.bankGains l)).1 ∧
        t.rd LINE_TX_STAT_RAMPING l = 1) ∧
      (s.txState l ≠ 4 ∨ r.rd LINE_TX_CTL_POWER l = s.rd LINE_TX_CTL_POWER l → t = r)) ∧
  (∀ (s : State) (m : Nat) (l : Fin 4) (w : Word), s.accepts m (LINE_TX_TEST_MODE.addr l 0 0) w →
    exec (.lineTxTestWrite m l w) s = .next (s.setReg (LINE_TX_TEST_MODE.addr l 0 0) (s.after (LINE_TX_TEST_MODE.addr l 0 0) w))) ∧
  (∀ (s : State) (m : Nat) (l : Fin 4) (w : Word), let a := LINE_RX_CTL_EN.addr l 0 0
    s.accepts m a w → let r := s.setReg a (s.after a w)
    s.domOn (lineDomain l) = true →
    ∃ t, exec (.lineRxCtlWrite m l w) s = .next t ∧ t.reg a = s.after a w ∧
      (r.rdb LINE_RX_CTL_EN l = false → t.rd LINE_RX_STAT_STATE l = 0) ∧
      (r.rdb LINE_RX_CTL_EN l = true → s.rd LINE_RX_STAT_STATE l = 0 ∨ r.rdb LINE_RX_CTL_FOLLOW l = false →
        t.rd LINE_RX_STAT_STATE l = 1 ∧ (t.line l).tuneAt = s.now) ∧
      (r.rdb LINE_RX_CTL_EN l = true → s.rd LINE_RX_STAT_STATE l ≠ 0 → r.rdb LINE_RX_CTL_FOLLOW l = true →
        (s.line l).winAt ≤ s.now → t = r)) ∧
  (∀ (s : State) (m : Nat) (l : Fin 4) (w : Word), let a := LINE_RX_TEST_MODE.addr l 0 0
    s.accepts m a w → let r := s.setReg a (s.after a w)
    ∃ t, exec (.lineRxTestWrite m l w) s = .next t ∧
      (r.rd LINE_RX_TEST_MODE l = 2 → s.rd LINE_RX_TEST_MODE l ≠ 2 → t = r.setLine l { s.line l with winTest := true }) ∧
      (r.rd LINE_RX_TEST_MODE l ≠ 2 → s.rxState l ≠ 5 → t = r) ∧
      (r.rd LINE_RX_TEST_MODE l ≠ 2 → r.rd LINE_RX_TEST_MODE l ≠ s.rd LINE_RX_TEST_MODE l → s.rxState l = 5 →
        s.rdb LINE_RX_STAT_SIG l = true → t.rd LINE_RX_STAT_STATE l = 4 ∧ (t.line l).acqAt = s.now) ∧
      (r.rd LINE_RX_TEST_MODE l = s.rd LINE_RX_TEST_MODE l → t = r)) ∧
  (∀ (s : State) (m : Nat) (c : Fin 512) (w : Word), let a := CH_DS_CTL_POWER.addr c 0 0
    s.accepts m a w → let r := s.setReg a (s.after a w)
    ∃ t, exec (.chDsPowerWrite m c w) s = .next t ∧ t.reg a = s.after a w ∧
      (s.dsState c = dsUp ∨ s.dsState c = dsLit →
        t.rd CH_DS_STAT_RAMPING c = 1 ∧
        (t.chan c).ramp = some ⟨s.chLevel c, (r.rdi CH_DS_CTL_POWER c : Rat) / 10, s.now,
          s.now + r.rd CH_DS_CTL_RAMP c * 40000⟩ ∧ (∀ k, k ≠ c.val → t.chan k = s.chan k)) ∧
      (¬(s.dsState c = dsUp ∨ s.dsState c = dsLit) → t = r)) ∧
  (∀ (s : State) (m : Nat) (c : Fin 512) (w : Word), s.accepts m (CH_CANC_CTL_LOAD.addr c 0 0) w → w.getLsbD 30 = true →
    ∃ t, exec (.cancLoad m c w) s = .next t ∧ (t.chan c).shAt = s.now ∧
      t.rd CH_CANC_STAT_SHADOW c = (if w.getLsbD 29 then 0 else 1) ∧ (∀ k, k ≠ c.val → t.chan k = s.chan k) ∧
      t = { s with regs := t.regs, chans := t.chans }) ∧
  (∀ (s : State) (m : Nat) (c : Fin 512) (w : Word), s.accepts m (CH_CANC_CTL_DROP.addr c 0 0) w → w.getLsbD 29 = true →
    ∃ t, exec (.cancDrop m c w) s = .next t ∧ t.rd CH_CANC_STAT_SHADOW c = 0 ∧
      t = { s with regs := t.regs, chans := t.chans }) ∧
  (∀ (s : State) (m : Nat) (c : Fin 512) (w : Word), s.accepts m (CH_DSM_CTL_SET.addr c 0 0) w →
    ∃ t, exec (.dsmSet m c w) s = .next t ∧
      t.rd CH_DSM_STAT_VALID c = s.rd CH_DSM_STAT_VALID c ||| (w.bits 11 0) ∧ t = { s with regs := t.regs, chans := t.chans } ∧
      let built := s.deadline (c / 8) ((s.tree (c / 8)).lastN + 1) / 4 ≤ (s.clock : Int)
      (¬built → t.chans = s.chans) ∧
      (built → (t.chan c).dsmNext = (s.chan c).dsmNext ||| w.bits 11 0 ∧ ∀ k, k ≠ c.val → t.chan k = s.chan k))

/-- For a master whose write is accepted: TIME_SERVO takes the word, JUMP_THR being above LOCK_THR, and a write that
fails that check changes nothing; a write of TIME_CTL in FREE goes to ACQUIRE when REF_OK, OCXO_WARM and EN are then 1 and
stays FREE else, one that clears EN in ACQUIRE goes to FREE, one that clears EN or SRC in LOCKED goes to HOLDOVER with the
event and the counts discarded, one that clears EN or changes SRC in HOLDOVER stays there with the counts discarded, and one
that changes neither leaves ACQUIRE, LOCKED and HOLDOVER as they are; EN written 1 to a sequence
that is off begins a pass, after the entry in progress if there is one, and at once with its first enabled entry when the
converter is idle and no injection is due; a raw write in MAINTENANCE stores the bits of
the test registers at a lane-memory word, a raw read copies the stored bits into them; arming the watchdog and kicking
it with its value restart its period.
Forms that complete here: timeCtlWrite, timeServoWrite, monSeqCtlWrite, grmRawWrite, grmRawRead, wdogArm, wdogKick. -/
def Obligations.TimeMonitorGroomerWritesComplete : Prop :=
  (∀ (s : State) (m : Nat) (w : Word), s.accepts m 0o404000014 w →
    w.bits 35 27 * 4 < w.bits 26 18 * 125 ∧
      exec (.timeServoWrite m w) s = .next (s.setReg 0o404000014 (s.after 0o404000014 w))) ∧
  (∀ (s : State) (m : Nat) (w : Word), s.reaches m 0o404000014 true → s.judged 0o404000014 w = .badRange →
    exec (.timeServoWrite m w) s = .next s) ∧
  (∀ (s : State) (m : Nat) (w : Word), s.accepts m 0o404000002 w → let r := s.setReg 0o404000002 (s.after 0o404000002 w)
    ∃ t, exec (.timeCtlWrite m w) s = .next t ∧ t.reg 0o404000002 = s.after 0o404000002 w ∧
      (s.rd TIME_STAT_STATE = stAcquire → s.rdb TIME_CTL_EN = true → r.rdb TIME_CTL_EN = false →
        t.rd TIME_STAT_STATE = stFree ∧ t.time = { s.time with acqCount := 0 }) ∧
      (s.rd TIME_STAT_STATE = stLocked →
        (s.rdb TIME_CTL_EN = true ∧ r.rdb TIME_CTL_EN = false) ∨ (s.rd TIME_CTL_SRC ≠ 0 ∧ r.rd TIME_CTL_SRC = 0) →
        t.rd TIME_STAT_STATE = stHoldover ∧ t.time.consec = 0 ∧ t.time.runLen = 0 ∧ TIME_HOLDOVER.raised s t 0 []) ∧
      (s.rd TIME_STAT_STATE = stHoldover →
        (s.rdb TIME_CTL_EN = true ∧ r.rdb TIME_CTL_EN = false) ∨ s.rd TIME_CTL_SRC ≠ r.rd TIME_CTL_SRC →
        t = { r with time := { s.time with consec := 0, runLen := 0, runSum := 0 } }) ∧
      (s.rd TIME_STAT_STATE ≠ stFree → s.rdb TIME_CTL_EN = r.rdb TIME_CTL_EN → s.rd TIME_CTL_SRC = r.rd TIME_CTL_SRC → t = r) ∧
      (s.rd TIME_STAT_STATE = stFree → t.rd TIME_STAT_STATE =
        if s.rdb TIME_STAT_REF_OK = true ∧ s.rdb TIME_STAT_OCXO_WARM = true ∧ r.rdb TIME_CTL_EN = true then stAcquire else stFree)) ∧
  (∀ (s : State) (k : Nat) (m : Fin 18) (w : Word), let a := MON_SEQ_CTL_EN.addr m 0 0
    s.accepts k a w → let r := s.setReg a (s.after a w)
    ∃ t, exec (.monSeqCtlWrite k m w) s = .next t ∧
      (s.rdb MON_SEQ_CTL_EN m = true ∨ r.rdb MON_SEQ_CTL_EN m = false → t = r) ∧
      (s.rdb MON_SEQ_CTL_EN m = false → r.rdb MON_SEQ_CTL_EN m = true → s.monState m = mSeq →
        t = r.setMon m { s.mon m with restart := true }) ∧
      (s.rdb MON_SEQ_CTL_EN m = false → r.rdb MON_SEQ_CTL_EN m = true → s.monState m ≠ mSeq → s.monState m ≠ mIdle →
        s.monState m ≠ mDown →
        t = r.setMon m { s.mon m with
          passOn := true, next := 0, pre := false, restart := false, last := r.rd MON_SEQ_CTL_LAST m,
          per := r.rd MON_SEQ_CTL_PERIOD m,
          due := s.now + r.rd MON_SEQ_CTL_PERIOD m * 4000 }) ∧
      (∀ e, s.rdb MON_SEQ_CTL_EN m = false → r.rdb MON_SEQ_CTL_EN m = true → s.monState m = mIdle → s.dueInj m = none →
        e < 64 → e ≤ r.rd MON_SEQ_CTL_LAST m → s.rdb MON_SEQ_EN m e = true → (∀ i, i < e → s.rdb MON_SEQ_EN m i = false) →
        t.monState m = mSeq ∧ (t.mon m).passOn = true ∧ ∃ q, (t.mon m).entry = some q ∧ q.e = e ∧ q.first = s.now)) ∧
  (∀ (s : State) (m g : Nat) (w : Word), s.accepts m 0o450010023 w → w.bits 1 0 = 1 → s.mode = modeMaintenance →
    s.rd GRM_TADDR_SPACE = 0 → g = s.rd GRM_TADDR_ADDR → (memInstance g).any (· < 86) = true → s.rawFault true g = none →
    ∃ t, exec (.grmRawWrite m w) s = .next t ∧
      t.memAt g = (lanesOf (s.rd GRM_TCHK_LE)).foldl
        (fun x l => x.setLane l (bitsOf (s.rd GRM_TDATA) (9 * l + 8) (9 * l)) (bitsOf (s.rd GRM_TCHK_CHK_L) (5 * l + 4) (5 * l)))
        (s.wordStored g) ∧
      (∀ a, a ≠ g → t.memAt a = s.memAt a) ∧ t = { s with mem := t.mem, regs := t.regs }) ∧
  (∀ (s : State) (g : Nat), (memInstance g).any (· < 86) = true → sget (fun _ => none) s.tblRaw g = none →
    s.wordStored g = s.memAt g) ∧
  (∀ (s : State) (m g : Nat) (w : Word), s.accepts m 0o450010023 w → w.bits 1 0 = 2 → s.mode = modeMaintenance →
    s.rd GRM_TADDR_SPACE = 0 → g = s.rd GRM_TADDR_ADDR → (memInstance g).any (· < 86) = true → s.rawFault false g = none →
    ∃ t, exec (.grmRawRead m w) s = .next t ∧ t.rd GRM_TDATA = (s.wordStored g).data.toNat ∧
      t.rd GRM_TCHK_CHK_L = (s.wordStored g).chk.toNat ∧ t = { s with regs := t.regs }) ∧
  (∀ (s : State) (m : Nat) (w : Word), s.accepts m 0o404001001 w → s.rdb PWR_WDOG_CTL_EN = false →
    let r := s.setReg 0o404001001 (s.after 0o404001001 w)
    exec (.wdogArm m w) s = .next (if r.rdb PWR_WDOG_CTL_EN then { r with pwr := { s.pwr with wdogAt := s.now } } else r)) ∧
  (∀ (s : State) (m : Nat), s.accepts m 0o404001002 (word 0o153151143153) → s.rdb PWR_WDOG_CTL_EN = true →
    ∃ t, exec (.wdogKick m (word 0o153151143153)) s = .next t ∧ t.pwr = { s.pwr with wdogAt := s.now } ∧
      t = { s with regs := t.regs, pwr := t.pwr })

/-- With the supervisor domain ON: a Sync of a selected PTP source while LOCKED with the reference qualified and a
phase error within JUMP_THR keeps the servo LOCKED, clears the outlier run and moves TIME_RATE by at most what SLEW
allows in a second, the rates of the last second lying that close to it already; a Sync without a qualified reference is
only noted; an Announce renews its condition; a 1PPS edge sooner than
0.5 s after the last taken one changes nothing, another one is taken; REF_OK falls when its condition fails, from
ACQUIRE to FREE and from LOCKED to HOLDOVER with the event, and rises when all hold; REF_OK or OCXO_WARM becoming 1
with the other and EN sends FREE to ACQUIRE; a re-step that takes effect writes the mapping, clears JUMP (unless a
jump came after), and raises TIME_RESTEP_DONE, leaving the servo in HOLDOVER from LOCKED.
Forms that complete here: ptpSyncReceived, ptpAnnounceReceived, ppsInputEdge, refQualifyLoss, refQualifyGain,
ocxoWarm, restepTakesEffect. -/
def Obligations.ServoEventsComplete : Prop :=
  (∀ (s : State) (nt : Int), s.up = true → (s.rd TIME_CTL_SRC = 1 ∨ s.rd TIME_CTL_SRC = 2) → s.rdb TIME_STAT_REF_OK = true →
    s.rd TIME_STAT_STATE = stLocked → |nt - s.ntAt s.now| ≤ s.jumpThr →
    (∀ e ∈ s.time.lately, s.now < e.1 + 4000000000 → |e.2 - s.rdi TIME_RATE| ≤ s.slewMax 4000000000) →
    ∃ t, exec (.ptpSyncReceived nt) s = .next t ∧ t.rd TIME_STAT_STATE = stLocked ∧ t.time.lastMeas = some s.now ∧
      t.time.runLen = 0 ∧ t.time.offset = s.time.offset ∧
      |t.rdi TIME_RATE - s.rdi TIME_RATE| ≤ s.slewMax 4000000000 ∧
      t = { s with regs := t.regs, time := t.time, free := t.free }) ∧
  (∀ (s : State) (nt : Int), s.up = true → (s.rd TIME_CTL_SRC = 1 ∨ s.rd TIME_CTL_SRC = 2) → s.rdb TIME_STAT_REF_OK = false →
    exec (.ptpSyncReceived nt) s = .next { s with time := { s.time with lastMeas := some s.now } }) ∧
  (∀ s : State, s.up = true → exec .ptpAnnounceReceived s = .next { s with time := { s.time with annOk := true } }) ∧
  (∀ (s : State) (k : Nat), s.time.lastTaken = some k → s.now < k + 2000000000 → exec .ppsInputEdge s = .next s) ∧
  (∀ s : State, s.up = true → (∀ k, s.time.lastTaken = some k → k + 2000000000 ≤ s.now) →
    ∃ t, exec .ppsInputEdge s = .next t ∧ t.time.lastTaken = some s.now ∧
      (s.time.todNext = none → t = { s with time := t.time }) ∧
      (∀ sec, s.time.todNext = some sec → t.time.todNext = some ((sec + 1) % 2 ^ 48))) ∧
  (∀ (s : State) (cause : RefCause), s.up = true → s.rdb TIME_STAT_REF_OK = true → s.refFails cause = true →
    ∃ t, exec (.refQualifyLoss cause) s = .next t ∧ t.rd TIME_STAT_REF_OK = 0 ∧
      (s.rd TIME_STAT_STATE = stAcquire → t.rd TIME_STAT_STATE = stFree ∧ t.time.acqCount = 0) ∧
      (s.rd TIME_STAT_STATE = stLocked → t.rd TIME_STAT_STATE = stHoldover ∧ t.time.consec = 0 ∧ t.time.runLen = 0 ∧
        TIME_HOLDOVER.raised s t 0 []) ∧
      (s.rd TIME_STAT_STATE = stHoldover → t.rd TIME_STAT_STATE = stHoldover ∧ t.time.consec = 0 ∧ t.time.runLen = 0)) ∧
  (∀ (s : State) (ten : Bool), s.up = true → s.rdb TIME_STAT_REF_OK = false →
    ({ s with time := { s.time with tenOk := ten } } : State).refHolds = true →
    ∃ t, exec (.refQualifyGain ten) s = .next t ∧ t.rd TIME_STAT_REF_OK = 1 ∧ t.time.tenOk = ten ∧
      t.rd TIME_STAT_STATE =
        (if s.rd TIME_STAT_STATE = stFree ∧ s.rdb TIME_STAT_OCXO_WARM ∧ s.rdb TIME_CTL_EN then stAcquire else s.rd TIME_STAT_STATE) ∧
      t = { s with regs := t.regs, time := t.time }) ∧
  (∀ s : State, s.up = true → 480000000000 ≤ s.now → s.rdb TIME_STAT_OCXO_WARM = false →
    ∃ t, exec .ocxoWarm s = .next t ∧ t.rd TIME_STAT_OCXO_WARM = 1 ∧
      t.rd TIME_STAT_STATE =
        (if s.rd TIME_STAT_STATE = stFree ∧ s.rdb TIME_STAT_REF_OK ∧ s.rdb TIME_CTL_EN then stAcquire else s.rd TIME_STAT_STATE) ∧
      t = { s with regs := t.regs, time := t.time }) ∧
  (∀ (s : State) (r : Restep), s.up = true → s.time.restep = some r → r.sf * 4096000000 ≤ s.now →
    ∃ t, exec .restepTakesEffect s = .next t ∧ t.time.offset = r.offset.toNat ∧ t.time.restep = none ∧ t.time.consec = 0 ∧
      t.rd TIME_STAT_JUMP = b2n r.jumpAfter ∧ (s.rd TIME_STAT_STATE = stLocked → t.rd TIME_STAT_STATE = stHoldover) ∧
      TIME_RESTEP_DONE.raised s t 0 [lpA (r.sf * 4096000000), lpB (r.sf * 4096000000)])

/-- The 1PPS output rises at a second of its timebase in LOCKED, HOLDOVER or under PPS_FREE unless it rose less than
0.5 s before, and falls after its width; at a whole second while LOCKED with SYNC the calendar takes network time when
they differ by more than one count; a trim is made once every 2^20 crystal counts; a crystal failure sets XTAL_FAIL; a
marked message that leaves its port adds an entry with its stamp to the two-step queue, or is counted as dropped
when the queue holds 64: the oldest of those taken for sending there.
Forms that complete here: ppsOutputEdge, ppsOutputWidthEnd, rtcSync, rtcTrim, rtcXtalFail, twoStepStamp. -/
def Obligations.TimeOutputsAndCalendarComplete : Prop :=
  (∀ s : State, s.up = true →
    (s.rd TIME_STAT_STATE = stLocked ∨ s.rd TIME_STAT_STATE = stHoldover ∨ s.rdb TIME_CTL_PPS_FREE = true) →
    s.ppsSecond ((s.now : Int) - 1) < s.ppsSecond s.now → (∀ k, s.time.ppsRise = some k → k + 2000000000 ≤ s.now) →
    exec .ppsOutputEdge s = .next { s with time := { s.time with ppsOut := true, ppsRise := some s.now } }) ∧
  (∀ (s : State) (k : Nat), s.time.ppsRise = some k → s.now < k + 2000000000 → exec .ppsOutputEdge s = .next s) ∧
  (∀ (s : State) (k : Nat), s.time.ppsRise = some k → s.time.ppsOut = true → k + s.rd TIME_PPS_PPS_WIDTH * 4000 ≤ s.now →
    exec .ppsOutputWidthEnd s = .next { s with time := { s.time with ppsOut := false } }) ∧
  (∀ (s : State) (sec : Nat), s.up = true → s.rdb RTC_CTL_SYNC = true → s.rd TIME_STAT_STATE = stLocked →
    sec = (s.ntAt s.now / ntSec % 2 ^ 48).toNat → s.ntAt s.now - ntTick < s.ntAt s.now / ntSec * ntSec →
    (s.calendar + 1 < sec * 32768 ∨ sec * 32768 + 1 < s.calendar) →
    ∃ t, exec .rtcSync s = .next t ∧ t.calendar = sec * 32768 ∧
      (s.calendar + 32768 < sec * 32768 ∨ sec * 32768 + 32768 < s.calendar ∨ s.rdb RTC_STAT_INVALID = true →
        t.rd RTC_STAT_INVALID = 0 ∧ RTC_STEP.raised s t 0 (calWords s.calendar ++ calWords (sec * 32768)))) ∧
  (∀ s : State, 2 ^ 20 ≤ s.calCnt → 0 ≤ (s.calendar : Int) + s.rdi RTC_CTL_TRIM →
    (s.calendar : Int) + s.rdi RTC_CTL_TRIM < 2 ^ 63 →
    ∃ t, exec .rtcTrim s = .next t ∧ (t.calendar : Int) = s.calendar + s.rdi RTC_CTL_TRIM ∧ t.calCnt = s.calCnt - 2 ^ 20 ∧
      t = { s with regs := t.regs, calCnt := t.calCnt }) ∧
  (∀ s : State, ∃ t, exec .rtcXtalFail s = .next t ∧ t.rd RTC_STAT_XTAL_FAIL = 1 ∧ t = { s with regs := t.regs }) ∧
  (∀ (s : State) (p : Fin 16) (k : Nat) (msg : TwoStepMsg), s.up = true →
    (s.traf.marks.find? fun m => m.1 = p.val) = some (k, msg) →
    ∃ t, exec (.twoStepStamp p) s = .next t ∧ t.traf = { s.traf with marks := s.traf.marks.erase (p.val, msg) } ∧
      (s.time.tsq.length < 64 → t.time.tsq = s.time.tsq ++ [⟨p, msg, s.txStamp p, s.clock⟩] ∧ t = { s with traf := t.traf, time := t.time }) ∧
      (64 ≤ s.time.tsq.length → t.time = s.time ∧ TIME_TSQ_DROP.raised s t 0 []))

/-- For the packet of a listed command on a path that works: without intake, a loop included, it is counted in SVC_NO_INTAKE; with a
busy TAG it is counted in SVC_TAG_DUP; a packet that fails steps 3 to 7 takes its slot and completes with the status
of the first failing step; a failing CHECK of a critical command raises SVC_AUTH_FAIL and completes E_AUTH; a counter
not above the last one is counted in SVC_REPLAY and completes E_REPLAY; a command that passes and is not the one to
start is judged by its own checks, of which one whose instance is held takes only those of fixed outcome, and, where they
pass, waits in its slot; one that is to start does its work. A packet of an opcode that no command has completes
E_OPCODE when its queue is enabled for its page and its header is well formed. A waiting command that may start and
goes first starts its work when the queues are served.
Forms that complete here: commandStart, unlistedOpcodeCommand. -/
def Obligations.CommandIntake : Prop :=
  (∀ (i : Instr) (opc : Nat) (p : HostPkt) (bursts : Option (List Burst)) (s : State), commandOf i = some (opc, p, bursts) →
    s.svcLive = true → (p.boot = true ∨ s.rd SVC_STAT_LINK = 4 ∨ s.rd SVC_STAT_LINK = 7) →
    (s.intakeOpen p.boot = false → ∃ t, exec i s = .next t ∧ Events s t ∧ SVC_NO_INTAKE.counted s t 0 1) ∧
    (s.intakeOpen p.boot = true → s.cmdAt p.tag ≠ none →
      ∃ t, exec i s = .next t ∧ Events s t ∧ SVC_TAG_DUP.counted s t 0 1) ∧
    (s.intakeOpen p.boot = true → s.cmdAt p.tag = none →
      let u := s.takeSlot opc p
      let c : Cmd := ⟨p, opc, .waiting, s.svc.seq, none, false, s.now, [], 0, s.samplesFor opc p.words⟩
      (∀ st, u.earlyCheck opc p = some st →
        ∃ t, exec i s = .next t ∧ Answered u t c st 0 0 [] ∧ t = { u with svc := t.svc, regs := t.regs } ∧
          (opc ≠ 0x0401 → opc ≠ 0x0501 → t.regs = u.regs)) ∧
      (u.earlyCheck opc p = none → p.crit = true → u.critCheck opc p = .fails eAuth →
        ∃ t, exec i s = .next t ∧ Answered u t c eAuth 0 0 [] ∧ SVC_AUTH_FAIL.raised u t p.page []) ∧
      (u.earlyCheck opc p = none → p.crit = true → u.critCheck opc p = .fails eReplay →
        ∃ t, exec i s = .next t ∧ Answered u t c eReplay 0 0 [] ∧ SVC_REPLAY.counted u t p.page 1) ∧
      (∀ v, u.earlyCheck opc p = none → u.applyCrit opc p = (v, none) →
        (∀ st d, v.lateCheck opc p = some st → v.cmdAt p.tag = some d →
          ∃ t, exec i s = .next t ∧ Answered v t d st 0 0 [] ∧ t = { v with svc := t.svc, regs := t.regs } ∧
            (opc ≠ 0x0401 → opc ≠ 0x0501 → t.regs = v.regs)) ∧
        (∀ d, v.lateCheck opc p = none → v.cmdAt p.tag = some d → (∀ e, v.pick = some e → e.tag ≠ p.tag) →
          ((State.perform bursts d (v.markStarted d)).failed p.tag (fun st => !v.instanceHeld d || eFixed st) = false → opc / 256 ≠ 2 → opc / 256 ≠ 3 → exec i s = .next v) ∧
          (∀ st k, opc / 256 = 2 ∨ opc / 256 = 3 → d.reachCheck (opc % 2 = 0) = some (st, k) →
            ∃ t, exec i s = .next t ∧ Answered v t d st k 0 [] ∧ t = { v with svc := t.svc }) ∧
          (opc / 256 = 2 ∨ opc / 256 = 3 → d.reachCheck (opc % 2 = 0) = none → exec i s = .next v)) ∧
        (∀ d, v.lateCheck opc p = none → v.pick = some d → d.tag = p.tag →
          exec i s = .next (State.perform bursts d (v.markStarted d)))))) ∧
  (∀ (opc : BitVec 16) (p : HostPkt) (s : State), findSpec cmdTable opc.toNat = none → s.svcLive = true →
    (p.boot = true ∨ s.rd SVC_STAT_LINK = 4) → s.intakeOpen p.boot = true → s.cmdAt p.tag = none →
    (s.rd SVC_CTL_QEN).testBit (p.tag.val / 64) = true →
    (s.rdb SVC_QCFG_SHARED 0 (p.tag.val / 64) = true ∨ s.rd SVC_QCFG_OWNER 0 (p.tag.val / 64) = p.page.val) →
    p.rsvd = 0 → p.psn = false →
    ∃ t, exec (.unlistedOpcodeCommand opc p) s = .next t ∧
      Answered (s.takeSlot opc.toNat p) t ⟨p, opc.toNat, .waiting, s.svc.seq, none, false, s.now, [], 0, []⟩ eOpcode 0 0 [] ∧
      t = { s with svc := t.svc }) ∧
  (∀ (bursts : List Burst) (s : State) (c : Cmd), s.svcLive = true → s.pick = some c →
    exec (.commandStart bursts) s = .next (State.perform (some bursts) c (s.markStarted c)))

/-- A command that starts completes in its slot: SVC.NOP with LP word B of its intake; SVC.RECALL after sending the
kept completion of the named slot again with RECALLED = 1 on the recall's path, or E_STATE when that slot is busy or
has kept none, E_PAGE for another page's; SVC.LOOP with the loop to begin once it has been answered, after those accepted
before (its generator starts from an open state: log entry 111), and on the boot port E_STATE; TIME.RESTEP with
the re-step to take effect at the superframe boundary of R56, by the mean of the outlier run (MODE 0) or to the offset
given (MODE 1); TIME.TOD with the second of the next edge noted; TIME.READ with LP and network time of one instant;
RTC.SET with the calendar at the whole second, a step of more than one second or out of INVALID being logged, and
E_STATE while LOCKED with SYNC. A reserved bit set completes E_RESERVED with the index of its word.
Forms that complete here: timeRestep, timeTod, timeRead, rtcSet, svcNop, svcRecall, svcLoop. -/
def Obligations.ServiceAndTimeCommandsComplete : Prop :=
  (∀ (s u : State) (p : HostPkt) (c : Cmd), Starts s 0x0101 p c u →
    ∃ t, exec (.svcNop p) s = .next t ∧ Answered u t c eOk 0 (lpB c.at_) [] ∧ t = { u with svc := t.svc }) ∧
  (∀ (s u : State) (p : HostPkt) (c : Cmd), Starts s 0x0102 p c u → c.clean [mask 8 0, 0] →
    let k := (c.w 0).bits 8 0
    (∀ x, sget (fun _ => none) u.svc.kept k = some x → u.cmdAt k = none → x.page = c.page →
      ∃ t, exec (.svcRecall p) s = .next t ∧
        Answered (u.queueCompletion { x with boot := p.boot, recalled := true }) t c eOk 0 0 [] ∧ t = { u with svc := t.svc }) ∧
    (∀ x, sget (fun _ => none) u.svc.kept k = some x → u.cmdAt k = none → x.page ≠ c.page →
      ∃ t, exec (.svcRecall p) s = .next t ∧ Answered u t c ePage 0 0 [] ∧ t = { u with svc := t.svc }) ∧
    (sget (fun _ => none) u.svc.kept k = none ∨ u.cmdAt k ≠ none →
      ∃ t, exec (.svcRecall p) s = .next t ∧ Answered u t c eState 0 0 [] ∧ t = { u with svc := t.svc })) ∧
  (∀ (s u : State) (p : HostPkt) (c : Cmd), Starts s 0x0103 p c u → c.clean [mask 1 0, mask 13 0] →
    (c.w 0).bits 1 0 ≠ 0 → 1 ≤ (c.w 1).bits 13 0 → (c.w 1).bits 13 0 ≤ 10000 →
    (p.boot = true → ∃ t, exec (.svcLoop p) s = .next t ∧ Answered u t c eState 0 0 [] ∧ t = { u with svc := t.svc }) ∧
    (p.boot = false → ∃ t seed, exec (.svcLoop p) s = .next t ∧
      Answered { u with svc := { u.svc with
        loops := u.svc.loops ++ [Loop.mk ((c.w 0).bits 1 0) ((c.w 1).bits 13 0) c.tag seed] } } t c eOk 0 0 [] ∧
      t = { u with svc := t.svc, free := t.free })) ∧
  (∀ (s u : State) (p : HostPkt) (c : Cmd) (i : Nat), Starts s 0x0701 p c u → reservedAt c.pkt.words [mask 2 0] 0 = some i →
    ∃ t, exec (.timeRestep p) s = .next t ∧ Answered u t c eReserved i 0 [] ∧ t = { u with svc := t.svc }) ∧
  (∀ (s u : State) (p : HostPkt) (c : Cmd) (off : Int), Starts s 0x0701 p c u → c.clean [mask 2 0] →
    (u.rd TIME_STAT_STATE = stLocked ∨ u.rd TIME_STAT_STATE = stHoldover) → 0 ≤ off →
    ((c.w 0).bits 2 0 = 0 ∧ c.w 1 = 0 ∧ c.w 2 = 0 ∧ c.w 3 = 0 ∧ u.rdb TIME_STAT_JUMP = true ∧ off = u.time.offset + u.time.jumpMean ∨
      (c.w 0).bits 2 0 = 1 ∧ ntOfWords (c.w 1).toNat (c.w 2).toNat (c.w 3).toNat = some off) →
    ∃ t, exec (.timeRestep p) s = .next t ∧ Answered u t c eOk 0 0 [] ∧ t.time = { u.time with restep := some ⟨off, u.restepSf, false, u.now⟩ } ∧
      t = { u with svc := t.svc, time := t.time }) ∧
  (∀ (s u : State) (p : HostPkt) (c : Cmd), Starts s 0x0701 p c u → c.clean [mask 2 0] → (c.w 0).bits 2 0 = 1 →
    ntOfWords (c.w 1).toNat (c.w 2).toNat (c.w 3).toNat ≠ none →
    (u.rd TIME_STAT_STATE = stFree ∨ u.rd TIME_STAT_STATE = stAcquire) →
    ∃ t, exec (.timeRestep p) s = .next t ∧ Answered u t c eState 0 0 [] ∧ t = { u with svc := t.svc }) ∧
  (∀ (s u : State) (p : HostPkt) (c : Cmd), Starts s 0x0702 p c u → c.clean [mask 35 0, mask 35 24] →
    ∃ t, exec (.timeTod p) s = .next t ∧ Answered u t c eOk 0 0 [] ∧ t.time = { u.time with todNext := some c.seconds } ∧
      t = { u with svc := t.svc, time := t.time }) ∧
  (∀ (s u : State) (p : HostPkt) (c : Cmd), Starts s 0x0703 p c u →
    ∃ t, exec (.timeRead p) s = .next t ∧
      Answered u t c eOk 0 0 (cleanWords ([lpA u.now, lpB u.now] ++ ntWords (u.ntAt u.now))) ∧ t = { u with svc := t.svc }) ∧
  (∀ (s u : State) (p : HostPkt) (c : Cmd), Starts s 0x0801 p c u → c.clean [mask 35 0, mask 35 24] →
    (u.rd TIME_STAT_STATE = stLocked ∧ u.rdb RTC_CTL_SYNC = true →
      ∃ t, exec (.rtcSet p) s = .next t ∧ Answered u t c eState 0 0 [] ∧ t = { u with svc := t.svc }) ∧
    (¬(u.rd TIME_STAT_STATE = stLocked ∧ u.rdb RTC_CTL_SYNC = true) →
      ∃ t, exec (.rtcSet p) s = .next t ∧ Answered u t c eOk 0 0 [] ∧ t.calendar = c.seconds * 32768 ∧
        (u.calendar + 32768 < c.seconds * 32768 ∨ c.seconds * 32768 + 32768 < u.calendar ∨ u.rdb RTC_STAT_INVALID = true →
          t.rd RTC_STAT_INVALID = 0 ∧ RTC_STEP.raised u t 0 (calWords u.calendar ++ calWords (c.seconds * 32768))) ∧
        t = { u with svc := t.svc, regs := t.regs, cnt := t.cnt, tblRaw := t.tblRaw, evt := t.evt }))

/-- A command that starts, with no reserved bit set and N in range, completes where no access of its words has to wait
at the matrix: REG.READ and MEM.READ with the words
read, in address order, or with the words before the first that fails and its index; REG.WRITE and MEM.WRITE after the
words written, the status of the first that fails and its index otherwise; one word of memory read or written is that
word; where a read has to wait, the command keeps the words read before it and its request stands at the matrix; CNT.READ with the snapshot pairs of counters that its page may read, E_PAGE with the first that it may not;
EVT.CFG with the code's priority and record bit set, the new rate from the next interval on, the stream's two words
stored, or the first and the latest record of the code.
Forms that complete here: regRead, regWrite, memRead, memWrite, cntRead, evtCfgCode, evtCfgRate, evtCfgStream,
evtCfgRead. -/
def Obligations.AccessAndObservationCommandsComplete : Prop :=
  (∀ (s u v : State) (p : HostPkt) (c : Cmd) (l : List PWord) (reach : Nat → Bool) (i : Instr) (all_ : Bool),
    (Starts s 0x0201 p c u ∧ i = .regRead p ∧ reach = regReach c.page ∨ Starts s 0x0301 p c u ∧ i = .memRead p ∧ reach = memReach) →
    c.clean [mask 29 0, mask 11 0] → 1 ≤ (c.w 1).bits 11 0 → (c.w 1).bits 11 0 ≤ 2046 → c.got = [] →
    State.readRun reach c.tag ((c.w 1).bits 11 0) ((c.w 0).bits 29 0) [] u = .ok (l, all_, v) →
    ∃ t, exec i s = .next t ∧ t = { v with svc := t.svc } ∧
      (all_ = true → Answered v t c eOk 0 ((c.w 1).bits 11 0) l.reverse) ∧
      (all_ = false → Answered v t c eAddr l.length l.length l.reverse)) ∧
  (∀ (s u v : State) (p : HostPkt) (c : Cmd) (l : List PWord) (pl : Place) (reach : Nat → Bool) (i : Instr),
    (Starts s 0x0201 p c u ∧ i = .regRead p ∧ reach = regReach c.page ∨ Starts s 0x0301 p c u ∧ i = .memRead p ∧ reach = memReach) →
    c.clean [mask 29 0, mask 11 0] → 1 ≤ (c.w 1).bits 11 0 → (c.w 1).bits 11 0 ≤ 2046 → c.got = [] →
    State.readRun reach c.tag ((c.w 1).bits 11 0) ((c.w 0).bits 29 0) [] u = .error (pl, l, v) → v.cmdAt c.tag = u.cmdAt c.tag →
    exec i s = .next ((v.setCmd c.tag (some { c with stage := .running, holds := true, got := l.reverse })).request
      extMaster (.link c.tag) pl none)) ∧
  (∀ (s u v : State) (p : HostPkt) (c : Cmd) (reach : Nat → Bool) (i : Instr) (bursts : Option (List Burst)) (k st : Nat),
    ((∃ l, Starts s 0x0202 p c u ∧ bursts = some l ∧ i = .regWrite p l ∧ reach = regReach 0) ∨
      Starts s 0x0302 p c u ∧ i = .memWrite p ∧ reach = stagingReach ∧ bursts = none) →
    c.clean [mask 33 0, mask 11 0] → 1 ≤ (c.w 1).bits 11 0 → (c.w 1).bits 11 0 ≤ 2046 → c.put = 0 →
    State.writeRun reach c.tag ((c.w 0).bits 33 30) bursts ((c.pkt.words.drop 2).take ((c.w 1).bits 11 0)) ((c.w 0).bits 29 0) 0 u
      = .ok (k, st, v) → v.cmdAt c.tag = u.cmdAt c.tag →
    ∃ t, exec i s = .next t ∧ t = { v with svc := t.svc } ∧ Answered v t c st (if st = eOk then 0 else k) k []) ∧
  (∀ (s u : State) (p : HostPkt) (c : Cmd) (g : Nat), Starts s 0x0301 p c u → c.clean [mask 29 0, mask 11 0] →
    c.got = [] → (c.w 1).bits 11 0 = 1 → memReach ((c.w 0).bits 29 0) = true → u.resolve extMaster ((c.w 0).bits 29 0) false = .ok (.mem g) →
    u.linkWaits c.tag (.mem g) = false →
    ∃ t, exec (.memRead p) s = .next t ∧ t.mem = u.mem ∧ Answered (u.memRead g 15).2 t c eOk 0 1 [(u.memRead g 15).1]) ∧
  (∀ (s u : State) (p : HostPkt) (c : Cmd) (g : Nat), Starts s 0x0302 p c u → c.clean [mask 33 0, mask 11 0] →
    c.put = 0 → (c.w 1).bits 11 0 = 1 → 3 ≤ c.pkt.words.length → stagingReach ((c.w 0).bits 29 0) = true →
    u.resolve extMaster ((c.w 0).bits 29 0) true = .ok (.mem g) → u.linkWaits c.tag (.mem g) = false →
    ∃ t, exec (.memWrite p) s = .next t ∧ t = { u.memWrite g ((c.w 0).bits 33 30) ⟨c.w 2, false⟩ with svc := t.svc } ∧
      Answered u t c eOk 0 1 []) ∧
  (∀ (s u v : State) (p : HostPkt) (c : Cmd) (l : List (PWord × PWord)), Starts s 0x0E01 p c u →
    c.clean [mask 19 0, mask 8 0] → 1 ≤ (c.w 1).bits 8 0 → (c.w 1).bits 8 0 ≤ 256 →
    (c.w 0).bits 19 0 + (c.w 1).bits 8 0 ≤ 2 ^ 20 →
    (∀ j, (∀ i, i < j → u.cntOwn c.page ((c.w 0).bits 19 0 + i) = true) → j < (c.w 1).bits 8 0 →
      u.cntOwn c.page ((c.w 0).bits 19 0 + j) = false →
      ∃ t, exec (.cntRead p) s = .next t ∧ Answered u t c ePage j 0 [] ∧ t = { u with svc := t.svc }) ∧
    ((∀ i, i < (c.w 1).bits 8 0 → u.cntOwn c.page ((c.w 0).bits 19 0 + i) = true) →
      u.snapshots ((c.w 0).bits 19 0) ((c.w 1).bits 8 0) = (l, v) →
      ∃ t, exec (.cntRead p) s = .next t ∧ Answered v t c eOk 0 ((c.w 1).bits 8 0) (l.flatMap fun x => [x.1, x.2]) ∧
        t = { v with svc := t.svc })) ∧
  (∀ (s u : State) (p : HostPkt) (c : Cmd) (e : Code), Starts s 0x0E02 p c u → (c.w 0).bits 35 33 = 0 →
    c.clean [mask 35 33 + mask 11 0, mask 2 0, 0] → codeOf ((c.w 0).bits 11 0) = some e →
    (e.kind = .event ∧ (c.w 1).bits 1 0 ≠ 0 ∨ e.kind = .priority0 ∧ (c.w 1).bits 1 0 = 0 ∧ (c.w 1).bit 2 = true) →
    ∃ t, exec (.evtCfgCode p) s = .next t ∧ Answered u t c eOk 0 0 [] ∧
      sget (fun _ => none) t.evt.cfg ((c.w 0).bits 11 0) = some ((c.w 1).bits 1 0, (c.w 1).bit 2) ∧
      (∀ k, k ≠ (c.w 0).bits 11 0 → sget (fun _ => none) t.evt.cfg k = sget (fun _ => none) u.evt.cfg k) ∧
      t = { u with svc := t.svc, evt := { u.evt with cfg := t.evt.cfg } }) ∧
  (∀ (s u : State) (p : HostPkt) (c : Cmd), Starts s 0x0E02 p c u → (c.w 0).bits 35 33 = 1 →
    c.clean [mask 35 33, mask 15 0, 0] → (c.w 1).bits 15 0 ≠ 0 →
    ∃ t, exec (.evtCfgRate p) s = .next t ∧ Answered u t c eOk 0 0 [] ∧ t.rd EVT_CTL_RATE = (c.w 1).bits 15 0 ∧
      t = { u with svc := t.svc, regs := t.regs, evt := { u.evt with rateFrom := u.now / ticksMs + 1, rateOld := u.rd EVT_CTL_RATE } }) ∧
  (∀ (s u : State) (p : HostPkt) (c : Cmd), Starts s 0x0E02 p c u → (c.w 0).bits 35 33 = 2 →
    c.clean [mask 35 33 + mask 3 0, mask 35 2, mask 35 20] → tlmOk (c.w 1) (c.w 2) = true →
    ∃ t, exec (.evtCfgStream p) s = .next t ∧ Answered u t c eOk 0 0 [] ∧
      t.reg (EVT_TLM_EN.addr 0 ((c.w 0).bits 3 0) 0) = c.w 1 ∧ t.reg (EVT_TLM_PERIOD.addr 0 ((c.w 0).bits 3 0) 0) = c.w 2 ∧
      t = { u with svc := t.svc, regs := t.regs }) ∧
  (∀ (s u : State) (p : HostPkt) (c : Cmd) (e : Code), Starts s 0x0E02 p c u → (c.w 0).bits 35 33 = 3 →
    c.clean [mask 35 33 + mask 11 0, 0, 0] → codeOf ((c.w 0).bits 11 0) = some e →
    ∃ t r, exec (.evtCfgRead p) s = .next t ∧ t = { u with svc := t.svc } ∧
      Answered u t c eOk 0 r (cleanWords (keptWords (sget (fun _ => none) u.evt.first ((c.w 0).bits 11 0)) ++
        keptWords (sget (fun _ => none) u.evt.latest ((c.w 0).bits 11 0)))))

/-- A command that starts: CORE.LOAD with targets that are EMPTY, LOADED, HALTED or FAULTED gives an image that passes
steps 2 to 7 of R117 to the loader, and rejects another one with its status, DETAIL, IMG_REJECT and IMG_LAST; a target
in another state is E_STATE with its number, with IMG_REJECT and IMG_LAST; CORE.START on LOADED or HALTED cores writes the start LP to each, arms
each for it and completes with their number, a core in another state being E_STATE with no core changed; CORE.HALT
halts the RUNNING cores of the range and completes with their number; IMG.STORE of an image that passes is being
written from then on, and one that does not completes with the status of the step that fails, with IMG_REJECT; while
another store is written it completes E_BUSY, which IMG_LAST shows. Either of the two that starts from its queue in the
error state of the key engine completes E_STATE with DETAIL 0, IMG_REJECT and IMG_LAST.
Forms that complete here: coreLoad, coreStartCmd, coreHaltCmd, imgStore. -/
def Obligations.CoreAndImageCommandsComplete : Prop :=
  (∀ (s u v : State) (p : HostPkt) (c : Cmd) (m : Image), Starts s 0x0401 p c u → c.clean [mask 2 0, mask 29 0, coreRangeMask] →
    let ts := coreRange (c.w 2)
    coreRangeOk (c.w 2) = true → u.rdb EDW_STAT_ERROR = false →
    ((c.w 0).bits 2 0 < 2 ∧ c.w 1 = 0 ∧ (m, v) = (u.slotImage ((c.w 0).bits 2 0) (coreKind (ts.headD 0)), u) ∨
      (c.w 0).bits 2 0 = 2 ∧ stageLo ≤ (c.w 1).toNat ∧ (c.w 1).toNat < stageHi ∧ (m, v) = u.stagedImage (c.w 1).toNat) →
    (∀ n ∈ ts, u.coreState n = cEmpty ∨ u.coreState n = cLoaded ∨ u.coreState n = cHalted ∨ u.coreState n = cFaulted) →
    (v.judgeImage m ts false = none →
      exec (.coreLoad p) s = .next (v.enterLoad ⟨m, (c.w 0).bits 2 0, ts, 0, false, .command c.tag, none⟩)) ∧
    (∀ st d, v.judgeImage m ts false = some (st, d) →
      ∃ t, exec (.coreLoad p) s = .next t ∧ Answered v t c st d 0 [] ∧ IMG_REJECT.raised v t 0 [st] ∧
        t.rd IMG_LAST_STATUS = st ∧ t.rd IMG_LAST_OP = 0 ∧
        t = { v with svc := t.svc, regs := t.regs, cnt := t.cnt, tblRaw := t.tblRaw, evt := t.evt })) ∧
  (∀ (s u : State) (p : HostPkt) (c : Cmd) (n : Nat), Starts s 0x0401 p c u →
    c.clean [mask 2 0, if (c.w 0).bits 2 0 = 2 then mask 29 0 else 0, coreRangeMask] → (c.w 0).bits 2 0 < 3 →
    ((c.w 0).bits 2 0 = 2 → stageLo ≤ (c.w 1).toNat ∧ (c.w 1).toNat < stageHi) → coreRangeOk (c.w 2) = true →
    u.rdb EDW_STAT_ERROR = false → n ∈ coreRange (c.w 2) → u.loadable n = false →
    (∀ k ∈ coreRange (c.w 2), k < n → u.loadable k = true) →
    ∃ t, exec (.coreLoad p) s = .next t ∧ Answered u t c eState n 0 [] ∧ IMG_REJECT.raised u t 0 [eState] ∧
      t.rd IMG_LAST_STATUS = eState ∧ t.rd IMG_LAST_OP = 0 ∧ t.rd IMG_LAST_KIND = 0 ∧
      t = { u with svc := t.svc, regs := t.regs, cnt := t.cnt, tblRaw := t.tblRaw, evt := t.evt }) ∧
  (∀ (s u : State) (p : HostPkt) (c : Cmd) (n : Nat), Starts s 0x0402 p c u → c.clean [coreRangeMask] →
    coreRangeOk (c.w 0) = true → lpOk (c.w 2).toNat = true → n ∈ coreRange (c.w 0) →
    let lp := lpTicks (c.w 1).toNat (c.w 2).toNat
    (lp = 0 ∨ u.now ≤ lp) →
    ((∀ k ∈ coreRange (c.w 0), u.coreState k = cLoaded ∨ u.coreState k = cHalted) →
      ∃ t, exec (.coreStartCmd p) s = .next t ∧ Answered u t c eOk 0 (coreRange (c.w 0)).length [] ∧
        t.rd CORE_START_A n = (c.w 1).toNat ∧ t.rd CORE_STAT_LATE n = 0 ∧
        t.core n = { u.core n with armed := some (if lp = 0 then u.now else lp) } ∧
        (∀ k, k ∉ coreRange (c.w 0) → t.core k = u.core k) ∧ t = { u with svc := t.svc, regs := t.regs, cores := t.cores }) ∧
    ((∀ k ∈ coreRange (c.w 0), k < n → u.coreState k = cLoaded ∨ u.coreState k = cHalted) →
      u.coreState n ≠ cLoaded → u.coreState n ≠ cHalted →
      ∃ t, exec (.coreStartCmd p) s = .next t ∧ Answered u t c eState n 0 [] ∧ t = { u with svc := t.svc })) ∧
  (∀ (s u : State) (p : HostPkt) (c : Cmd), Starts s 0x0403 p c u → c.clean [coreRangeMask] → coreRangeOk (c.w 0) = true →
    ∃ t, exec (.coreHaltCmd p) s = .next t ∧
      Answered u t c eOk 0 ((coreRange (c.w 0)).filter fun n => u.coreState n = cRunning).length [] ∧
      (∀ n ∈ coreRange (c.w 0), u.coreState n = cRunning → (u.core n).wait = none →
        t.coreState n = cHalted ∧ t.core n = u.core n) ∧
      (∀ n, n ∉ coreRange (c.w 0) ∨ u.coreState n ≠ cRunning → t.core n = u.core n ∧ t.coreState n = u.coreState n) ∧
      t = { u with svc := t.svc, regs := t.regs, cores := t.cores }) ∧
  (∀ (s u : State) (p : HostPkt) (c : Cmd), Starts s 0x0501 p c u → c.clean [mask 29 0, 1] →
    stageLo ≤ (c.w 0).toNat → (c.w 0).toNat < stageHi →
    (u.img.store ≠ none → ∃ t, exec (.imgStore p) s = .next t ∧ Answered u t c eBusy 0 0 [] ∧
      t.rd IMG_LAST_STATUS = eBusy ∧ t.rd IMG_LAST_OP = 1 ∧ (∀ a, a ≠ IMG_LAST_STATUS.addr 0 0 0 → t.reg a = u.reg a) ∧
      t = { u with svc := t.svc, regs := t.regs }) ∧
    (∀ m v, u.img.store = none → u.rdb EDW_STAT_ERROR = false → u.stagedImage (c.w 0).toNat = (m, v) → m.header.length = 48 →
      v.judgeImage m [] ((c.w 1).bit 0) = none → v.judgeSignature m = none →
      exec (.imgStore p) s = .next { v with img := { v.img with store := some ⟨m.kind % 4, m, (c.w 1).bit 0, c.tag⟩ } }) ∧
    (∀ m v st d, u.img.store = none → u.rdb EDW_STAT_ERROR = false → u.stagedImage (c.w 0).toNat = (m, v) →
      (v.judgeImage m [] ((c.w 1).bit 0) = some (st, d) ∨
        v.judgeImage m [] ((c.w 1).bit 0) = none ∧ v.judgeSignature m = some (st, d)) →
      ∃ t, exec (.imgStore p) s = .next t ∧ Answered v t c st d 0 [] ∧ IMG_REJECT.raised v t 0 [st] ∧
        t.rd IMG_LAST_STATUS = st ∧ t.rd IMG_LAST_OP = 1 ∧
        t = { v with svc := t.svc, regs := t.regs, cnt := t.cnt, tblRaw := t.tblRaw, evt := t.evt })) ∧
  (∀ (s : State) (bursts : List Burst) (c : Cmd), s.svcLive = true → s.pick = some c → s.rdb EDW_STAT_ERROR = true →
    (c.opcode = 0x0401 ∧ c.clean [mask 2 0, if (c.w 0).bits 2 0 = 2 then mask 29 0 else 0, coreRangeMask] ∧ (c.w 0).bits 2 0 < 3 ∧
        ((c.w 0).bits 2 0 = 2 → stageLo ≤ (c.w 1).toNat ∧ (c.w 1).toNat < stageHi) ∧ coreRangeOk (c.w 2) = true ∨
      c.opcode = 0x0501 ∧ c.clean [mask 29 0, 1] ∧ stageLo ≤ (c.w 0).toNat ∧ (c.w 0).toNat < stageHi ∧ s.img.store = none) →
    let u := s.markStarted c
    ∃ t, exec (.commandStart bursts) s = .next t ∧ Answered u t c eState 0 0 [] ∧ IMG_REJECT.raised u t 0 [eState] ∧
      t.rd IMG_LAST_STATUS = eState ∧ t.rd IMG_LAST_OP = b2n (c.opcode = 0x0501) ∧
      t = { u with svc := t.svc, regs := t.regs, cnt := t.cnt, tblRaw := t.tblRaw, evt := t.evt })

/-- A command that starts with no reserved bit set: PWR.MODE to the mode that holds completes with it; to MAINTENANCE
from HOUSEKEEPING or PROVISION, to SERVICE from PROVISION with nothing shed, and to PROVISION from SERVICE or
CONSTRAINED, the mode changes at once and PWR_MODE is raised with the old and the new mode; to PROVISION from
HOUSEKEEPING or MAINTENANCE the OFF domains that are not HELD rise first; PWR.DOMAIN OP 0 sets HELD and turns the
domain off, OP 1 clears HELD and lets it rise when the estimates allow, OP 2 stops and restarts an ON domain over 10
us, once its light has ramped down; what R591 refuses completes E_STATE with the reason; PWR.RESET with its word closes
intake and drains; PWR.READ
completes with the five meter words.
Forms that complete here: pwrMode, pwrDomainOff, pwrDomainOn, pwrDomainReset, pwrReset, pwrRead. -/
def Obligations.PowerCommandsComplete : Prop :=
  (∀ (s u : State) (p : HostPkt) (c : Cmd), Starts s 0x0601 p c u → c.clean [mask 2 0, 0] → u.rdb PWR_STAT_SHORT = false →
    let m := (c.w 0).bits 2 0
    (m = u.mode → m ≠ 0 → m ≠ 4 → m < 6 →
      ∃ t, exec (.pwrMode p) s = .next t ∧ Answered u t c eOk 0 m [] ∧ t = { u with svc := t.svc }) ∧
    ((m = modeMaintenance ∧ (u.mode = modeHousekeeping ∨ u.mode = modeProvision) ∨
        m = modeService ∧ u.mode = modeProvision ∧ u.pwr.shedOrder = [] ∨
        m = modeProvision ∧ (u.mode = modeService ∨ u.mode = modeConstrained)) →
      ∃ t, exec (.pwrMode p) s = .next t ∧ Answered u t c eOk 0 m [] ∧ t.mode = m ∧ Ev.PWR_MODE.raised u t 0 [u.mode, m] ∧
        t = { u with svc := t.svc, regs := t.regs, cnt := t.cnt, tblRaw := t.tblRaw, evt := t.evt, traf := t.traf }) ∧
    (m = modeProvision → (u.mode = modeHousekeeping ∨ u.mode = modeMaintenance) →
      exec (.pwrMode p) s = .next
        ({ u with pwr := { u.pwr with
          modeCmd := some (m, c.tag),
          rise := (List.range 77).filter fun d => u.dom d = domOff && !u.rdb PWR_DOM_HELD 0 d } }.startRise).progress)) ∧
  (∀ (s u : State) (p : HostPkt) (c : Cmd) (d op : Nat) (bursts : List Burst), Starts s 0x0602 p c u →
    c.clean [mask 35 34 + mask 6 0, 0] → (c.w 0).bits 6 0 = d → (c.w 0).bits 35 34 = op →
    let i : Instr := if op = 0 then .pwrDomainOff p else if op = 1 then .pwrDomainOn p else .pwrDomainReset p bursts
    (op ≠ 3 → 77 ≤ d → d < 80 → ∃ t, exec i s = .next t ∧ Answered u t c eState 0 1 [] ∧ t = { u with svc := t.svc }) ∧
    ((op = 1 ∨ op = 2) → d < 64 → u.dom (64 + d / 8) = domOff →
      ∃ t, exec i s = .next t ∧ Answered u t c eState 0 2 [] ∧ t = { u with svc := t.svc }) ∧
    (op = 0 → d < 77 → ¬(64 ≤ d ∧ d < 72) → u.rdb PWR_DOM_SHED 0 d = false →
      exec i s = .next (({ u.wr PWR_DOM_HELD 1 0 d with pwr := { u.pwr with domCmd := some (0, d, c.tag) } }.turnOff d).progress)) ∧
    (op = 1 → 64 ≤ d → d < 77 → u.rdb PWR_STAT_SHORT = false → u.dom d = domOnSt → u.pwr.modeCmd = none →
      u.rdb PWR_DOM_SHED 0 d = false →
      ∃ t, exec i s = .next t ∧ t.rd PWR_DOM_HELD 0 d = 0 ∧ t.dom d = domOnSt ∧ Answered u t c eOk 0 0 [] ∧
        t.pwr = { u.pwr with domCmd := none } ∧ t = { u with svc := t.svc, regs := t.regs, pwr := t.pwr }) ∧
    (op = 1 → d < 77 → (d < 64 → u.dom (64 + d / 8) ≠ domOff) → u.rdb PWR_STAT_SHORT = false →
      u.dom d = domOnSt ∨ u.estWithin d u.headroom = true → u.rdb PWR_DOM_SHED 0 d = false →
      exec i s = .next (({ u.wr PWR_DOM_HELD 0 0 d with pwr := { u.pwr with domCmd := some (1, d, c.tag) } }.requestRise d).progress)) ∧
    (op = 1 → 64 ≤ d → d < 77 → u.rdb PWR_STAT_SHORT = false → u.dom d ≠ domOnSt → u.estWithin d u.headroom = false →
      ∃ t, exec i s = .next t ∧ Answered u t c eState 0 3 [] ∧ t = { u with svc := t.svc }) ∧
    (op = 2 → 64 ≤ d → d < 77 → u.dom d ≠ domOnSt →
      ∃ t, exec i s = .next t ∧ Answered u t c eState 0 4 [] ∧ t = { u with svc := t.svc }) ∧
    (op = 2 → d < 77 → (d < 64 → u.dom (64 + d / 8) ≠ domOff) → u.dom d = domOnSt →
      let w :=
        if d < 64 then u.treeShed d
        else if 72 ≤ d ∧ d < 76 ∧ (u.txState (d - 72) = txRampUp ∨ u.txState (d - 72) = txLit) then u.lineShutdown (d - 72)
        else u
      (w.ramping d = true →
        exec i s = .next { w with pwr := { w.pwr with resetting := w.pwr.resetting ++ [(d, 0, c.tag)] } }) ∧
      (w.ramping d = false →
        let v := (w.stopDomain d (some bursts)).startDomain d
        exec i s = .next { v with pwr := { v.pwr with resetting := v.pwr.resetting ++ [(d, v.now + 10 * ticksUs, c.tag)] } }))) ∧
  (∀ (s u : State) (p : HostPkt) (c : Cmd), Starts s 0x0603 p c u → c.clean [mask 35 0, 0] →
    (c.w 0 = 0o162145163164 →
      ∃ t, exec (.pwrReset p) s = .next t ∧ t.rd SVC_STAT_INTAKE = 0 ∧
        t.svc = { u.svc with drain := some ⟨c.tag, u.now,
          (u.cmds.filter fun x => x.tag ≠ c.tag && x.stage ≠ .done).map (·.tag), none⟩ } ∧
        t = { u with svc := t.svc, regs := t.regs }) ∧
    (c.w 0 ≠ 0o162145163164 →
      ∃ t, exec (.pwrReset p) s = .next t ∧ Answered u t c eReserved 0 0 [] ∧ t = { u with svc := t.svc })) ∧
  (∀ (s u : State) (p : HostPkt) (c : Cmd), Starts s 0x0604 p c u →
    ∃ t, exec (.pwrRead p) s = .next t ∧ t = { u with svc := t.svc } ∧
      Answered u t c eOk 0 (u.reg 0o404001003).toNat
        (cleanWords [(u.reg 0o404001004).toNat, (u.reg 0o404001005).toNat, (u.reg 0o404001006).toNat, (u.reg 0o404001007).toNat]))

/-- A command that starts: KEY.LOAD in each of its three forms takes a load that passes all its checks and completes
with the status of the first that fails otherwise, a malformed first word being E_RESERVED; KEY.ERASE of a generation
that is present and may go erases it, counts EDW_KEY_ERASED and completes with 1, erasing a command key raising
EDW_CKEY_CHANGE; of one that is not present it completes with 0, and of the image or transport slots of page 0 with
E_STATE; KEY.ZEROISE with its word wipes the key store, closes intake, ends every command without a completion and
begins the erasures, which take the identity key if one of the zeroises under way does; KEY.IDENT completes with the identity or with the four status words of a slot or terminal, E_PAGE when they are another page's.
Forms that complete here: keyLoad, keyLoadImageKey, keyLoadRecover, keyErase, keyZeroise, keyIdentIdentity,
keyIdentStatus. -/
def Obligations.KeyCommandsComplete : Prop :=
  (∀ (s u : State) (p : HostPkt) (c : Cmd), Starts s 0x0901 p c u →
    let i : Instr := if (c.w 3).bits 1 0 = 1 then .keyLoadImageKey p else if (c.w 0).bit 16 then .keyLoadRecover p else .keyLoad p
    (∀ k, c.loadFault (keyName (c.w 0)) = some k →
      ∃ t, exec i s = .next t ∧ Answered u t c eReserved k 0 [] ∧ t = { u with svc := t.svc }) ∧
    (∀ cls l, c.loadFault (keyName (c.w 0)) = none → classOf (keyName (c.w 0)).page (keyName (c.w 0)).slot = some cls →
      u.judgeLoad c (keyName (c.w 0)) cls = .ok l →
      exec i s = .next { u with edw := { u.edw with loads := u.edw.loads ++ [l] } }) ∧
    (∀ cls st v, c.loadFault (keyName (c.w 0)) = none → classOf (keyName (c.w 0)).page (keyName (c.w 0)).slot = some cls →
      u.judgeLoad c (keyName (c.w 0)) cls = .error (st, v) →
      ∃ t, exec i s = .next t ∧ Answered u t c st 0 0 [] ∧ Events u { t with svc := u.svc } ∧
        (st = eAuth → EDW_UNWRAP_FAIL.counted u t (keyName (c.w 0)).page 1))) ∧
  (∀ (s u : State) (p : HostPkt) (c : Cmd), Starts s 0x0902 p c u →
    let n := keyName (c.w 0)
    n.ok = true → n.use = 0 → n.recover = false → n.switch = false → c.w 1 = 0 → u.keyState n = none →
    (n.page = 0 → n.slot < 2 → ∃ t, exec (.keyErase p) s = .next t ∧ Answered u t c eState 0 0 [] ∧ t = { u with svc := t.svc }) ∧
    (¬(n.page = 0 ∧ n.slot < 2) → ((u.keyOf n.ref).bind fun k => k.gen n.gen) = none →
      ∃ t, exec (.keyErase p) s = .next t ∧ Answered u t c eOk 0 0 [] ∧ t = { u with svc := t.svc }) ∧
    (∀ k g, ¬(n.page = 0 ∧ n.slot < 2) → u.keyOf n.ref = some k → k.gen n.gen = some g →
      ∃ t, exec (.keyErase p) s = .next t ∧ Answered u t c eOk 0 1 [] ∧ t.keyOf n.ref = k.erase n.gen ∧
        EDW_KEY_ERASED.counted u t n.page 1 ∧
        (n.slot = 0 → t.rd EDW_PG_STAT_CKEY n.page = 0 ∧
          EDW_CKEY_CHANGE.raised u t n.page [n.page, u.rd EDW_PG_STAT_EPOCH n.page]) ∧
        t = { u with svc := t.svc, edw := t.edw, regs := t.regs, cnt := t.cnt, tblRaw := t.tblRaw, evt := t.evt })) ∧
  (∀ (s u : State) (p : HostPkt) (c : Cmd), Starts s 0x0903 p c u → c.clean [1, mask 35 0] → c.w 1 = 0o172145162157 →
    ∃ t, exec (.keyZeroise p) s = .next t ∧ t.edw.keys = [] ∧ t.edw.trk = [] ∧ t.edw.tkey = none ∧ t.edw.loads = [] ∧
      t.edw.zeroing = some (u.edw.zeroing.getD false || (c.w 0).bit 0) ∧ t.rd SVC_STAT_INTAKE = 0 ∧ t.rd EDW_STAT_TKEY = 0 ∧ t.rd EDW_STAT_IMGKEY = 0 ∧
      t.rd EDW_STAT_BOOTSTRAP = 1 ∧ (∀ k, t.cmdAt k = none) ∧ t.svc.linkOut = [] ∧ t.svc.bootOut = [] ∧
      t = { u with svc := t.svc, edw := t.edw, regs := t.regs }) ∧
  (∀ (s u : State) (p : HostPkt) (c : Cmd), Starts s 0x0904 p c u → (c.w 0).bits 1 0 = 0 →
    c.clean [mask 1 0, mask 31 0, mask 31 0] →
    ∃ t r, exec (.keyIdentIdentity p) s = .next t ∧ t = { u with svc := t.svc, free := t.free } ∧
      Answered u t c eOk 0 r (cleanWords (u.identWords ((c.w 1).toNat * 2 ^ 32 + (c.w 2).toNat)))) ∧
  (∀ (s u : State) (p : HostPkt) (c : Cmd), Starts s 0x0904 p c u → (c.w 0).bits 1 0 = 1 → c.clean [mask 1 0] →
    let n := keyName (c.w 1)
    n.ok = true → n.use = 0 → n.recover = false → n.switch = false → n.gen = false → c.w 2 = 0 →
    (c.page = 0 ∨ n.page = c.page ∧ u.foreignTerm n = false →
      ∃ t r, exec (.keyIdentStatus p) s = .next t ∧ t = { u with svc := t.svc, free := t.free } ∧
        Answered u t c eOk 0 r (cleanWords (if n.slot = 2 then u.trkWords n.term else u.keyWords n.page n.slot))) ∧
    (c.page ≠ 0 → n.page ≠ c.page ∨ u.foreignTerm n = true →
      ∃ t, exec (.keyIdentStatus p) s = .next t ∧ Answered u t c ePage 0 0 [] ∧ t = { u with svc := t.svc }))

/-- A command that starts with no reserved bit set: LINE.ENABLE with EN = 1 and values in range, on a DARK transmitter
in time, sets FREQ, POWER, REMOTE_EN and FALLBACK and waits to be lit at its LP; while LIT with the same frequency and
power it completes at once, with another power it starts the ramp to it and waits, in any other state or with another
frequency it is E_STATE, out of range E_RANGE, past its LP E_LATE; with EN = 0 it starts the DISABLE ramp of a lit line
and waits, as it waits for a ramp that is under way, and completes at once on
a DARK or OFF one; LINE.RATE and LINE.LOAD begin their loading request when the receiver is LOCKED with frame alignment
and none is under way, E_STATE with 16 and E_BUSY otherwise; LINE.TRACE writes the traces it names and the two TIM
settings.
Forms that complete here: lineEnableOn, lineEnableOff, lineRate, lineLoadRecompute, lineLoadExplicit, lineTrace. -/
def Obligations.LineCommandsComplete : Prop :=
  (∀ (s u : State) (p : HostPkt) (c : Cmd), Starts s 0x0A01 p c u → c.clean [mask 35 33 + 3, mask 35 17] →
    lpOk (c.w 3).toNat = true → (c.w 0).bit 33 = true →
    let l := c.ln
    let f := signed 10 ((c.w 1).bits 35 26)
    let w := signed 9 ((c.w 1).bits 25 17)
    let lp := lpTicks (c.w 2).toNat (c.w 3).toNat
    (f < -256 ∨ 448 < f ∨ w < -120 ∨ 30 < w →
      ∃ t, exec (.lineEnableOn p) s = .next t ∧ Answered u t c eRange 0 0 [] ∧ t = { u with svc := t.svc }) ∧
    (-256 ≤ f → f ≤ 448 → -120 ≤ w → w ≤ 30 →
      (u.txState l ≠ txDark → (u.txState l ≠ txLit ∨ u.rdi LINE_TX_CTL_FREQ l ≠ f) →
        ∃ t, exec (.lineEnableOn p) s = .next t ∧ Answered u t c eState 0 0 [] ∧ t = { u with svc := t.svc }) ∧
      (u.txState l = txDark → lp ≠ 0 → lp < u.now →
        ∃ t, exec (.lineEnableOn p) s = .next t ∧ Answered u t c eLate 0 0 [] ∧ t = { u with svc := t.svc }) ∧
      (u.txState l = txDark → (lp = 0 ∨ u.now ≤ lp) →
        ∃ t, exec (.lineEnableOn p) s = .next t ∧ t.rdi LINE_TX_CTL_FREQ l = f ∧ t.rdi LINE_TX_CTL_POWER l = w ∧
          t.rdb LINE_TX_CTL_REMOTE_EN l = (c.w 0).bit 1 ∧ t.rdb LINE_TX_CTL_FALLBACK l = (c.w 0).bit 0 ∧
          t.line l = { u.line l with enable := some (c.tag, lp) } ∧ (∀ k, k ≠ l → t.line k = u.line k) ∧
          t = { u with regs := t.regs, lines := t.lines }) ∧
      (u.txState l = txLit → u.rdi LINE_TX_CTL_FREQ l = f → u.rdi LINE_TX_CTL_POWER l = w →
        ∃ t, exec (.lineEnableOn p) s = .next t ∧ Answered u t c eOk 0 0 [] ∧
          t.rdb LINE_TX_CTL_REMOTE_EN l = (c.w 0).bit 1 ∧ t.rdb LINE_TX_CTL_FALLBACK l = (c.w 0).bit 0 ∧
          t = { u with svc := t.svc, regs := t.regs }) ∧
      (u.txState l = txLit → u.rdi LINE_TX_CTL_FREQ l = f → u.rdi LINE_TX_CTL_POWER l ≠ w →
        ∃ t, exec (.lineEnableOn p) s = .next t ∧ t.rdi LINE_TX_CTL_FREQ l = f ∧ t.rdi LINE_TX_CTL_POWER l = w ∧
          t.rdb LINE_TX_CTL_REMOTE_EN l = (c.w 0).bit 1 ∧ t.rdb LINE_TX_CTL_FALLBACK l = (c.w 0).bit 0 ∧
          (∃ r, t.line l = { u.line l with ramp := some r, powTag := some c.tag } ∧ r.t0 = u.now) ∧
          (∀ k, k ≠ l → t.line k = u.line k) ∧ t.svc = u.svc))) ∧
  (∀ (s u : State) (p : HostPkt) (c : Cmd), Starts s 0x0A01 p c u → c.clean [mask 35 33 + 3, mask 35 17] →
    lpOk (c.w 3).toNat = true → (c.w 0).bit 33 = false →
    let l := c.ln
    (u.txState l = txDark ∨ u.txState l = txOff →
      ∃ t, exec (.lineEnableOff p) s = .next t ∧ Answered u t c eOk 0 0 [] ∧ t = { u with svc := t.svc }) ∧
    (u.txState l = txRampUp ∨ u.txState l = txLit →
      exec (.lineEnableOff p) s = .next ((u.lineDisable l).setLine l { (u.lineDisable l).line l with disTag := some c.tag }) ∧
      (u.lineDisable l).txState l = txRampDown) ∧
    (u.txState l = txRampDown ∨ u.txState l = txShut →
      exec (.lineEnableOff p) s = .next (u.setLine l { u.line l with disTag := some c.tag })) ∧
    (u.txState l = txCal →
      ∃ t, exec (.lineEnableOff p) s = .next t ∧ Answered u t c eState 0 0 [] ∧ t = { u with svc := t.svc })) ∧
  (∀ (s u : State) (p : HostPkt) (c : Cmd) (i : Instr) (inner rate : Nat),
    (Starts s 0x0A02 p c u ∧ i = .lineRate p ∧ c.clean [mask 35 34 + mask 7 0, 0] ∧ inner = (c.w 0).bits 7 6 ∧
        rate = (c.w 0).bits 5 0 ∧ inner ≠ 3 ∧ 4 ≤ rate ∧ rate ≤ 32 ∨
      Starts s 0x0A03 p c u ∧ i = .lineLoadRecompute p ∧ c.clean [mask 35 34 + mask 9 8, 0] ∧ (c.w 0).bits 9 8 = 0 ∧
        inner = u.rd LINE_RX_STAT_INNER c.ln ∧ rate = u.rd LINE_RX_STAT_RATE c.ln) →
    ((u.line c.ln).load ≠ none →
      ∃ t, exec i s = .next t ∧ Answered u t c eBusy 0 0 [] ∧ t = { u with svc := t.svc }) ∧
    ((u.line c.ln).load = none → u.rxAligned c.ln = false →
      ∃ t, exec i s = .next t ∧ Answered u t c eState 0 16 [] ∧ t = { u with svc := t.svc }) ∧
    ((u.line c.ln).load = none → u.rxAligned c.ln = true →
      exec i s = .next ((u.setLine c.ln { u.line c.ln with load := some ⟨c.tag, inner, rate, none, .window⟩ }).tryLoad c.ln))) ∧
  (∀ (s u : State) (p : HostPkt) (c : Cmd), Starts s 0x0A03 p c u → (c.w 0).bits 9 8 = 1 →
    c.clean ([mask 35 34 + mask 9 0, 0] ++ List.replicate 32 (mask 35 26)) →
    (∀ j, j < 32 → c.table.bs.getD j 0 ≠ 1 ∧ c.table.bs.getD j 0 ≤ 8) → c.table.inner ≠ 3 → 4 ≤ c.table.rate →
    c.table.rate ≤ 32 → rateFits c.table.rate c.table.inner c.table.bs.sum = true → (u.line c.ln).load = none →
    u.rxAligned c.ln = true →
    ∃ t, exec (.lineLoadExplicit p) s = .next t ∧ t.cmdAt c.tag = some { c with stage := .running, holds := false } ∧
      (∃ x, (t.line c.ln).load = some x ∧ x.tag = c.tag ∧ x.inner = c.table.inner ∧ x.rate = c.table.rate ∧
        x.req = some { c.table with seq := (u.line c.ln).reqSeq }) ∧
      t = { u with svc := { u.svc with slots := t.svc.slots }, lines := t.lines }) ∧
  (∀ (s u : State) (p : HostPkt) (c : Cmd) (i : Nat), Starts s 0x0A04 p c u → i < 16 →
    let lanes := mask 7 0 + mask 16 9 + mask 25 18 + mask 34 27
    c.clean ([mask 35 30, 0] ++ List.replicate 16 (if (c.w 0).bit 33 then lanes else mask 35 0) ++
      List.replicate 16 (if (c.w 0).bit 32 then lanes else mask 35 0)) →
    ∃ t, exec (.lineTrace p) s = .next t ∧ Answered u t c eOk 0 0 [] ∧
      t.rd LINE_TTI_TX c.ln i = (if (c.w 0).bit 33 then (c.w (2 + i)).toNat else u.rd LINE_TTI_TX c.ln i) ∧
      t.rd LINE_TTI_EXP c.ln i = (if (c.w 0).bit 32 then (c.w (18 + i)).toNat else u.rd LINE_TTI_EXP c.ln i) ∧
      t.rdb LINE_FR_CTL_TIM_EN c.ln = (c.w 0).bit 31 ∧ t.rdb LINE_FR_CTL_TIM_ACT c.ln = (c.w 0).bit 30)

/-- A command that starts with no reserved bit set: TREE.ENABLE with EN = 1 puts every named DARK or WARM slot into
WARM with its start LP pending, with EN = 0 gives every named slot that is not DARK its end LP, and completes at once
when no slot is left to wait for; TREE.REFLECT of a LIT slot makes its run PENDING with the counts cleared;
TREE.DISCOVER of a running T-core with a LIT slot begins its pairs 2 ms ahead; TREE.ACTIVATE of a serial of the list
assigns the lowest free terminal number to it and begins the exchange, telling a terminal that was isolated that it may
return, E_STATE for a serial not in the list;
TREE.DEACTIVATE of a terminal begins its removal, E_STATE for a FREE one; MON.INJECT joins the injections of its
converter or completes with the status of the failing check, a conflict being counted; MON.SEQ stores its entries and its control word;
CAL.START joins the calibrations of its converters, E_STATE with the first that is off.
Forms that complete here: treeEnableOn, treeEnableOff, treeReflect, treeDiscover, treeActivate, treeDeactivate,
monInject, monSeq, calStart. -/
def Obligations.AccessAndMonitorCommandsComplete : Prop :=
  (∀ (s u : State) (p : HostPkt) (c : Cmd) (at_ : Nat) (en : Bool), Starts s 0x0B01 p c u → c.clean [mask 35 21] →
    (c.w 0).bit 21 = en → treeStart c.at_ (c.w 1).toNat (c.w 2).toNat (20 * ticksMs) = Except.ok at_ → (c.w 0).bits 29 22 ≠ 0 →
    let t := (c.w 0).bits 35 30
    let m := (c.w 0).bits 29 22
    let i : Instr := if en then .treeEnableOn p else .treeEnableOff p
    let change := (List.range 8).filter fun w => m.testBit w && (if en then u.dsState (8 * t + w) = dsDark || u.dsState (8 * t + w) = dsWarm
      else u.dsState (8 * t + w) ≠ dsDark)
    u.domOn t = true → (en = true → ∀ w, w < 8 → m.testBit w = true → u.dsState (8 * t + w) ≠ dsDown) →
    ∃ v, exec i s = .next v ∧
      (∀ w ∈ change, if en then v.rd CH_DS_STAT_STATE (8 * t + w) = dsWarm ∧ v.rd CH_DS_STAT_PEND (8 * t + w) = 1 ∧
          v.chan (8 * t + w) = { u.chan (8 * t + w) with enAt := some at_, disAt := none }
        else v.chan (8 * t + w) = { u.chan (8 * t + w) with disAt := some at_ }) ∧
      (∀ k, (∀ w ∈ change, k ≠ 8 * t + w) → v.chan k = u.chan k) ∧
      (if (List.range 8).all fun w => !m.testBit w || u.dsState (8 * t + w) = (if en then dsLit else dsDark) then
        Answered u v c eOk 0 0 [] ∧ (v.tree t).enable = none
       else v.svc = u.svc ∧ (v.tree t).enable = some (c.tag, m, en, (change.map fun w => 2 ^ w).sum)) ∧
      v = { u with svc := v.svc, regs := v.regs, chans := v.chans, trees := v.trees }) ∧
  (∀ (s u : State) (p : HostPkt) (c : Cmd) (at_ : Nat), Starts s 0x0B02 p c u → c.clean [mask 35 22] →
    (c.w 0).bits 26 23 ≤ 8 → treeStart c.at_ (c.w 1).toNat (c.w 2).toNat (2 * ticksMs) = Except.ok at_ →
    let t := (c.w 0).bits 35 30
    let w := (c.w 0).bits 29 27
    (u.dsState (8 * t + w) ≠ dsLit →
      ∃ v, exec (.treeReflect p) s = .next v ∧ Answered u v c eState 0 0 [] ∧ v = { u with svc := v.svc }) ∧
    (u.dsState (8 * t + w) = dsLit →
      ∃ v, exec (.treeReflect p) s = .next v ∧ v.rd TREE_OTDR_STAT_STATE t = otPending ∧ v.rd TREE_OTDR_STAT_W t = w ∧
        v.rd TREE_OTDR_STAT_AVG t = (c.w 0).bits 26 23 ∧ v.rd TREE_OTDR_STAT_SHOTS t = 0 ∧ v.rd TREE_OTDR_STAT_APPLIED t = 0 ∧
        (v.tree t).otdr = some ⟨w, (c.w 0).bits 26 23, (c.w 0).bit 22, at_ / ticksFr, c.tag, 0, 0, []⟩ ∧
        (∀ k, k ≠ t → v.tree k = u.tree k) ∧ v = { u with regs := v.regs, trees := v.trees })) ∧
  (∀ (s u : State) (p : HostPkt) (c : Cmd), Starts s 0x0B03 p c u → c.clean [mask 35 14, mask 12 0] →
    let t := (c.w 0).bits 35 30
    let m := (c.w 0).bits 29 22
    (c.w 0).bits 21 14 ≠ 0 → 16 ≤ (c.w 1).bits 12 0 → u.imgRuns t = true → m ≠ 0 →
    (∃ w, w < 8 ∧ m.testBit w = true ∧ u.dsState (8 * t + w) = dsLit) →
    ∃ v, exec (.treeDiscover p) s = .next v ∧
      (v.tree t).disc = some ⟨c.tag, m, (c.w 0).bits 21 14, (c.w 1).bits 12 0,
        max (ceilDiv (u.now + 2 * ticksMs) ticksFr) ((u.tree t).lastN + 1), []⟩ ∧
      (∀ k, k ≠ t → v.tree k = u.tree k) ∧ v = { u with trees := v.trees, chans := v.chans }) ∧
  (∀ (s u : State) (p : HostPkt) (c : Cmd), Starts s 0x0B04 p c u →
    c.clean ([mask 35 20, mask 31 0, mask 31 0] ++ List.replicate 4 (mask 35 3)) →
    let t := (c.w 0).bits 35 30
    let serial := (c.w 1).bits 31 0 * 2 ^ 32 + (c.w 2).bits 31 0
    let fix := (List.range 4).map fun j => (c.w (3 + j)).bits 14 3
    u.imgRuns t = true → (c.page = 0 ∨ (c.w 0).bits 29 24 = c.page) → (c.w 0).bits 23 20 % 2 = 1 →
    (∀ j, j < 4 → 64 ≤ (c.w (3 + j)).bits 35 15 ∧ (c.w (3 + j)).bits 35 15 ≤ 1048576 ∧ (c.w (3 + j)).bits 14 3 ≤ 2732) →
    ((u.tree t).found.find? (fun e => e.serial = serial) = none →
      ∃ v, exec (.treeActivate p) s = .next v ∧ Answered u v c eState 0 0 [] ∧ v = { u with svc := v.svc }) ∧
    (∀ e n, (u.tree t).found.find? (fun e => e.serial = serial) = some e →
      u.fixedUnits t e.slot + (fix.map (grantUnits (u.preU t))).sum ≤ 200000 → (u.tree t).act = none → n < 256 →
      (u.tst (256 * t + n)).1 = tFree → (∀ k, k < n → (u.tst (256 * t + k)).1 ≠ tFree) →
      let x := (u.setTst t n tAssigned e.slot ((c.w 0).bits 29 24) 0).setTrm t n
        (some { serial := serial, eqd := eqdBase - e.rtt + 8 * u.rd TREE_RNG2_RNG_SLACK t, fix := fix,
                q := (List.range 4).map fun j => (c.w (3 + j)).bits 35 15, cap := e.cap })
      let y := if (x.tree t).rogues.contains serial then x.tell t n 0x08 [] else x
      exec (.treeActivate p) s = .next ((y.setTree t { y.tree t with
        rogues := (y.tree t).rogues.filter (· ≠ serial)
        act := some ⟨c.tag, n, (c.w 0).bits 23 20, e, 0, 0, 0⟩
        allocs := newAllocs n (y.tree t).lastN (y.tree t).allocs }).sendAct t))) ∧
  (∀ (s u : State) (p : HostPkt) (c : Cmd), Starts s 0x0B05 p c u → c.clean [mask 35 22, 0] →
    let t := (c.w 0).bits 35 30
    let n := (c.w 0).bits 29 22
    u.imgRuns t = true → (c.page = 0 ∨ (u.tst (256 * t + n)).2.2.1 = c.page) →
    ((u.tst (256 * t + n)).1 = tFree →
      ∃ v, exec (.treeDeactivate p) s = .next v ∧ Answered u v c eState 0 0 [] ∧ v = { u with svc := v.svc }) ∧
    ((u.tst (256 * t + n)).1 ≠ tFree →
      ∃ v, exec (.treeDeactivate p) s = .next v ∧ (v.tree t).deact = some (c.tag, n, 3) ∧
        v.tree t = { u.tree t with deact := (v.tree t).deact, trms := (v.tree t).trms } ∧
        (∀ k, k ≠ t → v.tree k = u.tree k) ∧
        (v.core t).slots = (u.core t).slots.filter (fun e => e.2.w0 ≠ tstStore t n) ∧
        (∀ k, k ≠ t → v.core k = u.core k) ∧ v = { u with trees := v.trees, cores := v.cores })) ∧
  (∀ (s u : State) (p : HostPkt) (c : Cmd), Starts s 0x0C01 p c u → c.clean [mask 26 8, mask 35 0, mask 35 0, mask 17 0] →
    let j := u.judgeInj (c.w 0).toNat (c.w 1).toNat (c.w 2).toNat (c.w 3).toNat (.cmd c.tag) u.now
    (∀ m i, j = .ok (m, i) →
      ∃ v, exec (.monInject p) s = .next v ∧ (v.mon m).inj = (u.mon m).inj ++ [i] ∧ (∀ k, k ≠ m → v.mon k = u.mon k) ∧
        v = { u with mons := v.mons }) ∧
    (∀ st k, j = .error (st, k) → k ≠ 6 →
      ∃ v, exec (.monInject p) s = .next v ∧ v = { u with svc := v.svc } ∧
        Answered u v c (if st = gDesc then if k = 2 then eReserved else eRange else if st = gAddr then eState
          else if st = gFull then eBusy else eLate) 0 0 []) ∧
    (∀ st, j = .error (st, 6) →
      ∃ v, exec (.monInject p) s = .next v ∧ Answered u v c eLate 0 0 [] ∧ Events u { v with svc := u.svc } ∧
        MON_INJ_CONFLICT.counted u v ((c.w 0).bits 26 22) 1)) ∧
  (∀ (s u : State) (p : HostPkt) (c : Cmd), Starts s 0x0C02 p c u → c.clean [mask 35 4, 1] →
    let m := (c.w 0).bits 35 31
    m < 18 → (c.w 0).bits 23 4 ≤ 1000000 → u.monState m ≠ mOff →
    ((c.w 1).bit 0 = true ∨ ∀ i, i < 64 → seqEntryOk m (c.w (2 + i)) = true) →
    ∃ v t : State, exec (.monSeq p) s = .next t ∧ Answered (v.wroteSeqCtl m false) t c eOk 0 0 [] ∧
      t = { v.wroteSeqCtl m false with svc := t.svc } ∧ v = { u with regs := v.regs } ∧
      (∀ i, i < 64 → v.reg (MON_SEQ_EN.addr m i 0) =
        if (c.w 1).bit 0 then u.reg (MON_SEQ_EN.addr m i 0) else c.w (2 + i)) ∧
      v.rd MON_SEQ_CTL_EN m = (c.w 0).bits 30 30 ∧ v.rd MON_SEQ_CTL_LAST m = (c.w 0).bits 29 24 ∧
      v.rd MON_SEQ_CTL_PERIOD m = (c.w 0).bits 23 4) ∧
  (∀ (s u : State) (p : HostPkt) (c : Cmd), Starts s 0x0D01 p c u → c.clean [mask 35 26, 0] →
    let a := (c.w 0).bits 35 31
    let b := (c.w 0).bits 30 26
    a ≤ b → b ≤ 17 →
    (∀ m, a ≤ m → m ≤ b → u.monState m = mOff → (∀ k, a ≤ k → k < m → u.monState k ≠ mOff) →
      ∃ v, exec (.calStart p) s = .next v ∧ Answered u v c eState m 0 [] ∧ v = { u with svc := v.svc }) ∧
    ((∀ m, a ≤ m → m ≤ b → u.monState m ≠ mOff) →
      ∃ v, exec (.calStart p) s = .next v ∧
        v.calCmds = (c.tag, (List.range 18).filter (fun m => decide (a ≤ m) && decide (m ≤ b)), 0) :: u.calCmds ∧
        (∀ m, a ≤ m → m ≤ b → (v.mon m).joined = (u.mon m).joined ++ [.cmd c.tag] ∧
          ((u.mon m).cal = .none → (v.mon m).cal = .pending u.now false ∧ v.rd MON_STAT_CALPEND m = 1)) ∧
        (∀ m, ¬(a ≤ m ∧ m ≤ b) → v.mon m = u.mon m) ∧ v = { u with regs := v.regs, mons := v.mons, calCmds := v.calCmds }))

/-- A command that starts with no reserved bit set: FWD.BIND of a record that is well formed, in range, of the
command's page and not bound yet writes the four words of the record, with an ALLOC endpoint the policer and
allocation words, and an entry for each of its keys, and completes with the service number; a record in use, a key or
an allocation already bound, a full bucket and a FREE terminal are E_STATE with reasons 1 to 5; FWD.UNBIND clears the
record's VALID, its key entries and its allocation; QUE.SET OP 0 stores the configuration of a queue of the page, OP 1
the shaper's two words after its tokens are brought up to date, OP 2 for page 0 only the page's limit, and OP 3
completes with the samples of N queues as they were at its intake; a queue of another page is E_PAGE.
Forms that complete here: fwdBind, fwdUnbind, queSetQueue, queSetShaper, queSetPageLimit, queSetSample. -/
def Obligations.ForwardingCommandsComplete : Prop :=
  (∀ (s u : State) (p : HostPkt) (c : Cmd), Starts s 0x0F01 p c u →
    c.clean [mask 35 19, mask 35 34 + mask 23 0, mask 35 34 + mask 23 0, mask 35 4, mask 16 0, mask 35 0] →
    let x := serviceOf ((c.w 4).bits 16 0) (c.w 0) (c.w 1) (c.w 2) (c.w 3)
    bindReserved x ((c.w 0).bit 35) (c.w 5) = none → bindRange x = false →
    (c.page = 0 ∨ x.page = c.page) → (x.aKind = 0 → (u.tst (x.aIndex / 4)).2.2.1 = x.page) →
    (x.aKind = 2 → u.rd PORT_CTL_OWNER x.aIndex = x.page ∨ u.rd PORT_CTL_OWNER x.aIndex = 0) →
    (x.bKind = 2 → u.rd PORT_CTL_OWNER x.bIndex = x.page ∨ u.rd PORT_CTL_OWNER x.bIndex = 0) →
    (∀ r, u.bindState x = some r →
      ∃ t, exec (.fwdBind p) s = .next t ∧ Answered u t c eState 0 r [] ∧ t = { u with svc := t.svc }) ∧
    (u.bindState x = none →
      ∃ t, exec (.fwdBind p) s = .next t ∧ Answered u t c eOk 0 x.num [] ∧
        (∀ i, i < 4 → t.reg (svcAddr x.num + i) = c.w i) ∧
        (x.aKind = 0 → t.reg (allocAddr x.aIndex) = word (2 ^ 35 + x.num) ∧ t.reg (allocAddr x.aIndex + 1) = c.w 5) ∧
        (∀ k ∈ x.keys, ∃ e, t.keyEntry k = some e ∧ t.reg (keyAddr e + 1) = word x.num) ∧
        t = { u with svc := t.svc, regs := t.regs, tblRaw := t.tblRaw, traf := t.traf })) ∧
  (∀ (s u : State) (p : HostPkt) (c : Cmd), Starts s 0x0F02 p c u → c.clean [mask 16 0, 0] →
    let n := (c.w 0).bits 16 0
    let w := fun i => u.reg (svcAddr n + i)
    let x := serviceOf n (w 0) (w 1) (w 2) (w 3)
    ((w 0).bit 35 = false →
      ∃ t, exec (.fwdUnbind p) s = .next t ∧ Answered u t c eState 0 0 [] ∧ t = { u with svc := t.svc }) ∧
    ((w 0).bit 35 = true → c.page ≠ 0 → x.page ≠ c.page →
      ∃ t, exec (.fwdUnbind p) s = .next t ∧ Answered u t c ePage 0 0 [] ∧ t = { u with svc := t.svc }) ∧
    ((w 0).bit 35 = true → (c.page = 0 ∨ x.page = c.page) →
      ∃ t, exec (.fwdUnbind p) s = .next t ∧ Answered u t c eOk 0 0 [] ∧ (t.reg (svcAddr n)).bit 35 = false ∧
        (∀ i, 1 ≤ i → i < 4 → t.reg (svcAddr n + i) = w i) ∧
        (x.aKind = 0 → (t.reg (allocAddr x.aIndex)).bit 35 = false) ∧
        (∀ k ∈ x.keys, ∀ e, u.keyEntry k = some e → (t.reg (keyAddr e)).bit 35 = false) ∧
        t = { u with svc := t.svc, regs := t.regs, tblRaw := t.tblRaw })) ∧
  (∀ (s u : State) (p : HostPkt) (c : Cmd) (q : Nat), Starts s 0x0F03 p c u → (c.w 0).bits 35 33 = 0 →
    c.clean [mask 35 31 + mask 16 0, mask 35 0, 0] → (c.w 0).bits 32 31 ≠ 3 →
    queueOf ((c.w 0).bits 32 31) ((c.w 0).bits 16 0) = some q → 1 ≤ (c.w 1).bits 35 21 → (c.w 1).bits 35 21 ≤ 16384 →
    (c.page ≠ 0 → c.page ≠ u.queuePage q →
      ∃ t, exec (.queSetQueue p) s = .next t ∧ Answered u t c ePage 0 0 [] ∧ t = { u with svc := t.svc }) ∧
    ((c.page = 0 ∨ c.page = u.queuePage q) →
      ∃ t, exec (.queSetQueue p) s = .next t ∧ Answered u t c eOk 0 0 [] ∧ t.reg (queAddr q) = c.w 1 ∧
        (∀ a, a ≠ queAddr q → t.reg a = u.reg a) ∧ t = { u with svc := t.svc, regs := t.regs, tblRaw := t.tblRaw })) ∧
  (∀ (s u : State) (p : HostPkt) (c : Cmd), Starts s 0x0F03 p c u → (c.w 0).bits 35 33 = 1 →
    c.clean [mask 35 33 + mask 30 15, mask 35 13, mask 35 3] →
    let e := (c.w 0).bits 30 21
    let g := (c.w 0).bits 20 15
    let a := 0o442200000 + 4 * ringKey e g
    1 ≤ (c.w 1).bits 34 13 → (c.w 1).bits 34 13 ≤ 3200000 → (c.w 2).bits 35 18 ≠ 0 → 1 ≤ (c.w 2).bits 17 3 →
    (c.w 2).bits 17 3 ≤ 16384 →
    (532 ≤ e → ∃ t, exec (.queSetShaper p) s = .next t ∧ Answered u t c eRange 0 0 [] ∧ t = { u with svc := t.svc }) ∧
    (e < 532 → (c.page = 0 ∨ c.page = g) →
      ∃ t, exec (.queSetShaper p) s = .next t ∧ Answered u t c eOk 0 0 [] ∧ t.reg a = c.w 1 ∧ t.reg (a + 1) = c.w 2 ∧
        t.traf = (u.takeTokens e g 0).traf ∧ (∀ b, b ≠ a → b ≠ a + 1 → t.reg b = u.reg b) ∧
        t = { u with svc := t.svc, regs := t.regs, tblRaw := t.tblRaw, traf := t.traf })) ∧
  (∀ (s u : State) (p : HostPkt) (c : Cmd), Starts s 0x0F03 p c u → (c.w 0).bits 35 33 = 2 →
    c.clean [mask 35 33 + mask 20 15, mask 29 0, 0] →
    (c.page ≠ 0 → ∃ t, exec (.queSetPageLimit p) s = .next t ∧ Answered u t c ePage 0 0 [] ∧ t = { u with svc := t.svc }) ∧
    (c.page = 0 →
      ∃ t, exec (.queSetPageLimit p) s = .next t ∧ Answered u t c eOk 0 0 [] ∧
        t.reg (0o443000000 + 4 * (c.w 0).bits 20 15) = c.w 1 ∧
        (∀ a, a ≠ 0o443000000 + 4 * (c.w 0).bits 20 15 → t.reg a = u.reg a) ∧
        t = { u with svc := t.svc, regs := t.regs, tblRaw := t.tblRaw })) ∧
  (∀ (s u : State) (p : HostPkt) (c : Cmd) (q r n : Nat), Starts s 0x0F03 p c u → (c.w 0).bits 35 33 = 3 →
    c.clean [mask 35 31 + mask 16 0, mask 8 0, 0] → (c.w 0).bits 32 31 ≠ 3 → (c.w 1).bits 8 0 = n → 1 ≤ n → n ≤ 256 →
    queueOf ((c.w 0).bits 32 31) ((c.w 0).bits 16 0) = some q →
    queueOf ((c.w 0).bits 32 31) ((c.w 0).bits 16 0 + n - 1) = some r →
    (c.page = 0 ∨ ∀ i, i < n → c.page = u.queuePage (q + i)) → c.taken = s.samplesFor 0x0F03 p.words →
    ∃ t, exec (.queSetSample p) s = .next t ∧ t = { u with svc := t.svc } ∧
      Answered u t c eOk 0 n (cleanWords (((List.range n).map (q + ·)).flatMap s.sampleWords)))

/-- With mains present and no dying sequence: at the end of a mains cycle within limits V_rms, V_low (the lowest
of the last second), frequency, input power, the budget min(1260, CAP, 0.7 V_low), LOWLINE below 180 V with its event
while armed, and ILIM follow; a cycle out of limits declares mains fail; a load measurement sets P_DC, is counted
while ILIM, and when the headroom is not negative clears SHORT and the waits, while a shortfall sheds the domains of
the list up to the shortfall; 50 ms after shed domains are OFF the measurement is made again; the bus back at 370 V
ends the fast-shed episode with PWR_FASTSHED and the count, below 360 V the first domain of the list is shed; a die
above TMAX for 1 s sheds the first domain with PWR_OVERTEMP; the domain shed last is restored once the headroom
condition has held; the cell's voltage is shown, and below 2.6 V sets CELL_LOW and raises its event.
Forms that complete here: mainsCycleEnd, loadMeasure, shedSettleEnd, fastShed, overtempShed, domainRestore,
cellMeasure. -/
def Obligations.SupplyEventsComplete : Prop :=
  (∀ (s : State) (vrms freq pIn : Nat) (limiting : Bool), s.pwr.dying = none → s.rdb PWR_STAT_MAINS_OK = true →
    freq < 4096 → pIn < 4096 →
    let keep := (s.pwr.cycles ++ [(s.now, vrms)]).filter fun c => s.now < c.1 + ticksSec
    let low := ({ s with pwr := { s.pwr with cycles := keep } } : State).vLow
    ((vrms < 750 ∨ 2750 < vrms) → vrms < 4096 → low < 4096 →
      ∃ v : State, exec (.mainsCycleEnd vrms freq pIn limiting) s = .next v.mainsFail ∧ v.rd PWR_MAINS_VRMS = vrms ∧
        v.rd PWR_MAINS_VLOW = low ∧ v.rd PWR_MAINS_FREQ = freq ∧
        v = { s with regs := v.regs, cnt := v.cnt, tblRaw := v.tblRaw, evt := v.evt, pwr := v.pwr }) ∧
    (750 ≤ vrms → vrms ≤ 2750 →
    ∃ t, exec (.mainsCycleEnd vrms freq pIn limiting) s = .next t ∧ t.rd PWR_MAINS_VRMS = vrms ∧ t.rd PWR_MAINS_VLOW = low ∧
      t.rd PWR_MAINS_FREQ = freq ∧ t.rd PWR_LOAD_P_IN = pIn ∧
      t.rd PWR_LOAD_BUDGET = min (min 1260 (s.rd PWR_CTL_CAP)) (7 * low / 10) ∧
      t.rdb PWR_STAT_LOWLINE = decide (low < 1800) ∧ t.rdb PWR_STAT_ILIM = (limiting && decide (vrms < 1800)) ∧
      t.pwr.cycles = keep ∧
      (low < 1800 → s.pwr.lowArmed = true → PWR_LOWLINE.raised s t 0 [low] ∧ t.pwr.lowArmed = false) ∧
      (1850 ≤ low → t.pwr.lowArmed = true) ∧
      t = { s with regs := t.regs, cnt := t.cnt, tblRaw := t.tblRaw, evt := t.evt, pwr := t.pwr })) ∧
  (∀ (s : State) (pdc : Nat), s.pwr.dying = none → s.rdb PWR_STAT_MAINS_OK = true → pdc < 4096 →
    s.pwr.shedWait = [] → s.pwr.settle = none →
    let head : Int := s.rd PWR_LOAD_BUDGET - s.rd PWR_CTL_MARGIN - (pdc : Int)
    (0 ≤ head →
      ∃ t, exec (.loadMeasure pdc) s = .next t ∧ t.rd PWR_LOAD_P_DC = pdc ∧ t.rd PWR_STAT_SHORT = 0 ∧
        (s.rdb PWR_STAT_ILIM = true → PWR_ILIM_MS.counted s t 0 1) ∧
        t = { s with regs := t.regs, cnt := t.cnt, tblRaw := t.tblRaw, evt := t.evt, pwr := t.pwr }) ∧
    (head < 0 → s.rdb PWR_STAT_ILIM = false →
      let v := (s.wr PWR_LOAD_P_DC pdc).wr PWR_STAT_SHORT 1
      let l := v.headFor (-2 * head) v.shedList
      exec (.loadMeasure pdc) s = .next
        (l.foldl State.shed
          { v with pwr := { v.pwr with shedWait := l, settle := if l = [] then some v.now else none } }).noteHead)) ∧
  (∀ (s : State) (pdc k : Nat), s.up = true → s.pwr.dying = none → s.pwr.settle = some k → k + 50 * ticksMs ≤ s.now → pdc < 4096 →
    0 ≤ (s.rd PWR_LOAD_BUDGET - s.rd PWR_CTL_MARGIN - (pdc : Int) : Int) →
    ∃ t, exec (.shedSettleEnd pdc) s = .next t ∧ t.rd PWR_LOAD_P_DC = pdc ∧ t.rd PWR_STAT_SHORT = 0 ∧ t.pwr.settle = none ∧
      t.pwr.shedWait = [] ∧ t = { s with regs := t.regs, pwr := t.pwr }) ∧
  (∀ (s : State), s.rdb PWR_STAT_MAINS_OK = true → s.pwr.dying = none →
    (∀ k a, s.pwr.fast = some (k, a) →
      (∃ t, exec (.fastShed true) s = .next t ∧ t.pwr = { s.pwr with fast := none } ∧ PWR_FASTSHED.raised s t 0 [k] ∧ Events s { t with pwr := s.pwr }) ∧
      (∀ d l, a + ticksMs ≤ s.now → s.shedList = d :: l →
        exec (.fastShed false) s = .next { s.shed d with pwr := { (s.shed d).pwr with fast := some (k + 1, s.now) } }) ∧
      ((s.now < a + ticksMs ∨ s.shedList = []) → exec (.fastShed false) s = .next s)) ∧
    (s.pwr.fast = none → exec (.fastShed true) s = .next s ∧
      (s.shedList = [] → exec (.fastShed false) s = .next { s with pwr := { s.pwr with fast := some (0, s.now) } }) ∧
      (∀ d l, s.shedList = d :: l →
        exec (.fastShed false) s = .next { s.shed d with pwr := { (s.shed d).pwr with fast := some (1, s.now) } }))) ∧
  (∀ (s : State) (temp : Int) (d : Nat) (l : List Nat), s.up = true → s.pwr.dying = none →
    (∀ k, s.pwr.tempShed = some k → k + 60 * ticksSec ≤ s.now) → 2 * (s.rd PWR_CTL_TMAX : Int) < temp → s.shedList = d :: l →
    let v := s.shed d
    ∃ t, exec (.overtempShed temp) s = .next t ∧ PWR_OVERTEMP.raised v t d [temp] ∧
      t.pwr = { v.pwr with tempShed := some v.now, tempShedDoms := v.pwr.tempShedDoms ++ [d] } ∧ Events v { t with pwr := v.pwr }) ∧
  (∀ (s : State) (cool : Bool) (d h : Nat), s.up = true → s.pwr.dying = none → s.mayRestore = some d → s.pwr.headSince = some h →
    (match s.pwr.lastRestore with | some r => r + ticksSec ≤ s.now | none => h + 10 * ticksSec ≤ s.now) →
    (s.pwr.tempShedDoms.contains d = true → cool = true) →
    ∃ v w : State, Events s { v with pwr := s.pwr } ∧ PWR_RESTORE.raised s v d s.loadArgs ∧
      v.pwr = { s.pwr with lastRestore := some s.now } ∧
      w = (if (v.unshed d).pwr.shedOrder.isEmpty then (v.unshed d).logPwr PWR_RESTORE ((v.unshed d).rd PWR_LOAD_P_DC)
        else v.unshed d) ∧
      exec (.domainRestore cool) s = .next (w.requestRise d).noteHead) ∧
  (∀ (s : State) (mv : Nat), s.pwr.dying = none → s.rdb PWR_STAT_MAINS_OK = true →
    ∃ t, exec (.cellMeasure mv) s = .next t ∧ t.rd PWR_CELL_V = min mv 4095 ∧ t.rdb PWR_STAT_CELL_LOW = decide (mv < 2600) ∧
      (mv < 2600 → PWR_CELL_LOW.raised s t 0 [mv]) ∧
      t = { s with regs := t.regs, cnt := t.cnt, tblRaw := t.tblRaw, evt := t.evt })

/-- A RISING domain is powered up, in the supervisor's case with what follows a mains return, and the next of its rise and the
command that waits for it go on; an instance that fails its CAST there sets ERROR with ECODE 11, or is noted for the
tests of a power-up that have not ended; a domain that PWR.DOMAIN resets is stopped and restarted once
its light is down, leaves reset after 10 us and completes the command; a FALLING domain becomes OFF; a faulty ON domain is marked SHED with PWR_DOMAIN_FAULT
and turned off, a cluster's trees before it; mains fail clears MAINS_OK and INTAKE, ends every command, raises PWR_MAINS_FAIL and darkens lines and
channels; BACKUP is entered once the lines are dark or after 8 ms; mains return within limits makes the power-on
reset; a backup loss wipes the key store; HRST_N holds the host reset and its release lets the S-core boot; an expired
watchdog raises its event, is disabled and resets; the drain of PWR.RESET aborts what waits, answers once the completions
before its own have been sent, and resets once its own is out or 100 ms have passed.
Forms that complete here: pwrResetDrainEnd, mainsFail, backupEntry, mainsReturn, domainOn, domainOff, domainFault,
backupLoss, hostResetPin, wdogExpire, hrstNRelease. -/
def Obligations.PowerStateEventsComplete : Prop :=
  (∀ (s : State) (d : Fin 80) (fails : BitVec 4) (cast : Bool), s.dom d = domRising →
    exec (.domainOn d fails cast) s = .next
      ((if d.val = 78 then s.supervisorUp fails cast else s.powerUp d fails cast).startRise).progress) ∧
  (∀ (s : State) (fails : Bool),
    (fails = false → s.instanceCast fails = s) ∧
    (fails = true → s.edw.tested = false → s.instanceCast fails = { s with edw := { s.edw with castFail := true } }) ∧
    (fails = true → s.edw.tested = true → s.rdb EDW_STAT_ERROR = false →
      (s.instanceCast fails).rd EDW_STAT_ERROR = 1 ∧ (s.instanceCast fails).rd EDW_STAT_ECODE = 11 ∧
        (s.instanceCast fails).rd EDW_STAT_APPROVED = 0 ∧ EDW_SELFTEST_FAIL.raised s (s.instanceCast fails) 0 [])) ∧
  (∀ (s : State) (d : Fin 80) (fails : BitVec 4) (cast : Bool) (k t tag : Nat), s.dom d ≠ domRising →
    (s.pwr.resetting.find? fun r => r.1 = d.val) = some (k, t, tag) → t ≠ 0 → t ≤ s.now →
    let v : State := { s with pwr := { s.pwr with resetting := s.pwr.resetting.filter fun r => r.1 ≠ d.val } }
    exec (.domainOn d fails cast) s = .next (((domainCore d).elim v v.imageLoads).complete tag eOk)) ∧
  (∀ (s : State) (d : Fin 80) (fails : BitVec 4) (cast : Bool) (k tag : Nat), s.dom d ≠ domRising →
    (s.pwr.resetting.find? fun r => r.1 = d.val) = some (k, 0, tag) →
    (s.ramping d = true → exec (.domainOn d fails cast) s = .next s) ∧
    (s.ramping d = false → exec (.domainOn d fails cast) s = .next { (s.stopDomain d none).startDomain d with
      pwr := { s.pwr with
        resetting := (s.pwr.resetting.filter fun r => r.1 ≠ d.val) ++ [(d.val, s.now + 10 * ticksUs, tag)] } })) ∧
  (∀ (s : State) (d : Fin 80), s.dom d = domFalling →
    exec (.domainOff d) s = .next ((((s.powerOff d).shedGone d).resetGoesOn).startRise).progress ∧ (s.powerOff d).dom d = domOff) ∧
  (∀ (s : State) (d : Fin 80), (d.val < 64 ∨ 72 ≤ d.val ∧ d.val < 77) → s.dom d = domOnSt → s.up = true → s.pwr.dying = none →
    let v := s.markShed d (some (PWR_DOMAIN_FAULT, []))
    exec (.domainFault d) s = .next (v.turnOff d) ∧ v.rd PWR_DOM_SHED 0 d = 1 ∧ PWR_DOMAIN_FAULT.raised s v d [] ∧
      d.val ∈ v.pwr.shedOrder) ∧
  (∀ (s : State) (d : Fin 80), 64 ≤ d.val → d.val < 72 → s.dom d ≠ domOff → s.dom d ≠ domFalling → s.up = true →
    s.pwr.dying = none →
    let u := (((List.range 8).map (8 * (d.val - 64) + ·)).filter fun t => s.dom t = domOnSt).foldl
      (fun (x : State) t => (x.markShed t none).turnOff t) s
    let v := u.markShed d (some (PWR_DOMAIN_FAULT, []))
    exec (.domainFault d) s = .next (v.turnOff d) ∧ v.rd PWR_DOM_SHED 0 d = 1 ∧ PWR_DOMAIN_FAULT.raised u v d [] ∧
      d.val ∈ v.pwr.shedOrder) ∧
  (∀ s : State, s.pwr.dying = none → s.rdb PWR_STAT_MAINS_OK = true →
    ∃ v : State, exec .mainsFail s = .next
        ((List.range 512).foldl (fun (x : State) c => if dsWarm ≤ x.dsState c then x.chDark c else x) v.shutLines) ∧
      v.rd PWR_STAT_MAINS_OK = 0 ∧ v.rd SVC_STAT_INTAKE = 0 ∧ (∀ k, v.cmdAt k = none) ∧ v.pwr.dying = some s.now ∧
      v.pwr.rise = [] ∧ v.pwr.modeCmd = none ∧ v.img.store = none ∧
      (s.up = true → PWR_MAINS_FAIL.raised s v 0 [s.rd PWR_MAINS_VRMS]) ∧
      v = { s with regs := v.regs, cnt := v.cnt, tblRaw := v.tblRaw, evt := v.evt, svc := v.svc, pwr := v.pwr, img := v.img }) ∧
  (∀ (s : State) (k : Nat), s.pwr.dying = some k → (s.linesRamp = false ∨ k + 8 * ticksMs ≤ s.now) →
    ∃ t, exec .backupEntry s = .next t ∧ t.mode = modeBackup ∧ t.pwr.dying = none ∧ (∀ i, t.cmdAt i = none)) ∧
  (∀ (s : State) (k : Nat), s.pwr.dying = some k → s.linesRamp = true → s.now < k + 8 * ticksMs → exec .backupEntry s = .next s) ∧
  (∀ (s : State) (vrms freq : Nat), s.rdb PWR_STAT_MAINS_OK = false → s.pwr.dying = none → s.up = false →
    (800 ≤ vrms ∧ vrms ≤ 2700 ∧ 2250 ≤ freq ∧ freq ≤ 3250 → exec (.mainsReturn vrms freq) s = .next (s.powerOnReset vrms freq)) ∧
    (¬(800 ≤ vrms ∧ vrms ≤ 2700 ∧ 2250 ≤ freq ∧ freq ≤ 3250) → exec (.mainsReturn vrms freq) s = .next s)) ∧
  (∀ s : State, s.rdb PWR_STAT_MAINS_OK = false → s.up = false →
    ∃ t, exec .backupLoss s = .next t ∧ t.pwr = { s.pwr with lostBackup := true } ∧ t.edw.keys = [] ∧ t.edw.trk = [] ∧
      t.edw.tkey = none ∧ t.rd EDW_STAT_TKEY = 0 ∧ t.rd EDW_STAT_IMGKEY = 0 ∧
      t = { s with regs := t.regs, edw := t.edw, pwr := t.pwr }) ∧
  (∀ s : State, s.up = true → s.pwr.hrst = false → s.pwr.dying = none →
    exec .hostResetPin s = .next ({ s with pwr := { s.pwr with hrst := true } }.warmReset .hostPin)) ∧
  (∀ s : State, s.up = true → s.pwr.hrst = true →
    ∃ t, exec .hrstNRelease s = .next t ∧ t.pwr = { s.pwr with hrst := false } ∧
      t.svc = { s.svc with booting := s.svc.booting || s.pwr.pendReset.isNone } ∧ t = { s with pwr := t.pwr, svc := t.svc }) ∧
  (∀ s : State, s.up = true → s.pwr.dying = none → s.rdb PWR_WDOG_CTL_EN = true → s.pwr.wdogAt + s.rd PWR_WDOG_CTL_T * (ticksSec / 10) ≤ s.now →
    ∃ v : State, exec .wdogExpire s = .next (v.warmReset .watchdog) ∧ PWR_WDOG_EXPIRE.raised s v 0 [1] ∧ v.rd PWR_WDOG_CTL_EN = 0 ∧
      v = { s with regs := v.regs, cnt := v.cnt, tblRaw := v.tblRaw, evt := v.evt }) ∧
  (∀ (s : State) (d : Drain), s.up = true → s.pwr.pendReset = none → s.svc.drain = some d →
    (∀ c, d.closed = none → s.cmdAt d.tag = some c → c.tag = d.tag → c.stage ≠ .done → c.opcode = 0x0603 →
      (∀ x ∈ s.cmds, x.tag = d.tag ∨ x.stage = .done) → (∀ k ∈ d.left, s.cmdAt k = none) →
      ∃ t, exec .pwrResetDrainEnd s = .next t ∧
        Answered { s with svc := { s.svc with drain := some { d with closed := some s.now } } } t c eOk 0 0 [] ∧
        t = { s with svc := t.svc }) ∧
    (d.closed = none → (∃ x ∈ s.cmds, x.tag ≠ d.tag ∧ x.stage = .running) → s.now < d.since + 100 * ticksMs →
      exec .pwrResetDrainEnd s = .next s) ∧
    (d.closed = none →
      ((∀ x ∈ s.cmds, x.tag ≠ d.tag → x.stage ≠ .running) ∨ d.since + 100 * ticksMs ≤ s.now) →
      let v := s.abortCommands (s.cmds.filter fun x => x.tag ≠ d.tag && x.stage ≠ .done)
      (∃ k ∈ d.left, v.cmdAt k ≠ none) →
      exec .pwrResetDrainEnd s = .next { v with svc := { v.svc with drain := some { d with closed := some v.now } } }) ∧
    (∀ k c, d.closed = some k → s.cmdAt d.tag = some c → c.tag = d.tag → c.stage ≠ .done → c.opcode = 0x0603 →
      s.now < k + 100 * ticksMs → (∀ j ∈ d.left, s.cmdAt j = none) →
      ∃ t, exec .pwrResetDrainEnd s = .next t ∧ Answered s t c eOk 0 0 [] ∧ t = { s with svc := t.svc }) ∧
    (∀ k, d.closed = some k → (s.cmdAt d.tag = none ∨ k + 100 * ticksMs ≤ s.now) →
      exec .pwrResetDrainEnd s = .next (s.warmReset .command)))

/-- A load that completes installs its generation and leaves the other one, is counted, completes with 1, and for slot
0 clears the page's counter and lock, sets CKEY, raises the epoch and EDW_CKEY_CHANGE; a recovery is counted and
raised; a switch whose LP has come makes its generation active; self-tests that pass, no instance having failed its CAST, set
APPROVED and clear ERROR, a failing self-test or instance, periodic CAST, entropy test or pairwise test sets ERROR and ECODE, clears APPROVED and raises
EDW_SELFTEST_FAIL; a passing periodic CAST only restarts its period; a reseed is counted; a transport key is drawn
between 1 and n - 1, outside a zeroise; a trip wipes the key store and writes a tamper log record with its sensor, and with
mains begins a zeroise, with intake closed and every command ended, or, where a command's zeroise is under way, leaves that to
the next mains return with ZPEND set, as a trip without mains does; the erasures empty the operator slots and minimum versions and raise ZCOUNT by 1.
Forms that complete here: edwSelftestDone, edwCastPeriodic, entropyHealthFail, drbgReseed, transportKeyGen,
tamperTrip, zeroiseEraseDone, keySwitch, keyLoadComplete. -/
def Obligations.KeyAndTamperEventsComplete : Prop :=
  (∀ (s : State) (tag : Fin 512) (l : KeyLoad) (c : Cmd), (s.edw.loads.find? fun x => x.tag = tag.val) = some l → s.up = true →
    l.page < 64 → s.cmdAt tag = some c → c.tag = tag → c.stage ≠ .done →
    let a := match c.auth with
      | some (ctr, []) => if l.slot = 0 then some (ctr, l.key) else c.auth
      | x => x
    ∃ t k, exec (.keyLoadComplete tag) s = .next t ∧ Answered s t { c with auth := a } eOk 0 1 [] ∧ t.keyOf l.ref = some k ∧
      k.gen l.gen = some ⟨l.key, l.saltA, l.saltB, 0, false, false, 0, []⟩ ∧ k.use = l.use ∧
      k.gen (!l.gen) = ((s.keyOf l.ref).bind fun o => o.gen (!l.gen)) ∧ EDW_KEY_LOADED.counted s t l.page 1 ∧
      (∀ x ∈ t.edw.loads, x.tag ≠ tag.val) ∧
      (l.slot = 0 → t.lastCounter l.page = 0 ∧ t.rd EDW_PG_STAT_LOCKED l.page = 0 ∧ t.rd EDW_PG_STAT_CKEY l.page = 1 ∧
        t.rd EDW_PG_STAT_EPOCH l.page = (s.rd EDW_PG_STAT_EPOCH l.page + 1) % 2 ^ 16 ∧
        EDW_CKEY_CHANGE.raised s t l.page [l.page, t.rd EDW_PG_STAT_EPOCH l.page]) ∧
      (l.slot = 1 → t.rd EDW_STAT_IMGKEY = 1) ∧
      (l.recover = true → t.rd EDW_RECOV_CNT = (s.rd EDW_RECOV_CNT + 1) % 2 ^ 32 ∧ EDW_RECOVER.raised s t 0 []) ∧
      t = { s with svc := t.svc, edw := t.edw, regs := t.regs, cnt := t.cnt, tblRaw := t.tblRaw, evt := t.evt }) ∧
  (∀ (s : State) (terminal : Bool) (index : Nat) (k : KeySlot) (g : Bool) (a : Nat),
    let r : KeyRef := if terminal then .term index else .slot 0 (16 + index % 4)
    s.up = true → s.keyOf r = some k → k.pend = some (g, a) →
    (a ≤ s.now → ∃ t, exec (.keySwitch terminal index) s = .next t ∧ t.keyOf r = some { k with act := g, pend := none } ∧
      (∀ q, q ≠ r → (∀ p n, q = .slot p n → n < 256) → t.keyOf q = s.keyOf q) ∧ t = { s with edw := t.edw }) ∧
    (s.now < a → exec (.keySwitch terminal index) s = .next s)) ∧
  (∀ (s : State) (code : Fin 12), s.domOn 77 = true → s.edw.tested = false → s.pwr.hrst = false →
    (s.edw.castFail = false → ∃ t, exec (.edwSelftestDone none) s = .next t ∧ t.rd EDW_STAT_APPROVED = 1 ∧ t.rd EDW_STAT_ERROR = 0 ∧ t.rd EDW_STAT_ECODE = 0 ∧
      t.edw = { s.edw with tested := true, castAt := s.now, seedAt := s.now } ∧ t = { s with regs := t.regs, edw := t.edw }) ∧
    (s.edw.castFail = true → ∃ t, exec (.edwSelftestDone none) s = .next t ∧ t.rd EDW_STAT_APPROVED = 0 ∧ t.rd EDW_STAT_ERROR = 1 ∧
      t.rd EDW_STAT_ECODE = 11 ∧ t.edw.tested = true ∧ t.edw.castFail = false ∧ EDW_SELFTEST_FAIL.raised s t 0 []) ∧
    (code ≠ 0 → ∃ t, exec (.edwSelftestDone (some code)) s = .next t ∧ t.rd EDW_STAT_APPROVED = 0 ∧ t.rd EDW_STAT_ERROR = 1 ∧
      t.rd EDW_STAT_ECODE = code ∧ t.edw.tested = true ∧ EDW_SELFTEST_FAIL.raised s t 0 [])) ∧
  (∀ (s : State) (code : Fin 12), s.up = true → s.edw.tested = true → s.rdb EDW_STAT_ERROR = false →
    s.edw.castAt + 24 * ticksHour ≤ s.now →
    exec (.edwCastPeriodic none) s = .next { s with edw := { s.edw with castAt := s.now } } ∧
    (code ≠ 0 → ∃ t, exec (.edwCastPeriodic (some code)) s = .next t ∧ t.rd EDW_STAT_ERROR = 1 ∧ t.rd EDW_STAT_ECODE = code ∧
      t.rd EDW_STAT_APPROVED = 0 ∧ EDW_SELFTEST_FAIL.raised s t 0 [])) ∧
  (∀ (s : State) (startup : Bool), s.up = true →
    (startup = true ∧ s.edw.tested = false ∨ startup = false ∧ s.rdb EDW_STAT_ERROR = false) →
    ∃ t, exec (.entropyHealthFail startup) s = .next t ∧ t.rd EDW_STAT_ERROR = 1 ∧ t.rd EDW_STAT_ECODE = (if startup then 8 else 9) ∧
      t.rd EDW_STAT_APPROVED = 0 ∧ EDW_SELFTEST_FAIL.raised s t 0 []) ∧
  (∀ (s : State) (requests : Bool), s.up = true → s.edw.tested = true → s.rdb EDW_STAT_ERROR = false →
    (requests = true ∨ s.edw.seedAt + 600 * ticksSec ≤ s.now) →
    ∃ t, exec (.drbgReseed requests) s = .next t ∧ t.edw = { s.edw with seedAt := s.now } ∧ EDW_DRBG_RESEED.counted s t 0 1 ∧
      Events s { t with edw := s.edw }) ∧
  (∀ s : State, s.up = true → s.edw.tested = true → s.rdb EDW_STAT_ERROR = false → s.edw.tkey = none →
    s.edw.zeroing = none →
    (∃ t x, exec (.transportKeyGen true) s = .next t ∧ t.edw = { s.edw with tkey := some x } ∧ 1 ≤ x ∧ x < n384 ∧ t.rd EDW_STAT_TKEY = 1 ∧
      t = { s with regs := t.regs, edw := t.edw, free := t.free }) ∧
    (∃ t, exec (.transportKeyGen false) s = .next t ∧ t.rd EDW_STAT_ERROR = 1 ∧ t.rd EDW_STAT_ECODE = 10 ∧ t.edw = s.edw ∧
      EDW_SELFTEST_FAIL.raised s t 0 [])) ∧
  (∀ (s : State) (sensor : Fin 5), s.pwr.lostBackup = false →
    let r := if s.rd EDW_TLOG_STAT_TOTAL = 0 then 0 else s.rd EDW_TLOG_STAT_NEXT
    ∃ t, exec (.tamperTrip sensor) s = .next t ∧ t.edw.keys = [] ∧ t.edw.trk = [] ∧ t.edw.tkey = none ∧
      t.rd EDW_TLOG_B_SENSOR 0 r = sensor.val + 1 ∧ t.rd EDW_TLOG_B_VALID 0 r = 1 ∧ t.rd EDW_TLOG_B_MODE 0 r = s.mode ∧
      t.rd EDW_TLOG_STAT_TOTAL = min (s.rd EDW_TLOG_STAT_TOTAL + 1) 65535 ∧ t.rd EDW_STAT_TAMPERED = 1 ∧
      t.edw.zeroing.isSome = true ∧
      (s.rdb PWR_STAT_MAINS_OK = false → t.rd EDW_STAT_ZPEND = 1 ∧ t.edw.trips = s.edw.trips ++ [sensor.val + 1]) ∧
      (s.rdb PWR_STAT_MAINS_OK = true → s.edw.zeroing = none →
        EDW_TAMPER.raised s t 0 [] ∧ t.rd SVC_STAT_INTAKE = 0 ∧ (∀ k, t.cmdAt k = none) ∧ t.edw.zeroing = some true) ∧
      (s.rdb PWR_STAT_MAINS_OK = true → s.edw.zeroing ≠ none → s.edw.zTrip = false →
        EDW_TAMPER.raised s t 0 [] ∧ t.edw.zeroing = some true ∧ t.rd EDW_STAT_ZPEND = 1) ∧
      t = { s with regs := t.regs, edw := t.edw, svc := t.svc, cnt := t.cnt, tblRaw := t.tblRaw, evt := t.evt }) ∧
  (∀ (s : State) (ident : Bool), s.edw.zeroing = some ident → s.rdb PWR_STAT_MAINS_OK = true →
    ∃ v : State, v.img = { s.img with opr := [], minver := [] } ∧ v.rd EDW_ZCOUNT = (s.rd EDW_ZCOUNT + 1) % 2 ^ 32 ∧
      v.rd EDW_STAT_ZPEND = 0 ∧ (ident = true → v.rd EDW_STAT_IDENT = 0) ∧
      v.edw = { s.edw with zeroing := none, zTrip := false, zRaise := true } ∧ v = { s with regs := v.regs, edw := v.edw, img := v.img } ∧
      (s.up = true → s.rdb EDW_STAT_ZPEND = false → exec .zeroiseEraseDone s = .next (v.raiseZeroised.warmReset .zeroise)) ∧
      (s.up = true → s.rdb EDW_STAT_ZPEND = true → exec .zeroiseEraseDone s = .next s) ∧
      (s.up = false → exec .zeroiseEraseDone s = .next v.startRise))

/-- A window whose packet is held for its core opens with the packet's length, another is denied and counted; a memory
instance zeroed is ready; an armed core starts at its LP, a LOADED one with zeroed registers but r1 and r23, at its
entry with REMAP, a HALTED one where it stopped; the S-core boot gives the operator image to the loader when it
passes; an image of a command whose signature verifies, with every target still loadable, has its first target
LOADING, one that does not is rejected and its command completes with the status; a body copied leaves its core LOADED
with the image's registers and the event, and completes the command after the last target; a stored image becomes the
operator image of its kind, with RAISE its version becomes the minimum, and the command completes with the version.
Forms that complete here: memZeroDone, windowOpenResolved, coreStartAtLp, imageVerifyDone, imageCopyDone, scoreBoot,
imgStoreDone. -/
def Obligations.CoreEventsComplete : Prop :=
  (∀ (s : State) (n : Nat) (win : Fin 4), win.val ∈ (s.core n).winPend → s.coreState n ≠ cOff →
    ((∀ i p, s.byHandle (s.rd CORE_WIN_H_HANDLE n win) = some (i, p) → p.held = n + 1 → p.len < 2 ^ 14 →
      ∃ t, exec (.windowOpenResolved n win) s = .next t ∧ t.rd CORE_WIN_H_OPEN n win = 1 ∧ t.rd CORE_WIN_L_LEN n win = p.len ∧
        t.core n = { s.core n with winPend := (s.core n).winPend.filter (· ≠ win.val) } ∧
        t = { s with regs := t.regs, cores := t.cores }) ∧
    ((∀ i p, s.byHandle (s.rd CORE_WIN_H_HANDLE n win) = some (i, p) → p.held ≠ n + 1) →
      ∃ t, exec (.windowOpenResolved n win) s = .next t ∧ t.rd CORE_WIN_H_MODE n win = 0 ∧ t.rd CORE_WIN_H_DENY n win = 1 ∧
        WIN_DENY.counted s t n 1 ∧ t.core n = { s.core n with winPend := (s.core n).winPend.filter (· ≠ win.val) }))) ∧
  (∀ (s : State) (inst : Nat), exec (.memZeroDone inst) s = .next { s with zeroing := s.zeroing.filter (· ≠ inst) }) ∧
  (∀ (s : State) (n k : Nat), (s.core n).armed = some k → k ≤ s.now →
    (s.coreState n = cLoaded →
      ∃ t, exec (.coreStartAtLp n) s = .next t ∧ t.rd CORE_STAT_STATE n = cRunning ∧ t.rd CORE_CTL_REMAP n = 1 ∧
        (t.core n).pc = s.rd CORE_ENTRY n ∧ (t.core n).armed = none ∧ (t.core n).startT = s.now ∧
        (∀ r, r < 32 → (t.core n).reg r =
          if r = 1 then ⟨word n, false⟩ else if r = 23 then ⟨word (localSize n), false⟩ else PWord.zero) ∧
        (t.core n).nf = false ∧ (t.core n).zf = false ∧ (t.core n).cf = false ∧ (t.core n).vf = false ∧ (t.core n).fp = false ∧ (∀ m, m ≠ n → t.core m = s.core m) ∧
        t = { s with regs := t.regs, cores := t.cores }) ∧
    (s.coreState n = cHalted →
      ∃ t, exec (.coreStartAtLp n) s = .next t ∧ t.rd CORE_STAT_STATE n = cRunning ∧
        t.core n = { s.core n with armed := none, wait := none, waitDesc := [], haltReq := false } ∧
        (∀ m, m ≠ n → t.core m = s.core m) ∧ t = { s with regs := t.regs, cores := t.cores })) ∧
  (∀ s : State, s.up = true → s.svc.booting = true → s.edw.tested = true → s.coreState 76 = cEmpty → s.rdb EDW_STAT_ERROR = false →
    s.judgeImage (s.slotImage 1 3) [76] false = none → s.img.load = none →
    exec .scoreBoot s = .next { s with
      svc := { s.svc with booting := false }
      img := { s.img with load := some ⟨s.slotImage 1 3, 1, [76], 0, false, .bootRom, none⟩ } }) ∧
  (∀ (s : State) (l : ImgLoad), s.img.load = some l → l.verified = false → s.up = true →
    s.rdb EDW_STAT_ERROR = false →
    (∀ tag, s.judgeSignature l.image = none → l.by_ = .command tag → l.lost = none → l.loaded < l.targets.length →
      (∀ n ∈ l.targets, s.loadable n = true) →
      ∃ t, exec .imageVerifyDone s = .next t ∧ t.rd CORE_STAT_STATE l.target = cLoading ∧
        t.img = { s.img with load := some { l with verified := true } } ∧
        t.core l.target = { s.core l.target with armed := none } ∧ t = { s with regs := t.regs, cores := t.cores, img := t.img }) ∧
    (∀ st d tag c, s.judgeSignature l.image = some (st, d) → l.by_ = .command tag → s.cmdAt tag = some c → c.tag = tag →
      c.stage ≠ .done → c.opcode = 0x0401 →
      ∃ t, exec .imageVerifyDone s = .next t ∧ Answered s t c st d l.loaded [] ∧ IMG_REJECT.raised s t 0 [st] ∧
        t.rd IMG_LAST_STATUS = st ∧ t.img = { s.img with load := s.img.waiting.head?, waiting := s.img.waiting.tail })) ∧
  (∀ (s : State) (l : ImgLoad) (tag n : Nat) (c : Cmd), s.img.load = some l → l.verified = true → l.target = n →
    n ∉ s.zeroing → s.coreState n = cLoading → l.by_ = .command tag → l.lost = none → l.loaded + 1 = l.targets.length → s.cmdAt tag = some c →
    c.tag = tag → c.stage ≠ .done →
    ∃ t, exec .imageCopyDone s = .next t ∧ t.rd CORE_STAT_STATE n = cLoaded ∧ t.rd CORE_STAT_FAULT n = 0 ∧
      t.rd CORE_ENTRY n = l.image.entry % 2 ^ 30 ∧ t.mem = (s.placeImage n l.image).mem ∧ IMG_LOADED.raised s t 0 [] ∧
      Answered s t c eOk 0 l.targets.length [] ∧ t.img.load = s.img.waiting.head? ∧ t.img.waiting = s.img.waiting.tail) ∧
  (∀ (s : State) (x : ImgStore) (c : Cmd), s.img.store = some x → s.up = true → s.cmdAt x.slot = some c → c.tag = x.slot →
    c.stage ≠ .done → c.opcode = 0x0501 →
    ∃ t, exec .imgStoreDone s = .next t ∧ Answered s t c eOk 0 (x.image.h 2).toNat [] ∧ t.img.store = none ∧
      sget (fun _ => none) t.img.opr x.kind = some x.image ∧
      (∀ k, k ≠ x.kind → sget (fun _ => none) t.img.opr k = sget (fun _ => none) s.img.opr k) ∧
      sget (fun _ => 0) t.img.minver x.kind = (if x.raise then (x.image.h 2).toNat else sget (fun _ => 0) s.img.minver x.kind) ∧
      t.rd IMG_LAST_STATUS = eOk ∧ t.rd IMG_LAST_OP = 1)

/-- While the link works: the lock of the CDR leads from CDR to ALIGN; an aligned lane shows ALIGNED, and the last of the four
leads to DESKEW; markers within 24 columns lead to UP with the skew shown, wider ones back to CDR with a count; a
bring-up without progress for 100 us is retried from CDR with a count; a loss in UP goes to CDR with the alert and the
event; the far side's RX_UP is shown as received, and each marker sent says whether the link is UP; a low-power
request, in a loop too, is answered with /P/, an accept leading to L1 or L2, and the exit leads to CDR; an ordered set whose characters
differ between lanes, or a /P/ that names nothing, is counted; an equaliser margin that has been low for 1 ms
raises its event once until it has recovered for 1 ms; a loop that has run its time ends in RESET with its event, which
carries the bit errors against PRBS31 in modes 1 and 2, while mode 3 sends back what was received, and
reopens intake.
Forms that complete here: svcCdrLocked, svcLaneAligned, svcDeskew, svcBringupTimeout, svcLinkLoss,
svcAlignMarkerReceived, svcMarkerSend, svcL1Request, svcL2Request, svcPowerSetBad, svcLowPowerExit, svcEqmLow,
svcEqmRecovered, svcLoopEnd. -/
def Obligations.LinkStateEventsComplete : Prop :=
  (∀ s : State, s.svcLive = true → s.link = lkCdr →
    ∃ t, exec .svcCdrLocked s = .next t ∧ t.link = lkAlign ∧ t.svc = { s.svc with progAt := s.now } ∧ t = { s with regs := t.regs, svc := t.svc }) ∧
  (∀ (s : State) (lane : Fin 4), s.svcLive = true → s.link = lkAlign → s.rdb SVC_LANE_ALIGNED 0 lane = false →
    ∃ t, exec (.svcLaneAligned lane) s = .next t ∧ t.rd SVC_LANE_ALIGNED 0 lane = 1 ∧
      (∀ i : Fin 4, i ≠ lane → t.rd SVC_LANE_ALIGNED 0 i = s.rd SVC_LANE_ALIGNED 0 i) ∧
      ((∀ i : Fin 4, i ≠ lane → s.rdb SVC_LANE_ALIGNED 0 i = true) → t.link = lkDeskew) ∧
      ((∃ i : Fin 4, i ≠ lane ∧ s.rdb SVC_LANE_ALIGNED 0 i = false) → t.link = lkAlign) ∧
      t.svc = { s.svc with progAt := s.now } ∧ t = { s with regs := t.regs, svc := t.svc }) ∧
  (∀ (s : State) (spread : Nat), s.svcLive = true → s.link = lkDeskew →
    (spread ≤ 24 → ∃ t, exec (.svcDeskew spread) s = .next t ∧ t.link = lkUp ∧ t.rd SVC_STAT_SKEW = spread ∧
      t.svc.linkOut = s.svc.linkOut ∧ t = { s with regs := t.regs, svc := t.svc }) ∧
    (24 < spread → ∃ t, exec (.svcDeskew spread) s = .next t ∧ t.link = lkCdr ∧ (∀ i : Fin 4, t.rd SVC_LANE_ALIGNED 0 i = 0) ∧
      SVC_SKEW.counted s t 0 1)) ∧
  (∀ s : State, s.svcLive = true → (s.link = lkAlign ∨ s.link = lkDeskew) → s.svc.progAt + 100 * ticksUs ≤ s.now →
    ∃ t, exec .svcBringupTimeout s = .next t ∧ t.link = lkCdr ∧ (∀ i : Fin 4, t.rd SVC_LANE_ALIGNED 0 i = 0) ∧
      SVC_BRINGUP_RETRY.counted s t 0 1) ∧
  (∀ s : State, s.svcLive = true → s.link = lkUp →
    ∃ t, exec .svcLinkLoss s = .next t ∧ t.link = lkCdr ∧ t.rd SVC_ALERT_LINK_LOST = 1 ∧ SVC_LINK_DOWN.raised s t 0 [] ∧
      t.svc = { s.svc with
        sending := none, lpReq := none, progAt := s.now
        out := if s.svc.sending.isSome then setAbort else s.svc.out }) ∧
  (∀ (s : State) (rxUp : Bool), s.svcLive = true → (s.link = lkDeskew ∨ s.link = lkUp) →
    ∃ t, exec (.svcAlignMarkerReceived rxUp) s = .next t ∧ t.rdb SVC_STAT_FAR_UP = rxUp ∧ t = { s with regs := t.regs }) ∧
  (∀ s : State, s.svcLive = true → s.link ≠ lkL1 → s.link ≠ lkL2 →
    exec .svcMarkerSend s = .next { s with svc := { s.svc with
      txUp := decide (s.link = lkUp), out := setMarker (decide (s.link = lkUp)) } }) ∧
  (∀ (s : State) (i : Instr) (st : Nat), (i = .svcL1Request ∧ st = lkL1 ∨ i = .svcL2Request ∧ st = lkL2) → s.svcLive = true →
    (s.link = lkUp ∨ s.link = lkLoop) →
    (s.svc.sending = none → s.rdb SVC_CTL_LPM_EN = true → s.overheadMapped = false → s.svc.loop = none →
      ∃ t, exec i s = .next t ∧ t.link = st ∧
        t = { s with regs := t.regs, svc := { s.svc with progAt := s.now, out := setPower 3 ++ idleColumns 16 } }) ∧
    (s.svc.sending = none → (s.rdb SVC_CTL_LPM_EN = false ∨ s.overheadMapped = true ∨ s.svc.loop ≠ none) →
      exec i s = .next { s with svc := { s.svc with out := setPower 4 } }) ∧
    (s.svc.sending ≠ none → exec i s = .next { s with svc := { s.svc with lpReq := some st } })) ∧
  (∀ (s : State) (set : List (Nat × Nat)), s.svcLive = true → s.link = lkUp →
    (setBad set = true → ∃ t, exec (.svcPowerSetBad set) s = .next t ∧ Events s t ∧ SVC_OS_BAD.counted s t 0 1) ∧
    (setBad set = false → exec (.svcPowerSetBad set) s = .next s)) ∧
  (∀ s : State, s.svcLive = true → (s.link = lkL1 ∨ s.link = lkL2) →
    ∃ t, exec .svcLowPowerExit s = .next t ∧ t.link = lkCdr ∧ t = { s with regs := t.regs, svc := t.svc }) ∧
  (∀ (s : State) (lane : Fin 4), s.svcLive = true →
    (s.heldMs (sget (fun _ => 0) s.svc.eqmUnder lane) = true →
      (lane.val ∉ s.svc.eqmLow →
        ∃ t, exec (.svcEqmLow lane) s = .next t ∧ t.svc = { s.svc with eqmLow := lane.val :: s.svc.eqmLow } ∧
          SVC_EQM_LOW.raised s t 0 [] ∧ Events s { t with svc := s.svc }) ∧
      (lane.val ∈ s.svc.eqmLow → exec (.svcEqmLow lane) s = .next s)) ∧
    (s.heldMs (sget (fun _ => 0) s.svc.eqmOver lane) = true →
      exec (.svcEqmRecovered lane) s = .next { s with svc := { s.svc with
        eqmLow := s.svc.eqmLow.filter fun x => x ≠ lane.val } })) ∧
  (∀ (s : State) (lanes : List (List Nat)) (x : Loop) (k : Nat), s.svc.loop = some (x, k) → s.svcLive = true →
    s.link = lkLoop → k + x.ms * ticksMs ≤ s.now →
    let errs := (List.range 4).map fun i => loopErrors x.seed (lanes.getD i [])
    ∃ t, exec (.svcLoopEnd lanes) s = .next t ∧ t.link = lkReset ∧ t.svc.loop = none ∧
      t.rdb SVC_STAT_INTAKE = (s.svc.drain.isNone && !s.rdb SVC_STAT_BOOTROM) ∧
      (x.mode = 3 → t.svc.out = backColumns lanes ∧ SVC_LOOP_DONE.raised s t 0 [3]) ∧
      (x.mode ≠ 3 → t.svc.loopErrs = errs ∧ SVC_LOOP_DONE.raised s t 0 ((x.mode : Int) :: errs.map fun e => (e : Int))))

/-- With the link UP at both ends the packet chosen is an overhead block before priority-0 records, these before
completions, these before main records, and these before telemetry; a packet sent goes out as columns between /S/ and
/T/ and leaves its queue, an overhead block where it still stands there, and a completion
sent frees its slot, is kept there, is counted by its status, and starts the loop that it announces; a bad packet in is counted by why it is bad; an
overhead packet for a line channel routed to the host joins its transmit slip buffer, or is counted as bad or dropped;
over the boot port a read of the oldest packet clocks its length and octets out and takes it when all were clocked, a
status read gives the status octet, and a bad operation zeros.
Forms that complete here: svcPacketSelect, svcPacketSent, hostPacketBad, overheadPacketIn, bootReadPacket,
bootReadStatus, bootBadOperation. -/
def Obligations.PacketEventsComplete : Prop :=
  (∀ s : State, s.svcLive = true → s.link = lkUp → s.rdb SVC_STAT_FAR_UP = true → s.svc.sending = none → s.svc.lpReq = none →
    ∃ t, exec .svcPacketSelect s = .next t ∧ t = { s with svc := { s.svc with sending := t.svc.sending } } ∧
      (∀ l h b r, s.svc.ohOut = (l, h, b) :: r → t.svc.sending = some (.overhead l h b)) ∧
      (s.svc.ohOut = [] → s.evt.p0 ≠ [] → t.svc.sending = some (.events0 (min 32 s.evt.p0.length))) ∧
      (∀ k r, s.svc.ohOut = [] → s.evt.p0 = [] → s.svc.linkOut = k :: r → t.svc.sending = some (.completion k)) ∧
      (s.svc.ohOut = [] → s.evt.p0 = [] → s.svc.linkOut = [] → s.evt.main ≠ [] →
        t.svc.sending = some (.events1 (min 32 s.evt.main.length))) ∧
      (s.svc.ohOut = [] → s.evt.p0 = [] → s.svc.linkOut = [] → s.evt.main = [] → t.svc.sending = s.oldestTlm.map .telemetry)) ∧
  (∀ s : State, s.svcLive = true → s.link = lkUp → s.svc.lpReq = none →
    (∀ l h b, s.svc.sending = some (.overhead l h b) →
      exec .svcPacketSent s = .next { s with svc := { s.svc with
        sending := none, out := packetColumns (s.packetOctets (.overhead l h b))
        ohOut := if s.svc.ohOut.head? = some (l, h, b) then s.svc.ohOut.drop 1 else s.svc.ohOut } }) ∧
    (∀ k x, s.svc.sending = some (.completion k) → k.recalled = false →
      (s.svc.loops.find? fun y => y.tag = k.tag) = some x → s.svc.drain = none →
      ∃ t, exec .svcPacketSent s = .next t ∧ t.link = lkLoop ∧ t.rd SVC_STAT_INTAKE = 0 ∧ t.svc.loop = some (x, s.now) ∧
        t.svc.loops = s.svc.loops.filter (fun y => y.tag ≠ k.tag) ∧ t.cmdAt k.tag = none ∧
        sget (fun _ => none) t.svc.kept k.tag = some k) ∧
    (∀ k, s.svc.sending = some (.completion k) → k.recalled = false → (∀ x ∈ s.svc.loops, x.tag ≠ k.tag) → s.svc.drain = none →
      ∃ t, exec .svcPacketSent s = .next t ∧ t.svc.sending = none ∧ t.svc.linkOut = s.svc.linkOut.drop 1 ∧ t.cmdAt k.tag = none ∧
        t.svc.out = packetColumns (s.packetOctets (.completion k)) ∧
        (∀ j, j ≠ k.tag → t.cmdAt j = s.cmdAt j) ∧ sget (fun _ => none) t.svc.kept k.tag = some k ∧
        (1 ≤ k.status → SVC_STATUS.counted s t (20 * k.page + (k.status - 1)) 1) ∧ Events s { t with svc := s.svc }) ∧
    (∀ k, s.svc.sending = some k → ((∃ n, k = .events0 n) ∨ (∃ n, k = .events1 n) ∨ ∃ n, k = .telemetry n) →
      ∃ t, exec .svcPacketSent s = .next t ∧ t.svc = { s.svc with sending := none, out := packetColumns (s.packetOctets k) } ∧
        t = { s with svc := t.svc, evt := t.evt })) ∧
  (∀ (s : State) (boot : Bool) (why : BadPkt), s.svcLive = true → (boot = true ∨ s.link = lkUp ∨ s.link = lkLoop) →
    ∃ t, exec (.hostPacketBad boot why) s = .next t ∧ Events s t ∧ (why = .type → SVC_BADTYPE.counted s t 0 1) ∧
      (why = .crc ∨ why = .length → SVC_CRC.counted s t 0 1) ∧ (why = .code → boot = false → SVC_CV.counted s t 0 1)) ∧
  (∀ (s : State) (l : Fin 4) (h : Fin 2) (crit psn : Bool) (octets : List (BitVec 8)), s.svcLive = true → s.link = lkUp →
    (octets.length = 96 → crit = false → psn = false → s.domOn (lineDomain l) = true → s.route l h = 2 →
      ((s.slip l h true).blocks.length < 2 → ∃ t, exec (.overheadPacketIn l h crit psn octets) s = .next t ∧
        (t.slip l h true).blocks = (s.slip l h true).blocks ++ [octets.map BitVec.toNat] ∧ t = { s with lines := t.lines }) ∧
      (2 ≤ (s.slip l h true).blocks.length → ∃ t, exec (.overheadPacketIn l h crit psn octets) s = .next t ∧ Events s t ∧
        LINE_OH_SLIP_DROP.counted s t l 1)) ∧
    ((octets.length ≠ 96 ∨ crit = true ∨ psn = true ∨ s.domOn (lineDomain l) = false ∨ s.route l h ≠ 2) →
      ∃ t, exec (.overheadPacketIn l h crit psn octets) s = .next t ∧ Events s t ∧ SVC_OH_BAD.counted s t 0 1)) ∧
  (∀ (s : State) (clocked : Nat), s.svcLive = true →
    (s.bootNext = none → exec (.bootReadPacket clocked) s = .next { s with svc := { s.svc with miso := (List.replicate 2 0).take clocked } }) ∧
    (∀ p, s.bootNext = some p →
      let out := natToOctets 2 (s.packetOctets p).length ++ s.packetOctets p
      (clocked < out.length →
        exec (.bootReadPacket clocked) s = .next { s with svc := { s.svc with miso := out.take clocked, bootOffer := some p } }) ∧
      (∀ k, p = .completion k → out.length ≤ clocked → k.recalled = false → (∀ x ∈ s.svc.loops, x.tag ≠ k.tag) →
        s.svc.drain = none →
        ∃ t, exec (.bootReadPacket clocked) s = .next t ∧ t.svc.miso = out ∧ t.svc.bootOffer = none ∧
          t.svc.bootOut = s.svc.bootOut.drop 1 ∧ t.cmdAt k.tag = none ∧ sget (fun _ => none) t.svc.kept k.tag = some k))) ∧
  (∀ s : State, s.svcLive = true → exec .bootReadStatus s = .next { s with svc := { s.svc with miso := [s.bootStatus] } }) ∧
  (∀ (s : State) (octets : Nat), s.svcLive = true →
    exec (.bootBadOperation octets) s = .next { s with svc := { s.svc with miso := List.replicate octets 0 } })

/-- With the Groomer enabled: a pass that is due starts at visit 0 with its number raised; a lane visit that is due
stores what each lane's class says (a corrected word, a marker), and goes on to the next address, the last one raising
LPASS; a buffer visit does the same for its cell and BPASS; a demand visit serves the oldest request; a row copied to
a spare is stored clean and raises GRM_SPARED with the row and the spares left; in AVALANCHE a superframe boundary
makes the summaries due, and AVALANCHE ends with its event once the ring has stayed short; a telemetry stream's
snapshot falls due at its frames and waits to be sent, or is skipped and counted while the last one waits.
Forms that complete here: grmPassStart, grmLaneVisit, grmBufferVisit, grmDemandVisit, grmSpareCopyDone,
evtSuperframeSummary, evtAvalancheExit, tlmSnapshot. -/
def Obligations.IntegrityAndReportEventsComplete : Prop :=
  (∀ (s : State), s.up = true → s.rdb GRM_CTL_EN = true →
    (s.passDue s.grm.passB s.grm.perB ≤ s.now →
      ∃ t, exec (.grmPassStart true) s = .next t ∧ t.grm.passB = some (s.passDue s.grm.passB s.grm.perB) ∧ t.grm.visB = 0 ∧
        t.grm.noB = s.grm.noB + 1 ∧ t.grm.perB = s.rd GRM_CTL_PERIOD ∧ t.rd GRM_POS_B = 0 ∧ t = { s with regs := t.regs, grm := t.grm }) ∧
    (s.passDue s.grm.passL s.grm.perL ≤ s.now →
      ∃ t, exec (.grmPassStart false) s = .next t ∧ t.grm.passL = some (s.passDue s.grm.passL s.grm.perL) ∧ t.grm.visL = 0 ∧
        t.grm.noL = s.grm.noL + 1 ∧ t.grm.perL = s.rd GRM_CTL_PERIOD ∧ t.rd GRM_POS_L = walkAddr 0 ∧
        t = { s with regs := t.regs, grm := t.grm }) ∧
    (∀ k, s.grm.passL = some k → s.grm.visL < laneWords → k + s.grm.visL * (passTicks s.grm.perL / laneWords) ≤ s.now →
      s.visitHeld (walkAddr s.grm.visL) false = false →
      let v := if s.wordAnswers (walkAddr s.grm.visL) then s.visitWord (walkAddr s.grm.visL) false else s
      let w : State := { v with grm := { v.grm with visL := s.grm.visL + 1 } }
      exec .grmLaneVisit s = .next (if s.grm.visL + 1 = laneWords then (w.inc GRM_STAT_LPASS).wr GRM_POS_L (walkAddr 0)
        else w.wr GRM_POS_L (walkAddr (s.grm.visL + 1)))) ∧
    (∀ k, s.grm.passB = some k → s.grm.visB < bufCells → k + s.grm.visB * (passTicks s.grm.perB / bufCells) ≤ s.now →
      s.visitHeld (16 * s.grm.visB) true = false →
      let v := s.visitCell s.grm.visB false
      let w : State := { v with grm := { v.grm with visB := s.grm.visB + 1 } }
      exec .grmBufferVisit s = .next (if s.grm.visB + 1 = bufCells then (w.inc GRM_STAT_BPASS).wr GRM_POS_B 0
        else w.wr GRM_POS_B (s.grm.visB + 1)))) ∧
  (∀ (s : State) (a i : Nat) (demand : Bool), memInstance a = some i → i < 86 → sget (fun _ => none) s.tblRaw a = none →
    (∀ l, l < 4 → ((s.memAt a).lane l).1 ≠ .uncorrectable) →
    (s.visitWord a demand).memAt a = (List.range 4).foldl (fun y l => y.groom l) (s.memAt a)) ∧
  (∀ (s : State) (a : Nat) (r : List (Nat × Bool)), s.up = true → s.grm.demand = (a, false) :: r → s.visitHeld a false = false →
    s.wordAnswers a = true → exec .grmDemandVisit s = .next (({ s with grm := { s.grm with demand := r } } : State).visitWord a true)) ∧
  (∀ (s : State) (a : Nat) (r : List (Nat × Bool)), s.up = true → s.grm.demand = (a, true) :: r → s.visitHeld a true = false →
    exec .grmDemandVisit s = .next (({ s with grm := { s.grm with demand := r } } : State).visitCell (a / 16) true)) ∧
  (∀ (s : State) (c : RowCopy) (r : List RowCopy), s.up = true → s.grm.copies = c :: r →
    ∃ t, exec .grmSpareCopyDone s = .next t ∧ t.grm.copies = r ∧ GRM_SPARED.raised s t 0 [c.row, s.sparesLeft c.inst]) ∧
  (∀ s : State, s.up = true → s.evt.aval = true →
    (s.evt.sumSf < s.now / ticksSf + 1 →
      exec .evtSuperframeSummary s = .next ({ s with evt := { s.evt with sumSf := s.now / ticksSf + 1 } } : State).summaries) ∧
    (s.evt.main.length < 16384 → s.evt.lowSince + 8000 * ticksFr ≤ s.now →
      ∃ t, exec .evtAvalancheExit s = .next t ∧ Events s t ∧ EVT_AVALANCHE_EXIT.raised s t 0 [s.summaries.evt.coalesced])) ∧
  (∀ (s : State) (k : Fin 16), s.up = true → s.rdb EVT_TLM_EN 0 k = true → frameOf s.now % s.rd EVT_TLM_PERIOD 0 k = 0 →
    sget (fun _ => 0) s.evt.tlmAt k ≠ frameOf s.now + 1 →
    (∀ x, sget (fun _ => none) s.evt.tlm k = some x →
      ∃ t, exec (.tlmSnapshot k) s = .next t ∧ TLM_SKIP.counted s t k 1 ∧ sget (fun _ => 0) t.evt.tlmAt k = frameOf s.now + 1) ∧
    (sget (fun _ => none) s.evt.tlm k = none →
      ∃ t l, exec (.tlmSnapshot k) s = .next t ∧ sget (fun _ => none) t.evt.tlm k = some (frameOf s.now * ticksFr, l) ∧
        l.length = s.rd EVT_TLM_N 0 k ∧ (s.rdb EVT_TLM_KIND 0 k = true → t = { s with evt := t.evt })))

/-- An armed WARM channel at its LP goes to RAMP_UP and ramps from 20 dB below to its power; at its end LP a WARM one
is DARK and a lit one in RAMP_DOWN; the end of a ramp up makes it LIT, the end of a ramp
down DARK; a laser fault darkens it, raises CH_DS_FAULT and fails a TREE.ENABLE that waits for it; the canceller takes
the samples received up to a frame boundary, at which a shadow set that has adapted over 2^20 idle symbols and
is no worse becomes the active taps and is counted, after 8,000 frames it is dropped with
CH_CANC_KEEP; a pending reflectometry run starts at its frame, a shot between quiet frames is taken, its correlation
with the probe joining those before, and another one
skipped and counted, a run without shots fails with E_STATE, and one with shots shows up to 64 events of its trace in
order of distance, raises its event and completes with their number; a quality window that ends shows its figures and its
validity.
Forms that complete here: chDsStart, chDsDisableStart, chDsRampEnd, chDsLaserFault, cancShadowSwap, cancShadowTimeout,
otdrRunStart, otdrShot, otdrRunEnd, chQwinEnd. -/
def Obligations.DownstreamAndTraceEventsComplete : Prop :=
  (∀ (s : State) (c : Fin 512) (k : Nat), (s.chan c).enAt = some k → s.dsState c = dsWarm → k ≤ s.now →
    let r : LinRamp := ⟨s.chPower c - 20, s.chPower c, s.now, s.now + s.rd CH_DS_CTL_RAMP c * 10 * ticksUs⟩
    ∃ t, exec (.chDsStart c) s = .next t ∧ t.rd CH_DS_STAT_STATE c = dsUp ∧ t.rd CH_DS_STAT_PEND c = 0 ∧
      t.rd CH_DS_STAT_RAMPING c = 1 ∧
      t.chan c = { s.chan c with
        enAt := none, upAt := s.now, dsEnd := s.now / ticksFr * 390625, ramp := some r
        launch := ((s.noteLaunch c (some r)).chan c).launch } ∧
      (∀ d, d ≠ c.val → t.chan d = s.chan d) ∧ t = { s with regs := t.regs, chans := t.chans }) ∧
  (∀ (s : State) (c : Fin 512) (k : Nat), (s.chan c).disAt = some k → k ≤ s.now →
    (s.dsState c = dsWarm → ∃ t, exec (.chDsDisableStart c) s = .next t ∧ t.rd CH_DS_STAT_STATE c = dsDark) ∧
    ((s.dsState c = dsUp ∨ s.dsState c = dsLit) →
      ∃ t, exec (.chDsDisableStart c) s = .next t ∧ t.rd CH_DS_STAT_STATE c = dsDown ∧ t.rd CH_DS_STAT_RAMPING c = 1) ∧
    (s.dsState c = dsDown ∨ s.dsState c = dsDark →
      ∃ t, exec (.chDsDisableStart c) s = .next t ∧ t.chan c = { s.chan c with disAt := none } ∧ t = { s with chans := t.chans })) ∧
  (∀ (s : State) (c : Fin 512) (r : LinRamp), (s.chan c).ramp = some r → r.tEnd ≤ s.now →
    (s.dsState c = dsUp →
      ∃ t, exec (.chDsRampEnd c) s = .next t ∧ t.rd CH_DS_STAT_STATE c = dsLit ∧ t.rd CH_DS_STAT_RAMPING c = 0 ∧
        t.chan c = { s.chan c with ramp := none, litAt := some s.now }) ∧
    (s.dsState c = dsDown →
      ∃ v : State, v.chan c = { s.chan c with ramp := none } ∧ v.rd CH_DS_STAT_RAMPING c = 0 ∧
        v = { s with regs := v.regs, chans := v.chans } ∧
        exec (.chDsRampEnd c) s = .next (v.chDark c).beginFalls)) ∧
  (∀ (s : State) (c : Fin 512), dsWarm ≤ s.dsState c →
    let v := (s.chDark c).occur CH_DS_FAULT c
    CH_DS_FAULT.raised (s.chDark c) v c [] ∧ v.rd CH_DS_STAT_STATE c = dsDark ∧ Events (s.chDark c) v ∧
      ((v.tree (c / 8)).enable = none → exec (.chDsLaserFault c) s = .next v.beginFalls) ∧
      (∀ tag m k, (v.beginFalls.tree (c / 8)).enable = some (tag, m, true, k) → m.testBit (c.val % 8) = true →
        exec (.chDsLaserFault c) s = .next
          ((v.beginFalls.setTree (c / 8) { v.beginFalls.tree (c / 8) with enable := none }).complete tag eState (c.val % 8)))) ∧
  (∀ (s : State) (c : Fin 512) (rx : List (Nat × Int)), s.domOn (c / 8) = true →
    let u := s.receive c rx
    (u.swapDue c = false → exec (.cancShadowSwap c rx) s = .next u) ∧
    (s.rdb CH_CANC_STAT_SHADOW c = true → s.now % ticksFr = 0 → (s.chan c).shAt / ticksFr < s.now / ticksFr →
      1048576 ≤ (u.chan c).canc.adapted → (u.chan c).canc.shaRes ≤ (u.chan c).canc.actRes → s.inShot c = false →
      ∃ t, exec (.cancShadowSwap c rx) s = .next t ∧ t.rd CH_CANC_STAT_SHADOW c = 0 ∧ CH_CANC_SWAP.counted s t c 1 ∧
        (∀ i, i < 16 → t.rd CH_TAP_EN c i = s.rd CH_STAP_EN c i ∧ t.rd CH_TAP_SRC c i = s.rd CH_STAP_SRC c i ∧
          t.rd CH_TAP_POS c i = s.rd CH_STAP_POS c i ∧
          t.rd CH_TAP_H_0 c i = coefField (((u.chan c).canc.sha.getD i []).getD 2 0)) ∧
        t.rd CH_CANC_STAT_NTAP c = ((List.range 16).filter fun i => s.rdb CH_STAP_EN c i).length ∧
        (t.chan c).canc = { (u.chan c).canc with act := (u.chan c).canc.sha } ∧
        t = { s with regs := t.regs, cnt := t.cnt, tblRaw := t.tblRaw, evt := t.evt, chans := t.chans })) ∧
  (∀ (s : State) (c : Fin 512), s.domOn (c / 8) = true → s.rdb CH_CANC_STAT_SHADOW c = true →
    (s.chan c).shAt + 8000 * ticksFr ≤ s.now →
    ∃ t, exec (.cancShadowTimeout c) s = .next t ∧ t.rd CH_CANC_STAT_SHADOW c = 0 ∧ CH_CANC_KEEP.raised s t c []) ∧
  (∀ (s : State) (t : Fin 64) (r : OtdrRun), (s.tree t).otdr = some r →
    (s.rd TREE_OTDR_STAT_STATE t = otPending → r.frame * ticksFr ≤ s.now →
      ∃ v, exec (.otdrRunStart t) s = .next v ∧ v.rd TREE_OTDR_STAT_STATE t = otRunning ∧ v = { s with regs := v.regs }) ∧
    (∀ rx : List Int, s.rd TREE_OTDR_STAT_STATE t = otRunning → r.shot < 2 ^ r.avg →
      (r.frame + 2 * r.shot + 2) * ticksFr ≤ s.now → r.taken + 1 < 512 →
      let f := r.frame + 2 * r.shot
      let c := 8 * t.val + r.w
      let quiet := s.quietMap c f && s.quietMap c (f + 1)
      let new := correlate (s.shotOutput c f rx)
      (quiet = true → ∃ v, exec (.otdrShot t rx) s = .next v ∧
        (v.tree t).otdr = some { r with
          shot := r.shot + 1, taken := r.taken + 1
          corr := if r.taken = 0 then new else List.zipWith (fun a b => a + b) r.corr new } ∧
        v.rd TREE_OTDR_STAT_SHOTS t = r.taken + 1 ∧ v = { s with regs := v.regs, trees := v.trees }) ∧
      (quiet = false → ∃ v, exec (.otdrShot t rx) s = .next v ∧ (v.tree t).otdr = some { r with shot := r.shot + 1 } ∧
        TREE_OTDR_SKIP.counted s v t 1)) ∧
    (s.rd TREE_OTDR_STAT_STATE t = otRunning → 2 ^ r.avg ≤ r.shot → ∀ c, s.cmdAt r.tag = some c → c.tag = r.tag → c.stage ≠ .done →
      (r.taken = 0 → ∃ v, exec (.otdrRunEnd t) s = .next v ∧ v.rd TREE_OTDR_STAT_STATE t = otFailed ∧
        (v.tree t).otdr = none ∧ TREE_OTDR_FAIL.raised s v t [] ∧ Answered s v c eState 0 0 []) ∧
      (0 < r.taken →
        let events := traceEvents (s.traceOf t r) (s.rd TREE_OTDR_CFG_REF_THR t) (s.rd TREE_OTDR_CFG_LOSS_THR t)
        let es := events.take 64
        ∃ v, exec (.otdrRunEnd t) s = .next v ∧ v.rd TREE_OTDR_STAT_STATE t = otDone ∧ (v.tree t).otdr = none ∧
          v.rd TREE_OTDR_STAT_NEV t = es.length ∧ v.rdb TREE_OTDR_STAT_TRUNC t = decide (64 < events.length) ∧
          (r.apply = true → v.rd TREE_OTDR_STAT_APPLIED t = 1) ∧
          (∀ (i : Nat) (h : i < es.length), v.rd TREE_EV_TYPE t i = es[i].type % 8 ∧ v.rd TREE_EV_DIST t i = es[i].dist % 2 ^ 18) ∧
          TREE_OTDR_DONE.raised s v t [] ∧ Answered s v c eOk 0 es.length []))) ∧
  (∀ (s : State) (c : Fin 512) (fig : ChFigures), s.domOn (c / 8) = true →
    (s.chan c).qIdx < s.now / ticksFr / 2 ^ (s.chan c).qLen →
    let r := s.receive c fig.rx
    let u := r.hear c (((r.chan c).qIdx + 1) * 2 ^ (r.chan c).qLen * symsFr - (r.burst c).frame * symsFr : Int)
    let x := u.chan c
    let k := x.canc
    ∃ t, exec (.chQwinEnd c fig) s = .next t ∧ t.rd CH_QSTAT_QSEQ c = (s.rd CH_QSTAT_QSEQ c + 1) % 2 ^ 18 ∧
      t.rdb CH_QSTAT_VALID c = (s.dsState c = dsLit && (match x.litAt with
        | some k => decide (k ≤ x.qIdx * 2 ^ x.qLen * ticksFr)
        | none => false)) ∧
      t.rdb CH_QSTAT_EYE_V c = decide (64 * 4096 ≤ x.qPay) ∧
      t.rd CH_Q2_EYE c = (if 64 * 4096 ≤ x.qPay then min (eyeOpening (fig.decisions.map decisionsDiffer)) 63 else 0) ∧
      (spacing fig.levels < 1024 → t.rd CH_Q2_TX_LSR c = spacing fig.levels) ∧
      (∀ v n, x.qLsr = some (v, n) → v < 1024 → n < 256 → t.rd CH_Q2_LSR c = v ∧ t.rd CH_Q2_WORST c = n) ∧
      (4096 ≤ k.idle →
        t.rdi CH_Q1_NOISE c = clampInt (-512) 511 (connectorPower (k.outSum / (k.idle : Nat))) ∧
        t.rdi CH_Q1_REFL c = clampInt (-512) 511 (connectorPower (k.inSum / (k.idle : Nat)))) ∧
      t.chan c = { x with
        qLen := s.rd CH_QCTL_QWIN c, qIdx := s.now / ticksFr / 2 ^ s.rd CH_QCTL_QWIN c, qLsr := none, qPay := 0
        canc := { k with idle := 0, outSum := 0, inSum := 0 } } ∧
      t = { s with regs := t.regs, chans := t.chans })

/-- In a tree that is ON, outside shot frames: the next window of the maps opens for a lit IDLE channel, with the samples up to it
taken and its reference level formed from them; a
window that closes while ARMED is a MISS, and otherwise ends; a step of energy, at a symbol at which the mean of 16 samples is
formed, counts as unsolicited in IDLE, starts a
search in ARMED up to the window's last symbol, is counted as a re-arm in QUALIFY, and is held during ENDMARK; a
delimiter found in time with enough chips leads to HEADER; a
search past its deadline is a false detection; a header with a bad CRC is counted and ends the burst, one that names
another allocation is a mismatch, one with an ungranted message is counted, and one that passes leads to PAYLOAD; a
stronger step is a collision and starts a new search, a weaker one an overlap; the loss of the burst on 4 consecutive
outputs ends it with its
record; the end of the payload leads to ENDMARK, the end of that counts the burst and delivers its codewords, after
which the receiver is ARMED in an open discovery window and IDLE otherwise, and
light 16 units later is recorded as LONG.
Forms that complete here: chWindowOpen, chWindowClose, chEnergyStep, chDelimiterFound, chSearchDeadline,
chHeaderDecoded, chCollisionStep, chOverlapStep, chBurstLoss, chPayloadEnd, chEndmarkDone, chBurstLong. -/
def Obligations.UpstreamBurstEventsComplete : Prop :=
  (∀ (s : State) (c : Fin 512) (rx : List (Nat × Int)) (o e : Int) (n : Nat) (g : Grant) (rest : List (Nat × Grant)),
    (s.chan c).left = (n, g) :: rest →
    s.domOn (c / 8) = true → s.windowOf (c / 8) g = some (o, e) → symTick n o ≤ s.now → s.brxState c = bIdle → s.dsLight c = true →
    let u := (s.setChan c { s.chan c with left := rest }).receive c rx
    ∃ t, exec (.chWindowOpen c rx) s = .next t ∧ t.brxState c = bArmed ∧
      t.chan c = { u.chan c with win := some ⟨g, n, e⟩, pref := u.refLevel c } ∧ t = { s with regs := t.regs, chans := t.chans }) ∧
  (∀ (s : State) (c : Fin 512) (w : BWindow), (s.chan c).win = some w → s.domOn (c / 8) = true → symTick w.frame w.close < s.now →
    (s.brxState c = bArmed → exec (.chWindowClose c) s = .next (s.missBurst c w.grant w.frame w.close)) ∧
    (s.brxState c ≠ bArmed → ∃ t, exec (.chWindowClose c) s = .next t ∧ t.chan c = { s.chan c with win := none } ∧
      t = { s with chans := t.chans }) ∧
    (s.brxState c = bArmed → w.grant.kind = 1 → ∃ t, exec (.chWindowClose c) s = .next t ∧ t.brxState c = bIdle ∧
      t.chan c = { s.chan c with win := none, burst := none, canc := (t.chan c).canc } ∧
      t = { s with regs := t.regs, chans := t.chans })) ∧
  (∀ (s : State) (c : Fin 512) (j : Nat) (rx : List (Nat × Int)), s.domOn (c / 8) = true →
    s.shotFrame (c / 8) (c % 8) (j / symsFr) = false →
    let u := s.receive c rx
    let p := u.power c j
    let f := j / symsFr
    u.formed c j = true → u.rdi CH_BRX_CTL_ETHR c ≤ p → (u.chan c).pref + u.dbField CH_BRX_CTL_STEP_DB c ≤ p →
    (u.brxState c = bIdle → (u.chan c).unsol = f + 1 →
      ∃ t, exec (.chEnergyStep c j rx) s = .next t ∧ Events u t ∧ CH_UNSOL.counted u t c 1) ∧
    (u.brxState c = bIdle → (u.chan c).unsol ≠ f + 1 →
      ∃ v : State, CH_UNSOL.counted u v c 1 ∧ (v.chan c).unsol = f + 1 ∧ Events u { v with chans := u.chans } ∧
        exec (.chEnergyStep c j rx) s = .next
          ((v.pushBev (c / 8) (c % 8) { code := 8, frame := f, pos := (j % symsFr : Nat) }).imgUnsol c f)) ∧
    (∀ w, u.brxState c = bArmed → (u.chan c).win = some w →
      let pos : Int := (j : Int) - w.frame * symsFr
      (pos ≤ w.close → ∃ t b, exec (.chEnergyStep c j rx) s = .next t ∧ t.brxState c = bQualify ∧ (t.chan c).burst = some b ∧
        b.grant = w.grant ∧ b.frame = w.frame ∧ b.deadline = pos + 8 * s.preU (c / 8) + s.rd TREE_BRX_DLM_WIN (c / 8) ∧
        (t.chan c).pref = p ∧ t = { u with regs := t.regs, chans := t.chans }) ∧
      (w.close < pos →
        exec (.chEnergyStep c j rx) s = .next ((u.missBurst c w.grant w.frame w.close).unsolicited c j))) ∧
    (u.brxState c = bQualify → ∃ t, exec (.chEnergyStep c j rx) s = .next t ∧ t.brxState c = bQualify ∧
      CH_REARM.counted u t c 1 ∧ (t.chan c).pref = p) ∧
    (u.brxState c = bEndmark → exec (.chEnergyStep c j rx) s = .next
      (u.setChan c { u.chan c with heldSteps := (u.chan c).heldSteps ++ [(j, p)] }))) ∧
  (∀ (s : State) (c : Fin 512) (j : Nat) (chips : BitVec 32) (pburst : Int) (levels : List Int), s.brxState c = bQualify →
    let pos : Int := (j : Int) - (s.burst c).frame * symsFr
    pos + 32 ≤ (s.burst c).deadline → s.rd CH_BRX_CTL_DLM_THR c ≤ agreeing 0xB5E62C1D chips →
    ∃ t, exec (.chDelimiterFound c j pburst levels chips) s = .next t ∧ t.brxState c = bHeader ∧
      (t.chan c).burst = some { s.burst c with dlm := pos, pburst := pburst, lsr := spacing levels, hdr := none, ovl := false, long := false } ∧
      t = { s with regs := t.regs, chans := t.chans }) ∧
  (∀ (s : State) (c : Fin 512) (rx : List (Nat × Int)) (w : BWindow), s.brxState c = bQualify →
    symTick (s.burst c).frame (s.burst c).deadline < s.now → (s.burst c).capture = none → (s.chan c).win = some w →
    ((s.now : Int) ≤ symTick w.frame w.close →
      let u := (s.count CH_FALSE_DET c).receive c rx
      ∃ t, exec (.chSearchDeadline c rx) s = .next t ∧ t.brxState c = bArmed ∧ CH_FALSE_DET.counted s t c 1 ∧
        t.chan c = { u.chan c with pref := u.refLevel c, burst := none }) ∧
    (symTick w.frame w.close < s.now → ∃ v, CH_FALSE_DET.counted s v c 1 ∧ Events s v ∧
      exec (.chSearchDeadline c rx) s = .next (v.missBurst c (s.burst c).grant (s.burst c).frame (s.burst c).deadline))) ∧
  (∀ (s : State) (c : Fin 512) (soft : List Int), s.brxState c = bHeader →
    symTick (s.burst c).frame ((s.burst c).dlm + 96) ≤ s.now → (s.burst c).capture = none →
    let h := decodeHeader soft
    let b := s.burst c
    let alloc := h.toNat / 2 ^ 42
    let report := h.toNat / 2 ^ 22 % 2 ^ 20
    let msg := h.getLsbD 21
    (hdrCrcOk h = false → ∃ t, exec (.chHeaderDecoded c soft) s = .next t ∧ t.brxState c = bIdle ∧ CH_HDR_CRC.counted s t c 1 ∧
      (t.chan c).win = none) ∧
    (hdrCrcOk h = true → b.grant.kind ≠ 1 → alloc ≠ b.grant.alloc →
      ∃ t, exec (.chHeaderDecoded c soft) s = .next t ∧ t.rd CH_BRX_STAT_STATE c = bIdle ∧ (t.chan c).win = none) ∧
    (hdrCrcOk h = true → (b.grant.kind = 1 ∨ alloc = b.grant.alloc) → msg = true → b.grant.msg = false →
      ∃ t, exec (.chHeaderDecoded c soft) s = .next t ∧ t.brxState c = bIdle ∧ CH_MSG_UNGRANTED.counted s t c 1) ∧
    (hdrCrcOk h = true → (b.grant.kind = 1 ∨ alloc = b.grant.alloc) → (msg = false ∨ b.grant.msg = true) →
      ∃ v t : State, v.chan c = { s.chan c with
          burst := some { b with hdr := some ⟨alloc, report, msg⟩ }, qLsr := ((s.noteSpacing c alloc).chan c).qLsr } ∧
        v = { s with chans := v.chans } ∧ t = v.headerPassed c ⟨alloc, report, msg⟩ ∧
        exec (.chHeaderDecoded c soft) s = .next t ∧ t.rd CH_BRX_STAT_STATE c = bPayload)) ∧
  (∀ (s : State) (c : Fin 512) (j : Nat) (rx : List (Nat × Int)), s.domOn (c / 8) = true →
    s.shotFrame (c / 8) (c % 8) (j / symsFr) = false →
    let u := s.receive c rx
    let p := u.power c j
    let b := u.burst c
    u.formed c j = true → (u.brxState c = bHeader ∨ u.brxState c = bPayload) →
    (b.pburst + u.dbField CH_BRX_CTL_COLL_DB c ≤ p → b.capture = none →
      ∃ t x, exec (.chCollisionStep c j rx) s = .next t ∧ t.brxState c = bQualify ∧ CH_COLLISION.counted u t c 1 ∧
        (t.chan c).burst = some x ∧ x.capture = some b.name ∧ x.hdr = none ∧ (t.chan c).pref = p) ∧
    (b.pburst + u.dbField CH_BRX_CTL_OVL_DB c ≤ p → p < b.pburst + u.dbField CH_BRX_CTL_COLL_DB c →
      ∃ t, exec (.chOverlapStep c j rx) s = .next t ∧ CH_OVERLAP.counted u t c 1 ∧ t.brxState c = u.brxState c ∧
        (b.ovl = true → Events u t) ∧ (b.ovl = false → (t.chan c).burst = some { b with ovl := true })) ∧
    (∀ payload : List (BitVec 8), b.capture = none →
      (∀ i, i < 4 → u.formed c (j - 8 * i) = true ∧ u.power c (j - 8 * i) < max (u.rdi CH_BRX_CTL_ETHR c) (b.pburst - 100) ∧
        u.power c (j - 8 * i) < b.pburst + u.dbField CH_BRX_CTL_COLL_DB c) →
      let pos : Int := (j : Int) - b.frame * symsFr
      let w := (u.hear c pos).noteUnread c
      let v := match b.hdr with
        | some h => w.deliverBurst c h (w.heardBy c pos / 8 * 14 / 1152) payload
        | none => w
      exec (.chBurstLoss c j rx payload) s = .next ((v.burstRecord c 6 b.dlm).brxIdle c 33))) ∧
  (∀ (s : State) (c : Fin 512), s.brxState c = bPayload →
    let b := s.burst c
    let n := 8 * s.payloadUnits c
    symTick b.frame (b.dlm + 96 + n) ≤ s.now →
    ∃ t, exec (.chPayloadEnd c) s = .next t ∧ t.brxState c = bEndmark ∧
      t.chan c = { s.chan c with qPay := (s.chan c).qPay + (n - b.heard), burst := some { b with heard := max n b.heard } } ∧
      t = { s with regs := t.regs, chans := t.chans }) ∧
  (∀ (s : State) (c : Fin 512) (chips : BitVec 32) (payload : List (BitVec 8)) (h : BHeader), s.brxState c = bEndmark →
    symTick (s.burst c).frame ((s.burst c).dlm + 128 + 8 * s.payloadUnits c) ≤ s.now → (s.burst c).hdr = some h →
    let v := if s.rd CH_BRX_CTL_DLM_THR c ≤ agreeing 0x4A19D3E2 chips then s else s.count CH_END_MISS c
    let w := v.deliverBurst c h (codewordsOf (v.payloadUnits c)) payload
    let x := w.count CH_BURST_OK c
    (agreeing 0x4A19D3E2 chips < s.rd CH_BRX_CTL_DLM_THR c → CH_END_MISS.counted s v c 1) ∧ CH_BURST_OK.counted w x c 1 ∧
      exec (.chEndmarkDone c chips payload) s = .next
        ((if (s.burst c).grant.kind = 0 then x.terminalTable c h else x).afterBurst c)) ∧
  (∀ (s : State) (c : Fin 512), (s.chan c).heldSteps = [] →
    (∀ w, (s.chan c).win = some w → w.grant.kind = 1 → (s.now : Int) ≤ symTick w.frame w.close →
      (s.afterBurst c).rd CH_BRX_STAT_STATE c = bArmed) ∧
    ((∀ w, (s.chan c).win = some w → w.grant.kind ≠ 1 ∨ symTick w.frame w.close < s.now) →
      (s.afterBurst c).rd CH_BRX_STAT_STATE c = bIdle ∧ ((s.afterBurst c).chan c).win = none)) ∧
  (∀ (s : State) (c : Fin 512) (rx : List (Nat × Int)) (b : BurstRx), s.domOn (c / 8) = true →
    let j := s.longAt c
    s.shotFrame (c / 8) (c % 8) (j / symsFr) = false →
    let u := s.receive c rx
    u.formed c j = true → (u.chan c).burst = some b → b.long = false → u.brxState c ≠ bQualify → u.brxState c ≠ bHeader →
    b.pburst - 100 ≤ u.power c j →
    ∃ v : State, (v.chan c).burst = some { b with long := true } ∧ v = { u with chans := v.chans } ∧
      let w := v.burstRecord c 7 b.dlm
      exec (.chBurstLong c rx) s = .next
        (if b.name.2 = true ∧ b.grant.kind ≠ 1 then w.imgLong (c / 8) b.name.1 b.frame else w))

/-- For every state, tree, slot and frame: the map that the reference image computes outside shot and discovery frames
holds at most 256 entries; each entry ends at least GUARD units before the next begins, and every entry ends by
225,000 - GUARD; in a shot frame of a reflectometry run on the slot the map is the single quiet entry of the whole
frame, and otherwise in a frame of a discovery pair the single discovery entry. A visit of the walk of deficit round
robin first adds the quantum of a member whose stamp is behind, gives it codewords that its deficit pays at 136 octets
each and that the units left hold, takes both off, and then either stops at a member that is cut, or lets a member
without demand leave with deficit 0, or keeps it for the next round. -/
def Obligations.ComputedMapsKeepTheGuard : Prop :=
  (∀ (s : State) (t w n : Nat),
    let m := (s.dataMap t w n).1
    let guard := s.rd TREE_MAPCTL_GUARD t
    m.length ≤ 256 ∧ m.Pairwise (fun a b => a.start + a.len + guard ≤ b.start) ∧
      ∀ g ∈ m, g.start + g.len + guard ≤ 225000) ∧
  (∀ (s : State) (t w n : Nat), s.shotFrame t w n = true → s.imgMap t w n = ([⟨0, 3, false, false, 0, 225000⟩], s)) ∧
  (∀ (s : State) (t w n : Nat), s.shotFrame t w n = false → s.pairFrame t w n = true →
    s.imgMap t w n = ([⟨0, 1, false, true, 0, 225000⟩], s)) ∧
  (∀ (pre guard : Nat) (x y : Walk) (m : DrrM) (rest : List DrrM) (stop : Bool), x.visit pre guard m rest = (y, stop) →
    let d := if m.stamp < x.v then m.d + m.q else m.d
    ∃ k m', 136 * k ≤ d ∧ walkUnits pre guard (m.tot + k) - walkUnits pre guard m.tot ≤ x.cap ∧
      m'.a = m.a ∧ m'.tot = m.tot + k ∧
      (stop = true → y.todo = m' :: rest ∧ y.p = m.a ∧ m'.d = d - 136 * k ∧ y.gone = x.gone ∧ y.done = x.done) ∧
      (stop = false → y.todo = rest ∧ y.cap + (walkUnits pre guard (m.tot + k) - walkUnits pre guard m.tot) = x.cap ∧
        (if m.demand ≤ 136 * k then y.gone = m' :: x.gone ∧ y.done = x.done ∧ m'.d = 0
         else y.done = x.done ++ [m'] ∧ y.gone = x.gone ∧ m'.d = d - 136 * k)))

/-- With the converter not OFF: a pass that is due starts at entry 0 from its due time or the end of the last pass,
late passes being counted; a sequence entry whose samples are done stores the sample word of its corrected codes, counts its settling samples
and goes on; an injection is taken when its front end must start, abandoning the entry in progress; an injection that
ends completes its command or operation with the sample word and the number of samples, and the converter is free; the
reference channel's mean joins the cross-check; a
pending calibration that may start does, from IDLE or SEQ at once and from DOWN after waking; a calibration that
passes is adopted, stored and counted, one that fails raises its event; one that has waited a second raises its event
once; the factors follow the die temperature every 10 ms unless a recent calibration stays in force; 2 us of IDLE with
nothing due power down, and a start-up ends in work.
Forms that complete here: monPassStart, monSeqEntryEnd, monInjectTake, monInjectEnd, monCalBegin, monCalEnd,
monCalWait, monPowerDown, monWakeDone, monFactorUpdate. -/
def Obligations.ConverterEventsComplete : Prop :=
  (∀ (s : State) (m : Fin 18), s.monState m ≠ mOff → s.rdb MON_SEQ_CTL_EN m = true → (s.mon m).passOn = false → (s.mon m).due ≤ s.now →
    let x := s.mon m
    let late : Bool := decide (x.due < x.passEnd) && decide (x.per ≠ 0)
    ∃ v w : State, (late = true → Events s v ∧ MON_SEQ_OVR.counted s v m 1) ∧ (late = false → v = s) ∧
      w = { v with mons := w.mons } ∧
      w.mon m = { x with
        passOn := true, next := 0, pre := false, restart := false, last := s.rd MON_SEQ_CTL_LAST m,
        per := s.rd MON_SEQ_CTL_PERIOD m, due := max x.due x.passEnd + s.rd MON_SEQ_CTL_PERIOD m * ticksUs } ∧
      (s.monState m = mIdle → exec (.monPassStart m) s = .next (w.goOn m false)) ∧
      (s.monState m = mDown → exec (.monPassStart m) s = .next (w.goOn m true)) ∧
      (s.monState m ≠ mIdle → s.monState m ≠ mDown → exec (.monPassStart m) s = .next w)) ∧
  (∀ (s : State) (m : Fin 18) (raws : List Int) (bad : Bool) (r : SeqRun), (s.mon m).entry = some r → s.monState m = mSeq →
    raws.length = 2 ^ r.avg → r.first + (r.settle + raws.length) * samplePeriod ≤ s.now →
    let codes := s.correctedAll m r.chan raws
    let u := s.checkRef m r.chan codes r.shift
    ∃ v : State, exec (.monSeqEntryEnd m raws bad) s = .next (v.monFree m) ∧
      (r.e < 64 → v.rd MON_RES m r.e = u.sampleWord m codes r.shift r.settle r.pre false % 2 ^ 36) ∧
      MON_SETTLE.counted u v m r.settle ∧ (v.mon m).entry = none ∧ (v.mon m).next = r.e + 1 ∧ (r.e ∈ (v.mon m).bad ↔ bad = true)) ∧
  (∀ (s : State) (m : Fin 18) (i : Inj), ((s.mon m).inj.find? fun j => !j.taken && decide (j.from_ ≤ s.now)) = some i →
    s.monState m ≠ mOff → s.monState m ≠ mInj → s.monState m ≠ mCal →
    ∃ t, exec (.monInjectTake m) s = .next t ∧ t.rd MON_STAT_STATE m = mInj ∧
      (t.mon m).inj = (s.mon m).inj.map (fun j => if j = i then { j with taken := true } else j) ∧ (t.mon m).entry = none ∧
      ((s.mon m).entry ≠ none → MON_PREEMPT.counted s t m 1)) ∧
  (∀ (s : State) (m : Fin 18) (raws : List Int) (bad : Bool) (i : Inj),
    ((s.mon m).inj.find? fun j => j.taken) = some i → s.monState m = mInj → raws.length = 2 ^ i.avg →
    let settle := if 0 < i.gate then 0 else s.settleAt m i.lp
    (if 0 < i.gate then i.lp + i.gate * 4 + samplePeriod else i.lp + (settle + raws.length) * samplePeriod) ≤ s.now →
    let codes := s.correctedAll m i.chan raws
    let u := s.checkRef m i.chan codes i.shift
    let w : PWord := ⟨word (u.sampleWord m codes i.shift settle false true), bad⟩
    ∃ v : State, MON_SETTLE.counted u v m settle ∧ (v.mon m).inj = ((u.mon m).inj.filter fun j => !j.taken) ∧ v.svc = u.svc ∧
      v.cores = u.cores ∧ (i.by_ = .orphan → exec (.monInjectEnd m raws bad) s = .next (v.monFree m)) ∧
      (∀ n tag, i.by_ = .op n tag →
        exec (.monInjectEnd m raws bad) s = .next ((v.endOp n tag gOk (codes.length + settle) w).monFree m)) ∧
      (∀ tag c, i.by_ = .cmd tag → u.cmdAt tag = some c → c.tag = tag → c.stage ≠ .done →
        ∃ x : State, exec (.monInjectEnd m raws bad) s = .next (x.monFree m) ∧
          x.cmdAt tag = some { c with stage := .done, holds := false } ∧
          x.svc = ({ u with svc := { u.svc with slots := x.svc.slots } }.queueCompletion
            ⟨tag, c.pkt.boot, c.page, c.opcode, eOk, 0, w, cleanWords [codes.length + settle, 0], c.auth, false⟩).svc)) ∧
  (∀ (s : State) (m : Fin 18), s.calMayStart m = true →
    (s.monState m = mIdle → ∃ t, exec (.monCalBegin m) s = .next t ∧ t.rd MON_STAT_STATE m = mCal ∧ t.rd MON_STAT_CALPEND m = 0 ∧
      t.mon m = { (s.frontEnd m 61 s.now false).mon m with cal := .running s.now } ∧ t = { s with regs := t.regs, mons := t.mons }) ∧
    (s.monState m = mSeq → ∃ t, exec (.monCalBegin m) s = .next t ∧ t.rd MON_STAT_STATE m = mCal ∧ (t.mon m).cal = .running s.now ∧
      (t.mon m).entry = none) ∧
    (s.monState m = mDown → ∃ t, exec (.monCalBegin m) s = .next t ∧ t.rd MON_STAT_STATE m = mWake ∧
      t.mon m = { s.mon m with wakeAt := s.now } ∧ t = { s with regs := t.regs, mons := t.mons })) ∧
  (∀ (s : State) (m : Fin 18) (ofs gain : Int) (k : Nat), (s.mon m).cal = .running k → s.monState m = mCal → k + calTicks ≤ s.now →
    -32768 ≤ ofs → ofs ≤ 32767 → -32768 ≤ gain → gain ≤ 32767 →
    let w := calField ofs * 2 ^ 20 + calField gain * 2 ^ 4
    ∃ v : State, exec (.monCalEnd m ofs gain) s = .next ((v.calEnds m gOk ⟨word w, false⟩ (!calPasses ofs gain)).monFree m) ∧
      v.rd MON_CALM m = w ∧ v.rdi MON_CAL_STAT_TEMP m = s.monTemp m ∧ (v.mon m).joined = (s.mon m).joined ∧ v.calCmds = s.calCmds ∧
      (calPasses ofs gain = true → v.rdi MON_CALF_OFS m = ofs ∧ v.rdi MON_CALF_GAIN m = gain ∧ v.rd MON_STAT_SELFCAL m = 1 ∧
        v.rd MON_CAL_STAT_LAST m = 1 ∧ (v.mon m).adopted = some (s.monTemp m) ∧ MON_CAL_DONE.counted s v m 1) ∧
      (calPasses ofs gain = false → v.rd MON_CAL_STAT_LAST m = 2 ∧ MON_CAL_FAIL.raised s v m [ofs, gain])) ∧
  (∀ (s : State) (m : Fin 18) (status : Nat) (result : PWord) (bad : Bool),
    let v := s.calEnds m status result bad
    ((s.mon m).joined = [] → v.mon m = { s.mon m with cal := .none } ∧ v.rd MON_STAT_CALPEND m = 0 ∧
      v = { s with regs := v.regs, mons := v.mons }) ∧
    (∀ tag c res, (s.mon m).joined = [.cmd tag] → (s.calCmds.find? fun e => e.1 = tag) = some (tag, [m.val], res) →
      s.cmdAt tag = some c → c.tag = tag → c.stage ≠ .done →
      (v.mon m).cal = .none ∧ Answered s v c eOk 0 (res + if bad then 2 ^ m.val else 0) [])) ∧
  (∀ (s : State) (m : Fin 18) (k : Nat), (s.mon m).cal = .pending k false → s.monState m ≠ mOff → k + ticksSec ≤ s.now →
    ∃ t, exec (.monCalWait m) s = .next t ∧ (t.mon m).cal = .pending k true ∧ MON_CAL_WAIT.raised s t m [] ∧
      Events s { t with mons := s.mons }) ∧
  (∀ (s : State) (m : Fin 18) (temp : Int), s.monState m ≠ mOff → (s.mon m).facAt + 10 * ticksMs ≤ s.now → -256 ≤ temp → temp < 256 →
    ∃ t, exec (.monFactorUpdate m temp) s = .next t ∧ t.rdi MON_STAT_TEMP m = temp ∧ (t.mon m).facAt = s.now ∧
      (∀ k, (s.mon m).adopted = some k → |temp - k| < 4 →
        t.rd MON_CALF_OFS m = s.rd MON_CALF_OFS m ∧ (t.mon m).adopted = some k) ∧
      ((∀ k, (s.mon m).adopted = some k → 4 ≤ |temp - k|) →
        t.rd MON_CALF_OFS m = toField 16 ((interpSet (s.calSetOf m) temp).getD 0 0) ∧
        t.rd MON_CALF_GAIN m = toField 16 ((interpSet (s.calSetOf m) temp).getD 1 0) ∧ (t.mon m).adopted = none) ∧
      ((s.mon m).adopted = none → 200 ≤ temp →
        t.rdi MON_CALF_OFS m = signed 16 (bitsOf (s.rd MON_CALSET_W0 m 7) 35 20) ∧
        t.rdi MON_CALF_GAIN m = signed 16 (bitsOf (s.rd MON_CALSET_W0 m 7) 19 4)) ∧
      t = { s with regs := t.regs, mons := t.mons }) ∧
  (∀ (s : State) (m : Fin 18), s.monState m = mIdle → (s.mon m).idleAt + 8000 ≤ s.now → s.monDue m = false →
    ∃ t, exec (.monPowerDown m) s = .next t ∧ t.rd MON_STAT_STATE m = mDown ∧ t = { s with regs := t.regs }) ∧
  (∀ (s : State) (m : Fin 18), s.monState m = mWake → (s.mon m).wakeAt + startUp ≤ s.now →
    exec (.monWakeDone m) s = .next (s.monFree m) ∧
    (s.calMayStart m = true → ∃ t, exec (.monWakeDone m) s = .next t ∧ t.rd MON_STAT_STATE m = mCal))

/-- In a line that is ON: a locked LO leads from TUNE to IDLE with LOS declared, a late or faulty LO to OFF with FAULT
and its event; light above the threshold sets SIG, clears LOS and starts the search from IDLE or ACQ from HOLD; light
lost in ACQ or LOCKED leads to HOLD with LOS; a search without an estimate is counted and starts again, one with an
estimate shows it and leads to ACQ, with the check of the subcarriers found lit; 20 ms of ACQ are a counted failure and lead to IDLE, 10 ms of HOLD to IDLE;
subcarriers that all track lead to LOCKED with LINE_RX_LOCK, one that fails to converge is counted and converges anew,
one lost in LOCKED leads to ACQ with LINE_RX_UNLOCK; a Telemark cycle tells whether its four spares pass, and at a
later line frame boundary a handover exchanges them and moves the position; at a far-end multiframe boundary the
dispersion estimate is refined by at most 2 ps/nm a second, and a quality window that has run its length shows the
figures computed from what it measured, its end, its validity and its error ratios; the skews follow their adaptation
by the steps of the transmit side, stay as they are where it gives values outside the limits, and move toward the stored sets
without a locked signal.
Forms that complete here: lineLoLocked, lineLoTimeout, lineLoFault, lineSigUp, lineSigDown, lineCdSearchDone,
lineAcqTimeout, lineHoldTimeout, lineScTrack, lineScConvergeTimeout, lineScLost, telemarkCycle, telemarkHandover,
lineCdRefine, lineRxCalUpdate, lineQwinEnd. -/
def Obligations.ReceiverEventsComplete : Prop :=
  (∀ (s : State) (l : Fin 4), s.rxState l = rxTune → s.now ≤ (s.line l).tuneAt + 200 * ticksMs →
    ∃ t, exec (.lineLoLocked l) s = .next t ∧ t.rxState l = rxIdle ∧ t.defect l 0 = true) ∧
  (∀ (s : State) (l : Fin 4), s.rxState l ≠ rxOff →
    (s.rxState l = rxTune → (s.line l).tuneAt + 200 * ticksMs ≤ s.now →
      ∃ t, exec (.lineLoTimeout l) s = .next t ∧ t.rxState l = rxOff ∧ t.rd LINE_RX_STAT_FAULT l = 1 ∧ LINE_RX_FAULT.raised s t l []) ∧
    (s.rxState l ≠ rxTune →
      ∃ t, exec (.lineLoFault l) s = .next t ∧ t.rxState l = rxOff ∧ t.rd LINE_RX_STAT_FAULT l = 1 ∧ LINE_RX_FAULT.raised s t l [])) ∧
  (∀ (s : State) (l : Fin 4) (pin : Int), s.rdb LINE_RX_STAT_SIG l = false → s.rdi LINE_RX_CTL_SIG_THR l ≤ pin →
    (s.rxState l = rxIdle →
      ∃ t, exec (.lineSigUp l pin) s = .next t ∧ t.rxState l = rxSearch ∧ t.rd LINE_RX_STAT_SIG l = 1 ∧ t.defect l 0 = false ∧
        (t.line l).searchAt = s.now) ∧
    (s.rxState l = rxHold → s.now ≤ (s.line l).holdAt + 10 * ticksMs →
      ∃ t, exec (.lineSigUp l pin) s = .next t ∧ t.rxState l = rxAcq ∧ t.rd LINE_RX_STAT_SIG l = 1 ∧ t.defect l 0 = false ∧
        (t.line l).acqAt = s.now)) ∧
  (∀ (s : State) (l : Fin 4) (pin : Int), s.rdb LINE_RX_STAT_SIG l = true → pin < s.rdi LINE_RX_CTL_SIG_THR l - 10 →
    (s.rxState l = rxAcq ∨ s.rxState l = rxLocked) →
    ∃ t, exec (.lineSigDown l pin) s = .next t ∧ t.rxState l = rxHold ∧ t.rd LINE_RX_STAT_SIG l = 0 ∧ t.defect l 0 = true ∧
      (t.line l).holdAt = s.now ∧ LINE_RX_HOLD.raised s t l []) ∧
  (∀ (s : State) (l : Fin 4) (e fofs clk : Int) (pow : List Nat), s.rxState l = rxSearch → -20000 ≤ (s.line l).cdLo →
    (s.line l).cdLo ≤ (s.line l).cdHi → (s.line l).cdHi ≤ 20000 →
    (s.line l).searchAt + (cdPoints (s.line l).cdLo (s.line l).cdHi * 20 + 420) * ticksUs ≤ s.now →
    (∃ t, exec (.lineCdSearchDone l none fofs clk pow) s = .next t ∧ t.rxState l = rxSearch ∧ LINE_RX_CD_FAIL.counted s t l 1 ∧
      (t.line l).searchAt = s.now) ∧
    (s.rdb LINE_RX_STAT_SIG l = true →
      ∃ t, exec (.lineCdSearchDone l (some e) fofs clk pow) s = .next t ∧ t.rxState l = rxAcq ∧
        t.rdi LINE_RX_CD_EST l = clampInt (max (-20000) ((s.line l).cdLo - 100)) (min 20000 ((s.line l).cdHi + 100)) e ∧
        t.rdi LINE_RX_FOFS_FOFS l = clampInt (-6000) 6000 fofs ∧ t.rdi LINE_RX_FOFS_CLK l = clampInt (-5000) 5000 clk ∧
        (s.rxSwitched l = false → (t.rd LINE_RX_STAT_MISMATCH l = 0 ↔ ∀ j, j < 32 → litAt pow j = s.scOn l j)))) ∧
  (∀ (s : State) (l : Fin 4),
    (s.rxState l = rxAcq → (s.line l).acqAt + 20 * ticksMs ≤ s.now →
      ∃ t, exec (.lineAcqTimeout l) s = .next t ∧ LINE_RX_ACQ_RETRY.counted s t l 1 ∧ (t.line l).acqFails = (s.line l).acqFails + 1 ∧
        t.rxState l = (if s.rdb LINE_RX_STAT_SIG l then rxSearch else rxIdle) ∧ t.rd LINE_RX_CD_EST l = 0) ∧
    (s.rxState l = rxHold → (s.line l).holdAt + 10 * ticksMs ≤ s.now →
      ∃ t, exec (.lineHoldTimeout l) s = .next t ∧ t.rxState l = (if s.rdb LINE_RX_STAT_SIG l then rxSearch else rxIdle) ∧
        t.rd LINE_RX_CD_EST l = 0)) ∧
  (∀ (s : State) (l : Fin 4) (j : Fin 32), s.rxState l = rxAcq → s.rd LINE_RX_SCS_STATE l j = scConverge →
    s.now ≤ sget (fun _ => 0) (s.line l).convBy j →
    ((∀ k, k < 32 → k ≠ j.val → s.scOn l k = true → s.rd LINE_RX_SCS_STATE l k = scTrack) →
      ∃ t, exec (.lineScTrack l j) s = .next t ∧ t.rxState l = rxLocked ∧ t.rd LINE_RX_SCS_STATE l j = scTrack ∧
        (t.line l).acqFails = 0 ∧ s.now ≤ (t.line l).winAt ∧ LINE_RX_LOCK.raised s t l []) ∧
    ((∃ k, k < 32 ∧ k ≠ j.val ∧ s.scOn l k = true ∧ s.rd LINE_RX_SCS_STATE l k ≠ scTrack) →
      ∃ t, exec (.lineScTrack l j) s = .next t ∧ t.rxState l = rxAcq ∧ t.rd LINE_RX_SCS_STATE l j = scTrack ∧ t = { s with regs := t.regs })) ∧
  (∀ (s : State) (l : Fin 4) (j : Fin 32), (s.rxState l = rxAcq ∨ s.rxState l = rxLocked) →
    (s.rd LINE_RX_SCS_STATE l j = scConverge → sget (fun _ => 0) (s.line l).convAt j + 1200 * ticksUs ≤ s.now →
      ∃ t, exec (.lineScConvergeTimeout l j) s = .next t ∧ t.rd LINE_RX_SCS_STATE l j = scConverge ∧
        sget (fun _ => 0) (t.line l).convAt j = s.now ∧ sget (fun _ => 0) (t.line l).convBy j = s.now + 1200 * ticksUs ∧
        LINE_RX_SC_FAIL.counted s t l 1) ∧
    (s.rd LINE_RX_SCS_STATE l j = scTrack →
      ∃ t, exec (.lineScLost l j) s = .next t ∧ t.rxState l = rxAcq ∧ t.rd LINE_RX_SCS_STATE l j = scConverge ∧
        (s.rxState l = rxLocked → LINE_RX_UNLOCK.raised s t l [] ∧ (t.line l).acqAt = s.now))) ∧
  (∀ (s : State) (l : Fin 4) (meas : List TelMeas) (k : Nat), (s.line l).telAt = some k → s.rxState l ≠ rxOff →
    k + 9750 * ticksUs ≤ s.now → meas.length = 4 →
    let pass := fun (a : Nat) => s.rd LINE_TEL_ADC_SPARE l a ≠ 127 ∧ s.telOk l a (meas.getD a ⟨0, 0, 0, 0, 0⟩) = true
    ∃ t, exec (.telemarkCycle l meas) s = .next t ∧
      ((∀ a, a < 4 → pass a) → (t.line l).telPass = some (s.now / ticksLf)) ∧
      ((∃ a, a < 4 ∧ ¬ pass a) → (t.line l).telPass = none) ∧
      (t.line l).telAt = (if s.rdb LINE_TEL_CTL_EN l then some (k + 10 * ticksMs) else none)) ∧
  (∀ (s : State) (l : Fin 4) (a f : Nat), (s.line l).telPass = some f → f < s.now / ticksLf → s.rxState l ≠ rxOff →
    s.frameTaken l = false → a < 4 → (s.line l).sliceAt a (s.rd LINE_TEL_STAT_POS l) < 128 →
    ∃ t, exec (.telemarkHandover l) s = .next t ∧ t.rd LINE_TEL_STAT_POS l = (s.rd LINE_TEL_STAT_POS l + 1) % 64 ∧
      t.rd LINE_TEL_ADC_SPARE l a = (s.line l).sliceAt a (s.rd LINE_TEL_STAT_POS l) ∧ t.rd LINE_TEL_ADC_REJ l a = 0 ∧
      (t.line l).sliceAt a (s.rd LINE_TEL_STAT_POS l) = s.rd LINE_TEL_ADC_SPARE l a ∧ (t.line l).telPass = none ∧
      t.frameTaken l = true ∧ LINE_TEL_ROT.counted s t l 1) ∧
  (∀ (s : State) (l : Fin 4) (delta : Int), s.rxState l = rxLocked → (s.line l).cdAt + ticksSec ≤ s.now → s.frameTaken l = false →
    s.atFarMf l = true →
    ∃ t, exec (.lineCdRefine l delta) s = .next t ∧
      t.rdi LINE_RX_CD_EST l = clampInt (-20000) 20000 (s.rdi LINE_RX_CD_EST l + clampInt (-2) 2 delta) ∧
      t.line l = { s.line l with cdAt := s.now, stepFrame := some (s.now / ticksLf) } ∧ t = { s with regs := t.regs, lines := t.lines }) ∧
  (∀ (s : State) (l : Fin 4) (temp : Int) (vals : List Int), s.rxState l ≠ rxOff → (s.line l).rxCalAt + ticksSec / 10 ≤ s.now →
    let stored := calMove (s.line l).rxCal (interpSet (calSet 0o402002000 (s.line l).rxSets l) temp) calStep
    (s.rxState l = rxLocked → calWithin vals = true → ∃ t, exec (.lineRxCalUpdate l temp vals) s = .next t ∧
      (t.line l).rxCal = calMove (s.line l).rxCal vals calStep ∧ (t.line l).rxCalAt = s.now ∧
      (|temp - (60 + 20 * (nearestPoint temp : Int))| ≤ 10 →
        sget (fun _ => none) (t.line l).rxSets (nearestPoint temp) = some (t.line l).rxCal) ∧
      t = { s with regs := t.regs, lines := t.lines }) ∧
    (s.rxState l = rxLocked → calWithin vals = false → ∃ t, exec (.lineRxCalUpdate l temp vals) s = .next t ∧
      LINE_RX_CAL_FAIL.raised s t l [] ∧ t.line l = { s.line l with rxCalAt := s.now }) ∧
    (s.rxState l ≠ rxLocked → ∃ t, exec (.lineRxCalUpdate l temp vals) s = .next t ∧
      t.line l = { s.line l with rxCal := stored, rxCalAt := s.now } ∧ t = { s with regs := t.regs, lines := t.lines })) ∧
  (∀ (s : State) (l : Fin 4) (fig : RxFigures), s.rxState l = rxLocked → s.atFarMf l = true →
    (s.line l).winAt + 2 ^ (s.line l).winLen * ticksMf * 9999 / 10000 ≤ s.now → (s.line l).load = none → s.now < 2 ^ 36 * ticksSf →
    ∃ t, exec (.lineQwinEnd l fig) s = .next t ∧ t.rd LINE_RX_QSTAT_QSEQ l = (s.rd LINE_RX_QSTAT_QSEQ l + 1) % 2 ^ 18 ∧
      t.rdb LINE_RX_QSTAT_VALID l = (!(s.line l).winSwitched && !(s.line l).winTest) ∧
      t.rdb LINE_RX_QSTAT_SWITCHED l = (s.line l).winSwitched ∧ t.rd LINE_RX_QEND_A l = lpA s.now ∧
      t.rd LINE_RX_PMD_DGD l = fig.dgd % 2 ^ 9 ∧ t.rdi LINE_RX_FOFS_FOFS l = clampInt (-6000) 6000 fig.fofs ∧
      t.rdi LINE_RX_FOFS_CLK l = clampInt (-5000) 5000 fig.clk ∧
      (∀ j, j < 32 →
        let f := fig.sc.getD j ⟨1, 1, 0, 0, 0⟩
        t.rd LINE_RX_SC_SNR l j = (if s.scOn l j then snrOf ((f.errX + f.errY) / 2) else 0) ∧
        t.rd LINE_RX_SCS_SLIPS l j = (if s.scOn l j then min f.slips 255 else 0)) ∧
      t.rd LINE_FEC_BER_PRE_M l = (berOf (s.line l).ber.pre (s.line l).ber.coded).1 ∧
      t.rd LINE_FEC_BER_MID_E l = (berOf (s.line l).ber.mid (s.line l).ber.bits).2 ∧
      (t.line l).winAt = s.now ∧ (t.line l).winSwitched = false ∧ (t.line l).ber = {})

/-- In a line that is ON: an accepting LOAD_ACK puts the request into the inactive receive bank, a refusing one
completes the command E_STATE with its reason, and none in 64 multiframes from the first request sent completes it with
17; a SWITCH of the accepted request tells the boundary of the receive switch, or that it is cancelled, or that it has
passed, which is counted; an unknown one raises LINE_FR_SW_UNEXP; the switches change the bank at their boundary; at the
first boundary after 64 multiframes of RDI or of LOF either side falls back to the bring-up format with its event; a
request received is refused with its reason, or loaded and switched to 16 multiframes later, and one already evaluated
is answered as before; a refusal counts when it is sent; an enable tunes the laser and starts CAL, a calibration within
limits is adopted with CAL_OK and its event, one without answer in 200 ms leads to DARK with LINE_TX_FAULT; modulation
ramps up, the ramp's end is LIT and completes the enable; a laser fault starts SHUTDOWN; the transmit values move by
their steps every 100 ms; a slot of the format, or a frame of a test signal, is sent for each line frame, and the
samples clipped in it are counted.
Forms that complete here: lineEnableStart, lineCalDone, lineCalTimeout, lineTxModulationStart, lineRampEnd,
lineLaserFault, loadReqEvaluate, loadAckReceived, loadSwitchReceived, loadAckTimeout, lineFormatSwitch,
lineTxFallback, lineTxCalUpdate, lineSlotTransmit, lineRxFallback. -/
def Obligations.LoadAndTransmitterEventsComplete : Prop :=
  (∀ (s : State) (l : Fin 4) (q reason : Nat) (x : LoadCmd) (r : LoadReq), (s.line l).ackIn = some (q, reason) → (s.line l).load = some x →
    x.waits q = some r →
    (reason = 0 → ∃ t, exec (.loadAckReceived l) s = .next t ∧ (t.line l).rxSeq = some r.seq ∧ (t.line l).ackIn = none ∧
      (t.line l).load = some { x with stage := .acked } ∧
      t.rd LINE_RX_BANK_RATE l (1 - s.rd LINE_RX_STAT_BANK l) = r.rate % 64 ∧ t = { s with regs := t.regs, lines := t.lines }) ∧
    (∀ c, reason ≠ 0 → s.cmdAt x.tag = some c → c.tag = x.tag → c.stage ≠ .done → c.opcode / 256 = 0x0A →
      ∃ t, exec (.loadAckReceived l) s = .next t ∧ (t.line l).load = none ∧ Answered s t c eState 0 reason [] ∧
        t = { s with svc := t.svc, lines := t.lines })) ∧
  (∀ (s : State) (l : Fin 4) (active count q k : Nat), (s.line l).swIn = some (active, count, q, k) → (s.line l).load = none →
    ((s.line l).rxSeq = some q →
      (active = s.rd LINE_RX_STAT_BANK l → count < 16 → ∃ t, exec (.loadSwitchReceived l) s = .next t ∧
        t.line l = { s.line l with swIn := none, rxSwitch := some (k + ((count + 1) * 256 - 2) * ticksLf * 9999 / 10000) } ∧
        t = { s with lines := t.lines }) ∧
      (active = s.rd LINE_RX_STAT_BANK l → 16 ≤ count → ∃ t, exec (.loadSwitchReceived l) s = .next t ∧
        t.line l = { s.line l with swIn := none, rxSwitch := none } ∧ t = { s with lines := t.lines }) ∧
      (active ≠ s.rd LINE_RX_STAT_BANK l → (s.line l).rxSwitch = none → ∃ t, exec (.loadSwitchReceived l) s = .next t ∧
        t.line l = { s.line l with swIn := none, rxSwitch := some k } ∧ LINE_RX_LATE_SWITCH.counted s t l 1)) ∧
    ((s.line l).rxSeq ≠ some q → active ≠ s.rd LINE_RX_STAT_BANK l →
      ∃ t, exec (.loadSwitchReceived l) s = .next t ∧ LINE_FR_SW_UNEXP.raised s t l [] ∧ Events s { t with lines := s.lines })) ∧
  (∀ (s : State) (l : Fin 4) (x : LoadCmd) (k : Nat) (c : Cmd), (s.line l).load = some x → x.stage = .sent (some k) →
    k + 64 * ticksMf ≤ s.now → s.cmdAt x.tag = some c → c.tag = x.tag → c.stage ≠ .done → c.opcode / 256 = 0x0A →
    ∃ t, exec (.loadAckTimeout l) s = .next t ∧ t.line l = { s.line l with load := none } ∧ Answered s t c eState 0 17 [] ∧
      t = { s with svc := t.svc, lines := t.lines }) ∧
  (∀ (s : State) (l : Fin 4),
    (∀ k, (s.line l).rxSwitch = some k → k ≤ s.now → s.rxState l ≠ rxOff → s.atFarMf l = true → (s.line l).load = none →
      ∃ t, exec (.lineFormatSwitch l true) s = .next t ∧ t.rd LINE_RX_STAT_BANK l = 1 - s.rd LINE_RX_STAT_BANK l ∧
        (t.line l).rxSwitch = none ∧ (t.line l).rxSwAt = some s.now ∧ (t.line l).snr = none ∧
        ((s.line l).winAt ≤ s.now → (t.line l).winSwitched = true)) ∧
    (∀ m, (s.line l).switchMf = some m → s.txState l = txLit → m ≤ s.now / ticksMf →
      ∃ t, exec (.lineFormatSwitch l false) s = .next t ∧ t.rd LINE_TX_STAT_BANK l = 1 - s.rd LINE_TX_STAT_BANK l ∧
        (t.line l).switchMf = none ∧ (t.line l).ackSeq = none ∧ LINE_LOAD_SWITCH.raised s t l []) ∧
    (s.rdb LINE_TX_CTL_FALLBACK l = true → s.rxState l = rxLocked → s.defect l 1 = true → (s.line l).lofAt + 64 * ticksMf ≤ s.now →
      sameLoading (s.rxActive l) bringUp = false → s.atFarMf l = true → (s.line l).load = none →
      (s.line l).stepFrame ≠ some (s.now / ticksLf) →
      ∃ t, exec (.lineRxFallback l) s = .next t ∧ t.rd LINE_RX_STAT_BANK l = 1 - s.rd LINE_RX_STAT_BANK l ∧
        t.rd LINE_RX_STAT_RATE l = 9 ∧ (∀ x, x < 2 → t.rd LINE_RX_BANK_RATE l x = 9) ∧ (t.line l).rxSeq = (s.line l).rxSeq ∧
        LINE_FR_FALLBACK.raised s t l []) ∧
    (∀ k, (s.line l).rdiAt = some k → s.rdb LINE_TX_CTL_FALLBACK l = true → s.txState l = txLit → k + 64 * ticksMf ≤ s.now →
      s.now % ticksMf = 0 → (s.line l).stepFrame ≠ some (s.now / ticksLf) →
      ∃ t, exec (.lineTxFallback l) s = .next t ∧ t.rd LINE_TX_STAT_BANK l = 1 - s.rd LINE_TX_STAT_BANK l ∧
        t.rd LINE_TX_STAT_RATE l = 9 ∧ (t.line l).switchMf = none ∧ (t.line l).rdiAt = some s.now ∧ LINE_TX_FALLBACK.raised s t l [])) ∧
  (∀ (s : State) (l : Fin 4) (temp : Int), s.coreState (72 + l.val) = cRunning → (s.line l).txCalAt + ticksSec / 10 ≤ s.now →
    ∃ t, exec (.lineTxCalUpdate l temp) s = .next t ∧
      let own := (s.line l).txOwn.getD (interpSet (calSet 0o402000000 (s.line l).txSets l) temp, s.interpTaps l temp)
      (t.line l).txCal = calMove (s.line l).txCal own.1 calStep ∧ (t.line l).txTaps = own.2 ∧
      (t.line l).txCalAt = s.now ∧ t = { s with regs := t.regs, lines := t.lines }) ∧
  (∀ (s : State) (l : Fin 4) (tag lp : Nat), (s.line l).enable = some (tag, lp) → s.txState l = txDark → lp ≤ s.now →
    s.rdb LINE_RX_CTL_FOLLOW l = false →
    ∃ t, exec (.lineEnableStart l) s = .next t ∧ t.txState l = txCal ∧
      t.line l = { s.line l with
        enable := none, enTag := some tag, calAt := s.now, calDone := none, txFreq := some (s.rdi LINE_TX_CTL_FREQ l) } ∧
      t = { s with regs := t.regs, lines := t.lines, traf := t.traf }) ∧
  (∀ (s : State) (l : Fin 4) (temp : Int) (vals : List Int) (taps : List (List Int)), s.txState l = txCal → (s.line l).calDone = none →
    let near := |temp - (60 + 20 * (nearestPoint temp : Int))| ≤ 10
    (calWithin vals = true → ∃ t, exec (.lineCalDone l temp vals taps) s = .next t ∧ t.rd LINE_TX_STAT_CAL_OK l = 1 ∧
      (t.line l).txCal = vals ∧ (t.line l).txTaps = taps ∧
      (near → sget (fun _ => none) (t.line l).txSets (nearestPoint temp) = some vals ∧
        sget (fun _ => none) (t.line l).txTapSets (nearestPoint temp) = some taps ∧ (t.line l).txOwn = none) ∧
      (¬ near → (t.line l).txSets = (s.line l).txSets ∧ (t.line l).txTapSets = (s.line l).txTapSets ∧
        (t.line l).txOwn = some (vals, taps)) ∧
      (t.line l).calDone = some s.now ∧ t.rd LINE_TX_BANK_RATE l 0 = 9 ∧ LINE_TX_CAL_DONE.raised s t l []) ∧
    (calWithin vals = false → ∃ t, exec (.lineCalDone l temp vals taps) s = .next t ∧ t.rd LINE_TX_STAT_CAL_OK l = 0 ∧
      (t.line l).txCal = (s.line l).txCal ∧ (t.line l).txTaps = (s.line l).txTaps ∧ (t.line l).txOwn = none ∧
      (t.line l).calDone = some s.now ∧ LINE_TX_CAL_FAIL.raised s t l []) ∧
    ((s.line l).calAt + 200 * ticksMs ≤ s.now → ∃ t, exec (.lineCalTimeout l) s = .next t ∧ t.txState l = txDark ∧
      (t.line l).enTag = none ∧ (t.line l).txFreq = none ∧ LINE_TX_FAULT.raised s t l [])) ∧
  (∀ (s : State) (l : Fin 4) (k : Nat), (s.line l).calDone = some k → s.txState l = txCal → k / ticksMf < s.now / ticksMf →
    ∃ t, exec (.lineTxModulationStart l) s = .next t ∧ t.txState l = txRampUp ∧ (t.line l).calDone = none ∧ (t.line l).reqSeq = 0 ∧
      ∃ r, (t.line l).ramp = some r ∧ r.lo = s.powerDbm l - 40 ∧ r.hi = s.powerDbm l ∧ r.t0 = s.now) ∧
  (∀ (s : State) (l : Fin 4) (tag : Nat) (r : Ramp) (c : Cmd), (s.line l).ramp = some r →
    r.tEnd ≤ s.now → s.txState l = txRampUp → (s.line l).enTag = some tag → s.cmdAt tag = some c → c.tag = tag → c.stage ≠ .done →
    c.opcode / 256 = 0x0A →
    ∃ t, exec (.lineRampEnd l) s = .next t ∧ t.txState l = txLit ∧
      t.rd LINE_TX_STAT_RAMPING l = 0 ∧ t.line l = { s.line l with ramp := none, level := r.hi, enTag := none } ∧
      Answered s t c eOk 0 0 [] ∧ t = { s with svc := t.svc, regs := t.regs, lines := t.lines, traf := t.traf }) ∧
  (∀ (s : State) (l : Fin 4), (s.txState l = txRampUp ∨ s.txState l = txLit ∨ s.txState l = txRampDown) →
    ∃ t, exec (.lineLaserFault l) s = .next t ∧ t.txState l = txShut ∧ (t.line l).switchMf = none ∧ LINE_TX_FAULT.raised s t l []) ∧
  (∀ (s : State) (l : Fin 4) (r : LoadReq) (k : Nat), (s.line l).reqIn = some (r, k) → s.domOn (lineDomain l) = true →
    k / ticksMf < s.now / ticksMf →
    ((∀ reason, (s.line l).lastEval ≠ some (r.seq, reason)) →
      (s.judgeReq l r = 0 → ∃ t, exec (.loadReqEvaluate l) s = .next t ∧ t.rd LINE_TX_STAT_SEQ l = r.seq % 256 ∧
        t.line l = { s.line l with
          reqIn := none, lastEval := some (r.seq, 0), ackSeq := some r.seq, switchMf := some (s.now / ticksMf + 16) } ∧
        t = { s with regs := t.regs, lines := t.lines }) ∧
      (s.judgeReq l r ≠ 0 → ∃ t, exec (.loadReqEvaluate l) s = .next t ∧
        t.line l = { s.line l with
          reqIn := none, lastEval := some (r.seq, s.judgeReq l r), ackOnce := some (r.seq, s.judgeReq l r) } ∧
        t = { s with lines := t.lines })) ∧
    (∀ reason, (s.line l).lastEval = some (r.seq, reason) → ∃ t, exec (.loadReqEvaluate l) s = .next t ∧
      t.line l = { s.line l with
        reqIn := none
        ackOnce := if reason ≠ 0 ∨ (s.line l).ackSeq ≠ some r.seq then some (r.seq, reason) else (s.line l).ackOnce } ∧
      t = { s with lines := t.lines })) ∧
  (∀ (s : State) (l : Fin 4) (q reason : Nat), (s.line l).ackSeq = none → (s.line l).ackOnce = some (q, reason) → reason ≠ 0 →
    LINE_TX_REFUSE.counted s (s.loadChannel l 2) (6 * l + (reason - 1)) 1 ∧ ((s.loadChannel l 2).line l).ackOnce = none) ∧
  (∀ (s : State) (l : Fin 4) (hits pt : List (Nat × BitVec 39)), txRampUp ≤ s.txState l → (s.line l).txFrame ≠ some (s.now / ticksLf) →
    let sends := fun (t u : State) => t = u.count LINE_TX_CLIPPED l (u.clippedNow l) ∧ (t.line l).txFrame = some (s.now / ticksLf)
    (s.lineTesting l = true → ∃ t, exec (.lineSlotTransmit l hits pt) s = .next t ∧
      sends t (s.setLine l { s.line l with
        txFrame := some (s.now / ticksLf), txTest := some (((s.line l).txTest.map (· + 1)).getD 0) })) ∧
    (s.lineTesting l = false → (s.now / ticksLf % 256 = 0 ∨ ((s.line l).txFrame.isSome = true ∧ (s.line l).txTest = none)) →
      ∃ t, exec (.lineSlotTransmit l hits pt) s = .next t ∧
        sends t ((s.setLine l { s.line l with txFrame := some (s.now / ticksLf), txTest := none }).buildSlot l
          (s.now / ticksLf % 256) hits pt) ∧
        (s.rdb LINE_FR_CTL_ENC l = false →
          (t.line l).txSlot.length = 112 + 12500 * s.rd LINE_TX_BANK_RATE l (s.rd LINE_TX_STAT_BANK l))) ∧
    (s.lineTesting l = false → s.now / ticksLf % 256 ≠ 0 → ((s.line l).txFrame = none ∨ (s.line l).txTest.isSome = true) →
      exec (.lineSlotTransmit l hits pt) s = .next s))

/-- In a LOCKED line: a slot received is judged by the frame state: in HUNT as a candidate, in PRESYNC as a
confirmation, in IF as a slot in frame, spoilt when it touches an uncorrected row; the likelihoods of a block go through
the decoders, and what they report adds to the four FEC counters and to the window's errors; FSTATE and
multiframe conditions that have persisted declare or clear LOF and LOM; an overhead block received goes to the serial
port's slip buffer, to the host, or to the lines it passes through to, as routed, and an impaired receive side gives the
host blocks of all ones; a block that the transmitter needs comes from the source its route names, or is empty or all
ones; one that the serial port needs is the oldest received, all ones of an impaired receive side, and low without the
route or in BACKUP.
Forms that complete here: lineSlotReceived, lineOuterBlockDone, lineDefectPersist, mdcBlockReceived,
mdcBlockNeeded. -/
def Obligations.FrameEventsComplete : Prop :=
  (∀ (s : State) (l : Fin 4) (slot : RxSlot) (ovr : Nat) (hits : List (Nat × BitVec 39)), s.rxState l = rxLocked →
    let ok := decide (slot.fawErr ≤ s.rd LINE_FR_CTL_FAW_TOL l)
    let hdr := slot.header.map BitVec.toNat
    let bptr := octetsToNat ((hdr.drop 10).take 3) % 2 ^ 18
    (s.rd LINE_FR_STAT_FSTATE l = fsHunt → exec (.lineSlotReceived l slot ovr hits) s = .next (s.huntMatch l slot.pos ok)) ∧
    (s.rd LINE_FR_STAT_FSTATE l = fsPresync → exec (.lineSlotReceived l slot ovr hits) s = .next (s.presyncSlot l slot.pos ok bptr)) ∧
    (s.rd LINE_FR_STAT_FSTATE l = fsIf →
      let v := s.ifSlot l slot.pos ok bptr
      let w := v.setLine l { v.line l with badRows := (v.line l).badRows.filter fun b => decide (slot.pos < b + 450) }
      (v.rd LINE_FR_STAT_FSTATE l = fsIf → exec (.lineSlotReceived l slot ovr hits) s =
        .next (w.slotInFrame l ovr (v.slotUncorr l slot) hdr (slot.payload.map BitVec.toNat) (slot.trailer.map BitVec.toNat) hits)) ∧
      (v.rd LINE_FR_STAT_FSTATE l ≠ fsIf → exec (.lineSlotReceived l slot ovr hits) s = .next w)) ∧
    (s.rd LINE_FR_STAT_FSTATE l = fsIf → ok = false → (s.line l).miss = 4 →
      ∃ t, exec (.lineSlotReceived l slot ovr hits) s = .next t ∧ t.rd LINE_FR_STAT_FSTATE l = fsHunt ∧
        t.rd LINE_FR_BLK_LOCK l = 0 ∧ (t.line l).load = none ∧ LINE_FR_OOF.counted s t l 1) ∧
    (s.rd LINE_FR_STAT_FSTATE l = fsHunt → (s.line l).cands = [] → ok = true →
      ∃ t, exec (.lineSlotReceived l slot ovr hits) s = .next t ∧ (t.line l).cands = [slot.pos] ∧ t.rd LINE_FR_STAT_FSTATE l = fsHunt)) ∧
  (∀ (s : State) (l : Fin 4) (rx : List Int) (ph : Nat) (mf : Option Nat), s.rxState l = rxLocked →
    let stages := depuncture (innerMasks (s.rxActive l).inner) ph mf (blockStages + 48) 0 rx
    let e := (s.line l).codes.block (s.rdb LINE_FR_BLK_LOCK l) stages
    ∃ t, exec (.lineOuterBlockDone l rx ph mf) s = .next t ∧ Events s { t with lines := s.lines } ∧ (t.line l).codes = e.1 ∧
      (t.line l).ber = ⟨(s.line l).ber.pre + e.2.ber.pre, (s.line l).ber.coded + e.2.ber.coded,
        (s.line l).ber.mid + e.2.ber.mid, (s.line l).ber.bits + e.2.ber.bits⟩ ∧
      LINE_FEC_UNCORR.counted s t l (e.2.left.elim 0 (·.2.length)) ∧ LINE_FEC_LOWREL.counted s t l e.2.low ∧
      LINE_FEC_PRE.counted s t l e.2.ber.pre ∧ LINE_FEC_MID.counted s t l e.2.ber.mid ∧
      (s.rdb LINE_FR_BLK_LOCK l = false → e.2.left = none ∧ e.2.ber = {} ∧ (t.line l).badRows = (s.line l).badRows)) ∧
  (∀ (s : State) (l : Fin 4), s.domOn (lineDomain l) = true → (s.line l).fsAt + persistTicks ≤ s.now → s.rdb LINE_FR_CTL_MF_EN l = false →
    (s.rd LINE_FR_STAT_FSTATE l = fsIf → ∃ t, exec (.lineDefectPersist l) s = .next t ∧ t.defect l 1 = false ∧
      (s.defect l 1 = true → LINE_FR_DEFECT.raised s t l [])) ∧
    (s.rd LINE_FR_STAT_FSTATE l ≠ fsIf → s.defect l 0 = false → ∃ t, exec (.lineDefectPersist l) s = .next t ∧ t.defect l 1 = true ∧
      (s.defect l 1 = false → LINE_FR_DEFECT.raised s t l [] ∧ (t.line l).lofAt = s.now))) ∧
  (∀ (s : State) (l : Fin 4), s.domOn (lineDomain l) = true → s.now < (s.line l).fsAt + persistTicks → s.rd LINE_FR_STAT_FSTATE l = fsIf →
    s.rdb LINE_FR_CTL_MF_EN l = true → (s.line l).imAt + persistTicks ≤ s.now →
    (s.rdb LINE_FR_STAT_IM l = true → ∃ t, exec (.lineDefectPersist l) s = .next t ∧ t.defect l 2 = false) ∧
    (s.rdb LINE_FR_STAT_IM l = false → s.defect l 0 = false → s.defect l 1 = false →
      ∃ t, exec (.lineDefectPersist l) s = .next t ∧ t.defect l 2 = true)) ∧
  (∀ (s : State) (l : Fin 4) (h : Fin 2) (blk : List Nat), s.domOn (lineDomain l) = true → s.impaired l = false →
    (if h.val = 0 then (s.line l).mdcDone0 else (s.line l).mdcDone1) = some blk →
    (s.route l h = 0 → ∃ t, exec (.mdcBlockReceived l h) s = .next t ∧ t = { s with lines := t.lines }) ∧
    (s.route l h = 1 → (s.slip l h false).blocks.length < 2 →
      ∃ t, exec (.mdcBlockReceived l h) s = .next t ∧ (t.slip l h false).blocks = (s.slip l h false).blocks ++ [blk] ∧
        t = { s with lines := t.lines }) ∧
    (s.route l h = 1 → 2 ≤ (s.slip l h false).blocks.length →
      ∃ t, exec (.mdcBlockReceived l h) s = .next t ∧ t.slip l h false = s.slip l h false ∧ LINE_OH_SLIP_DROP.counted s t l 1) ∧
    (s.route l h = 2 → (s.svc.ohOut.filter fun b => b.1 = l.val && b.2.1 = h.val).length < 2 →
      ∃ t, exec (.mdcBlockReceived l h) s = .next t ∧ t.svc = { s.svc with ohOut := s.svc.ohOut ++ [(l.val, h.val, blk)] } ∧
        t = { s with lines := t.lines, svc := t.svc }) ∧
    (s.route l h = 2 → 2 ≤ (s.svc.ohOut.filter fun b => b.1 = l.val && b.2.1 = h.val).length →
      ∃ t, exec (.mdcBlockReceived l h) s = .next t ∧ LINE_OH_SLIP_DROP.counted s t l 1 ∧ t.svc = s.svc) ∧
    (∀ m, s.route l h = 3 → s.ptTargets l = [m] → s.route m h = 3 → m ≠ l.val → (s.slip m h true).blocks.length < 2 →
      ∃ t, exec (.mdcBlockReceived l h) s = .next t ∧ (t.slip m h true).blocks = (s.slip m h true).blocks ++ [blk] ∧
        t = { s with lines := t.lines })) ∧
  (∀ (s : State) (l : Fin 4) (h : Fin 2), s.domOn (lineDomain l) = true → s.impaired l = true →
    (s.route l h = 2 → (s.svc.ohOut.filter fun b => b.1 = l.val && b.2.1 = h.val).length < 2 →
      ∃ t, exec (.mdcBlockReceived l h) s = .next t ∧
        t.svc = { s.svc with ohOut := s.svc.ohOut ++ [(l.val, h.val, List.replicate 96 255)] } ∧
        t = { s with lines := t.lines, svc := t.svc }) ∧
    (s.route l h ≠ 2 → ∃ t, exec (.mdcBlockReceived l h) s = .next t ∧ t.slip l h false = s.slip l h false ∧
      t = { s with lines := t.lines })) ∧
  (∀ (s : State) (l : Fin 4) (h : Fin 2) (input : List (BitVec 8)), s.domOn (lineDomain l) = true →
    let sent := fun (t : State) => sget (fun _ => []) (t.line l).mdcTx h
    (s.route l h = 0 → ∃ t, exec (.mdcBlockNeeded l h false input) s = .next t ∧ sent t = [] ∧ t = { s with lines := t.lines }) ∧
    (s.route l h = 1 → ∃ t, exec (.mdcBlockNeeded l h false input) s = .next t ∧ sent t = (input.map BitVec.toNat).take 96 ∧
      t = { s with lines := t.lines }) ∧
    (∀ b r, s.route l h = 2 → (s.slip l h true).blocks = b :: r →
      ∃ t, exec (.mdcBlockNeeded l h false input) s = .next t ∧ sent t = b ∧ t.slip l h true = ⟨r, some b⟩ ∧ t = { s with lines := t.lines }) ∧
    (s.route l h = 3 → (s.ptSource l = none ∨ ∃ m, s.ptSource l = some m ∧ s.impaired m = true) →
      ∃ t, exec (.mdcBlockNeeded l h false input) s = .next t ∧ sent t = List.replicate 96 255 ∧ t = { s with lines := t.lines })) ∧
  (∀ (s : State) (l : Fin 4) (h : Fin 2) (input : List (BitVec 8)),
    let out := fun (t : State) => sget (fun _ => List.replicate 96 255) t.ohDo (2 * l + h)
    (s.mode = modeBackup → exec (.mdcBlockNeeded l h true input) s = .next s ∧ s.ohPort (2 * l + h) = none) ∧
    (s.mode ≠ modeBackup → s.route l h ≠ 1 → ∃ t, exec (.mdcBlockNeeded l h true input) s = .next t ∧
      out t = List.replicate 96 0 ∧ t.ohPort (2 * l + h) = some (List.replicate 768 false) ∧ t = { s with ohDo := t.ohDo }) ∧
    (s.mode ≠ modeBackup → s.route l h = 1 → (s.domOn (lineDomain l) = false ∨ s.impaired l = true) →
      ∃ t, exec (.mdcBlockNeeded l h true input) s = .next t ∧ out t = List.replicate 96 255 ∧
        t.ohPort (2 * l + h) = some (List.replicate 768 true) ∧ t = { s with ohDo := t.ohDo }) ∧
    (∀ b r, s.mode ≠ modeBackup → s.route l h = 1 → s.domOn (lineDomain l) = true → s.impaired l = false →
      (s.slip l h false).blocks = b :: r →
      ∃ t, exec (.mdcBlockNeeded l h true input) s = .next t ∧ out t = b ∧ t.slip l h false = ⟨r, some b⟩ ∧
        t = { s with lines := t.lines, ohDo := t.ohDo }))

/-- For every list of bits, scrambling it twice gives it back and keeps its length; the information bits of a slot
have the slot's length when the slot holds its alignment word and its octets, begin with the alignment word
unscrambled, and give the slot's octets back under the scrambler; PSYNC is 2,048 chips and every control and payload
area of 2,677 and 390,625 octets makes 1,800,000 levels of 0 to 3. -/
def Obligations.ScramblerUndoesItself : Prop :=
  (∀ bs : List Bool, scramble (scramble bs) = bs ∧ (scramble bs).length = bs.length) ∧
  (∀ (os : List Nat) (len : Nat), 8 ≤ os.length → 8 * os.length ≤ len →
    (slotInfo os len).length = len ∧ (slotInfo os len).take 64 = (octetBits os).take 64 ∧
      (scramble ((slotInfo os len).drop 64)).take (8 * os.length - 64) = (octetBits os).drop 64) ∧
  (∀ (reg : Nat) (ctrl payload : List Nat), ctrl.length = 2677 → payload.length = 390625 →
    (dsFrame reg ctrl payload).length = 1800000 ∧ ∀ x ∈ dsFrame reg ctrl payload, x ≤ 3)

/-- While the module is up: a client frame with a bad FCS or a bad length, and a PTP message of no supported kind, is
counted at its port, one beyond the share of its face at the face, and one whose VLAN tag a service owns joins that service's queue with its tags off, or leaves the queues as they are when admission
fails; a segment in sequence adds its octets to the unit in progress and raises the expected SEQ; a unit in progress
for 8,000 access frames without a segment is discarded and counted; a verified unit becomes eligible and its CTR is
marked, one that fails leaves its queue, is freed and counted; an express unit whose tag fails is counted sent, and
its frame aborted, when its frame had begun by t_R, and is dropped unsent when not; with Edelweiss in error no unit is
delivered; an egress point that can send takes its queue's oldest
packet; a sweep shows BUSY and samples the first queue at once, then one every 40 ticks, and ends after the last with
its superframe; a port's link follows its events, and a marked message that
did not leave is counted; at a map deadline a dark slot shows SRC 3 with an empty map, and a lit one takes the map
committed for the frame.
Forms that complete here: clientFrameReceived, upstreamSegment, reassemblyTimeout, upstreamTagResult,
egressTxOpportunity, queueSweep, portLinkUp, portLinkDown, mapDeadline. -/
def Obligations.TrafficAndMapEventsComplete : Prop :=
  (∀ (s : State) (p : Fin 16) (frame : List (BitVec 8)) (ovr : Bool), s.up = true → s.domOn 76 = true →
    s.rdb PORT_STAT_LINK p = true → s.rdb PORT_CTL_EN p = true →
    (∃ t, exec (.clientFrameReceived p frame false ovr) s = .next t ∧ Events s t ∧ PORT_FCS.counted s t p 1) ∧
    (frame.length < 60 ∨ 16379 < frame.length →
      ∃ t, exec (.clientFrameReceived p frame true ovr) s = .next t ∧ Events s t ∧ PORT_LEN.counted s t p 1) ∧
    (∀ h, 60 ≤ frame.length → frame.length ≤ 16379 → s.rdb PORT_PTP_EN p = true → u16 (frame.map BitVec.toNat) 12 ≠ 0x8808 →
      isPtp (frame.map BitVec.toNat) (s.rdb PORT_PTP_UDP4 p) = some h →
      ptpSupported (frame.map BitVec.toNat) h ((frame.map BitVec.toNat).getD h 0 % 16) = false →
      ∃ t, exec (.clientFrameReceived p frame true false) s = .next t ∧ Events s t ∧ PTP_UNSUPP.counted s t p 1) ∧
    (60 ≤ frame.length → frame.length ≤ 16379 → u16 (frame.map BitVec.toNat) 12 ≠ 0x8808 →
      ∃ t, exec (.clientFrameReceived p frame true true) s = .next t ∧ Events s t ∧ BUF_IN_DROP.counted s t (516 + p) 1) ∧
    (∀ (x : Service) (v : State), 60 ≤ frame.length → frame.length ≤ 16379 → s.rdb PORT_PTP_EN p = false → s.forwards = true →
      let os := frame.map BitVec.toNat
      let body := os.take 12 ++ os.drop (if u16 os 16 = 0x8100 then 20 else 16)
      let q := (x.target false (u16 os 14 / 8192)).1
      u16 os 12 = 0x88A8 →
      s.lookKey 1 p 0 (u16 os 14 % 4096 * 4096 + if u16 os 16 = 0x8100 then u16 os 18 % 4096 else 0) = (.found x, v) →
      ∃ t, exec (.clientFrameReceived p frame true false) s = .next t ∧
        (v.admitFails q x.page body.length = none →
          ∃ e k, t.queue q = v.queue q ++ [e] ∧ e.len = body.length ∧ e.ready = true ∧ t.packet e.desc = some k ∧ k.octets = body ∧
            k.page = x.page + 1) ∧
        ((v.admitFails q x.page body.length).isSome = true → Events v t))) ∧
  (∀ (s : State) (c : Fin 512) (b : UpBurst) (rest : List UpBurst) (u : UpUnit) (ovr : Bool), s.burstsOf c = b :: rest →
    let h := octetsToNat ((b.octets.drop b.pos).take 4)
    let n := h / 2 ^ 18
    let seg := (b.octets.drop (b.pos + 4)).take n
    b.hit b.pos 4 = false → n ≠ 0 → b.pos + 4 + n ≤ b.octets.length → b.hit (b.pos + 4) n = false →
    h.testBit 17 = false → h.testBit 16 = false → (s.reasAt b.alloc).unit = some u → u.disc = false →
    (s.reasAt b.alloc).exp = some (h / 2 ^ 10 % 64) → u.octets.length + n < 16 + u.len →
    ∃ t, exec (.upstreamSegment c ovr) s = .next t ∧ t = { s with traf := t.traf } ∧
      t.reasAt b.alloc = ⟨some ((h / 2 ^ 10 % 64 + 1) % 64), some { u with octets := u.octets ++ seg }, s.now⟩ ∧
      t.burstsOf c = (if b.octets.length = b.pos + 4 + n then rest else { b with pos := b.pos + 4 + n } :: rest)) ∧
  (∀ (s : State) (a : Fin 65536) (u : UpUnit), (s.reasAt a).unit = some u → (s.reasAt a).at_ + 8000 * ticksFr ≤ s.now →
    u.queue < 141312 →
    ∃ t, exec (.reassemblyTimeout a) s = .next t ∧ (t.reasAt a).unit = none ∧ (t.reasAt a).exp = none ∧
      UP_TIMEOUT.counted s t (a / 1024) 1 ∧
      (u.disc = false → t.packet u.desc = none ∧ ∀ e ∈ t.queue u.queue, e.desc ≠ u.desc)) ∧
  (∀ (s : State) (k : Fin 8) (v : Verify) (rest : List Verify) (x : KeySlot) (g : KeyGen),
    sget (fun _ => []) s.traf.verify k = v :: rest → v.tR ≤ s.now → s.keyOf (.term (v.alloc / 4)) = some x → x.gen v.phase = some g →
    g.marks.contains v.ctr = false → v.page < 64 → v.queue < 141312 →
    ∃ t, exec (.upstreamTagResult k) s = .next t ∧ sget (fun _ => []) t.traf.verify k = rest ∧
      ((∀ f ∈ s.traf.sent, f.desc ≠ v.desc) → s.rdb EDW_STAT_ERROR = false →
        (v.good = true → t.keyOf (.term (v.alloc / 4)) = some (x.setGen v.phase (some (g.mark v.ctr))) ∧
          t.queue v.queue = (s.queue v.queue).map fun e => if e.desc = v.desc then { e with ready := true } else e) ∧
        (v.good = false → t.keyOf (.term (v.alloc / 4)) = some x ∧ FWD_TAG_FAIL.counted s t v.page 1 ∧ t.packet v.desc = none ∧
          ∀ e ∈ t.queue v.queue, e.desc ≠ v.desc)) ∧
      (s.rdb EDW_STAT_ERROR = true → t.keyOf (.term (v.alloc / 4)) = some x ∧ EDW_NOKEY_DROP.counted s t v.page 1 ∧
        t.packet v.desc = none) ∧
      (∀ f, s.traf.sent.find? (fun y => y.desc = v.desc) = some f → s.rdb EDW_STAT_ERROR = false → v.good = false →
        t.packet v.desc = none ∧ (∀ y ∈ t.traf.sent, y.desc ≠ v.desc) ∧
        (v.tR < f.start → sget (fun _ => []) t.traf.wire f.port = sget (fun _ => []) s.traf.wire f.port) ∧
        (f.start ≤ v.tR → let cut := f.frame.take (25 * (v.tR - f.start))
          sget (fun _ => []) t.traf.wire f.port = cut ++ (fcsOctets cut).map (255 - ·)))) ∧
  (∀ (s v : State) (e : Fin 532) (q : Nat) (x : QEnt) (rest : List QEnt) (k : Packet), s.up = true → s.forwards = true →
    s.egressUp e = true → s.hasRoom e = true → ((s.countBadQueues e).seeEgress e).pickEgress e = some (q, v) →
    v.queue q = x :: rest → v.packet x.desc = some k →
    ∃ t, exec (.egressTxOpportunity e) s = .next t ∧ t.queue q = rest ∧
      t.packet x.desc = (if (v.leave e q x k).1 = .held then some k else none)) ∧
  (∀ s : State, s.up = true → s.traf.sweepSf ≤ s.now / ticksSf →
    ∃ t, exec .queueSweep s = .next t ∧ t = { s with regs := t.regs, traf := t.traf } ∧ t.traf.sweepSf = s.now / ticksSf + 1 ∧
      t.traf.sweepAt = s.now ∧ t.rd QUE_SWEEP_BUSY = 1 ∧ t.rd QUE_SWEEP_SF = s.rd QUE_SWEEP_SF ∧
      t.traf.sweep = sput (fun _ => (0, 0)) s.traf.sweep 0 (s.sample 0)) ∧
  (∀ (s : State) (q : Nat), s.rdb QUE_SWEEP_BUSY = true → s.now = s.traf.sweepAt + sweepTicks * q → q < sweepQueues →
    (s.sweepGoesOn).traf.sweep = sput (fun _ => (0, 0)) s.traf.sweep q (s.sample q) ∧
      (q + 1 = sweepQueues → (s.sweepGoesOn).rd QUE_SWEEP_BUSY = 0 ∧ (s.sweepGoesOn).rd QUE_SWEEP_SF = (s.traf.sweepSf - 1) % 2 ^ 36)) ∧
  (∀ (s : State) (p : Fin 16), s.domOn 76 = true →
    (∃ t, exec (.portLinkUp p) s = .next t ∧ t.rd PORT_STAT_LINK p = 1 ∧ t.rd PORT_STAT_ALIGN p = 1 ∧
      t = { s with regs := t.regs, traf := t.traf }) ∧
    (s.rdb PORT_STAT_LINK p = true → ∃ t, exec (.portLinkDown p) s = .next t ∧ t.rd PORT_STAT_LINK p = 0 ∧
      t.rd PORT_STAT_ALIGN p = 0 ∧ (∀ m ∈ t.traf.marks, m.1 ≠ p.val) ∧
      TIME_TSQ_NOTX.counted s t 0 (s.traf.marks.countP fun m => m.1 = p.val))) ∧
  (∀ (s : State) (t : Fin 64) (n : Nat) (hits : List (Fin 8 × Nat × BitVec 39)), s.domOn t = true → s.imgRuns t = false → n = (s.tree t).lastN + 1 → 2 ≤ n →
    s.deadline t n ≤ s.now → s.commitRuns t n = false →
    ∃ v, exec (.mapDeadline t hits) s = .next v ∧ (v.tree t).lastN = n ∧ ∀ w, w < 8 →
      (s.dsLight (8 * t + w) = false → v.rd TREE_MAPSTAT_SRC t w = 3 ∧ v.rd TREE_MAPSTAT_COUNT t w = 0 ∧
        (v.chan (8 * t + w)).maps = (n, []) :: (s.chan (8 * t + w)).maps.take 7) ∧
      (∀ k gs, s.dsLight (8 * t + w) = true → ((s.chan (8 * t + w)).commits.find? fun m => m.1 = n) = some (k, gs) →
        v.rd TREE_MAPSTAT_SRC t w = 0 ∧ v.rd TREE_MAPSTAT_HOLDRUN t w = 0 ∧ v.rd TREE_MAPSTAT_COUNT t w = gs.length % 2 ^ 9 ∧
        (v.chan (8 * t + w)).maps = (n, gs) :: (s.chan (8 * t + w)).maps.take 7))

/-- For every state and command: a step with the command at the front of the queue is exec of it on the state with the
rest of the queue. On an empty queue a step answers the state one tick on, with what then falls due to be measured,
which is the model's own choice (log entries 1, 114 and 136). -/
def Obligations.StepRunsFrontCommand : Prop :=
  (∀ (s : State) (c : Instr) (rest : List Instr), s.pending = c :: rest → step s = exec c { s with pending := rest }) ∧
  (∀ s : State, s.pending = [] → step s = .next s.tick.readMeters.idleFill)

/-- The reset state has an empty queue, LP 0:0:0, no listed memory word, no counter raised and no key; every register
word but PWR_DOM[79] holds the reset values of its fields, domain 79 alone is ON, the mode is HOUSEKEEPING, every core
is OFF, and the tables are in canonical form. Which domain is ON at reset is the model's choice (log entry 3). Among
the values: LINE_TX_PWR.ATT 511, LINE_RX_PWR.IN -51.2 dBm. -/
def Obligations.ResetState : Prop :=
  State.reset.pending = [] ∧ State.reset.now = 0 ∧ State.reset.mem = [] ∧ State.reset.cnt = [] ∧ State.reset.edw.keys = [] ∧
  State.reset.canonical = true ∧ State.reset.queueOk = true ∧ State.reset.legalMode = true ∧
  (∀ a, a ≠ PWR_DOM_STATE.addr 0 79 0 → State.reset.reg a = resetWord a) ∧
  (∀ d, d < 80 → (State.reset.domOn d = true ↔ d = 79)) ∧ State.reset.mode = modeHousekeeping ∧
  (∀ n, n < 77 → State.reset.coreState n = cOff) ∧
  (∀ l, l < 4 → State.reset.rd LINE_TX_PWR_ATT l = 511 ∧ State.reset.rdi LINE_RX_PWR_IN l = -512)

/-- For every lane of a memory word and every store with lane enables: an enabled lane written from a poisoned value
holds the poison marker, data zero with check bits all ones, and reads poisoned; one written from a clean value reads
clean with that value's bits, whatever it held before; a lane that the store does not enable keeps its stored bits;
and every other word is as before. -/
def Obligations.StoredLanes : Prop :=
  ∀ (s : State) (a le : Nat) (v : PWord),
    let x := (s.memWrite a le v).memAt a
    (∀ l, l < 4 → le.testBit l = true → v.p = true →
      laneData x.data l = 0 ∧ laneChk x.chk l = 31 ∧ (x.lane l).1 = .poisoned) ∧
    (∀ l, l < 4 → le.testBit l = true → v.p = false → x.lane l = (.clean, laneData v.v l)) ∧
    (∀ l, l < 4 → le.testBit l = false →
      laneData x.data l = laneData (s.memAt a).data l ∧ laneChk x.chk l = laneChk (s.memAt a).chk l) ∧
    (∀ b, b ≠ a → (s.memWrite a le v).memAt b = s.memAt b)

/-- Word B is written with its four reserved bits zero, and reading it ignores them; a tick field above 499,999 makes
an LP invalid, and the 13-bit frame field never exceeds 8,191; valid LPs are ordered by superframe, then frame, then
tick; a position written as words and read again is the same position, so that adding an interval carries from the
tick to the frame at 500,000 and from the frame to the superframe at 8,192: 17:8191:400000 plus 250,000 ticks is
18:0:150000. -/
def Obligations.LinePositionWords : Prop :=
  (∀ t, lpB t % 16 = 0) ∧
  (∀ a b r, r < 16 → lpTicks a (b / 16 * 16 + r) = lpTicks a b ∧ lpOk (b / 16 * 16 + r) = lpOk b) ∧
  (∀ b, lpOk b = true ↔ ¬ 499999 < bitsOf b 22 4) ∧ (∀ b, bitsOf b 35 23 ≤ 8191) ∧
  (∀ a b c d, lpOk b = true → lpOk d = true →
    (lpTicks a b < lpTicks c d ↔ a < c ∨ (a = c ∧ (bitsOf b 35 23 < bitsOf d 35 23 ∨
      (bitsOf b 35 23 = bitsOf d 35 23 ∧ bitsOf b 22 4 < bitsOf d 22 4))))) ∧
  (∀ t k, t + k < 2 ^ 36 * ticksSf → lpTicks (lpA (t + k)) (lpB (t + k)) = t + k ∧ lpOk (lpB (t + k)) = true ∧
    bitsOf (lpB (t + k)) 22 4 = (t + k) % 500000 ∧ bitsOf (lpB (t + k)) 35 23 = (t + k) / 500000 % 8192 ∧
    lpA (t + k) = (t + k) / 500000 / 8192) ∧
  (let at_ := fun (sf fr tk : Nat) => (sf * 8192 + fr) * 500000 + tk
   at_ 17 8191 400000 + 250000 = at_ 18 0 150000)

/-- For every well-formed Hergil instruction of any core, with every operand at every value its field admits: its
encoding has one word, or two exactly when its opcode is of format X, and decoding them for that core gives the
instruction. The outcome operands of issue, waitt, waita and cpop, which no word holds, are at their first value. -/
def Obligations.HergilDecodeOfEncode : Prop :=
  ∀ (i : Instr) (ws : List Word), i.wf = true → encodeHergil i = some ws →
    (∀ n a t, i ≠ .issue n a t true) → (∀ n d t, i ≠ .waitt n d t true) → (∀ n d, i ≠ .waita n d true ∧ i ≠ .cpop n d true) →
    ws.length = (if isX (ws.headD 0) then 2 else 1) ∧ ∃ n, n < 77 ∧ decodeHergil n (ws.headD 0) (ws.getD 1 0) = some i

/-- From every state in which the lane memories, the register words, the raw bits of tables and buffer, and the
counters are each listed in strictly rising order with no entry equal to what an unlisted one reads as, every step,
whichever of the commands is at the front of the queue, and the tick on an empty queue, gives a state of which the
same holds; so equal contents are equal data in every run. -/
def Obligations.EveryStepKeepsTheCanonicalForms : Prop :=
  ∀ s t : State, s.canonical = true → step s = .next t → t.canonical = true

/-- Whatever the command, a step removes it from the queue and changes nothing else there: nothing joins, overtakes or
is lost; every step answers a next state, and after k steps the queue is what it was without its first k commands. The
queue is the model's own (log entry 1). -/
def Obligations.CommandsLeaveTheQueueInOrder : Prop :=
  (∀ s : State, ∃ t, step s = .next t ∧ t.pending = s.pending.tail) ∧
  (∀ (k : Nat) (s : State), ∃ t, run k s = some t ∧ t.pending = s.pending.drop k)
end

