-- ==== Sys2Proof/Laws/Sparse.lean ====
section
/-! SUPPORT. The laws of sparse tables: what a read after a write gives, whatever the table, and that every
operation keeps the canonical form. -/

namespace Sys2Proof.Machine

variable {α : Type} {d : Nat → α}

/-- A dropped key reads as unlisted. -/
theorem sget_sdrop_of (p : Nat → Bool) (t : List (Nat × α)) {k : Nat} (hk : p k = true) :
    sget d (sdrop p t) k = d k := by
  induction t with
  | nil => rfl
  | cons e t ih =>
    obtain ⟨j, v⟩ := e
    by_cases hj : j = k
    · subst hj; simpa [sdrop, hk] using ih
    · by_cases hp : p j
      · simpa [sdrop, hp] using ih
      · simpa [sdrop, hp, sget, hj] using ih

/-- A key that is not dropped reads as before. -/
theorem sget_sdrop_ne (p : Nat → Bool) (t : List (Nat × α)) {k : Nat} (hk : p k = false) :
    sget d (sdrop p t) k = sget d t k := by
  induction t with
  | nil => rfl
  | cons e t ih =>
    obtain ⟨j, v⟩ := e
    by_cases hj : j = k
    · subst hj; simp [sdrop, hk, sget]
    · by_cases hp : p j
      · simpa [sdrop, hp, sget, hj] using ih
      · simpa [sdrop, hp, sget, hj] using ih

/-- Reading the key just set. -/
theorem sget_sins_same (t : List (Nat × α)) (k : Nat) (v : α) : sget d (sins t k v) k = v := by
  induction t with
  | nil => simp [sins, sget]
  | cons e t ih =>
    obtain ⟨j, u⟩ := e
    simp only [sins]
    split
    · simp [sget]
    · split
      · simp [sget]
      · rename_i hj; simpa [sget, hj] using ih

/-- Setting a key leaves every other key alone. -/
theorem sget_sins_ne (t : List (Nat × α)) {k k' : Nat} (v : α) (hk : k' ≠ k) :
    sget d (sins t k v) k' = sget d t k' := by
  induction t with
  | nil => simp [sins, sget, Ne.symm hk]
  | cons e t ih =>
    obtain ⟨j, u⟩ := e
    simp only [sins]
    split
    · simp [sget, Ne.symm hk]
    · split
      · subst_vars; simp [sget, Ne.symm hk]
      · simp only [sget, ih]

variable [DecidableEq α]

/-- Reading the key just written gives the value written. -/
@[simp] theorem sget_sput (t : List (Nat × α)) (k : Nat) (v : α) : sget d (sput d t k v) k = v := by
  unfold sput
  split
  · rename_i h; rw [sget_sdrop_of _ _ (by simp), h]
  · exact sget_sins_same t k v

/-- A write leaves every other key alone. -/
theorem sget_sput_ne (t : List (Nat × α)) {k k' : Nat} (v : α) (hk : k' ≠ k) :
    sget d (sput d t k v) k' = sget d t k' := by
  unfold sput
  split
  · exact sget_sdrop_ne _ _ (by simpa using hk)
  · exact sget_sins_ne t v hk

/-- A canonical table above `lo` is canonical above any smaller bound. -/
theorem swfFrom_mono {t : List (Nat × α)} {a b : Nat} (h : swfFrom d b t) (hab : a ≤ b) :
    swfFrom d a t := by
  cases t with
  | nil => rfl
  | cons e t =>
    obtain ⟨j, v⟩ := e
    simp [swfFrom] at *
    exact ⟨⟨by omega, h.1.2⟩, h.2⟩

/-- Dropping keys keeps the canonical form. -/
theorem swfFrom_sdrop (p : Nat → Bool) {t : List (Nat × α)} {lo : Nat} (h : swfFrom d lo t) :
    swfFrom d lo (sdrop p t) := by
  induction t generalizing lo with
  | nil => rfl
  | cons e t ih =>
    obtain ⟨j, v⟩ := e
    simp [swfFrom] at h
    have hs := ih h.2
    by_cases hp : p j
    · simpa [sdrop, hp] using swfFrom_mono hs (by omega)
    · simpa [sdrop, hp, swfFrom, h.1] using hs

/-- Setting a key to what is not its default keeps the canonical form. -/
theorem swfFrom_sins {t : List (Nat × α)} {lo k : Nat} {v : α} (h : swfFrom d lo t) (hk : lo ≤ k) (hv : v ≠ d k) :
    swfFrom d lo (sins t k v) := by
  induction t generalizing lo with
  | nil => simp [sins, swfFrom, hv, hk]
  | cons e t ih =>
    obtain ⟨j, u⟩ := e
    simp [swfFrom] at h
    simp only [sins]
    split
    · rename_i hkj; simp [swfFrom, hk, hv, h.1.2, h.2]; omega
    · split
      · subst_vars; simp [swfFrom, hk, hv, h.2]
      · have := ih h.2 (by omega : j + 1 ≤ k)
        simp [swfFrom, h.1, this]

/-- Dropping keys keeps the canonical form of a whole table. -/
theorem swf_sdrop (p : Nat → Bool) {t : List (Nat × α)} (h : swf d t) : swf d (sdrop p t) :=
  swfFrom_sdrop p h

/-- A write keeps the canonical form of a whole table. -/
theorem swf_sput {t : List (Nat × α)} (h : swf d t) (k : Nat) (v : α) : swf d (sput d t k v) := by
  unfold sput
  split
  · exact swf_sdrop _ h
  · rename_i hv; exact swfFrom_sins h (Nat.zero_le k) hv

end Sys2Proof.Machine
end

