-- ==== Sys2Proof/Laws/State.lean ====
section
/-! SUPPORT. One lemma per field of the state and per named update: what the update leaves alone, and what it sets. -/

namespace Sys2Proof.Machine

variable (s : State)

@[simp] theorem setReg_pending (a : Nat) (w : Word) : (s.setReg a w).pending = s.pending := rfl
@[simp] theorem setReg_now (a : Nat) (w : Word) : (s.setReg a w).now = s.now := rfl
@[simp] theorem setReg_free (a : Nat) (w : Word) : (s.setReg a w).free = s.free := rfl
@[simp] theorem setReg_calAcc (a : Nat) (w : Word) : (s.setReg a w).calAcc = s.calAcc := rfl
@[simp] theorem setReg_calCnt (a : Nat) (w : Word) : (s.setReg a w).calCnt = s.calCnt := rfl
@[simp] theorem setReg_mem (a : Nat) (w : Word) : (s.setReg a w).mem = s.mem := rfl
@[simp] theorem setReg_tblRaw (a : Nat) (w : Word) : (s.setReg a w).tblRaw = s.tblRaw := rfl
@[simp] theorem setReg_bufRaw (a : Nat) (w : Word) : (s.setReg a w).bufRaw = s.bufRaw := rfl
@[simp] theorem setReg_cnt (a : Nat) (w : Word) : (s.setReg a w).cnt = s.cnt := rfl
@[simp] theorem setReg_latch (a : Nat) (w : Word) : (s.setReg a w).latch = s.latch := rfl
@[simp] theorem setReg_time (a : Nat) (w : Word) : (s.setReg a w).time = s.time := rfl
@[simp] theorem setReg_cores (a : Nat) (w : Word) : (s.setReg a w).cores = s.cores := rfl
@[simp] theorem setReg_mtx (a : Nat) (w : Word) : (s.setReg a w).mtx = s.mtx := rfl
@[simp] theorem setReg_mtxLast (a : Nat) (w : Word) : (s.setReg a w).mtxLast = s.mtxLast := rfl
@[simp] theorem setReg_ramTurn (a : Nat) (w : Word) : (s.setReg a w).ramTurn = s.ramTurn := rfl
@[simp] theorem setReg_zeroing (a : Nat) (w : Word) : (s.setReg a w).zeroing = s.zeroing := rfl
@[simp] theorem setReg_img (a : Nat) (w : Word) : (s.setReg a w).img = s.img := rfl
@[simp] theorem setReg_evt (a : Nat) (w : Word) : (s.setReg a w).evt = s.evt := rfl
@[simp] theorem setReg_grm (a : Nat) (w : Word) : (s.setReg a w).grm = s.grm := rfl
@[simp] theorem setReg_svc (a : Nat) (w : Word) : (s.setReg a w).svc = s.svc := rfl
@[simp] theorem setReg_pwr (a : Nat) (w : Word) : (s.setReg a w).pwr = s.pwr := rfl
@[simp] theorem setReg_edw (a : Nat) (w : Word) : (s.setReg a w).edw = s.edw := rfl
@[simp] theorem setReg_lines (a : Nat) (w : Word) : (s.setReg a w).lines = s.lines := rfl
@[simp] theorem setReg_traf (a : Nat) (w : Word) : (s.setReg a w).traf = s.traf := rfl
@[simp] theorem setReg_chans (a : Nat) (w : Word) : (s.setReg a w).chans = s.chans := rfl
@[simp] theorem setReg_trees (a : Nat) (w : Word) : (s.setReg a w).trees = s.trees := rfl
@[simp] theorem setReg_mons (a : Nat) (w : Word) : (s.setReg a w).mons = s.mons := rfl
@[simp] theorem setReg_ohDo (a : Nat) (w : Word) : (s.setReg a w).ohDo = s.ohDo := rfl
@[simp] theorem setReg_calCmds (a : Nat) (w : Word) : (s.setReg a w).calCmds = s.calCmds := rfl

@[simp] theorem wr_pending (f : Field) (v i a b : Nat) : (s.wr f v i a b).pending = s.pending := rfl
@[simp] theorem wr_now (f : Field) (v i a b : Nat) : (s.wr f v i a b).now = s.now := rfl
@[simp] theorem wr_free (f : Field) (v i a b : Nat) : (s.wr f v i a b).free = s.free := rfl
@[simp] theorem wr_calAcc (f : Field) (v i a b : Nat) : (s.wr f v i a b).calAcc = s.calAcc := rfl
@[simp] theorem wr_calCnt (f : Field) (v i a b : Nat) : (s.wr f v i a b).calCnt = s.calCnt := rfl
@[simp] theorem wr_mem (f : Field) (v i a b : Nat) : (s.wr f v i a b).mem = s.mem := rfl
@[simp] theorem wr_tblRaw (f : Field) (v i a b : Nat) : (s.wr f v i a b).tblRaw = s.tblRaw := rfl
@[simp] theorem wr_bufRaw (f : Field) (v i a b : Nat) : (s.wr f v i a b).bufRaw = s.bufRaw := rfl
@[simp] theorem wr_cnt (f : Field) (v i a b : Nat) : (s.wr f v i a b).cnt = s.cnt := rfl
@[simp] theorem wr_latch (f : Field) (v i a b : Nat) : (s.wr f v i a b).latch = s.latch := rfl
@[simp] theorem wr_time (f : Field) (v i a b : Nat) : (s.wr f v i a b).time = s.time := rfl
@[simp] theorem wr_cores (f : Field) (v i a b : Nat) : (s.wr f v i a b).cores = s.cores := rfl
@[simp] theorem wr_mtx (f : Field) (v i a b : Nat) : (s.wr f v i a b).mtx = s.mtx := rfl
@[simp] theorem wr_mtxLast (f : Field) (v i a b : Nat) : (s.wr f v i a b).mtxLast = s.mtxLast := rfl
@[simp] theorem wr_ramTurn (f : Field) (v i a b : Nat) : (s.wr f v i a b).ramTurn = s.ramTurn := rfl
@[simp] theorem wr_zeroing (f : Field) (v i a b : Nat) : (s.wr f v i a b).zeroing = s.zeroing := rfl
@[simp] theorem wr_img (f : Field) (v i a b : Nat) : (s.wr f v i a b).img = s.img := rfl
@[simp] theorem wr_evt (f : Field) (v i a b : Nat) : (s.wr f v i a b).evt = s.evt := rfl
@[simp] theorem wr_grm (f : Field) (v i a b : Nat) : (s.wr f v i a b).grm = s.grm := rfl
@[simp] theorem wr_svc (f : Field) (v i a b : Nat) : (s.wr f v i a b).svc = s.svc := rfl
@[simp] theorem wr_pwr (f : Field) (v i a b : Nat) : (s.wr f v i a b).pwr = s.pwr := rfl
@[simp] theorem wr_edw (f : Field) (v i a b : Nat) : (s.wr f v i a b).edw = s.edw := rfl
@[simp] theorem wr_lines (f : Field) (v i a b : Nat) : (s.wr f v i a b).lines = s.lines := rfl
@[simp] theorem wr_traf (f : Field) (v i a b : Nat) : (s.wr f v i a b).traf = s.traf := rfl
@[simp] theorem wr_chans (f : Field) (v i a b : Nat) : (s.wr f v i a b).chans = s.chans := rfl
@[simp] theorem wr_trees (f : Field) (v i a b : Nat) : (s.wr f v i a b).trees = s.trees := rfl
@[simp] theorem wr_mons (f : Field) (v i a b : Nat) : (s.wr f v i a b).mons = s.mons := rfl
@[simp] theorem wr_ohDo (f : Field) (v i a b : Nat) : (s.wr f v i a b).ohDo = s.ohDo := rfl
@[simp] theorem wr_calCmds (f : Field) (v i a b : Nat) : (s.wr f v i a b).calCmds = s.calCmds := rfl

@[simp] theorem wri_pending (f : Field) (v : Int) (i a b : Nat) : (s.wri f v i a b).pending = s.pending := rfl
@[simp] theorem wri_now (f : Field) (v : Int) (i a b : Nat) : (s.wri f v i a b).now = s.now := rfl
@[simp] theorem wri_free (f : Field) (v : Int) (i a b : Nat) : (s.wri f v i a b).free = s.free := rfl
@[simp] theorem wri_calAcc (f : Field) (v : Int) (i a b : Nat) : (s.wri f v i a b).calAcc = s.calAcc := rfl
@[simp] theorem wri_calCnt (f : Field) (v : Int) (i a b : Nat) : (s.wri f v i a b).calCnt = s.calCnt := rfl
@[simp] theorem wri_mem (f : Field) (v : Int) (i a b : Nat) : (s.wri f v i a b).mem = s.mem := rfl
@[simp] theorem wri_tblRaw (f : Field) (v : Int) (i a b : Nat) : (s.wri f v i a b).tblRaw = s.tblRaw := rfl
@[simp] theorem wri_bufRaw (f : Field) (v : Int) (i a b : Nat) : (s.wri f v i a b).bufRaw = s.bufRaw := rfl
@[simp] theorem wri_cnt (f : Field) (v : Int) (i a b : Nat) : (s.wri f v i a b).cnt = s.cnt := rfl
@[simp] theorem wri_latch (f : Field) (v : Int) (i a b : Nat) : (s.wri f v i a b).latch = s.latch := rfl
@[simp] theorem wri_time (f : Field) (v : Int) (i a b : Nat) : (s.wri f v i a b).time = s.time := rfl
@[simp] theorem wri_cores (f : Field) (v : Int) (i a b : Nat) : (s.wri f v i a b).cores = s.cores := rfl
@[simp] theorem wri_mtx (f : Field) (v : Int) (i a b : Nat) : (s.wri f v i a b).mtx = s.mtx := rfl
@[simp] theorem wri_mtxLast (f : Field) (v : Int) (i a b : Nat) : (s.wri f v i a b).mtxLast = s.mtxLast := rfl
@[simp] theorem wri_ramTurn (f : Field) (v : Int) (i a b : Nat) : (s.wri f v i a b).ramTurn = s.ramTurn := rfl
@[simp] theorem wri_zeroing (f : Field) (v : Int) (i a b : Nat) : (s.wri f v i a b).zeroing = s.zeroing := rfl
@[simp] theorem wri_img (f : Field) (v : Int) (i a b : Nat) : (s.wri f v i a b).img = s.img := rfl
@[simp] theorem wri_evt (f : Field) (v : Int) (i a b : Nat) : (s.wri f v i a b).evt = s.evt := rfl
@[simp] theorem wri_grm (f : Field) (v : Int) (i a b : Nat) : (s.wri f v i a b).grm = s.grm := rfl
@[simp] theorem wri_svc (f : Field) (v : Int) (i a b : Nat) : (s.wri f v i a b).svc = s.svc := rfl
@[simp] theorem wri_pwr (f : Field) (v : Int) (i a b : Nat) : (s.wri f v i a b).pwr = s.pwr := rfl
@[simp] theorem wri_edw (f : Field) (v : Int) (i a b : Nat) : (s.wri f v i a b).edw = s.edw := rfl
@[simp] theorem wri_lines (f : Field) (v : Int) (i a b : Nat) : (s.wri f v i a b).lines = s.lines := rfl
@[simp] theorem wri_traf (f : Field) (v : Int) (i a b : Nat) : (s.wri f v i a b).traf = s.traf := rfl
@[simp] theorem wri_chans (f : Field) (v : Int) (i a b : Nat) : (s.wri f v i a b).chans = s.chans := rfl
@[simp] theorem wri_trees (f : Field) (v : Int) (i a b : Nat) : (s.wri f v i a b).trees = s.trees := rfl
@[simp] theorem wri_mons (f : Field) (v : Int) (i a b : Nat) : (s.wri f v i a b).mons = s.mons := rfl
@[simp] theorem wri_ohDo (f : Field) (v : Int) (i a b : Nat) : (s.wri f v i a b).ohDo = s.ohDo := rfl
@[simp] theorem wri_calCmds (f : Field) (v : Int) (i a b : Nat) : (s.wri f v i a b).calCmds = s.calCmds := rfl

@[simp] theorem inc_pending (f : Field) (k i a b : Nat) : (s.inc f k i a b).pending = s.pending := rfl
@[simp] theorem inc_now (f : Field) (k i a b : Nat) : (s.inc f k i a b).now = s.now := rfl
@[simp] theorem inc_free (f : Field) (k i a b : Nat) : (s.inc f k i a b).free = s.free := rfl
@[simp] theorem inc_calAcc (f : Field) (k i a b : Nat) : (s.inc f k i a b).calAcc = s.calAcc := rfl
@[simp] theorem inc_calCnt (f : Field) (k i a b : Nat) : (s.inc f k i a b).calCnt = s.calCnt := rfl
@[simp] theorem inc_mem (f : Field) (k i a b : Nat) : (s.inc f k i a b).mem = s.mem := rfl
@[simp] theorem inc_tblRaw (f : Field) (k i a b : Nat) : (s.inc f k i a b).tblRaw = s.tblRaw := rfl
@[simp] theorem inc_bufRaw (f : Field) (k i a b : Nat) : (s.inc f k i a b).bufRaw = s.bufRaw := rfl
@[simp] theorem inc_cnt (f : Field) (k i a b : Nat) : (s.inc f k i a b).cnt = s.cnt := rfl
@[simp] theorem inc_latch (f : Field) (k i a b : Nat) : (s.inc f k i a b).latch = s.latch := rfl
@[simp] theorem inc_time (f : Field) (k i a b : Nat) : (s.inc f k i a b).time = s.time := rfl
@[simp] theorem inc_cores (f : Field) (k i a b : Nat) : (s.inc f k i a b).cores = s.cores := rfl
@[simp] theorem inc_mtx (f : Field) (k i a b : Nat) : (s.inc f k i a b).mtx = s.mtx := rfl
@[simp] theorem inc_mtxLast (f : Field) (k i a b : Nat) : (s.inc f k i a b).mtxLast = s.mtxLast := rfl
@[simp] theorem inc_ramTurn (f : Field) (k i a b : Nat) : (s.inc f k i a b).ramTurn = s.ramTurn := rfl
@[simp] theorem inc_zeroing (f : Field) (k i a b : Nat) : (s.inc f k i a b).zeroing = s.zeroing := rfl
@[simp] theorem inc_img (f : Field) (k i a b : Nat) : (s.inc f k i a b).img = s.img := rfl
@[simp] theorem inc_evt (f : Field) (k i a b : Nat) : (s.inc f k i a b).evt = s.evt := rfl
@[simp] theorem inc_grm (f : Field) (k i a b : Nat) : (s.inc f k i a b).grm = s.grm := rfl
@[simp] theorem inc_svc (f : Field) (k i a b : Nat) : (s.inc f k i a b).svc = s.svc := rfl
@[simp] theorem inc_pwr (f : Field) (k i a b : Nat) : (s.inc f k i a b).pwr = s.pwr := rfl
@[simp] theorem inc_edw (f : Field) (k i a b : Nat) : (s.inc f k i a b).edw = s.edw := rfl
@[simp] theorem inc_lines (f : Field) (k i a b : Nat) : (s.inc f k i a b).lines = s.lines := rfl
@[simp] theorem inc_traf (f : Field) (k i a b : Nat) : (s.inc f k i a b).traf = s.traf := rfl
@[simp] theorem inc_chans (f : Field) (k i a b : Nat) : (s.inc f k i a b).chans = s.chans := rfl
@[simp] theorem inc_trees (f : Field) (k i a b : Nat) : (s.inc f k i a b).trees = s.trees := rfl
@[simp] theorem inc_mons (f : Field) (k i a b : Nat) : (s.inc f k i a b).mons = s.mons := rfl
@[simp] theorem inc_ohDo (f : Field) (k i a b : Nat) : (s.inc f k i a b).ohDo = s.ohDo := rfl
@[simp] theorem inc_calCmds (f : Field) (k i a b : Nat) : (s.inc f k i a b).calCmds = s.calCmds := rfl

@[simp] theorem resetRegs_pending (rs : List Retention) (p : Nat → Bool) : (s.resetRegs rs p).pending = s.pending := rfl
@[simp] theorem resetRegs_now (rs : List Retention) (p : Nat → Bool) : (s.resetRegs rs p).now = s.now := rfl
@[simp] theorem resetRegs_free (rs : List Retention) (p : Nat → Bool) : (s.resetRegs rs p).free = s.free := rfl
@[simp] theorem resetRegs_calAcc (rs : List Retention) (p : Nat → Bool) : (s.resetRegs rs p).calAcc = s.calAcc := rfl
@[simp] theorem resetRegs_calCnt (rs : List Retention) (p : Nat → Bool) : (s.resetRegs rs p).calCnt = s.calCnt := rfl
@[simp] theorem resetRegs_mem (rs : List Retention) (p : Nat → Bool) : (s.resetRegs rs p).mem = s.mem := rfl
@[simp] theorem resetRegs_tblRaw (rs : List Retention) (p : Nat → Bool) : (s.resetRegs rs p).tblRaw = s.tblRaw := rfl
@[simp] theorem resetRegs_bufRaw (rs : List Retention) (p : Nat → Bool) : (s.resetRegs rs p).bufRaw = s.bufRaw := rfl
@[simp] theorem resetRegs_cnt (rs : List Retention) (p : Nat → Bool) : (s.resetRegs rs p).cnt = s.cnt := rfl
@[simp] theorem resetRegs_latch (rs : List Retention) (p : Nat → Bool) : (s.resetRegs rs p).latch = s.latch := rfl
@[simp] theorem resetRegs_time (rs : List Retention) (p : Nat → Bool) : (s.resetRegs rs p).time = s.time := rfl
@[simp] theorem resetRegs_cores (rs : List Retention) (p : Nat → Bool) : (s.resetRegs rs p).cores = s.cores := rfl
@[simp] theorem resetRegs_mtx (rs : List Retention) (p : Nat → Bool) : (s.resetRegs rs p).mtx = s.mtx := rfl
@[simp] theorem resetRegs_mtxLast (rs : List Retention) (p : Nat → Bool) : (s.resetRegs rs p).mtxLast = s.mtxLast := rfl
@[simp] theorem resetRegs_ramTurn (rs : List Retention) (p : Nat → Bool) : (s.resetRegs rs p).ramTurn = s.ramTurn := rfl
@[simp] theorem resetRegs_zeroing (rs : List Retention) (p : Nat → Bool) : (s.resetRegs rs p).zeroing = s.zeroing := rfl
@[simp] theorem resetRegs_img (rs : List Retention) (p : Nat → Bool) : (s.resetRegs rs p).img = s.img := rfl
@[simp] theorem resetRegs_evt (rs : List Retention) (p : Nat → Bool) : (s.resetRegs rs p).evt = s.evt := rfl
@[simp] theorem resetRegs_grm (rs : List Retention) (p : Nat → Bool) : (s.resetRegs rs p).grm = s.grm := rfl
@[simp] theorem resetRegs_svc (rs : List Retention) (p : Nat → Bool) : (s.resetRegs rs p).svc = s.svc := rfl
@[simp] theorem resetRegs_pwr (rs : List Retention) (p : Nat → Bool) : (s.resetRegs rs p).pwr = s.pwr := rfl
@[simp] theorem resetRegs_edw (rs : List Retention) (p : Nat → Bool) : (s.resetRegs rs p).edw = s.edw := rfl
@[simp] theorem resetRegs_lines (rs : List Retention) (p : Nat → Bool) : (s.resetRegs rs p).lines = s.lines := rfl
@[simp] theorem resetRegs_traf (rs : List Retention) (p : Nat → Bool) : (s.resetRegs rs p).traf = s.traf := rfl
@[simp] theorem resetRegs_chans (rs : List Retention) (p : Nat → Bool) : (s.resetRegs rs p).chans = s.chans := rfl
@[simp] theorem resetRegs_trees (rs : List Retention) (p : Nat → Bool) : (s.resetRegs rs p).trees = s.trees := rfl
@[simp] theorem resetRegs_mons (rs : List Retention) (p : Nat → Bool) : (s.resetRegs rs p).mons = s.mons := rfl
@[simp] theorem resetRegs_ohDo (rs : List Retention) (p : Nat → Bool) : (s.resetRegs rs p).ohDo = s.ohDo := rfl
@[simp] theorem resetRegs_calCmds (rs : List Retention) (p : Nat → Bool) : (s.resetRegs rs p).calCmds = s.calCmds := rfl

@[simp] theorem setMem_pending (a : Nat) (x : Stored) : (s.setMem a x).pending = s.pending := rfl
@[simp] theorem setMem_now (a : Nat) (x : Stored) : (s.setMem a x).now = s.now := rfl
@[simp] theorem setMem_free (a : Nat) (x : Stored) : (s.setMem a x).free = s.free := rfl
@[simp] theorem setMem_calAcc (a : Nat) (x : Stored) : (s.setMem a x).calAcc = s.calAcc := rfl
@[simp] theorem setMem_calCnt (a : Nat) (x : Stored) : (s.setMem a x).calCnt = s.calCnt := rfl
@[simp] theorem setMem_regs (a : Nat) (x : Stored) : (s.setMem a x).regs = s.regs := rfl
@[simp] theorem setMem_tblRaw (a : Nat) (x : Stored) : (s.setMem a x).tblRaw = s.tblRaw := rfl
@[simp] theorem setMem_bufRaw (a : Nat) (x : Stored) : (s.setMem a x).bufRaw = s.bufRaw := rfl
@[simp] theorem setMem_cnt (a : Nat) (x : Stored) : (s.setMem a x).cnt = s.cnt := rfl
@[simp] theorem setMem_latch (a : Nat) (x : Stored) : (s.setMem a x).latch = s.latch := rfl
@[simp] theorem setMem_time (a : Nat) (x : Stored) : (s.setMem a x).time = s.time := rfl
@[simp] theorem setMem_cores (a : Nat) (x : Stored) : (s.setMem a x).cores = s.cores := rfl
@[simp] theorem setMem_mtx (a : Nat) (x : Stored) : (s.setMem a x).mtx = s.mtx := rfl
@[simp] theorem setMem_mtxLast (a : Nat) (x : Stored) : (s.setMem a x).mtxLast = s.mtxLast := rfl
@[simp] theorem setMem_ramTurn (a : Nat) (x : Stored) : (s.setMem a x).ramTurn = s.ramTurn := rfl
@[simp] theorem setMem_zeroing (a : Nat) (x : Stored) : (s.setMem a x).zeroing = s.zeroing := rfl
@[simp] theorem setMem_img (a : Nat) (x : Stored) : (s.setMem a x).img = s.img := rfl
@[simp] theorem setMem_evt (a : Nat) (x : Stored) : (s.setMem a x).evt = s.evt := rfl
@[simp] theorem setMem_grm (a : Nat) (x : Stored) : (s.setMem a x).grm = s.grm := rfl
@[simp] theorem setMem_svc (a : Nat) (x : Stored) : (s.setMem a x).svc = s.svc := rfl
@[simp] theorem setMem_pwr (a : Nat) (x : Stored) : (s.setMem a x).pwr = s.pwr := rfl
@[simp] theorem setMem_edw (a : Nat) (x : Stored) : (s.setMem a x).edw = s.edw := rfl
@[simp] theorem setMem_lines (a : Nat) (x : Stored) : (s.setMem a x).lines = s.lines := rfl
@[simp] theorem setMem_traf (a : Nat) (x : Stored) : (s.setMem a x).traf = s.traf := rfl
@[simp] theorem setMem_chans (a : Nat) (x : Stored) : (s.setMem a x).chans = s.chans := rfl
@[simp] theorem setMem_trees (a : Nat) (x : Stored) : (s.setMem a x).trees = s.trees := rfl
@[simp] theorem setMem_mons (a : Nat) (x : Stored) : (s.setMem a x).mons = s.mons := rfl
@[simp] theorem setMem_ohDo (a : Nat) (x : Stored) : (s.setMem a x).ohDo = s.ohDo := rfl
@[simp] theorem setMem_calCmds (a : Nat) (x : Stored) : (s.setMem a x).calCmds = s.calCmds := rfl

@[simp] theorem memWrite_pending (a le : Nat) (v : PWord) : (s.memWrite a le v).pending = s.pending := rfl
@[simp] theorem memWrite_now (a le : Nat) (v : PWord) : (s.memWrite a le v).now = s.now := rfl
@[simp] theorem memWrite_free (a le : Nat) (v : PWord) : (s.memWrite a le v).free = s.free := rfl
@[simp] theorem memWrite_calAcc (a le : Nat) (v : PWord) : (s.memWrite a le v).calAcc = s.calAcc := rfl
@[simp] theorem memWrite_calCnt (a le : Nat) (v : PWord) : (s.memWrite a le v).calCnt = s.calCnt := rfl
@[simp] theorem memWrite_regs (a le : Nat) (v : PWord) : (s.memWrite a le v).regs = s.regs := rfl
@[simp] theorem memWrite_tblRaw (a le : Nat) (v : PWord) : (s.memWrite a le v).tblRaw = s.tblRaw := rfl
@[simp] theorem memWrite_bufRaw (a le : Nat) (v : PWord) : (s.memWrite a le v).bufRaw = s.bufRaw := rfl
@[simp] theorem memWrite_cnt (a le : Nat) (v : PWord) : (s.memWrite a le v).cnt = s.cnt := rfl
@[simp] theorem memWrite_latch (a le : Nat) (v : PWord) : (s.memWrite a le v).latch = s.latch := rfl
@[simp] theorem memWrite_time (a le : Nat) (v : PWord) : (s.memWrite a le v).time = s.time := rfl
@[simp] theorem memWrite_cores (a le : Nat) (v : PWord) : (s.memWrite a le v).cores = s.cores := rfl
@[simp] theorem memWrite_mtx (a le : Nat) (v : PWord) : (s.memWrite a le v).mtx = s.mtx := rfl
@[simp] theorem memWrite_mtxLast (a le : Nat) (v : PWord) : (s.memWrite a le v).mtxLast = s.mtxLast := rfl
@[simp] theorem memWrite_ramTurn (a le : Nat) (v : PWord) : (s.memWrite a le v).ramTurn = s.ramTurn := rfl
@[simp] theorem memWrite_zeroing (a le : Nat) (v : PWord) : (s.memWrite a le v).zeroing = s.zeroing := rfl
@[simp] theorem memWrite_img (a le : Nat) (v : PWord) : (s.memWrite a le v).img = s.img := rfl
@[simp] theorem memWrite_evt (a le : Nat) (v : PWord) : (s.memWrite a le v).evt = s.evt := rfl
@[simp] theorem memWrite_grm (a le : Nat) (v : PWord) : (s.memWrite a le v).grm = s.grm := rfl
@[simp] theorem memWrite_svc (a le : Nat) (v : PWord) : (s.memWrite a le v).svc = s.svc := rfl
@[simp] theorem memWrite_pwr (a le : Nat) (v : PWord) : (s.memWrite a le v).pwr = s.pwr := rfl
@[simp] theorem memWrite_edw (a le : Nat) (v : PWord) : (s.memWrite a le v).edw = s.edw := rfl
@[simp] theorem memWrite_lines (a le : Nat) (v : PWord) : (s.memWrite a le v).lines = s.lines := rfl
@[simp] theorem memWrite_traf (a le : Nat) (v : PWord) : (s.memWrite a le v).traf = s.traf := rfl
@[simp] theorem memWrite_chans (a le : Nat) (v : PWord) : (s.memWrite a le v).chans = s.chans := rfl
@[simp] theorem memWrite_trees (a le : Nat) (v : PWord) : (s.memWrite a le v).trees = s.trees := rfl
@[simp] theorem memWrite_mons (a le : Nat) (v : PWord) : (s.memWrite a le v).mons = s.mons := rfl
@[simp] theorem memWrite_ohDo (a le : Nat) (v : PWord) : (s.memWrite a le v).ohDo = s.ohDo := rfl
@[simp] theorem memWrite_calCmds (a le : Nat) (v : PWord) : (s.memWrite a le v).calCmds = s.calCmds := rfl

@[simp] theorem zeroMem_pending (p : Nat → Bool) : (s.zeroMem p).pending = s.pending := rfl
@[simp] theorem zeroMem_now (p : Nat → Bool) : (s.zeroMem p).now = s.now := rfl
@[simp] theorem zeroMem_free (p : Nat → Bool) : (s.zeroMem p).free = s.free := rfl
@[simp] theorem zeroMem_calAcc (p : Nat → Bool) : (s.zeroMem p).calAcc = s.calAcc := rfl
@[simp] theorem zeroMem_calCnt (p : Nat → Bool) : (s.zeroMem p).calCnt = s.calCnt := rfl
@[simp] theorem zeroMem_regs (p : Nat → Bool) : (s.zeroMem p).regs = s.regs := rfl
@[simp] theorem zeroMem_tblRaw (p : Nat → Bool) : (s.zeroMem p).tblRaw = s.tblRaw := rfl
@[simp] theorem zeroMem_bufRaw (p : Nat → Bool) : (s.zeroMem p).bufRaw = s.bufRaw := rfl
@[simp] theorem zeroMem_cnt (p : Nat → Bool) : (s.zeroMem p).cnt = s.cnt := rfl
@[simp] theorem zeroMem_latch (p : Nat → Bool) : (s.zeroMem p).latch = s.latch := rfl
@[simp] theorem zeroMem_time (p : Nat → Bool) : (s.zeroMem p).time = s.time := rfl
@[simp] theorem zeroMem_cores (p : Nat → Bool) : (s.zeroMem p).cores = s.cores := rfl
@[simp] theorem zeroMem_mtx (p : Nat → Bool) : (s.zeroMem p).mtx = s.mtx := rfl
@[simp] theorem zeroMem_mtxLast (p : Nat → Bool) : (s.zeroMem p).mtxLast = s.mtxLast := rfl
@[simp] theorem zeroMem_ramTurn (p : Nat → Bool) : (s.zeroMem p).ramTurn = s.ramTurn := rfl
@[simp] theorem zeroMem_zeroing (p : Nat → Bool) : (s.zeroMem p).zeroing = s.zeroing := rfl
@[simp] theorem zeroMem_img (p : Nat → Bool) : (s.zeroMem p).img = s.img := rfl
@[simp] theorem zeroMem_evt (p : Nat → Bool) : (s.zeroMem p).evt = s.evt := rfl
@[simp] theorem zeroMem_grm (p : Nat → Bool) : (s.zeroMem p).grm = s.grm := rfl
@[simp] theorem zeroMem_svc (p : Nat → Bool) : (s.zeroMem p).svc = s.svc := rfl
@[simp] theorem zeroMem_pwr (p : Nat → Bool) : (s.zeroMem p).pwr = s.pwr := rfl
@[simp] theorem zeroMem_edw (p : Nat → Bool) : (s.zeroMem p).edw = s.edw := rfl
@[simp] theorem zeroMem_lines (p : Nat → Bool) : (s.zeroMem p).lines = s.lines := rfl
@[simp] theorem zeroMem_traf (p : Nat → Bool) : (s.zeroMem p).traf = s.traf := rfl
@[simp] theorem zeroMem_chans (p : Nat → Bool) : (s.zeroMem p).chans = s.chans := rfl
@[simp] theorem zeroMem_trees (p : Nat → Bool) : (s.zeroMem p).trees = s.trees := rfl
@[simp] theorem zeroMem_mons (p : Nat → Bool) : (s.zeroMem p).mons = s.mons := rfl
@[simp] theorem zeroMem_ohDo (p : Nat → Bool) : (s.zeroMem p).ohDo = s.ohDo := rfl
@[simp] theorem zeroMem_calCmds (p : Nat → Bool) : (s.zeroMem p).calCmds = s.calCmds := rfl

@[simp] theorem used_pending (k : Nat) : (s.used k).pending = s.pending := rfl
@[simp] theorem used_now (k : Nat) : (s.used k).now = s.now := rfl
@[simp] theorem used_calAcc (k : Nat) : (s.used k).calAcc = s.calAcc := rfl
@[simp] theorem used_calCnt (k : Nat) : (s.used k).calCnt = s.calCnt := rfl
@[simp] theorem used_regs (k : Nat) : (s.used k).regs = s.regs := rfl
@[simp] theorem used_mem (k : Nat) : (s.used k).mem = s.mem := rfl
@[simp] theorem used_tblRaw (k : Nat) : (s.used k).tblRaw = s.tblRaw := rfl
@[simp] theorem used_bufRaw (k : Nat) : (s.used k).bufRaw = s.bufRaw := rfl
@[simp] theorem used_cnt (k : Nat) : (s.used k).cnt = s.cnt := rfl
@[simp] theorem used_latch (k : Nat) : (s.used k).latch = s.latch := rfl
@[simp] theorem used_time (k : Nat) : (s.used k).time = s.time := rfl
@[simp] theorem used_cores (k : Nat) : (s.used k).cores = s.cores := rfl
@[simp] theorem used_mtx (k : Nat) : (s.used k).mtx = s.mtx := rfl
@[simp] theorem used_mtxLast (k : Nat) : (s.used k).mtxLast = s.mtxLast := rfl
@[simp] theorem used_ramTurn (k : Nat) : (s.used k).ramTurn = s.ramTurn := rfl
@[simp] theorem used_zeroing (k : Nat) : (s.used k).zeroing = s.zeroing := rfl
@[simp] theorem used_img (k : Nat) : (s.used k).img = s.img := rfl
@[simp] theorem used_evt (k : Nat) : (s.used k).evt = s.evt := rfl
@[simp] theorem used_grm (k : Nat) : (s.used k).grm = s.grm := rfl
@[simp] theorem used_svc (k : Nat) : (s.used k).svc = s.svc := rfl
@[simp] theorem used_pwr (k : Nat) : (s.used k).pwr = s.pwr := rfl
@[simp] theorem used_edw (k : Nat) : (s.used k).edw = s.edw := rfl
@[simp] theorem used_lines (k : Nat) : (s.used k).lines = s.lines := rfl
@[simp] theorem used_traf (k : Nat) : (s.used k).traf = s.traf := rfl
@[simp] theorem used_chans (k : Nat) : (s.used k).chans = s.chans := rfl
@[simp] theorem used_trees (k : Nat) : (s.used k).trees = s.trees := rfl
@[simp] theorem used_mons (k : Nat) : (s.used k).mons = s.mons := rfl
@[simp] theorem used_ohDo (k : Nat) : (s.used k).ohDo = s.ohDo := rfl
@[simp] theorem used_calCmds (k : Nat) : (s.used k).calCmds = s.calCmds := rfl

@[simp] theorem setCore_pending (n : Nat) (c : CoreSt) : (s.setCore n c).pending = s.pending := rfl
@[simp] theorem setCore_now (n : Nat) (c : CoreSt) : (s.setCore n c).now = s.now := rfl
@[simp] theorem setCore_free (n : Nat) (c : CoreSt) : (s.setCore n c).free = s.free := rfl
@[simp] theorem setCore_calAcc (n : Nat) (c : CoreSt) : (s.setCore n c).calAcc = s.calAcc := rfl
@[simp] theorem setCore_calCnt (n : Nat) (c : CoreSt) : (s.setCore n c).calCnt = s.calCnt := rfl
@[simp] theorem setCore_regs (n : Nat) (c : CoreSt) : (s.setCore n c).regs = s.regs := rfl
@[simp] theorem setCore_mem (n : Nat) (c : CoreSt) : (s.setCore n c).mem = s.mem := rfl
@[simp] theorem setCore_tblRaw (n : Nat) (c : CoreSt) : (s.setCore n c).tblRaw = s.tblRaw := rfl
@[simp] theorem setCore_bufRaw (n : Nat) (c : CoreSt) : (s.setCore n c).bufRaw = s.bufRaw := rfl
@[simp] theorem setCore_cnt (n : Nat) (c : CoreSt) : (s.setCore n c).cnt = s.cnt := rfl
@[simp] theorem setCore_latch (n : Nat) (c : CoreSt) : (s.setCore n c).latch = s.latch := rfl
@[simp] theorem setCore_time (n : Nat) (c : CoreSt) : (s.setCore n c).time = s.time := rfl
@[simp] theorem setCore_mtx (n : Nat) (c : CoreSt) : (s.setCore n c).mtx = s.mtx := rfl
@[simp] theorem setCore_mtxLast (n : Nat) (c : CoreSt) : (s.setCore n c).mtxLast = s.mtxLast := rfl
@[simp] theorem setCore_ramTurn (n : Nat) (c : CoreSt) : (s.setCore n c).ramTurn = s.ramTurn := rfl
@[simp] theorem setCore_zeroing (n : Nat) (c : CoreSt) : (s.setCore n c).zeroing = s.zeroing := rfl
@[simp] theorem setCore_img (n : Nat) (c : CoreSt) : (s.setCore n c).img = s.img := rfl
@[simp] theorem setCore_evt (n : Nat) (c : CoreSt) : (s.setCore n c).evt = s.evt := rfl
@[simp] theorem setCore_grm (n : Nat) (c : CoreSt) : (s.setCore n c).grm = s.grm := rfl
@[simp] theorem setCore_svc (n : Nat) (c : CoreSt) : (s.setCore n c).svc = s.svc := rfl
@[simp] theorem setCore_pwr (n : Nat) (c : CoreSt) : (s.setCore n c).pwr = s.pwr := rfl
@[simp] theorem setCore_edw (n : Nat) (c : CoreSt) : (s.setCore n c).edw = s.edw := rfl
@[simp] theorem setCore_lines (n : Nat) (c : CoreSt) : (s.setCore n c).lines = s.lines := rfl
@[simp] theorem setCore_traf (n : Nat) (c : CoreSt) : (s.setCore n c).traf = s.traf := rfl
@[simp] theorem setCore_chans (n : Nat) (c : CoreSt) : (s.setCore n c).chans = s.chans := rfl
@[simp] theorem setCore_trees (n : Nat) (c : CoreSt) : (s.setCore n c).trees = s.trees := rfl
@[simp] theorem setCore_mons (n : Nat) (c : CoreSt) : (s.setCore n c).mons = s.mons := rfl
@[simp] theorem setCore_ohDo (n : Nat) (c : CoreSt) : (s.setCore n c).ohDo = s.ohDo := rfl
@[simp] theorem setCore_calCmds (n : Nat) (c : CoreSt) : (s.setCore n c).calCmds = s.calCmds := rfl

@[simp] theorem setPacket_pending (d : Nat) (p : Option Packet) : (s.setPacket d p).pending = s.pending := rfl
@[simp] theorem setPacket_now (d : Nat) (p : Option Packet) : (s.setPacket d p).now = s.now := rfl
@[simp] theorem setPacket_free (d : Nat) (p : Option Packet) : (s.setPacket d p).free = s.free := rfl
@[simp] theorem setPacket_calAcc (d : Nat) (p : Option Packet) : (s.setPacket d p).calAcc = s.calAcc := rfl
@[simp] theorem setPacket_calCnt (d : Nat) (p : Option Packet) : (s.setPacket d p).calCnt = s.calCnt := rfl
@[simp] theorem setPacket_regs (d : Nat) (p : Option Packet) : (s.setPacket d p).regs = s.regs := rfl
@[simp] theorem setPacket_mem (d : Nat) (p : Option Packet) : (s.setPacket d p).mem = s.mem := rfl
@[simp] theorem setPacket_tblRaw (d : Nat) (p : Option Packet) : (s.setPacket d p).tblRaw = s.tblRaw := rfl
@[simp] theorem setPacket_bufRaw (d : Nat) (p : Option Packet) : (s.setPacket d p).bufRaw = s.bufRaw := rfl
@[simp] theorem setPacket_cnt (d : Nat) (p : Option Packet) : (s.setPacket d p).cnt = s.cnt := rfl
@[simp] theorem setPacket_latch (d : Nat) (p : Option Packet) : (s.setPacket d p).latch = s.latch := rfl
@[simp] theorem setPacket_time (d : Nat) (p : Option Packet) : (s.setPacket d p).time = s.time := rfl
@[simp] theorem setPacket_cores (d : Nat) (p : Option Packet) : (s.setPacket d p).cores = s.cores := rfl
@[simp] theorem setPacket_mtx (d : Nat) (p : Option Packet) : (s.setPacket d p).mtx = s.mtx := rfl
@[simp] theorem setPacket_mtxLast (d : Nat) (p : Option Packet) : (s.setPacket d p).mtxLast = s.mtxLast := rfl
@[simp] theorem setPacket_ramTurn (d : Nat) (p : Option Packet) : (s.setPacket d p).ramTurn = s.ramTurn := rfl
@[simp] theorem setPacket_zeroing (d : Nat) (p : Option Packet) : (s.setPacket d p).zeroing = s.zeroing := rfl
@[simp] theorem setPacket_img (d : Nat) (p : Option Packet) : (s.setPacket d p).img = s.img := rfl
@[simp] theorem setPacket_evt (d : Nat) (p : Option Packet) : (s.setPacket d p).evt = s.evt := rfl
@[simp] theorem setPacket_grm (d : Nat) (p : Option Packet) : (s.setPacket d p).grm = s.grm := rfl
@[simp] theorem setPacket_svc (d : Nat) (p : Option Packet) : (s.setPacket d p).svc = s.svc := rfl
@[simp] theorem setPacket_pwr (d : Nat) (p : Option Packet) : (s.setPacket d p).pwr = s.pwr := rfl
@[simp] theorem setPacket_edw (d : Nat) (p : Option Packet) : (s.setPacket d p).edw = s.edw := rfl
@[simp] theorem setPacket_lines (d : Nat) (p : Option Packet) : (s.setPacket d p).lines = s.lines := rfl
@[simp] theorem setPacket_chans (d : Nat) (p : Option Packet) : (s.setPacket d p).chans = s.chans := rfl
@[simp] theorem setPacket_trees (d : Nat) (p : Option Packet) : (s.setPacket d p).trees = s.trees := rfl
@[simp] theorem setPacket_mons (d : Nat) (p : Option Packet) : (s.setPacket d p).mons = s.mons := rfl
@[simp] theorem setPacket_ohDo (d : Nat) (p : Option Packet) : (s.setPacket d p).ohDo = s.ohDo := rfl
@[simp] theorem setPacket_calCmds (d : Nat) (p : Option Packet) : (s.setPacket d p).calCmds = s.calCmds := rfl

@[simp] theorem setQueue_pending (q : Nat) (l : List QEnt) : (s.setQueue q l).pending = s.pending := rfl
@[simp] theorem setQueue_now (q : Nat) (l : List QEnt) : (s.setQueue q l).now = s.now := rfl
@[simp] theorem setQueue_free (q : Nat) (l : List QEnt) : (s.setQueue q l).free = s.free := rfl
@[simp] theorem setQueue_calAcc (q : Nat) (l : List QEnt) : (s.setQueue q l).calAcc = s.calAcc := rfl
@[simp] theorem setQueue_calCnt (q : Nat) (l : List QEnt) : (s.setQueue q l).calCnt = s.calCnt := rfl
@[simp] theorem setQueue_regs (q : Nat) (l : List QEnt) : (s.setQueue q l).regs = s.regs := rfl
@[simp] theorem setQueue_mem (q : Nat) (l : List QEnt) : (s.setQueue q l).mem = s.mem := rfl
@[simp] theorem setQueue_tblRaw (q : Nat) (l : List QEnt) : (s.setQueue q l).tblRaw = s.tblRaw := rfl
@[simp] theorem setQueue_bufRaw (q : Nat) (l : List QEnt) : (s.setQueue q l).bufRaw = s.bufRaw := rfl
@[simp] theorem setQueue_cnt (q : Nat) (l : List QEnt) : (s.setQueue q l).cnt = s.cnt := rfl
@[simp] theorem setQueue_latch (q : Nat) (l : List QEnt) : (s.setQueue q l).latch = s.latch := rfl
@[simp] theorem setQueue_time (q : Nat) (l : List QEnt) : (s.setQueue q l).time = s.time := rfl
@[simp] theorem setQueue_cores (q : Nat) (l : List QEnt) : (s.setQueue q l).cores = s.cores := rfl
@[simp] theorem setQueue_mtx (q : Nat) (l : List QEnt) : (s.setQueue q l).mtx = s.mtx := rfl
@[simp] theorem setQueue_mtxLast (q : Nat) (l : List QEnt) : (s.setQueue q l).mtxLast = s.mtxLast := rfl
@[simp] theorem setQueue_ramTurn (q : Nat) (l : List QEnt) : (s.setQueue q l).ramTurn = s.ramTurn := rfl
@[simp] theorem setQueue_zeroing (q : Nat) (l : List QEnt) : (s.setQueue q l).zeroing = s.zeroing := rfl
@[simp] theorem setQueue_img (q : Nat) (l : List QEnt) : (s.setQueue q l).img = s.img := rfl
@[simp] theorem setQueue_evt (q : Nat) (l : List QEnt) : (s.setQueue q l).evt = s.evt := rfl
@[simp] theorem setQueue_grm (q : Nat) (l : List QEnt) : (s.setQueue q l).grm = s.grm := rfl
@[simp] theorem setQueue_svc (q : Nat) (l : List QEnt) : (s.setQueue q l).svc = s.svc := rfl
@[simp] theorem setQueue_pwr (q : Nat) (l : List QEnt) : (s.setQueue q l).pwr = s.pwr := rfl
@[simp] theorem setQueue_edw (q : Nat) (l : List QEnt) : (s.setQueue q l).edw = s.edw := rfl
@[simp] theorem setQueue_lines (q : Nat) (l : List QEnt) : (s.setQueue q l).lines = s.lines := rfl
@[simp] theorem setQueue_chans (q : Nat) (l : List QEnt) : (s.setQueue q l).chans = s.chans := rfl
@[simp] theorem setQueue_trees (q : Nat) (l : List QEnt) : (s.setQueue q l).trees = s.trees := rfl
@[simp] theorem setQueue_mons (q : Nat) (l : List QEnt) : (s.setQueue q l).mons = s.mons := rfl
@[simp] theorem setQueue_ohDo (q : Nat) (l : List QEnt) : (s.setQueue q l).ohDo = s.ohDo := rfl
@[simp] theorem setQueue_calCmds (q : Nat) (l : List QEnt) : (s.setQueue q l).calCmds = s.calCmds := rfl

@[simp] theorem setLine_pending (l : Nat) (x : LineSt) : (s.setLine l x).pending = s.pending := rfl
@[simp] theorem setLine_now (l : Nat) (x : LineSt) : (s.setLine l x).now = s.now := rfl
@[simp] theorem setLine_free (l : Nat) (x : LineSt) : (s.setLine l x).free = s.free := rfl
@[simp] theorem setLine_calAcc (l : Nat) (x : LineSt) : (s.setLine l x).calAcc = s.calAcc := rfl
@[simp] theorem setLine_calCnt (l : Nat) (x : LineSt) : (s.setLine l x).calCnt = s.calCnt := rfl
@[simp] theorem setLine_regs (l : Nat) (x : LineSt) : (s.setLine l x).regs = s.regs := rfl
@[simp] theorem setLine_mem (l : Nat) (x : LineSt) : (s.setLine l x).mem = s.mem := rfl
@[simp] theorem setLine_tblRaw (l : Nat) (x : LineSt) : (s.setLine l x).tblRaw = s.tblRaw := rfl
@[simp] theorem setLine_bufRaw (l : Nat) (x : LineSt) : (s.setLine l x).bufRaw = s.bufRaw := rfl
@[simp] theorem setLine_cnt (l : Nat) (x : LineSt) : (s.setLine l x).cnt = s.cnt := rfl
@[simp] theorem setLine_latch (l : Nat) (x : LineSt) : (s.setLine l x).latch = s.latch := rfl
@[simp] theorem setLine_time (l : Nat) (x : LineSt) : (s.setLine l x).time = s.time := rfl
@[simp] theorem setLine_cores (l : Nat) (x : LineSt) : (s.setLine l x).cores = s.cores := rfl
@[simp] theorem setLine_mtx (l : Nat) (x : LineSt) : (s.setLine l x).mtx = s.mtx := rfl
@[simp] theorem setLine_mtxLast (l : Nat) (x : LineSt) : (s.setLine l x).mtxLast = s.mtxLast := rfl
@[simp] theorem setLine_ramTurn (l : Nat) (x : LineSt) : (s.setLine l x).ramTurn = s.ramTurn := rfl
@[simp] theorem setLine_zeroing (l : Nat) (x : LineSt) : (s.setLine l x).zeroing = s.zeroing := rfl
@[simp] theorem setLine_img (l : Nat) (x : LineSt) : (s.setLine l x).img = s.img := rfl
@[simp] theorem setLine_evt (l : Nat) (x : LineSt) : (s.setLine l x).evt = s.evt := rfl
@[simp] theorem setLine_grm (l : Nat) (x : LineSt) : (s.setLine l x).grm = s.grm := rfl
@[simp] theorem setLine_svc (l : Nat) (x : LineSt) : (s.setLine l x).svc = s.svc := rfl
@[simp] theorem setLine_pwr (l : Nat) (x : LineSt) : (s.setLine l x).pwr = s.pwr := rfl
@[simp] theorem setLine_edw (l : Nat) (x : LineSt) : (s.setLine l x).edw = s.edw := rfl
@[simp] theorem setLine_traf (l : Nat) (x : LineSt) : (s.setLine l x).traf = s.traf := rfl
@[simp] theorem setLine_chans (l : Nat) (x : LineSt) : (s.setLine l x).chans = s.chans := rfl
@[simp] theorem setLine_trees (l : Nat) (x : LineSt) : (s.setLine l x).trees = s.trees := rfl
@[simp] theorem setLine_mons (l : Nat) (x : LineSt) : (s.setLine l x).mons = s.mons := rfl
@[simp] theorem setLine_ohDo (l : Nat) (x : LineSt) : (s.setLine l x).ohDo = s.ohDo := rfl
@[simp] theorem setLine_calCmds (l : Nat) (x : LineSt) : (s.setLine l x).calCmds = s.calCmds := rfl

@[simp] theorem setChan_pending (c : Nat) (x : ChSt) : (s.setChan c x).pending = s.pending := rfl
@[simp] theorem setChan_now (c : Nat) (x : ChSt) : (s.setChan c x).now = s.now := rfl
@[simp] theorem setChan_free (c : Nat) (x : ChSt) : (s.setChan c x).free = s.free := rfl
@[simp] theorem setChan_calAcc (c : Nat) (x : ChSt) : (s.setChan c x).calAcc = s.calAcc := rfl
@[simp] theorem setChan_calCnt (c : Nat) (x : ChSt) : (s.setChan c x).calCnt = s.calCnt := rfl
@[simp] theorem setChan_regs (c : Nat) (x : ChSt) : (s.setChan c x).regs = s.regs := rfl
@[simp] theorem setChan_mem (c : Nat) (x : ChSt) : (s.setChan c x).mem = s.mem := rfl
@[simp] theorem setChan_tblRaw (c : Nat) (x : ChSt) : (s.setChan c x).tblRaw = s.tblRaw := rfl
@[simp] theorem setChan_bufRaw (c : Nat) (x : ChSt) : (s.setChan c x).bufRaw = s.bufRaw := rfl
@[simp] theorem setChan_cnt (c : Nat) (x : ChSt) : (s.setChan c x).cnt = s.cnt := rfl
@[simp] theorem setChan_latch (c : Nat) (x : ChSt) : (s.setChan c x).latch = s.latch := rfl
@[simp] theorem setChan_time (c : Nat) (x : ChSt) : (s.setChan c x).time = s.time := rfl
@[simp] theorem setChan_cores (c : Nat) (x : ChSt) : (s.setChan c x).cores = s.cores := rfl
@[simp] theorem setChan_mtx (c : Nat) (x : ChSt) : (s.setChan c x).mtx = s.mtx := rfl
@[simp] theorem setChan_mtxLast (c : Nat) (x : ChSt) : (s.setChan c x).mtxLast = s.mtxLast := rfl
@[simp] theorem setChan_ramTurn (c : Nat) (x : ChSt) : (s.setChan c x).ramTurn = s.ramTurn := rfl
@[simp] theorem setChan_zeroing (c : Nat) (x : ChSt) : (s.setChan c x).zeroing = s.zeroing := rfl
@[simp] theorem setChan_img (c : Nat) (x : ChSt) : (s.setChan c x).img = s.img := rfl
@[simp] theorem setChan_evt (c : Nat) (x : ChSt) : (s.setChan c x).evt = s.evt := rfl
@[simp] theorem setChan_grm (c : Nat) (x : ChSt) : (s.setChan c x).grm = s.grm := rfl
@[simp] theorem setChan_svc (c : Nat) (x : ChSt) : (s.setChan c x).svc = s.svc := rfl
@[simp] theorem setChan_pwr (c : Nat) (x : ChSt) : (s.setChan c x).pwr = s.pwr := rfl
@[simp] theorem setChan_edw (c : Nat) (x : ChSt) : (s.setChan c x).edw = s.edw := rfl
@[simp] theorem setChan_lines (c : Nat) (x : ChSt) : (s.setChan c x).lines = s.lines := rfl
@[simp] theorem setChan_traf (c : Nat) (x : ChSt) : (s.setChan c x).traf = s.traf := rfl
@[simp] theorem setChan_trees (c : Nat) (x : ChSt) : (s.setChan c x).trees = s.trees := rfl
@[simp] theorem setChan_mons (c : Nat) (x : ChSt) : (s.setChan c x).mons = s.mons := rfl
@[simp] theorem setChan_ohDo (c : Nat) (x : ChSt) : (s.setChan c x).ohDo = s.ohDo := rfl
@[simp] theorem setChan_calCmds (c : Nat) (x : ChSt) : (s.setChan c x).calCmds = s.calCmds := rfl

@[simp] theorem setTree_pending (t : Nat) (x : TreeSt) : (s.setTree t x).pending = s.pending := rfl
@[simp] theorem setTree_now (t : Nat) (x : TreeSt) : (s.setTree t x).now = s.now := rfl
@[simp] theorem setTree_free (t : Nat) (x : TreeSt) : (s.setTree t x).free = s.free := rfl
@[simp] theorem setTree_calAcc (t : Nat) (x : TreeSt) : (s.setTree t x).calAcc = s.calAcc := rfl
@[simp] theorem setTree_calCnt (t : Nat) (x : TreeSt) : (s.setTree t x).calCnt = s.calCnt := rfl
@[simp] theorem setTree_regs (t : Nat) (x : TreeSt) : (s.setTree t x).regs = s.regs := rfl
@[simp] theorem setTree_mem (t : Nat) (x : TreeSt) : (s.setTree t x).mem = s.mem := rfl
@[simp] theorem setTree_tblRaw (t : Nat) (x : TreeSt) : (s.setTree t x).tblRaw = s.tblRaw := rfl
@[simp] theorem setTree_bufRaw (t : Nat) (x : TreeSt) : (s.setTree t x).bufRaw = s.bufRaw := rfl
@[simp] theorem setTree_cnt (t : Nat) (x : TreeSt) : (s.setTree t x).cnt = s.cnt := rfl
@[simp] theorem setTree_latch (t : Nat) (x : TreeSt) : (s.setTree t x).latch = s.latch := rfl
@[simp] theorem setTree_time (t : Nat) (x : TreeSt) : (s.setTree t x).time = s.time := rfl
@[simp] theorem setTree_cores (t : Nat) (x : TreeSt) : (s.setTree t x).cores = s.cores := rfl
@[simp] theorem setTree_mtx (t : Nat) (x : TreeSt) : (s.setTree t x).mtx = s.mtx := rfl
@[simp] theorem setTree_mtxLast (t : Nat) (x : TreeSt) : (s.setTree t x).mtxLast = s.mtxLast := rfl
@[simp] theorem setTree_ramTurn (t : Nat) (x : TreeSt) : (s.setTree t x).ramTurn = s.ramTurn := rfl
@[simp] theorem setTree_zeroing (t : Nat) (x : TreeSt) : (s.setTree t x).zeroing = s.zeroing := rfl
@[simp] theorem setTree_img (t : Nat) (x : TreeSt) : (s.setTree t x).img = s.img := rfl
@[simp] theorem setTree_evt (t : Nat) (x : TreeSt) : (s.setTree t x).evt = s.evt := rfl
@[simp] theorem setTree_grm (t : Nat) (x : TreeSt) : (s.setTree t x).grm = s.grm := rfl
@[simp] theorem setTree_svc (t : Nat) (x : TreeSt) : (s.setTree t x).svc = s.svc := rfl
@[simp] theorem setTree_pwr (t : Nat) (x : TreeSt) : (s.setTree t x).pwr = s.pwr := rfl
@[simp] theorem setTree_edw (t : Nat) (x : TreeSt) : (s.setTree t x).edw = s.edw := rfl
@[simp] theorem setTree_lines (t : Nat) (x : TreeSt) : (s.setTree t x).lines = s.lines := rfl
@[simp] theorem setTree_traf (t : Nat) (x : TreeSt) : (s.setTree t x).traf = s.traf := rfl
@[simp] theorem setTree_chans (t : Nat) (x : TreeSt) : (s.setTree t x).chans = s.chans := rfl
@[simp] theorem setTree_mons (t : Nat) (x : TreeSt) : (s.setTree t x).mons = s.mons := rfl
@[simp] theorem setTree_ohDo (t : Nat) (x : TreeSt) : (s.setTree t x).ohDo = s.ohDo := rfl
@[simp] theorem setTree_calCmds (t : Nat) (x : TreeSt) : (s.setTree t x).calCmds = s.calCmds := rfl

@[simp] theorem setMon_pending (m : Nat) (x : MonSt) : (s.setMon m x).pending = s.pending := rfl
@[simp] theorem setMon_now (m : Nat) (x : MonSt) : (s.setMon m x).now = s.now := rfl
@[simp] theorem setMon_free (m : Nat) (x : MonSt) : (s.setMon m x).free = s.free := rfl
@[simp] theorem setMon_calAcc (m : Nat) (x : MonSt) : (s.setMon m x).calAcc = s.calAcc := rfl
@[simp] theorem setMon_calCnt (m : Nat) (x : MonSt) : (s.setMon m x).calCnt = s.calCnt := rfl
@[simp] theorem setMon_regs (m : Nat) (x : MonSt) : (s.setMon m x).regs = s.regs := rfl
@[simp] theorem setMon_mem (m : Nat) (x : MonSt) : (s.setMon m x).mem = s.mem := rfl
@[simp] theorem setMon_tblRaw (m : Nat) (x : MonSt) : (s.setMon m x).tblRaw = s.tblRaw := rfl
@[simp] theorem setMon_bufRaw (m : Nat) (x : MonSt) : (s.setMon m x).bufRaw = s.bufRaw := rfl
@[simp] theorem setMon_cnt (m : Nat) (x : MonSt) : (s.setMon m x).cnt = s.cnt := rfl
@[simp] theorem setMon_latch (m : Nat) (x : MonSt) : (s.setMon m x).latch = s.latch := rfl
@[simp] theorem setMon_time (m : Nat) (x : MonSt) : (s.setMon m x).time = s.time := rfl
@[simp] theorem setMon_cores (m : Nat) (x : MonSt) : (s.setMon m x).cores = s.cores := rfl
@[simp] theorem setMon_mtx (m : Nat) (x : MonSt) : (s.setMon m x).mtx = s.mtx := rfl
@[simp] theorem setMon_mtxLast (m : Nat) (x : MonSt) : (s.setMon m x).mtxLast = s.mtxLast := rfl
@[simp] theorem setMon_ramTurn (m : Nat) (x : MonSt) : (s.setMon m x).ramTurn = s.ramTurn := rfl
@[simp] theorem setMon_zeroing (m : Nat) (x : MonSt) : (s.setMon m x).zeroing = s.zeroing := rfl
@[simp] theorem setMon_img (m : Nat) (x : MonSt) : (s.setMon m x).img = s.img := rfl
@[simp] theorem setMon_evt (m : Nat) (x : MonSt) : (s.setMon m x).evt = s.evt := rfl
@[simp] theorem setMon_grm (m : Nat) (x : MonSt) : (s.setMon m x).grm = s.grm := rfl
@[simp] theorem setMon_svc (m : Nat) (x : MonSt) : (s.setMon m x).svc = s.svc := rfl
@[simp] theorem setMon_pwr (m : Nat) (x : MonSt) : (s.setMon m x).pwr = s.pwr := rfl
@[simp] theorem setMon_edw (m : Nat) (x : MonSt) : (s.setMon m x).edw = s.edw := rfl
@[simp] theorem setMon_lines (m : Nat) (x : MonSt) : (s.setMon m x).lines = s.lines := rfl
@[simp] theorem setMon_traf (m : Nat) (x : MonSt) : (s.setMon m x).traf = s.traf := rfl
@[simp] theorem setMon_chans (m : Nat) (x : MonSt) : (s.setMon m x).chans = s.chans := rfl
@[simp] theorem setMon_trees (m : Nat) (x : MonSt) : (s.setMon m x).trees = s.trees := rfl
@[simp] theorem setMon_ohDo (m : Nat) (x : MonSt) : (s.setMon m x).ohDo = s.ohDo := rfl
@[simp] theorem setMon_calCmds (m : Nat) (x : MonSt) : (s.setMon m x).calCmds = s.calCmds := rfl

@[simp] theorem cntPut_pending (x v : Nat) : (s.cntPut x v).pending = s.pending := rfl
@[simp] theorem cntPut_now (x v : Nat) : (s.cntPut x v).now = s.now := rfl
@[simp] theorem cntPut_free (x v : Nat) : (s.cntPut x v).free = s.free := rfl
@[simp] theorem cntPut_calAcc (x v : Nat) : (s.cntPut x v).calAcc = s.calAcc := rfl
@[simp] theorem cntPut_calCnt (x v : Nat) : (s.cntPut x v).calCnt = s.calCnt := rfl
@[simp] theorem cntPut_regs (x v : Nat) : (s.cntPut x v).regs = s.regs := rfl
@[simp] theorem cntPut_mem (x v : Nat) : (s.cntPut x v).mem = s.mem := rfl
@[simp] theorem cntPut_bufRaw (x v : Nat) : (s.cntPut x v).bufRaw = s.bufRaw := rfl
@[simp] theorem cntPut_latch (x v : Nat) : (s.cntPut x v).latch = s.latch := rfl
@[simp] theorem cntPut_time (x v : Nat) : (s.cntPut x v).time = s.time := rfl
@[simp] theorem cntPut_cores (x v : Nat) : (s.cntPut x v).cores = s.cores := rfl
@[simp] theorem cntPut_mtx (x v : Nat) : (s.cntPut x v).mtx = s.mtx := rfl
@[simp] theorem cntPut_mtxLast (x v : Nat) : (s.cntPut x v).mtxLast = s.mtxLast := rfl
@[simp] theorem cntPut_ramTurn (x v : Nat) : (s.cntPut x v).ramTurn = s.ramTurn := rfl
@[simp] theorem cntPut_zeroing (x v : Nat) : (s.cntPut x v).zeroing = s.zeroing := rfl
@[simp] theorem cntPut_img (x v : Nat) : (s.cntPut x v).img = s.img := rfl
@[simp] theorem cntPut_evt (x v : Nat) : (s.cntPut x v).evt = s.evt := rfl
@[simp] theorem cntPut_grm (x v : Nat) : (s.cntPut x v).grm = s.grm := rfl
@[simp] theorem cntPut_svc (x v : Nat) : (s.cntPut x v).svc = s.svc := rfl
@[simp] theorem cntPut_pwr (x v : Nat) : (s.cntPut x v).pwr = s.pwr := rfl
@[simp] theorem cntPut_edw (x v : Nat) : (s.cntPut x v).edw = s.edw := rfl
@[simp] theorem cntPut_lines (x v : Nat) : (s.cntPut x v).lines = s.lines := rfl
@[simp] theorem cntPut_traf (x v : Nat) : (s.cntPut x v).traf = s.traf := rfl
@[simp] theorem cntPut_chans (x v : Nat) : (s.cntPut x v).chans = s.chans := rfl
@[simp] theorem cntPut_trees (x v : Nat) : (s.cntPut x v).trees = s.trees := rfl
@[simp] theorem cntPut_mons (x v : Nat) : (s.cntPut x v).mons = s.mons := rfl
@[simp] theorem cntPut_ohDo (x v : Nat) : (s.cntPut x v).ohDo = s.ohDo := rfl
@[simp] theorem cntPut_calCmds (x v : Nat) : (s.cntPut x v).calCmds = s.calCmds := rfl

@[simp] theorem sendCols_pending (l : List (List Nat)) : (s.sendCols l).pending = s.pending := rfl
@[simp] theorem sendCols_now (l : List (List Nat)) : (s.sendCols l).now = s.now := rfl
@[simp] theorem sendCols_free (l : List (List Nat)) : (s.sendCols l).free = s.free := rfl
@[simp] theorem sendCols_calAcc (l : List (List Nat)) : (s.sendCols l).calAcc = s.calAcc := rfl
@[simp] theorem sendCols_calCnt (l : List (List Nat)) : (s.sendCols l).calCnt = s.calCnt := rfl
@[simp] theorem sendCols_regs (l : List (List Nat)) : (s.sendCols l).regs = s.regs := rfl
@[simp] theorem sendCols_mem (l : List (List Nat)) : (s.sendCols l).mem = s.mem := rfl
@[simp] theorem sendCols_tblRaw (l : List (List Nat)) : (s.sendCols l).tblRaw = s.tblRaw := rfl
@[simp] theorem sendCols_bufRaw (l : List (List Nat)) : (s.sendCols l).bufRaw = s.bufRaw := rfl
@[simp] theorem sendCols_cnt (l : List (List Nat)) : (s.sendCols l).cnt = s.cnt := rfl
@[simp] theorem sendCols_latch (l : List (List Nat)) : (s.sendCols l).latch = s.latch := rfl
@[simp] theorem sendCols_time (l : List (List Nat)) : (s.sendCols l).time = s.time := rfl
@[simp] theorem sendCols_cores (l : List (List Nat)) : (s.sendCols l).cores = s.cores := rfl
@[simp] theorem sendCols_mtx (l : List (List Nat)) : (s.sendCols l).mtx = s.mtx := rfl
@[simp] theorem sendCols_mtxLast (l : List (List Nat)) : (s.sendCols l).mtxLast = s.mtxLast := rfl
@[simp] theorem sendCols_ramTurn (l : List (List Nat)) : (s.sendCols l).ramTurn = s.ramTurn := rfl
@[simp] theorem sendCols_zeroing (l : List (List Nat)) : (s.sendCols l).zeroing = s.zeroing := rfl
@[simp] theorem sendCols_img (l : List (List Nat)) : (s.sendCols l).img = s.img := rfl
@[simp] theorem sendCols_evt (l : List (List Nat)) : (s.sendCols l).evt = s.evt := rfl
@[simp] theorem sendCols_grm (l : List (List Nat)) : (s.sendCols l).grm = s.grm := rfl
@[simp] theorem sendCols_pwr (l : List (List Nat)) : (s.sendCols l).pwr = s.pwr := rfl
@[simp] theorem sendCols_edw (l : List (List Nat)) : (s.sendCols l).edw = s.edw := rfl
@[simp] theorem sendCols_lines (l : List (List Nat)) : (s.sendCols l).lines = s.lines := rfl
@[simp] theorem sendCols_ohDo (l : List (List Nat)) : (s.sendCols l).ohDo = s.ohDo := rfl
@[simp] theorem sendCols_traf (l : List (List Nat)) : (s.sendCols l).traf = s.traf := rfl
@[simp] theorem sendCols_chans (l : List (List Nat)) : (s.sendCols l).chans = s.chans := rfl
@[simp] theorem sendCols_trees (l : List (List Nat)) : (s.sendCols l).trees = s.trees := rfl
@[simp] theorem sendCols_mons (l : List (List Nat)) : (s.sendCols l).mons = s.mons := rfl
@[simp] theorem sendCols_calCmds (l : List (List Nat)) : (s.sendCols l).calCmds = s.calCmds := rfl

@[simp] theorem setCmd_pending (k : Nat) (c : Option Cmd) : (s.setCmd k c).pending = s.pending := rfl
@[simp] theorem setCmd_now (k : Nat) (c : Option Cmd) : (s.setCmd k c).now = s.now := rfl
@[simp] theorem setCmd_free (k : Nat) (c : Option Cmd) : (s.setCmd k c).free = s.free := rfl
@[simp] theorem setCmd_calAcc (k : Nat) (c : Option Cmd) : (s.setCmd k c).calAcc = s.calAcc := rfl
@[simp] theorem setCmd_calCnt (k : Nat) (c : Option Cmd) : (s.setCmd k c).calCnt = s.calCnt := rfl
@[simp] theorem setCmd_regs (k : Nat) (c : Option Cmd) : (s.setCmd k c).regs = s.regs := rfl
@[simp] theorem setCmd_mem (k : Nat) (c : Option Cmd) : (s.setCmd k c).mem = s.mem := rfl
@[simp] theorem setCmd_tblRaw (k : Nat) (c : Option Cmd) : (s.setCmd k c).tblRaw = s.tblRaw := rfl
@[simp] theorem setCmd_bufRaw (k : Nat) (c : Option Cmd) : (s.setCmd k c).bufRaw = s.bufRaw := rfl
@[simp] theorem setCmd_cnt (k : Nat) (c : Option Cmd) : (s.setCmd k c).cnt = s.cnt := rfl
@[simp] theorem setCmd_latch (k : Nat) (c : Option Cmd) : (s.setCmd k c).latch = s.latch := rfl
@[simp] theorem setCmd_time (k : Nat) (c : Option Cmd) : (s.setCmd k c).time = s.time := rfl
@[simp] theorem setCmd_cores (k : Nat) (c : Option Cmd) : (s.setCmd k c).cores = s.cores := rfl
@[simp] theorem setCmd_mtx (k : Nat) (c : Option Cmd) : (s.setCmd k c).mtx = s.mtx := rfl
@[simp] theorem setCmd_mtxLast (k : Nat) (c : Option Cmd) : (s.setCmd k c).mtxLast = s.mtxLast := rfl
@[simp] theorem setCmd_ramTurn (k : Nat) (c : Option Cmd) : (s.setCmd k c).ramTurn = s.ramTurn := rfl
@[simp] theorem setCmd_zeroing (k : Nat) (c : Option Cmd) : (s.setCmd k c).zeroing = s.zeroing := rfl
@[simp] theorem setCmd_img (k : Nat) (c : Option Cmd) : (s.setCmd k c).img = s.img := rfl
@[simp] theorem setCmd_evt (k : Nat) (c : Option Cmd) : (s.setCmd k c).evt = s.evt := rfl
@[simp] theorem setCmd_grm (k : Nat) (c : Option Cmd) : (s.setCmd k c).grm = s.grm := rfl
@[simp] theorem setCmd_pwr (k : Nat) (c : Option Cmd) : (s.setCmd k c).pwr = s.pwr := rfl
@[simp] theorem setCmd_edw (k : Nat) (c : Option Cmd) : (s.setCmd k c).edw = s.edw := rfl
@[simp] theorem setCmd_lines (k : Nat) (c : Option Cmd) : (s.setCmd k c).lines = s.lines := rfl
@[simp] theorem setCmd_ohDo (k : Nat) (c : Option Cmd) : (s.setCmd k c).ohDo = s.ohDo := rfl
@[simp] theorem setCmd_traf (k : Nat) (c : Option Cmd) : (s.setCmd k c).traf = s.traf := rfl
@[simp] theorem setCmd_chans (k : Nat) (c : Option Cmd) : (s.setCmd k c).chans = s.chans := rfl
@[simp] theorem setCmd_trees (k : Nat) (c : Option Cmd) : (s.setCmd k c).trees = s.trees := rfl
@[simp] theorem setCmd_mons (k : Nat) (c : Option Cmd) : (s.setCmd k c).mons = s.mons := rfl
@[simp] theorem setCmd_calCmds (k : Nat) (c : Option Cmd) : (s.setCmd k c).calCmds = s.calCmds := rfl

@[simp] theorem setKey_pending (r : KeyRef) (k : Option KeySlot) : (s.setKey r k).pending = s.pending := by cases r <;> rfl
@[simp] theorem setKey_now (r : KeyRef) (k : Option KeySlot) : (s.setKey r k).now = s.now := by cases r <;> rfl
@[simp] theorem setKey_free (r : KeyRef) (k : Option KeySlot) : (s.setKey r k).free = s.free := by cases r <;> rfl
@[simp] theorem setKey_calAcc (r : KeyRef) (k : Option KeySlot) : (s.setKey r k).calAcc = s.calAcc := by cases r <;> rfl
@[simp] theorem setKey_calCnt (r : KeyRef) (k : Option KeySlot) : (s.setKey r k).calCnt = s.calCnt := by cases r <;> rfl
@[simp] theorem setKey_regs (r : KeyRef) (k : Option KeySlot) : (s.setKey r k).regs = s.regs := by cases r <;> rfl
@[simp] theorem setKey_mem (r : KeyRef) (k : Option KeySlot) : (s.setKey r k).mem = s.mem := by cases r <;> rfl
@[simp] theorem setKey_tblRaw (r : KeyRef) (k : Option KeySlot) : (s.setKey r k).tblRaw = s.tblRaw := by cases r <;> rfl
@[simp] theorem setKey_bufRaw (r : KeyRef) (k : Option KeySlot) : (s.setKey r k).bufRaw = s.bufRaw := by cases r <;> rfl
@[simp] theorem setKey_cnt (r : KeyRef) (k : Option KeySlot) : (s.setKey r k).cnt = s.cnt := by cases r <;> rfl
@[simp] theorem setKey_latch (r : KeyRef) (k : Option KeySlot) : (s.setKey r k).latch = s.latch := by cases r <;> rfl
@[simp] theorem setKey_time (r : KeyRef) (k : Option KeySlot) : (s.setKey r k).time = s.time := by cases r <;> rfl
@[simp] theorem setKey_cores (r : KeyRef) (k : Option KeySlot) : (s.setKey r k).cores = s.cores := by cases r <;> rfl
@[simp] theorem setKey_mtx (r : KeyRef) (k : Option KeySlot) : (s.setKey r k).mtx = s.mtx := by cases r <;> rfl
@[simp] theorem setKey_mtxLast (r : KeyRef) (k : Option KeySlot) : (s.setKey r k).mtxLast = s.mtxLast := by cases r <;> rfl
@[simp] theorem setKey_ramTurn (r : KeyRef) (k : Option KeySlot) : (s.setKey r k).ramTurn = s.ramTurn := by cases r <;> rfl
@[simp] theorem setKey_zeroing (r : KeyRef) (k : Option KeySlot) : (s.setKey r k).zeroing = s.zeroing := by cases r <;> rfl
@[simp] theorem setKey_img (r : KeyRef) (k : Option KeySlot) : (s.setKey r k).img = s.img := by cases r <;> rfl
@[simp] theorem setKey_evt (r : KeyRef) (k : Option KeySlot) : (s.setKey r k).evt = s.evt := by cases r <;> rfl
@[simp] theorem setKey_grm (r : KeyRef) (k : Option KeySlot) : (s.setKey r k).grm = s.grm := by cases r <;> rfl
@[simp] theorem setKey_svc (r : KeyRef) (k : Option KeySlot) : (s.setKey r k).svc = s.svc := by cases r <;> rfl
@[simp] theorem setKey_pwr (r : KeyRef) (k : Option KeySlot) : (s.setKey r k).pwr = s.pwr := by cases r <;> rfl
@[simp] theorem setKey_lines (r : KeyRef) (k : Option KeySlot) : (s.setKey r k).lines = s.lines := by cases r <;> rfl
@[simp] theorem setKey_ohDo (r : KeyRef) (k : Option KeySlot) : (s.setKey r k).ohDo = s.ohDo := by cases r <;> rfl
@[simp] theorem setKey_traf (r : KeyRef) (k : Option KeySlot) : (s.setKey r k).traf = s.traf := by cases r <;> rfl
@[simp] theorem setKey_chans (r : KeyRef) (k : Option KeySlot) : (s.setKey r k).chans = s.chans := by cases r <;> rfl
@[simp] theorem setKey_trees (r : KeyRef) (k : Option KeySlot) : (s.setKey r k).trees = s.trees := by cases r <;> rfl
@[simp] theorem setKey_mons (r : KeyRef) (k : Option KeySlot) : (s.setKey r k).mons = s.mons := by cases r <;> rfl
@[simp] theorem setKey_calCmds (r : KeyRef) (k : Option KeySlot) : (s.setKey r k).calCmds = s.calCmds := by cases r <;> rfl

@[simp] theorem setReas_pending (a : Nat) (r : Reas) : (s.setReas a r).pending = s.pending := rfl
@[simp] theorem setReas_now (a : Nat) (r : Reas) : (s.setReas a r).now = s.now := rfl
@[simp] theorem setReas_free (a : Nat) (r : Reas) : (s.setReas a r).free = s.free := rfl
@[simp] theorem setReas_calAcc (a : Nat) (r : Reas) : (s.setReas a r).calAcc = s.calAcc := rfl
@[simp] theorem setReas_calCnt (a : Nat) (r : Reas) : (s.setReas a r).calCnt = s.calCnt := rfl
@[simp] theorem setReas_regs (a : Nat) (r : Reas) : (s.setReas a r).regs = s.regs := rfl
@[simp] theorem setReas_mem (a : Nat) (r : Reas) : (s.setReas a r).mem = s.mem := rfl
@[simp] theorem setReas_tblRaw (a : Nat) (r : Reas) : (s.setReas a r).tblRaw = s.tblRaw := rfl
@[simp] theorem setReas_bufRaw (a : Nat) (r : Reas) : (s.setReas a r).bufRaw = s.bufRaw := rfl
@[simp] theorem setReas_cnt (a : Nat) (r : Reas) : (s.setReas a r).cnt = s.cnt := rfl
@[simp] theorem setReas_latch (a : Nat) (r : Reas) : (s.setReas a r).latch = s.latch := rfl
@[simp] theorem setReas_time (a : Nat) (r : Reas) : (s.setReas a r).time = s.time := rfl
@[simp] theorem setReas_cores (a : Nat) (r : Reas) : (s.setReas a r).cores = s.cores := rfl
@[simp] theorem setReas_mtx (a : Nat) (r : Reas) : (s.setReas a r).mtx = s.mtx := rfl
@[simp] theorem setReas_mtxLast (a : Nat) (r : Reas) : (s.setReas a r).mtxLast = s.mtxLast := rfl
@[simp] theorem setReas_ramTurn (a : Nat) (r : Reas) : (s.setReas a r).ramTurn = s.ramTurn := rfl
@[simp] theorem setReas_zeroing (a : Nat) (r : Reas) : (s.setReas a r).zeroing = s.zeroing := rfl
@[simp] theorem setReas_img (a : Nat) (r : Reas) : (s.setReas a r).img = s.img := rfl
@[simp] theorem setReas_evt (a : Nat) (r : Reas) : (s.setReas a r).evt = s.evt := rfl
@[simp] theorem setReas_grm (a : Nat) (r : Reas) : (s.setReas a r).grm = s.grm := rfl
@[simp] theorem setReas_svc (a : Nat) (r : Reas) : (s.setReas a r).svc = s.svc := rfl
@[simp] theorem setReas_pwr (a : Nat) (r : Reas) : (s.setReas a r).pwr = s.pwr := rfl
@[simp] theorem setReas_edw (a : Nat) (r : Reas) : (s.setReas a r).edw = s.edw := rfl
@[simp] theorem setReas_lines (a : Nat) (r : Reas) : (s.setReas a r).lines = s.lines := rfl
@[simp] theorem setReas_ohDo (a : Nat) (r : Reas) : (s.setReas a r).ohDo = s.ohDo := rfl
@[simp] theorem setReas_chans (a : Nat) (r : Reas) : (s.setReas a r).chans = s.chans := rfl
@[simp] theorem setReas_trees (a : Nat) (r : Reas) : (s.setReas a r).trees = s.trees := rfl
@[simp] theorem setReas_mons (a : Nat) (r : Reas) : (s.setReas a r).mons = s.mons := rfl
@[simp] theorem setReas_calCmds (a : Nat) (r : Reas) : (s.setReas a r).calCmds = s.calCmds := rfl

@[simp] theorem setBursts_pending (c : Nat) (l : List UpBurst) : (s.setBursts c l).pending = s.pending := rfl
@[simp] theorem setBursts_now (c : Nat) (l : List UpBurst) : (s.setBursts c l).now = s.now := rfl
@[simp] theorem setBursts_free (c : Nat) (l : List UpBurst) : (s.setBursts c l).free = s.free := rfl
@[simp] theorem setBursts_calAcc (c : Nat) (l : List UpBurst) : (s.setBursts c l).calAcc = s.calAcc := rfl
@[simp] theorem setBursts_calCnt (c : Nat) (l : List UpBurst) : (s.setBursts c l).calCnt = s.calCnt := rfl
@[simp] theorem setBursts_regs (c : Nat) (l : List UpBurst) : (s.setBursts c l).regs = s.regs := rfl
@[simp] theorem setBursts_mem (c : Nat) (l : List UpBurst) : (s.setBursts c l).mem = s.mem := rfl
@[simp] theorem setBursts_tblRaw (c : Nat) (l : List UpBurst) : (s.setBursts c l).tblRaw = s.tblRaw := rfl
@[simp] theorem setBursts_bufRaw (c : Nat) (l : List UpBurst) : (s.setBursts c l).bufRaw = s.bufRaw := rfl
@[simp] theorem setBursts_cnt (c : Nat) (l : List UpBurst) : (s.setBursts c l).cnt = s.cnt := rfl
@[simp] theorem setBursts_latch (c : Nat) (l : List UpBurst) : (s.setBursts c l).latch = s.latch := rfl
@[simp] theorem setBursts_time (c : Nat) (l : List UpBurst) : (s.setBursts c l).time = s.time := rfl
@[simp] theorem setBursts_cores (c : Nat) (l : List UpBurst) : (s.setBursts c l).cores = s.cores := rfl
@[simp] theorem setBursts_mtx (c : Nat) (l : List UpBurst) : (s.setBursts c l).mtx = s.mtx := rfl
@[simp] theorem setBursts_mtxLast (c : Nat) (l : List UpBurst) : (s.setBursts c l).mtxLast = s.mtxLast := rfl
@[simp] theorem setBursts_ramTurn (c : Nat) (l : List UpBurst) : (s.setBursts c l).ramTurn = s.ramTurn := rfl
@[simp] theorem setBursts_zeroing (c : Nat) (l : List UpBurst) : (s.setBursts c l).zeroing = s.zeroing := rfl
@[simp] theorem setBursts_img (c : Nat) (l : List UpBurst) : (s.setBursts c l).img = s.img := rfl
@[simp] theorem setBursts_evt (c : Nat) (l : List UpBurst) : (s.setBursts c l).evt = s.evt := rfl
@[simp] theorem setBursts_grm (c : Nat) (l : List UpBurst) : (s.setBursts c l).grm = s.grm := rfl
@[simp] theorem setBursts_svc (c : Nat) (l : List UpBurst) : (s.setBursts c l).svc = s.svc := rfl
@[simp] theorem setBursts_pwr (c : Nat) (l : List UpBurst) : (s.setBursts c l).pwr = s.pwr := rfl
@[simp] theorem setBursts_edw (c : Nat) (l : List UpBurst) : (s.setBursts c l).edw = s.edw := rfl
@[simp] theorem setBursts_lines (c : Nat) (l : List UpBurst) : (s.setBursts c l).lines = s.lines := rfl
@[simp] theorem setBursts_ohDo (c : Nat) (l : List UpBurst) : (s.setBursts c l).ohDo = s.ohDo := rfl
@[simp] theorem setBursts_chans (c : Nat) (l : List UpBurst) : (s.setBursts c l).chans = s.chans := rfl
@[simp] theorem setBursts_trees (c : Nat) (l : List UpBurst) : (s.setBursts c l).trees = s.trees := rfl
@[simp] theorem setBursts_mons (c : Nat) (l : List UpBurst) : (s.setBursts c l).mons = s.mons := rfl
@[simp] theorem setBursts_calCmds (c : Nat) (l : List UpBurst) : (s.setBursts c l).calCmds = s.calCmds := rfl

@[simp] theorem sendFrame_pending (p : Nat) (os : List Nat) : (s.sendFrame p os).pending = s.pending := rfl
@[simp] theorem sendFrame_now (p : Nat) (os : List Nat) : (s.sendFrame p os).now = s.now := rfl
@[simp] theorem sendFrame_free (p : Nat) (os : List Nat) : (s.sendFrame p os).free = s.free := rfl
@[simp] theorem sendFrame_calAcc (p : Nat) (os : List Nat) : (s.sendFrame p os).calAcc = s.calAcc := rfl
@[simp] theorem sendFrame_calCnt (p : Nat) (os : List Nat) : (s.sendFrame p os).calCnt = s.calCnt := rfl
@[simp] theorem sendFrame_regs (p : Nat) (os : List Nat) : (s.sendFrame p os).regs = s.regs := rfl
@[simp] theorem sendFrame_mem (p : Nat) (os : List Nat) : (s.sendFrame p os).mem = s.mem := rfl
@[simp] theorem sendFrame_tblRaw (p : Nat) (os : List Nat) : (s.sendFrame p os).tblRaw = s.tblRaw := rfl
@[simp] theorem sendFrame_bufRaw (p : Nat) (os : List Nat) : (s.sendFrame p os).bufRaw = s.bufRaw := rfl
@[simp] theorem sendFrame_cnt (p : Nat) (os : List Nat) : (s.sendFrame p os).cnt = s.cnt := rfl
@[simp] theorem sendFrame_latch (p : Nat) (os : List Nat) : (s.sendFrame p os).latch = s.latch := rfl
@[simp] theorem sendFrame_time (p : Nat) (os : List Nat) : (s.sendFrame p os).time = s.time := rfl
@[simp] theorem sendFrame_cores (p : Nat) (os : List Nat) : (s.sendFrame p os).cores = s.cores := rfl
@[simp] theorem sendFrame_mtx (p : Nat) (os : List Nat) : (s.sendFrame p os).mtx = s.mtx := rfl
@[simp] theorem sendFrame_mtxLast (p : Nat) (os : List Nat) : (s.sendFrame p os).mtxLast = s.mtxLast := rfl
@[simp] theorem sendFrame_ramTurn (p : Nat) (os : List Nat) : (s.sendFrame p os).ramTurn = s.ramTurn := rfl
@[simp] theorem sendFrame_zeroing (p : Nat) (os : List Nat) : (s.sendFrame p os).zeroing = s.zeroing := rfl
@[simp] theorem sendFrame_img (p : Nat) (os : List Nat) : (s.sendFrame p os).img = s.img := rfl
@[simp] theorem sendFrame_evt (p : Nat) (os : List Nat) : (s.sendFrame p os).evt = s.evt := rfl
@[simp] theorem sendFrame_grm (p : Nat) (os : List Nat) : (s.sendFrame p os).grm = s.grm := rfl
@[simp] theorem sendFrame_svc (p : Nat) (os : List Nat) : (s.sendFrame p os).svc = s.svc := rfl
@[simp] theorem sendFrame_pwr (p : Nat) (os : List Nat) : (s.sendFrame p os).pwr = s.pwr := rfl
@[simp] theorem sendFrame_edw (p : Nat) (os : List Nat) : (s.sendFrame p os).edw = s.edw := rfl
@[simp] theorem sendFrame_lines (p : Nat) (os : List Nat) : (s.sendFrame p os).lines = s.lines := rfl
@[simp] theorem sendFrame_ohDo (p : Nat) (os : List Nat) : (s.sendFrame p os).ohDo = s.ohDo := rfl
@[simp] theorem sendFrame_chans (p : Nat) (os : List Nat) : (s.sendFrame p os).chans = s.chans := rfl
@[simp] theorem sendFrame_trees (p : Nat) (os : List Nat) : (s.sendFrame p os).trees = s.trees := rfl
@[simp] theorem sendFrame_mons (p : Nat) (os : List Nat) : (s.sendFrame p os).mons = s.mons := rfl
@[simp] theorem sendFrame_calCmds (p : Nat) (os : List Nat) : (s.sendFrame p os).calCmds = s.calCmds := rfl

@[simp] theorem setBucket_pending (a : Nat) (tok : Int) : (s.setBucket a tok).pending = s.pending := rfl
@[simp] theorem setBucket_now (a : Nat) (tok : Int) : (s.setBucket a tok).now = s.now := rfl
@[simp] theorem setBucket_free (a : Nat) (tok : Int) : (s.setBucket a tok).free = s.free := rfl
@[simp] theorem setBucket_calAcc (a : Nat) (tok : Int) : (s.setBucket a tok).calAcc = s.calAcc := rfl
@[simp] theorem setBucket_calCnt (a : Nat) (tok : Int) : (s.setBucket a tok).calCnt = s.calCnt := rfl
@[simp] theorem setBucket_regs (a : Nat) (tok : Int) : (s.setBucket a tok).regs = s.regs := rfl
@[simp] theorem setBucket_mem (a : Nat) (tok : Int) : (s.setBucket a tok).mem = s.mem := rfl
@[simp] theorem setBucket_tblRaw (a : Nat) (tok : Int) : (s.setBucket a tok).tblRaw = s.tblRaw := rfl
@[simp] theorem setBucket_bufRaw (a : Nat) (tok : Int) : (s.setBucket a tok).bufRaw = s.bufRaw := rfl
@[simp] theorem setBucket_cnt (a : Nat) (tok : Int) : (s.setBucket a tok).cnt = s.cnt := rfl
@[simp] theorem setBucket_latch (a : Nat) (tok : Int) : (s.setBucket a tok).latch = s.latch := rfl
@[simp] theorem setBucket_time (a : Nat) (tok : Int) : (s.setBucket a tok).time = s.time := rfl
@[simp] theorem setBucket_cores (a : Nat) (tok : Int) : (s.setBucket a tok).cores = s.cores := rfl
@[simp] theorem setBucket_mtx (a : Nat) (tok : Int) : (s.setBucket a tok).mtx = s.mtx := rfl
@[simp] theorem setBucket_mtxLast (a : Nat) (tok : Int) : (s.setBucket a tok).mtxLast = s.mtxLast := rfl
@[simp] theorem setBucket_ramTurn (a : Nat) (tok : Int) : (s.setBucket a tok).ramTurn = s.ramTurn := rfl
@[simp] theorem setBucket_zeroing (a : Nat) (tok : Int) : (s.setBucket a tok).zeroing = s.zeroing := rfl
@[simp] theorem setBucket_img (a : Nat) (tok : Int) : (s.setBucket a tok).img = s.img := rfl
@[simp] theorem setBucket_evt (a : Nat) (tok : Int) : (s.setBucket a tok).evt = s.evt := rfl
@[simp] theorem setBucket_grm (a : Nat) (tok : Int) : (s.setBucket a tok).grm = s.grm := rfl
@[simp] theorem setBucket_svc (a : Nat) (tok : Int) : (s.setBucket a tok).svc = s.svc := rfl
@[simp] theorem setBucket_pwr (a : Nat) (tok : Int) : (s.setBucket a tok).pwr = s.pwr := rfl
@[simp] theorem setBucket_edw (a : Nat) (tok : Int) : (s.setBucket a tok).edw = s.edw := rfl
@[simp] theorem setBucket_lines (a : Nat) (tok : Int) : (s.setBucket a tok).lines = s.lines := rfl
@[simp] theorem setBucket_ohDo (a : Nat) (tok : Int) : (s.setBucket a tok).ohDo = s.ohDo := rfl
@[simp] theorem setBucket_chans (a : Nat) (tok : Int) : (s.setBucket a tok).chans = s.chans := rfl
@[simp] theorem setBucket_trees (a : Nat) (tok : Int) : (s.setBucket a tok).trees = s.trees := rfl
@[simp] theorem setBucket_mons (a : Nat) (tok : Int) : (s.setBucket a tok).mons = s.mons := rfl
@[simp] theorem setBucket_calCmds (a : Nat) (tok : Int) : (s.setBucket a tok).calCmds = s.calCmds := rfl
@[simp] theorem police_setBucket (a : Nat) (tok : Int) : sget (fun _ => {}) (s.setBucket a tok).traf.police a = ⟨tok, s.now⟩ :=
  sget_sput _ _ _
theorem police_setBucket_ne {a b : Nat} (tok : Int) (h : b ≠ a) :
    sget (fun _ => {}) (s.setBucket a tok).traf.police b = sget (fun _ => {}) s.traf.police b := sget_sput_ne _ _ h

/-- Updates of one part of a record, as the record set. -/
@[simp] theorem editCanc_eq (c : Nat) (f : Canceller → Canceller) :
    s.editCanc c f = s.setChan c { s.chan c with canc := f (s.chan c).canc } := rfl
@[simp] theorem editBurst_eq (c : Nat) (f : BurstRx → BurstRx) :
    s.editBurst c f = s.setChan c { s.chan c with burst := some (f (s.burst c)) } := rfl
@[simp] theorem setTrm_eq (t n : Nat) (x : Option Trm) :
    s.setTrm t n x = s.setTree t { s.tree t with trms := sput (fun _ => none) (s.tree t).trms n x } := rfl
@[simp] theorem setOp_eq (n : Nat) (o : EngOp) :
    s.setOp n o = s.setCore n { s.core n with ops := (s.core n).ops.map fun x => if x.tag = o.tag then o else x } := rfl
@[simp] theorem svc_sendCols (l : List (List Nat)) : (s.sendCols l).svc.out = l := rfl
@[simp] theorem reasAt_setReas (a : Nat) (r : Reas) : (s.setReas a r).reasAt a = r := sget_sput _ _ _
theorem reasAt_setReas_ne {a k : Nat} (r : Reas) (h : k ≠ a) : (s.setReas a r).reasAt k = s.reasAt k := sget_sput_ne _ _ h
@[simp] theorem burstsOf_setBursts (c : Nat) (l : List UpBurst) : (s.setBursts c l).burstsOf c = l := sget_sput _ _ _
theorem burstsOf_setBursts_ne {c k : Nat} (l : List UpBurst) (h : k ≠ c) : (s.setBursts c l).burstsOf k = s.burstsOf k :=
  sget_sput_ne _ _ h
@[simp] theorem keyOf_setKey (r : KeyRef) (k : Option KeySlot) : (s.setKey r k).keyOf r = k := by
  cases r <;> exact sget_sput _ _ _

/-- A record read after it is set. -/
@[simp] theorem core_setCore (n : Nat) (c : CoreSt) : (s.setCore n c).core n = c := sget_sput _ _ _
theorem core_setCore_ne {n k : Nat} (c : CoreSt) (h : k ≠ n) : (s.setCore n c).core k = s.core k := sget_sput_ne _ _ h
@[simp] theorem line_setLine (l : Nat) (x : LineSt) : (s.setLine l x).line l = x := sget_sput _ _ _
theorem line_setLine_ne {l k : Nat} (x : LineSt) (h : k ≠ l) : (s.setLine l x).line k = s.line k := sget_sput_ne _ _ h
@[simp] theorem chan_setChan (c : Nat) (x : ChSt) : (s.setChan c x).chan c = x := sget_sput _ _ _
theorem chan_setChan_ne {c k : Nat} (x : ChSt) (h : k ≠ c) : (s.setChan c x).chan k = s.chan k := sget_sput_ne _ _ h
@[simp] theorem tree_setTree (t : Nat) (x : TreeSt) : (s.setTree t x).tree t = x := sget_sput _ _ _
theorem tree_setTree_ne {t k : Nat} (x : TreeSt) (h : k ≠ t) : (s.setTree t x).tree k = s.tree k := sget_sput_ne _ _ h
@[simp] theorem mon_setMon (m : Nat) (x : MonSt) : (s.setMon m x).mon m = x := sget_sput _ _ _
theorem mon_setMon_ne {m k : Nat} (x : MonSt) (h : k ≠ m) : (s.setMon m x).mon k = s.mon k := sget_sput_ne _ _ h
@[simp] theorem packet_setPacket (d : Nat) (p : Option Packet) : (s.setPacket d p).packet d = p := sget_sput _ _ _
theorem packet_setPacket_ne {d k : Nat} (p : Option Packet) (h : k ≠ d) : (s.setPacket d p).packet k = s.packet k :=
  sget_sput_ne _ _ h
@[simp] theorem queue_setQueue (q : Nat) (l : List QEnt) : (s.setQueue q l).queue q = l := sget_sput _ _ _
theorem queue_setQueue_ne {q k : Nat} (l : List QEnt) (h : k ≠ q) : (s.setQueue q l).queue k = s.queue k :=
  sget_sput_ne _ _ h
@[simp] theorem memAt_setMem (a : Nat) (x : Stored) : (s.setMem a x).memAt a = x := sget_sput _ _ _
theorem memAt_setMem_ne {a k : Nat} (x : Stored) (h : k ≠ a) : (s.setMem a x).memAt k = s.memAt k := sget_sput_ne _ _ h
@[simp] theorem reg_setReg (a : Nat) (w : Word) : (s.setReg a w).reg a = w := sget_sput _ _ _
theorem reg_setReg_ne {a k : Nat} (w : Word) (h : k ≠ a) : (s.setReg a w).reg k = s.reg k := sget_sput_ne _ _ h

/-- The newest entry of a channel's launch. -/
@[simp] theorem launch_noteLaunch (c : Nat) (r : Option LinRamp) :
    ((s.noteLaunch c r).chan c).launch.head? = some (s.now, r) := by
  simp [State.noteLaunch]

/-- Records that an update of registers or of another part of the state leaves alone. -/
@[simp] theorem core_setReg (k : Nat) (a : Nat) (w : Word) : (s.setReg a w).core k = s.core k := rfl
@[simp] theorem line_setReg (k : Nat) (a : Nat) (w : Word) : (s.setReg a w).line k = s.line k := rfl
@[simp] theorem chan_setReg (k : Nat) (a : Nat) (w : Word) : (s.setReg a w).chan k = s.chan k := rfl
@[simp] theorem tree_setReg (k : Nat) (a : Nat) (w : Word) : (s.setReg a w).tree k = s.tree k := rfl
@[simp] theorem mon_setReg (k : Nat) (a : Nat) (w : Word) : (s.setReg a w).mon k = s.mon k := rfl
@[simp] theorem packet_setReg (k : Nat) (a : Nat) (w : Word) : (s.setReg a w).packet k = s.packet k := rfl
@[simp] theorem queue_setReg (k : Nat) (a : Nat) (w : Word) : (s.setReg a w).queue k = s.queue k := rfl
@[simp] theorem core_wr (k : Nat) (f : Field) (v i a b : Nat) : (s.wr f v i a b).core k = s.core k := rfl
@[simp] theorem line_wr (k : Nat) (f : Field) (v i a b : Nat) : (s.wr f v i a b).line k = s.line k := rfl
@[simp] theorem chan_wr (k : Nat) (f : Field) (v i a b : Nat) : (s.wr f v i a b).chan k = s.chan k := rfl
@[simp] theorem tree_wr (k : Nat) (f : Field) (v i a b : Nat) : (s.wr f v i a b).tree k = s.tree k := rfl
@[simp] theorem mon_wr (k : Nat) (f : Field) (v i a b : Nat) : (s.wr f v i a b).mon k = s.mon k := rfl
@[simp] theorem packet_wr (k : Nat) (f : Field) (v i a b : Nat) : (s.wr f v i a b).packet k = s.packet k := rfl
@[simp] theorem queue_wr (k : Nat) (f : Field) (v i a b : Nat) : (s.wr f v i a b).queue k = s.queue k := rfl
@[simp] theorem core_setMem (k : Nat) (a : Nat) (x : Stored) : (s.setMem a x).core k = s.core k := rfl
@[simp] theorem line_setMem (k : Nat) (a : Nat) (x : Stored) : (s.setMem a x).line k = s.line k := rfl
@[simp] theorem chan_setMem (k : Nat) (a : Nat) (x : Stored) : (s.setMem a x).chan k = s.chan k := rfl
@[simp] theorem tree_setMem (k : Nat) (a : Nat) (x : Stored) : (s.setMem a x).tree k = s.tree k := rfl
@[simp] theorem mon_setMem (k : Nat) (a : Nat) (x : Stored) : (s.setMem a x).mon k = s.mon k := rfl
@[simp] theorem packet_setMem (k : Nat) (a : Nat) (x : Stored) : (s.setMem a x).packet k = s.packet k := rfl
@[simp] theorem queue_setMem (k : Nat) (a : Nat) (x : Stored) : (s.setMem a x).queue k = s.queue k := rfl
@[simp] theorem core_memWrite (k : Nat) (a le : Nat) (v : PWord) : (s.memWrite a le v).core k = s.core k := rfl
@[simp] theorem line_memWrite (k : Nat) (a le : Nat) (v : PWord) : (s.memWrite a le v).line k = s.line k := rfl
@[simp] theorem chan_memWrite (k : Nat) (a le : Nat) (v : PWord) : (s.memWrite a le v).chan k = s.chan k := rfl
@[simp] theorem tree_memWrite (k : Nat) (a le : Nat) (v : PWord) : (s.memWrite a le v).tree k = s.tree k := rfl
@[simp] theorem mon_memWrite (k : Nat) (a le : Nat) (v : PWord) : (s.memWrite a le v).mon k = s.mon k := rfl
@[simp] theorem packet_memWrite (k : Nat) (a le : Nat) (v : PWord) : (s.memWrite a le v).packet k = s.packet k := rfl
@[simp] theorem queue_memWrite (k : Nat) (a le : Nat) (v : PWord) : (s.memWrite a le v).queue k = s.queue k := rfl
@[simp] theorem core_used (k : Nat) (u : Nat) : (s.used u).core k = s.core k := rfl
@[simp] theorem line_used (k : Nat) (u : Nat) : (s.used u).line k = s.line k := rfl
@[simp] theorem chan_used (k : Nat) (u : Nat) : (s.used u).chan k = s.chan k := rfl
@[simp] theorem tree_used (k : Nat) (u : Nat) : (s.used u).tree k = s.tree k := rfl
@[simp] theorem mon_used (k : Nat) (u : Nat) : (s.used u).mon k = s.mon k := rfl
@[simp] theorem packet_used (k : Nat) (u : Nat) : (s.used u).packet k = s.packet k := rfl
@[simp] theorem queue_used (k : Nat) (u : Nat) : (s.used u).queue k = s.queue k := rfl
@[simp] theorem reg_setCore (k : Nat) (n : Nat) (c : CoreSt) : (s.setCore n c).reg k = s.reg k := rfl
@[simp] theorem rd_setCore (f : Field) (i j k : Nat) (n : Nat) (c : CoreSt) : (s.setCore n c).rd f i j k = s.rd f i j k := rfl
@[simp] theorem rdb_setCore (f : Field) (i j k : Nat) (n : Nat) (c : CoreSt) : (s.setCore n c).rdb f i j k = s.rdb f i j k := rfl
@[simp] theorem memAt_setCore (k : Nat) (n : Nat) (c : CoreSt) : (s.setCore n c).memAt k = s.memAt k := rfl
@[simp] theorem reg_setLine (k : Nat) (l : Nat) (x : LineSt) : (s.setLine l x).reg k = s.reg k := rfl
@[simp] theorem rd_setLine (f : Field) (i j k : Nat) (l : Nat) (x : LineSt) : (s.setLine l x).rd f i j k = s.rd f i j k := rfl
@[simp] theorem rdb_setLine (f : Field) (i j k : Nat) (l : Nat) (x : LineSt) : (s.setLine l x).rdb f i j k = s.rdb f i j k := rfl
@[simp] theorem memAt_setLine (k : Nat) (l : Nat) (x : LineSt) : (s.setLine l x).memAt k = s.memAt k := rfl
@[simp] theorem reg_setChan (k : Nat) (c : Nat) (x : ChSt) : (s.setChan c x).reg k = s.reg k := rfl
@[simp] theorem rd_setChan (f : Field) (i j k : Nat) (c : Nat) (x : ChSt) : (s.setChan c x).rd f i j k = s.rd f i j k := rfl
@[simp] theorem rdb_setChan (f : Field) (i j k : Nat) (c : Nat) (x : ChSt) : (s.setChan c x).rdb f i j k = s.rdb f i j k := rfl
@[simp] theorem memAt_setChan (k : Nat) (c : Nat) (x : ChSt) : (s.setChan c x).memAt k = s.memAt k := rfl
@[simp] theorem reg_setTree (k : Nat) (t : Nat) (x : TreeSt) : (s.setTree t x).reg k = s.reg k := rfl
@[simp] theorem rd_setTree (f : Field) (i j k : Nat) (t : Nat) (x : TreeSt) : (s.setTree t x).rd f i j k = s.rd f i j k := rfl
@[simp] theorem rdb_setTree (f : Field) (i j k : Nat) (t : Nat) (x : TreeSt) : (s.setTree t x).rdb f i j k = s.rdb f i j k := rfl
@[simp] theorem memAt_setTree (k : Nat) (t : Nat) (x : TreeSt) : (s.setTree t x).memAt k = s.memAt k := rfl
@[simp] theorem reg_setMon (k : Nat) (m : Nat) (x : MonSt) : (s.setMon m x).reg k = s.reg k := rfl
@[simp] theorem rd_setMon (f : Field) (i j k : Nat) (m : Nat) (x : MonSt) : (s.setMon m x).rd f i j k = s.rd f i j k := rfl
@[simp] theorem rdb_setMon (f : Field) (i j k : Nat) (m : Nat) (x : MonSt) : (s.setMon m x).rdb f i j k = s.rdb f i j k := rfl
@[simp] theorem memAt_setMon (k : Nat) (m : Nat) (x : MonSt) : (s.setMon m x).memAt k = s.memAt k := rfl
@[simp] theorem reg_setPacket (k : Nat) (d : Nat) (p : Option Packet) : (s.setPacket d p).reg k = s.reg k := rfl
@[simp] theorem rd_setPacket (f : Field) (i j k : Nat) (d : Nat) (p : Option Packet) : (s.setPacket d p).rd f i j k = s.rd f i j k := rfl
@[simp] theorem rdb_setPacket (f : Field) (i j k : Nat) (d : Nat) (p : Option Packet) : (s.setPacket d p).rdb f i j k = s.rdb f i j k := rfl
@[simp] theorem memAt_setPacket (k : Nat) (d : Nat) (p : Option Packet) : (s.setPacket d p).memAt k = s.memAt k := rfl
@[simp] theorem reg_setQueue (k : Nat) (q : Nat) (l : List QEnt) : (s.setQueue q l).reg k = s.reg k := rfl
@[simp] theorem rd_setQueue (f : Field) (i j k : Nat) (q : Nat) (l : List QEnt) : (s.setQueue q l).rd f i j k = s.rd f i j k := rfl
@[simp] theorem rdb_setQueue (f : Field) (i j k : Nat) (q : Nat) (l : List QEnt) : (s.setQueue q l).rdb f i j k = s.rdb f i j k := rfl
@[simp] theorem memAt_setQueue (k : Nat) (q : Nat) (l : List QEnt) : (s.setQueue q l).memAt k = s.memAt k := rfl
@[simp] theorem reg_memWrite (k : Nat) (a le : Nat) (v : PWord) : (s.memWrite a le v).reg k = s.reg k := rfl
@[simp] theorem rd_memWrite (f : Field) (i j k : Nat) (a le : Nat) (v : PWord) : (s.memWrite a le v).rd f i j k = s.rd f i j k := rfl
@[simp] theorem rdb_memWrite (f : Field) (i j k : Nat) (a le : Nat) (v : PWord) : (s.memWrite a le v).rdb f i j k = s.rdb f i j k := rfl
@[simp] theorem reg_used (k : Nat) (u : Nat) : (s.used u).reg k = s.reg k := rfl
@[simp] theorem rd_used (f : Field) (i j k : Nat) (u : Nat) : (s.used u).rd f i j k = s.rd f i j k := rfl
@[simp] theorem rdb_used (f : Field) (i j k : Nat) (u : Nat) : (s.used u).rdb f i j k = s.rdb f i j k := rfl
@[simp] theorem memAt_used (k : Nat) (u : Nat) : (s.used u).memAt k = s.memAt k := rfl
@[simp] theorem memAt_setReg (k a : Nat) (w : Word) : (s.setReg a w).memAt k = s.memAt k := rfl
@[simp] theorem memAt_wr (k : Nat) (f : Field) (v i a b : Nat) : (s.wr f v i a b).memAt k = s.memAt k := rfl

end Sys2Proof.Machine
end

