-- ==== Sys2Proof/Laws/Reg.lean ====
section
/-! SUPPORT. Bit fields and register fields: what a field reads after a field is written. -/

namespace Sys2Proof

/-- A digit over a rest stays below the product of their bounds. -/
theorem pack_lt {a b m k : Nat} (ha : a < m) (hb : b < k) : a * k + b < m * k := by
  have h : (a + 1) * k ≤ m * k := Nat.mul_le_mul_right k ha
  have e : (a + 1) * k = a * k + k := by ring
  omega

/-- A field read after it is set. -/
@[simp] theorem bitsOf_setBits (n hi lo v : Nat) (h : lo ≤ hi) : bitsOf (setBits n hi lo v) hi lo = v % 2 ^ (hi + 1 - lo) := by
  unfold bitsOf setBits
  have hp : 2 ^ (hi + 1) = 2 ^ (hi + 1 - lo) * 2 ^ lo := by rw [← Nat.pow_add]; congr 1; omega
  rw [hp]
  have h1 : n / (2 ^ (hi + 1 - lo) * 2 ^ lo) * (2 ^ (hi + 1 - lo) * 2 ^ lo) + v % 2 ^ (hi + 1 - lo) * 2 ^ lo + n % 2 ^ lo
      = n % 2 ^ lo + 2 ^ lo * (v % 2 ^ (hi + 1 - lo) + 2 ^ (hi + 1 - lo) * (n / (2 ^ (hi + 1 - lo) * 2 ^ lo))) := by ring
  rw [h1, Nat.add_mul_div_left _ _ (by positivity), Nat.div_eq_of_lt (Nat.mod_lt _ (by positivity)), Nat.zero_add,
    Nat.add_mul_mod_self_left, Nat.mod_mod]

/-- A field above the one set reads as before. -/
theorem bitsOf_setBits_above (n hi lo v hi' lo' : Nat) (h : lo ≤ hi) (h' : hi < lo') :
    bitsOf (setBits n hi lo v) hi' lo' = bitsOf n hi' lo' := by
  unfold bitsOf setBits
  have e : 2 ^ lo' = 2 ^ (hi + 1) * 2 ^ (lo' - (hi + 1)) := by rw [← Nat.pow_add]; congr 1; omega
  have hp : 2 ^ (hi + 1) = 2 ^ (hi + 1 - lo) * 2 ^ lo := by rw [← Nat.pow_add]; congr 1; omega
  have hv := Nat.mod_lt v (show 0 < 2 ^ (hi + 1 - lo) by positivity)
  have hn := Nat.mod_lt n (show 0 < 2 ^ lo by positivity)
  have hlt : v % 2 ^ (hi + 1 - lo) * 2 ^ lo + n % 2 ^ lo < 2 ^ (hi + 1) := by
    rw [hp]; exact pack_lt hv hn
  rw [e, ← Nat.div_div_eq_div_mul, ← Nat.div_div_eq_div_mul, Nat.add_assoc, Nat.mul_comm (n / 2 ^ (hi + 1)),
    Nat.mul_add_div (by positivity), Nat.div_eq_of_lt hlt, Nat.add_zero]

/-- A field below the one set reads as before. -/
theorem bitsOf_setBits_below (n hi lo v hi' lo' : Nat) (h : lo ≤ hi) (h' : hi' < lo) (hl : lo' ≤ hi') :
    bitsOf (setBits n hi lo v) hi' lo' = bitsOf n hi' lo' := by
  unfold bitsOf setBits
  have e : 2 ^ lo = 2 ^ lo' * (2 ^ (hi' + 1 - lo') * 2 ^ (lo - (hi' + 1))) := by
    rw [← Nat.pow_add, ← Nat.pow_add]; congr 1; omega
  have hp : 2 ^ (hi + 1) = 2 ^ lo * 2 ^ (hi + 1 - lo) := by rw [← Nat.pow_add]; congr 1; omega
  set q := n / 2 ^ (hi + 1) * 2 ^ (hi + 1 - lo) + v % 2 ^ (hi + 1 - lo)
  have h1 : n / 2 ^ (hi + 1) * 2 ^ (hi + 1) + v % 2 ^ (hi + 1 - lo) * 2 ^ lo + n % 2 ^ lo = n % 2 ^ lo + 2 ^ lo * q := by
    rw [hp]; simp only [q, hp]; ring
  rw [h1]
  have h2 : n % 2 ^ lo + 2 ^ lo * q = n % 2 ^ lo + 2 ^ lo' * (2 ^ (hi' + 1 - lo') * (2 ^ (lo - (hi' + 1)) * q)) := by
    rw [e]; ring
  have h3 : n = n % 2 ^ lo + 2 ^ lo' * (2 ^ (hi' + 1 - lo') * (2 ^ (lo - (hi' + 1)) * (n / 2 ^ lo))) := by
    conv_lhs => rw [← Nat.mod_add_div n (2 ^ lo)]
    rw [e]; ring
  rw [h2, Nat.add_mul_div_left _ _ (by positivity), Nat.add_mul_mod_self_left]
  conv_rhs => rw [h3, Nat.add_mul_div_left _ _ (by positivity), Nat.add_mul_mod_self_left]

/-- Setting a field of a word keeps it a word. -/
theorem setBits_lt (n hi lo v : Nat) (hn : n < 2 ^ 36) (h : lo ≤ hi) (h' : hi < 36) : setBits n hi lo v < 2 ^ 36 := by
  unfold setBits
  have hp : 2 ^ (hi + 1) = 2 ^ (hi + 1 - lo) * 2 ^ lo := by rw [← Nat.pow_add]; congr 1; omega
  have hq : (2 : Nat) ^ 36 = 2 ^ (hi + 1) * 2 ^ (36 - (hi + 1)) := by rw [← Nat.pow_add]; congr 1; omega
  have hv := Nat.mod_lt v (show 0 < 2 ^ (hi + 1 - lo) by positivity)
  have hm := Nat.mod_lt n (show 0 < 2 ^ lo by positivity)
  have hd : n / 2 ^ (hi + 1) < 2 ^ (36 - (hi + 1)) := by
    apply Nat.div_lt_of_lt_mul; rw [← hq]; exact hn
  have hlt : v % 2 ^ (hi + 1 - lo) * 2 ^ lo + n % 2 ^ lo < 2 ^ (hi + 1) := by rw [hp]; exact pack_lt hv hm
  rw [hq, Nat.add_assoc, Nat.mul_comm (2 ^ (hi + 1))]; exact pack_lt hd hlt

/-- The value of the word of a number below 2^36. -/
theorem toNat_word {n : Nat} (h : n < 2 ^ 36) : (word n).toNat = n := by
  unfold word; rw [BitVec.toNat_ofNat, Nat.mod_eq_of_lt h]

end Sys2Proof

namespace Sys2Proof.Machine

variable (s : State)

/-- A field read after it is written. -/
theorem rd_wr (f : Field) (v i a b : Nat) (h : f.lo ≤ f.hi) (h' : f.hi < 36) :
    (s.wr f v i a b).rd f i a b = v % 2 ^ (f.hi + 1 - f.lo) := by
  unfold State.rd State.wr
  rw [reg_setReg, toNat_word (setBits_lt _ _ _ _ (s.reg _).isLt h h'), bitsOf_setBits _ _ _ _ h]

/-- A field of another word reads as before. -/
theorem rd_wr_ne (f g : Field) (v i a b j c d : Nat) (h : g.addr j c d ≠ f.addr i a b) :
    (s.wr f v i a b).rd g j c d = s.rd g j c d := by
  unfold State.rd State.wr
  rw [reg_setReg_ne _ _ h]

/-- A field of the same word that does not overlap reads as before. -/
theorem rd_wr_apart (f g : Field) (v i a b j c d : Nat) (h : f.lo ≤ f.hi) (h' : f.hi < 36) (hg : g.lo ≤ g.hi)
    (ha : f.hi < g.lo ∨ g.hi < f.lo) : (s.wr f v i a b).rd g j c d = s.rd g j c d := by
  by_cases e : g.addr j c d = f.addr i a b
  · unfold State.rd State.wr
    rw [e, reg_setReg, toNat_word (setBits_lt _ _ _ _ (s.reg _).isLt h h')]
    cases ha with
    | inl ha => exact bitsOf_setBits_above _ _ _ _ _ _ h ha
    | inr ha => exact bitsOf_setBits_below _ _ _ _ _ _ h ha hg
  · exact rd_wr_ne s f g v i a b j c d e

/-- A one-bit field read after it is written. -/
theorem rdb_wr (f : Field) (v i a b : Nat) (h : f.lo = f.hi) (h' : f.hi < 36) :
    (s.wr f v i a b).rdb f i a b = (v % 2 != 0) := by
  unfold State.rdb
  rw [rd_wr s f v i a b (by omega) h', h, Nat.add_sub_cancel_left, pow_one]

end Sys2Proof.Machine
end

