-- ==== Sys2Proof/Laws/Count.lean ====
section
/-! SUPPORT. What counting and raising events can change: counters, the event path, and `SVC_ALERT` for a priority-0
event; nothing else. -/

namespace Sys2Proof.Machine

open Ev Reg

theorem Events.refl (s : State) : Events s s := ⟨rfl, fun _ _ => rfl⟩

theorem Events.trans {s t u : State} (h : Events s t) (k : Events t u) : Events s u := by
  refine ⟨?_, fun a ha => (k.2 a ha).trans (h.2 a ha)⟩
  rw [k.1, h.1]

theorem Events.evt (s : State) (e : EvtSt) : Events s { s with evt := e } := ⟨rfl, fun _ _ => rfl⟩

theorem Events.cntPut (s : State) (x v : Nat) : Events s (s.cntPut x v) := ⟨rfl, fun _ _ => rfl⟩

theorem Events.alert (s : State) (v : Nat) : Events s (s.wr SVC_ALERT_P0_PEND v) :=
  ⟨rfl, fun _ ha => reg_setReg_ne s _ ha⟩

theorem cntAdd_events (s : State) (x k : Nat) : Events s (s.cntAdd x k).1 := by
  unfold State.cntAdd
  repeat' split
  all_goals first | exact Events.refl s | exact Events.cntPut s _ _

theorem occurP0_events (s : State) (r : EvRec) : Events s (s.occurP0 r) := by
  unfold State.occurP0
  have h := Events.alert s 1
  dsimp only
  split
  · exact h.trans (Events.evt _ _)
  · exact (h.trans (Events.evt _ _)).trans (cntAdd_events _ _ _)

theorem enterAvalanche_events (s : State) (c : Nat) : Events s (s.enterAvalanche c) := by
  unfold State.enterAvalanche
  exact ((Events.evt s _).trans (cntAdd_events _ _ _)).trans (occurP0_events _ _)

theorem rateStep_events (s : State) (pri : Nat) : Events s (s.rateStep pri).1 := by
  unfold State.rateStep
  split
  · exact Events.refl s
  · exact Events.evt s _

theorem watchPath_events (s : State) (ovr : Bool) : Events s (s.watchPath ovr) := by
  unfold State.watchPath
  repeat' split
  all_goals first | exact Events.refl s | exact enterAvalanche_events s _

theorem occurMain_events (s : State) (r : EvRec) : Events s (s.occurMain r) := by
  unfold State.occurMain
  dsimp only
  repeat' split
  · exact (Events.evt s _).trans (cntAdd_events _ _ _)
  · exact Events.evt s _
  · exact Events.evt s _

/-- Raising an event touches counters, the event path and `SVC_ALERT` alone (R549–R558). -/
theorem occurRec_events (s : State) (c : Code) (j : Nat) (args : List Int) : Events s (s.occurRec c j args) := by
  unfold State.occurRec
  dsimp only
  repeat' split
  · exact Events.evt s _
  · exact occurP0_events s _
  · exact ((rateStep_events s _).trans (watchPath_events _ _)).trans (occurMain_events _ _)

theorem addCnt_events (s : State) (c : Code) (j k : Nat) : Events s (s.addCnt c j k) := by
  unfold State.addCnt
  have h := cntAdd_events s (c.base + j) k
  dsimp only
  repeat' split
  · exact h
  · exact (h.trans (cntAdd_events _ _ _)).trans (occurRec_events _ _ _ _)
  · exact (h.trans (cntAdd_events _ _ _)).trans (occurRec_events _ _ _ _)

theorem occurRecs_events (c : Code) (j k : Nat) (s : State) : Events s (State.occurRecs c j k s) := by
  induction k generalizing s with
  | zero => exact Events.refl s
  | succ k ih => exact (occurRec_events s c j []).trans (ih _)

theorem count_events (s : State) (c : Code) (j k : Nat) : Events s (s.count c j k) := by
  unfold State.count
  split
  · exact Events.refl s
  · split
    · exact (addCnt_events s c j k).trans (occurRecs_events _ _ _ _)
    · exact (addCnt_events s c j k).trans (occurRec_events _ _ _ _)

theorem count2_events (s : State) (c : Code) (i j : Nat) : Events s (s.count2 c i j) :=
  ((addCnt_events s c i 1).trans (addCnt_events _ c j 1)).trans (occurRec_events _ _ _ _)

theorem occur_events (s : State) (c : Code) (j : Nat) (args : List Int) : Events s (s.occur c j args) :=
  (addCnt_events s c j 1).trans (occurRec_events _ _ _ _)

theorem Events.pending {s t : State} (h : Events s t) : t.pending = s.pending := by rw [h.1]
theorem Events.now {s t : State} (h : Events s t) : t.now = s.now := by rw [h.1]
theorem Events.free {s t : State} (h : Events s t) : t.free = s.free := by rw [h.1]
theorem Events.calAcc {s t : State} (h : Events s t) : t.calAcc = s.calAcc := by rw [h.1]
theorem Events.calCnt {s t : State} (h : Events s t) : t.calCnt = s.calCnt := by rw [h.1]
theorem Events.mem {s t : State} (h : Events s t) : t.mem = s.mem := by rw [h.1]
theorem Events.bufRaw {s t : State} (h : Events s t) : t.bufRaw = s.bufRaw := by rw [h.1]
theorem Events.latch {s t : State} (h : Events s t) : t.latch = s.latch := by rw [h.1]
theorem Events.time {s t : State} (h : Events s t) : t.time = s.time := by rw [h.1]
theorem Events.cores {s t : State} (h : Events s t) : t.cores = s.cores := by rw [h.1]
theorem Events.mtx {s t : State} (h : Events s t) : t.mtx = s.mtx := by rw [h.1]
theorem Events.mtxLast {s t : State} (h : Events s t) : t.mtxLast = s.mtxLast := by rw [h.1]
theorem Events.zeroing {s t : State} (h : Events s t) : t.zeroing = s.zeroing := by rw [h.1]
theorem Events.img {s t : State} (h : Events s t) : t.img = s.img := by rw [h.1]
theorem Events.grm {s t : State} (h : Events s t) : t.grm = s.grm := by rw [h.1]
theorem Events.svc {s t : State} (h : Events s t) : t.svc = s.svc := by rw [h.1]
theorem Events.pwr {s t : State} (h : Events s t) : t.pwr = s.pwr := by rw [h.1]
theorem Events.edw {s t : State} (h : Events s t) : t.edw = s.edw := by rw [h.1]
theorem Events.lines {s t : State} (h : Events s t) : t.lines = s.lines := by rw [h.1]
theorem Events.traf {s t : State} (h : Events s t) : t.traf = s.traf := by rw [h.1]
theorem Events.chans {s t : State} (h : Events s t) : t.chans = s.chans := by rw [h.1]
theorem Events.trees {s t : State} (h : Events s t) : t.trees = s.trees := by rw [h.1]
theorem Events.mons {s t : State} (h : Events s t) : t.mons = s.mons := by rw [h.1]
theorem Events.calCmds {s t : State} (h : Events s t) : t.calCmds = s.calCmds := by rw [h.1]
theorem Events.rd {s t : State} (h : Events s t) (f : Field) (i a b : Nat) (hf : f.addr i a b ≠ alertAddr) :
    t.rd f i a b = s.rd f i a b := by unfold State.rd; rw [h.2 _ hf]
theorem Events.rdb {s t : State} (h : Events s t) (f : Field) (i a b : Nat) (hf : f.addr i a b ≠ alertAddr) :
    t.rdb f i a b = s.rdb f i a b := by unfold State.rdb; rw [h.rd f i a b hf]
theorem Events.core {s t : State} (h : Events s t) (n : Nat) : t.core n = s.core n := by unfold State.core; rw [h.cores]
theorem Events.memAt {s t : State} (h : Events s t) (a : Nat) : t.memAt a = s.memAt a := by unfold State.memAt; rw [h.mem]

variable (s : State)

@[simp] theorem addCnt_pending (c : Code) (j k : Nat) : (s.addCnt c j k).pending = s.pending := (addCnt_events s c j k).pending
@[simp] theorem addCnt_now (c : Code) (j k : Nat) : (s.addCnt c j k).now = s.now := (addCnt_events s c j k).now
@[simp] theorem addCnt_free (c : Code) (j k : Nat) : (s.addCnt c j k).free = s.free := (addCnt_events s c j k).free
@[simp] theorem addCnt_calAcc (c : Code) (j k : Nat) : (s.addCnt c j k).calAcc = s.calAcc := (addCnt_events s c j k).calAcc
@[simp] theorem addCnt_calCnt (c : Code) (j k : Nat) : (s.addCnt c j k).calCnt = s.calCnt := (addCnt_events s c j k).calCnt
@[simp] theorem addCnt_mem (c : Code) (j k : Nat) : (s.addCnt c j k).mem = s.mem := (addCnt_events s c j k).mem
@[simp] theorem addCnt_bufRaw (c : Code) (j k : Nat) : (s.addCnt c j k).bufRaw = s.bufRaw := (addCnt_events s c j k).bufRaw
@[simp] theorem addCnt_latch (c : Code) (j k : Nat) : (s.addCnt c j k).latch = s.latch := (addCnt_events s c j k).latch
@[simp] theorem addCnt_time (c : Code) (j k : Nat) : (s.addCnt c j k).time = s.time := (addCnt_events s c j k).time
@[simp] theorem addCnt_cores (c : Code) (j k : Nat) : (s.addCnt c j k).cores = s.cores := (addCnt_events s c j k).cores
@[simp] theorem addCnt_mtx (c : Code) (j k : Nat) : (s.addCnt c j k).mtx = s.mtx := (addCnt_events s c j k).mtx
@[simp] theorem addCnt_mtxLast (c : Code) (j k : Nat) : (s.addCnt c j k).mtxLast = s.mtxLast := (addCnt_events s c j k).mtxLast
@[simp] theorem addCnt_zeroing (c : Code) (j k : Nat) : (s.addCnt c j k).zeroing = s.zeroing := (addCnt_events s c j k).zeroing
@[simp] theorem addCnt_img (c : Code) (j k : Nat) : (s.addCnt c j k).img = s.img := (addCnt_events s c j k).img
@[simp] theorem addCnt_grm (c : Code) (j k : Nat) : (s.addCnt c j k).grm = s.grm := (addCnt_events s c j k).grm
@[simp] theorem addCnt_svc (c : Code) (j k : Nat) : (s.addCnt c j k).svc = s.svc := (addCnt_events s c j k).svc
@[simp] theorem addCnt_pwr (c : Code) (j k : Nat) : (s.addCnt c j k).pwr = s.pwr := (addCnt_events s c j k).pwr
@[simp] theorem addCnt_edw (c : Code) (j k : Nat) : (s.addCnt c j k).edw = s.edw := (addCnt_events s c j k).edw
@[simp] theorem addCnt_lines (c : Code) (j k : Nat) : (s.addCnt c j k).lines = s.lines := (addCnt_events s c j k).lines
@[simp] theorem addCnt_traf (c : Code) (j k : Nat) : (s.addCnt c j k).traf = s.traf := (addCnt_events s c j k).traf
@[simp] theorem addCnt_chans (c : Code) (j k : Nat) : (s.addCnt c j k).chans = s.chans := (addCnt_events s c j k).chans
@[simp] theorem addCnt_trees (c : Code) (j k : Nat) : (s.addCnt c j k).trees = s.trees := (addCnt_events s c j k).trees
@[simp] theorem addCnt_mons (c : Code) (j k : Nat) : (s.addCnt c j k).mons = s.mons := (addCnt_events s c j k).mons
@[simp] theorem addCnt_calCmds (c : Code) (j k : Nat) : (s.addCnt c j k).calCmds = s.calCmds := (addCnt_events s c j k).calCmds
@[simp] theorem core_addCnt (c : Code) (j k : Nat) (n : Nat) : (s.addCnt c j k).core n = s.core n := (addCnt_events s c j k).core n
@[simp] theorem memAt_addCnt (c : Code) (j k : Nat) (a : Nat) : (s.addCnt c j k).memAt a = s.memAt a := (addCnt_events s c j k).memAt a
@[simp] theorem line_addCnt (c : Code) (j k : Nat) (n : Nat) : (s.addCnt c j k).line n = s.line n := by unfold State.line; rw [addCnt_lines]
@[simp] theorem chan_addCnt (c : Code) (j k : Nat) (n : Nat) : (s.addCnt c j k).chan n = s.chan n := by unfold State.chan; rw [addCnt_chans]
@[simp] theorem tree_addCnt (c : Code) (j k : Nat) (n : Nat) : (s.addCnt c j k).tree n = s.tree n := by unfold State.tree; rw [addCnt_trees]
@[simp] theorem mon_addCnt (c : Code) (j k : Nat) (n : Nat) : (s.addCnt c j k).mon n = s.mon n := by unfold State.mon; rw [addCnt_mons]

@[simp] theorem count_pending (c : Code) (j k : Nat) : (s.count c j k).pending = s.pending := (count_events s c j k).pending
@[simp] theorem count_now (c : Code) (j k : Nat) : (s.count c j k).now = s.now := (count_events s c j k).now
@[simp] theorem count_free (c : Code) (j k : Nat) : (s.count c j k).free = s.free := (count_events s c j k).free
@[simp] theorem count_calAcc (c : Code) (j k : Nat) : (s.count c j k).calAcc = s.calAcc := (count_events s c j k).calAcc
@[simp] theorem count_calCnt (c : Code) (j k : Nat) : (s.count c j k).calCnt = s.calCnt := (count_events s c j k).calCnt
@[simp] theorem count_mem (c : Code) (j k : Nat) : (s.count c j k).mem = s.mem := (count_events s c j k).mem
@[simp] theorem count_bufRaw (c : Code) (j k : Nat) : (s.count c j k).bufRaw = s.bufRaw := (count_events s c j k).bufRaw
@[simp] theorem count_latch (c : Code) (j k : Nat) : (s.count c j k).latch = s.latch := (count_events s c j k).latch
@[simp] theorem count_time (c : Code) (j k : Nat) : (s.count c j k).time = s.time := (count_events s c j k).time
@[simp] theorem count_cores (c : Code) (j k : Nat) : (s.count c j k).cores = s.cores := (count_events s c j k).cores
@[simp] theorem count_mtx (c : Code) (j k : Nat) : (s.count c j k).mtx = s.mtx := (count_events s c j k).mtx
@[simp] theorem count_mtxLast (c : Code) (j k : Nat) : (s.count c j k).mtxLast = s.mtxLast := (count_events s c j k).mtxLast
@[simp] theorem count_zeroing (c : Code) (j k : Nat) : (s.count c j k).zeroing = s.zeroing := (count_events s c j k).zeroing
@[simp] theorem count_img (c : Code) (j k : Nat) : (s.count c j k).img = s.img := (count_events s c j k).img
@[simp] theorem count_grm (c : Code) (j k : Nat) : (s.count c j k).grm = s.grm := (count_events s c j k).grm
@[simp] theorem count_svc (c : Code) (j k : Nat) : (s.count c j k).svc = s.svc := (count_events s c j k).svc
@[simp] theorem count_pwr (c : Code) (j k : Nat) : (s.count c j k).pwr = s.pwr := (count_events s c j k).pwr
@[simp] theorem count_edw (c : Code) (j k : Nat) : (s.count c j k).edw = s.edw := (count_events s c j k).edw
@[simp] theorem count_lines (c : Code) (j k : Nat) : (s.count c j k).lines = s.lines := (count_events s c j k).lines
@[simp] theorem count_traf (c : Code) (j k : Nat) : (s.count c j k).traf = s.traf := (count_events s c j k).traf
@[simp] theorem count_chans (c : Code) (j k : Nat) : (s.count c j k).chans = s.chans := (count_events s c j k).chans
@[simp] theorem count_trees (c : Code) (j k : Nat) : (s.count c j k).trees = s.trees := (count_events s c j k).trees
@[simp] theorem count_mons (c : Code) (j k : Nat) : (s.count c j k).mons = s.mons := (count_events s c j k).mons
@[simp] theorem count_calCmds (c : Code) (j k : Nat) : (s.count c j k).calCmds = s.calCmds := (count_events s c j k).calCmds
@[simp] theorem core_count (c : Code) (j k : Nat) (n : Nat) : (s.count c j k).core n = s.core n := (count_events s c j k).core n
@[simp] theorem memAt_count (c : Code) (j k : Nat) (a : Nat) : (s.count c j k).memAt a = s.memAt a := (count_events s c j k).memAt a
@[simp] theorem line_count (c : Code) (j k : Nat) (n : Nat) : (s.count c j k).line n = s.line n := by unfold State.line; rw [count_lines]
@[simp] theorem chan_count (c : Code) (j k : Nat) (n : Nat) : (s.count c j k).chan n = s.chan n := by unfold State.chan; rw [count_chans]
@[simp] theorem tree_count (c : Code) (j k : Nat) (n : Nat) : (s.count c j k).tree n = s.tree n := by unfold State.tree; rw [count_trees]
@[simp] theorem mon_count (c : Code) (j k : Nat) (n : Nat) : (s.count c j k).mon n = s.mon n := by unfold State.mon; rw [count_mons]

@[simp] theorem occurRec_pending (c : Code) (j : Nat) (args : List Int) : (s.occurRec c j args).pending = s.pending := (occurRec_events s c j args).pending
@[simp] theorem occurRec_now (c : Code) (j : Nat) (args : List Int) : (s.occurRec c j args).now = s.now := (occurRec_events s c j args).now
@[simp] theorem occurRec_free (c : Code) (j : Nat) (args : List Int) : (s.occurRec c j args).free = s.free := (occurRec_events s c j args).free
@[simp] theorem occurRec_calAcc (c : Code) (j : Nat) (args : List Int) : (s.occurRec c j args).calAcc = s.calAcc := (occurRec_events s c j args).calAcc
@[simp] theorem occurRec_calCnt (c : Code) (j : Nat) (args : List Int) : (s.occurRec c j args).calCnt = s.calCnt := (occurRec_events s c j args).calCnt
@[simp] theorem occurRec_mem (c : Code) (j : Nat) (args : List Int) : (s.occurRec c j args).mem = s.mem := (occurRec_events s c j args).mem
@[simp] theorem occurRec_bufRaw (c : Code) (j : Nat) (args : List Int) : (s.occurRec c j args).bufRaw = s.bufRaw := (occurRec_events s c j args).bufRaw
@[simp] theorem occurRec_latch (c : Code) (j : Nat) (args : List Int) : (s.occurRec c j args).latch = s.latch := (occurRec_events s c j args).latch
@[simp] theorem occurRec_time (c : Code) (j : Nat) (args : List Int) : (s.occurRec c j args).time = s.time := (occurRec_events s c j args).time
@[simp] theorem occurRec_cores (c : Code) (j : Nat) (args : List Int) : (s.occurRec c j args).cores = s.cores := (occurRec_events s c j args).cores
@[simp] theorem occurRec_mtx (c : Code) (j : Nat) (args : List Int) : (s.occurRec c j args).mtx = s.mtx := (occurRec_events s c j args).mtx
@[simp] theorem occurRec_mtxLast (c : Code) (j : Nat) (args : List Int) : (s.occurRec c j args).mtxLast = s.mtxLast := (occurRec_events s c j args).mtxLast
@[simp] theorem occurRec_zeroing (c : Code) (j : Nat) (args : List Int) : (s.occurRec c j args).zeroing = s.zeroing := (occurRec_events s c j args).zeroing
@[simp] theorem occurRec_img (c : Code) (j : Nat) (args : List Int) : (s.occurRec c j args).img = s.img := (occurRec_events s c j args).img
@[simp] theorem occurRec_grm (c : Code) (j : Nat) (args : List Int) : (s.occurRec c j args).grm = s.grm := (occurRec_events s c j args).grm
@[simp] theorem occurRec_svc (c : Code) (j : Nat) (args : List Int) : (s.occurRec c j args).svc = s.svc := (occurRec_events s c j args).svc
@[simp] theorem occurRec_pwr (c : Code) (j : Nat) (args : List Int) : (s.occurRec c j args).pwr = s.pwr := (occurRec_events s c j args).pwr
@[simp] theorem occurRec_edw (c : Code) (j : Nat) (args : List Int) : (s.occurRec c j args).edw = s.edw := (occurRec_events s c j args).edw
@[simp] theorem occurRec_lines (c : Code) (j : Nat) (args : List Int) : (s.occurRec c j args).lines = s.lines := (occurRec_events s c j args).lines
@[simp] theorem occurRec_traf (c : Code) (j : Nat) (args : List Int) : (s.occurRec c j args).traf = s.traf := (occurRec_events s c j args).traf
@[simp] theorem occurRec_chans (c : Code) (j : Nat) (args : List Int) : (s.occurRec c j args).chans = s.chans := (occurRec_events s c j args).chans
@[simp] theorem occurRec_trees (c : Code) (j : Nat) (args : List Int) : (s.occurRec c j args).trees = s.trees := (occurRec_events s c j args).trees
@[simp] theorem occurRec_mons (c : Code) (j : Nat) (args : List Int) : (s.occurRec c j args).mons = s.mons := (occurRec_events s c j args).mons
@[simp] theorem occurRec_calCmds (c : Code) (j : Nat) (args : List Int) : (s.occurRec c j args).calCmds = s.calCmds := (occurRec_events s c j args).calCmds
@[simp] theorem core_occurRec (c : Code) (j : Nat) (args : List Int) (n : Nat) : (s.occurRec c j args).core n = s.core n := (occurRec_events s c j args).core n
@[simp] theorem memAt_occurRec (c : Code) (j : Nat) (args : List Int) (a : Nat) : (s.occurRec c j args).memAt a = s.memAt a := (occurRec_events s c j args).memAt a
@[simp] theorem line_occurRec (c : Code) (j : Nat) (args : List Int) (n : Nat) : (s.occurRec c j args).line n = s.line n := by unfold State.line; rw [occurRec_lines]
@[simp] theorem chan_occurRec (c : Code) (j : Nat) (args : List Int) (n : Nat) : (s.occurRec c j args).chan n = s.chan n := by unfold State.chan; rw [occurRec_chans]
@[simp] theorem tree_occurRec (c : Code) (j : Nat) (args : List Int) (n : Nat) : (s.occurRec c j args).tree n = s.tree n := by unfold State.tree; rw [occurRec_trees]
@[simp] theorem mon_occurRec (c : Code) (j : Nat) (args : List Int) (n : Nat) : (s.occurRec c j args).mon n = s.mon n := by unfold State.mon; rw [occurRec_mons]

@[simp] theorem occur_pending (c : Code) (j : Nat) (args : List Int) : (s.occur c j args).pending = s.pending := (occur_events s c j args).pending
@[simp] theorem occur_now (c : Code) (j : Nat) (args : List Int) : (s.occur c j args).now = s.now := (occur_events s c j args).now
@[simp] theorem occur_free (c : Code) (j : Nat) (args : List Int) : (s.occur c j args).free = s.free := (occur_events s c j args).free
@[simp] theorem occur_calAcc (c : Code) (j : Nat) (args : List Int) : (s.occur c j args).calAcc = s.calAcc := (occur_events s c j args).calAcc
@[simp] theorem occur_calCnt (c : Code) (j : Nat) (args : List Int) : (s.occur c j args).calCnt = s.calCnt := (occur_events s c j args).calCnt
@[simp] theorem occur_mem (c : Code) (j : Nat) (args : List Int) : (s.occur c j args).mem = s.mem := (occur_events s c j args).mem
@[simp] theorem occur_bufRaw (c : Code) (j : Nat) (args : List Int) : (s.occur c j args).bufRaw = s.bufRaw := (occur_events s c j args).bufRaw
@[simp] theorem occur_latch (c : Code) (j : Nat) (args : List Int) : (s.occur c j args).latch = s.latch := (occur_events s c j args).latch
@[simp] theorem occur_time (c : Code) (j : Nat) (args : List Int) : (s.occur c j args).time = s.time := (occur_events s c j args).time
@[simp] theorem occur_cores (c : Code) (j : Nat) (args : List Int) : (s.occur c j args).cores = s.cores := (occur_events s c j args).cores
@[simp] theorem occur_mtx (c : Code) (j : Nat) (args : List Int) : (s.occur c j args).mtx = s.mtx := (occur_events s c j args).mtx
@[simp] theorem occur_mtxLast (c : Code) (j : Nat) (args : List Int) : (s.occur c j args).mtxLast = s.mtxLast := (occur_events s c j args).mtxLast
@[simp] theorem occur_zeroing (c : Code) (j : Nat) (args : List Int) : (s.occur c j args).zeroing = s.zeroing := (occur_events s c j args).zeroing
@[simp] theorem occur_img (c : Code) (j : Nat) (args : List Int) : (s.occur c j args).img = s.img := (occur_events s c j args).img
@[simp] theorem occur_grm (c : Code) (j : Nat) (args : List Int) : (s.occur c j args).grm = s.grm := (occur_events s c j args).grm
@[simp] theorem occur_svc (c : Code) (j : Nat) (args : List Int) : (s.occur c j args).svc = s.svc := (occur_events s c j args).svc
@[simp] theorem occur_pwr (c : Code) (j : Nat) (args : List Int) : (s.occur c j args).pwr = s.pwr := (occur_events s c j args).pwr
@[simp] theorem occur_edw (c : Code) (j : Nat) (args : List Int) : (s.occur c j args).edw = s.edw := (occur_events s c j args).edw
@[simp] theorem occur_lines (c : Code) (j : Nat) (args : List Int) : (s.occur c j args).lines = s.lines := (occur_events s c j args).lines
@[simp] theorem occur_traf (c : Code) (j : Nat) (args : List Int) : (s.occur c j args).traf = s.traf := (occur_events s c j args).traf
@[simp] theorem occur_chans (c : Code) (j : Nat) (args : List Int) : (s.occur c j args).chans = s.chans := (occur_events s c j args).chans
@[simp] theorem occur_trees (c : Code) (j : Nat) (args : List Int) : (s.occur c j args).trees = s.trees := (occur_events s c j args).trees
@[simp] theorem occur_mons (c : Code) (j : Nat) (args : List Int) : (s.occur c j args).mons = s.mons := (occur_events s c j args).mons
@[simp] theorem occur_calCmds (c : Code) (j : Nat) (args : List Int) : (s.occur c j args).calCmds = s.calCmds := (occur_events s c j args).calCmds
@[simp] theorem core_occur (c : Code) (j : Nat) (args : List Int) (n : Nat) : (s.occur c j args).core n = s.core n := (occur_events s c j args).core n
@[simp] theorem memAt_occur (c : Code) (j : Nat) (args : List Int) (a : Nat) : (s.occur c j args).memAt a = s.memAt a := (occur_events s c j args).memAt a
@[simp] theorem line_occur (c : Code) (j : Nat) (args : List Int) (n : Nat) : (s.occur c j args).line n = s.line n := by unfold State.line; rw [occur_lines]
@[simp] theorem chan_occur (c : Code) (j : Nat) (args : List Int) (n : Nat) : (s.occur c j args).chan n = s.chan n := by unfold State.chan; rw [occur_chans]
@[simp] theorem tree_occur (c : Code) (j : Nat) (args : List Int) (n : Nat) : (s.occur c j args).tree n = s.tree n := by unfold State.tree; rw [occur_trees]
@[simp] theorem mon_occur (c : Code) (j : Nat) (args : List Int) (n : Nat) : (s.occur c j args).mon n = s.mon n := by unfold State.mon; rw [occur_mons]

end Sys2Proof.Machine
end

