-- ==== Sys2Proof/Laws/Canonical.lean ====
section
/-! SUPPORT. Every operation that writes the lane memories, the stored bits, the registers or the counters keeps
their one canonical form (`Memory.wf`, `State.canonical`), and the state after reset has it. -/

namespace Sys2Proof.Machine

/-- The canonical form rests on five fields alone. -/
theorem canonical_congr {s t : State} (h : s.canonical = true) (hm : t.mem = s.mem) (hr : t.regs = s.regs)
    (ht : t.tblRaw = s.tblRaw) (hb : t.bufRaw = s.bufRaw) (hc : t.cnt = s.cnt) : t.canonical = true := by
  unfold State.canonical at *
  rw [hm, hr, ht, hb, hc]; exact h

/-- The five parts of the canonical form. -/
theorem canonical_iff (s : State) : s.canonical = true ↔
    Memory.wf s.mem = true ∧ swf resetWord s.regs = true ∧ swf (fun _ => (none : Option Stored)) s.tblRaw = true ∧
      swf (fun _ => (none : Option StoredB)) s.bufRaw = true ∧ swf (fun _ => 0) s.cnt = true := by
  simp [State.canonical, and_assoc]

/-! ### The lane memories (R79, R83, R516) -/

/-- A stored word put into a lane memory keeps the canonical form. -/
theorem wf_setMem {s : State} (a : Nat) (x : Stored) (h : Memory.wf s.mem = true) : Memory.wf (s.setMem a x).mem = true :=
  swf_sput h a x

/-- A store of lanes keeps the canonical form. -/
theorem wf_memWrite {s : State} (a le : Nat) (v : PWord) (h : Memory.wf s.mem = true) :
    Memory.wf (s.memWrite a le v).mem = true := wf_setMem a _ h

/-- Zeroing instances keeps the canonical form. -/
theorem wf_zeroMem {s : State} (p : Nat → Bool) (h : Memory.wf s.mem = true) : Memory.wf (s.zeroMem p).mem = true := by
  unfold State.zeroMem Memory.wf; dsimp only; exact swf_sdrop _ h

/-- The lane memories are canonical after reset. -/
theorem wf_reset : Memory.wf State.reset.mem = true := rfl

/-! ### The whole state -/

/-- A stored word put into a lane memory keeps the canonical form of the state. -/
theorem canonical_setMem {s : State} (a : Nat) (x : Stored) (h : s.canonical = true) : (s.setMem a x).canonical = true := by
  rw [canonical_iff] at *
  exact ⟨wf_setMem a x h.1, h.2⟩

/-- A store of lanes keeps the canonical form of the state. -/
theorem canonical_memWrite {s : State} (a le : Nat) (v : PWord) (h : s.canonical = true) :
    (s.memWrite a le v).canonical = true := canonical_setMem a _ h

/-- Zeroing instances keeps the canonical form of the state. -/
theorem canonical_zeroMem {s : State} (p : Nat → Bool) (h : s.canonical = true) : (s.zeroMem p).canonical = true := by
  rw [canonical_iff] at *
  exact ⟨wf_zeroMem p h.1, h.2⟩

/-- A register word stored keeps the canonical form. -/
theorem canonical_setReg {s : State} (a : Nat) (w : Word) (h : s.canonical = true) : (s.setReg a w).canonical = true := by
  rw [canonical_iff] at *
  exact ⟨h.1, swf_sput h.2.1 a w, h.2.2⟩

/-- A register field set keeps the canonical form. -/
theorem canonical_wr {s : State} (f : Field) (v i a b : Nat) (h : s.canonical = true) : (s.wr f v i a b).canonical = true :=
  canonical_setReg _ _ h

/-- Words put one after another into a canonical table keep it canonical. -/
theorem swf_foldl_sput {α : Type} [DecidableEq α] {d : Nat → α} (g : Nat × α → α) (l t : List (Nat × α))
    (h : swf d t = true) : swf d (l.foldl (fun acc e => sput d acc e.1 (g e)) t) = true := by
  induction l generalizing t with
  | nil => exact h
  | cons e l ih => exact ih _ (swf_sput h _ _)

/-- A reset of register words gives the canonical form (R15). -/
theorem canonical_resetRegs {s : State} (rs : List Retention) (p : Nat → Bool) (h : s.canonical = true) :
    (s.resetRegs rs p).canonical = true := by
  rw [canonical_iff] at *
  exact ⟨h.1, swf_foldl_sput _ _ _ rfl, h.2.2⟩

/-- The overwrite of the key store keeps the canonical form (R450). -/
theorem canonical_wipeKeys {s : State} (h : s.canonical = true) : s.wipeKeys.canonical = true := by
  unfold State.wipeKeys
  refine canonical_wr _ _ _ _ _ (canonical_wr _ _ _ _ _ (canonical_wr _ _ _ _ _ ?_))
  rw [canonical_iff] at *
  exact ⟨h.1, swf_sdrop (fun a => decide (0o420000000 ≤ a) && decide (a < 0o421000000) && decide (a % 0o10000 < 3)) h.2.1, h.2.2⟩

/-- A counter pair written clean keeps the canonical form (R545). -/
theorem canonical_cntPut {s : State} (x v : Nat) (h : s.canonical = true) : (s.cntPut x v).canonical = true := by
  rw [canonical_iff] at *
  exact ⟨h.1, h.2.1, by unfold State.cntPut; dsimp only; exact swf_sput (swf_sput h.2.2.1 _ _) _ _, h.2.2.2.1,
    by unfold State.cntPut; dsimp only; exact swf_sput h.2.2.2.2 _ _⟩

/-- A word of a counter replaced keeps the canonical form. -/
theorem canonical_cntSetWord {s : State} (x : Nat) (chain : Bool) (v : Nat) (h : s.canonical = true) :
    (s.cntSetWord x chain v).canonical = true := by
  rw [canonical_iff] at *
  exact ⟨h.1, h.2.1, h.2.2.1, h.2.2.2.1, swf_sput h.2.2.2.2 _ _⟩

/-- A table word written clean keeps the canonical form. -/
theorem canonical_tblPut {s : State} (a : Nat) (w : Word) (h : s.canonical = true) : (s.tblPut a w).canonical = true := by
  unfold State.tblPut
  apply canonical_setReg
  rw [canonical_iff] at *
  exact ⟨h.1, h.2.1, by dsimp only; exact swf_sput h.2.2.1 _ _, h.2.2.2⟩

/-- The raw bits of a table word set or dropped keep the canonical form. -/
theorem canonical_tblRaw {s : State} (a : Nat) (x : Option Stored) (h : s.canonical = true) :
    ({ s with tblRaw := sput (fun _ => none) s.tblRaw a x } : State).canonical = true := by
  rw [canonical_iff] at *
  exact ⟨h.1, h.2.1, swf_sput h.2.2.1 _ _, h.2.2.2⟩

/-- The raw bits of a buffer lane set or dropped keep the canonical form. -/
theorem canonical_bufRaw {s : State} (a : Nat) (x : Option StoredB) (h : s.canonical = true) :
    ({ s with bufRaw := sput (fun _ => none) s.bufRaw a x } : State).canonical = true := by
  rw [canonical_iff] at *
  exact ⟨h.1, h.2.1, h.2.2.1, swf_sput h.2.2.2.1 _ _, h.2.2.2.2⟩

/-- A stored word put at any address keeps the canonical form (R517–R519). -/
theorem canonical_putStored {s : State} (a : Nat) (x : Stored) (h : s.canonical = true) :
    (s.putStored a x).canonical = true := by
  unfold State.putStored
  split
  · exact h
  · split
    · exact canonical_setMem _ _ h
    · extract_lets v s1 s2
      have h1 : s1.canonical = true := by
        simp only [s1]
        repeat' split
        · exact canonical_cntSetWord _ _ _ h
        · exact h
        · exact h
        · exact canonical_setReg _ _ h
      have h2 : s2.canonical = true := canonical_tblRaw a none h1
      split
      · exact h2
      · exact canonical_tblRaw a (some x) h2

/-- A buffer lane stored as given keeps the canonical form (R519). -/
theorem canonical_putLane {s : State} (a : Nat) (x : StoredB) (h : s.canonical = true) : (s.putLane a x).canonical = true := by
  unfold State.putLane
  extract_lets s1
  have h1 : s1.canonical = true := canonical_bufRaw a none h
  split
  · exact h1
  · exact canonical_bufRaw a (some x) h1

/-- Cells written anew keep the canonical form. -/
theorem canonical_cleanCells {s : State} (cs : List Nat) (h : s.canonical = true) : (s.cleanCells cs).canonical = true := by
  rw [canonical_iff] at *
  exact ⟨h.1, h.2.1, h.2.2.1, by unfold State.cleanCells; dsimp only; exact swf_sdrop _ h.2.2.2.1, h.2.2.2.2⟩

end Sys2Proof.Machine
end

