-- ==== Sys2Proof/Laws/Hergil.lean ====
section
/-! SUPPORT. What running one instruction of a Hergil core can change: the fetch, the end of an instruction, an
exception. -/

namespace Sys2Proof.Machine

open Ev Reg

variable {s t u : State} {n : Nat}

/-! ### The latest record of a code -/

theorem latest_keep (e : EvtSt) (r : EvRec) (b : Bool) :
    sget (fun _ => none) (e.keep r b).latest r.code = some ⟨r, b⟩ := by
  unfold EvtSt.keep
  simp

@[simp] theorem cntAdd_evt (s : State) (x k : Nat) : (s.cntAdd x k).1.evt = s.evt := by
  unfold State.cntAdd
  repeat' split
  all_goals rfl

@[simp] theorem wr_evt' (s : State) (f : Field) (v i a b : Nat) : (s.wr f v i a b).evt = s.evt := rfl

/-- What `keep` stores is a record of the same code, instance, LP and ARG words. -/
def LatestIs (e : EvtSt) (r : EvRec) : Prop :=
  ∃ k, sget (fun _ => none) e.latest r.code = some k ∧ k.rec_.code = r.code ∧ k.rec_.inst = r.inst ∧ k.rec_.lp = r.lp ∧
    k.rec_.args = r.args

theorem latestIs_keep (e : EvtSt) (r : EvRec) (b : Bool) : LatestIs (e.keep r b) r :=
  ⟨_, latest_keep e r b, rfl, rfl, rfl, rfl⟩

theorem latestIs_seq {e : EvtSt} {r : EvRec} {k : Nat} (h : LatestIs e { r with seq := k }) : LatestIs e r := h

theorem latestIs_avalanche (e : EvtSt) (at_ : Nat) (r : EvRec) : LatestIs (e.avalanche at_ r).1 r := by
  unfold EvtSt.avalanche
  dsimp only
  repeat' split
  · exact latestIs_seq (latestIs_keep _ { r with seq := e.seq } true)
  · exact latestIs_seq (latestIs_keep _ { r with seq := e.seq } true)
  · exact latestIs_keep { e with opens := openCode r.code none e.opens } { r with kind := 1, seq := e.seq } true
  · exact latestIs_keep _ r false
  · exact latestIs_keep _ r false

theorem occurMain_latest (s : State) (r : EvRec) : LatestIs (s.occurMain r).evt r := by
  unfold State.occurMain
  dsimp only
  repeat' split
  · simpa using latestIs_avalanche s.evt s.now r
  · exact latestIs_avalanche s.evt s.now r
  · exact latestIs_keep s.evt { r with seq := s.evt.seq } true

theorem occurP0_latest (s : State) (r : EvRec) : LatestIs (s.occurP0 r).evt r := by
  unfold State.occurP0
  dsimp only
  split
  · exact latestIs_keep s.evt { r with seq := s.evt.seqP0 } true
  · simpa using latestIs_keep { s.evt with opensP0 := coalesce r true s.evt.opensP0 } r false

theorem occurRec_raised (s : State) (c : Code) (j : Nat) (args : List Int) : c.raised s (s.occurRec c j args) j args := by
  suffices h : LatestIs (s.occurRec c j args).evt (s.evRec c j args) from h
  unfold State.occurRec
  dsimp only
  repeat' split
  · exact latestIs_keep _ _ _
  · exact occurP0_latest _ _
  · exact occurMain_latest _ _

theorem Code.raised_of_now {c : Code} {j : Nat} {args : List Int} (h : c.raised s t j args) (e : s.now = u.now) :
    c.raised u t j args := by
  unfold Code.raised at *
  rwa [← e]

theorem occur_raised (s : State) (c : Code) (j : Nat) (args : List Int) : c.raised s (s.occur c j args) j args :=
  Code.raised_of_now (occurRec_raised _ _ _ _) (addCnt_events s c j 1).now

/-- Of several occurrences the last is the code's latest record. -/
theorem occurRecs_raised (c : Code) (j k : Nat) (s : State) (h : k ≠ 0) : c.raised s (State.occurRecs c j k s) j [] := by
  induction k generalizing s with
  | zero => exact absurd rfl h
  | succ k ih =>
    by_cases hk : k = 0
    · subst hk; exact occurRec_raised s c j []
    · exact Code.raised_of_now (ih _ hk) (occurRec_events s c j []).now

theorem count_raised (s : State) (c : Code) (j k : Nat) (h : k ≠ 0) : c.raised s (s.count c j k) j [] := by
  unfold State.count
  rw [if_neg h]
  split
  · exact Code.raised_of_now (occurRecs_raised _ _ _ _ h) (addCnt_events s c j k).now
  · exact Code.raised_of_now (occurRec_raised _ _ _ _) (addCnt_events s c j k).now

/-! ### Counting -/

@[simp] theorem cntAt_cntPut (s : State) (x v y : Nat) : (s.cntPut x v).cntAt y = if y = x then v else s.cntAt y := by
  unfold State.cntPut State.cntAt
  dsimp only
  split
  · next h => subst h; simp
  · next h => exact sget_sput_ne _ _ h

theorem cntAt_cntAdd_ne (s : State) (x k y : Nat) (h : y ≠ x) : (s.cntAdd x k).1.cntAt y = s.cntAt y := by
  unfold State.cntAdd
  repeat' split
  all_goals simp [h]

theorem cntAt_occurP0 (s : State) (r : EvRec) (y : Nat) (h : y ≠ EVT_P0_COALESCED.base) :
    (s.occurP0 r).cntAt y = s.cntAt y := by
  unfold State.occurP0
  dsimp only
  split
  · rfl
  · rw [cntAt_cntAdd_ne _ _ _ _ h]; rfl

theorem cntAt_rateStep (s : State) (p y : Nat) : (s.rateStep p).1.cntAt y = s.cntAt y := by
  unfold State.rateStep; split <;> rfl

/-- The counters of the event path itself. -/
def evPathCounter (y : Nat) : Prop := y = EVT_P0_COALESCED.base ∨ y = EVT_COALESCED.base ∨ y = EVT_AVALANCHE.base

theorem cntAt_occurRec (s : State) (c : Code) (j : Nat) (args : List Int) (y : Nat) (h : ¬ evPathCounter y) :
    (s.occurRec c j args).cntAt y = s.cntAt y := by
  simp only [evPathCounter, not_or] at h
  unfold State.occurRec
  dsimp only
  repeat' split
  · rfl
  · exact cntAt_occurP0 _ _ _ h.1
  · have hw : ∀ (s : State) (b : Bool), (s.watchPath b).cntAt y = s.cntAt y := by
      intro s b
      have he : ∀ k, (s.enterAvalanche k).cntAt y = s.cntAt y := by
        intro k
        unfold State.enterAvalanche
        dsimp only
        rw [cntAt_occurP0 _ _ _ h.1, cntAt_cntAdd_ne _ _ _ _ h.2.2]; rfl
      unfold State.watchPath
      repeat' split
      all_goals first | rfl | exact he _
    have hm : ∀ (s : State) (r : EvRec), (s.occurMain r).cntAt y = s.cntAt y := by
      intro s r
      unfold State.occurMain
      dsimp only
      repeat' split
      · rw [cntAt_cntAdd_ne _ _ _ _ h.2.1]; rfl
      · rfl
      · rfl
    rw [hm, hw, cntAt_rateStep]

theorem cntAt_occurRecs (c : Code) (j y : Nat) (h : ¬ evPathCounter y) (k : Nat) (s : State) :
    (State.occurRecs c j k s).cntAt y = s.cntAt y := by
  induction k generalizing s with
  | zero => rfl
  | succ k ih => exact (ih _).trans (cntAt_occurRec s c j [] y h)

theorem cntAdd_clean (s : State) (x k : Nat) (h1 : s.cntBad (cntAddr x) = false) (h2 : s.cntBad (cntAddr x + 1) = false)
    (h3 : s.cntAt x + k ≤ cntMax) :
    (s.cntAdd x k).2 = .none ∧ (s.cntAdd x k).1.cntAt x = s.cntAt x + k := by
  unfold State.cntAdd
  rw [h1, h2]
  by_cases h : s.cntAt x = cntMax
  · have : k = 0 := by omega
    subst this; simp [h]
  · simp [h, Nat.not_lt.mpr h3]

theorem addCnt_counted (s : State) (c : Code) (j k : Nat) : c.counted s (s.addCnt c j k) j k := by
  intro h1 h2 h3
  obtain ⟨hn, hv⟩ := cntAdd_clean s _ k h1 h2 h3
  unfold State.addCnt
  dsimp only
  rw [hn]
  exact hv

theorem occur_counted (s : State) (c : Code) (j : Nat) (args : List Int) (h : ¬ evPathCounter (c.base + j)) :
    c.counted s (s.occur c j args) j 1 := by
  intro h1 h2 h3
  unfold State.occur
  rw [cntAt_occurRec _ _ _ _ _ h]
  exact addCnt_counted s c j 1 h1 h2 h3

theorem count_counted (s : State) (c : Code) (j k : Nat) (h : ¬ evPathCounter (c.base + j)) :
    c.counted s (s.count c j k) j k := by
  intro h1 h2 h3
  unfold State.count
  split
  · next e => subst e; rfl
  · split
    · rw [cntAt_occurRecs _ _ _ h]
      exact addCnt_counted s c j k h1 h2 h3
    · rw [cntAt_occurRec _ _ _ _ _ h]
      exact addCnt_counted s c j k h1 h2 h3

/-! ### Beside -/

theorem Beside.refl (s : State) (n : Nat) : Beside s s n := ⟨rfl, fun _ _ _ => rfl, fun _ _ => rfl⟩

theorem Beside.trans (h : Beside s t n) (k : Beside t u n) : Beside s u n := by
  refine ⟨?_, fun a ha hb => (k.regs a ha hb).trans (h.regs a ha hb), fun i hi => (k.others i hi).trans (h.others i hi)⟩
  rw [k.same, h.same]

theorem Events.beside (h : Events s t) (n : Nat) : Beside s t n :=
  ⟨by rw [h.1], fun a ha _ => h.2 a ha, fun k _ => h.core k⟩

theorem beside_setCore (s : State) (n : Nat) (c : CoreSt) : Beside s (s.setCore n c) n :=
  ⟨rfl, fun _ _ _ => rfl, fun _ hk => core_setCore_ne s c hk⟩

theorem beside_wr (s : State) (f : Field) (v n : Nat) (h : f.addr n 0 0 = coreStat n) : Beside s (s.wr f v n) n :=
  ⟨rfl, fun _ _ hb => reg_setReg_ne s _ (h ▸ hb), fun _ _ => rfl⟩

theorem alert_ne_stat (n : Nat) : coreStat n ≠ alertAddr := by
  unfold coreStat alertAddr Field.addr
  simp only [CORE_STAT_STATE, SVC_ALERT_P0_PEND]
  omega

/-! ### Reads of lane memories, and the fetch -/

/-- What a read leaves: counters, events and the Groomer's queue alone (R521, R522, R529). -/
structure Noted (s t : State) : Prop where
  same : t = { s with regs := t.regs, cnt := t.cnt, tblRaw := t.tblRaw, evt := t.evt, grm := t.grm }
  regs : ∀ a, a ≠ alertAddr → t.reg a = s.reg a

theorem Noted.refl (s : State) : Noted s s := ⟨rfl, fun _ _ => rfl⟩

theorem Noted.trans (h : Noted s t) (k : Noted t u) : Noted s u := by
  refine ⟨?_, fun a ha => (k.regs a ha).trans (h.regs a ha)⟩
  rw [k.same, h.same]

theorem Events.noted (h : Events s t) : Noted s t := ⟨by rw [h.1], h.2⟩

theorem Noted.core (h : Noted s t) (k : Nat) : t.core k = s.core k := by rw [h.same]; rfl

theorem Noted.beside (h : Noted s t) (n : Nat) : Beside s t n :=
  ⟨by rw [h.same], fun a ha _ => h.regs a ha, fun k _ => h.core k⟩

theorem grm_noted (s : State) (g : GrmSt) : Noted s { s with grm := g } := ⟨rfl, fun _ _ => rfl⟩

theorem demand_noted (s : State) (a : Nat) (b : Bool) (i : Nat) : Noted s (s.demand a b i) := by
  unfold State.demand
  repeat' split
  · exact Noted.refl s
  · exact (count_events _ _ _ _).noted
  · exact ⟨rfl, fun _ _ => rfl⟩

theorem countUncorr_noted (s : State) (i k : Nat) : Noted s (s.countUncorr i k) := by
  unfold State.countUncorr
  dsimp only
  repeat' split
  · exact Noted.refl s
  · exact (addCnt_events _ _ _ _).noted
  · exact Noted.trans (grm_noted s _) ((addCnt_events _ _ _ _).trans (occurRec_events _ _ _ _)).noted

theorem noteRead_noted (s : State) (a i : Nat) (x : Stored) (le : Nat) : Noted s (s.noteRead a i x le) := by
  unfold State.noteRead
  dsimp only
  split
  · exact (count_events _ _ _ _).noted.trans (countUncorr_noted _ _ _)
  · exact ((count_events _ _ _ _).noted.trans (countUncorr_noted _ _ _)).trans (demand_noted _ _ _ _)

theorem memRead_noted (s : State) (a le : Nat) : Noted s (s.memRead a le).2 := noteRead_noted _ _ _ _ _

theorem fetchWord_noted (s : State) (p : Place) : Noted s (s.fetchWord p).2 := by
  unfold State.fetchWord
  split
  · exact Noted.refl s
  · exact memRead_noted s _ _
  · exact Noted.refl s

/-- Addresses of slots Z and H end below 2^22. -/
theorem fetchPlace_lt {a : Nat} {p : Place} (h : s.fetchPlace n a = some p) : a < 0o20000000 := by
  unfold State.fetchPlace at h
  split at h
  · assumption
  · cases h

theorem fetchImm_noted {a : Nat} {iw jw : Word} {i : Instr} (h : s.fetchImm n a iw = .instr u i jw) : Noted s u ∧ jw = iw := by
  unfold State.fetchImm at h
  split at h
  · cases h
  · next p _ =>
    split at h
    · cases h
    · dsimp only at h
      split at h
      · cases h
      · split at h
        · cases h
        · cases h; exact ⟨fetchWord_noted s p, rfl⟩

/-- The fetch that finds an instruction: what it leaves, and where the PC is. -/
theorem fetch_noted {i : Instr} {iw : Word} (h : s.fetch n = .instr u i iw) : Noted s u ∧ (s.core n).pc < 0o20000000 := by
  unfold State.fetch at h
  dsimp only at h
  split at h
  · cases h
  · next p hp =>
    refine ⟨?_, fetchPlace_lt hp⟩
    split at h
    · cases h
    · split at h
      · cases h
      · split at h
        · cases h
        · split at h
          · exact (fetchWord_noted s p).trans (fetchImm_noted h).1
          · cases h; exact fetchWord_noted s p

theorem fetch_illegal_noted (h : s.fetch n = .illegal u) : Noted s u := by
  unfold State.fetch at h
  dsimp only at h
  split at h
  · cases h
  · next p hp =>
    split at h
    · cases h
    · split at h
      · cases h
      · split at h
        · cases h; exact fetchWord_noted s p
        · split at h
          · refine (fetchWord_noted s p).trans ?_
            unfold State.fetchImm at h
            split at h
            · cases h
            · next q _ =>
              split at h
              · cases h
              · dsimp only at h
                split at h
                · cases h
                · split at h
                  · cases h; exact fetchWord_noted _ q
                  · cases h
          · cases h

/-! ### The end of an instruction -/

/-- The core with the sampling fields of another. -/
def CoreSt.sampled (c t : CoreSt) : CoreSt :=
  { c with smp := t.smp, smpHeld := t.smpHeld, smpHead := t.smpHead, smpNo := t.smpNo, smpCnt := t.smpCnt }

/-- What a sampling record leaves (R563–R566). -/
structure Sampled (s t : State) (n : Nat) : Prop extends Beside s t n where
  core : t.core n = (s.core n).sampled (t.core n)
  stat : t.reg (coreStat n) = s.reg (coreStat n)

theorem Sampled.refl (s : State) (n : Nat) : Sampled s s n := ⟨Beside.refl s n, rfl, rfl⟩

theorem Sampled.trans (h : Sampled s t n) (k : Sampled t u n) : Sampled s u n := by
  refine ⟨h.toBeside.trans k.toBeside, ?_, k.stat.trans h.stat⟩
  rw [k.core, h.core]; rfl

theorem Events.sampled (h : Events s t) (n : Nat) : Sampled s t n :=
  ⟨h.beside n, by rw [h.core n]; rfl, h.2 _ (alert_ne_stat n)⟩

theorem sampled_setCore (s : State) (n : Nat) (c : CoreSt) (h : c = (s.core n).sampled c) : Sampled s (s.setCore n c) n :=
  ⟨beside_setCore s n c, by rw [core_setCore]; exact h, rfl⟩

theorem sampleRec_sampled (s : State) (n kind pc : Nat) (iw : Word) (ea w5 : Nat) (w6 : PWord) :
    Sampled s (s.sampleRec n kind pc iw ea w5 w6) n := by
  unfold State.sampleRec
  dsimp only
  repeat' split
  · exact sampled_setCore _ _ _ rfl
  · exact (sampled_setCore _ _ _ rfl).trans ((count_events _ _ _ _).sampled n)
  · exact (sampled_setCore _ _ _ rfl).trans ((count_events _ _ _ _).sampled n)

theorem sampleInstr_sampled (s : State) (n pc : Nat) (iw : Word) (ea : Nat) : Sampled s (s.sampleInstr n pc iw ea) n := by
  unfold State.sampleInstr
  dsimp only
  repeat' split
  · exact (sampled_setCore s n _ rfl).trans (sampleRec_sampled _ _ _ _ _ _ _ _)
  · exact sampled_setCore s n _ rfl
  · exact Sampled.refl s n

theorem reg_wr_congr {f : Field} {v i a b x : Nat} (h : s.reg (f.addr i a b) = t.reg (f.addr i a b)) (hx : s.reg x = t.reg x) :
    (s.wr f v i a b).reg x = (t.wr f v i a b).reg x := by
  unfold State.wr
  by_cases e : x = f.addr i a b
  · subst e; rw [reg_setReg, reg_setReg, h]
  · rw [reg_setReg_ne _ _ e, reg_setReg_ne _ _ e, hx]

/-- The end of an instruction whose target is an address of 30 bits (R119, R161). -/
theorem retire_went (s : State) (n pc : Nat) (iw : Word) (next ea : Nat) (h : next < 2 ^ 30) :
    Went s (s.retire n pc iw next ea) n next (s.core n) := by
  have hs := sampleInstr_sampled s n pc iw ea
  unfold State.retire
  dsimp only
  rw [if_neg (by omega), Nat.mod_eq_of_lt h]
  generalize s.sampleInstr n pc iw ea = t at hs
  have hb := hs.toBeside.trans (beside_setCore t n { t.core n with pc := next, wait := none, waitDesc := [], haltReq := false })
  have hh : (t.core n).haltReq = (s.core n).haltReq := by rw [hs.core]; rfl
  split
  · next e =>
    refine ⟨hb.trans (beside_wr _ CORE_STAT_STATE cHalted n rfl), ?_, ?_⟩
    · rw [core_wr, core_setCore, hs.core]; rfl
    · rw [hh] at e; rw [if_pos e]
      exact reg_wr_congr hs.stat hs.stat
  · next e =>
    refine ⟨hb, ?_, ?_⟩
    · rw [core_setCore, hs.core]; rfl
    · rw [hh] at e; rw [if_neg e]; exact hs.stat

/-- An exception leaves the core FAULTED at its instruction (R119, R162). -/
theorem raiseExc_faulted (s : State) (n code : Nat) : Faulted s (s.raiseExc n (s.core n).pc code) n code := by
  unfold State.raiseExc
  dsimp only
  refine ⟨?_, ?_, ?_, ?_⟩
  · exact (((beside_setCore s n _).trans (beside_wr _ CORE_STAT_FAULT code n rfl)).trans
      (beside_wr _ CORE_STAT_STATE cFaulted n rfl)).trans ((occur_events _ _ _ _).beside n)
  · simp [core_setCore]
  · rw [(occur_events _ _ _ _).2 _ (alert_ne_stat n)]
    exact reg_wr_congr (reg_wr_congr rfl rfl) (reg_wr_congr rfl rfl)
  · exact Code.raised_of_now (occur_raised _ _ _ _) rfl

/-! ### One instruction -/

/-- The next instruction of a core runs: what `hergil` answers. -/
theorem hergil_runs {i : Instr} {iw : Word} {body : Nat → State → Run} (hb : s.begins n = true)
    (hf : s.fetch n = .instr u i iw) : s.hergil n i body = u.settle n i iw (body ((s.core n).pc + instrLen iw) u) := by
  have hu := (fetch_noted hf).1.core n
  unfold State.hergil
  rw [hb, hf]
  simp

theorem Went.congr {c : CoreSt} {next : Nat} (h : Went t u n next c) (hb : Beside s t n) (hs : t.reg (coreStat n) = s.reg (coreStat n)) :
    Went s u n next c := by
  refine ⟨hb.trans h.toBeside, h.core, h.stat.trans ?_⟩
  split
  · exact reg_wr_congr hs hs
  · exact hs

/-- An instruction that only changes its core to `c`, and may count, completes (R127). -/
theorem hergil_done {i : Instr} {iw : Word} {body : Nat → State → Run} {v : State} {c : CoreSt} {next ea : Nat}
    (hb : s.begins n = true) (hf : s.fetch n = .instr u i iw)
    (hd : body ((s.core n).pc + instrLen iw) u = .done v next ea) (hv : Beside u v n) (hc : v.core n = c)
    (hs : v.reg (coreStat n) = u.reg (coreStat n)) (hn : next < 2 ^ 30) :
    Went s (s.hergil n i body) n next c := by
  have hu := (fetch_noted hf).1
  rw [hergil_runs hb hf, hd]
  subst hc
  exact (retire_went v n _ iw next ea hn).congr ((hu.beside n).trans hv) (hs.trans (hu.regs _ (alert_ne_stat n)))

/-- An instruction that raises an exception (R162). -/
theorem hergil_trap {i : Instr} {iw : Word} {body : Nat → State → Run} {v : State} {code : Nat}
    (hb : s.begins n = true) (hf : s.fetch n = .instr u i iw)
    (hd : body ((s.core n).pc + instrLen iw) u = .trap v code) (hv : Noted u v) :
    Faulted s (s.hergil n i body) n code := by
  have hu := (fetch_noted hf).1.trans hv
  rw [hergil_runs hb hf, hd]
  have h := raiseExc_faulted v n code
  rw [hu.core n] at h
  have e := hu.regs _ (alert_ne_stat n)
  show Faulted s (v.raiseExc n (u.core n).pc code) n code
  rw [(fetch_noted hf).1.core n]
  have hr := h.raised
  rw [hu.core n] at hr
  refine ⟨(hu.beside n).trans h.toBeside, ?_, h.stat.trans ?_, Code.raised_of_now hr ?_⟩
  · rw [h.core, hu.core n]
  · exact reg_wr_congr (reg_wr_congr e e) (reg_wr_congr e e)
  · rw [hu.same]

theorem instrLen_le (iw : Word) : instrLen iw ≤ 2 := by unfold instrLen; split <;> omega

theorem next_lt {i : Instr} {iw : Word} (hf : s.fetch n = .instr u i iw) : (s.core n).pc + instrLen iw < 2 ^ 30 := by
  have := (fetch_noted hf).2
  have := instrLen_le iw
  omega

end Sys2Proof.Machine
end

