-- ==== Sys2Proof/Laws/HergilAlu.lean ====
section
/-! SUPPORT. The arithmetic of the Hergil data path in plain terms, and what one instruction of a core answers when its
body changes the core alone. -/

namespace Sys2Proof.Machine

open Ev Reg

/-- A three-operand instruction: the result in its register, its flags, the next PC (R132, R133). -/
theorem alu_went {s : State} {n : Nat} {i : Instr} {iw : Word} {d : Nat} {x y : CoreSt → PWord} {f : AluOp} {usesC : Bool}
    (h : s.runs n i iw) :
    let c := s.core n
    let z := f (x c).v (y c).v c.cf
    let p := (x c).p || (y c).p || (usesC && c.fp)
    Went s (s.hergil n i (aluBody n d x y f usesC)) n (c.pc + instrLen iw) ((c.setReg d ⟨z.1, p⟩).setFlags z.2 p) := by
  obtain ⟨hb, u, hf⟩ := h
  have hu := (fetch_noted hf).1.core n
  refine hergil_done hb hf rfl (beside_setCore _ _ _) ?_ rfl (next_lt hf)
  rw [core_setCore, hu]

/-- A left shift as arithmetic. -/
theorem shl_word (x : Word) (k : Nat) : x <<< k = word (x.toNat * 2 ^ k) := by
  apply BitVec.eq_of_toNat_eq; simp [word, Nat.shiftLeft_eq]

/-- A logical right shift as arithmetic. -/
theorem shr_word (x : Word) (k : Nat) : x >>> k = word (x.toNat / 2 ^ k) := by
  apply BitVec.eq_of_toNat_eq; simp [word, Nat.shiftRight_eq_div_pow]
  exact (Nat.mod_eq_of_lt (lt_of_le_of_lt (Nat.div_le_self _ _) x.isLt)).symm

/-- The carry of a left shift. -/
theorem shl_carry (x : Word) (k : Nat) : (decide (0 < k) && decide (k ≤ 36) && x.getLsbD (36 - k)) = (x.toNat * 2 ^ k).testBit 36 := by
  rw [Nat.testBit_mul_two_pow]
  by_cases h : k ≤ 36
  · by_cases h0 : 0 < k
    · simp [h, h0, BitVec.getLsbD]
    · have : k = 0 := by omega
      subst this; simp; exact Nat.testBit_lt_two_pow x.isLt
  · have : ¬ 36 ≥ k := by omega
    simp [this]

/-- A shift amount is the low six bits. -/
theorem amount_eq (t : Word) : amount t = t.toNat % 64 := by unfold amount Word.bits bitsOf; simp

/-- An arithmetic right shift as a floored division. -/
theorem sar_word (x : Word) (k : Nat) : x.sshiftRight k = BitVec.ofInt 36 (x.toInt / 2 ^ k) := by
  apply BitVec.eq_of_toInt_eq
  rw [BitVec.toInt_sshiftRight, Int.shiftRight_eq_div_pow, BitVec.toInt_ofInt]
  have h1 := BitVec.two_mul_toInt_lt (x := x)
  have h2 := BitVec.le_two_mul_toInt (x := x)
  have hp : (0 : Int) < 2 ^ k := by positivity
  push_cast
  rw [Int.bmod_eq_of_le]
  · have : -(2:Int)^35 ≤ x.toInt / 2 ^ k := by
      apply (Int.le_ediv_iff_mul_le hp).2
      have : (1:Int) ≤ 2 ^ k := by exact_mod_cast Nat.one_le_two_pow
      nlinarith
    omega
  · have : x.toInt / 2 ^ k ≤ x.toInt ∨ x.toInt / 2^k < 0 := by
      rcases lt_or_ge x.toInt 0 with h | h
      · right; exact Int.ediv_neg_of_neg_of_pos h hp
      · left; exact Int.ediv_le_self _ h
    omega

/-- The carry of an arithmetic right shift. -/
theorem sar_carry (x : Word) (k : Nat) : (decide (0 < k) && (if k ≤ 36 then x.getLsbD (k - 1) else x.msb)) =
    (decide (k ≠ 0) && x.getLsbD (min (k - 1) 35)) := by
  by_cases h : k ≤ 36
  · rw [if_pos h, Nat.min_eq_left (by omega)]; simp [Nat.pos_iff_ne_zero]
  · rw [if_neg h, Nat.min_eq_right (by omega), BitVec.msb_eq_getLsbD_last]; simp [Nat.pos_iff_ne_zero]

/-- A rotate as two shifts. -/
theorem rol_word (x : Word) (k : Nat) (h : k < 36) : x.rotateLeft k = word (x.toNat * 2 ^ k) ||| word (x.toNat / 2 ^ (36 - k)) := by
  rw [BitVec.rotateLeft_def, Nat.mod_eq_of_lt h, shl_word, shr_word]

/-- A mask of ones is a remainder. -/
theorem and_mask (x : Word) (w : Nat) (hw : w ≤ 36) : x &&& word (2 ^ w - 1) = word (x.toNat % 2 ^ w) := by
  apply BitVec.eq_of_toNat_eq
  have h1 : 2 ^ w ≤ 2 ^ 36 := Nat.pow_le_pow_right (by omega) hw
  have h2 := Nat.one_le_two_pow (n := w)
  unfold word
  rw [BitVec.toNat_and, BitVec.toNat_ofNat, BitVec.toNat_ofNat, Nat.mod_eq_of_lt (by omega : 2 ^ w - 1 < 2^36), Nat.and_two_pow_sub_one_eq_mod]
  rw [Nat.mod_eq_of_lt (b := 2^36)]
  have := Nat.mod_lt x.toNat (show 0 < 2^w by omega)
  omega

/-- A word is its signed value. -/
theorem ofInt_toInt_word (x : Word) : BitVec.ofInt 36 x.toInt = x := BitVec.ofInt_toInt

/-- A word is its unsigned value. -/
theorem word_toNat (x : Word) : word x.toNat = x := by unfold word; simp

/-- Counting zeros above is the logarithm. -/
theorem clz_eq (x : Word) : word (zerosAbove x 36) = (if x = 0 then 36 else word (35 - Nat.log2 x.toNat)) := by
  split
  · next h => subst h; decide
  · next h =>
    have hx : x.toNat ≠ 0 := fun e => h (BitVec.eq_of_toNat_eq (by simpa using e))
    congr 1
    have hb : x.toNat.log2 < 36 := (Nat.log2_lt hx).2 x.isLt
    have key : ∀ k, x.toNat.log2 < k → zerosAbove x k = k - 1 - x.toNat.log2 := by
      intro k
      induction k with
      | zero => intro h; omega
      | succ k ih =>
        intro hk
        unfold zerosAbove
        by_cases e : x.toNat.log2 = k
        · have : x.getLsbD k = true := by
            rw [BitVec.getLsbD, ← e]; exact Nat.testBit_log2 hx
          simp [this, e]
        · have : x.getLsbD k = false := by
            rw [BitVec.getLsbD]; apply Nat.testBit_lt_two_pow; exact (Nat.log2_lt hx).1 (by omega)
          simp [this, ih (by omega)]; omega
    exact key 36 hb

/-- Counting ones. -/
theorem pop_eq (x : Word) : onesBelow x 36 = ((List.range 36).filter fun i => x.getLsbD i).length := by
  have : ∀ k, onesBelow x k = ((List.range k).filter fun i => x.getLsbD i).length := by
    intro k
    induction k with
    | zero => rfl
    | succ k ih => rw [onesBelow, ih, List.range_succ, List.filter_append, List.length_append]; cases h : x.getLsbD k <;> simp [h, b2n]
  exact this 36

/-- A relative target is an address of 30 bits (R146). -/
theorem relTarget_lt {k : Nat} (pc : Nat) (d : BitVec k) : relTarget pc d < 2 ^ 30 := by
  unfold relTarget
  have := Int.emod_lt_of_pos ((pc:Int) + d.toInt) (show (0:Int) < 2^30 by norm_num)
  have := Int.emod_nonneg ((pc:Int) + d.toInt) (show (2:Int)^30 ≠ 0 by norm_num)
  omega

/-- An instruction whose body changes its core alone. -/
theorem done_core {s : State} {n : Nat} {i : Instr} {iw : Word} {body : Nat → State → Run} {f : CoreSt → CoreSt} {next ea : Nat} (h : s.runs n i iw)
   (hd : ∀ u, u.core n = s.core n → u.now = s.now → u.mtx = s.mtx → body ((s.core n).pc + instrLen iw) u = .done (u.setCore n (f (u.core n))) next ea) (hn : next < 2^30) :
   Went s (s.hergil n i body) n next (f (s.core n)) := by
  obtain ⟨hb, u, hf⟩ := h
  have hu := (fetch_noted hf).1
  refine hergil_done hb hf (hd u (hu.core n) (by rw [hu.same]) (by rw [hu.same])) (beside_setCore _ _ _) ?_ rfl hn
  rw [core_setCore, hu.core n]

/-- An instruction whose body changes nothing. -/
theorem done_same {s : State} {n : Nat} {i : Instr} {iw : Word} {body : Nat → State → Run} {next ea : Nat} (h : s.runs n i iw)
   (hd : ∀ u, u.core n = s.core n → u.now = s.now → u.mtx = s.mtx → body ((s.core n).pc + instrLen iw) u = .done u next ea) (hn : next < 2^30) :
   Went s (s.hergil n i body) n next (s.core n) := by
  obtain ⟨hb, u, hf⟩ := h
  have hu := (fetch_noted hf).1
  exact hergil_done hb hf (hd u (hu.core n) (by rw [hu.same]) (by rw [hu.same])) (Beside.refl _ _) (hu.core n) rfl hn

/-- The next instruction lies in the address space. -/
theorem runs_lt {s : State} {n : Nat} {i : Instr} {iw : Word} (h : s.runs n i iw) : (s.core n).pc + instrLen iw < 2^30 := by
  obtain ⟨hb, u, hf⟩ := h; exact next_lt hf

/-- An instruction whose body ends in an exception with nothing changed (R162). -/
theorem trap_core {s : State} {n : Nat} {i : Instr} {iw : Word} {body : Nat → State → Run} {code : Nat} (h : s.runs n i iw)
   (hd : ∀ u, u.core n = s.core n → u.now = s.now → u.mtx = s.mtx → body ((s.core n).pc + instrLen iw) u = .trap u code) :
   Faulted s (s.hergil n i body) n code := by
  obtain ⟨hb, u, hf⟩ := h
  have hu := (fetch_noted hf).1
  exact hergil_trap hb hf (hd u (hu.core n) (by rw [hu.same]) (by rw [hu.same])) (Noted.refl _)

end Sys2Proof.Machine
end

