-- ==== Sys2Proof/Tests/Slice0.lean ====
section
/-! SUPPORT. Tests of the model: ill-formed commands are refused, words written out by hand decode as the tables say, and
for every statement a concrete state and operands that meet its hypotheses. -/

namespace Sys2Proof.Tests

set_option Elab.async false

open Sys2Proof Machine Ev Reg

/-! ### Small states -/

/-- The supervisor and management domain is ON. -/
def up0 : State := State.reset.wr PWR_DOM_STATE 2 0 78

/-- The first word of an instruction's encoding. -/
def wordOf (i : Instr) : Word := ((encodeHergil i).getD []).headD 0

/-- Core `n` as `c`, RUNNING on `ws`, which lie at the start of its local RAM. -/
def coreOn (n : Nat) (c : CoreSt) (ws : List Word) : State :=
  let s := (((up0.wr PWR_DOM_STATE 2 0 (coreDomain n)).wr CORE_STAT_STATE 4 n).wr CORE_CTL_REMAP 1 n)
  { s with mem := ws.zipIdx.map fun e => (localBase n + e.2, cleanStored e.1), cores := [(n, c)] }

/-- Core 0 as `c`, about to run `i`. -/
def runner (i : Instr) (c : CoreSt := {}) : State := coreOn 0 c ((encodeHergil i).getD [])

/-- Whether core `n` is about to run `i` with word `iw`. -/
def runsB (s : State) (n : Nat) (i : Instr) (iw : Word) : Bool :=
  s.begins n && match s.fetch n with
    | .instr _ j w => j = i && w = iw
    | _ => false

theorem runs_of {s : State} {n : Nat} {i : Instr} {iw : Word} (h : runsB s n i iw = true) : s.runs n i iw := by
  unfold runsB at h
  rw [Bool.and_eq_true] at h
  refine ⟨h.1, ?_⟩
  have h2 := h.2
  split at h2
  · rename_i u j w hf
    simp only [Bool.and_eq_true, decide_eq_true_eq] at h2
    exact ⟨u, by rw [hf, h2.1, h2.2]⟩
  · cases h2

/-- Core 0 as `c`, set up for `i`, is about to run it. -/
def Ready (i : Instr) (c : CoreSt := {}) : Prop := (runner i c).runs 0 i (wordOf i)

theorem runs_all {f : Instr → State} {l : List Instr} (h : (l.all fun i => runsB (f i) 0 i (wordOf i)) = true) :
    ∀ i ∈ l, (f i).runs 0 i (wordOf i) := fun i hi => runs_of (List.all_eq_true.mp h i hi)

theorem ready_all {c : CoreSt} {l : List Instr} (h : (l.all fun i => runsB (runner i c) 0 i (wordOf i)) = true) :
    ∀ i ∈ l, Ready i c := runs_all h

theorem ready_of {c : CoreSt} {i : Instr} (h : runsB (runner i c) 0 i (wordOf i) = true) : Ready i c := runs_of h

/-- A packet of `k` octets held by core 0, in cell 0. -/
def pkt0 (k : Nat) : Packet := ⟨0, k, 0, 1, List.replicate k 0, [0]⟩

/-- A state with packet 0. -/
def withPacket (s : State) (p : Packet) : State := { s with traf := { s.traf with packets := [(0, some p)] } }

/-! ### Ill-formed commands, each refused by the name of what is wrong -/

theorem test_wf_core : (Instr.nop 77).malformed = some .core ∧ (Instr.nop 76).malformed = none := by decide

theorem test_wf_master : (Instr.registerWrite 6 0o404000000 0).malformed = some .master ∧
    (Instr.registerWrite 1016 0o404000000 0).malformed = none := by decide

theorem test_wf_address : (Instr.registerWrite 0 0o1000000000 0).malformed = some .address ∧
    (Instr.registerWrite 0 0o377777777 0).malformed = some .address := by decide

theorem test_wf_packet : (Instr.svcNop ⟨false, false, false, false, 0, 0, 0, 1, [0], 0, []⟩).malformed = some .packet ∧
    (Instr.svcNop ⟨false, true, false, false, 0, 0, 0, 0, [], 0, [1]⟩).malformed = some .packet ∧
    (Instr.svcNop ⟨false, false, false, false, 0, 0, 0, 0, [], 0, []⟩).malformed = none := by decide

theorem test_wf_lanes : (Instr.ld 0 1 ⟨2, 0, 0, 0⟩).malformed = some .lanes ∧ (Instr.aadd 0 1 ⟨2, 0, 7, 0⟩).malformed = some .lanes ∧
    (Instr.ld 0 1 ⟨2, 0, 1, 0⟩).malformed = none := by decide

theorem test_wf_counter : (Instr.cntCountWordRead 0 1048576).malformed = some .counter ∧
    (Instr.cntCountWordRead 0 1048575).malformed = none := by decide

theorem test_wf_memory : (Instr.memZeroDone 97).malformed = some .memory ∧ (Instr.memZeroDone 96).malformed = none := by decide

theorem test_wf_port : (Instr.matrixGrant 333).malformed = some .port ∧ (Instr.matrixGrant 88).malformed = none := by decide

theorem test_wf_key : (Instr.keySwitch true 16384).malformed = some .key ∧ (Instr.keySwitch false 4).malformed = some .key ∧
    (Instr.keySwitch true 16383).malformed = none := by decide

theorem test_wf_octets : (Instr.clientFrameReceived 0 (List.replicate 16384 0) true true).malformed = some .octets ∧
    (Instr.clientFrameReceived 0 [] true true).malformed = none := by decide +kernel

/-! ### Words written out from the encoding tables, in octal: two digits for each 6-bit field (R123–R133, R160) -/

/-- Whether core 5 reads the instruction from a word and the word after it. -/
def reads (w imm : Nat) (i : Instr) : Bool := decide (decodeHergil 5 (word w) (word imm) = some i)

/-- add g1, g2, g3; shli g1, g2, 35; bfx g1, g2, imm 4, width 8; cmp g2, g3; mov g1, imm. -/
theorem test_decode_alu : (reads 0o010102030000 0 (.add 5 1 2 (.reg 3)) && reads 0o010102001443 0 (.shli 5 1 2 35) &&
    reads 0o110102003310 4 (.bfx 5 1 2 (.imm 4) 7) && reads 0o010002033000 0 (.cmp 5 2 (.reg 3)) &&
    reads 0o110102000200 9 (.adc 5 1 2 (.imm 9))) = true := by decide

/-- addi g1, a0, −1; lui g1, 1; li a7, immediate. -/
theorem test_decode_immediate : (reads 0o020120777777 0 (.addi 5 1 16 (2 ^ 18 - 1)) && reads 0o070100000001 0 (.lui 5 1 1) &&
    reads 0o102700000000 0o123456701234 (.li 5 23 0o123456701234)) = true := by decide

/-- ld g1, all lanes, [g3 + 2]; stp a2, lane 3 only, [g4 − 1], base after + 2; aswp g5 at [g6]. -/
theorem test_decode_memory : (reads 0o200103740002 0 (.ld 5 1 ⟨3, 0, 15, 2⟩) && reads 0o232204417777 0 (.stp 5 9 ⟨4, 1, 8, 4095⟩) &&
    reads 0o250506740000 0 (.aswp 5 5 ⟨6, 0, 15, 0⟩)) = true := by decide

/-- br ne, −2; br rneg g7, 1; jmp −1; call g15, 8; jr g0, g1; bdec g5, −2. -/
theorem test_decode_branch : (reads 0o300200777776 0 (.br 5 .ne (2 ^ 18 - 2)) && reads 0o302207000001 0 (.br 5 (.rneg 7) 1) &&
    reads 0o310077777777 0 (.jmp 5 (2 ^ 24 - 1)) && reads 0o321700000010 0 (.call 5 15 8) && reads 0o330001000000 0 (.jr 5 0 1) &&
    reads 0o340005777776 0 (.bdec 5 5 (2 ^ 18 - 2))) = true := by decide

/-- waitp g8; rdlp a2; lpadd g2, g4, g6; atcan g1, g2; issue a0, tag 63; issue a0, tag in g3; waitt g2, tag 1; cpop a4. -/
theorem test_decode_position_engine : (reads 0o410010000000 0 (.waitp 5 4) && reads 0o422200000000 0 (.rdlp 5 9) &&
    reads 0o430204060000 0 (.lpadd 5 1 2 6) && reads 0o400102000100 0 (.atcan 5 1 2) && reads 0o440020000077 0 (.issue 5 16 (.field 63) false) &&
    reads 0o440020030100 0 (.issue 5 16 (.reg 3) false) && reads 0o450200000001 0 (.waitt 5 1 (.field 1) false) &&
    reads 0o452400000300 0 (.cpop 5 10 false)) = true := by decide

/-- nop; halt; rdf g1; wrf g2; pclr g1, g2; and words that R126 makes illegal. -/
theorem test_decode_system : (reads 0o500000000000 0 (.nop 5) && reads 0o500000000100 0 (.halt 5) && reads 0o500100000400 0 (.rdf 5 1) &&
    reads 0o500002000500 0 (.wrf 5 2) && reads 0o500102000700 0 (.pclr 5 1 2) && decodeHergil 5 0 0 = none &&
    decodeHergil 5 (word 0o013002030000) 0 = none && decodeHergil 5 (word 0o010102033001) 0 = none &&
    decodeHergil 5 (word 0o422600000000) 0 = none) = true := by decide

/-! ### Worked examples of the standards that the spec names -/

/-- SHA-256 and SHA-384 of "abc" (FIPS 180-4 examples). -/
theorem test_sha2_abc :
    octetsToNat (sha256 [97, 98, 99]) = 0xba7816bf8f01cfea414140de5dae2223b00361a396177a9cb410ff61f20015ad ∧
      octetsToNat (sha384 [97, 98, 99]) = 0xcb00753f45a35e8bb5a03d699ac65007272c32ab0eded1631a8b605a43ff5bed8086072ba1e7cc2358baeca134c825a7 := by
  decide +kernel

/-- AES-256 of FIPS 197 appendix C.3. -/
theorem test_aes256 :
    octetsToNat (aesEnc (List.range 32) (natToOctets 16 0x00112233445566778899aabbccddeeff)) = 0x8ea2b7ca516745bfeafc49904b496089 := by
  decide +kernel

/-- The example of R10. -/
theorem test_lp_carry : lpTicks (lpA (lpTicks 17 (8191 * 2 ^ 23 + 400000 * 16) + 250000)) (lpB (lpTicks 17 (8191 * 2 ^ 23 + 400000 * 16) + 250000)) =
    lpTicks 18 (150000 * 16) := by decide +kernel

/-! ### Hergil cores -/

theorem witness_AluOperationsComplete : ∀ i ∈ ([.add 0 1 2 (.reg 3), .sub 0 1 2 (.imm 5), .adc 0 1 2 (.reg 3), .sbc 0 1 2 (.reg 3),
    .and 0 1 2 (.reg 3), .or 0 1 2 (.reg 3), .xor 0 1 2 (.reg 3), .andn 0 0 2 (.reg 3), .shl 0 1 2 (.reg 3), .shr 0 1 2 (.reg 3),
    .sar 0 1 2 (.reg 3), .rol 0 1 2 (.imm 36), .mul 0 1 2 (.reg 3), .mulhu 0 1 2 (.reg 3), .mulhs 0 1 2 (.reg 3),
    .min 0 1 2 (.reg 3), .minu 0 1 2 (.reg 3), .max 0 1 2 (.reg 3), .maxu 0 23 2 (.reg 23), .bfx 0 1 2 (.reg 3) 35] : List Instr),
    Ready i := ready_all (by decide +kernel)

theorem witness_ImmediateAndUnaryComplete : ∀ i ∈ ([.shli 0 1 2 35, .shri 0 1 2 0, .sari 0 1 2 63, .roli 0 1 2 36, .addi 0 1 2 0x3FFFF,
    .andi 0 1 2 7, .ori 0 1 2 7, .xori 0 1 2 7, .mov 0 1 2 true, .pop 0 1 2 false, .clz 0 1 2 false, .lui 0 1 0x3FFFF,
    .li 0 1 5] : List Instr), Ready i := ready_all (by decide +kernel)

theorem witness_CompareWritesFlagsOnly : ∀ i ∈ ([.cmp 0 2 (.reg 3), .cmpi 0 2 0x3FFFF, .tst 0 2 (.imm 1)] : List Instr), Ready i :=
  ready_all (by decide +kernel)

/-- A core whose g2 holds the largest address, whose pair g4, g5 holds the LP 0:0:1 and whose g3 is one. -/
def lpCore : CoreSt := { regs := [(2, ⟨word (2 ^ 30 - 1), false⟩), (3, ⟨1, false⟩), (5, ⟨16, false⟩)] }

/-- A core whose pair g4, g5 holds a tick of 500,000, whose g2 and g6 are poisoned, and whose flags are. -/
def badCore : CoreSt :=
  { regs := [(2, ⟨1, true⟩), (3, ⟨word (2 ^ 30 - 2), false⟩), (5, ⟨word (500000 * 16), false⟩), (6, ⟨0, true⟩)], fp := true }

theorem witness_BranchesComplete :
    (∀ i ∈ ([.br 0 .eq 5, .br 0 (.rz 2) 5, .jmp 0 0, .call 0 1 0, .jr 0 0 2, .bdec 0 3 1, .bdec 0 2 1] : List Instr), Ready i lpCore) ∧
    Ready (.br 0 .al 0) badCore ∧ lpCore.fp = false ∧ (lpCore.reg 2).p = false ∧ (lpCore.reg 2).v.toNat < 2 ^ 30 ∧
    (lpCore.reg 3).v - 1 = 0 ∧ (lpCore.reg 2).v - 1 ≠ 0 :=
  ⟨ready_all (by decide +kernel), ready_of (by decide +kernel), by decide +kernel⟩

theorem witness_PositionInstructionsComplete :
    (∀ i ∈ ([.waitp 0 2, .waitp 0 0, .rdlp 0 1, .lpadd 0 1 2 3] : List Instr), Ready i lpCore) ∧
    lpCore.lpPair 2 = (false, some 1) ∧ lpCore.lpPair 0 = (false, some 0) ∧
    (runner (.waitp 0 2) { lpCore with wait := some (.waitp 0 2) }).waiting 0 = some (.waitp 0 2) ∧
    1 ≤ { runner (.waitp 0 2) lpCore with now := 4 }.now / 4 * 4 ∧ 1 + (lpCore.reg 3).v.toNat < 2 ^ 36 * 4096000000 :=
  ⟨ready_all (by decide +kernel), by decide +kernel⟩

/-- A request of core 0 for word 4 of its own RAM. -/
def req (st : ReqStage) (posted : Option (Nat × PWord) := none) (g : Agent := .core) : MtxReq :=
  ⟨0, g, localBase 0 + 4, st, 0, 0, posted, true, none⟩

theorem witness_SystemInstructionsComplete : (∀ i ∈ ([.nop 0, .halt 0, .fence 0, .rdf 0 1, .wrf 0 2, .pchk 0 2, .pclr 0 1 2, .smark 0 2,
    .rdcyc 0 1] : List Instr), Ready i) ∧ (runner (.fence 0)).mtx = [] ∧
    (∀ g ∈ [Agent.core, .timed 0 1 4], ({ runner (.fence 0) with mtx := [req .waiting none g] } : State).runs 0 (.fence 0) (wordOf (.fence 0)) ∧
      g.fenced = true) :=
  ⟨ready_all (by decide +kernel), rfl, fun g hg => by
    simp only [List.mem_cons, List.not_mem_nil, or_false] at hg
    obtain rfl | rfl := hg <;> exact ⟨runs_of (by decide +kernel), rfl⟩⟩

theorem witness_BreakAndIllegalFault : Ready (.brk 0) ∧ (coreOn 0 {} [0]).begins 0 = true ∧
    ∃ u, (coreOn 0 {} [0]).fetch 0 = .illegal u :=
  ⟨ready_of (by decide +kernel), by decide +kernel, _, rfl⟩

/-- A memory operand: the base in `b`, offset mode, all lanes, a displacement. -/
def at_ (b : HReg) (disp : BitVec 12) : MemArgs := ⟨b, 0, 15, disp⟩

theorem witness_OperandExceptions :
    (∀ i ∈ ([.ld 0 1 (at_ 3 2), .st 0 1 (at_ 3 2), .aadd 0 1 (at_ 2 0), .aswp 0 1 (at_ 2 0), .ldp 0 1 (at_ 3 1), .stp 0 1 (at_ 2 1),
      .br 0 .eq 0, .jr 0 1 2, .bdec 0 2 0, .waitp 0 3, .waitp 0 2, .lpadd 0 1 2 3] : List Instr), Ready i badCore) ∧
    (memAddr (at_ 3 2) 1 (badCore.reg 3).v).toNat = 2 ^ 30 ∧ (memAddr (at_ 3 1) 2 (badCore.reg 3).v).toNat = 2 ^ 30 - 1 ∧
    (memAddr (at_ 2 1) 2 (badCore.reg 2).v).toNat = 2 ∧ (badCore.reg 2).p = true ∧ badCore.fp = true ∧
    badCore.lpPair 3 = (true, some 0) ∧ badCore.lpPair 2 = (false, none) :=
  ⟨ready_all (by decide +kernel), by decide +kernel⟩

/-- A core whose g3 is 2 and whose pair g4, g5 holds the LP 0:0:1. -/
def memCore : CoreSt := { regs := [(3, ⟨2, false⟩), (5, ⟨16, false⟩)] }

/-- The address of word `k` of core 0's local RAM. -/
def ram (k : Nat) : Nat := localBase 0 + k

/-- Core 0 can reach its words 4 and 5 now, for a store when `write`. -/
def Served (s : State) (write : Bool) : Prop := ∀ k ∈ [0, 1],
  s.resolve 0 (4 + k) write = .ok (.mem (ram 4 + k)) ∧ s.blocked 0 .core (.mem (ram 4 + k)) = false

theorem witness_LoadsComplete :
    (∀ i ∈ ([.ld 0 1 (at_ 3 2), .ldp 0 1 (at_ 3 2)] : List Instr), Ready i memCore ∧ Served (runner i memCore) false) ∧
    (memAddr (at_ 3 2) 1 (memCore.reg 3).v).toNat = 4 ∧ (memAddr (at_ 3 2) 2 (memCore.reg 3).v).toNat = 4 ∧
    (let s := runner (.ld 0 1 (at_ 3 2)) memCore
     s.begins 0 = true ∧ ∃ u v w, s.fetch 0 = .instr u (.ld 0 1 (at_ 3 2)) (wordOf (.ld 0 1 (at_ 3 2))) ∧
       u.loadWord 0 .core 4 15 = .ok v w) :=
  ⟨fun i hi => ⟨ready_all (by decide +kernel) i hi, by
      revert i; unfold Served; decide +kernel⟩, by decide +kernel, by decide +kernel, by decide +kernel, _, _, _, rfl, rfl⟩

theorem witness_StoresComplete :
    (∀ i ∈ ([.st 0 1 (at_ 3 2), .stp 0 1 (at_ 3 2)] : List Instr), Ready i memCore ∧ Served (runner i memCore) true) ∧
    (let s := runner (.st 0 1 (at_ 3 2)) memCore
     ∃ u v, s.fetch 0 = .instr u (.st 0 1 (at_ 3 2)) (wordOf (.st 0 1 (at_ 3 2))) ∧
       u.storeWord 0 .core 4 15 (memCore.reg 1) = .ok v ()) :=
  ⟨fun i hi => ⟨ready_all (by decide +kernel) i hi, by revert i; unfold Served; decide +kernel⟩, _, _, rfl, rfl⟩

theorem witness_AtomicsComplete :
    ∀ i ∈ ([.aadd 0 3 (at_ 3 2), .aswp 0 3 (at_ 3 2)] : List Instr), Ready i memCore ∧ Served (runner i memCore) true :=
  fun i hi => ⟨ready_all (by decide +kernel) i hi, by revert i; unfold Served; decide +kernel⟩

/-- Core 0 about to run an instruction, with further words from its RAM's second word on. -/
def withWords (i : Instr) (c : CoreSt) (ws : List Word) : State := coreOn 0 c (wordOf i :: ws)

/-- `at` on the pair g4, g5 and the block that g3 names. -/
def atInstr : Instr := .atArm 0 1 2 3

/-- A clean word of a lane memory. -/
def cw (x : Nat) : PWord := ⟨word x, false⟩

/-- A core with armed slots 0 and 1, a store and a signal. -/
def slotCore : CoreSt :=
  { memCore with slots := [(0, ⟨1, word (15 * 2 ^ 30 + 4), 7, [], 0, 0, 0, 0⟩), (1, ⟨2, word (2 * 2 ^ 34), 3, [], 0, 0, 0, 0⟩)], busy := [3] }

/-- What `at` reads of its block: two clean words. -/
def Block (s : State) (u v : State) (w0 w1 : Nat) : Prop :=
  s.begins 0 = true ∧ s.fetch 0 = .instr u atInstr (wordOf atInstr) ∧
    u.loadWords 0 2 2 = .ok v [⟨word w0, false⟩, ⟨word w1, false⟩]

theorem witness_ArmedActionsComplete :
    (memCore.lpPair 2 = (false, some 1) ∧ (memCore.reg 3).p = false ∧
      blkOk (word (15 * 2 ^ 30 + 4)) 7 = true ∧ blkKind (word (15 * 2 ^ 30 + 4)) = 0 ∧
      blkOk (word (2 * 2 ^ 34)) 5 = true ∧ blkKind (word (2 * 2 ^ 34)) = 2 ∧
      blkOk (word (2 ^ 34 + 4)) 5 = true ∧ blkKind (word (2 ^ 34 + 4)) = 1) ∧
    (∃ u v, Block (withWords atInstr memCore [0, word (15 * 2 ^ 30 + 4), 7]) u v (15 * 2 ^ 30 + 4) 7) ∧
    (∃ u v, Block (withWords atInstr slotCore [0, word (2 * 2 ^ 34), 5]) u v (2 * 2 ^ 34) 5 ∧
      (v.core 0).busy.contains (blkTag 5) = false ∧ (∀ e ∈ (v.core 0).slots, e.1 ≠ 2) ∧ ∀ j, j < 2 → ∃ e ∈ (v.core 0).slots, e.1 = j) ∧
    (∃ u v x d, Block (withWords atInstr memCore [0, word (2 ^ 34 + 4), 5, word (2 * 2 ^ 33 + 2 ^ 27)]) u v (2 ^ 34 + 4) 5 ∧
      v.readDesc 0 4 = .ok x d ∧ (x.core 0).busy.contains (blkTag 5) = false ∧ (x.core 0).slots = []) ∧
    Ready (.atcan 0 1 2) slotCore ∧
    ((slotCore.reg 2).p = false ∧ (slotCore.reg 2).v.toNat = 0 ∧ (slotCore.slot 0).isSome = true ∧
      (runner (.atcan 0 1 2) slotCore).dueSlot 0 = none) ∧
    (let s : State := { runner (.atcan 0 1 2) slotCore with now := 8 }
     s.runs 0 (.atcan 0 1 2) (wordOf (.atcan 0 1 2)) ∧ (s.dueSlot 0).map (·.1) = some 0) ∧
    Ready (.atcan 0 1 3) { slotCore with regs := [(3, ⟨15, false⟩)] } :=
  ⟨by decide +kernel, ⟨_, _, by decide +kernel, rfl, rfl⟩, ⟨_, _, ⟨by decide +kernel, rfl, rfl⟩, by decide +kernel⟩,
    ⟨_, _, _, _, ⟨by decide +kernel, rfl, rfl⟩, rfl, by decide +kernel⟩,
    ready_of (by decide +kernel), by decide +kernel, ⟨runs_of (by decide +kernel), by decide +kernel⟩, ready_of (by decide +kernel)⟩

/-- Core 0 as `c` at tick `now`. -/
def coreTick (c : CoreSt) (now : Nat) : State := { coreOn 0 c [] with now := now }

/-- An armed slot with block words and descriptor. -/
def slotOf (w0 w1 : Nat) (d : List PWord := []) : AtSlot := ⟨1, word w0, word w1, d, 0, 0, 0, 0⟩

/-- Core 0 with slot `k` armed as `x`, at tick 8, with requests at the matrix. -/
def armed (k : Nat) (x : AtSlot) (q : List MtxReq := []) : State := { coreTick { slots := [(k, x)] } 8 with mtx := q }

/-- Slot `k` is the one that fires there. -/
def Fires (k : Nat) (x : AtSlot) (kind : Nat) (q : List MtxReq := []) : Prop :=
  (armed k x q).up = true ∧ (armed k x q).coreState 0 ≠ 0 ∧ (armed k x q).dueSlot 0 = some (k, x) ∧ blkKind x.w0 = kind

/-- The state in which the timed store of slot `k` is made. -/
def fired (k : Nat) (x : AtSlot) (q : List MtxReq := []) : State :=
  (armed k x q).setCore 0 { ((armed k x q).core 0).dropSlot k with fired := 3 }

theorem witness_ArmedActionsFire :
    (Fires 15 (slotOf (15 * 2 ^ 30 + 4) 7) 0 ∧ (let u := fired 15 (slotOf (15 * 2 ^ 30 + 4) 7)
      u.resolve 0 4 true = .ok (.mem (ram 4)) ∧ u.blocked 0 (.timed 15 8 4) (.mem (ram 4)) = false ∧
        ∃ v, u.storeWord 0 (.timed 15 8 4) 4 15 ⟨7, false⟩ = .ok v ())) ∧
    (let q := [req .granted none (.link 1)]
     Fires 15 (slotOf (15 * 2 ^ 30 + 4) 7) 0 q ∧
       ∃ p, (fired 15 (slotOf (15 * 2 ^ 30 + 4) 7) q).storeWord 0 (.timed 15 8 4) 4 15 ⟨7, false⟩ = .held p) ∧
    (Fires 0 (slotOf (16 * 2 ^ 30 - 1) 7) 0 ∧
      ∃ v code, (fired 0 (slotOf (16 * 2 ^ 30 - 1) 7)).storeWord 0 (.timed 0 8 (2 ^ 30 - 1)) (2 ^ 30 - 1) 15 ⟨7, false⟩ = .bad v code) ∧
    Fires 0 (slotOf (2 ^ 34) 7 [cw (2 * 2 ^ 33 + 2 ^ 27)]) 1 ∧ Fires 0 (slotOf (2 ^ 35) 7) 2 := by
  refine ⟨⟨?_, ?_, ?_, _, rfl⟩, ⟨?_, _, rfl⟩, ⟨?_, _, _, rfl⟩, ?_⟩
  all_goals try unfold Fires
  all_goals decide +kernel

theorem witness_IssueComplete :
    (let i : Instr := .issue 0 3 (.field 63) false
     let s := withWords i memCore [0, word (2 * 2 ^ 33 + 2 ^ 27)]
     (memCore.reg 3).p = false ∧ memCore.busy.contains 63 = false ∧ s.domainBusy 0 .core = false ∧
       ∃ u v d, s.fetch 0 = .instr u i (wordOf i) ∧ u.readDesc 0 2 = .ok v d) ∧
    (let c : CoreSt := { wait := some (.issue 0 3 (.field 0) false), waitDesc := [cw (2 * 2 ^ 33 + 2 ^ 27)] }
     (coreOn 0 c []).waiting 0 = some (.issue 0 3 (.field 0) false) ∧ c.waitDesc ≠ []) :=
  ⟨⟨by decide +kernel, by decide +kernel, rfl, _, _, _, rfl, rfl⟩, by decide +kernel⟩

/-- A completion of tag 0. -/
def done0 : RingEnt := ⟨0, 2, 0, 4, cw 9, 0⟩

/-- A core that has tag 0 busy and its completion in the ring. -/
def doneCore : CoreSt := { busy := [0], ring := [done0] }

/-- Core 0 as `c`, about to run `i` two clocks after reset. -/
def later (c : CoreSt) (i : Instr) : State := { runner i c with now := 8 }

theorem witness_CompletionsTaken :
    (∀ i ∈ ([.waitt 0 1 (.field 0) false, .waita 0 1 false, .cpop 0 1 false] : List Instr), (later doneCore i).runs 0 i (wordOf i)) ∧
    (∀ i ∈ ([.waitt 0 1 (.reg 3) false, .waita 0 1 false] : List Instr), (coreTick { doneCore with wait := some i } 8).waiting 0 = some i) ∧
    (let ring := doneCore.ring.filter fun x => x.clk < 8 / 4
     ring.head? = some done0 ∧ (ring.find? fun x => x.tag = doneCore.tag (.reg 3)) = some done0) ∧
    (∀ i ∈ ([.waitt 0 1 (.field 0) false, .waita 0 1 false] : List Instr), Ready i { busy := [0] }) ∧
    (∀ i ∈ ([.waitt 0 1 (.field 0) false, .waita 0 1 false, .cpop 0 1 false] : List Instr), Ready i) :=
  ⟨runs_all (by decide +kernel), by decide +kernel, by decide +kernel, ready_all (by decide +kernel), ready_all (by decide +kernel)⟩

/-- Core 0 as `c` with one request, at tick 8. -/
def reqState (c : CoreSt) (r : MtxReq) (now : Nat := 8) : State := { coreOn 0 c [] with mtx := [r], now := now }

/-- A core that waits for the word of a load. -/
def loadCore : CoreSt := { memCore with wait := some (.ld 0 1 (at_ 3 2)) }

theorem witness_MatrixRequestsProceed :
    (∀ st ∈ [ReqStage.waiting, .heldBack],
      let s := reqState {} (req st)
      (s.mtx.find? fun q => q.core = 0 && s.movable q) = some (req st) ∧ s.targetHeld (req st) = false) ∧
    (reqState {} (req .admitted) (2 ^ 40)).chosen (targetPort (ram 4)) = some (req .admitted, false) ∧
    (∀ g ∈ [Agent.link 3, .op 2 5], (reqState {} (req .admitted none g) (2 ^ 40)).chosen (targetPort (ram 4)) =
      some (req .admitted none g, true)) ∧
    (∀ post ∈ [none, some (15, cw 9)],
      let s := reqState (if post.isSome then {} else loadCore) (req .granted post)
      (s.mtx.find? fun q => q.core = 0 && q.stage = .granted && !s.targetHeld q) = some (req .granted post) ∧
        s.rdb CORE_CTL_REMAP 0 = true ∧ s.answers (Place.mem (ram 4)).domain = true ∧ s.inImage (ram 4) = false ∧
        s.waiting 0 = if post.isSome then none else some (.ld 0 1 (at_ 3 2))) ∧
    (∃ v w, ({ reqState loadCore (req .granted) with mtx := [req .served] } : State).loadWord 0 .core 4 15 = .ok v w) :=
  ⟨by decide +kernel, by decide +kernel, by decide +kernel, by decide +kernel, _, _, rfl⟩

/-! ### Engines -/

/-- An operation of tag 5 with descriptor words `ws`, the unit and OP put into word 0. -/
def engine (unit op w0 : Nat) (ws : List Nat) : EngOp :=
  { tag := 5, unit := unit, desc := cw (unit * 2 ^ 33 + op * 2 ^ 27 + w0) :: ws.map cw, accepted := 0, pc := 0, iw := 0, ea := 0 }

/-- Core `n` with one operation outstanding, and words at the start of its RAM. -/
def engState (n : Nat) (o : EngOp) (ws : List Word := []) : State := coreOn n { ops := [o], busy := [5] } ws

/-- Whether the operation is outstanding there with its unit and OP. -/
def engB (s : State) (n unit op : Nat) (o : EngOp) : Bool :=
  s.up && s.coreState n ≠ cOff && s.engOp n 5 = some o && o.unit = unit && o.op = op

theorem eng_of {s : State} {n unit op : Nat} {o : EngOp} (h : engB s n unit op o = true) : EngRuns s n 5 unit op o := by
  simp only [engB, Bool.and_eq_true, decide_eq_true_eq] at h
  exact ⟨h.1.1.1.1, h.1.1.1.2, h.1.1.2, h.1.2, h.2⟩

theorem witness_MemoryTransfersComplete :
    (let o := engine 2 1 0 [4, 8, 2]
     let s := engState 0 o [1, 2, 3, 4, 5]
     EngRuns s 0 5 2 1 o ∧ (o.w 3).bits 17 0 = 2 ∧ o.clean [2 ^ 36 - 2 ^ 27, 2 ^ 30 - 1, 2 ^ 30 - 1, 2 ^ 18 - 1] = true ∧
       (∀ i, i < 2 → s.resolve 0 ((o.w 1).toNat + i) false = .ok (.mem (ram 4 + i)) ∧ s.blocked 0 o.agent (.mem (ram 4 + i)) = false) ∧
       (∀ i, i < 2 → s.resolve 0 ((o.w 2).toNat + i) true = .ok (.mem (ram 8 + i)) ∧ s.blocked 0 o.agent (.mem (ram 8 + i)) = false) ∧
       ram 4 + 2 ≤ ram 8) ∧
    (let o := engine 2 2 0 [7, 131071, 1]
     let s := engState 0 o
     EngRuns s 0 5 2 2 o ∧ o.clean [2 ^ 36 - 2 ^ 27, 2 ^ 36 - 1, 2 ^ 30 - 1, 2 ^ 18 - 1] = true ∧
       ∀ i, i < 1 → s.resolve 0 ((o.w 2).toNat + i) true = .ok (.mem (ram 131071 + i)) ∧ s.blocked 0 o.agent (.mem (ram 131071 + i)) = false) :=
  ⟨⟨eng_of (by decide +kernel), by decide +kernel⟩, eng_of (by decide +kernel), by decide +kernel⟩

theorem witness_PacketOperationsComplete :
    (let o := engine 2 3 0 [0, 0, 16383]
     let s := engState 0 o
     EngRuns s 0 5 2 3 o ∧ o.clean [2 ^ 36 - 2 ^ 27, 0, 0, 2 ^ 14 - 1] = true ∧ 0 < s.freeDescs ∧ (16383 + 63) / 64 ≤ s.freeCells) ∧
    (let o := engine 2 4 0 [0, 0, 0]
     let s := withPacket ((engState 0 o).setReg (queAddr 0) (word (2 ^ 21 + 1))|>.wr QUE_PAGE_LIMIT 1 0 0) (pkt0 9)
     EngRuns s 0 5 2 4 o ∧ o.clean [2 ^ 36 - 2 ^ 27, 2 ^ 30 - 1, 3 * 2 ^ 34 + 2 ^ 17 - 1, 0] = true ∧ queueOf 0 0 = some 0 ∧
       s.maySend 0 0 = true ∧ s.byHandle 0 = some (0, pkt0 9) ∧ prefixOk 0 (pkt0 9).octets = true ∧ s.windowed 0 = false ∧
       s.admitFails 0 (s.queuePage 0) 9 = none) ∧
    (let o := engine 2 5 0 [0, 3, 0]
     let s := engState 0 o
     let s := withPacket { s with traf := { s.traf with boxes := [(3, [0])] } } { pkt0 9 with held := 0 }
     EngRuns s 0 5 2 5 o ∧ o.clean [2 ^ 36 - 2 ^ 27, 0, 2 ^ 35 + 3, 0] = true ∧ sget (fun _ => []) s.traf.boxes (4 * 0 + 3) = [0] ∧
       s.packet 0 = some { pkt0 9 with held := 0 }) ∧
    (let o := engine 2 6 0 [0, 0, 0]
     let s := withPacket (engState 0 o) (pkt0 9)
     EngRuns s 0 5 2 6 o ∧ o.clean [2 ^ 36 - 2 ^ 27, 2 ^ 30 - 1, 0, 0] = true ∧ s.byHandle 0 = some (0, pkt0 9) ∧ s.windowed 0 = false) := by
  refine ⟨⟨eng_of ?_, ?_⟩, ⟨eng_of ?_, ?_⟩, ⟨eng_of ?_, ?_⟩, eng_of ?_, ?_⟩ <;> decide +kernel

/-- Key slot 128 or 192 of page 0, which T-, K-, L- and S-cores may use. -/
def keySlot : KeySlot := ⟨some ⟨List.replicate 32 0, 0, 0, 0, false, false, 0, []⟩, none, false, none, 15, 0⟩

/-- Words of four octets 0 in lane form. -/
def octetWords : List Word := List.replicate 32 (word (256 * (2 ^ 27 + 2 ^ 18 + 2 ^ 9 + 1)))

def withKey (s : State) (k : Nat) : State := s.setKey (.slot 0 k) (some keySlot)

/-- Whether a run of reads or checks answers, with an answer of which `f` holds. -/
def okB {ε α : Type} (e : Except ε α) (f : α → Bool) : Bool :=
  match e with
  | .ok x => f x
  | .error _ => false

/-- Whether input was read without failure, and `f` holds of the state and the octets. -/
def readB (e : Except (Place × State × List PWord) (State × CipherIn)) (f : State → List Nat → Bool) : Bool :=
  okB e fun r => r.2.fail.isNone && f r.1 r.2.octets

/-- Whether a run of accesses ended by itself, and `f` holds of its state. -/
def ranB {α : Type} (r : State × α × Stop) (f : State → α → Bool) : Bool :=
  match r.2.2 with
  | .none => f r.1 r.2.1
  | _ => false

/-- Whether key `o` names is invoked, and `f` holds of the counter, the key and the state. -/
def usedB (s : State) (o : EngOp) (f : Nat → KeyGen → State → Bool) : Bool :=
  match s.invoke (.slot o.page o.key) o.page false with
  | (.used c g, v) => f c g v
  | _ => false

/-- A cipher operation `op` on key 128 or 192, with its key and words to read. -/
def cipherCase (op key w0 : Nat) (ws : List Nat) : EngOp × State :=
  let o := engine 1 op (key * 2 ^ 13 + w0) ws
  (o, withKey (engState 0 o octetWords) key)

/-- That operation may run: its fields are in range and the key engine is sound. -/
def CipherRuns (op : Nat) (x : EngOp × State) : Prop :=
  EngRuns x.2 0 5 1 op x.1 ∧ (x.1.got = [] ∧ x.1.out = none ∧ x.1.clean cipherMasks = true ∧ x.1.cipherOk = true ∧ x.2.rdb EDW_STAT_ERROR = false)

theorem witness_CipherOperationsComplete :
    (let x := cipherCase 1 128 (16 * 2 ^ 6) [8, 16, 0, 2 ^ 18, 24, 28]
     CipherRuns 1 x ∧ readB (x.2.cipherRead 0 x.1.agent [] 0 0 0) (fun u aad => readB (u.cipherRead 0 x.1.agent [] 8 4 16) fun v text =>
       okB (v.cipherKey 0 x.1) fun _ => usedB v x.1 fun ctr g w =>
         let iv := natToOctets 4 g.saltA ++ natToOctets 8 ctr
         let c := gcmEncrypt g.key iv aad text
         let out := piece 16 (asLanes 4 c.1) ++ piece 24 (asLanes 3 iv) ++ piece 28 (asLanes 4 c.2)
         decide (out.length = 11) && ranB (w.engWrite 0 x.1.agent out) fun y _ => decide (y.engOp 0 5 = some x.1)) = true) ∧
    (let x := cipherCase 2 128 (2 ^ 6) [8, 16, 0, 2 ^ 18, 24, 28]
     CipherRuns 2 x ∧ readB (x.2.cipherRead 0 x.1.agent [] 0 0 0) (fun u aad => readB (u.cipherRead 0 x.1.agent [] 24 3 12) fun v iv =>
       readB (v.cipherRead 0 x.1.agent [] 8 4 1) fun w text => readB (w.cipherRead 0 x.1.agent [] 28 4 16) fun y mac =>
         okB (y.cipherKey 0 x.1) fun g => decide (gcmTag g.key iv aad text ≠ mac) &&
           ranB (y.engWrite 0 x.1.agent (piece 16 (asLanes 4 []))) fun z _ => decide (z.engOp 0 5 = some x.1)) = true) ∧
    (let x := cipherCase 3 192 (2 ^ 6) [8, 64, 0, 2 ^ 18, 0, 0]
     CipherRuns 3 x ∧ readB (x.2.cipherRead 0 x.1.agent [] 8 16 1) (fun u text => okB (u.cipherKey 0 x.1) fun _ =>
       usedB u x.1 fun _ g v => ranB (v.engWrite 0 x.1.agent (piece 64 (asLanes 8 (hmac256 g.key text)))) fun w _ =>
         decide (w.engOp 0 5 = some x.1)) = true) ∧
    (∀ op ∈ [1, 2, 3], let x := cipherCase op 128 0 []
      engB (x.2.wr EDW_STAT_ERROR 1) 0 1 op x.1 = true ∧ (x.2.wr EDW_STAT_ERROR 1).rdb EDW_STAT_ERROR = true) := by
  refine ⟨?_, ?_, ?_, ?_⟩
  case refine_4 => decide +kernel
  all_goals exact ⟨⟨eng_of (by decide +kernel), by decide +kernel⟩, by decide +kernel⟩

theorem witness_MonitorMapAndCounterOperations :
    (let o := engine 3 1 0 [1, 0, 0]
     let s := (engState 0 o).wr PWR_DOM_STATE 2 0 64 |>.wr MON_STAT_STATE mIdle 0
     EngRuns s 0 5 3 1 o ∧ s.mons = [] ∧ mayConvert 0 0 false = true ∧ o.clean [2 ^ 36 - 2 ^ 8, 2 ^ 36 - 1, 2 ^ 36 - 1, 2 ^ 18 - 1] = true ∧
       s.refRuns 0 = false ∧ okB (s.judgeInj (o.w 0).toNat 1 0 0 (.op 0 5) o.accepted) (fun r => decide (r.1 = 0)) = true) ∧
    (let o := engine 3 2 0 [0, 0, 0]
     let s := (engState 64 o).wr PWR_DOM_STATE 2 0 64 |>.wr MON_STAT_STATE mIdle 0
     EngRuns s 64 5 3 2 o ∧ s.mons = [] ∧ o.clean [2 ^ 36 - 2 ^ 22, 0, 0, 0] = true ∧ mayConvert 64 0 true = true ∧ s.monState 0 ≠ mOff ∧
       (s.mon 0).cal = .none) ∧
    (let o := engine 4 1 (2 ^ 19) [0, 2 ^ 26, 100]
     let s := engState 63 o
     EngRuns s 63 5 4 1 o ∧ o.clean [2 ^ 36 - 2 ^ 19, 2 ^ 36 - 1, 2 ^ 36 - 1, 2 ^ 30 - 1] = true ∧
       frameOf (lpTicks (o.w 1).toNat (o.w 2).toNat) = 8 ∧ bitsOf (o.w 2).toNat 22 4 = 0 ∧ s.passedBy 63 o.accepted < 8 ∧
       8 ≤ s.passedBy 63 o.accepted + 8 ∧
       okB (s.commitMaps 63 o.agent 8 (decide (s.deadline 63 8 ≤ (o.accepted : Int))) o.got
         ((List.range 8).filter fun w => (o.w 0).bit (19 + w)) ⟨(o.w 3).toNat, [], [], 0, [], []⟩) (fun r => decide (r.1.engOp 63 5 = some o)) = true) ∧
    (let s := engState 0 (engine 4 1 0 [])
     s.ownWords 0 100 1 = true ∧
       ranB (s.engTake 0 (.op 4 5) [] 100 1) (fun u l => decide (l = [⟨0, false⟩]) && u.ownWords 0 101 0 &&
         ranB (u.engTake 0 (.op 4 5) [] 101 0) fun _ l => decide (l = [] ∧ mapOf 0 0 [] = some [])) = true) ∧
    (let o := engine 5 1 0 [524287, 100, 1]
     let s := engState 0 o
     EngRuns s 0 5 5 1 o ∧ o.done = 0 ∧ o.clean [2 ^ 36 - 2 ^ 27, 2 ^ 20 - 1, 2 ^ 30 - 1, 2 ^ 13 - 1] = true ∧
       ranB (s.snapRun 0 o.agent 524287 100 1) (fun v k => decide (k = 1 ∧ v.engOp 0 5 = some o)) = true) ∧
    (let o := engine 5 2 0 [PROG.base + 63, 2 ^ 36 - 1, 0]
     EngRuns (engState 0 o) 0 5 5 2 o ∧ o.clean [2 ^ 36 - 2 ^ 27, 2 ^ 20 - 1, 2 ^ 36 - 1, 0] = true ∧
       (o.w 1).toNat = PROG.base + 64 * 0 + 63) := by
  refine ⟨⟨eng_of ?_, ?_⟩, ⟨eng_of ?_, ?_⟩, ⟨eng_of ?_, ?_⟩, ?_, ⟨eng_of ?_, ?_⟩, eng_of ?_, ?_⟩ <;> decide +kernel

/-! ### Registers -/

/-- Whether a whole-word request of master `m` reaches the register at `a`. -/
def reachesB (s : State) (m a : Nat) (write : Bool) : Bool :=
  isMaster m && decide (s.resolve (m / 8) (coreView m a) write = .ok (.reg a)) && !s.blocked (m / 8) (.row (m % 8)) (.reg a)

/-- Whether a register takes a master's write. -/
def acceptsB (s : State) (m a : Nat) (w : Word) : Bool := reachesB s m a true && decide (s.judged a w = .done)

theorem reaches_iff {s : State} {m a : Nat} {write : Bool} : s.reaches m a write ↔ reachesB s m a write = true := by
  simp only [State.reaches, reachesB, Bool.and_eq_true, decide_eq_true_eq, Bool.not_eq_true', and_assoc]

theorem accepts_iff {s : State} {m a : Nat} {w : Word} : s.accepts m a w ↔ acceptsB s m a w = true := by
  simp only [State.accepts, reaches_iff, acceptsB, Bool.and_eq_true, decide_eq_true_eq]

/-- The master ID of the host's commands, and of the S-core. -/
def host : Nat := 1016
def score : Nat := 608

/-- The module is up with a further domain ON, in a mode. -/
def modeOn (d mode : Nat) : State := (up0.wr PWR_DOM_STATE 2 0 d).wr PWR_STAT_MODE mode

theorem witness_WriteByAccessCode :
    (∀ e ∈ (fieldsAt 0o404000014).2, e.1.lo ≤ e.1.hi ∧ e.1.hi < 36) ∧
    (fieldsAt 0o404000014).2.Pairwise (fun e f => e.1.hi < f.1.lo ∨ f.1.hi < e.1.lo) ∧ (fieldsAt 0o404000014).2 ≠ [] := by decide +kernel

/-- The word of a register with one field at a value. -/
def put (s : State) (f : Field) (v : Nat) (i : Nat := 0) (a : Nat := 0) : Word :=
  word (setBits (s.reg (f.addr i a 0)).toNat f.hi f.lo v)

/-- The state with word `w` written to register `a`, before what the write brings. -/
def wrote (s : State) (a : Nat) (w : Word) : State := s.setReg a (s.after a w)

theorem witness_RegisterWriteComplete :
    (memInstance 0o404000014 = none ∧ up0.accepts score 0o404000014 (put up0 TIME_SERVO_JUMP_THR 9)) ∧
    (up0.reaches host 0o404000014 true ∧ up0.judged 0o404000014 (put up0 TIME_SERVO_SLEW 0) = .reserved ∧
      up0.judged 0o404000014 (put up0 TIME_SERVO_LOCK_THR 250) = .badRange) ∧
    (∃ a w, (modeOn 72 modeService).reaches host a true ∧ (modeOn 72 modeService).judged a w = .badState) ∧
    ((modeOn 78 modeService).reaches score (BUF_CTL_RESERVE.addr 0 0 0) true ∧
      (modeOn 78 modeService).judged (BUF_CTL_RESERVE.addr 0 0 0) (put up0 BUF_CTL_RESERVE 5) = .refused) ∧
    ∃ cause, up0.resolve 76 (coreView score 0o777777777) true = .error (.dec cause) ∧ cause ≤ 3 := by
  simp only [accepts_iff, reaches_iff]
  exact ⟨by decide +kernel, by decide +kernel, ⟨LINE_RX_TEST_MODE.addr 0 0 0, put up0 LINE_RX_TEST_MODE 2, by decide +kernel⟩,
    ⟨by decide +kernel, 0, by decide +kernel⟩⟩

theorem witness_ReadsWithEffectComplete :
    up0.reaches score 0o404000000 false ∧
    (up0.reaches score 0o404000020 false ∧
      { up0 with time := { up0.time with tsq := [⟨0, ⟨0, 0, 0⟩, 0, 5⟩] } }.time.tsq = [⟨0, ⟨0, 0, 0⟩, 0, 5⟩] ∧ 5 ≠ up0.clock) ∧
    (modeOn 75 1).reaches score (LINE_RX_QSTAT_VALID.addr 3 0 0) false ∧
    (modeOn 63 1).reaches score (0o400000005 + 0o1000 * 511) false ∧
    ((modeOn 63 1).reaches score (TREE_BEV_E0_W.addr 63 0 0) false ∧
      ({ modeOn 63 1 with trees := [(63, { bev := [⟨1, 2, 3, 5⟩] })] }.tree 63).bev = [⟨1, 2, 3, 5⟩] ∧ 5 ≠ (modeOn 63 1).clock) ∧
    (modeOn 63 1).reaches score (TREE_RPT_FRESH.addr 63 1023 0) false ∧
    up0.reaches score (cntAddr 1048575) false ∧ up0.reaches host (cntAddr 0) false := by
  simp only [reaches_iff]
  decide +kernel

/-- Core 0 in a state, with domain 0 ON. -/
def coreSt (st : Nat) (c : CoreSt := {}) : State := { (modeOn 0 1).wr CORE_STAT_STATE st 0 with cores := [(0, c)] }

theorem witness_CoreRegisterWritesComplete :
    (∀ v ∈ [0, 1, 2], let a := CORE_WIN_H_MODE.addr 0 3 0
     let s := coreSt 4
     let w := put s CORE_WIN_H_MODE v 0 3
     s.accepts 0 a w ∧ w.bits 35 34 = v ∧ (wrote s a w).rd CORE_WIN_H_MODE 0 3 = v) ∧
    ((coreSt 4).accepts 0 (CORE_CTL_REMAP.addr 0 0 0) ((8 : Word) &&& 8) ∧ (coreSt 4).coreState 0 = 4 ∧
      (coreSt 5).accepts score (CORE_CTL_REMAP.addr 0 0 0) ((8 : Word) &&& 8) ∧ (coreSt 5).coreState 0 = 5 ∧
      (coreSt 4).accepts score (CORE_CTL_REMAP.addr 0 0 0) ((0 : Word) &&& 8)) ∧
    (∀ wait ∈ [none, some (Instr.waitp 0 2), some (.ldp 0 2 ⟨0, 0, 15, 0⟩)], let s := coreSt 4 { wait := wait }
      s.accepts score (CORE_CTL_HALT.addr 0 0 0) 4 ∧ s.coreState 0 = 4 ∧ (s.core 0).wait = wait) ∧
    (stopsAt (.waitp 0 2) = true ∧ stopsAt (.ldp 0 2 ⟨0, 0, 15, 0⟩) = false) ∧
    (∀ st ∈ [3, 5], (coreSt st).accepts score (CORE_CTL_START.addr 0 0 0) 2 ∧ (coreSt st).coreState 0 = st ∧
      ¬(coreSt st).startLp 0 < (coreSt st).now ∧
      let s := { (coreSt st).wr CORE_START_B 16 0 with now := 9 }
      s.startLp 0 < s.now) ∧
    ((coreSt 6).accepts score (CORE_CTL_SRST.addr 0 0 0) 1 ∧ (coreSt 6).coreState 0 ≠ 0 ∧ (coreSt 6).img.load = none ∧
      (coreSt 6).bursting 0 = [] ∧ (coreSt 6).mtx = []) ∧
    ((coreSt 4 { smpHeld := 3 }).accepts score (CORE_SMP_ACK_N.addr 0 0 0) 63 ∧
      (coreSt 4 { smpHeld := 3 }).accepts host (CORE_SMP_ACK_N.addr 0 0 0) 0) := by
  simp only [accepts_iff]
  decide +kernel

/-- A line domain ON with the two states of line `l`. -/
def lineSt (l tx rx : Nat) (mode : Nat := 1) : State := ((modeOn (72 + l) mode).wr LINE_TX_STAT_STATE tx l).wr LINE_RX_STAT_STATE rx l

/-- A tree domain ON with the downstream state of channel `c`. -/
def chanSt (c st : Nat) (mode : Nat := 1) : State := (modeOn (c / 8) mode).wr CH_DS_STAT_STATE st c

theorem witness_LineChannelRegisterWritesComplete :
    (let a := LINE_TX_CTL_POWER.addr 3 0 0
     let s := lineSt 3 txLit 0
     let w := put s LINE_TX_CTL_POWER 30 3
     s.accepts score a w ∧ s.txState 3 = 4 ∧ (wrote s a w).rd LINE_TX_CTL_POWER 3 ≠ s.rd LINE_TX_CTL_POWER 3 ∧
       (lineSt 3 0 0).accepts score a w ∧ (lineSt 3 0 0).txState 3 ≠ 4) ∧
    (lineSt 0 0 0).accepts score (LINE_TX_TEST_MODE.addr 0 0 0) 0 ∧
    (∀ rx ∈ [0, 5], ∀ follow ∈ [0, 1], ∀ en ∈ [0, 1], let a := LINE_RX_CTL_EN.addr 0 0 0
     let s := (lineSt 0 0 rx).wr LINE_RX_CTL_FOLLOW follow 0
     let w := put s LINE_RX_CTL_EN en 0
     s.accepts score a w ∧ s.domOn (lineDomain 0) = true ∧ (wrote s a w).rd LINE_RX_CTL_EN 0 = en ∧
       s.rd LINE_RX_STAT_STATE 0 = rx ∧ (wrote s a w).rd LINE_RX_CTL_FOLLOW 0 = follow ∧ (s.line 0).winAt ≤ s.now) ∧
    (∀ old ∈ [0, 2], ∀ mode ∈ [0, 2], let a := LINE_RX_TEST_MODE.addr 0 0 0
     let s := ((lineSt 0 0 rxLocked modeMaintenance).wr LINE_RX_STAT_SIG 1 0).wr LINE_RX_TEST_MODE old 0
     let w := put s LINE_RX_TEST_MODE mode
     s.accepts score a w ∧ s.rd LINE_RX_TEST_MODE 0 = old ∧ (wrote s a w).rd LINE_RX_TEST_MODE 0 = mode ∧ s.rxState 0 = 5 ∧
       s.rdb LINE_RX_STAT_SIG 0 = true) ∧
    (∀ st ∈ [0, dsUp, dsLit], let a := CH_DS_CTL_POWER.addr 511 0 0
     (chanSt 511 st).accepts score a (put (chanSt 511 st) CH_DS_CTL_POWER 90 511) ∧ (chanSt 511 st).dsState 511 = st) ∧
    ((chanSt 0 0).accepts score (CH_CANC_CTL_LOAD.addr 0 0 0) (put (chanSt 0 0) CH_CANC_CTL_LOAD 1) ∧
      (put (chanSt 0 0) CH_CANC_CTL_LOAD 1).getLsbD 30 = true) ∧
    ((chanSt 0 0).accepts score (CH_CANC_CTL_DROP.addr 0 0 0) (put (chanSt 0 0) CH_CANC_CTL_DROP 1) ∧
      (put (chanSt 0 0) CH_CANC_CTL_DROP 1).getLsbD 29 = true) ∧
    (∀ n ∈ [0, 9], let s := (chanSt 0 0).setTree 0 { (chanSt 0 0).tree 0 with lastN := n }
      s.accepts 0 (CH_DSM_CTL_SET.addr 0 0 0) (put s CH_DSM_CTL_SET 4095) ∧
        (s.deadline 0 ((s.tree 0).lastN + 1) / 4 ≤ (s.clock : Int) ↔ n = 0)) := by
  simp only [accepts_iff]
  decide +kernel

/-- The servo in a state, with EN 1 and a source. -/
def servo (st src : Nat) : State :=
  ((((up0.wr TIME_STAT_STATE st).wr TIME_CTL_EN 1).wr TIME_CTL_SRC src).wr TIME_STAT_REF_OK 1).wr TIME_STAT_OCXO_WARM 1

theorem witness_TimeMonitorGroomerWritesComplete :
    up0.accepts score 0o404000014 (put up0 TIME_SERVO_JUMP_THR 511) ∧
    (up0.reaches score 0o404000014 true ∧ up0.judged 0o404000014 (put up0 TIME_SERVO_LOCK_THR 250) = .badRange) ∧
    (∀ st ∈ [stFree, stAcquire, stLocked, stHoldover], ∀ en ∈ [0, 1], let s := servo st 1
      let w := put s TIME_CTL_EN en
      s.accepts score 0o404000002 w ∧ s.rd TIME_STAT_STATE = st ∧ s.rdb TIME_CTL_EN = true ∧ s.rdb TIME_STAT_REF_OK = true ∧
        s.rdb TIME_STAT_OCXO_WARM = true ∧ (wrote s 0o404000002 w).rd TIME_CTL_EN = en ∧
        (wrote s 0o404000002 w).rd TIME_CTL_SRC = s.rd TIME_CTL_SRC) ∧
    (∀ st ∈ [stLocked, stHoldover], let s := servo st 1
      s.accepts score 0o404000002 (put s TIME_CTL_SRC 0) ∧ s.rd TIME_CTL_SRC ≠ 0 ∧
        (wrote s 0o404000002 (put s TIME_CTL_SRC 0)).rd TIME_CTL_SRC = 0) ∧
    (∀ st ∈ [mIdle, mSeq, mInj], let a := MON_SEQ_CTL_EN.addr 17 0 0
      let s := ((modeOn 78 1).wr MON_STAT_STATE st 17).wr MON_SEQ_EN 1 17 3
      let w := word (setBits (setBits 0 MON_SEQ_CTL_EN.hi MON_SEQ_CTL_EN.lo 1) MON_SEQ_CTL_LAST.hi MON_SEQ_CTL_LAST.lo 5)
      s.accepts score a w ∧ s.rdb MON_SEQ_CTL_EN 17 = false ∧ (wrote s a w).rdb MON_SEQ_CTL_EN 17 = true ∧ s.monState 17 = st ∧ s.dueInj 17 = none ∧
        3 ≤ (wrote s a w).rd MON_SEQ_CTL_LAST 17 ∧ s.rdb MON_SEQ_EN 17 3 = true ∧ ∀ i, i < 3 → s.rdb MON_SEQ_EN 17 i = false) ∧
    (∀ op ∈ [1, 2], let s := (modeOn 79 modeMaintenance).wr GRM_TADDR_ADDR (localBase 76)
      s.accepts score 0o450010023 (word op) ∧ (word op).bits 1 0 = op ∧ s.mode = modeMaintenance ∧ s.rd GRM_TADDR_SPACE = 0 ∧
        s.rd GRM_TADDR_ADDR = localBase 76 ∧ (memInstance (localBase 76)).any (· < 86) = true ∧ s.rawFault (op = 1) (localBase 76) = none ∧
        sget (fun _ => none) s.tblRaw (localBase 76) = none) ∧
    (up0.accepts score 0o404001001 (put up0 PWR_WDOG_CTL_EN 1) ∧ up0.rdb PWR_WDOG_CTL_EN = false) ∧
    ((up0.wr PWR_WDOG_CTL_EN 1).accepts score 0o404001002 (word 0o153151143153) ∧ (up0.wr PWR_WDOG_CTL_EN 1).rdb PWR_WDOG_CTL_EN = true) := by
  simp only [accepts_iff, reaches_iff]
  decide +kernel

/-- The servo in a state with a source selected, at a tick, with some of its internal state. -/
def clock (st src : Nat) (refOk : Nat) (now : Nat := 0) (t : TimeSt := {}) : State :=
  { (((up0.wr TIME_STAT_STATE st).wr TIME_CTL_SRC src).wr TIME_CTL_EN 1).wr TIME_STAT_REF_OK refOk with now := now, time := t }

theorem witness_ServoEventsComplete :
    (∀ src ∈ [1, 2], let s := clock stLocked src 1
      s.up = true ∧ s.rd TIME_CTL_SRC = src ∧ s.rdb TIME_STAT_REF_OK = true ∧ s.rd TIME_STAT_STATE = stLocked ∧ 0 < s.jumpThr ∧
        |s.jumpThr - s.ntAt s.now| ≤ s.jumpThr ∧ s.time.lately = [] ∧ |s.rdi TIME_RATE - s.rdi TIME_RATE| ≤ s.slewMax 4000000000) ∧
    ((clock stFree 2 0).up = true ∧ (clock stFree 2 0).rd TIME_CTL_SRC = 2 ∧ (clock stFree 2 0).rdb TIME_STAT_REF_OK = false) ∧
    (let s := clock stFree 3 0 1999999999 { lastTaken := some 0 }; s.time.lastTaken = some 0 ∧ s.now < 0 + 2000000000) ∧
    (let s := clock stFree 3 0 2000000000 { lastTaken := some 0, todNext := some 5 }
     s.up = true ∧ s.time.lastTaken = some 0 ∧ 0 + 2000000000 ≤ s.now ∧ s.time.todNext = some 5) ∧
    ((clock stFree 3 0).up = true ∧ (clock stFree 3 0).time.lastTaken = none ∧ (clock stFree 3 0).time.todNext = none) ∧
    (∀ st ∈ [stAcquire, stLocked, stHoldover], let s := clock st 1 1 (4 * ticksSec + 1) { lastMeas := some 0 }
      s.up = true ∧ s.rdb TIME_STAT_REF_OK = true ∧ s.refFails .noMeasurement = true ∧ s.rd TIME_STAT_STATE = st) ∧
    (let s := clock stFree 2 0 0 { lastMeas := some 0, annOk := true }
     s.up = true ∧ s.rdb TIME_STAT_REF_OK = false ∧ ({ s with time := { s.time with tenOk := true } } : State).refHolds = true) ∧
    (let s := clock stFree 2 1 480000000000
     s.up = true ∧ 480000000000 ≤ s.now ∧ s.rdb TIME_STAT_OCXO_WARM = false) ∧
    (let s := clock stLocked 2 1 4096000000 { restep := some ⟨7, 1, true, 0⟩ }
     s.up = true ∧ s.time.restep = some ⟨7, 1, true, 0⟩ ∧ 1 * 4096000000 ≤ s.now ∧ s.rd TIME_STAT_STATE = stLocked) := by
  decide +kernel

theorem witness_TimeOutputsAndCalendarComplete :
    (∀ s ∈ [clock stLocked 1 1 4000000000, (clock stFree 1 1 4000000000).wr TIME_CTL_PPS_FREE 1],
      s.up = true ∧ (s.rd TIME_STAT_STATE = stLocked ∨ s.rd TIME_STAT_STATE = stHoldover ∨ s.rdb TIME_CTL_PPS_FREE = true) ∧
        s.ppsSecond ((s.now : Int) - 1) < s.ppsSecond s.now ∧ s.time.ppsRise = none) ∧
    (let s := clock stLocked 1 1 1999999999 { ppsRise := some 0 }; s.time.ppsRise = some 0 ∧ s.now < 0 + 2000000000) ∧
    (let s := (clock stLocked 1 1 4000 { ppsRise := some 0, ppsOut := true }).wr TIME_PPS_PPS_WIDTH 1
     s.time.ppsRise = some 0 ∧ s.time.ppsOut = true ∧ 0 + s.rd TIME_PPS_PPS_WIDTH * 4000 ≤ s.now) ∧
    (let s := (clock stLocked 1 1 (3 * ticksSec)).wr RTC_CTL_SYNC 1
     s.up = true ∧ s.rdb RTC_CTL_SYNC = true ∧ s.rd TIME_STAT_STATE = stLocked ∧ 3 = (s.ntAt s.now / ntSec % 2 ^ 48).toNat ∧
       s.ntAt s.now - ntTick < s.ntAt s.now / ntSec * ntSec ∧ s.calendar + 1 < 3 * 32768) ∧
    (let s := { up0 with calCnt := 2 ^ 20 }
     2 ^ 20 ≤ s.calCnt ∧ 0 ≤ (s.calendar : Int) + s.rdi RTC_CTL_TRIM ∧ (s.calendar : Int) + s.rdi RTC_CTL_TRIM < 2 ^ 63) ∧
    (∀ n ∈ [0, 64], let s := { up0 with
        time := { up0.time with tsq := List.replicate n ⟨0, ⟨0, 0, 0⟩, 0, 0⟩ }, traf := { up0.traf with marks := [(15, ⟨0, 0, 0⟩)] } }
      s.up = true ∧ (s.traf.marks.find? fun m => m.1 = (15 : Fin 16).val) = some (15, ⟨0, 0, 0⟩) ∧ s.time.tsq.length = n) := by
  decide +kernel

/-! ### Host commands -/

/-- The command key of pages 0 and 1 in `hostS`. -/
def key0 : List Nat := List.replicate 32 7

/-- A key slot that holds it. -/
def cmdKey : KeySlot := ⟨some ⟨key0, 0, 0, 0, false, false, 0, []⟩, none, false, none, 15, 0⟩

/-- The service link is up with intake open, queue 0 is enabled and shared, pages 0 and 1 have their command keys, and the module is
in a mode. -/
def hostS (mode : Nat) : State :=
  let s := (((up0.wr SVC_STAT_LINK 4).wr SVC_STAT_INTAKE 1).wr SVC_CTL_QEN 1).wr SVC_QCFG_SHARED 1
  { s.wr PWR_STAT_MODE mode with
    pwr := { s.pwr with hrst := false }
    edw := { s.edw with keys := [(0, some cmdKey), (256, some cmdKey)] } }

/-- A packet with the CHECK that `key0` gives it. -/
def sealed (opc : Nat) (p : HostPkt) : HostPkt :=
  { p with check := ((hmac256 key0 (pktCovered p opc)).take 16).map (BitVec.ofNat 8) }

/-- A packet of a page and tag 0 with a payload, critical or not. -/
def pk (opc : Nat) (crit : Bool) (ws : List Nat) (page : Fin 64 := 0) : HostPkt :=
  sealed opc ⟨false, crit, false, false, page, 0, 0, (ws.length + 1) / 2, ws.map word ++ List.replicate (ws.length % 2) 0, 1, []⟩

theorem natToOctets_lt (n v : Nat) : ∀ x ∈ natToOctets n v, x < 256 := by
  intro x hx
  unfold natToOctets at hx
  simp only [List.mem_map] at hx
  obtain ⟨a, -, rfl⟩ := hx
  omega

theorem hmac256_lt (k m : List Nat) : ∀ x ∈ hmac256 k m, x < 256 := by
  intro x hx
  unfold hmac256 at hx
  simp only [sha256, List.mem_flatMap] at hx
  obtain ⟨a, -, ha⟩ := hx
  exact natToOctets_lt _ _ _ ha

theorem sealed_verifies (opc : Nat) (p : HostPkt) : pktVerifies (sealed opc p) opc key0 = true := by
  have h : ∀ l : List Nat, (∀ x ∈ l, x < 256) → (l.map (BitVec.ofNat 8)).map BitVec.toNat = l := by
    intro l hl
    induction l with
    | nil => rfl
    | cons a l ih =>
      simp only [List.map_cons, BitVec.toNat_ofNat]
      rw [ih fun x hx => hl x (List.mem_cons_of_mem _ hx), Nat.mod_eq_of_lt (hl a List.mem_cons_self)]
  have hc : pktCovered (sealed opc p) opc = pktCovered p opc := rfl
  unfold pktVerifies
  rw [hc, decide_eq_true_eq]
  exact (h _ fun x hx => hmac256_lt _ _ _ (List.mem_of_mem_take hx)).symm

/-- The command of a packet that arrives in `s`. -/
def cmdOf (s : State) (opc : Nat) (p : HostPkt) : Cmd :=
  ⟨p, opc, .waiting, s.svc.seq, if p.crit then some (p.counter.toNat, key0) else none, false, s.now, [], 0,
    s.samplesFor opc p.words⟩

/-- Sampling reads nothing of the service link. -/
theorem samplesFor_svc (s : State) (v : SvcSt) (opc : Nat) (ws : List Word) :
    ({ s with svc := v } : State).samplesFor opc ws = s.samplesFor opc ws := rfl

/-- The state in which it starts. -/
def begun (s : State) (opc : Nat) (p : HostPkt) : State :=
  let v := s.takeSlot opc p
  let v := if p.crit then (v.acceptCounter p.page p.counter.toNat).setCmd p.tag (some (cmdOf s opc p)) else v
  v.markStarted (cmdOf s opc p)

/-- What `Starts` asks but CHECK. -/
def startB (s : State) (opc : Nat) (p : HostPkt) : Bool :=
  let v := s.takeSlot opc p
  let w := if p.crit then (v.acceptCounter p.page p.counter.toNat).setCmd p.tag (some (cmdOf s opc p)) else v
  s.svcLive && (p.boot || s.rd SVC_STAT_LINK = 4) && s.intakeOpen p.boot && s.svc.slots.isEmpty && s.svc.drain.isNone &&
    decide (p.tag = 0) && !p.fence && (v.earlyCheck opc p).isNone && (w.lateCheck opc p).isNone && w.svc.drain.isNone &&
    (!p.crit || (!v.rdb EDW_STAT_ERROR && !isRecover opc p && !v.rdb EDW_PG_STAT_LOCKED p.page &&
      decide (v.commandKey p.page = some key0) && decide (v.lastCounter p.page < p.counter.toNat)))

theorem pick_one {s : State} {c : Cmd} (h : s.svc.slots = [(0, some c)]) (hd : s.svc.drain = none) (ht : c.pkt.tag = 0)
    (hf : c.pkt.fence = false) (hs : c.stage = .waiting) : s.pick = some c := by
  have hc : s.cmds = [c] := by simp [State.cmds, h]
  have hm : s.mayStart c = true := by simp [State.mayStart, State.instanceHeld, hc, hd, hf, hs]
  have ht' : c.tag = 0 := by simp [Cmd.tag, ht]
  have hr : (List.range 8 : List Nat) = [0, 1, 2, 3, 4, 5, 6, 7] := rfl
  simp [State.pick, hr, hc, headOf, hs, ht', hm]

theorem acceptCounter_svc (s : State) (a b : Nat) : (s.acceptCounter a b).svc = s.svc := by
  have one (c : Prop) [Decidable c] (s : State) (f : Field) (e : Code) : (if c then (s.wr f 1 a).occur e a else s).svc = s.svc := by
    split
    · rw [occur_svc, wr_svc]
    · rfl
  unfold State.acceptCounter
  rw [one, one, wr_svc, wr_svc]

theorem starts_of {s : State} {opc : Nat} {p : HostPkt} (h : startB s opc p = true)
    (hv : p.crit = true → pktVerifies p opc key0 = true) : Starts s opc p (cmdOf s opc p) (begun s opc p) := by
  simp only [startB, Bool.and_eq_true, Bool.or_eq_true, decide_eq_true_eq, Bool.not_eq_true', List.isEmpty_iff,
    Option.isNone_iff_eq_none] at h
  obtain ⟨⟨⟨⟨⟨⟨⟨⟨⟨⟨live, path⟩, open_⟩, empty⟩, drain⟩, tag⟩, fence⟩, early⟩, late⟩, -⟩, crit⟩ := h
  refine ⟨live, path, open_, by simp [State.cmdAt, empty, sget], early, _, ?_, late, ?_, rfl, rfl, rfl⟩
  · cases hc : p.crit
    · simp [State.applyCrit, hc]
    · simp only [hc, Bool.true_eq_false, false_or] at crit
      obtain ⟨⟨⟨⟨e, r⟩, l⟩, k⟩, c⟩ := crit
      have key : (s.takeSlot opc p).critCheck opc p = .accepted (some key0) := by
        simp [State.critCheck, e, r, l, k, hv hc, Nat.not_le.mpr c]
      simp only [State.applyCrit, hc, key, State.cmdAt]
      simp [acceptCounter_svc, State.takeSlot, State.setCmd, sget_sput, cmdOf, hc, samplesFor_svc]
  · apply pick_one
    · cases hc : p.crit <;>
        simp [State.takeSlot, State.setCmd, empty, tag, cmdOf, hc, acceptCounter_svc, sput, sins, samplesFor_svc]
    · cases hc : p.crit <;> simp [State.takeSlot, State.setCmd, drain, acceptCounter_svc]
    · simp [cmdOf, tag]
    · simp [cmdOf, fence]
    · rfl

/-- A packet with the payload `ws` starts its command in `s`, and the two meet a condition. -/
def Fits (s : State) (opc : Nat) (crit : Bool) (ws : List Nat) (also : State → Cmd → Bool) (page : Fin 64 := 0) : Prop :=
  ∃ p c u, Starts s opc p c u ∧ also u c = true ∧ p = pk opc crit ws page

/-- A start of a command: the state, the packet's opcode, criticality, payload and page, and what is to hold as well. -/
structure Case where
  s : State
  opc : Nat
  crit : Bool
  ws : List Nat
  also : State → Cmd → Bool
  page : Fin 64

/-- A case on page 0, or on another page. -/
def on (s : State) (opc : Nat) (crit : Bool) (ws : List Nat) (also : State → Cmd → Bool) (page : Fin 64 := 0) : Case :=
  ⟨s, opc, crit, ws, also, page⟩

/-- Each command of a list of cases starts, and what is to hold does. -/
def AllFit (l : List Case) : Prop := ∀ x ∈ l, Fits x.s x.opc x.crit x.ws x.also x.page

theorem all_fit {l : List Case}
    (h : (l.all fun x => startB x.s x.opc (pk x.opc x.crit x.ws x.page) &&
      x.also (begun x.s x.opc (pk x.opc x.crit x.ws x.page)) (cmdOf x.s x.opc (pk x.opc x.crit x.ws x.page))) = true) :
    AllFit l := by
  intro x hx
  have hb := List.all_eq_true.mp h x hx
  rw [Bool.and_eq_true] at hb
  exact ⟨_, _, _, starts_of hb.1 fun _ => sealed_verifies _ _, hb.2, rfl⟩

/-- A command that waits in slot 1. -/
def waiting1 : Cmd := ⟨{ pk 0x0101 false [] with tag := 1 }, 0x0101, .waiting, 0, none, false, 0, [], 0, []⟩

theorem replay {s : State} {opc : Nat} {p : HostPkt} {key : List Nat}
    (h : (!s.rdb EDW_STAT_ERROR && !isRecover opc p && !s.rdb EDW_PG_STAT_LOCKED p.page &&
      decide (s.commandKey p.page = some key) && decide (p.counter.toNat ≤ s.lastCounter p.page)) = true)
    (hv : pktVerifies p opc key = true) : s.critCheck opc p = .fails eReplay := by
  simp only [Bool.and_eq_true, Bool.not_eq_true', decide_eq_true_eq] at h
  obtain ⟨⟨⟨⟨e, r⟩, l⟩, k⟩, c⟩ := h
  simp [State.critCheck, e, r, l, k, hv, c]

/-- Queue 0 holds a command that waits in slot 1, first. -/
def hostBusy : State := { hostS 1 with svc := { (hostS 1).svc with slots := [(1, some waiting1)], seq := 1 } }

/-- A packet passes the checks of intake and waits behind `hostBusy`'s command. -/
def waitsB (opc : Nat) (p : HostPkt) (also : State → Cmd → Bool) : Bool :=
  let u := hostBusy.takeSlot opc p
  (u.earlyCheck opc p).isNone && !p.crit && (u.lateCheck opc p).isNone && (u.pick.all fun d => decide (d.tag ≠ p.tag.val)) &&
    (u.cmdAt p.tag).any (also u)

theorem witness_CommandIntake :
    (let p := pk 0x0101 false []
     let s := (hostS 1).wr SVC_STAT_INTAKE 0
     commandOf (.svcNop p) = some (0x0101, p, none) ∧ s.svcLive = true ∧ s.rd SVC_STAT_LINK = 4 ∧ s.intakeOpen p.boot = false ∧
       (s.wr SVC_STAT_LINK 7).rd SVC_STAT_LINK = 7 ∧ (s.wr SVC_STAT_LINK 7).intakeOpen p.boot = false) ∧
    (let s := { hostS 1 with svc := { (hostS 1).svc with slots := [(0, some waiting1)] } }
     s.svcLive = true ∧ s.rd SVC_STAT_LINK = 4 ∧ s.intakeOpen false = true ∧ s.cmdAt 0 = some waiting1) ∧
    (∀ opc ∈ [0x0101, 0x0401], let p := pk opc false [5]
     ((hostS 1).takeSlot opc p).earlyCheck opc p ≠ none ∧ (hostS 1).cmdAt p.tag = none) ∧
    (let p := pk 0x0703 true []
     let u := { hostS 1 with edw := {} }.takeSlot 0x0703 p
     u.earlyCheck 0x0703 p = none ∧ p.crit = true ∧ u.critCheck 0x0703 p = .fails eAuth) ∧
    (let p := pk 0x0703 true []
     let u := ((hostS 1).wr EDW_PG_CTR_B 1).takeSlot 0x0703 p
     u.earlyCheck 0x0703 p = none ∧ p.crit = true ∧ u.critCheck 0x0703 p = .fails eReplay) ∧
    (let p := { pk 0x0C01 false [0, 0, 0, 0] with page := 1 }
     let u := (hostS 1).takeSlot 0x0C01 p
     u.earlyCheck 0x0C01 p = none ∧ u.lateCheck 0x0C01 p = some ePage ∧ p.crit = false ∧
       u.cmdAt p.tag = some ⟨p, 0x0C01, .waiting, 0, none, false, 0, [], 0, []⟩) ∧
    (waitsB 0x0101 (pk 0x0101 false []) (fun u d => !(State.perform none d (u.markStarted d)).failed 0 fun st => !u.instanceHeld d || eFixed st) = true ∧
      waitsB 0x0201 (pk 0x0201 false [0, 0]) (fun _ d => decide (d.reachCheck false = some (eRange, 0))) = true ∧
      waitsB 0x0201 (pk 0x0201 false [0, 1]) (fun _ d => (d.reachCheck false).isNone) = true) ∧
    AllFit [on (hostS 1) 0x0101 false [] fun _ _ => true] ∧
    (let p := pk 0x7777 false []
     findSpec cmdTable 0x7777 = none ∧ (hostS 1).cmdAt p.tag = none ∧ ((hostS 1).rd SVC_CTL_QEN).testBit (p.tag.val / 64) = true ∧
       (hostS 1).rdb SVC_QCFG_SHARED 0 (p.tag.val / 64) = true ∧ p.rsvd = 0 ∧ p.psn = false) ∧
    hostBusy.svcLive = true ∧ hostBusy.pick.isSome = true := by
  refine ⟨by decide +kernel, by decide +kernel, by decide +kernel, by decide +kernel, ?_⟩
  refine ⟨⟨by decide +kernel, rfl, replay (key := key0) (by decide +kernel) (sealed_verifies _ _)⟩, ?_⟩
  exact ⟨by decide +kernel, by decide +kernel, all_fit (by decide +kernel), by decide +kernel⟩

/-- Whether no payload word has a bit that its mask leaves out. -/
def cleanB (c : Cmd) (masks : List Nat) : Bool := (reservedAt c.pkt.words masks 0).isNone

/-- Slot 7 keeps a completion of a page. -/
def kept7 (page : Nat) : State :=
  { hostS 1 with svc := { (hostS 1).svc with kept := [(7, some ⟨7, false, page, 0x0101, 0, 0, ⟨0, false⟩, [], none, false⟩)] } }

theorem witness_ServiceAndTimeCommandsComplete :
    AllFit [
      on (hostS 1) 0x0101 false [] fun _ _ => true,
      on (kept7 0) 0x0102 false [7, 0]
        fun u c => cleanB c [mask 8 0, 0] && (sget (fun _ => none) u.svc.kept 7).any (·.page = c.page) && (u.cmdAt 7).isNone,
      on (kept7 3) 0x0102 false [7, 0]
        fun u c => cleanB c [mask 8 0, 0] && (sget (fun _ => none) u.svc.kept 7).any (·.page ≠ c.page) && (u.cmdAt 7).isNone,
      on (hostS 1) 0x0102 false [511, 0] fun u c => cleanB c [mask 8 0, 0] && (sget (fun _ => none) u.svc.kept 511).isNone,
      on (hostS 5) 0x0103 true [3, 10000]
        fun _ c => cleanB c [mask 1 0, mask 13 0] && (c.w 0).bits 1 0 ≠ 0 && !c.pkt.boot && (c.w 1).bits 13 0 = 10000,
      on (hostS 1) 0x0701 true [8, 0, 0, 0] fun _ c => reservedAt c.pkt.words [mask 2 0] 0 = some 0,
      on ((hostS 1).wr TIME_STAT_STATE stLocked |>.wr TIME_STAT_JUMP 1) 0x0701 true [0, 0, 0, 0]
        fun u c => cleanB c [mask 2 0] && u.rd TIME_STAT_STATE = stLocked && u.rdb TIME_STAT_JUMP && (c.w 0).bits 2 0 = 0 &&
          decide (0 ≤ u.time.offset + u.time.jumpMean),
      on ((hostS 1).wr TIME_STAT_STATE stHoldover) 0x0701 true [1, 0, 0, 0]
        fun u c => cleanB c [mask 2 0] && u.rd TIME_STAT_STATE = stHoldover && (c.w 0).bits 2 0 = 1 &&
          (ntOfWords (c.w 1).toNat (c.w 2).toNat (c.w 3).toNat).any (0 ≤ ·),
      on ((hostS 1).wr TIME_STAT_STATE stAcquire) 0x0701 true [1, 0, 0, 0]
        fun u c => cleanB c [mask 2 0] && u.rd TIME_STAT_STATE = stAcquire && (c.w 0).bits 2 0 = 1 &&
          (ntOfWords (c.w 1).toNat (c.w 2).toNat (c.w 3).toNat).isSome,
      on (hostS 1) 0x0702 true [1, 2 ^ 24] fun _ c => cleanB c [mask 35 0, mask 35 24],
      on (hostS 1) 0x0703 false [] fun _ _ => true,
      on ((hostS 1).wr TIME_STAT_STATE stLocked |>.wr RTC_CTL_SYNC 1) 0x0801 true [1, 0]
        fun u c => cleanB c [mask 35 0, mask 35 24] && u.rd TIME_STAT_STATE = stLocked && u.rdb RTC_CTL_SYNC,
      on (hostS 1) 0x0801 true [1, 0]
        fun u c => cleanB c [mask 35 0, mask 35 24] && u.rd TIME_STAT_STATE ≠ stLocked &&
          decide (u.calendar + 32768 < c.seconds * 32768)] :=
  all_fit (by decide +kernel)

/-- A run of reads from the command's address, its slot being as before. -/
def readsB (reach : Nat → Bool) (all : Bool) (u : State) (c : Cmd) : Bool :=
  cleanB c [mask 29 0, mask 11 0] && decide (1 ≤ (c.w 1).bits 11 0) && decide ((c.w 1).bits 11 0 ≤ 2046) && c.got.isEmpty &&
    match State.readRun reach c.tag ((c.w 1).bits 11 0) ((c.w 0).bits 29 0) [] u with
    | .ok r => r.2.1 == all
    | .error _ => false

/-- A run of writes. -/
def writesB (reach : Nat → Bool) (bursts : Option (List Burst)) (st : Nat) (u : State) (c : Cmd) : Bool :=
  cleanB c [mask 33 0, mask 11 0] && decide (1 ≤ (c.w 1).bits 11 0) && decide ((c.w 1).bits 11 0 ≤ 2046) && c.put = 0 &&
    match State.writeRun reach c.tag ((c.w 0).bits 33 30) bursts ((c.pkt.words.drop 2).take ((c.w 1).bits 11 0)) ((c.w 0).bits 29 0) 0 u with
    | .ok r => r.2.1 = st && decide (r.2.2.cmdAt c.tag = u.cmdAt c.tag)
    | .error _ => false

/-- `EVT.CFG` of a code. -/
def evtCfg (op : Nat) (ws : List Nat) : List Nat := (op * 2 ^ 33 + ws.headD 0) :: ws.tail

/-- One word of memory that a read, or a write, reaches and that waits for nothing. -/
def oneWordB (write : Bool) (a : Nat) (u : State) (c : Cmd) : Bool :=
  cleanB c [if write then mask 33 0 else mask 29 0, mask 11 0] && c.got.isEmpty && c.put = 0 && (c.w 1).bits 11 0 = 1 && (c.w 0).bits 29 0 = a &&
    (if write then stagingReach a else memReach a) && decide (3 ≤ c.pkt.words.length ∨ write = false) &&
    match u.resolve extMaster ((c.w 0).bits 29 0) write with
    | .ok (.mem g) => !u.linkWaits c.tag (.mem g)
    | _ => false

theorem witness_AccessAndObservationCommandsComplete :
    AllFit [
      on (hostS 1) 0x0201 false [0o404000014, 1] (readsB (regReach 0) true),
      on (hostS 1) 0x0301 false [0o77777777, 1] (readsB memReach false),
      on { hostS 1 with zeroing := [(memInstance 0o160000000).getD 0] } 0x0301 false [0o160000000, 1] fun u c =>
        cleanB c [mask 29 0, mask 11 0] && c.got.isEmpty &&
          match State.readRun memReach c.tag ((c.w 1).bits 11 0) ((c.w 0).bits 29 0) [] u with
          | .ok _ => false
          | .error x => decide (x.2.2.cmdAt c.tag = u.cmdAt c.tag),
      on (hostS 1) 0x0202 true [15 * 2 ^ 30 + 0o404000014, 1, 0] (writesB (regReach 0) (some []) eReserved),
      on (hostS 1) 0x0302 false [15 * 2 ^ 30 + 0o160000000, 1, 5] (writesB stagingReach none eOk),
      on (hostS 1) 0x0301 false [0o160000000, 1] (oneWordB false 0o160000000),
      on (hostS 1) 0x0302 false [15 * 2 ^ 30 + 0o177777777, 1, 5] (oneWordB true 0o177777777),
      on (hostS 1) 0x0E01 false [2 ^ 20 - 2, 2] fun u c => cleanB c [mask 19 0, mask 8 0] && (c.w 1).bits 8 0 = 2 &&
        (List.range 2).all fun i => u.cntOwn c.page ((c.w 0).bits 19 0 + i),
      on (hostS 1) 0x0E01 false [0, 2] (fun u c => cleanB c [mask 19 0, mask 8 0] && !u.cntOwn c.page 0) 1,
      on (hostS 1) 0x0E02 true (evtCfg 0 [TIME_HOLDOVER.num, 5, 0]) fun _ c => (c.w 0).bits 35 33 = 0 &&
        cleanB c [mask 35 33 + mask 11 0, mask 2 0, 0] && (codeOf ((c.w 0).bits 11 0)).any (·.kind = .event) && (c.w 1).bits 1 0 = 1,
      on (hostS 1) 0x0E02 true (evtCfg 0 [EDW_TAMPER.num, 4, 0]) fun _ c => (c.w 0).bits 35 33 = 0 &&
        cleanB c [mask 35 33 + mask 11 0, mask 2 0, 0] && (codeOf ((c.w 0).bits 11 0)).any (·.kind = .priority0) &&
        (c.w 1).bits 1 0 = 0 && (c.w 1).bit 2,
      on (hostS 1) 0x0E02 true (evtCfg 1 [0, 65535, 0]) fun _ c => (c.w 0).bits 35 33 = 1 &&
        cleanB c [mask 35 33, mask 15 0, 0] && (c.w 1).bits 15 0 ≠ 0,
      on (hostS 1) 0x0E02 true (evtCfg 2 [15, 2 ^ 35 + 16, 8 * 2 ^ 20]) fun _ c => (c.w 0).bits 35 33 = 2 &&
        cleanB c [mask 35 33 + mask 3 0, mask 35 2, mask 35 20] && tlmOk (c.w 1) (c.w 2),
      on (hostS 1) 0x0E02 true (evtCfg 3 [TIME_HOLDOVER.num, 0, 0]) fun _ c => (c.w 0).bits 35 33 = 3 &&
        cleanB c [mask 35 33 + mask 11 0, 0, 0] && (codeOf ((c.w 0).bits 11 0)).isSome] :=
  all_fit (by decide +kernel)

/-- A public key of 96 octets whose private key is 5. -/
def key5 : List Nat := match ecMul 5 g384 with
  | some q => natToOctets 48 q.1 ++ natToOctets 48 q.2
  | none => []

/-- Octets four to a word, one in each lane. -/
def laned (l : List Nat) : List Nat := (chunks 4 24 l).map fun c => c.foldl (fun a x => a * 512 + x) 0

/-- The first 16 header words of an image of kind T whose two body words are 0, and the signed image. -/
def head16 : List Nat := [imgMagic.toNat, 2 ^ 27, 1, 0, 2, 0, 1] ++ List.replicate 9 0
def image5 : List Nat :=
  let rs := ecdsaSign 5 (octetsToNat (sha384 (packWords ((head16 ++ [0, 0]).map word)))) 7
  head16 ++ laned (natToOctets 48 rs.1 ++ natToOctets 48 rs.2) ++ List.replicate 8 0

/-- The signed image lies in staging, its operator key is installed, and core 0 is in a state. -/
def imgS (st : Nat) (c : CoreSt := {}) : State :=
  let s := ((hostS 1).wr PWR_DOM_STATE 2 0 0).wr CORE_STAT_STATE st 0
  { s with
    mem := (image5.zipIdx.filter fun e => e.1 ≠ 0).map fun e => (stageLo + e.2, cleanStored (word e.1))
    cores := [(0, c)]
    edw := { s.edw with keys := (0, some cmdKey) :: [(1, some ⟨some ⟨key5, 0, 0, 0, false, false, 0, []⟩, none, false, none, 15, 0⟩)] } }

/-- A command with a payload waits in slot 0, and the key engine is in error. -/
def waitingErr (opc : Nat) (ws : List Nat) : State :=
  let s := (imgS cEmpty).wr EDW_STAT_ERROR 1
  { s with svc := { s.svc with slots := [(0, some ⟨pk opc true ws, opc, .waiting, 0, none, false, 0, [], 0, []⟩)] } }

/-- What the CORE.LOAD clauses ask of the targets. -/
def loadB (u : State) (c : Cmd) : Bool :=
  cleanB c [mask 2 0, mask 29 0, coreRangeMask] && coreRangeOk (c.w 2) && (c.w 0).bits 2 0 = 2 && decide (stageLo ≤ (c.w 1).toNat) &&
    decide ((c.w 1).toNat < stageHi) && !u.rdb EDW_STAT_ERROR && (coreRange (c.w 2)).all fun n => u.coreState n = cEmpty

theorem witness_CoreAndImageCommandsComplete :
    AllFit ([
      on (imgS cEmpty) 0x0401 true [2, stageLo, 0] fun u c => loadB u c &&
        ((u.stagedImage (c.w 1).toNat).2.judgeImage (u.stagedImage (c.w 1).toNat).1 [0] false).isNone,
      on (imgS cEmpty) 0x0401 true [2, stageHi - 1, 0] fun u c => loadB u c &&
        (u.stagedImage (c.w 1).toNat).2.judgeImage (u.stagedImage (c.w 1).toNat).1 [0] false = some (eFormat, 0),
      on (imgS cEmpty) 0x0401 true [1, 0, 0] fun u c => cleanB c [mask 2 0, mask 29 0, coreRangeMask] && coreRangeOk (c.w 2) &&
        decide ((c.w 0).bits 2 0 < 2) && c.w 1 = 0 && !u.rdb EDW_STAT_ERROR &&
        (u.judgeImage (u.slotImage ((c.w 0).bits 2 0) (coreKind 0)) [0] false).isSome,
      on (imgS cRunning) 0x0401 true [2, stageLo, 0] fun u c => cleanB c [mask 2 0, mask 29 0, coreRangeMask] &&
        (c.w 0).bits 2 0 = 2 && decide (stageLo ≤ (c.w 1).toNat) && coreRangeOk (c.w 2) && coreRange (c.w 2) = [0] && !u.loadable 0 &&
        !u.rdb EDW_STAT_ERROR,
      on (imgS cRunning) 0x0402 true [0, 0, 0] fun u c => cleanB c [coreRangeMask] && coreRangeOk (c.w 0) &&
        lpOk (c.w 2).toNat && (coreRange (c.w 0)).all fun k => u.coreState k = cRunning,
      on (imgS cRunning) 0x0403 true [76] fun u c => cleanB c [coreRangeMask] && coreRangeOk (c.w 0) && u.coreState 0 = cRunning &&
        (u.core 0).wait.isNone,
      on { imgS cRunning with img := { (imgS cRunning).img with store := some ⟨0, ⟨[], []⟩, false, 9⟩ } } 0x0501 true [stageLo, 0]
        fun u c => cleanB c [mask 29 0, 1] && (c.w 0).toNat = stageLo && u.img.store.isSome,
      on (imgS cRunning) 0x0501 true [stageLo, 1] fun u c => cleanB c [mask 29 0, 1] && (c.w 0).toNat = stageLo && u.img.store.isNone &&
        !u.rdb EDW_STAT_ERROR &&
        let x := u.stagedImage (c.w 0).toNat
        x.1.header.length = 48 && (x.2.judgeImage x.1 [] ((c.w 1).bit 0)).isNone && (x.2.judgeSignature x.1).isNone,
      on (imgS cRunning) 0x0501 true [stageHi - 1, 0] fun u c => cleanB c [mask 29 0, 1] && u.img.store.isNone && !u.rdb EDW_STAT_ERROR &&
        let x := u.stagedImage (c.w 0).toNat
        (x.2.judgeImage x.1 [] ((c.w 1).bit 0)).isSome] ++
      [cLoaded, cHalted].map fun st => on (imgS st) 0x0402 true [0, 1, 0] fun u c => cleanB c [coreRangeMask] &&
        coreRangeOk (c.w 0) && lpOk (c.w 2).toNat && decide (u.now ≤ lpTicks (c.w 1).toNat (c.w 2).toNat) &&
        (coreRange (c.w 0)).all fun k => u.coreState k = st) :=
  all_fit (by decide +kernel)

/-- The command that goes first there, with its words in range. -/
def errB (opc : Nat) (ws masks : List Nat) : Bool :=
  let s := waitingErr opc ws
  s.svcLive && s.rdb EDW_STAT_ERROR && s.img.store.isNone &&
    s.pick.any fun c => decide (c.opcode = opc) && cleanB c masks

theorem witness_CoreAndImageCommandsComplete_error :
    (errB 0x0401 [2, stageLo, 0] [mask 2 0, mask 29 0, coreRangeMask] = true ∧ coreRangeOk 0 = true) ∧
    errB 0x0501 [stageLo, 0] [mask 29 0, 1] = true := by
  decide +kernel

/-- What the PWR.DOMAIN clauses share: OP and domain. -/
def domB (op d : Nat) (c : Cmd) : Bool :=
  cleanB c [mask 35 34 + mask 6 0, 0] && (c.w 0).bits 6 0 = d && (c.w 0).bits 35 34 = op

/-- What the PWR.MODE clauses share: from a mode to a mode. -/
def modeB (old new : Nat) (u : State) (c : Cmd) : Bool :=
  cleanB c [mask 2 0, 0] && !u.rdb PWR_STAT_SHORT && (c.w 0).bits 2 0 = new && u.mode = old && u.pwr.shedOrder.isEmpty

theorem witness_PowerCommandsComplete :
    AllFit (([(3, 3), (modeHousekeeping, modeMaintenance), (modeProvision, modeMaintenance), (modeProvision, modeService),
        (modeService, modeProvision), (modeConstrained, modeProvision), (modeHousekeeping, modeProvision),
        (modeMaintenance, modeProvision)].map fun x => on (hostS x.1) 0x0601 true [x.2, 0] (modeB x.1 x.2)) ++
      ([0, 1, 2].map fun op => on (hostS 2) 0x0602 true [op * 2 ^ 34 + 77, 0] fun _ c => domB op 77 c) ++
      ([1, 2].map fun op => on (hostS 2) 0x0602 true [op * 2 ^ 34 + 63, 0] fun u c => domB op 63 c && u.dom 71 = domOff) ++ [
      on (hostS 2) 0x0602 true [76, 0] fun u c => domB 0 76 c && !u.rdb PWR_DOM_SHED 0 76,
      on ((hostS 2).wr PWR_DOM_STATE 2 0 64) 0x0602 true [2 ^ 34 + 64, 0] fun u c => domB 1 64 c && !u.rdb PWR_STAT_SHORT &&
        u.dom 64 = domOnSt && u.pwr.modeCmd.isNone && !u.rdb PWR_DOM_SHED 0 64,
      on ((hostS 2).wr PWR_LOAD_BUDGET 1000) 0x0602 true [2 ^ 34 + 76, 0] fun u c => domB 1 76 c && !u.rdb PWR_STAT_SHORT && u.dom 76 ≠ domOnSt &&
        u.estWithin 76 u.headroom && !u.rdb PWR_DOM_SHED 0 76,
      on ((hostS 2).wr PWR_DOM_EST 200 0 76) 0x0602 true [2 ^ 34 + 76, 0] fun u c => domB 1 76 c && !u.rdb PWR_STAT_SHORT &&
        u.dom 76 ≠ domOnSt && !u.estWithin 76 u.headroom,
      on (hostS 2) 0x0602 true [2 * 2 ^ 34 + 72, 0] fun u c => domB 2 72 c && u.dom 72 ≠ domOnSt,
      on ((hostS 2).wr PWR_DOM_STATE 2 0 76) 0x0602 true [2 * 2 ^ 34 + 76, 0] fun u c => domB 2 76 c && u.dom 76 = domOnSt &&
        !u.ramping 76,
      on (((hostS 2).wr PWR_DOM_STATE 2 0 72).wr LINE_TX_STAT_STATE txLit 0) 0x0602 true [2 * 2 ^ 34 + 72, 0] fun u c =>
        domB 2 72 c && u.dom 72 = domOnSt && (u.lineShutdown 0).ramping 72,
      on (hostS 2) 0x0603 true [0o162145163164, 0] fun _ c => cleanB c [mask 35 0, 0] && c.w 0 = 0o162145163164,
      on (hostS 2) 0x0603 true [0, 0] fun _ c => cleanB c [mask 35 0, 0] && c.w 0 ≠ 0o162145163164,
      on (hostS 1) 0x0604 false [] fun _ _ => true]) :=
  all_fit (by decide +kernel)

/-- The name word of a slot of a page. -/
def nameWord (page slot : Nat) : Nat := page * 2 ^ 30 + slot * 2 ^ 22

/-- What the KEY.ERASE clauses share. -/
def eraseB (u : State) (c : Cmd) : Bool :=
  let n := keyName (c.w 0)
  n.ok && n.use = 0 && !n.recover && !n.switch && c.w 1 = 0 && (u.keyState n).isNone

theorem witness_KeyCommandsComplete :
    AllFit [
      on (hostS 2) 0x0901 true (nameWord 0 3 :: List.replicate 39 0) fun _ c => c.loadFault (keyName (c.w 0)) = some 0,
      on (hostS 2) 0x0901 true ([nameWord 0 1, 0, 0, 1] ++ laned (natToOctets 48 g384.1 ++ natToOctets 48 g384.2) ++ List.replicate 24 0)
        fun u c => (c.loadFault (keyName (c.w 0))).isNone && classOf (keyName (c.w 0)).page (keyName (c.w 0)).slot = some .img &&
          match u.judgeLoad c (keyName (c.w 0)) .img with | .ok _ => true | _ => false,
      on (hostS 2) 0x0901 true ([nameWord 0 128, 0, 0, 0] ++ laned (natToOctets 48 g384.1 ++ natToOctets 48 g384.2) ++ List.replicate 12 0)
        fun u c => (c.loadFault (keyName (c.w 0))).isNone && classOf (keyName (c.w 0)).page (keyName (c.w 0)).slot = some .egcm &&
          match u.judgeLoad c (keyName (c.w 0)) .egcm with | .error (st, _) => st = eKey | _ => false,
      on (hostS 2) 0x0902 true [nameWord 0 1, 0] fun u c => eraseB u c && (keyName (c.w 0)).page = 0 && (keyName (c.w 0)).slot = 1,
      on (hostS 2) 0x0902 true [nameWord 0 16, 0] fun u c => eraseB u c && (keyName (c.w 0)).slot = 16 &&
        ((u.keyOf (keyName (c.w 0)).ref).bind fun k => k.gen (keyName (c.w 0)).gen).isNone,
      on (hostS 2) 0x0902 true [nameWord 1 0, 0] fun u c => eraseB u c && (keyName (c.w 0)).page = 1 &&
        ((u.keyOf (keyName (c.w 0)).ref).bind fun k => k.gen (keyName (c.w 0)).gen).isSome,
      on (hostS 2) 0x0903 true [1, 0o172145162157] fun _ c => cleanB c [1, mask 35 0] && c.w 1 = 0o172145162157,
      on (hostS 2) 0x0904 false [0, 1, 2] fun _ c => (c.w 0).bits 1 0 = 0 && cleanB c [mask 1 0, mask 31 0, mask 31 0],
      on (hostS 2) 0x0904 false [1, nameWord 0 0, 0] fun _ c => (c.w 0).bits 1 0 = 1 && cleanB c [mask 1 0] &&
        let n := keyName (c.w 1)
        n.ok && n.use = 0 && !n.recover && !n.switch && !n.gen && c.w 2 = 0 && c.page = 0,
      on (hostS 2) 0x0904 false [1, nameWord 1 0, 0] (fun u c => (c.w 0).bits 1 0 = 1 && cleanB c [mask 1 0] &&
        (keyName (c.w 1)).ok && (keyName (c.w 1)).page = 1 && c.w 2 = 0 && c.page = 1 && !u.foreignTerm (keyName (c.w 1))) 1,
      on (hostS 2) 0x0904 false [1, nameWord 1 2, 0] (fun u c => (c.w 0).bits 1 0 = 1 && cleanB c [mask 1 0] &&
        (keyName (c.w 1)).ok && (keyName (c.w 1)).page = 1 && c.w 2 = 0 && c.page = 1 && u.foreignTerm (keyName (c.w 1))) 1,
      on (hostS 2) 0x0904 false [1, nameWord 3 0, 0] (fun _ c => (c.w 0).bits 1 0 = 1 && cleanB c [mask 1 0] &&
        (keyName (c.w 1)).ok && (keyName (c.w 1)).page = 3 && c.w 2 = 0 && c.page = 1) 1] :=
  all_fit (by decide +kernel)

/-- Host commands to a line whose transmitter and receiver are in given states. -/
def hostLine (tx rx : Nat) (l : LineSt := {}) (f w : Nat := 0) : State :=
  let s := ((hostS 3).wr PWR_DOM_STATE 2 0 72 |>.wr LINE_TX_STAT_STATE tx 0).wr LINE_RX_STAT_STATE rx 0
  { (s.wr LINE_TX_CTL_FREQ f 0).wr LINE_TX_CTL_POWER w 0 with lines := [(0, l)] }

/-- What the LINE.ENABLE clauses share. -/
def lineEnB (on : Bool) (c : Cmd) : Bool :=
  cleanB c [mask 35 33 + 3, mask 35 17] && lpOk (c.w 3).toNat && (c.w 0).bit 33 == on && c.ln = 0

/-- The frequency and power of LINE.ENABLE are in range. -/
def freqB (c : Cmd) : Bool :=
  let f := signed 10 ((c.w 1).bits 35 26)
  let w := signed 9 ((c.w 1).bits 25 17)
  decide (-256 ≤ f) && decide (f ≤ 448) && decide (-120 ≤ w) && decide (w ≤ 30)

/-- An explicit table of one bit position in each of 24 channels at rate 4. -/
def flat : List Nat := [2 ^ 8 + 8, 0] ++ List.replicate 32 (2 * 2 ^ 32)

/-- A LIT line whose receiver is LOCKED with frame alignment. -/
def hostAligned (l : LineSt := {}) : State := (hostLine txLit rxLocked l).wr LINE_FR_STAT_FSTATE 3 0

/-- What the LINE.RATE clauses share, for a rate. -/
def rateB (rate : Nat) (u : State) (c : Cmd) : Bool :=
  cleanB c [mask 35 34 + mask 7 0, 0] && (c.w 0).bits 7 6 ≠ 3 && (c.w 0).bits 5 0 = rate && (u.line c.ln).load.isNone

theorem witness_LineCommandsComplete :
    AllFit ([
      on (hostLine txDark 0) 0x0A01 true [2 ^ 33, 449 * 2 ^ 26, 0, 0] fun _ c => lineEnB true c && !freqB c,
      on { hostLine txDark 0 with now := 5 } 0x0A01 true [2 ^ 33, 0, 0, 16] fun u c => lineEnB true c && freqB c &&
        u.txState c.ln = txDark && decide (lpTicks (c.w 2).toNat (c.w 3).toNat < u.now) && lpTicks (c.w 2).toNat (c.w 3).toNat ≠ 0,
      on (hostLine txDark 0) 0x0A01 true [2 ^ 33, 0, 0, 16] fun u c => lineEnB true c && freqB c && u.txState c.ln = txDark &&
        decide (u.now ≤ lpTicks (c.w 2).toNat (c.w 3).toNat),
      on (hostLine txLit 0 {} 0 0) 0x0A01 true [2 ^ 33, 0, 0, 0] fun u c => lineEnB true c && freqB c && u.txState c.ln = txLit &&
        u.rdi LINE_TX_CTL_FREQ c.ln = 0 && u.rdi LINE_TX_CTL_POWER c.ln = 0,
      on (hostLine txLit 0 {} 0 7) 0x0A01 true [2 ^ 33, 0, 0, 0] fun u c => lineEnB true c && freqB c && u.txState c.ln = txLit &&
        u.rdi LINE_TX_CTL_FREQ c.ln = 0 && u.rdi LINE_TX_CTL_POWER c.ln = 7,
      on (hostAligned { load := some ⟨3, 0, 4, none, .window⟩ }) 0x0A02 true [4, 0] fun u c =>
        cleanB c [mask 35 34 + mask 7 0, 0] && (c.w 0).bits 7 6 ≠ 3 && (c.w 0).bits 5 0 = 4 && (u.line c.ln).load.isSome,
      on (hostLine txLit rxLocked) 0x0A03 true [0, 0] fun u c => cleanB c [mask 35 34 + mask 9 8, 0] && (c.w 0).bits 9 8 = 0 &&
        (u.line c.ln).load.isNone && !u.rxAligned c.ln,
      on hostAligned 0x0A03 true [0, 0] fun u c => cleanB c [mask 35 34 + mask 9 8, 0] && (c.w 0).bits 9 8 = 0 &&
        (u.line c.ln).load.isNone && u.rxAligned c.ln,
      on (hostLine txLit rxLocked) 0x0A02 true [32, 0] fun u c => rateB 32 u c && !u.rxAligned c.ln,
      on hostAligned 0x0A02 true [32, 0] fun u c => rateB 32 u c && u.rxAligned c.ln,
      on hostAligned 0x0A03 true flat fun u c => (c.w 0).bits 9 8 = 1 &&
        cleanB c ([mask 35 34 + mask 9 0, 0] ++ List.replicate 32 (mask 35 26)) && (u.line c.ln).load.isNone && u.rxAligned c.ln &&
        (List.range 32).all (fun j => c.table.bs.getD j 0 ≠ 1 && decide (c.table.bs.getD j 0 ≤ 8)) && c.table.inner ≠ 3 &&
        decide (4 ≤ c.table.rate) && decide (c.table.rate ≤ 32) && rateFits c.table.rate c.table.inner c.table.bs.sum,
      on (hostLine txLit 0) 0x0A04 true ([2 ^ 33 + 2 ^ 31, 0] ++ List.replicate 16 0o141142143144 ++ List.replicate 16 0) fun _ c =>
        let lanes := mask 7 0 + mask 16 9 + mask 25 18 + mask 34 27
        cleanB c ([mask 35 30, 0] ++ List.replicate 16 (if (c.w 0).bit 33 then lanes else mask 35 0) ++
          List.replicate 16 (if (c.w 0).bit 32 then lanes else mask 35 0))] ++
      ([txOff, txLit].map fun st => on (hostLine st 0) 0x0A01 true [2 ^ 33, 448 * 2 ^ 26, 0, 0] fun u c => lineEnB true c && freqB c &&
        u.txState c.ln = st && u.rdi LINE_TX_CTL_FREQ 0 ≠ 448) ++
      [txDark, txOff, txRampUp, txLit, txRampDown, txShut, txCal].map fun st => on (hostLine st 0) 0x0A01 true [0, 0, 0, 0] fun u c =>
        lineEnB false c && u.txState c.ln = st) :=
  all_fit (by decide +kernel)

/-- Host commands to tree 0, whose T-core runs, with the downstream state of channel 0. -/
def hostTree (st : Nat) (t : TreeSt := {}) : State :=
  let s := (((hostS 3).wr PWR_DOM_STATE 2 0 0).wr CORE_STAT_STATE 4 0).wr CH_DS_STAT_STATE st 0
  { s with trees := [(0, t)] }

/-- Whether the start LP of a tree command is well formed and in time, with a lead in ms. -/
def startOk (c : Cmd) (ms : Nat) : Bool :=
  match treeStart c.at_ (c.w 1).toNat (c.w 2).toNat (ms * ticksMs) with
  | .ok _ => true
  | .error _ => false

/-- What the TREE.ENABLE clause asks. -/
def treeEnB (en : Bool) (st : Nat) (u : State) (c : Cmd) : Bool :=
  cleanB c [mask 35 21] && (c.w 0).bit 21 == en && startOk c 20 && (c.w 0).bits 29 22 = 1 && u.domOn 0 && u.dsState 0 = st

/-- The words of TREE.ACTIVATE for serial 9 of tree 0. -/
def actWords : List Nat := [2 ^ 20, 0, 9, 64 * 2 ^ 15 + 2000 * 8, 2 ^ 35, 2 ^ 35, 2 ^ 35]

/-- What its clauses share. -/
def actB (u : State) (c : Cmd) : Bool :=
  cleanB c ([mask 35 20, mask 31 0, mask 31 0] ++ List.replicate 4 (mask 35 3)) && u.imgRuns 0 && c.page = 0 &&
    (c.w 0).bits 23 20 % 2 = 1 && (c.w 1).bits 31 0 * 2 ^ 32 + (c.w 2).bits 31 0 = 9 &&
    (List.range 4).all fun j => decide (64 ≤ (c.w (3 + j)).bits 35 15) && decide ((c.w (3 + j)).bits 35 15 ≤ 1048576) &&
      decide ((c.w (3 + j)).bits 14 3 ≤ 2732)

/-- The answer of MON.INJECT's checks: its number and status, or none. -/
def injAt (u : State) (c : Cmd) : Option (Nat × Nat) :=
  match u.judgeInj (c.w 0).toNat (c.w 1).toNat (c.w 2).toNat (c.w 3).toNat (.cmd c.tag) u.now with
  | .ok _ => none
  | .error e => some e

/-- Monitor 3 is IDLE, with injections accepted. -/
def hostMon (inj : List Inj := []) : State :=
  { ((hostS 3).wr PWR_DOM_STATE 2 0 (monDomain 3)).wr MON_STAT_STATE mIdle 3 with mons := [(3, { inj := inj })] }

/-- An injection on channel 0 at an LP. -/
def injOn (lp : Nat) : Inj := ⟨0, 0, 0, lp, 0, .cmd 9, false⟩

/-- What the MON.SEQ clause asks. -/
def seqB (bits : Nat) (u : State) (c : Cmd) : Bool :=
  cleanB c [mask 35 4, 1] && (c.w 0).bits 35 31 = 3 && decide ((c.w 0).bits 23 4 ≤ 1000000) && u.monState 3 ≠ mOff &&
    (c.w 1).bits 0 0 = bits && (bits = 1 || (List.range 64).all fun i => seqEntryOk 3 (c.w (2 + i)))

/-- What the MON.INJECT clause asks: the answer of its checks. -/
def injB (e : Option (Nat × Nat)) (u : State) (c : Cmd) : Bool :=
  cleanB c [mask 26 8, mask 35 0, mask 35 0, mask 17 0] && injAt u c = e

theorem witness_AccessAndMonitorCommandsComplete :
    AllFit (([dsDark, dsWarm, dsLit].flatMap fun st => [
      on (hostTree st) 0x0B01 true [2 ^ 21 + 2 ^ 22, 0, 0] (treeEnB true st),
      on (hostTree st) 0x0B01 true [2 ^ 22, 0, 0] (treeEnB false st),
      on (hostTree st) 0x0B02 true [8 * 2 ^ 23, 0, 0] fun u c => cleanB c [mask 35 22] && decide ((c.w 0).bits 26 23 ≤ 8) &&
        startOk c 2 && u.dsState 0 = st]) ++ [
      on (hostTree dsLit) 0x0B03 true [2 ^ 22 + 2 ^ 14, 16] fun u c => cleanB c [mask 35 14, mask 12 0] &&
        (c.w 0).bits 21 14 ≠ 0 && decide (16 ≤ (c.w 1).bits 12 0) && u.imgRuns 0 && (c.w 0).bits 29 22 = 1 && u.dsState 0 = dsLit,
      on (hostTree dsLit) 0x0B04 true actWords fun u c => actB u c && (u.tree 0).found.isEmpty] ++
      ([[], [9]].map fun rogues => on (hostTree dsLit { found := [⟨9, 0, 0, 0, 100⟩], rogues := rogues }) 0x0B04 true actWords fun u c =>
        actB u c && ((u.tree 0).found.find? (fun e => e.serial = 9)).isSome && (u.tree 0).act.isNone && (u.tst 0).1 = tFree &&
        decide (u.fixedUnits 0 0 + ((List.range 4).map fun j => grantUnits (u.preU 0) ((c.w (3 + j)).bits 14 3)).sum ≤ 200000)) ++ [
      on (hostTree dsLit) 0x0B05 true [255 * 2 ^ 22, 0] fun u c => cleanB c [mask 35 22, 0] && u.imgRuns 0 && c.page = 0 &&
        (u.tst 255).1 = tFree,
      on ((hostTree dsLit).wr TREE_TST_STATE 2 0 0) 0x0B05 true [0, 0] fun u c => cleanB c [mask 35 22, 0] && u.imgRuns 0 &&
        c.page = 0 && (u.tst 0).1 ≠ tFree,
      on hostMon 0x0C01 false [3 * 2 ^ 22, 1, 0, 0] (injB none),
      on (hostMon (List.replicate 16 (injOn 1))) 0x0C01 false [3 * 2 ^ 22, 1, 0, 0] (injB (some (gFull, 5))),
      on (hostMon [injOn (lpTicks 1 0)]) 0x0C01 false [3 * 2 ^ 22, 1, 0, 0] (injB (some (gLate, 6)))] ++
      ([([18 * 2 ^ 22, 1, 0, 0], (gDesc, 2)), ([4 * 2 ^ 22, 1, 0, 0], (gAddr, 2)), ([3 * 2 ^ 22, 1, 0, 99], (gDesc, 3)),
        ([3 * 2 ^ 22, 0, 0, 0], (gLate, 4))].map fun x => on hostMon 0x0C01 false x.1 (injB (some x.2))) ++ [
      on hostMon 0x0C02 true ([3 * 2 ^ 31 + 2 ^ 30 + 63 * 2 ^ 24 + 1000000 * 16, 1] ++ List.replicate 64 (2 ^ 36 - 1)) (seqB 1),
      on hostMon 0x0C02 true ([3 * 2 ^ 31, 0] ++ List.replicate 64 0) (seqB 0),
      on hostMon 0x0D01 true [3 * 2 ^ 31 + 4 * 2 ^ 26, 0] fun u c => cleanB c [mask 35 26, 0] && (c.w 0).bits 30 26 = 4 &&
        u.monState 3 ≠ mOff && u.monState 4 = mOff,
      on hostMon 0x0D01 true [3 * 2 ^ 31 + 3 * 2 ^ 26, 0] fun u c => cleanB c [mask 35 26, 0] && (c.w 0).bits 30 26 = 3 &&
        u.monState 3 ≠ mOff]) :=
  all_fit (by decide +kernel)

/-- Host commands in SERVICE with terminal 0 of tree 0 assigned to a page. -/
def hostFwd (page : Nat) : State := ((hostS 3).wr TREE_TST_STATE 2 0 0).wr TREE_TST_PAGE page 0 0

/-- The record of FWD.BIND from terminal allocation 0 to an endpoint of kind 1, service 5, of a page; its POLICER word is 0. -/
def bindWords (page : Nat) : List Nat := [2 ^ 35 + page * 2 ^ 29, 0, 2 ^ 34, 0, 5, 0]

/-- What the FWD.BIND clauses share. -/
def bindB (u : State) (c : Cmd) : Bool :=
  let x := serviceOf ((c.w 4).bits 16 0) (c.w 0) (c.w 1) (c.w 2) (c.w 3)
  cleanB c [mask 35 19, mask 35 34 + mask 23 0, mask 35 34 + mask 23 0, mask 35 4, mask 16 0, mask 35 0] &&
    (bindReserved x ((c.w 0).bit 35) (c.w 5)).isNone && !bindRange x && decide (x.page = c.page) && x.aKind = 0 && x.bKind = 1 &&
    decide ((u.tst (x.aIndex / 4)).2.2.1 = x.page)

/-- Whether the record may be bound, or why not. -/
def bindSt (u : State) (c : Cmd) : Option Nat := u.bindState (serviceOf ((c.w 4).bits 16 0) (c.w 0) (c.w 1) (c.w 2) (c.w 3))

/-- What the QUE.SET clauses share: OP, set and index. -/
def queB (op : Nat) (masks : List Nat) (c : Cmd) : Bool := (c.w 0).bits 35 33 = op && cleanB c masks

/-- Service 5 is bound to page 0. -/
def hostBound : State := (hostFwd 0).setReg (svcAddr 5) (word (2 ^ 35))

theorem witness_ForwardingCommandsComplete :
    AllFit ([
      on (hostFwd 0) 0x0F01 true (bindWords 0) fun u c => bindB u c && (bindSt u c).isNone,
      on (hostFwd 1) 0x0F01 true (bindWords 1) (fun u c => bindB u c && (bindSt u c).isNone) 1,
      on hostBound 0x0F01 true (bindWords 0) fun u c => bindB u c && bindSt u c = some 1,
      on hostBound 0x0F02 true [5, 0] fun u c => cleanB c [mask 16 0, 0] && (u.reg (svcAddr 5)).bit 35 && c.page = 0,
      on (hostFwd 0) 0x0F02 true [5, 0] fun u c => cleanB c [mask 16 0, 0] && !(u.reg (svcAddr 5)).bit 35,
      on hostBound 0x0F02 true [5, 0] (fun u c => cleanB c [mask 16 0, 0] && (u.reg (svcAddr 5)).bit 35 && c.page = 1 &&
        (u.reg (svcAddr 5)).bits 34 29 = 0) 1,
      on (hostFwd 0) 0x0F03 true [131071, 16384 * 2 ^ 21, 0] fun _ c => queB 0 [mask 35 31 + mask 16 0, mask 35 0, 0] c &&
        queueOf ((c.w 0).bits 32 31) ((c.w 0).bits 16 0) = some 131071 && (c.w 1).bits 35 21 = 16384 && c.page = 0,
      on (hostFwd 0) 0x0F03 true [0, 2 ^ 21, 0] (fun u c => queB 0 [mask 35 31 + mask 16 0, mask 35 0, 0] c &&
        queueOf 0 0 = some 0 && (c.w 1).bits 35 21 = 1 && c.page = 1 && u.queuePage 0 = 0) 1,
      on (hostFwd 0) 0x0F03 true [2 ^ 33 + 2 ^ 34 + 130816, 256, 0] fun _ c => queB 3 [mask 35 31 + mask 16 0, mask 8 0, 0] c &&
        (c.w 1).bits 8 0 = 256 && (queueOf 0 130816).isSome && (queueOf 0 (130816 + 256 - 1)).isSome && c.page = 0 &&
        decide (c.taken = (hostFwd 0).samplesFor 0x0F03 c.pkt.words)] ++
      ([531, 532].map fun e => on (hostFwd 0) 0x0F03 true [2 ^ 33 + e * 2 ^ 21, 2 ^ 13, 2 ^ 18 + 8] fun _ c =>
        queB 1 [mask 35 33 + mask 30 15, mask 35 13, mask 35 3] c && (c.w 0).bits 30 21 = e && (c.w 1).bits 34 13 = 1 &&
        (c.w 2).bits 35 18 = 1 && (c.w 2).bits 17 3 = 1 && c.page = 0) ++
      [0, 1].map fun g => on (hostFwd 0) 0x0F03 true [2 ^ 34 + 63 * 2 ^ 15, 2 ^ 30 - 1, 0] (fun _ c =>
        queB 2 [mask 35 33 + mask 20 15, mask 29 0, 0] c && c.page = g) (Fin.ofNat 64 g)) :=
  all_fit (by decide +kernel)

/-! ### The worked grant map of spec/10 (R381) -/

/-- The demands and the DRR state of the worked example. -/
def exampleMembers : List DrrM :=
  [⟨37937, 32768, 1200, 7401, 120000, 0⟩, ⟨38117, 16384, 0, 7400, 9000, 0⟩, ⟨38689, 8192, 0, 7400, 5000, 0⟩,
    ⟨38690, 65536, 20000, 7400, 400000, 0⟩]

/-- The walk of the worked example: the units left, V, P, the order and the codewords of each allocation. -/
theorem test_map_walk :
    let x := mapWalk 128 32 224501 7401 38117 exampleMembers
    (x.v, x.p, x.order) = (7404, 38690, [38117, 38689, 38690, 37937]) ∧
      ((x.todo ++ x.done ++ x.gone).map fun m => (m.a, m.tot)) = [(38690, 1884), (37937, 731), (38689, 37), (38117, 67)] ∧
      (x.todo.map fun m => (m.d, m.stamp)) = [(25920, 7404)] ∧ (x.done.map fun m => (m.d, m.stamp)) = [(88, 7404)] := by
  decide +kernel

/-- START and LEN of the six entries of the worked example. -/
theorem test_map_layout :
    ((layGrants 32 0 ([(38692, 291), (38116, 144), (38117, grantUnits 128 67), (38689, grantUnits 128 37),
        (38690, grantUnits 128 1884), (37937, grantUnits 128 731)].map fun e => (⟨e.1, 0, true, false, 0, e.2⟩ : Grant))).map
      fun g => (g.start, g.len)) =
      [(0, 291), (323, 144), (499, 5658), (6189, 3189), (9410, 155171), (164613, 60296)] := by
  decide +kernel

/-! ### The codes of the optical signals -/

/-- The worked symbol of R216: in 32QAM, binary 10110 is (−3, +5); and the quadrant list of 32QAM. -/
theorem test_cross_symbol :
    constellation 5 0b10110 = (-3, 5) ∧ crossPoints 5 = [(1, 1), (1, 3), (3, 1), (1, 5), (3, 3), (5, 1), (3, 5), (5, 3)] ∧
      (crossPoints 7).length = 32 := by decide +kernel

/-- Gray levels of 16QAM: labels 0, 1, 3, 2 of an axis rise from −3 to +3 (R216). -/
theorem test_square_symbol : [0, 1, 3, 2].map (axisLevel 2) = [-3, -1, 1, 3] := by decide

/-- The component code's generator, of degree 30 (R272): the product of 2011, 2017 and 2415 in octal. -/
theorem test_bch_generator : bitsToNat (bchGenerator.map fun c => decide (c = 1)) = 0o12052210423 ∧
    bchGenerator.all (fun c => decide (c < 2)) = true := by decide +kernel

/-- One puncturing period of rate 4/5 with a single one at its head: X1 Y1 Y2 Y3 Y4 (R269, R270). -/
theorem test_puncture :
    innerEncode (innerMasks 0) 0 0 [true, false, false, false] = ([true, true, false, true, true], 8) := by decide

/-- A codeword of R322, its leading zeros left out: errors in three and in four octets are corrected, five are not. -/
theorem test_rs_corrects :
    let w := [0, 0, 1, 2, 3, 0xAB, 0xCD, 0xEF, 103, 229, 245, 185, 19, 57, 210, 191]
    let bad := ((w.set 0 7).set 5 0).set 14 1
    rsDecode w = some (w, 0) ∧ rsDecode bad = some (w, 3) ∧ rsDecode ((bad.set 1 9)) = some (w, 4) ∧
      rsDecode ((bad.set 1 9).set 2 9) = none := by decide +kernel

/-- A header with its CRC: ALLOC 38,690, REPORT 12,345, MSG 1 (R321). -/
theorem test_burst_header :
    hdrCrcOk 0x25c880c0e60335a = true ∧ hdrAlloc 0x25c880c0e60335a = 38690 ∧ hdrReport 0x25c880c0e60335a = 12345 ∧
      hdrMsg 0x25c880c0e60335a = true ∧ hdrCrcOk 0x25c880c0e60335b = false := by decide +kernel

/-- The end marker is the complement of the delimiter, which a shifted preamble meets in at most 19 chips (R320). -/
theorem test_delimiter : agreeing delimiterWord delimiterWord = 32 ∧ agreeing delimiterWord endMarkerWord = 0 := by decide

/-- A client frame of 12 + 4 octets gets both tags and its padding (R432). -/
theorem test_port_frame :
    (portFrame ⟨0, 16, 0, true, false, false, false, 5 * 4096 + 9, false⟩ 7 (List.range 16)).take 24 =
      [0, 1, 2, 3, 4, 5, 6, 7, 8, 9, 10, 11, 0x88, 0xA8, 0xE0, 5, 0x81, 0x00, 0xE0, 9, 12, 13, 14, 15] := by decide

/-- What `ScramblerUndoesItself` assumes of a slot and of a frame's areas. -/
theorem witness_ScramblerUndoesItself :
    (8 ≤ (List.range 9).length ∧ 8 * (List.range 9).length ≤ 80) ∧
      (List.replicate 2677 (0 : Nat)).length = 2677 ∧ (List.replicate 390625 (0 : Nat)).length = 390625 :=
  ⟨by decide, List.length_replicate, List.length_replicate⟩
/-! ### Events of the supply, the store, the links, the lines and the trees -/

/-- Mains hold, domains are ON, and the supply has some internal state. -/
def supply (on : List Nat) (p : PwrSt := {}) (now : Nat := 0) : State :=
  { on.foldl (fun (s : State) d => s.wr PWR_DOM_STATE 2 0 d) (up0.wr PWR_STAT_MAINS_OK 1) with pwr := p, now := now }

theorem witness_SupplyEventsComplete :
    (∀ vrms ∈ [749, 750], let s := supply []
     s.pwr.dying = none ∧ s.rdb PWR_STAT_MAINS_OK = true ∧ s.pwr.lowArmed = true ∧
       ({ s with pwr := { s.pwr with cycles := (s.pwr.cycles ++ [(s.now, vrms)]).filter fun c => s.now < c.1 + ticksSec } } : State).vLow =
         vrms) ∧
    (let s := (supply []).wr PWR_LOAD_BUDGET 1000
     s.pwr.shedWait = [] ∧ s.pwr.settle = none ∧ (0 : Int) ≤ s.rd PWR_LOAD_BUDGET - s.rd PWR_CTL_MARGIN - ((5 : Nat) : Int) ∧
       (s.rd PWR_LOAD_BUDGET - s.rd PWR_CTL_MARGIN - ((4095 : Nat) : Int) : Int) < 0 ∧ s.rdb PWR_STAT_ILIM = false) ∧
    (let s := (supply [] { settle := some 0 } (50 * ticksMs)).wr PWR_LOAD_BUDGET 1000
     s.up = true ∧ s.pwr.dying = none ∧ s.pwr.settle = some 0 ∧ 0 + 50 * ticksMs ≤ s.now ∧
       (0 : Int) ≤ (s.rd PWR_LOAD_BUDGET - s.rd PWR_CTL_MARGIN - ((0 : Nat) : Int) : Int)) ∧
    (∀ now ∈ [ticksMs - 1, ticksMs], let s := supply [72] { fast := some (1, 0) } now
     s.rdb PWR_STAT_MAINS_OK = true ∧ s.pwr.dying = none ∧ s.pwr.fast = some (1, 0) ∧ s.now = now ∧ s.shedList = [72]) ∧
    (∀ on ∈ [[], [72]], let s := supply on
     s.rdb PWR_STAT_MAINS_OK = true ∧ s.pwr.dying = none ∧ s.pwr.fast = none ∧ s.shedList = on) ∧
    (let s := supply [72] { tempShed := some 0 } (60 * ticksSec)
     s.up = true ∧ s.pwr.dying = none ∧ s.pwr.tempShed = some 0 ∧ 0 + 60 * ticksSec ≤ s.now ∧
       2 * (s.rd PWR_CTL_TMAX : Int) < 2000 ∧ s.shedList = 72 :: []) ∧
    (∀ hot ∈ [[], [72]], let s := (supply [] { shedOrder := [72], headSince := some 0, tempShedDoms := hot } (10 * ticksSec)).wr PWR_LOAD_BUDGET 1260
     s.up = true ∧ s.pwr.dying = none ∧ s.mayRestore = some 72 ∧ s.pwr.headSince = some 0 ∧ s.pwr.lastRestore = none ∧
       0 + 10 * ticksSec ≤ s.now ∧ s.pwr.tempShedDoms = hot) := by
  decide +kernel

/-- Command slot 0 runs a command. -/
def slot0 (stage : CmdStage) (opc : Nat := 0x0603) : List (Nat × Option Cmd) :=
  [(0, some ⟨pk opc true [], opc, stage, 0, none, true, 0, [], 0, []⟩)]

/-- The module drains, with command slot 0 running. -/
def draining (tag : Nat) (left : List Nat) (closed : Option Nat) (slots : List (Nat × Option Cmd) := slot0 .running) (now : Nat := 0) :
    State :=
  { supply [] with now := now, svc := { (supply []).svc with drain := some ⟨tag, 0, left, closed⟩, slots := slots } }

theorem witness_PowerStateEventsComplete :
    ((∀ d ∈ ([0, 78] : List (Fin 80)), (up0.wr PWR_DOM_STATE 1 0 d).dom d = domRising) ∧
    (let s := supply [76] { resetting := [(76, 5, 0)] } 5
     s.dom (76 : Fin 80) ≠ domRising ∧ (s.pwr.resetting.find? fun r => r.1 = 76) = some (76, 5, 0) ∧ 5 ≠ 0 ∧ 5 ≤ s.now) ∧
    (∀ tx ∈ [txShut, txDark], let s := (supply [72] { resetting := [(72, 0, 0)] }).wr LINE_TX_STAT_STATE tx 0
     s.dom (72 : Fin 80) ≠ domRising ∧ (s.pwr.resetting.find? fun r => r.1 = 72) = some (72, 0, 0) ∧
       s.ramping (72 : Fin 80) = decide (tx = txShut)) ∧
    (up0.wr PWR_DOM_STATE 3 0 79).dom (79 : Fin 80) = domFalling ∧
    (∀ d ∈ ([63, 72, 76] : List (Fin 80)), (d.val < 64 ∨ 72 ≤ d.val ∧ d.val < 77) ∧ (supply [d]).dom d = domOnSt ∧
      (supply [d]).up = true ∧ (supply [d]).pwr.dying = none) ∧
    (let s := supply [0, 64]
     s.dom (64 : Fin 80) ≠ domOff ∧ s.dom (64 : Fin 80) ≠ domFalling ∧ s.dom 0 = domOnSt ∧ s.up = true ∧ s.pwr.dying = none)) ∧
    ((supply []).up = true ∧ (supply []).rdb PWR_STAT_MAINS_OK = true ∧ (supply []).pwr.dying = none) ∧
    (let s := supply [] { dying := some 0 }; s.pwr.dying = some 0 ∧ s.linesRamp = false) ∧
    (∀ now ∈ [8 * ticksMs - 1, 8 * ticksMs], let s := (supply [72] { dying := some 0 } now).wr LINE_TX_STAT_STATE txShut 0
     s.pwr.dying = some 0 ∧ s.linesRamp = true ∧ s.now = now) ∧
    (let s := State.reset; s.rdb PWR_STAT_MAINS_OK = false ∧ s.pwr.dying = none ∧ s.up = false) ∧
    ((supply []).up = true ∧ (supply []).pwr.hrst = false) ∧
    (let s := supply [] { hrst := true }; s.up = true ∧ s.pwr.hrst = true) ∧
    (let s := ((supply [] {} (ticksSec / 10)).wr PWR_WDOG_CTL_EN 1).wr PWR_WDOG_CTL_T 1
     s.up = true ∧ s.pwr.dying = none ∧ s.rdb PWR_WDOG_CTL_EN = true ∧ s.pwr.wdogAt + s.rd PWR_WDOG_CTL_T * (ticksSec / 10) ≤ s.now) := by
  constructor <;> decide +kernel

/-- An instance fails its CAST before the power-up's tests have ended, after they have, and in the error state. -/
theorem witness_PowerStateEventsComplete_cast :
    up0.edw.tested = false ∧
      (let s : State := { up0 with edw := { up0.edw with tested := true } }
       s.edw.tested = true ∧ s.rdb EDW_STAT_ERROR = false) := by decide +kernel

theorem witness_PwrResetDrain :
    (let s := draining 0 [3] none
     s.up = true ∧ s.pwr.pendReset = none ∧ s.svc.drain = some ⟨0, 0, [3], none⟩ ∧ (s.cmds.all fun x => x.tag = 0) = true ∧
       s.cmdAt 3 = none ∧ (s.cmdAt 0).any (fun c => c.tag = 0 && c.stage ≠ .done && c.opcode = 0x0603) = true) ∧
    (∀ now ∈ [0, 100 * ticksMs], let s := draining 7 [0] none (slot0 .running) now
     (s.cmds.any fun x => x.tag ≠ 7 && x.stage = .running) = true ∧ s.now = now) ∧
    (let s := draining 7 [0] none (slot0 .done)
     (s.cmds.all fun x => x.stage ≠ .running) = true ∧
       (s.abortCommands (s.cmds.filter fun x => x.tag ≠ 7 && x.stage ≠ .done)).cmdAt 0 ≠ none) ∧
    (let s := draining 0 [] (some 0)
     s.svc.drain = some ⟨0, 0, [], some 0⟩ ∧ s.now < 0 + 100 * ticksMs ∧
       (s.cmdAt 0).any (fun c => c.tag = 0 && c.stage ≠ .done && c.opcode = 0x0603) = true) ∧
    (let s := draining 7 [] (some 0) []; s.svc.drain = some ⟨7, 0, [], some 0⟩ ∧ s.cmdAt 7 = none) := by
  decide +kernel

/-- Command slot 0 holds a running command, and Edelweiss some internal state. -/
def store (e : EdwSt) (now : Nat := 0) : State :=
  let s := supply [77]
  { s with edw := e, now := now, svc := { s.svc with slots := slot0 .running } }

/-- A load of slot 0 takes part in the state. -/
def loadS (l : KeyLoad) : State := store { loads := [l] }

/-- Whether slot 0's command runs. -/
def runs0 (s : State) : Bool := (s.cmdAt 0).any fun c => c.tag = 0 && c.stage ≠ .done

theorem witness_KeyAndTamperEventsComplete :
    (∀ l ∈ ([⟨0, 5, 0, false, 0, 0, none, false, key0, 0, 0⟩, ⟨0, 0, 1, false, 0, 0, none, false, key5, 0, 0⟩,
        ⟨0, 0, 0, false, 0, 0, none, true, key0, 0, 0⟩] : List KeyLoad),
      ((loadS l).edw.loads.find? fun x => x.tag = (0 : Fin 512).val) = some l ∧ (loadS l).up = true ∧ l.page < 64 ∧ runs0 (loadS l) = true) ∧
    (let k : KeySlot := { cmdKey with pend := some (true, 5) }
     k.pend = some (true, 5) ∧ (store { keys := [(19, some k)] } 5).keyOf (.slot 0 (16 + 3 % 4)) = some k ∧
       ∀ now ∈ [4, 5], (store { trk := [(3, some k)] } now).up = true ∧ (store { trk := [(3, some k)] } now).keyOf (.term 3) = some k ∧
         (store { trk := [(3, some k)] } now).now = now) ∧
    (∀ cf ∈ [false, true], let s := store { castFail := cf }
     s.domOn 77 = true ∧ s.edw.tested = false ∧ s.pwr.hrst = false ∧ s.edw.castFail = cf) ∧
    (let s := store { tested := true } (24 * ticksHour)
     s.up = true ∧ s.edw.tested = true ∧ s.rdb EDW_STAT_ERROR = false ∧ s.edw.castAt + 24 * ticksHour ≤ s.now) ∧
    ((store {}).up = true ∧ (store {}).edw.tested = false ∧ (store {}).rdb EDW_STAT_ERROR = false) ∧
    (let s := store { tested := true } (600 * ticksSec)
     s.up = true ∧ s.edw.tested = true ∧ s.rdb EDW_STAT_ERROR = false ∧ s.edw.seedAt + 600 * ticksSec ≤ s.now ∧ s.edw.tkey = none ∧
       s.edw.zeroing = none) ∧
    (State.reset.pwr.lostBackup = false ∧ State.reset.rdb PWR_STAT_MAINS_OK = false ∧ (store {}).pwr.lostBackup = false ∧
      (store {}).rdb PWR_STAT_MAINS_OK = true ∧ (store {}).edw.zeroing = none) ∧
    (∀ i ∈ [false, true], let s := store { zeroing := some i }
     s.pwr.lostBackup = false ∧ s.rdb PWR_STAT_MAINS_OK = true ∧ s.edw.zeroing ≠ none ∧ s.edw.zTrip = false) ∧
    (∀ zpend ∈ [0, 1], let s := (store { zeroing := some true }).wr EDW_STAT_ZPEND zpend
     s.edw.zeroing = some true ∧ s.rdb PWR_STAT_MAINS_OK = true ∧ s.up = true ∧ s.rd EDW_STAT_ZPEND = zpend) ∧
    (let s := { State.reset.wr PWR_STAT_MAINS_OK 1 with edw := { State.reset.edw with zeroing := some false } }
     s.edw.zeroing = some false ∧ s.rdb PWR_STAT_MAINS_OK = true ∧ s.up = false) := by
  refine ⟨?_, ?_, ?_, ?_, ?_⟩ <;> decide +kernel

/-- The signed image as the loader holds it, of kind T or with another first header words. -/
def held5 (l : List Nat := image5) : Image := ⟨cleanWords l, cleanWords [0, 0]⟩

/-- A core in a state, with its domain ON, the operator key installed and command slot 0 running a command. -/
def coreEv (n st : Nat) (c : CoreSt := {}) (i : ImgSt := {}) (opc : Nat := 0x0401) : State :=
  let s := (supply [coreDomain n]).wr CORE_STAT_STATE st n
  { s with
    cores := [(n, c)]
    img := i
    edw := { s.edw with tested := true, keys := [(1, some ⟨some ⟨key5, 0, 0, 0, false, false, 0, []⟩, none, false, none, 15, 0⟩)] }
    svc := { s.svc with slots := slot0 .running opc, booting := true } }

/-- A load of the image for core 0 by command slot 0. -/
def load5 (m : Image) (verified : Bool) : ImgLoad := ⟨m, 2, [0], 0, verified, .command 0, none⟩

/-- Whether command slot 0 runs a command of an opcode. -/
def runsOpc (s : State) (opc : Nat) : Bool := (s.cmdAt 0).any fun c => c.tag = 0 && c.stage ≠ .done && c.opcode = opc

theorem witness_CoreEventsComplete :
    (let s := withPacket (coreEv 0 4 { winPend := [3] }) (pkt0 9)
     3 ∈ (s.core 0).winPend ∧ s.coreState 0 ≠ cOff ∧ s.byHandle (s.rd CORE_WIN_H_HANDLE 0 3) = some (0, pkt0 9) ∧ (pkt0 9).held = 0 + 1 ∧
       (pkt0 9).len < 2 ^ 14) ∧
    (let s := coreEv 0 4 { winPend := [3] }; 3 ∈ (s.core 0).winPend ∧ s.byHandle (s.rd CORE_WIN_H_HANDLE 0 3) = none) ∧
    (∀ st ∈ [cLoaded, cHalted], ((coreEv 71 st { armed := some 0 }).core 71).armed = some 0 ∧
      0 ≤ (coreEv 71 st { armed := some 0 }).now ∧ (coreEv 71 st { armed := some 0 }).coreState 71 = st) ∧
    (let s := coreEv 76 1 {} { opr := [(3, some (held5 (image5.set 1 (2 ^ 27 + 3 * 2 ^ 24))))] }
     s.up = true ∧ s.svc.booting = true ∧ s.edw.tested = true ∧ s.coreState 76 = cEmpty ∧ s.rdb EDW_STAT_ERROR = false ∧
       s.judgeImage (s.slotImage 1 3) [76] false = none ∧ s.img.load = none) ∧
    (let s := coreEv 0 1 {} { load := some (load5 held5 false) }
     s.img.load = some (load5 held5 false) ∧ s.up = true ∧ s.rdb EDW_STAT_ERROR = false ∧ s.judgeSignature (load5 held5 false).image = none ∧
       (load5 held5 false).lost = none ∧ (load5 held5 false).loaded < (load5 held5 false).targets.length ∧
       (∀ n ∈ (load5 held5 false).targets, s.loadable n = true)) ∧
    (let s := coreEv 0 1 {} { load := some (load5 (held5 (image5.set 2 9)) false) }
     s.img.load = some (load5 (held5 (image5.set 2 9)) false) ∧ s.rdb EDW_STAT_ERROR = false ∧
       s.judgeSignature (held5 (image5.set 2 9)) = some (eSig, 0) ∧ runsOpc s 0x0401 = true) ∧
    (let s := coreEv 0 2 {} { load := some (load5 held5 true) }
     s.img.load = some (load5 held5 true) ∧ (load5 held5 true).target = 0 ∧ 0 ∉ s.zeroing ∧ s.coreState 0 = cLoading ∧
       (load5 held5 true).lost = none ∧ (load5 held5 true).loaded + 1 = (load5 held5 true).targets.length ∧ runsOpc s 0x0401 = true) ∧
    (let s := coreEv 0 2 {} { store := some ⟨0, held5, true, 0⟩ } 0x0501
     s.img.store = some ⟨0, held5, true, 0⟩ ∧ s.up = true ∧ runsOpc s 0x0501 = true) := by
  decide +kernel

/-- The service link in a state, with some internal state, at a tick. -/
def linkS (st : Nat) (v : SvcSt := {}) (now : Nat := 0) : State := { (supply []).wr SVC_STAT_LINK st with svc := v, now := now }

theorem witness_LinkStateEventsComplete :
    ((linkS lkCdr).svcLive = true ∧ (linkS lkCdr).link = lkCdr) ∧
    (let s := linkS lkAlign
     s.link = lkAlign ∧ s.rdb SVC_LANE_ALIGNED 0 (3 : Fin 4) = false ∧ s.rdb SVC_LANE_ALIGNED 0 (0 : Fin 4) = false) ∧
    (let s := (((linkS lkAlign).wr SVC_LANE_ALIGNED 1 0 0).wr SVC_LANE_ALIGNED 1 0 1).wr SVC_LANE_ALIGNED 1 0 2
     s.rdb SVC_LANE_ALIGNED 0 (3 : Fin 4) = false ∧ ∀ i : Fin 4, i ≠ 3 → s.rdb SVC_LANE_ALIGNED 0 i = true) ∧
    (linkS lkDeskew).link = lkDeskew ∧
    (∀ st ∈ [lkAlign, lkDeskew], (linkS st {} (100 * ticksUs)).link = st ∧
      (linkS st {} (100 * ticksUs)).svc.progAt + 100 * ticksUs ≤ (linkS st {} (100 * ticksUs)).now) ∧
    ((linkS lkUp).svcLive = true ∧ (linkS lkUp).link = lkUp ∧ lkUp ≠ lkL1 ∧ lkUp ≠ lkL2) ∧
    (∀ lpm ∈ [0, 1], let s := (linkS lkUp).wr SVC_CTL_LPM_EN lpm
     s.link = lkUp ∧ s.svc.sending = none ∧ s.rd SVC_CTL_LPM_EN = lpm ∧ s.overheadMapped = false ∧ s.svc.loop = none) ∧
    (linkS lkUp { sending := some (.events0 1) }).svc.sending ≠ none ∧
    (let s := linkS lkLoop { loop := some (⟨1, 1, 0, 5⟩, 0) }
     s.svcLive = true ∧ s.link = lkLoop ∧ s.svc.sending = none ∧ s.svc.loop ≠ none) ∧
    (setBad [(kChar 28 1, 0)] = true ∧ setBad [(kChar 28 1, 3), (kChar 28 1, 3), (kChar 28 1, 3), (kChar 28 1, 3)] = false) ∧
    (∀ st ∈ [lkL1, lkL2], (linkS st).svcLive = true ∧ (linkS st).link = st) ∧
    (∀ low ∈ [[], [3]], let s := linkS lkUp { eqmUnder := [(3, 1)], eqmOver := [(3, 1)], eqmLow := low } ticksMs
     s.heldMs (sget (fun _ => 0) s.svc.eqmUnder (3 : Fin 4)) = true ∧ s.heldMs (sget (fun _ => 0) s.svc.eqmOver (3 : Fin 4)) = true ∧
       s.svc.eqmLow = low) ∧
    (∀ mode ∈ [1, 3], let s := linkS lkLoop { loop := some (⟨mode, 1, 0, 5⟩, 0) } ticksMs
     s.svc.loop = some (⟨mode, 1, 0, 5⟩, 0) ∧ s.svcLive = true ∧ s.link = lkLoop ∧ 0 + 1 * ticksMs ≤ s.now) := by
  decide +kernel

/-- A completion of tag 0. -/
def kept0 : Completion := ⟨0, false, 0, 0x0101, 0, 0, ⟨0, false⟩, [], none, false⟩

/-- The link is up at both ends, with what waits to be sent. -/
def outS (v : SvcSt) (e : EvtSt := {}) : State := { (linkS lkUp v).wr SVC_STAT_FAR_UP 1 with evt := e }

/-- A record. -/
def rec0 : EvRec := ⟨0, 0, 0, 0, 0, 0, []⟩

theorem witness_PacketEventsComplete :
    (∀ s ∈ [outS { ohOut := [(3, 1, [])] }, outS {} { p0 := [rec0] }, outS { linkOut := [kept0] }, outS {} { main := [rec0] }, outS {}],
      s.svcLive = true ∧ s.link = lkUp ∧ s.rdb SVC_STAT_FAR_UP = true ∧ s.svc.sending = none ∧ s.svc.lpReq = none) ∧
    (∀ o ∈ ([.overhead 0 0 [], .completion kept0, .events0 1, .events1 1, .telemetry 15] : List OutPkt),
      let s := outS { sending := some o }
      s.svcLive = true ∧ s.link = lkUp ∧ s.svc.sending = some o ∧ s.svc.lpReq = none ∧ s.svc.loops = [] ∧ s.svc.drain = none) ∧
    (∀ q ∈ [[], [(0, 0, [])], [(1, 0, [])]], (outS { sending := some (.overhead 0 0 []), ohOut := q }).svc.ohOut = q) ∧
    ((linkS lkLoop).svcLive = true ∧ (linkS lkLoop).link = lkLoop) ∧
    (let s := outS { sending := some (.completion kept0), loops := [⟨1, 1, 0, 5⟩] }
     kept0.recalled = false ∧ (s.svc.loops.find? fun y => y.tag = kept0.tag) = some ⟨1, 1, 0, 5⟩ ∧ s.svc.drain = none) ∧
    (let s := { outS {} with regs := (((supply [72]).wr SVC_STAT_LINK lkUp).wr LINE_OH_CTL_ROUTE1 2 0).regs }
     s.svcLive = true ∧ s.link = lkUp ∧ s.domOn (lineDomain (0 : Fin 4)) = true ∧ s.route (0 : Fin 4) (1 : Fin 2) = 2 ∧
       (s.slip (0 : Fin 4) (1 : Fin 2) true).blocks.length < 2 ∧
       (let t := s.setLine 0 { slipTx := [(1, { blocks := [[], []] })] }
        t.route (0 : Fin 4) (1 : Fin 2) = 2 ∧ 2 ≤ (t.slip (0 : Fin 4) (1 : Fin 2) true).blocks.length)) ∧
    ((outS {}).route (0 : Fin 4) (0 : Fin 2) ≠ 2 ∧ (outS {}).bootNext = none) ∧
    (let s := outS { bootOut := [kept0] }
     s.bootNext = some (.completion kept0) ∧ kept0.recalled = false ∧ s.svc.loops = [] ∧ s.svc.drain = none ∧
       0 < (natToOctets 2 (s.packetOctets (.completion kept0)).length ++ s.packetOctets (.completion kept0)).length) := by
  decide +kernel

/-- The Groomer is enabled, with some internal state, at a tick. -/
def groom (g : GrmSt) (now : Nat := 0) (e : EvtSt := {}) : State := { (supply []).wr GRM_CTL_EN 1 with grm := g, now := now, evt := e }

theorem witness_IntegrityAndReportEventsComplete :
    (let s := groom {} ticksSf
     s.up = true ∧ s.rdb GRM_CTL_EN = true ∧ s.passDue s.grm.passB s.grm.perB ≤ s.now ∧ s.passDue s.grm.passL s.grm.perL ≤ s.now) ∧
    (∀ v ∈ [0, laneWords - 1], let s := groom { passL := some 0, visL := v } (24 * ticksHour)
      s.grm.passL = some 0 ∧ s.grm.visL < laneWords ∧ 0 + s.grm.visL * (passTicks s.grm.perL / laneWords) ≤ s.now ∧
        s.visitHeld (walkAddr s.grm.visL) false = false) ∧
    (∀ v ∈ [0, bufCells - 1], let s := groom { passB := some 0, visB := v } (24 * ticksHour)
      s.grm.passB = some 0 ∧ s.grm.visB < bufCells ∧ 0 + s.grm.visB * (passTicks s.grm.perB / bufCells) ≤ s.now ∧
        s.visitHeld (16 * s.grm.visB) true = false) ∧
    (let s := groom {}
     memInstance (localBase 0) = some 0 ∧ sget (fun _ => none) s.tblRaw (localBase 0) = none ∧
       ∀ l, l < 4 → ((s.memAt (localBase 0)).lane l).1 ≠ .uncorrectable) ∧
    (let s := { groom { demand := [(localBase 76, false)] } with regs := ((supply [coreDomain 76]).wr GRM_CTL_EN 1).regs }
     s.up = true ∧ s.grm.demand = [(localBase 76, false)] ∧ s.visitHeld (localBase 76) false = false ∧ s.wordAnswers (localBase 76) = true) ∧
    (let s := groom { demand := [(48, true)] }
     s.up = true ∧ s.grm.demand = [(48, true)] ∧ s.visitHeld 48 true = false) ∧
    (let s := groom { copies := [⟨0, true, 0⟩] }; s.up = true ∧ s.grm.copies = [⟨0, true, 0⟩]) ∧
    (let s := groom {} 0 { aval := true }; s.up = true ∧ s.evt.aval = true ∧ s.evt.sumSf < s.now / ticksSf + 1) ∧
    (let s := groom {} (8000 * ticksFr) { aval := true }
     s.evt.aval = true ∧ s.evt.main.length < 16384 ∧ s.evt.lowSince + 8000 * ticksFr ≤ s.now) ∧
    (let s := (((groom {}).wr EVT_TLM_EN 1 0 15).wr EVT_TLM_KIND 1 0 15).wr EVT_TLM_PERIOD 8 0 15
     s.up = true ∧ s.rdb EVT_TLM_EN 0 (15 : Fin 16) = true ∧ frameOf s.now % s.rd EVT_TLM_PERIOD 0 (15 : Fin 16) = 0 ∧
       sget (fun _ => 0) s.evt.tlmAt (15 : Fin 16) ≠ frameOf s.now + 1 ∧ sget (fun _ => none) s.evt.tlm (15 : Fin 16) = none ∧
       s.rdb EVT_TLM_KIND 0 (15 : Fin 16) = true) ∧
    (sget (fun _ => none) (groom {} 0 { tlm := [(15, some (0, []))] }).evt.tlm (15 : Fin 16) = some (0, [])) := by
  decide +kernel

/-- Channel 511 in a downstream state and a burst receiver state, with some internal state, at a tick. -/
def chEv (ds brx : Nat) (x : ChSt := {}) (now : Nat := 0) : State :=
  let s := ((supply [63]).wr CH_DS_STAT_STATE ds 511).wr CH_BRX_STAT_STATE brx 511
  { s with now := now, chans := [(511, x)], svc := { s.svc with slots := slot0 .running } }

/-- Tree 63 runs reflectometry on channel 511. -/
def otdrS (st : Nat) (r : OtdrRun) (now : Nat := 0) (x : ChSt := {}) : State :=
  { (chEv dsLit 0 x now).wr TREE_OTDR_STAT_STATE st 63 with trees := [(63, { otdr := some r })] }

/-- A quiet frame's map. -/
def quiet : List Grant := [⟨0, 3, false, false, 0, 225000⟩]

/-- A shadow set has adapted long enough and is no worse. -/
def adapted : Canceller := { adapted := 1048576 }

theorem witness_DownstreamAndTraceEventsComplete :
    ((let s := chEv dsWarm 0 { enAt := some 5 } 5
     (s.chan (511 : Fin 512)).enAt = some 5 ∧ s.dsState (511 : Fin 512) = dsWarm ∧ 5 ≤ s.now) ∧
    (∀ st ∈ [dsWarm, dsUp, dsLit, dsDown, dsDark], let s := chEv st 0 { disAt := some 5 } 5
      (s.chan (511 : Fin 512)).disAt = some 5 ∧ 5 ≤ s.now ∧ s.dsState (511 : Fin 512) = st) ∧
    (∀ st ∈ [dsUp, dsDown], let s := chEv st 0 { ramp := some ⟨-20, 0, 0, 9⟩ } 9
      (s.chan (511 : Fin 512)).ramp = some ⟨-20, 0, 0, 9⟩ ∧ 9 ≤ s.now ∧ s.dsState (511 : Fin 512) = st) ∧
    (∀ st ∈ [dsWarm, dsLit], let s := chEv st 0
      dsWarm ≤ s.dsState (511 : Fin 512) ∧ (((s.chDark (511 : Fin 512)).occur CH_DS_FAULT (511 : Fin 512)).tree ((511 : Fin 512) / 8)).enable = none) ∧
    (∀ st ∈ [dsWarm, dsLit], let s := { chEv st 0 with trees := [(63, { enable := some (0, 128, true, 128) })] }
      ((((s.chDark (511 : Fin 512)).occur CH_DS_FAULT (511 : Fin 512)).beginFalls.tree ((511 : Fin 512) / 8)).enable = some (0, 128, true, 128) ∧
        (128 : Nat).testBit ((511 : Fin 512).val % 8) = true)) ∧
    (∀ canc ∈ [{}, adapted], let s := (chEv dsLit 0 { canc := canc } ticksFr).wr CH_CANC_STAT_SHADOW 1 511
     let u := s.receive (511 : Fin 512) []
     s.domOn ((511 : Fin 512) / 8) = true ∧ s.rdb CH_CANC_STAT_SHADOW (511 : Fin 512) = true ∧ s.now % ticksFr = 0 ∧
       (s.chan (511 : Fin 512)).shAt / ticksFr < s.now / ticksFr ∧ s.inShot (511 : Fin 512) = false ∧
       u.swapDue (511 : Fin 512) = decide (canc = adapted) ∧ (u.chan (511 : Fin 512)).canc.adapted = canc.adapted ∧
       (u.chan (511 : Fin 512)).canc.shaRes ≤ (u.chan (511 : Fin 512)).canc.actRes)) ∧
    (let s := (chEv dsLit 0 {} (8000 * ticksFr)).wr CH_CANC_STAT_SHADOW 1 511
     s.domOn ((511 : Fin 512) / 8) = true ∧ s.rdb CH_CANC_STAT_SHADOW (511 : Fin 512) = true ∧
       (s.chan (511 : Fin 512)).shAt + 8000 * ticksFr ≤ s.now) ∧
    (let s := otdrS otPending ⟨7, 8, false, 1, 0, 0, 0, []⟩ ticksFr
     (s.tree (63 : Fin 64)).otdr = some ⟨7, 8, false, 1, 0, 0, 0, []⟩ ∧ s.rd TREE_OTDR_STAT_STATE (63 : Fin 64) = otPending ∧
       1 * ticksFr ≤ s.now) ∧
    (∀ m ∈ [[(1, quiet), (2, quiet)], [(1, quiet)]], let s := otdrS otRunning ⟨7, 8, false, 1, 0, 0, 0, []⟩ (3 * ticksFr) { maps := m }
      s.rd TREE_OTDR_STAT_STATE (63 : Fin 64) = otRunning ∧ 0 < 2 ^ 8 ∧ (1 + 2 * 0 + 2) * ticksFr ≤ s.now ∧
        (s.quietMap (8 * 63 + 7) 1 && s.quietMap (8 * 63 + 7) 2) = decide (m.length = 2)) ∧
    (∀ k ∈ [0, 1], let s := otdrS otRunning ⟨7, 0, false, 1, 0, 1, k, []⟩
      s.rd TREE_OTDR_STAT_STATE (63 : Fin 64) = otRunning ∧ 2 ^ 0 ≤ 1 ∧ runs0 s = true) ∧
    (let s := chEv dsLit 0 { litAt := some 0, qPay := 64 * 4096, qLsr := some (7, 3), canc := { idle := 4096 } } (8 * ticksFr)
     s.domOn ((511 : Fin 512) / 8) = true ∧ spacing [0, 2, 4, 6] < 1024 ∧ (s.chan (511 : Fin 512)).qLsr = some (7, 3) ∧
       4096 ≤ ((s.receive (511 : Fin 512) []).chan (511 : Fin 512)).canc.idle ∧
       (s.chan (511 : Fin 512)).qIdx < s.now / ticksFr / 2 ^ (s.chan (511 : Fin 512)).qLen) := by
  constructor <;> decide +kernel

/-- A grant of a start kind and its burst, with what has been decoded of it. -/
def grant (kind : Nat) (msg : Bool := false) : Grant := ⟨2047, kind, false, msg, 100, 5000⟩
def burst (kind : Nat) (hdr : Option BHeader := none) (ovl long : Bool := false) : BurstRx :=
  ⟨grant kind, 0, 5000, 900, -100, 0, hdr, none, ovl, long, 0⟩

/-- Channel 511 lit, its receiver in a state with a burst, late in the frame. -/
def rx (brx : Nat) (b : BurstRx) (w : Option BWindow := none) (now : Nat := 5 * ticksFr) : State :=
  chEv dsLit brx { burst := some b, win := w } now

/-- The squares of the outputs at the last 40 symbols before the first of frame 5, and that symbol. -/
def light (sq : Rat) : Canceller := { next := 9000000, recent := (List.range 40).map fun i => (8999999 - i, sq) }

/-- The same channel at that symbol, with that light. -/
def lit (brx : Nat) (sq : Rat) (b : BurstRx) (w : Option BWindow := none) (unsol : Nat := 0) : State :=
  chEv dsLit brx { burst := some b, win := w, unsol := unsol, canc := light sq } (5 * ticksFr)

/-- A mean of light is formed at a symbol, and it is `p`. -/
abbrev Formed (s : State) (j : Nat) (p : Int) : Prop :=
  s.domOn ((511 : Fin 512) / 8) = true ∧ s.shotFrame ((511 : Fin 512) / 8) ((511 : Fin 512) % 8) (j / symsFr) = false ∧
    (s.receive (511 : Fin 512) []).formed (511 : Fin 512) j = true ∧ (s.receive (511 : Fin 512) []).power (511 : Fin 512) j = p

/-- The trellis search finds the bits that were sent, tail bits after them, where two of their coded bits are lost and one is
received wrong with the smallest likelihood (R321). -/
theorem test_trellis_search :
    let sent := (innerEncode motherCode 0 0 ([true, false, true, true, false] ++ List.replicate 6 false)).1
    let soft := sent.mapIdx fun i b => if i = 1 ∨ i = 7 then 0 else if i = 4 then (if b then -1 else 1) else if b then 7 else -7
    (trellisSearch ((List.range 11).map fun i => (soft.getD (2 * i) 0, soft.getD (2 * i + 1) 0))).take 5 =
      [true, false, true, true, false] := by
  decide +kernel

theorem witness_UpstreamBurstEventsComplete :
    ((let s := chEv dsLit bIdle { left := [(0, grant 0)] } ticksFr
     (s.chan (511 : Fin 512)).left = (0, grant 0) :: [] ∧ s.domOn ((511 : Fin 512) / 8) = true ∧
       (s.windowOf ((511 : Fin 512) / 8) (grant 0)).any (fun w => decide (symTick 0 w.1 ≤ s.now)) = true ∧
       s.brxState (511 : Fin 512) = bIdle ∧ s.dsLight (511 : Fin 512) = true) ∧
    (∀ x ∈ [(bArmed, 0), (bArmed, 1), (bQualify, 0)], let s := rx x.1 (burst x.2) (some ⟨grant x.2, 0, 900⟩)
      (s.chan (511 : Fin 512)).win = some ⟨grant x.2, 0, 900⟩ ∧ s.domOn ((511 : Fin 512) / 8) = true ∧ symTick 0 900 < s.now ∧
        s.brxState (511 : Fin 512) = x.1 ∧ (grant x.2).kind = x.2) ∧
    (∀ u ∈ [0, 6], let s := lit bIdle (10 ^ 12) (burst 0) none u
      Formed s 9000000 300 ∧ s.rdi CH_BRX_CTL_ETHR (511 : Fin 512) ≤ 300 ∧
        (s.chan (511 : Fin 512)).pref + s.dbField CH_BRX_CTL_STEP_DB (511 : Fin 512) ≤ 300 ∧ s.brxState (511 : Fin 512) = bIdle ∧
        ((s.chan (511 : Fin 512)).unsol = 9000000 / symsFr + 1 ↔ u = 6)) ∧
    (∀ st ∈ [bArmed, bQualify, bEndmark], ∀ close ∈ [8999999, 9000000], let s := lit st (10 ^ 12) (burst 0) (some ⟨grant 0, 0, close⟩)
      Formed s 9000000 300 ∧ s.rdi CH_BRX_CTL_ETHR (511 : Fin 512) ≤ 300 ∧
        (s.chan (511 : Fin 512)).pref + s.dbField CH_BRX_CTL_STEP_DB (511 : Fin 512) ≤ 300 ∧ s.brxState (511 : Fin 512) = st ∧
        (s.chan (511 : Fin 512)).win = some ⟨grant 0, 0, close⟩) ∧
    (let s := rx bQualify (burst 0)
     s.brxState (511 : Fin 512) = bQualify ∧
       ((4968 : Nat) : Int) - (s.burst (511 : Fin 512)).frame * symsFr + 32 ≤ (s.burst (511 : Fin 512)).deadline ∧
       s.rd CH_BRX_CTL_DLM_THR (511 : Fin 512) ≤ agreeing 0xB5E62C1D 0xB5E62C1D) ∧
    (∀ close ∈ [900, 50000000], let s := rx bQualify (burst 0) (some ⟨grant 0, 0, close⟩)
      s.brxState (511 : Fin 512) = bQualify ∧ symTick (s.burst (511 : Fin 512)).frame (s.burst (511 : Fin 512)).deadline < s.now ∧
        (s.burst (511 : Fin 512)).capture = none ∧ (s.chan (511 : Fin 512)).win = some ⟨grant 0, 0, close⟩ ∧
        decide ((s.now : Int) ≤ symTick 0 close) = decide (close ≠ 900)) ∧
    (∀ k ∈ [0, 1], let s := rx bHeader (burst k)
      s.brxState (511 : Fin 512) = bHeader ∧
        symTick (s.burst (511 : Fin 512)).frame ((s.burst (511 : Fin 512)).dlm + 96) ≤ s.now ∧ (s.burst (511 : Fin 512)).capture = none)) ∧
    ((burst 0).grant.kind ≠ 1 ∧ (burst 0).grant.alloc = 2047 ∧ (burst 0).grant.msg = false ∧ hdrCrcOk 0 = false ∧
      [0x4430, 0x1ffc000000f5ec, 0x1ffc000020d18e].map (fun h => (hdrCrcOk h, hdrAlloc h, hdrMsg h)) =
        [(true, 0, false), (true, 2047, false), (true, 2047, true)]) ∧
    (let s := rx bEndmark (burst 2 (some ⟨2047, 0, false⟩))
     s.rd CH_BRX_CTL_DLM_THR (511 : Fin 512) ≤ agreeing 0x4A19D3E2 0x4A19D3E2 ∧
       agreeing 0x4A19D3E2 0xB5E62C1D < s.rd CH_BRX_CTL_DLM_THR (511 : Fin 512)) ∧
    (∀ st ∈ [bHeader, bPayload], let s := lit st (10 ^ 12) (burst 0)
      Formed s 9000000 300 ∧ s.brxState (511 : Fin 512) = st ∧ (s.burst (511 : Fin 512)).capture = none ∧
        (s.burst (511 : Fin 512)).pburst + s.dbField CH_BRX_CTL_COLL_DB (511 : Fin 512) ≤ 300) ∧
    (∀ ovl ∈ [false, true], let s := lit bPayload (10 ^ 8) { burst 0 none ovl with pburst := -125 }
      Formed s 9000000 (-100) ∧ (s.burst (511 : Fin 512)).pburst + s.dbField CH_BRX_CTL_OVL_DB (511 : Fin 512) ≤ -100 ∧
        -100 < (s.burst (511 : Fin 512)).pburst + s.dbField CH_BRX_CTL_COLL_DB (511 : Fin 512)) ∧
    (∀ st ∈ [bHeader, bPayload], let s := lit st 1 (burst 0)
      s.brxState (511 : Fin 512) = st ∧ (s.burst (511 : Fin 512)).capture = none ∧
        ∀ i ∈ [0, 1, 2, 3], Formed s (9000000 - 8 * i) (-900) ∧
          -900 < max (s.rdi CH_BRX_CTL_ETHR (511 : Fin 512)) ((s.burst (511 : Fin 512)).pburst - 100) ∧
          -900 < (s.burst (511 : Fin 512)).pburst + s.dbField CH_BRX_CTL_COLL_DB (511 : Fin 512)) ∧
    (let s := rx bPayload (burst 0)
     s.brxState (511 : Fin 512) = bPayload ∧
       symTick (s.burst (511 : Fin 512)).frame ((s.burst (511 : Fin 512)).dlm + 96 + 8 * s.payloadUnits (511 : Fin 512)) ≤ s.now) ∧
    (let s := rx bEndmark (burst 2 (some ⟨2047, 0, false⟩))
     s.brxState (511 : Fin 512) = bEndmark ∧
       symTick (s.burst (511 : Fin 512)).frame ((s.burst (511 : Fin 512)).dlm + 128 + 8 * s.payloadUnits (511 : Fin 512)) ≤ s.now ∧
       (s.burst (511 : Fin 512)).hdr = some ⟨2047, 0, false⟩) ∧
    (∀ x ∈ [(0, 900), (1, 50000000)], let s := rx bEndmark (burst x.1) (some ⟨grant x.1, 0, x.2⟩)
     (s.chan (511 : Fin 512)).heldSteps = [] ∧ (s.chan (511 : Fin 512)).win = some ⟨grant x.1, 0, x.2⟩ ∧
       decide ((grant x.1).kind = 1 ∧ (s.now : Int) ≤ symTick 0 x.2) = decide (x.1 = 1)) ∧
    (∀ h ∈ [none, some (⟨2047, 0, false⟩ : BHeader)], let b := { burst 0 h with dlm := 9000000 - 256 - 8 * (rx bIdle (burst 0)).payloadUnits 511 }
      let s := lit bIdle (10 ^ 8) b
      s.longAt (511 : Fin 512) = 9000000 ∧ Formed s 9000000 (-100) ∧ (s.chan (511 : Fin 512)).burst = some b ∧ b.long = false ∧
        s.brxState (511 : Fin 512) ≠ bQualify ∧ s.brxState (511 : Fin 512) ≠ bHeader ∧ b.pburst - 100 ≤ -100) := by
  refine ⟨⟨?_, ?_, ?_, ?_, ?_, ?_, ?_⟩, ?_, ?_, ?_, ?_, ?_, ?_, ?_, ?_, ?_⟩ <;> decide +kernel

/-- Converter 17 in a state with some internal state, at a tick. -/
def monEv (st : Nat) (x : MonSt := {}) (now : Nat := 0) : State :=
  let s := (supply []).wr MON_STAT_STATE st 17
  { s with now := now, mons := [(17, x)], svc := { s.svc with slots := slot0 .running } }

/-- An injection without a gate for command slot 0. -/
def inj0 (taken : Bool) : Inj := ⟨0, 0, 0, startUp, 0, .cmd 0, taken⟩

theorem witness_ConverterEventsComplete :
    (∀ x ∈ [(mIdle, 0), (mDown, 0), (mSeq, 0), (mIdle, 5)], let s := (monEv x.1 { passEnd := x.2 } 5).wr MON_SEQ_CTL_EN 1 17
      s.monState (17 : Fin 18) ≠ mOff ∧ s.rdb MON_SEQ_CTL_EN (17 : Fin 18) = true ∧ (s.mon (17 : Fin 18)).passOn = false ∧
        (s.mon (17 : Fin 18)).due ≤ s.now ∧ s.monState (17 : Fin 18) = x.1) ∧
    (let s := { monEv mCal { cal := .running 0, joined := [.cmd 0] } with calCmds := [(0, [17], 0)] }
     (s.mon (17 : Fin 18)).joined = [.cmd 0] ∧ (s.calCmds.find? fun e => e.1 = 0) = some (0, [(17 : Fin 18).val], 0) ∧ runs0 s = true) ∧
    (let r : SeqRun := ⟨63, 5, 1, 0, 0, 8, false⟩
     let s := monEv mSeq { entry := some r } (10 * samplePeriod)
     (s.mon (17 : Fin 18)).entry = some r ∧ s.monState (17 : Fin 18) = mSeq ∧
       ([7, 9] : List Int).length = 2 ^ r.avg ∧ r.first + (r.settle + ([7, 9] : List Int).length) * samplePeriod ≤ s.now) ∧
    (∀ st ∈ [mSeq, mDown], let s := monEv st { inj := [inj0 false] }
      ((s.mon (17 : Fin 18)).inj.find? fun j => !j.taken && decide (j.from_ ≤ s.now)) = some (inj0 false) ∧
        s.monState (17 : Fin 18) ≠ mOff ∧ s.monState (17 : Fin 18) ≠ mInj ∧ s.monState (17 : Fin 18) ≠ mCal) ∧
    (∀ b ∈ ([.cmd 0, .op 0 0, .orphan] : List InjBy), let i := { inj0 true with by_ := b }
     let s := monEv mInj { inj := [i] } (startUp + samplePeriod)
     ((s.mon (17 : Fin 18)).inj.find? fun j => j.taken) = some i ∧ s.monState (17 : Fin 18) = mInj ∧
       ([7] : List Int).length = 2 ^ i.avg ∧
       i.lp + (s.settleAt (17 : Fin 18) i.lp + 1) * samplePeriod ≤ s.now ∧ runs0 s = true) ∧
    (∀ st ∈ [mIdle, mSeq, mDown, mWake], let s := monEv st { cal := .pending 0 false } startUp
      s.calMayStart (17 : Fin 18) = true ∧ s.monState (17 : Fin 18) = st ∧ (s.mon (17 : Fin 18)).wakeAt + startUp ≤ s.now) ∧
    (let s := monEv mCal { cal := .running 0 } calTicks
     (s.mon (17 : Fin 18)).cal = .running 0 ∧ s.monState (17 : Fin 18) = mCal ∧ 0 + calTicks ≤ s.now ∧ (s.mon (17 : Fin 18)).joined = [] ∧
       calPasses 1024 20971 = true ∧ calPasses 1025 0 = false) ∧
    (let s := monEv mInj { cal := .pending 0 false } ticksSec
     (s.mon (17 : Fin 18)).cal = .pending 0 false ∧ s.monState (17 : Fin 18) ≠ mOff ∧ 0 + ticksSec ≤ s.now) ∧
    (∀ a ∈ [none, some (203 : Int)], let s := monEv mIdle { adopted := a } (10 * ticksMs)
      s.monState (17 : Fin 18) ≠ mOff ∧ (s.mon (17 : Fin 18)).facAt + 10 * ticksMs ≤ s.now ∧ (s.mon (17 : Fin 18)).adopted = a ∧
        |(200 : Int) - 203| < 4) ∧
    (let s := monEv mIdle {} 8000
     s.monState (17 : Fin 18) = mIdle ∧ (s.mon (17 : Fin 18)).idleAt + 8000 ≤ s.now ∧ s.monDue (17 : Fin 18) = false) := by
  refine ⟨?_, ?_, ?_, ?_, ?_, ?_⟩ <;> decide +kernel

/-- Line 3 with its transmitter and receiver in states, some internal state, at a tick. -/
def lineEv (tx rx : Nat) (x : LineSt := {}) (now : Nat := 0) : State :=
  let s := ((supply [75]).wr LINE_TX_STAT_STATE tx 3).wr LINE_RX_STAT_STATE rx 3
  { s with now := now, lines := [(3, x)], svc := { s.svc with slots := slot0 .running } }

theorem witness_ReceiverEventsComplete :
    ((let s := lineEv 0 rxTune {} (200 * ticksMs)
     s.rxState (3 : Fin 4) = rxTune ∧ s.now ≤ (s.line (3 : Fin 4)).tuneAt + 200 * ticksMs ∧
       (s.line (3 : Fin 4)).tuneAt + 200 * ticksMs ≤ s.now) ∧
    (let s := lineEv 0 rxLocked; s.rxState (3 : Fin 4) ≠ rxOff ∧ s.rxState (3 : Fin 4) ≠ rxTune) ∧
    (∀ st ∈ [rxIdle, rxHold], let s := lineEv 0 st {} (10 * ticksMs)
      s.rdb LINE_RX_STAT_SIG (3 : Fin 4) = false ∧ s.rdi LINE_RX_CTL_SIG_THR (3 : Fin 4) ≤ 0 ∧ s.rxState (3 : Fin 4) = st ∧
        s.now ≤ (s.line (3 : Fin 4)).holdAt + 10 * ticksMs) ∧
    (∀ st ∈ [rxAcq, rxLocked], let s := (lineEv 0 st).wr LINE_RX_STAT_SIG 1 3
      s.rdb LINE_RX_STAT_SIG (3 : Fin 4) = true ∧ -512 < s.rdi LINE_RX_CTL_SIG_THR (3 : Fin 4) - 10 ∧ s.rxState (3 : Fin 4) = st) ∧
    (let s := (lineEv 0 rxSearch { cdLo := -20000, cdHi := 20000 } (8440 * ticksUs)).wr LINE_RX_STAT_SIG 1 3
     s.rxState (3 : Fin 4) = rxSearch ∧ (s.line (3 : Fin 4)).cdLo = -20000 ∧ (s.line (3 : Fin 4)).cdHi = 20000 ∧
       s.rdb LINE_RX_STAT_SIG (3 : Fin 4) = true ∧ s.rxSwitched (3 : Fin 4) = false ∧
       (s.line (3 : Fin 4)).searchAt + (cdPoints (s.line (3 : Fin 4)).cdLo (s.line (3 : Fin 4)).cdHi * 20 + 420) * ticksUs ≤ s.now) ∧
    (let s := lineEv 0 rxAcq {} (20 * ticksMs)
     s.rxState (3 : Fin 4) = rxAcq ∧ (s.line (3 : Fin 4)).acqAt + 20 * ticksMs ≤ s.now) ∧
    (let s := lineEv 0 rxHold {} (10 * ticksMs)
     s.rxState (3 : Fin 4) = rxHold ∧ (s.line (3 : Fin 4)).holdAt + 10 * ticksMs ≤ s.now)) ∧
    ((let s := ((lineEv 0 rxAcq { convBy := [(31, 9)] } 9).wr LINE_RX_SCS_STATE scConverge 3 31).wr LINE_RX_BANK_B 2 3 0 31
     s.rxState (3 : Fin 4) = rxAcq ∧ s.rd LINE_RX_SCS_STATE (3 : Fin 4) (31 : Fin 32) = scConverge ∧
        s.now ≤ sget (fun _ => 0) (s.line (3 : Fin 4)).convBy (31 : Fin 32)) ∧
    (let s := (((lineEv 0 rxAcq).wr LINE_RX_SCS_STATE scConverge 3 31).wr LINE_RX_BANK_B 2 3 0 31).wr LINE_RX_BANK_B 2 3 0 0
     0 < 32 ∧ 0 ≠ (31 : Fin 32).val ∧ s.scOn (3 : Fin 4) 0 = true ∧ s.rd LINE_RX_SCS_STATE (3 : Fin 4) 0 ≠ scTrack) ∧
    (let s := (List.range 32).foldl (fun (s : State) j => s.wr LINE_RX_BANK_B 0 3 0 j) (lineEv 0 rxAcq)
     ∀ k, k < 32 → s.scOn (3 : Fin 4) k = false) ∧
    (∀ st ∈ [rxAcq, rxLocked], let s := ((lineEv 0 st {} (1200 * ticksUs)).wr LINE_RX_SCS_STATE scTrack 3 30).wr LINE_RX_SCS_STATE scConverge 3 31
      s.rxState (3 : Fin 4) = st ∧ s.rd LINE_RX_SCS_STATE (3 : Fin 4) (30 : Fin 32) = scTrack ∧
        s.rd LINE_RX_SCS_STATE (3 : Fin 4) (31 : Fin 32) = scConverge ∧
        sget (fun _ => 0) (s.line (3 : Fin 4)).convAt (31 : Fin 32) + 1200 * ticksUs ≤ s.now) ∧
    (let s := lineEv 0 rxLocked { telAt := some 0 } (9750 * ticksUs)
     (s.line (3 : Fin 4)).telAt = some 0 ∧ s.rxState (3 : Fin 4) ≠ rxOff ∧ 0 + 9750 * ticksUs ≤ s.now ∧
       (List.replicate 4 (⟨0, 0, 0, 0, 0⟩ : TelMeas)).length = 4 ∧
       (∀ a, a < 4 → s.rd LINE_TEL_ADC_SPARE (3 : Fin 4) a ≠ 127 ∧ s.telOk (3 : Fin 4) a ⟨0, 0, 0, 0, 0⟩ = true) ∧
       ∀ a, a < 4 → s.telOk (3 : Fin 4) a ⟨9999, 0, 0, 0, 0⟩ = false) ∧
    (let s := lineEv 0 rxLocked { telPass := some 0 } ticksSec
     (s.line (3 : Fin 4)).telPass = some 0 ∧ 0 < s.now / ticksLf ∧ s.rxState (3 : Fin 4) ≠ rxOff ∧ s.frameTaken (3 : Fin 4) = false ∧
       (s.line (3 : Fin 4)).sliceAt 3 (s.rd LINE_TEL_STAT_POS (3 : Fin 4)) < 128) ∧
    (∀ st ∈ [rxHold, rxLocked], let s := lineEv 0 st {} ticksSec
     s.rxState (3 : Fin 4) = st ∧ (s.line (3 : Fin 4)).cdAt + ticksSec ≤ s.now ∧ s.frameTaken (3 : Fin 4) = false ∧
       s.atFarMf (3 : Fin 4) = true ∧ (s.line (3 : Fin 4)).rxCalAt + ticksSec / 10 ≤ s.now ∧ s.rxState (3 : Fin 4) ≠ rxOff ∧
       calWithin [0, 0, 0, 0, 0, 0, 500] = true ∧ calWithin [0, 0, 0, 0, 0, 0, 501] = false ∧
       (s.line (3 : Fin 4)).load = none ∧ s.now < 2 ^ 36 * ticksSf ∧
       (s.line (3 : Fin 4)).winAt + 2 ^ (s.line (3 : Fin 4)).winLen * ticksMf * 9999 / 10000 ≤ s.now)) := by
  constructor <;> decide +kernel

/-- A loading request, and the command of slot 0 that has sent it. -/
def req0 : LoadReq := ⟨7, 0, 9, List.replicate 32 2, List.replicate 32 0⟩
def sent0 : LoadCmd := ⟨0, 0, 9, some req0, .sent (some 0)⟩

/-- A ramp that ends at tick 9. -/
def ramp0 : Ramp := ⟨[], -20, 0, 0, 9, [], []⟩

/-- Whether slot 0 runs a command of the lines. -/
def runsLine (s : State) : Bool := runsOpc s 0x0A02

/-- Line 3 LIT and LOCKED, with slot 0 running a command of the lines. -/
def loading (x : LineSt) (now : Nat := 0) : State :=
  let s := lineEv txLit rxLocked x now
  { s with svc := { s.svc with slots := slot0 .running 0x0A02 } }

theorem witness_LoadAndTransmitterEventsComplete :
    ((∀ reason ∈ [0, 16], let s := loading { ackIn := some (7, reason), load := some sent0 }
     (s.line (3 : Fin 4)).ackIn = some (7, reason) ∧ (s.line (3 : Fin 4)).load = some sent0 ∧ sent0.waits 7 = some req0 ∧
       runsLine s = true) ∧
    (∀ x ∈ [(0, 15), (0, 16), (1, 15)], let s := loading { swIn := some (x.1, x.2, 7, 0), rxSeq := some 7 }
     (s.line (3 : Fin 4)).swIn = some (x.1, x.2, 7, 0) ∧ (s.line (3 : Fin 4)).load = none ∧ (s.line (3 : Fin 4)).rxSeq = some 7 ∧
       s.rd LINE_RX_STAT_BANK (3 : Fin 4) = 0 ∧ (s.line (3 : Fin 4)).rxSwitch = none) ∧
    (let s := loading { swIn := some (1, 15, 8, 0), rxSeq := some 7 }
     (s.line (3 : Fin 4)).swIn = some (1, 15, 8, 0) ∧ (s.line (3 : Fin 4)).load = none ∧ (s.line (3 : Fin 4)).rxSeq ≠ some 8 ∧
       1 ≠ s.rd LINE_RX_STAT_BANK (3 : Fin 4)) ∧
    (let s := loading { load := some sent0 } (64 * ticksMf)
     (s.line (3 : Fin 4)).load = some sent0 ∧ sent0.stage = .sent (some 0) ∧ 0 + 64 * ticksMf ≤ s.now ∧ runsLine s = true) ∧
    (∀ st ∈ [rxLocked, rxHold, rxIdle], let s := (loading { rxSwitch := some 0, switchMf := some 0 }).wr LINE_RX_STAT_STATE st 3
     (s.line (3 : Fin 4)).rxSwitch = some 0 ∧ s.rxState (3 : Fin 4) = st ∧ s.rxState (3 : Fin 4) ≠ rxOff ∧ s.atFarMf (3 : Fin 4) = true ∧
       (s.line (3 : Fin 4)).load = none ∧ (s.line (3 : Fin 4)).switchMf = some 0 ∧ s.txState (3 : Fin 4) = txLit ∧ 0 ≤ s.now / ticksMf) ∧
    (let s := (((loading { rdiAt := some 0 } (64 * ticksMf)).wr LINE_TX_CTL_FALLBACK 1 3).wr (defectField 1) 1 3).wr LINE_RX_BANK_RATE 4 3 0
     s.rdb LINE_TX_CTL_FALLBACK (3 : Fin 4) = true ∧ s.rxState (3 : Fin 4) = rxLocked ∧ s.defect (3 : Fin 4) 1 = true ∧
       (s.line (3 : Fin 4)).lofAt + 64 * ticksMf ≤ s.now ∧ sameLoading (s.rxActive (3 : Fin 4)) bringUp = false ∧
       s.atFarMf (3 : Fin 4) = true ∧ (s.line (3 : Fin 4)).load = none ∧
       (s.line (3 : Fin 4)).rdiAt = some 0 ∧ s.txState (3 : Fin 4) = txLit ∧ 0 + 64 * ticksMf ≤ s.now ∧ s.now % ticksMf = 0 ∧
       (s.line (3 : Fin 4)).stepFrame ≠ some (s.now / ticksLf))) ∧
    ((let s := { lineEv txLit rxLocked {} (ticksSec / 10) with regs := ((supply [75]).wr CORE_STAT_STATE 4 75).regs }
     s.coreState (72 + (3 : Fin 4).val) = cRunning ∧ (s.line (3 : Fin 4)).txCalAt + ticksSec / 10 ≤ s.now) ∧
    (let s := (lineEv txDark 0 { enable := some (0, 5) } 5).wr LINE_RX_CTL_FOLLOW 0 3
     (s.line (3 : Fin 4)).enable = some (0, 5) ∧ s.txState (3 : Fin 4) = txDark ∧ 5 ≤ s.now ∧ s.rdb LINE_RX_CTL_FOLLOW (3 : Fin 4) = false) ∧
    (let s := lineEv txCal 0 {} (200 * ticksMs)
     s.txState (3 : Fin 4) = txCal ∧ (s.line (3 : Fin 4)).calDone = none ∧ (s.line (3 : Fin 4)).calAt + 200 * ticksMs ≤ s.now ∧
       calWithin [0, 0, 0, 0, 0, 0, 500] = true ∧ calWithin [0, 0, 0, 0, 0, 0, 501] = false) ∧
    (let s := lineEv txCal 0 { calDone := some 0 } ticksMf
     (s.line (3 : Fin 4)).calDone = some 0 ∧ s.txState (3 : Fin 4) = txCal ∧ 0 / ticksMf < s.now / ticksMf) ∧
    (let s := (loading { ramp := some ramp0, enTag := some 0 } 9).wr LINE_TX_STAT_STATE txRampUp 3
     (s.line (3 : Fin 4)).ramp = some ramp0 ∧ ramp0.tEnd ≤ s.now ∧ s.txState (3 : Fin 4) = txRampUp ∧
       (s.line (3 : Fin 4)).enTag = some 0 ∧ runsLine s = true) ∧
    (∀ r ∈ [(1, 0), (0, 2)], let s := (lineEv txLit 0 { reqIn := some (req0, 0) } ticksMf).wr LINE_TX_CTL_REMOTE_EN r.1 3
      (s.line (3 : Fin 4)).reqIn = some (req0, 0) ∧ s.domOn (lineDomain (3 : Fin 4)) = true ∧ 0 / ticksMf < s.now / ticksMf ∧
        (s.line (3 : Fin 4)).lastEval = none ∧ s.judgeReq (3 : Fin 4) req0 = r.2) ∧
    (let s := lineEv txLit 0 { reqIn := some (req0, 0), lastEval := some (7, 2), ackOnce := some (7, 2) } ticksMf
     (s.line (3 : Fin 4)).lastEval = some (req0.seq, 2) ∧ (s.line (3 : Fin 4)).ackSeq = none ∧ (s.line (3 : Fin 4)).ackOnce = some (7, 2)) ∧
    (∀ st ∈ [txRampUp, txLit, txRampDown], ∀ f ∈ [0, 1], let s := lineEv st 0 {} (f * ticksLf)
      s.txState (3 : Fin 4) = st ∧ txRampUp ≤ s.txState (3 : Fin 4) ∧ (s.line (3 : Fin 4)).txFrame ≠ some (s.now / ticksLf) ∧
        s.lineTesting (3 : Fin 4) = false ∧ s.now / ticksLf % 256 = f ∧ (s.line (3 : Fin 4)).txFrame = none ∧
        ((s.wr PWR_STAT_MODE modeMaintenance).wr LINE_TX_TEST_MODE 2 3).lineTesting (3 : Fin 4) = true)) := by
  refine ⟨⟨?_, ?_, ?_, ?_, ?_, ?_⟩, ?_⟩ <;> decide +kernel

/-- A received slot. -/
def slot1 : RxSlot := ⟨40, 0, List.replicate 32 0, [], []⟩

/-- Line 3 LOCKED in a frame state. -/
def frameS (fs : Nat) (x : LineSt := {}) (now : Nat := 0) : State := (lineEv txLit rxLocked x now).wr LINE_FR_STAT_FSTATE fs 3

/-- Line 3 in frame, not impaired, its channel 1 with a route, a block received and blocks in its slip buffers. -/
def ohS (route : Nat) (rx tx : List (List Nat) := []) : State :=
  ((frameS fsIf { mdcDone1 := some [5], slipRx := [(1, { blocks := rx })], slipTx := [(1, { blocks := tx })] }).wr LINE_OH_CTL_ROUTE1
    route 3).wr LINE_FR_CTL_MF_EN 0 3

theorem witness_FrameEventsComplete :
    ((∀ fs ∈ [fsHunt, fsPresync, fsIf], let s := frameS fs
      s.rxState (3 : Fin 4) = rxLocked ∧ s.rd LINE_FR_STAT_FSTATE (3 : Fin 4) = fs ∧ (s.line (3 : Fin 4)).cands = [] ∧
        decide (slot1.fawErr ≤ s.rd LINE_FR_CTL_FAW_TOL (3 : Fin 4)) = true) ∧
    (∀ x ∈ [((frameS fsIf).ifSlot (3 : Fin 4) 40 true 0, true), ((frameS fsIf { miss := 4 }).ifSlot (3 : Fin 4) 41 false 0, false)],
      decide (x.1.rd LINE_FR_STAT_FSTATE (3 : Fin 4) = fsIf) = x.2) ∧
    (let s := (frameS fsIf).wr LINE_FR_BLK_LOCK 1 3; s.rdb LINE_FR_BLK_LOCK (3 : Fin 4) = true ∧ s.rxState (3 : Fin 4) = rxLocked) ∧
    (∀ x ∈ [(fsIf, 1), (fsHunt, 0)], let s := ((frameS x.1 {} persistTicks).wr (defectField 1) x.2 3).wr LINE_FR_CTL_MF_EN 0 3
      s.domOn (lineDomain (3 : Fin 4)) = true ∧ (s.line (3 : Fin 4)).fsAt + persistTicks ≤ s.now ∧ s.rdb LINE_FR_CTL_MF_EN (3 : Fin 4) = false ∧
        s.rd LINE_FR_STAT_FSTATE (3 : Fin 4) = x.1 ∧ s.defect (3 : Fin 4) 0 = false ∧ s.rd (defectField 1) (3 : Fin 4) = x.2) ∧
    (∀ im ∈ [0, 1], let s := ((frameS fsIf { fsAt := 1 } persistTicks).wr LINE_FR_CTL_MF_EN 1 3).wr LINE_FR_STAT_IM im 3
      s.domOn (lineDomain (3 : Fin 4)) = true ∧ s.now < (s.line (3 : Fin 4)).fsAt + persistTicks ∧ s.rd LINE_FR_STAT_FSTATE (3 : Fin 4) = fsIf ∧
        s.rdb LINE_FR_CTL_MF_EN (3 : Fin 4) = true ∧ (s.line (3 : Fin 4)).imAt + persistTicks ≤ s.now ∧
        s.rd LINE_FR_STAT_IM (3 : Fin 4) = im ∧ s.defect (3 : Fin 4) 0 = false ∧ s.defect (3 : Fin 4) 1 = false)) ∧
    ((∀ r ∈ [0, 1, 2], ∀ rx ∈ [[], [[6], [7]]], let s := ohS r rx [[6]]
      s.domOn (lineDomain (3 : Fin 4)) = true ∧ s.impaired (3 : Fin 4) = false ∧
        (if (1 : Fin 2).val = 0 then (s.line (3 : Fin 4)).mdcDone0 else (s.line (3 : Fin 4)).mdcDone1) = some [5] ∧
        s.route (3 : Fin 4) (1 : Fin 2) = r ∧ (s.slip (3 : Fin 4) (1 : Fin 2) false).blocks = rx ∧ s.svc.ohOut = [] ∧
        (s.slip (3 : Fin 4) (1 : Fin 2) true).blocks = [6] :: [] ∧ s.mode ≠ modeBackup) ∧
    (let s := { ohS 2 with svc := { (ohS 2).svc with ohOut := [(3, 1, []), (3, 1, [])] } }
     2 ≤ (s.svc.ohOut.filter fun b => b.1 = (3 : Fin 4).val && b.2.1 = (1 : Fin 2).val).length) ∧
    (let s := (((ohS 3).wr LINE_FR_CTL_PT 1 0).wr LINE_FR_CTL_PT_SRC 3 0).wr LINE_OH_CTL_ROUTE1 3 0
     s.route (3 : Fin 4) (1 : Fin 2) = 3 ∧ s.ptTargets (3 : Fin 4) = [0] ∧ s.route 0 (1 : Fin 2) = 3 ∧ 0 ≠ (3 : Fin 4).val ∧
       (s.slip 0 (1 : Fin 2) true).blocks.length < 2 ∧ s.ptSource (3 : Fin 4) = none) ∧
    (∀ r ∈ [1, 2], let s := (ohS r).wr LINE_FR_STAT_FSTATE fsHunt 3
     s.domOn (lineDomain (3 : Fin 4)) = true ∧ s.impaired (3 : Fin 4) = true ∧ s.route (3 : Fin 4) (1 : Fin 2) = r ∧ s.svc.ohOut = [] ∧
       s.mode ≠ modeBackup) ∧
    ((ohS 1).wr PWR_STAT_MODE modeBackup).mode = modeBackup ∧ (supply []).domOn (lineDomain (3 : Fin 4)) = false) := by
  constructor <;> decide +kernel

/-- Port 15 has its link and is enabled, in SERVICE, with traffic state, at a tick. -/
def traffic (v : TrafSt := {}) (now : Nat := 0) : State :=
  { ((((supply [76]).wr PWR_STAT_MODE 3).wr PORT_STAT_LINK 1 15).wr PORT_CTL_EN 1 15).wr QUE_PAGE_LIMIT 1000 0 0 with
    traf := v, now := now }

/-- Service 5 carries the tag 0 of port 15 to terminal allocation 0; `lim` is its queues' limit. -/
def service5 (lim : Nat) : State :=
  let k := 8 * bucketOf 1 15 0 0
  let s := ((traffic.setReg (keyAddr k) (keyWord 1 15 0 0)).setReg (keyAddr k + 1) (word 5)).setReg (svcAddr 5) (word (2 ^ 35))
  (List.range 8).foldl (fun (s : State) c => s.setReg (queAddr c) (word (2 ^ 21 + lim))) s

/-- A frame of 64 octets with a service tag of VLAN 0. -/
def frame64 : List (BitVec 8) := List.replicate 12 0 ++ [0x88, 0xA8] ++ List.replicate 50 0

/-- Whether its lookup finds a service, and whether admission then passes. -/
def foundB (s : State) (pass : Bool) : Bool :=
  let os := frame64.map BitVec.toNat
  let body := os.take 12 ++ os.drop (if u16 os 16 = 0x8100 then 20 else 16)
  u16 os 12 = 0x88A8 &&
    match s.lookKey 1 15 0 (u16 os 14 % 4096 * 4096 + if u16 os 16 = 0x8100 then u16 os 18 % 4096 else 0) with
    | (.found x, v) => (v.admitFails (x.target false (u16 os 14 / 8192)).1 x.page body.length).isNone == pass
    | _ => false

/-- A burst of one segment of four octets of allocation 4, expected SEQ 0, ending its octets or not. -/
def burst4 (more : List Nat) : UpBurst := ⟨4, natToOctets 4 (4 * 2 ^ 18) ++ [1, 2, 3, 4] ++ more, [true], 0, 0⟩
def unit0 (disc : Bool) : UpUnit := ⟨disc, 8, false, false, 0, [], 0, 0, 0, false, none⟩

/-- A unit of terminal 1 at verifier 7, and that terminal's keys. -/
def verify0 (good : Bool) : Verify := ⟨4, 0, 0, 0, false, 9, good, 5⟩

/-- A PTP message of kind 2, which is not supported. -/
def pdelay : List (BitVec 8) := List.replicate 12 0 ++ [0x88, 0xF7, 2] ++ List.replicate 49 0

/-- A kind that is none of the module's is not supported, over whatever transport. -/
theorem ptpSupported_of_kind (os : List Nat) (h kind : Nat) (hk : ptpKinds.contains kind = false) :
    ptpSupported os h kind = false := by rw [ptpSupported, hk, Bool.and_false, Bool.false_and]

theorem witness_TrafficAndMapEventsComplete :
    ((let s := traffic
     s.up = true ∧ s.domOn 76 = true ∧ s.rdb PORT_STAT_LINK (15 : Fin 16) = true ∧ s.rdb PORT_CTL_EN (15 : Fin 16) = true) ∧
    (let s := traffic.wr PORT_PTP_EN 1 15
     60 ≤ pdelay.length ∧ s.rdb PORT_PTP_EN (15 : Fin 16) = true ∧ u16 (pdelay.map BitVec.toNat) 12 ≠ 0x8808 ∧
       isPtp (pdelay.map BitVec.toNat) (s.rdb PORT_PTP_UDP4 (15 : Fin 16)) = some 14 ∧
       ptpSupported (pdelay.map BitVec.toNat) 14 ((pdelay.map BitVec.toNat).getD 14 0 % 16) = false) ∧
    (∀ lim ∈ [1000, 0], let s := service5 lim
      60 ≤ frame64.length ∧ u16 (frame64.map BitVec.toNat) 12 = 0x88A8 ∧ frame64.length ≤ 16379 ∧ s.rdb PORT_PTP_EN (15 : Fin 16) = false ∧ s.forwards = true ∧
        foundB s (lim ≠ 0) = true) ∧
    (∀ more ∈ [[], [0]], let b := burst4 more
      let s := traffic { bursts := [(511, [b])], reas := [(4, ⟨some 0, some (unit0 false), 0⟩)] }
      let h := octetsToNat ((b.octets.drop b.pos).take 4)
      s.burstsOf (511 : Fin 512) = b :: [] ∧ b.hit b.pos 4 = false ∧ h / 2 ^ 18 = 4 ∧ b.pos + 4 + 4 ≤ b.octets.length ∧
        b.hit (b.pos + 4) 4 = false ∧ h.testBit 17 = false ∧ h.testBit 16 = false ∧ (s.reasAt b.alloc).unit = some (unit0 false) ∧
        (s.reasAt b.alloc).exp = some (h / 2 ^ 10 % 64) ∧ (unit0 false).octets.length + 4 < 16 + (unit0 false).len) ∧
    (∀ d ∈ [false, true], let s := traffic { reas := [(65535, ⟨some 0, some (unit0 d), 0⟩)] } (8000 * ticksFr)
      (s.reasAt (65535 : Fin 65536)).unit = some (unit0 d) ∧ (s.reasAt (65535 : Fin 65536)).at_ + 8000 * ticksFr ≤ s.now ∧ (unit0 d).queue < 141312)) ∧
    ((∀ good ∈ [true, false], let s := { traffic { verify := [(7, [verify0 good])] } 5 with edw := { keys := [], trk := [(1, some cmdKey)] } }
      sget (fun _ => []) s.traf.verify (7 : Fin 8) = verify0 good :: [] ∧ (verify0 good).tR ≤ s.now ∧
        s.keyOf (.term ((verify0 good).alloc / 4)) = some cmdKey ∧ cmdKey.gen (verify0 good).phase = some ⟨key0, 0, 0, 0, false, false, 0, []⟩ ∧
        s.traf.sent = [] ∧ s.rdb EDW_STAT_ERROR = false ∧ (verify0 good).page < 64 ∧ (verify0 good).queue < 141312 ∧
        (s.wr EDW_STAT_ERROR 1).rdb EDW_STAT_ERROR = true ∧
        (KeyGen.mk key0 0 0 0 false false 0 []).marks.contains (verify0 good).ctr = false) ∧
    (∀ start ∈ [5, 6], let s := { traffic { verify := [(7, [verify0 false])], sent := [⟨15, 0, start, [1, 2]⟩] } 5 with edw := { keys := [], trk := [(1, some cmdKey)] } }
      s.traf.sent.find? (fun y => y.desc = (verify0 false).desc) = some ⟨15, 0, start, [1, 2]⟩ ∧ s.rdb EDW_STAT_ERROR = false ∧
        decide ((verify0 false).tR < start) = decide (start = 6)) ∧
    (let s := (traffic { queues := [(140800, [⟨0, 64, 0, true, false, false, false, 0, false⟩])], packets := [(0, some { pkt0 64 with held := 0 })] }).setReg
       (queAddr 140800) (word (2 ^ 21 + 1)) |>.setReg (0o442200000 + 4 * ringKey 531 0 + 1) (word 8)
     s.forwards = true ∧ s.egressUp (531 : Fin 532) = true ∧ s.hasRoom (531 : Fin 532) = true ∧
       (match ((s.countBadQueues 531).seeEgress 531).pickEgress 531 with
        | some (q, v) => q = 140800 && (match v.queue q with
          | x :: _ => (v.packet x.desc).isSome
          | [] => false)
        | none => false) = true) ∧
    ((traffic {} ticksSf).up = true ∧ (traffic {} ticksSf).traf.sweepSf ≤ (traffic {} ticksSf).now / ticksSf) ∧
    (∀ q ∈ [0, sweepQueues - 1], let s := (traffic { sweepAt := 7 } (7 + sweepTicks * q)).wr QUE_SWEEP_BUSY 1
      s.rdb QUE_SWEEP_BUSY = true ∧ s.now = s.traf.sweepAt + sweepTicks * q ∧ q < sweepQueues) ∧
    (∀ st ∈ [dsDark, dsLit], let s := { chEv st 0 { commits := [(2, [])] } (4 * ticksFr) with trees := [(63, { lastN := 1 })] }
      s.domOn (63 : Fin 64) = true ∧ s.imgRuns (63 : Fin 64) = false ∧ 2 = (s.tree (63 : Fin 64)).lastN + 1 ∧
        s.deadline (63 : Fin 64) 2 ≤ s.now ∧ s.commitRuns (63 : Fin 64) 2 = false ∧ s.dsLight (8 * (63 : Fin 64) + 7) = decide (st = dsLit) ∧
        ((s.chan (8 * (63 : Fin 64) + 7)).commits.find? fun m => m.1 = 2) = some (2, []))) := by
  refine ⟨⟨?_, ⟨?_, ?_, ?_, ?_, ptpSupported_of_kind _ _ _ (by decide +kernel)⟩, ?_, ?_, ?_⟩, ?_, ?_, ?_, ?_, ?_, ?_⟩ <;>
    decide +kernel

/-! ### The queue and the whole machine -/

theorem witness_StepRunsFrontCommand :
    ({ State.reset with pending := [.ocxoWarm, .backupLoss] } : State).pending = .ocxoWarm :: [.backupLoss] ∧
      State.reset.pending = [] := ⟨rfl, rfl⟩

theorem witness_StoredLanes :
    (let v : PWord := ⟨5, true⟩; v.p = true) ∧ (let v : PWord := ⟨5, false⟩; v.p = false) ∧ (8 : Nat).testBit 3 = true ∧
      (7 : Nat).testBit 3 = false := by decide

theorem witness_LinePositionWords :
    lpOk (499999 * 16) = true ∧ lpOk (8191 * 2 ^ 23 + 15) = true ∧ (15 : Nat) < 16 ∧
      (2 ^ 36 * ticksSf - 1) + 0 < 2 ^ 36 * ticksSf := by decide +kernel

theorem witness_HergilDecodeOfEncode :
    (let i : Instr := .waita 76 31 false; i.wf = true ∧ (encodeHergil i).isSome = true ∧ ∀ n d, i ≠ .waita n d true ∧ i ≠ .cpop n d true) ∧
    (let i : Instr := .ld 0 1 (at_ 3 2); i.wf = true ∧ (encodeHergil i).isSome = true) :=
  ⟨⟨by decide +kernel, by decide +kernel, fun _ _ => ⟨by simp, by simp⟩⟩, by decide +kernel⟩

theorem witness_EveryStepKeepsTheCanonicalForms :
    State.reset.canonical = true ∧ step State.reset = .next State.reset.tick.readMeters.idleFill := ⟨by decide +kernel, rfl⟩

theorem witness_CommandsLeaveTheQueueInOrder :
    run 2 { State.reset with pending := [.backupLoss, .backupLoss, .ocxoWarm] } =
      some { State.reset with pending := [.ocxoWarm], pwr := { State.reset.pwr with lostBackup := true } } := rfl

end Sys2Proof.Tests
end

section
/-! PROOF. Words of a line position (R9, R10). -/

namespace Sys2Proof.Machine

/-- Bits above the four reserved ones read the same whatever the reserved bits are (R9). -/
theorem bitsOf_reserved {b r hi lo : Nat} (hr : r < 16) (hlo : 4 ≤ lo) :
    bitsOf (b / 16 * 16 + r) hi lo = bitsOf b hi lo := by
  have e : (2 : Nat) ^ lo = 16 * 2 ^ (lo - 4) := by
    rw [show (16 : Nat) = 2 ^ 4 from rfl, ← Nat.pow_add, Nat.add_sub_cancel' hlo]
  unfold bitsOf
  rw [e, ← Nat.div_div_eq_div_mul, ← Nat.div_div_eq_div_mul, show (b / 16 * 16 + r) / 16 = b / 16 by omega]

/-- Word B of a position has its reserved bits zero (R9). -/
theorem lpB_mod_reserved (t : Nat) : lpB t % 16 = 0 := by
  unfold lpB; omega

/-- An LP is valid exactly when its tick field is at most 499,999 (R9). -/
theorem lpOk_iff (b : Nat) : lpOk b = true ↔ ¬ 499999 < bitsOf b 22 4 := by
  rw [lpOk, decide_eq_true_eq, ticksFr]; omega

/-- The frame field has 13 bits (R9). -/
theorem frameField_le (b : Nat) : bitsOf b 35 23 ≤ 8191 := by
  unfold bitsOf; omega

/-- Valid LPs stand in the order of superframe, frame, tick (R10). -/
theorem lpTicks_lt_iff {a b c d : Nat} (hb : lpOk b = true) (hd : lpOk d = true) :
    lpTicks a b < lpTicks c d ↔ a < c ∨ (a = c ∧ (bitsOf b 35 23 < bitsOf d 35 23 ∨
      (bitsOf b 35 23 = bitsOf d 35 23 ∧ bitsOf b 22 4 < bitsOf d 22 4))) := by
  rw [lpOk_iff] at hb hd
  have hfb := frameField_le b
  have hfd := frameField_le d
  simp only [lpTicks, ticksSf, ticksFr]
  omega

/-- The frame field of word B of a position. -/
theorem frameField_lpB (t : Nat) : bitsOf (lpB t) 35 23 = t / 500000 % 8192 := by
  simp only [bitsOf, lpB, ticksSf, ticksFr]; omega

/-- The tick field of word B of a position. -/
theorem tickField_lpB (t : Nat) : bitsOf (lpB t) 22 4 = t % 500000 := by
  simp only [bitsOf, lpB, ticksSf, ticksFr]; omega

/-- Word A of a position within the 36 bits of the superframe number. -/
theorem lpA_eq {t : Nat} (ht : t < 2 ^ 36 * ticksSf) : lpA t = t / 500000 / 8192 := by
  simp only [lpA, ticksSf] at *; omega

/-- A position written as words and read again is the same position (R9, R10). -/
theorem lpTicks_words {t : Nat} (ht : t < 2 ^ 36 * ticksSf) : lpTicks (lpA t) (lpB t) = t := by
  rw [lpTicks, lpA_eq ht, frameField_lpB, tickField_lpB]
  simp only [ticksSf, ticksFr]; omega

/-- Settles O57, from the fields of word B and the carries between them. -/
theorem linePositionWords : Obligations.LinePositionWords := by
  refine ⟨lpB_mod_reserved, fun a b r hr => ?_, lpOk_iff, frameField_le, fun a b c d => lpTicks_lt_iff,
    fun t k h => ⟨lpTicks_words h, ?_, tickField_lpB _, frameField_lpB _, lpA_eq h⟩, by decide⟩
  · simp only [lpTicks, lpOk, bitsOf_reserved hr (show 4 ≤ 23 by omega), bitsOf_reserved hr (Nat.le_refl 4), and_self]
  · rw [lpOk_iff, tickField_lpB]; omega

end Sys2Proof.Machine
end

section
/-! PROOF. The state after reset (R15, R37, R571, R582). -/

namespace Sys2Proof.Machine
open Reg

/-- Every register word of the reset state but that of domain 79 reads its reset value (R15). -/
theorem reset_reg {a : Nat} (h : a ≠ PWR_DOM_STATE.addr 0 79 0) : State.reset.reg a = resetWord a := by
  have h' : 0o404001217 ≠ a := fun e => h (e ▸ rfl)
  simp only [State.reg, State.reset, sget, if_neg h']

/-- Domain 79 alone is ON after reset (log entry 3). -/
theorem reset_domOn : ∀ d, d < 80 → (State.reset.domOn d = true ↔ d = 79) := by decide +kernel

/-- Every core is OFF after reset. -/
theorem reset_coreState : ∀ n, n < 77 → State.reset.coreState n = cOff := by decide +kernel

/-- The attenuators are at their largest and the received powers at their least after reset. -/
theorem reset_linePower : ∀ l, l < 4 → State.reset.rd LINE_TX_PWR_ATT l = 511 ∧ State.reset.rdi LINE_RX_PWR_IN l = -512 := by
  decide +kernel

/-- Settles O55, register by register from their table values. -/
theorem resetState : Obligations.ResetState :=
  ⟨rfl, rfl, rfl, rfl, rfl, by decide +kernel, rfl, by decide +kernel, fun _ => reset_reg, reset_domOn, by decide +kernel,
    reset_coreState, reset_linePower⟩

end Sys2Proof.Machine
end

section
/-! PROOF. A written word by the access codes of its fields (R12, R13). -/

namespace Sys2Proof.Machine

/-- Two bit ranges, each from its top bit to its bottom bit, share no bit. -/
def Apart (hi lo hi' lo' : Nat) : Prop := hi < lo' ∨ hi' < lo

/-- What one field makes of a word `n` in a write: the step of `mergeWord`. -/
def mergeField (old b x n : Nat) (f : Field) : Nat :=
  if f.writable then setBits n f.hi f.lo (bitsOf b f.hi f.lo)
  else if f.acc = .w1c then setBits n f.hi f.lo (bitsOf old f.hi f.lo &&& (2 ^ f.width - 1 - bitsOf x f.hi f.lo))
  else n

/-- What a field of the word `old` holds after a write, by its access code (R12, R13). -/
def fieldAfter (old b x : Nat) (f : Field) : Nat :=
  if f.acc = .rw ∨ f.acc = .rwl then bitsOf b f.hi f.lo
  else if f.acc = .w1c then bitsOf old f.hi f.lo &&& (2 ^ (f.hi + 1 - f.lo) - 1 - bitsOf x f.hi f.lo)
  else bitsOf old f.hi f.lo

theorem mergeWord_eq_foldl (fields : List (Field × Nat)) (old b x : Nat) :
    mergeWord fields old b x = fields.foldl (fun n e => mergeField old b x n e.1) old := rfl

theorem writable_iff (f : Field) : f.writable = true ↔ f.acc = .rw ∨ f.acc = .rwl := by
  simp [Field.writable]

theorem bitsOf_lt (n hi lo : Nat) : bitsOf n hi lo < 2 ^ (hi + 1 - lo) := Nat.mod_lt _ (by positivity)

/-- A range apart from the one set reads as before. -/
theorem bitsOf_setBits_apart {hi lo hi' lo' : Nat} (n v : Nat) (h : lo ≤ hi) (h' : lo' ≤ hi') (ha : Apart hi lo hi' lo') :
    bitsOf (setBits n hi lo v) hi' lo' = bitsOf n hi' lo' := by
  cases ha with
  | inl above => exact bitsOf_setBits_above _ _ _ _ _ _ h above
  | inr below => exact bitsOf_setBits_below _ _ _ _ _ _ h below h'

/-- A field's step leaves every range apart from it. -/
theorem bitsOf_mergeField_apart {f : Field} {hi lo : Nat} (old b x n : Nat) (hf : f.lo ≤ f.hi) (h : lo ≤ hi)
    (ha : Apart f.hi f.lo hi lo) : bitsOf (mergeField old b x n f) hi lo = bitsOf n hi lo := by
  unfold mergeField
  split
  · exact bitsOf_setBits_apart _ _ hf h ha
  · split
    · exact bitsOf_setBits_apart _ _ hf h ha
    · rfl

/-- A field's step gives it what its access code says, when it still holds its old value. -/
theorem bitsOf_mergeField {f : Field} {old n : Nat} (b x : Nat) (hf : f.lo ≤ f.hi)
    (hn : bitsOf n f.hi f.lo = bitsOf old f.hi f.lo) :
    bitsOf (mergeField old b x n f) f.hi f.lo = fieldAfter old b x f := by
  simp only [mergeField, fieldAfter, writable_iff]
  split
  · rw [bitsOf_setBits _ _ _ _ hf, Nat.mod_eq_of_lt (bitsOf_lt _ _ _)]
  · split
    · rw [bitsOf_setBits _ _ _ _ hf, Field.width, Nat.mod_eq_of_lt (Nat.lt_of_le_of_lt Nat.and_le_left (bitsOf_lt _ _ _))]
    · exact hn

/-- The steps of fields apart from a range leave it. -/
theorem bitsOf_foldl_apart {fields : List (Field × Nat)} {hi lo : Nat} (old b x n : Nat) (h : lo ≤ hi)
    (hf : ∀ e ∈ fields, e.1.lo ≤ e.1.hi) (ha : ∀ e ∈ fields, Apart e.1.hi e.1.lo hi lo) :
    bitsOf (fields.foldl (fun n e => mergeField old b x n e.1) n) hi lo = bitsOf n hi lo := by
  induction fields generalizing n with
  | nil => rfl
  | cons f t ih =>
    rw [List.forall_mem_cons] at hf ha
    rw [List.foldl_cons, ih _ hf.2 ha.2, bitsOf_mergeField_apart _ _ _ _ hf.1 h ha.1]

/-- The steps of fields that do not overlap give each what its access code says. -/
theorem bitsOf_foldl_mem {fields : List (Field × Nat)} {old n : Nat} (b x : Nat)
    (hf : ∀ e ∈ fields, e.1.lo ≤ e.1.hi) (hp : fields.Pairwise fun e f => Apart e.1.hi e.1.lo f.1.hi f.1.lo)
    (hn : ∀ e ∈ fields, bitsOf n e.1.hi e.1.lo = bitsOf old e.1.hi e.1.lo) :
    ∀ e ∈ fields, bitsOf (fields.foldl (fun n e => mergeField old b x n e.1) n) e.1.hi e.1.lo = fieldAfter old b x e.1 := by
  induction fields generalizing n with
  | nil => simp
  | cons f t ih =>
    rw [List.forall_mem_cons] at hf hn ⊢
    rw [List.pairwise_cons] at hp
    simp only [List.foldl_cons]
    refine ⟨?_, ih hf.2 hp.2 fun e he => ?_⟩
    · rw [bitsOf_foldl_apart _ _ _ _ hf.1 hf.2 fun e he => (hp.1 e he).symm, bitsOf_mergeField _ _ hf.1 hn.1]
    · rw [bitsOf_mergeField_apart _ _ _ _ hf.1 (hf.2 e he) (hp.1 e he), hn.2 e he]

/-- A bit is the range of that one bit. -/
theorem testBit_eq_bitsOf (n i : Nat) : n.testBit i = decide (bitsOf n i i = 1) := by
  rw [Nat.testBit_eq_decide_div_mod_eq, bitsOf, Nat.add_sub_cancel_left, pow_one]

/-- Settles O21, by induction over the fields of the word. -/
theorem writeByAccessCode : Obligations.WriteByAccessCode := by
  intro fields old b x _ hf hp
  have hle : ∀ e ∈ fields, e.1.lo ≤ e.1.hi := fun e he => (hf e he).1
  refine ⟨bitsOf_foldl_mem b x hle hp fun _ _ => rfl, fun i hi => ?_⟩
  rw [testBit_eq_bitsOf, testBit_eq_bitsOf, mergeWord_eq_foldl,
    bitsOf_foldl_apart _ _ _ _ (Nat.le_refl i) hle fun e he => (hi e he).symm]

end Sys2Proof.Machine
end

section
/-! PROOF. A whole-word write of a register (R12, R14, R91–R93). -/

namespace Sys2Proof.Machine
open Ev Reg

/-- The lanes of a whole-word write cover the word. -/
theorem lanesMask_whole : lanesMask 15 = 2 ^ 36 - 1 := by decide

/-- A whole-word write brings the bits of the word that the register has. -/
theorem written_whole (a : Nat) (w : Word) : w.toNat &&& lanesMask 15 &&& keptBits a = written a w := by
  rw [lanesMask_whole, Nat.and_two_pow_sub_one_eq_mod, Nat.mod_eq_of_lt w.isLt, written]

/-- A whole-word write keeps no bit of the old word in the word that it is blended into. -/
theorem blend_whole (old x : Nat) : (old &&& (2 ^ 36 - 1 - lanesMask 15)) + x = x := by
  rw [lanesMask_whole, Nat.sub_self, Nat.and_zero, Nat.zero_add]

/-- A whole-word write that no watchdog lock discards, by what the checks say of it (R12, R14). -/
theorem busWrite_whole (s : State) (m : Nat) {a : Nat} (w : Word) (issued : Nat) (ha : a ≠ 0o404001001) :
    (s.judged a w = .done → a < 0o460000000 → memInstance a = none →
      (s.busWrite m a 15 w none issued).2 = (s.setReg a (s.after a w)).afterWrite s a 15 (word (written a w))) ∧
    (s.judged a w = .refused → (s.busWrite m a 15 w none issued).2 = s.count REG_RWL_REFUSE) := by
  have hgo : ¬(15 % 16 = 0 ∨ (a = 0o404001001 ∧ s.rdb PWR_WDOG_CTL_EN = true)) := by simp [ha]
  unfold State.busWrite
  rw [if_neg hgo]
  simp only [written_whole, blend_whole]
  constructor
  · intro hj hlt hm
    rw [State.judged] at hj
    rw [hj, hm]
    simp only [if_neg (Nat.not_le.mpr hlt), Option.isSome_none, Bool.false_eq_true, if_false, State.after]
  · intro hj
    rw [State.judged] at hj
    rw [hj]

/-- A whole-word write that is rejected leaves the state (R14). -/
theorem busWrite_rejected (s : State) (m a : Nat) (w : Word) (issued : Nat)
    (h : s.judged a w = .reserved ∨ s.judged a w = .badState ∨ s.judged a w = .badRange) :
    (s.busWrite m a 15 w none issued).2 = s := by
  unfold State.busWrite
  split
  · rfl
  · simp only [written_whole, blend_whole]
    rw [State.judged] at h
    rcases h with h | h | h <;> rw [h]

/-- A request that reaches a register is served there at once (R91). -/
theorem portWrite_of_reaches {s : State} {m a : Nat} (w : Word) (h : s.reaches m a true) :
    s.portWrite m a w = (s.busWrite m a 15 w none (coreView m a)).2 := by
  obtain ⟨hmaster, hresolve, hfree⟩ := h
  unfold State.portWrite
  simp [hmaster, hresolve, hfree]

/-- A request whose address fails gets the error response of its cause (R93). -/
theorem portWrite_of_error {s : State} {m a cause : Nat} (w : Word) (hm : isMaster m = true)
    (h : s.resolve (m / 8) (coreView m a) true = .error (.dec cause)) :
    s.portWrite m a w = s.decErr (m / 8) (m % 8) a cause := by
  unfold State.portWrite
  simp [hm, h, State.badAccess]

/-- REGISTER_WRITE of an address of the register region is one whole-word request. -/
theorem exec_registerWrite (s : State) (m : Nat) {a : Nat} (w : Word) (h : 0o400000000 ≤ a ∧ a < 0o1000000000) :
    exec (.registerWrite m a w) s = .next (s.portWrite m a w) := by
  show execRegisterWrite m a w s = _
  rw [execRegisterWrite, if_pos h]

/-- The host and the S-core are masters. -/
theorem isMaster_of_host {m : Nat} (h : m / 8 = 76 ∨ m = 1016) : isMaster m = true := by
  have e : masterId extMaster 0 = 1016 := rfl
  rcases h with h | h <;> simp [isMaster, e, h]

/-- Their requests go by the module matrix (R93). -/
theorem matrixOf_of_host {m : Nat} (h : m / 8 = 76 ∨ m = 1016) : matrixOf (m / 8) = 0 :=
  if_neg (by omega)

/-- A register field set after an event leaves its record. -/
theorem raised_wr {s t : State} {c : Code} {j : Nat} {args : List Int} {f : Field} {v i a b : Nat}
    (h : c.raised s t j args) : c.raised s (t.wr f v i a b) j args := h

/-- An error response at the module matrix (R93, R111): it is counted, and the registers of the matrix hold it. -/
theorem decErr_module (s : State) {n unit a cause : Nat} (hx : matrixOf n = 0) (ha : a < 2 ^ 30) (hc : cause ≤ 3)
    (hm : masterId n unit < 2 ^ 10) :
    let t := s.decErr n unit a cause
    t.rd MTX_DECERR_ADDR = a ∧ t.rd MTX_DECERR_SRC_CAUSE = cause ∧ t.rd MTX_DECERR_SRC_MASTER = masterId n unit ∧
      MTX_DECERR.raised s t 0 [] ∧ t = { s with regs := t.regs, cnt := t.cnt, tblRaw := t.tblRaw, evt := t.evt } := by
  intro t
  let u := (s.count MTX_DECERR 0).wr MTX_DECERR_ADDR a
  let v := u.wr MTX_DECERR_SRC_CAUSE cause
  have ht : t = v.wr MTX_DECERR_SRC_MASTER (masterId n unit) := by
    simp only [t, State.decErr, hx, if_pos, u, v]
  have haddr : t.rd MTX_DECERR_ADDR = u.rd MTX_DECERR_ADDR := by
    rw [ht, rd_wr_ne _ _ _ _ _ _ _ _ _ _ (by decide), rd_wr_ne _ _ _ _ _ _ _ _ _ _ (by decide)]
  have hcause : t.rd MTX_DECERR_SRC_CAUSE = v.rd MTX_DECERR_SRC_CAUSE := by
    rw [ht, rd_wr_apart _ _ _ _ _ _ _ _ _ _ (by decide) (by decide) (by decide) (by decide)]
  refine ⟨?_, ?_, ?_, ?_, ?_⟩
  · rw [haddr, rd_wr _ _ _ _ _ _ (by decide) (by decide)]
    exact Nat.mod_eq_of_lt (show a < 2 ^ (29 + 1 - 0) by omega)
  · rw [hcause, rd_wr _ _ _ _ _ _ (by decide) (by decide)]
    exact Nat.mod_eq_of_lt (show cause < 2 ^ (11 + 1 - 10) by omega)
  · rw [ht, rd_wr _ _ _ _ _ _ (by decide) (by decide)]
    exact Nat.mod_eq_of_lt (show masterId n unit < 2 ^ (9 + 1 - 0) from hm)
  · rw [ht]
    exact raised_wr (raised_wr (raised_wr (count_raised s MTX_DECERR 0 1 Nat.one_ne_zero)))
  · rw [ht]
    have he := (count_events s MTX_DECERR 0 1).1
    simp only [v, u, State.wr, State.setReg]
    rw [he]

/-- Settles O22: the request is one whole-word write, whose outcome is what the checks say. -/
theorem registerWriteComplete : Obligations.RegisterWriteComplete := by
  refine ⟨fun s m a w hlo hhi hmem ha h => ?_, fun s m a w hlo hhi h hj => ?_, fun s m a w hlo hhi ha h hj => ?_,
    fun s m a cause w hlo hhi hm hr hc => ?_⟩
  · obtain ⟨hreach, hj⟩ := h
    rw [exec_registerWrite s m w ⟨hlo, by omega⟩, portWrite_of_reaches w hreach,
      (busWrite_whole s m w _ ha).1 hj hhi hmem]
  · rw [exec_registerWrite s m w ⟨hlo, hhi⟩, portWrite_of_reaches w h, busWrite_rejected s m a w _ hj]
  · refine ⟨s.count REG_RWL_REFUSE, ?_, count_events s _ 0 1, count_raised s _ 0 1 Nat.one_ne_zero⟩
    rw [exec_registerWrite s m w ⟨hlo, hhi⟩, portWrite_of_reaches w h, (busWrite_whole s m w _ ha).2 hj]
  · have hid : masterId (m / 8) (m % 8) = m := by unfold masterId; omega
    refine ⟨s.decErr (m / 8) (m % 8) a cause, ?_, ?_⟩
    · rw [exec_registerWrite s m w ⟨hlo, hhi⟩, portWrite_of_error w (isMaster_of_host hm) hr]
    · have h := decErr_module s (matrixOf_of_host hm) (show a < 2 ^ 30 by omega) hc (by rw [hid]; omega)
      rwa [hid] at h

end Sys2Proof.Machine
end

section
/-! PROOF. What every update of the state keeps: the queue of commands and the canonical form of the tables.
The lemma of each operation of the model has the operation's name. -/

namespace Sys2Proof.Machine

open Reg Ev

/-- `t` has the queue of `s`, and its tables are in canonical form when those of `s` are. -/
structure Tidy (s t : State) : Prop where
  queue : t.pending = s.pending
  canonical : s.canonical = true → t.canonical = true

/-- An outcome that is a next state, and one tidy from `s`. -/
def Answers (s : State) (o : Host.Outcome State Fault Refusal) : Prop := ∃ t, o = .next t ∧ Tidy s t

/-- What an instruction came to leaves a state tidy from `s`. -/
def TidyRun (s : State) : Run → Prop
  | .done t _ _ | .marked t _ _ | .trap t _ | .stay t | .held t _ => Tidy s t

/-- What an instruction fetch finds leaves a state tidy from `s`. -/
def TidyFetch (s : State) : Fetched → Prop
  | .stall => True
  | .bad t _ | .illegal t | .instr t _ _ => Tidy s t

/-- How an access came out leaves a state tidy from `s`. -/
def TidyAcc {α : Type} (s : State) : Acc α → Prop
  | .held _ => True
  | .ok t _ | .bad t _ => Tidy s t

variable {s₀ s : State}

theorem Tidy.refl (s : State) : Tidy s s := ⟨rfl, id⟩

/-- What keeps the queue and the five tables is tidy, whatever else changes. -/
theorem Tidy.same {now free calAcc calCnt : Nat} {latch : List (Nat × PWord)} {time : TimeSt} {cores : List (Nat × CoreSt)}
    {mtx : List MtxReq} {mtxLast : List (Nat × Nat)} {ramTurn zeroing : List Nat} {img : ImgSt} {evt : EvtSt} {grm : GrmSt}
    {svc : SvcSt} {pwr : PwrSt} {edw : EdwSt} {lines : List (Nat × LineSt)} {ohDo : List (Nat × List Nat)} {traf : TrafSt}
    {chans : List (Nat × ChSt)} {trees : List (Nat × TreeSt)} {mons : List (Nat × MonSt)}
    {calCmds : List (Nat × List Nat × Nat)} (h : Tidy s₀ s) :
    Tidy s₀ { s with
      now, free, calAcc, calCnt, latch, time, cores, mtx, mtxLast, ramTurn, zeroing, img, evt, grm, svc, pwr, edw, lines, ohDo,
      traf, chans, trees, mons, calCmds } :=
  ⟨h.queue, h.canonical⟩

theorem Tidy.ite {p : Prop} [Decidable p] {t u : State} (ht : Tidy s₀ t) (hu : Tidy s₀ u) : Tidy s₀ (if p then t else u) := by
  split <;> assumption

theorem Tidy.foldl {α : Type} {f : State → α → State} {l : List α} (h : Tidy s₀ s)
    (hf : ∀ t x, Tidy s₀ t → Tidy s₀ (f t x)) : Tidy s₀ (l.foldl f s) := by
  induction l generalizing s with
  | nil => exact h
  | cons x l ih => exact ih (hf _ _ h)

theorem Tidy.answers (h : Tidy s₀ s) : Answers s₀ (.next s) := ⟨s, rfl, h⟩

theorem Answers.next (h : Tidy s₀ s) : Answers s₀ (.next s) := h.answers

theorem Answers.ite {p : Prop} [Decidable p] {o q : Host.Outcome State Fault Refusal} (ho : Answers s₀ o) (hq : Answers s₀ q) :
    Answers s₀ (if p then o else q) := by
  split <;> assumption

theorem TidyRun.ite {p : Prop} [Decidable p] {x y : Run} (hx : TidyRun s₀ x) (hy : TidyRun s₀ y) :
    TidyRun s₀ (if p then x else y) := by
  split <;> assumption

theorem TidyAcc.ite {α : Type} {p : Prop} [Decidable p] {x y : Acc α} (hx : TidyAcc s₀ x) (hy : TidyAcc s₀ y) :
    TidyAcc s₀ (if p then x else y) := by
  split <;> assumption

theorem TidyFetch.ite {p : Prop} [Decidable p] {x y : Fetched} (hx : TidyFetch s₀ x) (hy : TidyFetch s₀ y) :
    TidyFetch s₀ (if p then x else y) := by
  split <;> assumption

/-- A pair named by a `match` or a `let`: its state is the one the pair's lemma speaks of. -/
theorem Tidy.fst {α : Type} {p : State × α} {t : State} {a : α} (h : Tidy s₀ p.1) (e : p = (t, a)) : Tidy s₀ t := by
  subst e; exact h

theorem Tidy.snd {α : Type} {p : α × State} {t : State} {a : α} (h : Tidy s₀ p.2) (e : p = (a, t)) : Tidy s₀ t := by
  subst e; exact h

theorem Tidy.third {α β : Type} {p : α × β × State} {t : State} {a : α} {b : β} (h : Tidy s₀ p.2.2) (e : p = (a, b, t)) :
    Tidy s₀ t := by
  subst e; exact h

theorem Tidy.asFst {α : Type} {t : State} {a : α} (h : Tidy s₀ t) : Tidy s₀ (t, a).1 := h

theorem Tidy.asSnd {α : Type} {t : State} {a : α} (h : Tidy s₀ t) : Tidy s₀ (a, t).2 := h

theorem Tidy.asThird {α β : Type} {t : State} {a : α} {b : β} (h : Tidy s₀ t) : Tidy s₀ (a, b, t).2.2 := h

theorem Tidy.iteSnd {α : Type} {c : Prop} [Decidable c] {p q : α × State} (hp : Tidy s₀ p.2) (hq : Tidy s₀ q.2) :
    Tidy s₀ (if c then p else q).2 := by
  split <;> assumption

/-- A fold that carries a state beside what it collects. -/
theorem Tidy.foldlSnd {α β : Type} {f : α × State → β → α × State} {l : List β} {p : α × State} (h : Tidy s₀ p.2)
    (hf : ∀ q x, Tidy s₀ q.2 → Tidy s₀ (f q x).2) : Tidy s₀ (l.foldl f p).2 :=
  List.foldlRecOn (motive := fun q => Tidy s₀ q.2) l f h fun q hq x _ => hf q x hq

theorem Tidy.foldlThird {α β γ : Type} {f : α × γ × State → β → α × γ × State} {l : List β} {p : α × γ × State}
    (h : Tidy s₀ p.2.2) (hf : ∀ q x, Tidy s₀ q.2.2 → Tidy s₀ (f q x).2.2) : Tidy s₀ (l.foldl f p).2.2 :=
  List.foldlRecOn (motive := fun q => Tidy s₀ q.2.2) l f h fun q hq x _ => hf q x hq

theorem TidyFetch.bad {f : Fetched} {t : State} {c : Nat} (h : TidyFetch s₀ f) (e : f = .bad t c) : Tidy s₀ t := by
  subst e; exact h

theorem TidyFetch.illegal {f : Fetched} {t : State} (h : TidyFetch s₀ f) (e : f = .illegal t) : Tidy s₀ t := by
  subst e; exact h

theorem TidyFetch.instr {f : Fetched} {t : State} {i : Instr} {w : Word} (h : TidyFetch s₀ f) (e : f = .instr t i w) :
    Tidy s₀ t := by
  subst e; exact h

theorem TidyAcc.ok {α : Type} {x : Acc α} {t : State} {y : α} (h : TidyAcc s₀ x) (e : x = .ok t y) : Tidy s₀ t := by
  subst e; exact h

theorem TidyAcc.bad {α : Type} {x : Acc α} {t : State} {c : Nat} (h : TidyAcc s₀ x) (e : x = .bad t c) : Tidy s₀ t := by
  subst e; exact h

/-! ### The primitive updates of the tables -/

theorem Tidy.setReg {a : Nat} {w : Word} (h : Tidy s₀ s) : Tidy s₀ (s.setReg a w) :=
  ⟨h.queue, fun k => canonical_setReg a w (h.canonical k)⟩

theorem Tidy.resetRegs {rs : List Retention} {p : Nat → Bool} (h : Tidy s₀ s) : Tidy s₀ (s.resetRegs rs p) :=
  ⟨h.queue, fun k => canonical_resetRegs rs p (h.canonical k)⟩

theorem Tidy.setMem {a : Nat} {x : Stored} (h : Tidy s₀ s) : Tidy s₀ (s.setMem a x) :=
  ⟨h.queue, fun k => canonical_setMem a x (h.canonical k)⟩

theorem Tidy.zeroMem {p : Nat → Bool} (h : Tidy s₀ s) : Tidy s₀ (s.zeroMem p) :=
  ⟨h.queue, fun k => canonical_zeroMem p (h.canonical k)⟩

theorem Tidy.cntPut {x v : Nat} (h : Tidy s₀ s) : Tidy s₀ (s.cntPut x v) :=
  ⟨h.queue, fun k => canonical_cntPut x v (h.canonical k)⟩

theorem Tidy.cntSetWord {x : Nat} {chain : Bool} {v : Nat} (h : Tidy s₀ s) : Tidy s₀ (s.cntSetWord x chain v) :=
  ⟨h.queue, fun k => canonical_cntSetWord x chain v (h.canonical k)⟩

theorem Tidy.tblPut {a : Nat} {w : Word} (h : Tidy s₀ s) : Tidy s₀ (s.tblPut a w) :=
  ⟨h.queue, fun k => canonical_tblPut a w (h.canonical k)⟩

theorem Tidy.cleanCells {cs : List Nat} (h : Tidy s₀ s) : Tidy s₀ (s.cleanCells cs) :=
  ⟨by rw [State.cleanCells]; exact h.queue, fun k => canonical_cleanCells cs (h.canonical k)⟩

theorem Tidy.wr {f : Field} {v i a b : Nat} (h : Tidy s₀ s) : Tidy s₀ (s.wr f v i a b) := h.setReg

theorem Tidy.wipeKeys (h : Tidy s₀ s) : Tidy s₀ s.wipeKeys := by
  unfold State.wipeKeys
  extract_lets _ s1 page s2
  have h2 : Tidy s₀ s2 := ⟨h.queue, fun k => by
    have h1 := (canonical_iff s1).mp (h.same.canonical k)
    exact (canonical_iff s2).mpr ⟨h1.1, swf_sdrop page h1.2.1, h1.2.2⟩⟩
  exact h2.wr.wr.wr

/-- The raw bits of a table word set or dropped (R517–R519). -/
theorem Tidy.tblRaw {a : Nat} {x : Option Stored} (h : Tidy s₀ s) :
    Tidy s₀ { s with tblRaw := sput (fun _ => none) s.tblRaw a x } :=
  ⟨h.queue, fun k => canonical_tblRaw a x (h.canonical k)⟩

/-- The raw bits of a buffer lane set or dropped (R519). -/
theorem Tidy.bufRaw {a : Nat} {x : Option StoredB} (h : Tidy s₀ s) :
    Tidy s₀ { s with bufRaw := sput (fun _ => none) s.bufRaw a x } :=
  ⟨h.queue, fun k => canonical_bufRaw a x (h.canonical k)⟩

theorem Tidy.putLane {a : Nat} {x : StoredB} (h : Tidy s₀ s) : Tidy s₀ (s.putLane a x) := by
  unfold State.putLane
  exact .ite h.bufRaw h.bufRaw.bufRaw

theorem Tidy.putStored {a : Nat} {x : Stored} (h : Tidy s₀ s) : Tidy s₀ (s.putStored a x) := by
  unfold State.putStored
  split
  · exact h
  · split
    · exact h.setMem
    · extract_lets v s1 s2
      have h1 : Tidy s₀ s1 := by
        simp only [s1]
        split
        · exact .ite h.cntSetWord h
        · exact .ite h h.setReg
      exact .ite h1.tblRaw h1.tblRaw.tblRaw

end Sys2Proof.Machine
end

section
/-! PROOF. The shared operations, the timebase, the buffer and the traffic keep the queue and the canonical form. -/

namespace Sys2Proof.Machine

open Reg Ev

variable {s₀ s : State}

/-! ### The shared operations -/

theorem Tidy.wri {f : Field} {v : Int} {i a b : Nat} (h : Tidy s₀ s) : Tidy s₀ (s.wri f v i a b) := h.wr

theorem Tidy.inc {f : Field} {k i a b : Nat} (h : Tidy s₀ s) : Tidy s₀ (s.inc f k i a b) := h.wr

theorem Tidy.incSat {f : Field} {i a b : Nat} (h : Tidy s₀ s) : Tidy s₀ (s.incSat f i a b) := h.wr

theorem Tidy.resetLatches {rs : List Retention} {p : Nat → Bool} (h : Tidy s₀ s) : Tidy s₀ (s.resetLatches rs p) :=
  h.same

theorem Tidy.used {k : Nat} (h : Tidy s₀ s) : Tidy s₀ (s.used k) := h.same

theorem Tidy.fall {d : Nat} (h : Tidy s₀ s) : Tidy s₀ (s.fall d) := .ite h.wr h

theorem Tidy.fallHead {l : List Nat} (h : Tidy s₀ s) : Tidy s₀ (s.fallHead l).1 := by
  induction l generalizing s with
  | nil => exact h
  | cons d l ih =>
    unfold State.fallHead
    split
    · exact h
    · exact ih h.fall

theorem Tidy.beginFalls (h : Tidy s₀ s) : Tidy s₀ s.beginFalls := by
  unfold State.beginFalls
  extract_lets
  split
  rename_i t _ e
  have ht := (h.same.foldl fun _ _ hu => hu.fall).fallHead.fst e
  exact ht.same

theorem Tidy.cntAdd {x k : Nat} (h : Tidy s₀ s) : Tidy s₀ (s.cntAdd x k).1 := by
  unfold State.cntAdd
  split
  · exact h.cntPut.asFst
  · split
    · exact h
    · split <;> exact h.cntPut.asFst

theorem Tidy.occurP0 {r : EvRec} (h : Tidy s₀ s) : Tidy s₀ (s.occurP0 r) := .ite h.wr.same h.wr.same.cntAdd

theorem Tidy.enterAvalanche {cause : Nat} (h : Tidy s₀ s) : Tidy s₀ (s.enterAvalanche cause) :=
  h.same.cntAdd.occurP0

theorem Tidy.rateStep {pri : Nat} (h : Tidy s₀ s) : Tidy s₀ (s.rateStep pri).1 := by
  unfold State.rateStep
  extract_lets
  split
  · exact h
  · exact h.same.asFst

theorem Tidy.watchPath {ovr : Bool} (h : Tidy s₀ s) : Tidy s₀ (s.watchPath ovr) :=
  .ite h (.ite h.enterAvalanche (.ite h.enterAvalanche h))

theorem Tidy.occurMain {r : EvRec} (h : Tidy s₀ s) : Tidy s₀ (s.occurMain r) :=
  .ite (.ite h.same.cntAdd h.same) h.same

theorem Tidy.occurRec {c : Code} {j : Nat} {args : List Int} (h : Tidy s₀ s) : Tidy s₀ (s.occurRec c j args) :=
  .ite h.same (.ite h.occurP0 h.rateStep.watchPath.occurMain)

theorem Tidy.addCnt {c : Code} {j k : Nat} (h : Tidy s₀ s) : Tidy s₀ (s.addCnt c j k) := by
  unfold State.addCnt
  extract_lets
  split
  rename_i t _ e
  have ht := h.cntAdd.fst e
  split
  · exact ht
  · exact ht.cntAdd.occurRec
  · exact ht.cntAdd.occurRec

theorem Tidy.occurRecs {c : Code} {j k : Nat} (h : Tidy s₀ s) : Tidy s₀ (s.occurRecs c j k) := by
  induction k generalizing s with
  | zero => exact h
  | succ k ih => exact ih h.occurRec

theorem Tidy.count {c : Code} {j k : Nat} (h : Tidy s₀ s) : Tidy s₀ (s.count c j k) :=
  .ite h (.ite h.addCnt.occurRecs h.addCnt.occurRec)

theorem Tidy.count2 {c : Code} {j j' : Nat} (h : Tidy s₀ s) : Tidy s₀ (s.count2 c j j') := h.addCnt.addCnt.occurRec

theorem Tidy.occur {c : Code} {j : Nat} {args : List Int} (h : Tidy s₀ s) : Tidy s₀ (s.occur c j args) :=
  h.addCnt.occurRec

/-! ### Reads of memory lanes -/

theorem Tidy.demand {a : Nat} {buffer : Bool} {inst : Nat} (h : Tidy s₀ s) : Tidy s₀ (s.demand a buffer inst) :=
  .ite h (.ite h.count h.same)

theorem Tidy.countUncorr {inst k : Nat} (h : Tidy s₀ s) : Tidy s₀ (s.countUncorr inst k) :=
  .ite h (.ite h.addCnt h.same.addCnt.occurRec)

theorem Tidy.noteUpset {n : Nat} {upset : Bool} (h : Tidy s₀ s) : Tidy s₀ (s.noteUpset n upset) :=
  .ite h.countUncorr h

theorem Tidy.noteRead {a inst : Nat} {x : Stored} {le : Nat} (h : Tidy s₀ s) : Tidy s₀ (s.noteRead a inst x le) :=
  .ite h.count.countUncorr h.count.countUncorr.demand

theorem Tidy.memRead {a le : Nat} (h : Tidy s₀ s) : Tidy s₀ (s.memRead a le).2 := h.noteRead.asSnd

theorem Tidy.memWrite {a le : Nat} {v : PWord} (h : Tidy s₀ s) : Tidy s₀ (s.memWrite a le v) := h.setMem

/-! ### Memory and bus errors -/

theorem Tidy.setCore {n : Nat} {c : CoreSt} (h : Tidy s₀ s) : Tidy s₀ (s.setCore n c) := h.same

theorem Tidy.decErr {n unit a cause : Nat} (h : Tidy s₀ s) : Tidy s₀ (s.decErr n unit a cause) :=
  .ite h.count.wr.wr.wr h.count.wr.wr.wr

theorem Tidy.badAccess {n unit a : Nat} {x4 : Bad} (h : Tidy s₀ s) : Tidy s₀ (s.badAccess n unit a x4) := by
  unfold State.badAccess
  split
  · exact h.decErr
  · exact h

theorem Tidy.resetMatrix {x : Nat} (h : Tidy s₀ s) : Tidy s₀ (s.resetMatrix x) := h.same

/-! ### The clock -/

theorem Tidy.setCalendar {c : Nat} (h : Tidy s₀ s) : Tidy s₀ (s.setCalendar c) := h.wr.wr.wr

theorem Tidy.tick (h : Tidy s₀ s) : Tidy s₀ s.tick := by
  unfold State.tick
  extract_lets s1 _ s2
  have h1 : Tidy s₀ s1 := .ite h.same h
  have h2 : Tidy s₀ s2 := h1.same
  exact .ite h1.same (.ite h2 h2.same.setCalendar)

/-! ### The timebase -/

theorem Tidy.noteRate (h : Tidy s₀ s) : Tidy s₀ s.noteRate := .ite h.same h

theorem Tidy.setRate {r : Int} (h : Tidy s₀ s) : Tidy s₀ (s.setRate r) := h.wri.same

theorem Tidy.applyRate {e : Int} {drift : Bool} (h : Tidy s₀ s) : Tidy s₀ (s.applyRate e drift) :=
  h.noteRate.setRate.used.same

theorem Tidy.toHoldover (h : Tidy s₀ s) : Tidy s₀ s.toHoldover := h.noteRate.setRate.same.wr

theorem Tidy.dropCounts (h : Tidy s₀ s) : Tidy s₀ s.dropCounts := h.same

theorem Tidy.toLocked (h : Tidy s₀ s) : Tidy s₀ s.toLocked := h.same.wr.occur

theorem Tidy.tryAcquire (h : Tidy s₀ s) : Tidy s₀ s.tryAcquire := .ite h.same.wr h

theorem Tidy.extendRun {e : Int} (h : Tidy s₀ s) : Tidy s₀ (s.extendRun e) := h.same

theorem Tidy.declareJump {e : Int} (h : Tidy s₀ s) : Tidy s₀ (s.declareJump e) := h.used.same.wr.occur

theorem Tidy.measureAcquire {p : Int} (h : Tidy s₀ s) : Tidy s₀ (s.measureAcquire p) := by
  unfold State.measureAcquire
  extract_lets _ _ s1
  have h1 : Tidy s₀ s1 := .ite h.same.applyRate h.same
  exact .ite h1.same.wr.toLocked h1

theorem Tidy.measureLocked {e : Int} {outlier : Bool} (h : Tidy s₀ s) : Tidy s₀ (s.measureLocked e outlier) := by
  unfold State.measureLocked
  extract_lets s1
  have h1 : Tidy s₀ s1 := h.count.extendRun
  exact .ite (.ite h1.toHoldover.declareJump h1) h.applyRate.same

theorem Tidy.measureHoldover {e : Int} {outlier outside : Bool} (h : Tidy s₀ s) :
    Tidy s₀ (s.measureHoldover e outlier outside) := by
  unfold State.measureHoldover
  extract_lets s1 _ _ s2 _ s3 s4 s5
  have h1 : Tidy s₀ s1 := .ite h.count h
  have h2 : Tidy s₀ s2 := h1.same
  have h3 : Tidy s₀ s3 := h2.same
  have h4 : Tidy s₀ s4 := h1.same
  have h5 : Tidy s₀ s5 := h4.extendRun
  exact .ite (.ite h3.wr.applyRate.toLocked h2) (.ite h4 (.ite h5.declareJump h5))

theorem Tidy.measure {e p : Int} {outside : Bool} (h : Tidy s₀ s) : Tidy s₀ (s.measure e p outside) := by
  unfold State.measure
  extract_lets _ s1
  have h1 : Tidy s₀ s1 := h.same
  refine .ite h1 (.ite (.ite h1.count h1) ?_)
  exact .ite (.ite h1.count h1.measureAcquire) (.ite h1.measureLocked (.ite h1.measureHoldover h1))

theorem execPtpSyncReceived_answers {ntRef : Int} (h : Tidy s₀ s) : Answers s₀ (execPtpSyncReceived ntRef s) :=
  .next (.ite h.measure h)

theorem Tidy.ppsTaken {at_ : Int} (h : Tidy s₀ s) : Tidy s₀ (s.ppsTaken at_) := by
  unfold State.ppsTaken
  extract_lets _ _ _ _ s1
  have h1 : Tidy s₀ s1 := h.same
  split
  · exact h1
  · exact (Tidy.ite h1.measure h1).same

theorem execPpsInputEdge_answers (h : Tidy s₀ s) : Answers s₀ (execPpsInputEdge s) := .next (.ite h.ppsTaken h)

theorem Tidy.refLost (h : Tidy s₀ s) : Tidy s₀ s.refLost :=
  .ite h.wr.same.wr (.ite h.wr.dropCounts.toHoldover.occur h.wr.dropCounts)

theorem execRefQualifyLoss_answers {cause : RefCause} (h : Tidy s₀ s) : Answers s₀ (execRefQualifyLoss cause s) := by
  unfold execRefQualifyLoss
  extract_lets _ s1
  have h1 : Tidy s₀ s1 := by
    unfold s1
    split
    · exact h.same
    · exact h.same
    · exact h
  exact .next (.ite h1.refLost h1)

theorem execRefQualifyGain_answers {tenMHz : Bool} (h : Tidy s₀ s) : Answers s₀ (execRefQualifyGain tenMHz s) :=
  .next (.ite h.same.wr.tryAcquire h.same)

theorem execOcxoWarm_answers (h : Tidy s₀ s) : Answers s₀ (execOcxoWarm s) := .next (.ite h.wr.tryAcquire h)

theorem Tidy.wroteTimeCtl {src : Nat} {en : Bool} (h : Tidy s₀ s) : Tidy s₀ (s.wroteTimeCtl src en) := by
  unfold State.wroteTimeCtl
  extract_lets
  refine .ite (.ite h.same.wr (.ite h.same h)) ?_
  exact .ite (.ite h.dropCounts.toHoldover.occur (.ite h.same h)) (.ite (.ite h.dropCounts h) h.tryAcquire)

theorem execRestepTakesEffect_answers (h : Tidy s₀ s) : Answers s₀ (execRestepTakesEffect s) := by
  unfold execRestepTakesEffect
  extract_lets
  refine .next ?_
  split
  · exact h
  · exact .ite (Tidy.ite h.toHoldover h).same.wr.occur h

theorem execPpsOutputWidthEnd_answers (h : Tidy s₀ s) : Answers s₀ (execPpsOutputWidthEnd s) := by
  unfold execPpsOutputWidthEnd
  extract_lets
  refine .next ?_
  split
  · exact h
  · exact .ite h.same h

theorem Tidy.stepCalendar {sec : Nat} (h : Tidy s₀ s) : Tidy s₀ (s.stepCalendar sec) :=
  .ite h.setCalendar.wr.occur h.setCalendar

theorem execRtcSync_answers (h : Tidy s₀ s) : Answers s₀ (execRtcSync s) := .next (.ite h.stepCalendar h)

theorem execRtcTrim_answers (h : Tidy s₀ s) : Answers s₀ (execRtcTrim s) := .next (.ite h.same.setCalendar h)

theorem execRtcXtalFail_answers (h : Tidy s₀ s) : Answers s₀ (execRtcXtalFail s) := h.wr.answers

theorem Tidy.stampTwoStep {p : Nat} {msg : TwoStepMsg} (h : Tidy s₀ s) : Tidy s₀ (s.stampTwoStep p msg) :=
  .ite h.count h.same

theorem execTwoStepStamp_answers {port : Fin 16} (h : Tidy s₀ s) : Answers s₀ (execTwoStepStamp port s) := by
  unfold execTwoStepStamp
  extract_lets
  refine .next ?_
  split
  · exact h
  · exact .ite h.same.stampTwoStep h

theorem Tidy.notSent {n : Nat} (h : Tidy s₀ s) : Tidy s₀ (s.notSent n) := h.count

theorem Tidy.tsqPop (h : Tidy s₀ s) : Tidy s₀ s.tsqPop.2 := by
  unfold State.tsqPop
  extract_lets
  split
  · exact h
  · split
    · exact h
    · exact h.same.asSnd

/-! ### Key use -/

theorem Tidy.selfTestFail {code : Nat} (h : Tidy s₀ s) : Tidy s₀ (s.selfTestFail code) := h.wr.wr.wr.occur

theorem Tidy.instanceCast {fails : Bool} (h : Tidy s₀ s) : Tidy s₀ (s.instanceCast fails) :=
  .ite h (.ite h.same (.ite h h.selfTestFail))

theorem Tidy.setKey {r : KeyRef} {k : Option KeySlot} (h : Tidy s₀ s) : Tidy s₀ (s.setKey r k) := by
  unfold State.setKey
  extract_lets
  split <;> exact h.same

theorem Tidy.invoke {r : KeyRef} {page : Nat} {g : Bool} (h : Tidy s₀ s) : Tidy s₀ (s.invoke r page g).2 := by
  unfold State.invoke
  split
  · exact h
  · extract_lets
    split
    · exact h.setKey.asSnd
    · extract_lets _ _ s1 s2
      have h1 : Tidy s₀ s1 := h.setKey
      have h2 : Tidy s₀ s2 := .ite h1.occur h1
      split
      · exact h
      · exact .ite h2.occur h2

/-! ### The buffer and its queues -/

theorem Tidy.tblWord {a : Nat} (h : Tidy s₀ s) : Tidy s₀ (s.tblWord a).2 := by
  unfold State.tblWord
  split
  · exact h
  · extract_lets
    exact h.noteRead

theorem Tidy.setPacket {d : Nat} {p : Option Packet} (h : Tidy s₀ s) : Tidy s₀ (s.setPacket d p) := h.same

theorem Tidy.watchFree (h : Tidy s₀ s) : Tidy s₀ s.watchFree := .ite h.same.occur (.ite h.same h)

theorem Tidy.newPacket {page held len : Nat} {octets : List Nat} (h : Tidy s₀ s) :
    Tidy s₀ (s.newPacket page held len octets).2 := by
  unfold State.newPacket
  extract_lets
  exact h.used.used.same.cleanCells.setPacket.watchFree.asSnd

theorem Tidy.freePacket {d : Nat} (h : Tidy s₀ s) : Tidy s₀ (s.freePacket d) := h.setPacket.watchFree

theorem Tidy.readLane {p : Packet} {i : Nat} (h : Tidy s₀ s) : Tidy s₀ (s.readLane p i).2.2 := by
  unfold State.readLane
  extract_lets
  split
  · exact h
  · split
    · exact h
    · exact h.count.demand.asThird
    · exact h
    · exact h.countUncorr.demand.asThird

theorem Tidy.readPacket {p : Packet} (h : Tidy s₀ s) : Tidy s₀ (s.readPacket p).2.2 := by
  unfold State.readPacket
  split
  next e =>
    refine ((Tidy.foldlThird h.asThird fun _ _ ht => ?_).third e).asThird
    split
    next r => exact (ht.readLane.third r).asThird

theorem Tidy.frameRead {inst : Nat} {os : List Nat} {hits : List (Nat × BitVec 39)} (h : Tidy s₀ s) :
    Tidy s₀ (s.frameRead inst os hits).2 := by
  unfold State.frameRead
  extract_lets
  split
  · exact h
  · split <;> exact h.count.countUncorr

theorem Tidy.bump {x k : Nat} (h : Tidy s₀ s) : Tidy s₀ (s.bump x k) := by
  unfold State.bump
  split
  rename_i t _ e
  have ht := h.cntAdd.fst e
  split
  · exact ht
  · exact ht.cntAdd.occurRec
  · exact ht.cntAdd.occurRec

theorem Tidy.countQueue {q k len : Nat} (h : Tidy s₀ s) : Tidy s₀ (s.countQueue q k len) := h.bump.bump

theorem Tidy.setQueue {q : Nat} {l : List QEnt} (h : Tidy s₀ s) : Tidy s₀ (s.setQueue q l) := h.same

theorem Tidy.queueAdmit {q g : Nat} {octets : List Nat} {e : QEnt} (h : Tidy s₀ s) :
    Tidy s₀ (s.queueAdmit q g octets e).2 := by
  unfold State.queueAdmit
  split
  · exact h.count.countQueue.asSnd
  · split
    rename_i t e1
    exact (h.newPacket.snd e1).setQueue.countQueue.asSnd

theorem Tidy.seeEgress {e : Nat} (h : Tidy s₀ s) : Tidy s₀ (s.seeEgress e) := h.same

theorem Tidy.takeTokens {e g x : Nat} (h : Tidy s₀ s) : Tidy s₀ (s.takeTokens e g x) := by
  unfold State.takeTokens
  extract_lets
  split
  exact h.same

theorem Tidy.pickEgress {x q : Nat} {t : State} (h : Tidy s₀ s) (e : s.pickEgress x = some (q, t)) : Tidy s₀ t := by
  unfold State.pickEgress at e
  extract_lets gs len at e
  split at e
  · cases e
  · split at e
    · cases e
    · cases e
      exact h.same

theorem Tidy.chargeSent {e q x : Nat} (h : Tidy s₀ s) : Tidy s₀ (s.chargeSent e q x) := h.same.takeTokens

theorem Tidy.unqueue {q d : Nat} (h : Tidy s₀ s) : Tidy s₀ (s.unqueue q d) := h.setQueue.seeEgress

/-! ### The service queues -/

theorem Tidy.setCmd {tag : Nat} {c : Option Cmd} (h : Tidy s₀ s) : Tidy s₀ (s.setCmd tag c) := h.same

theorem Tidy.queueCompletion {k : Completion} (h : Tidy s₀ s) : Tidy s₀ (s.queueCompletion k) := .ite h.same h.same

theorem Tidy.imgLast {opcode status kind : Nat} (h : Tidy s₀ s) : Tidy s₀ (s.imgLast opcode status kind) :=
  .ite h.wr.wr.wr h

theorem Tidy.completeP {tag status detail : Nat} {result : PWord} {data : List PWord} (h : Tidy s₀ s) :
    Tidy s₀ (s.completeP tag status detail result data) := by
  unfold State.completeP
  split
  · exact h
  · exact .ite h h.setCmd.queueCompletion.imgLast

theorem Tidy.complete {tag status detail result : Nat} {data : List PWord} (h : Tidy s₀ s) :
    Tidy s₀ (s.complete tag status detail result data) :=
  h.completeP

theorem Tidy.unreserved {c : Cmd} {masks : List Nat} {k : State → State} (h : Tidy s₀ s)
    (hk : ∀ t, Tidy s₀ t → Tidy s₀ (k t)) : Tidy s₀ (s.unreserved c masks k) := by
  unfold State.unreserved
  split
  · exact h.complete
  · exact hk _ h

theorem Tidy.acceptCounter {page ctr : Nat} (h : Tidy s₀ s) : Tidy s₀ (s.acceptCounter page ctr) := by
  unfold State.acceptCounter
  extract_lets s1 s2
  have h1 : Tidy s₀ s1 := h.wr.wr
  have h2 : Tidy s₀ s2 := .ite h1.wr.occur h1
  exact .ite h2.wr.occur h2

theorem Tidy.takeSlot {opc : Nat} {p : HostPkt} (h : Tidy s₀ s) : Tidy s₀ (s.takeSlot opc p) := h.same.setCmd

theorem Tidy.applyCrit {opc : Nat} {p : HostPkt} (h : Tidy s₀ s) : Tidy s₀ (s.applyCrit opc p).1 := by
  unfold State.applyCrit
  extract_lets s1
  have h1 : Tidy s₀ s1 := h.acceptCounter
  split
  · exact h
  · split
    · split
      · exact h.occur.asFst
      · split
        · exact h.count.asFst
        · exact h
    · exact h
    · split
      · exact h1.setCmd
      · exact h1

theorem Tidy.markStarted {c : Cmd} (h : Tidy s₀ s) : Tidy s₀ (s.markStarted c) := h.same.setCmd

theorem Tidy.dropCommands (h : Tidy s₀ s) : Tidy s₀ s.dropCommands := h.same

theorem Tidy.judgeWaiting {perform : Cmd → State → State} {c : Cmd} (h : Tidy s₀ s)
    (hperform : ∀ x0 t, Tidy s₀ t → Tidy s₀ (perform x0 t)) : Tidy s₀ (s.judgeWaiting perform c) := by
  unfold State.judgeWaiting
  extract_lets
  refine .ite ?_ (.ite (hperform _ _ h.markStarted).same h)
  split
  · exact h.complete
  · exact h

theorem Tidy.intakeWith {perform : Cmd → State → State} {opc : Nat} {p : HostPkt} (h : Tidy s₀ s)
    (hperform : ∀ x0 t, Tidy s₀ t → Tidy s₀ (perform x0 t)) : Tidy s₀ (s.intakeWith perform opc p) := by
  unfold State.intakeWith
  extract_lets s1
  have h1 : Tidy s₀ s1 := h.takeSlot
  refine .ite h (.ite h.count (.ite h.count ?_))
  split
  · exact h1.complete
  · split
    rename_i u _ e
    have hu := h1.applyCrit.fst e
    extract_lets
    split
    · exact hu.complete
    · split
      · exact hu.complete
      · split
        · exact hperform _ _ hu.markStarted
        · exact hu.judgeWaiting fun _ _ hv => hperform _ _ hv
        · exact hu

theorem Tidy.cmdNop {c : Cmd} (h : Tidy s₀ s) : Tidy s₀ (s.cmdNop c) := h.complete

theorem Tidy.cmdRecall {c : Cmd} (h : Tidy s₀ s) : Tidy s₀ (s.cmdRecall c) := by
  unfold State.cmdRecall
  extract_lets
  refine h.unreserved fun _ ht => ?_
  split
  · exact ht.complete
  · exact .ite ht.complete (.ite ht.complete ht.queueCompletion.complete)

theorem Tidy.cmdLoop {c : Cmd} (h : Tidy s₀ s) : Tidy s₀ (s.cmdLoop c) := by
  unfold State.cmdLoop
  extract_lets
  refine h.unreserved fun _ ht => .ite ht.complete (.ite ht.complete (.ite ht.complete ht.used.same.complete))

theorem Tidy.cmdRestep {c : Cmd} (h : Tidy s₀ s) : Tidy s₀ (s.cmdRestep c) := by
  unfold State.cmdRestep
  extract_lets
  refine h.unreserved
    fun _ ht => .ite ht.complete (.ite ht.complete (.ite ht.complete (.ite ht.complete
    (.ite ht.complete (.ite ht.complete ht.same.complete)))))

theorem Tidy.cmdTod {c : Cmd} (h : Tidy s₀ s) : Tidy s₀ (s.cmdTod c) :=
  h.unreserved fun _ ht => ht.same.complete

theorem Tidy.cmdTimeRead {c : Cmd} (h : Tidy s₀ s) : Tidy s₀ (s.cmdTimeRead c) := h.complete

theorem Tidy.cmdRtcSet {c : Cmd} (h : Tidy s₀ s) : Tidy s₀ (s.cmdRtcSet c) :=
  h.unreserved fun _ ht => .ite ht.complete ht.stepCalendar.complete

/-! ### Traffic -/

theorem Tidy.deliver {core box : Nat} {octets : List Nat} (h : Tidy s₀ s) : Tidy s₀ (s.deliver core box octets) := by
  unfold State.deliver
  extract_lets
  refine .ite h.count (.ite h.count ?_)
  split
  rename_i t e
  have ht := h.newPacket.snd e
  exact ht.same

theorem Tidy.tblWords {l : List Nat} (h : Tidy s₀ s) : Tidy s₀ (s.tblWords l).2 := by
  induction l generalizing s with
  | nil => exact h
  | cons a l ih =>
    unfold State.tblWords
    split
    · next e => exact h.tblWord.snd e
    · next e =>
      have h1 := ih (h.tblWord.snd e)
      split
      · next r => exact h1.snd r
      · next r => exact h1.snd r

theorem Tidy.readService {n : Nat} (h : Tidy s₀ s) : Tidy s₀ (s.readService n).2 := by
  unfold State.readService
  split
  · rename_i t e1
    exact h.tblWords.snd e1
  · rename_i u _ e2
    exact h.tblWords.snd e2

theorem Tidy.scanBucket {key : Word} {n k : Nat} (h : Tidy s₀ s) : Tidy s₀ (s.scanBucket key n k).2 := by
  induction n generalizing s k with
  | zero => exact h
  | succ n ih =>
    unfold State.scanBucket
    split
    · next e => exact h.tblWord.snd e
    · next e =>
      have h1 := h.tblWord.snd e
      split
      · split
        · next e => exact h1.tblWord.snd e
        · next e => exact (h1.tblWord.snd e).readService
      · exact ih h1

theorem Tidy.lookKey {kind face page tag : Nat} (h : Tidy s₀ s) : Tidy s₀ (s.lookKey kind face page tag).2 :=
  h.scanBucket

theorem Tidy.lookAlloc {a : Nat} (h : Tidy s₀ s) : Tidy s₀ (s.lookAlloc a).2 := by
  unfold State.lookAlloc
  split
  · rename_i t e1
    exact h.tblWord.snd e1
  · rename_i u e2
    have hu := h.tblWord.snd e2
    split
    · exact hu.readService
    · exact hu

theorem Tidy.takeKeyed {kind index face page keyPage tag cls : Nat} {body : List Nat} {ovr : Bool} (h : Tidy s₀ s) :
    Tidy s₀ (s.takeKeyed kind index face page keyPage tag cls body ovr) := by
  unfold State.takeKeyed
  refine .ite h.count (.ite h.count ?_)
  split
  · rename_i t e1
    exact (h.lookKey.snd e1).count2
  · rename_i u e2
    exact (h.lookKey.snd e2).count
  · rename_i v e3
    have hv := h.lookKey.snd e3
    extract_lets
    split
    exact hv.queueAdmit

theorem Tidy.takeLine {l : Nat} {p : LinePkt} {ovr : Bool} (h : Tidy s₀ s) : Tidy s₀ (s.takeLine l p ovr) :=
  .ite h.count (.ite h.deliver h.takeKeyed)

theorem Tidy.reqRate {p : Nat} (h : Tidy s₀ s) : Tidy s₀ (s.reqRate p).2 := by
  unfold State.reqRate
  extract_lets
  split
  · exact h
  · split
    · exact h
    · exact h.same.asSnd

theorem Tidy.ptpRate {p kind : Nat} (h : Tidy s₀ s) : Tidy s₀ (s.ptpRate p kind).2 := by
  unfold State.ptpRate
  extract_lets
  split
  · exact h
  · split
    · split
      · exact h
      · exact h.same.asSnd
    · split
      · split
        · exact h
        · exact h.same.asSnd
      · exact h

theorem Tidy.noteUtc {os : List Nat} {h' : Nat} (h : Tidy s₀ s) : Tidy s₀ (s.noteUtc os h') :=
  .ite (h.foldl fun _ _ ht => ht.wr.wr.wr) h

theorem Tidy.takePtp {p : Nat} {os : List Nat} {h' : Nat} (h : Tidy s₀ s) : Tidy s₀ (s.takePtp p os h') := by
  unfold State.takePtp
  extract_lets
  refine .ite h.count ?_
  split
  rename_i t e
  have ht := h.ptpRate.snd e
  exact .ite (Tidy.ite ht.noteUtc ht).deliver ht.count

theorem execClientFrameReceived_answers {p : Fin 16} {frame : List (BitVec 8)} {fcsOk ovr : Bool} (h : Tidy s₀ s) :
    Answers s₀ (execClientFrameReceived p frame fcsOk ovr s) := by
  unfold execClientFrameReceived
  extract_lets os n face owner ptp inner cvid tag
  refine .next (.ite h (.ite h.count (.ite h.count (.ite h.count (.ite h.count ?_)))))
  cases ptp with
  | some k => exact h.takePtp
  | none => exact .ite h.deliver (.ite (.ite h.count h.count2) h.takeKeyed)

theorem Tidy.countUp {c : Code} {a : Nat} (h : Tidy s₀ s) : Tidy s₀ (s.countUp c a) := h.count2

theorem Tidy.setReas {a : Nat} {r : Reas} (h : Tidy s₀ s) : Tidy s₀ (s.setReas a r) := h.same

theorem Tidy.discardUnit {a : Nat} (h : Tidy s₀ s) : Tidy s₀ (s.discardUnit a) := by
  unfold State.discardUnit
  extract_lets _ s1
  have h1 : Tidy s₀ s1 := h.setReas
  split
  · exact h
  · exact .ite h1 h1.unqueue.freePacket.countQueue

theorem Tidy.resetReas {a : Nat} (h : Tidy s₀ s) : Tidy s₀ (s.resetReas a) := h.discardUnit.setReas

theorem Tidy.beginUnit {c a len : Nat} {enc phase : Bool} {ctr : Nat} {octets : List Nat} {ovr : Bool}
    (h : Tidy s₀ s) : Tidy s₀ (s.beginUnit c a len enc phase ctr octets ovr).2 := by
  unfold State.beginUnit
  extract_lets
  split
  · exact h.count.asSnd
  · split
    · exact h.count.asSnd
    · split
      · rename_i t1 e1
        exact (h.lookAlloc.snd e1).count2.asSnd
      · rename_i t2 e2
        exact (h.lookAlloc.snd e2).count.asSnd
      · rename_i t3 e3
        have ht3 := h.lookAlloc.snd e3
        extract_lets
        split
        · exact ht3.countUp.asSnd
        · split
          · exact ht3.count.asSnd
          · split
            · exact ht3.countUp.asSnd
            · split
              split
              · rename_i t4 e4
                exact ht3.queueAdmit.snd e4
              · rename_i t5 e5
                exact ht3.queueAdmit.snd e5

theorem Tidy.setBucket {a : Nat} {tok : Int} (h : Tidy s₀ s) : Tidy s₀ (s.setBucket a tok) := h.same

theorem Tidy.police {a len : Nat} (h : Tidy s₀ s) : Tidy s₀ (s.police a len).2 := by
  unfold State.police
  extract_lets
  split
  · exact h
  · exact h.setBucket.asSnd

theorem Tidy.editEntry {q d : Nat} {f : QEnt → QEnt} (h : Tidy s₀ s) : Tidy s₀ (s.editEntry q d f) := h.setQueue

theorem Tidy.endUnit {a : Nat} {u : UpUnit} {burst : Nat} (h : Tidy s₀ s) : Tidy s₀ (s.endUnit a u burst) := by
  unfold State.endUnit
  extract_lets _ s1 _ put
  have h1 : Tidy s₀ s1 := h.setReas
  refine .ite h1 ?_
  split
  rename_i t e
  have ht := h1.police.snd e
  extract_lets
  refine .ite ht.unqueue.freePacket.countQueue.countUp ?_
  split
  · refine Tidy.editEntry ?_
    unfold put
    split
    · exact ht.setPacket
    · exact ht
  · refine .ite ht.unqueue.freePacket.countQueue.count ?_
    split
    extract_lets s2
    have h2 : Tidy s₀ s2 := by
      refine Tidy.editEntry ?_
      unfold put
      split
      · exact ht.setPacket
      · exact ht
    exact h2.same

theorem Tidy.addOctets {a : Nat} {u : UpUnit} {octets : List Nat} {last : Bool} {burst : Nat} (h : Tidy s₀ s) :
    Tidy s₀ (s.addOctets a u octets last burst) :=
  .ite h.setReas (.ite h.setReas.discardUnit.countUp (.ite h.endUnit h.setReas))

theorem Tidy.takeSegment {c a seq : Nat} {first last bad : Bool} {octets : List Nat} {burst : Nat} {ovr : Bool}
    (h : Tidy s₀ s) : Tidy s₀ (s.takeSegment c a seq first last bad octets burst ovr) := by
  unfold State.takeSegment
  extract_lets _ s1 _ s2
  have h1 : Tidy s₀ s1 := h.setReas
  have h2 : Tidy s₀ s2 := .ite h1.discardUnit.countUp h1
  refine .ite h1.discardUnit.countUp ?_
  split
  · exact h2.countUp
  · exact h2.addOctets
  · extract_lets s3
    have h3 : Tidy s₀ s3 := .ite h2.discardUnit.countUp h2
    refine .ite h3.countUp (.ite h3.countUp ?_)
    split
    rename_i t e
    exact (h3.beginUnit.snd e).addOctets

theorem Tidy.setBursts {c : Nat} {l : List UpBurst} (h : Tidy s₀ s) : Tidy s₀ (s.setBursts c l) := h.same

theorem execUpstreamSegment_answers {c : Fin 512} {ovr : Bool} (h : Tidy s₀ s) :
    Answers s₀ (execUpstreamSegment c ovr s) := by
  unfold execUpstreamSegment
  refine .next ?_
  split
  · exact h
  · extract_lets _ _ s1 _ _ _ _ _ s2
    have h1 : Tidy s₀ s1 := h.setBursts
    have h2 : Tidy s₀ s2 := .ite h1 h.setBursts
    refine .ite h1 ?_
    exact .ite h1.countUp (.ite h1.discardUnit.countUp (.ite h1 (.ite h1.setReas.countUp h2.takeSegment)))

theorem execReassemblyTimeout_answers {a : Fin 65536} (h : Tidy s₀ s) : Answers s₀ (execReassemblyTimeout a s) :=
  .next (.ite h.resetReas.countUp h)

theorem Tidy.sendFrame {port : Nat} {os : List Nat} (h : Tidy s₀ s) : Tidy s₀ (s.sendFrame port os) := h.same

theorem Tidy.tagFailed {v : Verify} {replay : Bool} (h : Tidy s₀ s) : Tidy s₀ (s.tagFailed v replay) := by
  unfold State.tagFailed
  extract_lets _ s1 s2
  have h1 : Tidy s₀ s1 := h.incSat
  have h2 : Tidy s₀ s2 := .ite h1.countUp h1.count
  exact .ite h2.addCnt h2.same.occur

theorem execUpstreamTagResult_answers {k : Fin 8} (h : Tidy s₀ s) : Answers s₀ (execUpstreamTagResult k s) := by
  unfold execUpstreamTagResult
  refine .next ?_
  split
  · exact h
  · extract_lets _ s1 r key marked flight len land dead s2 s3
    have h1 : Tidy s₀ s1 := h.same
    have hland {t : State} (ht : Tidy s₀ t) : Tidy s₀ (land t) := ht.same
    have h2 : Tidy s₀ s2 := by
      unfold s2
      cases key with
      | none => exact h1
      | some x =>
        dsimp only
        split
        · exact h1.setKey
        · exact h1
    have h3 : Tidy s₀ s3 := .ite h1.count h1.tagFailed
    refine .ite h (.ite ?_ ?_)
    · cases flight with
      | some x => exact (hland h2).freePacket.sendFrame.countQueue
      | none => exact h2.editEntry
    · cases flight with
      | some x =>
        exact .ite (hland h3).freePacket.occur.sendFrame.countQueue (hland h3).freePacket.countQueue
      | none => exact h3.unqueue.freePacket.countQueue

theorem Tidy.placeDown {c : Nat} {os : List Nat} (h : Tidy s₀ s) : Tidy s₀ (s.placeDown c os) := h.same

theorem Tidy.leave {p q : Nat} {e : QEnt} {k : Packet} (h : Tidy s₀ s) : Tidy s₀ (s.leave p q e k).2 := by
  unfold State.leave
  extract_lets
  split
  next r =>
    have h1 := h.readPacket.third r
    extract_lets
    split
    · exact h1.count.asSnd
    · split
      · split
        · split
          · exact h1.count.asSnd
          · split
            · next r => exact (h1.invoke.snd r).count.asSnd
            · next r => exact (h1.invoke.snd r).count.asSnd
            · next r => exact (h1.invoke.snd r).placeDown.asSnd
        · exact h1.placeDown.asSnd
      · split
        · exact h1.same.asSnd
        · split
          · exact h1.count.asSnd
          · split
            rename_i inRate t r
            have ht : Tidy s₀ t := by
              split at r
              · exact h1.reqRate.snd r
              · exact h1.asSnd.snd r
            extract_lets s2 _ s3 _ _ s4
            have h2 : Tidy s₀ s2 := .ite ht ht.count
            have h3 : Tidy s₀ s3 := .ite h2.count (.ite h2.used h2)
            have h4 : Tidy s₀ s4 := .ite h3.same.used h3
            split
            · exact h3
            · split
              · exact h4.sendFrame.asSnd
              · exact h4.same.asSnd

theorem Tidy.countBadQueues {e : Nat} (h : Tidy s₀ s) : Tidy s₀ (s.countBadQueues e) :=
  h.foldl fun _ _ ht => ht.tblWord.count

theorem execEgressTxOpportunity_answers {e : Fin 532} (h : Tidy s₀ s) : Answers s₀ (execEgressTxOpportunity e s) := by
  unfold execEgressTxOpportunity
  extract_lets s1
  have h1 : Tidy s₀ s1 := h.countBadQueues.seeEgress
  refine .next (.ite h ?_)
  split
  · exact h1
  · rename_i t e1
    have ht := h1.pickEgress e1
    split
    · exact ht
    · extract_lets
      split
      · exact ht.setQueue.seeEgress
      · split
        · rename_i u e2
          exact (ht.leave.snd e2).setQueue.chargeSent.freePacket.countQueue.seeEgress
        · rename_i v e3
          exact (ht.leave.snd e3).setQueue.chargeSent.seeEgress
        · rename_i w e4
          exact (ht.leave.snd e4).setQueue.freePacket.countQueue.seeEgress.notSent

theorem Tidy.keepSample {q : Nat} (h : Tidy s₀ s) : Tidy s₀ (s.keepSample q) := h.same

theorem Tidy.sweepGoesOn (h : Tidy s₀ s) : Tidy s₀ s.sweepGoesOn :=
  .ite h (.ite (.ite h.keepSample h) (Tidy.ite h.keepSample h).wr.wr)

theorem execQueueSweep_answers (h : Tidy s₀ s) : Answers s₀ (execQueueSweep s) :=
  .next (.ite h.same.wr.sweepGoesOn h)

theorem execPortLinkUp_answers {p : Fin 16} (h : Tidy s₀ s) : Answers s₀ (execPortLinkUp p s) :=
  .next (.ite h.wr.wr.seeEgress h)

theorem execPortLinkDown_answers {p : Fin 16} (h : Tidy s₀ s) : Answers s₀ (execPortLinkDown p s) :=
  .next (.ite h.wr.wr.seeEgress.same.notSent h)

theorem Tidy.cmdBind {c : Cmd} (h : Tidy s₀ s) : Tidy s₀ (s.cmdBind c) := by
  unfold State.cmdBind
  extract_lets
  refine h.unreserved fun _ ht => ?_
  extract_lets _ s1 _ _ _ _ s2
  have h1 : Tidy s₀ s1 := ht.foldl fun _ _ hu => hu.tblPut
  have h2 : Tidy s₀ s2 := by
    refine (Tidy.ite h1.tblPut.tblPut.same h1).foldl fun _ _ hv => ?_
    split
    · exact hv.tblPut.tblPut
    · exact hv
  split
  · exact ht.complete
  · refine .ite ht.complete (.ite ht.complete ?_)
    split
    · exact ht.complete
    · exact h2.complete

theorem Tidy.cmdUnbind {c : Cmd} (h : Tidy s₀ s) : Tidy s₀ (s.cmdUnbind c) := by
  unfold State.cmdUnbind
  extract_lets
  refine h.unreserved fun _ ht => ?_
  extract_lets _ _ s1
  have h1 : Tidy s₀ s1 := by
    refine ht.foldl fun _ _ hu => ?_
    split
    · exact hu.tblPut
    · exact hu
  exact .ite ht.complete (.ite ht.complete (Tidy.ite h1.tblPut h1).tblPut.complete)

theorem Tidy.cmdQueSet {c : Cmd} (h : Tidy s₀ s) : Tidy s₀ (s.cmdQueSet c) := by
  unfold State.cmdQueSet
  extract_lets
  split
  · refine h.unreserved fun _ ht => ?_
    refine .ite ht.complete (.ite ht.complete ?_)
    split
    · exact ht.complete
    · exact .ite ht.complete ht.tblPut.complete
  · split
    · refine h.unreserved
        fun _ hu => .ite hu.complete (.ite hu.complete (.ite hu.complete
        (.ite hu.complete hu.takeTokens.tblPut.tblPut.complete)))
    · refine .ite (h.unreserved fun _ hv => .ite hv.complete hv.tblPut.complete) ?_
      refine .ite ?_ h.complete
      refine h.unreserved fun _ hw => ?_
      refine .ite hw.complete (.ite hw.complete ?_)
      split
      · exact .ite hw.complete hw.complete
      · exact hw.complete

end Sys2Proof.Machine
end

section
/-! PROOF. The trees, the grants and the access channels keep the queue and the canonical form. -/

namespace Sys2Proof.Machine

open Reg Ev

variable {s₀ s : State}

/-! ### Trees -/

theorem Tidy.setChan {c : Nat} {x : ChSt} (h : Tidy s₀ s) : Tidy s₀ (s.setChan c x) := h.same

theorem Tidy.setTree {t : Nat} {x : TreeSt} (h : Tidy s₀ s) : Tidy s₀ (s.setTree t x) := h.same

theorem Tidy.tstChanged {i old : Nat} (h : Tidy s₀ s) : Tidy s₀ (s.tstChanged i old) := by
  unfold State.tstChanged
  extract_lets _ _ s1
  have h1 : Tidy s₀ s1 := .ite (h.foldl fun _ _ ht => ht.resetReas) h
  exact (Tidy.ite h1.setKey.wr h1).foldl fun _ _ hu => hu.seeEgress

theorem Tidy.setTst {t n st w page aen : Nat} (h : Tidy s₀ s) : Tidy s₀ (s.setTst t n st w page aen) := by
  unfold State.setTst
  extract_lets
  exact (Tidy.ite h.wr.wr.wr.wr h.wr.wr.wr.wr).tstChanged

theorem Tidy.setTstState {t n st : Nat} (h : Tidy s₀ s) : Tidy s₀ (s.setTstState t n st) := by
  unfold State.setTstState
  exact h.setTst

theorem Tidy.pushBev {t w : Nat} {e : BurstEvent} (h : Tidy s₀ s) : Tidy s₀ (s.pushBev t w e) :=
  .ite h (.ite h.occur h.setTree.wr)

theorem Tidy.popBev {t : Nat} (h : Tidy s₀ s) : Tidy s₀ (s.popBev t).2 := by
  unfold State.popBev
  extract_lets
  split
  · exact h
  · split
    · exact h
    · exact h.setTree.wr.asSnd

theorem Tidy.setTrm {t n : Nat} {x : Option Trm} (h : Tidy s₀ s) : Tidy s₀ (s.setTrm t n x) := h.setTree

theorem Tidy.sendMsg {c type : Nat} {bcast : Bool} {n seq : Nat} {body : List Nat} (h : Tidy s₀ s) :
    Tidy s₀ (s.sendMsg c type bcast n seq body) :=
  h.setChan

theorem Tidy.tell {t n type : Nat} {body : List Nat} (h : Tidy s₀ s) : Tidy s₀ (s.tell t n type body) := by
  unfold State.tell
  split
  · exact h
  · exact h.setTrm.sendMsg

theorem Tidy.retell {t n type : Nat} {body : List Nat} (h : Tidy s₀ s) : Tidy s₀ (s.retell t n type body) := by
  unfold State.retell
  split
  · exact h
  · exact h.sendMsg

theorem Tidy.ask {t n type : Nat} {body : List Nat} (h : Tidy s₀ s) : Tidy s₀ (s.ask t n type body) := by
  unfold State.ask
  split
  · exact h
  · exact h.setTrm.tell

theorem Tidy.adjust {t n : Nat} {d : Int} (h : Tidy s₀ s) : Tidy s₀ (s.adjust t n d) := by
  unfold State.adjust
  extract_lets
  split
  · exact h
  · exact .ite h.setTrm.ask h.setTrm.tell

theorem Tidy.placeMsgs {c n : Nat} (h : Tidy s₀ s) : Tidy s₀ (s.placeMsgs c n) := by
  unfold State.placeMsgs
  extract_lets
  refine h.foldl fun _ _ ht => ?_
  extract_lets
  split
  · exact ht
  · exact .ite ht (ht.foldl fun _ _ hu => hu.wr).wr.setChan

theorem Tidy.sendAct {t : Nat} (h : Tidy s₀ s) : Tidy s₀ (s.sendAct t) := by
  unfold State.sendAct
  split
  · exact h
  · next a _ =>
    extract_lets x s1 send
    have h1 : Tidy s₀ s1 := h.setTree
    have hsend {k : Nat} {os : List Nat} : Tidy s₀ (send k os) := by
      unfold send
      split
      · exact h1.tell
      · exact h1.retell
    split
    · exact h1
    · exact .ite h1.sendMsg (.ite hsend hsend)

theorem Tidy.nextPhase {t : Nat} {a : Activation} (h : Tidy s₀ s) : Tidy s₀ (s.nextPhase t a) := h.setTree.sendAct

theorem Tidy.clearTrm {t n : Nat} (h : Tidy s₀ s) : Tidy s₀ (s.clearTrm t n) := h.setTst.setTrm.setTree

theorem Tidy.failAct {t : Nat} {a : Activation} (h : Tidy s₀ s) : Tidy s₀ (s.failAct t a) :=
  .ite h.setTree.clearTrm.complete h.setTree.tell.clearTrm.complete

theorem Tidy.retryAct {t n : Nat} (h : Tidy s₀ s) : Tidy s₀ (s.retryAct t n) := by
  unfold State.retryAct
  split
  · exact h
  · exact .ite (.ite h.failAct h.sendAct) h

theorem Tidy.cancelArmed {t n : Nat} (h : Tidy s₀ s) : Tidy s₀ (s.cancelArmed t n) := by
  unfold State.cancelArmed
  extract_lets _ s1
  have h1 : Tidy s₀ s1 := .ite h.setCore h
  split
  · exact .ite h1.setTrm h1
  · exact h1

theorem Tidy.rerange {t n : Nat} (h : Tidy s₀ s) : Tidy s₀ (s.rerange t n) := by
  unfold State.rerange
  extract_lets s1
  have h1 : Tidy s₀ s1 := h.cancelArmed
  split
  · exact h1
  · exact h1.setTrm.setTstState.occur.adjust

theorem Tidy.failMove {t n : Nat} {x : Trm} {m : Move} (h : Tidy s₀ s) : Tidy s₀ (s.failMove t n x m) :=
  h.setTrm.setTst.occur.setChan

theorem Tidy.named {t n : Nat} (h : Tidy s₀ s) : Tidy s₀ (s.named t n) := h.setChan

theorem Tidy.imgMiss {t a f : Nat} (h : Tidy s₀ s) : Tidy s₀ (s.imgMiss t a f) := by
  unfold State.imgMiss
  extract_lets
  refine .ite h ?_
  split
  · exact h
  · extract_lets
    split
    · exact .ite (.ite h.named.rerange h.setTrm) (.ite h.failMove (.ite h.named.rerange h.setTrm))
    · exact .ite h.named.rerange h.setTrm

theorem Tidy.imgHit {t a f : Nat} (h : Tidy s₀ s) : Tidy s₀ (s.imgHit t a f) := by
  unfold State.imgHit
  extract_lets
  split
  · exact h
  · extract_lets
    split
    · exact .ite h.setTrm.occur h.setTrm
    · exact h.setTrm

theorem Tidy.imgReport {c a f : Nat} (h : Tidy s₀ s) : Tidy s₀ (s.imgReport c a f) := h.setTree

theorem Tidy.imgNamed {t a : Nat} (h : Tidy s₀ s) : Tidy s₀ (s.imgNamed t a) := .ite h.named.rerange h

theorem Tidy.imgDrift {t a : Nat} {ofs : Int} (h : Tidy s₀ s) : Tidy s₀ (s.imgDrift t a ofs) :=
  .ite h.named.adjust h

theorem Tidy.imgRanged {t a : Nat} {x : Int} (h : Tidy s₀ s) : Tidy s₀ (s.imgRanged t a x) :=
  .ite h.setTstState.adjust h

theorem Tidy.isolate {t n : Nat} (h : Tidy s₀ s) : Tidy s₀ (s.isolate t n) := by
  unfold State.isolate
  extract_lets s1
  have h1 : Tidy s₀ s1 := h.cancelArmed
  split
  · exact h1
  · exact h1.setTrm.tell.setTstState.occur.setTree

theorem Tidy.imgLong {t a f : Nat} (h : Tidy s₀ s) : Tidy s₀ (s.imgLong t a f) := by
  unfold State.imgLong
  extract_lets
  refine .ite h ?_
  split
  · exact h
  · exact .ite h.setTrm.named.isolate h.setTrm

theorem Tidy.huntDisable {c : Nat} {cands l : List Nat} {dark : Bool} (h : Tidy s₀ s) :
    Tidy s₀ (s.huntDisable c cands l dark) :=
  (h.foldl fun _ _ ht => ht.tell).setChan

theorem Tidy.huntRound {c : Nat} {cands : List Nat} {dark : Bool} (h : Tidy s₀ s) :
    Tidy s₀ (s.huntRound c cands dark) := by
  unfold State.huntRound
  extract_lets
  split
  · exact h.setChan
  · exact .ite h.setChan.isolate h.huntDisable
  · exact h.huntDisable

theorem Tidy.huntOutside {c : Nat} (h : Tidy s₀ s) : Tidy s₀ (s.huntOutside c) := h.setChan.occur

theorem Tidy.imgUnsol {c f : Nat} (h : Tidy s₀ s) : Tidy s₀ (s.imgUnsol c f) := by
  unfold State.imgUnsol
  extract_lets _ _ _ s1
  have h1 : Tidy s₀ s1 := h.setChan
  refine .ite h (.ite h1 ?_)
  split
  · exact h1.huntOutside
  · exact h1.huntRound

theorem Tidy.huntFrame {c n : Nat} (h : Tidy s₀ s) : Tidy s₀ (s.huntFrame c n) := by
  unfold State.huntFrame
  extract_lets
  split
  · exact h
  · extract_lets
    split
    · exact .ite h h.setChan
    · extract_lets
      refine .ite h ?_
      split
      · exact .ite (h.foldl fun _ _ ht => ht.tell).huntOutside (h.foldl fun _ _ hu => hu.tell).huntRound
      · exact ((h.foldl fun _ _ hv => hv.tell).foldl fun _ _ hw => hw.tell).huntRound

theorem Tidy.imgDiscovery {t w f pos : Nat} {m : List Nat} (h : Tidy s₀ s) :
    Tidy s₀ (s.imgDiscovery t w f pos m) := by
  unfold State.imgDiscovery
  extract_lets
  split
  · exact h
  · exact h.setTree

theorem Tidy.imgInvite {t n : Nat} (h : Tidy s₀ s) : Tidy s₀ (s.imgInvite t n) := by
  unfold State.imgInvite
  extract_lets
  split
  · exact h
  · exact .ite h (h.foldl fun _ _ hu => .ite hu.sendMsg.setChan hu)

theorem Tidy.discoverEnds {t : Nat} (h : Tidy s₀ s) : Tidy s₀ (s.discoverEnds t) := by
  unfold State.discoverEnds
  extract_lets
  split
  · exact h
  · exact .ite h h.setTree.complete

theorem Tidy.imgAck {t n seq : Nat} (h : Tidy s₀ s) : Tidy s₀ (s.imgAck t n seq) := by
  unfold State.imgAck
  split
  · exact h
  · exact .ite h.setTrm h

theorem Tidy.imgMessage {t w kind a f pos : Nat} {late : Int} {m : List Nat} (h : Tidy s₀ s) :
    Tidy s₀ (s.imgMessage t w kind a f pos late m) := by
  unfold State.imgMessage
  extract_lets _ _ s1
  have h1 : Tidy s₀ s1 := .ite h.imgAck h
  refine .ite h (.ite (.ite h.imgDiscovery h) ?_)
  split
  · extract_lets s2
    have h2 : Tidy s₀ s2 := h1.setTree.setTst
    exact .ite h1 (.ite h1.setTrm.setTstState.nextPhase (.ite h1.nextPhase (.ite h2.occur.complete h1)))
  · exact h1

theorem Tidy.deactFrame {t : Nat} (h : Tidy s₀ s) : Tidy s₀ (s.deactFrame t) := by
  unfold State.deactFrame
  extract_lets
  split
  · exact h
  · exact .ite h.setTree.clearTrm.complete (.ite h.setTree.tell h.setTree.sendMsg)

theorem Tidy.loseTrms {t n : Nat} (h : Tidy s₀ s) : Tidy s₀ (s.loseTrms t n) := by
  unfold State.loseTrms
  refine h.foldl fun _ _ hu => ?_
  split
  · exact hu
  · exact .ite hu.clearTrm.occur hu

theorem Tidy.wroteMapCtl {t old : Nat} (h : Tidy s₀ s) : Tidy s₀ (s.wroteMapCtl t old) := .ite h h.setTree

theorem Tidy.takeMap {c n : Nat} (h : Tidy s₀ s) : Tidy s₀ (s.takeMap c n).2 := by
  unfold State.takeMap
  extract_lets _ _ _ _ _ _ s1 s2
  have h1 : Tidy s₀ s1 := h.setChan.count.wr
  have h2 : Tidy s₀ s2 := h1.wr
  split
  · exact h.setChan.wr.wr.asSnd
  · split
    · exact Tidy.asSnd (.ite h2 h2.setChan.occur)
    · split <;> exact h1.wr.asSnd

theorem Tidy.setDsm {c bits : Nat} (h : Tidy s₀ s) : Tidy s₀ (s.setDsm c bits) := .ite h.wr.setChan h.wr

theorem Tidy.cmdDiscover {c : Cmd} (h : Tidy s₀ s) : Tidy s₀ (s.cmdDiscover c) := by
  unfold State.cmdDiscover
  extract_lets
  refine h.unreserved
    fun _ ht => .ite ht.complete (.ite ht.complete (.ite ht.complete (.ite ht.complete
    (ht.setTree.foldl fun _ _ hu => .ite hu.setChan hu))))

theorem Tidy.cmdActivate {c : Cmd} (h : Tidy s₀ s) : Tidy s₀ (s.cmdActivate c) := by
  unfold State.cmdActivate
  extract_lets
  refine h.unreserved fun _ ht => ?_
  refine .ite ht.complete (.ite ht.complete (.ite ht.complete ?_))
  split
  · exact ht.complete
  · extract_lets
    refine .ite ht.complete (.ite ht.complete ?_)
    split
    · exact ht.complete
    · exact (Tidy.ite ht.setTst.setTrm.tell ht.setTst.setTrm).setTree.sendAct

theorem Tidy.cmdDeactivate {c : Cmd} (h : Tidy s₀ s) : Tidy s₀ (s.cmdDeactivate c) := by
  unfold State.cmdDeactivate
  extract_lets
  refine h.unreserved fun _ ht => ?_
  extract_lets
  exact .ite ht.complete (.ite ht.complete (.ite ht.complete ht.cancelArmed.setTree))

/-! ### Grants -/

theorem Tidy.keepDrr {t : Nat} {rs : List Nat} {x : Walk} (h : Tidy s₀ s) : Tidy s₀ (s.keepDrr t rs x) := h.setTree

theorem Tidy.dataMap {t w n : Nat} (h : Tidy s₀ s) : Tidy s₀ (s.dataMap t w n).2 := by
  unfold State.dataMap
  extract_lets
  exact h.setChan.keepDrr

theorem Tidy.imgMap {t w n : Nat} (h : Tidy s₀ s) : Tidy s₀ (s.imgMap t w n).2 := by
  unfold State.imgMap
  split
  · exact h
  · split
    · exact h
    · exact h.dataMap

theorem Tidy.readReports {t : Nat} (h : Tidy s₀ s) : Tidy s₀ (s.readReports t) :=
  h.foldl fun _ _ hu => .ite hu.wr hu

theorem Tidy.imgCommit {t n : Nat} (h : Tidy s₀ s) : Tidy s₀ (s.imgCommit t n) := by
  unfold State.imgCommit
  refine .ite h ?_
  refine h.readReports.foldl fun _ _ hu => ?_
  extract_lets
  refine .ite hu ?_
  split
  rename_i v e
  exact (hu.imgMap.snd e).setChan

theorem Tidy.noteMap {c n : Nat} {gs : List Grant} (h : Tidy s₀ s) : Tidy s₀ (s.noteMap c n gs) :=
  h.setTree.setChan

theorem Tidy.startMove {t k w w' n : Nat} (h : Tidy s₀ s) : Tidy s₀ (s.startMove t k w w' n) := by
  unfold State.startMove
  extract_lets
  split
  · exact h.setCore.setTrm.ask
  · exact h

theorem Tidy.slalomMove {t n : Nat} (h : Tidy s₀ s) : Tidy s₀ (s.slalomMove t n) := by
  unfold State.slalomMove
  extract_lets
  split
  · extract_lets
    refine .ite h ?_
    split
    · exact h
    · exact .ite h h.startMove
  · exact h

theorem Tidy.newPeriod {t : Nat} (h : Tidy s₀ s) : Tidy s₀ (s.newPeriod t) :=
  h.setTree.foldl fun _ _ hu => hu.setChan

theorem Tidy.slalom {t n : Nat} (h : Tidy s₀ s) : Tidy s₀ (s.slalom t n) :=
  .ite h (Tidy.ite h.slalomMove h).newPeriod

theorem Tidy.retryAsks {t n : Nat} (h : Tidy s₀ s) : Tidy s₀ (s.retryAsks t n) := by
  unfold State.retryAsks
  refine h.foldl fun _ _ hu => ?_
  split
  · exact hu
  · split
    · exact hu
    · exact .ite hu (.ite hu.setTrm hu.setTrm.retell)

theorem Tidy.imgFrame {t n : Nat} (h : Tidy s₀ s) : Tidy s₀ (s.imgFrame t n) := by
  unfold State.imgFrame
  extract_lets s1 s2
  have h1 : Tidy s₀ s1 := h.retryAct.retryAsks.deactFrame.loseTrms
  have h2 : Tidy s₀ s2 := h1.imgInvite.discoverEnds.slalom
  exact .ite h (h2.foldl fun _ _ hu => hu.huntFrame.placeMsgs)

theorem Tidy.buildArea {c m : Nat} {gs : List Grant} {ann : Option (List Nat)} {hits : List (Nat × BitVec 39)}
    (h : Tidy s₀ s) : Tidy s₀ (s.buildArea c m gs ann hits) := by
  unfold State.buildArea
  extract_lets x built
  split
  rename_i area t e
  have ht : Tidy s₀ t := by
    split at e
    · next r => exact (h.frameRead.snd r).asSnd.snd e
    · next r => exact (h.frameRead.snd r).count.asSnd.snd e
  exact ht.setChan.wr.wr

theorem Tidy.keepMap {c n : Nat} {gs : List Grant} (h : Tidy s₀ s) : Tidy s₀ (s.keepMap c n gs) := h.setChan

theorem Tidy.slotDeadline {c n : Nat} {ann : Option (List Nat)} {hits : List (Nat × BitVec 39)} (h : Tidy s₀ s) :
    Tidy s₀ (s.slotDeadline c n ann hits) := by
  unfold State.slotDeadline
  extract_lets _ _ _ _ s1
  have h1 : Tidy s₀ s1 := h.setChan.keepMap.wr.wr
  refine .ite (.ite h1.buildArea h1) ?_
  split
  rename_i t e
  exact (h.takeMap.snd e).wr.setChan.keepMap.count.buildArea.noteMap

theorem execMapDeadline_answers {t : Fin 64} {hits : List (Fin 8 × Nat × BitVec 39)} (h : Tidy s₀ s) :
    Answers s₀ (execMapDeadline t hits s) := by
  unfold execMapDeadline
  extract_lets x n s1 m ann _ s2
  have h1 : Tidy s₀ s1 := h.setTree.imgFrame
  have h2 : Tidy s₀ s2 := by
    unfold s2
    cases ann with
    | some l => exact .ite h1.count h1.setTree
    | none => exact h1
  exact .next (.ite h (h2.foldl fun _ _ hu => hu.slotDeadline).imgCommit)

/-! ### The canceller -/

theorem Tidy.editCanc {c : Nat} {f : Canceller → Canceller} (h : Tidy s₀ s) : Tidy s₀ (s.editCanc c f) := h.setChan

theorem Tidy.endIdle {c j : Nat} (h : Tidy s₀ s) : Tidy s₀ (s.endIdle c j) := h.editCanc

theorem Tidy.beginIdle {c tail : Nat} (h : Tidy s₀ s) : Tidy s₀ (s.beginIdle c tail) := h.editCanc

theorem Tidy.showTap {c i : Nat} {h' : List ℚ} (h : Tidy s₀ s) : Tidy s₀ (s.showTap c i h') := h.wr.wr.wr.wr.wr

theorem Tidy.showShadow {c i : Nat} {h' : List ℚ} (h : Tidy s₀ s) : Tidy s₀ (s.showShadow c i h') :=
  h.wr.wr.wr.wr.wr

theorem Tidy.showTaps {c : Nat} (h : Tidy s₀ s) : Tidy s₀ (s.showTaps c) := by
  unfold State.showTaps
  extract_lets _ s1
  have h1 : Tidy s₀ s1 := h.foldl fun _ _ ht => ht.showTap
  exact .ite (h1.foldl fun _ _ hu => hu.showShadow) h1

theorem Tidy.receive {c : Nat} {rx : List (Nat × Int)} (h : Tidy s₀ s) : Tidy s₀ (s.receive c rx) := by
  unfold State.receive
  extract_lets _ _ s1 _ _ s2
  have h1 : Tidy s₀ s1 := h.editCanc
  have h2 : Tidy s₀ s2 := .ite h1 h1.wri
  exact .ite h2 h2.showTaps

theorem Tidy.loadShadow {c : Nat} (h : Tidy s₀ s) : Tidy s₀ (s.loadShadow c) := h.setChan.editCanc.wr.showTaps

theorem Tidy.wroteCanc {c : Nat} {load drop : Bool} (h : Tidy s₀ s) : Tidy s₀ (s.wroteCanc c load drop) :=
  .ite (Tidy.ite h.loadShadow h).wr (.ite h.loadShadow h)

theorem Tidy.swapTaps {c : Nat} (h : Tidy s₀ s) : Tidy s₀ (s.swapTaps c) :=
  (h.foldl fun _ _ ht => ht.wr.wr.wr).editCanc.wr.showTaps.wr.count

theorem execCancShadowSwap_answers {c : Fin 512} {rx : List (Nat × Int)} (h : Tidy s₀ s) :
    Answers s₀ (execCancShadowSwap c rx s) :=
  .next (.ite h (.ite h.receive.swapTaps h.receive))

theorem execCancShadowTimeout_answers {c : Fin 512} (h : Tidy s₀ s) : Answers s₀ (execCancShadowTimeout c s) :=
  .next (.ite h.wr.occur h)

/-! ### The access channels -/

theorem Tidy.otdrOver {t : Nat} {r : OtdrRun} (h : Tidy s₀ s) : Tidy s₀ (s.otdrOver t r) := h.editCanc.setTree

theorem Tidy.otdrFail {t status : Nat} (h : Tidy s₀ s) : Tidy s₀ (s.otdrFail t status) := by
  unfold State.otdrFail
  split
  · exact h
  · exact h.otdrOver.wr.occur.complete

theorem Tidy.leftLit {c : Nat} (h : Tidy s₀ s) : Tidy s₀ (s.leftLit c) := by
  unfold State.leftLit
  split
  · exact .ite h.otdrFail h
  · exact h

theorem Tidy.noteLaunch {c : Nat} {r : Option LinRamp} (h : Tidy s₀ s) : Tidy s₀ (s.noteLaunch c r) := h.setChan

theorem Tidy.chRamp {c : Nat} {lo hi : ℚ} (h : Tidy s₀ s) : Tidy s₀ (s.chRamp c lo hi) := h.noteLaunch.setChan.wr

theorem Tidy.finishEnable {t : Nat} (h : Tidy s₀ s) : Tidy s₀ (s.finishEnable t) := by
  unfold State.finishEnable
  extract_lets
  split
  · exact h
  · exact .ite h.setTree.complete h

theorem Tidy.setBrx {c st : Nat} (h : Tidy s₀ s) : Tidy s₀ (s.setBrx c st) := h.wr

theorem Tidy.editBurst {c : Nat} {f : BurstRx → BurstRx} (h : Tidy s₀ s) : Tidy s₀ (s.editBurst c f) := h.setChan

theorem Tidy.hear {c : Nat} {pos : Int} (h : Tidy s₀ s) : Tidy s₀ (s.hear c pos) := .ite h h.setChan

theorem Tidy.brxClear {c : Nat} (h : Tidy s₀ s) : Tidy s₀ (s.brxClear c) := h.hear.beginIdle.wr.setChan

theorem Tidy.chDark {c : Nat} (h : Tidy s₀ s) : Tidy s₀ (s.chDark c) :=
  h.wr.wr.wr.wr.brxClear.noteLaunch.setChan.leftLit.seeEgress.finishEnable

theorem execChDsStart_answers {c : Fin 512} (h : Tidy s₀ s) : Answers s₀ (execChDsStart c s) := by
  unfold execChDsStart
  extract_lets
  refine .next ?_
  split
  · exact h
  · exact .ite h.wr.wr.setChan.chRamp h

theorem Tidy.endPayload {c : Nat} (h : Tidy s₀ s) : Tidy s₀ (s.endPayload c) := h.setChan

theorem Tidy.chDisable {c : Nat} (h : Tidy s₀ s) : Tidy s₀ (s.chDisable c) :=
  h.wr.chRamp.endPayload.leftLit.seeEgress

theorem execChDsDisableStart_answers {c : Fin 512} (h : Tidy s₀ s) : Answers s₀ (execChDsDisableStart c s) := by
  unfold execChDsDisableStart
  extract_lets _ _ s1
  have h1 : Tidy s₀ s1 := h.setChan
  refine .next ?_
  split
  · exact h
  · exact .ite h (.ite h1.chDark (.ite h1.chDisable h1))

theorem execChDsRampEnd_answers {c : Fin 512} (h : Tidy s₀ s) : Answers s₀ (execChDsRampEnd c s) := by
  unfold execChDsRampEnd
  extract_lets _ _ s1 _ s2
  have h1 : Tidy s₀ s1 := h.setChan.wr
  have h2 : Tidy s₀ s2 := h1.wr.setChan
  refine .next ?_
  split
  · exact h
  · exact .ite h (.ite h2.seeEgress.finishEnable (.ite h1.chDark.beginFalls h1))

theorem execChDsLaserFault_answers {c : Fin 512} (h : Tidy s₀ s) : Answers s₀ (execChDsLaserFault c s) := by
  unfold execChDsLaserFault
  -- the state after the fault gets a name: the kernel would evaluate it to decide the match on the tree's enable
  obtain ⟨u, e⟩ : ∃ u, u = ((s.chDark c).occur CH_DS_FAULT c).beginFalls := ⟨_, rfl⟩
  have hu : Tidy s₀ u := e ▸ h.chDark.occur.beginFalls
  rw [← e]
  refine .next (.ite h ?_)
  extract_lets
  split
  · exact .ite hu.setTree.complete hu
  · exact hu

theorem Tidy.wroteDsCtl {c : Nat} (h : Tidy s₀ s) : Tidy s₀ (s.wroteDsCtl c) := .ite h.chRamp h

theorem Tidy.cmdTreeEnable {c : Cmd} (h : Tidy s₀ s) : Tidy s₀ (s.cmdTreeEnable c) := by
  unfold State.cmdTreeEnable
  extract_lets
  refine h.unreserved fun _ ht => ?_
  extract_lets
  split
  · exact .ite ht.complete (.ite ht.complete ht.complete)
  · extract_lets s1
    have h1 : Tidy s₀ s1 := ht.foldl fun _ _ hu => .ite hu.wr.wr.setChan hu.setChan
    refine .ite ht.complete ?_
    split
    · exact ht.complete
    · exact h1.setTree.finishEnable

theorem Tidy.brxIdle {c tail : Nat} (h : Tidy s₀ s) : Tidy s₀ (s.brxIdle c tail) := h.beginIdle.setBrx.setChan

theorem Tidy.burstRecord {c code : Nat} {pos : Int} (h : Tidy s₀ s) : Tidy s₀ (s.burstRecord c code pos) :=
  h.pushBev

theorem Tidy.collisionRecord {c : Nat} {alloc2 : Option Nat} (h : Tidy s₀ s) :
    Tidy s₀ (s.collisionRecord c alloc2) := by
  unfold State.collisionRecord
  extract_lets
  split
  · exact h
  · extract_lets _ s1
    have h1 : Tidy s₀ s1 := h.pushBev.editBurst
    exact .ite (h1.foldl fun _ _ ht => ht.imgNamed) h1

theorem Tidy.missBurst {c : Nat} {g : Grant} {frame : Nat} {pos : Int} (h : Tidy s₀ s) :
    Tidy s₀ (s.missBurst c g frame pos) := by
  unfold State.missBurst
  extract_lets _ s1 s2
  have h1 : Tidy s₀ s1 := h.brxIdle.setChan
  have h2 : Tidy s₀ s2 := h1.count
  exact .ite h1 (.ite h2 h2.pushBev.imgMiss)

theorem execChWindowOpen_answers {c : Fin 512} {rx : List (Nat × Int)} (h : Tidy s₀ s) :
    Answers s₀ (execChWindowOpen c rx s) := by
  unfold execChWindowOpen
  extract_lets
  refine .next ?_
  split
  · exact h
  · extract_lets s1
    have h1 : Tidy s₀ s1 := h.setChan
    refine .ite h ?_
    split
    · exact h.setChan
    · exact .ite h (.ite h1 h1.receive.setBrx.setChan)

theorem execChWindowClose_answers {c : Fin 512} (h : Tidy s₀ s) : Answers s₀ (execChWindowClose c s) := by
  unfold execChWindowClose
  extract_lets
  refine .next ?_
  split
  · exact h
  · exact .ite h (.ite h.missBurst h.setChan)

theorem Tidy.search {c j : Nat} {p : Int} (h : Tidy s₀ s) : Tidy s₀ (s.search c j p) := by
  unfold State.search
  extract_lets
  exact h.setBrx.setChan.editBurst

theorem Tidy.unsolicited {c j : Nat} (h : Tidy s₀ s) : Tidy s₀ (s.unsolicited c j) :=
  .ite h.count h.count.setChan.pushBev.imgUnsol

theorem Tidy.energyStep {c j : Nat} {p : Int} (h : Tidy s₀ s) : Tidy s₀ (s.energyStep c j p) := by
  unfold State.energyStep
  extract_lets
  refine .ite h (.ite h.unsolicited ?_)
  refine .ite ?_ (.ite h.search.count (.ite h.setChan h))
  split
  · exact h
  · exact .ite h.missBurst.unsolicited h.endIdle.setChan.search

theorem Tidy.detect {c j : Nat} {rx : List (Nat × Int)} {f : State → Int → State} (h : Tidy s₀ s)
    (hf : ∀ t x0, Tidy s₀ t → Tidy s₀ (f t x0)) : Tidy s₀ (s.detect c j rx f) :=
  .ite h (.ite (hf _ _ h.receive) h.receive)

theorem execChEnergyStep_answers {c : Fin 512} {j : Nat} {rx : List (Nat × Int)} (h : Tidy s₀ s) :
    Answers s₀ (execChEnergyStep c j rx s) :=
  .next (h.detect fun _ _ ht => ht.energyStep)

theorem execChDelimiterFound_answers {c : Fin 512} {j : Nat} {pburst : Int} {levels : List Int} {chips : BitVec 32}
    (h : Tidy s₀ s) : Answers s₀ (execChDelimiterFound c j pburst levels chips s) :=
  .next (.ite h.setBrx.editBurst h)

theorem execChSearchDeadline_answers {c : Fin 512} {rx : List (Nat × Int)} (h : Tidy s₀ s) :
    Answers s₀ (execChSearchDeadline c rx s) := by
  unfold execChSearchDeadline
  extract_lets _ s1
  have h1 : Tidy s₀ s1 := h.count.collisionRecord
  refine .next ?_
  refine .ite ?_ h
  split
  · exact .ite h1.receive.setBrx.setChan h1.missBurst
  · exact h1.missBurst

theorem Tidy.noteSpacing {c a : Nat} (h : Tidy s₀ s) : Tidy s₀ (s.noteSpacing c a) := by
  unfold State.noteSpacing
  extract_lets
  split
  · exact .ite h.setChan h
  · exact h.setChan

theorem Tidy.noteUnread {c : Nat} (h : Tidy s₀ s) : Tidy s₀ (s.noteUnread c) := .ite h.noteSpacing h

theorem Tidy.headerPassed {c : Nat} {h' : BHeader} (h : Tidy s₀ s) : Tidy s₀ (s.headerPassed c h') := by
  unfold State.headerPassed
  extract_lets _ _ _ s1
  have h1 : Tidy s₀ s1 := .ite h.wr.wr.wr.imgReport h
  exact (Tidy.ite h1.pushBev (.ite h1.burstRecord.imgRanged h1.imgHit)).setBrx

theorem execChHeaderDecoded_answers {c : Fin 512} {soft : List Int} (h : Tidy s₀ s) :
    Answers s₀ (execChHeaderDecoded c soft s) := by
  unfold execChHeaderDecoded
  extract_lets _ _ _ _ _ _ s1 _ s2 s3 s4
  have h1 : Tidy s₀ s1 := h.collisionRecord.noteSpacing
  have h2 : Tidy s₀ s2 := h1.editBurst
  have h3 : Tidy s₀ s3 := h2.count
  have h4 : Tidy s₀ s4 := .ite h3 h3.burstRecord.imgNamed
  refine .next (.ite h (.ite h1.count.burstRecord.brxIdle ?_))
  exact .ite h4.brxIdle (.ite h2.count.burstRecord.brxIdle h2.headerPassed)

theorem Tidy.collide {c j : Nat} {p : Int} (h : Tidy s₀ s) : Tidy s₀ (s.collide c j p) :=
  .ite h.hear.noteUnread.collisionRecord.count.editBurst.search h

theorem execChCollisionStep_answers {c : Fin 512} {j : Nat} {rx : List (Nat × Int)} (h : Tidy s₀ s) :
    Answers s₀ (execChCollisionStep c j rx s) :=
  .next (h.detect fun _ _ ht => ht.collide)

theorem Tidy.overlap {c : Nat} {p : Int} (h : Tidy s₀ s) : Tidy s₀ (s.overlap c p) :=
  .ite (.ite h.count h.count.editBurst.burstRecord) h

theorem execChOverlapStep_answers {c : Fin 512} {j : Nat} {rx : List (Nat × Int)} (h : Tidy s₀ s) :
    Answers s₀ (execChOverlapStep c j rx s) :=
  .next (h.detect fun _ _ ht => ht.overlap)

theorem Tidy.takeUpMessage {c : Nat} {h' : BHeader} {ok : Bool} {m : List Nat} (h : Tidy s₀ s) :
    Tidy s₀ (s.takeUpMessage c h' ok m) :=
  .ite h.count h.deliver.imgMessage

theorem Tidy.deliverBurst {c : Nat} {h' : BHeader} {n : Nat} {payload : List (BitVec 8)} (h : Tidy s₀ s) :
    Tidy s₀ (s.deliverBurst c h' n payload) := by
  unfold State.deliverBurst
  extract_lets _ _ _ _ s1 _ s2
  have h1 : Tidy s₀ s1 := h.count.count
  have h2 : Tidy s₀ s2 := .ite h1.takeUpMessage h1
  exact .ite h2 (.ite h2.same.setBursts h2.count)

theorem Tidy.endShort {c j : Nat} {payload : List (BitVec 8)} (h : Tidy s₀ s) : Tidy s₀ (s.endShort c j payload) := by
  unfold State.endShort
  extract_lets _ _ s1 s2
  have h1 : Tidy s₀ s1 := h.hear.noteUnread.collisionRecord
  have h2 : Tidy s₀ s2 := by
    unfold s2
    split
    · exact h1.deliverBurst
    · exact h1
  exact h2.burstRecord.brxIdle

theorem execChBurstLoss_answers {c : Fin 512} {j : Nat} {rx : List (Nat × Int)} {payload : List (BitVec 8)}
    (h : Tidy s₀ s) : Answers s₀ (execChBurstLoss c j rx payload s) :=
  .next (h.detect fun _ _ ht => .ite ht.endShort ht)

theorem execChPayloadEnd_answers {c : Fin 512} (h : Tidy s₀ s) : Answers s₀ (execChPayloadEnd c s) :=
  .next (.ite h.hear.setBrx h)

theorem Tidy.terminalTable {c : Nat} {h' : BHeader} (h : Tidy s₀ s) : Tidy s₀ (s.terminalTable c h') :=
  .ite h.wri.wri.wr.wr.burstRecord.imgDrift h.wri.wri.wr.wr

theorem Tidy.afterBurst {c : Nat} (h : Tidy s₀ s) : Tidy s₀ (s.afterBurst c) := by
  unfold State.afterBurst
  extract_lets _ s1
  have h1 : Tidy s₀ s1 := by
    unfold s1
    split
    · exact .ite h.setBrx h.brxIdle
    · exact h.brxIdle
  exact h1.setChan.foldl fun _ _ ht => ht.energyStep

theorem execChEndmarkDone_answers {c : Fin 512} {chips : BitVec 32} {payload : List (BitVec 8)} (h : Tidy s₀ s) :
    Answers s₀ (execChEndmarkDone c chips payload s) := by
  unfold execChEndmarkDone
  extract_lets _ _ s1 s2
  have h1 : Tidy s₀ s1 := .ite h h.count
  have h2 : Tidy s₀ s2 := by
    unfold s2
    split
    · exact .ite h1.deliverBurst.count.terminalTable h1.deliverBurst.count
    · exact h1
  exact .next (.ite h h2.afterBurst)

theorem Tidy.longBurst {c : Nat} {p : Int} (h : Tidy s₀ s) : Tidy s₀ (s.longBurst c p) := by
  unfold State.longBurst
  extract_lets
  split
  · exact h
  · exact .ite h (.ite h.editBurst.burstRecord.imgLong h.editBurst.burstRecord)

theorem execChBurstLong_answers {c : Fin 512} {rx : List (Nat × Int)} (h : Tidy s₀ s) :
    Answers s₀ (execChBurstLong c rx s) :=
  .next (h.detect fun _ _ ht => ht.longBurst)

theorem Tidy.cmdReflect {c : Cmd} (h : Tidy s₀ s) : Tidy s₀ (s.cmdReflect c) := by
  unfold State.cmdReflect
  extract_lets
  refine h.unreserved fun _ ht => ?_
  extract_lets
  refine .ite ht.complete ?_
  split
  · exact ht.complete
  · exact .ite ht.complete ht.wr.wr.wr.wr.wr.wr.wr.setTree

theorem execOtdrRunStart_answers {t : Fin 64} (h : Tidy s₀ s) : Answers s₀ (execOtdrRunStart t s) := by
  unfold execOtdrRunStart
  refine .next ?_
  split
  · exact h
  · exact .ite h.wr h

theorem execOtdrShot_answers {t : Fin 64} {rx : List Int} (h : Tidy s₀ s) : Answers s₀ (execOtdrShot t rx s) := by
  unfold execOtdrShot
  extract_lets
  refine .next ?_
  split
  · exact h
  · exact .ite h (.ite h.setTree.wr h.setTree.count)

theorem Tidy.applyEvents {t : Nat} {es : List TraceEvent} (h : Tidy s₀ s) : Tidy s₀ (s.applyEvents t es) := by
  unfold State.applyEvents
  extract_lets s1
  have h1 : Tidy s₀ s1 := by
    refine h.foldl fun _ _ hu => ?_
    extract_lets _ _ s2
    have h2 : Tidy s₀ s2 := by
      refine hu.foldl fun _ _ hv => ?_
      split <;> exact hv.wr.wr.wr
    exact .ite hu (.ite hu.occur h2.loadShadow)
  exact h1.wr

theorem Tidy.putEvents {t : Nat} {events : List TraceEvent} (h : Tidy s₀ s) : Tidy s₀ (s.putEvents t events) :=
  (h.foldl fun _ _ hu => hu.wr.wr.wr.wr.wr).wr.wr

theorem Tidy.otdrDone {t : Nat} {r : OtdrRun} {events : List TraceEvent} (h : Tidy s₀ s) :
    Tidy s₀ (s.otdrDone t r events) := by
  unfold State.otdrDone
  extract_lets _ _ s1
  have h1 : Tidy s₀ s1 := h.putEvents.wr.otdrOver.occur
  exact (Tidy.ite h1.applyEvents h1).complete

theorem execOtdrRunEnd_answers {t : Fin 64} (h : Tidy s₀ s) : Answers s₀ (execOtdrRunEnd t s) := by
  unfold execOtdrRunEnd
  refine .next ?_
  split
  · exact h
  · exact .ite h (.ite h.otdrFail h.otdrDone)

theorem Tidy.showNoise {c : Nat} (h : Tidy s₀ s) : Tidy s₀ (s.showNoise c) := .ite h h.wri.wri.wri

theorem execChQwinEnd_answers {c : Fin 512} {fig : ChFigures} (h : Tidy s₀ s) :
    Answers s₀ (execChQwinEnd c fig s) := by
  unfold execChQwinEnd
  extract_lets _ _ _ _ _ _ _ _ _ s1
  have h1 : Tidy s₀ s1 := by
    unfold s1
    split <;> exact h.receive.hear.showNoise.wr.wr.wr.wr
  exact .next (.ite h h1.wr.wr.wr.inc.wr.setChan)

theorem Tidy.treeOn {t : Nat} (h : Tidy s₀ s) : Tidy s₀ (s.treeOn t) :=
  h.setTree.foldl fun _ _ hu => hu.wr.setChan

theorem Tidy.treeOff {t : Nat} (h : Tidy s₀ s) : Tidy s₀ (s.treeOff t) := by
  unfold State.treeOff
  extract_lets _ _ _ s1 s2 s3
  have h1 : Tidy s₀ s1 := h.otdrFail.foldl fun _ _ ht1 => ht1.complete
  have h2 : Tidy s₀ s2 := h1.foldl fun _ _ ht2 => .ite ht2 ht2.setTst
  have h3 : Tidy s₀ s3 := h2.foldl fun _ _ ht3 => ht3.setChan.setBursts
  exact h3.setTree.foldl fun _ _ ht4 => ht4.seeEgress

theorem Tidy.treeShed {t : Nat} (h : Tidy s₀ s) : Tidy s₀ (s.treeShed t) :=
  h.foldl fun _ _ hu => .ite hu.chDisable (.ite hu.chDark hu)

end Sys2Proof.Machine
end

section
/-! PROOF. The lines keep the queue and the canonical form. -/

namespace Sys2Proof.Machine

open Reg Ev

variable {s₀ s : State}

/-! ### Line transmitters -/

theorem Tidy.setLine {l : Nat} {x : LineSt} (h : Tidy s₀ s) : Tidy s₀ (s.setLine l x) := h.same

theorem Tidy.setTx {l st : Nat} (h : Tidy s₀ s) : Tidy s₀ (s.setTx l st) := h.wr.seeEgress

theorem Tidy.showRamping {l : Nat} (h : Tidy s₀ s) : Tidy s₀ (s.showRamping l) := h.wr

theorem Tidy.startRamp {l p : Nat} {lo hi : ℚ} {from_ to_ : List (Option ℚ)} (h : Tidy s₀ s) :
    Tidy s₀ (s.startRamp l p lo hi from_ to_) := by
  unfold State.startRamp
  extract_lets
  split
  exact h.setLine.count.showRamping

theorem Tidy.setTxBank {l x : Nat} {r : LoadReq} (h : Tidy s₀ s) : Tidy s₀ (s.setTxBank l x r) :=
  h.wr.wr.foldl fun _ _ ht => ht.wr.wr

theorem Tidy.activateTx {l x : Nat} (h : Tidy s₀ s) : Tidy s₀ (s.activateTx l x) := h.wr.wr.wr.wr

theorem Tidy.cancelSwitch {l : Nat} (h : Tidy s₀ s) : Tidy s₀ (s.cancelSwitch l) := h.setLine

theorem Tidy.completeOpt {tag : Option Nat} {status : Nat} (h : Tidy s₀ s) : Tidy s₀ (s.completeOpt tag status) := by
  unfold State.completeOpt
  split
  · exact h.complete
  · exact h

theorem Tidy.enableFails {l : Nat} (h : Tidy s₀ s) : Tidy s₀ (s.enableFails l) := h.setLine.completeOpt.completeOpt

theorem Tidy.lineDisable {l : Nat} (h : Tidy s₀ s) : Tidy s₀ (s.lineDisable l) :=
  h.cancelSwitch.enableFails.startRamp.setTx

theorem Tidy.lineShutdown {l : Nat} (h : Tidy s₀ s) : Tidy s₀ (s.lineShutdown l) :=
  h.cancelSwitch.enableFails.startRamp.setTx

theorem Tidy.lineDark {l : Nat} (h : Tidy s₀ s) : Tidy s₀ (s.lineDark l) :=
  h.setLine.setTx.wr.showRamping.completeOpt

theorem Tidy.setRx {l st : Nat} (h : Tidy s₀ s) : Tidy s₀ (s.setRx l st) := h.wr

theorem Tidy.setRxBank {l x : Nat} {r : LoadReq} (h : Tidy s₀ s) : Tidy s₀ (s.setRxBank l x r) :=
  h.wr.wr.foldl fun _ _ ht => ht.wr.wr

theorem Tidy.activateRx {l x : Nat} (h : Tidy s₀ s) : Tidy s₀ (s.activateRx l x) := h.wr.wr.wr

theorem Tidy.emptyRx {l : Nat} (h : Tidy s₀ s) : Tidy s₀ (s.emptyRx l) :=
  .ite (h.setLine.same.foldl fun _ _ ht => ht.setLine) h

theorem Tidy.restartPersist {l d : Nat} (h : Tidy s₀ s) : Tidy s₀ (s.restartPersist l d) := h.setLine

theorem Tidy.dropDefect {l d : Nat} (h : Tidy s₀ s) : Tidy s₀ (s.dropDefect l d) :=
  .ite (.ite h.wr.occur.restartPersist.setLine h.wr.occur.restartPersist) h

theorem Tidy.declareDefect {l d : Nat} (h : Tidy s₀ s) : Tidy s₀ (s.declareDefect l d) := by
  unfold State.declareDefect
  extract_lets
  exact .ite h (h.foldl fun _ _ ht => .ite ht.dropDefect ht).wr.wr.occur.setLine.emptyRx

theorem Tidy.updateTim {l : Nat} (h : Tidy s₀ s) : Tidy s₀ (s.updateTim l) :=
  .ite h.dropDefect (.ite h.declareDefect (.ite h.dropDefect h))

theorem Tidy.clearDefect {l d : Nat} (h : Tidy s₀ s) : Tidy s₀ (s.clearDefect l d) := .ite h.dropDefect.updateTim h

theorem Tidy.setFstate {l st : Nat} (h : Tidy s₀ s) : Tidy s₀ (s.setFstate l st) :=
  .ite (.ite h.wr h.wr.setLine) (Tidy.ite h.wr h.wr.setLine).wr.wr.setLine.emptyRx

theorem Tidy.toHunt {l : Nat} (h : Tidy s₀ s) : Tidy s₀ (s.toHunt l) := h.setFstate.wr.setLine

theorem Tidy.loadFails {l : Nat} (h : Tidy s₀ s) : Tidy s₀ (s.loadFails l) := by
  unfold State.loadFails
  extract_lets
  split
  · exact h
  · exact h.setLine.complete

theorem Tidy.leaveLocked {l : Nat} (h : Tidy s₀ s) : Tidy s₀ (s.leaveLocked l) :=
  h.setFstate.wr.wr.setLine.loadFails

theorem Tidy.countUnseen {l : Nat} (h : Tidy s₀ s) : Tidy s₀ (s.countUnseen l) := by
  unfold State.countUnseen
  extract_lets s1
  have h1 : Tidy s₀ s1 := h.count.used
  exact .ite (h1.foldl fun _ _ ht => .ite ht.count.used ht) h1

theorem Tidy.rxTo {l st : Nat} (h : Tidy s₀ s) : Tidy s₀ (s.rxTo l st) := by
  unfold State.rxTo
  extract_lets _ s1 _ s2
  have h1 : Tidy s₀ s1 := .ite h.countUnseen h
  have h2 : Tidy s₀ s2 := (Tidy.ite h1.leaveLocked h1).setRx
  exact .ite h2 (h2.foldl fun _ _ ht => ht.wr)

theorem Tidy.sigOff {l : Nat} (h : Tidy s₀ s) : Tidy s₀ (s.sigOff l) := h.wr.declareDefect

theorem Tidy.rxTuneNow {l : Nat} (h : Tidy s₀ s) : Tidy s₀ (s.rxTuneNow l) := h.rxTo.sigOff.setLine

theorem Tidy.rxRetune {l : Nat} (h : Tidy s₀ s) : Tidy s₀ (s.rxRetune l) := .ite h h.rxTuneNow

theorem Tidy.showTxCal {l : Nat} {temp : Int} (h : Tidy s₀ s) : Tidy s₀ (s.showTxCal l temp) :=
  h.wri.wri.wri.wri.wri.wri.wri.wri

theorem execLineTxCalUpdate_answers {l : Fin 4} {temp : Int} (h : Tidy s₀ s) :
    Answers s₀ (execLineTxCalUpdate l temp s) := by
  unfold execLineTxCalUpdate
  extract_lets
  refine .next ?_
  refine .ite ?_ h
  split
  exact h.setLine.showTxCal

theorem execLineEnableStart_answers {l : Fin 4} (h : Tidy s₀ s) : Answers s₀ (execLineEnableStart l s) := by
  unfold execLineEnableStart
  extract_lets
  refine .next ?_
  split
  · exact h
  · exact .ite (.ite h.setLine.setTx.rxRetune h.setLine.setTx) h

theorem execLineCalDone_answers {l : Fin 4} {temp : Int} {vals : List Int} {taps : List (List Int)} (h : Tidy s₀ s) :
    Answers s₀ (execLineCalDone l temp vals taps s) := by
  unfold execLineCalDone
  extract_lets _ _ _ _ s1
  have h1 : Tidy s₀ s1 := .ite h.setLine.showTxCal.wr.occur h.setLine.wr.occur
  exact .next (.ite h1.setTxBank.setTxBank.setLine h)

theorem execLineCalTimeout_answers {l : Fin 4} (h : Tidy s₀ s) : Answers s₀ (execLineCalTimeout l s) :=
  .next (.ite h.enableFails.setLine.setTx.occur h)

theorem execLineTxModulationStart_answers {l : Fin 4} (h : Tidy s₀ s) :
    Answers s₀ (execLineTxModulationStart l s) := by
  unfold execLineTxModulationStart
  extract_lets
  refine .next ?_
  split
  · exact h
  · exact .ite h.setLine.activateTx.startRamp.setTx h

theorem execLineRampEnd_answers {l : Fin 4} (h : Tidy s₀ s) : Answers s₀ (execLineRampEnd l s) := by
  unfold execLineRampEnd
  extract_lets
  refine .next ?_
  split
  · exact h
  · extract_lets s1
    have h1 : Tidy s₀ s1 := h.setLine.showRamping
    exact .ite (.ite h1.setLine.setTx.completeOpt (.ite h1.lineDark.beginFalls h1.setLine.completeOpt)) h

theorem execLineLaserFault_answers {l : Fin 4} (h : Tidy s₀ s) : Answers s₀ (execLineLaserFault l s) :=
  .next (.ite h.lineShutdown.occur h)

theorem Tidy.wroteTxCtl {l power : Nat} (h : Tidy s₀ s) : Tidy s₀ (s.wroteTxCtl l power) := .ite h.startRamp h

theorem execLoadReqEvaluate_answers {l : Fin 4} (h : Tidy s₀ s) : Answers s₀ (execLoadReqEvaluate l s) := by
  unfold execLoadReqEvaluate
  extract_lets
  refine .next ?_
  split
  · exact h
  · exact .ite (.ite h.setLine.setLine (.ite h.setLine h.setLine.setTxBank.wr.setLine)) h

theorem Tidy.switchTx {l : Nat} {keep : Bool} (h : Tidy s₀ s) : Tidy s₀ (s.switchTx l keep) :=
  .ite h.setLine.activateTx h.setLine.activateTx.startRamp

theorem execLineTxFallback_answers {l : Fin 4} (h : Tidy s₀ s) : Answers s₀ (execLineTxFallback l s) :=
  .next (.ite h.cancelSwitch.setTxBank.switchTx.setLine.occur h)

theorem Tidy.sendReq {l : Nat} {c : LoadCmd} {r : LoadReq} (h : Tidy s₀ s) : Tidy s₀ (s.sendReq l c r) := by
  unfold State.sendReq
  extract_lets _ _ s1
  have h1 : Tidy s₀ s1 := h.setLine
  split
  · exact h1.setCmd
  · exact h1

theorem Tidy.loadOk {l tag : Nat} (h : Tidy s₀ s) : Tidy s₀ (s.loadOk l tag) := h.used.setLine.complete

theorem Tidy.computeLoad {l : Nat} {c : LoadCmd} {snr : List Nat} (h : Tidy s₀ s) :
    Tidy s₀ (s.computeLoad l c snr) := by
  unfold State.computeLoad
  extract_lets _ _ _ s1
  have h1 : Tidy s₀ s1 := h.foldl fun _ _ ht => .ite ht.occur ht
  exact .ite h1.setLine.complete (.ite h1.loadOk h1.sendReq)

theorem Tidy.tryLoad {l : Nat} (h : Tidy s₀ s) : Tidy s₀ (s.tryLoad l) := by
  unfold State.tryLoad
  split
  · exact .ite h.computeLoad h
  · exact h

theorem Tidy.startLoad {l tag inner rate : Nat} (h : Tidy s₀ s) : Tidy s₀ (s.startLoad l tag inner rate) :=
  .ite h.complete (.ite h.complete h.setLine.tryLoad)

theorem Tidy.cmdLineEnable {c : Cmd} (h : Tidy s₀ s) : Tidy s₀ (s.cmdLineEnable c) := by
  unfold State.cmdLineEnable
  extract_lets
  refine h.unreserved fun _ ht => ?_
  extract_lets _ _ _ s1
  have h1 : Tidy s₀ s1 := ht.wri.wri.wr.wr
  refine .ite ht.complete ?_
  split
  · refine .ite ht.complete (.ite ht.complete (.ite (.ite ht.complete ht.wri.wri.wr.wr.setLine) ?_))
    exact .ite (.ite ht.complete (.ite h1.complete h1.wroteTxCtl.setLine)) ht.complete
  · exact .ite ht.lineDisable.setLine (.ite ht.setLine (.ite ht.complete ht.complete))

theorem Tidy.cmdLineRate {c : Cmd} (h : Tidy s₀ s) : Tidy s₀ (s.cmdLineRate c) :=
  h.unreserved fun _ ht => .ite ht.complete ht.startLoad

theorem Tidy.cmdLineLoad {c : Cmd} (h : Tidy s₀ s) : Tidy s₀ (s.cmdLineLoad c) := by
  unfold State.cmdLineLoad
  extract_lets
  refine .ite ?_ (h.unreserved fun _ ht => .ite ht.complete ht.startLoad)
  refine h.unreserved fun _ hu => ?_
  split
  · exact hu.complete
  · exact .ite hu.complete (.ite hu.complete (.ite hu.complete (.ite hu.complete hu.sendReq)))

theorem Tidy.cmdLineTrace {c : Cmd} (h : Tidy s₀ s) : Tidy s₀ (s.cmdLineTrace c) := by
  unfold State.cmdLineTrace
  extract_lets
  refine h.unreserved fun _ ht => ?_
  extract_lets s1 s2
  have h1 : Tidy s₀ s1 := .ite (ht.foldl fun _ _ hu => hu.wr) ht
  have h2 : Tidy s₀ s2 := .ite (h1.foldl fun _ _ hv => hv.wr) h1
  exact h2.wr.wr.updateTim.emptyRx.complete

/-! ### Line receivers -/

theorem Tidy.converge {l j sync : Nat} (h : Tidy s₀ s) : Tidy s₀ (s.converge l j sync) := h.wr.setLine

theorem Tidy.convergeAll {l sync : Nat} (h : Tidy s₀ s) : Tidy s₀ (s.convergeAll l sync) :=
  h.foldl fun _ _ ht => .ite ht.converge ht.wr

theorem Tidy.checkLit {l : Nat} {pow : List Nat} (h : Tidy s₀ s) : Tidy s₀ (s.checkLit l pow) := by
  unfold State.checkLit
  extract_lets s1
  have h1 : Tidy s₀ s1 := h.foldl fun _ _ ht => ht.wr
  exact .ite h (.ite h1.wr (.ite h1 h1.wr.occur))

theorem Tidy.findLit {l : Nat} (h : Tidy s₀ s) : Tidy s₀ (s.findLit l) := h.used.checkLit

theorem Tidy.rxGoOff {l : Nat} (h : Tidy s₀ s) : Tidy s₀ (s.rxGoOff l) := h.rxTo.sigOff.setLine

theorem Tidy.rxStart {l : Nat} (h : Tidy s₀ s) : Tidy s₀ (s.rxStart l) :=
  h.wr.setRxBank.setRxBank.activateRx.rxTuneNow.setLine

theorem Tidy.rxFault {l : Nat} (h : Tidy s₀ s) : Tidy s₀ (s.rxFault l) := h.rxGoOff.wr.occur

theorem Tidy.startSearch {l : Nat} (h : Tidy s₀ s) : Tidy s₀ (s.startSearch l) := h.rxTo.setLine

theorem Tidy.rxIdleNow {l : Nat} (h : Tidy s₀ s) : Tidy s₀ (s.rxIdleNow l) :=
  .ite h.wr.wr.wr.rxTo.startSearch h.wr.wr.wr.rxTo

theorem Tidy.rxHoldNow {l : Nat} (h : Tidy s₀ s) : Tidy s₀ (s.rxHoldNow l) := h.rxTo.setLine.occur

theorem Tidy.rxAcqNow {l sync : Nat} (h : Tidy s₀ s) : Tidy s₀ (s.rxAcqNow l sync) :=
  .ite h.rxTo.setLine.convergeAll h.rxTo.setLine.convergeAll.rxHoldNow

theorem Tidy.startWindow {l at_ : Nat} (h : Tidy s₀ s) : Tidy s₀ (s.startWindow l at_) := h.setLine

theorem Tidy.rxLockNow {l : Nat} (h : Tidy s₀ s) : Tidy s₀ (s.rxLockNow l) :=
  h.rxTo.startWindow.toHunt.used.setLine.occur

theorem execLineLoLocked_answers {l : Fin 4} (h : Tidy s₀ s) : Answers s₀ (execLineLoLocked l s) :=
  .next (.ite h.rxTo.declareDefect h)

theorem execLineLoTimeout_answers {l : Fin 4} (h : Tidy s₀ s) : Answers s₀ (execLineLoTimeout l s) :=
  .next (.ite h.rxFault h)

theorem execLineLoFault_answers {l : Fin 4} (h : Tidy s₀ s) : Answers s₀ (execLineLoFault l s) :=
  .next (.ite h h.rxFault)

theorem execLineSigUp_answers {l : Fin 4} {pin : Int} (h : Tidy s₀ s) : Answers s₀ (execLineSigUp l pin s) := by
  unfold execLineSigUp
  extract_lets _ s1
  have h1 : Tidy s₀ s1 := h.wr.clearDefect
  exact .next (.ite h (.ite h1.startSearch (.ite h1.rxAcqNow.findLit h1)))

theorem execLineSigDown_answers {l : Fin 4} {pin : Int} (h : Tidy s₀ s) : Answers s₀ (execLineSigDown l pin s) :=
  .next (.ite h (.ite h.sigOff.rxHoldNow h.sigOff))

theorem execLineCdSearchDone_answers {l : Fin 4} {est : Option Int} {fofs clk : Int} {pow : List Nat}
    (h : Tidy s₀ s) : Answers s₀ (execLineCdSearchDone l est fofs clk pow s) := by
  unfold execLineCdSearchDone
  extract_lets
  refine .next ?_
  refine .ite ?_ h
  split
  · exact h.count.startSearch
  · exact h.wri.wri.wri.rxAcqNow.checkLit

theorem execLineAcqTimeout_answers {l : Fin 4} (h : Tidy s₀ s) : Answers s₀ (execLineAcqTimeout l s) :=
  .next (.ite h.setLine.count.rxIdleNow h)

theorem execLineHoldTimeout_answers {l : Fin 4} (h : Tidy s₀ s) : Answers s₀ (execLineHoldTimeout l s) :=
  .next (.ite h.rxIdleNow h)

theorem execLineScTrack_answers {l : Fin 4} {j : Fin 32} (h : Tidy s₀ s) : Answers s₀ (execLineScTrack l j s) :=
  .next (.ite (.ite h.wr.rxLockNow h.wr) h)

theorem execLineScConvergeTimeout_answers {l : Fin 4} {j : Fin 32} (h : Tidy s₀ s) :
    Answers s₀ (execLineScConvergeTimeout l j s) :=
  .next (.ite h.count.converge h)

theorem execLineScLost_answers {l : Fin 4} {j : Fin 32} (h : Tidy s₀ s) : Answers s₀ (execLineScLost l j s) :=
  .next (.ite (.ite h.converge.rxTo.setLine.occur.findLit h.converge) h)

theorem Tidy.wroteRxCtl {l : Nat} {freq en : Bool} (h : Tidy s₀ s) : Tidy s₀ (s.wroteRxCtl l freq en) := by
  unfold State.wroteRxCtl
  extract_lets _ _ _ s1
  have h1 : Tidy s₀ s1 := .ite h.setLine h
  exact .ite h1 (.ite (.ite h1 h1.rxGoOff) (.ite h1.rxStart (.ite h1.rxRetune h1)))

theorem Tidy.wroteRxTest {l old : Nat} (h : Tidy s₀ s) : Tidy s₀ (s.wroteRxTest l old) :=
  .ite h (.ite h.setLine (.ite h.rxAcqNow.findLit h))

theorem Tidy.telAdc {l a : Nat} {m : TelMeas} (h : Tidy s₀ s) : Tidy s₀ (s.telAdc l a m) :=
  .ite h (.ite h.setLine (.ite h.incSat.count.wr.wr.occur h.incSat.count))

theorem execTelemarkCycle_answers {l : Fin 4} {meas : List TelMeas} (h : Tidy s₀ s) :
    Answers s₀ (execTelemarkCycle l meas s) := by
  unfold execTelemarkCycle
  extract_lets
  refine .next ?_
  split
  · exact h
  · exact .ite h (h.foldl fun _ _ ht => ht.telAdc).setLine

theorem execTelemarkHandover_answers {l : Fin 4} (h : Tidy s₀ s) : Answers s₀ (execTelemarkHandover l s) :=
  .next (.ite (h.foldl fun _ _ ht => ht.setLine.wr.wr).wr.setLine.count h)

theorem Tidy.wroteTelCtl {l : Nat} (h : Tidy s₀ s) : Tidy s₀ (s.wroteTelCtl l) := by
  unfold State.wroteTelCtl
  extract_lets
  refine .ite (.ite h.setLine h) ?_
  split
  · exact .ite h.setLine h
  · exact h

theorem execLineCdRefine_answers {l : Fin 4} {delta : Int} (h : Tidy s₀ s) :
    Answers s₀ (execLineCdRefine l delta s) :=
  .next (.ite h.wri.setLine h)

theorem Tidy.showRxCal {l : Nat} (h : Tidy s₀ s) : Tidy s₀ (s.showRxCal l) := h.wri.wri.wri

theorem execLineRxCalUpdate_answers {l : Fin 4} {temp : Int} {vals : List Int} (h : Tidy s₀ s) :
    Answers s₀ (execLineRxCalUpdate l temp vals s) := by
  unfold execLineRxCalUpdate
  extract_lets
  exact .next (.ite (.ite h.setLine.showRxCal (.ite h.setLine.occur h.setLine.showRxCal)) h)

theorem Tidy.showFigures {l j : Nat} {valid : Bool} {f : ScFigures} (h : Tidy s₀ s) :
    Tidy s₀ (s.showFigures l j valid f) := by
  unfold State.showFigures
  extract_lets _ _ _ _ _ s1 s2
  have h1 : Tidy s₀ s1 := h.wr.wr.wr.wr.wr.wr
  have h2 : Tidy s₀ s2 := .ite h1.count h1
  exact .ite h2.count h2

theorem Tidy.showBer {l : Nat} (h : Tidy s₀ s) : Tidy s₀ (s.showBer l) := h.wr.wr.wr.wr

theorem execLineQwinEnd_answers {l : Fin 4} {fig : RxFigures} (h : Tidy s₀ s) :
    Answers s₀ (execLineQwinEnd l fig s) := by
  unfold execLineQwinEnd
  extract_lets _ _ s1 _ _ _ _ s2
  have h1 : Tidy s₀ s1 := h.foldl fun _ _ ht => ht.showFigures
  have h2 : Tidy s₀ s2 := h1.inc.wr.wr.wr.wr.wr.wr.wr.wri.wri.showBer
  exact .next (.ite (Tidy.ite h2.setLine h2).startWindow.tryLoad h)

theorem Tidy.takeAck {l : Nat} {c : LoadCmd} {r : LoadReq} (h : Tidy s₀ s) : Tidy s₀ (s.takeAck l c r) :=
  h.setRxBank.setLine

theorem execLoadAckReceived_answers {l : Fin 4} (h : Tidy s₀ s) : Answers s₀ (execLoadAckReceived l s) := by
  unfold execLoadAckReceived
  extract_lets _ s1
  have h1 : Tidy s₀ s1 := h.setLine
  refine .next ?_
  split
  · exact h
  · split
    · exact h1
    · split
      · exact h1
      · exact .ite h1.takeAck h1.setLine.complete

theorem Tidy.knownSwitch {l active count t : Nat} (h : Tidy s₀ s) : Tidy s₀ (s.knownSwitch l active count t) :=
  .ite (.ite h.setLine h.setLine) (.ite h h.setLine.count)

theorem execLoadSwitchReceived_answers {l : Fin 4} (h : Tidy s₀ s) : Answers s₀ (execLoadSwitchReceived l s) := by
  unfold execLoadSwitchReceived
  extract_lets x s1
  refine .next ?_
  split
  · exact h
  · extract_lets waits
    have h1 : Tidy s₀ s1 := h.setLine
    cases waits with
    | some w => exact .ite h1.takeAck.knownSwitch h1
    | none => exact .ite h1.knownSwitch (.ite h1.occur h1)

theorem execLoadAckTimeout_answers {l : Fin 4} (h : Tidy s₀ s) : Answers s₀ (execLoadAckTimeout l s) := by
  unfold execLoadAckTimeout
  extract_lets
  refine .next ?_
  split
  · exact h
  · split
    · exact .ite h.setLine.complete h
    · exact h

theorem Tidy.switchRx {l : Nat} {keep : Bool} (h : Tidy s₀ s) : Tidy s₀ (s.switchRx l keep) := by
  unfold State.switchRx
  extract_lets _ _ _ s1 s2 _ s3
  have h1 : Tidy s₀ s1 := h.activateRx
  have h2 : Tidy s₀ s2 := .ite h1 (h1.foldl fun _ _ ht => .ite ht.converge (.ite ht.wr ht))
  have h3 : Tidy s₀ s3 := h2.setLine
  exact .ite (.ite h3.setLine h3) (.ite h3 h3.toHunt.setLine)

theorem execLineFormatSwitch_answers {l : Fin 4} {rx : Bool} (h : Tidy s₀ s) :
    Answers s₀ (execLineFormatSwitch l rx s) := by
  unfold execLineFormatSwitch
  extract_lets _ s1
  have h1 : Tidy s₀ s1 := h.switchRx
  refine .next ?_
  split
  · refine .ite ?_ h
    split
    · exact .ite h1.loadOk h1
    · exact h1
  · split
    · exact .ite h.switchTx.occur h
    · exact h

theorem execLineRxFallback_answers {l : Fin 4} (h : Tidy s₀ s) : Answers s₀ (execLineRxFallback l s) := by
  unfold execLineRxFallback
  extract_lets _ _ _ s1
  have h1 : Tidy s₀ s1 := h.setRxBank.switchRx.setRxBank.occur
  exact .next (.ite (.ite h1.loadFails h1) h)

/-! ### Line frames -/

theorem Tidy.ackSent {l : Nat} (h : Tidy s₀ s) : Tidy s₀ (s.ackSent l) := by
  unfold State.ackSent
  extract_lets _ s1
  have h1 : Tidy s₀ s1 := h.setLine
  split
  · exact .ite h1 h1.count
  · exact h

theorem Tidy.reqSent {l : Nat} (h : Tidy s₀ s) : Tidy s₀ (s.reqSent l) := by
  unfold State.reqSent
  extract_lets
  split
  · exact .ite h.setLine h
  · exact h

theorem Tidy.loadChannel {l f : Nat} (h : Tidy s₀ s) : Tidy s₀ (s.loadChannel l f) := by
  unfold State.loadChannel
  extract_lets
  exact .ite h.setLine (.ite h.setLine.ackSent (.ite h.setLine.reqSent (.ite h.setLine h)))

theorem Tidy.readFifo {l need base : Nat} {hits : List (Nat × BitVec 39)} {ps : List LinePkt} (h : Tidy s₀ s) :
    Tidy s₀ (s.readFifo l hits need base ps).2 := by
  induction ps generalizing s need base with
  | nil => exact h
  | cons p ps ih =>
    unfold State.readFifo
    split
    · exact h
    · extract_lets k own
      split
      · next e => exact ih (h.frameRead.snd e).count
      · next e => exact ih (h.frameRead.snd e)

theorem Tidy.readPt {l cap : Nat} {hits : List (Nat × BitVec 39)} (h : Tidy s₀ s) :
    Tidy s₀ (s.readPt l cap hits) := by
  unfold State.readPt
  refine .ite h ?_
  split
  rename_i t e
  exact (h.readFifo.snd e).setLine

theorem Tidy.emptySlot {l pstate fill cap : Nat} (h : Tidy s₀ s) : Tidy s₀ (s.emptySlot l pstate fill cap).2 :=
  h.setLine.asSnd

theorem Tidy.slotBody {l cap : Nat} {hits pt : List (Nat × BitVec 39)} (h : Tidy s₀ s) :
    Tidy s₀ (s.slotBody l cap hits pt).2 := by
  unfold State.slotBody
  extract_lets _ _ s1
  have h1 : Tidy s₀ s1 := h.readPt
  split
  · exact h.setLine.emptySlot
  · split
    · exact h.emptySlot
    · split
      · exact h.emptySlot
      · split
        extract_lets
        split
        · rename_i t1 e1
          exact (h1.frameRead.snd e1).setLine.count.emptySlot
        · rename_i t2 e2
          have ht2 := h1.frameRead.snd e2
          extract_lets
          split
          · exact ht2.setLine.asSnd
          · split
            · rename_i t3 e3
              exact (ht2.invoke.snd e3).emptySlot
            · rename_i t4 e4
              exact (ht2.invoke.snd e4).setLine.count.emptySlot
            · rename_i t5 e5
              exact (ht2.invoke.snd e5).setLine.asSnd

theorem Tidy.encodeSlot {l f : Nat} {bank : LoadReq} {info : List Bool} (h : Tidy s₀ s) :
    Tidy s₀ (s.encodeSlot l f bank info) := by
  unfold State.encodeSlot
  extract_lets
  split
  exact h.setLine

theorem Tidy.buildSlot {l f : Nat} {hits pt : List (Nat × BitVec 39)} (h : Tidy s₀ s) :
    Tidy s₀ (s.buildSlot l f hits pt) := by
  unfold State.buildSlot
  extract_lets
  split
  rename_i t e
  have ht := (Tidy.ite h.setLine h).slotBody.snd e
  extract_lets
  split
  exact ht.loadChannel.setLine.encodeSlot

theorem execLineSlotTransmit_answers {l : Fin 4} {hits pt : List (Nat × BitVec 39)} (h : Tidy s₀ s) :
    Answers s₀ (execLineSlotTransmit l hits pt s) :=
  .next (.ite h (.ite h.setLine.count (.ite h h.setLine.buildSlot.count)))

theorem Tidy.setCands {l : Nat} {c : List Nat} (h : Tidy s₀ s) : Tidy s₀ (s.setCands l c) := h.wr.setLine

theorem Tidy.huntMatch {l p : Nat} {ok : Bool} (h : Tidy s₀ s) : Tidy s₀ (s.huntMatch l p ok) := by
  unfold State.huntMatch
  extract_lets _ s1 s2
  have h1 : Tidy s₀ s1 := h.setCands
  have h2 : Tidy s₀ s2 := h1.setCands.setFstate
  exact .ite h1 (.ite h2.setLine (.ite h1 (.ite h1.count h1.setCands)))

theorem Tidy.presyncSlot {l p : Nat} {ok : Bool} {bptr : Nat} (h : Tidy s₀ s) : Tidy s₀ (s.presyncSlot l p ok bptr) :=
  .ite h.toHunt (.ite h.setFstate.wr.wr.setLine (.ite h.count.toHunt h.setLine))

theorem Tidy.ifSlot {l p : Nat} {ok : Bool} {bptr : Nat} (h : Tidy s₀ s) : Tidy s₀ (s.ifSlot l p ok bptr) := by
  unfold State.ifSlot
  extract_lets
  exact .ite h.setLine.count.toHunt.loadFails (.ite h.setLine.wr (.ite h.setLine.count.toHunt.loadFails h.setLine))

theorem Tidy.multiframe {l mfc : Nat} {uncorr : Bool} (h : Tidy s₀ s) : Tidy s₀ (s.multiframe l mfc uncorr).2 := by
  unfold State.multiframe
  extract_lets _ _ s1
  have h1 : Tidy s₀ s1 := h.count
  split
  · exact h
  · split
    · split
      · exact h.setLine.asSnd
      · split
        · exact h.setLine.asSnd
        · split
          · exact h1.wr.setLine.emptyRx.asSnd
          · exact h1.setLine.asSnd
    · split
      · exact h
      · split
        · exact h.wr.setLine.asSnd
        · exact h.setLine.asSnd

theorem Tidy.slotDefects {l : Nat} {ais rdi : Bool} (h : Tidy s₀ s) : Tidy s₀ (s.slotDefects l ais rdi) := by
  unfold State.slotDefects
  extract_lets _ _ _ s1 s2
  have h1 : Tidy s₀ s1 := h.setLine
  have h2 : Tidy s₀ s2 := .ite h1.declareDefect (.ite h1.clearDefect h1)
  exact .ite h2.declareDefect (.ite h2.clearDefect h2)

theorem Tidy.checkBip {l bip : Nat} {os : List Nat} (h : Tidy s₀ s) : Tidy s₀ (s.checkBip l bip os) := by
  unfold State.checkBip
  extract_lets s1
  have h1 : Tidy s₀ s1 := by
    unfold s1
    split
    · exact h.count
    · exact h
  exact h1.setLine

theorem Tidy.takeTrace {l f o : Nat} {ok : Bool} (h : Tidy s₀ s) : Tidy s₀ (s.takeTrace l f o ok) := by
  unfold State.takeTrace
  extract_lets _ _ _ _ s1 _ _ s2 _ _ _ s3
  have h1 : Tidy s₀ s1 := h.setLine
  have h2 : Tidy s₀ s2 := h1.setLine
  have h3 : Tidy s₀ s3 := (h2.foldl fun _ _ ht => ht.wr).wr
  exact .ite h1 (.ite h2 (Tidy.ite h3.occur h3).updateTim)

theorem Tidy.takeMessage {l f : Nat} {m : List Nat} (h : Tidy s₀ s) : Tidy s₀ (s.takeMessage l f m) :=
  .ite h (.ite h.count (.ite h.setLine (.ite h.setLine h.setLine)))

theorem Tidy.takeLdc {l f : Nat} {os : List Nat} {ok : Bool} (h : Tidy s₀ s) : Tidy s₀ (s.takeLdc l f os ok) :=
  .ite h.setLine (.ite h.setLine.takeMessage h.setLine)

theorem Tidy.takeMdc {l f : Nat} {o0 o1 : List Nat} (h : Tidy s₀ s) : Tidy s₀ (s.takeMdc l f o0 o1) :=
  .ite h.setLine h.setLine

theorem Tidy.dropMdc {l : Nat} (h : Tidy s₀ s) : Tidy s₀ (s.dropMdc l) := h.setLine

theorem Tidy.impairedSlot {l : Nat} {idx : Option Nat} (h : Tidy s₀ s) : Tidy s₀ (s.impairedSlot l idx) := by
  unfold State.impairedSlot
  extract_lets s1
  have h1 : Tidy s₀ s1 := h.emptyRx
  split
  · exact h1.takeMdc
  · exact h1.dropMdc

theorem Tidy.putPt {m : Nat} {p : LinePkt} (h : Tidy s₀ s) : Tidy s₀ (s.putPt m p) := .ite h.setLine h.count

theorem Tidy.release {l ovr n k : Nat} {os : List Nat} (h : Tidy s₀ s) : Tidy s₀ (s.release l ovr n k os) := by
  induction n generalizing s k os with
  | zero => exact h.setLine
  | succ n ih =>
    unfold State.release
    split
    · exact h.setLine
    · exact h.setLine.count
    · exact ih h
    · exact ih (.ite h.takeLine (h.foldl fun _ _ ht => ht.putPt))

theorem Tidy.takePayload {l ovr : Nat} {uncorr : Bool} {hdr payload trailer : List Nat}
    {hits : List (Nat × BitVec 39)} (h : Tidy s₀ s) :
    Tidy s₀ (s.takePayload l ovr uncorr hdr payload trailer hits) := by
  unfold State.takePayload
  extract_lets
  split
  · rename_i t e1
    exact (h.frameRead.snd e1).setLine.count
  · rename_i u e2
    have hu := h.frameRead.snd e2
    split
    · exact hu.setLine.count
    · extract_lets s1
      have h1 : Tidy s₀ s1 := by
        unfold s1
        split
        · exact hu.setKey.wr.wr
        · exact hu
      exact .ite h1.setLine (.ite (.ite h1.release h1) h1.release)

theorem Tidy.slotInFrame {l ovr : Nat} {uncorr : Bool} {hdr payload trailer : List Nat}
    {hits : List (Nat × BitVec 39)} (h : Tidy s₀ s) :
    Tidy s₀ (s.slotInFrame l ovr uncorr hdr payload trailer hits) := by
  unfold State.slotInFrame
  extract_lets _ _ _ _ s1
  have h1 : Tidy s₀ s1 := h.wr.wr.wr.checkBip
  split
  rename_i t e
  have ht := (Tidy.ite h1.count h1).multiframe.snd e
  extract_lets s2 s3
  have h2 : Tidy s₀ s2 := .ite ht ht.slotDefects
  have h3 : Tidy s₀ s3 := by
    refine .ite h2.impairedSlot ?_
    split
    · exact h2.takeTrace.takeLdc.takeMdc
    · exact h2.dropMdc
  exact .ite h3.takePayload h3.setLine

theorem execLineSlotReceived_answers {l : Fin 4} {slot : RxSlot} {ovr : Nat} {hits : List (Nat × BitVec 39)}
    (h : Tidy s₀ s) : Answers s₀ (execLineSlotReceived l slot ovr hits s) := by
  unfold execLineSlotReceived
  extract_lets _ _ _ _ _ _ _ _ _ s1
  have h1 : Tidy s₀ s1 := h.ifSlot.setLine
  exact .next (.ite h (.ite h.huntMatch (.ite h.presyncSlot (.ite (.ite h1.slotInFrame h1) h))))

theorem execLineOuterBlockDone_answers {l : Fin 4} {rx : List Int} {ph : Nat} {mf : Option Nat} (h : Tidy s₀ s) :
    Answers s₀ (execLineOuterBlockDone l rx ph mf s) := by
  unfold execLineOuterBlockDone
  extract_lets
  refine .next (.ite h ?_)
  split
  exact h.setLine.count.count.count.count

theorem execLineDefectPersist_answers {l : Fin 4} (h : Tidy s₀ s) : Answers s₀ (execLineDefectPersist l s) := by
  unfold execLineDefectPersist
  extract_lets _ s1
  have h1 : Tidy s₀ s1 := .ite h (.ite h.clearDefect h.declareDefect)
  exact .next (.ite h (.ite h1 (.ite h1.clearDefect h1.declareDefect)))

theorem Tidy.setSlip {l h' : Nat} {tx : Bool} {b : SlipBuf} (h : Tidy s₀ s) : Tidy s₀ (s.setSlip l h' tx b) :=
  h.setLine

theorem Tidy.pushSlip {l h' : Nat} {tx : Bool} {blk : List Nat} (h : Tidy s₀ s) : Tidy s₀ (s.pushSlip l h' tx blk) :=
  .ite h.count2 h.setSlip

theorem Tidy.pullSlip {l h' : Nat} {tx : Bool} (h : Tidy s₀ s) : Tidy s₀ (s.pullSlip l h' tx).2 := by
  unfold State.pullSlip
  extract_lets
  split
  · exact h.setSlip.asSnd
  · exact h.count2.asSnd
  · exact h

theorem execMdcBlockReceived_answers {l : Fin 4} {h' : Fin 2} (h : Tidy s₀ s) :
    Answers s₀ (execMdcBlockReceived l h' s) := by
  unfold execMdcBlockReceived
  extract_lets _ _ s1
  have h1 : Tidy s₀ s1 := h.setLine
  refine .next (.ite h ?_)
  split
  · exact h
  · refine .ite (.ite h1.count2 h1.same) ?_
    exact .ite h1 (.ite h1.pushSlip (.ite (h1.foldl fun _ _ ht => .ite ht.pushSlip ht) h1))

theorem Tidy.portBlock {l h' : Nat} (h : Tidy s₀ s) : Tidy s₀ (s.portBlock l h').2 := by
  unfold State.portBlock
  split
  · exact h
  · split
    · exact h
    · exact h.pullSlip

theorem execMdcBlockNeeded_answers {l : Fin 4} {h' : Fin 2} {port : Bool} {input : List (BitVec 8)} (h : Tidy s₀ s) :
    Answers s₀ (execMdcBlockNeeded l h' port input s) := by
  unfold execMdcBlockNeeded
  extract_lets
  refine .next ?_
  split
  · refine .ite h ?_
    split
    rename_i t e1
    have ht := h.portBlock.snd e1
    exact ht.same
  · refine .ite h (.ite h.setLine (.ite h.setLine ?_))
    split
    · split
      rename_i u e2
      exact (h.pullSlip.snd e2).setLine
    · split
      · exact h.setLine
      · refine .ite h.setLine ?_
        split
        rename_i v e3
        exact (h.pullSlip.snd e3).setLine

end Sys2Proof.Machine
end

section
/-! PROOF. The cores, the monitors, the groomer, the keys and the power supply keep the queue and the canonical form. -/

namespace Sys2Proof.Machine

open Reg Ev

variable {s₀ s : State}

/-! ### Keys and loads -/

theorem Tidy.judgeLoad_error {c : Cmd} {n : KeyName} {cls : KeyClass} {st : Nat} {t : State} (h : Tidy s₀ s)
    (e : s.judgeLoad c n cls = .error (st, t)) : Tidy s₀ t := by
  unfold State.judgeLoad at e
  extract_lets fail at e
  have hfail {k : Nat} (e : fail k = .error (st, t)) : Tidy s₀ t := by
    cases e
    exact h
  split at e
  · exact hfail e
  · split at e
    · exact hfail e
    · split at e
      · split at e
        · split at e
          · cases e
          · exact hfail e
        · split at e
          · cases e
          · exact hfail e
      · split at e
        · exact hfail e
        · split at e
          · exact hfail e
          · split at e
            · exact hfail e
            · split at e
              · exact hfail e
              · split at e
                · cases e
                  exact h.count
                · split at e
                  · exact hfail e
                  · dsimp only at e
                    split at e
                    · exact hfail e
                    · cases e

theorem Tidy.cmdKeyLoad {c : Cmd} (h : Tidy s₀ s) : Tidy s₀ (s.cmdKeyLoad c) := by
  unfold State.cmdKeyLoad
  extract_lets
  split
  · exact h.complete
  · exact h.complete
  · split
    · rename_i t e
      exact (h.judgeLoad_error e).complete
    · exact h.same

theorem Tidy.installKey {l : KeyLoad} (h : Tidy s₀ s) : Tidy s₀ (s.installKey l) := h.setKey.count

theorem Tidy.commandKeyLoaded {page : Nat} (h : Tidy s₀ s) : Tidy s₀ (s.commandKeyLoaded page) :=
  (Tidy.ite h.wr.wr.wr.wr.wr.inc.wr h.wr.wr.wr.wr.wr.inc).occur

theorem Tidy.bootstrapAuth {l : KeyLoad} (h : Tidy s₀ s) : Tidy s₀ (s.bootstrapAuth l) := by
  unfold State.bootstrapAuth
  split
  · split
    · exact h.setCmd
    · exact h
  · exact h

theorem execKeyLoadComplete_answers {tag : Fin 512} (h : Tidy s₀ s) : Answers s₀ (execKeyLoadComplete tag s) := by
  unfold execKeyLoadComplete
  extract_lets
  refine .next ?_
  split
  · exact h
  · extract_lets s1 s2 s3
    have h1 : Tidy s₀ s1 := h.same.installKey
    have h2 : Tidy s₀ s2 := .ite h1.commandKeyLoaded.bootstrapAuth h1
    have h3 : Tidy s₀ s3 := .ite h2.wr h2
    exact .ite h (Tidy.ite h3.inc.occur h3).complete

theorem execKeySwitch_answers {terminal : Bool} {index : Nat} (h : Tidy s₀ s) :
    Answers s₀ (execKeySwitch terminal index s) := by
  unfold execKeySwitch
  extract_lets
  refine .next ?_
  split
  · exact h
  · split
    · exact h
    · exact .ite h.setKey h

theorem Tidy.cmdKeyErase {c : Cmd} (h : Tidy s₀ s) : Tidy s₀ (s.cmdKeyErase c) := by
  unfold State.cmdKeyErase
  extract_lets
  refine .ite h.complete (.ite h.complete ?_)
  split
  · exact h.complete
  · refine .ite h.complete ?_
    split
    · exact h.complete
    · exact .ite h.complete (Tidy.ite h.setKey.count.wr.occur h.setKey.count).complete

theorem Tidy.cmdIdent {c : Cmd} (h : Tidy s₀ s) : Tidy s₀ (s.cmdIdent c) := by
  unfold State.cmdIdent
  extract_lets
  refine h.unreserved
    fun _ ht => .ite ht.complete (.ite (ht.unreserved fun _ hu => hu.used.complete)
    (.ite ht.complete (.ite ht.complete (.ite ht.complete ht.used.complete))))

theorem Tidy.testsEnded (h : Tidy s₀ s) : Tidy s₀ s.testsEnded := h.same

theorem execEdwSelftestDone_answers {fail : Option (Fin 12)} (h : Tidy s₀ s) :
    Answers s₀ (execEdwSelftestDone fail s) := by
  unfold execEdwSelftestDone
  refine .next (.ite h ?_)
  split
  · exact .ite h.testsEnded.selfTestFail h.testsEnded.wr.wr.wr
  · exact .ite h h.testsEnded.selfTestFail

theorem execEdwCastPeriodic_answers {fail : Option (Fin 12)} (h : Tidy s₀ s) :
    Answers s₀ (execEdwCastPeriodic fail s) := by
  unfold execEdwCastPeriodic
  extract_lets _ s1
  have h1 : Tidy s₀ s1 := h.same
  refine .next (.ite h ?_)
  split
  · exact h1
  · exact .ite h1 h1.selfTestFail

theorem execEntropyHealthFail_answers {startup : Bool} (h : Tidy s₀ s) :
    Answers s₀ (execEntropyHealthFail startup s) :=
  .next (.ite h (.ite (.ite h h.testsEnded.selfTestFail) (.ite h h.selfTestFail)))

theorem execDrbgReseed_answers {requests : Bool} (h : Tidy s₀ s) : Answers s₀ (execDrbgReseed requests s) :=
  .next (.ite h.same.count h)

theorem execTransportKeyGen_answers {pairwiseOk : Bool} (h : Tidy s₀ s) :
    Answers s₀ (execTransportKeyGen pairwiseOk s) :=
  .next (.ite (.ite h.used.same.wr h.selfTestFail) h)

/-! ### Cores and images -/

theorem Tidy.wroteWindow {n w : Nat} (h : Tidy s₀ s) : Tidy s₀ (s.wroteWindow n w) :=
  .ite h.wr.setCore h.wr.wr.setCore

theorem execWindowOpenResolved_answers {n : Nat} {win : Fin 4} (h : Tidy s₀ s) :
    Answers s₀ (execWindowOpenResolved n win s) := by
  unfold execWindowOpenResolved
  extract_lets _ s1
  have h1 : Tidy s₀ s1 := h.setCore
  refine .next (.ite h ?_)
  split
  · exact .ite h1.wr.wr h1.wr.wr.count
  · exact h1.wr.wr.count

theorem Tidy.request {n : Nat} {g : Agent} {p : Place} {posted : Option (Nat × PWord)} (h : Tidy s₀ s) :
    Tidy s₀ (s.request n g p posted) := by
  unfold State.request
  extract_lets _ _ s1
  have h1 : Tidy s₀ s1 := h.same
  refine .ite h (.ite h.same.count ?_)
  refine .ite ?_ h.same
  split
  · exact .ite h1 h1.count
  · exact .ite h1 h1.count
  · exact h1

theorem execMemZeroDone_answers {inst : Nat} (h : Tidy s₀ s) : Answers s₀ (execMemZeroDone inst s) :=
  h.same.answers

theorem Tidy.coreRuns {n : Nat} (h : Tidy s₀ s) : Tidy s₀ (s.coreRuns n) := .ite h.setCore.wr.wr h.setCore.wr

theorem execCoreStartAtLp_answers {n : Nat} (h : Tidy s₀ s) : Answers s₀ (execCoreStartAtLp n s) := by
  unfold execCoreStartAtLp
  extract_lets
  refine .next ?_
  split
  · exact h
  · exact .ite h.coreRuns h

theorem Tidy.haltCore {n : Nat} (h : Tidy s₀ s) : Tidy s₀ (s.haltCore n) := by
  unfold State.haltCore
  extract_lets
  split
  · exact h.wr
  · exact .ite h.setCore.wr h.setCore

theorem Tidy.startCore {n : Nat} (h : Tidy s₀ s) : Tidy s₀ (s.startCore n) := .ite (.ite h.wr h.wr.setCore) h

theorem Tidy.nextLoad (h : Tidy s₀ s) : Tidy s₀ s.nextLoad := h.same

theorem Tidy.answerLoad {l : ImgLoad} {status detail : Nat} (h : Tidy s₀ s) :
    Tidy s₀ (s.answerLoad l status detail) := by
  unfold State.answerLoad
  split
  · exact h.complete
  · exact h
  · exact h

theorem Tidy.endLoad {l : ImgLoad} {status detail : Nat} (h : Tidy s₀ s) : Tidy s₀ (s.endLoad l status detail) :=
  h.answerLoad.nextLoad

theorem Tidy.openIntake (h : Tidy s₀ s) : Tidy s₀ s.openIntake := .ite h.same.wr h

theorem Tidy.rejectLoad {l : ImgLoad} {status detail : Nat} (h : Tidy s₀ s) :
    Tidy s₀ (s.rejectLoad l status detail) := by
  unfold State.rejectLoad
  extract_lets s1
  have h1 : Tidy s₀ s1 := by
    unfold s1
    split
    · exact h.occur
    · exact h
    · exact h
  exact h1.endLoad

theorem Tidy.beginCopy {l : ImgLoad} (h : Tidy s₀ s) : Tidy s₀ (s.beginCopy l) := h.same.setCore.wr

theorem Tidy.refuseTarget {l : ImgLoad} {n : Nat} (h : Tidy s₀ s) : Tidy s₀ (s.refuseTarget l n) :=
  .ite h.endLoad h.rejectLoad

theorem Tidy.takeTarget {l : ImgLoad} (h : Tidy s₀ s) : Tidy s₀ (s.takeTarget l) := by
  unfold State.takeTarget
  extract_lets
  split
  · exact h.endLoad
  · exact .ite h.endLoad (.ite h.beginCopy h.refuseTarget)

theorem Tidy.cutCopy {n : Nat} (h : Tidy s₀ s) : Tidy s₀ (s.cutCopy n) := by
  unfold State.cutCopy
  split
  · exact .ite (Tidy.ite h.takeTarget h.endLoad).openIntake h
  · exact h

theorem Tidy.dropTarget {n : Nat} (h : Tidy s₀ s) : Tidy s₀ (s.dropTarget n) := by
  unfold State.dropTarget
  extract_lets _ _ _ _ s1
  have h1 : Tidy s₀ s1 := (h.foldl fun _ _ ht => ht.answerLoad).same
  refine Tidy.openIntake ?_
  split
  · exact h1
  · exact .ite (.ite h1.same h1.endLoad) h1.same

theorem Tidy.readWords {a k : Nat} (h : Tidy s₀ s) : Tidy s₀ (s.readWords a k).2 := by
  unfold State.readWords
  split
  next e =>
    refine ((Tidy.foldlSnd h.asSnd fun _ _ ht => ?_).snd e).asSnd
    split
    next r => exact (ht.memRead.snd r).asSnd

theorem Tidy.stagedImage {a : Nat} (h : Tidy s₀ s) : Tidy s₀ (s.stagedImage a).2 := by
  unfold State.stagedImage
  split
  rename_i t e1
  have ht := h.readWords.snd e1
  extract_lets
  split
  · split
    rename_i u e2
    exact ht.readWords.snd e2
  · exact ht

theorem Tidy.enterLoad {l : ImgLoad} (h : Tidy s₀ s) : Tidy s₀ (s.enterLoad l) := .ite h.same h.same

theorem Tidy.bootFails (h : Tidy s₀ s) : Tidy s₀ s.bootFails := h.wr.wr

/-- The load that the slot's image begins, or what stands when there is none to begin. -/
theorem Tidy.autoLoadFrom {source : Nat} {ts : List Nat} {b : LoadBy} {t : State} (h : Tidy s₀ s) (ht : Tidy s₀ t) :
    Tidy s₀ ((s.autoLoadFrom source ts b).getD t) := by
  unfold State.autoLoadFrom
  extract_lets m
  split
  · exact ht
  · exact h.enterLoad

theorem Tidy.noLoad {by_ : LoadBy} (h : Tidy s₀ s) : Tidy s₀ (s.noLoad by_) := .ite h.bootFails h

theorem Tidy.fallBack {ts : List Nat} {b : LoadBy} (h : Tidy s₀ s) : Tidy s₀ (s.fallBack ts b) :=
  .ite h.noLoad (h.occur.autoLoadFrom h.occur.noLoad)

theorem Tidy.autoLoad {ts : List Nat} {b : LoadBy} (h : Tidy s₀ s) : Tidy s₀ (s.autoLoad ts b) :=
  .ite h.noLoad (h.autoLoadFrom h.fallBack)

theorem execScoreBoot_answers (h : Tidy s₀ s) : Answers s₀ (execScoreBoot s) := .next (.ite h.same.autoLoad h)

theorem Tidy.imageLoads {n : Nat} (h : Tidy s₀ s) : Tidy s₀ (s.imageLoads n) := .ite h.autoLoad h

theorem Tidy.cmdCoreLoad {c : Cmd} (h : Tidy s₀ s) : Tidy s₀ (s.cmdCoreLoad c) := by
  unfold State.cmdCoreLoad
  refine h.unreserved fun _ ht => ?_
  refine .ite ht.complete (.ite ht.complete ?_)
  split
  · exact ht.occur.complete.wr
  · exact ht.occur.complete.wr
  · split
    rename_i m u e
    have hu : Tidy s₀ u := by
      split at e
      · exact ht.stagedImage.snd e
      · exact ht.asSnd.snd e
    split
    · exact hu.occur.complete.wr
    · exact hu.enterLoad

theorem execImageVerifyDone_answers (h : Tidy s₀ s) : Answers s₀ (execImageVerifyDone s) := by
  unfold execImageVerifyDone
  refine .next ?_
  split
  · exact h
  · refine .ite h (.ite (.ite h.bootFails.nextLoad h.rejectLoad.openIntake) ?_)
    split
    · split
      · exact h.refuseTarget
      · exact h.takeTarget
      · exact h.takeTarget.openIntake
    · extract_lets s1
      have h1 : Tidy s₀ s1 := h.rejectLoad
      split
      · exact h1
      · exact (Tidy.ite h1.fallBack (.ite h1.bootFails h1)).openIntake

theorem Tidy.placeImage {n : Nat} {m : Image} (h : Tidy s₀ s) : Tidy s₀ (s.placeImage n m) :=
  (h.zeroMem.foldl fun _ _ ht => ht.memWrite).wr.wr.wr.wr.setCore

theorem Tidy.scoreRuns (h : Tidy s₀ s) : Tidy s₀ s.scoreRuns := by
  unfold State.scoreRuns
  extract_lets s1 _ s2
  have h1 : Tidy s₀ s1 := h.coreRuns
  have h2 : Tidy s₀ s2 := by
    unfold s2
    split
    · exact h1
    · exact h1.same.occur
  exact (h2.same.foldl fun _ _ ht => .ite ht ht.autoLoad).openIntake

theorem execImageCopyDone_answers (h : Tidy s₀ s) : Answers s₀ (execImageCopyDone s) := by
  unfold execImageCopyDone
  refine .next ?_
  split
  · exact h
  · extract_lets _ _ _ _ s1
    have h1 : Tidy s₀ s1 := h.placeImage.wr.wr.occur.same
    refine .ite h (.ite h.bootFails.wr.nextLoad ?_)
    split
    · exact h1.takeTarget
    · exact h1.takeTarget.scoreRuns
    · exact h1.coreRuns.takeTarget.openIntake

theorem Tidy.cmdCoreStart {c : Cmd} (h : Tidy s₀ s) : Tidy s₀ (s.cmdCoreStart c) := by
  unfold State.cmdCoreStart
  refine h.unreserved fun _ ht => ?_
  extract_lets a b lp ts st late bad
  refine .ite ht.complete (.ite ht.complete ?_)
  cases bad with
  | some n => exact .ite ht.wr.complete ht.complete
  | none => exact (ht.foldl fun _ _ hu => hu.wr.wr.startCore).complete

theorem Tidy.cmdCoreHalt {c : Cmd} (h : Tidy s₀ s) : Tidy s₀ (s.cmdCoreHalt c) :=
  h.unreserved fun _ ht => .ite ht.complete (ht.foldl fun _ _ hu => hu.haltCore).complete

theorem Tidy.cmdImgStore {c : Cmd} (h : Tidy s₀ s) : Tidy s₀ (s.cmdImgStore c) := by
  unfold State.cmdImgStore
  extract_lets
  refine h.unreserved fun _ ht => ?_
  refine .ite ht.complete (.ite ht.complete ?_)
  split
  rename_i u e
  have hu := ht.stagedImage.snd e
  extract_lets _ _ s1
  have h1 : Tidy s₀ s1 := hu
  refine .ite ht.occur.complete.wr ?_
  split
  · exact h1.occur.complete.wr
  · split
    · exact h1.occur.complete.wr
    · exact h1.same

theorem execImgStoreDone_answers (h : Tidy s₀ s) : Answers s₀ (execImgStoreDone s) := by
  unfold execImgStoreDone
  extract_lets
  refine .next ?_
  split
  · exact h
  · exact .ite h h.same.complete.same

theorem Tidy.abandonStore (h : Tidy s₀ s) : Tidy s₀ s.abandonStore := by
  unfold State.abandonStore
  split
  · exact h
  · exact h.complete.same

/-! ### Counters, events and samples -/

theorem Tidy.cntRead {a le : Nat} (h : Tidy s₀ s) : Tidy s₀ (s.cntRead a le).2 := h.noteRead.asSnd

theorem Tidy.snapshot {x : Nat} (h : Tidy s₀ s) : Tidy s₀ (s.snapshot x).2 := by
  unfold State.snapshot
  split
  rename_i t e1
  have ht := h.cntRead.snd e1
  split
  rename_i u e2
  exact ht.cntRead.snd e2

theorem Tidy.snapshots {x k : Nat} (h : Tidy s₀ s) : Tidy s₀ (s.snapshots x k).2 := by
  unfold State.snapshots
  split
  next e =>
    refine ((Tidy.foldlSnd h.asSnd fun _ _ ht => ?_).snd e).asSnd
    split
    next r => exact (ht.snapshot.snd r).asSnd

theorem Tidy.cmdCntRead {c : Cmd} (h : Tidy s₀ s) : Tidy s₀ (s.cmdCntRead c) := by
  unfold State.cmdCntRead
  extract_lets
  refine h.unreserved fun _ ht => ?_
  refine .ite ht.complete ?_
  split
  · exact ht.complete
  · split
    rename_i u e
    exact (ht.snapshots.snd e).complete

theorem Tidy.cmdEvtCfg {c : Cmd} (h : Tidy s₀ s) : Tidy s₀ (s.cmdEvtCfg c) := by
  unfold State.cmdEvtCfg
  extract_lets
  split
  · refine h.unreserved fun _ ht => ?_
    extract_lets
    split
    · exact ht.complete
    · exact .ite ht.complete ht.same.complete
  · refine .ite (h.unreserved fun _ hu => .ite hu.complete hu.same.wr.complete) ?_
    refine .ite (h.unreserved fun _ hv => .ite hv.complete hv.setReg.setReg.complete) ?_
    refine .ite ?_ h.complete
    refine h.unreserved fun _ hw => ?_
    extract_lets
    split <;> exact hw.complete

theorem Tidy.summaries (h : Tidy s₀ s) : Tidy s₀ s.summaries := h.same

theorem execEvtSuperframeSummary_answers (h : Tidy s₀ s) : Answers s₀ (execEvtSuperframeSummary s) :=
  .next (.ite h.same.summaries h)

theorem execEvtAvalancheExit_answers (h : Tidy s₀ s) : Answers s₀ (execEvtAvalancheExit s) :=
  .next (.ite h.summaries.same.occur h)

theorem Tidy.tlmItems {k : Nat} (h : Tidy s₀ s) : Tidy s₀ (s.tlmItems k).2 := by
  unfold State.tlmItems
  extract_lets
  split
  · exact h
  · exact h.snapshots

theorem execTlmSnapshot_answers {strm : Fin 16} (h : Tidy s₀ s) : Answers s₀ (execTlmSnapshot strm s) := by
  unfold execTlmSnapshot
  extract_lets _ _ _ _ s1
  have h1 : Tidy s₀ s1 := h.same
  refine .next ?_
  refine .ite ?_ h
  refine .ite h1.count ?_
  split
  rename_i t e
  have ht := h1.tlmItems.snd e
  exact ht.same

theorem Tidy.sampleRec {n kind pc : Nat} {iw : Word} {ea w5 : Nat} {w6 : PWord} (h : Tidy s₀ s) :
    Tidy s₀ (s.sampleRec n kind pc iw ea w5 w6) :=
  .ite h.setCore (.ite h.setCore.count h.setCore.count)

theorem Tidy.ackSamples {n k : Nat} (h : Tidy s₀ s) : Tidy s₀ (s.ackSamples n k) := h.setCore

theorem Tidy.sampleInstr {n pc : Nat} {iw : Word} {ea : Nat} (h : Tidy s₀ s) : Tidy s₀ (s.sampleInstr n pc iw ea) :=
  .ite (.ite h.setCore.sampleRec h.setCore) h

theorem Tidy.postEntry {n : Nat} {e : RingEnt} (h : Tidy s₀ s) : Tidy s₀ (s.postEntry n e) :=
  .ite h.setCore.count h.setCore

theorem Tidy.setOps {n : Nat} {ops : List EngOp} (h : Tidy s₀ s) : Tidy s₀ (s.setOps n ops) := h.setCore.wr

theorem Tidy.endOp {n tag status count : Nat} {result : PWord} (h : Tidy s₀ s) :
    Tidy s₀ (s.endOp n tag status count result) := by
  unfold State.endOp
  extract_lets s1
  have h1 : Tidy s₀ s1 := h.setOps
  split
  · exact h
  · exact (Tidy.ite h1.sampleRec h1).postEntry

/-! ### Monitors -/

theorem Tidy.setMon {m : Nat} {x : MonSt} (h : Tidy s₀ s) : Tidy s₀ (s.setMon m x) := h.same

theorem Tidy.setMonState {m st : Nat} (h : Tidy s₀ s) : Tidy s₀ (s.setMonState m st) := h.wr

theorem Tidy.frontEnd {m ch t : Nat} {gated : Bool} (h : Tidy s₀ s) : Tidy s₀ (s.frontEnd m ch t gated) := h.setMon

theorem Tidy.crossCheck {m : Nat} {codes : List Int} {shift : Nat} (h : Tidy s₀ s) :
    Tidy s₀ (s.crossCheck m codes shift) := by
  unfold State.crossCheck
  extract_lets _ _ _ _ _ _ _ _ s1 _ s2
  have h1 : Tidy s₀ s1 := h.wr.wr.wr.setMon
  have h2 : Tidy s₀ s2 := h1.wr.wr
  exact .ite h1 (.ite h1.wr.wr (.ite h2 h2.occur))

theorem Tidy.checkRef {m ch : Nat} {codes : List Int} {shift : Nat} (h : Tidy s₀ s) :
    Tidy s₀ (s.checkRef m ch codes shift) :=
  .ite h.crossCheck h

theorem Tidy.endPass {m : Nat} (h : Tidy s₀ s) : Tidy s₀ (s.endPass m) := h.inc.setMon

theorem Tidy.startPass {m t : Nat} (h : Tidy s₀ s) : Tidy s₀ (s.startPass m t) := h.setMon

theorem Tidy.beginCal {m : Nat} (h : Tidy s₀ s) : Tidy s₀ (s.beginCal m) := h.frontEnd.setMon.wr.setMonState

theorem Tidy.beginEntry {m e : Nat} {down : Bool} (h : Tidy s₀ s) : Tidy s₀ (s.beginEntry m e down) :=
  .ite h.frontEnd.setMon.setMonState h.frontEnd.setMon.setMonState

theorem Tidy.takeInj {m : Nat} {i : Inj} (h : Tidy s₀ s) : Tidy s₀ (s.takeInj m i) := h.frontEnd.setMon.setMonState

theorem Tidy.goOn {m : Nat} {down : Bool} (h : Tidy s₀ s) : Tidy s₀ (s.goOn m down) := by
  unfold State.goOn
  extract_lets _ _ s1
  have h1 : Tidy s₀ s1 := .ite h.startPass h
  refine .ite (.ite h.setMon h.setMon.setMon.setMonState) (.ite (.ite h1 h1.setMon.setMonState) ?_)
  split
  · split
    · exact h1.takeInj
    · exact h1.beginEntry
  · exact .ite h1.endPass h1.endPass.setMon.setMonState

theorem Tidy.monFree {m : Nat} (h : Tidy s₀ s) : Tidy s₀ (s.monFree m) := .ite h.beginCal h.goOn

theorem Tidy.abandon {m : Nat} (h : Tidy s₀ s) : Tidy s₀ (s.abandon m) := by
  unfold State.abandon
  extract_lets
  split
  · exact h
  · exact h.setMon.count

theorem execMonPassStart_answers {m : Fin 18} (h : Tidy s₀ s) : Answers s₀ (execMonPassStart m s) := by
  unfold execMonPassStart
  extract_lets _ _ _ _ s1
  have h1 : Tidy s₀ s1 := (Tidy.ite h.count h).startPass
  exact .next (.ite h (.ite h1.goOn (.ite h1.goOn h1)))

theorem execMonSeqEntryEnd_answers {m : Fin 18} {raws : List Int} {bad : Bool} (h : Tidy s₀ s) :
    Answers s₀ (execMonSeqEntryEnd m raws bad s) := by
  unfold execMonSeqEntryEnd
  refine .next ?_
  split
  · exact h
  · exact .ite h h.checkRef.wr.count.setMon.monFree

theorem Tidy.wroteSeqCtl {m : Nat} {en : Bool} (h : Tidy s₀ s) : Tidy s₀ (s.wroteSeqCtl m en) := by
  unfold State.wroteSeqCtl
  extract_lets _ _ s1
  have h1 : Tidy s₀ s1 := h.startPass
  exact .ite h (.ite h.setMon (.ite h1.goOn (.ite h1.goOn h1)))

theorem Tidy.wroteMonCtl {m : Nat} (h : Tidy s₀ s) : Tidy s₀ (s.wroteMonCtl m) := .ite h h.wr

theorem Tidy.acceptInj {m : Nat} {i : Inj} (h : Tidy s₀ s) : Tidy s₀ (s.acceptInj m i) := h.setMon

theorem Tidy.cmdInject {c : Cmd} (h : Tidy s₀ s) : Tidy s₀ (s.cmdInject c) := by
  unfold State.cmdInject
  refine h.unreserved fun _ ht => ?_
  split
  · exact ht.acceptInj
  · exact .ite ht.complete (.ite ht.complete (.ite ht.complete (Tidy.ite ht.count ht).complete))

theorem execMonInjectTake_answers {m : Fin 18} (h : Tidy s₀ s) : Answers s₀ (execMonInjectTake m s) := by
  unfold execMonInjectTake
  extract_lets
  refine .next ?_
  split
  · exact h
  · exact .ite h h.abandon.takeInj

theorem execMonInjectEnd_answers {m : Fin 18} {raws : List Int} {bad : Bool} (h : Tidy s₀ s) :
    Answers s₀ (execMonInjectEnd m raws bad s) := by
  unfold execMonInjectEnd
  refine .next ?_
  split
  · exact h
  · extract_lets _ _ _ _ _ _ _ _ s1 s2
    have h1 : Tidy s₀ s1 := h.checkRef.count.setMon
    have h2 : Tidy s₀ s2 := by
      unfold s2
      split
      · exact h1.endOp
      · exact h1.completeP
      · exact h1
    exact .ite h h2.monFree

theorem Tidy.requestCal {m : Nat} {by_ : CalBy} (h : Tidy s₀ s) : Tidy s₀ (s.requestCal m by_) := by
  unfold State.requestCal
  extract_lets _ s1
  have h1 : Tidy s₀ s1 := h.setMon
  split
  · exact h1.setMon.wr
  · exact h1

theorem Tidy.calCmdEnds {tag m : Nat} {bad : Bool} (h : Tidy s₀ s) : Tidy s₀ (s.calCmdEnds tag m bad) := by
  unfold State.calCmdEnds
  extract_lets
  split
  · exact h
  · exact .ite h.same.complete h.same

theorem Tidy.calEnds {m status : Nat} {result : PWord} {bad : Bool} (h : Tidy s₀ s) :
    Tidy s₀ (s.calEnds m status result bad) := by
  unfold State.calEnds
  extract_lets
  refine h.setMon.wr.foldl fun _ _ ht => ?_
  split
  · exact ht.used.endOp
  · exact ht.calCmdEnds
  · exact ht

theorem Tidy.cmdCalStart {c : Cmd} (h : Tidy s₀ s) : Tidy s₀ (s.cmdCalStart c) := by
  unfold State.cmdCalStart
  extract_lets
  refine h.unreserved fun _ ht => ?_
  refine .ite ht.complete ?_
  split
  · exact ht.complete
  · exact ht.same.foldl fun _ _ hu => hu.requestCal

theorem Tidy.calNotice {m t : Nat} (h : Tidy s₀ s) : Tidy s₀ (s.calNotice m t) :=
  h.foldl fun _ _ hu => hu.setMem

theorem Tidy.imageCal {m : Nat} (h : Tidy s₀ s) : Tidy s₀ (s.imageCal m) := by
  unfold State.imageCal
  extract_lets
  refine .ite h ?_
  split
  · exact .ite (Tidy.ite h.calNotice h).setMon h
  · exact .ite h (.ite h.requestCal.setMon (.ite h.setMon h))

theorem execMonCalBegin_answers {m : Fin 18} (h : Tidy s₀ s) : Answers s₀ (execMonCalBegin m s) := by
  unfold execMonCalBegin
  extract_lets
  exact .next (.ite h (.ite h.beginCal (.ite h.abandon.beginCal (.ite h.setMon.setMonState h))))

theorem Tidy.keepSet {m : Nat} {temp : Int} {w : Nat} (h : Tidy s₀ s) : Tidy s₀ (s.keepSet m temp w) :=
  .ite h h.setReg.setReg.setMon

theorem execMonCalEnd_answers {m : Fin 18} {ofs gain : Int} (h : Tidy s₀ s) :
    Answers s₀ (execMonCalEnd m ofs gain s) := by
  unfold execMonCalEnd
  extract_lets
  refine .next ?_
  split
  · extract_lets _ _ s1 s2
    have h1 : Tidy s₀ s1 := h.frontEnd.wr.wri
    have h2 : Tidy s₀ s2 := h1.wri.wri.wr
    exact .ite h (Tidy.ite h2.wr.setMon.count.keepSet h1.wr.occur).calEnds.monFree
  · exact h

theorem execMonCalWait_answers {m : Fin 18} (h : Tidy s₀ s) : Answers s₀ (execMonCalWait m s) := by
  unfold execMonCalWait
  extract_lets
  refine .next ?_
  split
  · exact .ite h.setMon.occur h
  · exact h

theorem Tidy.interpolated {m : Nat} {temp : Int} (h : Tidy s₀ s) : Tidy s₀ (s.interpolated m temp) :=
  h.setMon.wri.wri

theorem execMonFactorUpdate_answers {m : Fin 18} {temp : Int} (h : Tidy s₀ s) :
    Answers s₀ (execMonFactorUpdate m temp s) :=
  .next (.ite h (.ite h.wri.setMon h.wri.setMon.interpolated))

theorem execMonPowerDown_answers {m : Fin 18} (h : Tidy s₀ s) : Answers s₀ (execMonPowerDown m s) :=
  .next (.ite h.setMonState h)

theorem execMonWakeDone_answers {m : Fin 18} (h : Tidy s₀ s) : Answers s₀ (execMonWakeDone m s) :=
  .next (.ite h.monFree h)

theorem Tidy.monOn {m : Nat} (h : Tidy s₀ s) : Tidy s₀ (s.monOn m) := by
  unfold State.monOn
  extract_lets _ _ s1
  have h1 : Tidy s₀ s1 := by
    refine h.setMonState.setReg.foldl fun _ _ ht => ?_
    split
    · exact ht.setReg.setReg
    · exact ht
  exact (Tidy.ite h1.wr h1).used.wri.setMon.interpolated

theorem Tidy.monOff {m : Nat} (h : Tidy s₀ s) : Tidy s₀ (s.monOff m) := by
  unfold State.monOff
  extract_lets _ _ s1
  have h1 : Tidy s₀ s1 := by
    refine h.foldl fun _ _ ht => ?_
    split
    · exact ht.endOp
    · exact ht.complete
    · exact ht
  exact h1.calEnds.setMon

theorem Tidy.cmdMonSeq {c : Cmd} (h : Tidy s₀ s) : Tidy s₀ (s.cmdMonSeq c) := by
  unfold State.cmdMonSeq
  refine h.unreserved fun _ ht => ?_
  extract_lets m only entries bad s1 ctl s2
  have h1 : Tidy s₀ s1 := .ite ht (ht.foldl fun _ _ hu => hu.setReg)
  refine .ite ht.complete ?_
  cases bad with
  | some i => exact ht.complete
  | none => exact .ite ht.complete h1.setReg.wroteSeqCtl.complete

/-! ### Register reads -/

theorem Tidy.laneRead {a le : Nat} (h : Tidy s₀ s) : Tidy s₀ (s.laneRead a le).2 := h.noteRead.asSnd

theorem Tidy.latchWords {m : Nat} {l : List (Nat × PWord)} (h : Tidy s₀ s) : Tidy s₀ (s.latchWords m l) := h.same

theorem Tidy.latchFrom {m a : Nat} {l : List Nat} (h : Tidy s₀ s) : Tidy s₀ (s.latchFrom m a l) := h.latchWords

theorem Tidy.latchShown {m : Nat} {l : List Nat} (h : Tidy s₀ s) : Tidy s₀ (s.latchShown m l) := h.latchWords

theorem Tidy.cntLoad {m a le : Nat} (h : Tidy s₀ s) : Tidy s₀ (s.cntLoad m a le).2 := by
  unfold State.cntLoad
  extract_lets
  split
  · split
    rename_i t e1
    exact (h.cntRead.snd e1).latchWords.latchWords.asSnd
  · split
    · exact h.latchWords.asSnd
    · split
      rename_i u e2
      exact (h.cntRead.snd e2).latchWords.asSnd

theorem Tidy.busRead {m a le : Nat} (h : Tidy s₀ s) : Tidy s₀ (s.busRead m a le).2 := by
  unfold State.busRead
  extract_lets
  refine .iteSnd h.cntLoad (.iteSnd h.laneRead (.iteSnd h.latchFrom.latchFrom.asSnd (.iteSnd h.tsqPop.latchFrom ?_)))
  refine .iteSnd h.latchShown.asSnd (.iteSnd h.asSnd (.iteSnd ?_ (.iteSnd ?_ (.iteSnd ?_ h.asSnd))))
  · exact .iteSnd h.latchShown.asSnd (.iteSnd h.asSnd h.asSnd)
  · exact .iteSnd h.popBev.latchFrom (.iteSnd h.asSnd (.iteSnd h.wr.asSnd h.asSnd))
  · exact .iteSnd h.latchShown.asSnd (.iteSnd h.asSnd h.asSnd)

/-! ### Core reset and mailboxes -/

theorem Tidy.windowRead {p : Packet} {o : Nat} (h : Tidy s₀ s) : Tidy s₀ (s.windowRead p o).2 := by
  unfold State.windowRead
  split
  · exact h
  · split
    rename_i t e
    have ht := h.readLane.third e
    extract_lets
    exact ht

theorem Tidy.discards {n u : Nat} {x3 : Place} (h : Tidy s₀ s) : Tidy s₀ (s.discards n u x3) := by
  unfold State.discards
  split
  · exact h
  · exact h.memRead
  · exact h.busRead
  · split
    · exact h.windowRead
    · exact h

theorem Tidy.dummyRead {n u a : Nat} (h : Tidy s₀ s) : Tidy s₀ (s.dummyRead n u a) := by
  unfold State.dummyRead
  split
  · exact h
  · exact .ite h h.discards

theorem Tidy.dummyBeats {n : Nat} {b : Burst} (h : Tidy s₀ s) : Tidy s₀ (s.dummyBeats n b) := by
  unfold State.dummyBeats
  split
  · exact h
  · exact h.foldl fun _ _ ht => ht.dummyRead

theorem Tidy.dummyBeat {r : MtxReq} (h : Tidy s₀ s) : Tidy s₀ (s.dummyBeat r) := by
  unfold State.dummyBeat
  split
  · exact .ite h.discards h
  · exact h

theorem Tidy.abortBurst {n : Nat} {b : Burst} (h : Tidy s₀ s) : Tidy s₀ (s.abortBurst n b) :=
  .ite h (Tidy.ite h.wr.wr h.wr.wr).occur

theorem Tidy.openBursts {n : Nat} (h : Tidy s₀ s) : Tidy s₀ (s.openBursts n).2 := by
  unfold State.openBursts
  extract_lets
  exact h.used.asSnd

theorem Tidy.resetCore {n : Nat} {bursts : List Burst} (h : Tidy s₀ s) : Tidy s₀ (s.resetCore n bursts) := by
  unfold State.resetCore
  extract_lets _ _ s1 s2 s3 _ _ _ s4
  have h1 : Tidy s₀ s1 := h.foldl fun _ _ ht => ht.dummyBeat
  have h2 : Tidy s₀ s2 := h1.foldl fun _ _ hu => hu.dummyBeats
  have h3 : Tidy s₀ s3 := h2.foldl fun _ _ hv => hv.abortBurst
  have h4 : Tidy s₀ s4 := h3.setCore.same.same.resetRegs
  exact .ite h4.cutCopy h4

theorem Tidy.cutCore {n : Nat} {bursts : Option (List Burst)} (h : Tidy s₀ s) : Tidy s₀ (s.cutCore n bursts) := by
  unfold State.cutCore
  split
  · exact h.dropTarget.resetCore
  · split
    rename_i t e
    exact (h.openBursts.snd e).dropTarget.resetCore

theorem Tidy.wroteCoreCtl {m u n a : Nat} {w : Word} {bursts : Option (List Burst)} (h : Tidy s₀ s) :
    Tidy s₀ (s.wroteCoreCtl m u n a w bursts) := by
  unfold State.wroteCoreCtl
  extract_lets _ s1 s2 s3
  have h1 : Tidy s₀ s1 := .ite h.setCore (.ite h h.wr)
  have h2 : Tidy s₀ s2 := .ite h1.haltCore h1
  have h3 : Tidy s₀ s3 := .ite h2.startCore h2
  exact .ite h (.ite (.ite h2.decErr h2) (.ite h3.cutCore h3))

/-! ### The groomer -/

theorem execGrmPassStart_answers {buffer : Bool} (h : Tidy s₀ s) : Answers s₀ (execGrmPassStart buffer s) :=
  .next (.ite h (.ite h.same.wr h.same.wr))

theorem Tidy.wroteGrmCtl {en : Bool} (h : Tidy s₀ s) : Tidy s₀ (s.wroteGrmCtl en) := .ite h.same (.ite h.same h)

theorem Tidy.repairRow {row : Nat} {buffer : Bool} {inst : Nat} (h : Tidy s₀ s) :
    Tidy s₀ (s.repairRow row buffer inst) :=
  .ite h (.ite h.same (Tidy.ite h.same.watchFree h.same).occur)

theorem Tidy.recurs {a : Nat} {buffer : Bool} {inst : Nat} (h : Tidy s₀ s) : Tidy s₀ (s.recurs a buffer inst) :=
  .ite h (.ite h.same.count.repairRow h.same)

theorem Tidy.grmUncorr {a : Nat} {buffer demand : Bool} {inst : Nat} (h : Tidy s₀ s) :
    Tidy s₀ (s.grmUncorr a buffer demand inst) := by
  unfold State.grmUncorr
  extract_lets s1
  have h1 : Tidy s₀ s1 := h.addCnt
  refine .ite h1 ?_
  split
  exact .ite h1.setReg.setReg.setReg h1.setReg.setReg.setReg.same.occurRec

theorem Tidy.grmCount {c : LaneClass} {exact : Bool} {a : Nat} {buffer demand : Bool} {inst : Nat} (h : Tidy s₀ s) :
    Tidy s₀ (s.grmCount c exact a buffer demand inst) := by
  unfold State.grmCount
  split
  · exact h
  · exact h.count
  · exact .ite h.count h.count
  · exact h.grmUncorr

theorem Tidy.visitWord {a : Nat} {demand : Bool} (h : Tidy s₀ s) : Tidy s₀ (s.visitWord a demand) := by
  unfold State.visitWord
  extract_lets _ _ _ s1 s2
  have h1 : Tidy s₀ s1 := h.foldl fun _ _ ht => ht.grmCount
  have h2 : Tidy s₀ s2 := .ite h1 h1.putStored
  exact .ite h2.recurs h2

theorem Tidy.visitCell {c : Nat} {demand : Bool} (h : Tidy s₀ s) : Tidy s₀ (s.visitCell c demand) := by
  unfold State.visitCell
  refine h.foldl fun _ _ ht => ?_
  extract_lets _ _ s1 s2
  have h1 : Tidy s₀ s1 := ht.grmCount
  have h2 : Tidy s₀ s2 := .ite h1 h1.putLane
  exact .ite h2.recurs h2

theorem execGrmLaneVisit_answers (h : Tidy s₀ s) : Answers s₀ (execGrmLaneVisit s) := by
  unfold execGrmLaneVisit
  extract_lets _ _ _ _ s1
  have h1 : Tidy s₀ s1 := (Tidy.ite h.visitWord h).same
  refine .next ?_
  split
  · exact h
  · exact .ite h (.ite h1.inc.wr h1.wr)

theorem execGrmBufferVisit_answers (h : Tidy s₀ s) : Answers s₀ (execGrmBufferVisit s) := by
  unfold execGrmBufferVisit
  extract_lets _ _ _ s1
  have h1 : Tidy s₀ s1 := h.visitCell.same
  refine .next ?_
  split
  · exact h
  · exact .ite h (.ite h1.inc.wr h1.wr)

theorem execGrmDemandVisit_answers (h : Tidy s₀ s) : Answers s₀ (execGrmDemandVisit s) := by
  unfold execGrmDemandVisit
  extract_lets
  refine .next ?_
  split
  · exact h
  · exact .ite h (.ite h.same.visitCell (.ite h.same.visitWord h.same))

theorem execGrmSpareCopyDone_answers (h : Tidy s₀ s) : Answers s₀ (execGrmSpareCopyDone s) := by
  unfold execGrmSpareCopyDone
  refine .next ?_
  split
  · exact h
  · extract_lets s1
    have h1 : Tidy s₀ s1 := .ite (h.foldl fun _ _ ht => ht.putLane) (h.foldl fun _ _ hu => hu.putStored)
    exact .ite h h1.same.occur

theorem Tidy.rawWrite (h : Tidy s₀ s) : Tidy s₀ s.rawWrite := by
  unfold State.rawWrite
  extract_lets
  refine .ite h.putLane ?_
  split
  · exact h.decErr
  · exact h.putStored

theorem Tidy.rawRead (h : Tidy s₀ s) : Tidy s₀ s.rawRead := by
  unfold State.rawRead
  extract_lets
  refine .ite h.wr.wr ?_
  split
  · exact h.decErr
  · exact h.wr.wr

theorem Tidy.wroteTcmd {op : Nat} (h : Tidy s₀ s) : Tidy s₀ (s.wroteTcmd op) :=
  .ite h (.ite h.count (.ite h.rawWrite h.rawRead))

/-! ### Power domains -/

theorem Tidy.rebudget (h : Tidy s₀ s) : Tidy s₀ s.rebudget := h.wr

theorem Tidy.logPwr {c : Code} {arg : Int} (h : Tidy s₀ s) : Tidy s₀ (s.logPwr c arg) :=
  h.wr.wr.wr.wr.wr.wr.wr.wri.wr.incSat

theorem Tidy.lineAborts {l : Nat} (h : Tidy s₀ s) : Tidy s₀ (s.lineAborts l) :=
  h.foldl fun _ _ ht => ht.complete

theorem Tidy.eraseTree {t : Nat} (h : Tidy s₀ s) : Tidy s₀ (s.eraseTree t) := by
  refine ⟨h.queue, fun k => ?_⟩
  obtain ⟨hm, hr, hrest⟩ := (canonical_iff s).mp (h.canonical k)
  unfold State.eraseTree
  refine (canonical_iff _).mpr ⟨hm, ?_, hrest⟩
  dsimp only
  exact swf_sdrop _ hr

theorem Tidy.stopDomain {d : Nat} {bursts : Option (List Burst)} (h : Tidy s₀ s) :
    Tidy s₀ (s.stopDomain d bursts) := by
  unfold State.stopDomain
  extract_lets s1 s2 s3 s4 _ s5
  have h1 : Tidy s₀ s1 := by
    unfold s1
    split
    · exact h.cutCore
    · exact h
  have h2 : Tidy s₀ s2 := by
    unfold s2
    split
    · exact h1.resetMatrix
    · exact h1
  have h3 : Tidy s₀ s3 := h2.foldl fun _ _ ht => ht.monOff
  have h4 : Tidy s₀ s4 := h3.lineAborts.rxGoOff
  have h5 : Tidy s₀ s5 := h3.same.notSent
  exact .ite h3.treeOff.eraseTree (.ite h4.setLine.seeEgress (.ite (h5.foldl fun _ _ hu => hu.seeEgress) h3))

theorem Tidy.startDomain {d : Nat} (h : Tidy s₀ s) : Tidy s₀ (s.startDomain d) := by
  unfold State.startDomain
  extract_lets _ s1 s2
  have h1 : Tidy s₀ s1 := h.resetRegs.resetLatches.foldl fun _ _ ht => ht.monOn
  have h2 : Tidy s₀ s2 := h1.declareDefect
  exact .ite h1.treeOn.eraseTree (.ite (.ite h2.rxStart h2) h1)

theorem Tidy.testSlices {l : Nat} {fails : BitVec 4} (h : Tidy s₀ s) : Tidy s₀ (s.testSlices l fails) :=
  h.foldl fun _ _ ht => .ite ht (.ite (.ite ht.wr.setLine ht.wr) ht.wr)

theorem Tidy.powerOff {d : Nat} {bursts : Option (List Burst)} (h : Tidy s₀ s) : Tidy s₀ (s.powerOff d bursts) :=
  h.stopDomain.wr.zeroMem.same

theorem Tidy.relight {d : Nat} (h : Tidy s₀ s) : Tidy s₀ (s.relight d) := by
  unfold State.relight
  extract_lets _ _ s1
  have h1 : Tidy s₀ s1 := h.same
  exact .ite h1 (h1.foldl fun _ _ ht => .ite ht.wr.wr.setChan ht.setLine)

theorem Tidy.powerUp {d : Nat} {fails : BitVec 4} {cast : Bool} (h : Tidy s₀ s) :
    Tidy s₀ (s.powerUp d fails cast) := by
  unfold State.powerUp
  extract_lets _ s1 s2 _ _ s3 s4
  have h1 : Tidy s₀ s1 := h.wr.startDomain.same
  have h2 : Tidy s₀ s2 := .ite h1.testSlices h1
  have h3 : Tidy s₀ s3 := (Tidy.ite h2.same h2).instanceCast
  have h4 : Tidy s₀ s4 := by
    unfold s4
    split
    · exact h3.imageLoads
    · exact h3
  exact h4.relight

theorem Tidy.setShed {d : Nat} {on : Bool} (h : Tidy s₀ s) : Tidy s₀ (s.setShed d on) := h.wr.wr

theorem Tidy.clearTests (h : Tidy s₀ s) : Tidy s₀ s.clearTests :=
  h.foldl fun _ _ ht => ht.wr.wr.wr.wr.wr.wroteRxTest

theorem Tidy.setMode {m : Nat} (h : Tidy s₀ s) : Tidy s₀ (s.setMode m) := by
  unfold State.setMode
  extract_lets
  exact .ite h ((Tidy.ite h.clearTests h).wr.occur.foldl fun _ _ ht => ht.seeEgress)

theorem Tidy.rampDown {d : Nat} (h : Tidy s₀ s) : Tidy s₀ (s.rampDown d) := by
  unfold State.rampDown
  extract_lets _ s1
  have h1 : Tidy s₀ s1 := h.same
  refine .ite h1.wr ?_
  exact .ite h1 (.ite h1.treeShed (.ite (.ite h1.lineDisable (.ite h1.enableFails.lineDark h1)) h1))

theorem Tidy.turnOff {d : Nat} (h : Tidy s₀ s) : Tidy s₀ (s.turnOff d) :=
  .ite h.rampDown h.rampDown.same.beginFalls

theorem Tidy.markShed {d : Nat} {ev : Option (Code × List Int)} (h : Tidy s₀ s) : Tidy s₀ (s.markShed d ev) := by
  unfold State.markShed
  extract_lets _ _ _ s1 s2 s3
  have h1 : Tidy s₀ s1 := h.setShed.same
  have h2 : Tidy s₀ s2 := by
    unfold s2
    split
    · exact h1.occur
    · exact h1
  have h3 : Tidy s₀ s3 := .ite h2.logPwr h2
  exact .ite h3.setMode h3

theorem Tidy.shed {d : Nat} (h : Tidy s₀ s) : Tidy s₀ (s.shed d) := h.markShed.turnOff

theorem Tidy.unshed {d : Nat} (h : Tidy s₀ s) : Tidy s₀ (s.unshed d) := .ite h.setShed.same.setMode h.setShed.same

theorem Tidy.noteHead (h : Tidy s₀ s) : Tidy s₀ s.noteHead := by
  unfold State.noteHead
  extract_lets
  split <;> exact h.same

theorem Tidy.leaveOff {d : Nat} (h : Tidy s₀ s) : Tidy s₀ (s.leaveOff d) :=
  h.same.foldl fun _ _ ht => ht.markShed

theorem Tidy.riseFrom {k : Nat} (h : Tidy s₀ s) : Tidy s₀ (s.riseFrom k) := by
  induction k generalizing s with
  | zero => exact h
  | succ k ih =>
    unfold State.riseFrom
    split
    · exact h
    · exact .ite (ih h.same.leaveOff) (Tidy.ite h.same.unshed h.same).wr

theorem Tidy.startRise (h : Tidy s₀ s) : Tidy s₀ s.startRise := .ite h (.ite h.riseFrom.same h.riseFrom)

theorem Tidy.requestRise {d : Nat} (h : Tidy s₀ s) : Tidy s₀ (s.requestRise d) := .ite h h.same.startRise

theorem Tidy.progress (h : Tidy s₀ s) : Tidy s₀ s.progress := by
  unfold State.progress
  extract_lets _ _ s1
  have h1 : Tidy s₀ s1 := by
    unfold s1
    split
    · exact .ite h.same.setMode.complete h
    · exact h
  split
  · exact .ite h1.same.complete h1
  · exact h1

theorem Tidy.shedGone {d : Nat} (h : Tidy s₀ s) : Tidy s₀ (s.shedGone d) := .ite h.same h

theorem Tidy.compareLoad (h : Tidy s₀ s) : Tidy s₀ s.compareLoad :=
  .ite (h.wr.same.foldl fun _ _ ht => ht.shed) h.wr.same

/-! ### Resets -/

theorem Tidy.shutLines (h : Tidy s₀ s) : Tidy s₀ s.shutLines :=
  h.foldl fun _ _ ht => .ite ht.lineShutdown ht

theorem Tidy.mainsFail (h : Tidy s₀ s) : Tidy s₀ s.mainsFail := by
  unfold State.mainsFail
  extract_lets _ s1 s2 _ s3
  have h1 : Tidy s₀ s1 := h.wr.wr.abandonStore.dropCommands
  have h2 : Tidy s₀ s2 := .ite h1.wr h1
  have h3 : Tidy s₀ s3 := (Tidy.ite h2.occur h2).logPwr
  exact h3.same.shutLines.foldl fun _ _ ht => .ite ht.chDark ht

theorem Tidy.enterBackup (h : Tidy s₀ s) : Tidy s₀ s.enterBackup :=
  (h.foldl fun _ _ ht => .ite ht ht.powerOff).wr.same

theorem Tidy.logTrip {sensor : Nat} (h : Tidy s₀ s) : Tidy s₀ (s.logTrip sensor) :=
  (Tidy.ite h.wr.wr.wr.wr.wr.wr.wr h.wr.wr.wr.wr.wr.wr.wr.wr).incSat

theorem Tidy.erased {ident : Bool} (h : Tidy s₀ s) : Tidy s₀ (s.erased ident) :=
  (Tidy.ite h.same.wr h.same).inc.wr.same

theorem Tidy.raiseZeroised (h : Tidy s₀ s) : Tidy s₀ s.raiseZeroised := .ite h.same.occur h

theorem Tidy.applyReset {kind : ResetKind} {keep : List Nat} (h : Tidy s₀ s) : Tidy s₀ (s.applyReset kind keep) := by
  unfold State.applyReset
  extract_lets _ _ _ _ s1 _ _ _ _ _ s2 s3 _ s4 s5
  have h1 : Tidy s₀ s1 := h.logPwr.notSent.resetLatches
  have h2 : Tidy s₀ s2 := h1.same.foldl fun _ _ ht => .ite ht ht.powerOff
  have h3 : Tidy s₀ s3 := h2.foldl fun _ _ hu => hu.stopDomain
  have h4 : Tidy s₀ s4 := h3.resetRegs.foldl fun _ _ hv => hv.wr.startDomain
  have h5 : Tidy s₀ s5 := (h4.foldl fun _ _ hw => hw.wr).wr.rebudget
  exact (Tidy.ite h5.wr.same h5).wr.setMode.same.wr.startRise

theorem Tidy.bootNow (h : Tidy s₀ s) : Tidy s₀ s.bootNow := .ite h h.same

theorem Tidy.warmReset {kind : ResetKind} (h : Tidy s₀ s) : Tidy s₀ (s.warmReset kind) := by
  unfold State.warmReset
  extract_lets s1
  have h1 : Tidy s₀ s1 := h.shutLines
  exact .ite h (.ite h1.applyReset.bootNow (Tidy.ite h1.applyReset h1).same)

theorem Tidy.resetGoesOn (h : Tidy s₀ s) : Tidy s₀ s.resetGoesOn := by
  unfold State.resetGoesOn
  extract_lets _ s1
  have h1 : Tidy s₀ s1 := h.same
  split
  · exact h
  · exact .ite h (Tidy.ite h1 h1.applyReset).bootNow

theorem Tidy.powerOnReset {v f : Nat} (h : Tidy s₀ s) : Tidy s₀ (s.powerOnReset v f) := by
  unfold State.powerOnReset
  extract_lets lost s1 s2 s3 s4 s5 s6 s7
  have h1 : Tidy s₀ s1 := h.resetLatches
  have h2 : Tidy s₀ s2 := ⟨h1.queue, fun k => by
    obtain ⟨-, hr, -⟩ := (canonical_iff s1).mp (h1.canonical k)
    exact (canonical_iff s2).mpr ⟨rfl, hr, rfl, rfl, rfl⟩⟩
  have h4 : Tidy s₀ s4 := .ite h2.resetRegs.resetRegs.wipeKeys h2.resetRegs
  have h7 : Tidy s₀ s7 := h4.wr.wr.wr.wr.wr.rebudget.wr.logPwr
  exact h7.same.startRise

theorem Tidy.supervisorUp {fails : BitVec 4} {cast : Bool} (h : Tidy s₀ s) : Tidy s₀ (s.supervisorUp fails cast) := by
  unfold State.supervisorUp
  extract_lets _ _ _ s1 _ _ s2
  have h1 : Tidy s₀ s1 := h.same.powerUp.same.occur
  have h2 : Tidy s₀ s2 := (h1.occur.foldl fun _ _ ht => ht.occur).raiseZeroised
  exact (Tidy.ite h2.occur h2).same.bootNow

theorem Tidy.beginZeroise {ident trip : Bool} (h : Tidy s₀ s) : Tidy s₀ (s.beginZeroise ident trip) := by
  unfold State.beginZeroise
  extract_lets
  split <;> exact h.wr.dropCommands.same

theorem execTamperTrip_answers {sensor : Fin 5} (h : Tidy s₀ s) : Answers s₀ (execTamperTrip sensor s) := by
  unfold execTamperTrip
  extract_lets s1
  have h1 : Tidy s₀ s1 := h.wipeKeys.logTrip.wr
  refine .next (.ite h (.ite h1.same.wr ?_))
  split
  · exact h1.beginZeroise.occur
  · exact .ite h1 h1.beginZeroise.wr.occur

theorem execZeroiseEraseDone_answers (h : Tidy s₀ s) : Answers s₀ (execZeroiseEraseDone s) := by
  unfold execZeroiseEraseDone
  refine .next ?_
  split
  · exact h
  · exact .ite h (.ite (.ite h h.erased.raiseZeroised.warmReset) h.erased.startRise)

theorem Tidy.cmdZeroise {c : Cmd} (h : Tidy s₀ s) : Tidy s₀ (s.cmdZeroise c) :=
  h.unreserved fun _ ht => .ite ht.complete ht.wipeKeys.beginZeroise

/-! ### Power and watchdogs -/

theorem execMainsCycleEnd_answers {vrms freq pIn : Nat} {limiting : Bool} (h : Tidy s₀ s) :
    Answers s₀ (execMainsCycleEnd vrms freq pIn limiting s) := by
  unfold execMainsCycleEnd
  extract_lets _ _ _ _ _ _ s1 _ s2
  have h1 : Tidy s₀ s1 := h.same.wr.wr.wr.wr.rebudget.wr.wr
  have h2 : Tidy s₀ s2 := .ite h1.same.occur (.ite h1.same h1)
  exact .next (.ite h (.ite h2.mainsFail h2.noteHead))

theorem execLoadMeasure_answers {pdc : Nat} (h : Tidy s₀ s) : Answers s₀ (execLoadMeasure pdc s) := by
  unfold execLoadMeasure
  extract_lets s1 s2
  have h1 : Tidy s₀ s1 := h.wr
  have h2 : Tidy s₀ s2 := .ite h1.count h1
  exact .next (.ite h (Tidy.ite h2 h2.compareLoad).noteHead)

theorem execShedSettleEnd_answers {pdc : Nat} (h : Tidy s₀ s) : Answers s₀ (execShedSettleEnd pdc s) := by
  unfold execShedSettleEnd
  refine .next ?_
  split
  · exact h
  · exact .ite h h.wr.compareLoad.noteHead

theorem execFastShed_answers {ends : Bool} (h : Tidy s₀ s) : Answers s₀ (execFastShed ends s) := by
  unfold execFastShed
  extract_lets
  refine .next (.ite h ?_)
  split
  · refine .ite h ?_
    split
    · exact h.shed.same
    · exact h.same
  · refine .ite h.same.occur (.ite h ?_)
    split
    · exact h.shed.same
    · exact h

theorem execOvertempShed_answers {temp : Int} (h : Tidy s₀ s) : Answers s₀ (execOvertempShed temp s) := by
  unfold execOvertempShed
  extract_lets
  refine .next (.ite h ?_)
  split
  · exact h
  · exact h.shed.same.occur

theorem execDomainRestore_answers {cool : Bool} (h : Tidy s₀ s) : Answers s₀ (execDomainRestore cool s) := by
  unfold execDomainRestore
  refine .next ?_
  split
  · extract_lets _ _ _ _ s1
    have h1 : Tidy s₀ s1 := h.occur.same.unshed
    exact .ite h (Tidy.ite h1.logPwr h1).requestRise.noteHead
  · exact h

theorem execDomainOn_answers {d : Fin 80} {fails : BitVec 4} {cast : Bool} (h : Tidy s₀ s) :
    Answers s₀ (execDomainOn d fails cast s) := by
  unfold execDomainOn
  extract_lets _ _ _ _ s1 s2
  have h1 : Tidy s₀ s1 := h.same
  have h2 : Tidy s₀ s2 := by
    unfold s2
    split
    · exact h1.imageLoads
    · exact h1
  refine .next (.ite (Tidy.ite h.supervisorUp h.powerUp).startRise.progress ?_)
  split
  · exact h
  · exact .ite (.ite h h.stopDomain.startDomain.same) (.ite h h2.complete)

theorem execDomainOff_answers {d : Fin 80} (h : Tidy s₀ s) : Answers s₀ (execDomainOff d s) :=
  .next (.ite h h.powerOff.shedGone.resetGoesOn.startRise.progress)

theorem execDomainFault_answers {d : Fin 80} (h : Tidy s₀ s) : Answers s₀ (execDomainFault d s) := by
  unfold execDomainFault
  extract_lets
  exact .next (.ite h (h.foldl fun _ _ ht => ht.markShed.turnOff).markShed.turnOff)

theorem execMainsFail_answers (h : Tidy s₀ s) : Answers s₀ (execMainsFail s) := .next (.ite h.mainsFail h)

theorem execBackupEntry_answers (h : Tidy s₀ s) : Answers s₀ (execBackupEntry s) := by
  unfold execBackupEntry
  refine .next ?_
  split
  · exact h
  · exact .ite h h.enterBackup

theorem execMainsReturn_answers {vrms freq : Nat} (h : Tidy s₀ s) : Answers s₀ (execMainsReturn vrms freq s) :=
  .next (.ite h h.powerOnReset)

theorem execCellMeasure_answers {mv : Nat} (h : Tidy s₀ s) : Answers s₀ (execCellMeasure mv s) :=
  .next (.ite h (.ite h.wr.wr.occur h.wr.wr))

theorem execBackupLoss_answers (h : Tidy s₀ s) : Answers s₀ (execBackupLoss s) := .next (.ite h h.wipeKeys.same)

theorem execHostResetPin_answers (h : Tidy s₀ s) : Answers s₀ (execHostResetPin s) :=
  .next (.ite h h.same.warmReset)

theorem execHrstNRelease_answers (h : Tidy s₀ s) : Answers s₀ (execHrstNRelease s) := .next (.ite h h.same.bootNow)

theorem Tidy.wdogExpires {cause : Nat} (h : Tidy s₀ s) : Tidy s₀ (s.wdogExpires cause) :=
  h.occur.logPwr.wr.warmReset

theorem Tidy.wroteWdogCtl (h : Tidy s₀ s) : Tidy s₀ s.wroteWdogCtl := .ite h.same h

theorem Tidy.wroteWdog {w : Word} (h : Tidy s₀ s) : Tidy s₀ (s.wroteWdog w) := .ite h (.ite h.same h.wdogExpires)

theorem execWdogExpire_answers (h : Tidy s₀ s) : Answers s₀ (execWdogExpire s) := .next (.ite h.wdogExpires h)

theorem Tidy.cmdPwrMode {c : Cmd} (h : Tidy s₀ s) : Tidy s₀ (s.cmdPwrMode c) := by
  unfold State.cmdPwrMode
  extract_lets
  refine h.unreserved fun _ ht => ?_
  extract_lets _ _ _ s1 _ _ s2
  have h1 : Tidy s₀ s1 := ht.foldl fun _ _ hu => hu.setShed.wr
  have h2 : Tidy s₀ s2 := h1.same.foldl fun _ _ hv => hv.rampDown
  refine .ite ht.complete (.ite ht.complete (.ite ht.complete (.ite ht.complete ?_)))
  refine .ite ht.setMode.complete (.ite ht.setMode.complete (.ite ht.setMode.complete ?_))
  exact .ite ht.same.startRise.progress (.ite h2.same.beginFalls.startRise.progress ht.complete)

theorem Tidy.cmdPwrDomain {bursts : Option (List Burst)} {c : Cmd} (h : Tidy s₀ s) :
    Tidy s₀ (s.cmdPwrDomain bursts c) := by
  unfold State.cmdPwrDomain
  extract_lets
  refine h.unreserved fun _ ht => ?_
  extract_lets _ s1 _ s2 _ s3 s4 _ s5
  have h1 : Tidy s₀ s1 := .ite ht.treeShed (.ite ht.lineShutdown ht)
  have h2 : Tidy s₀ s2 := h1.stopDomain.startDomain
  have h3 : Tidy s₀ s3 := ht.wr
  have h4 : Tidy s₀ s4 := .ite h3.unshed h3
  have h5 : Tidy s₀ s5 := h4.same
  refine .ite ht.complete (.ite ht.complete (.ite ht.complete (.ite ht.complete (.ite ht.complete ?_))))
  exact .ite ht.complete (.ite (.ite h1.same h2.same) (Tidy.ite h5.turnOff h5.requestRise).progress)

theorem Tidy.cmdPwrRead {c : Cmd} (h : Tidy s₀ s) : Tidy s₀ (s.cmdPwrRead c) := h.complete

theorem Tidy.cmdPwrReset {c : Cmd} (h : Tidy s₀ s) : Tidy s₀ (s.cmdPwrReset c) :=
  h.unreserved fun _ ht => .ite ht.complete ht.wr.same

theorem Tidy.abortCommands {l : List Cmd} (h : Tidy s₀ s) : Tidy s₀ (s.abortCommands l) := by
  unfold State.abortCommands
  extract_lets s1
  have h1 : Tidy s₀ s1 := by
    unfold s1
    split
    · exact .ite h.abandonStore h
    · exact h
  exact h1.foldl fun _ _ ht => ht.complete

theorem Tidy.drainStep (h : Tidy s₀ s) : Tidy s₀ s.drainStep := by
  unfold State.drainStep
  split
  · exact h
  · extract_lets _ _ _ _ s1
    have h1 : Tidy s₀ s1 := h.abortCommands.same
    split
    · exact .ite h (.ite h1.complete h1)
    · exact .ite h.warmReset (.ite h.complete h)

theorem execPwrResetDrainEnd_answers (h : Tidy s₀ s) : Answers s₀ (execPwrResetDrainEnd s) :=
  .next (.ite h.drainStep h)

end Sys2Proof.Machine
end

section
/-! PROOF. The service link, the register writes and the commands keep the queue and the canonical form. -/

namespace Sys2Proof.Machine

open Reg Ev

variable {s₀ s : State}

/-! ### The service link -/

theorem Tidy.toLink {st : Nat} (h : Tidy s₀ s) : Tidy s₀ (s.toLink st) := h.wr.same

theorem Tidy.sendCols {l : List (List Nat)} (h : Tidy s₀ s) : Tidy s₀ (s.sendCols l) := h.same

theorem Tidy.idleFill (h : Tidy s₀ s) : Tidy s₀ s.idleFill := .ite h.sendCols (.ite h h.sendCols)

theorem Tidy.linkDown {st : Nat} (h : Tidy s₀ s) : Tidy s₀ (s.linkDown st) := by
  unfold State.linkDown
  extract_lets s1
  have h1 : Tidy s₀ s1 := h.foldl fun _ _ ht => ht.wr
  exact (Tidy.ite h1.sendCols h1).same.toLink

theorem execSvcCdrLocked_answers (h : Tidy s₀ s) : Answers s₀ (execSvcCdrLocked s) := .next (.ite h.toLink h)

theorem execSvcLaneAligned_answers {lane : Fin 4} (h : Tidy s₀ s) : Answers s₀ (execSvcLaneAligned lane s) :=
  .next (.ite (.ite h.wr.toLink.toLink h.wr.toLink) h)

theorem execSvcDeskew_answers {spread : Nat} (h : Tidy s₀ s) : Answers s₀ (execSvcDeskew spread s) :=
  .next (.ite (.ite h.wr.toLink.same h.linkDown.count) h)

theorem execSvcBringupTimeout_answers (h : Tidy s₀ s) : Answers s₀ (execSvcBringupTimeout s) :=
  .next (.ite h.linkDown.count h)

theorem execSvcLinkLoss_answers (h : Tidy s₀ s) : Answers s₀ (execSvcLinkLoss s) :=
  .next (.ite h.linkDown.wr.occur h)

theorem execSvcAlignMarkerReceived_answers {rxUp : Bool} (h : Tidy s₀ s) :
    Answers s₀ (execSvcAlignMarkerReceived rxUp s) :=
  .next (.ite h.wr h)

theorem execSvcMarkerSend_answers (h : Tidy s₀ s) : Answers s₀ (execSvcMarkerSend s) :=
  .next (.ite h.same.sendCols h)

theorem Tidy.lpAnswer {st : Nat} (h : Tidy s₀ s) : Tidy s₀ (s.lpAnswer st) := .ite h.sendCols.toLink h.sendCols

theorem Tidy.lpRequest {st : Nat} (h : Tidy s₀ s) : Tidy s₀ (s.lpRequest st) := .ite (.ite h.same h.lpAnswer) h

theorem execSvcL1Request_answers (h : Tidy s₀ s) : Answers s₀ (execSvcL1Request s) := h.lpRequest.answers

theorem execSvcL2Request_answers (h : Tidy s₀ s) : Answers s₀ (execSvcL2Request s) := h.lpRequest.answers

theorem execSvcPowerSetBad_answers {set : List (Nat × Nat)} (h : Tidy s₀ s) : Answers s₀ (execSvcPowerSetBad set s) :=
  .next (.ite h.count h)

theorem execSvcLowPowerExit_answers (h : Tidy s₀ s) : Answers s₀ (execSvcLowPowerExit s) :=
  .next (.ite h.linkDown h)

theorem execSvcEqmLow_answers {lane : Fin 4} (h : Tidy s₀ s) : Answers s₀ (execSvcEqmLow lane s) :=
  .next (.ite h.same.occur h)

theorem Tidy.completionSent {k : Completion} (h : Tidy s₀ s) : Tidy s₀ (s.completionSent k) := by
  unfold State.completionSent
  extract_lets _ _ _ s1
  have h1 : Tidy s₀ s1 := (Tidy.ite h h.count).setCmd.same
  refine .ite h ?_
  split
  · exact h1.linkDown.wr.same
  · exact h1

theorem Tidy.p0Sent {n : Nat} (h : Tidy s₀ s) : Tidy s₀ (s.p0Sent n) := h.same

theorem Tidy.mainSent {n : Nat} (h : Tidy s₀ s) : Tidy s₀ (s.mainSent n) := h.same

theorem Tidy.tlmSent {t : Nat} (h : Tidy s₀ s) : Tidy s₀ (s.tlmSent t) := h.same

theorem execSvcPacketSent_answers (h : Tidy s₀ s) : Answers s₀ (execSvcPacketSent s) := by
  unfold execSvcPacketSent
  refine .next (.ite h ?_)
  split
  · exact h
  · next p e =>
    extract_lets req _ s1 _ s2
    have h1 : Tidy s₀ s1 := h.same.sendCols
    have h2 : Tidy s₀ s2 := by
      unfold s2
      cases p with
      | overhead l k b => exact .ite h1.same h1
      | events0 n => exact h1.p0Sent
      | events1 n => exact h1.mainSent
      | completion k => exact h1.same.completionSent.drainStep
      | telemetry t => exact h1.tlmSent
    cases req with
    | some st => exact h2.lpAnswer
    | none => exact h2

theorem execHostPacketBad_answers {boot : Bool} {why : BadPkt} (h : Tidy s₀ s) :
    Answers s₀ (execHostPacketBad boot why s) := by
  unfold execHostPacketBad
  refine .next (.ite h ?_)
  split
  · exact .ite h h.count
  · exact h.count
  · exact h.count
  · exact h.count

theorem execOverheadPacketIn_answers {line : Fin 4} {chan : Fin 2} {crit psn : Bool} {octets : List (BitVec 8)}
    (h : Tidy s₀ s) : Answers s₀ (execOverheadPacketIn line chan crit psn octets s) :=
  .next (.ite h (.ite h.count h.pushSlip))

theorem execSvcLoopEnd_answers {lanes : List (List Nat)} (h : Tidy s₀ s) : Answers s₀ (execSvcLoopEnd lanes s) := by
  unfold execSvcLoopEnd
  extract_lets _ _ s1
  have h1 : Tidy s₀ s1 := h.linkDown.wr.same
  refine .next ?_
  split
  · exact .ite (.ite h1.sendCols.occur h1.same.occur) h
  · exact h

theorem execBootReadPacket_answers {clocked : Nat} (h : Tidy s₀ s) : Answers s₀ (execBootReadPacket clocked s) := by
  unfold execBootReadPacket
  extract_lets
  refine .next (.ite h ?_)
  split
  · exact h.same
  · extract_lets _ _ s1 _ s2
    have h1 : Tidy s₀ s1 := h.same
    have h2 : Tidy s₀ s2 := h1.same
    refine .ite h1 ?_
    split
    · exact h2.p0Sent
    · exact h2.same.completionSent.drainStep
    · exact h2

/-! ### Register writes -/

theorem Tidy.mfWritten {l : Nat} {old : Bool} (h : Tidy s₀ s) : Tidy s₀ (s.mfWritten l old) :=
  .ite (.ite h h.setLine) h.wr.setLine.clearDefect

theorem Tidy.routeWritten {l h' old : Nat} (h : Tidy s₀ s) : Tidy s₀ (s.routeWritten l h' old) :=
  .ite h h.setSlip.setSlip.same

theorem Tidy.wroteLine {old : State} {l o le : Nat} (h : Tidy s₀ s) : Tidy s₀ (s.wroteLine old l o le) := by
  unfold State.wroteLine
  refine .ite h.wroteTxCtl (.ite h.wroteRxCtl (.ite h.wroteTelCtl (.ite h.wroteRxTest ?_)))
  exact .ite h.mfWritten.updateTim.emptyRx.seeEgress (.ite h.routeWritten.routeWritten (.ite h.updateTim h))

theorem Tidy.afterWrite {old : State} {a le : Nat} {x : Word} (h : Tidy s₀ s) :
    Tidy s₀ (s.afterWrite old a le x) := by
  unfold State.afterWrite
  extract_lets
  refine .ite (.ite h.wroteGrmCtl (.ite h.wroteTcmd h)) (.ite h.wroteTimeCtl (.ite h.wroteWdogCtl ?_))
  refine .ite h.wroteWdog (.ite h.seeEgress (.ite h.wroteLine ?_))
  refine .ite (.ite h.wroteMonCtl (.ite h.wroteSeqCtl h)) ?_
  refine .ite (.ite h.wroteMapCtl (.ite h.tstChanged.tstChanged h)) ?_
  exact .ite (.ite (.ite h.wroteDsCtl h) (.ite h.wroteCanc (.ite h.setDsm h))) h

theorem Tidy.coreWrite {k u n o issued le : Nat} {b x : Word} {bursts : Option (List Burst)} (h : Tidy s₀ s) :
    Tidy s₀ (s.coreWrite k u n o issued le b x bursts) := by
  unfold State.coreWrite
  extract_lets _ s1
  have h1 : Tidy s₀ s1 := h.setReg
  exact .ite (.ite h.wroteCoreCtl h) (.ite (.ite h.decErr (.ite h.ackSamples h.setReg)) (.ite h1.wroteWindow h1))

theorem Tidy.busWrite {m a le : Nat} {w : Word} {bursts : Option (List Burst)} {issued : Nat} (h : Tidy s₀ s) :
    Tidy s₀ (s.busWrite m a le w bursts issued).2 := by
  unfold State.busWrite
  extract_lets
  split
  · exact h
  · split
    · split
      · exact h.coreWrite.asSnd
      · split
        · split
          · exact (Tidy.ite h.takeTokens (.ite h.setBucket h)).putStored.asSnd
          · exact h
        · exact h.setReg.afterWrite.asSnd
    · exact h.count.asSnd
    · exact h

theorem Tidy.portWrite {m a : Nat} {w : Word} {bursts : Option (List Burst)} (h : Tidy s₀ s) :
    Tidy s₀ (s.portWrite m a w bursts) := by
  unfold State.portWrite
  refine .ite h ?_
  split
  · exact h.badAccess
  · exact .ite h.request h.busWrite
  · exact h

theorem Tidy.portRead {m a : Nat} (h : Tidy s₀ s) : Tidy s₀ (s.portRead m a) := by
  unfold State.portRead
  refine .ite h ?_
  split
  · exact h.badAccess
  · exact .ite h.request h.busRead
  · exact h

/-! ### Commands -/

theorem Tidy.linkRead {tag a : Nat} {w : Option PWord} {t : State} (h : Tidy s₀ s)
    (e : s.linkRead tag a = .ok (w, t)) : Tidy s₀ t := by
  unfold State.linkRead at e
  split at e
  · exact h.badAccess.asSnd.snd (Except.ok.inj e)
  · split at e
    · cases e
    · split at e
      · split at e
        next r => exact (h.busRead.snd r).asSnd.snd (Except.ok.inj e)
      · split at e
        next r => exact (h.memRead.snd r).asSnd.snd (Except.ok.inj e)
      · exact h.asSnd.snd (Except.ok.inj e)

theorem Tidy.linkWrite {tag a le st : Nat} {w : Word} {bursts : Option (List Burst)} {t : State} (h : Tidy s₀ s)
    (e : s.linkWrite tag a le w bursts = .ok (st, t)) : Tidy s₀ t := by
  unfold State.linkWrite at e
  split at e
  · cases e
    exact h.badAccess
  · split at e
    · cases e
    · split at e
      · cases e
        exact h.busWrite
      · cases e
        exact h.memWrite
      · cases e
        exact h

theorem Tidy.readRun_ok {reach : Nat → Bool} {tag n a : Nat} {l l' : List PWord} {b : Bool} {t : State}
    (h : Tidy s₀ s) (e : State.readRun reach tag n a l s = .ok (l', b, t)) : Tidy s₀ t := by
  induction n generalizing s a l with
  | zero =>
    cases e
    exact h
  | succ n ih =>
    unfold State.readRun at e
    split at e
    · cases e
      exact h
    · split at e
      case h_1 => cases e
      case h_2 hr => exact ih (h.linkRead hr) e
      case h_3 hr =>
        cases e
        exact h.linkRead hr

theorem Tidy.readRun_error {reach : Nat → Bool} {tag n a : Nat} {l l' : List PWord} {p : Place} {t : State}
    (h : Tidy s₀ s) (e : State.readRun reach tag n a l s = .error (p, l', t)) : Tidy s₀ t := by
  induction n generalizing s a l with
  | zero => cases e
  | succ n ih =>
    unfold State.readRun at e
    split at e
    · cases e
    · split at e
      case h_1 =>
        cases e
        exact h
      case h_2 hr => exact ih (h.linkRead hr) e
      case h_3 => cases e

theorem Tidy.writeRun_ok {reach : Nat → Bool} {tag le a k k' st : Nat} {bursts : Option (List Burst)}
    {l : List Word} {t : State} (h : Tidy s₀ s) (e : State.writeRun reach tag le bursts l a k s = .ok (k', st, t)) :
    Tidy s₀ t := by
  induction l generalizing s a k with
  | nil =>
    cases e
    exact h
  | cons w l ih =>
    unfold State.writeRun at e
    split at e
    · cases e
      exact h
    · split at e
      case h_1 => cases e
      case h_2 hw =>
        split at e
        · exact ih (h.linkWrite hw) e
        · cases e
          exact h.linkWrite hw

theorem Tidy.writeRun_error {reach : Nat → Bool} {tag le a k k' : Nat} {bursts : Option (List Burst)}
    {l : List Word} {p : Place} {t : State} (h : Tidy s₀ s)
    (e : State.writeRun reach tag le bursts l a k s = .error (p, k', t)) : Tidy s₀ t := by
  induction l generalizing s a k with
  | nil => cases e
  | cons w l ih =>
    unfold State.writeRun at e
    split at e
    · cases e
    · split at e
      case h_1 =>
        cases e
        exact h
      case h_2 hw =>
        split at e
        · exact ih (h.linkWrite hw) e
        · cases e

theorem Tidy.linkHeld {tag : Nat} {p : Place} {f : Cmd → Cmd} (h : Tidy s₀ s) : Tidy s₀ (s.linkHeld tag p f) := by
  unfold State.linkHeld
  split
  · exact h
  · exact .ite h.setCmd.request h

theorem Tidy.cmdRead {reach : Nat → Bool} {c : Cmd} (h : Tidy s₀ s) : Tidy s₀ (s.cmdRead reach c) := by
  unfold State.cmdRead
  extract_lets
  split
  · exact h.complete
  · split
    · rename_i t e1
      exact (h.readRun_error e1).linkHeld
    · rename_i u e2
      exact (h.readRun_ok e2).complete

theorem Tidy.cmdWrite {reach : Nat → Bool} {bursts : Option (List Burst)} {c : Cmd} (h : Tidy s₀ s) :
    Tidy s₀ (s.cmdWrite reach bursts c) := by
  unfold State.cmdWrite
  split
  · exact h.complete
  · split
    · rename_i t e1
      exact (h.writeRun_error e1).linkHeld
    · rename_i u e2
      exact (h.writeRun_ok e2).complete

theorem Tidy.linkGoesOn {tag : Nat} (h : Tidy s₀ s) : Tidy s₀ (s.linkGoesOn tag) := by
  unfold State.linkGoesOn
  split
  · exact h
  · refine .ite h ?_
    split
    · exact h.cmdRead
    · exact h.cmdWrite
    · exact h.cmdRead
    · exact h.cmdWrite
    · exact h

theorem Tidy.perform {bursts : Option (List Burst)} {c : Cmd} (h : Tidy s₀ s) : Tidy s₀ (s.perform bursts c) := by
  unfold State.perform
  split
  · exact h.cmdNop
  · exact h.cmdRecall
  · exact h.cmdLoop
  · exact h.cmdRead
  · exact h.cmdWrite
  · exact h.cmdRead
  · exact h.cmdWrite
  · exact h.cmdCoreLoad
  · exact h.cmdCoreStart
  · exact h.cmdCoreHalt
  · exact h.cmdImgStore
  · exact h.cmdPwrMode
  · exact h.cmdPwrDomain
  · exact h.cmdPwrReset
  · exact h.cmdPwrRead
  · exact h.cmdRestep
  · exact h.cmdTod
  · exact h.cmdTimeRead
  · exact h.cmdRtcSet
  · exact h.cmdKeyLoad
  · exact h.cmdKeyErase
  · exact h.cmdZeroise
  · exact h.cmdIdent
  · exact h.cmdLineEnable
  · exact h.cmdLineRate
  · exact h.cmdLineLoad
  · exact h.cmdLineTrace
  · exact h.cmdTreeEnable
  · exact h.cmdReflect
  · exact h.cmdDiscover
  · exact h.cmdActivate
  · exact h.cmdDeactivate
  · exact h.cmdInject
  · exact h.cmdMonSeq
  · exact h.cmdCalStart
  · exact h.cmdCntRead
  · exact h.cmdEvtCfg
  · exact h.cmdBind
  · exact h.cmdUnbind
  · exact h.cmdQueSet
  · exact h.complete

theorem execCommandStart_answers {bursts : List Burst} (h : Tidy s₀ s) : Answers s₀ (execCommandStart bursts s) := by
  unfold execCommandStart
  refine .next (.ite h ?_)
  split
  · exact h.markStarted.perform
  · exact h

end Sys2Proof.Machine
end

section
/-! PROOF. The instructions, the engines and the matrix keep the queue and the canonical form. -/

namespace Sys2Proof.Machine

open Reg Ev

variable {s₀ s : State}

/-! ### Fetch and retire -/

theorem Tidy.raiseExc {n pc code : Nat} (h : Tidy s₀ s) : Tidy s₀ (s.raiseExc n pc code) := h.setCore.wr.wr.occur

theorem Tidy.retire {n pc : Nat} {iw : Word} {next ea : Nat} (h : Tidy s₀ s) :
    Tidy s₀ (s.retire n pc iw next ea) := by
  unfold State.retire
  extract_lets _ _ s1
  have h1 : Tidy s₀ s1 := h.sampleInstr.setCore
  exact .ite h1.raiseExc (.ite h1.wr h1)

theorem Tidy.waitAt {n : Nat} {i : Instr} {iw : Word} (h : Tidy s₀ s) : Tidy s₀ (s.waitAt n i iw) := h.setCore

/-- What an instruction came to, carried out. -/
theorem TidyRun.settle {n : Nat} {i : Instr} {w : Word} {r : Run} (h : TidyRun s₀ r) :
    Tidy s₀ (s.settle n i w r) := by
  cases r with
  | done t => exact Tidy.retire h
  | marked t => exact (Tidy.retire h).sampleRec
  | trap t => exact Tidy.raiseExc h
  | stay t => exact Tidy.waitAt h
  | held t => exact (Tidy.request h).waitAt

theorem Tidy.fetchWord {x1 : Place} (h : Tidy s₀ s) : Tidy s₀ (s.fetchWord x1).2 := by
  unfold State.fetchWord
  split
  · exact h
  · exact h.memRead
  · exact h

theorem Tidy.fetchImm {n a : Nat} {iw : Word} (h : Tidy s₀ s) : TidyFetch s₀ (s.fetchImm n a iw) := by
  unfold State.fetchImm
  split
  · exact h
  · refine .ite trivial ?_
    split
    rename_i t e
    have ht := h.fetchWord.snd e
    refine .ite ht ?_
    split <;> exact ht

theorem Tidy.fetch {n : Nat} (h : Tidy s₀ s) : TidyFetch s₀ (s.fetch n) := by
  unfold State.fetch
  extract_lets
  split
  · exact h
  · refine .ite trivial ?_
    split
    rename_i t e
    have ht := h.fetchWord.snd e
    refine .ite ht ?_
    split
    · exact ht
    · exact .ite ht.fetchImm ht

theorem Tidy.hergil {n : Nat} {i : Instr} {body : Nat → State → Run} (h : Tidy s₀ s)
    (hbody : ∀ x0 t, Tidy s₀ t → TidyRun s₀ (body x0 t)) : Tidy s₀ (s.hergil n i body) := by
  unfold State.hergil
  refine .ite h ?_
  split
  · exact h
  · exact h
  · rename_i u _ e1
    exact (h.fetch.bad e1).raiseExc
  · rename_i v _ _ e2
    exact .ite (TidyRun.settle (hbody _ _ (h.fetch.instr e2))) h

theorem Tidy.branched {n : Nat} (h : Tidy s₀ s) : Tidy s₀ (s.branched n) := by
  unfold State.branched
  extract_lets
  split
  · exact h
  · exact h.setCore.wr

/-! ### Memory instructions -/

theorem Tidy.windowWrite {n d : Nat} {p : Packet} {o le : Nat} {v : Word} (h : Tidy s₀ s) :
    Tidy s₀ (s.windowWrite n d p o le v) := by
  unfold State.windowWrite
  extract_lets s1 ls put cls
  have h1 : Tidy s₀ s1 := h.count
  refine .ite h1 (.ite h1.bufRaw.setPacket ?_)
  split
  rename_i old bad t e
  have ht := h1.readLane.third e
  refine .ite ht.bufRaw.setPacket (.ite ht.bufRaw.count ht)

theorem Tidy.readPlace {n u le : Nat} {p : Place} {w : PWord} {t : State} (h : Tidy s₀ s)
    (e : s.readPlace n u le p = some (w, t)) : Tidy s₀ t := by
  cases p with
  | rom kind off =>
    cases e
    exact h
  | mem g =>
    cases e
    exact h.memRead
  | win k w' o =>
    obtain ⟨dp, -, hr⟩ := Option.map_eq_some_iff.mp e
    cases hr
    exact h.windowRead
  | reg g =>
    cases e
    exact h.busRead

theorem Tidy.loadWord {n : Nat} {g : Agent} {a le : Nat} (h : Tidy s₀ s) : TidyAcc s₀ (s.loadWord n g a le) := by
  unfold State.loadWord
  split
  · exact h.badAccess
  · refine .ite trivial ?_
    split
    · rename_i t e
      exact h.readPlace e
    · exact h

theorem Tidy.writePlace {n u le issued : Nat} {v : PWord} {p : Place} {t : State} (h : Tidy s₀ s)
    (e : s.writePlace n u le issued v p = .ok t) : Tidy s₀ t := by
  cases p with
  | rom kind off => cases e
  | mem g =>
    cases e
    exact h.memWrite
  | win k w o =>
    dsimp only [State.writePlace] at e
    split at e
    · cases e
    · split at e
      · cases e
      · split at e
        · cases e
        · cases e
          exact h.windowWrite
  | reg g =>
    dsimp only [State.writePlace] at e
    split at e
    · cases e
    · split at e
      case h_1 => cases e
      case h_2 => cases e
      case h_3 => cases e
      case h_4 hw =>
        cases e
        exact h.busWrite.snd hw
      case h_5 hw =>
        cases e
        exact h.busWrite.snd hw

theorem Tidy.storeWord {n : Nat} {g : Agent} {a le : Nat} {v : PWord} (h : Tidy s₀ s) :
    TidyAcc s₀ (s.storeWord n g a le v) := by
  unfold State.storeWord
  split
  · exact h.badAccess
  · refine .ite trivial ?_
    split
    · rename_i t e
      exact h.writePlace e
    · exact h

theorem tidy_ldBody {n : Nat} {d : HReg} {m : MemArgs} {next : Nat} (h : Tidy s₀ s) :
    TidyRun s₀ (ldBody n d m next s) := by
  unfold ldBody
  extract_lets
  split
  · exact h
  · split
    · rename_i t _ e1
      exact h.loadWord.bad e1
    · exact h
    · rename_i u _ e2
      exact (h.loadWord.ok e2).setCore

theorem TidyAcc.andThen {α β : Type} {x : Acc α} {f : State → α → Acc β} (h : TidyAcc s₀ x)
    (hf : ∀ t y, Tidy s₀ t → TidyAcc s₀ (f t y)) : TidyAcc s₀ (x.andThen f) := by
  cases x with
  | ok t y => exact hf t y h
  | held p => trivial
  | bad t c => exact h

theorem Tidy.loadPair {n a le : Nat} (h : Tidy s₀ s) : TidyAcc s₀ (s.loadPair n a le) := by
  unfold State.loadPair
  split
  · exact h.cntRead.cntRead
  · exact h.loadWord.andThen fun _ _ ht => ht.loadWord.andThen fun _ _ hu => hu

theorem tidy_ldpBody {n : Nat} {d : HPair} {m : MemArgs} {next : Nat} (h : Tidy s₀ s) :
    TidyRun s₀ (ldpBody n d m next s) := by
  unfold ldpBody
  extract_lets
  split
  · exact h
  · split
    · rename_i t _ e1
      exact h.loadPair.bad e1
    · exact h
    · rename_i u _ e2
      exact (h.loadPair.ok e2).setCore

theorem Tidy.post {n le : Nat} {p : Place} {v : PWord} (h : Tidy s₀ s) : Tidy s₀ (s.post n le p v) := h.request

theorem tidy_stBody {n : Nat} {d : HReg} {m : MemArgs} {next : Nat} (h : Tidy s₀ s) :
    TidyRun s₀ (stBody n d m next s) := by
  unfold stBody
  extract_lets
  split
  · exact h
  · split
    · rename_i t _ e1
      exact h.storeWord.bad e1
    · exact .ite h.post.setCore h
    · rename_i u _ e2
      exact (h.storeWord.ok e2).setCore

theorem Tidy.pairFails {n a : Nat} (h : Tidy s₀ s) : Tidy s₀ (s.pairFails n a) := by
  unfold State.pairFails
  split
  · exact h.badAccess
  · split
    · exact h.badAccess
    · exact h

theorem tidy_stpBody {n : Nat} {d : HPair} {m : MemArgs} {next : Nat} (h : Tidy s₀ s) :
    TidyRun s₀ (stpBody n d m next s) := by
  unfold stpBody
  extract_lets
  split
  · exact h
  · split
    · exact h.pairFails
    · split
      · rename_i t _ e1
        exact (h.storeWord.andThen fun _ _ hu => hu.storeWord).bad e1
      · exact .ite h.post.post.setCore h
      · rename_i v _ e2
        exact ((h.storeWord.andThen fun _ _ hw => hw.storeWord).ok e2).setCore

theorem tidy_atomicBody {n : Nat} {d : HReg} {m : MemArgs} {f : PWord → PWord → PWord} {next : Nat} (h : Tidy s₀ s) :
    TidyRun s₀ (atomicBody n d m f next s) := by
  unfold atomicBody
  extract_lets
  split
  · exact h
  · split
    · exact h.badAccess
    · exact .ite h h.memRead.memWrite.setCore
    · exact h

theorem execLd_answers {n : Nat} {d : HReg} {m : MemArgs} (h : Tidy s₀ s) : Answers s₀ (execLd n d m s) :=
  .next (h.hergil fun _ _ ht => tidy_ldBody ht)

theorem execSt_answers {n : Nat} {d : HReg} {m : MemArgs} (h : Tidy s₀ s) : Answers s₀ (execSt n d m s) :=
  .next (h.hergil fun _ _ ht => tidy_stBody ht)

theorem execLdp_answers {n : Nat} {d : HPair} {m : MemArgs} (h : Tidy s₀ s) : Answers s₀ (execLdp n d m s) :=
  .next (h.hergil fun _ _ ht => tidy_ldpBody ht)

theorem execStp_answers {n : Nat} {d : HPair} {m : MemArgs} (h : Tidy s₀ s) : Answers s₀ (execStp n d m s) :=
  .next (h.hergil fun _ _ ht => tidy_stpBody ht)

theorem execAadd_answers {n : Nat} {d : HReg} {m : MemArgs} (h : Tidy s₀ s) : Answers s₀ (execAadd n d m s) :=
  .next (h.hergil fun _ _ ht => tidy_atomicBody ht)

theorem execAswp_answers {n : Nat} {d : HReg} {m : MemArgs} (h : Tidy s₀ s) : Answers s₀ (execAswp n d m s) :=
  .next (h.hergil fun _ _ ht => tidy_atomicBody ht)

/-! ### Engine operations -/

theorem Tidy.endOpen {n tag status : Nat} (h : Tidy s₀ s) : Tidy s₀ (s.endOpen n tag status) := h.used.endOp

theorem Tidy.endCount {n tag status count : Nat} (h : Tidy s₀ s) : Tidy s₀ (s.endCount n tag status count) :=
  h.used.endOp

theorem Tidy.endZero {n tag status : Nat} (h : Tidy s₀ s) : Tidy s₀ (s.endZero n tag status) := h.endOp

theorem Tidy.endNone {n tag status : Nat} (h : Tidy s₀ s) : Tidy s₀ (s.endNone n tag status) := h.endCount

theorem Tidy.engineRow {n tag unit op ops : Nat} {upset : Bool} {masks : List Nat}
    {fail : State → Nat → Nat → Nat → State} {body : EngOp → State → State} (h : Tidy s₀ s)
    (hfail : ∀ t x0 x1 x2, Tidy s₀ t → Tidy s₀ (fail t x0 x1 x2)) (hbody : ∀ x0 t, Tidy s₀ t → Tidy s₀ (body x0 t)) :
    Tidy s₀ (s.engineRow n tag unit op ops upset masks fail body) := by
  unfold State.engineRow
  split
  · exact h
  · extract_lets _ s1
    have h1 : Tidy s₀ s1 := h.noteUpset
    exact .ite (.ite h1.endZero h1.endNone) (.ite (hfail _ _ _ _ h1) (.ite (hfail _ _ _ _ h1) (hbody _ _ h1)))

theorem Tidy.engRead {n : Nat} {g : Agent} {a k : Nat} (h : Tidy s₀ s) : Tidy s₀ (s.engRead n g a k).1 := by
  induction k generalizing s a with
  | zero => exact h
  | succ k ih =>
    unfold State.engRead
    split
    · exact h
    · next e => exact h.loadWord.bad e
    · next e => exact ih (h.loadWord.ok e)

theorem Tidy.engTake {n : Nat} {g : Agent} {got : List PWord} {a k : Nat} (h : Tidy s₀ s) :
    Tidy s₀ (s.engTake n g got a k).1 := by
  unfold State.engTake
  extract_lets
  exact h.engRead.asFst

theorem Tidy.engWrite {n : Nat} {g : Agent} {l : List (Nat × PWord)} (h : Tidy s₀ s) :
    Tidy s₀ (s.engWrite n g l).1 := by
  induction l generalizing s with
  | nil => exact h
  | cons x l ih =>
    unfold State.engWrite
    split
    · exact h
    · next e => exact h.storeWord.bad e
    · next e => exact ih (h.storeWord.ok e)

theorem Tidy.setOp {n : Nat} {o : EngOp} (h : Tidy s₀ s) : Tidy s₀ (s.setOp n o) := h.setCore

theorem Tidy.goesOn {n : Nat} {g : Agent} {x3 : Stop} (h : Tidy s₀ s) : Tidy s₀ (s.goesOn n g x3) := by
  unfold State.goesOn
  split
  · exact h.request
  · exact h

theorem Tidy.accStatus {code : Nat} (h : Tidy s₀ s) : Tidy s₀ (s.accStatus code).2 := by
  unfold State.accStatus
  split
  · exact h
  · split
    · exact h
    · exact h.used.asSnd

theorem Tidy.cipherRead_ok {n : Nat} {g : Agent} {got : List PWord} {a k counted : Nat} {x : CipherIn} {t : State}
    (h : Tidy s₀ s) (e : s.cipherRead n g got a k counted = .ok (t, x)) : Tidy s₀ t := by
  unfold State.cipherRead at e
  split at e
  case h_1 => cases e
  case h_2 r =>
    cases e
    exact h.engTake.fst r
  case h_3 r =>
    cases e
    exact h.engTake.fst r

theorem Tidy.cipherRead_error {n : Nat} {g : Agent} {got l : List PWord} {a k counted : Nat} {p : Place} {t : State}
    (h : Tidy s₀ s) (e : s.cipherRead n g got a k counted = .error (p, t, l)) : Tidy s₀ t := by
  unfold State.cipherRead at e
  split at e
  case h_1 r =>
    cases e
    exact h.engTake.fst r
  case h_2 => cases e
  case h_3 => cases e

theorem Tidy.cipherWrite {n : Nat} {o : EngOp} {words : Nat} {x : EngOut} (h : Tidy s₀ s) :
    Tidy s₀ (s.cipherWrite n o words x) := by
  unfold State.cipherWrite
  extract_lets
  split
  · split
    rename_i t e
    exact (h.engWrite.accStatus.snd e).endOp
  · exact .ite h.engWrite.endOp h.engWrite.setOp.goesOn

theorem Tidy.inputFails {n : Nat} {o : EngOp} {st : Nat} (h : Tidy s₀ s) : Tidy s₀ (s.inputFails n o st) := by
  unfold State.inputFails
  split
  · exact h.endZero
  · exact h.used.endZero

theorem Tidy.keepsRead {n : Nat} {o : EngOp} {got : List PWord} {p : Place} (h : Tidy s₀ s) :
    Tidy s₀ (s.keepsRead n o got p) :=
  h.setOp.goesOn

theorem Tidy.cipherWith {n : Nat} {o : EngOp} {past got : List PWord} {runs : List (Nat × Nat × Nat)}
    {l : List (List Nat)} {body : State → List (List Nat) → KeyGen → State} (h : Tidy s₀ s)
    (hbody : ∀ t l g, Tidy s₀ t → Tidy s₀ (body t l g)) : Tidy s₀ (s.cipherWith n o past got runs l body) := by
  induction runs generalizing s past got l with
  | nil =>
    unfold State.cipherWith
    split
    · exact h.endZero
    · exact hbody _ _ _ h
  | cons x runs ih =>
    unfold State.cipherWith
    split
    · next e => exact (h.cipherRead_error e).keepsRead
    · next e =>
      split
      · exact (h.cipherRead_ok e).inputFails
      · exact ih (h.cipherRead_ok e)

theorem Tidy.gcmSeal {n : Nat} {o : EngOp} {words : Nat} (h : Tidy s₀ s) : Tidy s₀ (s.gcmSeal n o words) := by
  unfold State.gcmSeal
  refine h.cipherWith fun _ _ _ ht => ?_
  split
  · rename_i u e1
    have hu := ht.invoke.snd e1
    extract_lets
    split
    exact hu.cipherWrite
  · rename_i v _ e2
    exact (ht.invoke.snd e2).endZero

theorem Tidy.gcmOpen {n : Nat} {o : EngOp} {words : Nat} (h : Tidy s₀ s) : Tidy s₀ (s.gcmOpen n o words) :=
  h.cipherWith fun _ _ _ ht => ht.cipherWrite

theorem Tidy.hmacOp {n : Nat} {o : EngOp} {words : Nat} (h : Tidy s₀ s) : Tidy s₀ (s.hmacOp n o words) := by
  unfold State.hmacOp
  refine h.cipherWith fun _ _ _ ht => ?_
  split
  · rename_i u e1
    exact (ht.invoke.snd e1).cipherWrite
  · rename_i v _ e2
    exact (ht.invoke.snd e2).endZero

theorem Tidy.cipherOp {n tag op : Nat} {upset : Bool} {words : Nat} (h : Tidy s₀ s) :
    Tidy s₀ (s.cipherOp n tag op upset words) := by
  unfold State.cipherOp
  refine .ite h.endZero ?_
  refine h.engineRow (fun _ _ _ _ ht => ht.endZero) fun _ _ hu => ?_
  split
  · exact hu.cipherWrite
  · exact .ite hu.endZero (.ite hu.gcmSeal (.ite hu.gcmOpen hu.hmacOp))

theorem Tidy.copyRun {n : Nat} {g : Agent} {a b k : Nat} (h : Tidy s₀ s) : Tidy s₀ (s.copyRun n g a b k).1 := by
  induction k generalizing s a b with
  | zero => exact h
  | succ k ih =>
    unfold State.copyRun
    split
    · exact h
    · next e => exact h.loadWord.bad e
    · next e =>
      have h1 := h.loadWord.ok e
      split
      · exact h1
      · next e => exact h1.storeWord.bad e
      · next e => exact ih (h1.storeWord.ok e)

theorem Tidy.endWords {n : Nat} {o : EngOp} {r : State × Nat × Stop} (h : Tidy s₀ r.1) :
    Tidy s₀ (State.endWords n o r) := by
  unfold State.endWords
  split
  · exact h.accStatus.endOp
  · exact .ite h.endOp h.setOp.goesOn

theorem execDmaCopy_answers {n : Nat} {tag : Fin 64} {upset : Bool} {words : Nat} (h : Tidy s₀ s) :
    Answers s₀ (execDmaCopy n tag upset words s) := by
  unfold execDmaCopy
  exact .next (h.engineRow (fun _ _ _ _ ht => ht.endZero) fun _ _ hu => .ite hu.endZero hu.copyRun.endWords)

theorem execDmaFill_answers {n : Nat} {tag : Fin 64} {upset : Bool} {words : Nat} (h : Tidy s₀ s) :
    Answers s₀ (execDmaFill n tag upset words s) := by
  unfold execDmaFill
  refine .next ?_
  exact h.engineRow (fun _ _ _ _ ht => ht.endZero) fun _ _ hu => .ite hu.endZero hu.engWrite.endWords

theorem execDmaPktNew_answers {n : Nat} {tag : Fin 64} {upset : Bool} (h : Tidy s₀ s) :
    Answers s₀ (execDmaPktNew n tag upset s) := by
  unfold execDmaPktNew
  refine .next ?_
  refine h.engineRow (fun _ _ _ _ ht => ht.endNone) fun _ _ hu => ?_
  extract_lets
  refine .ite hu.endNone (.ite hu.used.endNone ?_)
  split
  rename_i v e
  exact (hu.newPacket.snd e).endOp

theorem Tidy.sendPacket {q d : Nat} {p : Packet} (h : Tidy s₀ s) : Tidy s₀ (s.sendPacket q d p) :=
  h.setPacket.setQueue.countQueue.seeEgress

theorem execDmaPktSend_answers {n : Nat} {tag : Fin 64} {upset : Bool} (h : Tidy s₀ s) :
    Answers s₀ (execDmaPktSend n tag upset s) := by
  unfold execDmaPktSend
  refine .next ?_
  refine h.engineRow (fun _ _ _ _ ht => ht.endZero) fun _ _ hu => ?_
  split
  · exact hu.endZero
  · refine .ite hu.endZero ?_
    split
    · exact hu.used.endZero
    · exact .ite hu.endZero (.ite hu (.ite hu.endZero hu.sendPacket.endOp))

theorem execDmaPktRecv_answers {n : Nat} {tag : Fin 64} {upset : Bool} (h : Tidy s₀ s) :
    Answers s₀ (execDmaPktRecv n tag upset s) := by
  unfold execDmaPktRecv
  refine .next ?_
  refine h.engineRow (fun _ _ _ _ ht => ht.endNone) fun _ _ hu => ?_
  extract_lets
  split
  · exact .ite hu hu.endNone
  · extract_lets s1
    have h1 : Tidy s₀ s1 := hu.same
    split
    · exact h1.endNone
    · exact h1.setPacket.endOp

theorem execDmaPktFree_answers {n : Nat} {tag : Fin 64} {upset : Bool} (h : Tidy s₀ s) :
    Answers s₀ (execDmaPktFree n tag upset s) := by
  unfold execDmaPktFree
  refine .next ?_
  refine h.engineRow (fun _ _ _ _ ht => ht.endZero) fun _ _ hu => ?_
  split
  · exact hu.used.endZero
  · exact .ite hu hu.freePacket.endOp

theorem execMonitorInjectOp_answers {n : Nat} {tag : Fin 64} {upset : Bool} (h : Tidy s₀ s) :
    Answers s₀ (execMonitorInjectOp n tag upset s) := by
  unfold execMonitorInjectOp
  extract_lets
  refine .next (.ite h ?_)
  refine h.engineRow (fun _ _ _ _ ht => ht.endNone) fun _ _ hu => ?_
  extract_lets
  refine .ite hu.endNone (.ite hu.endNone ?_)
  split
  · exact .ite hu hu.acceptInj
  · exact (Tidy.ite hu.count hu).endNone

theorem execMonitorCalOp_answers {n : Nat} {tag : Fin 64} {upset : Bool} (h : Tidy s₀ s) :
    Answers s₀ (execMonitorCalOp n tag upset s) := by
  unfold execMonitorCalOp
  extract_lets
  refine .next (.ite h ?_)
  refine h.engineRow
    (fun _ _ _ _ ht => ht.endNone) fun _ _ hu => .ite hu.endNone (.ite hu.endNone (.ite hu.endNone hu.requestCal))

theorem Tidy.holdMap {n frame : Nat} {late : Bool} {w : Nat} {st : List Nat} {x : Committed} (h : Tidy s₀ s) :
    Tidy s₀ (s.holdMap n frame late w st x).1 := by
  unfold State.holdMap
  extract_lets
  split
  · exact h
  · exact h.setChan.asFst

theorem Tidy.commitMap_ok {n frame w : Nat} {g : Agent} {late : Bool} {got : List PWord} {x y : Committed}
    {t : State} (h : Tidy s₀ s) (e : s.commitMap n g frame late got w x = .ok (t, y)) : Tidy s₀ t := by
  unfold State.commitMap at e
  split at e
  · exact h.holdMap.fst (Except.ok.inj e)
  · split at e
    · exact h.holdMap.fst (Except.ok.inj e)
    · split at e
      case h_1 => cases e
      case h_2 r =>
        have h1 := h.engTake.fst r
        extract_lets at e
        split at e
        · exact h1.holdMap.fst (Except.ok.inj e)
        · split at e
          case h_1 => cases e
          case h_2 r =>
            have h2 := h1.engTake.fst r
            extract_lets at e
            split at e
            · exact h2.setChan.asFst.fst (Except.ok.inj e)
            · exact h2.holdMap.fst (Except.ok.inj e)

theorem Tidy.commitMap_error {n frame w : Nat} {g : Agent} {late : Bool} {got l : List PWord} {x : Committed}
    {p : Place} {t : State} (h : Tidy s₀ s) (e : s.commitMap n g frame late got w x = .error (p, t, l)) :
    Tidy s₀ t := by
  unfold State.commitMap at e
  split at e
  · cases e
  · split at e
    · cases e
    · split at e
      case h_1 r =>
        cases e
        exact h.engTake.fst r
      case h_2 r =>
        extract_lets at e
        split at e
        · cases e
        · split at e
          case h_1 r' =>
            cases e
            exact (h.engTake.fst r).engTake.fst r'
          case h_2 =>
            extract_lets at e
            split at e
            · cases e
            · cases e

theorem Tidy.commitMaps_ok {n frame : Nat} {g : Agent} {late : Bool} {got : List PWord} {ws : List Nat}
    {x y : Committed} {t : State} (h : Tidy s₀ s) (e : s.commitMaps n g frame late got ws x = .ok (t, y)) :
    Tidy s₀ t := by
  induction ws generalizing s x with
  | nil =>
    cases e
    exact h
  | cons w ws ih =>
    unfold State.commitMaps at e
    split at e
    · cases e
    · next r => exact ih (h.commitMap_ok r) e

theorem Tidy.commitMaps_error {n frame : Nat} {g : Agent} {late : Bool} {got l : List PWord} {ws : List Nat}
    {x : Committed} {p : Place} {t : State} (h : Tidy s₀ s)
    (e : s.commitMaps n g frame late got ws x = .error (p, t, l)) : Tidy s₀ t := by
  induction ws generalizing s x with
  | nil => cases e
  | cons w ws ih =>
    unfold State.commitMaps at e
    split at e
    · next r =>
      cases e
      exact h.commitMap_error r
    · next r => exact ih (h.commitMap_ok r) e

theorem execGrantMapCommit_answers {n : Nat} {tag : Fin 64} {upset : Bool} (h : Tidy s₀ s) :
    Answers s₀ (execGrantMapCommit n tag upset s) := by
  unfold execGrantMapCommit
  extract_lets
  refine .next ?_
  refine h.engineRow (fun _ _ _ _ ht => ht.endZero) fun _ _ hu => ?_
  extract_lets
  refine .ite hu.endZero (.ite hu.endZero ?_)
  split
  · rename_i v _ e1
    exact (hu.commitMaps_error e1).keepsRead
  · rename_i w _ e2
    exact (hu.commitMaps_ok e2).endOp

theorem Tidy.snapRun {n : Nat} {g : Agent} {x a k : Nat} (h : Tidy s₀ s) : Tidy s₀ (s.snapRun n g x a k).1 := by
  induction k generalizing s x a with
  | zero => exact h
  | succ k ih =>
    unfold State.snapRun
    extract_lets r
    split
    · exact h
    · next e => exact h.snapshot.engWrite.fst e
    · next e => exact ih (h.snapshot.engWrite.fst e)

theorem execCounterSnap_answers {n : Nat} {tag : Fin 64} {upset : Bool} {words : Nat} (h : Tidy s₀ s) :
    Answers s₀ (execCounterSnap n tag upset words s) := by
  unfold execCounterSnap
  refine .next ?_
  refine h.engineRow (fun _ _ _ _ ht => ht.endNone) fun _ _ hu => ?_
  extract_lets
  refine .ite hu.endNone (.ite hu.endNone ?_)
  split
  · split
    rename_i v e
    exact (hu.snapRun.accStatus.snd e).endCount
  · exact .ite hu.snapRun.endCount hu.snapRun.setOp.goesOn

theorem execCounterAdd_answers {n : Nat} {tag : Fin 64} {upset : Bool} (h : Tidy s₀ s) :
    Answers s₀ (execCounterAdd n tag upset s) :=
  .next (h.engineRow (fun _ _ _ _ ht => ht.endNone) fun _ _ hu => .ite hu.addCnt.endOpen hu.endNone)

theorem Tidy.engineGoesOn {n : Nat} {o : EngOp} (h : Tidy s₀ s) : Tidy s₀ (s.engineGoesOn n o) := by
  unfold State.engineGoesOn
  extract_lets t all r
  have hr : Answers s₀ r := by
    unfold r
    split
    · exact h.cipherOp.answers
    · exact execDmaCopy_answers h
    · exact execDmaFill_answers h
    · exact execGrantMapCommit_answers h
    · exact execCounterSnap_answers h
    · exact h.answers
  obtain ⟨u, e, hu⟩ := hr
  rw [e]
  exact hu

/-! ### Arithmetic instructions -/

theorem tidy_aluBody {n d : Nat} {x y : CoreSt → PWord} {f : AluOp} {usesC : Bool} {next : Nat} (h : Tidy s₀ s) :
    TidyRun s₀ (aluBody n d x y f usesC next s) :=
  h.setCore

/-! ### Control instructions -/

theorem Tidy.branchTo {n target : Nat} (h : Tidy s₀ s) : TidyRun s₀ (s.branchTo n target) := h.branched

theorem tidy_brBody {n : Nat} {c : Cond} {disp : BitVec 18} {next : Nat} (h : Tidy s₀ s) :
    TidyRun s₀ (brBody n c disp next s) := by
  unfold brBody
  extract_lets
  split <;> exact .ite h (.ite h.branchTo h)

theorem tidy_bdecBody {n : Nat} {a : HReg} {disp : BitVec 18} {next : Nat} (h : Tidy s₀ s) :
    TidyRun s₀ (bdecBody n a disp next s) :=
  .ite h (.ite h.setCore.branchTo h.setCore)

theorem execBr_answers {n : Nat} {c : Cond} {disp : BitVec 18} (h : Tidy s₀ s) : Answers s₀ (execBr n c disp s) :=
  .next (h.hergil fun _ _ ht => tidy_brBody ht)

theorem execJmp_answers {n : Nat} {disp : BitVec 24} (h : Tidy s₀ s) : Answers s₀ (execJmp n disp s) :=
  .next (h.hergil fun _ _ ht => ht.branchTo)

theorem execCall_answers {n : Nat} {d : HReg} {disp : BitVec 24} (h : Tidy s₀ s) : Answers s₀ (execCall n d disp s) :=
  .next (h.hergil fun _ _ ht => ht.setCore.branchTo)

theorem tidy_jrBody {n : Nat} {d a : HReg} {next : Nat} (h : Tidy s₀ s) : TidyRun s₀ (jrBody n d a next s) :=
  .ite h h.setCore.branched

theorem execJr_answers {n : Nat} {d a : HReg} (h : Tidy s₀ s) : Answers s₀ (execJr n d a s) :=
  .next (h.hergil fun _ _ ht => tidy_jrBody ht)

theorem execBdec_answers {n : Nat} {a : HReg} {disp : BitVec 18} (h : Tidy s₀ s) : Answers s₀ (execBdec n a disp s) :=
  .next (h.hergil fun _ _ ht => tidy_bdecBody ht)

theorem tidy_waitpBody {n : Nat} {p : HPair} {next : Nat} (h : Tidy s₀ s) : TidyRun s₀ (waitpBody n p next s) := by
  unfold waitpBody
  extract_lets
  split
  · exact h
  · exact h
  · exact .ite h.setCore h

theorem execWaitp_answers {n : Nat} {p : HPair} (h : Tidy s₀ s) : Answers s₀ (execWaitp n p s) :=
  .next (h.hergil fun _ _ ht => tidy_waitpBody ht)

theorem execWaitpLpReached_answers {n : Nat} (h : Tidy s₀ s) : Answers s₀ (execWaitpLpReached n s) := by
  unfold execWaitpLpReached
  refine .next ?_
  split
  · split
    · exact .ite (TidyRun.settle h.setCore) h
    · exact h
  · exact h

theorem tidy_lpaddBody {n : Nat} {d p : HPair} {t : HReg} {next : Nat} (h : Tidy s₀ s) :
    TidyRun s₀ (lpaddBody n d p t next s) := by
  unfold lpaddBody
  extract_lets
  split
  extract_lets
  split
  · exact h
  · exact .ite h h.setCore

theorem execLpadd_answers {n : Nat} {d p : HPair} {t : HReg} (h : Tidy s₀ s) : Answers s₀ (execLpadd n d p t s) :=
  .next (h.hergil fun _ _ hu => tidy_lpaddBody hu)

theorem Tidy.loadWords {n a k : Nat} (h : Tidy s₀ s) : TidyAcc s₀ (s.loadWords n a k) := by
  induction k generalizing s a with
  | zero => exact h
  | succ k ih => exact h.loadWord.andThen fun _ _ ht => (ih ht).andThen fun _ _ hu => hu

theorem Tidy.readDesc {n a : Nat} (h : Tidy s₀ s) : TidyAcc s₀ (s.readDesc n a) := by
  unfold State.readDesc
  refine h.loadWord.andThen fun _ _ ht => ?_
  refine .ite ht ?_
  split
  · exact ht
  · exact ht.loadWords.andThen fun _ _ hu => .ite hu hu

theorem Tidy.arm {n : Nat} {d : HReg} {slot : Nat} {x : AtSlot} {next : Nat} (h : Tidy s₀ s) :
    TidyRun s₀ (s.arm n d slot x next) :=
  Tidy.ite h.setCore.count h.setCore

theorem Tidy.armChecked {n : Nat} {d : HReg} {x : AtSlot} {next : Nat} (h : Tidy s₀ s) :
    TidyRun s₀ (s.armChecked n d x next) := by
  unfold State.armChecked
  refine .ite h ?_
  split
  · exact h
  · exact h.arm

theorem tidy_atBody {n : Nat} {d : HReg} {p : HPair} {t : HReg} {next : Nat} (h : Tidy s₀ s) :
    TidyRun s₀ (atBody n d p t next s) := by
  unfold atBody
  extract_lets
  split
  refine .ite h ?_
  split
  · exact h
  · split
    · rename_i t1 _ e1
      exact h.loadWords.bad e1
    · exact h
    · rename_i t2 _ e2
      have ht2 := h.loadWords.ok e2
      extract_lets
      refine .ite ht2 (.ite ht2 ?_)
      refine .ite ?_ ht2.armChecked
      split
      · rename_i t3 _ e3
        exact ht2.readDesc.bad e3
      · exact ht2
      · rename_i t4 _ e4
        exact (ht2.readDesc.ok e4).armChecked

theorem execAtArm_answers {n : Nat} {d : HReg} {p : HPair} {t : HReg} (h : Tidy s₀ s) :
    Answers s₀ (execAtArm n d p t s) :=
  .next (h.hergil fun _ _ hu => tidy_atBody hu)

theorem tidy_atcanBody {n : Nat} {d a : HReg} {next : Nat} (h : Tidy s₀ s) : TidyRun s₀ (atcanBody n d a next s) := by
  unfold atcanBody
  extract_lets
  refine .ite h (.ite h ?_)
  split
  · exact h.setCore
  · exact .ite h.setCore h.setCore

theorem execAtcan_answers {n : Nat} {d a : HReg} (h : Tidy s₀ s) : Answers s₀ (execAtcan n d a s) :=
  .next (h.hergil fun _ _ ht => tidy_atcanBody ht)

theorem Tidy.atErr {n slot addr : Nat} (h : Tidy s₀ s) : Tidy s₀ (s.atErr n slot addr) := h.count.occur

theorem Tidy.fired {n slot : Nat} (h : Tidy s₀ s) : Tidy s₀ (s.fired n slot) := h.setCore

theorem execAtTimedStore_answers {n : Nat} {slot : Fin 16} {upset : Bool} (h : Tidy s₀ s) :
    Answers s₀ (execAtTimedStore n slot upset s) := by
  unfold execAtTimedStore
  extract_lets s1
  have h1 : Tidy s₀ s1 := h.fired
  refine .next ?_
  split
  · exact h
  · extract_lets
    refine .ite h1.noteUpset.atErr ?_
    split
    · exact h1.request
    · rename_i t _ e1
      exact (h1.storeWord.bad e1).atErr
    · rename_i u _ e2
      exact h1.storeWord.ok e2

theorem Tidy.slotUpset {n slot : Nat} {x : AtSlot} (h : Tidy s₀ s) : Tidy s₀ (s.slotUpset n slot x) := by
  unfold State.slotUpset
  exact h.used.fired.noteUpset.postEntry

theorem Tidy.accept {n : Nat} {o : EngOp} (h : Tidy s₀ s) : Tidy s₀ (s.accept n o) := h.setOps

theorem execAtTimedIssue_answers {n : Nat} {slot : Fin 16} {upset : Bool} (h : Tidy s₀ s) :
    Answers s₀ (execAtTimedIssue n slot upset s) := by
  unfold execAtTimedIssue
  refine .next ?_
  split
  · exact h
  · exact .ite h.slotUpset h.fired.accept

theorem execAtSignal_answers {n : Nat} {slot : Fin 16} {upset : Bool} (h : Tidy s₀ s) :
    Answers s₀ (execAtSignal n slot upset s) := by
  unfold execAtSignal
  refine .next ?_
  split
  · exact h
  · exact .ite h.slotUpset h.fired.postEntry

theorem Tidy.postOp {n tag : Nat} {desc : List PWord} {iw : Word} {ea : Nat} {room : Bool} {next : Nat}
    (h : Tidy s₀ s) : TidyRun s₀ (s.postOp n tag desc iw ea room next) :=
  .ite h.setCore.accept h.setCore

theorem tidy_issueBody {n : Nat} {a : HReg} {tag : TagSrc} {room : Bool} {next : Nat} (h : Tidy s₀ s) :
    TidyRun s₀ (issueBody n a tag room next s) := by
  unfold issueBody
  extract_lets
  refine .ite h (.ite h (.ite h ?_))
  split
  · rename_i t _ e1
    exact h.readDesc.bad e1
  · exact h
  · rename_i u _ e2
    exact (h.readDesc.ok e2).postOp

theorem execIssue_answers {n : Nat} {a : HReg} {tag : TagSrc} {room : Bool} (h : Tidy s₀ s) :
    Answers s₀ (execIssue n a tag room s) :=
  .next (h.hergil fun _ _ ht => tidy_issueBody ht)

theorem execEngineAccept_answers {n : Nat} (h : Tidy s₀ s) : Answers s₀ (execEngineAccept n s) := by
  unfold execEngineAccept
  extract_lets
  refine .next ?_
  split
  · exact .ite h (TidyRun.settle h.postOp)
  · exact h

theorem Tidy.takeEntry {n : Nat} {d : HPair} {e : RingEnt} {upset : Bool} {next : Nat} (h : Tidy s₀ s) :
    TidyRun s₀ (s.takeEntry n d e upset next) :=
  h.noteUpset.setCore

theorem Tidy.waitFree {n : Nat} {d : HPair} {tag next : Nat} (h : Tidy s₀ s) : TidyRun s₀ (s.waitFree n d tag next) :=
  h.setCore.count

theorem tidy_waittBody {n : Nat} {d : HPair} {tag : TagSrc} {upset : Bool} {next : Nat} (h : Tidy s₀ s) :
    TidyRun s₀ (waittBody n d tag upset next s) := by
  unfold waittBody
  extract_lets
  refine .ite h (.ite h.waitFree ?_)
  split
  · exact h.takeEntry
  · exact h

theorem tidy_waitaBody {n : Nat} {d : HPair} {upset : Bool} {next : Nat} (h : Tidy s₀ s) :
    TidyRun s₀ (waitaBody n d upset next s) := by
  unfold waitaBody
  extract_lets
  split
  · exact h.takeEntry
  · exact .ite h.waitFree h

theorem tidy_cpopBody {n : Nat} {d : HPair} {upset : Bool} {next : Nat} (h : Tidy s₀ s) :
    TidyRun s₀ (cpopBody n d upset next s) := by
  unfold cpopBody
  extract_lets
  split
  · exact h.takeEntry
  · exact h.setCore

theorem execWaitt_answers {n : Nat} {d : HPair} {tag : TagSrc} {upset : Bool} (h : Tidy s₀ s) :
    Answers s₀ (execWaitt n d tag upset s) :=
  .next (h.hergil fun _ _ ht => tidy_waittBody ht)

theorem execWaita_answers {n : Nat} {d : HPair} {upset : Bool} (h : Tidy s₀ s) : Answers s₀ (execWaita n d upset s) :=
  .next (h.hergil fun _ _ ht => tidy_waitaBody ht)

theorem execCpop_answers {n : Nat} {d : HPair} {upset : Bool} (h : Tidy s₀ s) : Answers s₀ (execCpop n d upset s) :=
  .next (h.hergil fun _ _ ht => tidy_cpopBody ht)

theorem execCompletionAwaitedPosted_answers {n : Nat} {upset : Bool} (h : Tidy s₀ s) :
    Answers s₀ (execCompletionAwaitedPosted n upset s) := by
  unfold execCompletionAwaitedPosted
  extract_lets
  refine .next ?_
  split
  · split
    · exact TidyRun.settle h.takeEntry
    · exact h
  · split
    · exact TidyRun.settle h.takeEntry
    · exact h
  · exact h

theorem tidy_fenceBody {n next : Nat} (h : Tidy s₀ s) : TidyRun s₀ (fenceBody n next s) := .ite h h

theorem execFence_answers {n : Nat} (h : Tidy s₀ s) : Answers s₀ (execFence n s) :=
  .next (h.hergil fun _ _ ht => tidy_fenceBody ht)

theorem execPclr_answers {n : Nat} {d a : HReg} (h : Tidy s₀ s) : Answers s₀ (execPclr n d a s) :=
  .next (h.hergil fun _ _ ht => ht.setCore.count)

theorem execIllegalInstruction_answers {n : Nat} (h : Tidy s₀ s) : Answers s₀ (execIllegalInstruction n s) := by
  unfold execIllegalInstruction
  refine .next (.ite h ?_)
  split
  · rename_i t e1
    exact (h.fetch.illegal e1).raiseExc
  · rename_i u _ e2
    exact (h.fetch.bad e2).raiseExc
  · exact h

/-! ### The matrix -/

theorem Tidy.stageTo {r : MtxReq} {st : ReqStage} (h : Tidy s₀ s) : Tidy s₀ (s.stageTo r st) := h.same

theorem execMatrixAdmit_answers {n : Nat} {room : Bool} (h : Tidy s₀ s) : Answers s₀ (execMatrixAdmit n room s) := by
  unfold execMatrixAdmit
  refine .next ?_
  split
  · exact h
  · exact .ite h.same (.ite h.stageTo.count h)

theorem execMatrixGrant_answers {target : Nat} (h : Tidy s₀ s) : Answers s₀ (execMatrixGrant target s) := by
  unfold execMatrixGrant
  refine .next ?_
  split
  · exact h
  · exact .ite h.stageTo.same (.ite h.stageTo.same.count h.stageTo.same)

/-- The body of an instruction that waits. -/
theorem tidy_waitBody {i : Instr} {body : Nat → State → Run} {next : Nat} (h : Tidy s₀ s)
    (e : waitBody i = some body) : TidyRun s₀ (body next s) := by
  unfold waitBody at e
  split at e
  · cases e
    exact tidy_ldBody h
  · cases e
    exact tidy_stBody h
  · cases e
    exact tidy_ldpBody h
  · cases e
    exact tidy_stpBody h
  · cases e
    exact tidy_atomicBody h
  · cases e
    exact tidy_atomicBody h
  · cases e
    exact tidy_atBody h
  · cases e
    exact tidy_issueBody h
  · cases e
    exact tidy_fenceBody h
  · cases e

theorem Tidy.resume {n : Nat} (h : Tidy s₀ s) : Tidy s₀ (s.resume n) := by
  unfold State.resume
  split
  · exact h
  · split
    · exact h
    · next body e => exact (tidy_waitBody h e).settle

theorem Tidy.stir {n : Nat} (h : Tidy s₀ s) : Tidy s₀ (s.stir n) := by
  unfold State.stir
  split
  · exact h.resume
  · exact .ite h.resume h
  · exact h

theorem Tidy.timedAnswer {r : MtxReq} {slot addr le : Nat} {v : PWord} (h : Tidy s₀ s) :
    Tidy s₀ (s.timedAnswer r slot addr le v) := by
  unfold State.timedAnswer
  split
  · exact h.atErr
  · split
    · exact h.decErr.atErr
    · split
      · rename_i t e
        exact h.writePlace e
      · exact h.atErr

theorem Tidy.postedAnswer {r : MtxReq} {le : Nat} {v : PWord} (h : Tidy s₀ s) : Tidy s₀ (s.postedAnswer r le v) := by
  unfold State.postedAnswer
  split
  · exact h.decErr
  · exact h.memWrite

theorem Tidy.rowAnswer {r : MtxReq} {u : Nat} (h : Tidy s₀ s) : Tidy s₀ (s.rowAnswer r u) := by
  unfold State.rowAnswer
  extract_lets
  split
  · exact h.decErr
  · exact h.busWrite
  · exact h.busRead

theorem Tidy.withReg {a : Nat} {w : Word} {f : State → State} (h : Tidy s₀ s) (hf : ∀ t, Tidy s₀ t → Tidy s₀ (f t)) :
    Tidy s₀ (s.withReg a w f) :=
  .ite (hf _ h.setReg).setReg (hf _ h.setReg)

theorem Tidy.withoutPend {n w : Nat} {f : State → State} (h : Tidy s₀ s) (hf : ∀ t, Tidy s₀ t → Tidy s₀ (f t)) :
    Tidy s₀ (s.withoutPend n w f) :=
  .ite (hf _ h) (.ite (hf _ h.setCore) (hf _ h.setCore).setCore)

theorem Tidy.asIssued {r : MtxReq} {f : State → State} (h : Tidy s₀ s) (hf : ∀ t, Tidy s₀ t → Tidy s₀ (f t)) :
    Tidy s₀ (s.asIssued r f) := by
  unfold State.asIssued
  extract_lets
  split
  · refine .ite (.ite (h.withReg fun _ ht1 => hf _ ht1) (hf _ h)) ?_
    refine h.withoutPend fun _ ht2 => ht2.withReg fun _ ht3 => .ite (ht3.withReg fun _ ht4 => hf _ ht4) (hf _ ht3)
  · exact .ite (h.withReg fun _ ht5 => hf _ ht5) (hf _ h)

theorem Tidy.answer {r : MtxReq} (h : Tidy s₀ s) : Tidy s₀ (s.answer r) := by
  unfold State.answer
  split
  · exact h.resume
  · exact h.postedAnswer.stir
  · exact h.timedAnswer.stir
  · exact h
  · split
    · exact h.engineGoesOn
    · exact h
  · exact h.linkGoesOn
  · exact h.rowAnswer

theorem Tidy.respond {r : MtxReq} (h : Tidy s₀ s) : Tidy s₀ (s.respond r) := h.asIssued (fun _ ht => ht.answer)

theorem execMatrixResponse_answers {n : Nat} (h : Tidy s₀ s) : Answers s₀ (execMatrixResponse n s) := by
  unfold execMatrixResponse
  refine .next ?_
  split
  · exact h
  · exact h.stageTo.respond.same

end Sys2Proof.Machine
end

section
/-! PROOF. Every command and the step keep the canonical form (O59). -/

namespace Sys2Proof.Machine

open Reg Ev

variable {s₀ s : State}

/-! ### Every command -/

/-- Every command leaves a next state, with the queue and the canonical form it was given. -/
theorem exec_answers {i : Instr} (h : Tidy s₀ s) : Answers s₀ (exec i s) := by
  unfold exec
  cases i with
  | ptpSyncReceived => exact execPtpSyncReceived_answers h
  | ptpAnnounceReceived | ppsOutputEdge | svcEqmRecovered | svcPacketSelect | bootReadStatus | bootBadOperation =>
    exact .next (.ite h.same h)
  | ppsInputEdge => exact execPpsInputEdge_answers h
  | refQualifyLoss => exact execRefQualifyLoss_answers h
  | refQualifyGain => exact execRefQualifyGain_answers h
  | ocxoWarm => exact execOcxoWarm_answers h
  | timeCtlWrite | timeServoWrite | coreRemapWrite | lineTxPowerWrite | lineTxTestWrite | lineRxCtlWrite
  | lineRxTestWrite | chDsPowerWrite | dsmSet | monSeqCtlWrite | coreSmpAckWrite | wdogArm | wdogKick =>
    exact h.portWrite.answers
  | timeLpARead | tsqE0Read | lineRxQstatRead | chQstatRead | treeBevE0Read | treeRptRead | cntCountWordRead =>
    exact h.portRead.answers
  | timeRestep | timeTod | timeRead | rtcSet | coreLoad | coreStartCmd | coreHaltCmd | imgStore | svcNop | svcRecall
  | svcLoop | regRead | regWrite | memRead | memWrite | pwrMode | pwrReset | pwrRead | keyErase | keyZeroise
  | lineRate | lineTrace | treeReflect | treeDiscover | treeActivate | treeDeactivate | monInject | monSeq
  | calStart | cntRead | fwdBind | fwdUnbind =>
    exact .next (h.intakeWith fun _ _ ht => ht.perform)
  | restepTakesEffect => exact execRestepTakesEffect_answers h
  | ppsOutputWidthEnd => exact execPpsOutputWidthEnd_answers h
  | rtcSync => exact execRtcSync_answers h
  | rtcTrim => exact execRtcTrim_answers h
  | rtcXtalFail => exact execRtcXtalFail_answers h
  | twoStepStamp => exact execTwoStepStamp_answers h
  | memZeroDone => exact execMemZeroDone_answers h
  | matrixAdmit => exact execMatrixAdmit_answers h
  | matrixGrant => exact execMatrixGrant_answers h
  | matrixResponse => exact execMatrixResponse_answers h
  | windowOpen | windowClose | coreHaltWrite | coreStartWrite | coreSrst | cancLoad | cancDrop | grmRawWrite
  | grmRawRead | registerWrite =>
    exact .next (.ite h.portWrite h)
  | windowOpenResolved => exact execWindowOpenResolved_answers h
  | coreStartAtLp => exact execCoreStartAtLp_answers h
  | imageVerifyDone => exact execImageVerifyDone_answers h
  | imageCopyDone => exact execImageCopyDone_answers h
  | scoreBoot => exact execScoreBoot_answers h
  | imgStoreDone => exact execImgStoreDone_answers h
  | add | sub | adc | sbc | and | or | xor | andn | shl | shr | sar | rol | shli | shri | sari | roli | mul | mulhu
  | mulhs | min | minu | max | maxu | cmp | tst | mov | bfx | pop | clz | addi | andi | ori | xori | cmpi | lui =>
    exact .next (h.hergil fun _ _ ht => tidy_aluBody ht)
  | li | rdlp | halt | rdf | wrf | pchk | rdcyc =>
    exact .next (h.hergil fun _ _ ht => ht.setCore)
  | ld => exact execLd_answers h
  | st => exact execSt_answers h
  | ldp => exact execLdp_answers h
  | stp => exact execStp_answers h
  | aadd => exact execAadd_answers h
  | aswp => exact execAswp_answers h
  | br => exact execBr_answers h
  | jmp => exact execJmp_answers h
  | call => exact execCall_answers h
  | jr => exact execJr_answers h
  | bdec => exact execBdec_answers h
  | atArm => exact execAtArm_answers h
  | atcan => exact execAtcan_answers h
  | waitp => exact execWaitp_answers h
  | waitpLpReached => exact execWaitpLpReached_answers h
  | lpadd => exact execLpadd_answers h
  | issue => exact execIssue_answers h
  | engineAccept => exact execEngineAccept_answers h
  | waitt => exact execWaitt_answers h
  | waita => exact execWaita_answers h
  | cpop => exact execCpop_answers h
  | completionAwaitedPosted => exact execCompletionAwaitedPosted_answers h
  | nop | brk | smark =>
    exact .next (h.hergil fun _ _ ht => ht)
  | fence => exact execFence_answers h
  | pclr => exact execPclr_answers h
  | atTimedStore => exact execAtTimedStore_answers h
  | atTimedIssue => exact execAtTimedIssue_answers h
  | atSignal => exact execAtSignal_answers h
  | cipherGcmEncrypt | cipherGcmDecrypt | cipherHmac =>
    exact h.cipherOp.answers
  | dmaCopy => exact execDmaCopy_answers h
  | dmaFill => exact execDmaFill_answers h
  | dmaPktNew => exact execDmaPktNew_answers h
  | dmaPktSend => exact execDmaPktSend_answers h
  | dmaPktRecv => exact execDmaPktRecv_answers h
  | dmaPktFree => exact execDmaPktFree_answers h
  | monitorInjectOp => exact execMonitorInjectOp_answers h
  | monitorCalOp => exact execMonitorCalOp_answers h
  | grantMapCommit => exact execGrantMapCommit_answers h
  | counterSnap => exact execCounterSnap_answers h
  | counterAdd => exact execCounterAdd_answers h
  | svcCdrLocked => exact execSvcCdrLocked_answers h
  | svcLaneAligned => exact execSvcLaneAligned_answers h
  | svcDeskew => exact execSvcDeskew_answers h
  | svcBringupTimeout => exact execSvcBringupTimeout_answers h
  | svcLinkLoss => exact execSvcLinkLoss_answers h
  | svcAlignMarkerReceived => exact execSvcAlignMarkerReceived_answers h
  | svcMarkerSend => exact execSvcMarkerSend_answers h
  | svcL1Request => exact execSvcL1Request_answers h
  | svcL2Request => exact execSvcL2Request_answers h
  | svcPowerSetBad => exact execSvcPowerSetBad_answers h
  | svcLowPowerExit => exact execSvcLowPowerExit_answers h
  | svcEqmLow => exact execSvcEqmLow_answers h
  | svcPacketSent => exact execSvcPacketSent_answers h
  | hostPacketBad => exact execHostPacketBad_answers h
  | overheadPacketIn => exact execOverheadPacketIn_answers h
  | commandStart => exact execCommandStart_answers h
  | bootReadPacket => exact execBootReadPacket_answers h
  | svcLoopEnd => exact execSvcLoopEnd_answers h
  | pwrDomainOff | pwrDomainOn | pwrDomainReset | keyLoad | keyLoadImageKey | keyLoadRecover | keyIdentIdentity
  | keyIdentStatus | lineEnableOn | lineEnableOff | lineLoadRecompute | lineLoadExplicit | treeEnableOn
  | treeEnableOff | evtCfgCode | evtCfgRate | evtCfgStream | evtCfgRead | queSetQueue | queSetShaper
  | queSetPageLimit | queSetSample | unlistedOpcodeCommand =>
    exact .next (.ite (h.intakeWith fun _ _ ht => ht.perform) h)
  | pwrResetDrainEnd => exact execPwrResetDrainEnd_answers h
  | lineEnableStart => exact execLineEnableStart_answers h
  | lineCalDone => exact execLineCalDone_answers h
  | lineCalTimeout => exact execLineCalTimeout_answers h
  | lineTxModulationStart => exact execLineTxModulationStart_answers h
  | lineRampEnd => exact execLineRampEnd_answers h
  | lineLaserFault => exact execLineLaserFault_answers h
  | loadReqEvaluate => exact execLoadReqEvaluate_answers h
  | loadAckReceived => exact execLoadAckReceived_answers h
  | loadSwitchReceived => exact execLoadSwitchReceived_answers h
  | loadAckTimeout => exact execLoadAckTimeout_answers h
  | lineFormatSwitch => exact execLineFormatSwitch_answers h
  | lineTxFallback => exact execLineTxFallback_answers h
  | lineTxCalUpdate => exact execLineTxCalUpdate_answers h
  | lineLoLocked => exact execLineLoLocked_answers h
  | lineLoTimeout => exact execLineLoTimeout_answers h
  | lineLoFault => exact execLineLoFault_answers h
  | lineSigUp => exact execLineSigUp_answers h
  | lineSigDown => exact execLineSigDown_answers h
  | lineCdSearchDone => exact execLineCdSearchDone_answers h
  | lineAcqTimeout => exact execLineAcqTimeout_answers h
  | lineHoldTimeout => exact execLineHoldTimeout_answers h
  | lineScTrack => exact execLineScTrack_answers h
  | lineScConvergeTimeout => exact execLineScConvergeTimeout_answers h
  | lineScLost => exact execLineScLost_answers h
  | telemarkCycle => exact execTelemarkCycle_answers h
  | telemarkHandover => exact execTelemarkHandover_answers h
  | lineCdRefine => exact execLineCdRefine_answers h
  | lineRxCalUpdate => exact execLineRxCalUpdate_answers h
  | lineQwinEnd => exact execLineQwinEnd_answers h
  | lineSlotTransmit => exact execLineSlotTransmit_answers h
  | lineSlotReceived => exact execLineSlotReceived_answers h
  | lineOuterBlockDone => exact execLineOuterBlockDone_answers h
  | lineDefectPersist => exact execLineDefectPersist_answers h
  | lineRxFallback => exact execLineRxFallback_answers h
  | mdcBlockReceived => exact execMdcBlockReceived_answers h
  | mdcBlockNeeded => exact execMdcBlockNeeded_answers h
  | chDsStart => exact execChDsStart_answers h
  | chDsDisableStart => exact execChDsDisableStart_answers h
  | chDsRampEnd => exact execChDsRampEnd_answers h
  | chDsLaserFault => exact execChDsLaserFault_answers h
  | chWindowOpen => exact execChWindowOpen_answers h
  | chWindowClose => exact execChWindowClose_answers h
  | chEnergyStep => exact execChEnergyStep_answers h
  | chDelimiterFound => exact execChDelimiterFound_answers h
  | chSearchDeadline => exact execChSearchDeadline_answers h
  | chHeaderDecoded => exact execChHeaderDecoded_answers h
  | chCollisionStep => exact execChCollisionStep_answers h
  | chOverlapStep => exact execChOverlapStep_answers h
  | chBurstLoss => exact execChBurstLoss_answers h
  | chPayloadEnd => exact execChPayloadEnd_answers h
  | chEndmarkDone => exact execChEndmarkDone_answers h
  | chBurstLong => exact execChBurstLong_answers h
  | cancShadowSwap => exact execCancShadowSwap_answers h
  | cancShadowTimeout => exact execCancShadowTimeout_answers h
  | otdrRunStart => exact execOtdrRunStart_answers h
  | otdrShot => exact execOtdrShot_answers h
  | otdrRunEnd => exact execOtdrRunEnd_answers h
  | chQwinEnd => exact execChQwinEnd_answers h
  | mapDeadline => exact execMapDeadline_answers h
  | clientFrameReceived => exact execClientFrameReceived_answers h
  | upstreamSegment => exact execUpstreamSegment_answers h
  | upstreamTagResult => exact execUpstreamTagResult_answers h
  | reassemblyTimeout => exact execReassemblyTimeout_answers h
  | egressTxOpportunity => exact execEgressTxOpportunity_answers h
  | queueSweep => exact execQueueSweep_answers h
  | portLinkUp => exact execPortLinkUp_answers h
  | portLinkDown => exact execPortLinkDown_answers h
  | edwSelftestDone => exact execEdwSelftestDone_answers h
  | edwCastPeriodic => exact execEdwCastPeriodic_answers h
  | entropyHealthFail => exact execEntropyHealthFail_answers h
  | drbgReseed => exact execDrbgReseed_answers h
  | transportKeyGen => exact execTransportKeyGen_answers h
  | tamperTrip => exact execTamperTrip_answers h
  | zeroiseEraseDone => exact execZeroiseEraseDone_answers h
  | keySwitch => exact execKeySwitch_answers h
  | monPassStart => exact execMonPassStart_answers h
  | monSeqEntryEnd => exact execMonSeqEntryEnd_answers h
  | monInjectTake => exact execMonInjectTake_answers h
  | monInjectEnd => exact execMonInjectEnd_answers h
  | monCalBegin => exact execMonCalBegin_answers h
  | monCalEnd => exact execMonCalEnd_answers h
  | monCalWait => exact execMonCalWait_answers h
  | monPowerDown => exact execMonPowerDown_answers h
  | monWakeDone => exact execMonWakeDone_answers h
  | monFactorUpdate => exact execMonFactorUpdate_answers h
  | grmPassStart => exact execGrmPassStart_answers h
  | grmLaneVisit => exact execGrmLaneVisit_answers h
  | grmBufferVisit => exact execGrmBufferVisit_answers h
  | grmDemandVisit => exact execGrmDemandVisit_answers h
  | grmSpareCopyDone => exact execGrmSpareCopyDone_answers h
  | evtSuperframeSummary => exact execEvtSuperframeSummary_answers h
  | evtAvalancheExit => exact execEvtAvalancheExit_answers h
  | tlmSnapshot => exact execTlmSnapshot_answers h
  | mainsCycleEnd => exact execMainsCycleEnd_answers h
  | mainsFail => exact execMainsFail_answers h
  | backupEntry => exact execBackupEntry_answers h
  | mainsReturn => exact execMainsReturn_answers h
  | loadMeasure => exact execLoadMeasure_answers h
  | shedSettleEnd => exact execShedSettleEnd_answers h
  | fastShed => exact execFastShed_answers h
  | overtempShed => exact execOvertempShed_answers h
  | domainRestore => exact execDomainRestore_answers h
  | domainOn => exact execDomainOn_answers h
  | domainOff => exact execDomainOff_answers h
  | domainFault => exact execDomainFault_answers h
  | cellMeasure => exact execCellMeasure_answers h
  | backupLoss => exact execBackupLoss_answers h
  | hostResetPin => exact execHostResetPin_answers h
  | wdogExpire => exact execWdogExpire_answers h
  | illegalInstruction => exact execIllegalInstruction_answers h
  | hrstNRelease => exact execHrstNRelease_answers h
  | keyLoadComplete => exact execKeyLoadComplete_answers h

/-! ### Measurements -/

theorem Tidy.measured {f : Field} {i a : Nat} (h : Tidy s₀ s) : Tidy s₀ (s.measured f i a) := h.wr.used

theorem Tidy.measureOut {l : Nat} (h : Tidy s₀ s) : Tidy s₀ (s.measureOut l) := h.wri.used

theorem Tidy.measureLaunch {c : Nat} (h : Tidy s₀ s) : Tidy s₀ (s.measureLaunch c) :=
  .ite h.wri.used (.ite h.measured h)

theorem Tidy.measureLane {i : Nat} (h : Tidy s₀ s) : Tidy s₀ (s.measureLane i) := h.measured.same

theorem Tidy.measureUs (h : Tidy s₀ s) : Tidy s₀ s.measureUs := .ite (h.foldl fun _ _ ht => ht.measureLane) h

theorem Tidy.measureMs (h : Tidy s₀ s) : Tidy s₀ s.measureMs := by
  unfold State.measureMs
  extract_lets s1
  have h1 : Tidy s₀ s1 := by
    refine h.foldl fun _ _ ht => ?_
    extract_lets s2
    have h2 : Tidy s₀ s2 := ht.measureOut.measured.measured.measured
    exact .ite (.ite h2.findLit h2) ht
  exact h1.foldl fun _ _ hu => hu.measureLaunch

theorem Tidy.imageCals (h : Tidy s₀ s) : Tidy s₀ s.imageCals := h.foldl fun _ _ ht => ht.imageCal

theorem Tidy.readMeters (h : Tidy s₀ s) : Tidy s₀ s.readMeters := by
  unfold State.readMeters
  extract_lets s1 _ s2 s3
  have h1 : Tidy s₀ s1 := .ite h.toLink h
  have h2 : Tidy s₀ s2 := (Tidy.ite h1.imageCals h1).sweepGoesOn
  have h3 : Tidy s₀ s3 := .ite h2.measureUs h2
  exact .ite h (.ite h3.measureMs h3)

/-- The step takes the command at the front off the queue, whatever it is, and leaves a next state with the rest of the
queue and the canonical form it was given. -/
theorem step_answers (s : State) : Answers { s with pending := s.pending.tail } (step s) := by
  unfold step
  split
  · next e =>
    have h : Tidy { s with pending := s.pending.tail } s :=
      ⟨by rw [e]; rfl, fun k => canonical_congr k rfl rfl rfl rfl rfl⟩
    exact h.tick.readMeters.idleFill.answers
  · next e =>
    rw [e]
    exact exec_answers (Tidy.refl _)

/-- Settles O59: every operation of the model keeps the canonical form of the five tables, so every command and the tick
do. -/
theorem everyStepKeepsTheCanonicalForms : Obligations.EveryStepKeepsTheCanonicalForms := by
  unfold Obligations.EveryStepKeepsTheCanonicalForms
  intro s t h e
  obtain ⟨u, hu, k⟩ := step_answers s
  cases hu.symm.trans e
  exact k.canonical (canonical_congr h rfl rfl rfl rfl rfl)

end Sys2Proof.Machine
end

section
/-! PROOF. A step runs the command at the front of the queue (R37, R187). -/

namespace Sys2Proof.Machine

/-- Settles O54: `step` splits on the queue. -/
theorem stepRunsFrontCommand : Obligations.StepRunsFrontCommand := by
  refine ⟨fun s c rest h => ?_, fun s h => ?_⟩ <;> rw [step, h]

end Sys2Proof.Machine
end

section
/-! PROOF. The 1PPS output, the calendar and the two-step queue (R63, R66, R69–R73). -/

namespace Sys2Proof.Machine
open Ev Reg

/-! ### The 1PPS output (R66) -/

/-- The output rises at a second of its timebase, unless it rose less than 0.5 s before (R66). -/
theorem exec_ppsOutputEdge_rises {s : State} (hup : s.up = true)
    (hruns : s.rd TIME_STAT_STATE = stLocked ∨ s.rd TIME_STAT_STATE = stHoldover ∨ s.rdb TIME_CTL_PPS_FREE = true)
    (hsec : s.ppsSecond ((s.now : Int) - 1) < s.ppsSecond s.now)
    (hlast : ∀ k, s.time.ppsRise = some k → k + 2000000000 ≤ s.now) :
    exec .ppsOutputEdge s = .next { s with time := { s.time with ppsOut := true, ppsRise := some s.now } } := by
  have hruns' : (decide (s.rd TIME_STAT_STATE = stLocked) || decide (s.rd TIME_STAT_STATE = stHoldover) ||
      s.rdb TIME_CTL_PPS_FREE) = true := by simpa [or_assoc] using hruns
  show execPpsOutputEdge s = _
  unfold execPpsOutputEdge
  cases hrise : s.time.ppsRise with
  | none => simp only [hup, hruns', hsec, decide_true, Bool.not_false, Bool.and_self, if_true]
  | some k =>
    have hk : ¬ s.now < k + ticksSec / 2 := by
      have := hlast k hrise
      rw [ticksSec]
      omega
    simp only [hup, hruns', hsec, hk, decide_true, decide_false, Bool.not_false, Bool.and_self, if_true]

/-- An edge sooner than 0.5 s after the last one is none (R66). -/
theorem exec_ppsOutputEdge_soon {s : State} {k : Nat} (hk : s.time.ppsRise = some k) (hnow : s.now < k + 2000000000) :
    exec .ppsOutputEdge s = .next s := by
  show execPpsOutputEdge s = _
  unfold execPpsOutputEdge
  simp [hk, ticksSec, hnow]

/-- The output falls after its width (R66). -/
theorem exec_ppsOutputWidthEnd {s : State} {k : Nat} (hk : s.time.ppsRise = some k) (hout : s.time.ppsOut = true)
    (hnow : k + s.rd TIME_PPS_PPS_WIDTH * 4000 ≤ s.now) :
    exec .ppsOutputWidthEnd s = .next { s with time := { s.time with ppsOut := false } } := by
  show execPpsOutputWidthEnd s = _
  unfold execPpsOutputWidthEnd
  simp [hk, hout, ticksUs, hnow]

/-! ### The calendar (R69–R73) -/

/-- The calendar read after it is set: 48 bits of seconds and 15 of fraction (R69). -/
theorem calendar_setCalendar (s : State) {c : Nat} (h : c < 2 ^ 63) : (s.setCalendar c).calendar = c := by
  have hA : (s.setCalendar c).rd RTC_SEC_A = c / 32768 / 4096 % 2 ^ 36 := by
    unfold State.setCalendar
    rw [rd_wr_ne _ _ _ _ _ _ _ _ _ _ (by decide), rd_wr_ne _ _ _ _ _ _ _ _ _ _ (by decide),
      rd_wr _ _ _ _ _ _ (by decide) (by decide)]
    rfl
  have hB : (s.setCalendar c).rd RTC_SEC_B_SEC = c / 32768 % 4096 % 2 ^ 12 := by
    unfold State.setCalendar
    rw [rd_wr_apart _ _ _ _ _ _ _ _ _ _ (by decide) (by decide) (by decide) (by decide),
      rd_wr _ _ _ _ _ _ (by decide) (by decide)]
    rfl
  have hF : (s.setCalendar c).rd RTC_SEC_B_FRAC = c % 32768 % 2 ^ 15 := by
    unfold State.setCalendar
    rw [rd_wr _ _ _ _ _ _ (by decide) (by decide)]
    rfl
  rw [State.calendar, hA, hB, hF]
  omega

/-- Counting and events leave the calendar. -/
theorem Events.calendar {s t : State} (h : Events s t) : t.calendar = s.calendar := by
  unfold State.calendar
  rw [h.rd _ _ _ _ (by decide), h.rd _ _ _ _ (by decide), h.rd _ _ _ _ (by decide)]

/-- The flags of `RTC_STAT` are no part of the calendar. -/
theorem calendar_wr_invalid (s : State) (v : Nat) : (s.wr RTC_STAT_INVALID v).calendar = s.calendar := by
  unfold State.calendar
  rw [rd_wr_ne _ _ _ _ _ _ _ _ _ _ (by decide), rd_wr_ne _ _ _ _ _ _ _ _ _ _ (by decide),
    rd_wr_ne _ _ _ _ _ _ _ _ _ _ (by decide)]

/-- Whether a step of the calendar to `sec` exceeds a second, or ends INVALID (R70, R71). -/
def State.stepsFar (s : State) (sec : Nat) : Bool :=
  decide (32768 < if s.calendar < sec * 32768 then sec * 32768 - s.calendar else s.calendar - sec * 32768) ||
    s.rdb RTC_STAT_INVALID

theorem stepsFar_of {s : State} {sec : Nat}
    (h : s.calendar + 32768 < sec * 32768 ∨ sec * 32768 + 32768 < s.calendar ∨ s.rdb RTC_STAT_INVALID = true) :
    s.stepsFar sec = true := by
  rw [State.stepsFar, Bool.or_eq_true, decide_eq_true_eq]
  rcases h with h | h | h
  · left; split <;> omega
  · left; split <;> omega
  · exact .inr h

/-- The calendar set to `c` and out of INVALID, with the event of its step: from `s`, for any words of the event. -/
def State.setValid (s : State) (c : Nat) (args : List Int) : State :=
  ((s.setCalendar c).wr RTC_STAT_INVALID 0).occur RTC_STEP 0 args

/-- A state that differs in its register words alone, with one more field written. -/
theorem wr_frame {s t : State} (h : t = { s with regs := t.regs }) (f : Field) (v i a b : Nat) :
    t.wr f v i a b = { s with regs := (t.wr f v i a b).regs } := by
  have hwr : t.wr f v i a b = { t with regs := (t.wr f v i a b).regs } := rfl
  rw [hwr, h]

/-- Counting and events on a state that differs in its register words alone. -/
theorem Events.frame_of_regs {s t u : State} (h : Events t u) (ht : t = { s with regs := t.regs }) :
    u = { s with regs := u.regs, cnt := u.cnt, tblRaw := u.tblRaw, evt := u.evt } := by
  rw [h.1, ht]

/-- Setting the calendar writes register words alone. -/
theorem setCalendar_frame (s : State) (c : Nat) : s.setCalendar c = { s with regs := (s.setCalendar c).regs } := by
  unfold State.setCalendar
  exact wr_frame (wr_frame (wr_frame rfl _ _ _ _ _) _ _ _ _ _) _ _ _ _ _

@[simp] theorem setCalendar_now (s : State) (c : Nat) : (s.setCalendar c).now = s.now := by
  rw [setCalendar_frame]

@[simp] theorem setCalendar_calCnt (s : State) (c : Nat) : (s.setCalendar c).calCnt = s.calCnt := by
  rw [setCalendar_frame]

theorem calendar_setValid (s : State) {c : Nat} (args : List Int) (h : c < 2 ^ 63) : (s.setValid c args).calendar = c := by
  rw [State.setValid, (occur_events _ _ _ _).calendar, calendar_wr_invalid, calendar_setCalendar s h]

theorem invalid_setValid (s : State) (c : Nat) (args : List Int) : (s.setValid c args).rd RTC_STAT_INVALID = 0 := by
  rw [State.setValid, (occur_events _ _ _ _).rd _ _ _ _ (by decide), rd_wr _ _ _ _ _ _ (by decide) (by decide)]
  rfl

theorem raised_setValid (s : State) (c : Nat) (args : List Int) : RTC_STEP.raised s (s.setValid c args) 0 args := by
  have hnow : ((s.setCalendar c).wr RTC_STAT_INVALID 0).now = s.now := by rw [wr_now, setCalendar_now]
  rw [State.setValid]
  exact Code.raised_of_now (occur_raised _ _ _ _) hnow

theorem setValid_frame (s : State) (c : Nat) (args : List Int) :
    s.setValid c args =
      { s with regs := (s.setValid c args).regs, cnt := (s.setValid c args).cnt, tblRaw := (s.setValid c args).tblRaw,
               evt := (s.setValid c args).evt } := by
  rw [State.setValid]
  exact (occur_events _ _ _ _).frame_of_regs (wr_frame (setCalendar_frame s c) _ _ _ _ _)

/-- A step of the calendar, by how far it is. -/
theorem stepCalendar_eq (s : State) (sec : Nat) :
    s.stepCalendar sec =
      if s.stepsFar sec then s.setValid (sec * 32768) (calWords s.calendar ++ calWords (sec * 32768))
      else s.setCalendar (sec * 32768) := by
  simp only [State.stepCalendar, State.stepsFar, State.setValid]
  rfl

/-- A calendar stepped to a whole second shows it (R70, R71). -/
theorem calendar_stepCalendar (s : State) {sec : Nat} (h : sec < 2 ^ 48) : (s.stepCalendar sec).calendar = sec * 32768 := by
  rw [stepCalendar_eq]
  split
  · exact calendar_setValid s _ (by omega)
  · exact calendar_setCalendar s (by omega)

/-- A step of more than a second, or out of INVALID, clears INVALID and is logged (R70, R71). -/
theorem stepCalendar_logged (s : State) {sec : Nat} (h : s.stepsFar sec = true) :
    (s.stepCalendar sec).rd RTC_STAT_INVALID = 0 ∧
      RTC_STEP.raised s (s.stepCalendar sec) 0 (calWords s.calendar ++ calWords (sec * 32768)) := by
  rw [stepCalendar_eq, if_pos h]
  exact ⟨invalid_setValid _ _ _, raised_setValid _ _ _⟩

/-- A calendar step changes register words and what its event brings. -/
theorem stepCalendar_frame (s : State) (sec : Nat) :
    s.stepCalendar sec =
      { s with regs := (s.stepCalendar sec).regs, cnt := (s.stepCalendar sec).cnt, tblRaw := (s.stepCalendar sec).tblRaw,
               evt := (s.stepCalendar sec).evt } := by
  rw [stepCalendar_eq]
  split
  · exact setValid_frame _ _ _
  · exact (Events.refl _).frame_of_regs (setCalendar_frame s _)

/-- The calendar takes network time at a whole second while LOCKED with SYNC (R70). -/
theorem exec_rtcSync {s : State} {sec : Nat} (hup : s.up = true) (hsync : s.rdb RTC_CTL_SYNC = true)
    (hlock : s.rd TIME_STAT_STATE = stLocked) (hsec : sec = (s.ntAt s.now / ntSec % 2 ^ 48).toNat)
    (hbound : s.ntAt s.now - ntTick < s.ntAt s.now / ntSec * ntSec)
    (hdiff : s.calendar + 1 < sec * 32768 ∨ sec * 32768 + 1 < s.calendar) :
    exec .rtcSync s = .next (s.stepCalendar sec) := by
  have hd : 1 < (if s.calendar < sec * 32768 then sec * 32768 - s.calendar else s.calendar - sec * 32768) := by
    split <;> omega
  show execRtcSync s = _
  unfold execRtcSync
  simp only [← hsec, hup, hsync, hlock, hbound, hd, decide_true, Bool.and_true, if_true]

/-- The second that the calendar takes has 48 bits. -/
theorem syncSecond_lt (z : Int) : (z % 2 ^ 48).toNat < 2 ^ 48 := by omega

/-- The trim is made once every 2^20 crystal counts (R72). -/
theorem exec_rtcTrim {s : State} (hcnt : 2 ^ 20 ≤ s.calCnt) :
    exec .rtcTrim s =
      .next ({ s with calCnt := s.calCnt - 2 ^ 20 }.setCalendar ((s.calendar : Int) + s.rdi RTC_CTL_TRIM).toNat) := by
  show execRtcTrim s = _
  rw [execRtcTrim, if_pos hcnt]

/-! ### The two-step queue (R63) -/

/-- The state once a marked message of port `p` has left it. -/
def State.leftPort (s : State) (p : Nat) (msg : TwoStepMsg) : State :=
  { s with traf := { s.traf with marks := s.traf.marks.erase (p, msg) } }

/-- The oldest marked message of a port leaves it (R63). -/
theorem exec_twoStepStamp {s : State} {p : Fin 16} {k : Nat} {msg : TwoStepMsg} (hup : s.up = true)
    (hfind : (s.traf.marks.find? fun m => m.1 = p.val) = some (k, msg)) :
    exec (.twoStepStamp p) s = .next ((s.leftPort p msg).stampTwoStep p msg) := by
  have hk : k = p.val := by simpa using List.find?_some hfind
  show execTwoStepStamp p s = _
  unfold execTwoStepStamp
  simp only [hfind, hup, hk, if_true, State.leftPort]

/-- A stamp joins the queue while it has room, and is counted as dropped when it has none (R63). -/
theorem stampTwoStep_eq (s : State) (p : Nat) (msg : TwoStepMsg) :
    s.stampTwoStep p msg =
      if 64 ≤ s.time.tsq.length then s.count TIME_TSQ_DROP
      else { s with time := { s.time with tsq := s.time.tsq ++ [⟨p, msg, s.txStamp p, s.clock⟩] } } := rfl

/-- Settles O28, output by output. -/
theorem timeOutputsAndCalendarComplete : Obligations.TimeOutputsAndCalendarComplete := by
  refine ⟨fun s => exec_ppsOutputEdge_rises, fun s k => exec_ppsOutputEdge_soon, fun s k => exec_ppsOutputWidthEnd,
    fun s sec hup hsync hlock hsec hbound hdiff => ?_, fun s hcnt hlo hhi => ?_, fun s => ?_, fun s p k msg hup hfind => ?_⟩
  · exact ⟨_, exec_rtcSync hup hsync hlock hsec hbound hdiff, calendar_stepCalendar s (hsec ▸ syncSecond_lt _),
      fun h => stepCalendar_logged s (stepsFar_of h)⟩
  · refine ⟨_, exec_rtcTrim hcnt, ?_, setCalendar_calCnt _ _, setCalendar_frame _ _⟩
    rw [calendar_setCalendar _ (by omega), Int.toNat_of_nonneg hlo]
  · exact ⟨s.wr RTC_STAT_XTAL_FAIL 1, rfl, rd_wr _ _ _ _ _ _ (by decide) (by decide), rfl⟩
  · refine ⟨_, exec_twoStepStamp hup hfind, ?_⟩
    have htime : (s.leftPort p msg).time = s.time := rfl
    rw [stampTwoStep_eq, htime]
    split
    · next hfull =>
      refine ⟨count_traf _ _ _ _, fun h => absurd h (by omega), fun _ => ⟨count_time _ _ _ _, ?_⟩⟩
      exact Code.raised_of_now (count_raised _ TIME_TSQ_DROP 0 1 Nat.one_ne_zero) rfl
    · next hroom => exact ⟨rfl, fun _ => ⟨rfl, rfl⟩, fun h => absurd h hroom⟩

end Sys2Proof.Machine
end
section
/-! PROOF. Commands that start, and the SVC, TIME and RTC commands (R45, R54–R56, R71, R179, R187–R193, R203, R207). -/

namespace Sys2Proof.Machine
open Ev Reg

/-! ### A command that starts does its work -/

/-- The slot of `c` holds it as running: the state that its work begins in (R187, R189). -/
def State.running (u : State) (c : Cmd) : Prop := u.cmdAt c.tag = some { c with stage := .running, holds := true }

theorem cmdAt_setCmd (s : State) (k : Nat) (c : Option Cmd) : (s.setCmd k c).cmdAt k = c := sget_sput _ _ _

theorem cmdAt_setCmd_ne (s : State) {k j : Nat} (c : Option Cmd) (h : j ≠ k) : (s.setCmd k c).cmdAt j = s.cmdAt j :=
  sget_sput_ne _ _ h

theorem Starts.running {s u : State} {opc : Nat} {p : HostPkt} {c : Cmd} (h : Starts s opc p c u) : u.running c := by
  obtain ⟨-, -, -, -, -, v, -, -, -, -, -, rfl⟩ := h
  exact cmdAt_setCmd _ _ _

theorem Starts.opcode {s u : State} {opc : Nat} {p : HostPkt} {c : Cmd} (h : Starts s opc p c u) : c.opcode = opc := by
  obtain ⟨-, -, -, -, -, v, -, -, -, -, hopc, -⟩ := h
  exact hopc

theorem Starts.pkt {s u : State} {opc : Nat} {p : HostPkt} {c : Cmd} (h : Starts s opc p c u) : c.pkt = p := by
  obtain ⟨-, -, -, -, -, v, -, -, -, hpkt, -, -⟩ := h
  exact hpkt

/-- The packet of a command that starts passes intake, and the command's own checks and work follow (R191). -/
theorem Starts.intakeWith {s u : State} {opc : Nat} {p : HostPkt} {c : Cmd} (h : Starts s opc p c u)
    (perform : Cmd → State → State) : s.intakeWith perform opc p = perform c u := by
  obtain ⟨hlive, hpath, hopen, hfree, hearly, v, hcrit, hlate, hpick, hpkt, -, rfl⟩ := h
  have htag : c.tag = p.tag.val := by rw [Cmd.tag, hpkt]
  have hway : (!s.svcLive || (!p.boot && decide (s.rd SVC_STAT_LINK ≠ 4) && decide (s.rd SVC_STAT_LINK ≠ 7))) = false := by
    rcases hpath with h | h <;> simp [hlive, h]
  unfold State.intakeWith
  simp only [hway, hopen, hfree, hearly, hcrit, hlate, hpick, htag, Bool.false_eq_true, if_false, if_true, Bool.not_true,
    Option.isSome_none]

/-! ### Completions (R187, R192, R203) -/

theorem queueCompletion_svc (s : State) (k : Completion) :
    (s.queueCompletion k).svc =
      if k.boot then { s.svc with bootOut := s.svc.bootOut ++ [k] } else { s.svc with linkOut := s.svc.linkOut ++ [k] } := by
  unfold State.queueCompletion
  split <;> rfl

theorem queueCompletion_frame (s : State) (k : Completion) :
    s.queueCompletion k = { s with svc := (s.queueCompletion k).svc } := by
  unfold State.queueCompletion
  split <;> rfl

theorem cmdAt_queueCompletion (s : State) (k : Completion) (tag : Nat) :
    (s.queueCompletion k).cmdAt tag = s.cmdAt tag := by
  rw [State.cmdAt, queueCompletion_svc]
  split <;> rfl

/-- What a completion leaves is a matter of the service link alone. -/
theorem Answered.of_svc {u v t : State} {c : Cmd} {st detail result : Nat} {data : List PWord}
    (h : Answered v t c st detail result data) (e : v.svc = u.svc) : Answered u t c st detail result data := by
  obtain ⟨hslot, hothers, hsent⟩ := h
  refine ⟨hslot, fun k hk => ?_, hsent.trans ?_⟩
  · rw [hothers k hk, State.cmdAt, State.cmdAt, e]
  · simp only [queueCompletion_svc, e]

/-- The completion of a running command that is no loading of an image: its slot and its path's queue, nothing else
(R121, R187). -/
theorem complete_of_running {u : State} {c : Cmd} (h : u.running c) (hload : c.opcode ≠ 0x0401) (hstore : c.opcode ≠ 0x0501)
    (st detail result : Nat) (data : List PWord) :
    u.complete c.tag st detail result data =
      (u.setCmd c.tag (some { c with stage := .done, holds := false })).queueCompletion
        ⟨c.tag, c.pkt.boot, c.page, c.opcode, st, detail, ⟨word result, false⟩, data, c.auth, false⟩ := by
  have hdone : CmdStage.running ≠ .done := by decide
  unfold State.complete State.completeP
  rw [h]
  simp only [hdone, if_false, State.imgLast, hload, hstore, or_self]
  rfl

theorem answered_complete {u : State} {c : Cmd} (h : u.running c) (hload : c.opcode ≠ 0x0401) (hstore : c.opcode ≠ 0x0501)
    (st detail result : Nat) (data : List PWord) :
    Answered u (u.complete c.tag st detail result data) c st detail result data := by
  rw [complete_of_running h hload hstore]
  refine ⟨?_, fun k hk => ?_, ?_⟩
  · rw [cmdAt_queueCompletion, cmdAt_setCmd]
  · rw [cmdAt_queueCompletion, cmdAt_setCmd_ne _ _ hk]
  · simp only [queueCompletion_svc]
    split <;> rfl

theorem complete_frame {u : State} {c : Cmd} (h : u.running c) (hload : c.opcode ≠ 0x0401) (hstore : c.opcode ≠ 0x0501)
    (st detail result : Nat) (data : List PWord) :
    u.complete c.tag st detail result data = { u with svc := (u.complete c.tag st detail result data).svc } := by
  rw [complete_of_running h hload hstore, queueCompletion_frame]
  rfl

theorem unreserved_of_clean {c : Cmd} {masks : List Nat} (h : c.clean masks) (s : State) (k : State → State) :
    s.unreserved c masks k = k s := by
  rw [State.unreserved, show reservedAt c.pkt.words masks 0 = none from h]

theorem unreserved_of_reserved {c : Cmd} {masks : List Nat} {i : Nat} (h : reservedAt c.pkt.words masks 0 = some i) (s : State)
    (k : State → State) : s.unreserved c masks k = s.complete c.tag eReserved i := by
  rw [State.unreserved, h]

end Sys2Proof.Machine
end
section
/-! PROOF. The SVC, TIME and RTC commands (R45, R54–R56, R71, R193, R203, R207). -/

namespace Sys2Proof.Machine
open Ev Reg

section Started
variable {s u : State} {p : HostPkt} {c : Cmd}

/-- A command that starts and then completes in a state `v` of its work, in which its slot is as it was. -/
theorem Starts.completesIn {opc st detail result : Nat} {data : List PWord} {v : State} (h : Starts s opc p c u)
    (hload : opc ≠ 0x0401) (hstore : opc ≠ 0x0501) (hv : v.cmdAt c.tag = u.cmdAt c.tag) :
    Answered v (v.complete c.tag st detail result data) c st detail result data ∧
      v.complete c.tag st detail result data = { v with svc := (v.complete c.tag st detail result data).svc } := by
  have hrun : v.running c := hv.trans h.running
  have hload' : c.opcode ≠ 0x0401 := h.opcode ▸ hload
  have hstore' : c.opcode ≠ 0x0501 := h.opcode ▸ hstore
  exact ⟨answered_complete hrun hload' hstore' _ _ _ _, complete_frame hrun hload' hstore' _ _ _ _⟩

/-- A command that starts and then completes in a state `v` of its work, in which the service link is as it was. -/
theorem Starts.completesFrom {opc st detail result : Nat} {data : List PWord} {v : State} (h : Starts s opc p c u)
    (hload : opc ≠ 0x0401) (hstore : opc ≠ 0x0501) (hv : v.svc = u.svc) :
    Answered u (v.complete c.tag st detail result data) c st detail result data ∧
      v.complete c.tag st detail result data = { v with svc := (v.complete c.tag st detail result data).svc } := by
  obtain ⟨hans, hframe⟩ := h.completesIn (v := v) hload hstore (by rw [State.cmdAt, State.cmdAt, hv])
  exact ⟨hans.of_svc hv, hframe⟩

/-- A command that starts and completes without any other effect. -/
theorem Starts.completes {opc st detail result : Nat} {data : List PWord} {o : Host.Outcome State Fault Refusal}
    (h : Starts s opc p c u) (hload : opc ≠ 0x0401) (hstore : opc ≠ 0x0501)
    (ho : o = .next (u.complete c.tag st detail result data)) :
    ∃ t, o = .next t ∧ Answered u t c st detail result data ∧ t = { u with svc := t.svc } :=
  ⟨_, ho, h.completesFrom hload hstore rfl⟩

/-- A change of the service link alone after another. -/
theorem svcFrame_trans {s t u : State} (h : u = { t with svc := u.svc }) (h' : t = { s with svc := t.svc }) :
    u = { s with svc := u.svc } := by
  rw [h, h']

/-! ### SVC commands (R179, R193, R203) -/

theorem exec_svcNop (h : Starts s 0x0101 p c u) : exec (.svcNop p) s = .next (u.cmdNop c) := by
  show Host.Outcome.next (s.intakeWith (State.perform none) 0x0101 p) = _
  simp only [h.intakeWith, State.perform, h.opcode]

theorem exec_svcRecall (h : Starts s 0x0102 p c u) : exec (.svcRecall p) s = .next (u.cmdRecall c) := by
  show Host.Outcome.next (s.intakeWith (State.perform none) 0x0102 p) = _
  simp only [h.intakeWith, State.perform, h.opcode]

theorem exec_svcLoop (h : Starts s 0x0103 p c u) : exec (.svcLoop p) s = .next (u.cmdLoop c) := by
  show Host.Outcome.next (s.intakeWith (State.perform none) 0x0103 p) = _
  simp only [h.intakeWith, State.perform, h.opcode]

/-- A kept completion of the page goes out again before the recall's own (R193). -/
theorem cmdRecall_sends {x : Completion} (hclean : c.clean [mask 8 0, 0])
    (hkept : sget (fun _ => none) u.svc.kept ((c.w 0).bits 8 0) = some x) (hfree : u.cmdAt ((c.w 0).bits 8 0) = none)
    (hpage : x.page = c.page) :
    u.cmdRecall c = (u.queueCompletion { x with boot := c.pkt.boot, recalled := true }).complete c.tag eOk := by
  simp only [State.cmdRecall, unreserved_of_clean hclean, hkept, hfree, hpage, Option.isSome_none, Bool.false_eq_true, if_false,
    ne_eq, not_true]

/-- A kept completion of another page is not sent (R193). -/
theorem cmdRecall_otherPage {x : Completion} (hclean : c.clean [mask 8 0, 0])
    (hkept : sget (fun _ => none) u.svc.kept ((c.w 0).bits 8 0) = some x) (hfree : u.cmdAt ((c.w 0).bits 8 0) = none)
    (hpage : x.page ≠ c.page) : u.cmdRecall c = u.complete c.tag ePage := by
  simp only [State.cmdRecall, unreserved_of_clean hclean, hkept, hfree, hpage, Option.isSome_none, Bool.false_eq_true, if_false,
    ne_eq, not_false_eq_true, if_true]

/-- A slot that is busy or has kept no completion cannot be recalled (R193). -/
theorem cmdRecall_nothing (hclean : c.clean [mask 8 0, 0])
    (h : sget (fun _ => none) u.svc.kept ((c.w 0).bits 8 0) = none ∨ u.cmdAt ((c.w 0).bits 8 0) ≠ none) :
    u.cmdRecall c = u.complete c.tag eState := by
  cases hkept : sget (fun _ => none) u.svc.kept ((c.w 0).bits 8 0) with
  | none => simp only [State.cmdRecall, unreserved_of_clean hclean, hkept]
  | some x =>
    have hbusy : (u.cmdAt ((c.w 0).bits 8 0)).isSome = true := Option.isSome_iff_ne_none.2 (h.resolve_left (by simp [hkept]))
    simp only [State.cmdRecall, unreserved_of_clean hclean, hkept, hbusy, if_true]

/-- The state once the loop of `c` is to begin when `c` has been answered; its generator starts from an open state. -/
def State.loopTaken (u : State) (c : Cmd) : State :=
  { u.used with svc := { u.svc with
      loops := u.svc.loops ++ [Loop.mk ((c.w 0).bits 1 0) ((c.w 1).bits 13 0) c.tag (u.open_ % 2 ^ 31)] } }

/-- A loop with a mode and a duration in range is taken on the link and refused on the boot port (R179). -/
theorem cmdLoop_eq (hclean : c.clean [mask 1 0, mask 13 0]) (hmode : (c.w 0).bits 1 0 ≠ 0) (hlo : 1 ≤ (c.w 1).bits 13 0)
    (hhi : (c.w 1).bits 13 0 ≤ 10000) :
    u.cmdLoop c = if c.pkt.boot then u.complete c.tag eState else (u.loopTaken c).complete c.tag eOk := by
  have hrange : ¬((c.w 1).bits 13 0 < 1 ∨ 10000 < (c.w 1).bits 13 0) := by omega
  simp only [State.cmdLoop, unreserved_of_clean hclean, hmode, hrange, if_false, State.loopTaken]

/-! ### TIME commands (R45, R54–R56, R207) -/

theorem exec_timeRestep (h : Starts s 0x0701 p c u) : exec (.timeRestep p) s = .next (u.cmdRestep c) := by
  show Host.Outcome.next (s.intakeWith (State.perform none) 0x0701 p) = _
  simp only [h.intakeWith, State.perform, h.opcode]

theorem exec_timeTod (h : Starts s 0x0702 p c u) : exec (.timeTod p) s = .next (u.cmdTod c) := by
  show Host.Outcome.next (s.intakeWith (State.perform none) 0x0702 p) = _
  simp only [h.intakeWith, State.perform, h.opcode]

theorem exec_timeRead (h : Starts s 0x0703 p c u) : exec (.timeRead p) s = .next (u.cmdTimeRead c) := by
  show Host.Outcome.next (s.intakeWith (State.perform none) 0x0703 p) = _
  simp only [h.intakeWith, State.perform, h.opcode]

/-- The state with a re-step to offset `off` pending (R56). -/
def State.restepTo (u : State) (off : Int) : State :=
  { u with time := { u.time with restep := some ⟨off, u.restepSf, false, u.now⟩ } }

/-- A re-step by the mean of the outlier run (R54, R56). -/
theorem cmdRestep_mean (hclean : c.clean [mask 2 0]) (hstate : u.rd TIME_STAT_STATE = stLocked ∨ u.rd TIME_STAT_STATE = stHoldover)
    (hmode : (c.w 0).bits 2 0 = 0) (h1 : c.w 1 = 0) (h2 : c.w 2 = 0) (h3 : c.w 3 = 0) (hjump : u.rdb TIME_STAT_JUMP = true)
    (hoff : 0 ≤ (u.time.offset : Int) + u.time.jumpMean) :
    u.cmdRestep c = (u.restepTo (u.time.offset + u.time.jumpMean)).complete c.tag eOk := by
  have hstate' : ¬(u.rd TIME_STAT_STATE = stFree ∨ u.rd TIME_STAT_STATE = stAcquire) := by
    rcases hstate with h | h <;> rw [h] <;> decide
  have hoff' : ¬ (u.time.offset : Int) + u.time.jumpMean < 0 := by omega
  simp only [State.cmdRestep, unreserved_of_clean hclean, hmode, h1, h2, h3, hstate', hjump, State.restepTo]
  simp [hoff']

/-- A re-step to an offset given (R55, R56). -/
theorem cmdRestep_given {off : Int} (hclean : c.clean [mask 2 0])
    (hstate : u.rd TIME_STAT_STATE = stLocked ∨ u.rd TIME_STAT_STATE = stHoldover) (hmode : (c.w 0).bits 2 0 = 1)
    (hgiven : ntOfWords (c.w 1).toNat (c.w 2).toNat (c.w 3).toNat = some off) (hoff : 0 ≤ off) :
    u.cmdRestep c = (u.restepTo off).complete c.tag eOk := by
  have hstate' : ¬(u.rd TIME_STAT_STATE = stFree ∨ u.rd TIME_STAT_STATE = stAcquire) := by
    rcases hstate with h | h <;> rw [h] <;> decide
  have hoff' : ¬ off < 0 := by omega
  simp only [State.cmdRestep, unreserved_of_clean hclean, hmode, hgiven, hstate', State.restepTo]
  simp [hoff']

/-- A re-step to an offset given needs the servo to have locked once (R55). -/
theorem cmdRestep_unlocked (hclean : c.clean [mask 2 0]) (hmode : (c.w 0).bits 2 0 = 1)
    (hgiven : ntOfWords (c.w 1).toNat (c.w 2).toNat (c.w 3).toNat ≠ none)
    (hstate : u.rd TIME_STAT_STATE = stFree ∨ u.rd TIME_STAT_STATE = stAcquire) :
    u.cmdRestep c = u.complete c.tag eState := by
  simp only [State.cmdRestep, unreserved_of_clean hclean, hmode, hgiven, hstate]
  simp

/-! ### The calendar (R71, R207) -/

theorem exec_rtcSet (h : Starts s 0x0801 p c u) : exec (.rtcSet p) s = .next (u.cmdRtcSet c) := by
  show Host.Outcome.next (s.intakeWith (State.perform none) 0x0801 p) = _
  simp only [h.intakeWith, State.perform, h.opcode]

theorem cmdRtcSet_eq (hclean : c.clean [mask 35 0, mask 35 24]) :
    u.cmdRtcSet c =
      if u.rd TIME_STAT_STATE = stLocked ∧ u.rdb RTC_CTL_SYNC = true then u.complete c.tag eState
      else (u.stepCalendar c.seconds).complete c.tag eOk := by
  rw [State.cmdRtcSet, unreserved_of_clean hclean]

/-- The seconds of a payload have 48 bits (R207). -/
theorem seconds_lt (c : Cmd) : c.seconds < 2 ^ 48 := by
  have h0 : (c.w 0).toNat < 2 ^ 36 := (c.w 0).isLt
  have h1 : (c.w 1).bits 35 24 < 2 ^ 12 := bitsOf_lt _ _ _
  rw [Cmd.seconds]
  omega

/-- The calendar stepped keeps the service link. -/
theorem stepCalendar_svc (s : State) (sec : Nat) : (s.stepCalendar sec).svc = s.svc := by
  rw [stepCalendar_frame]

end Started

/-- Settles O30, command by command. -/
theorem serviceAndTimeCommandsComplete : Obligations.ServiceAndTimeCommandsComplete := by
  refine ⟨fun s u p c h => ?_, fun s u p c h hclean => ⟨fun x hkept hfree hpage => ?_, fun x hkept hfree hpage => ?_, fun hnone => ?_⟩,
    fun s u p c h hclean hmode hlo hhi => ⟨fun hboot => ?_, fun hboot => ?_⟩, fun s u p c i h hres => ?_,
    fun s u p c off h hclean hstate hoff hgiven => ?_, fun s u p c h hclean hmode hgiven hstate => ?_,
    fun s u p c h hclean => ?_, fun s u p c h => ?_, fun s u p c h hclean => ⟨fun hsync => ?_, fun hsync => ?_⟩⟩
  · exact h.completes (by decide) (by decide) (exec_svcNop h)
  · have hsends := cmdRecall_sends hclean hkept hfree hpage
    obtain ⟨hans, hframe⟩ := h.completesIn (st := eOk) (detail := 0) (result := 0) (data := []) (by decide) (by decide)
      (cmdAt_queueCompletion u { x with boot := c.pkt.boot, recalled := true } c.tag)
    obtain rfl := h.pkt
    exact ⟨_, (exec_svcRecall h).trans (by rw [hsends]), hans, svcFrame_trans hframe (queueCompletion_frame _ _)⟩
  · exact h.completes (by decide) (by decide) ((exec_svcRecall h).trans (by rw [cmdRecall_otherPage hclean hkept hfree hpage]))
  · exact h.completes (by decide) (by decide) ((exec_svcRecall h).trans (by rw [cmdRecall_nothing hclean hnone]))
  · have hpkt : c.pkt.boot = true := h.pkt ▸ hboot
    exact h.completes (by decide) (by decide)
      ((exec_svcLoop h).trans (by rw [cmdLoop_eq hclean hmode hlo hhi, hpkt, if_pos rfl]))
  · have hpkt : c.pkt.boot = false := h.pkt ▸ hboot
    obtain ⟨hans, hframe⟩ := h.completesIn (st := eOk) (detail := 0) (result := 0) (data := []) (v := u.loopTaken c) (by decide)
      (by decide) rfl
    exact ⟨_, u.open_ % 2 ^ 31, (exec_svcLoop h).trans (by rw [cmdLoop_eq hclean hmode hlo hhi, hpkt, if_neg Bool.false_ne_true]),
      hans.of_svc rfl, hframe.trans (by rw [hframe]; rfl)⟩
  · exact h.completes (by decide) (by decide) ((exec_timeRestep h).trans (by rw [State.cmdRestep, unreserved_of_reserved hres]))
  · have hdone : u.cmdRestep c = (u.restepTo off).complete c.tag eOk := by
      rcases hgiven with ⟨hmode, h1, h2, h3, hjump, rfl⟩ | ⟨hmode, hgiven⟩
      · exact cmdRestep_mean hclean hstate hmode h1 h2 h3 hjump hoff
      · exact cmdRestep_given hclean hstate hmode hgiven hoff
    obtain ⟨hans, hframe⟩ := h.completesFrom (st := eOk) (detail := 0) (result := 0) (data := []) (v := u.restepTo off) (by decide)
      (by decide) rfl
    exact ⟨_, (exec_timeRestep h).trans (by rw [hdone]), hans, by rw [hframe]; rfl, by rw [hframe]; rfl⟩
  · exact h.completes (by decide) (by decide)
      ((exec_timeRestep h).trans (by rw [cmdRestep_unlocked hclean hmode hgiven hstate]))
  · obtain ⟨hans, hframe⟩ := h.completesFrom (st := eOk) (detail := 0) (result := 0) (data := [])
      (v := { u with time := { u.time with todNext := some c.seconds } }) (by decide) (by decide) rfl
    exact ⟨_, (exec_timeTod h).trans (by rw [State.cmdTod, unreserved_of_clean hclean]), hans, by rw [hframe], by rw [hframe]⟩
  · exact h.completes (by decide) (by decide) (exec_timeRead h)
  · exact h.completes (by decide) (by decide) ((exec_rtcSet h).trans (by rw [cmdRtcSet_eq hclean, if_pos hsync]))
  · have hsec := seconds_lt c
    obtain ⟨hans, hframe⟩ := h.completesFrom (st := eOk) (detail := 0) (result := 0) (data := []) (v := u.stepCalendar c.seconds)
      (by decide) (by decide) (stepCalendar_svc _ _)
    refine ⟨_, (exec_rtcSet h).trans (by rw [cmdRtcSet_eq hclean, if_neg hsync]), hans, ?_, fun hfar => ?_, ?_⟩
    · rw [hframe]
      exact calendar_stepCalendar u hsec
    · rw [hframe]
      exact stepCalendar_logged u (stepsFar_of hfar)
    · rw [hframe, stepCalendar_frame]

end Sys2Proof.Machine
end

section
/-! PROOF. The servo's rate with a reserved RATE_MAX (R47). -/

namespace Sys2Proof.Machine
open Reg

/-- A supervisor that is ON with the servo LOCKED on PTP; TIME_RATE stands at its largest value, RATE_MAX holds a reserved
value (63) that the field can hold but no accepted write leaves there, and the last error lay far below the present one. -/
def servoAtTop : State :=
  { ((((((State.reset.wr PWR_DOM_STATE domOnSt 0 78).wr TIME_CTL_SRC 1).wr TIME_STAT_REF_OK 1).wr TIME_STAT_STATE
      stLocked).wr TIME_SERVO_RATE_MAX 63).wr TIME_SERVO_SLEW 31).wr TIME_RATE (2 ^ 35 - 1) with
    now := 1, time := { lastErr := some (0, -2 ^ 60) } }

/-- `TIME_RATE` after a Sync without phase error at `servoAtTop`: the rate that SLEW lets it reach has 37 bits and wraps. -/
theorem servoAtTop_wraps :
    (match exec (.ptpSyncReceived (servoAtTop.ntAt servoAtTop.now)) servoAtTop with
      | .next t => t.rdi TIME_RATE
      | _ => 0) = -33661680427 := by
  decide +kernel

/-- Refutes O27: with the reserved RATE_MAX 63 the servo may raise `TIME_RATE` past 2^35 - 1, the largest value of its field,
so that it reads negative: a change far beyond what SLEW allows. -/
theorem not_servoEventsComplete : ¬ Obligations.ServoEventsComplete := by
  rintro ⟨hsync, -⟩
  have hrate : servoAtTop.rdi TIME_RATE = 2 ^ 35 - 1 := by decide +kernel
  have hslew : servoAtTop.slewMax 4000000000 = 698057942 := by decide +kernel
  obtain ⟨t, hexec, -, -, -, -, hdiff, -⟩ := hsync servoAtTop (servoAtTop.ntAt servoAtTop.now) (by decide +kernel)
    (.inl (by decide +kernel)) (by decide +kernel) (by decide +kernel) (by decide +kernel) (by decide +kernel)
  have hwraps := servoAtTop_wraps
  rw [hexec] at hwraps
  rw [show t.rdi TIME_RATE = _ from hwraps, hrate, hslew] at hdiff
  exact absurd hdiff (by decide)

end Sys2Proof.Machine
end

section
/-! PROOF. A tag result while Edelweiss is in error (R416, R474). -/

namespace Sys2Proof.Machine
open Ev Reg

/-- The number of the port whose counter of aborted frames has the place of page 0's EDW_NOKEY_DROP: no port of the module, and
one that `Express` can hold. -/
def portAtNokeyDrop : Nat := EDW_NOKEY_DROP.base - FWD_CT_ABORT.base

/-- Terminal 0's key, of one generation. -/
def termZeroKey : KeySlot := ⟨some ⟨[], 0, 0, 0, false, false, 0, []⟩, none, false, none, 0, 0⟩

/-- A module whose Edelweiss is in error: cluster 0's verifier holds one unit of page 0, and its express frame stands as sent
from `portAtNokeyDrop`. -/
def errorVerify : State :=
  { State.reset.wr EDW_STAT_ERROR 1 with
    edw := { trk := [(0, some termZeroKey)] }
    traf := { verify := [(0, [⟨0, 0, 0, 0, false, 0, false, 0⟩])], sent := [⟨portAtNokeyDrop, 0, 0, []⟩] } }

/-- Both the key that is missing and the abort of the frame are counted at that place. -/
theorem errorVerify_countsTwice :
    (match exec (.upstreamTagResult 0) errorVerify with
      | .next t => t.cntAt EDW_NOKEY_DROP.base
      | _ => 0) = 2 := by
  decide +kernel

/-- Refutes O53: nothing holds the port of an express frame below the number of ports, so that the frame's abort may be counted
at the place of EDW_NOKEY_DROP, which then grows by two. -/
theorem not_trafficAndMapEventsComplete : ¬ Obligations.TrafficAndMapEventsComplete := by
  rintro ⟨-, -, -, htag, -⟩
  obtain ⟨t, hexec, -, -, herror, -⟩ := htag errorVerify 0 ⟨0, 0, 0, 0, false, 0, false, 0⟩ [] termZeroKey
    ⟨[], 0, 0, 0, false, false, 0, []⟩ rfl (by decide) (by decide +kernel) rfl rfl (by decide) (by decide)
  obtain ⟨-, hcounted, -⟩ := herror (by decide +kernel)
  have hone := hcounted (by decide +kernel) (by decide +kernel) (by decide +kernel)
  dsimp only at hone
  have hnone : errorVerify.cntAt EDW_NOKEY_DROP.base = 0 := by decide +kernel
  have htwo := errorVerify_countsTwice
  rw [hexec] at htwo
  rw [Nat.add_zero, hnone, show t.cntAt EDW_NOKEY_DROP.base = _ from htwo] at hone
  exact absurd hone (by decide)

end Sys2Proof.Machine
end
section
/-! PROOF. The reads that latch, remove or clear (R64, R74, R262, R332, R333, R348, R547). -/

namespace Sys2Proof.Machine
open Reg

/-! ### A master's latches (R15) -/

theorem latchKey_inj {m a b : Nat} : latchKey m a = latchKey m b ↔ a = b := by
  unfold latchKey
  omega

/-- A latch that the list gives a word to holds it, whichever of the list's words for the address comes last. -/
theorem sget_foldl_latch (m : Nat) {f : Nat → PWord} {a : Nat} (l : List (Nat × PWord)) (hf : ∀ e ∈ l, e.2 = f e.1)
    (t : List (Nat × PWord)) (h : a ∈ l.map Prod.fst ∨ sget unlatched t (latchKey m a) = f a) :
    sget unlatched (l.foldl (fun t e => sput unlatched t (latchKey m e.1) e.2) t) (latchKey m a) = f a := by
  induction l generalizing t with
  | nil => simpa using h
  | cons e l ih =>
    refine ih (fun x hx => hf x (List.mem_cons_of_mem _ hx)) _ ?_
    by_cases hea : e.1 = a
    · right
      simp only [hea, sget_sput, hf e List.mem_cons_self]
    · have hkey : latchKey m a ≠ latchKey m e.1 := fun h => hea (latchKey_inj.1 h).symm
      rw [sget_sput_ne _ _ hkey]
      exact h.imp_left fun h => (List.mem_cons.1 h).resolve_left fun h => hea h.symm

theorem sget_foldl_latch_ne (m : Nat) {a : Nat} (l : List (Nat × PWord)) (h : a ∉ l.map Prod.fst) (t : List (Nat × PWord)) :
    sget unlatched (l.foldl (fun t e => sput unlatched t (latchKey m e.1) e.2) t) (latchKey m a) =
      sget unlatched t (latchKey m a) := by
  induction l generalizing t with
  | nil => rfl
  | cons e l ih =>
    rw [List.map_cons, List.mem_cons, not_or] at h
    rw [List.foldl_cons, ih h.2, sget_sput_ne _ _ fun e' => h.1 (latchKey_inj.1 e')]

theorem latched_latchWords (s : State) (m : Nat) {f : Nat → PWord} {a : Nat} {l : List (Nat × PWord)}
    (hf : ∀ e ∈ l, e.2 = f e.1) (h : a ∈ l.map Prod.fst) : (s.latchWords m l).latched m a = f a :=
  sget_foldl_latch m l hf _ (.inl h)

theorem latched_latchWords_ne (s : State) (m : Nat) {a : Nat} {l : List (Nat × PWord)} (h : a ∉ l.map Prod.fst) :
    (s.latchWords m l).latched m a = s.latched m a :=
  sget_foldl_latch_ne m l h _

/-- What registers show is latched for each of them. -/
theorem latched_latchShown (s : State) (m : Nat) {a : Nat} {l : List Nat} (h : a ∈ l) :
    (s.latchShown m l).latched m a = s.shown a := by
  refine latched_latchWords s m (f := s.shown) (fun e he => ?_) (by simpa using h)
  obtain ⟨b, -, rfl⟩ := List.mem_map.1 he
  rfl

/-- Words latched from an address on. -/
theorem latched_latchFrom (s : State) (m b : Nat) {l : List Nat} {i : Nat} (h : i < l.length) :
    (s.latchFrom m b l).latched m (b + i) = ⟨word (l.getD i 0), false⟩ := by
  have hlatch := latched_latchWords s m (f := fun k => ⟨word (l.getD (k - b) 0), false⟩) (a := b + i)
    (l := (List.range l.length).map fun i => (b + i, ⟨word (l.getD i 0), false⟩)) (fun e he => ?_) ?_
  · rw [State.latchFrom, hlatch, Nat.add_sub_cancel_left]
  · obtain ⟨j, -, rfl⟩ := List.mem_map.1 he
    rw [Nat.add_sub_cancel_left]
  · rw [List.map_map, List.mem_map]
    exact ⟨i, List.mem_range.2 h, rfl⟩

/-- An address below those latched keeps its latch. -/
theorem latched_latchFrom_below (s : State) (m : Nat) {a b : Nat} (l : List Nat) (h : a < b) :
    (s.latchFrom m b l).latched m a = s.latched m a := by
  refine latched_latchWords_ne s m ?_
  simp only [List.map_map, List.mem_map, Function.comp_apply, not_exists, not_and]
  omega

/-! ### Reads of a register (R11, R91) -/

/-- A read that reaches a register is served. -/
theorem portRead_of_reaches {s : State} {m a : Nat} (h : s.reaches m a false) : s.portRead m a = (s.busRead m a 15).2 := by
  obtain ⟨hmaster, hresolve, hfree⟩ := h
  unfold State.portRead
  simp [hmaster, hresolve, hfree]

theorem cntIndexAt_registers {a : Nat} (h : a < 0o410000000) : cntIndexAt a = none := by
  rw [cntIndexAt, if_neg (by omega), if_neg (by omega)]

theorem memInstance_registers {a : Nat} (h : 0o400000000 ≤ a) (h' : a < 0o410000000) : memInstance a = none := by
  rw [memInstance, if_neg (by omega), if_neg (by omega), if_neg (by omega), if_neg (by omega), if_neg (by omega), if_neg (by omega)]

/-- The blocks of channels, trees and lines hold no word of the time block that a read latches or takes from a latch. -/
theorem not_timeWord {a : Nat} (h : a < 0o404000000) :
    ¬ a = 0o404000000 ∧ ¬ a = 0o404000020 ∧ ¬ a = 0o404000100 ∧
      ¬(a = 0o404000001 ∨ (0o404000010 ≤ a ∧ a < 0o404000013) ∨ (0o404000021 ≤ a ∧ a < 0o404000024) ∨ a = 0o404000101) := by
  omega

/-- A read of `TIME_LP_A` (R74). -/
theorem busRead_timeLpA (s : State) (m : Nat) :
    (s.busRead m 0o404000000 15).2 =
      (s.latchFrom m 0o404000001 [lpB s.now]).latchFrom m 0o404000010 (ntWords (s.ntAt s.now)) := by
  simp only [State.busRead, cntIndexAt_registers (a := 0o404000000) (by decide),
    memInstance_registers (a := 0o404000000) (by decide) (by decide), Option.isSome_none, Bool.false_eq_true, if_false, if_true]

/-- A read of `TIME_TSQ_E0` with an entry of an earlier clock (R64). -/
theorem busRead_tsqE0 {s : State} (m : Nat) {e : TsqEntry} {rest : List TsqEntry} (hq : s.time.tsq = e :: rest)
    (hclk : e.clk ≠ s.clock) :
    (s.busRead m 0o404000020 15).2 =
      ({ s with time := { s.time with tsq := rest } } : State).latchFrom m 0o404000021 (ntWords e.stamp) := by
  have hne : ¬ (0o404000020 : Nat) = 0o404000000 := by decide
  simp only [State.busRead, cntIndexAt_registers (a := 0o404000020) (by decide),
    memInstance_registers (a := 0o404000020) (by decide) (by decide), Option.isSome_none, Bool.false_eq_true, if_false, if_true,
    hne, State.tsqPop, hq, hclk, List.tail_cons]

/-- A read of the first quality word of a channel (R348). -/
theorem busRead_chQstat (s : State) (m : Nat) {a : Nat} (hlo : 0o400000000 ≤ a) (hhi : a < 0o401000000)
    (hoff : (a - 0o400000000) % 0o1000 = 5) :
    (s.busRead m a 15).2 = s.latchShown m [a + 1, a + 2, a + 3, a + 4] := by
  obtain ⟨h1, h2, h3, h4⟩ := not_timeWord (a := a) (by omega)
  simp only [State.busRead, cntIndexAt_registers (a := a) (by omega), memInstance_registers (a := a) hlo (by omega),
    Option.isSome_none, Bool.false_eq_true, if_false, if_true, h1, h2, h3, h4, hlo, hhi, hoff, and_self]

/-- The state with the burst records `q` left in tree `k`, and COUNT after them (R333). -/
def State.bevLeft (s : State) (k : Nat) (q : List BevEntry) : State :=
  (s.setTree k { s.tree k with bev := q }).wr TREE_BEV_STAT_COUNT q.length k

theorem tree_bevLeft (s : State) (k : Nat) (q : List BevEntry) : (s.bevLeft k q).tree k = { s.tree k with bev := q } :=
  tree_setTree s k _

theorem count_bevLeft (s : State) (k : Nat) {q : List BevEntry} (h : q.length < 256) :
    (s.bevLeft k q).rd TREE_BEV_STAT_COUNT k = q.length :=
  (rd_wr _ _ _ _ _ _ (by decide) (by decide)).trans (Nat.mod_eq_of_lt h)

/-- A read of `TREE_BEV_E0` with a burst record of an earlier clock (R333). -/
theorem busRead_treeBev (s : State) (m : Nat) {a : Nat} (hlo : 0o401000000 ≤ a) (hhi : a < 0o401400000)
    (hoff : (a - 0o401000000) % 0o4000 = 3) {e : BevEntry} {q : List BevEntry}
    (hq : (s.tree ((a - 0o401000000) / 0o4000)).bev = e :: q) (hclk : e.clk ≠ s.clock) :
    (s.busRead m a 15).2 =
      (s.bevLeft ((a - 0o401000000) / 0o4000) q).latchFrom m (a + 1) [e.e1, e.e2] := by
  obtain ⟨h1, h2, h3, h4⟩ := not_timeWord (a := a) (by omega)
  have h5 : ¬(0o400000000 ≤ a ∧ a < 0o401000000) := by omega
  simp only [State.busRead, cntIndexAt_registers (a := a) (by omega), memInstance_registers (a := a) (by omega) (by omega),
    Option.isSome_none, Bool.false_eq_true, if_false, if_true, h1, h2, h3, h4, h5, hlo, hhi, hoff, and_self, State.popBev, hq, hclk,
    State.bevLeft]

/-- A read of a report word of a tree (R332). -/
theorem busRead_treeRpt (s : State) (m : Nat) {a : Nat} (hlo : 0o401000000 ≤ a) (hhi : a < 0o401400000)
    (hoff : 0o1000 ≤ (a - 0o401000000) % 0o4000) (hoff' : (a - 0o401000000) % 0o4000 < 0o3000) :
    (s.busRead m a 15).2 = s.wr TREE_RPT_FRESH 0 ((a - 0o401000000) / 0o4000) ((a - 0o401000000) % 0o4000 - 0o1000) := by
  obtain ⟨h1, h2, h3, h4⟩ := not_timeWord (a := a) (by omega)
  have h5 : ¬(0o400000000 ≤ a ∧ a < 0o401000000) := by omega
  have h6 : ¬ (a - 0o401000000) % 0o4000 = 3 := by omega
  have h7 : ¬ ((a - 0o401000000) % 0o4000 = 4 ∨ (a - 0o401000000) % 0o4000 = 5) := by omega
  simp only [State.busRead, cntIndexAt_registers (a := a) (by omega), memInstance_registers (a := a) (by omega) (by omega),
    Option.isSome_none, Bool.false_eq_true, if_false, if_true, h1, h2, h3, h4, h5, h6, h7, hlo, hhi, hoff, hoff', and_self]

/-- The words of the set of line quality words whose first is at `a` (R262). -/
def lineQualityWords (a : Nat) : List Nat :=
  [a + 1, a + 2, a - 0o2007 + 0o4071] ++ (List.range 64).map fun i => a - 0o2007 + 0o2100 + i

theorem mem_lineQualityWords (a : Nat) :
    a + 1 ∈ lineQualityWords a ∧ a + 2 ∈ lineQualityWords a ∧ a - 0o2007 + 0o4071 ∈ lineQualityWords a ∧
      ∀ i, i < 64 → a - 0o2007 + 0o2100 + i ∈ lineQualityWords a := by
  unfold lineQualityWords
  refine ⟨by simp, by simp, by simp, fun i hi => List.mem_append_right _ ?_⟩
  exact List.mem_map_of_mem (List.mem_range.2 hi)

/-- A read of the first quality word of a line (R262). -/
theorem busRead_lineQstat (s : State) (m : Nat) {a : Nat} (hlo : 0o402000000 ≤ a) (hhi : a < 0o403000000)
    (hoff : (a - 0o402000000) % 0o100000 = 0o2007) :
    (s.busRead m a 15).2 =
      s.latchShown m (lineQualityWords a) := by
  obtain ⟨h1, h2, h3, h4⟩ := not_timeWord (a := a) (by omega)
  have h5 : ¬(0o400000000 ≤ a ∧ a < 0o401000000) := by omega
  have h6 : ¬(0o401000000 ≤ a ∧ a < 0o401400000) := by omega
  simp only [State.busRead, cntIndexAt_registers (a := a) (by omega), memInstance_registers (a := a) (by omega) (by omega),
    Option.isSome_none, Bool.false_eq_true, if_false, if_true, h1, h2, h3, h4, h5, h6, hlo, hhi, hoff, and_self, lineQualityWords]

/-- A read of the count word of a counter (R547). -/
theorem busRead_countWord (s : State) (m : Nat) {a : Nat} (hcnt : (cntIndexAt a).isSome = true) (heven : a % 2 = 0) :
    (s.busRead m a 15).2 =
      ((s.cntRead a 15).2.latchWords m [(lastCntKey, ⟨word a, false⟩)]).latchWords m
        [(a + 1, (s.cntStored (a + 1)).deliver 15)] := by
  simp only [State.busRead, hcnt, if_true, State.cntLoad, heven]

/-! ### Latching changes the latches alone -/

theorem latchWords_frame (s : State) (m : Nat) (l : List (Nat × PWord)) :
    s.latchWords m l = { s with latch := (s.latchWords m l).latch } := rfl

theorem latchFrom_frame (s : State) (m a : Nat) (l : List Nat) :
    s.latchFrom m a l = { s with latch := (s.latchFrom m a l).latch } := rfl

theorem cntRead_noted (s : State) (a le : Nat) : Noted s (s.cntRead a le).2 := noteRead_noted _ _ _ _ _

/-- The counter file holds the words of every counter (R541). -/
theorem cntIndexAt_cntAddr {x : Nat} (h : x < 1048576) : (cntIndexAt (cntAddr x)).isSome = true := by
  unfold cntAddr cntIndexAt
  split
  · rw [if_pos (by omega)]
    rfl
  · rw [if_neg (by omega), if_pos (by omega)]
    rfl

theorem cntAddr_even (x : Nat) : cntAddr x % 2 = 0 := by
  unfold cntAddr
  split <;> omega

theorem cntAddr_lt {x : Nat} (h : x < 1048576) : cntAddr x + 1 < lastCntKey := by
  unfold cntAddr lastCntKey
  split <;> omega

/-- LP word B of a tick, in ticks (R9). -/
theorem lpB_eq (t : Nat) : lpB t = t % 4096000000 / 500000 * 2 ^ 23 + t % 500000 * 2 ^ 4 := by
  have hsf : ticksSf = 4096000000 := by decide
  have hfr : ticksFr = 500000 := by decide
  rw [lpB, hsf, hfr]

theorem addr_lineQstat (l : Nat) : LINE_RX_QSTAT_VALID.addr l 0 0 = 0o402000000 + l * 0o100000 + 0o2007 := by
  simp only [Field.addr, LINE_RX_QSTAT_VALID, Nat.zero_mul, Nat.add_zero]

theorem addr_treeBevE0 (k : Nat) : TREE_BEV_E0_W.addr k 0 0 = 0o401000000 + k * 0o4000 + 3 := by
  simp only [Field.addr, TREE_BEV_E0_W, Nat.zero_mul, Nat.add_zero]

theorem addr_treeRpt (k i : Nat) : TREE_RPT_FRESH.addr k i 0 = 0o401000000 + k * 0o4000 + 0o1000 + i := by
  simp only [Field.addr, TREE_RPT_FRESH]
  omega

/-- A row that is one read of a register: the state that the read leaves. -/
theorem exec_read {s t : State} {m a : Nat} {i : Instr} (hexec : exec i s = .next (s.portRead m a)) (h : s.reaches m a false)
    (hread : (s.busRead m a 15).2 = t) : exec i s = .next t := by
  rw [hexec, portRead_of_reaches h, hread]

/-- Settles O23, read by read. -/
theorem readsWithEffectComplete : Obligations.ReadsWithEffectComplete := by
  refine ⟨fun s m h => ?_, fun s m e rest h hq hclk => ?_, fun s m l h => ?_, fun s m c h => ?_,
    fun s m k e q h hq hclk hlen => ?_, fun s m k i h => ?_, fun s m x hx h => ?_⟩
  · refine ⟨_, exec_read rfl h (busRead_timeLpA s m), ?_, fun i hi => latched_latchFrom _ _ _ hi, ?_⟩
    · rw [latched_latchFrom_below _ _ _ (by decide), ← lpB_eq]
      exact latched_latchFrom s m 0o404000001 (l := [lpB s.now]) (i := 0) Nat.one_pos
    · rw [latchFrom_frame, latchFrom_frame s]
  · exact ⟨_, exec_read rfl h (busRead_tsqE0 m hq hclk), rfl, fun i hi => latched_latchFrom _ _ _ hi, rfl⟩
  · have ha := addr_lineQstat l
    obtain ⟨hendA, hendB, hspec, hbands⟩ := mem_lineQualityWords (LINE_RX_QSTAT_VALID.addr l 0 0)
    refine ⟨_, exec_read rfl h (busRead_lineQstat s m (by omega) (by omega) (by omega)), ?_, ?_, fun i hi => ?_, ?_, ?_⟩
    · exact latched_latchShown s m hendA
    · exact latched_latchShown s m hendB
    · exact latched_latchShown s m (hbands i hi)
    · exact latched_latchShown s m hspec
    · exact latchWords_frame s m _
  · refine ⟨_, exec_read rfl h (busRead_chQstat s m (by omega) (by omega) (by omega)),
      fun i hlo hhi => latched_latchShown _ _ ?_, rfl⟩
    simp only [List.mem_cons, List.not_mem_nil, or_false]
    omega
  · have ha := addr_treeBevE0 k
    have htree : (TREE_BEV_E0_W.addr k 0 0 - 0o401000000) / 0o4000 = k := by omega
    have hread := busRead_treeBev s m (a := TREE_BEV_E0_W.addr k 0 0) (by omega) (by omega) (by omega)
      (by rw [htree]; exact hq) hclk
    rw [htree] at hread
    exact ⟨_, exec_read rfl h hread, tree_bevLeft s k q, count_bevLeft s k hlen,
      latched_latchFrom _ _ _ (l := [e.e1, e.e2]) (i := 0) Nat.two_pos,
      latched_latchFrom _ _ _ (l := [e.e1, e.e2]) (i := 1) Nat.one_lt_two, rfl⟩
  · have ha := addr_treeRpt k i
    have hread := busRead_treeRpt s m (a := TREE_RPT_FRESH.addr k i 0) (by omega) (by omega) (by omega) (by omega)
    rw [show (TREE_RPT_FRESH.addr k i 0 - 0o401000000) / 0o4000 = k by omega,
      show (TREE_RPT_FRESH.addr k i 0 - 0o401000000) % 0o4000 - 0o1000 = i by omega] at hread
    exact ⟨_, exec_read rfl h hread, rd_wr _ _ _ _ _ _ (by decide) (by decide),
      rd_wr_apart _ _ _ _ _ _ _ _ _ _ (by decide) (by decide) (by decide) (by decide), rfl⟩
  · have hread := busRead_countWord s m (cntIndexAt_cntAddr hx) (cntAddr_even x)
    have hlast := cntAddr_lt hx
    refine ⟨_, exec_read rfl h hread, ?_, ?_, ?_⟩
    · exact latched_latchWords _ m (f := fun _ => (s.cntStored (cntAddr x + 1)).deliver 15) (by simp) (by simp)
    · rw [show 2 ^ 30 - 1 = lastCntKey from rfl, latched_latchWords_ne _ m (by simp [hlast.ne'])]
      exact latched_latchWords _ m (f := fun _ => ⟨word (cntAddr x), false⟩) (by simp) (by simp)
    · rw [latchWords_frame, latchWords_frame (s.cntRead (cntAddr x) 15).2, (cntRead_noted s (cntAddr x) 15).same]

end Sys2Proof.Machine
end
section
/-! PROOF. Writes of the time, monitor, Groomer test and watchdog words (R49, R51, R75, R490, R494, R534, R588). -/

namespace Sys2Proof.Machine
open Ev Reg

/-! ### A write that is made (R12) -/

/-- A whole-word write that the checks pass, outside the core blocks and the lane memories (R12). -/
theorem busWrite_done {s : State} (m : Nat) {a : Nat} {w : Word} (issued : Nat) (hj : s.judged a w = .done)
    (hlt : a < 0o460000000) (hm : memInstance a = none) (hlock : a ≠ 0o404001001 ∨ s.rdb PWR_WDOG_CTL_EN = false) :
    (s.busWrite m a 15 w none issued).2 = (s.setReg a (s.after a w)).afterWrite s a 15 (word (written a w)) := by
  have hgo : ¬(15 % 16 = 0 ∨ (a = 0o404001001 ∧ s.rdb PWR_WDOG_CTL_EN = true)) := by
    rcases hlock with ha | hen
    · simp [ha]
    · simp [hen]
  unfold State.busWrite
  rw [if_neg hgo]
  simp only [written_whole, blend_whole]
  rw [State.judged] at hj
  rw [hj, hm]
  simp only [if_neg (Nat.not_le.mpr hlt), Option.isSome_none, Bool.false_eq_true, if_false, State.after]

/-- The state after the stored value of a write is in its register: what the write brings is added to it. -/
def State.stored (s : State) (a : Nat) (w : Word) : State := s.setReg a (s.after a w)

/-- A row that is one write of a register: the state that the write leaves. -/
theorem exec_write {s : State} {m a : Nat} {w : Word} {i : Instr} (hexec : exec i s = .next (s.portWrite m a w))
    (h : s.accepts m a w) (hlt : a < 0o460000000) (hm : memInstance a = none)
    (hlock : a ≠ 0o404001001 ∨ s.rdb PWR_WDOG_CTL_EN = false) :
    exec i s = .next ((s.stored a w).afterWrite s a 15 (word (written a w))) := by
  rw [hexec, portWrite_of_reaches w h.1, busWrite_done m _ h.2 hlt hm hlock, State.stored]

/-- A register without bits that its fields leave out takes the word as written. -/
theorem word_written {a : Nat} (h : keptBits a = 2 ^ 36 - 1) (w : Word) : word (written a w) = w := by
  rw [written, h, Nat.and_two_pow_sub_one_eq_mod, Nat.mod_eq_of_lt w.isLt]
  exact BitVec.ofNat_toNat 36 w |>.trans (BitVec.setWidth_eq w)

theorem reg_stored (s : State) (a : Nat) (w : Word) : (s.stored a w).reg a = s.after a w := reg_setReg _ _ _

theorem reg_stored_ne (s : State) {a b : Nat} (w : Word) (h : b ≠ a) : (s.stored a w).reg b = s.reg b := reg_setReg_ne _ _ h

theorem rd_stored (s : State) {a : Nat} (w : Word) {f : Field} {i j k : Nat} (h : f.addr i j k ≠ a) :
    (s.stored a w).rd f i j k = s.rd f i j k := by
  rw [State.rd, State.rd, reg_stored_ne s w h]

theorem rdb_stored (s : State) {a : Nat} (w : Word) {f : Field} {i j k : Nat} (h : f.addr i j k ≠ a) :
    (s.stored a w).rdb f i j k = s.rdb f i j k := by
  rw [State.rdb, State.rdb, rd_stored s w h]

/-! ### The servo (R49, R51, R75) -/

/-- The check of `TIME_SERVO` (R75). -/
theorem timeServoOk_of_judged {s : State} {w : Word} (h : s.judged 0o404000014 w = .done) : timeServoOk w = true := by
  by_contra hbad
  have hword : word (written 0o404000014 w) = w := word_written (by decide) w
  have hcheck : s.wordCheck 0o404000014 w = .badRange := by
    simp [State.wordCheck, hbad]
  rw [State.judged, State.writeCheck] at h
  simp only [hword, hcheck] at h
  split at h <;> cases h

/-- What a write of `TIME_SERVO` brings is its word alone. -/
theorem afterWrite_timeServo (s old : State) (x : Word) : s.afterWrite old 0o404000014 15 x = s := by
  simp [State.afterWrite]

theorem exec_timeServoWrite {s : State} {m : Nat} {w : Word} (h : s.accepts m 0o404000014 w) :
    exec (.timeServoWrite m w) s = .next (s.stored 0o404000014 w) := by
  rw [exec_write (a := 0o404000014) rfl h (by decide) (by decide) (.inl (by decide)), afterWrite_timeServo]

theorem exec_timeServoWrite_bad {s : State} {m : Nat} {w : Word} (h : s.reaches m 0o404000014 true)
    (hj : s.judged 0o404000014 w = .badRange) : exec (.timeServoWrite m w) s = .next s := by
  have hexec : exec (.timeServoWrite m w) s = .next (s.portWrite m 0o404000014 w) := rfl
  rw [hexec, portWrite_of_reaches w h, busWrite_rejected _ _ _ _ _ (.inr (.inr hj))]

/-- What a write of `TIME_CTL` brings follows SRC and EN before it and after it (R49, R51). -/
theorem exec_timeCtlWrite {s : State} {m : Nat} {w : Word} (h : s.accepts m 0o404000002 w) :
    exec (.timeCtlWrite m w) s = .next ((s.stored 0o404000002 w).wroteTimeCtl (s.rd TIME_CTL_SRC) (s.rdb TIME_CTL_EN)) := by
  rw [exec_write (a := 0o404000002) rfl h (by decide) (by decide) (.inl (by decide))]
  simp [State.afterWrite]

/-- The history of the rates is kept in the servo's state, whose counts it leaves. -/
theorem noteRate_frame (s : State) :
    s.noteRate = { s with time := s.noteRate.time } ∧ s.noteRate.time.runLen = s.time.runLen := by
  unfold State.noteRate
  split <;> exact ⟨rfl, rfl⟩

/-- A rate set leaves the other register words, the outlier run and LP. -/
theorem reg_setRate (s : State) (r : Int) {a : Nat} (hrate : a ≠ TIME_RATE.addr 0 0 0) : (s.setRate r).reg a = s.reg a := by
  have hwri : (s.setRate r).reg a = (s.wri TIME_RATE r).reg a := by rw [State.reg, State.reg, State.setRate]
  rw [hwri, State.wri, State.wr, reg_setReg_ne _ _ hrate]

theorem runLen_setRate (s : State) (r : Int) : (s.setRate r).time.runLen = s.time.runLen := by
  have hwri : (s.setRate r).time.runLen = (s.wri TIME_RATE r).time.runLen := by rw [State.setRate]
  rw [hwri, wri_time]

theorem now_setRate (s : State) (r : Int) : (s.setRate r).now = s.now := by
  have hwri : (s.setRate r).now = (s.wri TIME_RATE r).now := by rw [State.setRate]
  rw [hwri, wri_now]

/-- The servo with its rate frozen (R50). -/
def State.frozen (s : State) : State := s.noteRate.setRate (frozenRate s.noteRate.time.rates (s.noteRate.rdi TIME_RATE))

theorem toHoldover_eq (s : State) :
    s.toHoldover =
      { s.frozen with time := { s.frozen.time with consec := 0, lastErr := none } }.wr TIME_STAT_STATE stHoldover := by
  simp only [State.toHoldover, State.frozen]

theorem reg_frozen (s : State) {a : Nat} (hrate : a ≠ TIME_RATE.addr 0 0 0) : s.frozen.reg a = s.reg a := by
  rw [State.frozen, reg_setRate _ _ hrate, State.reg, (noteRate_frame s).1]
  rfl

theorem runLen_frozen (s : State) : s.frozen.time.runLen = s.time.runLen := by
  rw [State.frozen, runLen_setRate, (noteRate_frame s).2]

theorem now_frozen (s : State) : s.frozen.now = s.now := by
  rw [State.frozen, now_setRate, (noteRate_frame s).1]

/-- HOLDOVER entered leaves the register words but `TIME_RATE` and `TIME_STAT`. -/
theorem reg_toHoldover (s : State) {a : Nat} (hrate : a ≠ TIME_RATE.addr 0 0 0) (hstat : a ≠ TIME_STAT_STATE.addr 0 0 0) :
    s.toHoldover.reg a = s.reg a := by
  rw [toHoldover_eq, State.wr, reg_setReg_ne _ _ hstat, ← reg_frozen s hrate, State.reg, State.reg]

theorem state_toHoldover (s : State) : s.toHoldover.rd TIME_STAT_STATE = stHoldover := by
  rw [toHoldover_eq, rd_wr _ _ _ _ _ _ (by decide) (by decide)]
  rfl

theorem time_toHoldover (s : State) : s.toHoldover.time.consec = 0 ∧ s.toHoldover.time.runLen = s.time.runLen := by
  rw [toHoldover_eq, wr_time, ← runLen_frozen s]
  exact ⟨rfl, rfl⟩

theorem now_toHoldover (s : State) : s.toHoldover.now = s.now := by
  rw [toHoldover_eq, wr_now, ← now_frozen s]

/-- LOCKED left for HOLDOVER, the counts discarded and the event raised (R49, R51). -/
def State.lockLost (s : State) : State := (s.dropCounts.toHoldover).occur TIME_HOLDOVER

theorem reg_lockLost (s : State) {a : Nat} (halert : a ≠ alertAddr) (hrate : a ≠ TIME_RATE.addr 0 0 0)
    (hstat : a ≠ TIME_STAT_STATE.addr 0 0 0) : s.lockLost.reg a = s.reg a :=
  ((occur_events _ _ _ _).2 a halert).trans (reg_toHoldover _ hrate hstat)

theorem state_lockLost (s : State) : s.lockLost.rd TIME_STAT_STATE = stHoldover :=
  ((occur_events _ _ _ _).rd _ _ _ _ (by decide)).trans (state_toHoldover _)

theorem time_lockLost (s : State) : s.lockLost.time.consec = 0 ∧ s.lockLost.time.runLen = 0 := by
  rw [State.lockLost, occur_time]
  exact time_toHoldover s.dropCounts

theorem raised_lockLost (s : State) : TIME_HOLDOVER.raised s s.lockLost 0 [] :=
  Code.raised_of_now (occur_raised _ _ _ _) (now_toHoldover s.dropCounts)

/-- EN cleared in ACQUIRE (R49). -/
theorem wroteTimeCtl_acquire {s : State} (src : Nat) (hst : s.rd TIME_STAT_STATE = stAcquire) (hen : s.rdb TIME_CTL_EN = false) :
    s.wroteTimeCtl src true = { s with time := { s.time with acqCount := 0 } }.wr TIME_STAT_STATE stFree := by
  simp [State.wroteTimeCtl, hst, hen]

/-- EN or SRC cleared in LOCKED (R49, R51). -/
theorem wroteTimeCtl_locked {s : State} {src : Nat} {en : Bool} (hst : s.rd TIME_STAT_STATE = stLocked)
    (h : (en = true ∧ s.rdb TIME_CTL_EN = false) ∨ (src ≠ 0 ∧ s.rd TIME_CTL_SRC = 0)) :
    s.wroteTimeCtl src en = s.lockLost := by
  have hne : stLocked ≠ stAcquire := by decide
  have hgone : ((en && !s.rdb TIME_CTL_EN) || (decide (src ≠ 0) && decide (s.rd TIME_CTL_SRC = 0))) = true := by
    rcases h with ⟨hen, hoff⟩ | ⟨hsrc, hzero⟩
    · rw [hen, hoff]; rfl
    · simp [hsrc, hzero]
  simp only [State.wroteTimeCtl, hst, hne, hgone, if_false, if_true, State.lockLost]

/-- EN cleared or SRC changed in HOLDOVER (R51, R627). -/
theorem wroteTimeCtl_holdover {s : State} {src : Nat} {en : Bool} (hst : s.rd TIME_STAT_STATE = stHoldover)
    (h : (en = true ∧ s.rdb TIME_CTL_EN = false) ∨ src ≠ s.rd TIME_CTL_SRC) : s.wroteTimeCtl src en = s.dropCounts := by
  have hne : stHoldover ≠ stAcquire := by decide
  have hne' : stHoldover ≠ stLocked := by decide
  have hgone : ((en && !s.rdb TIME_CTL_EN) || (decide (src ≠ 0) && decide (s.rd TIME_CTL_SRC = 0)) ||
      (decide (s.rd TIME_CTL_SRC ≠ src) && decide (s.rd TIME_CTL_SRC ≠ 0))) = true := by
    rcases h with ⟨hen, hoff⟩ | hsrc
    · rw [hen, hoff]; rfl
    · by_cases hzero : s.rd TIME_CTL_SRC = 0
      · rw [hzero] at hsrc
        simp [hsrc, hzero]
      · simp [hsrc.symm, hzero]
  simp only [State.wroteTimeCtl, hst, hne, hne', hgone, if_false, if_true]

/-- Outside FREE nothing is tried. -/
theorem tryAcquire_busy {s : State} (h : s.rd TIME_STAT_STATE ≠ stFree) : s.tryAcquire = s := by
  rw [State.tryAcquire, if_neg fun hall => h hall.1]

/-- A write that changes neither EN nor SRC outside FREE (R49). -/
theorem wroteTimeCtl_same {s : State} (hst : s.rd TIME_STAT_STATE ≠ stFree) :
    s.wroteTimeCtl (s.rd TIME_CTL_SRC) (s.rdb TIME_CTL_EN) = s := by
  have hen : (s.rdb TIME_CTL_EN && !s.rdb TIME_CTL_EN) = false := by cases s.rdb TIME_CTL_EN <;> rfl
  have hoff : (decide (s.rd TIME_CTL_SRC ≠ 0) && decide (s.rd TIME_CTL_SRC = 0)) = false := by
    by_cases h : s.rd TIME_CTL_SRC = 0 <;> simp [h]
  have hnew : (decide (s.rd TIME_CTL_SRC ≠ s.rd TIME_CTL_SRC) && decide (s.rd TIME_CTL_SRC ≠ 0)) = false := by simp
  simp only [State.wroteTimeCtl, hen, hoff, hnew, Bool.or_self, Bool.false_eq_true, if_false, ite_self, tryAcquire_busy hst]

/-- In FREE the servo tries to acquire, whatever was written (R49). -/
theorem wroteTimeCtl_free {s : State} (src : Nat) (en : Bool) (hst : s.rd TIME_STAT_STATE = stFree) :
    s.wroteTimeCtl src en = s.tryAcquire := by
  have h1 : stFree ≠ stAcquire := by decide
  have h2 : stFree ≠ stLocked := by decide
  have h3 : stFree ≠ stHoldover := by decide
  simp only [State.wroteTimeCtl, hst, h1, h2, h3, if_false]

/-- FREE is left once REF_OK, OCXO_WARM and EN are all 1 (R49). -/
theorem state_tryAcquire {s : State} (hst : s.rd TIME_STAT_STATE = stFree) :
    s.tryAcquire.rd TIME_STAT_STATE =
      if s.rdb TIME_STAT_REF_OK = true ∧ s.rdb TIME_STAT_OCXO_WARM = true ∧ s.rdb TIME_CTL_EN = true then stAcquire else stFree := by
  unfold State.tryAcquire
  by_cases h : s.rdb TIME_STAT_REF_OK = true ∧ s.rdb TIME_STAT_OCXO_WARM = true ∧ s.rdb TIME_CTL_EN = true
  · rw [if_pos ⟨hst, h⟩, if_pos h]
    exact rd_wr _ _ _ _ _ _ (by decide) (by decide)
  · rw [if_neg fun hall => h hall.2, if_neg h, hst]

theorem reg_tryAcquire (s : State) {a : Nat} (hstat : a ≠ TIME_STAT_STATE.addr 0 0 0) : s.tryAcquire.reg a = s.reg a := by
  unfold State.tryAcquire
  split
  · exact reg_setReg_ne _ _ hstat
  · rfl

/-- Whatever a write of `TIME_CTL` brings, the words but those of the rate, the status and the alert stay. -/
theorem reg_wroteTimeCtl (s : State) (src : Nat) (en : Bool) {a : Nat} (halert : a ≠ alertAddr)
    (hrate : a ≠ TIME_RATE.addr 0 0 0) (hstat : a ≠ TIME_STAT_STATE.addr 0 0 0) :
    (s.wroteTimeCtl src en).reg a = s.reg a := by
  unfold State.wroteTimeCtl
  extract_lets st enOff srcOff srcNew
  split
  · split
    · exact reg_setReg_ne _ _ hstat
    · split <;> rfl
  · split
    · split
      · exact reg_lockLost s halert hrate hstat
      · split <;> rfl
    · split
      · split <;> rfl
      · exact reg_tryAcquire s hstat

/-! ### Sequences of a converter (R490, R494) -/

theorem addr_seqCtl (m : Nat) : MON_SEQ_CTL_EN.addr m 0 0 = 0o401500002 + 0o1000 * m := by
  simp only [Field.addr, MON_SEQ_CTL_EN]
  omega

theorem addr_monState (m : Nat) : MON_STAT_STATE.addr m 0 0 = 0o401500001 + 0o1000 * m := by
  simp only [Field.addr, MON_STAT_STATE]
  omega

theorem addr_seqEn (m e : Nat) : MON_SEQ_EN.addr m e 0 = 0o401500200 + 0o1000 * m + e := by
  simp only [Field.addr, MON_SEQ_EN]
  omega

theorem addr_domState (d : Nat) : PWR_DOM_STATE.addr 0 d 0 = 0o404001100 + d := by
  simp only [Field.addr, PWR_DOM_STATE]
  omega

/-- What a write of `MON_SEQ_CTL` brings follows EN before it and after it (R494). -/
theorem exec_monSeqCtlWrite {s : State} {k : Nat} {m : Fin 18} {w : Word} (h : s.accepts k (MON_SEQ_CTL_EN.addr m 0 0) w) :
    exec (.monSeqCtlWrite k m w) s =
      .next ((s.stored (MON_SEQ_CTL_EN.addr m 0 0) w).wroteSeqCtl m (s.rdb MON_SEQ_CTL_EN m)) := by
  have ha := addr_seqCtl m
  rw [exec_write rfl h (by omega) (memInstance_registers (by omega) (by omega)) (.inl (by omega))]
  generalize s.stored (MON_SEQ_CTL_EN.addr m 0 0) w = r
  generalize MON_SEQ_CTL_EN.addr m 0 0 = a at ha
  have h1 : ¬(0o450010000 ≤ a ∧ a < 0o450020000) := by omega
  have h2 : ¬ a = 0o404000002 := by omega
  have h3 : ¬ a = 0o404001001 := by omega
  have h4 : ¬ a = 0o404001002 := by omega
  have h5 : ¬(0o403000000 ≤ a ∧ a < 0o403100000 ∧ (a - 0o403000000) % 0o2000 = 0) := by omega
  have h6 : ¬(0o402000000 ≤ a ∧ a < 0o403000000) := by omega
  have h7 : 0o401500000 ≤ a ∧ a < 0o402000000 := by omega
  have hoff : (a - 0o401500000) % 0o1000 = 2 := by omega
  have hmon : (a - 0o401500000) / 0o1000 = m := by omega
  simp only [State.afterWrite, h1, h2, h3, h4, h5, h6, if_pos h7, hoff, hmon, if_false, if_true, OfNat.ofNat_ne_zero]

/-- EN that is not turned on starts nothing. -/
theorem wroteSeqCtl_same {s : State} {m : Nat} {en : Bool} (h : en = true ∨ s.rdb MON_SEQ_CTL_EN m = false) :
    s.wroteSeqCtl m en = s := by
  have hno : (en || !s.rdb MON_SEQ_CTL_EN m) = true := by rcases h with h | h <;> simp [h]
  rw [State.wroteSeqCtl, if_pos hno]

/-- EN turned on, by what the converter does (R494, R496). -/
theorem wroteSeqCtl_on {s : State} {m : Nat} (h : s.rdb MON_SEQ_CTL_EN m = true) :
    s.wroteSeqCtl m false =
      if s.monState m = mSeq then s.setMon m { s.mon m with restart := true }
      else if s.monState m = mIdle then (s.startPass m s.now).goOn m false
      else if s.monState m = mDown then (s.startPass m s.now).goOn m true
      else s.startPass m s.now := by
  have hno : ¬ (false || !s.rdb MON_SEQ_CTL_EN m) = true := by simp [h]
  rw [State.wroteSeqCtl, if_neg hno]

/-- The converter's state is none of the words of `MON_SEQ_CTL`. -/
theorem monState_stored (s : State) (w : Word) {m : Nat} (hm : m < 18) :
    (s.stored (MON_SEQ_CTL_EN.addr m 0 0) w).monState m = s.monState m := by
  have hdom : monDomain m < 80 := by unfold monDomain; split <;> omega
  have h1 : PWR_DOM_STATE.addr 0 (monDomain m) 0 ≠ MON_SEQ_CTL_EN.addr m 0 0 := by
    rw [addr_domState, addr_seqCtl]
    omega
  have h2 : MON_STAT_STATE.addr m 0 0 ≠ MON_SEQ_CTL_EN.addr m 0 0 := by
    rw [addr_monState, addr_seqCtl]
    omega
  rw [State.monState, State.monState, State.domOn, State.domOn, rd_stored s w h1, rd_stored s w h2]

theorem frontEnd_eq (s : State) (m ch t : Nat) (gated : Bool) :
    ∃ g f k, s.frontEnd m ch t gated = s.setMon m { s.mon m with chan := ch, gain := g, filt := f, settled := k } :=
  ⟨_, _, _, rfl⟩

/-- An entry that begins with the converter awake: the front end is set, and the entry is in progress (R494). -/
theorem beginEntry_eq (s : State) (m e : Nat) :
    ∃ (x : MonSt) (q : SeqRun),
      s.beginEntry m e false = ((s.frontEnd m (s.rd MON_SEQ_CHAN m e) s.now false).setMon m x).setMonState m mSeq ∧
        x.passOn = (s.mon m).passOn ∧ x.entry = some q ∧ q.e = e ∧ q.first = s.now := by
  obtain ⟨g, f, k, hfront⟩ := frontEnd_eq s m (s.rd MON_SEQ_CHAN m e) s.now false
  simp only [State.beginEntry, hfront, Bool.false_eq_true, if_false, mon_setMon, setMon_now]
  exact ⟨_, _, rfl, rfl, rfl, rfl, rfl⟩

/-- An entry that has begun with the converter awake is in progress (R494). -/
theorem beginEntry_runs (s : State) {m : Nat} (e : Nat) (hon : s.domOn (monDomain m) = true) (hm : m < 18) :
    (s.beginEntry m e false).monState m = mSeq ∧ ((s.beginEntry m e false).mon m).passOn = (s.mon m).passOn ∧
      ∃ q, ((s.beginEntry m e false).mon m).entry = some q ∧ q.e = e ∧ q.first = s.now := by
  obtain ⟨x, q, hbegin, hpass, hentry, he, hfirst⟩ := beginEntry_eq s m e
  obtain ⟨g, f, k, hfront⟩ := frontEnd_eq s m (s.rd MON_SEQ_CHAN m e) s.now false
  have hdom : monDomain m < 80 := by unfold monDomain; split <;> omega
  have hne : PWR_DOM_STATE.addr 0 (monDomain m) 0 ≠ MON_STAT_STATE.addr m 0 0 := by
    rw [addr_domState, addr_monState]
    omega
  rw [hbegin, State.setMonState, mon_wr, mon_setMon]
  refine ⟨?_, hpass, q, hentry, he, hfirst⟩
  rw [State.monState, State.domOn, rd_wr_ne _ _ _ _ _ _ _ _ _ _ hne, rd_wr _ _ _ _ _ _ (by decide) (by decide), hfront,
    rd_setMon, rd_setMon, ← State.domOn, hon, if_pos rfl]
  rfl

/-- The sequence goes on with the next entry of the pass when no injection is due (R494, R501). -/
theorem goOn_entry {s : State} {m e : Nat} (hen : s.rdb MON_SEQ_CTL_EN m = true) (hre : (s.mon m).restart = false)
    (hpass : (s.mon m).passOn = true) (hnext : s.nextEntry m (s.mon m).next = some e) (hinj : s.dueInj m = none) :
    s.goOn m false = s.beginEntry m e false := by
  simp only [State.goOn, hen, hre, hpass, hnext, hinj, Bool.not_true, Bool.false_eq_true, if_false]

/-- The next entry of a pass is the first one that is enabled (R494). -/
theorem nextEntry_eq {s : State} {m e : Nat} (he : e < 64) (hlast : e ≤ (s.mon m).last) (hen : s.rdb MON_SEQ_EN m e = true)
    (hfirst : ∀ i, i < e → s.rdb MON_SEQ_EN m i = false) : s.nextEntry m 0 = some e := by
  rw [State.nextEntry, List.find?_range_eq_some]
  refine ⟨by simp [hlast, hen], List.mem_range.2 he, fun i hi => by simp [hfirst i hi]⟩

/-- The record of a converter whose pass starts (R494). -/
theorem startPass_eq (s : State) (m t : Nat) :
    ∃ x : MonSt, s.startPass m t = s.setMon m x ∧ x.passOn = true ∧ x.restart = false ∧ x.next = 0 ∧
      x.last = s.rd MON_SEQ_CTL_LAST m ∧ x.inj = (s.mon m).inj :=
  ⟨_, rfl, rfl, rfl, rfl, rfl, rfl⟩

/-- A pass that starts with the converter idle begins its first enabled entry (R494). -/
theorem startPass_goOn {s : State} {m e : Nat} (hon : s.domOn (monDomain m) = true) (hm : m < 18) (hctl : s.rdb MON_SEQ_CTL_EN m = true)
    (hinj : s.dueInj m = none) (he : e < 64) (hlast : e ≤ s.rd MON_SEQ_CTL_LAST m) (hen : s.rdb MON_SEQ_EN m e = true)
    (hfirst : ∀ i, i < e → s.rdb MON_SEQ_EN m i = false) :
    let t := (s.startPass m s.now).goOn m false
    t.monState m = mSeq ∧ (t.mon m).passOn = true ∧ ∃ q, (t.mon m).entry = some q ∧ q.e = e ∧ q.first = s.now := by
  obtain ⟨x, hstart, hpass, hre, hnext, hlast', hinj'⟩ := startPass_eq s m s.now
  have hnextEntry : (s.startPass m s.now).nextEntry m 0 = some e := by
    refine nextEntry_eq he ?_ ?_ fun i hi => ?_
    · rw [hstart, mon_setMon, hlast']
      exact hlast
    · rw [hstart, rdb_setMon]
      exact hen
    · rw [hstart, rdb_setMon]
      exact hfirst i hi
  have hgo : (s.startPass m s.now).goOn m false = (s.startPass m s.now).beginEntry m e false := by
    refine goOn_entry ?_ ?_ ?_ ?_ ?_
    · rw [hstart, rdb_setMon]
      exact hctl
    · rw [hstart, mon_setMon, hre]
    · rw [hstart, mon_setMon, hpass]
    · rw [show ((s.startPass m s.now).mon m).next = 0 by rw [hstart, mon_setMon, hnext]]
      exact hnextEntry
    · rw [State.dueInj, hstart, mon_setMon, hinj']
      exact hinj
  have hruns := beginEntry_runs (s.startPass m s.now) (m := m) e (by rw [hstart]; exact hon) hm
  rw [hgo]
  rwa [show ((s.startPass m s.now).mon m).passOn = true by rw [hstart, mon_setMon, hpass],
    show (s.startPass m s.now).now = s.now by rw [hstart, setMon_now]] at hruns

/-- A write that turns EN on with the converter idle begins the first enabled entry of a pass (R494). -/
theorem wroteSeqCtl_begins {s : State} {w : Word} {m e : Nat} (hm : m < 18) (hoff : s.rdb MON_SEQ_CTL_EN m = false)
    (hon : (s.stored (MON_SEQ_CTL_EN.addr m 0 0) w).rdb MON_SEQ_CTL_EN m = true) (hidle : s.monState m = mIdle)
    (hinj : s.dueInj m = none) (he : e < 64) (hlast : e ≤ (s.stored (MON_SEQ_CTL_EN.addr m 0 0) w).rd MON_SEQ_CTL_LAST m)
    (hen : s.rdb MON_SEQ_EN m e = true) (hfirst : ∀ i, i < e → s.rdb MON_SEQ_EN m i = false) :
    let t := (s.stored (MON_SEQ_CTL_EN.addr m 0 0) w).wroteSeqCtl m (s.rdb MON_SEQ_CTL_EN m)
    t.monState m = mSeq ∧ (t.mon m).passOn = true ∧ ∃ q, (t.mon m).entry = some q ∧ q.e = e ∧ q.first = s.now := by
  have hdom : s.domOn (monDomain m) = true := by
    by_contra hno
    rw [State.monState, if_neg hno] at hidle
    exact absurd hidle (by decide)
  have hdom' : (s.stored (MON_SEQ_CTL_EN.addr m 0 0) w).domOn (monDomain m) = true := by
    have hne : PWR_DOM_STATE.addr 0 (monDomain m) 0 ≠ MON_SEQ_CTL_EN.addr m 0 0 := by
      have hlow : monDomain m < 80 := by unfold monDomain; split <;> omega
      rw [addr_domState, addr_seqCtl]
      omega
    rw [State.domOn, rd_stored s w hne]
    exact hdom
  have hentry : ∀ i, MON_SEQ_EN.addr m i 0 ≠ MON_SEQ_CTL_EN.addr m 0 0 := fun i => by
    rw [addr_seqEn, addr_seqCtl]
    omega
  have hnseq : s.monState m ≠ mSeq := by rw [hidle]; decide
  rw [hoff, wroteSeqCtl_on hon, monState_stored s w hm, if_neg hnseq, if_pos hidle]
  exact startPass_goOn hdom' hm hon hinj he hlast ((rdb_stored s w (hentry e)).trans hen)
    fun i hi => (rdb_stored s w (hentry i)).trans (hfirst i hi)

/-! ### The check-bit test path (R534) -/

/-- A row that writes `GRM_TCMD` leaves what its OP brings. -/
theorem exec_tcmd {s : State} {m : Nat} {w : Word} {i : Instr} (hexec : exec i s = .next (s.portWrite m 0o450010023 w))
    (h : s.accepts m 0o450010023 w) : exec i s = .next ((s.stored 0o450010023 w).wroteTcmd (w.bits 1 0)) := by
  rw [exec_write hexec h (by decide) (by decide) (.inl (by decide)), word_written (by decide)]
  simp [State.afterWrite]

/-- The stored word of a lane memory that is no table. -/
theorem wordStored_memory {s : State} {g : Nat} (hg : (memInstance g).any (· < 86) = true)
    (hraw : sget (fun _ => none) s.tblRaw g = none) : s.wordStored g = s.memAt g := by
  cases hi : memInstance g with
  | none => rw [hi] at hg; cases hg
  | some i =>
    rw [hi] at hg
    have hlt : i < 86 := by simpa using hg
    simp only [State.wordStored, hraw, hi, hlt, if_true]

/-- The stored word of a lane memory that is no table depends on the memory alone. -/
theorem wordStored_congr {s t : State} {g : Nat} (hg : (memInstance g).any (· < 86) = true) (hmem : t.mem = s.mem)
    (hraw : t.tblRaw = s.tblRaw) : t.wordStored g = s.wordStored g := by
  cases hx : sget (fun _ => none) s.tblRaw g with
  | none =>
    rw [wordStored_memory hg hx, wordStored_memory hg (by rw [hraw, hx]), State.memAt, State.memAt, hmem]
  | some x =>
    have hx' : sget (fun _ => none) t.tblRaw g = some x := by rw [hraw, hx]
    cases hi : memInstance g with
    | none => simp only [State.wordStored, hx, hx', hi]
    | some i => simp only [State.wordStored, hx, hx', hi]

theorem putStored_memory {s : State} {g : Nat} (hg : (memInstance g).any (· < 86) = true) (x : Stored) :
    s.putStored g x = s.setMem g x := by
  cases hi : memInstance g with
  | none => rw [hi] at hg; cases hg
  | some i =>
    rw [hi] at hg
    have hlt : i < 86 := by simpa using hg
    simp only [State.putStored, hi, hlt, if_true]

theorem addr_coreStat (n : Nat) : CORE_STAT_STATE.addr n 0 0 = 0o460000001 + 0o10000 * n := by
  simp only [Field.addr, CORE_STAT_STATE]
  omega

theorem addr_imgBase (n : Nat) : CORE_IMG_BASE.addr n 0 0 = 0o460000005 + 0o10000 * n := by
  simp only [Field.addr, CORE_IMG_BASE]
  omega

theorem addr_imgLen (n : Nat) : CORE_IMG_LEN.addr n 0 0 = 0o460000006 + 0o10000 * n := by
  simp only [Field.addr, CORE_IMG_LEN]
  omega

/-- No domain's state is in the word of `GRM_TCMD`. -/
theorem domOn_tcmd (s : State) (w : Word) {d : Nat} (hd : d < 80) : (s.stored 0o450010023 w).domOn d = s.domOn d := by
  have hne : PWR_DOM_STATE.addr 0 d 0 ≠ 0o450010023 := by
    rw [addr_domState]
    omega
  rw [State.domOn, State.domOn, rd_stored s w hne]

/-- No core's state is in the word of `GRM_TCMD`. -/
theorem coreState_tcmd (s : State) (w : Word) (n : Nat) : (s.stored 0o450010023 w).coreState n = s.coreState n := by
  have hstat : CORE_STAT_STATE.addr n 0 0 ≠ 0o450010023 := by rw [addr_coreStat]; omega
  have hdom : coreDomain n < 80 := by unfold coreDomain; split <;> omega
  exact if_congr (by rw [domOn_tcmd s w hdom]) (rd_stored s w hstat) rfl

/-- No image region is in the word of `GRM_TCMD`. -/
theorem inImage_tcmd (s : State) (w : Word) (g : Nat) : (s.stored 0o450010023 w).inImage g = s.inImage g := by
  cases hi : memInstance g with
  | none => simp only [State.inImage, hi]
  | some n =>
    have hbase : CORE_IMG_BASE.addr n 0 0 ≠ 0o450010023 := by rw [addr_imgBase]; omega
    have hlen : CORE_IMG_LEN.addr n 0 0 ≠ 0o450010023 := by rw [addr_imgLen]; omega
    simp only [State.inImage, hi, coreState_tcmd, rd_stored s w hbase, rd_stored s w hlen]

/-- Whether a raw operation fails is no matter of the word of `GRM_TCMD`. -/
theorem rawFault_tcmd (s : State) (w : Word) (write : Bool) {g : Nat} (hg : (memInstance g).any (· < 86) = true) :
    (s.stored 0o450010023 w).rawFault write g = s.rawFault write g := by
  cases hi : memInstance g with
  | none => rw [hi] at hg; cases hg
  | some i =>
    rw [hi] at hg
    have hlt : i < 86 := by simpa using hg
    have hdom : instDomain i < 80 := by
      unfold instDomain coreDomain
      split
      · split <;> omega
      · split <;> omega
    have hanswers : (s.stored 0o450010023 w).answers (instDomain i) = s.answers (instDomain i) := by
      rw [State.answers, State.answers, domOn_tcmd s w hdom]
      rfl
    by_cases hlow : g < 2 ^ 30
    · simp only [State.rawFault, hi, hlow, if_true, hanswers, inImage_tcmd]
    · simp only [State.rawFault, hlow, if_false]

/-- The test registers and the mode are in other words than that of `GRM_TCMD`. -/
theorem mode_tcmd (s : State) (w : Word) : (s.stored 0o450010023 w).mode = s.mode := rd_stored s w (by decide)

/-- The word that a raw write makes of a stored word: the bits of the test registers at the lanes of LE (R534). -/
def State.rawWord (s : State) (x : Stored) : Stored :=
  (lanesOf (s.rd GRM_TCHK_LE)).foldl
    (fun x l => x.setLane l (bitsOf (s.rd GRM_TDATA) (9 * l + 8) (9 * l)) (bitsOf (s.rd GRM_TCHK_CHK_L) (5 * l + 4) (5 * l))) x

theorem rawWord_tcmd (s : State) (w : Word) (x : Stored) : (s.stored 0o450010023 w).rawWord x = s.rawWord x := by
  rw [State.rawWord, State.rawWord, rd_stored s w (by decide), rd_stored s w (by decide), rd_stored s w (by decide)]

/-- A raw write of a lane-memory word in MAINTENANCE (R534). -/
theorem wroteTcmd_write {s : State} {g : Nat} (hmode : s.mode = modeMaintenance) (hspace : s.rd GRM_TADDR_SPACE = 0)
    (haddr : g = s.rd GRM_TADDR_ADDR) (hg : (memInstance g).any (· < 86) = true) (hfault : s.rawFault true g = none) :
    s.wroteTcmd 1 = s.setMem g (s.rawWord (s.wordStored g)) := by
  have hwrite : s.wroteTcmd 1 = s.rawWrite := by simp [State.wroteTcmd, hmode]
  rw [hwrite, ← putStored_memory hg]
  simp only [State.rawWrite, hspace, ← haddr, hfault, State.rawWord, Nat.zero_ne_one, if_false]

/-- The state with the test registers showing a stored word (R534). -/
def State.rawShown (s : State) (x : Stored) : State := (s.wr GRM_TDATA x.data.toNat).wr GRM_TCHK_CHK_L x.chk.toNat

/-- A raw read of a lane-memory word in MAINTENANCE (R534). -/
theorem wroteTcmd_read {s : State} {g : Nat} (hmode : s.mode = modeMaintenance) (hspace : s.rd GRM_TADDR_SPACE = 0)
    (haddr : g = s.rd GRM_TADDR_ADDR) (hfault : s.rawFault false g = none) : s.wroteTcmd 2 = s.rawShown (s.wordStored g) := by
  have hread : s.wroteTcmd 2 = s.rawRead := by simp [State.wroteTcmd, hmode]
  rw [hread]
  simp only [State.rawRead, hspace, ← haddr, hfault, State.rawShown, Nat.zero_ne_one, if_false]

theorem data_rawShown (s : State) (x : Stored) : (s.rawShown x).rd GRM_TDATA = x.data.toNat := by
  rw [State.rawShown, rd_wr_ne _ _ _ _ _ _ _ _ _ _ (by decide), rd_wr _ _ _ _ _ _ (by decide) (by decide)]
  exact Nat.mod_eq_of_lt x.data.isLt

theorem chk_rawShown (s : State) (x : Stored) : (s.rawShown x).rd GRM_TCHK_CHK_L = x.chk.toNat := by
  rw [State.rawShown, rd_wr _ _ _ _ _ _ (by decide) (by decide)]
  exact Nat.mod_eq_of_lt x.chk.isLt

theorem rawShown_frame (s : State) (x : Stored) : s.rawShown x = { s with regs := (s.rawShown x).regs } :=
  wr_frame (wr_frame rfl _ _ _ _ _) _ _ _ _ _

theorem exec_grmRawWrite {s : State} {m g : Nat} {w : Word} (h : s.accepts m 0o450010023 w) (hop : w.bits 1 0 = 1)
    (hmode : s.mode = modeMaintenance) (hspace : s.rd GRM_TADDR_SPACE = 0) (haddr : g = s.rd GRM_TADDR_ADDR)
    (hg : (memInstance g).any (· < 86) = true) (hfault : s.rawFault true g = none) :
    exec (.grmRawWrite m w) s = .next ((s.stored 0o450010023 w).setMem g (s.rawWord (s.wordStored g))) := by
  have hexec : exec (.grmRawWrite m w) s = .next (s.portWrite m 0o450010023 w) := by
    show execGrmRawWrite m w s = _
    rw [execGrmRawWrite, if_pos hop]
    rfl
  have hstored : (s.stored 0o450010023 w).wordStored g = s.wordStored g := wordStored_congr hg rfl rfl
  rw [exec_tcmd hexec h, hop, wroteTcmd_write ((mode_tcmd s w).trans hmode) ((rd_stored s w (by decide)).trans hspace)
    (haddr.trans (rd_stored s w (by decide)).symm) hg ((rawFault_tcmd s w true hg).trans hfault), rawWord_tcmd, hstored]

theorem exec_grmRawRead {s : State} {m g : Nat} {w : Word} (h : s.accepts m 0o450010023 w) (hop : w.bits 1 0 = 2)
    (hmode : s.mode = modeMaintenance) (hspace : s.rd GRM_TADDR_SPACE = 0) (haddr : g = s.rd GRM_TADDR_ADDR)
    (hg : (memInstance g).any (· < 86) = true) (hfault : s.rawFault false g = none) :
    exec (.grmRawRead m w) s = .next ((s.stored 0o450010023 w).rawShown (s.wordStored g)) := by
  have hexec : exec (.grmRawRead m w) s = .next (s.portWrite m 0o450010023 w) := by
    show execGrmRawRead m w s = _
    rw [execGrmRawRead, if_pos hop]
    rfl
  have hstored : (s.stored 0o450010023 w).wordStored g = s.wordStored g := wordStored_congr hg rfl rfl
  rw [exec_tcmd hexec h, hop, wroteTcmd_read ((mode_tcmd s w).trans hmode) ((rd_stored s w (by decide)).trans hspace)
    (haddr.trans (rd_stored s w (by decide)).symm) ((rawFault_tcmd s w false hg).trans hfault), hstored]

/-! ### The watchdog (R588) -/

/-- Arming the watchdog restarts its period (R588). -/
theorem wroteWdogCtl_eq {s r : State} (hpwr : r.pwr = s.pwr) (hnow : r.now = s.now) :
    r.wroteWdogCtl = if r.rdb PWR_WDOG_CTL_EN then { r with pwr := { s.pwr with wdogAt := s.now } } else r := by
  rw [State.wroteWdogCtl, hpwr, hnow]

theorem exec_wdogArm {s : State} {m : Nat} {w : Word} (h : s.accepts m 0o404001001 w) (hen : s.rdb PWR_WDOG_CTL_EN = false) :
    exec (.wdogArm m w) s = .next ((s.stored 0o404001001 w).wroteWdogCtl) := by
  rw [exec_write (a := 0o404001001) rfl h (by decide) (by decide) (.inr hen)]
  simp [State.afterWrite]

theorem exec_wdogKick {s : State} {m : Nat} {w : Word} (h : s.accepts m 0o404001002 w) :
    exec (.wdogKick m w) s = .next ((s.stored 0o404001002 w).wroteWdog w) := by
  rw [exec_write (a := 0o404001002) rfl h (by decide) (by decide) (.inl (by decide)), word_written (by decide)]
  simp [State.afterWrite]

/-- Settles O26, word by word. -/
theorem timeMonitorGroomerWritesComplete : Obligations.TimeMonitorGroomerWritesComplete := by
  refine ⟨fun s m w h => ⟨?_, exec_timeServoWrite h⟩, fun s m w => exec_timeServoWrite_bad, fun s m w h => ?_,
    fun s k m w h => ?_, fun s m g w h hop hmode hspace haddr hg hfault => ?_, fun s g => wordStored_memory,
    fun s m g w h hop hmode hspace haddr hg hfault => ?_, fun s m w h hen => ?_, fun s m h hen => ?_⟩
  · simpa [timeServoOk] using timeServoOk_of_judged h.2
  · have hst : (s.stored 0o404000002 w).rd TIME_STAT_STATE = s.rd TIME_STAT_STATE := rd_stored s w (by decide)
    refine ⟨_, exec_timeCtlWrite h, ?_, fun hacq hen hoff => ?_, fun hlock hgone => ?_, fun hhold hgone => ?_,
      fun hbusy hen hsrc => ?_, fun hfree => ?_⟩
    · rw [reg_wroteTimeCtl _ _ _ (by decide) (by decide) (by decide), reg_stored]
    · rw [hen, wroteTimeCtl_acquire _ (hst.trans hacq) hoff]
      exact ⟨rd_wr _ _ _ _ _ _ (by decide) (by decide), rfl⟩
    · rw [wroteTimeCtl_locked (hst.trans hlock) hgone]
      obtain ⟨hconsec, hrun⟩ := time_lockLost (s.stored 0o404000002 w)
      exact ⟨state_lockLost _, hconsec, hrun, raised_lockLost (s.stored 0o404000002 w)⟩
    · rw [wroteTimeCtl_holdover (hst.trans hhold) hgone]
      rfl
    · rw [hen, hsrc]
      exact wroteTimeCtl_same (by rw [hst]; exact hbusy)
    · rw [wroteTimeCtl_free _ _ (hst.trans hfree), state_tryAcquire (hst.trans hfree), rdb_stored s w (by decide),
        rdb_stored s w (by decide)]
      rfl
  · have hms := monState_stored s w m.isLt
    refine ⟨_, exec_monSeqCtlWrite h, wroteSeqCtl_same, fun hoff (hon : (s.stored _ w).rdb MON_SEQ_CTL_EN m = true) hseq => ?_,
      fun hoff (hon : (s.stored _ w).rdb MON_SEQ_CTL_EN m = true) hnseq hnidle hndown => ?_,
      fun e hoff hon hidle hinj he hlast hen hfirst => ?_⟩
    · rw [hoff, wroteSeqCtl_on hon, hms, if_pos hseq]
      rfl
    · rw [hoff, wroteSeqCtl_on hon, hms, if_neg hnseq, if_neg hnidle, if_neg hndown]
      rfl
    · exact wroteSeqCtl_begins m.isLt hoff hon hidle hinj he hlast hen hfirst
  · exact ⟨_, exec_grmRawWrite h hop hmode hspace haddr hg hfault, memAt_setMem _ _ _, fun a ha => memAt_setMem_ne _ _ ha, rfl⟩
  · refine ⟨_, exec_grmRawRead h hop hmode hspace haddr hg hfault, data_rawShown _ _, chk_rawShown _ _, ?_⟩
    rw [rawShown_frame]
    rfl
  · exact (exec_wdogArm h hen).trans (congrArg _ (wroteWdogCtl_eq (setReg_pwr s _ _) (setReg_now s _ _)))
  · have hen' : (s.stored 0o404001002 (word 0o153151143153)).rdb PWR_WDOG_CTL_EN = true := (rdb_stored s _ (by decide)).trans hen
    refine ⟨_, exec_wdogKick h, ?_⟩
    rw [State.wroteWdog, hen']
    exact ⟨rfl, rfl⟩

end Sys2Proof.Machine
end

section
/-! PROOF. The lanes of a stored word (R81, R517–R519). -/

namespace Sys2Proof.Machine

/-! ### The lane code -/

/-- The check bits of a lane are those of a clean codeword, which is no neighbour of the poison marker (R517–R519). -/
theorem classify_codeBits : ∀ d, d < 512 → classify 9 4 d (codeBits 9 4 d) = (.clean, d) ∧ codeBits 9 4 d < 32 := by
  decide +kernel

/-- The poison marker reads poisoned (R519). -/
theorem classify_marker : classify 9 4 0 31 = (.poisoned, 0) := by decide +kernel

theorem laneData_lt (w : Word) (l : Nat) : laneData w l < 512 := by
  have hwidth : 9 * l + 8 + 1 - 9 * l = 9 := by omega
  rw [laneData, Word.bits, bitsOf, hwidth]
  exact Nat.mod_lt _ (by norm_num)

/-! ### A lane replaced (R81) -/

/-- Setting a field of a stored word's check bits keeps them check bits. -/
theorem setBits_chk_lt {n l c : Nat} (hn : n < 2 ^ 20) (hl : l < 4) : setBits n (5 * l + 4) (5 * l) c < 2 ^ 20 := by
  interval_cases l <;> simp only [setBits] <;> omega

theorem data_setLane (x : Stored) {l : Nat} (d c : Nat) (hl : l < 4) :
    (x.setLane l d c).data.toNat = setBits x.data.toNat (9 * l + 8) (9 * l) d :=
  toNat_word (setBits_lt _ _ _ _ x.data.isLt (by omega) (by omega))

theorem chk_setLane (x : Stored) {l : Nat} (d c : Nat) (hl : l < 4) :
    (x.setLane l d c).chk.toNat = setBits x.chk.toNat (5 * l + 4) (5 * l) c := by
  rw [Stored.setLane, BitVec.toNat_ofNat, Nat.mod_eq_of_lt (setBits_chk_lt x.chk.isLt hl)]

/-- The lane that is replaced holds the new bits. -/
theorem setLane_same (x : Stored) {l d c : Nat} (hl : l < 4) (hd : d < 512) (hc : c < 32) :
    laneData (x.setLane l d c).data l = d ∧ laneChk (x.setLane l d c).chk l = c := by
  have hdw : 9 * l + 8 + 1 - 9 * l = 9 := by omega
  have hcw : 5 * l + 4 + 1 - 5 * l = 5 := by omega
  rw [laneData, Word.bits, laneChk, data_setLane x d c hl, chk_setLane x d c hl, bitsOf_setBits _ _ _ _ (by omega),
    bitsOf_setBits _ _ _ _ (by omega), hdw, hcw]
  exact ⟨Nat.mod_eq_of_lt hd, Nat.mod_eq_of_lt hc⟩

/-- The other lanes keep their bits. -/
theorem setLane_ne (x : Stored) {l k : Nat} (d c : Nat) (hl : l < 4) (h : k ≠ l) :
    laneData (x.setLane l d c).data k = laneData x.data k ∧ laneChk (x.setLane l d c).chk k = laneChk x.chk k := by
  rw [laneData, Word.bits, laneChk, data_setLane x d c hl, chk_setLane x d c hl]
  rcases Nat.lt_or_gt_of_ne h with hlt | hgt
  · exact ⟨bitsOf_setBits_below _ _ _ _ _ _ (by omega) (by omega) (by omega),
      bitsOf_setBits_below _ _ _ _ _ _ (by omega) (by omega) (by omega)⟩
  · exact ⟨bitsOf_setBits_above _ _ _ _ _ _ (by omega) (by omega),
      bitsOf_setBits_above _ _ _ _ _ _ (by omega) (by omega)⟩

/-! ### A store of lanes (R80, R81) -/

/-- The data and check bits that a store of `v` writes into lane `l`: the marker for poison (R81, R519). -/
def laneOf (v : PWord) (l : Nat) : Nat × Nat := if v.p then (0, 31) else (laneData v.v l, codeBits 9 4 (laneData v.v l))

theorem laneOf_lt (v : PWord) (l : Nat) : (laneOf v l).1 < 512 ∧ (laneOf v l).2 < 32 := by
  unfold laneOf
  split
  · decide
  · exact ⟨laneData_lt _ _, (classify_codeBits _ (laneData_lt _ _)).2⟩

theorem store_eq_foldl (x : Stored) (le : Nat) (v : PWord) :
    x.store le v = (lanesOf le).foldl (fun x l => x.setLane l (laneOf v l).1 (laneOf v l).2) x := by
  rw [Stored.store]
  congr 1
  funext x l
  unfold laneOf
  split <;> rfl

/-- After a store of some lanes, those hold what is written and the others what they held. -/
theorem foldl_setLane (v : PWord) {l : Nat} (ls : List Nat) (hls : ∀ k ∈ ls, k < 4) (x : Stored) :
    let y := ls.foldl (fun x l => x.setLane l (laneOf v l).1 (laneOf v l).2) x
    (laneData y.data l, laneChk y.chk l) = if l ∈ ls then laneOf v l else (laneData x.data l, laneChk x.chk l) := by
  induction ls generalizing x with
  | nil => simp
  | cons k ls ih =>
    intro y
    have hk : k < 4 := hls k List.mem_cons_self
    have hy := ih (fun j hj => hls j (List.mem_cons_of_mem k hj)) (x.setLane k (laneOf v k).1 (laneOf v k).2)
    by_cases hl : l ∈ ls
    · rw [if_pos hl] at hy
      rw [if_pos (List.mem_cons_of_mem k hl)]
      exact hy
    · rw [if_neg hl] at hy
      refine hy.trans ?_
      by_cases hlk : l = k
      · subst hlk
        obtain ⟨hd, hc⟩ := setLane_same x hk (laneOf_lt v l).1 (laneOf_lt v l).2
        rw [if_pos List.mem_cons_self, hd, hc]
      · obtain ⟨hd, hc⟩ := setLane_ne x (laneOf v k).1 (laneOf v k).2 hk hlk
        rw [if_neg (by simp [hlk, hl]), hd, hc]

theorem mem_lanesOf {le l : Nat} : l ∈ lanesOf le ↔ l < 4 ∧ le.testBit l = true := by
  simp [lanesOf]

/-- The bits of a lane after a store with lane enables (R80, R81). -/
theorem lane_store (x : Stored) (le : Nat) (v : PWord) {l : Nat} (hl : l < 4) :
    (laneData (x.store le v).data l, laneChk (x.store le v).chk l) =
      if le.testBit l = true then laneOf v l else (laneData x.data l, laneChk x.chk l) := by
  have h := foldl_setLane v (l := l) (lanesOf le) (fun k hk => (mem_lanesOf.1 hk).1) x
  rw [store_eq_foldl]
  simpa only [mem_lanesOf, hl, true_and] using h

theorem memAt_memWrite (s : State) (a le : Nat) (v : PWord) : (s.memWrite a le v).memAt a = (s.memAt a).store le v :=
  memAt_setMem _ _ _

theorem memAt_memWrite_ne (s : State) {a b : Nat} (le : Nat) (v : PWord) (h : b ≠ a) :
    (s.memWrite a le v).memAt b = s.memAt b := memAt_setMem_ne _ _ h

/-- Settles O56: a store replaces the enabled lanes one by one, each with the marker or with a clean codeword. -/
theorem storedLanes : Obligations.StoredLanes := by
  intro s a le v x
  have hx : x = (s.memAt a).store le v := memAt_memWrite s a le v
  refine ⟨fun l hl hle hp => ?_, fun l hl hle hp => ?_, fun l hl hle => ?_, fun b hb => memAt_memWrite_ne s le v hb⟩
  · have h := lane_store (s.memAt a) le v hl
    rw [if_pos hle, laneOf, if_pos hp, ← hx, Prod.mk.injEq] at h
    obtain ⟨hd, hc⟩ := h
    refine ⟨hd, hc, ?_⟩
    rw [Stored.lane, hd, hc, classify_marker]
  · have h := lane_store (s.memAt a) le v hl
    rw [if_pos hle, laneOf, if_neg (by simp [hp]), ← hx, Prod.mk.injEq] at h
    obtain ⟨hd, hc⟩ := h
    rw [Stored.lane, hd, hc]
    exact (classify_codeBits _ (laneData_lt _ _)).1
  · have h := lane_store (s.memAt a) le v hl
    rw [if_neg (by simp [hle]), ← hx, Prod.mk.injEq] at h
    exact h

end Sys2Proof.Machine
end

section
/-! PROOF. What counting and raising one code leaves of another: its latest record and its counter (R541–R558). -/

namespace Sys2Proof.Machine

open Ev Reg

/-- The latest record of code number `k` and the counter of index `x` are in `t` what they are in `s`. -/
structure Spares (k x : Nat) (s t : State) : Prop where
  latest : sget (fun _ => none) t.evt.latest k = sget (fun _ => none) s.evt.latest k
  count : t.cntAt x = s.cntAt x
  good : t.cntBad (cntAddr x) = s.cntBad (cntAddr x)
  goodChain : t.cntBad (cntAddr x + 1) = s.cntBad (cntAddr x + 1)

/-- Neither the code number `k` nor the counter `x` is one that the event path raises or counts itself. -/
structure OffPath (k x : Nat) : Prop where
  num : k ≠ EVT_AVALANCHE.num ∧ k ≠ CNT_STICK.num ∧ k ≠ CNT_RESTART.num
  index : ¬ evPathCounter x
  stick : x ≠ CNT_STICK.base ∧ x ≠ CNT_RESTART.base

variable {s t u : State} {k x : Nat}

theorem Spares.refl (s : State) : Spares k x s s := ⟨rfl, rfl, rfl, rfl⟩

theorem Spares.trans (h : Spares k x s t) (h' : Spares k x t u) : Spares k x s u :=
  ⟨h'.latest.trans h.latest, h'.count.trans h.count, h'.good.trans h.good, h'.goodChain.trans h.goodChain⟩

/-- What is raised or counted stays so while the code is spared. -/
theorem Code.raised_of_spares {c : Code} {j : Nat} {args : List Int} (h : c.raised s t j args) (h' : Spares c.num x t u) :
    c.raised s u j args := by
  unfold Code.raised at *
  rwa [h'.latest]

theorem Code.counted_of_spares {c : Code} {j i : Nat} (h : c.counted s t j i) (h' : Spares k (c.base + j) t u) :
    c.counted s u j i := fun h1 h2 h3 => h'.count.trans (h h1 h2 h3)

theorem Code.counted_from_spares {c : Code} {j i : Nat} (h : Spares k (c.base + j) s t) (h' : c.counted t u j i) :
    c.counted s u j i := by
  unfold Code.counted at *
  rwa [h.good, h.goodChain, h.count] at h'

/-! ### Counters -/

/-- The pairs of two counters have no word in common (R541). -/
theorem cntAddr_apart {x y : Nat} (h : x ≠ y) :
    cntAddr x ≠ cntAddr y ∧ cntAddr x ≠ cntAddr y + 1 ∧ cntAddr x + 1 ≠ cntAddr y := by
  unfold cntAddr
  split <;> split <;> omega

theorem cntBad_cntPut (s : State) {y a : Nat} (v : Nat) (h : a ≠ cntAddr y) (h' : a ≠ cntAddr y + 1) :
    (s.cntPut y v).cntBad a = s.cntBad a := by
  unfold State.cntBad State.cntPut
  dsimp only
  rw [sget_sput_ne _ _ h', sget_sput_ne _ _ h]

theorem cntPut_spares (s : State) {y : Nat} (v : Nat) (h : x ≠ y) : Spares k x s (s.cntPut y v) := by
  obtain ⟨hword, hchain, hcross⟩ := cntAddr_apart h
  have hodd : cntAddr x + 1 ≠ cntAddr y + 1 := fun e => hword (Nat.add_right_cancel e)
  exact ⟨rfl, by rw [cntAt_cntPut, if_neg h], cntBad_cntPut s v hword hchain, cntBad_cntPut s v hcross hodd⟩

theorem cntAdd_spares (s : State) {y : Nat} (i : Nat) (h : x ≠ y) : Spares k x s (s.cntAdd y i).1 := by
  unfold State.cntAdd
  repeat' split
  · exact cntPut_spares s _ h
  · exact Spares.refl s
  · exact cntPut_spares s _ h
  · exact cntPut_spares s _ h

/-! ### Records (R551–R558) -/

theorem latest_keep_ne (e : EvtSt) {r : EvRec} (b : Bool) (h : r.code ≠ k) :
    sget (fun _ => none) (e.keep r b).latest k = sget (fun _ => none) e.latest k := by
  unfold EvtSt.keep
  dsimp only
  rw [sget_sput_ne _ _ (Ne.symm h)]

theorem latest_avalanche_ne (e : EvtSt) (at_ : Nat) {r : EvRec} (h : r.code ≠ k) :
    sget (fun _ => none) (e.avalanche at_ r).1.latest k = sget (fun _ => none) e.latest k := by
  unfold EvtSt.avalanche
  dsimp only
  repeat' split
  all_goals exact latest_keep_ne _ _ h

/-- A change of the event path alone that keeps the latest record of the code. -/
theorem evt_spares (s : State) {e : EvtSt} (h : sget (fun _ => none) e.latest k = sget (fun _ => none) s.evt.latest k) :
    Spares k x s { s with evt := e } := ⟨h, rfl, rfl, rfl⟩

theorem wr_spares (s : State) (f : Field) (v i a b : Nat) : Spares k x s (s.wr f v i a b) := ⟨rfl, rfl, rfl, rfl⟩

theorem setCore_spares (s : State) (n : Nat) (c : CoreSt) : Spares k x s (s.setCore n c) := ⟨rfl, rfl, rfl, rfl⟩

theorem occurP0_spares (s : State) {r : EvRec} (h : r.code ≠ k) (hx : ¬ evPathCounter x) : Spares k x s (s.occurP0 r) := by
  have halert : Spares k x s (s.wr SVC_ALERT_P0_PEND 1) := wr_spares s _ _ _ _ _
  unfold State.occurP0
  dsimp only
  split
  · exact halert.trans (evt_spares _ (latest_keep_ne _ _ h))
  · refine (halert.trans (evt_spares _ ?_)).trans (cntAdd_spares _ _ fun e => hx (.inl e))
    exact latest_keep_ne _ _ h

theorem occurMain_spares (s : State) {r : EvRec} (h : r.code ≠ k) (hx : ¬ evPathCounter x) :
    Spares k x s (s.occurMain r) := by
  have haval := latest_avalanche_ne s.evt s.now h
  unfold State.occurMain
  dsimp only
  repeat' split
  · exact (evt_spares s haval).trans (cntAdd_spares _ _ fun e => hx (.inr (.inl e)))
  · exact evt_spares s haval
  · exact evt_spares s (latest_keep_ne s.evt _ h)

theorem enterAvalanche_spares (s : State) (cause : Nat) (hp : OffPath k x) : Spares k x s (s.enterAvalanche cause) := by
  unfold State.enterAvalanche
  dsimp only
  refine ((evt_spares s ?_).trans (cntAdd_spares _ _ fun e => hp.index (.inr (.inr e)))).trans
    (occurP0_spares _ ?_ hp.index)
  · rfl
  · exact Ne.symm hp.num.1

theorem watchPath_spares (s : State) (ovr : Bool) (hp : OffPath k x) : Spares k x s (s.watchPath ovr) := by
  unfold State.watchPath
  repeat' split
  · exact Spares.refl s
  · exact enterAvalanche_spares s _ hp
  · exact enterAvalanche_spares s _ hp
  · exact Spares.refl s

theorem rateStep_spares (s : State) (pri : Nat) : Spares k x s (s.rateStep pri).1 := by
  unfold State.rateStep
  split
  · exact Spares.refl s
  · exact evt_spares s rfl

theorem occurRec_spares (s : State) {c : Code} (j : Nat) (args : List Int) (hp : OffPath k x) (h : c.num ≠ k) :
    Spares k x s (s.occurRec c j args) := by
  have hcode : (s.evRec c j args).code ≠ k := h
  unfold State.occurRec
  dsimp only
  repeat' split
  · exact evt_spares s (latest_keep_ne _ _ hcode)
  · exact occurP0_spares s hcode hp.index
  · exact ((rateStep_spares s _).trans (watchPath_spares _ _ hp)).trans (occurMain_spares _ hcode hp.index)

/-! ### Counting a code (R544, R545) -/

theorem addCnt_spares (s : State) {c : Code} {j : Nat} (i : Nat) (hp : OffPath k x) (hx : x ≠ c.base + j) :
    Spares k x s (s.addCnt c j i) := by
  have hadd := cntAdd_spares (k := k) s i hx
  obtain ⟨-, hstick, hrestart⟩ := hp.num
  unfold State.addCnt
  dsimp only
  split
  · exact hadd
  · exact (hadd.trans (cntAdd_spares _ _ hp.stick.1)).trans (occurRec_spares _ _ _ hp (Ne.symm hstick))
  · exact (hadd.trans (cntAdd_spares _ _ hp.stick.2)).trans (occurRec_spares _ _ _ hp (Ne.symm hrestart))

theorem occurRecs_spares {c : Code} (j i : Nat) (hp : OffPath k x) (h : c.num ≠ k) (s : State) :
    Spares k x s (State.occurRecs c j i s) := by
  induction i generalizing s with
  | zero => exact Spares.refl s
  | succ i ih => exact (occurRec_spares s j [] hp h).trans (ih _)

theorem count_spares (s : State) {c : Code} {j : Nat} (i : Nat) (hp : OffPath k x) (h : c.num ≠ k) (hx : x ≠ c.base + j) :
    Spares k x s (s.count c j i) := by
  have hadd := addCnt_spares s i hp hx
  unfold State.count
  repeat' split
  · exact Spares.refl s
  · exact hadd.trans (occurRecs_spares j i hp h _)
  · exact hadd.trans (occurRec_spares _ _ _ hp h)

/-! ### Reads of lane memories and the fetch (R521, R522, R529) -/

/-- Neither the code number `k` nor the counter `x` is one that a read of a lane memory may raise or count. -/
structure OffReads (k x : Nat) : Prop extends OffPath k x where
  codes : MEM_CORR.num ≠ k ∧ MEM_UNCORR.num ≠ k ∧ GRM_QDROP.num ≠ k
  indices : ∀ i, i < 89 → x ≠ MEM_CORR.base + i ∧ x ≠ MEM_UNCORR.base + i ∧ x ≠ GRM_QDROP.base + i

theorem memInstance_lt (a : Nat) : (memInstance a).getD 0 < 89 := by
  unfold memInstance
  dsimp only
  split
  · split
    · next h => rw [Option.getD_some]; exact lt_trans h.1 (by decide)
    · decide
  split
  · decide
  split
  · next h => rw [Option.getD_some]; omega
  repeat' split
  all_goals decide

theorem grm_spares (s : State) (g : GrmSt) : Spares k x s { s with grm := g } := ⟨rfl, rfl, rfl, rfl⟩

theorem demand_spares (s : State) (a : Nat) (b : Bool) {i : Nat} (hr : OffReads k x) (hi : i < 89) :
    Spares k x s (s.demand a b i) := by
  unfold State.demand
  repeat' split
  · exact Spares.refl s
  · exact count_spares s 1 hr.toOffPath hr.codes.2.2 (hr.indices i hi).2.2
  · exact grm_spares s _

theorem countUncorr_spares (s : State) {i : Nat} (j : Nat) (hr : OffReads k x) (hi : i < 89) :
    Spares k x s (s.countUncorr i j) := by
  have hadd : ∀ v : State, Spares k x v (v.addCnt MEM_UNCORR i j) := fun v =>
    addCnt_spares v j hr.toOffPath (hr.indices i hi).2.1
  unfold State.countUncorr
  dsimp only
  repeat' split
  · exact Spares.refl s
  · exact hadd s
  · exact ((grm_spares s _).trans (hadd _)).trans (occurRec_spares _ _ _ hr.toOffPath hr.codes.2.1)

theorem memRead_spares (s : State) (a le : Nat) (hr : OffReads k x) : Spares k x s (s.memRead a le).2 := by
  have hi := memInstance_lt a
  have hcorr : ∀ j, Spares k x s (s.count MEM_CORR ((memInstance a).getD 0) j) := fun j =>
    count_spares s j hr.toOffPath hr.codes.1 (hr.indices _ hi).1
  unfold State.memRead State.noteRead
  dsimp only
  split
  · exact (hcorr _).trans (countUncorr_spares _ _ hr hi)
  · exact ((hcorr _).trans (countUncorr_spares _ _ hr hi)).trans (demand_spares _ _ _ hr hi)

theorem fetchWord_spares (s : State) (p : Place) (hr : OffReads k x) : Spares k x s (s.fetchWord p).2 := by
  unfold State.fetchWord
  split
  · exact Spares.refl s
  · exact memRead_spares s _ _ hr
  · exact Spares.refl s

/-- A fetch that finds an instruction reads one word, or the two of a long one. -/
theorem fetch_reads {n : Nat} {i : Instr} {iw : Word} (h : s.fetch n = .instr u i iw) :
    ∃ p, u = (s.fetchWord p).2 ∨ ∃ q, u = ((s.fetchWord p).2.fetchWord q).2 := by
  unfold State.fetch State.fetchImm at h
  dsimp only at h
  split at h
  · cases h
  next p _ =>
    refine ⟨p, ?_⟩
    repeat' split at h
    all_goals cases h
    · exact .inr ⟨_, rfl⟩
    · exact .inl rfl

/-- A fetch counts and raises what its reads of lane memories do (R127, R521). -/
theorem fetch_spares {n : Nat} {i : Instr} {iw : Word} (hr : OffReads k x) (h : s.fetch n = .instr u i iw) :
    Spares k x s u := by
  obtain ⟨p, rfl | ⟨q, rfl⟩⟩ := fetch_reads h
  · exact fetchWord_spares s p hr
  · exact (fetchWord_spares s p hr).trans (fetchWord_spares _ q hr)

end Sys2Proof.Machine
end

section
/-! PROOF. The system instructions of a core (R119, R159–R161, R563–R566). -/

namespace Sys2Proof.Machine

open Ev Reg

variable {s t : State} {n : Nat}

/-! ### Sampling records (R563–R566) -/

/-- Core `n` has a place for its next sampling record: a free one, or the oldest's where the control word says so. -/
def State.sampleRoom (s : State) (n : Nat) : Prop :=
  (s.core n).smpHeld < 60 ∨ (s.core n).smpHead < 60 ∧ (s.core n).smpHeld ≤ 60 ∧ s.rdb CORE_SMP_CTL_FULL n = true

theorem smpNo_sampleRec (s : State) (n kind pc : Nat) (iw : Word) (ea w5 : Nat) (w6 : PWord) :
    ((s.sampleRec n kind pc iw ea w5 w6).core n).smpNo = ((s.core n).smpNo + 1) % 2 ^ 36 := by
  unfold State.sampleRec
  dsimp only
  repeat' split
  · rw [core_setCore]
  · rw [core_count, core_setCore]
  · rw [core_count, core_setCore]

/-- A record that finds a place is the newest of the buffer. -/
theorem newest_sampleRec {s : State} (h : s.sampleRoom n) (kind pc : Nat) (iw : Word) (ea w5 : Nat) (w6 : PWord) :
    let c := (s.sampleRec n kind pc iw ea w5 w6).core n
    sget (fun _ => []) c.smp ((c.smpHead + c.smpHeld + 59) % 60) =
      cleanWords [kind * 2 ^ 34 + pc, iw.toNat, ea % 2 ^ 30, lpA s.clockLp, lpB s.clockLp, w5] ++
        [w6, ⟨word (s.core n).smpNo, false⟩] := by
  unfold State.sampleRec
  dsimp only
  by_cases hfree : (s.core n).smpHeld < 60
  · rw [if_pos hfree, core_setCore]
    dsimp only
    rw [show (s.core n).smpHead + ((s.core n).smpHeld + 1) + 59 = (s.core n).smpHead + (s.core n).smpHeld + 60 by omega,
      Nat.add_mod_right, sget_sput]
  · obtain ⟨hhead, hheld, hfull⟩ := h.resolve_left hfree
    rw [if_neg hfree, if_pos hfull, core_count, core_setCore]
    dsimp only
    rw [show ((s.core n).smpHead + 1) % 60 + (s.core n).smpHeld + 59 = ((s.core n).smpHead + 1) % 60 + 119 by omega,
      show (((s.core n).smpHead + 1) % 60 + 119) % 60 = (s.core n).smpHead by omega, sget_sput]

/-- The control word of a core's sampling is as before after counting, and after a change of the core. -/
theorem Sampled.smpCtl (h : Sampled s t n) (f : Field) (hf : f.addr n 0 0 = CORE_SMP_CTL_FULL.addr n 0 0) :
    t.rd f n = s.rd f n := by
  have halert : CORE_SMP_CTL_FULL.addr n 0 0 ≠ alertAddr := by
    unfold alertAddr Field.addr
    simp only [CORE_SMP_CTL_FULL, SVC_ALERT_P0_PEND]
    omega
  have hstat : CORE_SMP_CTL_FULL.addr n 0 0 ≠ coreStat n := by
    unfold coreStat Field.addr
    simp only [CORE_SMP_CTL_FULL, CORE_STAT_STATE]
    omega
  rw [State.rd, State.rd, hf, h.regs _ halert hstat]

/-- A record leaves one place fewer, or the place of the new oldest. -/
theorem sampleRoom_sampleRec
    (h : (s.core n).smpHeld < 59 ∨ (s.core n).smpHead < 60 ∧ (s.core n).smpHeld ≤ 60 ∧ s.rdb CORE_SMP_CTL_FULL n = true)
    (kind pc : Nat) (iw : Word) (ea w5 : Nat) (w6 : PWord) : (s.sampleRec n kind pc iw ea w5 w6).sampleRoom n := by
  have hctl := (sampleRec_sampled s n kind pc iw ea w5 w6).smpCtl CORE_SMP_CTL_FULL rfl
  unfold State.sampleRoom State.rdb
  rw [hctl]
  unfold State.sampleRec
  dsimp only
  by_cases hfree : (s.core n).smpHeld < 60
  · rw [if_pos hfree, core_setCore]
    dsimp only
    rcases h with h | ⟨hhead, -, hfull⟩
    · exact .inl (by omega)
    · exact .inr ⟨hhead, by omega, hfull⟩
  · obtain ⟨hhead, hheld, hfull⟩ := h.resolve_left (by omega)
    rw [if_neg hfree, if_pos hfull, core_count, core_setCore]
    exact .inr ⟨Nat.mod_lt _ (by norm_num), hheld, hfull⟩

/-- What an instruction's own record leaves for a mark after it. -/
theorem sampleRoom_sampleInstr
    (h : (s.core n).smpHeld < 59 ∨ (s.core n).smpHead < 60 ∧ (s.core n).smpHeld ≤ 60 ∧ s.rdb CORE_SMP_CTL_FULL n = true)
    (pc : Nat) (iw : Word) (ea : Nat) : (s.sampleInstr n pc iw ea).sampleRoom n := by
  have hroom : s.sampleRoom n := h.imp_left fun h => by omega
  unfold State.sampleInstr
  dsimp only
  split
  · split
    · refine sampleRoom_sampleRec ?_ _ _ _ _ _ _
      rw [core_setCore]
      exact h
    · unfold State.sampleRoom
      rw [core_setCore]
      exact hroom
  · exact hroom

theorem smpNo_sampleInstr (s : State) (n pc : Nat) (iw : Word) (ea : Nat) :
    ((s.sampleInstr n pc iw ea).core n).smpNo = (s.core n).smpNo ∨
      ((s.sampleInstr n pc iw ea).core n).smpNo = ((s.core n).smpNo + 1) % 2 ^ 36 := by
  unfold State.sampleInstr
  dsimp only
  split
  · split
    · rw [smpNo_sampleRec, core_setCore]
      exact .inr rfl
    · rw [core_setCore]
      exact .inl rfl
  · exact .inl rfl

/-! ### The end of an instruction (R119, R161) -/

/-- What the end of an instruction leaves of the core's sampling is what the instruction's own record leaves. -/
theorem retire_samples (s : State) (n pc : Nat) (iw : Word) {next : Nat} (ea : Nat) (h : next < 2 ^ 30) :
    let c := (s.retire n pc iw next ea).core n
    let d := (s.sampleInstr n pc iw ea).core n
    c.smpNo = d.smpNo ∧ c.smpHeld = d.smpHeld ∧ c.smpHead = d.smpHead := by
  intro c d
  have hc : c = { d with pc := next, wait := none, waitDesc := [], haltReq := false } := by
    simp only [c, d, State.retire, if_neg (Nat.not_le.2 h), Nat.mod_eq_of_lt h]
    split
    · rw [core_wr, core_setCore]
    · rw [core_setCore]
  rw [hc]
  exact ⟨rfl, rfl, rfl⟩

theorem sampleRoom_retire
    (h : (s.core n).smpHeld < 59 ∨ (s.core n).smpHead < 60 ∧ (s.core n).smpHeld ≤ 60 ∧ s.rdb CORE_SMP_CTL_FULL n = true)
    (pc : Nat) (iw : Word) {next : Nat} (ea : Nat) (hn : next < 2 ^ 30) : (s.retire n pc iw next ea).sampleRoom n := by
  obtain ⟨-, hheld, hhead⟩ := retire_samples s n pc iw ea hn
  have hsame : (s.retire n pc iw next ea).rdb CORE_SMP_CTL_FULL n = (s.sampleInstr n pc iw ea).rdb CORE_SMP_CTL_FULL n := by
    simp only [State.retire, if_neg (Nat.not_le.2 hn)]
    split
    · rw [State.rdb, State.rdb, rd_wr_ne]
      · rfl
      · unfold Field.addr
        simp only [CORE_SMP_CTL_FULL, CORE_STAT_STATE]
        omega
    · rfl
  have hroom := sampleRoom_sampleInstr h pc iw ea
  unfold State.sampleRoom at *
  rwa [hheld, hhead, hsame]

end Sys2Proof.Machine
end

section
/-! PROOF. nop, halt, fence, rdf, wrf, pchk, pclr, smark and rdcyc (R119, R159, R160, R564). -/

namespace Sys2Proof.Machine

open Ev Reg

variable {s t u : State} {n : Nat}

/-! ### What is beside an instruction -/

/-- A record of a core's sampling after the end of its instruction. -/
theorem Went.sampled {next : Nat} {c : CoreSt} (h : Went s t n next c) (h' : Sampled t u n) : Went s u n next c := by
  refine ⟨h.toBeside.trans h'.toBeside, ?_, h'.stat.trans h.stat⟩
  rw [h'.core, h.core]
  rfl

theorem Beside.domOn (h : Beside s t n) {d : Nat} (hd : d < 80) : t.domOn d = s.domOn d := by
  have haddr := addr_domState d
  unfold State.domOn State.rd
  rw [h.regs]
  · rw [haddr, show alertAddr = 0o404010002 by decide]
    omega
  · rw [haddr, coreStat, addr_coreStat]
    omega

theorem coreDomain_lt (n : Nat) : coreDomain n < 80 := by
  unfold coreDomain
  split <;> omega

/-- A core that is not OFF has its domain ON, and shows its state. -/
theorem coreState_on {k : Nat} (h : s.coreState n = k) (hk : k ≠ cOff) :
    n < 77 ∧ s.domOn (coreDomain n) = true ∧ s.rd CORE_STAT_STATE n = k := by
  unfold State.coreState at h
  split at h
  · next hon => exact ⟨hon.1, hon.2, h⟩
  · exact absurd h.symm hk

theorem coreState_of_on (hn : n < 77) (hon : s.domOn (coreDomain n) = true) : s.coreState n = s.rd CORE_STAT_STATE n := by
  rw [State.coreState, if_pos ⟨hn, hon⟩]

theorem begins_running (h : s.begins n = true) : s.coreState n = cRunning := by
  unfold State.begins at h
  simp only [Bool.and_eq_true, decide_eq_true_eq] at h
  exact h.1.2

/-- A core that went on with a HALT asked for is HALTED (R119). -/
theorem Went.halted {next : Nat} {c : CoreSt} (h : Went s t n next c) (hreq : c.haltReq = true) (hb : s.begins n = true) :
    t.coreState n = cHalted := by
  obtain ⟨hn, hon, -⟩ := coreState_on (begins_running hb) (by decide)
  have hstat := h.stat
  rw [if_pos hreq] at hstat
  rw [coreState_of_on hn ((h.domOn (coreDomain_lt n)).trans hon), State.rd, show CORE_STAT_STATE.addr n 0 0 = coreStat n from rfl,
    hstat]
  exact rd_wr s CORE_STAT_STATE cHalted n 0 0 (by decide) (by decide)

/-! ### POISON_CLR is counted and raised once (R159, R164) -/

theorem sampleRec_spares {k x : Nat} (s : State) (hp : OffPath k x) (hk : SMP_DROP.num ≠ k) (hx : x ≠ SMP_DROP.base + n)
    (kind pc : Nat) (iw : Word) (ea w5 : Nat) (w6 : PWord) : Spares k x s (s.sampleRec n kind pc iw ea w5 w6) := by
  unfold State.sampleRec
  dsimp only
  repeat' split
  · exact setCore_spares s n _
  · exact (setCore_spares s n _).trans (count_spares _ 1 hp hk hx)
  · exact (setCore_spares s n _).trans (count_spares _ 1 hp hk hx)

theorem retire_spares {k x next : Nat} (s : State) (hp : OffPath k x) (hk : SMP_DROP.num ≠ k) (hx : x ≠ SMP_DROP.base + n)
    (pc : Nat) (iw : Word) (ea : Nat) (hn : next < 2 ^ 30) : Spares k x s (s.retire n pc iw next ea) := by
  have hsample : Spares k x s (s.sampleInstr n pc iw ea) := by
    unfold State.sampleInstr
    dsimp only
    repeat' split
    · exact (setCore_spares s n _).trans (sampleRec_spares _ hp hk hx _ _ _ _ _ _)
    · exact setCore_spares s n _
    · exact Spares.refl s
  unfold State.retire
  dsimp only
  rw [if_neg (Nat.not_le.2 hn)]
  split
  · exact (hsample.trans (setCore_spares _ n _)).trans (wr_spares _ _ _ _ _ _)
  · exact hsample.trans (setCore_spares _ n _)

/-- The counters of POISON_CLR are none of those of the event path, of memory reads and of sampling (R541, R542). -/
theorem poisonClr_apart (hn : n < 77) :
    OffReads POISON_CLR.num (POISON_CLR.base + n) ∧ POISON_CLR.base + n ≠ SMP_DROP.base + n := by
  have hclr : POISON_CLR.base = 688 := by decide +kernel
  have hdrop : SMP_DROP.base = 24610 := by decide +kernel
  have hcorr : MEM_CORR.base = 22493 := by decide +kernel
  have huncorr : MEM_UNCORR.base = 22672 := by decide +kernel
  have hqdrop : GRM_QDROP.base = 23388 := by decide +kernel
  have hstick : CNT_STICK.base = 24587 := by decide +kernel
  have hrestart : CNT_RESTART.base = 24588 := by decide +kernel
  have haval : EVT_AVALANCHE.base = 24590 := by decide +kernel
  have hcoal : EVT_COALESCED.base = 24592 := by decide +kernel
  have hcoalP0 : EVT_P0_COALESCED.base = 24593 := by decide +kernel
  rw [hclr, hdrop]
  refine ⟨⟨⟨by decide, ?_, ?_⟩, by decide, fun i hi => ?_⟩, by omega⟩
  · rw [evPathCounter, haval, hcoal, hcoalP0]
    omega
  · rw [hstick, hrestart]
    omega
  · rw [hcorr, huncorr, hqdrop]
    omega

/-! ### The instructions -/

/-- `fence` waits for each request of the core, and for each timed store of it that has fired, which has no response. -/
theorem fence_waits_iff (l : List MtxReq) :
    (l.any fun r => r.core = n && r.by_.fenced && r.stage ≠ .served) = true ↔
      ∃ r ∈ l, r.core = n ∧ r.by_.fenced = true ∧ r.stage ≠ .served := by
  simp [and_assoc]

/-- An instruction that waits where it is (R101). -/
theorem hergil_stays {i : Instr} {iw : Word} {body : Nat → State → Run} (hb : s.begins n = true)
    (hf : s.fetch n = .instr u i iw) (hd : body ((s.core n).pc + instrLen iw) u = .stay u) :
    Stays s (s.hergil n i body) n i iw := by
  have hu := (fetch_noted hf).1
  rw [hergil_runs hb hf, hd]
  refine ⟨(hu.beside n).trans (beside_setCore u n _), ?_, hu.regs _ (alert_ne_stat n)⟩
  show (u.setCore n _).core n = _
  rw [core_setCore, hu.core n]

theorem exec_halt {iw : Word} (h : s.runs n (.halt n) iw) :
    ∃ t, exec (.halt n) s = .next t ∧ t.coreState n = 5 ∧
      Went s t n ((s.core n).pc + instrLen iw) { s.core n with haltReq := true } := by
  have hw : Went s (s.hergil n (.halt n) fun next s => .done (s.setCore n { s.core n with haltReq := true }) next 0) n
      ((s.core n).pc + instrLen iw) { s.core n with haltReq := true } :=
    done_core (f := fun c => { c with haltReq := true }) h (fun _ _ _ _ => rfl) (runs_lt h)
  exact ⟨_, rfl, hw.halted rfl h.1, hw⟩

theorem exec_fence {iw : Word} (h : s.runs n (.fence n) iw) :
    ∃ t, exec (.fence n) s = .next t ∧
      ((∀ r ∈ s.mtx, r.core = n → r.by_.fenced = true → r.stage = .served) →
        Went s t n ((s.core n).pc + instrLen iw) (s.core n)) ∧
      ((∃ r ∈ s.mtx, r.core = n ∧ r.by_.fenced = true ∧ r.stage ≠ .served) → Stays s t n (.fence n) iw) := by
  refine ⟨_, rfl, fun hall => ?_, fun hex => ?_⟩
  · refine done_same (ea := 0) h (fun u _ _ hmtx => ?_) (runs_lt h)
    rw [fenceBody, hmtx, if_neg]
    rw [fence_waits_iff]
    rintro ⟨r, hr, hcore, hfenced, hstage⟩
    exact hstage (hall r hr hcore hfenced)
  · obtain ⟨hb, u, hf⟩ := h
    have hmtx : u.mtx = s.mtx := by rw [(fetch_noted hf).1.same]
    refine hergil_stays hb hf ?_
    rw [fenceBody, hmtx, if_pos ((fence_waits_iff s.mtx).2 hex)]

theorem exec_pclr {d a : HReg} {iw : Word} (h : s.runs n (.pclr n d a) iw) :
    ∃ t, exec (.pclr n d a) s = .next t ∧ POISON_CLR.raised s t n [] ∧ POISON_CLR.counted s t n 1 ∧
      Went s t n ((s.core n).pc + instrLen iw) ((s.core n).setReg d ⟨((s.core n).reg a).v, false⟩) := by
  have hlt := runs_lt h
  obtain ⟨hb, u, hf⟩ := h
  have hu := (fetch_noted hf).1
  obtain ⟨hr, hdrop⟩ := poisonClr_apart (coreState_on (begins_running hb) (by decide)).1
  let v := u.setCore n ((u.core n).setReg d ⟨((u.core n).reg a).v, false⟩)
  have hnow : v.now = s.now := by
    rw [show v.now = u.now from rfl, hu.same]
  have hcount := count_events v POISON_CLR n 1
  have hbefore : Spares POISON_CLR.num (POISON_CLR.base + n) s v := (fetch_spares hr hf).trans (setCore_spares u n _)
  have hafter := retire_spares (n := n) (v.count POISON_CLR n) hr.toOffPath (by decide) hdrop (u.core n).pc iw 0 hlt
  refine ⟨_, rfl, ?_, ?_, hergil_done hb hf rfl ((beside_setCore u n _).trans (hcount.beside n)) ?_
    (hcount.2 _ (alert_ne_stat n)) hlt⟩
  · rw [hergil_runs hb hf]
    exact Code.raised_of_spares
      (Code.raised_of_now (count_raised v POISON_CLR n 1 Nat.one_ne_zero) hnow) hafter
  · rw [hergil_runs hb hf]
    exact Code.counted_of_spares
      (Code.counted_from_spares hbefore (count_counted v POISON_CLR n 1 hr.toOffPath.index)) hafter
  · rw [core_count, core_setCore, hu.core n]

/-- `smark` has the end of an instruction and then a record of its own (R160, R564). -/
theorem exec_smark {a : HReg} {iw : Word} (h : s.runs n (.smark n a) iw) :
    let lp := s.now / 4 * 4
    ∃ t no, exec (.smark n a) s = .next t ∧ Went s t n ((s.core n).pc + instrLen iw) (s.core n) ∧
      (no = (s.core n).smpNo ∨ no = ((s.core n).smpNo + 1) % 2 ^ 36) ∧ (t.core n).smpNo = (no + 1) % 2 ^ 36 ∧
      ((s.core n).smpHeld < 59 ∨ (s.core n).smpHead < 60 ∧ (s.core n).smpHeld ≤ 60 ∧ s.rdb CORE_SMP_CTL_FULL n = true →
        sget (fun _ => []) (t.core n).smp (((t.core n).smpHead + (t.core n).smpHeld + 59) % 60) =
          [⟨word (2 * 2 ^ 34 + (s.core n).pc), false⟩, ⟨iw, false⟩, ⟨0, false⟩, ⟨word (lp / 4096000000), false⟩,
            ⟨word (lp % 4096000000 / 500000 * 2 ^ 23 + lp % 500000 * 2 ^ 4), false⟩, ⟨0, false⟩, (s.core n).reg a,
            ⟨word no, false⟩]) := by
  have hlt := runs_lt h
  obtain ⟨hb, u, hf⟩ := h
  have hu := (fetch_noted hf).1
  have hcore := hu.core n
  let v := u.retire n (s.core n).pc iw ((s.core n).pc + instrLen iw) 0
  have hend : exec (.smark n a) s = .next (v.sampleRec n 2 (s.core n).pc iw 0 0 ((s.core n).reg a)) := by
    have hrun := hergil_runs (i := .smark n a) (body := fun next s => .marked s next ((s.core n).reg a)) hb hf
    rw [State.settle, hcore] at hrun
    exact congrArg Host.Outcome.next hrun
  have hretire : Went s v n ((s.core n).pc + instrLen iw) (s.core n) := by
    have hw := (retire_went u n (s.core n).pc iw _ 0 hlt).congr (hu.beside n) (hu.regs _ (alert_ne_stat n))
    rwa [hcore] at hw
  have hclock : v.clockLp = s.now / 4 * 4 := by
    have hnow : v.now = s.now := by rw [hretire.same]
    rw [State.clockLp, State.clock, hnow, Nat.mul_comm]
  obtain ⟨hno, -, -⟩ := retire_samples u n (s.core n).pc iw 0 hlt
  have hnext : (v.core n).smpNo = (s.core n).smpNo ∨ (v.core n).smpNo = ((s.core n).smpNo + 1) % 2 ^ 36 := by
    have h := smpNo_sampleInstr u n (s.core n).pc iw 0
    rw [hcore] at h
    rwa [hno]
  refine ⟨_, (v.core n).smpNo, hend, hretire.sampled (sampleRec_sampled _ _ _ _ _ _ _ _), hnext, smpNo_sampleRec _ _ _ _ _ _ _ _,
    fun hroom => ?_⟩
  have hctl : u.rdb CORE_SMP_CTL_FULL n = s.rdb CORE_SMP_CTL_FULL n := by
    have hs : Sampled s u n := ⟨hu.beside n, by rw [hcore]; rfl, hu.regs _ (alert_ne_stat n)⟩
    rw [State.rdb, State.rdb, hs.smpCtl CORE_SMP_CTL_FULL rfl]
  rw [newest_sampleRec (sampleRoom_retire (by rwa [hcore, hctl]) _ _ _ hlt), hclock, lpB_eq]
  have hsf : word (s.now / 4 * 4 / 4096000000 % 2 ^ 36) = word (s.now / 4 * 4 / 4096000000) :=
    BitVec.eq_of_toNat_eq (by simp [word])
  simp only [cleanWords, lpA, ticksSf, List.map_cons, List.map_nil, List.cons_append, List.nil_append, hsf]
  simp [word, v]

/-- Settles O6: each instruction changes its core alone, and POISON_CLR and the mark are spared by the end of theirs. -/
theorem systemInstructionsComplete : Obligations.SystemInstructionsComplete := by
  refine ⟨fun s n iw h => ⟨_, rfl, done_same h (fun _ _ _ _ => rfl) (runs_lt h)⟩, fun s n iw h => exec_halt h,
    fun s n iw h => exec_fence h, fun s n d iw h => ⟨_, rfl, ?_⟩, fun s n a iw h => ⟨_, rfl, ?_⟩, fun s n a iw h => ⟨_, rfl, ?_⟩,
    fun s n d a iw h => exec_pclr h, fun s n a iw h => exec_smark h, fun s n d iw h => ⟨_, rfl, ?_⟩⟩
  · exact done_core (f := fun c => c.setReg d ⟨c.flags.word, c.fp⟩) h (fun _ _ _ _ => rfl) (runs_lt h)
  · exact done_core (f := fun c => c.setFlags (flagsOfWord (c.reg a).v) (c.reg a).p) h (fun _ _ _ _ => rfl) (runs_lt h)
  · exact done_core (f := fun c => { c with zf := (c.reg a).p, fp := (c.reg a).p }) h (fun _ _ _ _ => rfl) (runs_lt h)
  · refine done_core (ea := 0) (f := fun c => c.setReg d ⟨word (s.now / 4 - c.startT / 4), false⟩) h (fun u _ hnow _ => ?_) (runs_lt h)
    rw [← hnow]
    rfl

end Sys2Proof.Machine
end

section
/-! PROOF. What counting and the reads of lane memories leave of the places that addresses name (R85–R93, R105). -/

namespace Sys2Proof.Machine

open Ev Reg

variable {s t u : State} {n : Nat}

/-! ### Reads leave the row moves -/

/-- What a read of a lane memory leaves, the rows being moved among it (R531). -/
structure Placed (s t : State) : Prop extends Noted s t where
  copies : t.grm.copies = s.grm.copies

theorem Placed.refl (s : State) : Placed s s := ⟨Noted.refl s, rfl⟩

theorem Placed.trans (h : Placed s t) (h' : Placed t u) : Placed s u :=
  ⟨h.toNoted.trans h'.toNoted, h'.copies.trans h.copies⟩

theorem copies_demand (s : State) (a : Nat) (b : Bool) (i : Nat) : (s.demand a b i).grm.copies = s.grm.copies := by
  unfold State.demand
  split
  · rfl
  · split
    · rw [(count_events s GRM_QDROP i 1).1]
    · rfl

theorem copies_countUncorr (s : State) (i k : Nat) : (s.countUncorr i k).grm.copies = s.grm.copies := by
  unfold State.countUncorr
  dsimp only
  split
  · rfl
  · split
    · rw [(addCnt_events s MEM_UNCORR i k).1]
    · rw [((addCnt_events _ MEM_UNCORR i k).trans (occurRec_events _ MEM_UNCORR i [])).1]

theorem memRead_placed (s : State) (a le : Nat) : Placed s (s.memRead a le).2 := by
  refine ⟨memRead_noted s a le, ?_⟩
  unfold State.memRead State.noteRead
  dsimp only
  split
  · rw [copies_countUncorr, (count_events _ _ _ _).1]
  · rw [copies_demand, copies_countUncorr, (count_events _ _ _ _).1]

theorem fetchWord_placed (s : State) (p : Place) : Placed s (s.fetchWord p).2 := by
  unfold State.fetchWord
  split
  · exact Placed.refl s
  · exact memRead_placed s _ _
  · exact Placed.refl s

theorem fetch_placed {i : Instr} {iw : Word} (h : s.fetch n = .instr u i iw) : Placed s u := by
  obtain ⟨p, rfl | ⟨q, rfl⟩⟩ := fetch_reads h
  · exact fetchWord_placed s p
  · exact (fetchWord_placed s p).trans (fetchWord_placed _ q)

/-! ### Where an address goes (R85–R93) -/

theorem Noted.rd (h : Noted s t) {f : Field} {i a b : Nat} (ha : f.addr i a b ≠ alertAddr) : t.rd f i a b = s.rd f i a b := by
  rw [State.rd, State.rd, h.regs _ ha]

/-- The words of a core, and the states of the domains, are none of them `SVC_ALERT`. -/
theorem alertAddr_eq : alertAddr = 0o404010002 := by decide

theorem Noted.domOn (h : Noted s t) {d : Nat} (hd : d < 80) : t.domOn d = s.domOn d := by
  rw [State.domOn, State.domOn, h.rd]
  rw [addr_domState, alertAddr_eq]
  omega

theorem Noted.coreState (h : Noted s t) (k : Nat) : t.coreState k = s.coreState k :=
  if_congr (by rw [h.domOn (coreDomain_lt k)]) (h.rd (by rw [addr_coreStat, alertAddr_eq]; omega)) rfl

theorem Noted.inImage (h : Noted s t) (a : Nat) : t.inImage a = s.inImage a := by
  have hbase (k : Nat) : t.rd CORE_IMG_BASE k = s.rd CORE_IMG_BASE k := h.rd (by rw [addr_imgBase, alertAddr_eq]; omega)
  have hlen (k : Nat) : t.rd CORE_IMG_LEN k = s.rd CORE_IMG_LEN k := h.rd (by rw [addr_imgLen, alertAddr_eq]; omega)
  simp only [State.inImage, h.coreState, hbase, hlen]

theorem Noted.answers (h : Noted s t) {d : Nat} (hd : d < 80) : t.answers d = s.answers d := by
  have hpwr : t.pwr = s.pwr := by rw [h.same]
  rw [State.answers, State.answers, h.domOn hd, hpwr]

theorem Noted.reported (h : Noted s t) (k a : Nat) (w : Bool) : t.reported k a w = s.reported k a w := by
  simp only [State.reported, h.domOn (coreDomain_lt _)]

theorem Noted.ownPlace (h : Noted s t) (k a : Nat) : t.ownPlace k a = s.ownPlace k a := by
  have hremap : t.rdb CORE_CTL_REMAP k = s.rdb CORE_CTL_REMAP k := by
    rw [State.rdb, State.rdb, h.rd]
    rw [alertAddr_eq]
    simp only [Field.addr, CORE_CTL_REMAP]
    omega
  simp only [State.ownPlace, hremap]

theorem regDomain_lt (a : Nat) : regDomain a < 80 := by
  have hcore := coreDomain_lt ((a - 0o460000000) / 0o10000)
  unfold regDomain
  dsimp only
  repeat' split
  all_goals omega

theorem instDomain_lt (i : Nat) : instDomain i < 80 := by
  unfold instDomain
  split
  · exact coreDomain_lt i
  · split <;> omega

theorem Place.domain_lt (p : Place) : p.domain < 80 := by
  cases p with
  | rom => exact (by decide : 78 < 80)
  | mem a => exact instDomain_lt _
  | win k => exact coreDomain_lt k
  | reg a => exact regDomain_lt a

/-- An address names after counting what it named before. -/
theorem Noted.resolve (h : Noted s t) (k a : Nat) (w : Bool) : t.resolve k a w = s.resolve k a w := by
  simp only [State.resolve, h.ownPlace, h.reported, h.inImage, h.answers (Place.domain_lt _)]

/-- What holds an access back is as before, when the same rows are being moved (R82, R83, R95, R101, R105, R531). -/
theorem Placed.blocked (h : Placed s t) (k : Nat) (g : Agent) (p : Place) : t.blocked k g p = s.blocked k g p := by
  have hmtx : t.mtx = s.mtx := by rw [h.same]
  have hzeroing : t.zeroing = s.zeroing := by rw [h.same]
  have hheld : t.heldBack p = s.heldBack p := by
    cases p <;> simp only [State.heldBack, State.rowMoves, h.copies, hzeroing, h.core]
  simp only [State.blocked, State.domainBusy, State.portBusy, hheld, hmtx]

end Sys2Proof.Machine
end

section
/-! PROOF. The loads and stores of a core (R132–R136). -/

namespace Sys2Proof.Machine

open Ev Reg

variable {s t u v : State} {n g h : Nat} {m : MemArgs} {iw : Word}

/-! ### One word of lane memory -/

theorem addrFault_none {ea : Word} {pair : Bool} {b : PWord} (hlt : ea.toNat < 2 ^ 30) (heven : pair = true → ea.toNat % 2 = 0)
    (hp : b.p = false) : addrFault ea pair b = none := by
  have hodd : (pair && decide (ea.toNat % 2 = 1)) = false := by
    cases pair with
    | false => rfl
    | true => simp [heven rfl]
  rw [addrFault, if_neg (Nat.not_le.2 hlt), hodd, hp]
  rfl

theorem loadWord_mem {a : Nat} (le : Nat) {ag : Agent} (hr : s.resolve n a false = .ok (.mem g))
    (hb : s.blocked n ag (.mem g) = false) :
    s.loadWord n ag a le = .ok (s.memRead g le).2 ((s.memAt g).deliver le) := by
  simp only [State.loadWord, hr, hb, State.readPlace]
  rfl

theorem storeWord_mem {a : Nat} (le : Nat) {ag : Agent} (w : PWord) (hr : s.resolve n a true = .ok (.mem g))
    (hb : s.blocked n ag (.mem g) = false) : s.storeWord n ag a le w = .ok (s.memWrite g le w) () := by
  simp only [State.storeWord, hr, hb, State.writePlace]
  rfl

theorem counterPair_mem {a : Nat} (hr : s.resolve n a false = .ok (.mem g)) : s.counterPair n a = none := by
  simp only [State.counterPair, hr]

theorem Noted.memAt (hu : Noted s t) (a : Nat) : t.memAt a = s.memAt a := by
  rw [State.memAt, State.memAt, hu.same]

/-! ### The end of an access -/

/-- An instruction whose body leaves `v` but for its core goes on from there (R127). -/
theorem hergil_went {i : Instr} {body : Nat → State → Run} {c : CoreSt} {ea : Nat} (hb : s.begins n = true)
    (hf : s.fetch n = .instr u i iw)
    (hd : body ((s.core n).pc + instrLen iw) u = .done (v.setCore n c) ((s.core n).pc + instrLen iw) ea) :
    Went v (s.hergil n i body) n ((s.core n).pc + instrLen iw) c := by
  rw [hergil_runs hb hf, hd]
  have hw := (retire_went (v.setCore n c) n (u.core n).pc iw _ ea (next_lt hf)).congr (beside_setCore v n c) rfl
  rwa [core_setCore] at hw

/-- What a load leaves beside its registers is what its reads note. -/
theorem Went.of_noted {next : Nat} {c : CoreSt} (hw : Went v t n next c) (hv : Noted s v) : Went s t n next c :=
  hw.congr (hv.beside n) (hv.regs _ (alert_ne_stat n))

/-- What a store leaves beside its registers is the memory it writes. -/
theorem Went.of_stored {next : Nat} {c : CoreSt} (hw : Went v t n next c) (hu : Noted s u) (hv : v = { u with mem := v.mem }) :
    t.mem = v.mem ∧ Went { s with mem := t.mem } t n next c := by
  have hmem : t.mem = v.mem := by rw [hw.same]
  refine ⟨hmem, hw.of_noted ⟨?_, fun a ha => ?_⟩⟩
  · rw [hmem, hv, hu.same]
  · rw [hv]
    exact hu.regs a ha

/-! ### Loads -/

theorem exec_ld {d : HReg} (hrun : s.runs n (.ld n d m) iw) (hlt : (memAddr m 1 ((s.core n).reg m.b).v).toNat < 2 ^ 30)
    (hp : ((s.core n).reg m.b).p = false) (hr : s.resolve n (memAddr m 1 ((s.core n).reg m.b).v).toNat false = .ok (.mem g))
    (hbl : s.blocked n .core (.mem g) = false) :
    Went s (s.hergil n (.ld n d m) (ldBody n d m)) n ((s.core n).pc + instrLen iw)
      (((s.core n).stepBase m 1).setReg d ((s.memAt g).deliver m.le.toNat)) := by
  obtain ⟨hb, u, hf⟩ := hrun
  have hu := fetch_placed hf
  have hread := memRead_noted u g (memLanes m)
  refine Went.of_noted (hergil_went hb hf (ea := (memAddr m 1 ((s.core n).reg m.b).v).toNat) ?_) (hu.toNoted.trans hread)
  have hload := loadWord_mem (memLanes m) ((hu.resolve n _ false).trans hr) ((hu.blocked n .core _).trans hbl)
  simp only [ldBody, hu.core, addrFault_none hlt (pair := false) nofun hp, hload, hread.core, hu.memAt]
  rfl

theorem exec_ldp {d : HPair} (hrun : s.runs n (.ldp n d m) iw) (hlt : (memAddr m 2 ((s.core n).reg m.b).v).toNat < 2 ^ 30)
    (heven : (memAddr m 2 ((s.core n).reg m.b).v).toNat % 2 = 0) (hp : ((s.core n).reg m.b).p = false)
    (hr : s.resolve n (memAddr m 2 ((s.core n).reg m.b).v).toNat false = .ok (.mem g))
    (hr' : s.resolve n ((memAddr m 2 ((s.core n).reg m.b).v).toNat + 1) false = .ok (.mem h))
    (hbl : s.blocked n .core (.mem g) = false) (hbl' : s.blocked n .core (.mem h) = false) :
    Went s (s.hergil n (.ldp n d m) (ldpBody n d m)) n ((s.core n).pc + instrLen iw)
      ((((s.core n).stepBase m 2).setReg (2 * d.val) ((s.memAt g).deliver m.le.toNat)).setReg (2 * d.val + 1)
        ((s.memAt h).deliver m.le.toNat)) := by
  obtain ⟨hb, u, hf⟩ := hrun
  have hu := fetch_placed hf
  have hfirst := hu.trans (memRead_placed u g (memLanes m))
  have hboth := hfirst.trans (memRead_placed _ h (memLanes m))
  refine Went.of_noted (hergil_went hb hf (ea := (memAddr m 2 ((s.core n).reg m.b).v).toNat) ?_) hboth.toNoted
  have hload := loadWord_mem (memLanes m) ((hu.resolve n _ false).trans hr) ((hu.blocked n .core _).trans hbl)
  have hload' := loadWord_mem (memLanes m) ((hfirst.resolve n _ false).trans hr') ((hfirst.blocked n .core _).trans hbl')
  simp only [ldpBody, hu.core, addrFault_none hlt (pair := true) (fun _ => heven) hp, State.loadPair,
    counterPair_mem ((hu.resolve n _ false).trans hr), hload, Acc.andThen, hload', hboth.core, hu.memAt, hfirst.memAt]
  rfl

/-- Settles O9: the place of the address is found after the fetch as before it, and read once. -/
theorem loadsComplete : Obligations.LoadsComplete := by
  refine ⟨?_, ?_, ?_⟩
  · intro s n g d m iw hrun c b ea hlt hp hr hbl
    exact ⟨_, rfl, exec_ld hrun hlt hp hr hbl⟩
  · intro s n g h d m iw hrun c b ea hlt heven hp hr hr' hbl hbl'
    exact ⟨_, rfl, exec_ldp hrun hlt heven hp hr hr' hbl hbl'⟩
  · intro s u v n d m iw w hb hf ea hlt hp hload
    refine ⟨_, rfl, hergil_went hb hf (ea := ea) ?_⟩
    have hload' : u.loadWord n .core ea (memLanes m) = .ok v w := hload
    simp only [ldBody, (fetch_noted hf).1.core, addrFault_none hlt (pair := false) nofun hp, hload', ea]

/-! ### Stores -/

theorem exec_st {d : HReg} (hrun : s.runs n (.st n d m) iw) (hlt : (memAddr m 1 ((s.core n).reg m.b).v).toNat < 2 ^ 30)
    (hp : ((s.core n).reg m.b).p = false) (hr : s.resolve n (memAddr m 1 ((s.core n).reg m.b).v).toNat true = .ok (.mem g))
    (hbl : s.blocked n .core (.mem g) = false) :
    ∃ t, exec (.st n d m) s = .next t ∧ t.mem = (s.memWrite g m.le.toNat ((s.core n).reg d)).mem ∧
      Went { s with mem := t.mem } t n ((s.core n).pc + instrLen iw) ((s.core n).stepBase m 1) := by
  obtain ⟨hb, u, hf⟩ := hrun
  have hu := fetch_placed hf
  have hstore := storeWord_mem (memLanes m) ((s.core n).reg d) ((hu.resolve n _ true).trans hr)
    ((hu.blocked n .core _).trans hbl)
  have hw : Went (u.memWrite g (memLanes m) ((s.core n).reg d)) (s.hergil n (.st n d m) (stBody n d m)) n
      ((s.core n).pc + instrLen iw) ((s.core n).stepBase m 1) := by
    refine hergil_went hb hf (ea := (memAddr m 1 ((s.core n).reg m.b).v).toNat) ?_
    simp only [stBody, hu.core, addrFault_none hlt (pair := false) nofun hp, hstore]
    rw [show (u.memWrite g (memLanes m) ((s.core n).reg d)).core n = s.core n from hu.core n]
  obtain ⟨hmem, hwent⟩ := hw.of_stored hu.toNoted rfl
  refine ⟨_, rfl, hmem.trans ?_, hwent⟩
  rw [hu.same]
  rfl

theorem exec_stp {d : HPair} (hrun : s.runs n (.stp n d m) iw) (hlt : (memAddr m 2 ((s.core n).reg m.b).v).toNat < 2 ^ 30)
    (heven : (memAddr m 2 ((s.core n).reg m.b).v).toNat % 2 = 0) (hp : ((s.core n).reg m.b).p = false)
    (hr : s.resolve n (memAddr m 2 ((s.core n).reg m.b).v).toNat true = .ok (.mem g))
    (hr' : s.resolve n ((memAddr m 2 ((s.core n).reg m.b).v).toNat + 1) true = .ok (.mem h))
    (hbl : s.blocked n .core (.mem g) = false) (hbl' : s.blocked n .core (.mem h) = false) :
    ∃ t, exec (.stp n d m) s = .next t ∧
      t.mem = ((s.memWrite g m.le.toNat ((s.core n).reg (2 * d.val))).memWrite h m.le.toNat
        ((s.core n).reg (2 * d.val + 1))).mem ∧
      Went { s with mem := t.mem } t n ((s.core n).pc + instrLen iw) ((s.core n).stepBase m 2) := by
  obtain ⟨hb, u, hf⟩ := hrun
  have hu := fetch_placed hf
  have hres := (hu.resolve n _ true).trans hr
  have hres' := (hu.resolve n _ true).trans hr'
  have hfree := (hu.blocked n .core _).trans hbl
  have hfree' := (hu.blocked n .core _).trans hbl'
  have hlow := storeWord_mem (memLanes m) ((s.core n).reg (pairLo d)) hres hfree
  have hhigh := storeWord_mem (memLanes m) ((s.core n).reg (pairHi d)) hres' hfree'
  have hboth := storeWord_mem (s := u.memWrite g (memLanes m) ((s.core n).reg (pairLo d))) (memLanes m)
    ((s.core n).reg (pairHi d)) hres' hfree'
  have hw : Went ((u.memWrite g (memLanes m) ((s.core n).reg (pairLo d))).memWrite h (memLanes m) ((s.core n).reg (pairHi d)))
      (s.hergil n (.stp n d m) (stpBody n d m)) n ((s.core n).pc + instrLen iw) ((s.core n).stepBase m 2) := by
    refine hergil_went hb hf (ea := (memAddr m 2 ((s.core n).reg m.b).v).toNat) ?_
    simp only [stpBody, hu.core, addrFault_none hlt (pair := true) (fun _ => heven) hp, hlow, hhigh, Acc.fault, lowestCode,
      Acc.andThen, hboth]
    rw [show ((u.memWrite g (memLanes m) ((s.core n).reg (pairLo d))).memWrite h (memLanes m)
      ((s.core n).reg (pairHi d))).core n = s.core n from hu.core n]
  obtain ⟨hmem, hwent⟩ := hw.of_stored hu.toNoted rfl
  refine ⟨_, rfl, hmem.trans ?_, hwent⟩
  rw [hu.same]
  rfl

/-- Words read by what the map of memory holds. -/
theorem memAt_of_mem (h : t.mem = u.mem) (a : Nat) : t.memAt a = u.memAt a := congrArg (sget memDefault · a) h

/-- Settles O10: the words of the address are written in memory, and the end of the instruction leaves them. -/
theorem storesComplete : Obligations.StoresComplete := by
  refine ⟨?_, ?_, ?_⟩
  · intro s n g d m iw hrun c b ea hlt hp hr hbl
    obtain ⟨t, hexec, hmem, hw⟩ := exec_st hrun hlt hp hr hbl
    exact ⟨t, hexec, (memAt_of_mem hmem g).trans (memAt_memWrite s g _ _),
      fun a ha => (memAt_of_mem hmem a).trans (memAt_memWrite_ne s _ _ ha), hw⟩
  · intro s n g d m iw hrun c b ea hlt heven hp hr hr' hbl hbl'
    obtain ⟨t, hexec, hmem, hw⟩ := exec_stp hrun hlt heven hp hr hr' hbl hbl'
    have hne : g + 1 ≠ g := Nat.succ_ne_self g
    refine ⟨t, hexec, (memAt_of_mem hmem g).trans ?_, (memAt_of_mem hmem _).trans ?_,
      fun a hg hg' => (memAt_of_mem hmem a).trans ?_, hw⟩
    · rw [memAt_memWrite_ne _ _ _ hne.symm, memAt_memWrite]
    · rw [memAt_memWrite, memAt_memWrite_ne _ _ _ hne]
    · rw [memAt_memWrite_ne _ _ _ hg', memAt_memWrite_ne _ _ _ hg]
  · intro s u v n d m iw hb hf ea hlt hp hstore
    refine ⟨_, rfl, hergil_went hb hf (ea := ea) ?_⟩
    have hstore' : u.storeWord n .core ea (memLanes m) ((s.core n).reg d) = .ok v () := hstore
    simp only [stBody, (fetch_noted hf).1.core, addrFault_none hlt (pair := false) nofun hp, hstore', ea]

end Sys2Proof.Machine
end

section
/-! PROOF. The requests that wait at the matrices (R101–R107). -/

namespace Sys2Proof.Machine

open Ev Reg

variable {s t : State} {n target : Nat} {r : MtxReq}

/-! ### The choice of a target port (R103, R104, R107) -/

/-- A fold that takes each element or keeps what it has ends with an element of the list. -/
theorem foldl_pick_mem {α : Type} {f : Option α → α → Option α} (hf : ∀ b y x, f b y = some x → x = y ∨ b = some x)
    (l : List α) (b : Option α) {x : α} (h : l.foldl f b = some x) : x ∈ l ∨ b = some x := by
  induction l generalizing b with
  | nil => exact .inr h
  | cons y l ih =>
    rcases ih _ h with hmem | hb
    · exact .inl (List.mem_cons_of_mem y hmem)
    · rcases hf b y x hb with rfl | hb
      · exact .inl List.mem_cons_self
      · exact .inr hb

theorem roundRobin_mem {last : Nat} {l : List MtxReq} (h : roundRobin last l = some r) : r ∈ l := by
  unfold roundRobin at h
  dsimp only at h
  have hpick : ∀ l' : List MtxReq, ∀ x, l'.foldl (fun (b : Option MtxReq) r => match b with
      | none => some r
      | some q => if r.master < q.master then some r else some q) none = some x → x ∈ l' := by
    intro l' x hx
    refine (foldl_pick_mem (fun b y x hb => ?_) l' none hx).resolve_right nofun
    split at hb
    · cases hb
      exact .inl rfl
    · split at hb <;> cases hb
      · exact .inl rfl
      · exact .inr rfl
  split at h
  · next q hq =>
    cases h
    exact List.mem_of_mem_filter (hpick _ _ hq)
  · exact hpick _ _ h

/-- A choice among requests is of one of them; a choice for starvation is of the longest waiting of those that starve. -/
theorem choose_mem {ready : List MtxReq} {b : Bool} (h : s.choose target ready = some (r, b)) :
    r ∈ ready ∧ (b = true → r ∈ longest (ready.filter s.starved)) := by
  unfold State.choose at h
  dsimp only at h
  split at h
  · obtain ⟨q, hq, he⟩ := Option.map_eq_some_iff.1 h
    cases he
    refine ⟨?_, nofun⟩
    have hmem := roundRobin_mem hq
    split at hmem
    · exact hmem
    · exact List.mem_of_mem_filter hmem
  · obtain ⟨q, hq, he⟩ := Option.map_eq_some_iff.1 h
    cases he
    have hmem := roundRobin_mem hq
    exact ⟨List.mem_of_mem_filter (List.mem_of_mem_filter hmem), fun _ => hmem⟩

/-- The requests of the matrix that a target port can grant now. -/
def State.matrixReady (s : State) (target : Nat) : List MtxReq :=
  ((s.mtx.filter fun r => targetPort r.addr = target).filter s.arrived).filter fun r => !r.own

/-- A target port grants an own access of its core, not for starvation, or one of the requests of the matrix. -/
theorem chosen_cases {b : Bool} (h : s.chosen target = some (r, b)) :
    (r ∈ s.mtx ∧ targetPort r.addr = target ∧ b = false) ∨ s.choose target (s.matrixReady target) = some (r, b) := by
  unfold State.chosen at h
  dsimp only at h
  split at h
  · cases h
  split at h
  · next q hq =>
    split at h
    · exact .inr h
    · cases h
      have hmem := List.mem_of_mem_filter (List.mem_of_find?_eq_some hq)
      exact .inl ⟨List.mem_of_mem_filter hmem, of_decide_eq_true (List.mem_filter.1 hmem).2, rfl⟩
  · exact .inr h

theorem mem_matrixReady : r ∈ s.matrixReady target ↔
    r ∈ s.mtx ∧ targetPort r.addr = target ∧ s.arrived r = true ∧ r.own = false := by
  simp only [State.matrixReady, List.mem_filter, decide_eq_true_eq, Bool.not_eq_true', and_assoc]

theorem chosen_mem {b : Bool} (h : s.chosen target = some (r, b)) : r ∈ s.mtx ∧ targetPort r.addr = target := by
  rcases chosen_cases h with ⟨hmem, hport, -⟩ | h
  · exact ⟨hmem, hport⟩
  · obtain ⟨hmem, hport, -⟩ := mem_matrixReady.1 (choose_mem h).1
    exact ⟨hmem, hport⟩

/-- A core's own access to its local RAM, seen from its port (R107). -/
theorem own_iff (hport : targetPort r.addr = target) : r.own = true ↔ r.core = target ∧ r.by_ = .core := by
  simp [MtxReq.own, hport]

/-- What a choice for starvation is of (R103). -/
theorem chosen_starved (h : s.chosen target = some (r, true)) :
    r ∈ s.mtx ∧ s.starved r = true ∧ ∀ q ∈ s.matrixReady target, s.starved q = true → r.since / 4 ≤ q.since / 4 := by
  rcases chosen_cases h with ⟨-, -, hb⟩ | h
  · cases hb
  · obtain ⟨hmem, hlong⟩ := choose_mem h
    obtain ⟨hstarved, hleast⟩ := List.mem_filter.1 (hlong rfl)
    refine ⟨(mem_matrixReady.1 hmem).1, (List.mem_filter.1 hstarved).2, fun q hq hqs => ?_⟩
    exact of_decide_eq_true (List.all_eq_true.1 hleast q (List.mem_filter.2 ⟨hq, hqs⟩))

/-! ### Admission and grant (R101–R105) -/

theorem exec_matrixAdmit {room : Bool} (h : (s.mtx.find? fun q => q.core = n && s.movable q) = some r) :
    exec (.matrixAdmit n room) s = .next (
      if room = true ∧ s.targetHeld r = false then
        { s with mtx := replaceFirst r { r with stage := .admitted, adm := s.now } s.mtx }
      else if r.stage = .heldBack then (s.stageTo r .waiting).count MTX_HOLD_DL (matrixOf n)
      else s) := by
  show execMatrixAdmit n room s = _
  rw [execMatrixAdmit, h]
  simp only [Bool.and_eq_true, Bool.not_eq_true']

theorem matrixOf_lt (n : Nat) : matrixOf n < 9 := by
  unfold matrixOf coreCluster
  split
  · split <;> omega
  · omega

/-- The counters of `MTX_HOLD_DL` are none of the event path (R541). -/
theorem holdDl_offPath (n : Nat) : ¬ evPathCounter (MTX_HOLD_DL.base + matrixOf n) := by
  have hbase : MTX_HOLD_DL.base = 42 := by decide +kernel
  have haval : EVT_AVALANCHE.base = 24590 := by decide +kernel
  have hcoal : EVT_COALESCED.base = 24592 := by decide +kernel
  have hcoalP0 : EVT_P0_COALESCED.base = 24593 := by decide +kernel
  have hlt := matrixOf_lt n
  rw [evPathCounter, hbase, haval, hcoal, hcoalP0]
  omega

theorem exec_matrixGrant {b : Bool} (h : s.chosen target = some (r, b)) :
    exec (.matrixGrant target) s = .next (
      let u := s.stageTo r .granted
      let others := s.ramTurn.filter (· ≠ target)
      if r.own then { u with ramTurn := target :: others }
      else
        let v := { u with mtxLast := sput (fun _ => 0) s.mtxLast target (r.master + 1), ramTurn := others }
        if b then v.count MTX_STARVE (targetMatrix r.addr) else v) := by
  show execMatrixGrant target s = _
  rw [execMatrixGrant, h]
  rfl

/-! ### The response (R95, R101, R105, R110, R135, R136) -/

/-- A request that no window serves, of a core mapped as it was at its issue, is answered in the present view. -/
theorem respond_same_view (hremap : s.rdb CORE_CTL_REMAP r.core = r.remap) (hwin : r.win = none) : s.respond r = s.answer r := by
  unfold State.respond State.asIssued
  rw [hwin]
  have hsame : ¬ (r.core < 77 ∧ s.rdb CORE_CTL_REMAP r.core ≠ r.remap) := fun h => h.2 hremap
  simp only [if_neg hsame]
  split
  · next h => cases h
  · rfl

/-- A posted store is made where its word has kept its place (R118, R135). -/
theorem answer_posted {le : Nat} {v : PWord} (hby : r.by_ = .core) (hposted : r.posted = some (le, v))
    (hwait : s.waiting r.core = none) (hans : s.answers (Place.mem r.addr).domain = true) (himg : s.inImage r.addr = false) :
    s.answer r = s.memWrite r.addr le v := by
  have hlost : s.lostPlace (.mem r.addr) = none := by
    simp [State.lostPlace, hans, himg]
  have hwait' : (s.memWrite r.addr le v).waiting r.core = none := hwait
  simp only [State.answer, hby, hposted, State.postedAnswer, hlost, State.stir, hwait']

/-- A load goes on with the word of its place (R136). -/
theorem answer_load {d : HReg} {m : MemArgs} {v : State} {w : PWord} (hby : r.by_ = .core) (hposted : r.posted = none)
    (hwait : s.waiting r.core = some (.ld r.core d m))
    (hlt : (memAddr m 1 ((s.core r.core).reg m.b).v).toNat < 2 ^ 30) (hp : ((s.core r.core).reg m.b).p = false)
    (hload : s.loadWord r.core .core (memAddr m 1 ((s.core r.core).reg m.b).v).toNat m.le.toNat = .ok v w) :
    Went v (s.answer r) r.core (s.afterWait r.core) (((v.core r.core).stepBase m 1).setReg d w) := by
  have hanswer : s.answer r =
      (v.setCore r.core (((v.core r.core).stepBase m 1).setReg d w)).retire r.core (s.core r.core).pc
        (s.core r.core).waitWord (s.afterWait r.core) (memAddr m 1 ((s.core r.core).reg m.b).v).toNat := by
    have hload' : s.loadWord r.core .core (memAddr m 1 ((s.core r.core).reg m.b).v).toNat (memLanes m) = .ok v w := hload
    simp only [State.answer, hby, hposted, State.resume, hwait, waitBody, ldBody,
      addrFault_none hlt (pair := false) nofun hp, hload', State.settle]
  have hnext : s.afterWait r.core < 2 ^ 30 := Nat.mod_lt _ (by norm_num)
  have hw := (retire_went (v.setCore r.core (((v.core r.core).stepBase m 1).setReg d w)) r.core (s.core r.core).pc
    (s.core r.core).waitWord _ (memAddr m 1 ((s.core r.core).reg m.b).v).toNat hnext).congr (beside_setCore v r.core _) rfl
  rw [hanswer]
  rwa [core_setCore] at hw

theorem exec_matrixResponse
    (h : (s.mtx.find? fun q => q.core = n && q.stage = .granted && !s.targetHeld q) = some r) :
    exec (.matrixResponse n) s = .next (
      let t := (s.stageTo r .served).respond r
      { t with mtx := removeFirst { r with stage := .served } t.mtx }) := by
  show execMatrixResponse n s = _
  rw [execMatrixResponse, h]

/-- Settles O16: the three commands move one request each, and the access is that of an instruction that is served at once. -/
theorem matrixRequestsProceed : Obligations.MatrixRequestsProceed := by
  refine ⟨fun s n room r hfind => ⟨fun h => ?_, fun h hstage => ?_, fun h hstage => ?_⟩,
    fun s target r b hchosen => ⟨fun hown => ?_, fun hown => ?_⟩, fun s target r hchosen => ?_, ?_⟩
  · rw [exec_matrixAdmit hfind, if_pos h]
  · rw [exec_matrixAdmit hfind, if_neg h, if_neg (by rw [hstage]; decide)]
  · rw [exec_matrixAdmit hfind, if_neg h, if_pos hstage]
    exact ⟨_, rfl, count_events _ _ _ _, count_counted _ _ _ _ (holdDl_offPath n)⟩
  · obtain ⟨-, hport⟩ := chosen_mem hchosen
    rw [exec_matrixGrant hchosen, if_pos ((own_iff hport).2 hown)]
    rfl
  · obtain ⟨-, hport⟩ := chosen_mem hchosen
    rw [exec_matrixGrant hchosen, if_neg (mt (own_iff hport).1 hown)]
    refine ⟨_, rfl, ?_⟩
    cases b with
    | false => exact Events.refl _
    | true => exact count_events _ MTX_STARVE _ 1
  · obtain ⟨hmem, hstarved, hleast⟩ := chosen_starved hchosen
    refine ⟨hmem, of_decide_eq_true hstarved, fun q hq hport harrived hown hlate => hleast q ?_ (decide_eq_true hlate)⟩
    exact mem_matrixReady.2 ⟨hq, hport, harrived, Bool.eq_false_iff.2 (mt (own_iff hport).1 hown)⟩
  · intro s n r hfind q u
    have hcore : r.core = n := by
      have h := List.find?_some hfind
      simp only [Bool.and_eq_true, decide_eq_true_eq] at h
      exact h.1.1
    subst hcore
    refine ⟨exec_matrixResponse hfind, ?_, ?_⟩
    · intro le v hby hremap hwin hposted hwait hans himg
      have hu : u.respond r = u.memWrite r.addr le v :=
        (respond_same_view (s := u) hremap hwin).trans (answer_posted (s := u) hby hposted hwait hans himg)
      refine ⟨_, exec_matrixResponse hfind, ?_, fun a ha => ?_, ?_⟩
      all_goals rw [show (s.stageTo r .served).respond r = u.memWrite r.addr le v from hu]
      · exact memAt_memWrite u r.addr le v
      · exact memAt_memWrite_ne u le v ha
      · rfl
    · intro d m v w hby hremap hwin hposted hwait ea hlt hp hload
      refine ⟨u.answer r, ?_, answer_load hby hposted hwait hlt hp hload⟩
      rw [exec_matrixResponse hfind, show (s.stageTo r .served).respond r = u.answer r from respond_same_view hremap hwin]

end Sys2Proof.Machine
end

section
/-! PROOF. Writes of the registers of a core that remap, halt, start and sample it, and of its windows (R95, R98, R110, R113,
R119, R565). -/

namespace Sys2Proof.Machine

open Ev Reg

variable {s t u : State} {m n : Nat} {w : Word}

/-! ### A write of a word of a core's block -/

/-- The address of word `o` of the block of core `n` (R113). -/
def coreWord (n o : Nat) : Nat := 0o460000000 + n * 0o10000 + o

/-- A request that reaches a register writes it, with the bursts of a reset where the row has them. -/
theorem portWrite_reaches {a : Nat} (w : Word) (bursts : Option (List Burst)) (h : s.reaches m a true) :
    s.portWrite m a w bursts = (s.busWrite m a 15 w bursts (coreView m a)).2 := by
  obtain ⟨hmaster, hresolve, hfree⟩ := h
  simp [State.portWrite, hmaster, hresolve, hfree]

theorem keptBits_coreWord {n o : Nat} (ho : o < 0o10000) (hlp : o ≠ 0o11) : keptBits (coreWord n o) = 2 ^ 36 - 1 := by
  have hoff : (0o460000000 + n * 0o10000 + o - 0o460000000) % 0o10000 = o := by omega
  unfold keptBits coreWord
  rw [if_neg (by omega), if_neg (by rw [hoff]; exact fun h => hlp h.2), if_neg (by omega)]

/-- A write of a word of a core's block that is accepted (R113). -/
theorem portWrite_core {o : Nat} (bursts : Option (List Burst)) (h : s.accepts m (coreWord n o) w) (ho : o < 0o10000)
    (hlp : o ≠ 0o11) :
    s.portWrite m (coreWord n o) w bursts =
      s.coreWrite (m / 8) (m % 8) n o (coreView m (coreWord n o)) 15 (s.after (coreWord n o) w) w bursts := by
  obtain ⟨hreach, hjudged⟩ := h
  have hnum : (coreWord n o - 0o460000000) / 0o10000 = n := by
    unfold coreWord
    omega
  have hoff : (coreWord n o - 0o460000000) % 0o10000 = o := by
    unfold coreWord
    omega
  have hgo : ¬(15 % 16 = 0 ∨ (coreWord n o = 0o404001001 ∧ s.rdb PWR_WDOG_CTL_EN = true)) := by
    rintro (h | ⟨h, -⟩)
    · cases h
    · unfold coreWord at h
      omega
  have hcore : 0o460000000 ≤ coreWord n o := by
    unfold coreWord
    omega
  rw [portWrite_reaches w bursts hreach]
  unfold State.busWrite
  rw [if_neg hgo]
  simp only [written_whole, blend_whole]
  rw [State.judged] at hjudged
  simp only [hjudged, if_pos hcore, hnum, hoff, State.after, word_written (keptBits_coreWord ho hlp)]

/-- A write of the first word of a core's block is one of `CORE_CTL`. -/
theorem portWrite_ctl (bursts : Option (List Burst)) (h : s.accepts m (coreWord n 0) w) :
    s.portWrite m (coreWord n 0) w bursts = s.wroteCoreCtl (m / 8) (m % 8) n (coreView m (coreWord n 0)) w bursts :=
  portWrite_core bursts h (by decide) (by decide)

/-! ### Windows (R95) -/

theorem addr_winH (n w : Nat) : CORE_WIN_H_MODE.addr n w 0 = coreWord n (0o20 + 2 * w) := by
  simp only [Field.addr, CORE_WIN_H_MODE, coreWord]
  omega

theorem portWrite_window {win : Fin 4} (h : s.accepts m (CORE_WIN_H_MODE.addr n win 0) w) :
    s.portWrite m (CORE_WIN_H_MODE.addr n win 0) w = (s.stored (CORE_WIN_H_MODE.addr n win 0) w).wroteWindow n win := by
  have hwin := win.isLt
  have hword : 0o20 ≤ 0o20 + 2 * win.val ∧ 0o20 + 2 * win.val < 0o30 ∧ (0o20 + 2 * win.val) % 2 = 0 := by omega
  have hnum : (0o20 + 2 * win.val - 0o20) / 2 = win.val := by omega
  rw [addr_winH] at h ⊢
  rw [portWrite_core none h (by omega) (by omega), State.coreWrite, if_neg (by omega), if_neg (by omega), if_pos hword, hnum]
  rfl

/-- A core changed in a state that differs in its register words alone. -/
theorem setCore_frame {s t : State} (h : t = { s with regs := t.regs }) (n : Nat) (c : CoreSt) :
    t.setCore n c = { s with cores := (t.setCore n c).cores, regs := (t.setCore n c).regs } := by
  have hset : t.setCore n c = { t with cores := (t.setCore n c).cores, regs := (t.setCore n c).regs } := rfl
  rw [hset, h]

/-- What a write of a window's first word leaves, `pend` being the windows of the core whose open is pending then. -/
structure WindowWritten (s t : State) (n k : Nat) (pend : List Nat) : Prop where
  pend : (t.core n).winPend = pend
  shut : t.rd CORE_WIN_H_OPEN n k = 0
  cores : ∀ j, j ≠ n → t.core j = s.core j
  regs : ∀ b, b ≠ CORE_WIN_H_MODE.addr n k 0 → t.reg b = s.reg b
  same : t = { s with cores := t.cores, regs := t.regs }

/-- A field of a window's first word is written. -/
theorem reg_winH (v : State) {f : Field} {k b x : Nat} (hf : f.addr n k 0 = CORE_WIN_H_MODE.addr n k 0)
    (hb : b ≠ CORE_WIN_H_MODE.addr n k 0) : (v.wr f x n k).reg b = v.reg b :=
  reg_setReg_ne _ _ (by rw [hf]; exact hb)

theorem addr_winOpen (n k : Nat) : CORE_WIN_H_OPEN.addr n k 0 = CORE_WIN_H_MODE.addr n k 0 := by
  simp only [Field.addr, CORE_WIN_H_OPEN, CORE_WIN_H_MODE]

theorem addr_winDeny (n k : Nat) : CORE_WIN_H_DENY.addr n k 0 = CORE_WIN_H_MODE.addr n k 0 := by
  simp only [Field.addr, CORE_WIN_H_DENY, CORE_WIN_H_MODE]

theorem shut_open (s : State) (n k : Nat) : (s.wr CORE_WIN_H_OPEN 0 n k).rd CORE_WIN_H_OPEN n k = 0 :=
  rd_wr s _ _ _ _ _ (by decide) (by decide)

theorem mode_open (s : State) (n k : Nat) : (s.wr CORE_WIN_H_OPEN 0 n k).rd CORE_WIN_H_MODE n k = s.rd CORE_WIN_H_MODE n k :=
  rd_wr_apart s _ _ _ _ _ _ _ _ _ (by decide) (by decide) (by decide) (by decide)

/-- A window is closed, or asked for, as the MODE in its word says (R95). -/
theorem wroteWindow_written (s : State) (n k : Nat) :
    WindowWritten s (s.wroteWindow n k) n k
      (if s.rd CORE_WIN_H_MODE n k = 0 then (s.core n).winPend.filter (· ≠ k)
       else k :: (s.core n).winPend.filter (· ≠ k)) := by
  unfold State.wroteWindow
  dsimp only
  rw [mode_open]
  split
  · exact ⟨by rw [core_setCore], by rw [rd_setCore, shut_open], fun j hj => by rw [core_setCore_ne _ _ hj, core_wr],
      fun b hb => by rw [reg_setCore, reg_winH s (addr_winOpen n k) hb], setCore_frame (wr_frame rfl _ _ _ _ _) _ _⟩
  · have hdeny : ((s.wr CORE_WIN_H_OPEN 0 n k).wr CORE_WIN_H_DENY 0 n k).rd CORE_WIN_H_OPEN n k = 0 := by
      rw [rd_wr_apart _ _ _ _ _ _ _ _ _ _ (by decide) (by decide) (by decide) (by decide), shut_open]
    exact ⟨by rw [core_setCore], by rw [rd_setCore, hdeny],
      fun j hj => by rw [core_setCore_ne _ _ hj, core_wr, core_wr],
      fun b hb => by rw [reg_setCore, reg_winH _ (addr_winDeny n k) hb, reg_winH s (addr_winOpen n k) hb],
      setCore_frame (wr_frame (wr_frame rfl _ _ _ _ _) _ _ _ _ _) _ _⟩

/-- The same after the stored value is in the word. -/
theorem WindowWritten.of_stored {k : Nat} {pend : List Nat} (w : Word)
    (h : WindowWritten (s.stored (CORE_WIN_H_MODE.addr n k 0) w) t n k pend) : WindowWritten s t n k pend :=
  ⟨h.pend, h.shut, h.cores, fun b hb => (h.regs b hb).trans (reg_stored_ne s w hb), h.same⟩

/-! ### `CORE_CTL` (R110, R113, R119) -/

theorem addr_coreCtl (n : Nat) (f : Field) (hf : f.addr n 0 0 = CORE_CTL_REMAP.addr n 0 0) : f.addr n 0 0 = coreWord n 0 := by
  rw [hf]
  simp only [Field.addr, CORE_CTL_REMAP, coreWord]

/-- No domain's state, and no state of a core, is in a word of a core's block but its second (R119). -/
theorem coreState_wr {f : Field} {v o : Nat} (hf : f.addr n 0 0 = coreWord n o) (ho : o < 0o10000) (hstat : o ≠ 1) (k : Nat) :
    (s.wr f v n).coreState k = s.coreState k := by
  have hdom : (s.wr f v n).domOn (coreDomain k) = s.domOn (coreDomain k) := by
    rw [State.domOn, State.domOn, rd_wr_ne]
    have hlt := coreDomain_lt k
    rw [addr_domState, hf, coreWord]
    omega
  refine if_congr (by rw [hdom]) (rd_wr_ne _ _ _ _ _ _ _ _ _ _ ?_) rfl
  rw [addr_coreStat, hf, coreWord]
  omega

theorem coreState_stat (hn : s.coreState n ≠ cOff) {f : Field} (hf : f.addr n 0 0 = coreStat n) (v : Nat) :
    (s.wr f v n).coreState n = (s.wr f v n).rd CORE_STAT_STATE n := by
  obtain ⟨hlt, hon, -⟩ := coreState_on rfl hn
  refine coreState_of_on hlt ?_
  rw [State.domOn, rd_wr_ne]
  · exact hon
  · have hdlt := coreDomain_lt n
    rw [addr_domState, hf, coreStat, addr_coreStat]
    omega

/-- A write of STATE to a core that is not OFF. -/
theorem coreState_wr_state (hn : s.coreState n ≠ cOff) {v : Nat} (hv : v < 8) : (s.wr CORE_STAT_STATE v n).coreState n = v := by
  rw [coreState_stat hn rfl, rd_wr _ _ _ _ _ _ (by decide) (by decide)]
  exact Nat.mod_eq_of_lt hv

/-- A write of REMAP alone (R110). -/
theorem wroteCoreCtl_remap {k j a : Nat} {bursts : Option (List Burst)} (hon : s.coreState n ≠ cOff) :
    s.wroteCoreCtl k j n a (w &&& 8) bursts =
      if k = n then s.setCore n { s.core n with remapPend := some (w.getLsbD 3) }
      else if s.coreState n = cRunning then s
      else s.wr CORE_CTL_REMAP (b2n (w.getLsbD 3)) n := by
  have hremap : (w &&& 8).bit 3 = w.getLsbD 3 := by simp [Word.bit]
  have hrest : ∀ i, i < 3 → (w &&& 8).bit i = false := by
    intro i hi
    interval_cases i <;> simp [Word.bit]
  unfold State.wroteCoreCtl
  rw [if_neg hon]
  simp only [hremap, hrest 0 (by decide), hrest 1 (by decide), hrest 2 (by decide), Bool.false_and, Bool.or_self,
    Bool.false_eq_true, if_false]
  split <;> rfl

/-- A write of HALT alone by another master (R119). -/
theorem wroteCoreCtl_halt {k j a : Nat} {bursts : Option (List Burst)} (hk : k ≠ n) (hrun : s.coreState n = cRunning)
    (h2 : w.getLsbD 2 = true) (h1 : w.getLsbD 1 = false) (h0 : w.getLsbD 0 = false) :
    s.wroteCoreCtl k j n a w bursts = s.haltCore n := by
  have hon : ¬s.coreState n = cOff := by
    rw [hrun]
    decide
  unfold State.wroteCoreCtl
  rw [if_neg hon]
  simp only [Word.bit, h2, h1, h0, if_neg hk, hrun, if_true, Bool.true_and, decide_true, Bool.false_eq_true, if_false]

/-- A core that is halted (R119). -/
theorem haltCore_halts (hrun : s.coreState n = cRunning) : let t := s.haltCore n
    (∀ k, k ≠ n → t.core k = s.core k) ∧ t = { s with cores := t.cores, regs := t.regs } ∧
      match (s.core n).wait with
      | none => t.coreState n = 5 ∧ t.core n = s.core n
      | some i =>
        if stopsAt i then t.coreState n = 5 ∧ t.core n = { s.core n with wait := none, waitDesc := [] }
        else t.coreState n = 4 ∧ t.core n = { s.core n with haltReq := true } := by
  have hon : s.coreState n ≠ cOff := by
    rw [hrun]
    decide
  unfold State.haltCore
  dsimp only
  cases hwait : (s.core n).wait with
  | none => exact ⟨fun _ _ => rfl, rfl, coreState_wr_state hon (by decide), rfl⟩
  | some i =>
    by_cases hstop : stopsAt i = true
    · simp only [if_pos hstop]
      exact ⟨fun k hk => core_setCore_ne _ _ hk, rfl,
        coreState_wr_state (s := s.setCore n { s.core n with wait := none, waitDesc := [] }) hon (by decide), core_setCore _ _ _⟩
    · simp only [if_neg hstop]
      exact ⟨fun k hk => core_setCore_ne _ _ hk, rfl, hrun, core_setCore _ _ _⟩

/-- A write of START alone by another master (R113, R119). -/
theorem wroteCoreCtl_start {k j a : Nat} {bursts : Option (List Burst)} (hk : k ≠ n) (hon : s.coreState n ≠ cOff)
    (hrun : s.coreState n ≠ cRunning) (h2 : w.getLsbD 2 = false) (h1 : w.getLsbD 1 = true) (h0 : w.getLsbD 0 = false) :
    s.wroteCoreCtl k j n a w bursts = (s.wr CORE_CTL_REMAP (b2n (w.getLsbD 3)) n).startCore n := by
  unfold State.wroteCoreCtl
  rw [if_neg hon]
  simp only [Word.bit, h2, h1, h0, if_neg hk, if_neg hrun, if_true, Bool.false_and, Bool.false_eq_true, if_false]

theorem addr_remap (n : Nat) : CORE_CTL_REMAP.addr n 0 0 = coreWord n 0 := addr_coreCtl n _ rfl

theorem startLp_remap (s : State) (n v : Nat) : (s.wr CORE_CTL_REMAP v n).startLp n = s.startLp n := by
  have ha : (s.wr CORE_CTL_REMAP v n).rd CORE_START_A n = s.rd CORE_START_A n := by
    refine rd_wr_ne _ _ _ _ _ _ _ _ _ _ ?_
    rw [addr_remap, coreWord]
    simp only [Field.addr, CORE_START_A]
    omega
  have hb : (s.wr CORE_CTL_REMAP v n).rd CORE_START_B n = s.rd CORE_START_B n := by
    refine rd_wr_ne _ _ _ _ _ _ _ _ _ _ ?_
    rw [addr_remap, coreWord]
    simp only [Field.addr, CORE_START_B]
    omega
  unfold State.startLp
  rw [ha, hb]
  rfl

/-- A core that may start is armed for its start LP, or its START is late (R119). -/
theorem startCore_arms (h : s.coreState n = cLoaded ∨ s.coreState n = cHalted) : let t := s.startCore n
    t = { s with cores := t.cores, regs := t.regs } ∧
      if s.startLp n < s.now then t.rd CORE_STAT_LATE n = 1 ∧ t.core n = s.core n
      else t.rd CORE_STAT_LATE n = 0 ∧ t.core n = { s.core n with armed := some (s.startLp n) } := by
  have hlate (v : Nat) : (s.wr CORE_STAT_LATE v n).rd CORE_STAT_LATE n = v % 2 := rd_wr s _ _ _ _ _ (by decide) (by decide)
  have hstart : s.startCore n = if s.startLp n < s.now then s.wr CORE_STAT_LATE 1 n
      else (s.wr CORE_STAT_LATE 0 n).setCore n { s.core n with armed := some (s.startLp n) } := by
    rw [State.startCore]
    exact if_pos h
  intro t
  simp only [t, hstart]
  split
  · exact ⟨rfl, hlate 1, rfl⟩
  · exact ⟨rfl, hlate 0, core_setCore _ _ _⟩

/-! ### `CORE_SMP_ACK` (R565) -/

theorem portWrite_smpAck (h : s.accepts m (coreWord n 0o1002) w) (hm : m / 8 = 76 ∨ m / 8 = 127) :
    s.portWrite m (coreWord n 0o1002) w = s.ackSamples n (w.bits 5 0) := by
  have hmaster : ¬(m / 8 ≠ 76 ∧ m / 8 ≠ extMaster) := by
    rintro ⟨h76, h127⟩
    exact hm.elim h76 h127
  rw [portWrite_core none h (by decide) (by decide), State.coreWrite]
  simp [hmaster]

end Sys2Proof.Machine
end

section
/-! PROOF. The reset of a core (R108, R119, R589), and the settlement of the writes of its registers. -/

namespace Sys2Proof.Machine

open Ev Reg

variable {s t u : State} {m n : Nat} {w : Word}

/-! ### What completions leave (R187, R203) -/

theorem imgLast_same (s : State) (opcode status kind : Nat) :
    s.imgLast opcode status kind = { s with regs := (s.imgLast opcode status kind).regs } := by
  unfold State.imgLast
  split
  · exact wr_frame (wr_frame (wr_frame rfl _ _ _ _ _) _ _ _ _ _) _ _ _ _ _
  · rfl

/-- A completion is a matter of the service link and of the registers (R121). -/
theorem complete_same (s : State) (tag st detail result : Nat) (data : List PWord) :
    let t := s.complete tag st detail result data
    t = { s with svc := t.svc, regs := t.regs } := by
  unfold State.complete State.completeP
  split
  · rfl
  split
  · rfl
  · rw [imgLast_same, queueCompletion_frame]
    rfl

theorem answerLoad_same (s : State) (l : ImgLoad) (st detail : Nat) :
    s.answerLoad l st detail = { s with svc := (s.answerLoad l st detail).svc, regs := (s.answerLoad l st detail).regs } := by
  unfold State.answerLoad
  split
  · exact complete_same s _ _ _ _ _
  · rfl
  · rfl

theorem answerLoads_same (ls : List ImgLoad) (st detail : Nat) (s : State) :
    let t := ls.foldl (fun s l => s.answerLoad l st detail) s
    t = { s with svc := t.svc, regs := t.regs } := by
  induction ls generalizing s with
  | nil => rfl
  | cons l ls ih =>
    intro t
    have hrest : t = { s.answerLoad l st detail with svc := t.svc, regs := t.regs } := ih _
    rw [hrest, answerLoad_same]

/-! ### The loader forgets a core (R589) -/

theorem openIntake_same (s : State) : let t := s.openIntake
    t = { s with img := t.img, regs := t.regs } ∧ t.img.load = s.img.load := by
  unfold State.openIntake
  dsimp only
  split
  · exact ⟨rfl, rfl⟩
  · exact ⟨rfl, rfl⟩

/-- Taking a core off the loads that wait, while none is in progress, touches the loader, the service link and registers. -/
theorem dropTarget_same (s : State) (n : Nat) (h : s.img.load = none) : let t := s.dropTarget n
    t = { s with img := t.img, svc := t.svc, regs := t.regs } ∧ t.img.load = none := by
  unfold State.dropTarget
  extract_lets hit trim s1 img1 s2 img2 t
  have h1 : s1 = { s with svc := s1.svc, regs := s1.regs } := answerLoads_same _ eAbort n s
  have hload : s2.img.load = none := by
    show s1.img.load = none
    rw [h1]
    exact h
  obtain ⟨hopen, hkept⟩ := openIntake_same s2
  have ht : t = s2.openIntake := by simp only [t, hload]
  rw [ht]
  refine ⟨?_, hkept.trans hload⟩
  rw [hopen]
  show { s1 with img := _, regs := _ } = _
  rw [h1]

/-! ### The beats of bursts that a reset cuts leave the loader (R108) -/

/-- What each step of a fold keeps, the fold keeps. -/
theorem foldl_keeps {β γ : Type} {step : State → β → State} {f : State → γ} (h : ∀ s x, f (step s x) = f s) (l : List β)
    (s : State) : f (l.foldl step s) = f s := by
  induction l generalizing s with
  | nil => rfl
  | cons x l ih => exact (ih _).trans (h s x)

theorem Noted.img (h : Noted s t) : t.img = s.img := by rw [h.same]

theorem latchWords_img (s : State) (m : Nat) (l : List (Nat × PWord)) : (s.latchWords m l).img = s.img := rfl

theorem cntLoad_img (s : State) (m a le : Nat) : (s.cntLoad m a le).2.img = s.img := by
  have hread := (cntRead_noted s a le).img
  unfold State.cntLoad
  dsimp only
  split
  · rw [latchWords_img, latchWords_img, hread]
  · split
    · rw [latchWords_img]
    · rw [latchWords_img, hread]

theorem latchFrom_img (s : State) (m a : Nat) (l : List Nat) : (s.latchFrom m a l).img = s.img := rfl

theorem latchShown_img (s : State) (m : Nat) (l : List Nat) : (s.latchShown m l).img = s.img := rfl

theorem tsqPop_img (s : State) : s.tsqPop.2.img = s.img := by
  unfold State.tsqPop
  split
  · rfl
  · split <;> rfl

theorem popBev_img (s : State) (k : Nat) : (s.popBev k).2.img = s.img := by
  unfold State.popBev
  dsimp only
  split
  · rfl
  · split <;> rfl

theorem laneRead_img (s : State) (a le : Nat) : (s.laneRead a le).2.img = s.img := (noteRead_noted s _ _ _ _).img

/-- Either branch of a read keeps the loader. -/
theorem img_ite {c : Prop} [Decidable c] {x y : PWord × State} (hx : x.2.img = s.img) (hy : y.2.img = s.img) :
    (if c then x else y).2.img = s.img := by
  split
  · exact hx
  · exact hy

theorem busRead_img (s : State) (m a le : Nat) : (s.busRead m a le).2.img = s.img := by
  unfold State.busRead
  extract_lets
  refine img_ite (cntLoad_img s m a le) (img_ite (laneRead_img s a le) (img_ite ?_ (img_ite ?_
    (img_ite (latchShown_img s _ _) (img_ite rfl (img_ite ?_ (img_ite ?_ (img_ite ?_ rfl))))))))
  · exact (latchFrom_img _ _ _ _).trans (latchFrom_img _ _ _ _)
  · exact (latchFrom_img _ _ _ _).trans (tsqPop_img s)
  · exact img_ite (latchShown_img s _ _) (img_ite rfl rfl)
  · refine img_ite ?_ (img_ite rfl (img_ite ?_ rfl))
    · exact (latchFrom_img _ _ _ _).trans (popBev_img s _)
    · exact wr_img s _ _ _ _ _
  · exact img_ite (latchShown_img s _ _) (img_ite rfl rfl)

theorem readLane_img (s : State) (p : Packet) (i : Nat) : (s.readLane p i).2.2.img = s.img := by
  unfold State.readLane
  dsimp only
  repeat' split
  · rfl
  · rfl
  · exact ((count_events s _ _ _).noted.trans (demand_noted _ _ _ _)).img
  · rfl
  · exact ((countUncorr_noted s _ _).trans (demand_noted _ _ _ _)).img

theorem discards_img (s : State) (n u : Nat) (p : Place) : (s.discards n u p).img = s.img := by
  cases p with
  | rom => rfl
  | mem g => exact (memRead_noted s g 15).img
  | reg g => exact busRead_img s _ g 15
  | win k w o =>
    unfold State.discards State.windowRead
    dsimp only
    split
    · split
      · rfl
      · exact readLane_img s _ o
    · rfl

theorem dummyBeat_img (s : State) (r : MtxReq) : (s.dummyBeat r).img = s.img := by
  unfold State.dummyBeat
  split
  · split
    · exact discards_img s _ _ _
    · rfl
  · rfl

theorem dummyRead_img (s : State) (n u a : Nat) : (s.dummyRead n u a).img = s.img := by
  unfold State.dummyRead
  split
  · rfl
  · split
    · rfl
    · exact discards_img s n u _

theorem dummyBeats_img (s : State) (n : Nat) (b : Burst) : (s.dummyBeats n b).img = s.img := by
  unfold State.dummyBeats
  split
  · rfl
  · exact foldl_keeps (fun s _ => dummyRead_img s _ _ _) _ _

theorem abortBurst_img (s : State) (n : Nat) (b : Burst) : (s.abortBurst n b).img = s.img := by
  unfold State.abortBurst
  dsimp only
  split
  · rfl
  · rw [occur_img]
    split <;> rw [wr_img, wr_img]

/-! ### The registers of a core that is reset -/

/-- The fields of `CORE_STAT` (spec/03). -/
def coreStatFields : List (Field × Nat) :=
  [(CORE_STAT_ENG_OUT, 0), (CORE_STAT_FAULT, 0), (CORE_STAT_KIND, 0), (CORE_STAT_LATE, 0), (CORE_STAT_STATE, 0)]

theorem fieldsAt_coreStat : ∀ n, n < 77 → fieldsAt (0o460000001 + 0o10000 * n) = (n, coreStatFields) := by
  decide +kernel

/-- `CORE_STAT` shows EMPTY at its reset value (R119). -/
theorem state_resetWord (hn : n < 77) : bitsOf (resetWord (coreStat n)).toNat 2 0 = 1 := by
  have hfields : fieldsAt (coreStat n) = (n, coreStatFields) := by rw [coreStat, addr_coreStat, fieldsAt_coreStat n hn]
  generalize coreStat n = a at hfields
  rw [resetWord, hfields]
  simp only [coreStatFields, resetOf]
  rw [toNat_word, bitsOf_setBits_below _ _ _ _ _ _ (by decide) (by decide) (by decide),
    bitsOf_setBits_below _ _ _ _ _ _ (by decide) (by decide) (by decide),
    bitsOf_setBits_below _ _ _ _ _ _ (by decide) (by decide) (by decide),
    bitsOf_setBits_below _ _ _ _ _ _ (by decide) (by decide) (by decide)]
  · exact bitsOf_setBits _ _ _ _ (by decide)
  · iterate 5 refine setBits_lt _ _ _ _ ?_ (by decide) (by decide)
    norm_num

/-- Fields of words set one after another make a word. -/
theorem foldl_setBits_lt (v : Field × Nat → Nat) (l : List (Field × Nat)) (hl : ∀ e ∈ l, e.1.lo ≤ e.1.hi ∧ e.1.hi < 36) (x : Nat)
    (hx : x < 2 ^ 36) : l.foldl (fun x e => setBits x e.1.hi e.1.lo (v e)) x < 2 ^ 36 := by
  induction l generalizing x with
  | nil => exact hx
  | cons e l ih =>
    obtain ⟨hlo, hhi⟩ := hl e List.mem_cons_self
    exact ih (fun e he => hl e (List.mem_cons_of_mem _ he)) _ (setBits_lt _ _ _ _ hx hlo hhi)

/-- The same of a word that loses its fields at a reset of the core (R15). -/
theorem state_retWord (hn : n < 77) (w : Word) : bitsOf (retWord [.c] (coreStat n) w).toNat 2 0 = 1 := by
  have hfields : fieldsAt (coreStat n) = (n, coreStatFields) := by rw [coreStat, addr_coreStat, fieldsAt_coreStat n hn]
  have hret : ∀ e ∈ coreStatFields, [Retention.c].contains e.1.ret = true := by decide
  have hbits : ∀ e ∈ coreStatFields, e.1.lo ≤ e.1.hi ∧ e.1.hi < 36 := by decide
  have hlast : coreStatFields = coreStatFields.dropLast ++ [(CORE_STAT_STATE, 0)] := rfl
  have hlt := foldl_setBits_lt (fun e => e.1.resetAt n e.2 (coreStat n)) _ hbits w.toNat w.isLt
  rw [retWord, hfields, List.foldl_ext _ _ _ fun x e he => if_pos (hret e he), toNat_word hlt, hlast, List.foldl_concat]
  exact bitsOf_setBits _ 2 0 1 (by decide)

/-- The table of registers after a reset of some of them: each word is at its reset value, or has lost its fields. -/
theorem sget_resetRegs {q : Word → Prop} {a : Nat} (rs : List Retention) (p : Nat → Bool) (hp : p a = true)
    (hret : ∀ w, q (retWord rs a w)) (l acc : List (Nat × Word)) (hacc : q (sget resetWord acc a)) :
    q (sget resetWord (l.foldl (fun acc e => sput resetWord acc e.1 (if p e.1 then retWord rs e.1 e.2 else e.2)) acc) a) := by
  induction l generalizing acc with
  | nil => exact hacc
  | cons e l ih =>
    refine ih _ ?_
    dsimp only
    by_cases ha : a = e.1
    · rw [← ha, if_pos hp, sget_sput]
      exact hret e.2
    · rw [sget_sput_ne _ _ ha]
      exact hacc

theorem state_resetRegs (s : State) (hn : n < 77) : (s.resetRegs [.c] (inCoreBlock n)).rd CORE_STAT_STATE n = 1 := by
  have hblock : inCoreBlock n (coreStat n) = true := by
    rw [coreStat, addr_coreStat]
    simp only [inCoreBlock, Bool.and_eq_true, decide_eq_true_eq]
    omega
  exact sget_resetRegs (q := fun w => bitsOf w.toNat 2 0 = 1) [.c] _ hblock (fun w => state_retWord hn w) s.regs []
    (state_resetWord hn)

/-! ### The reset (R108, R119) -/

/-- A core that is reset is as new, and its requests are gone; where none of its bursts is cut, the rest was as before. -/
theorem resetCore_eq (s : State) (n : Nat) (bursts : List Burst) (h : s.img.load = none) :
    ∃ u : State, ((s.mtx.filter fun r => r.core = n && r.stage = .granted) = [] → bursts = [] → u = s) ∧
      s.resetCore n bursts =
        State.resetRegs { u.setCore n {} with
          mtx := u.mtx.filter fun r => r.core ≠ n
          mons := u.mons.map fun (e : Nat × MonSt) => (e.1, e.2.coreReset n) } [.c] (inCoreBlock n) := by
  unfold State.resetCore
  extract_lets loading granted s1 s2 s3 s4 s5 s6 s7
  have himg : s3.img = s.img :=
    (foldl_keeps (fun s b => abortBurst_img s n b) _ _).trans
      ((foldl_keeps (fun s b => dummyBeats_img s n b) _ _).trans (foldl_keeps dummyBeat_img _ _))
  have hcut : s7.cutCopy n = s7 := by
    have hload : s7.img.load = none := (congrArg ImgSt.load himg).trans h
    rw [State.cutCopy, hload]
  refine ⟨s3, fun hgranted hbursts => ?_, ?_⟩
  · have hnone : granted = [] := by
      simp only [granted, State.grantedBursts, hgranted, List.map_nil]
    simp only [s3, s2, s1, hnone, hbursts, hgranted, List.append_nil, List.foldl_nil]
  · rw [hcut, ite_self]
    rfl

/-- A write of SRST alone by another master cuts the core, after its REMAP (R113, R119). -/
theorem wroteCoreCtl_srst {k j a : Nat} {bursts : Option (List Burst)} (hk : k ≠ n) (hon : s.coreState n ≠ cOff)
    (h2 : w.getLsbD 2 = false) (h1 : w.getLsbD 1 = false) (h0 : w.getLsbD 0 = true) :
    ∃ v : State, v = { s with regs := v.regs } ∧ s.wroteCoreCtl k j n a w bursts = v.cutCore n bursts := by
  unfold State.wroteCoreCtl
  rw [if_neg hon]
  simp only [Word.bit, h2, h1, h0, if_neg hk, if_true, Bool.false_and, Bool.false_eq_true, if_false]
  split
  · exact ⟨s, rfl, rfl⟩
  · exact ⟨_, wr_frame rfl _ _ _ _ _, rfl⟩

/-- What cutting a core leaves while no load is in progress (R108, R119). -/
theorem cutCore_reset (hn : n < 77) (h : s.img.load = none) (bursts : List Burst) : let t := s.cutCore n (some bursts)
    t.core n = {} ∧ t.rd CORE_STAT_STATE n = 1 ∧ (∀ r ∈ t.mtx, r.core ≠ n) ∧
      (s.bursting n = [] → (∀ r ∈ s.mtx, r.core = n → r.stage ≠ .granted) →
        (∀ k, k ≠ n → t.core k = s.core k) ∧ t.mem = s.mem) := by
  obtain ⟨hdrop, hload⟩ := dropTarget_same s n h
  obtain ⟨u, hsame, ht⟩ := resetCore_eq (s.dropTarget n) n (bursts.filter fun b => (s.bursting n).any fun o => o.unit = b.unit.val) hload
  intro t
  have ht' : t = _ := ht
  rw [ht']
  refine ⟨core_setCore u n {}, state_resetRegs _ hn, fun r hr => of_decide_eq_true (List.mem_filter.1 hr).2,
    fun hbursting hgranted => ?_⟩
  have hmtx : (s.dropTarget n).mtx = s.mtx := by rw [hdrop]
  have hu : u = s.dropTarget n := by
    refine hsame ?_ ?_
    · rw [hmtx, List.filter_eq_nil_iff]
      intro r hr hmine
      simp only [Bool.and_eq_true, decide_eq_true_eq] at hmine
      exact hgranted r hr hmine.1 hmine.2
    · simp [hbursting]
  have hcores : u.cores = s.cores := by rw [hu, hdrop]
  have hmem : u.mem = s.mem := by rw [hu, hdrop]
  refine ⟨fun k hk => (core_setCore_ne u {} hk).trans ?_, hmem⟩
  rw [State.core, State.core, hcores]

/-! ### The rows -/

/-- A row that is one write of `CORE_CTL`. -/
theorem exec_ctl {i : Instr} {f : Field} {bursts : Option (List Burst)} (hf : f.addr n 0 0 = CORE_CTL_REMAP.addr n 0 0)
    (hexec : exec i s = .next (s.portWrite m (f.addr n 0 0) w bursts)) (h : s.accepts m (f.addr n 0 0) w) :
    exec i s = .next (s.wroteCoreCtl (m / 8) (m % 8) n (coreView m (coreWord n 0)) w bursts) := by
  rw [addr_coreCtl n f hf] at hexec h
  rw [hexec, portWrite_ctl bursts h]

theorem exec_windowOpen {win : Fin 4} (h : s.accepts m (CORE_WIN_H_MODE.addr n win 0) w) (hmode : w.bits 35 34 ≠ 0) :
    exec (.windowOpen m n win w) s = .next ((s.stored (CORE_WIN_H_MODE.addr n win 0) w).wroteWindow n win) := by
  show execWindowOpen m n win w s = _
  rw [execWindowOpen, if_pos hmode, portWrite_window h]

theorem exec_windowClose {win : Fin 4} (h : s.accepts m (CORE_WIN_H_MODE.addr n win 0) w) (hmode : w.bits 35 34 = 0) :
    exec (.windowClose m n win w) s = .next ((s.stored (CORE_WIN_H_MODE.addr n win 0) w).wroteWindow n win) := by
  show execWindowClose m n win w s = _
  rw [execWindowClose, if_pos hmode, portWrite_window h]

theorem exec_coreRemapWrite (h : s.accepts m (CORE_CTL_REMAP.addr n 0 0) (w &&& 8)) (hon : s.coreState n ≠ cOff) :
    exec (.coreRemapWrite m n w) s = .next (
      if m / 8 = n then s.setCore n { s.core n with remapPend := some (w.getLsbD 3) }
      else if s.coreState n = cRunning then s
      else s.wr CORE_CTL_REMAP (b2n (w.getLsbD 3)) n) := by
  rw [exec_ctl (i := .coreRemapWrite m n w) rfl rfl h, wroteCoreCtl_remap hon]

theorem exec_coreHaltWrite (h : s.accepts m (CORE_CTL_HALT.addr n 0 0) w) (hk : m / 8 ≠ n) (hrun : s.coreState n = cRunning)
    (h2 : w.getLsbD 2 = true) (h1 : w.getLsbD 1 = false) (h0 : w.getLsbD 0 = false) :
    exec (.coreHaltWrite m n w) s = .next (s.haltCore n) := by
  have hexec : exec (.coreHaltWrite m n w) s = .next (s.portWrite m (CORE_CTL_HALT.addr n 0 0) w) := by
    show execCoreHaltWrite m n w s = _
    rw [execCoreHaltWrite, Word.bit, if_pos h2]
  rw [exec_ctl rfl hexec h, wroteCoreCtl_halt hk hrun h2 h1 h0]

theorem exec_coreStartWrite (h : s.accepts m (CORE_CTL_START.addr n 0 0) w) (hk : m / 8 ≠ n)
    (hstate : s.coreState n = cLoaded ∨ s.coreState n = cHalted) (h2 : w.getLsbD 2 = false) (h1 : w.getLsbD 1 = true)
    (h0 : w.getLsbD 0 = false) :
    exec (.coreStartWrite m n w) s = .next ((s.wr CORE_CTL_REMAP (b2n (w.getLsbD 3)) n).startCore n) := by
  have hexec : exec (.coreStartWrite m n w) s = .next (s.portWrite m (CORE_CTL_START.addr n 0 0) w) := by
    show execCoreStartWrite m n w s = _
    rw [execCoreStartWrite, Word.bit, if_pos h1]
  have hne : s.coreState n ≠ cOff ∧ s.coreState n ≠ cRunning := by
    rcases hstate with hstate | hstate <;> rw [hstate] <;> decide
  rw [exec_ctl rfl hexec h, wroteCoreCtl_start hk hne.1 hne.2 h2 h1 h0]

theorem exec_coreSrst {bursts : List Burst} (h : s.accepts m (CORE_CTL_SRST.addr n 0 0) w) (hk : m / 8 ≠ n)
    (hon : s.coreState n ≠ cOff) (h2 : w.getLsbD 2 = false) (h1 : w.getLsbD 1 = false) (h0 : w.getLsbD 0 = true) :
    ∃ v : State, v = { s with regs := v.regs } ∧ exec (.coreSrst m n w bursts) s = .next (v.cutCore n (some bursts)) := by
  have hexec : exec (.coreSrst m n w bursts) s = .next (s.portWrite m (CORE_CTL_SRST.addr n 0 0) w (some bursts)) := by
    show execCoreSrst m n w bursts s = _
    rw [execCoreSrst, Word.bit, if_pos h0]
  obtain ⟨v, hv, hcut⟩ := wroteCoreCtl_srst (k := m / 8) (j := m % 8) (a := coreView m (coreWord n 0)) (bursts := some bursts)
    hk hon h2 h1 h0
  exact ⟨v, hv, by rw [exec_ctl rfl hexec h, hcut]⟩

theorem exec_coreSmpAckWrite (h : s.accepts m (CORE_SMP_ACK_N.addr n 0 0) w) (hm : m / 8 = 76 ∨ m / 8 = 127) :
    exec (.coreSmpAckWrite m n w) s = .next (s.ackSamples n (w.bits 5 0)) := by
  have hexec : exec (.coreSmpAckWrite m n w) s = .next (s.portWrite m (CORE_SMP_ACK_N.addr n 0 0) w) := rfl
  have hword : CORE_SMP_ACK_N.addr n 0 0 = coreWord n 0o1002 := by
    simp only [Field.addr, CORE_SMP_ACK_N, coreWord]
  rw [hword] at h hexec
  rw [hexec, portWrite_smpAck h hm]

/-- Settles O24, word by word of the core's block. -/
theorem coreRegisterWritesComplete : Obligations.CoreRegisterWritesComplete := by
  refine ⟨?_, ?_, ?_, ?_, ?_, ?_, ?_⟩
  · intro s m n win w hn a h hmode hword
    have ht := (wroteWindow_written (s.stored a w) n win).of_stored w
    rw [show (s.stored a w).rd CORE_WIN_H_MODE n win = _ from hword, if_neg hmode] at ht
    exact ⟨_, exec_windowOpen h hmode, ht.pend ▸ List.mem_cons_self, ht.shut, ht.cores, ht.regs, ht.same⟩
  · intro s m n win w hn a h hmode hword
    have ht := (wroteWindow_written (s.stored a w) n win).of_stored w
    rw [show (s.stored a w).rd CORE_WIN_H_MODE n win = _ from hword, if_pos hmode] at ht
    exact ⟨_, exec_windowClose h hmode, ht.pend ▸ by simp, ht.shut, ht.cores, ht.regs, ht.same⟩
  · intro s m n w hn h hon
    rw [exec_coreRemapWrite h hon]
    exact ⟨fun hk => by rw [if_pos hk], fun hk hrun => by rw [if_neg hk, if_neg (show ¬s.coreState n = cRunning from hrun)],
      fun hk hrun => by rw [if_neg hk, if_pos (show s.coreState n = cRunning from hrun)]⟩
  · intro s m n w hn h hk hrun h2 h1 h0
    exact ⟨_, exec_coreHaltWrite h hk hrun h2 h1 h0, haltCore_halts hrun⟩
  · intro s m n w hn h hk hstate h2 h1 h0
    have hstate' : (s.wr CORE_CTL_REMAP (b2n (w.getLsbD 3)) n).coreState n = s.coreState n :=
      coreState_wr (addr_remap n) (by decide) (by decide) n
    obtain ⟨hsame, harm⟩ := startCore_arms (hstate'.symm ▸ hstate)
    rw [startLp_remap] at harm
    refine ⟨_, exec_coreStartWrite h hk hstate h2 h1 h0, ?_, harm⟩
    rw [hsame, wr_frame rfl CORE_CTL_REMAP]
  · intro s m n w bursts hn h hk hon h2 h1 h0 hload
    obtain ⟨v, hv, hexec⟩ := exec_coreSrst (bursts := bursts) h hk hon h2 h1 h0
    obtain ⟨hcore, hstate, hmtx, hrest⟩ := cutCore_reset (s := v) hn (by rw [hv]; exact hload) bursts
    refine ⟨_, hexec, hcore, hstate, hmtx, ?_⟩
    rw [hv] at hrest ⊢
    exact hrest
  · intro s m n w hn h hm
    exact exec_coreSmpAckWrite h hm

end Sys2Proof.Machine
end

section
/-! PROOF. The completions of the commands that load and store images (R117, R121, R187, R203). -/

namespace Sys2Proof.Machine

open Ev Reg

variable {s t u : State} {c : Cmd}

/-! ### Completions -/

/-- The slot of the command `c` holds it and has not completed. -/
def State.lives (s : State) (c : Cmd) : Prop := ∃ st held, st ≠ CmdStage.done ∧ s.cmdAt c.tag = some { c with stage := st, holds := held }

theorem State.running.lives (h : s.running c) : s.lives c := ⟨_, _, by decide, h⟩

theorem lives_of_cmdAt {tag : Nat} (h : s.cmdAt tag = some c) (htag : c.tag = tag) (hstage : c.stage ≠ .done) : s.lives c :=
  ⟨c.stage, c.holds, hstage, by rw [htag, h]⟩

/-- Whether a command lives is a matter of the slots. -/
theorem State.lives.congr (h : s.lives c) (e : t.svc = s.svc) : t.lives c := by
  obtain ⟨st, held, hst, hslot⟩ := h
  exact ⟨st, held, hst, by rw [State.cmdAt, e]; exact hslot⟩

/-- The completion of a command that lives: its slot and its path's queue, and `IMG_LAST` for one of an image (R121, R187). -/
theorem complete_of_lives (h : s.lives c) (st detail result : Nat) (data : List PWord) :
    s.complete c.tag st detail result data =
      ((s.setCmd c.tag (some { c with stage := .done, holds := false })).queueCompletion
        ⟨c.tag, c.pkt.boot, c.page, c.opcode, st, detail, ⟨word result, false⟩, data, c.auth, false⟩).imgLast
          c.opcode st (s.imageKind c.tag) := by
  obtain ⟨stage, held, hstage, hslot⟩ := h
  unfold State.complete State.completeP
  rw [hslot]
  simp only [if_neg hstage]
  rfl

theorem imgLast_svc (s : State) (opcode st kind : Nat) : (s.imgLast opcode st kind).svc = s.svc := by rw [imgLast_same]

/-- What a command leaves besides its completion is no matter of the service link. -/
theorem Answered.congr {st detail result : Nat} {data : List PWord} (h : Answered u t c st detail result data) {v : State}
    (e : v.svc = t.svc) : Answered u v c st detail result data := by
  obtain ⟨hslot, hothers, hsent⟩ := h
  refine ⟨?_, fun k hk => ?_, ?_⟩
  · rw [State.cmdAt, e]
    exact hslot
  · rw [State.cmdAt, e]
    exact hothers k hk
  · rw [e]
    exact hsent

theorem lives_answered (h : s.lives c) (st detail result : Nat) (data : List PWord) :
    Answered s (s.complete c.tag st detail result data) c st detail result data := by
  rw [complete_of_lives h]
  refine Answered.congr (t := (s.setCmd c.tag (some { c with stage := .done, holds := false })).queueCompletion
    ⟨c.tag, c.pkt.boot, c.page, c.opcode, st, detail, ⟨word result, false⟩, data, c.auth, false⟩) ?_ (imgLast_svc _ _ _ _)
  refine ⟨?_, fun k hk => ?_, ?_⟩
  · rw [cmdAt_queueCompletion, cmdAt_setCmd]
  · rw [cmdAt_queueCompletion, cmdAt_setCmd_ne _ _ hk]
  · simp only [queueCompletion_svc]
    split <;> rfl

/-! ### `IMG_LAST` (R121) -/

/-- The address of `IMG_LAST`. -/
def imgLastAddr : Nat := IMG_LAST_STATUS.addr 0 0 0

theorem imgLastAddr_eq : imgLastAddr = 0o450030001 := by decide

theorem reg_imgLast_ne (s : State) (opcode st kind : Nat) {a : Nat} (ha : a ≠ imgLastAddr) :
    (s.imgLast opcode st kind).reg a = s.reg a := by
  unfold State.imgLast
  split
  · exact (reg_setReg_ne _ _ ha).trans ((reg_setReg_ne _ _ ha).trans (reg_setReg_ne _ _ ha))
  · rfl

/-- A completion changes no register word but `IMG_LAST`. -/
theorem reg_complete_ne (s : State) (tag st detail result : Nat) (data : List PWord) {a : Nat} (ha : a ≠ imgLastAddr) :
    (s.complete tag st detail result data).reg a = s.reg a := by
  unfold State.complete State.completeP
  split
  · rfl
  split
  · rfl
  · rw [reg_imgLast_ne _ _ _ _ ha, queueCompletion_frame]
    rfl

theorem rd_complete_ne (s : State) (tag st detail result : Nat) (data : List PWord) {f : Field} {i j k : Nat}
    (hf : f.addr i j k ≠ imgLastAddr) : (s.complete tag st detail result data).rd f i j k = s.rd f i j k := by
  rw [State.rd, State.rd, reg_complete_ne _ _ _ _ _ _ hf]

/-- `IMG_LAST` shows the image command that completed last (R121). -/
theorem rd_imgLast (s : State) {opcode st : Nat} (kind : Nat) (hop : opcode = 0x0401 ∨ opcode = 0x0501) (hst : st < 512) :
    let t := s.imgLast opcode st kind
    t.rd IMG_LAST_STATUS = st ∧ t.rd IMG_LAST_OP = b2n (opcode = 0x0501) := by
  have hwr : s.imgLast opcode st kind =
      ((s.wr IMG_LAST_STATUS st).wr IMG_LAST_OP (b2n (opcode = 0x0501))).wr IMG_LAST_KIND kind := if_pos hop
  have hb : b2n (opcode = 0x0501) < 2 := by
    unfold b2n
    split <;> decide
  rw [hwr]
  refine ⟨?_, ?_⟩
  · rw [rd_wr_apart _ _ _ _ _ _ _ _ _ _ (by decide) (by decide) (by decide) (by decide),
      rd_wr_apart _ _ _ _ _ _ _ _ _ _ (by decide) (by decide) (by decide) (by decide),
      rd_wr _ _ _ _ _ _ (by decide) (by decide)]
    exact Nat.mod_eq_of_lt hst
  · rw [rd_wr_apart _ _ _ _ _ _ _ _ _ _ (by decide) (by decide) (by decide) (by decide),
      rd_wr _ _ _ _ _ _ (by decide) (by decide)]
    exact Nat.mod_eq_of_lt hb

theorem rd_complete (h : s.lives c) (hop : c.opcode = 0x0401 ∨ c.opcode = 0x0501) {st : Nat} (hst : st < 512)
    (detail result : Nat) (data : List PWord) :
    let t := s.complete c.tag st detail result data
    t.rd IMG_LAST_STATUS = st ∧ t.rd IMG_LAST_OP = b2n (c.opcode = 0x0501) := by
  rw [complete_of_lives h]
  exact rd_imgLast _ _ hop hst

/-! ### The judgement of an image (R117) -/

/-- Every status of the steps of R117 is one of R203. -/
theorem judgeImage_lt {m : Image} {ts : List Nat} {raise : Bool} {st d : Nat} (h : s.judgeImage m ts raise = some (st, d)) :
    st < 512 := by
  unfold State.judgeImage at h
  repeat' split at h
  all_goals cases h
  all_goals decide

theorem judgeSignature_lt {m : Image} {st d : Nat} (h : s.judgeSignature m = some (st, d)) : st < 512 := by
  unfold State.judgeSignature at h
  dsimp only at h
  repeat' split at h
  all_goals cases h
  all_goals decide

end Sys2Proof.Machine
end

section
/-! PROOF. What happens to windows, loads, starts, boots and stores of images by itself (R77, R83, R95, R117–R121, R206). -/

namespace Sys2Proof.Machine

open Ev Reg

variable {s t u : State} {n : Nat} {c : Cmd}

/-! ### Windows (R95) -/

theorem wr_frame_cores (h : t = { s with regs := t.regs, cores := t.cores }) (f : Field) (v i a b : Nat) :
    t.wr f v i a b = { s with regs := (t.wr f v i a b).regs, cores := (t.wr f v i a b).cores } := by
  have hwr : t.wr f v i a b = { t with regs := (t.wr f v i a b).regs, cores := (t.wr f v i a b).cores } := rfl
  rw [hwr, h]

/-- The core of a window whose open is decided has it no longer pending. -/
def State.settled (s : State) (n k : Nat) : State :=
  s.setCore n { s.core n with winPend := (s.core n).winPend.filter (· ≠ k) }

/-- A window opens on a packet that is held for its core, and is denied on anything else (R95). -/
theorem exec_windowOpenResolved {win : Fin 4} (hpend : win.val ∈ (s.core n).winPend) (hon : s.coreState n ≠ cOff) :
    (∀ i p, s.byHandle (s.rd CORE_WIN_H_HANDLE n win) = some (i, p) → p.held = n + 1 →
      exec (.windowOpenResolved n win) s = .next (((s.settled n win).wr CORE_WIN_H_OPEN 1 n win).wr CORE_WIN_L_LEN p.len n win)) ∧
    ((∀ i p, s.byHandle (s.rd CORE_WIN_H_HANDLE n win) = some (i, p) → p.held ≠ n + 1) →
      exec (.windowOpenResolved n win) s =
        .next ((((s.settled n win).wr CORE_WIN_H_MODE 0 n win).wr CORE_WIN_H_DENY 1 n win).count WIN_DENY n)) := by
  have hgo : ¬((!(s.core n).winPend.contains win.val || decide (s.coreState n = cOff)) = true) := by
    simp [hpend, hon]
  have hexec : exec (.windowOpenResolved n win) s = .next (
      match s.byHandle (s.rd CORE_WIN_H_HANDLE n win) with
      | some (_, p) =>
        if p.held = n + 1 then ((s.settled n win).wr CORE_WIN_H_OPEN 1 n win).wr CORE_WIN_L_LEN p.len n win
        else (((s.settled n win).wr CORE_WIN_H_MODE 0 n win).wr CORE_WIN_H_DENY 1 n win).count WIN_DENY n
      | none => (((s.settled n win).wr CORE_WIN_H_MODE 0 n win).wr CORE_WIN_H_DENY 1 n win).count WIN_DENY n) := by
    show execWindowOpenResolved n win s = _
    rw [execWindowOpenResolved, if_neg hgo]
    rfl
  rw [hexec]
  refine ⟨fun i p hp hheld => ?_, fun hno => ?_⟩
  · rw [hp]
    simp only [if_pos hheld]
  · split
    · next i p hp => rw [if_neg (hno i p hp)]
    · rfl

/-- What a window that opens shows (R95). -/
theorem window_opens (s : State) (n k len : Nat) (hlen : len < 2 ^ 14) :
    let t := ((s.settled n k).wr CORE_WIN_H_OPEN 1 n k).wr CORE_WIN_L_LEN len n k
    t.rd CORE_WIN_H_OPEN n k = 1 ∧ t.rd CORE_WIN_L_LEN n k = len ∧
      t.core n = { s.core n with winPend := (s.core n).winPend.filter (· ≠ k) } ∧
      t = { s with regs := t.regs, cores := t.cores } := by
  have hne : CORE_WIN_H_OPEN.addr n k 0 ≠ CORE_WIN_L_LEN.addr n k 0 := by
    simp only [Field.addr, CORE_WIN_H_OPEN, CORE_WIN_L_LEN]
    omega
  refine ⟨?_, ?_, ?_, wr_frame_cores (wr_frame_cores rfl _ _ _ _ _) _ _ _ _ _⟩
  · rw [rd_wr_ne _ _ _ _ _ _ _ _ _ _ hne, rd_wr _ _ _ _ _ _ (by decide) (by decide)]
    rfl
  · rw [rd_wr _ _ _ _ _ _ (by decide) (by decide)]
    exact Nat.mod_eq_of_lt hlen
  · rw [core_wr, core_wr, State.settled, core_setCore]

/-- What a window that is denied shows (R95). -/
theorem window_denied (s : State) {n : Nat} (k : Nat) (hn : n < 77) :
    let t := (((s.settled n k).wr CORE_WIN_H_MODE 0 n k).wr CORE_WIN_H_DENY 1 n k).count WIN_DENY n
    t.rd CORE_WIN_H_MODE n k = 0 ∧ t.rd CORE_WIN_H_DENY n k = 1 ∧ WIN_DENY.counted s t n 1 ∧
      t.core n = { s.core n with winPend := (s.core n).winPend.filter (· ≠ k) } := by
  have hbase : WIN_DENY.base = 69 := by decide +kernel
  have haval : EVT_AVALANCHE.base = 24590 := by decide +kernel
  have hcoal : EVT_COALESCED.base = 24592 := by decide +kernel
  have hcoalP0 : EVT_P0_COALESCED.base = 24593 := by decide +kernel
  have hoff : ¬ evPathCounter (WIN_DENY.base + n) := by
    rw [evPathCounter, hbase, haval, hcoal, hcoalP0]
    omega
  have hword : CORE_WIN_H_MODE.addr n k 0 ≠ alertAddr := by
    rw [addr_winH, alertAddr_eq, coreWord]
    omega
  intro t
  have ht := count_events (((s.settled n k).wr CORE_WIN_H_MODE 0 n k).wr CORE_WIN_H_DENY 1 n k) WIN_DENY n 1
  have hspares : Spares WIN_DENY.num (WIN_DENY.base + n) s
      (((s.settled n k).wr CORE_WIN_H_MODE 0 n k).wr CORE_WIN_H_DENY 1 n k) :=
    ((setCore_spares s n _).trans (wr_spares _ _ _ _ _ _)).trans (wr_spares _ _ _ _ _ _)
  refine ⟨?_, ?_, Code.counted_from_spares hspares (count_counted _ _ _ _ hoff), ?_⟩
  · rw [ht.rd _ _ _ _ hword, rd_wr_apart _ _ _ _ _ _ _ _ _ _ (by decide) (by decide) (by decide) (by decide),
      rd_wr _ _ _ _ _ _ (by decide) (by decide), Nat.zero_mod]
  · rw [ht.rd _ _ _ _ (by rw [addr_winDeny]; exact hword), rd_wr _ _ _ _ _ _ (by decide) (by decide)]
    rfl
  · rw [ht.core, core_wr, core_wr, State.settled, core_setCore]

/-! ### Starts (R77, R119) -/

/-- A core that starts is RUNNING (R119). -/
theorem exec_coreStartAtLp {k : Nat} (harmed : (s.core n).armed = some k) (hk : k ≤ s.now)
    (hstate : s.coreState n = cLoaded ∨ s.coreState n = cHalted) : exec (.coreStartAtLp n) s = .next (s.coreRuns n) := by
  show execCoreStartAtLp n s = _
  simp only [execCoreStartAtLp, harmed, if_pos (And.intro hk hstate)]

theorem sget_startRegs (n : Nat) {r : Nat} :
    sget (fun _ => PWord.zero) (startRegs n) r =
      if r = 1 then ⟨word n, false⟩ else if r = 23 then ⟨word (localSize n), false⟩ else PWord.zero := by
  unfold startRegs
  by_cases h23 : r = 23
  · subst h23
    rw [sget_sput]
    rfl
  · rw [sget_sput_ne _ _ h23, if_neg h23]
    by_cases h1 : r = 1
    · subst h1
      rw [sget_sput]
      rfl
    · rw [sget_sput_ne _ _ h1, if_neg h1]
      rfl

/-! ### Boot and verification (R117–R120) -/

theorem exec_scoreBoot (hup : s.up = true) (hboot : s.svc.booting = true) (htested : s.edw.tested = true)
    (hempty : s.coreState 76 = cEmpty) (herr : s.rdb EDW_STAT_ERROR = false)
    (hjudge : s.judgeImage (s.slotImage 1 3) [76] false = none) (hload : s.img.load = none) :
    exec .scoreBoot s = .next { s with
      svc := { s.svc with booting := false }
      img := { s.img with load := some ⟨s.slotImage 1 3, 1, [76], 0, false, .bootRom, none⟩ } } := by
  let u : State := { s with svc := { s.svc with booting := false } }
  have hstart : exec .scoreBoot s = .next (u.autoLoad [76] .bootRom) := by
    show execScoreBoot s = _
    simp [execScoreBoot, hup, hboot, htested, hempty, u]
  have hjudge' : u.judgeImage (u.slotImage 1 3) [76] false = none := hjudge
  have herr' : u.rdb EDW_STAT_ERROR = false := herr
  have hfrom : u.autoLoadFrom 1 [76] .bootRom = some (u.enterLoad ⟨u.slotImage 1 3, 1, [76], 0, false, .bootRom, none⟩) := by
    have hkind : coreKind ([76].headD 0) = 3 := by decide
    simp only [State.autoLoadFrom, hkind, hjudge']
    rfl
  have hload' : u.img.load.isNone = true := by
    show s.img.load.isNone = true
    rw [hload]
    rfl
  rw [hstart, State.autoLoad, herr', hfrom]
  simp only [Bool.false_eq_true, if_false, Option.getD_some, State.enterLoad, hload', if_true]
  rfl

/-- A load of a command whose image is in order goes on with its next target (R118). -/
theorem takeTarget_command {l : ImgLoad} {tag : Nat} (hby : l.by_ = .command tag) (hlost : l.lost = none) :
    s.takeTarget l =
      if l.targets.length ≤ l.loaded then s.endLoad l eOk 0
      else if s.loadable l.target then s.beginCopy l
      else s.refuseTarget l l.target := by
  simp [State.takeTarget, hby, hlost]

theorem target_mem {l : ImgLoad} (h : l.loaded < l.targets.length) : l.target ∈ l.targets := by
  unfold ImgLoad.target
  rw [List.getD_eq_getElem _ _ h]
  exact List.getElem_mem h

theorem endLoad_command {l : ImgLoad} {tag : Nat} (hby : l.by_ = .command tag) (st d : Nat) :
    s.endLoad l st d = (s.complete tag st d l.loaded).nextLoad := by
  simp only [State.endLoad, State.answerLoad, hby]

theorem exec_imageVerifyDone_begins {l : ImgLoad} {tag : Nat} (hl : s.img.load = some l) (hver : l.verified = false)
    (hup : s.up = true) (herr : s.rdb EDW_STAT_ERROR = false) (hsig : s.judgeSignature l.image = none)
    (hby : l.by_ = .command tag) (hlost : l.lost = none) (hlt : l.loaded < l.targets.length)
    (hts : ∀ n ∈ l.targets, s.loadable n = true) : exec .imageVerifyDone s = .next (s.beginCopy l) := by
  have hfind : (l.targets.find? fun n => !s.loadable n) = none := by
    rw [List.find?_eq_none]
    intro n hn
    simp [hts n hn]
  show execImageVerifyDone s = _
  simp only [execImageVerifyDone, hl, hver, hup, herr, hsig, hby, hfind, Bool.not_true, Bool.or_self, Bool.false_eq_true, if_false]
  rw [takeTarget_command hby hlost, if_neg (Nat.not_le.2 hlt), if_pos (hts _ (target_mem hlt))]

theorem exec_imageVerifyDone_rejects {l : ImgLoad} {tag st d : Nat} (hl : s.img.load = some l) (hver : l.verified = false)
    (hup : s.up = true) (herr : s.rdb EDW_STAT_ERROR = false) (hsig : s.judgeSignature l.image = some (st, d))
    (hby : l.by_ = .command tag) :
    exec .imageVerifyDone s = .next (((s.occur IMG_REJECT 0 [st]).complete tag st d l.loaded).nextLoad) := by
  show execImageVerifyDone s = _
  simp only [execImageVerifyDone, hl, hver, hup, herr, hsig, hby, Bool.not_true, Bool.or_self, Bool.false_eq_true, if_false,
    State.rejectLoad]
  rw [endLoad_command hby]

/-! ### The copy of an image (R118) -/

/-- The state with the loader at work on `l`. -/
def State.loads (s : State) (l : ImgLoad) : State := { s with img := { s.img with load := some l } }

/-- The load with one target more loaded. -/
def ImgLoad.advanced (l : ImgLoad) : ImgLoad := { l with loaded := l.loaded + 1 }

/-- The state with the image of `l` in its target, which is LOADED (R118 steps 2 to 5). -/
def State.copied (s : State) (l : ImgLoad) : State :=
  (((s.placeImage l.target l.image).wr CORE_STAT_FAULT 0 l.target).wr CORE_STAT_STATE cLoaded l.target).occur IMG_LOADED

theorem exec_imageCopyDone_command {l : ImgLoad} {tag : Nat} (hl : s.img.load = some l) (hver : l.verified = true)
    (hzero : l.target ∉ s.zeroing) (hstate : s.coreState l.target = cLoading) (hby : l.by_ = .command tag) :
    exec .imageCopyDone s = .next (((s.copied l).loads l.advanced).takeTarget l.advanced) := by
  have hgo : (!l.verified || s.zeroing.contains l.target || decide (s.coreState l.target ≠ cLoading)) = false := by
    simp [hver, hzero, hstate]
  have hboot : (s.rdb EDW_STAT_ERROR && decide (l.by_ = .bootRom)) = false := by simp [hby]
  show execImageCopyDone s = _
  simp only [execImageCopyDone, hl, hgo, hboot, Bool.false_eq_true, if_false]
  split
  · rfl
  · next h => simp [hby] at h
  · next h => simp [hby] at h

/-- After the last target the command completes with their number, and the loader goes on. -/
theorem takeTarget_last {l : ImgLoad} {tag : Nat} (hby : l.by_ = .command tag) (hlost : l.lost = none)
    (hlast : l.loaded + 1 = l.targets.length) :
    s.takeTarget l.advanced = (s.complete tag eOk 0 l.targets.length).nextLoad := by
  have hdone : l.advanced.targets.length ≤ l.advanced.loaded := hlast.ge
  rw [takeTarget_command (l := l.advanced) (tag := tag) hby hlost, if_pos hdone, endLoad_command (l := l.advanced) (tag := tag) hby,
    show l.advanced.loaded = l.targets.length from hlast]

theorem memWrites_same (f : Nat → Nat) (g : Nat → PWord) (l : List Nat) (s : State) :
    let t := l.foldl (fun (s : State) i => s.memWrite (f i) 15 (g i)) s
    t = { s with mem := t.mem } := by
  induction l generalizing s with
  | nil => rfl
  | cons i l ih =>
    intro t
    rw [show t = _ from ih (s.memWrite (f i) 15 (g i))]
    rfl

/-- What the image of a core changes: its memory, its registers and its record (R118). -/
theorem placeImage_same (s : State) (n : Nat) (m : Image) :
    let t := s.placeImage n m
    t = { s with mem := t.mem, regs := t.regs, cores := t.cores } := by
  unfold State.placeImage
  extract_lets s1 s2 s3 c t
  have hzero : s1 = { s with mem := s1.mem } := rfl
  have hbody : s2 = { s1 with mem := s2.mem } := memWrites_same _ _ _ s1
  have hregs : s3 = { s2 with regs := s3.regs } :=
    wr_frame (wr_frame (wr_frame (wr_frame rfl _ _ _ _ _) _ _ _ _ _) _ _ _ _ _) _ _ _ _ _
  have hcore : t = { s3 with cores := t.cores } := rfl
  rw [hcore, hregs, hbody, hzero]

/-- The entry of an image in its core's block (R118). -/
theorem entry_placeImage (s : State) (n : Nat) (m : Image) : (s.placeImage n m).rd CORE_ENTRY n = m.entry % 2 ^ 30 := by
  have hver : CORE_ENTRY.addr n 0 0 ≠ CORE_IMG_VER.addr n 0 0 := by
    simp only [Field.addr, CORE_ENTRY, CORE_IMG_VER]
    omega
  have hbase : CORE_ENTRY.addr n 0 0 ≠ CORE_IMG_BASE.addr n 0 0 := by
    simp only [Field.addr, CORE_ENTRY, CORE_IMG_BASE]
    omega
  have hlen : CORE_ENTRY.addr n 0 0 ≠ CORE_IMG_LEN.addr n 0 0 := by
    simp only [Field.addr, CORE_ENTRY, CORE_IMG_LEN]
    omega
  unfold State.placeImage
  dsimp only
  rw [rd_setCore, rd_wr_ne _ _ _ _ _ _ _ _ _ _ hlen, rd_wr_ne _ _ _ _ _ _ _ _ _ _ hbase, rd_wr_ne _ _ _ _ _ _ _ _ _ _ hver,
    rd_wr _ _ _ _ _ _ (by decide) (by decide)]
  rfl

/-- What the words of the core's block show once its image is copied (R118, R119). -/
theorem copied_shows (s : State) (l : ImgLoad) : let t := s.copied l
    t.rd CORE_STAT_STATE l.target = cLoaded ∧ t.rd CORE_STAT_FAULT l.target = 0 ∧
      t.rd CORE_ENTRY l.target = l.image.entry % 2 ^ 30 := by
  have hstat : CORE_STAT_STATE.addr l.target 0 0 ≠ alertAddr := alert_ne_stat l.target
  have hfault : CORE_STAT_FAULT.addr l.target 0 0 ≠ alertAddr := alert_ne_stat l.target
  have hentry : CORE_ENTRY.addr l.target 0 0 ≠ alertAddr := by
    simp only [alertAddr_eq, Field.addr, CORE_ENTRY]
    omega
  have hne : ∀ f : Field, f.addr l.target 0 0 = coreStat l.target → CORE_ENTRY.addr l.target 0 0 ≠ f.addr l.target 0 0 := by
    intro f hf
    rw [hf, coreStat, addr_coreStat]
    simp only [Field.addr, CORE_ENTRY]
    omega
  have hev := occur_events
    (((s.placeImage l.target l.image).wr CORE_STAT_FAULT 0 l.target).wr CORE_STAT_STATE cLoaded l.target) IMG_LOADED 0 []
  unfold State.copied
  refine ⟨?_, ?_, ?_⟩
  · rw [hev.rd _ _ _ _ hstat, rd_wr _ _ _ _ _ _ (by decide) (by decide)]
    rfl
  · rw [hev.rd _ _ _ _ hfault, rd_wr_apart _ _ _ _ _ _ _ _ _ _ (by decide) (by decide) (by decide) (by decide),
      rd_wr _ _ _ _ _ _ (by decide) (by decide), Nat.zero_mod]
  · rw [hev.rd _ _ _ _ hentry, rd_wr_ne _ _ _ _ _ _ _ _ _ _ (hne CORE_STAT_STATE rfl),
      rd_wr_ne _ _ _ _ _ _ _ _ _ _ (hne CORE_STAT_FAULT rfl), entry_placeImage]

/-- What the copy of an image leaves besides what it shows (R118). -/
theorem copied_same (s : State) (l : ImgLoad) :
    (s.copied l).mem = (s.placeImage l.target l.image).mem ∧ (s.copied l).svc = s.svc ∧ (s.copied l).img = s.img ∧
      IMG_LOADED.raised s (s.copied l) 0 [] := by
  have hplace := placeImage_same s l.target l.image
  have hev := occur_events
    (((s.placeImage l.target l.image).wr CORE_STAT_FAULT 0 l.target).wr CORE_STAT_STATE cLoaded l.target) IMG_LOADED 0 []
  have hraised := occur_raised
    (((s.placeImage l.target l.image).wr CORE_STAT_FAULT 0 l.target).wr CORE_STAT_STATE cLoaded l.target) IMG_LOADED 0 []
  have hsvc : (s.placeImage l.target l.image).svc = s.svc := by rw [hplace]
  have himg : (s.placeImage l.target l.image).img = s.img := by rw [hplace]
  have hnow : (s.placeImage l.target l.image).now = s.now := by rw [hplace]
  refine ⟨hev.mem.trans ?_, hev.svc.trans ?_, hev.img.trans ?_, Code.raised_of_now hraised ?_⟩
  · rw [wr_mem, wr_mem]
  · rw [wr_svc, wr_svc, hsvc]
  · rw [wr_img, wr_img, himg]
  · rw [wr_now, wr_now, hnow]

/-! ### Completions of loads and stores -/

theorem raised_of_evt {k : Code} {j : Nat} {args : List Int} (h : k.raised s t j args) (e : u.evt = t.evt) :
    k.raised s u j args := by
  unfold Code.raised at *
  rwa [e]

theorem complete_evt (s : State) (tag st d result : Nat) (data : List PWord) : (s.complete tag st d result data).evt = s.evt := by
  rw [complete_same]

theorem complete_img (s : State) (tag st d result : Nat) (data : List PWord) : (s.complete tag st d result data).img = s.img := by
  rw [complete_same]

/-- The next load begins, and the service link is as before (R117). -/
theorem nextLoad_svc (s : State) : s.nextLoad.svc = s.svc := rfl

theorem rd_nextLoad (s : State) (f : Field) (i : Nat) : s.nextLoad.rd f i = s.rd f i := rfl

theorem mem_nextLoad (s : State) : s.nextLoad.mem = s.mem := rfl

theorem evt_nextLoad (s : State) : s.nextLoad.evt = s.evt := rfl

theorem rd_loads (s : State) (l : ImgLoad) (f : Field) (i : Nat) : (s.loads l).rd f i = s.rd f i := rfl

theorem mem_loads (s : State) (l : ImgLoad) : (s.loads l).mem = s.mem := rfl

theorem evt_loads (s : State) (l : ImgLoad) : (s.loads l).evt = s.evt := rfl

theorem waiting_loads (s : State) (l : ImgLoad) : (s.loads l).img.waiting = s.img.waiting := rfl

theorem nextLoad_img (s : State) :
    s.nextLoad.img = { s.img with load := s.img.waiting.head?, waiting := s.img.waiting.tail } := rfl

/-- What a rejected load leaves (R117, R121). -/
theorem rejected_load {st d result : Nat} (h : s.lives c) (hop : c.opcode = 0x0401) (hst : st < 512) :
    let t := ((s.occur IMG_REJECT 0 [st]).complete c.tag st d result).nextLoad
    Answered s t c st d result [] ∧ IMG_REJECT.raised s t 0 [st] ∧ t.rd IMG_LAST_STATUS = st ∧
      t.img = { s.img with load := s.img.waiting.head?, waiting := s.img.waiting.tail } := by
  have hev := occur_events s IMG_REJECT 0 [st]
  have hlives : (s.occur IMG_REJECT 0 [st]).lives c := h.congr hev.svc
  refine ⟨((lives_answered hlives st d result []).of_svc hev.svc).congr (nextLoad_svc _), ?_, ?_, ?_⟩
  · exact raised_of_evt (occur_raised s IMG_REJECT 0 [st]) (complete_evt _ _ _ _ _ _)
  · exact (rd_complete hlives (.inl hop) hst d result []).1
  · rw [nextLoad_img, complete_img, hev.img]

/-- What a started core shows (R77, R119). -/
theorem coreRuns_loaded (hstate : s.rd CORE_STAT_STATE n = cLoaded) : let t := s.coreRuns n
    t.rd CORE_STAT_STATE n = cRunning ∧ t.rd CORE_CTL_REMAP n = 1 ∧
      t.core n = { s.core n with
        regs := startRegs n, nf := false, zf := false, cf := false, vf := false, fp := false
        pc := s.rd CORE_ENTRY n, startT := s.now, remapPend := none, wait := none, waitDesc := [], haltReq := false, armed := none
        smpCnt := 0 } ∧
      (∀ m, m ≠ n → t.core m = s.core m) ∧ t = { s with regs := t.regs, cores := t.cores } := by
  have hne : CORE_CTL_REMAP.addr n 0 0 ≠ CORE_STAT_STATE.addr n 0 0 := by
    rw [addr_remap, addr_coreStat, coreWord]
    omega
  unfold State.coreRuns
  dsimp only
  rw [if_pos hstate]
  refine ⟨?_, ?_, ?_, fun m hm => ?_, wr_frame_cores (wr_frame_cores rfl _ _ _ _ _) _ _ _ _ _⟩
  · rw [rd_wr _ _ _ _ _ _ (by decide) (by decide)]
    rfl
  · rw [rd_wr_ne _ _ _ _ _ _ _ _ _ _ hne, rd_wr _ _ _ _ _ _ (by decide) (by decide)]
    rfl
  · rw [core_wr, core_wr, core_setCore]
  · rw [core_wr, core_wr, core_setCore_ne _ _ hm]

theorem coreRuns_halted (hstate : s.rd CORE_STAT_STATE n ≠ cLoaded) : let t := s.coreRuns n
    t.rd CORE_STAT_STATE n = cRunning ∧
      t.core n = { s.core n with armed := none, wait := none, waitDesc := [], haltReq := false } ∧
      (∀ m, m ≠ n → t.core m = s.core m) ∧ t = { s with regs := t.regs, cores := t.cores } := by
  unfold State.coreRuns
  dsimp only
  rw [if_neg hstate]
  refine ⟨?_, ?_, fun m hm => ?_, wr_frame_cores rfl _ _ _ _ _⟩
  · rw [rd_wr _ _ _ _ _ _ (by decide) (by decide)]
    rfl
  · rw [core_wr, core_setCore]
  · rw [core_wr, core_setCore_ne _ _ hm]

theorem wr_frame_loads (h : t = { s with regs := t.regs, cores := t.cores, img := t.img }) (f : Field) (v i a b : Nat) :
    t.wr f v i a b =
      { s with regs := (t.wr f v i a b).regs, cores := (t.wr f v i a b).cores, img := (t.wr f v i a b).img } := by
  have hwr : t.wr f v i a b =
      { t with regs := (t.wr f v i a b).regs, cores := (t.wr f v i a b).cores, img := (t.wr f v i a b).img } := rfl
  rw [hwr, h]

/-- A target taken by the loader (R118 step 1). -/
theorem beginCopy_takes (s : State) (l : ImgLoad) : let t := s.beginCopy l
    t.rd CORE_STAT_STATE l.target = cLoading ∧ t.img = { s.img with load := some { l with verified := true } } ∧
      t.core l.target = { s.core l.target with armed := none } ∧
      t = { s with regs := t.regs, cores := t.cores, img := t.img } := by
  have hbegin : s.beginCopy l = ((s.loads { l with verified := true }).setCore l.target
    { s.core l.target with armed := none }).wr CORE_STAT_STATE cLoading l.target := rfl
  rw [hbegin]
  exact ⟨rd_wr _ _ _ _ _ _ (by decide) (by decide), wr_img _ _ _ _ _ _, by rw [core_wr, core_setCore],
    wr_frame_loads rfl _ _ _ _ _⟩

/-- The copy into the last target of a command completes it (R118, R205). -/
theorem copied_last {l : ImgLoad} (h : s.lives c) :
    let t := (((s.copied l).loads l.advanced).complete c.tag eOk 0 l.targets.length).nextLoad
    (∀ f : Field, f.addr l.target 0 0 ≠ imgLastAddr → t.rd f l.target = (s.copied l).rd f l.target) ∧
      t.mem = (s.placeImage l.target l.image).mem ∧ IMG_LOADED.raised s t 0 [] ∧
      Answered s t c eOk 0 l.targets.length [] ∧ t.img.load = s.img.waiting.head? ∧ t.img.waiting = s.img.waiting.tail := by
  obtain ⟨hmem, hsvc, himg, hraised⟩ := copied_same s l
  have hv : ((s.copied l).loads l.advanced).svc = s.svc := hsvc
  have hwaiting : ((s.copied l).loads l.advanced).img.waiting = s.img.waiting := by rw [waiting_loads, himg]
  generalize hvdef : (s.copied l).loads l.advanced = v at hv hwaiting ⊢
  have hrd (f : Field) : v.rd f l.target = (s.copied l).rd f l.target := by rw [← hvdef, rd_loads]
  have hvmem : v.mem = (s.copied l).mem := by rw [← hvdef, mem_loads]
  have hevt : v.evt = (s.copied l).evt := by rw [← hvdef, evt_loads]
  have hans := (lives_answered (h.congr hv) eOk 0 l.targets.length []).of_svc hv
  refine ⟨fun f hf => ?_, ?_, ?_, hans.congr (nextLoad_svc _), ?_, ?_⟩
  · rw [rd_nextLoad, rd_complete_ne _ _ _ _ _ _ hf, hrd]
  · rw [mem_nextLoad, complete_same, hvmem, hmem]
  · exact raised_of_evt hraised ((evt_nextLoad _).trans ((complete_evt v _ _ _ _ _).trans hevt))
  · rw [nextLoad_img, complete_img, hwaiting]
  · rw [nextLoad_img, complete_img, hwaiting]

/-- The stored image is the operator image of its kind, and with RAISE its version the minimum (R117, R206). -/
def State.keepsImage (s : State) (x : ImgStore) : State :=
  { s with img := { s.img with
      opr := sput (fun _ => none) s.img.opr x.kind (some x.image)
      minver := if x.raise then sput (fun _ => 0) s.img.minver x.kind (x.image.h 2).toNat else s.img.minver } }

/-- No image is being stored. -/
def State.storesNone (s : State) : State := { s with img := { s.img with store := none } }

theorem exec_imgStoreDone {x : ImgStore} (hx : s.img.store = some x) (hup : s.up = true) :
    exec .imgStoreDone s = .next (((s.keepsImage x).complete x.slot eOk 0 (x.image.h 2).toNat).storesNone) := by
  show execImgStoreDone s = _
  unfold execImgStoreDone
  split
  · next h =>
    rw [hx] at h
    cases h
  · next y h =>
    rw [hx] at h
    cases h
    rw [if_neg (by simp [hup])]
    rfl

/-- The images and the minimum versions after a store (R117, R206). -/
theorem keepsImage_img (s : State) (x : ImgStore) : let i := (s.keepsImage x).img
    sget (fun _ => none) i.opr x.kind = some x.image ∧
      (∀ k, k ≠ x.kind → sget (fun _ => none) i.opr k = sget (fun _ => none) s.img.opr k) ∧
      sget (fun _ => 0) i.minver x.kind = if x.raise then (x.image.h 2).toNat else sget (fun _ => 0) s.img.minver x.kind := by
  refine ⟨sget_sput s.img.opr x.kind (some x.image), fun k hk => sget_sput_ne s.img.opr (some x.image) hk, ?_⟩
  unfold State.keepsImage
  dsimp only
  split
  · exact sget_sput _ _ _
  · rfl

theorem storesNone_img (s : State) : s.storesNone.img = { s.img with store := none } := rfl

theorem storesNone_rd (s : State) (f : Field) : s.storesNone.rd f = s.rd f := rfl

/-- Settles O41, event by event. -/
theorem coreEventsComplete : Obligations.CoreEventsComplete := by
  refine ⟨?_, fun s inst => rfl, ?_, fun s => exec_scoreBoot, ?_, ?_, ?_⟩
  · intro s n win hpend hon
    obtain ⟨hopens, hdenied⟩ := exec_windowOpenResolved hpend hon
    exact ⟨fun i p hp hheld hlen => ⟨_, hopens i p hp hheld, window_opens s n win p.len hlen⟩,
      fun hno => ⟨_, hdenied hno, window_denied s win (coreState_on rfl hon).1⟩⟩
  · intro s n k harmed hk
    refine ⟨fun hstate => ?_, fun hstate => ?_⟩
    · obtain ⟨-, -, hrd⟩ := coreState_on hstate (by decide)
      obtain ⟨hrun, hremap, hcore, hothers, hsame⟩ := coreRuns_loaded hrd
      refine ⟨_, exec_coreStartAtLp harmed hk (.inl hstate), hrun, hremap, ?_⟩
      rw [hcore]
      refine ⟨rfl, rfl, rfl, fun r hr => ?_, rfl, rfl, rfl, rfl, rfl, hothers, hsame⟩
      unfold CoreSt.reg
      split
      · next h0 => simp [h0]
      · exact sget_startRegs n
    · obtain ⟨-, -, hrd⟩ := coreState_on hstate (by decide)
      exact ⟨_, exec_coreStartAtLp harmed hk (.inr hstate), coreRuns_halted (by rw [hrd]; decide)⟩
  · intro s l hl hver hup herr
    refine ⟨fun tag hsig hby hlost hlt hts => ?_, fun st d tag c hsig hby hslot htag hstage hop => ?_⟩
    · exact ⟨_, exec_imageVerifyDone_begins hl hver hup herr hsig hby hlost hlt hts, beginCopy_takes s l⟩
    · subst htag
      exact ⟨_, exec_imageVerifyDone_rejects hl hver hup herr hsig hby,
        rejected_load (lives_of_cmdAt hslot rfl hstage) hop (judgeSignature_lt hsig)⟩
  · intro s l tag n c hl hver hn hzero hstate hby hlost hlast hslot htag hstage
    subst hn htag
    obtain ⟨hrd, hrest⟩ := copied_last (l := l) (lives_of_cmdAt hslot rfl hstage)
    obtain ⟨hrun, hfault, hentry⟩ := copied_shows s l
    refine ⟨_, ?_, (hrd _ ?_).trans hrun, (hrd _ ?_).trans hfault, (hrd _ ?_).trans hentry, hrest⟩
    · rw [exec_imageCopyDone_command hl hver hzero hstate hby, takeTarget_last hby hlost hlast]
    all_goals
      rw [imgLastAddr_eq]
      simp only [Field.addr, CORE_STAT_STATE, CORE_STAT_FAULT, CORE_ENTRY]
      omega
  · intro s x c hx hup hslot htag hstage hop
    have hlives : (s.keepsImage x).lives c := (lives_of_cmdAt hslot htag hstage).congr rfl
    obtain ⟨hopr, hothers, hminver⟩ := keepsImage_img s x
    obtain ⟨hstatus, hlast⟩ := rd_complete hlives (.inr hop) (st := eOk) (by decide) 0 (x.image.h 2).toNat []
    have hexec := exec_imgStoreDone hx hup
    rw [← htag] at hexec
    have hans : Answered s _ c eOk 0 (x.image.h 2).toNat [] := (lives_answered hlives eOk 0 (x.image.h 2).toNat []).of_svc rfl
    refine ⟨_, hexec, hans.congr rfl, ?_⟩
    rw [storesNone_img, complete_img, storesNone_rd, storesNone_rd, hlast, hop]
    exact ⟨rfl, hopr, hothers, hminver, hstatus, rfl⟩

end Sys2Proof.Machine
end

section
/-! PROOF. The CORE and IMG commands (R112, R117, R119, R121, R205, R206). -/

namespace Sys2Proof.Machine

open Ev Reg

variable {s t u v : State} {p : HostPkt} {c : Cmd} {n : Nat}

/-! ### A rejected image (R117, R121) -/

/-- The completion of a command of an image that is not taken. -/
def State.rejectsImage (s : State) (c : Cmd) (st d k : Nat) : State :=
  ((s.occur IMG_REJECT 0 [st]).complete c.tag st d).wr IMG_LAST_KIND k

/-- The kind that `IMG_LAST` shows of a rejected image, of one without a whole header kind 0 (R121). -/
def Image.kindShown (m : Image) : Nat := if m.header.length = 48 then m.kind % 4 else 0

/-- What the rejection of an image shows (R117, R121). -/
theorem rejectsImage_shows (h : s.lives c) (hop : c.opcode = 0x0401 ∨ c.opcode = 0x0501) {st : Nat} (hst : st < 512) (d k : Nat) :
    let t := s.rejectsImage c st d k
    Answered s t c st d 0 [] ∧ IMG_REJECT.raised s t 0 [st] ∧ t.rd IMG_LAST_STATUS = st ∧
      t.rd IMG_LAST_OP = b2n (c.opcode = 0x0501) ∧ t.rd IMG_LAST_KIND = k % 4 ∧
      t = { s with svc := t.svc, regs := t.regs, cnt := t.cnt, tblRaw := t.tblRaw, evt := t.evt } := by
  have hev := occur_events s IMG_REJECT 0 [st]
  have hlives : (s.occur IMG_REJECT 0 [st]).lives c := h.congr hev.svc
  have hans := (lives_answered hlives st d 0 []).of_svc hev.svc
  obtain ⟨hstatus, hlast⟩ := rd_complete hlives hop hst d 0 []
  have hsame := complete_same (s.occur IMG_REJECT 0 [st]) c.tag st d 0 []
  have hraised := raised_of_evt (occur_raised s IMG_REJECT 0 [st]) (complete_evt _ c.tag st d 0 [])
  unfold State.rejectsImage
  generalize (s.occur IMG_REJECT 0 [st]).complete c.tag st d 0 [] = v at hans hstatus hlast hsame hraised ⊢
  refine ⟨hans.congr (wr_svc _ _ _ _ _ _), raised_of_evt hraised (wr_evt _ _ _ _ _ _), ?_, ?_,
    rd_wr _ _ _ _ _ _ (by decide) (by decide), ?_⟩
  · rw [rd_wr_apart _ _ _ _ _ _ _ _ _ _ (by decide) (by decide) (by decide) (by decide), hstatus]
  · rw [rd_wr_apart _ _ _ _ _ _ _ _ _ _ (by decide) (by decide) (by decide) (by decide), hlast]
  · have hwr : v.wr IMG_LAST_KIND k = { v with regs := (v.wr IMG_LAST_KIND k).regs } := rfl
    rw [hwr, hsame, hev.1]

/-! ### Images in the staging region -/

theorem readWords_noted (s : State) (a k : Nat) : Noted s (s.readWords a k).2 := by
  unfold State.readWords
  dsimp only
  exact List.foldlRecOn (motive := fun x : List PWord × State => Noted s x.2) _ _ (Noted.refl s) fun _ h _ _ => h.trans (memRead_noted _ _ _)

theorem stagedImage_noted (s : State) (a : Nat) : Noted s (s.stagedImage a).2 := by
  unfold State.stagedImage
  dsimp only
  split
  · exact (readWords_noted _ _ _).trans (readWords_noted _ _ _)
  · exact readWords_noted _ _ _

theorem Noted.svc (h : Noted s t) : t.svc = s.svc := by rw [h.same]

/-! ### The cores of a command (R205) -/

theorem coreRange_sorted (w : Word) : (coreRange w).Pairwise (· < ·) := List.pairwise_lt_range.filter _

theorem coreRange_nodup (w : Word) : (coreRange w).Nodup := (coreRange_sorted w).imp fun h => h.ne

/-- The search of a sorted list ends at the least number it looks for. -/
theorem find?_least {l : List Nat} {q : Nat → Bool} (hl : l.Pairwise (· < ·)) (hn : n ∈ l) (hq : q n = true)
    (hbefore : ∀ k ∈ l, k < n → q k = false) : l.find? q = some n := by
  obtain ⟨a, b, rfl⟩ := List.append_of_mem hn
  obtain ⟨-, -, hlt⟩ := List.pairwise_append.1 hl
  refine List.find?_eq_some_iff_append.2 ⟨hq, a, b, rfl, fun k hk => ?_⟩
  rw [hbefore k (by simp [hk]) (hlt k hk n (by simp))]
  rfl

/-! ### `CORE.LOAD` (R117, R205) -/

/-- What the intake of `CORE.LOAD` asks: no reserved bit, a source, an address of the staging region for source 2, and a
range of cores. -/
structure Cmd.loadsImage (c : Cmd) : Prop where
  clean : c.clean [mask 2 0, if (c.w 0).bits 2 0 = 2 then mask 29 0 else 0, coreRangeMask]
  source : (c.w 0).bits 2 0 < 3
  staged : (c.w 0).bits 2 0 = 2 → stageLo ≤ (c.w 1).toNat ∧ (c.w 1).toNat < stageHi
  range : coreRangeOk (c.w 2) = true

/-- The image that `CORE.LOAD` names, and the state after it is read (R112, R117). -/
def State.namedImage (s : State) (c : Cmd) : Image × State :=
  if (c.w 0).bits 2 0 = 2 then s.stagedImage (c.w 1).toNat
  else (s.slotImage ((c.w 0).bits 2 0) (coreKind ((coreRange (c.w 2)).headD 0)), s)

/-- A command of an image goes through its steps: the error state, its targets, the image (R117, R447). -/
theorem cmdCoreLoad_steps (h : c.loadsImage) :
    u.cmdCoreLoad c =
      match u.rdb EDW_STAT_ERROR, (coreRange (c.w 2)).find? fun n => !u.loadable n with
      | true, _ => u.rejectsImage c eState 0 0
      | false, some n => u.rejectsImage c eState n 0
      | false, none =>
        match (u.namedImage c).2.judgeImage (u.namedImage c).1 (coreRange (c.w 2)) false with
        | some (st, d) => (u.namedImage c).2.rejectsImage c st d (u.namedImage c).1.kindShown
        | none => (u.namedImage c).2.enterLoad
            ⟨(u.namedImage c).1, (c.w 0).bits 2 0, coreRange (c.w 2), 0, false, .command c.tag, none⟩ := by
  obtain ⟨hclean, hsource, hstaged, hrange⟩ := h
  have hbounds : ¬(((c.w 0).bits 2 0 = 2 ∧ ((c.w 1).toNat < stageLo ∨ stageHi ≤ (c.w 1).toNat)) ∨
      (!coreRangeOk (c.w 2)) = true) := by
    rintro (⟨h2, hout⟩ | hno)
    · have := hstaged h2
      omega
    · rw [hrange] at hno
      cases hno
  rw [State.cmdCoreLoad, unreserved_of_clean hclean]
  dsimp only
  rw [if_neg (by omega), if_neg hbounds]
  rfl

theorem cmdCoreLoad_error (h : c.loadsImage) (herr : u.rdb EDW_STAT_ERROR = true) :
    u.cmdCoreLoad c = u.rejectsImage c eState 0 0 := by
  rw [cmdCoreLoad_steps h, herr]

/-- The least target that may not be loaded is the one reported (R205). -/
theorem cmdCoreLoad_busy (h : c.loadsImage) (herr : u.rdb EDW_STAT_ERROR = false) (hn : n ∈ coreRange (c.w 2))
    (hbad : u.loadable n = false) (hbefore : ∀ k ∈ coreRange (c.w 2), k < n → u.loadable k = true) :
    u.cmdCoreLoad c = u.rejectsImage c eState n 0 := by
  have hfind : ((coreRange (c.w 2)).find? fun n => !u.loadable n) = some n :=
    find?_least (coreRange_sorted _) hn (by rw [hbad]; rfl) (fun k hk hlt => by rw [hbefore k hk hlt]; rfl)
  rw [cmdCoreLoad_steps h, herr, hfind]

/-- With all its targets loadable, the image is judged (R117). -/
theorem cmdCoreLoad_judges {m : Image} (h : c.loadsImage) (herr : u.rdb EDW_STAT_ERROR = false)
    (hloadable : ∀ n ∈ coreRange (c.w 2), u.loadable n = true) (hm : u.namedImage c = (m, v)) :
    (v.judgeImage m (coreRange (c.w 2)) false = none →
      u.cmdCoreLoad c = v.enterLoad ⟨m, (c.w 0).bits 2 0, coreRange (c.w 2), 0, false, .command c.tag, none⟩) ∧
    (∀ st d, v.judgeImage m (coreRange (c.w 2)) false = some (st, d) →
      u.cmdCoreLoad c = v.rejectsImage c st d m.kindShown) := by
  have hfind : ((coreRange (c.w 2)).find? fun n => !u.loadable n) = none :=
    List.find?_eq_none.2 fun n hn => by simp [hloadable n hn]
  rw [cmdCoreLoad_steps h, herr, hfind, hm]
  refine ⟨fun hjudge => ?_, fun st d hjudge => ?_⟩
  · dsimp only
    rw [hjudge]
  · dsimp only
    rw [hjudge]

theorem exec_coreLoad (h : Starts s 0x0401 p c u) : exec (.coreLoad p) s = .next (u.cmdCoreLoad c) := by
  show Host.Outcome.next (s.intakeWith (State.perform none) 0x0401 p) = _
  simp only [h.intakeWith, State.perform, h.opcode]

/-! ### `IMG.STORE` (R206) -/

/-- What the intake of `IMG.STORE` asks: no reserved bit, and an address of the staging region. -/
structure Cmd.storesImage (c : Cmd) : Prop where
  clean : c.clean [mask 29 0, 1]
  lo : stageLo ≤ (c.w 0).toNat
  hi : (c.w 0).toNat < stageHi

/-- `IMG.STORE` goes through its steps: another store, the error state, the image, its signature (R117, R206, R447). -/
theorem cmdImgStore_steps {m : Image} (h : c.storesImage) (hm : u.stagedImage (c.w 0).toNat = (m, v)) :
    u.cmdImgStore c =
      if u.img.store.isSome then u.complete c.tag eBusy
      else if u.rdb EDW_STAT_ERROR then u.rejectsImage c eState 0 m.kindShown
      else match v.judgeImage m [] ((c.w 1).bit 0) with
        | some (st, d) => v.rejectsImage c st d m.kindShown
        | none => match v.judgeSignature m with
          | some (st, d) => v.rejectsImage c st d m.kindShown
          | none => { v with img := { v.img with
              store := some ⟨m.kindShown, m, (c.w 1).bit 0, c.tag⟩ } } := by
  obtain ⟨hclean, hlo, hhi⟩ := h
  rw [State.cmdImgStore, unreserved_of_clean hclean]
  dsimp only
  rw [if_neg (by omega), hm]
  rfl

/-- While another store is written, the command is refused (R206). -/
theorem cmdImgStore_busy (h : c.storesImage) (hbusy : u.img.store ≠ none) : u.cmdImgStore c = u.complete c.tag eBusy := by
  rw [cmdImgStore_steps h Prod.mk.eta.symm, if_pos (Option.isSome_iff_ne_none.2 hbusy)]

theorem cmdImgStore_error (h : c.storesImage) (hfree : u.img.store = none) (herr : u.rdb EDW_STAT_ERROR = true) :
    u.cmdImgStore c = u.rejectsImage c eState 0 (u.stagedImage (c.w 0).toNat).1.kindShown := by
  rw [cmdImgStore_steps h Prod.mk.eta.symm, if_neg (by rw [hfree]; decide), if_pos herr]

/-- An image that passes is being written from then on (R206). -/
theorem cmdImgStore_writes {m : Image} (h : c.storesImage) (hfree : u.img.store = none) (herr : u.rdb EDW_STAT_ERROR = false)
    (hm : u.stagedImage (c.w 0).toNat = (m, v)) (hlen : m.header.length = 48)
    (hjudge : v.judgeImage m [] ((c.w 1).bit 0) = none) (hsig : v.judgeSignature m = none) :
    u.cmdImgStore c = { v with img := { v.img with store := some ⟨m.kind % 4, m, (c.w 1).bit 0, c.tag⟩ } } := by
  rw [cmdImgStore_steps h hm, if_neg (by rw [hfree]; decide), if_neg (by rw [herr]; decide), hjudge, hsig]
  dsimp only
  rw [Image.kindShown, if_pos hlen]

/-- An image that fails a step of R117 is rejected with the status of the step. -/
theorem cmdImgStore_rejects {m : Image} {st d : Nat} (h : c.storesImage) (hfree : u.img.store = none)
    (herr : u.rdb EDW_STAT_ERROR = false) (hm : u.stagedImage (c.w 0).toNat = (m, v))
    (hfail : v.judgeImage m [] ((c.w 1).bit 0) = some (st, d) ∨
      v.judgeImage m [] ((c.w 1).bit 0) = none ∧ v.judgeSignature m = some (st, d)) :
    u.cmdImgStore c = v.rejectsImage c st d m.kindShown := by
  rw [cmdImgStore_steps h hm, if_neg (by rw [hfree]; decide), if_neg (by rw [herr]; decide)]
  rcases hfail with hjudge | ⟨hjudge, hsig⟩
  · rw [hjudge]
  · rw [hjudge, hsig]

theorem exec_imgStore (h : Starts s 0x0501 p c u) : exec (.imgStore p) s = .next (u.cmdImgStore c) := by
  show Host.Outcome.next (s.intakeWith (State.perform none) 0x0501 p) = _
  simp only [h.intakeWith, State.perform, h.opcode]

/-! ### What one core keeps while others are started or halted -/

/-- Core `n`, its registers' block and the state of the domains are as before. -/
structure CoreKept (n : Nat) (s t : State) : Prop where
  core : t.core n = s.core n
  block : ∀ o, o < 0o10000 → t.reg (coreWord n o) = s.reg (coreWord n o)
  doms : ∀ d, d < 80 → t.domOn d = s.domOn d
  now : t.now = s.now

theorem CoreKept.refl (n : Nat) (s : State) : CoreKept n s s := ⟨rfl, fun _ _ => rfl, fun _ _ => rfl, rfl⟩

theorem CoreKept.trans (h : CoreKept n s t) (h' : CoreKept n t u) : CoreKept n s u :=
  ⟨h'.core.trans h.core, fun o ho => (h'.block o ho).trans (h.block o ho), fun d hd => (h'.doms d hd).trans (h.doms d hd),
    h'.now.trans h.now⟩

theorem CoreKept.rd (h : CoreKept n s t) {f : Field} {o : Nat} (hf : f.addr n 0 0 = coreWord n o) (ho : o < 0o10000) :
    t.rd f n = s.rd f n := by
  rw [State.rd, State.rd, hf, h.block o ho]

theorem addr_coreStat_word (n : Nat) : CORE_STAT_STATE.addr n 0 0 = coreWord n 1 := by
  rw [addr_coreStat, coreWord]
  omega

theorem CoreKept.coreState (h : CoreKept n s t) : t.coreState n = s.coreState n :=
  if_congr (by rw [h.doms _ (coreDomain_lt n)]) (h.rd (addr_coreStat_word n) (by decide)) rfl

theorem setCore_keeps {k : Nat} (hk : n ≠ k) (s : State) (x : CoreSt) : CoreKept n s (s.setCore k x) :=
  ⟨core_setCore_ne _ _ hk, fun _ _ => rfl, fun _ _ => rfl, rfl⟩

/-- A write into the block of another core. -/
theorem wr_keeps {k o : Nat} {f : Field} (hk : n ≠ k) (hf : f.addr k 0 0 = coreWord k o) (ho : o < 0o10000) (s : State) (x : Nat) :
    CoreKept n s (s.wr f x k) := by
  refine ⟨rfl, fun o' ho' => reg_setReg_ne _ _ ?_, fun d hd => ?_, rfl⟩
  · rw [hf, coreWord, coreWord]
    omega
  · rw [State.domOn, State.domOn, rd_wr_ne]
    rw [addr_domState, hf, coreWord]
    omega

/-- A step for each core of a list leaves a core outside the list as it was. -/
theorem foldl_coreKept {step : State → Nat → State} (hstep : ∀ s k, n ≠ k → CoreKept n s (step s k)) {l : List Nat} (hn : n ∉ l)
    (s : State) : CoreKept n s (l.foldl step s) :=
  List.foldlRecOn l step (CoreKept.refl n s) fun t h k hk => h.trans (hstep t k fun e => hn (e ▸ hk))

/-- Of a step for each core of a list, one core of the list sees its own alone. -/
theorem foldl_ownStep {step : State → Nat → State} (hstep : ∀ s k, n ≠ k → CoreKept n s (step s k)) {l : List Nat}
    (hl : l.Nodup) (hn : n ∈ l) (s : State) : ∃ v, CoreKept n s v ∧ CoreKept n (step v n) (l.foldl step s) := by
  obtain ⟨a, b, rfl⟩ := List.append_of_mem hn
  obtain ⟨ha, hb⟩ : n ∉ a ∧ n ∉ b := by
    obtain ⟨-, hb, hab⟩ := List.nodup_append.1 hl
    exact ⟨fun h => hab n h n (by simp) rfl, (List.nodup_cons.1 hb).1⟩
  refine ⟨a.foldl step s, foldl_coreKept hstep ha s, ?_⟩
  rw [List.foldl_append, List.foldl_cons]
  exact foldl_coreKept hstep hb _

/-- A step for each core of a list that changes register words and cores alone. -/
theorem foldl_frame_cores {step : State → Nat → State}
    (hstep : ∀ s k, step s k = { s with regs := (step s k).regs, cores := (step s k).cores }) (l : List Nat) (s : State) :
    l.foldl step s = { s with regs := (l.foldl step s).regs, cores := (l.foldl step s).cores } := by
  induction l generalizing s with
  | nil => rfl
  | cons k l ih =>
    rw [List.foldl_cons, ih (step s k), hstep s k]

/-! ### `CORE.START` (R119, R205) -/

theorem addr_startA (n : Nat) : CORE_START_A.addr n 0 0 = coreWord n 0o10 := by
  simp only [Field.addr, CORE_START_A, coreWord]

theorem addr_startB (n : Nat) : CORE_START_B.addr n 0 0 = coreWord n 0o11 := by
  simp only [Field.addr, CORE_START_B, coreWord]

/-- A core is given the start LP `lp`, whose word A is `a`, and started. -/
def State.startAt (s : State) (a lp n : Nat) : State := ((s.wr CORE_START_A a n).wr CORE_START_B (lpB lp) n).startCore n

theorem startCore_keeps {k : Nat} (hk : n ≠ k) (s : State) : CoreKept n s (s.startCore k) := by
  unfold State.startCore
  dsimp only
  split
  · split
    · exact wr_keeps (o := 1) (f := CORE_STAT_LATE) hk (addr_coreStat_word k) (by decide) _ _
    · exact (wr_keeps (o := 1) (f := CORE_STAT_LATE) hk (addr_coreStat_word k) (by decide) _ _).trans (setCore_keeps hk _ _)
  · exact CoreKept.refl n s

theorem startAt_keeps {k : Nat} (a lp : Nat) (hk : n ≠ k) (s : State) : CoreKept n s (s.startAt a lp k) :=
  ((wr_keeps hk (addr_startA k) (by decide) s a).trans (wr_keeps hk (addr_startB k) (by decide) _ _)).trans (startCore_keeps hk _)

theorem startCore_frame (h : t = { s with regs := t.regs }) (n : Nat) :
    t.startCore n = { s with regs := (t.startCore n).regs, cores := (t.startCore n).cores } := by
  unfold State.startCore
  dsimp only
  split
  · split
    · exact wr_frame_cores (by rw [h]) _ _ _ _ _
    · exact setCore_frame (wr_frame h _ _ _ _ _) _ _
  · rw [h]

theorem startAt_frame (s : State) (a lp n : Nat) :
    s.startAt a lp n = { s with regs := (s.startAt a lp n).regs, cores := (s.startAt a lp n).cores } :=
  startCore_frame (wr_frame (wr_frame rfl _ _ _ _ _) _ _ _ _ _) n

/-- START changes no register word of its core but `CORE_STAT`. -/
theorem reg_startCore_ne {b : Nat} (hb : b ≠ CORE_STAT_STATE.addr n 0 0) (s : State) : (s.startCore n).reg b = s.reg b := by
  unfold State.startCore
  dsimp only
  split
  · split
    · exact reg_setReg_ne _ _ hb
    · exact reg_setReg_ne _ _ hb
  · rfl

/-- Words A and B of an LP give it back, B without what it does not hold (R9, R10). -/
theorem lpTicks_lpB {a b : Nat} (ha : a < 2 ^ 36) (hb : lpOk b = true) : lpTicks a (lpB (lpTicks a b)) = lpTicks a b := by
  have hfine : bitsOf b 22 4 < 500000 := of_decide_eq_true hb
  have hframe : bitsOf b 35 23 < 8192 := bitsOf_lt _ _ _
  have hticks : lpTicks a b = a * 4096000000 + bitsOf b 35 23 * 500000 + bitsOf b 22 4 := rfl
  have hA : lpA (lpTicks a b) = a := by
    rw [lpA, hticks, ticksSf]
    omega
  have hlt : lpTicks a b < 2 ^ 36 * ticksSf := by
    rw [hticks, ticksSf]
    omega
  have hwords := lpTicks_words hlt
  rwa [hA] at hwords

theorem lpB_lt (lp : Nat) : lpB lp < 2 ^ 36 := by
  rw [lpB_eq]
  omega

/-- Word A of the start LP stays as written when word B follows (R119). -/
theorem startA_written {a : Nat} (ha : a < 2 ^ 36) (s : State) (b n : Nat) :
    ((s.wr CORE_START_A a n).wr CORE_START_B b n).rd CORE_START_A n = a := by
  have hne : CORE_START_A.addr n 0 0 ≠ CORE_START_B.addr n 0 0 := by
    rw [addr_startA, addr_startB, coreWord, coreWord]
    omega
  rw [rd_wr_ne _ _ _ _ _ _ _ _ _ _ hne, rd_wr _ _ _ _ _ _ (by decide) (by decide)]
  exact Nat.mod_eq_of_lt ha

/-- The start LP of a core to which it has been written (R119). -/
theorem startLp_written {a b : Nat} (ha : a < 2 ^ 36) (hb : lpOk b = true) (s : State) (n : Nat) :
    ((s.wr CORE_START_A a n).wr CORE_START_B (lpB (lpTicks a b)) n).startLp n =
      if lpTicks a b = 0 then s.now else lpTicks a b := by
  have hB : ((s.wr CORE_START_A a n).wr CORE_START_B (lpB (lpTicks a b)) n).rd CORE_START_B n = lpB (lpTicks a b) := by
    rw [rd_wr _ _ _ _ _ _ (by decide) (by decide)]
    exact Nat.mod_eq_of_lt (lpB_lt _)
  rw [State.startLp, startA_written ha, hB, lpTicks_lpB ha hb, wr_now, wr_now]

/-- A core started by command is armed for the LP it is given (R119). -/
theorem startAt_arms {a b : Nat} (ha : a < 2 ^ 36) (hb : lpOk b = true) (hlp : lpTicks a b = 0 ∨ s.now ≤ lpTicks a b)
    (hstate : s.coreState n = cLoaded ∨ s.coreState n = cHalted) : let t := s.startAt a (lpTicks a b) n
    t.rd CORE_START_A n = a ∧ t.rd CORE_STAT_LATE n = 0 ∧
      t.core n = { s.core n with armed := some (if lpTicks a b = 0 then s.now else lpTicks a b) } := by
  have hstat : ((s.wr CORE_START_A a n).wr CORE_START_B (lpB (lpTicks a b)) n).coreState n = s.coreState n := by
    rw [coreState_wr (addr_startB n) (by decide) (by decide), coreState_wr (addr_startA n) (by decide) (by decide)]
  have hlate : ¬(if lpTicks a b = 0 then s.now else lpTicks a b) < s.now := by
    split <;> omega
  obtain ⟨-, harms⟩ := startCore_arms (hstat ▸ hstate)
  rw [startLp_written ha hb, wr_now, wr_now, core_wr, core_wr, if_neg hlate] at harms
  unfold State.startAt
  refine ⟨?_, harms.1, harms.2⟩
  rw [State.rd, reg_startCore_ne (by rw [addr_startA, addr_coreStat_word, coreWord, coreWord]; omega)]
  exact startA_written ha _ _ _

/-- `CORE.START` on cores that may start and with an LP to come (R205). -/
theorem cmdCoreStart_starts (hclean : c.clean [coreRangeMask]) (hrange : coreRangeOk (c.w 0) = true)
    (hb : lpOk (c.w 2).toNat = true)
    (hlp : lpTicks (c.w 1).toNat (c.w 2).toNat = 0 ∨ u.now ≤ lpTicks (c.w 1).toNat (c.w 2).toNat)
    (hstate : ∀ k ∈ coreRange (c.w 0), u.coreState k = cLoaded ∨ u.coreState k = cHalted) :
    u.cmdCoreStart c =
      ((coreRange (c.w 0)).foldl (fun s n => s.startAt (c.w 1).toNat (lpTicks (c.w 1).toNat (c.w 2).toNat) n) u).complete
        c.tag eOk 0 (coreRange (c.w 0)).length := by
  have hlate : decide (lpTicks (c.w 1).toNat (c.w 2).toNat ≠ 0 ∧ lpTicks (c.w 1).toNat (c.w 2).toNat < u.now) = false :=
    decide_eq_false (by omega)
  have hfind : ((coreRange (c.w 0)).find? fun n => !(u.coreState n = cLoaded || u.coreState n = cHalted)) = none :=
    List.find?_eq_none.2 fun n hn => by simpa [imp_iff_not_or] using hstate n hn
  rw [State.cmdCoreStart, unreserved_of_clean hclean]
  simp only [hlate, hb, hrange, Bool.or_false, hfind, Bool.not_true, Bool.false_eq_true, if_false]
  rfl

/-- `CORE.START` on a core that may not start changes no core (R205). -/
theorem cmdCoreStart_refuses (hclean : c.clean [coreRangeMask]) (hrange : coreRangeOk (c.w 0) = true)
    (hb : lpOk (c.w 2).toNat = true)
    (hlp : lpTicks (c.w 1).toNat (c.w 2).toNat = 0 ∨ u.now ≤ lpTicks (c.w 1).toNat (c.w 2).toNat) (hn : n ∈ coreRange (c.w 0))
    (hbefore : ∀ k ∈ coreRange (c.w 0), k < n → u.coreState k = cLoaded ∨ u.coreState k = cHalted)
    (hloaded : u.coreState n ≠ cLoaded) (hhalted : u.coreState n ≠ cHalted) :
    u.cmdCoreStart c = u.complete c.tag eState n := by
  have hlate : decide (lpTicks (c.w 1).toNat (c.w 2).toNat ≠ 0 ∧ lpTicks (c.w 1).toNat (c.w 2).toNat < u.now) = false :=
    decide_eq_false (by omega)
  have hfind : ((coreRange (c.w 0)).find? fun n => !(u.coreState n = cLoaded || u.coreState n = cHalted)) = some n :=
    find?_least (coreRange_sorted _) hn (by simp [hloaded, hhalted]) (fun k hk hlt => by simpa [imp_iff_not_or] using hbefore k hk hlt)
  rw [State.cmdCoreStart, unreserved_of_clean hclean]
  simp only [hlate, hb, hrange, Bool.or_false, hfind, Bool.not_true, Bool.false_eq_true, if_false, hloaded, hhalted, or_self]

theorem exec_coreStartCmd (h : Starts s 0x0402 p c u) : exec (.coreStartCmd p) s = .next (u.cmdCoreStart c) := by
  show Host.Outcome.next (s.intakeWith (State.perform none) 0x0402 p) = _
  simp only [h.intakeWith, State.perform, h.opcode]

/-! ### `CORE.HALT` (R119, R205) -/

theorem haltCore_keeps {k : Nat} (hk : n ≠ k) (s : State) : CoreKept n s (s.haltCore k) := by
  unfold State.haltCore
  dsimp only
  split
  · exact wr_keeps hk (addr_coreStat_word k) (by decide) _ _
  · split
    · exact (setCore_keeps hk _ _).trans (wr_keeps hk (addr_coreStat_word k) (by decide) _ _)
    · exact setCore_keeps hk _ _

theorem haltCore_frame (s : State) (n : Nat) :
    s.haltCore n = { s with regs := (s.haltCore n).regs, cores := (s.haltCore n).cores } := by
  unfold State.haltCore
  dsimp only
  split
  · exact wr_frame_cores rfl _ _ _ _ _
  · split
    · exact wr_frame_cores rfl _ _ _ _ _
    · rfl

/-- The running cores of the command's range (R205). -/
def State.runningIn (s : State) (w : Word) : List Nat := (coreRange w).filter fun n => s.coreState n = cRunning

theorem mem_runningIn {w : Word} : n ∈ s.runningIn w ↔ n ∈ coreRange w ∧ s.coreState n = cRunning := by
  simp [State.runningIn]

theorem cmdCoreHalt_halts (hclean : c.clean [coreRangeMask]) (hrange : coreRangeOk (c.w 0) = true) :
    u.cmdCoreHalt c =
      ((u.runningIn (c.w 0)).foldl (fun s n => s.haltCore n) u).complete c.tag eOk 0 (u.runningIn (c.w 0)).length := by
  rw [State.cmdCoreHalt, unreserved_of_clean hclean]
  simp only [hrange, Bool.not_true, Bool.false_eq_true, if_false]
  rfl

theorem exec_coreHaltCmd (h : Starts s 0x0403 p c u) : exec (.coreHaltCmd p) s = .next (u.cmdCoreHalt c) := by
  show Host.Outcome.next (s.intakeWith (State.perform none) 0x0403 p) = _
  simp only [h.intakeWith, State.perform, h.opcode]

end Sys2Proof.Machine
end

section
/-! PROOF. The CORE and IMG commands, clause by clause (R112, R117, R119, R121, R205, R206). -/

namespace Sys2Proof.Machine

open Ev Reg

variable {s t u v : State} {p : HostPkt} {c : Cmd} {n : Nat}

/-- A word that is zero has no bit set outside any mask. -/
theorem clean_of_zero {m0 m1 m2 : Nat} (h : c.clean [m0, m1, m2]) (h1 : c.w 1 = 0) : c.clean [m0, 0, m2] := by
  have hword : c.pkt.words.getD (0 + 1) 0 = 0 := h1
  unfold Cmd.clean at *
  simp only [reservedAt, hword] at *
  simpa using h

/-- A load names an image in a slot or in the staging region, and reading it leaves the slots of the commands (R112). -/
theorem namedImage_of_source {m : Image} (hclean : c.clean [mask 2 0, mask 29 0, coreRangeMask])
    (hrange : coreRangeOk (c.w 2) = true)
    (hm : (c.w 0).bits 2 0 < 2 ∧ c.w 1 = 0 ∧
        (m, v) = (u.slotImage ((c.w 0).bits 2 0) (coreKind ((coreRange (c.w 2)).headD 0)), u) ∨
      (c.w 0).bits 2 0 = 2 ∧ stageLo ≤ (c.w 1).toNat ∧ (c.w 1).toNat < stageHi ∧ (m, v) = u.stagedImage (c.w 1).toNat) :
    c.loadsImage ∧ u.namedImage c = (m, v) ∧ v.svc = u.svc := by
  rcases hm with ⟨hsource, hzero, hm⟩ | ⟨hsource, hlo, hhi, hm⟩
  · have hne : (c.w 0).bits 2 0 ≠ 2 := by omega
    refine ⟨⟨?_, by omega, fun h => absurd h hne, hrange⟩, ?_, ?_⟩
    · rw [if_neg hne]
      exact clean_of_zero hclean hzero
    · rw [State.namedImage, if_neg hne, hm]
    · rw [(Prod.mk.inj hm).2]
  · refine ⟨⟨?_, by omega, fun _ => ⟨hlo, hhi⟩, hrange⟩, ?_, ?_⟩
    · rw [if_pos hsource]
      exact hclean
    · rw [State.namedImage, if_pos hsource, hm]
    · rw [← (stagedImage_noted u (c.w 1).toNat).svc, ← hm]

theorem loadable_of_state
    (h : u.coreState n = cEmpty ∨ u.coreState n = cLoaded ∨ u.coreState n = cHalted ∨ u.coreState n = cFaulted) :
    u.loadable n = true := by
  unfold State.loadable
  rcases h with h | h | h | h <;> rw [h] <;> rfl

/-- What `CORE.START` leaves of the cores of its range and of the others (R119, R205). -/
theorem starts_shows {a b : Nat} (ha : a < 2 ^ 36) (hb : lpOk b = true) (hlp : lpTicks a b = 0 ∨ u.now ≤ lpTicks a b)
    {l : List Nat} (hl : l.Nodup) : let t := l.foldl (fun s n => s.startAt a (lpTicks a b) n) u
    (∀ n ∈ l, u.coreState n = cLoaded ∨ u.coreState n = cHalted →
      t.rd CORE_START_A n = a ∧ t.rd CORE_STAT_LATE n = 0 ∧
        t.core n = { u.core n with armed := some (if lpTicks a b = 0 then u.now else lpTicks a b) }) ∧
    (∀ k, k ∉ l → t.core k = u.core k) ∧ t = { u with regs := t.regs, cores := t.cores } := by
  have hstep (n : Nat) (s : State) (k : Nat) (hk : n ≠ k) : CoreKept n s (s.startAt a (lpTicks a b) k) := startAt_keeps a _ hk s
  refine ⟨fun n hn hstate => ?_, fun k hk => (foldl_coreKept (hstep k) hk u).core,
    foldl_frame_cores (fun s k => startAt_frame s a _ k) l u⟩
  obtain ⟨v, hbefore, hafter⟩ := foldl_ownStep (hstep n) hl hn u
  obtain ⟨hA, hlate, harmed⟩ := startAt_arms ha hb (s := v) (n := n) (hbefore.now.symm ▸ hlp) (hbefore.coreState.symm ▸ hstate)
  refine ⟨(hafter.rd (addr_startA n) (by decide)).trans hA,
    (hafter.rd (f := CORE_STAT_LATE) (addr_coreStat_word n) (by decide)).trans hlate, ?_⟩
  rw [hafter.core, harmed, hbefore.core, hbefore.now]

/-- What `CORE.HALT` leaves of the running cores of its range and of the others (R119, R205). -/
theorem halts_shows {l : List Nat} (hl : l.Nodup) : let t := l.foldl (fun s n => s.haltCore n) u
    (∀ n ∈ l, u.coreState n = cRunning → (u.core n).wait = none → t.coreState n = cHalted ∧ t.core n = u.core n) ∧
    (∀ n, n ∉ l → t.core n = u.core n ∧ t.coreState n = u.coreState n) ∧ t = { u with regs := t.regs, cores := t.cores } := by
  have hstep (n : Nat) (s : State) (k : Nat) (hk : n ≠ k) : CoreKept n s (s.haltCore k) := haltCore_keeps hk s
  refine ⟨fun n hn hrun hwait => ?_, fun n hn => ?_, foldl_frame_cores haltCore_frame l u⟩
  · obtain ⟨v, hbefore, hafter⟩ := foldl_ownStep (hstep n) hl hn u
    obtain ⟨-, -, hhalts⟩ := haltCore_halts (hbefore.coreState.trans hrun)
    rw [hbefore.core, hwait] at hhalts
    exact ⟨hafter.coreState.trans hhalts.1, hafter.core.trans hhalts.2⟩
  · have hkept := foldl_coreKept (hstep n) hn u
    exact ⟨hkept.core, hkept.coreState⟩

theorem svc_of_cores (h : t = { u with regs := t.regs, cores := t.cores }) : t.svc = u.svc := by rw [h]

/-- A completion changes the service link alone, after a change of register words and cores. -/
theorem svc_after_cores {a b : State} (h : b = { a with svc := b.svc }) (h' : a = { u with regs := a.regs, cores := a.cores }) :
    b = { u with svc := b.svc, regs := b.regs, cores := b.cores } := by
  rw [h, h']

/-- A core is no matter of the service link. -/
theorem coreKept_of_svc {a b : State} (h : b = { a with svc := b.svc }) (n : Nat) : CoreKept n a b := by
  rw [h]
  exact ⟨rfl, fun _ _ => rfl, fun _ _ => rfl, rfl⟩

/-- A command that starts from its queue does its work (R191). -/
theorem exec_commandStart {bursts : List Burst} (hlive : s.svcLive = true) (hpick : s.pick = some c) :
    exec (.commandStart bursts) s = .next (State.perform (some bursts) c (s.markStarted c)) := by
  show execCommandStart bursts s = _
  unfold execCommandStart
  rw [hlive, hpick]
  rfl

/-- Settles O32, command by command. -/
theorem coreAndImageCommandsComplete : Obligations.CoreAndImageCommandsComplete := by
  refine ⟨?_, ?_, ?_, ?_, ?_, ?_⟩
  · intro s u v p c m h hclean ts hrange herr hm hstate
    obtain ⟨hloads, hnamed, hsvc⟩ := namedImage_of_source hclean hrange hm
    obtain ⟨htaken, hrejected⟩ := cmdCoreLoad_judges hloads herr (fun n hn => loadable_of_state (hstate n hn)) hnamed
    refine ⟨fun hjudge => ?_, fun st d hjudge => ?_⟩
    · rw [exec_coreLoad h, htaken hjudge]
    · obtain ⟨hans, hraised, hstatus, hlast, -, hsame⟩ :=
        rejectsImage_shows (h.running.lives.congr hsvc) (.inl h.opcode) (judgeImage_lt hjudge) d m.kindShown
      refine ⟨_, (exec_coreLoad h).trans (congrArg _ (hrejected st d hjudge)), hans, hraised, hstatus, ?_, hsame⟩
      rw [hlast, h.opcode]
      rfl
  · intro s u p c n h hclean hsource hstaged hrange herr hn hbad hbefore
    obtain ⟨hans, hraised, hstatus, hlast, hkind, hsame⟩ :=
      rejectsImage_shows h.running.lives (.inl h.opcode) (st := eState) (by decide) n 0
    refine ⟨_, (exec_coreLoad h).trans (congrArg _ (cmdCoreLoad_busy ⟨hclean, hsource, hstaged, hrange⟩ herr hn hbad hbefore)),
      hans, hraised, hstatus, ?_, hkind, hsame⟩
    rw [hlast, h.opcode]
    rfl
  · intro s u p c n h hclean hrange hb hn lp hlp
    refine ⟨fun hstate => ?_, fun hbefore hloaded hhalted => ?_⟩
    · obtain ⟨hown, hothers, hcores⟩ := starts_shows (c.w 1).isLt hb hlp (coreRange_nodup (c.w 0))
      obtain ⟨hans, hsvc⟩ := h.completesFrom (st := eOk) (detail := 0) (result := (coreRange (c.w 0)).length) (data := [])
        (by decide) (by decide) (svc_of_cores hcores)
      have hkept := coreKept_of_svc hsvc
      obtain ⟨hA, hlate, harmed⟩ := hown n hn (hstate n hn)
      exact ⟨_, (exec_coreStartCmd h).trans (congrArg _ (cmdCoreStart_starts hclean hrange hb hlp hstate)), hans,
        ((hkept n).rd (addr_startA n) (by decide)).trans hA,
        ((hkept n).rd (f := CORE_STAT_LATE) (addr_coreStat_word n) (by decide)).trans hlate, (hkept n).core.trans harmed,
        fun k hk => (hkept k).core.trans (hothers k hk), svc_after_cores hsvc hcores⟩
    · exact h.completes (by decide) (by decide)
        ((exec_coreStartCmd h).trans (congrArg _ (cmdCoreStart_refuses hclean hrange hb hlp hn hbefore hloaded hhalted)))
  · intro s u p c h hclean hrange
    obtain ⟨hown, hothers, hcores⟩ := halts_shows (u := u) (l := u.runningIn (c.w 0)) ((coreRange_nodup (c.w 0)).filter _)
    obtain ⟨hans, hsvc⟩ := h.completesFrom (st := eOk) (detail := 0) (result := (u.runningIn (c.w 0)).length) (data := [])
      (by decide) (by decide) (svc_of_cores hcores)
    have hkept := coreKept_of_svc hsvc
    refine ⟨_, (exec_coreHaltCmd h).trans (congrArg _ (cmdCoreHalt_halts hclean hrange)), hans, fun n hn hrun hwait => ?_,
      fun n hn => ?_, svc_after_cores hsvc hcores⟩
    · obtain ⟨hhalted, hcore⟩ := hown n (mem_runningIn.2 ⟨hn, hrun⟩) hrun hwait
      exact ⟨(hkept n).coreState.trans hhalted, (hkept n).core.trans hcore⟩
    · obtain ⟨hcore, hstate⟩ := hothers n fun hmem => hn.elim (· (mem_runningIn.1 hmem).1) (· (mem_runningIn.1 hmem).2)
      exact ⟨(hkept n).core.trans hcore, (hkept n).coreState.trans hstate⟩
  · intro s u p c h hclean hlo hhi
    refine ⟨fun hbusy => ?_, fun m v hfree herr hm hlen hjudge hsig => ?_, fun m v st d hfree herr hm hfail => ?_⟩
    · obtain ⟨hstatus, hlast⟩ := rd_complete h.running.lives (.inr h.opcode) (st := eBusy) (by decide) 0 0 []
      refine ⟨_, (exec_imgStore h).trans (congrArg _ (cmdImgStore_busy ⟨hclean, hlo, hhi⟩ hbusy)),
        lives_answered h.running.lives _ _ _ _, hstatus, ?_, fun a ha => reg_complete_ne _ _ _ _ _ _ ha, complete_same _ _ _ _ _ _⟩
      rw [hlast, h.opcode]
      rfl
    · rw [exec_imgStore h, cmdImgStore_writes ⟨hclean, hlo, hhi⟩ hfree herr hm hlen hjudge hsig]
    · have hlives : v.lives c := h.running.lives.congr (by rw [← (stagedImage_noted u (c.w 0).toNat).svc, hm])
      have hst : st < 512 := hfail.elim judgeImage_lt fun h => judgeSignature_lt h.2
      obtain ⟨hans, hraised, hstatus, hlast, -, hsame⟩ := rejectsImage_shows hlives (.inr h.opcode) hst d m.kindShown
      refine ⟨_, (exec_imgStore h).trans (congrArg _ (cmdImgStore_rejects ⟨hclean, hlo, hhi⟩ hfree herr hm hfail)),
        hans, hraised, hstatus, ?_, hsame⟩
      rw [hlast, h.opcode]
      rfl
  · intro s bursts c hlive hpick herr hcmd u
    have hlives : u.lives c := State.running.lives (cmdAt_setCmd _ _ _)
    obtain ⟨hop, k, hwork⟩ : (c.opcode = 0x0401 ∨ c.opcode = 0x0501) ∧
        ∃ k, State.perform (some bursts) c u = u.rejectsImage c eState 0 k := by
      rcases hcmd with ⟨hop, hclean, hsource, hstaged, hrange⟩ | ⟨hop, hclean, hlo, hhi, hfree⟩
      · refine ⟨.inl hop, 0, ?_⟩
        simp only [State.perform, hop]
        exact cmdCoreLoad_error ⟨hclean, hsource, hstaged, hrange⟩ herr
      · refine ⟨.inr hop, (u.stagedImage (c.w 0).toNat).1.kindShown, ?_⟩
        simp only [State.perform, hop]
        exact cmdImgStore_error ⟨hclean, hlo, hhi⟩ hfree herr
    obtain ⟨hans, hraised, hstatus, hlast, -, hsame⟩ := rejectsImage_shows hlives hop (st := eState) (by decide) 0 k
    exact ⟨_, (exec_commandStart hlive hpick).trans (congrArg _ hwork), hans, hraised, hstatus, hlast, hsame⟩

end Sys2Proof.Machine
end

section
/-! PROOF. The words of the Hergil instructions decode to what they were encoded from (R123–R133, R137, R160). -/

namespace Sys2Proof.Machine

open Sys2Proof

/-! ### Fields of a packed word (R123) -/

theorem bits_word (x hi lo : Nat) (h : x < 2 ^ 36) : (word x).bits hi lo = x / 2 ^ lo % 2 ^ (hi + 1 - lo) := by
  rw [Word.bits, word, BitVec.toNat_ofNat, Nat.mod_eq_of_lt h, bitsOf]

section
variable {op d s t fn sh : Nat} (hop : op < 64) (hd : d < 64) (hs : s < 64) (ht : t < 64) (hfn : fn < 64) (hsh : sh < 64)
include hop hd hs ht hfn hsh

/-- The six fields of a G-format word. -/
theorem bits_packG :
    (packG op d s t fn sh).bits 35 30 = op ∧ (packG op d s t fn sh).bits 29 24 = d ∧ (packG op d s t fn sh).bits 23 18 = s ∧
      (packG op d s t fn sh).bits 17 12 = t ∧ (packG op d s t fn sh).bits 11 6 = fn ∧ (packG op d s t fn sh).bits 5 0 = sh := by
  unfold packG
  refine ⟨?_, ?_, ?_, ?_, ?_, ?_⟩ <;> rw [bits_word _ _ _ (by omega)] <;> omega

end

/-- The fields of an I-format or B-format word. -/
theorem bits_packI {op d s x : Nat} (hop : op < 64) (hd : d < 64) (hs : s < 64) (hx : x < 2 ^ 18) :
    (packI op d s x).bits 35 30 = op ∧ (packI op d s x).bits 29 24 = d ∧ (packI op d s x).bits 23 18 = s ∧
      (packI op d s x).bits 17 0 = x := by
  unfold packI
  refine ⟨?_, ?_, ?_, ?_⟩ <;> rw [bits_word _ _ _ (by omega)] <;> omega

/-- The fields of an M-format word. -/
theorem bits_packM {op d s le md x : Nat} (hop : op < 64) (hd : d < 64) (hs : s < 64) (hle : le < 16) (hmd : md < 4)
    (hx : x < 4096) :
    let w := packI op d s (le * 2 ^ 14 + md * 2 ^ 12 + x)
    w.bits 35 30 = op ∧ w.bits 29 24 = d ∧ w.bits 23 18 = s ∧ w.bits 17 14 = le ∧ w.bits 13 12 = md ∧ w.bits 11 0 = x := by
  unfold packI
  refine ⟨?_, ?_, ?_, ?_, ?_, ?_⟩ <;> rw [bits_word _ _ _ (by omega)] <;> omega

/-- The fields of a J-format word. -/
theorem bits_packJ {op d x : Nat} (hop : op < 64) (hd : d < 64) (hx : x < 2 ^ 24) :
    (packJ op d x).bits 35 30 = op ∧ (packJ op d x).bits 29 24 = d ∧ (packJ op d x).bits 23 0 = x := by
  unfold packJ
  refine ⟨?_, ?_, ?_⟩ <;> rw [bits_word _ _ _ (by omega)] <;> omega

/-! ### Registers, pairs and tags (R124, R125) -/

@[simp] theorem hreg_val (r : HReg) : hreg r.val = some r := dif_pos r.isLt

@[simp] theorem hpair_pairNum (p : HPair) : hpair (pairNum p) = some p := by
  have hhalf : 2 * p.val / 2 = p.val := by omega
  simp [hpair, pairNum, hhalf]

/-- The register whose number is that of a pair (R125). -/
def pairReg (p : HPair) : HReg := ⟨pairNum p, by unfold pairNum; omega⟩

@[simp] theorem pairReg_val (p : HPair) : (pairReg p).val = pairNum p := rfl

@[simp] theorem tagOf_val (t : Fin 64) : tagOf t.val = t := Fin.ext (Nat.mod_eq_of_lt t.isLt)

@[simp] theorem givenThat_true {α : Type} {c : Prop} [Decidable c] (h : c) (x : Option α) : givenThat c x = x := if_pos h

theorem reg_lt (r : HReg) : r.val < 64 := by omega

theorem pair_lt (p : HPair) : pairNum p < 64 := by unfold pairNum; omega

/-! ### Decoding by the opcode (R127) -/

section
variable {n : Nat} {w imm : Word} {d s t : HReg}

theorem decode_alu_reg (hop : w.bits 35 30 = 0o01) (hd : hreg (w.bits 29 24) = some d) (hs : hreg (w.bits 23 18) = some s)
    (ht : hreg (w.bits 17 12) = some t) :
    decodeHergil n w imm = codeAlu n (w.bits 11 6) d s (.reg t) (t.val = 0) false (w.bits 5 0) := by
  simp [decodeHergil, isX, hop, hd, hs, ht]

theorem decode_alu_imm (hop : w.bits 35 30 = 0o11) (hd : hreg (w.bits 29 24) = some d) (hs : hreg (w.bits 23 18) = some s)
    (ht : w.bits 17 12 = 0) :
    decodeHergil n w imm = codeAlu n (w.bits 11 6) d s (.imm imm) (imm = 0) true (w.bits 5 0) := by
  simp [decodeHergil, decodeX, isX, hop, hd, hs, ht]

theorem decode_immediate (hop : 2 ≤ w.bits 35 30 ∧ w.bits 35 30 < 8) (hd : hreg (w.bits 29 24) = some d)
    (hs : hreg (w.bits 23 18) = some s) : decodeHergil n w imm = decodeI n w d s := by
  have hmem : ¬ (16 ≤ w.bits 35 30 ∧ w.bits 35 30 < 24) := by omega
  have hbranch : ¬ (24 ≤ w.bits 35 30 ∧ w.bits 35 30 < 32) := by omega
  have hpos : ¬ (w.bits 35 30 = 34 ∨ w.bits 35 30 = 35 ∨ w.bits 35 30 = 37 ∨ w.bits 35 30 = 32 ∨ w.bits 35 30 = 33 ∨
    w.bits 35 30 = 36) := by omega
  simp only [decodeHergil, if_neg hmem, if_neg hbranch, if_neg hpos, hd, hs, Option.bind_some, if_pos hop]

theorem decode_branch (hop : 0o30 ≤ w.bits 35 30 ∧ w.bits 35 30 < 0o40) : decodeHergil n w imm = decodeB n w := by
  have hmem : ¬ (16 ≤ w.bits 35 30 ∧ w.bits 35 30 < 24) := by omega
  simp only [decodeHergil, if_neg hmem, if_pos hop]

/-- Opcodes 40–45: the fields s and t name registers (R139–R150). -/
theorem decode_position (hop : 0o40 ≤ w.bits 35 30 ∧ w.bits 35 30 < 0o46) (hs : hreg (w.bits 23 18) = some s)
    (ht : hreg (w.bits 17 12) = some t) : decodeHergil n w imm = decodePos n w s t := by
  have hmem : ¬ (16 ≤ w.bits 35 30 ∧ w.bits 35 30 < 24) := by omega
  have hbranch : ¬ (24 ≤ w.bits 35 30 ∧ w.bits 35 30 < 32) := by omega
  have hpos : w.bits 35 30 = 34 ∨ w.bits 35 30 = 35 ∨ w.bits 35 30 = 37 ∨ w.bits 35 30 = 32 ∨ w.bits 35 30 = 33 ∨
    w.bits 35 30 = 36 := by omega
  simp only [decodeHergil, if_neg hmem, if_neg hbranch, if_pos hpos, hs, ht, Option.bind_some]

theorem decode_system (hop : w.bits 35 30 = 0o50) (hd : hreg (w.bits 29 24) = some d) (hs : hreg (w.bits 23 18) = some s)
    (ht : w.bits 17 12 = 0) (hsh : w.bits 5 0 = 0) : decodeHergil n w imm = decodeSys n (w.bits 11 6) d s := by
  simp [decodeHergil, isX, hop, hd, hs, ht, hsh]

end

/-- An M-format word gives back its base, mode, lanes and displacement (R132). -/
theorem memArgs_packI (op d : Nat) (m : MemArgs) (hop : op < 64) (hd : d < 64) :
    memArgs (packI op d m.b (m.le.toNat * 2 ^ 14 + m.md.val * 2 ^ 12 + m.disp.toNat)) = some m := by
  obtain ⟨-, -, hb, hle, hmd, hx⟩ := bits_packM hop hd (reg_lt m.b) m.le.isLt (show m.md.val < 4 by omega) m.disp.isLt
  simp only [memArgs, hb, hle, hmd, hx, hreg_val, Option.bind_some, BitVec.ofNat_toNat, BitVec.setWidth_eq]
  exact dif_pos m.md.isLt

/-! ### Decoding what was encoded -/

/-- The words `ws` have the length that their opcode says, and spell `i` for core `n`. -/
def Spells (n : Nat) (ws : List Word) (i : Instr) : Prop :=
  ws.length = (if isX (ws.headD 0) then 2 else 1) ∧ decodeHergil n (ws.headD 0) (ws.getD 1 0) = some i

/-- One word of an opcode without immediate word spells what it decodes to. -/
theorem spells_one {n : Nat} {w : Word} {i : Instr} (hx : isX w = false) (h : decodeHergil n w 0 = some i) : Spells n [w] i :=
  ⟨by simp [hx], h⟩

theorem spells_two {n : Nat} {w imm : Word} {i : Instr} (hx : isX w = true) (h : decodeHergil n w imm = some i) :
    Spells n [w, imm] i :=
  ⟨by simp [hx], h⟩

theorem isX_of_op {w : Word} {op : Nat} (h : w.bits 35 30 = op) : isX w = decide (op = 0o10 ∨ op = 0o11) := by
  simp [isX, h]

section
variable {n : Nat} {i : Instr} {d a : HReg} {fn sh : Nat}

/-- An ALU operation in its register form (R130). -/
theorem spells_alu_reg {t : HReg} (hfn : fn < 64) (hsh : sh < 64)
    (h : codeAlu n fn d a (.reg t) (t.val = 0) false sh = some i) : Spells n [packG 0o01 d a t fn sh] i := by
  obtain ⟨hop, hd, hs, ht, hfn', hsh'⟩ := bits_packG (op := 0o01) (by omega) (reg_lt d) (reg_lt a) (reg_lt t) hfn hsh
  refine spells_one (isX_of_op hop) ?_
  rw [decode_alu_reg hop (d := d) (s := a) (t := t) (by rw [hd, hreg_val]) (by rw [hs, hreg_val]) (by rw [ht, hreg_val]), hfn', hsh', h]

/-- An ALU operation with its immediate word (R127, R130). -/
theorem spells_alu_imm {x : Word} (hfn : fn < 64) (hsh : sh < 64)
    (h : codeAlu n fn d a (.imm x) (x = 0) true sh = some i) : Spells n [packG 0o11 d a 0 fn sh, x] i := by
  obtain ⟨hop, hd, hs, ht, hfn', hsh'⟩ := bits_packG (op := 0o11) (by omega) (reg_lt d) (reg_lt a) (Nat.zero_lt_succ 63) hfn hsh
  refine spells_two (isX_of_op hop) ?_
  rw [decode_alu_imm hop (d := d) (s := a) (by rw [hd, hreg_val]) (by rw [hs, hreg_val]) ht, hfn', hsh', h]

/-- An ALU operation with a second operand decodes whichever form it has (R130). -/
theorem spells_encAlu {t : Src} (hfn : fn < 64) (hsh : sh < 64) (h : ∀ tz x, codeAlu n fn d a t tz x sh = some i) :
    Spells n (encAlu fn d a t sh) i := by
  cases t with
  | reg t => exact spells_alu_reg hfn hsh (h _ _)
  | imm x => exact spells_alu_imm hfn hsh (h _ _)

theorem spells_encTwo {x : Bool} (hfn : fn < 64) (h : ∀ t, codeAlu n fn d a t true x 0 = some i) : Spells n (encTwo fn d a x) i := by
  cases x with
  | false => exact spells_alu_reg (t := 0) hfn (Nat.zero_lt_succ 63) (h _)
  | true => exact spells_alu_imm hfn (Nat.zero_lt_succ 63) (h _)

/-- Opcodes 02–07 (R128). -/
theorem spells_immediate {op : Nat} {x : BitVec 18} (hop : 2 ≤ op ∧ op < 8)
    (h : ∀ w : Word, w.bits 35 30 = op → w.bits 17 0 = x.toNat → decodeI n w d a = some i) :
    Spells n [packI op d a x.toNat] i := by
  obtain ⟨hop', hd, hs, hx⟩ := bits_packI (show op < 64 by omega) (reg_lt d) (reg_lt a) x.isLt
  refine spells_one ((isX_of_op hop').trans (decide_eq_false (by omega))) ?_
  rw [decode_immediate (by rwa [hop']) (d := d) (s := a) (by rw [hd, hreg_val]) (by rw [hs, hreg_val])]
  exact h _ hop' hx

/-- Opcodes 20–25: the register or pair field is `d` (R132–R137). -/
theorem spells_memory {op d : Nat} {m : MemArgs} (hop : 16 ≤ op ∧ op < 22) (hd : d < 64)
    (h : ∀ w : Word, w.bits 35 30 = op → w.bits 29 24 = d → memArgs w = some m → decodeM n w = some i) :
    Spells n (encMem op d m) i := by
  have hm := memArgs_packI op d m (by omega) hd
  obtain ⟨hop', hd', -⟩ := bits_packM (show op < 64 by omega) hd (reg_lt m.b) m.le.isLt (show m.md.val < 4 by omega) m.disp.isLt
  refine spells_one ((isX_of_op hop').trans (decide_eq_false (by omega))) ?_
  rw [decodeHergil, if_pos]
  · exact h _ hop' hd' hm
  · rw [hop']
    omega

/-- Opcodes 40–45, whose fields s and t name registers (R139–R150). -/
theorem spells_position {op d : Nat} (s t : HReg) (hop : 32 ≤ op ∧ op < 38) (hd : d < 64) (hfn : fn < 64) (hsh : sh < 64)
    (h : ∀ w : Word, w.bits 35 30 = op → w.bits 29 24 = d → w.bits 11 6 = fn → w.bits 5 0 = sh → decodePos n w s t = some i) :
    Spells n [packG op d s t fn sh] i := by
  obtain ⟨hop', hd', hs, ht, hfn', hsh'⟩ := bits_packG (show op < 64 by omega) hd (reg_lt s) (reg_lt t) hfn hsh
  refine spells_one ((isX_of_op hop').trans (decide_eq_false (by omega))) ?_
  rw [decode_position (by rwa [hop']) (s := s) (t := t) (by rw [hs, hreg_val]) (by rw [ht, hreg_val])]
  exact h _ hop' hd' hfn' hsh'

/-- Opcode 50 (R160). -/
theorem spells_system (hfn : fn < 64) (h : decodeSys n fn d a = some i) : Spells n [packG 0o50 d a 0 fn 0] i := by
  obtain ⟨hop, hd, hs, ht, hfn', hsh⟩ := bits_packG (op := 0o50) (by omega) (reg_lt d) (reg_lt a) (Nat.zero_lt_succ 63) hfn
    (Nat.zero_lt_succ 63)
  refine spells_one (isX_of_op hop) ?_
  rw [decode_system hop (d := d) (s := a) (by rw [hd, hreg_val]) (by rw [hs, hreg_val]) ht hsh, hfn', h]

end

/-- The condition of a branch comes back from its two fields (R131). -/
theorem condOf_condCode (c : Cond) : ∃ r : HReg, (condCode c).2 = r.val ∧ (condCode c).1 < 64 ∧ condOf (condCode c).1 r = some c := by
  cases c
  case rz r => exact ⟨r, rfl, Nat.lt_of_sub_pos (by simp [condCode]), rfl⟩
  case rnz r => exact ⟨r, rfl, Nat.lt_of_sub_pos (by simp [condCode]), rfl⟩
  case rneg r => exact ⟨r, rfl, Nat.lt_of_sub_pos (by simp [condCode]), rfl⟩
  case rpos r => exact ⟨r, rfl, Nat.lt_of_sub_pos (by simp [condCode]), rfl⟩
  all_goals exact ⟨0, rfl, by decide, rfl⟩

section
variable {n : Nat} {i : Instr}

/-- A branch whose word is in B-format (R128, R131). -/
theorem spells_branchI {op d s : Nat} {x : BitVec 18} (hop : 24 ≤ op ∧ op < 32) (hd : d < 64) (hs : s < 64)
    (h : ∀ w : Word, w.bits 35 30 = op → w.bits 29 24 = d → w.bits 23 18 = s → w.bits 17 0 = x.toNat → decodeB n w = some i) :
    Spells n [packI op d s x.toNat] i := by
  obtain ⟨hop', hd', hs', hx⟩ := bits_packI (show op < 64 by omega) hd hs x.isLt
  refine spells_one ((isX_of_op hop').trans (decide_eq_false (by omega))) ?_
  rw [decode_branch (by rwa [hop'])]
  exact h _ hop' hd' hs' hx

/-- A jump whose word is in J-format (R138). -/
theorem spells_jump {op d : Nat} {x : BitVec 24} (hop : 24 ≤ op ∧ op < 32) (hd : d < 64)
    (h : ∀ w : Word, w.bits 35 30 = op → w.bits 29 24 = d → w.bits 23 0 = x.toNat → decodeB n w = some i) :
    Spells n [packJ op d x.toNat] i := by
  obtain ⟨hop', hd', hx⟩ := bits_packJ (show op < 64 by omega) hd x.isLt
  refine spells_one ((isX_of_op hop').trans (decide_eq_false (by omega))) ?_
  rw [decode_branch (by rwa [hop'])]
  exact h _ hop' hd' hx

end

/-- The instruction `i` of core `n` is well formed only when the core exists. -/
theorem core_lt_of_wf {i : Instr} {n : Nat} {l : List (Option Malformed)} (hi : i.checks = coreOk n :: l) (h : i.wf = true) :
    n < 77 := by
  by_contra hn
  simp [Instr.wf, Instr.malformed, hi, coreOk, demand, hn] at h

/-- The second check of a well-formed instruction holds as well. -/
theorem second_of_wf {i : Instr} {n : Nat} {ok : Bool} {e : Malformed} (hi : i.checks = [coreOk n, demand ok e])
    (h : i.wf = true) : ok = true := by
  by_contra hn
  have hn' : ok = false := by simpa using hn
  cases hc : coreOk n <;> simp [Instr.wf, Instr.malformed, hi, hc, demand, hn'] at h

/-! ### Instructions with a form of their own -/

theorem spells_li (n : Nat) (d : HReg) (imm : Word) : Spells n [packG 0o10 d 0 0 0 0, imm] (.li n d imm) := by
  obtain ⟨hop, hd, hs, ht, hfn, hsh⟩ := bits_packG (op := 0o10) (s := 0) (t := 0) (fn := 0) (sh := 0) (by decide) (reg_lt d)
    (by decide) (by decide) (by decide) (by decide)
  exact spells_two (isX_of_op hop) (by simp [decodeHergil, decodeX, isX, hop, hd, hs, ht, hfn, hsh, givenThat, hreg])

theorem spells_jr (n : Nat) (d a : HReg) : Spells n [packG 0o33 d a 0 0 0] (.jr n d a) := by
  have hpack : packG 0o33 d a 0 0 0 = packI 0o33 d a (0 : BitVec 18).toNat := rfl
  rw [hpack]
  exact spells_branchI (by decide) (reg_lt d) (reg_lt a) fun w hop hd hs hx => by
    have hx' : w.bits 17 0 = 0 := hx
    simp [decodeB, hop, hd, hs, hx']

/-- A tag comes back from the sh field or from the register of field t (R147). -/
theorem spells_issue (n : Nat) (a : HReg) (tag : TagSrc) : Spells n (encTag 0o44 0 a tag) (.issue n a tag false) := by
  cases tag with
  | field tag =>
    exact spells_position a 0 (by decide) (by decide) (by decide) tag.isLt fun w hop hd hfn hsh => by
      simp [decodePos, hop, hd, hfn, hsh]
  | reg t =>
    exact spells_position a t (by decide) (by decide) (by decide) (by decide) fun w hop hd hfn hsh => by
      simp [decodePos, hop, hd, hfn, hsh]

theorem spells_waitt (n : Nat) (d : HPair) (tag : TagSrc) : Spells n (encTag 0o45 (pairNum d) 0 tag) (.waitt n d tag false) := by
  cases tag with
  | field tag =>
    exact spells_position 0 0 (by decide) (pair_lt d) (by decide) tag.isLt fun w hop hd hfn hsh => by
      simp [decodePos, hop, hd, hfn, hsh]
  | reg t =>
    exact spells_position 0 t (by decide) (pair_lt d) (by decide) (by decide) fun w hop hd hfn hsh => by
      simp [decodePos, hop, hd, hfn, hsh]

/-! ### Every instruction -/

/-- The encoded words of a well-formed instruction, its outcome operand at its first value, spell it for its core. -/
theorem spells_encodeHergil {i : Instr} {ws : List Word} (hwf : i.wf = true) (henc : encodeHergil i = some ws)
    (hissue : ∀ n a t, i ≠ .issue n a t true) (hwaitt : ∀ n d t, i ≠ .waitt n d t true)
    (hpop : ∀ n d, i ≠ .waita n d true ∧ i ≠ .cpop n d true) : ∃ n, n < 77 ∧ Spells n ws i := by
  cases i
  case add n d a t | sub n d a t | adc n d a t | sbc n d a t | and n d a t | or n d a t | xor n d a t | andn n d a t
      | shl n d a t | shr n d a t | sar n d a t | rol n d a t | mul n d a t | mulhu n d a t | mulhs n d a t | min n d a t
      | minu n d a t | max n d a t | maxu n d a t =>
    cases henc
    exact ⟨n, core_lt_of_wf rfl hwf, spells_encAlu (by decide) (by decide) fun _ _ => rfl⟩
  case cmp n a t | tst n a t =>
    cases henc
    exact ⟨n, core_lt_of_wf rfl hwf, spells_encAlu (d := 0) (by decide) (by decide) fun _ _ => rfl⟩
  case shli n d a sh | shri n d a sh | sari n d a sh | roli n d a sh =>
    cases henc
    exact ⟨n, core_lt_of_wf rfl hwf, spells_alu_reg (t := 0) (by decide) sh.isLt (by simp [codeAlu, codeShift, givenThat])⟩
  case mov n d a x | pop n d a x | clz n d a x =>
    cases henc
    exact ⟨n, core_lt_of_wf rfl hwf, spells_encTwo (by decide) fun _ => rfl⟩
  case bfx n d a t width =>
    cases henc
    exact ⟨n, core_lt_of_wf rfl hwf, spells_encAlu (by decide) (by omega) fun _ _ => by simp [codeAlu, codeBfx]⟩
  case addi n d a imm | andi n d a imm | ori n d a imm | xori n d a imm =>
    cases henc
    exact ⟨n, core_lt_of_wf rfl hwf, spells_immediate (by decide) fun w hop hx => by simp [decodeI, hop, hx]⟩
  case cmpi n a imm =>
    cases henc
    exact ⟨n, core_lt_of_wf rfl hwf, spells_immediate (d := 0) (by decide) fun w hop hx => by simp [decodeI, hop, hx, givenThat]⟩
  case lui n d imm =>
    cases henc
    exact ⟨n, core_lt_of_wf rfl hwf, spells_immediate (a := 0) (by decide) fun w hop hx => by simp [decodeI, hop, hx, givenThat]⟩
  case li n d imm =>
    cases henc
    exact ⟨n, core_lt_of_wf rfl hwf, spells_li n d imm⟩
  case ld n d m =>
    cases henc
    have hle : ¬ m.le = 0#4 := by simpa using second_of_wf rfl hwf
    exact ⟨n, core_lt_of_wf rfl hwf, spells_memory (by decide) (reg_lt d) fun w hop hd hm => by
      simp [decodeM, hop, hd, hm, hle, givenThat]⟩
  case ldp n d m =>
    cases henc
    have hle : ¬ m.le = 0#4 := by simpa using second_of_wf rfl hwf
    exact ⟨n, core_lt_of_wf rfl hwf, spells_memory (by decide) (pair_lt d) fun w hop hd hm => by
      simp [decodeM, hop, hd, hm, hle, givenThat]⟩
  case st n d m =>
    cases henc
    exact ⟨n, core_lt_of_wf rfl hwf, spells_memory (by decide) (reg_lt d) fun w hop hd hm => by simp [decodeM, hop, hd, hm]⟩
  case stp n d m =>
    cases henc
    exact ⟨n, core_lt_of_wf rfl hwf, spells_memory (by decide) (pair_lt d) fun w hop hd hm => by simp [decodeM, hop, hd, hm]⟩
  case aadd n d m | aswp n d m =>
    cases henc
    have hle : m.le = 15 := by simpa using second_of_wf rfl hwf
    exact ⟨n, core_lt_of_wf rfl hwf, spells_memory (by decide) (reg_lt d) fun w hop hd hm => by
      simp [decodeM, hop, hd, hm, hle]⟩
  case br n cond disp =>
    cases henc
    obtain ⟨r, hr, hcode, hcond⟩ := condOf_condCode cond
    exact ⟨n, core_lt_of_wf rfl hwf, spells_branchI (by decide) hcode (hr ▸ reg_lt r) fun w hop hd hs hx => by
      simp [decodeB, hop, hd, hs, hx, hr, hcond]⟩
  case jmp n disp =>
    cases henc
    exact ⟨n, core_lt_of_wf rfl hwf, spells_jump (by decide) (by decide) fun w hop hd hx => by simp [decodeB, hop, hd, hx, givenThat]⟩
  case call n d disp =>
    cases henc
    exact ⟨n, core_lt_of_wf rfl hwf, spells_jump (by decide) (reg_lt d) fun w hop hd hx => by simp [decodeB, hop, hd, hx]⟩
  case jr n d a =>
    cases henc
    exact ⟨n, core_lt_of_wf rfl hwf, spells_jr n d a⟩
  case bdec n a disp =>
    cases henc
    exact ⟨n, core_lt_of_wf rfl hwf, spells_branchI (by decide) (by decide) (reg_lt a) fun w hop hd hs hx => by
      simp [decodeB, hop, hd, hs, hx, givenThat]⟩
  case atArm n d p t =>
    cases henc
    exact ⟨n, core_lt_of_wf rfl hwf, spells_position (pairReg p) t (by decide) (reg_lt d) (by decide) (by decide) fun w hop hd hfn _ => by
      simp [decodePos, hop, hd, hfn]⟩
  case atcan n d a =>
    cases henc
    exact ⟨n, core_lt_of_wf rfl hwf, spells_position a 0 (by decide) (reg_lt d) (by decide) (by decide) fun w hop hd hfn _ => by
      simp [decodePos, hop, hd, hfn]⟩
  case waitp n p =>
    cases henc
    exact ⟨n, core_lt_of_wf rfl hwf, spells_position (pairReg p) 0 (by decide) (by decide) (by decide) (by decide) fun w hop hd hfn _ => by
      simp [decodePos, hop, hd, hfn, hreg]⟩
  case rdlp n d =>
    cases henc
    exact ⟨n, core_lt_of_wf rfl hwf, spells_position 0 0 (by decide) (pair_lt d) (by decide) (by decide) fun w hop hd hfn _ => by
      simp [decodePos, hop, hd, hfn]⟩
  case lpadd n d p t =>
    cases henc
    exact ⟨n, core_lt_of_wf rfl hwf, spells_position (pairReg p) t (by decide) (pair_lt d) (by decide) (by decide) fun w hop hd hfn _ => by
      simp [decodePos, hop, hd, hfn]⟩
  case issue n a tag room =>
    cases henc
    cases room with
    | true => exact absurd rfl (hissue n a tag)
    | false => exact ⟨n, core_lt_of_wf rfl hwf, spells_issue n a tag⟩
  case waitt n d tag upset =>
    cases henc
    cases upset with
    | true => exact absurd rfl (hwaitt n d tag)
    | false => exact ⟨n, core_lt_of_wf rfl hwf, spells_waitt n d tag⟩
  case waita n d upset =>
    cases henc
    cases upset with
    | true => exact absurd rfl (hpop n d).1
    | false => exact ⟨n, core_lt_of_wf rfl hwf, spells_position 0 0 (by decide) (pair_lt d) (by decide) (by decide) fun w hop hd hfn hsh => by
      simp [decodePos, hop, hd, hfn, hsh]⟩
  case cpop n d upset =>
    cases henc
    cases upset with
    | true => exact absurd rfl (hpop n d).2
    | false => exact ⟨n, core_lt_of_wf rfl hwf, spells_position 0 0 (by decide) (pair_lt d) (by decide) (by decide) fun w hop hd hfn hsh => by
      simp [decodePos, hop, hd, hfn, hsh]⟩
  case nop n | halt n | brk n | fence n =>
    cases henc
    exact ⟨n, core_lt_of_wf rfl hwf, spells_system (d := 0) (a := 0) (by decide) rfl⟩
  case rdf n d | rdcyc n d =>
    cases henc
    exact ⟨n, core_lt_of_wf rfl hwf, spells_system (a := 0) (by decide) rfl⟩
  case wrf n a | pchk n a | smark n a =>
    cases henc
    exact ⟨n, core_lt_of_wf rfl hwf, spells_system (d := 0) (by decide) rfl⟩
  case pclr n d a =>
    cases henc
    exact ⟨n, core_lt_of_wf rfl hwf, spells_system (by decide) rfl⟩
  all_goals exact nomatch henc

/-- Settles O58: each format gives back its fields, and the decoder finds each opcode's instruction from them. -/
theorem hergilDecodeOfEncode : Obligations.HergilDecodeOfEncode := by
  intro i ws hwf henc hissue hwaitt hpop
  obtain ⟨n, hn, hlen, hdec⟩ := spells_encodeHergil hwf henc hissue hwaitt hpop
  exact ⟨hlen, n, hn, hdec⟩

end Sys2Proof.Machine
end

section
/-! PROOF. The ALU instructions: results, flags and poison (R128–R130). -/

namespace Sys2Proof.Machine

open Sys2Proof

/-- The data path's operation `f` is the table's `g`: result, and C and V beside the N and Z of the result (R129, R130). -/
def Tabled (f : AluOp) (g : Word → Word → Bool → Word × Bool × Bool) : Prop :=
  ∀ x y c, f x y c = ((g x y c).1, resultFlags (g x y c).1 (g x y c).2.1 (g x y c).2.2)

/-- A logical operation, or another that leaves C and V clear. -/
theorem tabled_plain {f : AluOp} {g : Word → Word → Word} (h : ∀ x y c, f x y c = plain (g x y)) :
    Tabled f fun x y _ => (g x y, false, false) := h

theorem tabled_add : Tabled aluAdd fun x y _ =>
    (x + y, decide (2 ^ 36 ≤ x.toNat + y.toNat), decide ((x + y).toInt ≠ x.toInt + y.toInt)) := by
  intro x y c
  have hzero : x + y + word 0 = x + y := BitVec.add_zero _
  simp [aluAdd, addCarry, b2n, hzero]

theorem tabled_adc : Tabled aluAdc fun x y c =>
    (word (x.toNat + y.toNat + b2n c), decide (2 ^ 36 ≤ x.toNat + y.toNat + b2n c),
      decide ((word (x.toNat + y.toNat + b2n c)).toInt ≠ x.toInt + y.toInt + b2n c)) := by
  intro x y c
  have hsum : x + y + word (b2n c) = word (x.toNat + y.toNat + b2n c) := BitVec.eq_of_toNat_eq (by simp [word])
  simp only [aluAdc, addCarry, hsum]

theorem tabled_sub : Tabled aluSub fun x y _ =>
    (x - y, decide (y.toNat ≤ x.toNat), decide ((x - y).toInt ≠ x.toInt - y.toInt)) := by
  intro x y c
  have hzero : x - y - word 0 = x - y := BitVec.sub_zero _
  simp [aluSub, subBorrow, b2n, hzero]

theorem tabled_sbc : Tabled aluSbc fun x y c =>
    (x - y - word (1 - b2n c), decide (y.toNat + (1 - b2n c) ≤ x.toNat),
      decide ((x - y - word (1 - b2n c)).toInt ≠ x.toInt - y.toInt - (1 - b2n c : Nat))) := by
  intro x y c
  have hborrow : b2n (!c) = 1 - b2n c := by cases c <;> rfl
  simp only [aluSbc, subBorrow, hborrow]

theorem tabled_shl : Tabled aluShl fun x y _ =>
    (word (x.toNat * 2 ^ (y.toNat % 64)), (x.toNat * 2 ^ (y.toNat % 64)).testBit 36, false) := by
  intro x y c
  simp only [aluShl, amount_eq, shl_word, shl_carry]

theorem tabled_shr : Tabled aluShr fun x y _ =>
    (word (x.toNat / 2 ^ (y.toNat % 64)), decide (y.toNat % 64 ≠ 0) && x.getLsbD (y.toNat % 64 - 1), false) := by
  intro x y c
  simp only [aluShr, amount_eq, shr_word, Nat.pos_iff_ne_zero]

theorem tabled_sar : Tabled aluSar fun x y _ =>
    (BitVec.ofInt 36 (x.toInt / 2 ^ (y.toNat % 64)), decide (y.toNat % 64 ≠ 0) && x.getLsbD (min (y.toNat % 64 - 1) 35), false) := by
  intro x y c
  simp only [aluSar, amount_eq, sar_word, sar_carry]

theorem tabled_rol : Tabled aluRol fun x y _ =>
    (word (x.toNat * 2 ^ (y.toNat % 64 % 36)) ||| word (x.toNat / 2 ^ (36 - y.toNat % 64 % 36)), false, false) :=
  tabled_plain fun x y _ => by rw [aluRol, amount_eq, rol_word _ _ (Nat.mod_lt _ (by decide))]

theorem tabled_mul : Tabled aluMul fun x y _ => (word (x.toNat * y.toNat), false, false) :=
  tabled_plain fun x y _ => congrArg plain (BitVec.eq_of_toNat_eq (by simp [word]))

/-- A signed choice between two words by its value. -/
theorem ofInt_ite (p : Prop) [Decidable p] (x y : Word) :
    BitVec.ofInt 36 (if p then x.toInt else y.toInt) = if p then x else y := by
  split <;> exact ofInt_toInt_word _

theorem word_ite (p : Prop) [Decidable p] (x y : Word) : word (if p then x.toNat else y.toNat) = if p then x else y := by
  split <;> exact word_toNat _

theorem tabled_min : Tabled aluMin fun x y _ => (BitVec.ofInt 36 (min x.toInt y.toInt), false, false) :=
  tabled_plain fun x y _ => by rw [min_def, ofInt_ite, aluMin]

theorem tabled_minu : Tabled aluMinu fun x y _ => (word (min x.toNat y.toNat), false, false) :=
  tabled_plain fun x y _ => by rw [min_def, word_ite, aluMinu]

theorem tabled_max : Tabled aluMax fun x y _ => (BitVec.ofInt 36 (max x.toInt y.toInt), false, false) :=
  tabled_plain fun x y _ => by rw [max_def, ofInt_ite, aluMax]

theorem tabled_maxu : Tabled aluMaxu fun x y _ => (word (max x.toNat y.toNat), false, false) :=
  tabled_plain fun x y _ => by rw [max_def, word_ite, aluMaxu]

theorem toNat_word_div (x : Word) (k : Nat) : (word (x.toNat / 2 ^ k)).toNat = x.toNat / 2 ^ k := by
  rw [word, BitVec.toNat_ofNat, Nat.mod_eq_of_lt (Nat.lt_of_le_of_lt (Nat.div_le_self _ _) x.isLt)]

theorem tabled_bfx (width : Fin 36) :
    Tabled (aluBfx (width.val + 1)) fun x y _ => (word (x.toNat / 2 ^ (y.toNat % 64) % 2 ^ (width.val + 1)), false, false) :=
  tabled_plain fun x y _ => by rw [aluBfx, amount_eq, shr_word, and_mask _ _ (by omega), toNat_word_div]

/-! ### One instruction -/

variable {s : State} {n : Nat} {i : Instr} {iw : Word}

/-- An ALU instruction completes with the result, the flags and the poison that the table gives it (R129, R130). -/
theorem alu_completes {d : Nat} {x y : CoreSt → PWord} {f : AluOp} {usesC : Bool} {g : Word → Word → Bool → Word × Bool × Bool}
    (hexec : exec i s = .next (s.hergil n i (aluBody n d x y f usesC))) (hfg : Tabled f g) (h : s.runs n i iw) :
    let c := s.core n
    let z := g (x c).v (y c).v c.cf
    let p := (x c).p || (y c).p || (usesC && c.fp)
    ∃ u, exec i s = .next u ∧
      Went s u n (c.pc + instrLen iw) { c.setReg d ⟨z.1, p⟩ with nf := z.1.msb, zf := z.1 == 0, cf := z.2.1, vf := z.2.2, fp := p } := by
  refine ⟨_, hexec, ?_⟩
  have hw := alu_went (d := d) (x := x) (y := y) (f := f) (usesC := usesC) h
  simp only [hfg _ _ _] at hw
  exact hw

/-- The row `r` of the table is what the data path does for the instruction it names. -/
def AluRow (s : State) (n : Nat) (d a : HReg) (t : Src) (r : Instr × Bool × (Word → Word → Bool → Word × Bool × Bool)) : Prop :=
  ∃ f, exec r.1 s = .next (s.hergil n r.1 (aluBody n d (·.reg a) (·.src t) f r.2.1)) ∧ Tabled f r.2.2

/-- Settles O1: each operation of the data path is its row of the table. -/
theorem aluOperationsComplete : Obligations.AluOperationsComplete := by
  intro s n d a t iw wid r hr
  suffices hrow : AluRow s n d a t r by
    obtain ⟨f, hexec, hfg⟩ := hrow
    exact alu_completes hexec hfg
  revert r
  simp only [List.forall_mem_cons, AluRow]
  exact ⟨⟨_, rfl, tabled_add⟩, ⟨_, rfl, tabled_sub⟩, ⟨_, rfl, tabled_adc⟩, ⟨_, rfl, tabled_sbc⟩,
    ⟨_, rfl, tabled_plain fun _ _ _ => rfl⟩, ⟨_, rfl, tabled_plain fun _ _ _ => rfl⟩, ⟨_, rfl, tabled_plain fun _ _ _ => rfl⟩,
    ⟨_, rfl, tabled_plain fun _ _ _ => rfl⟩, ⟨_, rfl, tabled_shl⟩, ⟨_, rfl, tabled_shr⟩, ⟨_, rfl, tabled_sar⟩,
    ⟨_, rfl, tabled_rol⟩, ⟨_, rfl, tabled_mul⟩, ⟨_, rfl, tabled_plain fun _ _ _ => rfl⟩,
    ⟨_, rfl, tabled_plain fun _ _ _ => rfl⟩, ⟨_, rfl, tabled_min⟩, ⟨_, rfl, tabled_minu⟩, ⟨_, rfl, tabled_max⟩,
    ⟨_, rfl, tabled_maxu⟩, ⟨_, rfl, tabled_bfx wid⟩, List.forall_mem_nil _⟩

/-! ### One operand and a constant (R128, R130) -/

/-- With its second operand the clean word `w`, the operation `f` is the table's `g` of the first. -/
def TabledAt (f : AluOp) (w : Word) (g : Word → Word × Bool × Bool) : Prop :=
  ∀ x c, f x w c = ((g x).1, resultFlags (g x).1 (g x).2.1 (g x).2.2)

theorem toNat_word_fin (k : Fin 64) : (word k.val).toNat % 64 = k.val := by
  rw [word, BitVec.toNat_ofNat]
  omega

theorem tabledAt_shli (sh : Fin 64) : TabledAt aluShl (word sh) fun x =>
    (word (x.toNat * 2 ^ sh.val), (x.toNat * 2 ^ sh.val).testBit 36, false) := by
  intro x c
  simp only [tabled_shl x, toNat_word_fin]

theorem tabledAt_shri (sh : Fin 64) : TabledAt aluShr (word sh) fun x =>
    (word (x.toNat / 2 ^ sh.val), decide (sh.val ≠ 0) && x.getLsbD (sh.val - 1), false) := by
  intro x c
  simp only [tabled_shr x, toNat_word_fin]

theorem tabledAt_sari (sh : Fin 64) : TabledAt aluSar (word sh) fun x =>
    (BitVec.ofInt 36 (x.toInt / 2 ^ sh.val), decide (sh.val ≠ 0) && x.getLsbD (min (sh.val - 1) 35), false) := by
  intro x c
  simp only [tabled_sar x, toNat_word_fin]

theorem tabledAt_roli (sh : Fin 64) : TabledAt aluRol (word sh) fun x =>
    (word (x.toNat * 2 ^ (sh.val % 36)) ||| word (x.toNat / 2 ^ (36 - sh.val % 36)), false, false) := by
  intro x c
  simp only [tabled_rol x, toNat_word_fin]

theorem tabledAt_addi (imm : BitVec 18) : TabledAt aluAdd (sextW imm) fun x =>
    (x + imm.signExtend 36, decide (2 ^ 36 ≤ x.toNat + (imm.signExtend 36).toNat),
      decide ((x + imm.signExtend 36).toInt ≠ x.toInt + imm.toInt)) := by
  intro x c
  have hsigned : (imm.signExtend 36).toInt = imm.toInt := BitVec.toInt_signExtend_of_le (by decide)
  simp only [tabled_add x, sextW, hsigned]

theorem zextW_eq (imm : BitVec 18) : zextW imm = word imm.toNat := BitVec.eq_of_toNat_eq (by simp [zextW, word])

theorem tabledAt_pop : TabledAt aluPop 0 fun x => (word ((List.range 36).filter fun i => x.getLsbD i).length, false, false) := by
  intro x c
  simp only [← pop_eq]
  rfl

theorem tabledAt_clz : TabledAt aluClz 0 fun x => (if x = 0 then 36 else word (35 - Nat.log2 x.toNat), false, false) := by
  intro x c
  simp only [← clz_eq]
  rfl

/-- An ALU instruction with one register operand completes as its row of the table says. -/
theorem unary_completes {d a : Nat} {w : Word} {f : AluOp} {g : Word → Word × Bool × Bool}
    (hexec : exec i s = .next (s.hergil n i (aluBody n d (·.reg a) (immSrc w) f false))) (hfg : TabledAt f w g) (h : s.runs n i iw) :
    let c := s.core n
    let x := c.reg a
    let z := g x.v
    ∃ u, exec i s = .next u ∧
      Went s u n (c.pc + instrLen iw) { c.setReg d ⟨z.1, x.p⟩ with nf := z.1.msb, zf := z.1 == 0, cf := z.2.1, vf := z.2.2, fp := x.p } := by
  refine ⟨_, hexec, ?_⟩
  have hw := alu_went (d := d) (x := (·.reg a)) (y := immSrc w) (f := f) (usesC := false) h
  simp only [immSrc, hfg _ _, Bool.or_false, Bool.false_and] at hw
  exact hw

/-- The row `r` of the table is what the data path does with a constant for the instruction it names. -/
def UnaryRow (s : State) (n : Nat) (d a : HReg) (r : Instr × (Word → Word × Bool × Bool)) : Prop :=
  ∃ f w, exec r.1 s = .next (s.hergil n r.1 (aluBody n d (·.reg a) (immSrc w) f false)) ∧ TabledAt f w r.2

/-- Settles O2: each form is the data path's operation at its constant operand. -/
theorem immediateAndUnaryComplete : Obligations.ImmediateAndUnaryComplete := by
  refine ⟨fun s n d a sh imm xf iw r hr => ?_, fun s n d imm iw h => ?_, fun s n d w iw h => ?_⟩
  · suffices hrow : UnaryRow s n d a r by
      obtain ⟨f, w, hexec, hfg⟩ := hrow
      exact unary_completes hexec hfg
    revert r
    simp only [List.forall_mem_cons, ← zextW_eq, UnaryRow]
    exact ⟨⟨_, _, rfl, tabledAt_shli sh⟩, ⟨_, _, rfl, tabledAt_shri sh⟩, ⟨_, _, rfl, tabledAt_sari sh⟩,
      ⟨_, _, rfl, tabledAt_roli sh⟩, ⟨_, _, rfl, tabledAt_addi imm⟩, ⟨_, _, rfl, fun _ _ => rfl⟩, ⟨_, _, rfl, fun _ _ => rfl⟩,
      ⟨_, _, rfl, fun _ _ => rfl⟩, ⟨_, 0, rfl, fun _ _ => rfl⟩, ⟨_, 0, rfl, tabledAt_pop⟩, ⟨_, 0, rfl, tabledAt_clz⟩, List.forall_mem_nil _⟩
  · have hlui : zextW imm <<< 18 = word (imm.toNat * 2 ^ 18) := by
      rw [shl_word, zextW_eq]
      simp only [word, BitVec.toNat_ofNat, Nat.mod_eq_of_lt (Nat.lt_trans imm.isLt (show 2 ^ 18 < 2 ^ 36 by decide))]
    have hw := alu_went (d := d) (x := noSrc) (y := immSrc (zextW imm)) (f := aluLui) (usesC := false) h
    simp only [aluLui, plain, immSrc, hlui] at hw
    exact ⟨_, false, false, rfl, hw⟩
  · exact ⟨_, rfl, done_core (ea := 0) (f := fun c => c.setReg d ⟨w, false⟩) h (fun _ _ _ _ => rfl) (runs_lt h)⟩

/-! ### Flags alone (R130) -/

/-- An ALU instruction whose result goes to `g0` writes its flags alone. -/
theorem compare_completes {x y : CoreSt → PWord} {f : AluOp} {g : Word → Word → Word × Bool × Bool}
    (hexec : exec i s = .next (s.hergil n i (aluBody n 0 x y f false))) (hfg : Tabled f fun x y _ => g x y) (h : s.runs n i iw) :
    let c := s.core n
    let z := g (x c).v (y c).v
    let p := (x c).p || (y c).p
    ∃ u, exec i s = .next u ∧
      Went s u n (c.pc + instrLen iw) { c with nf := z.1.msb, zf := z.1 == 0, cf := z.2.1, vf := z.2.2, fp := p } := by
  obtain ⟨u, hu, hw⟩ := alu_completes hexec hfg h
  simp only [CoreSt.setReg, if_pos, Bool.false_and, Bool.or_false] at hw
  exact ⟨u, hu, hw⟩

/-- The row `r` of the table is what the data path does, its result discarded, for the instruction it names. -/
def CompareRow (s : State) (n : Nat) (a : HReg) (r : Instr × (CoreSt → PWord) × (Word → Word → Word × Bool × Bool)) : Prop :=
  ∃ f, exec r.1 s = .next (s.hergil n r.1 (aluBody n 0 (·.reg a) r.2.1 f false)) ∧ Tabled f fun x y _ => r.2.2 x y

/-- Settles O3: the operations of sub and and, with their result discarded. -/
theorem compareWritesFlagsOnly : Obligations.CompareWritesFlagsOnly := by
  intro s n a t imm iw r hr
  suffices hrow : CompareRow s n a r by
    obtain ⟨f, hexec, hfg⟩ := hrow
    exact compare_completes (x := (·.reg a)) (y := r.2.1) (g := r.2.2) hexec hfg
  revert r
  simp only [List.forall_mem_cons, CompareRow]
  exact ⟨⟨_, rfl, tabled_sub⟩, ⟨_, rfl, tabled_sub⟩, ⟨_, rfl, tabled_plain fun _ _ _ => rfl⟩, List.forall_mem_nil _⟩

end Sys2Proof.Machine
end

section
/-! PROOF. Branches, calls and exceptions of the operands (R85, R126, R131, R134, R138, R140, R158, R160, R162). -/

namespace Sys2Proof.Machine

open Sys2Proof Ev Reg

variable {s t u v : State} {n : Nat} {i : Instr} {iw : Word} {body : Nat → State → Run}

/-! ### A REMAP that waits takes effect on a branch taken (R110) -/

theorem remap_apart (n : Nat) : CORE_CTL_REMAP.addr n 0 0 ≠ alertAddr ∧ CORE_CTL_REMAP.addr n 0 0 ≠ coreStat n := by
  rw [alertAddr_eq, coreStat, addr_coreStat]
  simp only [Field.addr, CORE_CTL_REMAP]
  omega

/-- A taken branch leaves no REMAP waiting, and the rest of its core as it was. -/
theorem core_branched (s : State) (n : Nat) : (s.branched n).core n = { s.core n with remapPend := none } := by
  unfold State.branched
  split
  · next h => exact congrArg (fun r => { s.core n with remapPend := r }) h
  · rw [core_wr, core_setCore]

/-- What is beside an instruction stays so when both states take the branch. -/
theorem beside_branched (h : Beside s v n) (hp : (v.core n).remapPend = (s.core n).remapPend) :
    Beside (s.branched n) (v.branched n) n := by
  obtain ⟨halert, hstat⟩ := remap_apart n
  unfold State.branched
  rw [hp]
  cases (s.core n).remapPend with
  | none => exact h
  | some b =>
    refine ⟨?_, fun a ha hb => ?_, fun k hk => ?_⟩
    · rw [h.same]
      rfl
    · exact reg_wr_congr (h.regs _ halert hstat) (h.regs a ha hb)
    · rw [core_wr, core_wr, core_setCore_ne _ _ hk, core_setCore_ne _ _ hk, h.others k hk]

theorem coreStat_branched (s : State) (n : Nat) : (s.branched n).reg (coreStat n) = s.reg (coreStat n) := by
  unfold State.branched
  split
  · rfl
  · exact reg_setReg_ne _ _ (remap_apart n).2.symm

/-- An instruction that takes a branch after the change `g` of its core alone (R131, R138). -/
theorem branch_went {g : State → State} {f : CoreSt → CoreSt} {target ea : Nat} (h : s.runs n i iw)
    (hg : ∀ u, Beside u (g u) n ∧ (g u).reg (coreStat n) = u.reg (coreStat n) ∧ (g u).core n = f (u.core n))
    (hf : ∀ c, (f c).remapPend = c.remapPend)
    (hd : ∀ u, u.core n = s.core n → body ((s.core n).pc + instrLen iw) u = .done ((g u).branched n) target ea)
    (ht : target < 2 ^ 30) :
    Went (s.branched n) (s.hergil n i body) n target { f (s.core n) with remapPend := none } := by
  obtain ⟨hb, u, hfetch⟩ := h
  have hu := (fetch_noted hfetch).1
  obtain ⟨hbeside, hstat, hcore⟩ := hg u
  have hcore' : (g u).core n = f (s.core n) := hcore.trans (congrArg f (hu.core n))
  rw [hergil_runs hb hfetch, hd u (hu.core n)]
  have hw := (retire_went ((g u).branched n) n (u.core n).pc iw target ea ht).congr
    (beside_branched ((hu.beside n).trans hbeside) (by rw [hcore', hf]))
    (by rw [coreStat_branched, coreStat_branched, hstat, hu.regs _ (alert_ne_stat n)])
  rwa [core_branched, hcore'] at hw

/-- A branch that writes no register. -/
theorem jump_went {target ea : Nat} (h : s.runs n i iw)
    (hd : ∀ u, u.core n = s.core n → body ((s.core n).pc + instrLen iw) u = .done (u.branched n) target ea) (ht : target < 2 ^ 30) :
    Went (s.branched n) (s.hergil n i body) n target ((s.branched n).core n) := by
  rw [core_branched]
  exact branch_went (g := id) (f := id) h (fun u => ⟨Beside.refl u n, rfl, rfl⟩) (fun _ => rfl) hd ht

theorem setReg_unmapped (c : CoreSt) (r : Nat) (x : PWord) :
    { c.setReg r x with remapPend := none } = ({ c with remapPend := none } : CoreSt).setReg r x := by
  unfold CoreSt.setReg
  split <;> rfl

theorem remapPend_setReg (c : CoreSt) (r : Nat) (x : PWord) : (c.setReg r x).remapPend = c.remapPend := by
  unfold CoreSt.setReg
  split <;> rfl

/-- A branch that writes the word `x` to a register. -/
theorem link_went {r target ea : Nat} {x : PWord} (h : s.runs n i iw)
    (hd : ∀ u, u.core n = s.core n →
      body ((s.core n).pc + instrLen iw) u = .done ((u.setCore n ((u.core n).setReg r x)).branched n) target ea)
    (ht : target < 2 ^ 30) : Went (s.branched n) (s.hergil n i body) n target (((s.branched n).core n).setReg r x) := by
  rw [core_branched, ← setReg_unmapped]
  exact branch_went (g := fun u => u.setCore n ((u.core n).setReg r x)) (f := fun c => c.setReg r x) h
    (fun u => ⟨beside_setCore u n _, rfl, core_setCore _ _ _⟩) (fun c => remapPend_setReg c r x) hd ht

/-! ### Conditions (R131) -/

/-- Whether the condition holds for a core: of its register, or of its flags. -/
def CoreSt.meets (c : CoreSt) (cond : Cond) : Bool :=
  match condReg cond with
  | some (r, f) => f (c.reg r).v
  | none => c.flags.holds cond

/-- What the condition reads is clean (R158). -/
def CoreSt.readsClean (c : CoreSt) (cond : Cond) : Prop :=
  match condReg cond with
  | some (r, _) => (c.reg r).p = false
  | none => cond = .al ∨ c.fp = false

theorem brBody_clean {cond : Cond} {disp : BitVec 18} {next : Nat} (h : (s.core n).readsClean cond) :
    brBody n cond disp next s =
      if (s.core n).meets cond then s.branchTo n (relTarget (s.core n).pc disp) else .done s next 0 := by
  unfold CoreSt.readsClean at h
  unfold brBody CoreSt.meets
  cases hc : condReg cond with
  | some p =>
    simp only [hc] at h
    simp [h]
  | none =>
    simp only [hc] at h
    have hp : ¬ (cond ≠ .al ∧ (s.core n).fp = true) := by
      rintro ⟨hne, htrue⟩
      rcases h with h | h
      · exact hne h
      · rw [h] at htrue
        cases htrue
    simp only [if_neg hp]

theorem exec_br {cond : Cond} {disp : BitVec 18} (h : s.runs n (.br n cond disp) iw) (hclean : (s.core n).readsClean cond) :
    ∃ t, exec (.br n cond disp) s = .next t ∧
      if (s.core n).meets cond = true then Went (s.branched n) t n (relTarget (s.core n).pc disp) ((s.branched n).core n)
      else Went s t n ((s.core n).pc + instrLen iw) (s.core n) := by
  refine ⟨_, rfl, ?_⟩
  split
  · next hmeets =>
    refine jump_went (ea := 0) h (fun u hcore => ?_) (relTarget_lt _ _)
    rw [brBody_clean (by rwa [hcore]), hcore, if_pos hmeets]
    rfl
  · next hmeets =>
    refine done_same (ea := 0) h (fun u hcore _ _ => ?_) (runs_lt h)
    rw [brBody_clean (by rwa [hcore]), hcore, if_neg hmeets]

theorem exec_bdec {a : HReg} {disp : BitVec 18} (h : s.runs n (.bdec n a disp) iw) (hp : ((s.core n).reg a).p = false) :
    let x := ((s.core n).reg a).v - 1
    ∃ t, exec (.bdec n a disp) s = .next t ∧
      if x = 0 then Went s t n ((s.core n).pc + instrLen iw) ((s.core n).setReg a ⟨x, false⟩)
      else Went (s.branched n) t n (relTarget (s.core n).pc disp) (((s.branched n).core n).setReg a ⟨x, false⟩) := by
  intro x
  refine ⟨_, rfl, ?_⟩
  split
  · next hx =>
    refine done_core (ea := 0) (f := fun c => c.setReg a ⟨x, false⟩) h (fun u hcore _ _ => ?_) (runs_lt h)
    simp only [bdecBody, hcore, hp, Bool.false_eq_true, if_false, ne_eq, x, hx, not_true_eq_false]
  · next hx =>
    refine link_went (ea := 0) h (fun u hcore => ?_) (relTarget_lt _ _)
    simp only [bdecBody, hcore, hp, Bool.false_eq_true, if_false, ne_eq, x, hx, not_false_eq_true, if_true, State.branchTo]

theorem beq_eq_not_xor (a b : Bool) : (a == b) = !(a ^^ b) := by
  cases a <;> cases b <;> rfl

/-- Settles O4: a branch not taken changes nothing, and a branch taken lets the REMAP that waits take effect. -/
theorem branchesComplete : Obligations.BranchesComplete := by
  refine ⟨?_, fun s n disp iw h => ⟨_, rfl, ?_⟩, fun s n d disp iw h => ⟨_, rfl, ?_⟩,
    fun s n d a iw h hp hlt => ⟨_, rfl, ?_⟩, fun s n a disp iw h hp => exec_bdec h hp⟩
  · intro s n cond disp iw h c hclean holds
    have hholds : holds = c.meets cond := by
      cases cond <;> simp [holds, CoreSt.meets, condReg, Flags.holds, CoreSt.flags, beq_eq_not_xor]
    rw [hholds]
    exact exec_br h hclean
  · exact jump_went (ea := 0) h (fun u hcore => by rw [hcore]; rfl) (relTarget_lt _ _)
  · exact link_went (ea := 0) h (fun u hcore => by rw [hcore]; rfl) (relTarget_lt _ _)
  · refine link_went (ea := ((s.core n).reg a).v.toNat) h (fun u hcore => ?_) hlt
    simp only [jrBody, hcore, hp, Bool.false_eq_true, if_false]

/-! ### Exceptions (R162) -/

/-- An exception after what the fetch and the reads before it noted. -/
theorem raiseExc_noted (h : Noted s u) (n code : Nat) : Faulted s (u.raiseExc n (s.core n).pc code) n code := by
  have hf := raiseExc_faulted u n code
  have hstat := h.regs _ (alert_ne_stat n)
  obtain ⟨hbeside, hcore, hreg, hraised⟩ := hf
  rw [h.core n] at hbeside hcore hreg hraised
  refine ⟨(h.beside n).trans hbeside, hcore, hreg.trans ?_, Code.raised_of_now hraised ?_⟩
  · exact reg_wr_congr (reg_wr_congr hstat hstat) (reg_wr_congr hstat hstat)
  · rw [h.same]

/-- Settles O7: brk and the illegal word end in their exceptions with nothing else changed. -/
theorem breakAndIllegalFault : Obligations.BreakAndIllegalFault := by
  refine ⟨fun s n iw h => ⟨_, rfl, trap_core h fun _ _ _ _ => rfl⟩, fun s u n hb hf => ⟨u.raiseExc n (s.core n).pc 1, ?_,
    raiseExc_noted (fetch_illegal_noted hf) n 1⟩⟩
  show execIllegalInstruction n s = _
  simp only [execIllegalInstruction, hb, hf, Bool.not_true, Bool.false_eq_true, if_false]
  rfl

/-- The instruction `r` judges the address of `m` and its base before any access (R158, R162). -/
def JudgesAddress (s : State) (n : Nat) (m : MemArgs) (r : Instr × Nat × Bool) : Prop :=
  ∃ body, exec r.1 s = .next (s.hergil n r.1 body) ∧ ∀ next u code,
    addrFault (memAddr m r.2.1 ((u.core n).reg m.b).v) r.2.2 ((u.core n).reg m.b) = some code → body next u = .trap u code

theorem JudgesAddress.faulted {m : MemArgs} {r : Instr × Nat × Bool} {code : Nat} (hj : JudgesAddress s n m r)
    (h : s.runs n r.1 iw)
    (hf : addrFault (memAddr m r.2.1 ((s.core n).reg m.b).v) r.2.2 ((s.core n).reg m.b) = some code) :
    ∃ t, exec r.1 s = .next t ∧ Faulted s t n code := by
  obtain ⟨body, hexec, hbody⟩ := hj
  exact ⟨_, hexec, trap_core h fun u hcore _ _ => hbody _ u code (by rwa [hcore])⟩

theorem addrFault_addr {ea : Word} {pair : Bool} {b : PWord} (h : 2 ^ 30 ≤ ea.toNat) : addrFault ea pair b = some 2 := if_pos h

theorem addrFault_align {ea : Word} {b : PWord} (hlt : ea.toNat < 2 ^ 30) (hodd : ea.toNat % 2 = 1) :
    addrFault ea true b = some 3 := by
  rw [addrFault, if_neg (Nat.not_le.2 hlt), if_pos (by simpa using hodd)]
  rfl

theorem addrFault_poison {ea : Word} {pair : Bool} {b : PWord} (hlt : ea.toNat < 2 ^ 30) (heven : pair = true → ea.toNat % 2 = 0)
    (hp : b.p = true) : addrFault ea pair b = some 4 := by
  have hodd : ¬ (pair && decide (ea.toNat % 2 = 1)) = true := by
    cases pair with
    | false => exact Bool.false_ne_true
    | true => simp [heven rfl]
  rw [addrFault, if_neg (Nat.not_le.2 hlt), if_neg hodd, if_pos hp]
  rfl

/-- Settles O8: each operand is judged before anything is changed. -/
theorem operandExceptions : Obligations.OperandExceptions := by
  refine ⟨?_, ?_, ?_, ?_, ?_, ?_, ?_⟩
  · intro s n d p m iw r hr h
    have hj : JudgesAddress s n m r := by
      clear h
      revert r
      simp only [List.forall_mem_cons, JudgesAddress]
      refine ⟨⟨_, rfl, fun _ _ _ h => ?_⟩, ⟨_, rfl, fun _ _ _ h => ?_⟩, ⟨_, rfl, fun _ _ _ h => ?_⟩, ⟨_, rfl, fun _ _ _ h => ?_⟩,
        ⟨_, rfl, fun _ _ _ h => ?_⟩, ⟨_, rfl, fun _ _ _ h => ?_⟩, List.forall_mem_nil _⟩
      · simp only [ldBody, h]
      · simp only [stBody, h]
      · simp only [atomicBody, h]
      · simp only [atomicBody, h]
      · simp only [ldpBody, h]
      · simp only [stpBody, h]
    exact ⟨fun hbig => hj.faulted h (addrFault_addr hbig),
      fun hlt hpair hodd => hj.faulted h (by rw [hpair]; exact addrFault_align hlt hodd),
      fun hlt heven hp => hj.faulted h (addrFault_poison hlt heven hp)⟩
  · intro s n disp iw h hp
    refine ⟨_, rfl, trap_core h fun u hcore _ _ => ?_⟩
    simp [brBody, condReg, hcore, hp, xPoison]
  · intro s n d a iw h hp
    refine ⟨_, rfl, trap_core h fun u hcore _ _ => ?_⟩
    simp [jrBody, hcore, hp, xPoison]
  · intro s n a disp iw h hp
    refine ⟨_, rfl, trap_core h fun u hcore _ _ => ?_⟩
    simp [bdecBody, hcore, hp, xPoison]
  · intro s n p iw lp h hp
    refine ⟨_, rfl, trap_core h fun u hcore _ _ => ?_⟩
    simp [waitpBody, hcore, hp, xPoison]
  · intro s n p iw h hp
    refine ⟨_, rfl, trap_core h fun u hcore _ _ => ?_⟩
    simp [waitpBody, hcore, hp, xLpBad]
  · intro s n d p r q iw h hp
    refine ⟨_, rfl, trap_core h fun u hcore _ _ => ?_⟩
    simp [lpaddBody, hcore, hp, xLpBad]

end Sys2Proof.Machine
end

section
/-! PROOF. Position instructions, atomics, issue and the completion instructions (R9, R10, R137–R141, R147–R150). -/

namespace Sys2Proof.Machine

open Sys2Proof Ev Reg

variable {s t u v : State} {n : Nat} {i : Instr} {iw : Word} {body : Nat → State → Run}

/-! ### The clock (R9, R139) -/

theorem clockLp_eq (s : State) : s.clockLp = s.now / 4 * 4 := Nat.mul_comm _ _

theorem clockLp_of_now (h : t.now = s.now) : t.clockLp = s.clockLp := by rw [clockLp_eq, clockLp_eq, h]

theorem clock_of_now (h : t.now = s.now) : t.clock = s.clock := congrArg (· / 4) h

/-- Word A as a register holds it: the superframe number in 36 bits. -/
theorem word_lpA (lp : Nat) : word (lpA lp) = word (lp / 4096000000) :=
  BitVec.eq_of_toNat_eq (by simp [word, lpA, ticksSf])

/-- The two words of a position, as rdlp and lpadd write them. -/
theorem lpWords_eq (lp : Nat) (q : Bool) : (⟨word (lpA lp), q⟩ : PWord) = ⟨word (lp / 4096000000), q⟩ ∧
    (⟨word (lpB lp), q⟩ : PWord) = ⟨word (lp % 4096000000 / 500000 * 2 ^ 23 + lp % 500000 * 2 ^ 4), q⟩ := by
  rw [word_lpA, lpB_eq]
  exact ⟨rfl, rfl⟩

/-- An instruction that waits ends when what it waits for has come (R139, R147, R150). -/
theorem settle_went (s : State) (n : Nat) (i : Instr) (iw : Word) (c : CoreSt) {next : Nat} (ea : Nat) (h : next < 2 ^ 30) :
    Went s (s.settle n i iw (.done (s.setCore n c) next ea)) n next c := by
  have hw := (retire_went (s.setCore n c) n (s.core n).pc iw next ea h).congr (beside_setCore s n c) rfl
  rwa [core_setCore] at hw

theorem afterWait_lt (s : State) (n : Nat) : s.afterWait n < 2 ^ 30 := Nat.mod_lt _ (by decide)

theorem exec_waitp {p : HPair} {lp : Nat} (h : s.runs n (.waitp n p) iw) (hlp : (s.core n).lpPair p = (false, some lp)) :
    ∃ t, exec (.waitp n p) s = .next t ∧
      (lp ≤ s.now / 4 * 4 →
        Went s t n ((s.core n).pc + instrLen iw) { s.core n with cf := decide (lp < s.now / 4 * 4), fp := false }) ∧
      (s.now / 4 * 4 < lp → Stays s t n (.waitp n p) iw) := by
  refine ⟨_, rfl, fun hreached => ?_, fun hfuture => ?_⟩
  · refine done_core (ea := 0) (f := fun c => c.setC (decide (lp < s.now / 4 * 4))) h (fun u hcore hnow _ => ?_) (runs_lt h)
    simp only [waitpBody, hcore, hlp, clockLp_eq, hnow, hreached, if_true]
  · obtain ⟨hb, u, hf⟩ := h
    have hu := (fetch_noted hf).1
    have hnow : u.now = s.now := by rw [hu.same]
    refine hergil_stays hb hf ?_
    simp only [waitpBody, hu.core, hlp, clockLp_eq, hnow, Nat.not_le.2 hfuture, if_false]

/-- Settles O5: each reads the LP of the clock, and a wait ends as the instruction would have. -/
theorem positionInstructionsComplete : Obligations.PositionInstructionsComplete := by
  refine ⟨fun s n p iw lp h hlp => exec_waitp h hlp, fun s n p q lp hwait hlp hreached => ⟨_, rfl, ?_⟩,
    fun s n d iw h => ⟨_, rfl, ?_⟩, fun s n d p r iw q lp h hlp hlt => ⟨_, rfl, ?_⟩⟩
  · rw [← clockLp_eq] at hreached
    simp only [hwait, hlp, hreached, if_true]
    exact settle_went s n _ _ _ 0 (afterWait_lt s n)
  · obtain ⟨hA, hB⟩ := lpWords_eq (s.now / 4 * 4) false
    rw [← hA, ← hB]
    refine done_core (ea := 0) (f := fun c => c.setPair d ⟨word (lpA (s.now / 4 * 4)), false⟩ ⟨word (lpB (s.now / 4 * 4)), false⟩)
      h (fun u hcore hnow _ => ?_) (runs_lt h)
    rw [← hnow, ← clockLp_eq]
  · obtain ⟨hA, hB⟩ := lpWords_eq (lp + ((s.core n).reg r).v.toNat) (q || ((s.core n).reg r).p)
    rw [← hA, ← hB]
    refine done_core (ea := 0) (f := fun c => c.setPair d ⟨word (lpA (lp + ((s.core n).reg r).v.toNat)), q || ((s.core n).reg r).p⟩
      ⟨word (lpB (lp + ((s.core n).reg r).v.toNat)), q || ((s.core n).reg r).p⟩) h (fun u hcore _ _ => ?_) (runs_lt h)
    have hfits : ¬ 2 ^ 36 * ticksSf ≤ lp + ((s.core n).reg r).v.toNat := Nat.not_le.2 hlt
    simp only [lpaddBody, hcore, hlp, if_neg hfits]

/-! ### Atomics (R137) -/

/-- An atomic reads the old word and writes `f` of it and d in one step, `g` the values of what `f` gives. -/
theorem atomic_went {d : HReg} {m : MemArgs} {f : PWord → PWord → PWord} {g : Nat}
    (hrun : s.runs n i iw) (hlt : (memAddr m 1 ((s.core n).reg m.b).v).toNat < 2 ^ 30) (hp : ((s.core n).reg m.b).p = false)
    (hr : s.resolve n (memAddr m 1 ((s.core n).reg m.b).v).toNat true = .ok (.mem g)) (hbl : s.blocked n .core (.mem g) = false) :
    let old := (s.memAt g).deliver 15
    let t := s.hergil n i (atomicBody n d m f)
    t.mem = (s.memWrite g 15 (f old ((s.core n).reg d))).mem ∧
      Went { s with mem := t.mem } t n ((s.core n).pc + instrLen iw) (((s.core n).stepBase m 1).setReg d old) := by
  intro old t
  obtain ⟨hb, u, hf⟩ := hrun
  have hu := fetch_placed hf
  have hold : (u.memRead g 15).1 = old := congrArg (·.deliver 15) (hu.memAt g)
  have hnoted : Noted s (u.memRead g 15).2 := hu.toNoted.trans (memRead_noted u g 15)
  generalize hread : u.memRead g 15 = r at hold hnoted
  have hres := (hu.resolve n _ true).trans hr
  have hfree := (hu.blocked n .core _).trans hbl
  have hcore : (r.2.memWrite g 15 (f old ((s.core n).reg d))).core n = s.core n := hnoted.core n
  have hw : Went (r.2.memWrite g 15 (f old ((s.core n).reg d))) t n ((s.core n).pc + instrLen iw)
      (((s.core n).stepBase m 1).setReg d old) := by
    refine hergil_went hb hf (ea := (memAddr m 1 ((s.core n).reg m.b).v).toNat) ?_
    simp only [atomicBody, hu.core, addrFault_none hlt (pair := false) nofun hp, hres, hfree, Bool.false_eq_true, if_false, hread,
      hold, hcore]
  obtain ⟨hmem, hwent⟩ := hw.of_stored hnoted rfl
  refine ⟨hmem.trans ?_, hwent⟩
  rw [hnoted.same]
  rfl

/-- The instruction `r` is an atomic whose word is the table's (R137). -/
def AtomicRow (s : State) (n : Nat) (d : HReg) (m : MemArgs) (r : Instr × (Word → Word → Word)) : Prop :=
  ∃ f : PWord → PWord → PWord, exec r.1 s = .next (s.hergil n r.1 (atomicBody n d m f)) ∧ ∀ x y, f x y = ⟨r.2 x.v y.v, x.p || y.p⟩

/-- Settles O11: the word read is the word that is written over, in one step. -/
theorem atomicsComplete : Obligations.AtomicsComplete := by
  intro s n g d m iw r hr hrun c b ea old hlt hp hres hfree
  have hrow : AtomicRow s n d m r := by
    clear hrun
    revert r
    simp only [List.forall_mem_cons, AtomicRow]
    exact ⟨⟨aaddWord, rfl, fun _ _ => rfl⟩, ⟨aswpWord, rfl, fun _ _ => rfl⟩, List.forall_mem_nil _⟩
  obtain ⟨f, hexec, hf⟩ := hrow
  obtain ⟨hmem, hw⟩ := atomic_went (d := d) (f := f) hrun hlt hp hres hfree
  refine ⟨_, hexec, (memAt_of_mem hmem g).trans ?_, fun a ha => (memAt_of_mem hmem a).trans (memAt_memWrite_ne s _ _ ha), hw⟩
  rw [memAt_memWrite, hf]

/-! ### `issue` (R147) -/

/-- A core's outstanding operations replaced: the core, and ENG_OUT. -/
theorem core_setOps (s : State) (n : Nat) (l : List EngOp) : (s.setOps n l).core n = { s.core n with ops := l } := by
  rw [State.setOps, core_wr, core_setCore]

/-- Changing a core twice leaves the registers. -/
theorem reg_setCore_twice (s : State) (n : Nat) (c c' : CoreSt) (a : Nat) :
    ((s.setCore n c).setCore n c').reg a = s.reg a := by
  rw [reg_setCore, reg_setCore]

/-- A core changed and its outstanding operations replaced: beside it, ENG_OUT alone is written. -/
theorem beside_setOps_setCore (s : State) (n : Nat) (c : CoreSt) (l : List EngOp) :
    Beside (s.wr CORE_STAT_ENG_OUT l.length n) ((s.setCore n c).setOps n l) n := by
  refine ⟨rfl, fun a _ _ => reg_wr_congr (reg_setCore_twice s n _ _ _) (reg_setCore_twice s n _ _ _), fun k hk => ?_⟩
  rw [State.setOps, core_wr, core_wr, core_setCore_ne _ _ hk, core_setCore_ne _ _ hk]

theorem coreStat_setOps_setCore (s : State) (n : Nat) (c : CoreSt) (l : List EngOp) :
    ((s.setCore n c).setOps n l).reg (coreStat n) = (s.wr CORE_STAT_ENG_OUT l.length n).reg (coreStat n) :=
  reg_wr_congr (reg_setCore_twice s n _ _ _) (reg_setCore_twice s n _ _ _)

/-- An engine with room takes the operation and the core goes on (R147 steps 5 and 6). -/
theorem post_went (s : State) (n tag pc : Nat) (iw w : Word) (desc : List PWord) (ea' : Nat) {next : Nat} (ea : Nat)
    (h : next < 2 ^ 30) :
    let c := s.core n
    let o : EngOp := { tag := tag, unit := descUnit desc, desc := desc, accepted := s.now, pc := c.pc, iw := w, ea := ea' }
    Went (s.wr CORE_STAT_ENG_OUT (c.ops.length + 1) n) (((s.setCore n (c.takeTag tag)).accept n o).retire n pc iw next ea) n next
      { c with busy := tag :: c.busy, ops := c.ops ++ [o] } := by
  intro c o
  have hops : ((s.setCore n (c.takeTag tag)).core n).ops ++ [o] = c.ops ++ [o] := by
    rw [core_setCore]
    rfl
  have hlen : (c.ops ++ [o]).length = c.ops.length + 1 := List.length_append
  rw [State.accept, hops, ← hlen]
  have hw := (retire_went ((s.setCore n (c.takeTag tag)).setOps n (c.ops ++ [o])) n pc iw next ea h).congr
    (beside_setOps_setCore s n _ _) (coreStat_setOps_setCore s n _ _)
  rwa [core_setOps, core_setCore] at hw

/-- Nothing waits at a core that begins an instruction. -/
theorem begins_wait (h : s.begins n = true) : (s.core n).wait = none := by
  unfold State.begins at h
  simpa using (Bool.and_eq_true_iff.1 h).2

theorem Noted.domainBusy (h : Noted s t) (k : Nat) (g : Agent) : t.domainBusy k g = s.domainBusy k g := by
  rw [State.domainBusy, State.domainBusy, show t.mtx = s.mtx by rw [h.same]]

/-- What `issue` comes to once its descriptor is read. -/
theorem issueBody_reads {a : HReg} {tag : TagSrc} {desc : List PWord} (room : Bool) (next : Nat) (hu : Noted s u)
    (hb : s.begins n = true) (hp : ((s.core n).reg a).p = false) (htag : (s.core n).tagPoison tag = false)
    (hfree : (s.core n).busy.contains ((s.core n).tag tag) = false) (hdom : s.domainBusy n .core = false)
    (hdesc : u.readDesc n ((s.core n).reg a).v.toNat = .ok v desc) :
    issueBody n a tag room next u =
      v.postOp n ((s.core n).tag tag) desc (u.wordAt n) ((s.core n).reg a).v.toNat room next := by
  simp only [issueBody, hu.core, begins_wait hb, hp, htag, CoreSt.isBusy, hfree, hu.domainBusy, hdom, hdesc, Option.isSome_none,
    Bool.or_self, Bool.false_eq_true, if_false]

/-- Settles O14: the descriptor is read once, and what follows is the engine's taking it or the core's waiting. -/
theorem issueComplete : Obligations.IssueComplete := by
  refine ⟨?_, ?_⟩
  · intro s u v n a tag iw desc hb hf ea hp htag hfree hdom hdesc c
    have hbody := fun room => issueBody_reads room ((s.core n).pc + instrLen iw) (fetch_noted hf).1 hb hp htag hfree hdom hdesc
    refine ⟨⟨_, rfl, ?_⟩, ⟨_, rfl, ?_⟩⟩
    · rw [hergil_runs hb hf, hbody]
      exact post_went v n _ _ iw _ desc ea ea (next_lt hf)
    · rw [hergil_runs hb hf, hbody]
      refine ⟨(beside_setCore v n _).trans (beside_setCore _ n _), ?_, rfl⟩
      show ((v.setCore n _).setCore n _).core n = _
      rw [core_setCore, core_setCore]
  · intro s n a tag r hwait hdesc c
    have hne : c.waitDesc.isEmpty = false := by simpa using hdesc
    refine ⟨_, rfl, ?_⟩
    simp only [hwait, c, hne, Bool.false_eq_true, if_false]
    exact post_went s n _ _ _ _ _ _ _ (afterWait_lt s n)

/-! ### Taking completions (R148–R150) -/

/-- The core once the entry `e` is taken into the pair `d`. -/
def CoreSt.takes (c : CoreSt) (d : HPair) (e : RingEnt) : CoreSt :=
  { ({ c with ring := c.ring.filter fun x => x.tag ≠ e.tag, busy := c.busy.filter (· ≠ e.tag) : CoreSt }.setPair d
      ⟨word (e.tag * 2 ^ 30 + e.unit * 2 ^ 27 + e.status * 2 ^ 18 + e.count % 2 ^ 18), false⟩ e.result) with
    nf := false, zf := decide (e.status = 0), cf := false, vf := false, fp := e.result.p }

theorem takeEntry_eq (s : State) (n : Nat) (d : HPair) (e : RingEnt) (next : Nat) :
    s.takeEntry n d e false next = .done (s.setCore n ((s.core n).takes d e)) next 0 := by
  simp only [State.takeEntry, State.noteUpset, Bool.false_eq_true, if_false, Bool.or_false]
  rfl

/-- An instruction that takes an entry. -/
theorem takes_went {d : HPair} {e : RingEnt} (h : s.runs n i iw)
    (hd : ∀ u, u.core n = s.core n → u.now = s.now → body ((s.core n).pc + instrLen iw) u = u.takeEntry n d e false ((s.core n).pc + instrLen iw)) :
    Went s (s.hergil n i body) n ((s.core n).pc + instrLen iw) ((s.core n).takes d e) :=
  done_core (ea := 0) (f := fun c => c.takes d e) h (fun u hcore hnow _ => (hd u hcore hnow).trans (takeEntry_eq _ _ _ _ _)) (runs_lt h)

/-- A wait for a completion that ends. -/
theorem settle_takes (s : State) (n : Nat) (i : Instr) (iw : Word) (d : HPair) (e : RingEnt) :
    Went s (s.settle n i iw (s.takeEntry n d e false (s.afterWait n))) n (s.afterWait n) ((s.core n).takes d e) := by
  rw [takeEntry_eq]
  exact settle_went s n i iw _ 0 (afterWait_lt s n)

/-- An instruction that waits for a completion where it is. -/
theorem stays_of_body (h : s.runs n i iw)
    (hd : ∀ u, u.core n = s.core n → u.now = s.now → body ((s.core n).pc + instrLen iw) u = .stay u) :
    Stays s (s.hergil n i body) n i iw := by
  obtain ⟨hb, u, hf⟩ := h
  have hu := (fetch_noted hf).1
  exact hergil_stays hb hf (hd u (hu.core n) (by rw [hu.same]))

/-- An instruction that finds no operation to wait for: STATUS 511, counted (R150). -/
theorem waitFree_went {d : HPair} {tag : Nat} (h : s.runs n i iw)
    (hd : ∀ u, u.core n = s.core n → u.now = s.now →
      body ((s.core n).pc + instrLen iw) u = u.waitFree n d tag ((s.core n).pc + instrLen iw)) :
    Went s (s.hergil n i body) n ((s.core n).pc + instrLen iw)
      { (s.core n).setPair d ⟨word (tag * 2 ^ 30 + 511 * 2 ^ 18), false⟩ ⟨0, false⟩ with
        nf := false, zf := false, cf := false, vf := false, fp := false } := by
  have hlt := runs_lt h
  obtain ⟨hb, u, hf⟩ := h
  have hu := (fetch_noted hf).1
  have hcount := fun c => count_events (u.setCore n c) ENG_WAIT_FREE n 1
  refine hergil_done hb hf (hd u (hu.core n) (by rw [hu.same])) ((beside_setCore u n _).trans ((hcount _).beside n)) ?_
    ((hcount _).2 _ (alert_ne_stat n)) hlt
  rw [core_count, core_setCore, hu.core]
  rfl

theorem seen_eq (c : CoreSt) (s : State) : c.seen s.clock = c.ring.filter fun x => x.clk < s.now / 4 := rfl

/-- The entries of a core that instructions of the clock see, after the fetch. -/
theorem seen_of {c : CoreSt} {l : List RingEnt} (h : (c.ring.filter fun x => x.clk < s.now / 4) = l) (hnow : u.now = s.now) :
    c.seen u.clock = l := by
  rw [seen_eq, hnow, h]

/-- Settles O15: each instruction finds its entry among those seen in the clock, and takes it, waits, or tells that none can come. -/
theorem completionsTaken : Obligations.CompletionsTaken := by
  refine ⟨fun s n d tag iw e => ⟨fun h hp hbusy hfind => ⟨_, rfl, ?_⟩, fun h hhead => ⟨_, rfl, ?_⟩, fun h hhead => ⟨_, rfl, ?_⟩,
      fun hwait hfind => ⟨_, rfl, ?_⟩, fun hwait hhead => ⟨_, rfl, ?_⟩⟩,
    fun s n d tag iw => ⟨fun h hp hbusy hnone => ⟨_, rfl, ?_⟩, fun h hbusy hring => ⟨_, rfl, ?_⟩, fun h hp hbusy => ⟨_, rfl, ?_⟩,
      fun h hbusy hring => ⟨_, rfl, ?_⟩, fun h hring => ⟨_, rfl, ?_⟩⟩⟩
  · refine takes_went h fun u hcore hnow => ?_
    simp only [waittBody, hcore, hp, CoreSt.isBusy, hbusy, seen_of rfl hnow, hfind, Bool.not_true, Bool.false_eq_true, if_false]
  · obtain ⟨l, hl⟩ := List.head?_eq_some_iff.1 hhead
    refine takes_went h fun u hcore hnow => ?_
    simp only [waitaBody, hcore, seen_of hl hnow]
  · obtain ⟨l, hl⟩ := List.head?_eq_some_iff.1 hhead
    refine takes_went h fun u hcore hnow => ?_
    simp only [cpopBody, hcore, seen_of hl hnow]
  · simp only [hwait, seen_of rfl rfl, hfind]
    exact settle_takes s n _ _ d e
  · obtain ⟨l, hl⟩ := List.head?_eq_some_iff.1 hhead
    simp only [hwait, seen_of hl rfl]
    exact settle_takes s n _ _ d e
  · refine stays_of_body h fun u hcore hnow => ?_
    have hfind : ((s.core n).ring.filter fun x => x.clk < s.now / 4).find? (fun x => x.tag = (s.core n).tag tag) = none := by
      simpa using hnone
    simp only [waittBody, hcore, hp, CoreSt.isBusy, hbusy, seen_of rfl hnow, hfind, Bool.not_true, Bool.false_eq_true, if_false]
  · refine stays_of_body h fun u hcore hnow => ?_
    simp only [waitaBody, hcore, seen_of hring hnow, List.isEmpty_iff, hbusy, if_false]
  · refine waitFree_went h fun u hcore hnow => ?_
    simp only [waittBody, hcore, hp, CoreSt.isBusy, hbusy, Bool.not_false, Bool.false_eq_true, if_true, if_false]
  · have hw := waitFree_went (d := d) (tag := 0) (body := waitaBody n d false) h fun u hcore hnow => by
      simp only [waitaBody, hcore, seen_of hring hnow, List.isEmpty_iff, hbusy, if_true]
    simpa only [Nat.zero_mul, Nat.zero_add] using hw
  · refine done_core (ea := 0) (f := fun c => (c.setPair d PWord.zero PWord.zero).setFlags ⟨false, true, true, false⟩ false) h
      (fun u hcore hnow _ => ?_) (runs_lt h)
    simp only [cpopBody, hcore, seen_of hring hnow]

end Sys2Proof.Machine
end

section
/-! PROOF. Armed actions (R142–R146). -/

namespace Sys2Proof.Machine

open Sys2Proof Ev Reg

variable {s t u v : State} {n : Nat} {iw : Word} {body : Nat → State → Run}

/-! ### Arming a slot (R142, R143) -/

/-- The slot that `at` takes is the lowest that is free. -/
theorem freeSlot_eq {c : CoreSt} {k : Nat} (hk : k < 16) (hfree : ∀ e ∈ c.slots, e.1 ≠ k) (htaken : ∀ j, j < k → ∃ e ∈ c.slots, e.1 = j) :
    c.freeSlot = some k := by
  rw [CoreSt.freeSlot, List.find?_range_eq_some]
  refine ⟨by simpa using hfree, List.mem_range.2 hk, fun j hj => ?_⟩
  simpa using htaken j hj

/-- The core with the slot `k` armed: its number in d, C for an LP that has passed, F clean, the tag busy. -/
def CoreSt.arms (c : CoreSt) (d : HReg) (k : Nat) (x : AtSlot) (late : Bool) : CoreSt :=
  ({ c with
      busy := if blkKind x.w0 = 0 then c.busy else blkTag x.w1 :: c.busy
      slots := c.slots ++ [(k, x)]
      cf := late, fp := false : CoreSt }.setReg d ⟨word k, false⟩)

theorem armedState_eq (v : State) (n : Nat) (d : HReg) (k : Nat) (x : AtSlot) (next : Nat) :
    v.arm n d k x next =
      let w := v.setCore n ((v.core n).arms d k x (decide (x.lp ≤ v.clockLp)))
      .done (if x.lp ≤ v.clockLp then w.count AT_LATE n else w) next x.ea := by
  unfold State.arm CoreSt.arms
  by_cases h : blkKind x.w0 = 0 <;> simp [h, CoreSt.setC, CoreSt.takeTag]

/-- The counter of POISON_CLR is one that neither the event path nor sampling keeps, so AT_LATE's record is followed beside it. -/
theorem atLate_apart (hn : n < 77) : OffPath AT_LATE.num (POISON_CLR.base + n) :=
  ⟨by decide, (poisonClr_apart hn).1.index, (poisonClr_apart hn).1.stick⟩

/-- An `at` that arms its slot (R142, R144): an LP already reached is counted as AT_LATE. -/
theorem atArm_went {d : HReg} {p : HPair} {r : HReg} {k : Nat} {x : AtSlot} (hb : s.begins n = true)
    (hf : s.fetch n = .instr u (.atArm n d p r) iw)
    (hd : atBody n d p r ((s.core n).pc + instrLen iw) u = v.arm n d k x ((s.core n).pc + instrLen iw)) :
    ∃ t, exec (.atArm n d p r) s = .next t ∧ (x.lp ≤ v.now / 4 * 4 → AT_LATE.raised v t n []) ∧
      Went v t n ((s.core n).pc + instrLen iw) ((v.core n).arms d k x (decide (x.lp ≤ v.now / 4 * 4))) := by
  have hn := (coreState_on (begins_running hb) (by decide)).1
  have hlt := next_lt hf
  rw [armedState_eq, clockLp_eq] at hd
  refine ⟨_, rfl, fun hlate => ?_, ?_⟩
  · rw [hergil_runs hb hf, hd]
    simp only [if_pos hlate, State.settle]
    generalize (v.core n).arms d k x _ = c
    have hraised : AT_LATE.raised v ((v.setCore n c).count AT_LATE n) n [] :=
      Code.raised_of_now (count_raised (v.setCore n c) AT_LATE n 1 Nat.one_ne_zero) rfl
    exact Code.raised_of_spares hraised (retire_spares (n := n) _ (atLate_apart hn) (by decide) (poisonClr_apart hn).2 _ iw _ hlt)
  · rw [hergil_runs hb hf, hd]
    generalize (v.core n).arms d k x _ = c
    have hcount := count_events (v.setCore n c) AT_LATE n 1
    have hw : ∀ w, Beside (v.setCore n c) w n → w.core n = c → w.reg (coreStat n) = (v.setCore n c).reg (coreStat n) →
        Went v (w.retire n (u.core n).pc iw ((s.core n).pc + instrLen iw) x.ea) n ((s.core n).pc + instrLen iw) c := by
      intro w hbeside hcore hstat
      have hret := (retire_went w n (u.core n).pc iw _ x.ea hlt).congr ((beside_setCore v n c).trans hbeside) hstat
      rwa [hcore] at hret
    by_cases hlate : x.lp ≤ v.now / 4 * 4
    · simp only [if_pos hlate]
      exact hw _ (hcount.beside n) (by rw [core_count, core_setCore]) (hcount.2 _ (alert_ne_stat n))
    · simp only [if_neg hlate]
      exact hw _ (Beside.refl _ n) (core_setCore _ _ _) rfl

/-- A block without reserved values is of kind 0, 1 or 2 (R142). -/
theorem blkKind_cases {w0 w1 : Word} (h : blkOk w0 w1 = true) : blkKind w0 = 0 ∨ blkKind w0 = 1 ∨ blkKind w0 = 2 := by
  have hlt : blkKind w0 < 4 := Nat.mod_lt _ (by decide)
  have h3 : blkKind w0 ≠ 3 := by
    intro h3
    simp [blkOk, h3] at h
  omega

/-- The tag is free where the block names one, and so is the slot: the action is armed (R143). -/
theorem armChecked_free {d : HReg} {k next : Nat} {x : AtSlot}
    (htag : blkKind x.w0 ≠ 0 → (v.core n).busy.contains (blkTag x.w1) = false) (hslot : (v.core n).freeSlot = some k) :
    v.armChecked n d x next = v.arm n d k x next := by
  have hbusy : ¬ (blkKind x.w0 ≠ 0 ∧ (v.core n).isBusy (blkTag x.w1) = true) := by
    rintro ⟨hkind, hbusy⟩
    rw [CoreSt.isBusy, htag hkind] at hbusy
    cases hbusy
  simp only [State.armChecked, if_neg hbusy, hslot]

section
variable {d : HReg} {p : HPair} {r : HReg} {w0 w1 : Word} {lp next : Nat} (hcore : u.core n = s.core n)
  (hlp : (s.core n).lpPair p = (false, some lp)) (hp : ((s.core n).reg r).p = false)
  (hload : u.loadWords n ((s.core n).reg r).v.toNat 2 = .ok v [⟨w0, false⟩, ⟨w1, false⟩]) (hok : blkOk w0 w1 = true)
include hcore hlp hp hload hok

/-- `at` of an action without descriptor (R142). -/
theorem atBody_plain (hkind : blkKind w0 ≠ 1) :
    atBody n d p r next u =
      v.armChecked n d ⟨lp, w0, w1, [], (s.core n).pc, v.wordAt n, ((s.core n).reg r).v.toNat, v.now / 4⟩ next := by
  simp only [atBody, hcore, hlp, hp, hload, hok, hkind, List.getD_cons_zero, List.getD_cons_succ, List.any_cons, List.any_nil,
    Bool.or_self, Bool.not_true, Bool.false_eq_true, if_false]
  rfl

/-- `at` of an action with a descriptor (R142, R147). -/
theorem atBody_issue {x : State} {desc : List PWord} (hkind : blkKind w0 = 1) (hdesc : v.readDesc n (blkAddr w0) = .ok x desc) :
    atBody n d p r next u =
      x.armChecked n d ⟨lp, w0, w1, desc, (s.core n).pc, v.wordAt n, ((s.core n).reg r).v.toNat, v.now / 4⟩ next := by
  simp only [atBody, hcore, hlp, hp, hload, hok, hkind, hdesc, List.getD_cons_zero, List.getD_cons_succ, List.any_cons, List.any_nil,
    Bool.or_self, Bool.not_true, Bool.false_eq_true, if_false, if_true]
  rfl

end

/-! ### Cancelling (R146) -/

/-- Of the best action so far and the next one, the one that fires (R144). -/
def State.sooner (s : State) (best : Option (Nat × AtSlot)) (e : Nat × AtSlot) : Option (Nat × AtSlot) :=
  if !e.2.due s then best
  else match best with
    | none => some e
    | some b => if e.2.lp < b.2.lp ∨ (e.2.lp = b.2.lp ∧ e.1 < b.1) then some e else best

theorem dueSlot_eq (s : State) (n : Nat) :
    s.dueSlot n = if (s.core n).fired = s.clock + 1 then none else (s.core n).slots.foldl s.sooner none := rfl

theorem sooner_of_now (hnow : u.now = s.now) : u.sooner = s.sooner := by
  funext best e
  have hdue : e.2.due u = e.2.due s := by rw [AtSlot.due, AtSlot.due, clock_of_now hnow, clockLp_of_now hnow]
  unfold State.sooner
  rw [hdue]

/-- The action that fires follows from the core's slots and the clock. -/
theorem dueSlot_of_core (hcore : u.core n = s.core n) (hnow : u.now = s.now) : u.dueSlot n = s.dueSlot n := by
  rw [dueSlot_eq, dueSlot_eq, hcore, clock_of_now hnow, sooner_of_now hnow]

/-- The core with its action of slot `k` cancelled. -/
def CoreSt.cancels (c : CoreSt) (d : HReg) (k : Nat) (x : AtSlot) : CoreSt :=
  ({ c with
      slots := c.slots.filter fun e => e.1 ≠ k
      busy := if blkKind x.w0 = 0 then c.busy else c.busy.filter (· ≠ blkTag x.w1) : CoreSt }.setReg d ⟨1, false⟩)

theorem fires_iff (o : Option (Nat × AtSlot)) (k : Nat) : (o.any fun e => e.1 = k) = true ↔ o.map (·.1) = some k := by
  cases o <;> simp

theorem exec_atcan {d a : HReg} (h : s.runs n (.atcan n d a) iw) (hp : ((s.core n).reg a).p = false)
    (hk : ((s.core n).reg a).v.toNat ≤ 15) :
    let c := s.core n
    let k := (c.reg a).v.toNat
    let fires := (s.dueSlot n).map (·.1) = some k
    ∃ t, exec (.atcan n d a) s = .next t ∧
      (c.slot k = none ∨ fires → Went s t n (c.pc + instrLen iw) (c.setReg d ⟨0, false⟩)) ∧
      (∀ x, c.slot k = some x → ¬fires → Went s t n (c.pc + instrLen iw) (c.cancels d k x)) := by
  intro c k fires
  have hlow : ¬ 15 < k := Nat.not_lt.2 hk
  refine ⟨_, rfl, fun hnot => ?_, fun x hx hquiet => ?_⟩
  · refine done_core (ea := 0) (f := fun c => c.setReg d PWord.zero) h (fun u hcore hnow _ => ?_) (runs_lt h)
    cases hx : c.slot k with
    | none => simp only [atcanBody, hcore, hp, hlow, hx, c, k, Bool.false_eq_true, if_false]
    | some x =>
      have hany := (fires_iff _ k).2 (hnot.resolve_left (by simp [hx]))
      simp only [atcanBody, hcore, hp, hlow, hx, c, k, dueSlot_of_core hcore hnow, hany, Bool.false_eq_true, if_false, if_true]
  · refine done_core (ea := 0) (f := fun c => c.cancels d k x) h (fun u hcore hnow _ => ?_) (runs_lt h)
    have hany : ((s.dueSlot n).any fun e => e.1 = k) = false := Bool.eq_false_iff.2 fun h => hquiet ((fires_iff _ k).1 h)
    simp only [atcanBody, hcore, hp, hlow, hx, c, k, dueSlot_of_core hcore hnow, hany, Bool.false_eq_true, if_false]
    unfold CoreSt.cancels
    by_cases hkind : blkKind x.w0 = 0 <;> simp [hkind, CoreSt.dropSlot, CoreSt.freeTag]

/-- Settles O12: the checks pass, the lowest free slot is found, and atcan finds the slot free, firing, or neither. -/
theorem armedActionsComplete : Obligations.ArmedActionsComplete := by
  refine ⟨?_, ?_, fun s n d a iw h => exec_atcan h⟩
  · intro s u v n d p r iw w0 w1 lp k hb hf hlp hp ea hload hok hkind c htag hk hfree htaken
    have hbody := atBody_plain (d := d) (next := (s.core n).pc + instrLen iw) ((fetch_noted hf).1.core n) hlp hp hload hok hkind
    refine atArm_went hb hf (hbody.trans (armChecked_free (fun hne => htag ?_) (freeSlot_eq hk hfree htaken)))
    exact ((blkKind_cases hok).resolve_left hne).resolve_left hkind
  · intro s u v x n d p r iw w0 w1 lp k desc hb hf hlp hp ea hload hok hkind hdesc c htag hk hfree htaken
    have hbody := atBody_issue (d := d) (next := (s.core n).pc + instrLen iw) ((fetch_noted hf).1.core n) hlp hp hload hok hkind hdesc
    have hne : blkKind w0 ≠ 0 := by omega
    have harm := atArm_went hb hf (hbody.trans (armChecked_free (fun _ => htag) (freeSlot_eq hk hfree htaken)))
    simp only [CoreSt.arms, if_neg hne] at harm
    exact harm

/-! ### The action that fires (R144, R145) -/

/-- Whether action `e` goes no later than `f`: by LP, then by slot (R144). -/
def noLater (e f : Nat × AtSlot) : Prop := e.2.lp < f.2.lp ∨ (e.2.lp = f.2.lp ∧ e.1 ≤ f.1)

theorem noLater_refl (e : Nat × AtSlot) : noLater e e := .inr ⟨rfl, Nat.le_refl _⟩

theorem noLater_trans {e f g : Nat × AtSlot} (h : noLater e f) (h' : noLater f g) : noLater e g := by
  unfold noLater at *
  omega

/-- One step of the choice: what is chosen is the best so far or the next action, when that is due, and goes no later than
either. -/
theorem sooner_cases (best : Option (Nat × AtSlot)) (f : Nat × AtSlot) :
    (s.sooner best f = best ∧ (f.2.due s = true → ∃ b, best = some b ∧ noLater b f)) ∨
      (s.sooner best f = some f ∧ f.2.due s = true ∧ ∀ b, best = some b → noLater f b) := by
  unfold State.sooner
  by_cases hdue : f.2.due s = true
  · cases best with
    | none => exact .inr ⟨by simp [hdue], hdue, nofun⟩
    | some b =>
      by_cases hlt : f.2.lp < b.2.lp ∨ (f.2.lp = b.2.lp ∧ f.1 < b.1)
      · refine .inr ⟨by simp [hdue, hlt], hdue, fun b' hb => ?_⟩
        cases hb
        unfold noLater
        omega
      · refine .inl ⟨by simp [hdue, hlt], fun _ => ⟨b, rfl, ?_⟩⟩
        unfold noLater
        omega
  · exact .inl ⟨by simp [hdue], fun h => absurd h hdue⟩

/-- The choice among a list of actions, from a best so far. -/
theorem foldl_sooner {l : List (Nat × AtSlot)} {best : Option (Nat × AtSlot)} {e : Nat × AtSlot} (h : l.foldl s.sooner best = some e) :
    (best = some e ∨ e ∈ l ∧ e.2.due s = true) ∧ (∀ b, best = some b → noLater e b) ∧
      ∀ f ∈ l, f.2.due s = true → noLater e f := by
  induction l generalizing best with
  | nil =>
    refine ⟨.inl h, fun b hb => ?_, nofun⟩
    cases hb.symm.trans h
    exact noLater_refl e
  | cons g l ih =>
    obtain ⟨hfrom, hbest, hrest⟩ := ih h
    rcases sooner_cases (s := s) best g with ⟨hsame, hg⟩ | ⟨hnew, hdue, hg⟩
    · rw [hsame] at hfrom hbest
      refine ⟨hfrom.imp_right fun h => ⟨List.mem_cons_of_mem g h.1, h.2⟩, hbest, List.forall_mem_cons.2 ⟨fun hdue => ?_, hrest⟩⟩
      obtain ⟨b, hb, hbg⟩ := hg hdue
      exact noLater_trans (hbest b hb) hbg
    · rw [hnew] at hfrom hbest
      have heg : noLater e g := hbest g rfl
      refine ⟨.inr ?_, fun b hb => noLater_trans heg (hg b hb), List.forall_mem_cons.2 ⟨fun _ => heg, hrest⟩⟩
      rcases hfrom with hfrom | ⟨hmem, he⟩
      · cases hfrom
        exact ⟨List.mem_cons_self, hdue⟩
      · exact ⟨List.mem_cons_of_mem g hmem, he⟩

theorem due_iff (x : AtSlot) (s : State) : x.due s = true ↔ x.lp ≤ s.now / 4 * 4 ∧ x.armed < s.now / 4 := by
  rw [AtSlot.due, clockLp_eq, Bool.and_eq_true, decide_eq_true_iff, decide_eq_true_iff, State.clock]

/-- What the action that fires is among those of its core (R144). -/
theorem dueSlot_spec {e : Nat × AtSlot} (h : s.dueSlot n = some e) :
    e ∈ (s.core n).slots ∧ e.2.due s = true ∧ (s.core n).fired ≠ s.now / 4 + 1 ∧
      ∀ f ∈ (s.core n).slots, f.2.due s = true → noLater e f := by
  rw [dueSlot_eq] at h
  split at h
  · cases h
  · next hfired =>
    obtain ⟨hfrom, -, hall⟩ := foldl_sooner h
    obtain ⟨hmem, hdue⟩ := hfrom.resolve_left nofun
    exact ⟨hmem, hdue, hfired, hall⟩

theorem firing_eq {k : Nat} {x : AtSlot} (hup : s.up = true) (hon : s.coreState n ≠ 0) (h : s.dueSlot n = some (k, x)) :
    s.firing n k (blkKind x.w0) = some x := by
  have hlive : (!s.up || decide (s.coreState n = cOff)) = false := by
    rw [hup, Bool.not_true, Bool.false_or]
    exact decide_eq_false hon
  simp only [State.firing, hlive, h, Bool.false_eq_true, if_false, and_self, if_true]

/-- The core once its action of slot `k` has fired at the clock `clk`. -/
theorem fired_eq (s : State) (n k : Nat) : s.fired n k = s.setCore n { (s.core n).dropSlot k with fired := s.now / 4 + 1 } := rfl

/-- What a timed store comes to: it waits at the matrix, is recorded as AT_ERR, or is made (R145). -/
def State.storeEnds (u : State) (n k addr : Nat) (g : Agent) (x : Nat × PWord) : Acc Unit → State
  | .held p => u.request n g p (some x)
  | .bad v _ => v.atErr n k addr
  | .ok v _ => v

section
variable {k : Fin 16} {x : AtSlot} (hup : s.up = true) (hon : s.coreState n ≠ 0) (hdue : s.dueSlot n = some (k.val, x))
include hup hon hdue

/-- A timed store that fires goes as any store of its address, in an ordering domain of its own (R145). -/
theorem exec_atTimedStore (hkind : blkKind x.w0 = 0) :
    let u := s.fired n k
    let g : Agent := .timed k s.now (blkAddr x.w0)
    exec (.atTimedStore n k false) s = .next
      (u.storeEnds n k (blkAddr x.w0) g (blkLe x.w0, ⟨x.w1, false⟩) (u.storeWord n g (blkAddr x.w0) (blkLe x.w0) ⟨x.w1, false⟩)) := by
  intro u g
  have hfire : s.firing n k 0 = some x := by
    rw [← hkind]
    exact firing_eq hup hon hdue
  show execAtTimedStore n k false s = _
  simp only [execAtTimedStore, hfire, Bool.false_eq_true, if_false]
  rfl

theorem exec_atTimedIssue (hkind : blkKind x.w0 = 1) :
    exec (.atTimedIssue n k false) s = .next ((s.fired n k).accept n
      { tag := blkTag x.w1, unit := descUnit x.desc, desc := x.desc, accepted := s.now, pc := x.pc, iw := x.iw, ea := x.ea }) := by
  have hfire : s.firing n k 1 = some x := by
    rw [← hkind]
    exact firing_eq hup hon hdue
  show execAtTimedIssue n k false s = _
  simp only [execAtTimedIssue, hfire, Bool.false_eq_true, if_false]

theorem exec_atSignal (hkind : blkKind x.w0 = 2) :
    exec (.atSignal n k false) s =
      .next ((s.fired n k).postEntry n ⟨blkTag x.w1, 0, gOk, 0, ⟨word (lpB (s.now / 4 * 4)), false⟩, s.now / 4⟩) := by
  have hfire : s.firing n k 2 = some x := by
    rw [← hkind]
    exact firing_eq hup hon hdue
  show execAtSignal n k false s = _
  simp only [execAtSignal, hfire, Bool.false_eq_true, if_false, clockLp_eq]
  rfl

end

/-- A completion with status OK is posted and counts nothing (R148, R165). -/
theorem postEntry_ok (s : State) (n : Nat) {e : RingEnt} (h : e.status = 0) :
    s.postEntry n e = s.setCore n { s.core n with ring := placeEntry e (s.core n).ring } := by
  have hcount : ¬ (1 ≤ e.status ∧ e.status ≤ 11) := by omega
  simp only [State.postEntry, if_neg hcount]

/-- A core changed, and an operation taken by its engine (R147). -/
theorem accept_became (s : State) (n : Nat) (c : CoreSt) (o : EngOp) :
    Became (s.wr CORE_STAT_ENG_OUT (c.ops.length + 1) n) ((s.setCore n c).accept n o) n { c with ops := c.ops ++ [o] } := by
  have hlen : (c.ops ++ [o]).length = c.ops.length + 1 := List.length_append
  rw [State.accept, core_setCore, ← hlen]
  refine ⟨beside_setOps_setCore s n c _, ?_, coreStat_setOps_setCore s n c _⟩
  rw [core_setOps, core_setCore]

/-- Settles O13: the action chosen is the first of those due, and each kind does what its instruction would have done. -/
theorem armedActionsFire : Obligations.ArmedActionsFire := by
  refine ⟨fun s n e h => ?_, fun s n k x hup hon hdue hkind => ?_, fun s n k x hup hon hdue hkind => ?_,
    fun s n k x hup hon hdue hkind => ?_⟩
  · obtain ⟨hmem, hdue, hfired, hall⟩ := dueSlot_spec h
    obtain ⟨hlp, harmed⟩ := (due_iff _ _).1 hdue
    exact ⟨hmem, hlp, harmed, hfired, fun f hf hlp harmed => hall f hf ((due_iff _ _).2 ⟨hlp, harmed⟩)⟩
  · intro u g asks
    have hexec : exec (.atTimedStore n k false) s =
        .next (u.storeEnds n k (blkAddr x.w0) g (blkLe x.w0, ⟨x.w1, false⟩) asks) := exec_atTimedStore hup hon hdue hkind
    refine ⟨fun a hres hfree => ?_, fun v hasks => ?_, fun p hasks => ?_, fun v code hasks => ?_⟩
    · rw [show asks = _ from storeWord_mem _ _ hres hfree] at hexec
      exact ⟨_, hexec, memAt_memWrite u a _ _, fun b hb => memAt_memWrite_ne u _ _ hb, rfl⟩
    · rw [hexec, hasks]
      rfl
    · rw [hexec, hasks]
      rfl
    · rw [hasks] at hexec
      exact ⟨_, hexec, (count_events v AT_ERR n 1).trans (occur_events _ CORE_AT_ERR n _),
        Code.raised_of_now (occur_raised _ _ _ _) (count_now _ _ _ _)⟩
  · exact ⟨_, exec_atTimedIssue hup hon hdue hkind, accept_became s n { (s.core n).dropSlot k with fired := s.now / 4 + 1 } _⟩
  · refine ⟨_, exec_atSignal hup hon hdue hkind, ?_⟩
    rw [postEntry_ok _ _ rfl, fired_eq]
    refine ⟨(beside_setCore s n _).trans (beside_setCore _ n _), ?_, reg_setCore_twice s n _ _ _⟩
    rw [core_setCore, core_setCore]
    rfl

end Sys2Proof.Machine
end

section
/-! PROOF. Engine operations as they run and end (R147–R149, R152). -/

namespace Sys2Proof.Machine

open Sys2Proof Ev Reg

variable {s t u v : State} {n tag unit op : Nat} {o : EngOp}

/-! ### The operation that a row runs -/

theorem opFor_eq (h : EngRuns s n tag unit op o) (ops : Nat) : s.opFor n tag unit op ops = some o := by
  obtain ⟨hup, hon, hout, hunit, hop⟩ := h
  simp only [State.opFor, hup, hon, hout, hunit, hop, Bool.not_true, decide_false, Bool.or_self, Bool.false_eq_true, if_false,
    true_or, and_self, if_true]

/-- A row whose operation is in order runs its body (R149, R152). -/
theorem engineRow_eq (h : EngRuns s n tag unit op o) {masks : List Nat} (hclean : o.clean masks = true) (ops : Nat)
    (fail : State → Nat → Nat → Nat → State) (body : EngOp → State → State) :
    s.engineRow n tag unit op ops false masks fail body = body o s := by
  have hnote : s.noteUpset n false = s := rfl
  simp only [State.engineRow, opFor_eq h, h.op, hclean, hnote, ne_eq, not_true_eq_false, Bool.false_and, Bool.not_true,
    Bool.false_eq_true, if_false]

theorem EngRuns.tag_eq (h : EngRuns s n tag unit op o) : o.tag = tag := by
  simpa using List.find?_some h.out

/-! ### The end of an operation (R148, R149) -/

theorem beside_setOps (s : State) (n : Nat) (l : List EngOp) : Beside s (s.setOps n l) n :=
  (beside_setCore s n _).trans (beside_wr _ CORE_STAT_ENG_OUT l.length n rfl)

theorem clock_setOps (s : State) (n : Nat) (l : List EngOp) : (s.setOps n l).clock = s.clock :=
  clock_of_now (by rw [State.setOps, wr_now, setCore_now])

theorem coreStat_setOps (s : State) (n : Nat) (l : List EngOp) :
    (s.setOps n l).reg (coreStat n) = (s.wr CORE_STAT_ENG_OUT l.length n).reg (coreStat n) :=
  reg_wr_congr (reg_setCore s _ n _) (reg_setCore s _ n _)

theorem postEntry_events (s : State) (n : Nat) (e : RingEnt) :
    Events (s.setCore n { s.core n with ring := placeEntry e (s.core n).ring }) (s.postEntry n e) := by
  unfold State.postEntry
  dsimp only
  split
  · exact count_events _ _ _ _
  · exact Events.refl _

/-- A sampling record is no instruction that completes (R564). -/
theorem sampleRec_smpCnt (s : State) (n kind pc : Nat) (iw : Word) (ea w5 : Nat) (w6 : PWord) :
    ((s.sampleRec n kind pc iw ea w5 w6).core n).smpCnt = (s.core n).smpCnt := by
  unfold State.sampleRec
  dsimp only
  repeat' split
  all_goals simp only [core_count, core_setCore]

/-- A completion posted after a sampling record, or none, to a core whose operation has gone. -/
theorem posted_ended (ho : o.tag = tag) {status count clk : Nat} {result : PWord}
    (hv : Sampled (s.setOps n ((s.core n).ops.filter fun x => x.tag ≠ tag)) v n)
    (hcnt : (v.core n).smpCnt = (s.core n).smpCnt) (hclk : clk = s.clock) :
    Ended s (v.postEntry n ⟨tag, o.unit, status, count, result, clk⟩) n o status count result := by
  subst ho hclk
  have hev := postEntry_events v n ⟨o.tag, o.unit, status, count, result, s.clock⟩
  generalize v.postEntry n _ = t at hev
  refine ⟨(((beside_setOps s n _).trans hv.toBeside).trans (beside_setCore v n _)).trans (hev.beside n), ?_, ?_⟩
  · have hvc := hv.core
    rw [core_setOps] at hvc
    rw [hev.core n, core_setCore, hvc]
    simp only [CoreSt.sampled, hcnt]
  · rw [hev.2 _ (alert_ne_stat n), reg_setCore, hv.stat, coreStat_setOps]

theorem endOp_ended (h : s.engOp n tag = some o) (status count : Nat) (result : PWord) :
    Ended s (s.endOp n tag status count result) n o status count result := by
  have ho : o.tag = tag := by simpa using List.find?_some h
  simp only [State.endOp, h]
  split
  · exact posted_ended ho (sampleRec_sampled _ _ _ _ _ _ _ _) (by rw [sampleRec_smpCnt, core_setOps]) (clock_setOps s n _)
  · exact posted_ended ho (Sampled.refl _ n) (by rw [core_setOps]) (clock_setOps s n _)

theorem Ended.of_noted {status count : Nat} {result : PWord} (h : Ended u t n o status count result) (hu : Noted s u) :
    Ended s t n o status count result := by
  refine ⟨(hu.beside n).trans h.toBeside, ?_, ?_⟩
  · rw [h.core, hu.core, clock_of_now (show u.now = s.now by rw [hu.same])]
  · rw [h.stat, hu.core]
    exact reg_wr_congr (hu.regs _ (alert_ne_stat n)) (hu.regs _ (alert_ne_stat n))

/-! ### Words moved one by one (R154, R158) -/

/-- `t` is `s` after `j` words from `h` on were written, word `i` as `f i`, with what reads and events leave beside. -/
structure Moved (s t : State) (h j : Nat) (f : Nat → PWord) : Prop where
  placed : Placed { s with mem := t.mem } t
  written : ∀ i, i < j → t.memAt (h + i) = (s.memAt (h + i)).store 15 (f i)
  kept : ∀ a, (a < h ∨ h + j ≤ a) → t.memAt a = s.memAt a

theorem Moved.nil (s : State) (h : Nat) (f : Nat → PWord) : Moved s s h 0 f :=
  ⟨Placed.refl s, fun _ hi => absurd hi (Nat.not_lt_zero _), fun _ _ => rfl⟩

theorem Placed.setMem (h : Placed s t) (m : List (Nat × Stored)) : Placed { s with mem := m } { t with mem := m } := by
  refine ⟨⟨?_, h.regs⟩, h.copies⟩
  rw [h.same]

/-- The first word is written after a read, and then the others. -/
theorem Moved.cons {h j : Nat} {f : Nat → PWord} (hu : Placed s u)
    (hv : Moved (u.memWrite h 15 (f 0)) t (h + 1) j fun i => f (i + 1)) :
    Moved s t h (j + 1) f := by
  refine ⟨(hu.setMem t.mem).trans hv.placed, fun i hi => ?_, fun a ha => ?_⟩
  · cases i with
    | zero => rw [Nat.add_zero, hv.kept h (.inl (Nat.lt_succ_self h)), memAt_memWrite, hu.toNoted.memAt]
    | succ i =>
      have hne : h + 1 + i ≠ h := by omega
      rw [← Nat.add_assoc, Nat.add_right_comm, hv.written i (by omega), memAt_memWrite_ne _ _ _ hne, hu.toNoted.memAt]
  · rw [hv.kept a (by omega), memAt_memWrite_ne _ _ _ (by omega), hu.toNoted.memAt]


/-- The `k` words from `a` are the words of lane memory from `g`, and nothing makes an access to them wait. -/
def State.lays (s : State) (n : Nat) (ag : Agent) (a g k : Nat) (write : Bool) : Prop :=
  ∀ i, i < k → s.resolve n (a + i) write = .ok (.mem (g + i)) ∧ s.blocked n ag (.mem (g + i)) = false

section
variable {ag : Agent} {a b g h k : Nat} {write : Bool}

theorem State.lays.head (hl : s.lays n ag a g (k + 1) write) :
    s.resolve n a write = .ok (.mem g) ∧ s.blocked n ag (.mem g) = false := hl 0 (Nat.succ_pos k)

theorem State.lays.tail (hl : s.lays n ag a g (k + 1) write) : s.lays n ag (a + 1) (g + 1) k write := by
  intro i hi
  have h := hl (i + 1) (Nat.succ_lt_succ hi)
  rwa [← Nat.add_assoc, ← Nat.add_assoc, Nat.add_right_comm, Nat.add_right_comm g] at h

theorem State.lays.take {j : Nat} (hl : s.lays n ag a g k write) (hj : j ≤ k) : s.lays n ag a g j write :=
  fun i hi => hl i (Nat.lt_of_lt_of_le hi hj)

/-- Neither a read nor a write of lane memory changes what an address names. -/
theorem State.lays.moved (hl : s.lays n ag a g k write) (hu : Placed s u) (x : Nat) (w : PWord) :
    (u.memWrite x 15 w).lays n ag a g k write := by
  intro i hi
  obtain ⟨hres, hfree⟩ := hl i hi
  exact ⟨(hu.resolve n (a + i) write).trans hres, (hu.blocked n ag _).trans hfree⟩

/-- A run of a copy whose words are apart from their sources moves all its words (R154). -/
theorem copyRun_moved (ha : s.lays n ag a g k false) (hb : s.lays n ag b h k true) (hapart : g + k ≤ h ∨ h + k ≤ g) :
    ∃ t, s.copyRun n ag a b k = (t, k, .none) ∧ Moved s t h k fun i => (s.memAt (g + i)).deliver 15 := by
  induction k generalizing s a b g h with
  | zero => exact ⟨s, rfl, Moved.nil s h _⟩
  | succ k ih =>
    have hu := memRead_placed s g 15
    have hload := loadWord_mem 15 ha.head.1 ha.head.2
    generalize (s.memRead g 15).2 = u at hu hload
    have hstore := storeWord_mem 15 (s := u) ((s.memAt g).deliver 15) ((hu.resolve n b true).trans hb.head.1)
      ((hu.blocked n ag _).trans hb.head.2)
    obtain ⟨t, hrun, ht⟩ := ih (ha.tail.moved hu h ((s.memAt g).deliver 15)) (hb.tail.moved hu h _) (by omega)
    refine ⟨t, ?_, Moved.cons hu ⟨ht.placed, fun i hi => ?_, ht.kept⟩⟩
    · simp only [State.copyRun, hload, hstore, hrun]
    · have hne : g + 1 + i ≠ h := by omega
      rw [ht.written i hi, memAt_memWrite_ne _ _ _ hne, hu.toNoted.memAt, ← Nat.add_assoc, Nat.add_right_comm g]
      rfl

theorem piece_cons (a : Nat) (w : PWord) (l : List PWord) : piece a (w :: l) = (a, w) :: piece (a + 1) l := by
  simp only [piece, List.length_cons, List.range_succ_eq_map, List.map_cons, List.map_map, Nat.add_zero, List.getD_cons_zero,
    List.cons.injEq, true_and]
  refine List.map_congr_left fun i _ => ?_
  simp only [Function.comp_apply, List.getD_cons_succ, Nat.succ_eq_add_one, Nat.add_assoc, Nat.add_comm 1]

/-- A run of a fill writes its word at all its places (R154). -/
theorem fillRun_moved (w : PWord) (hb : s.lays n ag b h k true) :
    ∃ t, s.engWrite n ag (piece b (List.replicate k w)) = (t, k, .none) ∧ Moved s t h k fun _ => w := by
  induction k generalizing s b h with
  | zero => exact ⟨s, rfl, Moved.nil s h _⟩
  | succ k ih =>
    have hstore := storeWord_mem 15 w hb.head.1 hb.head.2
    obtain ⟨t, hrun, ht⟩ := ih (hb.tail.moved (Placed.refl s) h w)
    refine ⟨t, ?_, Moved.cons (Placed.refl s) ht⟩
    rw [List.replicate_succ, piece_cons, State.engWrite]
    simp only [hstore, hrun]

end

/-- An operation that is changed where it is. -/
theorem engOp_setOp (h : s.engOp n tag = some o) (o' : EngOp) (ho : o'.tag = o.tag) : (s.setOp n o').engOp n tag = some o' := by
  rw [State.engOp] at h
  rw [State.setOp, State.engOp, core_setCore]
  show ((s.core n).ops.map _).find? _ = _
  have htag : o.tag = tag := by simpa using List.find?_some h
  generalize (s.core n).ops = ops at h ⊢
  induction ops with
  | nil => cases h
  | cons x l ih =>
    by_cases hx : x.tag = tag
    · simp [hx, ho, htag]
    · rw [List.find?_cons_of_neg (by simpa using hx)] at h
      simp only [List.map_cons, ho, htag, if_neg hx]
      rw [List.find?_cons_of_neg (by simpa using hx)]
      simpa only [ho, htag] using ih h

/-- A run of words that nothing stopped: the operation ends with its last word, or has moved the words of the run. -/
theorem endWords_moved {h j k words : Nat} {f : Nat → PWord} (hop : s.engOp n tag = some o) (hdone : o.done = 0)
    (hk : k = o.nwords) (hj : j = min words k) (hm : Moved s t h j f) :
    let y := State.endWords n o (t, j, .none)
    (∀ i, i < j → y.memAt (h + i) = (s.memAt (h + i)).store 15 (f i)) ∧
      (∀ a, (a < h ∨ h + j ≤ a) → y.memAt a = s.memAt a) ∧
      (k ≤ words → Ended { s with mem := y.mem } y n o 0 k ⟨0, false⟩) ∧
      (words < k → y.engOp n tag = some { o with done := words }) := by
  obtain rfl : o.tag = tag := by simpa using List.find?_some hop
  have hcore : t.core n = s.core n := hm.placed.toNoted.core n
  have hopt : t.engOp n o.tag = some o := by rwa [State.engOp, hcore]
  simp only [State.endWords, hdone, Nat.zero_add, ← hk]
  by_cases hle : k ≤ words
  · have hjk : j = k := by omega
    rw [if_pos (Nat.le_of_eq hjk.symm), hjk]
    rw [hjk] at hm
    have hend := endOp_ended hopt gOk k PWord.zero
    have hmem : (t.endOp n o.tag gOk k PWord.zero).mem = t.mem := by rw [hend.same]
    generalize t.endOp n o.tag gOk k PWord.zero = y at hend hmem
    have hat : ∀ a, y.memAt a = t.memAt a := fun a => by rw [State.memAt, State.memAt, hmem]
    refine ⟨fun i hi => (hat _).trans (hm.written i hi), fun a ha => (hat a).trans (hm.kept a ha), fun _ => ?_,
      fun hlt => by omega⟩
    rw [hmem]
    exact hend.of_noted hm.placed.toNoted
  · have hjw : j = words := by omega
    rw [if_neg (by omega : ¬ k ≤ j)]
    refine ⟨hm.written, hm.kept, fun h => absurd h hle, fun _ => ?_⟩
    rw [← hjw]
    exact engOp_setOp hopt { o with done := j } rfl

/-- Settles O17: each word that a run moves is read and written in turn, and the operation ends with the last. -/
theorem memoryTransfersComplete : Obligations.MemoryTransfersComplete := by
  refine ⟨fun s n g h k words j tag o hr hdone hk hpos hj hclean hsrc hdst hapart => ?_,
    fun s n h k words j tag o hr hdone hk hpos hj hclean hdst => ?_⟩
  · have hjk : j ≤ k := by omega
    have hsrc' : s.lays n o.agent (o.w 1).toNat g k false := hsrc
    have hdst' : s.lays n o.agent (o.w 2).toNat h k true := hdst
    obtain ⟨t, hrun, hm⟩ := copyRun_moved (hsrc'.take hjk) (hdst'.take hjk) (by omega)
    have hne : o.nwords ≠ 0 := fun h0 => by rw [hk] at hpos; exact absurd h0 (Nat.ne_of_gt hpos)
    refine ⟨State.endWords n o (t, j, .none), ?_, endWords_moved hr.out hdone hk hj hm⟩
    have hmasks : o.clean [descTop, mask 29 0, mask 29 0, mask 17 0] = true := hclean
    show execDmaCopy n tag false words s = _
    rw [execDmaCopy, engineRow_eq hr hmasks]
    simp only [if_neg hne, hdone, Nat.add_zero, Nat.sub_zero]
    rw [show min words o.nwords = j by rw [hj, hk]; rfl, hrun]
  · have hjk : j ≤ k := by omega
    have hdst' : s.lays n o.agent (o.w 2).toNat h k true := hdst
    obtain ⟨t, hrun, hm⟩ := fillRun_moved ⟨o.w 1, false⟩ (hdst'.take hjk)
    have hne : o.nwords ≠ 0 := fun h0 => by rw [hk] at hpos; exact absurd h0 (Nat.ne_of_gt hpos)
    refine ⟨State.endWords n o (t, j, .none), ?_, endWords_moved hr.out hdone hk hj hm⟩
    have hmasks : o.clean [descTop, 2 ^ 36 - 1, mask 29 0, mask 17 0] = true := hclean
    show execDmaFill n tag false words s = _
    rw [execDmaFill, engineRow_eq hr hmasks]
    simp only [if_neg hne, hdone, Nat.add_zero, Nat.sub_zero]
    rw [show min words o.nwords = j by rw [hj, hk]; rfl, hrun]

end Sys2Proof.Machine
end

section
/-! PROOF. Packet operations of the DMA engine (R98, R154, R405, R429). -/

namespace Sys2Proof.Machine

open Sys2Proof Ev Reg

variable {s t u v : State} {n d q : Nat} {o : EngOp}

/-! ### Choosing a free descriptor (R405) -/

theorem firstFree_free {used : Nat → Bool} {m : Nat} (k i : Nat) (h : ∃ j, j < k ∧ used ((i + j) % m) = false) :
    used (firstFree used m k i) = false := by
  obtain ⟨j, hj, hfree⟩ := h
  induction k generalizing i j with
  | zero => exact absurd hj (Nat.not_lt_zero j)
  | succ k ih =>
    rw [firstFree]
    split
    · next hused =>
      cases j with
      | zero => exact absurd (hfree.symm.trans hused) Bool.false_ne_true
      | succ j => exact ih (i + 1) j (Nat.lt_of_succ_lt_succ hj) (by rwa [Nat.add_right_comm, Nat.add_assoc])
    · next hunused => exact Bool.eq_false_iff.2 hunused

/-- Among more numbers than are used, one is free. -/
theorem exists_free {used : Nat → Bool} {m k : Nat} {l : List Nat} (i : Nat) (hl : l.length < k) (hm : l.length < m)
    (hused : ∀ j, used j = true → j ∈ l) : ∃ j, j < k ∧ used ((i + j) % m) = false := by
  by_contra hall
  have hall : ∀ j, j < k → used ((i + j) % m) = true := fun j hj => by
    by_contra hne
    exact hall ⟨j, hj, Bool.eq_false_iff.2 hne⟩
  have hmaps : ∀ j ∈ Finset.range (min k m), (i + j) % m ∈ l.toFinset := fun j hj =>
    List.mem_toFinset.2 (hused _ (hall j (by have := Finset.mem_range.1 hj; omega)))
  have hcard : l.toFinset.card < (Finset.range (min k m)).card := by
    have := List.toFinset_card_le l
    rw [Finset.card_range]
    omega
  obtain ⟨x, hx, y, hy, hne, heq⟩ := Finset.exists_ne_map_eq_of_card_lt_of_maps_to hcard hmaps
  have hx := Finset.mem_range.1 hx
  have hy := Finset.mem_range.1 hy
  have hmod : x % m = y % m := Nat.ModEq.add_left_cancel' i heq
  rw [Nat.mod_eq_of_lt (by omega), Nat.mod_eq_of_lt (by omega)] at hmod
  exact hne hmod

/-- The descriptors that the table lists with a packet. -/
def State.heldDescs (s : State) : List Nat := (s.traf.packets.filter fun e => e.2.isSome).map (·.1)

theorem length_heldDescs (s : State) : s.heldDescs.length = s.allPackets.length := by
  rw [State.heldDescs, State.allPackets, List.length_map, List.length_filterMap_eq_countP, List.countP_eq_length_filter]

theorem mem_heldDescs (h : (s.packet d).isSome = true) : d ∈ s.heldDescs := by
  rw [State.packet] at h
  rw [State.heldDescs]
  generalize s.traf.packets = l at h ⊢
  induction l with
  | nil => cases h
  | cons e l ih =>
    obtain ⟨k, p⟩ := e
    rw [sget] at h
    split at h
    · next hk => exact List.mem_map.2 ⟨(k, p), List.mem_filter.2 ⟨List.mem_cons_self, h⟩, hk⟩
    · obtain ⟨e, he, hd⟩ := List.mem_map.1 (ih h)
      obtain ⟨hmem, hsome⟩ := List.mem_filter.1 he
      exact List.mem_map.2 ⟨e, List.mem_filter.2 ⟨List.mem_cons_of_mem _ hmem, hsome⟩, hd⟩

/-- The descriptor that a new packet takes. -/
def State.nextDesc (s : State) : Nat :=
  firstFree (fun i => (s.packet i).isSome) (2 ^ 26) (s.traf.packets.length + 1) s.open_

theorem packet_nextDesc (h : 0 < s.freeDescs) : s.packet s.nextDesc = none := by
  have hlen := length_heldDescs s
  have hfew : s.allPackets.length ≤ s.traf.packets.length := List.length_filterMap_le _ _
  rw [State.freeDescs] at h
  have hsome := exists_free (used := fun i => (s.packet i).isSome) s.open_
    (by omega : s.heldDescs.length < s.traf.packets.length + 1) (by omega : s.heldDescs.length < 2 ^ 26) fun j => mem_heldDescs
  have hfree : (s.packet s.nextDesc).isSome = false :=
    firstFree_free (used := fun i => (s.packet i).isSome) _ _ hsome
  exact Option.not_isSome_iff_eq_none.1 (Bool.eq_false_iff.1 hfree)

/-! ### What the buffer's operations leave -/

theorem watchFree_mem (s : State) : s.watchFree.mem = s.mem := by
  unfold State.watchFree
  dsimp only
  repeat' split
  all_goals simp only [occur_mem]

theorem watchFree_cores (s : State) : s.watchFree.cores = s.cores := by
  unfold State.watchFree
  dsimp only
  repeat' split
  all_goals simp only [occur_cores]

theorem packet_watchFree (s : State) (d : Nat) : s.watchFree.packet d = s.packet d := by
  unfold State.watchFree State.packet
  dsimp only
  repeat' split
  all_goals simp only [occur_traf]

/-- A new packet takes its descriptor, in a state that holds the packets of before. -/
theorem newPacket_eq (s : State) (page held len : Nat) (octets : List Nat) :
    ∃ (u : State) (p : Packet), s.newPacket page held len octets = (s.nextDesc, (u.setPacket s.nextDesc (some p)).watchFree) ∧
      (p.held = held ∧ p.len = len ∧ p.octets = octets) ∧
      (∀ e, u.packet e = s.packet e) ∧ u.mem = s.mem ∧ u.cores = s.cores :=
  ⟨_, _, rfl, ⟨rfl, rfl, rfl⟩, fun _ => rfl, rfl, rfl⟩

theorem bump_events (s : State) (x k : Nat) : Events s (s.bump x k) := by
  have h := cntAdd_events s x k
  unfold State.bump
  rcases hr : s.cntAdd x k with ⟨u, note⟩
  rw [hr] at h
  cases note with
  | none => exact h
  | stuck => exact (h.trans (cntAdd_events _ _ _)).trans (occurRec_events _ _ _ _)
  | restarted => exact (h.trans (cntAdd_events _ _ _)).trans (occurRec_events _ _ _ _)

theorem countQueue_events (s : State) (q k len : Nat) : Events s (s.countQueue q k len) :=
  (bump_events _ _ _).trans (bump_events _ _ _)

/-- The entry of a packet that a core sends (R429). -/
def State.sentEntry (s : State) (d : Nat) (p : Packet) : QEnt :=
  ⟨d, p.len, s.now, true, false, true, decide (p.octets.getD 3 0 = 1), 0, false⟩

/-- The state with a packet sent, before anything is counted. -/
def State.sending (s : State) (q d : Nat) (p : Packet) : State :=
  (s.setPacket d (some { p with held := 0, page := s.queuePage q + 1 })).setQueue q (s.queue q ++ [s.sentEntry d p])

theorem packet_sending (s : State) (q d : Nat) (p : Packet) :
    (s.sending q d p).packet d = some { p with held := 0, page := s.queuePage q + 1 } :=
  packet_setPacket s d (some { p with held := 0, page := s.queuePage q + 1 })

theorem sendPacket_eq (s : State) (q d : Nat) (p : Packet) :
    s.sendPacket q d p = ((s.sending q d p).countQueue q 0 (p.len - 8)).seeEgress (s.egressOf q) := rfl

/-- Sending a packet counts it and shows the egress point its queue: the packets and queues are those of `sending`. -/
theorem sendPacket_keeps (s : State) (q d : Nat) (p : Packet) :
    let v := s.sendPacket q d p
    (∀ e, v.packet e = (s.sending q d p).packet e) ∧ (∀ r, v.queue r = (s.sending q d p).queue r) ∧
      v.mem = s.mem ∧ v.cores = s.cores := by
  have hev := countQueue_events (s.sending q d p) q 0 (p.len - 8)
  rw [sendPacket_eq]
  generalize (s.sending q d p).countQueue q 0 (p.len - 8) = u at hev
  refine ⟨fun e => ?_, fun r => ?_, hev.mem, hev.cores⟩
  · rw [State.packet, State.packet, ← hev.traf]
    rfl
  · rw [State.queue, State.queue, ← hev.traf]
    rfl

theorem heldPacket_eq {h : Nat} {p : Packet} (hp : s.byHandle h = some (d, p)) (hheld : p.held = n + 1) :
    s.heldPacket n h = some (d, p) := by
  rw [State.heldPacket, hp]
  exact if_pos hheld

/-! ### The operations -/

/-- An operation that ends changes no packet and no queue. -/
theorem Ended.traf {status count : Nat} {result : PWord} (h : Ended s t n o status count result) : t.traf = s.traf := by
  rw [h.same]

theorem engOp_of_cores {tag : Nat} (h : v.cores = s.cores) : v.engOp n tag = s.engOp n tag := by
  rw [State.engOp, State.core, h]
  rfl

section
variable {tag : Fin 64} {p : Packet}

theorem exec_dmaPktNew {len : Nat} (hr : EngRuns s n tag 2 3 o) (hlen : len = (o.w 3).bits 13 0) (hpos : 0 < len)
    (hclean : o.clean [descTop, 0, 0, mask 13 0] = true) (hdescs : 0 < s.freeDescs) (hcells : (len + 63) / 64 ≤ s.freeCells)
    (hnew : s.newPacket 0 (n + 1) len (List.replicate len 0) = (d, v)) (hp : v.packet d = some p) :
    exec (.dmaPktNew n tag false) s = .next (v.endOp n tag gOk 0 ⟨word (p.gen * 2 ^ 26 + d), false⟩) := by
  have hroom : ¬ (s.freeDescs = 0 ∨ s.freeCells < cellsOf len) := by
    rw [cellsOf]
    omega
  show execDmaPktNew n tag false s = _
  rw [execDmaPktNew, engineRow_eq hr hclean]
  simp only [← hlen, Nat.ne_of_gt hpos, hroom, if_false, hnew, hp, Option.map_some, Option.getD_some, handleOf]

theorem exec_dmaPktSend (hr : EngRuns s n tag 2 4 o) (hclean : o.clean [descTop, mask 29 0, mask 35 34 + mask 16 0, 0] = true)
    (hq : queueOf ((o.w 2).bits 35 34) ((o.w 2).bits 16 0) = some q) (hmay : s.maySend n q = true)
    (hp : s.heldPacket n (o.w 1).toNat = some (d, p)) (hlong : 9 ≤ p.len) (hprefix : prefixOk q p.octets = true)
    (hwin : s.windowed d = false) (hfwd : s.forwards = true) (hadmit : s.admitFails q (s.queuePage q) p.len = none) :
    exec (.dmaPktSend n tag false) s = .next ((s.sendPacket q d p).endOp n tag gOk 0 PWord.zero) := by
  show execDmaPktSend n tag false s = _
  rw [execDmaPktSend, engineRow_eq hr hclean]
  simp only [hq, hmay, hp, Nat.not_lt.2 hlong, hprefix, hwin, hfwd, hadmit, decide_false, Bool.not_true, Bool.or_self,
    Bool.false_eq_true, if_false, Option.isSome_none]

theorem exec_dmaPktRecv {rest : List Nat} (hr : EngRuns s n tag 2 5 o) (hclean : o.clean [descTop, 0, 2 ^ 35 + 3, 0] = true)
    (hbox : sget (fun _ => []) s.traf.boxes (4 * n + (o.w 2).bits 1 0) = d :: rest) (hp : s.packet d = some p) :
    let u := { s with traf := { s.traf with boxes := sput (fun _ => []) s.traf.boxes (4 * n + (o.w 2).bits 1 0) rest } }
    exec (.dmaPktRecv n tag false) s =
      .next ((u.setPacket d (some { p with held := n + 1 })).endOp n tag gOk p.len ⟨word (p.gen * 2 ^ 26 + d), false⟩) := by
  intro u
  have hpu : u.packet d = some p := hp
  show execDmaPktRecv n tag false s = _
  rw [execDmaPktRecv, engineRow_eq hr hclean]
  simp only [hbox]
  rw [show State.packet { s with traf := { s.traf with boxes := _ } } d = some p from hpu]
  rfl

theorem exec_dmaPktFree (hr : EngRuns s n tag 2 6 o) (hclean : o.clean [descTop, mask 29 0, 0, 0] = true)
    (hp : s.heldPacket n (o.w 1).toNat = some (d, p)) (hwin : s.windowed d = false) :
    exec (.dmaPktFree n tag false) s = .next ((s.freePacket d).endOp n tag gOk 0 PWord.zero) := by
  show execDmaPktFree n tag false s = _
  rw [execDmaPktFree, engineRow_eq hr hclean]
  simp only [hp, hwin, Bool.false_eq_true, if_false]

end

/-- Settles O18: each row finds its operands in order, does its work on the buffer, and ends. -/
theorem packetOperationsComplete : Obligations.PacketOperationsComplete := by
  refine ⟨fun s n len tag o hr hlen hpos hclean hdescs hcells => ?_,
    fun s n q d p tag o hr hclean hq hmay hp hheld hlong hprefix hwin hfwd hadmit => ?_,
    fun s n d rest p tag o hr hclean hbox hp => ?_, fun s n d p tag o hr hclean hp hheld hwin => ?_⟩
  · obtain ⟨u, p, hnew, ⟨hheld, hplen, hoct⟩, hpackets, hmem, hcores⟩ :=
      newPacket_eq s 0 (n + 1) len (List.replicate len 0)
    have hmem' := (watchFree_mem (u.setPacket s.nextDesc (some p))).trans hmem
    have hcores' := (watchFree_cores (u.setPacket s.nextDesc (some p))).trans hcores
    have hpacket := fun e => packet_watchFree (u.setPacket s.nextDesc (some p)) e
    generalize (u.setPacket s.nextDesc (some p)).watchFree = v at hnew hmem' hcores' hpacket
    have hp := (hpacket s.nextDesc).trans (packet_setPacket _ _ _)
    have hend := endOp_ended ((engOp_of_cores hcores').trans hr.out) gOk 0 ⟨word (p.gen * 2 ^ 26 + s.nextDesc), false⟩
    refine ⟨_, s.nextDesc, p, exec_dmaPktNew hr hlen hpos hclean hdescs hcells hnew hp, packet_nextDesc hdescs, ?_, hheld, hplen,
      hoct, fun e he => ?_, v, hend, hmem', hcores'⟩
    · rwa [State.packet, hend.traf]
    · rw [State.packet, hend.traf]
      exact ((hpacket e).trans (packet_setPacket_ne _ _ he)).trans (hpackets e)
  · obtain ⟨hpacket, hqueue, hmem, hcores⟩ := sendPacket_keeps s q d p
    have hexec := exec_dmaPktSend hr hclean hq hmay (heldPacket_eq hp hheld) hlong hprefix hwin hfwd hadmit
    generalize s.sendPacket q d p = v at hpacket hqueue hmem hcores hexec
    have hend := endOp_ended ((engOp_of_cores hcores).trans hr.out) gOk 0 PWord.zero
    refine ⟨_, hexec, ?_, ?_, fun r hne => ?_, v, hend, hmem, hcores⟩
    · rw [State.packet, hend.traf]
      exact (hpacket d).trans (packet_sending s q d p)
    · rw [State.queue, hend.traf]
      exact (hqueue q).trans (queue_setQueue _ q _)
    · rw [State.queue, hend.traf]
      exact (hqueue r).trans (queue_setQueue_ne _ _ hne)
  · let u := { s with traf := { s.traf with boxes := sput (fun _ => []) s.traf.boxes (4 * n + (o.w 2).bits 1 0) rest } }
    let v := u.setPacket d (some { p with held := n + 1 })
    have hend : Ended v _ n o gOk p.len ⟨word (p.gen * 2 ^ 26 + d), false⟩ :=
      endOp_ended (show v.engOp n tag = some o from hr.out) gOk p.len _
    refine ⟨_, exec_dmaPktRecv hr hclean hbox hp, ?_, ?_, ?_⟩
    · rw [State.packet, hend.traf]
      exact packet_setPacket u d _
    · rw [hend.traf]
      exact sget_sput _ _ _
    · rw [hend.traf]
      exact hend
  · have hmem : (s.freePacket d).mem = s.mem := watchFree_mem _
    have hcores : (s.freePacket d).cores = s.cores := watchFree_cores _
    have hend := endOp_ended ((engOp_of_cores hcores).trans hr.out) gOk 0 PWord.zero
    refine ⟨_, exec_dmaPktFree hr hclean (heldPacket_eq hp hheld) hwin, ?_, fun e he => ?_, _, hend, hmem, hcores⟩
    · rw [State.packet, hend.traf]
      exact (packet_watchFree _ d).trans (packet_setPacket s d none)
    · rw [State.packet, hend.traf]
      exact (packet_watchFree _ e).trans (packet_setPacket_ne s none he)

end Sys2Proof.Machine
end

section
/-! PROOF. Cipher operations (R153, R447, R457, R458, R478). -/

namespace Sys2Proof.Machine

open Sys2Proof Ev Reg

variable {s t u v y : State} {n op words k : Nat} {tag : Fin 64} {o : EngOp} {g g0 : KeyGen}

/-! ### Writing the output -/

/-- A run of stores that nothing stops writes every word. -/
theorem engWrite_all {ag : Agent} {l : List (Nat × PWord)} (h : s.engWrite n ag l = (t, k, .none)) : k = l.length := by
  induction l generalizing s k with
  | nil =>
    cases h
    rfl
  | cons x l ih =>
    rw [State.engWrite] at h
    split at h
    · cases h
    · cases h
    · next v _ hv =>
      rcases hr : v.engWrite n ag l with ⟨w, j, stop⟩
      rw [hr] at h
      cases h
      rw [List.length_cons, ih hr]

theorem length_piece (a : Nat) (l : List PWord) : (piece a l).length = l.length := by
  rw [piece, List.length_map, List.length_range]

theorem length_asLanes (j : Nat) (os : List Nat) : (asLanes j os).length = j := by
  rw [asLanes, List.length_map, List.length_range]

/-- Output that is written to its last word ends its operation (R153). -/
theorem cipherWrite_ended {x : EngOut} (hlen : x.todo.length ≤ words) (hw : s.engWrite n o.agent x.todo = (y, k, .none))
    (hop : y.engOp n o.tag = some o) : Ended y (s.cipherWrite n o words x) n o x.status x.blocks x.result := by
  have hk := engWrite_all hw
  have htake : x.todo.take words = x.todo := List.take_of_length_le hlen
  have hdrop : (x.todo.drop k).isEmpty = true := by rw [hk, List.drop_length]; rfl
  simp only [State.cipherWrite, htake, hw, hdrop, if_true]
  exact endOp_ended hop _ _ _

/-! ### Reading the input -/

section
variable {past got : List PWord} {body : State → List (List Nat) → KeyGen → State} {a j c : Nat} {os : List Nat}
  {l : List (Nat × Nat × Nat)} {acc : List (List Nat)}

theorem cipherWith_read (h : s.cipherRead n o.agent got a j c = .ok (u, ⟨os, none⟩)) :
    s.cipherWith n o past got ((a, j, c) :: l) acc body =
      u.cipherWith n o (past ++ asLanes j os) (got.drop j) l (os :: acc) body := by
  simp only [State.cipherWith, h]

theorem cipherWith_key (h : s.cipherKey n o = .ok g) : s.cipherWith n o past got [] acc body = body s acc.reverse g := by
  simp only [State.cipherWith, h]

end

/-- An operation in order that has written nothing runs its function of the engine (R153). -/
theorem cipherOp_eq (hr : EngRuns s n tag 1 op o) (hout : o.out = none) (herr : s.rdb EDW_STAT_ERROR = false)
    (hclean : o.clean cipherMasks = true) (hok : o.cipherOk = true) :
    s.cipherOp n tag op false words =
      if op = 1 then s.gcmSeal n o words else if op = 2 then s.gcmOpen n o words else s.hmacOp n o words := by
  simp only [State.cipherOp, herr, Bool.false_and, Bool.false_eq_true, if_false, engineRow_eq hr hclean, hout, hok, Bool.not_true]

/-- In the error state an operation ends E_KEY (R447). -/
theorem cipherOp_error (hr : EngRuns s n tag 1 op o) (herr : s.rdb EDW_STAT_ERROR = true) :
    Ended s (s.cipherOp n tag op false words) n o 5 0 ⟨0, false⟩ := by
  simp only [State.cipherOp, herr, opFor_eq hr, Option.isSome_some, Bool.and_self, if_true]
  exact endOp_ended hr.out _ _ _

/-- The output of a decryption: the text, or zero lanes when the tag does not match (R153). -/
def EngOp.opened (o : EngOp) (g : KeyGen) (iv aad text mac : List Nat) : EngOut :=
  let good := gcmTag g.key iv aad text = mac
  { todo := piece (o.w 2).toNat (asLanes (4 * o.ntext) (if good then gcmText g.key iv text else []))
    done := 0, status := if good then gOk else gAuth, blocks := o.ntext, text := true, result := PWord.zero }

section
variable {iv aad text mac : List Nat}

theorem opened_good (h : gcmTag g.key iv aad text = mac) :
    o.opened g iv aad text mac =
      ⟨piece (o.w 2).toNat (asLanes (4 * o.ntext) (gcmText g.key iv text)), 0, gOk, o.ntext, true, PWord.zero⟩ := by
  simp only [EngOp.opened, if_pos h]

theorem opened_bad (h : gcmTag g.key iv aad text ≠ mac) :
    o.opened g iv aad text mac = ⟨piece (o.w 2).toNat (asLanes (4 * o.ntext) []), 0, gAuth, o.ntext, true, PWord.zero⟩ := by
  simp only [EngOp.opened, if_neg h]

end

/-- Settles O19: the inputs are read, the key is found in order, and the output is written to its last word. -/
theorem cipherOperationsComplete : Obligations.CipherOperationsComplete := by
  refine ⟨?_, ?_, ?_, ?_⟩
  · intro s u v x y n ctr words k tag o g0 g aad text hr hout herr hclean hok haad htext hkey hinv iv c out hlen hw hop
    refine ⟨_, rfl, ?_⟩
    rw [cipherOp_eq hr hout herr hclean hok, if_pos rfl, State.gcmSeal, EngOp.aadIn, EngOp.textIn, cipherWith_read haad,
      cipherWith_read htext, cipherWith_key hkey]
    simp only [hinv]
    rw [← hr.tag_eq] at hop
    exact cipherWrite_ended hlen hw hop
  · intro s u v x y n words tag o g aad iv text mac hr hout herr hclean hok haad hiv htext hmac hkey hlen
    have hopen : s.cipherOp n tag 2 false words = y.cipherWrite n o words (o.opened g iv aad text mac) := by
      rw [cipherOp_eq hr hout herr hclean hok, if_neg (by decide), if_pos rfl, State.gcmOpen, EngOp.aadIn, EngOp.textIn,
        cipherWith_read haad, cipherWith_read hiv, cipherWith_read htext, cipherWith_read hmac, cipherWith_key hkey]
      rfl
    refine ⟨fun z k hgood hw hop => ⟨_, rfl, ?_⟩, fun z k hbad hw hop => ⟨_, rfl, ?_⟩⟩
    · rw [← hr.tag_eq] at hop
      rw [hopen, opened_good hgood]
      refine cipherWrite_ended ?_ hw hop
      rwa [length_piece, length_asLanes]
    · rw [← hr.tag_eq] at hop
      rw [hopen, opened_bad hbad]
      refine cipherWrite_ended ?_ hw hop
      rwa [length_piece, length_asLanes]
  · intro s u v w n ctr k words tag o g0 g text hr hout herr hclean hok htext hkey hinv hlen hw hop
    refine ⟨_, rfl, ?_⟩
    rw [cipherOp_eq hr hout herr hclean hok, if_neg (by decide), if_neg (by decide), State.hmacOp, EngOp.textIn,
      cipherWith_read htext, cipherWith_key hkey]
    simp only [hinv]
    rw [← hr.tag_eq] at hop
    refine cipherWrite_ended ?_ hw hop
    rwa [length_piece, length_asLanes]
  · intro s n op words tag o hr herr
    simp only [List.forall_mem_cons]
    refine ⟨?_, ?_, ?_, List.forall_mem_nil _⟩
    all_goals
      rintro rfl
      exact ⟨_, rfl, cipherOp_error hr herr⟩

end Sys2Proof.Machine
end

section
/-! PROOF. Operations of the monitor, grant-map and counter engines (R155–R157, R382, R497, R502, R543, R548). -/

namespace Sys2Proof.Machine

open Sys2Proof Ev Reg

variable {s t u v : State} {n words : Nat} {tag : Fin 64} {o : EngOp}

/-! ### Monitor engine (R497, R502) -/

theorem setMon_same (s : State) (m : Nat) (x : MonSt) : s.setMon m x = { s with mons := (s.setMon m x).mons } := rfl

theorem setMon_wr_same (s : State) (m : Nat) (x y : MonSt) (f : Field) (k : Nat) :
    let t := ((s.setMon m x).setMon m y).wr f k m
    t = { s with mons := t.mons, regs := t.regs } := rfl

theorem requestCal_spec (s : State) (m : Nat) (b : CalBy) :
    let t := s.requestCal m b
    (t.mon m).joined = (s.mon m).joined ++ [b] ∧ (∀ k, k ≠ m → t.mon k = s.mon k) ∧
      t = { s with mons := t.mons, regs := t.regs } ∧
      ((s.mon m).cal = .none → (t.mon m).cal = .pending s.now false ∧ t.rd MON_STAT_CALPEND m = 1) := by
  intro t
  have ht : t = s.requestCal m b := rfl
  unfold State.requestCal at ht
  dsimp only at ht
  split at ht
  · rw [ht]
    refine ⟨?_, fun k hk => ?_, setMon_wr_same _ _ _ _ _ _, fun _ => ⟨?_, ?_⟩⟩
    · rw [mon_wr, mon_setMon, mon_setMon]
    · rw [mon_wr, mon_setMon_ne _ _ hk, mon_setMon_ne _ _ hk]
    · rw [mon_wr, mon_setMon]
      rfl
    · exact rd_wr _ _ _ _ _ _ (by decide) (by decide)
  · next hcal =>
    rw [ht]
    refine ⟨?_, fun k hk => mon_setMon_ne s _ hk, setMon_same _ _ _, fun h => absurd h (hcal ·)⟩
    rw [mon_setMon]

theorem any_any_eq_false {α β : Type} {l : List (Nat × α)} {f : α → List β} {p : β → Bool}
    (h : ∀ e ∈ l, ∀ j ∈ f e.2, p j = false) :
    (l.any fun e => (f e.2).any p) = false := by
  simpa using h

theorem exec_monitorInject {i : Inj} (hr : EngRuns s n tag 3 1 o)
    (hfresh : ∀ e ∈ s.mons, ∀ j ∈ (e.2 : MonSt).inj, j.by_ ≠ .op n tag)
    (hmay : mayConvert n ((o.w 0).bits 26 22) false = true)
    (hclean : o.clean [descTop + mask 26 8, 2 ^ 36 - 1, 2 ^ 36 - 1, mask 17 0] = true)
    (hjudge : s.judgeInj (o.w 0).toNat (o.w 1).toNat (o.w 2).toNat (o.w 3).toNat (.op n tag) o.accepted =
      .ok ((o.w 0).bits 26 22, i))
    (hwin : ¬(n < 64 ∧ s.refRuns n = true ∧ s.inWindow ((o.w 0).bits 26 22) i = true)) :
    exec (.monitorInjectOp n tag false) s = .next (s.acceptInj ((o.w 0).bits 26 22) i) := by
  have hlisted : (s.mons.any fun (e : Nat × MonSt) => e.2.inj.any fun (i : Inj) => i.by_ = .op n tag) = false :=
    any_any_eq_false (f := MonSt.inj) fun e he j hj => decide_eq_false (hfresh e he j hj)
  show execMonitorInjectOp n tag false s = _
  rw [execMonitorInjectOp]
  simp only [hlisted, Bool.false_eq_true, if_false]
  rw [engineRow_eq hr rfl]
  simp only [hmay, hclean, hjudge, if_neg hwin, Bool.not_true, Bool.false_eq_true, if_false]

theorem exec_monitorCal (hr : EngRuns s n tag 3 2 o) (hfresh : ∀ e ∈ s.mons, ∀ j ∈ (e.2 : MonSt).joined, j ≠ .op n tag)
    (hclean : o.clean [descTop + mask 26 22, 0, 0, 0] = true) (hmay : mayConvert n ((o.w 0).bits 26 22) true = true)
    (hm : (o.w 0).bits 26 22 < 18) (hon : s.monState ((o.w 0).bits 26 22) ≠ mOff) :
    exec (.monitorCalOp n tag false) s = .next (s.requestCal ((o.w 0).bits 26 22) (.op n tag)) := by
  have hjoined : (s.mons.any fun (e : Nat × MonSt) => e.2.joined.any fun (b : CalBy) => b = .op n tag) = false :=
    any_any_eq_false (f := MonSt.joined) fun e he j hj => decide_eq_false (hfresh e he j hj)
  show execMonitorCalOp n tag false s = _
  rw [execMonitorCalOp]
  simp only [hjoined, Bool.false_eq_true, if_false]
  rw [engineRow_eq hr hclean]
  simp only [hmay, if_neg hon, if_neg (Nat.not_le.2 hm), Bool.not_true, Bool.false_eq_true, if_false]

/-! ### Grant-map engine (R156, R382) -/

theorem exec_grantMapCommit {x : Committed} (hr : EngRuns s n tag 4 1 o) (hn : n < 64)
    (hclean : o.clean [descTop + mask 26 19, 2 ^ 36 - 1, 2 ^ 36 - 1, mask 29 0] = true) (hzero : bitsOf (o.w 2).toNat 22 4 = 0) :
    let f := frameOf (lpTicks (o.w 1).toNat (o.w 2).toNat)
    s.passedBy n o.accepted < f → f ≤ s.passedBy n o.accepted + 8 →
    s.commitMaps n o.agent f (decide (s.deadline n f ≤ (o.accepted : Int)))
      o.got ((List.range 8).filter fun w => (o.w 0).bit (19 + w)) ⟨(o.w 3).toNat, [], [], 0, [], []⟩ = .ok (v, x) →
    exec (.grantMapCommit n tag false) s = .next (v.endOp n tag (lowestStatus x.status) x.entries
      ⟨word ((x.done.map fun w => 2 ^ w).sum + 256 * (x.hold.map fun w => 2 ^ w).sum), false⟩) := by
  intro f hafter hsoon hmaps
  have hkind : coreKind n = 0 := if_pos hn
  have hrange : (decide (f ≤ s.passedBy n o.accepted) || decide (s.passedBy n o.accepted + 8 < f)) = false := by
    simp only [Bool.or_eq_false_iff, decide_eq_false_iff_not]
    omega
  show execGrantMapCommit n tag false s = _
  rw [execGrantMapCommit, engineRow_eq hr rfl]
  simp only [hkind, hclean, hzero, ne_eq, not_true_eq_false, decide_false, Bool.not_true, Bool.false_or]
  rw [hrange]
  simp only [Bool.false_eq_true, if_false]
  rw [hmaps]

/-- A map that is read whole, in order and in time, is committed (R156). -/
theorem commitMap_committed {f w : Nat} {g : Agent} {x : Committed} {h : Word} {got l : List PWord} {gs : List Grant}
    (hst : x.status.contains gAddr = false) (hown : s.ownWords n x.addr 1 = true)
    (hhead : s.engTake n g got x.addr 1 = (u, [⟨h, false⟩], .none)) (hrest : u.ownWords n (x.addr + 1) (2 * h.bits 8 0) = true)
    (htake : u.engTake n g (got.drop 1) (x.addr + 1) (2 * h.bits 8 0) = (v, l, .none)) (hclean : ∀ y ∈ l, y.p = false)
    (hmap : mapOf n h l = some gs) :
    s.commitMap n g f false got w x =
      .ok (v.setChan (8 * n + w) { v.chan (8 * n + w) with
          commits := ((v.chan (8 * n + w)).commits.filter fun e => e.1 ≠ f) ++ [(f, gs)] },
        { x with
          addr := x.addr + 1 + 2 * h.bits 8 0, read := x.read ++ ⟨h, false⟩ :: l, done := w :: x.done
          entries := x.entries + h.bits 8 0 }) := by
  have hany : l.any (·.p) = false := by simpa using hclean
  simp only [State.commitMap, hst, hown, hhead, hrest, htake, hmap, hany, List.headD_cons,
    Bool.false_eq_true, if_false, Bool.not_true, Bool.or_self]

/-! ### Counter engine (R157, R543) -/

/-- The counters of programs are none that the event path or sampling counts. -/
theorem prog_apart {i : Nat} (hi : i < 77 * 64) (hn : n < 77) :
    OffPath PROG.num (PROG.base + i) ∧ PROG.base + i ≠ SMP_DROP.base + n := by
  have hprog : PROG.base = 24687 := by decide +kernel
  have hdrop : SMP_DROP.base = 24610 := by decide +kernel
  have hstick : CNT_STICK.base = 24587 := by decide +kernel
  have hrestart : CNT_RESTART.base = 24588 := by decide +kernel
  have haval : EVT_AVALANCHE.base = 24590 := by decide +kernel
  have hcoal : EVT_COALESCED.base = 24592 := by decide +kernel
  have hcoalP0 : EVT_P0_COALESCED.base = 24593 := by decide +kernel
  rw [hprog, hdrop]
  refine ⟨⟨by decide, ?_, ?_⟩, by omega⟩
  · rw [evPathCounter, haval, hcoal, hcoalP0]
    omega
  · rw [hstick, hrestart]
    omega

theorem used_spares {k x : Nat} (s : State) (i : Nat) : Spares k x s (s.used i) := ⟨rfl, rfl, rfl, rfl⟩

/-- An operation that ends OK counts no counter but that of its sampling records (R148, R566). -/
theorem endOp_spares {k x : Nat} (s : State) (hp : OffPath k x) (hk : SMP_DROP.num ≠ k) (hx : x ≠ SMP_DROP.base + n)
    (tag count : Nat) (result : PWord) : Spares k x s (s.endOp n tag 0 count result) := by
  unfold State.endOp
  split
  · exact Spares.refl s
  · dsimp only
    rw [postEntry_ok _ _ rfl]
    refine Spares.trans ?_ (setCore_spares _ n _)
    have hops (l : List EngOp) : Spares k x s (s.setOps n l) := (setCore_spares s n _).trans (wr_spares _ _ _ _ _ _)
    split
    · exact (hops _).trans (sampleRec_spares _ hp hk hx _ _ _ _ _ _)
    · exact hops _

theorem exec_counterSnap {k : Nat} (hr : EngRuns s n tag 5 1 o) (hdone : o.done = 0) (hwords : k ≤ words)
    (hclean : o.clean [descTop, mask 19 0, mask 29 0, mask 12 0] = true) (hk : k = (o.w 3).toNat) (hpos : 0 < k) (hmax : k ≤ 4096)
    (hend : (o.w 1).toNat + k ≤ 2 ^ 20) (hmay : (o.w 1).toNat + k ≤ 524288 ∨ n = 76)
    (hrun : s.snapRun n o.agent (o.w 1).toNat (o.w 2).toNat k = (v, k, .none)) :
    exec (.counterSnap n tag false words) s = .next (v.endCount n tag gOk k) := by
  have hrange : ¬ (k = 0 ∨ 4096 < k ∨ 2 ^ 20 < (o.w 1).toNat + k) := by omega
  have hrights : ¬ (524288 < (o.w 1).toNat + k ∧ coreKind n ≠ 3) := by
    rintro ⟨hlarge, hkind⟩
    obtain rfl : n = 76 := hmay.resolve_left (Nat.not_le.2 hlarge)
    exact hkind (by decide)
  show execCounterSnap n tag false words s = _
  rw [execCounterSnap, engineRow_eq hr hclean]
  simp only [← hk, if_neg hrange, if_neg hrights, hdone, Nat.add_zero, Nat.mul_zero, Nat.sub_zero, Nat.min_eq_right hwords, hrun,
    Nat.zero_add, Nat.le_refl, if_true]

theorem exec_counterAdd {j : Nat} (hr : EngRuns s n tag 5 2 o) (hclean : o.clean [descTop, mask 19 0, 2 ^ 36 - 1, 0] = true)
    (hx : (o.w 1).toNat = PROG.base + 64 * n + j) (hj : j < 64) :
    exec (.counterAdd n tag false) s = .next ((s.addCnt PROG (64 * n + j) (o.w 2).toNat).endOpen n tag gOk) := by
  have hown : PROG.base + 64 * n ≤ PROG.base + 64 * n + j ∧ PROG.base + 64 * n + j < PROG.base + 64 * n + 64 := by omega
  have hidx : PROG.base + 64 * n + j - PROG.base = 64 * n + j := by omega
  show execCounterAdd n tag false s = _
  rw [execCounterAdd, engineRow_eq hr hclean]
  simp only [hx, if_pos hown, hidx]

/-- Settles O20: each row finds its operands in order and does its work, and those that end post their completion. -/
theorem monitorMapAndCounterOperations : Obligations.MonitorMapAndCounterOperations := by
  refine ⟨?_, ?_, ?_, ?_, ?_, ?_⟩
  · intro s n tag o i hr hfresh m hmay hclean hjudge hwin
    refine ⟨_, exec_monitorInject hr hfresh hmay hclean hjudge hwin, ?_, fun k hk => mon_setMon_ne s _ hk, rfl⟩
    rw [State.acceptInj, mon_setMon]
  · intro s n tag o hr hfresh m hclean hmay hm hon
    exact ⟨_, exec_monitorCal hr hfresh hclean hmay hm hon, requestCal_spec s m _⟩
  · intro s v n tag o x hr hn hclean hzero f hafter hsoon hmaps hop
    exact ⟨_, exec_grantMapCommit hr hn hclean hzero hafter hsoon hmaps, endOp_ended hop _ _ _⟩
  · intro s u v n f w g x h got l gs hst hown hhead hrest htake hclean hmap
    refine ⟨_, _, commitMap_committed hst hown hhead hrest htake hclean hmap, ?_, rfl, rfl, rfl, rfl, fun c hc => ?_⟩
    · rw [chan_setChan]
      exact List.mem_append_right _ (List.mem_singleton.2 rfl)
    · exact chan_setChan_ne _ _ hc
  · intro s v n k words tag o hr hdone hwords hclean hk hpos hmax hend hmay hrun hop
    have hended : Ended v.used _ n o gOk k ⟨word v.open_, false⟩ :=
      endOp_ended (show v.used.engOp n tag = some o from hop) gOk k _
    refine ⟨_, ⟨word v.open_, false⟩, exec_counterSnap hr hdone hwords hclean hk hpos hmax hend hmay hrun, ?_⟩
    rw [show (v.endCount n tag gOk k).free = v.free + 1 by rw [State.endCount, hended.same]; rfl]
    exact hended
  · intro s n j tag o hr hclean hx hj
    obtain ⟨hn, -⟩ := coreState_on rfl hr.on
    have hoff := prog_apart (n := n) (i := 64 * n + j) (by omega) hn
    have hev := addCnt_events s PROG (64 * n + j) (o.w 2).toNat
    have hcount := addCnt_counted s PROG (64 * n + j) (o.w 2).toNat
    have hexec := exec_counterAdd hr hclean hx hj
    generalize s.addCnt PROG (64 * n + j) (o.w 2).toNat = u at hev hcount hexec
    have hout : (u.used 2).engOp n tag = some o := (engOp_of_cores hev.cores).trans hr.out
    rw [State.endOpen] at hexec
    generalize Config.open u.free % 2 ^ 18 = c, (⟨word (Config.open (u.free + 1)), false⟩ : PWord) = r at hexec
    have hended := endOp_ended hout gOk c r
    have hspares := (used_spares u 2).trans (endOp_spares (u.used 2) hoff.1 (by decide) hoff.2 tag c r)
    refine ⟨_, c, r, hexec, ?_, Code.counted_of_spares hcount hspares⟩
    rw [show ((u.used 2).endOp n tag gOk c r).free = (u.used 2).free by rw [hended.same]]
    exact hended.of_noted ⟨by rw [hev.1]; rfl, hev.2⟩

end Sys2Proof.Machine
end

section
/-! PROOF. The maps that the reference T-core image computes (R156, R379–R381). -/

namespace Sys2Proof.Machine

open Sys2Proof Ev Reg

variable {s : State} {t w n pre guard : Nat}

/-! ### Laying grants (R379) -/

/-- Grants spaced by the guard from unit `at_` on, the last leaving a guard before the end of the frame. -/
structure Spaced (guard at_ : Nat) (l : List Grant) : Prop where
  apart : l.Pairwise fun a b => a.start + a.len + guard ≤ b.start
  after : ∀ g ∈ l, at_ ≤ g.start
  ends : ∀ g ∈ l, g.start + g.len + guard ≤ 225000

theorem layGrants_spaced (guard at_ : Nat) (l : List Grant) : Spaced guard at_ (layGrants guard at_ l) := by
  induction l generalizing at_ with
  | nil => exact ⟨List.Pairwise.nil, List.forall_mem_nil _, List.forall_mem_nil _⟩
  | cons g l ih =>
    rw [layGrants]
    split
    · next hfits =>
      obtain ⟨hapart, hafter, hends⟩ := ih (at_ + g.len + guard)
      refine ⟨List.pairwise_cons.2 ⟨hafter, hapart⟩, List.forall_mem_cons.2 ⟨Nat.le_refl at_, fun b hb => ?_⟩,
        List.forall_mem_cons.2 ⟨hfits, hends⟩⟩
      have hb := hafter b hb
      omega
    · exact ih at_

theorem Spaced.take {at_ : Nat} {l : List Grant} (h : Spaced guard at_ l) (k : Nat) : Spaced guard at_ (l.take k) :=
  ⟨h.apart.sublist (List.take_sublist k l), fun g hg => h.after g (List.mem_of_mem_take hg),
    fun g hg => h.ends g (List.mem_of_mem_take hg)⟩

/-- The map of a slot is laid from the start of the frame, and cut to 256 entries. -/
theorem dataMap_laid (s : State) (t w n : Nat) :
    ∃ l, (s.dataMap t w n).1 = (layGrants (s.rd TREE_MAPCTL_GUARD t) 0 l).take 256 := ⟨_, rfl⟩

/-! ### A visit of the walk (R381) -/

/-- A member on its visit, its deficit grown by its quantum when its stamp is behind. -/
def DrrM.woken (m : DrrM) (v : Nat) : DrrM := if m.stamp < v then { m with d := m.d + m.q, stamp := v } else m

theorem woken_d (m : DrrM) (v : Nat) : (m.woken v).d = if m.stamp < v then m.d + m.q else m.d := by
  rw [DrrM.woken]
  split <;> rfl

theorem woken_keeps (m : DrrM) (v : Nat) : (m.woken v).a = m.a ∧ (m.woken v).tot = m.tot ∧ (m.woken v).demand = m.demand := by
  rw [DrrM.woken]
  split <;> exact ⟨rfl, rfl, rfl⟩

theorem cutTo_le (pre guard tot cap k : Nat) : cutTo pre guard tot cap k ≤ k := by
  induction k with
  | zero => exact Nat.le_refl 0
  | succ k ih =>
    rw [cutTo]
    split
    · exact Nat.le_refl _
    · exact Nat.le_succ_of_le ih

theorem cutTo_fits (pre guard tot cap k : Nat) :
    walkUnits pre guard (tot + cutTo pre guard tot cap k) - walkUnits pre guard tot ≤ cap := by
  induction k with
  | zero => rw [cutTo, Nat.add_zero, Nat.sub_self]; exact Nat.zero_le cap
  | succ k ih =>
    rw [cutTo]
    split
    · assumption
    · exact ih

/-- What a visit leaves: a member cut at the units left, one that leaves without demand, or one kept for the next round. -/
theorem visit_cases {x y : Walk} {m : DrrM} {rest : List DrrM} {stop : Bool} (h : x.visit pre guard m rest = (y, stop)) :
    let d := if m.stamp < x.v then m.d + m.q else m.d
    ∃ k m', 136 * k ≤ d ∧ walkUnits pre guard (m.tot + k) - walkUnits pre guard m.tot ≤ x.cap ∧
      m'.a = m.a ∧ m'.tot = m.tot + k ∧
      (stop = true → y.todo = m' :: rest ∧ y.p = m.a ∧ m'.d = d - 136 * k ∧ y.gone = x.gone ∧ y.done = x.done) ∧
      (stop = false → y.todo = rest ∧ y.cap + (walkUnits pre guard (m.tot + k) - walkUnits pre guard m.tot) = x.cap ∧
        (if m.demand ≤ 136 * k then y.gone = m' :: x.gone ∧ y.done = x.done ∧ m'.d = 0
         else y.done = x.done ++ [m'] ∧ y.gone = x.gone ∧ m'.d = d - 136 * k)) := by
  intro d
  have hd : (m.woken x.v).d = d := woken_d m x.v
  obtain ⟨ha, htot, hdemand⟩ := woken_keeps m x.v
  have hwoken : (if m.stamp < x.v then { m with d := m.d + m.q, stamp := x.v } else m) = m.woken x.v := rfl
  simp only [Walk.visit, hwoken, ha, htot, hdemand, hd] at h
  have hpays : 136 * min (ceilDiv m.demand.toNat 136) (d / 136) ≤ d := by omega
  generalize min (ceilDiv m.demand.toNat 136) (d / 136) = k at h hpays
  split at h
  · cases h
    have hcut := cutTo_le pre guard m.tot x.cap k
    refine ⟨cutTo pre guard m.tot x.cap k, (m.woken x.v).give (cutTo pre guard m.tot x.cap k), by omega,
      cutTo_fits pre guard m.tot x.cap k, ha, ?_, fun _ => ⟨rfl, rfl, ?_, rfl, rfl⟩, nofun⟩
    · rw [DrrM.give, htot]
    · rw [DrrM.give, hd]
  · next hfits =>
    have hfits := Nat.le_of_not_lt hfits
    have hleft : ((m.woken x.v).give k).demand ≤ 0 ↔ m.demand ≤ 136 * k := by
      rw [DrrM.give, hdemand]
      exact sub_nonpos
    have hgiven : ((m.woken x.v).give k).tot = m.tot + k := by rw [DrrM.give, htot]
    simp only [hleft] at h
    split at h
    · next hdone =>
      cases h
      refine ⟨k, { (m.woken x.v).give k with d := 0, demand := 0 }, hpays, hfits, ha, hgiven, nofun,
        fun _ => ⟨rfl, Nat.sub_add_cancel hfits, ?_⟩⟩
      rw [if_pos hdone]
      exact ⟨rfl, rfl, rfl⟩
    · next hdone =>
      cases h
      refine ⟨k, (m.woken x.v).give k, hpays, hfits, ha, hgiven, nofun, fun _ => ⟨rfl, Nat.sub_add_cancel hfits, ?_⟩⟩
      rw [if_neg hdone, DrrM.give, hd]
      exact ⟨rfl, rfl, rfl⟩

/-- Settles O47: the map is laid with the guard between its entries, and the walk visits one member at a time. -/
theorem computedMapsKeepTheGuard : Obligations.ComputedMapsKeepTheGuard := by
  refine ⟨fun s t w n => ?_, fun s t w n hshot => if_pos hshot, fun s t w n hshot hpair => ?_,
    fun pre guard x y m rest stop h => visit_cases h⟩
  · intro m guard
    obtain ⟨l, hl⟩ := dataMap_laid s t w n
    have hspaced := (layGrants_spaced guard 0 l).take 256
    rw [← hl] at hspaced
    refine ⟨?_, hspaced.apart, hspaced.ends⟩
    rw [show m = _ from hl]
    exact List.length_take_le 256 _
  · rw [State.imgMap, hshot, hpair]
    rfl

end Sys2Proof.Machine
end

section
/-! PROOF. The queue of commands loses its front command at each step and nothing else (R187). -/

namespace Sys2Proof.Machine

/-- A step answers a next state, whose queue is the rest of the queue. -/
theorem step_takes_front (s : State) : ∃ t, step s = .next t ∧ t.pending = s.pending.tail := by
  obtain ⟨t, hstep, htidy⟩ := step_answers s
  exact ⟨t, hstep, htidy.queue⟩

/-- A run of `k` steps takes the first `k` commands: its first step the front one, the others those of the rest. -/
theorem run_takes_front (k : Nat) (s : State) : ∃ t, run k s = some t ∧ t.pending = s.pending.drop k := by
  induction k generalizing s with
  | zero => exact ⟨s, rfl, rfl⟩
  | succ k ih =>
    obtain ⟨u, hstep, hfront⟩ := step_takes_front s
    obtain ⟨t, hrun, hrest⟩ := ih u
    refine ⟨t, ?_, ?_⟩
    · rw [run, hstep]
      exact hrun
    · rw [hrest, hfront, List.drop_tail]

/-- Settles O60: the lemma of one step, and an induction on the number of steps. -/
theorem commandsLeaveTheQueueInOrder : Obligations.CommandsLeaveTheQueueInOrder :=
  ⟨step_takes_front, run_takes_front⟩

end Sys2Proof.Machine
end

section
/-! PROOF. Intake: what becomes of the packet of a command (R187–R191, R196, R202, R625). -/

namespace Sys2Proof.Machine

open Ev Reg

variable {s t u v : State} {i : Instr} {opc : Nat} {p : HostPkt} {bursts : Option (List Burst)} {c d : Cmd}

/-! ### The row of a listed command -/

/-- The row of a command's packet is intake with the work of the commands. -/
theorem exec_of_command (h : commandOf i = some (opc, p, bursts)) (s : State) :
    exec i s = .next (s.intakeWith (State.perform bursts) opc p) := by
  cases i with
  | svcNop | svcRecall | svcLoop | regRead | regWrite | memRead | memWrite | coreLoad | coreStartCmd | coreHaltCmd | imgStore
  | pwrMode | pwrReset | pwrRead | timeRestep | timeTod | timeRead | rtcSet | keyErase | keyZeroise | lineRate | lineTrace
  | treeReflect | treeDiscover | treeActivate | treeDeactivate | monInject | monSeq | calStart | cntRead | fwdBind
  | fwdUnbind =>
    cases h
    rfl
  | pwrDomainOff | pwrDomainOn | pwrDomainReset | keyLoad | keyLoadImageKey | keyLoadRecover | keyIdentIdentity
  | keyIdentStatus | lineEnableOn | lineEnableOff | lineLoadRecompute | lineLoadExplicit | treeEnableOn | treeEnableOff
  | evtCfgCode | evtCfgRate | evtCfgStream | evtCfgRead | queSetQueue | queSetShaper | queSetPageLimit | queSetSample =>
    obtain ⟨hform, h⟩ := Option.ite_none_right_eq_some.1 h
    cases h
    exact congrArg Host.Outcome.next (if_pos hform)
  | _ => cases h

/-! ### Completions of a command that waits -/

/-- A command's completion is a matter of the service link alone where the command is not one of an image (R121). -/
theorem complete_frame_of_lives (h : s.lives c) (hload : c.opcode ≠ 0x0401) (hstore : c.opcode ≠ 0x0501)
    (st detail result : Nat) (data : List PWord) :
    s.complete c.tag st detail result data = { s with svc := (s.complete c.tag st detail result data).svc } := by
  have hno : ¬(c.opcode = 0x0401 ∨ c.opcode = 0x0501) := not_or.2 ⟨hload, hstore⟩
  rw [complete_of_lives h, State.imgLast, if_neg hno, queueCompletion_frame]
  rfl

/-- What the completion of a packet's command with a status leaves. -/
theorem completes_waiting (h : s.cmdAt p.tag = some c) (htag : c.tag = p.tag) (hstage : c.stage ≠ .done) (st k : Nat) :
    let t := s.complete p.tag st k
    Answered s t c st k 0 [] ∧ t = { s with svc := t.svc, regs := t.regs } ∧
      (c.opcode ≠ 0x0401 → c.opcode ≠ 0x0501 → t.regs = s.regs) := by
  have hlives := lives_of_cmdAt h htag hstage
  rw [← htag]
  refine ⟨lives_answered hlives st k 0 [], complete_same s _ _ _ _ _, fun hload hstore => ?_⟩
  rw [complete_frame_of_lives hlives hload hstore]

/-! ### The slot of a packet -/

/-- The command that a packet brings, as its slot holds it (R187). -/
def State.arriving (s : State) (opc : Nat) (p : HostPkt) : Cmd :=
  ⟨p, opc, .waiting, s.svc.seq, none, false, s.now, [], 0, s.samplesFor opc p.words⟩

theorem cmdAt_takeSlot (s : State) (opc : Nat) (p : HostPkt) : (s.takeSlot opc p).cmdAt p.tag = some (s.arriving opc p) :=
  cmdAt_setCmd _ _ _

/-- A note of a page that an event goes with is no matter of the service link. -/
theorem noted_svc {q : Prop} [Decidable q] (s : State) (f : Field) (e : Code) (page : Nat) :
    (if q then (s.wr f 1 page).occur e page else s).svc = s.svc := by
  split
  · rw [occur_svc, wr_svc]
  · rfl

/-- Accepting a counter is no matter of the service link (R196). -/
theorem cmdAt_acceptCounter (s : State) (page ctr tag : Nat) : (s.acceptCounter page ctr).cmdAt tag = s.cmdAt tag := by
  have hsvc : (s.acceptCounter page ctr).svc = s.svc := by
    unfold State.acceptCounter
    rw [noted_svc, noted_svc, wr_svc, wr_svc]
  rw [State.cmdAt, hsvc, State.cmdAt]

/-- A packet of a page whose CHECK fails is noted as SVC_AUTH_FAIL (R196). -/
theorem applyCrit_auth (hcrit : p.crit = true) (h : s.critCheck opc p = .fails eAuth) :
    s.applyCrit opc p = (s.occur SVC_AUTH_FAIL p.page, some eAuth) := by
  unfold State.applyCrit
  rw [hcrit, h]
  rfl

/-- A packet whose counter is not above the last one is counted as SVC_REPLAY (R196). -/
theorem applyCrit_replay (hcrit : p.crit = true) (h : s.critCheck opc p = .fails eReplay) :
    s.applyCrit opc p = (s.count SVC_REPLAY p.page, some eReplay) := by
  unfold State.applyCrit
  rw [hcrit, h]
  rfl

/-- A packet that passes steps 8 to 10 leaves its command in its slot, with what verified it noted (R195). -/
theorem cmdAt_applyCrit (hslot : s.cmdAt p.tag = some c) (h : s.applyCrit opc p = (v, none)) :
    ∃ auth, v.cmdAt p.tag = some { c with auth := auth } := by
  unfold State.applyCrit at h
  split at h
  · cases h
    exact ⟨c.auth, hslot⟩
  · split at h
    · repeat' split at h
      all_goals cases h
    · cases h
      exact ⟨c.auth, hslot⟩
    · next key _ =>
      dsimp only at h
      rw [cmdAt_acceptCounter, hslot] at h
      cases h
      exact ⟨_, cmdAt_setCmd _ _ _⟩

/-- The command of a packet that passes steps 3 to 10 has the packet's tag and opcode, and waits. -/
theorem waiting_of_applyCrit (h : (s.takeSlot opc p).applyCrit opc p = (v, none)) (hd : v.cmdAt p.tag = some d) :
    d.tag = p.tag ∧ d.opcode = opc ∧ d.stage ≠ .done := by
  obtain ⟨auth, hslot⟩ := cmdAt_applyCrit (cmdAt_takeSlot s opc p) h
  rw [hslot] at hd
  cases hd
  exact ⟨rfl, rfl, nofun⟩

/-! ### The outcomes of intake (R191) -/

/-- The packet comes by a path that takes commands: the boot port, or the link while it is UP or loops (R201, R625). -/
structure Comes (s : State) (p : HostPkt) : Prop where
  live : s.svcLive = true
  path : p.boot = true ∨ s.rd SVC_STAT_LINK = 4 ∨ s.rd SVC_STAT_LINK = 7

/-- The packet finds intake open and its slot free. -/
structure Enters (s : State) (p : HostPkt) : Prop extends Comes s p where
  isOpen : s.intakeOpen p.boot = true
  free : s.cmdAt p.tag = none

variable (perform : Cmd → State → State)

theorem Comes.way (h : Comes s p) :
    (!s.svcLive || (!p.boot && decide (s.rd SVC_STAT_LINK ≠ 4) && decide (s.rd SVC_STAT_LINK ≠ 7))) = false := by
  obtain ⟨hlive, hpath⟩ := h
  rcases hpath with h | h | h <;> simp [hlive, h]

theorem intakeWith_closed (h : Comes s p) (hopen : s.intakeOpen p.boot = false) :
    s.intakeWith perform opc p = s.count SVC_NO_INTAKE := by
  unfold State.intakeWith
  simp only [h.way, hopen, Bool.false_eq_true, if_false, Bool.not_false, if_true]

theorem intakeWith_busy (h : Comes s p) (hopen : s.intakeOpen p.boot = true) (hbusy : s.cmdAt p.tag ≠ none) :
    s.intakeWith perform opc p = s.count SVC_TAG_DUP := by
  unfold State.intakeWith
  simp only [h.way, hopen, Option.isSome_iff_ne_none.2 hbusy, Bool.false_eq_true, if_false, Bool.not_true, if_true]

theorem intakeWith_early (h : Enters s p) {st : Nat} (hearly : (s.takeSlot opc p).earlyCheck opc p = some st) :
    s.intakeWith perform opc p = (s.takeSlot opc p).complete p.tag st := by
  unfold State.intakeWith
  simp only [h.way, h.isOpen, h.free, hearly, Bool.false_eq_true, if_false, Bool.not_true, Option.isSome_none]

theorem intakeWith_crit (h : Enters s p) {st : Nat} (hearly : (s.takeSlot opc p).earlyCheck opc p = none)
    (hcrit : (s.takeSlot opc p).applyCrit opc p = (v, some st)) : s.intakeWith perform opc p = v.complete p.tag st := by
  unfold State.intakeWith
  simp only [h.way, h.isOpen, h.free, hearly, hcrit, Bool.false_eq_true, if_false, Bool.not_true, Option.isSome_none]

theorem intakeWith_late (h : Enters s p) {st : Nat} (hearly : (s.takeSlot opc p).earlyCheck opc p = none)
    (hcrit : (s.takeSlot opc p).applyCrit opc p = (v, none)) (hlate : v.lateCheck opc p = some st) :
    s.intakeWith perform opc p = v.complete p.tag st := by
  unfold State.intakeWith
  simp only [h.way, h.isOpen, h.free, hearly, hcrit, hlate, Bool.false_eq_true, if_false, Bool.not_true, Option.isSome_none]

theorem intakeWith_waits (h : Enters s p) (hearly : (s.takeSlot opc p).earlyCheck opc p = none)
    (hcrit : (s.takeSlot opc p).applyCrit opc p = (v, none)) (hlate : v.lateCheck opc p = none)
    (hpick : ∀ e, v.pick = some e → e.tag ≠ p.tag) (hd : v.cmdAt p.tag = some d) :
    s.intakeWith perform opc p = v.judgeWaiting perform d := by
  unfold State.intakeWith
  simp only [h.way, h.isOpen, h.free, hearly, hcrit, hlate, Bool.false_eq_true, if_false, Bool.not_true, Option.isSome_none]
  cases hnext : v.pick with
  | none => simp only [hd]
  | some e => simp only [hpick e hnext, if_false, hd]

theorem intakeWith_starts (h : Enters s p) (hearly : (s.takeSlot opc p).earlyCheck opc p = none)
    (hcrit : (s.takeSlot opc p).applyCrit opc p = (v, none)) (hlate : v.lateCheck opc p = none) (hpick : v.pick = some d)
    (htag : d.tag = p.tag) : s.intakeWith perform opc p = perform d (v.markStarted d) := by
  unfold State.intakeWith
  simp only [h.way, h.isOpen, h.free, hearly, hcrit, hlate, hpick, htag, Bool.false_eq_true, if_false, Bool.not_true,
    Option.isSome_none, if_true]

/-! ### A command that waits is judged (R189, R191) -/

theorem judgeWaiting_passes (hreg : c.opcode / 256 ≠ 2) (hmem : c.opcode / 256 ≠ 3)
    (h : ((perform c (s.markStarted c)).failed c.tag fun st => !s.instanceHeld c || eFixed st) = false) :
    s.judgeWaiting perform c = s := by
  unfold State.judgeWaiting
  simp only [hreg, hmem, or_self, if_false, h, Bool.false_eq_true]

theorem judgeWaiting_access (h : c.opcode / 256 = 2 ∨ c.opcode / 256 = 3) :
    (∀ st k, c.reachCheck (c.opcode % 2 = 0) = some (st, k) → s.judgeWaiting perform c = s.complete c.tag st k) ∧
      (c.reachCheck (c.opcode % 2 = 0) = none → s.judgeWaiting perform c = s) := by
  unfold State.judgeWaiting
  rw [if_pos h]
  exact ⟨fun st k hk => by rw [hk], fun hk => by rw [hk]⟩

/-! ### Packets of an opcode that no command has (R202) -/

/-- The opcode of no command is judged last of steps 3 to 6: with its queue enabled for its page and a header that is well
formed it is `E_OPCODE`. -/
theorem earlyCheck_unlisted (hopc : findSpec cmdTable opc = none) (hqen : (s.rd SVC_CTL_QEN).testBit (p.tag.val / 64) = true)
    (hpage : s.rdb SVC_QCFG_SHARED 0 (p.tag.val / 64) = true ∨ s.rd SVC_QCFG_OWNER 0 (p.tag.val / 64) = p.page.val)
    (hrsvd : p.rsvd = 0) (hpsn : p.psn = false) : s.earlyCheck opc p = some eOpcode := by
  unfold State.earlyCheck
  rcases hpage with hpage | hpage <;> simp [hopc, hqen, hpage, hrsvd, hpsn]

/-- Only `QUE.SET` samples at its intake (R426). -/
theorem samplesFor_of_ne (s : State) (h : opc ≠ 0x0F03) (ws : List Word) : s.samplesFor opc ws = [] :=
  if_neg fun hq => h hq.1

/-- No counter below those of the event path's own codes is one that the event path counts itself. -/
theorem not_evPathCounter_of_lt {x : Nat} (h : x < 24587) : ¬ evPathCounter x := by
  have haval : EVT_AVALANCHE.base = 24590 := by decide +kernel
  have hcoal : EVT_COALESCED.base = 24592 := by decide +kernel
  have hcoalP0 : EVT_P0_COALESCED.base = 24593 := by decide +kernel
  rw [evPathCounter, haval, hcoal, hcoalP0]
  omega

theorem noIntake_apart : ¬ evPathCounter (SVC_NO_INTAKE.base + 0) := by
  unfold evPathCounter
  decide +kernel

theorem tagDup_apart : ¬ evPathCounter (SVC_TAG_DUP.base + 0) := by
  unfold evPathCounter
  decide +kernel

theorem replay_apart (page : Fin 64) : ¬ evPathCounter (SVC_REPLAY.base + page) := by
  have hreplay : SVC_REPLAY.base + 64 ≤ 24587 := by decide +kernel
  exact not_evPathCounter_of_lt (by omega)

/-- A completion counts nothing. -/
theorem counted_complete {e : Code} {j k : Nat} (h : e.counted s t j k) (tag st detail result : Nat) (data : List PWord) :
    e.counted s (t.complete tag st detail result data) j k := by
  rw [complete_same]
  exact h

/-- Settles O29, outcome by outcome of intake. -/
theorem commandIntake : Obligations.CommandIntake := by
  refine ⟨fun i opc p bursts s hi hlive hpath => ⟨fun hopen => ?_, fun hopen hbusy => ?_, fun hopen hfree => ?_⟩,
    fun opc p s hopc hlive hpath hopen hfree hqen hpage hrsvd hpsn => ?_,
    fun bursts s c hlive hpick => exec_commandStart hlive hpick⟩
  · exact ⟨_, (exec_of_command hi s).trans (by rw [intakeWith_closed _ ⟨hlive, hpath⟩ hopen]), count_events _ _ _ _,
      count_counted _ _ _ _ noIntake_apart⟩
  · exact ⟨_, (exec_of_command hi s).trans (by rw [intakeWith_busy _ ⟨hlive, hpath⟩ hopen hbusy]), count_events _ _ _ _,
      count_counted _ _ _ _ tagDup_apart⟩
  · have hin : Enters s p := ⟨⟨hlive, hpath⟩, hopen, hfree⟩
    intro u c
    have hslot : u.cmdAt p.tag = some c := cmdAt_takeSlot s opc p
    refine ⟨fun st hearly => ?_, fun hearly hcrit hfails => ?_, fun hearly hcrit hfails => ?_,
      fun v hearly hcrit => ⟨fun st d hlate hd => ?_, fun d hlate hd hpick => ⟨fun hpass hreg hmem => ?_,
        fun st k hacc hreach => ?_, fun hacc hreach => ?_⟩, fun d hlate hpick htag => ?_⟩⟩
    · exact ⟨_, (exec_of_command hi s).trans (by rw [intakeWith_early _ hin hearly]), completes_waiting hslot rfl nofun st 0⟩
    · have happly := applyCrit_auth hcrit hfails
      have hslot' : (u.occur SVC_AUTH_FAIL p.page).cmdAt p.tag = some c := by rw [State.cmdAt, occur_svc]; exact hslot
      obtain ⟨hans, -, -⟩ := completes_waiting hslot' rfl nofun eAuth 0
      exact ⟨_, (exec_of_command hi s).trans (by rw [intakeWith_crit _ hin hearly happly]), hans.of_svc (occur_svc _ _ _ _),
        raised_of_evt (occur_raised u SVC_AUTH_FAIL p.page []) (complete_evt _ _ _ _ _ _)⟩
    · have happly := applyCrit_replay hcrit hfails
      have hslot' : (u.count SVC_REPLAY p.page).cmdAt p.tag = some c := by rw [State.cmdAt, count_svc]; exact hslot
      obtain ⟨hans, -, -⟩ := completes_waiting hslot' rfl nofun eReplay 0
      exact ⟨_, (exec_of_command hi s).trans (by rw [intakeWith_crit _ hin hearly happly]), hans.of_svc (count_svc _ _ _ _),
        counted_complete (count_counted u _ _ _ (replay_apart p.page)) _ _ _ _ _⟩
    · obtain ⟨htag, hopc, hstage⟩ := waiting_of_applyCrit hcrit hd
      obtain ⟨hans, hframe, hregs⟩ := completes_waiting hd htag hstage st 0
      rw [hopc] at hregs
      exact ⟨_, (exec_of_command hi s).trans (by rw [intakeWith_late _ hin hearly hcrit hlate]), hans, hframe, hregs⟩
    · obtain ⟨htag, hopc, hstage⟩ := waiting_of_applyCrit hcrit hd
      rw [← htag] at hpass
      rw [exec_of_command hi s, intakeWith_waits _ hin hearly hcrit hlate hpick hd,
        judgeWaiting_passes _ (hopc ▸ hreg) (hopc ▸ hmem) hpass]
    · obtain ⟨htag, hopc, hstage⟩ := waiting_of_applyCrit hcrit hd
      obtain ⟨hans, hframe, hregs⟩ := completes_waiting hd htag hstage st k
      subst hopc
      refine ⟨_, (exec_of_command hi s).trans ?_, hans, ?_⟩
      · rw [intakeWith_waits _ hin hearly hcrit hlate hpick hd, (judgeWaiting_access _ hacc).1 st k hreach, htag]
      · rw [hframe, hregs (by omega) (by omega)]
    · obtain ⟨htag, hopc, hstage⟩ := waiting_of_applyCrit hcrit hd
      subst hopc
      rw [exec_of_command hi s, intakeWith_waits _ hin hearly hcrit hlate hpick hd, (judgeWaiting_access _ hacc).2 hreach]
    · rw [exec_of_command hi s, intakeWith_starts _ hin hearly hcrit hlate hpick htag]
  · have hin : Enters s p := ⟨⟨hlive, hpath.imp_right .inl⟩, hopen, hfree⟩
    have hslot := cmdAt_takeSlot s opc.toNat p
    have hne (n : Nat) (hn : (findSpec cmdTable n).isSome = true) : opc.toNat ≠ n := fun e => by
      rw [← e, hopc] at hn
      cases hn
    rw [State.arriving, samplesFor_of_ne s (hne _ (by decide))] at hslot
    obtain ⟨hans, hframe, hregs⟩ := completes_waiting hslot rfl nofun eOpcode 0
    have hearly := earlyCheck_unlisted (s := s.takeSlot opc.toNat p) hopc hqen hpage hrsvd hpsn
    refine ⟨_, ?_, hans, ?_⟩
    · show Host.Outcome.next (if (findSpec cmdTable opc.toNat).isNone then _ else _) = _
      rw [hopc, if_pos Option.isNone_none, intakeWith_early _ hin hearly]
    · rw [hframe, hregs (hne _ (by decide)) (hne _ (by decide))]
      rfl

end Sys2Proof.Machine
end

section
/-! PROOF. Reads and writes of the service link, and the CNT and EVT commands (R182, R204, R547, R549, R554, R561, R569,
R570). -/

namespace Sys2Proof.Machine

open Ev Reg

section Observed
variable {s t u v : State} {p : HostPkt} {c : Cmd} {i : Instr} {opc : Nat} {bursts : Option (List Burst)}

/-- The row of a command that starts does its work. -/
theorem Starts.exec (h : Starts s opc p c u) (hi : commandOf i = some (opc, p, bursts)) :
    exec i s = .next (State.perform bursts c u) := by
  rw [exec_of_command hi, h.intakeWith]

/-! ### Reads leave the service link as it is -/

theorem svc_ite {q : Prop} [Decidable q] {x y : PWord × State} (hx : x.2.svc = s.svc) (hy : y.2.svc = s.svc) :
    (if q then x else y).2.svc = s.svc := by
  split
  · exact hx
  · exact hy

theorem svc_latchWords (s : State) (m : Nat) (l : List (Nat × PWord)) : (s.latchWords m l).svc = s.svc := rfl

theorem svc_latchFrom (s : State) (m a : Nat) (l : List Nat) : (s.latchFrom m a l).svc = s.svc := rfl

theorem svc_latchShown (s : State) (m : Nat) (l : List Nat) : (s.latchShown m l).svc = s.svc := rfl

theorem svc_cntLoad (s : State) (m a le : Nat) : (s.cntLoad m a le).2.svc = s.svc := by
  have hread := (cntRead_noted s a le).svc
  unfold State.cntLoad
  dsimp only
  split
  · rw [svc_latchWords, svc_latchWords, hread]
  · split
    · rw [svc_latchWords]
    · rw [svc_latchWords, hread]

theorem svc_tsqPop (s : State) : s.tsqPop.2.svc = s.svc := by
  unfold State.tsqPop
  repeat' split
  all_goals rfl

theorem svc_popBev (s : State) (k : Nat) : (s.popBev k).2.svc = s.svc := by
  unfold State.popBev
  dsimp only
  repeat' split
  all_goals rfl

/-- A read of a register keeps the service link, whatever it latches, removes or clears. -/
theorem svc_busRead (s : State) (m a le : Nat) : (s.busRead m a le).2.svc = s.svc := by
  unfold State.busRead
  extract_lets
  refine svc_ite (svc_cntLoad s m a le) (svc_ite (noteRead_noted s _ _ _ _).svc (svc_ite ?_ (svc_ite ?_
    (svc_ite (svc_latchShown s _ _) (svc_ite rfl (svc_ite ?_ (svc_ite ?_ (svc_ite ?_ rfl))))))))
  · rw [svc_latchFrom, svc_latchFrom]
  · rw [svc_latchFrom, svc_tsqPop]
  · exact svc_ite (svc_latchShown s _ _) (svc_ite rfl rfl)
  · refine svc_ite ?_ (svc_ite rfl (svc_ite (wr_svc s _ _ _ _ _) rfl))
    rw [svc_latchFrom, svc_popBev]
  · exact svc_ite (svc_latchShown s _ _) (svc_ite rfl rfl)

theorem svc_decErr (s : State) (n unit a cause : Nat) : (s.decErr n unit a cause).svc = s.svc := by
  unfold State.decErr
  extract_lets x t
  have ht : t.svc = s.svc := count_svc _ _ _ _
  split
  · rw [wr_svc, wr_svc, wr_svc, ht]
  · rw [wr_svc, wr_svc, wr_svc, ht]

theorem svc_badAccess (s : State) (n unit a : Nat) (e : Bad) : (s.badAccess n unit a e).svc = s.svc := by
  cases e with
  | fault => rw [State.badAccess]
  | dec cause => rw [State.badAccess, svc_decErr]

theorem svc_linkRead {tag a : Nat} {w : Option PWord} (h : s.linkRead tag a = .ok (w, v)) : v.svc = s.svc := by
  unfold State.linkRead at h
  split at h
  · cases h
    exact svc_badAccess s _ _ _ _
  · split at h
    · cases h
    · split at h
      next g _ _ =>
        have hread := svc_busRead s (masterId extMaster 0) g 15
        generalize s.busRead (masterId extMaster 0) g 15 = r at h hread
        cases h
        exact hread
      next g _ _ =>
        have hread := (memRead_noted s g 15).svc
        generalize s.memRead g 15 = r at h hread
        cases h
        exact hread
      · cases h
        rfl

/-- A run of reads keeps the service link, and reads every word or stops at the first that fails. -/
theorem readRun_done {reach : Nat → Bool} {tag n a : Nat} {acc l : List PWord} {all_ : Bool}
    (h : State.readRun reach tag n a acc s = .ok (l, all_, v)) :
    v.svc = s.svc ∧ (all_ = true → l.length = acc.length + n) := by
  induction n generalizing a acc s with
  | zero =>
    cases h
    exact ⟨rfl, fun _ => rfl⟩
  | succ n ih =>
    unfold State.readRun at h
    split at h
    · cases h
      exact ⟨rfl, nofun⟩
    · split at h
      · cases h
      · next w r hread =>
        obtain ⟨hsvc, hlen⟩ := ih h
        refine ⟨hsvc.trans (svc_linkRead hread), fun hall => ?_⟩
        rw [hlen hall, List.length_cons]
        omega
      · next r hread =>
        cases h
        exact ⟨svc_linkRead hread, nofun⟩

/-! ### `REG.READ` and `MEM.READ` (R204) -/

/-- The form of an access command that passes its own checks: no reserved bit, and N in range (R182, R204). -/
structure Cmd.Asks (c : Cmd) (write : Bool) : Prop where
  clean : c.clean [if write then mask 33 0 else mask 29 0, mask 11 0]
  least : 1 ≤ (c.w 1).bits 11 0
  most : (c.w 1).bits 11 0 ≤ 2046

theorem Cmd.Asks.reachCheck {write : Bool} (h : c.Asks write) : c.reachCheck write = none := by
  obtain ⟨hclean, hleast, hmost⟩ := h
  unfold Cmd.reachCheck
  rw [show reservedAt c.pkt.words [if write then mask 33 0 else mask 29 0, mask 11 0] 0 = none from hclean]
  exact if_neg (by omega)

/-- A read command that finds all its words ready completes with those read up to the first that fails. -/
theorem cmdRead_completes {reach : Nat → Bool} {l : List PWord} {all_ : Bool} (h : c.Asks false) (hgot : c.got = [])
    (hrun : State.readRun reach c.tag ((c.w 1).bits 11 0) ((c.w 0).bits 29 0) [] u = .ok (l, all_, v)) :
    u.cmdRead reach c =
      v.complete c.tag (if all_ then eOk else eAddr) (if all_ then 0 else l.length) l.length l.reverse := by
  unfold State.cmdRead
  simp only [h.reachCheck, hgot, List.length_nil, Nat.sub_zero, Nat.add_zero, List.reverse_nil, hrun]

/-- A read command one of whose words has to wait keeps the words before it, and its request stands at the matrix. -/
theorem cmdRead_waits {reach : Nat → Bool} {l : List PWord} {pl : Place} (h : c.Asks false) (hgot : c.got = [])
    (hrun : State.readRun reach c.tag ((c.w 1).bits 11 0) ((c.w 0).bits 29 0) [] u = .error (pl, l, v)) (hv : v.running c) :
    u.cmdRead reach c =
      (v.setCmd c.tag (some { c with stage := .running, holds := true, got := l.reverse })).request extMaster (.link c.tag) pl
        none := by
  have hslot : v.cmdAt c.tag = some { c with stage := .running, holds := true } := hv
  unfold State.cmdRead
  simp only [h.reachCheck, hgot, List.length_nil, Nat.sub_zero, Nat.add_zero, List.reverse_nil, hrun, State.linkHeld, hslot,
    if_true]

/-- One word of memory that a read reaches and that need not wait is read. -/
theorem readRun_word {reach : Nat → Bool} {tag a g : Nat} (hreach : reach a = true)
    (hat : u.resolve extMaster a false = .ok (.mem g)) (hfree : u.linkWaits tag (.mem g) = false) :
    State.readRun reach tag 1 a [] u = .ok ([(u.memRead g 15).1], true, (u.memRead g 15).2) := by
  simp only [State.readRun, hreach, State.linkRead, hat, hfree, Bool.not_true, Bool.false_eq_true, if_false]

/-- The two read commands, and what each reaches (R204). -/
def Reads (s u : State) (p : HostPkt) (c : Cmd) (i : Instr) (reach : Nat → Bool) : Prop :=
  Starts s 0x0201 p c u ∧ i = .regRead p ∧ reach = regReach c.page ∨ Starts s 0x0301 p c u ∧ i = .memRead p ∧ reach = memReach

theorem Reads.exec {reach : Nat → Bool} (h : Reads s u p c i reach) : exec i s = .next (u.cmdRead reach c) := by
  obtain ⟨hstart, rfl, rfl⟩ | ⟨hstart, rfl, rfl⟩ := h
  · rw [hstart.exec rfl]
    simp only [State.perform, hstart.opcode]
  · rw [hstart.exec rfl]
    simp only [State.perform, hstart.opcode]

theorem Reads.running {reach : Nat → Bool} (h : Reads s u p c i reach) : u.running c := by
  obtain ⟨hstart, -⟩ | ⟨hstart, -⟩ := h
  · exact hstart.running
  · exact hstart.running

theorem Reads.opcode {reach : Nat → Bool} (h : Reads s u p c i reach) : c.opcode = 0x0201 ∨ c.opcode = 0x0301 := by
  obtain ⟨hstart, -⟩ | ⟨hstart, -⟩ := h
  · exact .inl hstart.opcode
  · exact .inr hstart.opcode

/-- What a completion in a state `v` of the work leaves, for a command that runs there and is none of an image. -/
theorem completes_running (h : v.running c) (hload : c.opcode ≠ 0x0401) (hstore : c.opcode ≠ 0x0501) (st detail result : Nat)
    (data : List PWord) :
    let t := v.complete c.tag st detail result data
    t = { v with svc := t.svc } ∧ Answered v t c st detail result data :=
  ⟨complete_frame h hload hstore _ _ _ _, answered_complete h hload hstore _ _ _ _⟩

/-- A read command answers with what its run of reads came to. -/
theorem Reads.completes {reach : Nat → Bool} {l : List PWord} {all_ : Bool} (h : Reads s u p c i reach) (hask : c.Asks false)
    (hgot : c.got = [])
    (hrun : State.readRun reach c.tag ((c.w 1).bits 11 0) ((c.w 0).bits 29 0) [] u = .ok (l, all_, v)) :
    ∃ t, Machine.exec i s = .next t ∧ t = { v with svc := t.svc } ∧
      Answered v t c (if all_ then eOk else eAddr) (if all_ then 0 else l.length) l.length l.reverse := by
  have hrunning : v.running c := by
    rw [State.running, State.cmdAt, (readRun_done hrun).1]
    exact h.running
  have hload : c.opcode ≠ 0x0401 := by rcases h.opcode with e | e <;> rw [e] <;> decide
  have hstore : c.opcode ≠ 0x0501 := by rcases h.opcode with e | e <;> rw [e] <;> decide
  exact ⟨_, h.exec.trans (by rw [cmdRead_completes hask hgot hrun]), completes_running hrunning hload hstore _ _ _ _⟩

/-! ### `REG.WRITE` and `MEM.WRITE` (R204) -/

/-- The two write commands, and what each reaches (R204). -/
def Writes (s u : State) (p : HostPkt) (c : Cmd) (i : Instr) (reach : Nat → Bool) (bursts : Option (List Burst)) : Prop :=
  (∃ l, Starts s 0x0202 p c u ∧ bursts = some l ∧ i = .regWrite p l ∧ reach = regReach 0) ∨
    Starts s 0x0302 p c u ∧ i = .memWrite p ∧ reach = stagingReach ∧ bursts = none

theorem Writes.exec {reach : Nat → Bool} (h : Writes s u p c i reach bursts) :
    exec i s = .next (u.cmdWrite reach bursts c) := by
  obtain ⟨l, hstart, rfl, rfl, rfl⟩ | ⟨hstart, rfl, rfl, rfl⟩ := h
  · rw [hstart.exec rfl]
    simp only [State.perform, hstart.opcode]
  · rw [hstart.exec rfl]
    simp only [State.perform, hstart.opcode]

theorem Writes.starts {reach : Nat → Bool} (h : Writes s u p c i reach bursts) :
    u.running c ∧ c.opcode ≠ 0x0401 ∧ c.opcode ≠ 0x0501 := by
  obtain ⟨l, hstart, -⟩ | ⟨hstart, -⟩ := h
  · exact ⟨hstart.running, by rw [hstart.opcode]; decide, by rw [hstart.opcode]; decide⟩
  · exact ⟨hstart.running, by rw [hstart.opcode]; decide, by rw [hstart.opcode]; decide⟩

/-- A write command that finds all its places ready completes with the number of words written. -/
theorem cmdWrite_completes {reach : Nat → Bool} {k st : Nat} (h : c.Asks true) (hput : c.put = 0)
    (hrun : State.writeRun reach c.tag ((c.w 0).bits 33 30) bursts ((c.pkt.words.drop 2).take ((c.w 1).bits 11 0))
      ((c.w 0).bits 29 0) 0 u = .ok (k, st, v)) :
    u.cmdWrite reach bursts c = v.complete c.tag st (if st = eOk then 0 else k) k := by
  unfold State.cmdWrite
  simp only [h.reachCheck, hput, List.drop_zero, Nat.add_zero, hrun]

/-- A write command answers with what its run of writes came to. -/
theorem Writes.completes {reach : Nat → Bool} {k st : Nat} (h : Writes s u p c i reach bursts) (hask : c.Asks true)
    (hput : c.put = 0)
    (hrun : State.writeRun reach c.tag ((c.w 0).bits 33 30) bursts ((c.pkt.words.drop 2).take ((c.w 1).bits 11 0))
      ((c.w 0).bits 29 0) 0 u = .ok (k, st, v)) (hv : v.cmdAt c.tag = u.cmdAt c.tag) :
    ∃ t, Machine.exec i s = .next t ∧ t = { v with svc := t.svc } ∧ Answered v t c st (if st = eOk then 0 else k) k [] := by
  obtain ⟨hrunning, hload, hstore⟩ := h.starts
  exact ⟨_, h.exec.trans (by rw [cmdWrite_completes hask hput hrun]),
    completes_running (hv.trans hrunning) hload hstore _ _ _ _⟩

/-- The payload of a write of one word. -/
theorem one_word {ws : List Word} (h : 3 ≤ ws.length) : (ws.drop 2).take 1 = [ws.getD 2 0] := by
  match ws, h with
  | _ :: _ :: w :: _, _ => rfl

/-- One word that a write reaches and that need not wait is written. -/
theorem writeRun_word {reach : Nat → Bool} {tag a g le : Nat} {w : Word} (hreach : reach a = true)
    (hat : u.resolve extMaster a true = .ok (.mem g)) (hfree : u.linkWaits tag (.mem g) = false) :
    State.writeRun reach tag le bursts [w] a 0 u = .ok (1, eOk, u.memWrite g le ⟨w, false⟩) := by
  simp only [State.writeRun, hreach, State.linkWrite, hat, hfree, Bool.not_true, Bool.false_eq_true, if_false, if_true,
    Nat.zero_add]

/-! ### `CNT.READ` (R547, R569) -/

/-- A snapshot reads the two words of a counter. -/
theorem snapshot_noted (s : State) (x : Nat) : Noted s (s.snapshot x).2 := by
  unfold State.snapshot
  split
  next t hcount =>
    split
    next r hchain =>
      have h := cntRead_noted s (cntAddr x) 15
      have h' := cntRead_noted t (cntAddr x + 1) 15
      rw [hcount] at h
      rw [hchain] at h'
      exact h.trans h'

theorem snapshots_noted (s : State) (x k : Nat) : Noted s (s.snapshots x k).2 := by
  unfold State.snapshots
  split
  next l t hfold =>
    have hall := List.foldlRecOn (motive := fun y : List (PWord × PWord) × State => Noted s y.2) (List.range k)
      (fun (y : List (PWord × PWord) × State) i => let (p, s) := y.2.snapshot (x + i); (p :: y.1, s)) (b := ([], s))
      (Noted.refl s) fun y hy i _ => by
        have hstep := hy.trans (snapshot_noted y.2 (x + i))
        generalize y.2.snapshot (x + i) = r at hstep ⊢
        exact hstep
    rw [hfold] at hall
    exact hall

/-- What `CNT.READ` asks: no reserved bit, and counters that the file has (R569). -/
structure Cmd.Counts (c : Cmd) : Prop where
  clean : c.clean [mask 19 0, mask 8 0]
  least : 1 ≤ (c.w 1).bits 8 0
  most : (c.w 1).bits 8 0 ≤ 256
  inFile : (c.w 0).bits 19 0 + (c.w 1).bits 8 0 ≤ 2 ^ 20

theorem Cmd.Counts.range (h : c.Counts) :
    ¬((c.w 1).bits 8 0 = 0 ∨ 256 < (c.w 1).bits 8 0 ∨ 2 ^ 20 < (c.w 0).bits 19 0 + (c.w 1).bits 8 0) := by
  obtain ⟨-, hleast, hmost, hfile⟩ := h
  omega

/-- The first counter that is another page's is reported, and none is read. -/
theorem cmdCntRead_page {j : Nat} (h : c.Counts) (hj : j < (c.w 1).bits 8 0)
    (hown : ∀ i, i < j → u.cntOwn c.page ((c.w 0).bits 19 0 + i) = true)
    (hbad : u.cntOwn c.page ((c.w 0).bits 19 0 + j) = false) : u.cmdCntRead c = u.complete c.tag ePage j := by
  have hfind : ((List.range ((c.w 1).bits 8 0)).find? fun i => !u.cntOwn c.page ((c.w 0).bits 19 0 + i)) = some j :=
    find?_least List.pairwise_lt_range (List.mem_range.2 hj) (by rw [hbad]; rfl) fun k _ hk => by rw [hown k hk]; rfl
  rw [State.cmdCntRead, unreserved_of_clean h.clean]
  dsimp only
  rw [if_neg h.range, hfind]

/-- Counters that the page may read are answered with their snapshots. -/
theorem cmdCntRead_own {l : List (PWord × PWord)} (h : c.Counts)
    (hown : ∀ i, i < (c.w 1).bits 8 0 → u.cntOwn c.page ((c.w 0).bits 19 0 + i) = true)
    (hsnap : u.snapshots ((c.w 0).bits 19 0) ((c.w 1).bits 8 0) = (l, v)) :
    u.cmdCntRead c = v.complete c.tag eOk 0 ((c.w 1).bits 8 0) (l.flatMap fun x => [x.1, x.2]) := by
  have hfind : ((List.range ((c.w 1).bits 8 0)).find? fun i => !u.cntOwn c.page ((c.w 0).bits 19 0 + i)) = none :=
    List.find?_eq_none.2 fun i hi => by simp [hown i (List.mem_range.1 hi)]
  rw [State.cmdCntRead, unreserved_of_clean h.clean]
  dsimp only
  rw [if_neg h.range, hfind, hsnap]

theorem exec_cntRead (h : Starts s 0x0E01 p c u) : exec (.cntRead p) s = .next (u.cmdCntRead c) := by
  rw [h.exec rfl]
  simp only [State.perform, h.opcode]

/-! ### `EVT.CFG` (R549, R554, R561, R570) -/

/-- The rows of `EVT.CFG`, by OP. -/
theorem exec_evtCfg (h : Starts s 0x0E02 p c u) :
    ((c.w 0).bits 35 33 = 0 → exec (.evtCfgCode p) s = .next (u.cmdEvtCfg c)) ∧
      ((c.w 0).bits 35 33 = 1 → exec (.evtCfgRate p) s = .next (u.cmdEvtCfg c)) ∧
      ((c.w 0).bits 35 33 = 2 → exec (.evtCfgStream p) s = .next (u.cmdEvtCfg c)) ∧
      ((c.w 0).bits 35 33 = 3 → exec (.evtCfgRead p) s = .next (u.cmdEvtCfg c)) := by
  have hword : c.w 0 = payloadWord p 0 := by rw [← h.pkt]; rfl
  have hwork : State.perform none c u = u.cmdEvtCfg c := by simp only [State.perform, h.opcode]
  rw [hword, ← hwork]
  exact ⟨fun e => h.exec (if_pos (.inl e)), fun e => h.exec (if_pos e), fun e => h.exec (if_pos e),
    fun e => h.exec (if_pos e)⟩

/-- The state with the priority and the record bit of a code set (R549). -/
def State.setEvCfg (s : State) (code : Nat) (cfg : Nat × Bool) : State :=
  { s with evt := { s.evt with cfg := sput (fun _ => none) s.evt.cfg code (some cfg) } }

theorem evCfg_setEvCfg (s : State) (code : Nat) (cfg : Nat × Bool) :
    sget (fun _ => none) (s.setEvCfg code cfg).evt.cfg code = some cfg := sget_sput s.evt.cfg code (some cfg)

theorem evCfg_setEvCfg_ne (s : State) {code k : Nat} (cfg : Nat × Bool) (h : k ≠ code) :
    sget (fun _ => none) (s.setEvCfg code cfg).evt.cfg k = sget (fun _ => none) s.evt.cfg k :=
  sget_sput_ne s.evt.cfg (some cfg) h

theorem cmdEvtCfg_code {e : Code} (hop : (c.w 0).bits 35 33 = 0) (hclean : c.clean [mask 35 33 + mask 11 0, mask 2 0, 0])
    (hcode : codeOf ((c.w 0).bits 11 0) = some e)
    (hok : e.kind = .event ∧ (c.w 1).bits 1 0 ≠ 0 ∨ e.kind = .priority0 ∧ (c.w 1).bits 1 0 = 0 ∧ (c.w 1).bit 2 = true) :
    u.cmdEvtCfg c = (u.setEvCfg ((c.w 0).bits 11 0) ((c.w 1).bits 1 0, (c.w 1).bit 2)).complete c.tag eOk := by
  unfold State.cmdEvtCfg
  dsimp only
  rw [if_pos hop, unreserved_of_clean hclean, hcode]
  dsimp only
  obtain ⟨hkind, hpri⟩ | ⟨hkind, hpri, hrec⟩ := hok
  · simp [hkind, hpri, State.setEvCfg]
  · simp [hkind, hpri, hrec, State.setEvCfg]

/-- The state with a new rate from the next interval on (R555, R570). -/
def State.setEvRate (s : State) (r : Nat) : State :=
  ({ s with evt := { s.evt with rateFrom := s.now / ticksMs + 1, rateOld := s.rd EVT_CTL_RATE } } : State).wr EVT_CTL_RATE r

theorem rd_setEvRate (s : State) {r : Nat} (h : r < 2 ^ 16) : (s.setEvRate r).rd EVT_CTL_RATE = r := by
  rw [State.setEvRate, rd_wr _ _ _ _ _ _ (by decide) (by decide)]
  exact Nat.mod_eq_of_lt h

theorem setEvRate_svc (s : State) (r : Nat) : (s.setEvRate r).svc = s.svc := by
  rw [State.setEvRate, wr_svc]

theorem setEvRate_frame (s : State) (r : Nat) :
    s.setEvRate r = { s with regs := (s.setEvRate r).regs, evt := { s.evt with rateFrom := s.now / ticksMs + 1, rateOld := s.rd EVT_CTL_RATE } } :=
  wr_frame (s := { s with evt := { s.evt with rateFrom := s.now / ticksMs + 1, rateOld := s.rd EVT_CTL_RATE } }) rfl EVT_CTL_RATE r 0 0 0

theorem cmdEvtCfg_rate (hop : (c.w 0).bits 35 33 = 1) (hclean : c.clean [mask 35 33, mask 15 0, 0])
    (hrate : (c.w 1).bits 15 0 ≠ 0) : u.cmdEvtCfg c = (u.setEvRate ((c.w 1).bits 15 0)).complete c.tag eOk := by
  unfold State.cmdEvtCfg
  dsimp only
  rw [if_neg (by omega), if_pos hop, unreserved_of_clean hclean, if_neg hrate]
  rfl

/-- The state with the two words of a stream stored (R561). -/
def State.setStream (s : State) (k : Nat) (w0 w1 : Word) : State :=
  (s.setReg (EVT_TLM_EN.addr 0 k 0) w0).setReg (EVT_TLM_PERIOD.addr 0 k 0) w1

theorem cmdEvtCfg_stream (hop : (c.w 0).bits 35 33 = 2) (hclean : c.clean [mask 35 33 + mask 3 0, mask 35 2, mask 35 20])
    (hok : tlmOk (c.w 1) (c.w 2) = true) :
    u.cmdEvtCfg c = (u.setStream ((c.w 0).bits 3 0) (c.w 1) (c.w 2)).complete c.tag eOk := by
  unfold State.cmdEvtCfg
  dsimp only
  rw [if_neg (by omega), if_neg (by omega), if_pos hop, unreserved_of_clean hclean, hok]
  rfl

/-- The words of a stream are two words apart from each other. -/
theorem reg_setStream (s : State) (k : Nat) (w0 w1 : Word) :
    (s.setStream k w0 w1).reg (EVT_TLM_EN.addr 0 k 0) = w0 ∧ (s.setStream k w0 w1).reg (EVT_TLM_PERIOD.addr 0 k 0) = w1 := by
  have hne : EVT_TLM_EN.addr 0 k 0 ≠ EVT_TLM_PERIOD.addr 0 k 0 := by
    simp only [Field.addr, EVT_TLM_EN, EVT_TLM_PERIOD]
    omega
  exact ⟨(reg_setReg_ne _ _ hne).trans (reg_setReg _ _ _), reg_setReg _ _ _⟩

theorem cmdEvtCfg_read {e : Code} (hop : (c.w 0).bits 35 33 = 3) (hclean : c.clean [mask 35 33 + mask 11 0, 0, 0])
    (hcode : codeOf ((c.w 0).bits 11 0) = some e) :
    ∃ r, u.cmdEvtCfg c = u.complete c.tag eOk 0 r
      (cleanWords (keptWords (sget (fun _ => none) u.evt.first ((c.w 0).bits 11 0)) ++
        keptWords (sget (fun _ => none) u.evt.latest ((c.w 0).bits 11 0)))) := by
  unfold State.cmdEvtCfg
  dsimp only
  rw [if_neg (by omega), if_neg (by omega), if_neg (by omega), if_pos hop, unreserved_of_clean hclean, hcode]
  exact ⟨_, rfl⟩

theorem memRead_one {g : Nat} (h : Starts s 0x0301 p c u) (hclean : c.clean [mask 29 0, mask 11 0])
    (hgot : c.got = []) (hn : (c.w 1).bits 11 0 = 1) (hreach : memReach ((c.w 0).bits 29 0) = true)
    (hat : u.resolve extMaster ((c.w 0).bits 29 0) false = .ok (.mem g)) (hfree : u.linkWaits c.tag (.mem g) = false) :
    ∃ t, exec (.memRead p) s = .next t ∧ t.mem = u.mem ∧ Answered (u.memRead g 15).2 t c eOk 0 1 [(u.memRead g 15).1] := by
  have hrun := readRun_word hreach hat hfree
  rw [← hn] at hrun
  obtain ⟨t, hexec, hframe, hans⟩ := Reads.completes (.inr ⟨h, rfl, rfl⟩) ⟨hclean, by omega, by omega⟩ hgot hrun
  have hmem : t.mem = (u.memRead g 15).2.mem := by rw [hframe]
  rw [if_pos rfl, if_pos rfl, List.reverse_singleton] at hans
  exact ⟨t, hexec, hmem.trans (by rw [(memRead_noted u g 15).same]), hans⟩

theorem memWrite_one {g : Nat} (h : Starts s 0x0302 p c u) (hclean : c.clean [mask 33 0, mask 11 0])
    (hput : c.put = 0) (hn : (c.w 1).bits 11 0 = 1) (hlen : 3 ≤ c.pkt.words.length)
    (hreach : stagingReach ((c.w 0).bits 29 0) = true)
    (hat : u.resolve extMaster ((c.w 0).bits 29 0) true = .ok (.mem g)) (hfree : u.linkWaits c.tag (.mem g) = false) :
    ∃ t, exec (.memWrite p) s = .next t ∧
      t = { u.memWrite g ((c.w 0).bits 33 30) ⟨c.w 2, false⟩ with svc := t.svc } ∧ Answered u t c eOk 0 1 [] := by
  have hrun := writeRun_word (bursts := none) (le := (c.w 0).bits 33 30) (w := c.w 2) hreach hat hfree
  have hword : [c.w 2] = (c.pkt.words.drop 2).take ((c.w 1).bits 11 0) := by
    rw [hn, one_word hlen, Cmd.w]
  rw [hword] at hrun
  obtain ⟨t, hexec, hframe, hans⟩ :=
    Writes.completes (.inr ⟨h, rfl, rfl, rfl⟩) ⟨hclean, by omega, by omega⟩ hput hrun (by rw [State.cmdAt, State.cmdAt]; rfl)
  rw [if_pos rfl] at hans
  exact ⟨t, hexec, hframe, hans.of_svc rfl⟩

theorem cntRead_page {j : Nat} (h : Starts s 0x0E01 p c u) (hcount : c.Counts) (hj : j < (c.w 1).bits 8 0)
    (hown : ∀ i, i < j → u.cntOwn c.page ((c.w 0).bits 19 0 + i) = true)
    (hbad : u.cntOwn c.page ((c.w 0).bits 19 0 + j) = false) :
    ∃ t, exec (.cntRead p) s = .next t ∧ Answered u t c ePage j 0 [] ∧ t = { u with svc := t.svc } := by
  have hdone := cmdCntRead_page hcount hj hown hbad
  exact h.completes (by decide) (by decide) ((exec_cntRead h).trans (by rw [hdone]))

theorem cntRead_own {l : List (PWord × PWord)} (h : Starts s 0x0E01 p c u) (hcount : c.Counts)
    (hown : ∀ i, i < (c.w 1).bits 8 0 → u.cntOwn c.page ((c.w 0).bits 19 0 + i) = true)
    (hsnap : u.snapshots ((c.w 0).bits 19 0) ((c.w 1).bits 8 0) = (l, v)) :
    ∃ t, exec (.cntRead p) s = .next t ∧ Answered v t c eOk 0 ((c.w 1).bits 8 0) (l.flatMap fun x => [x.1, x.2]) ∧
      t = { v with svc := t.svc } := by
  have hdone := cmdCntRead_own hcount hown hsnap
  have hv : v.cmdAt c.tag = u.cmdAt c.tag := by
    rw [State.cmdAt, ← congrArg (fun x => x.2.svc) hsnap, (snapshots_noted u _ _).svc, State.cmdAt]
  exact ⟨_, (exec_cntRead h).trans (by rw [hdone]), h.completesIn (by decide) (by decide) hv⟩

theorem evtCfg_code {e : Code} (h : Starts s 0x0E02 p c u) (hop : (c.w 0).bits 35 33 = 0)
    (hclean : c.clean [mask 35 33 + mask 11 0, mask 2 0, 0]) (hcode : codeOf ((c.w 0).bits 11 0) = some e)
    (hok : e.kind = .event ∧ (c.w 1).bits 1 0 ≠ 0 ∨ e.kind = .priority0 ∧ (c.w 1).bits 1 0 = 0 ∧ (c.w 1).bit 2 = true) :
    ∃ t, exec (.evtCfgCode p) s = .next t ∧ Answered u t c eOk 0 0 [] ∧
      t.evt = (u.setEvCfg ((c.w 0).bits 11 0) ((c.w 1).bits 1 0, (c.w 1).bit 2)).evt ∧
      t = { u with svc := t.svc, evt := { u.evt with cfg := t.evt.cfg } } := by
  obtain ⟨hans, hframe⟩ := h.completesFrom (st := eOk) (detail := 0) (result := 0) (data := [])
    (v := u.setEvCfg ((c.w 0).bits 11 0) ((c.w 1).bits 1 0, (c.w 1).bit 2)) (by decide) (by decide) rfl
  refine ⟨_, ((exec_evtCfg h).1 hop).trans (by rw [cmdEvtCfg_code hop hclean hcode hok]), hans, complete_evt .., ?_⟩
  rw [complete_evt]
  exact hframe

theorem evtCfg_rate (h : Starts s 0x0E02 p c u) (hop : (c.w 0).bits 35 33 = 1)
    (hclean : c.clean [mask 35 33, mask 15 0, 0]) (hrate : (c.w 1).bits 15 0 ≠ 0) :
    ∃ t, exec (.evtCfgRate p) s = .next t ∧ Answered u t c eOk 0 0 [] ∧ t.rd EVT_CTL_RATE = (c.w 1).bits 15 0 ∧
      t = { u with svc := t.svc, regs := t.regs, evt := { u.evt with rateFrom := u.now / ticksMs + 1, rateOld := u.rd EVT_CTL_RATE } } := by
  obtain ⟨hans, hframe⟩ := h.completesFrom (st := eOk) (detail := 0) (result := 0) (data := [])
    (v := u.setEvRate ((c.w 1).bits 15 0)) (by decide) (by decide) (setEvRate_svc ..)
  have hlt : (c.w 1).bits 15 0 < 2 ^ 16 := bitsOf_lt _ _ _
  refine ⟨_, ((exec_evtCfg h).2.1 hop).trans (by rw [cmdEvtCfg_rate hop hclean hrate]), hans, ?_, ?_⟩
  · rw [rd_complete_ne _ _ _ _ _ _ (by decide), rd_setEvRate u hlt]
  · rw [hframe, setEvRate_frame]

theorem evtCfg_stream (h : Starts s 0x0E02 p c u) (hop : (c.w 0).bits 35 33 = 2)
    (hclean : c.clean [mask 35 33 + mask 3 0, mask 35 2, mask 35 20]) (hok : tlmOk (c.w 1) (c.w 2) = true) :
    ∃ t, exec (.evtCfgStream p) s = .next t ∧ Answered u t c eOk 0 0 [] ∧
      t.reg (EVT_TLM_EN.addr 0 ((c.w 0).bits 3 0) 0) = c.w 1 ∧ t.reg (EVT_TLM_PERIOD.addr 0 ((c.w 0).bits 3 0) 0) = c.w 2 ∧
      t = { u with svc := t.svc, regs := t.regs } := by
  obtain ⟨hans, hframe⟩ := h.completesFrom (st := eOk) (detail := 0) (result := 0) (data := [])
    (v := u.setStream ((c.w 0).bits 3 0) (c.w 1) (c.w 2)) (by decide) (by decide) rfl
  obtain ⟨hen, hperiod⟩ := reg_setStream u ((c.w 0).bits 3 0) (c.w 1) (c.w 2)
  refine ⟨_, ((exec_evtCfg h).2.2.1 hop).trans (by rw [cmdEvtCfg_stream hop hclean hok]), hans, ?_, ?_, ?_⟩
  · rw [hframe]
    exact hen
  · rw [hframe]
    exact hperiod
  · rw [hframe]
    rfl

theorem evtCfg_read {e : Code} (h : Starts s 0x0E02 p c u) (hop : (c.w 0).bits 35 33 = 3)
    (hclean : c.clean [mask 35 33 + mask 11 0, 0, 0]) (hcode : codeOf ((c.w 0).bits 11 0) = some e) :
    ∃ t r, exec (.evtCfgRead p) s = .next t ∧ t = { u with svc := t.svc } ∧
      Answered u t c eOk 0 r (cleanWords (keptWords (sget (fun _ => none) u.evt.first ((c.w 0).bits 11 0)) ++
        keptWords (sget (fun _ => none) u.evt.latest ((c.w 0).bits 11 0)))) := by
  obtain ⟨r, hdone⟩ := cmdEvtCfg_read (u := u) hop hclean hcode
  obtain ⟨t, hexec, hans, hframe⟩ := h.completes (by decide) (by decide) (((exec_evtCfg h).2.2.2 hop).trans (by rw [hdone]))
  exact ⟨t, r, hexec, hframe, hans⟩

end Observed

/-- Settles O31, command by command. -/
theorem accessAndObservationCommandsComplete : Obligations.AccessAndObservationCommandsComplete := by
  refine ⟨fun s u v p c l reach i all_ h hclean hleast hmost hgot hrun => ?_,
    fun s u v p c l pl reach i h hclean hleast hmost hgot hrun hv => ?_,
    fun s u v p c reach i bursts k st h hclean hleast hmost hput hrun hv => ?_,
    fun s u p c g => memRead_one, fun s u p c g => memWrite_one,
    fun s u v p c l h hclean hleast hmost hfile => ⟨fun j hown hj hbad => ?_, fun hown hsnap => ?_⟩,
    fun s u p c e h hop hclean hcode hok => ?_, fun s u p c => evtCfg_rate,
    fun s u p c => evtCfg_stream, fun s u p c e => evtCfg_read⟩
  · obtain ⟨t, hexec, hframe, hans⟩ := Reads.completes h ⟨hclean, hleast, hmost⟩ hgot hrun
    refine ⟨t, hexec, hframe, fun hall => ?_, fun hall => ?_⟩
    · have hlen := (readRun_done hrun).2 hall
      rw [List.length_nil, Nat.zero_add] at hlen
      rwa [hall, if_pos rfl, if_pos rfl, hlen] at hans
    · rwa [hall, if_neg Bool.false_ne_true, if_neg Bool.false_ne_true] at hans
  · exact (Reads.exec h).trans (congrArg _ (cmdRead_waits ⟨hclean, hleast, hmost⟩ hgot hrun (hv.trans (Reads.running h))))
  · exact Writes.completes h ⟨hclean, hleast, hmost⟩ hput hrun hv
  · exact cntRead_page h ⟨hclean, hleast, hmost, hfile⟩ hj hown hbad
  · exact cntRead_own h ⟨hclean, hleast, hmost, hfile⟩ hown hsnap
  · obtain ⟨t, hexec, hans, hevt, hframe⟩ := evtCfg_code h hop hclean hcode hok
    refine ⟨t, hexec, hans, ?_, fun k hk => ?_, hframe⟩
    · rw [hevt, evCfg_setEvCfg]
    · rw [hevt, evCfg_setEvCfg_ne _ _ hk]

end Sys2Proof.Machine
end

section
/-! PROOF. A completion whose status is no status of the module (R201, R550, R555). -/

namespace Sys2Proof.Machine
open Ev Reg

/-- A status whose place among page 0's counters of statuses is the place of EVT_COALESCED: no status that a command answers
with, and one that `Completion` can hold. -/
def statusAtCoalesced : Nat := EVT_COALESCED.base - SVC_STATUS.base + 1

/-- A completion of page 0 with that status. -/
def completionAtCoalesced : Completion := ⟨0, false, 0, 0x0101, statusAtCoalesced, 0, ⟨0, false⟩, [], none, false⟩

/-- A module whose link is UP and sends that completion, in AVALANCHE: SVC_STATUS is configured to be recorded, at priority 2,
and its code is open. -/
def coalescingLink : State :=
  { (State.reset.wr PWR_DOM_STATE domOnSt 0 78).wr SVC_STAT_LINK lkUp with
    svc := { sending := some (.completion completionAtCoalesced) }
    evt := { cfg := [(SVC_STATUS.num, some (2, true))], aval := true, opens := [⟨SVC_STATUS.num, 0, 0, 0, none, none, false⟩] } }

/-- Both the status and the occurrence that coalesces are counted at that place. -/
theorem coalescingLink_countsTwice :
    (match exec .svcPacketSent coalescingLink with
      | .next t => t.cntAt EVT_COALESCED.base
      | _ => 0) = 2 := by
  decide +kernel

/-- Refutes O43: nothing holds the status of a completion below the number of statuses, so that the status of one that is sent
may be counted at the place of EVT_COALESCED, which then grows by two. -/
theorem not_packetEventsComplete : ¬ Obligations.PacketEventsComplete := by
  rintro ⟨-, hsent, -⟩
  obtain ⟨-, -, hcompletion, -⟩ := hsent coalescingLink (by decide +kernel) (by decide +kernel) rfl
  obtain ⟨t, hexec, -, -, -, -, -, -, hcounted, -⟩ := hcompletion completionAtCoalesced rfl rfl (by simp [coalescingLink]) rfl
  have hplace : SVC_STATUS.base + (20 * completionAtCoalesced.page + (completionAtCoalesced.status - 1)) = EVT_COALESCED.base := by
    decide +kernel
  have hnone : coalescingLink.cntAt EVT_COALESCED.base = 0 := by decide +kernel
  have hone := hcounted (by decide +kernel)
  unfold Code.counted at hone
  rw [hplace] at hone
  have htwo := coalescingLink_countsTwice
  rw [hexec] at htwo
  rw [hnone, show t.cntAt EVT_COALESCED.base = 2 from htwo] at hone
  exact absurd (hone (by decide +kernel) (by decide +kernel) (by decide +kernel)) (by decide)

end Sys2Proof.Machine
end

section
/-! PROOF. The states of the service link, its lanes, low-power states and loops (R167, R168, R170, R173, R175, R176, R179,
R210). -/

namespace Sys2Proof.Machine

open Ev Reg

section LinkStates
variable {s t u : State}

/-! ### Events beside `SVC_ALERT.LINK_LOST`

`Events` leaves `SVC_ALERT` open; of its fields only `P0_PEND` is ever set (R556). -/

/-- `LINK_LOST` reads the same. -/
def LostKept (s t : State) : Prop := t.rd SVC_ALERT_LINK_LOST = s.rd SVC_ALERT_LINK_LOST

theorem LostKept.of_regs (h : t.regs = s.regs) : LostKept s t := by
  unfold LostKept State.rd State.reg
  rw [h]

theorem LostKept.trans (h : LostKept s t) (k : LostKept t u) : LostKept s u := Eq.trans k h

theorem cntAdd_lostKept (s : State) (x k : Nat) : LostKept s (s.cntAdd x k).1 := by
  unfold State.cntAdd
  repeat' split
  all_goals exact LostKept.of_regs rfl

theorem occurP0_lostKept (s : State) (r : EvRec) : LostKept s (s.occurP0 r) := by
  have halert : LostKept s (s.wr SVC_ALERT_P0_PEND 1) :=
    rd_wr_apart s _ _ _ _ _ _ _ _ _ (by decide) (by decide) (by decide) (.inl (by decide))
  unfold State.occurP0
  dsimp only
  split
  · exact halert.trans (LostKept.of_regs rfl)
  · refine (halert.trans (LostKept.of_regs ?_)).trans (cntAdd_lostKept _ _ _)
    rfl

theorem enterAvalanche_lostKept (s : State) (cause : Nat) : LostKept s (s.enterAvalanche cause) := by
  unfold State.enterAvalanche
  refine (LostKept.trans (LostKept.of_regs ?_) (cntAdd_lostKept _ _ _)).trans (occurP0_lostKept _ _)
  rfl

theorem watchPath_lostKept (s : State) (ovr : Bool) : LostKept s (s.watchPath ovr) := by
  unfold State.watchPath
  repeat' split
  · exact LostKept.of_regs rfl
  · exact enterAvalanche_lostKept s _
  · exact enterAvalanche_lostKept s _
  · exact LostKept.of_regs rfl

theorem rateStep_lostKept (s : State) (pri : Nat) : LostKept s (s.rateStep pri).1 := by
  unfold State.rateStep
  split
  · exact LostKept.of_regs rfl
  · exact LostKept.of_regs rfl

theorem occurMain_lostKept (s : State) (r : EvRec) : LostKept s (s.occurMain r) := by
  unfold State.occurMain
  dsimp only
  repeat' split
  · refine LostKept.trans (LostKept.of_regs ?_) (cntAdd_lostKept _ _ _)
    rfl
  · exact LostKept.of_regs rfl
  · exact LostKept.of_regs rfl

theorem occurRec_lostKept (s : State) (c : Code) (j : Nat) (args : List Int) : LostKept s (s.occurRec c j args) := by
  unfold State.occurRec
  dsimp only
  repeat' split
  · exact LostKept.of_regs rfl
  · exact occurP0_lostKept s _
  · exact ((rateStep_lostKept s _).trans (watchPath_lostKept _ _)).trans (occurMain_lostKept _ _)

theorem addCnt_lostKept (s : State) (c : Code) (j k : Nat) : LostKept s (s.addCnt c j k) := by
  have hadd := cntAdd_lostKept s (c.base + j) k
  unfold State.addCnt
  dsimp only
  split
  · exact hadd
  · exact (hadd.trans (cntAdd_lostKept _ _ _)).trans (occurRec_lostKept _ _ _ _)
  · exact (hadd.trans (cntAdd_lostKept _ _ _)).trans (occurRec_lostKept _ _ _ _)

/-- An event leaves `LINK_LOST` as it was. -/
theorem occur_lostKept (s : State) (c : Code) (j : Nat) (args : List Int) : LostKept s (s.occur c j args) :=
  (addCnt_lostKept s c j 1).trans (occurRec_lostKept _ _ _ _)

/-! ### The state of the receive side (R170) -/

theorem link_toLink (s : State) {st : Nat} (h : st < 8) : (s.toLink st).link = st := by
  have hrd := rd_wr s SVC_STAT_LINK st 0 0 0 (by decide) (by decide)
  exact hrd.trans (Nat.mod_eq_of_lt h)

theorem rd_toLink (s : State) (st : Nat) (f : Field) (i a b : Nat) (hf : f.lo ≤ f.hi)
    (h : SVC_STAT_LINK.hi < f.lo ∨ f.hi < SVC_STAT_LINK.lo) : (s.toLink st).rd f i a b = s.rd f i a b :=
  rd_wr_apart s SVC_STAT_LINK f st 0 0 0 i a b (by decide) (by decide) hf h

theorem toLink_svc (s : State) (st : Nat) : (s.toLink st).svc = { s.svc with progAt := s.now } := rfl

theorem toLink_frame (s : State) (st : Nat) : s.toLink st = { s with regs := (s.toLink st).regs, svc := (s.toLink st).svc } := rfl

theorem toLink_frame_of {s u : State} (h : u = { s with regs := u.regs, svc := u.svc }) (st : Nat) :
    u.toLink st = { s with regs := (u.toLink st).regs, svc := (u.toLink st).svc } := by
  rw [h]
  rfl

theorem toLink_frame_of_regs {s u : State} (h : u = { s with regs := u.regs }) (st : Nat) :
    u.toLink st = { s with regs := (u.toLink st).regs, svc := (u.toLink st).svc } := by
  rw [h]
  rfl

/-- Lane alignment is per lane. -/
theorem rd_aligned_ne (s : State) (v : Nat) {i k : Nat} (h : i ≠ k) :
    (s.wr SVC_LANE_ALIGNED v 0 k).rd SVC_LANE_ALIGNED 0 i = s.rd SVC_LANE_ALIGNED 0 i := by
  refine rd_wr_ne s _ _ _ _ _ _ _ _ _ ?_
  unfold Field.addr SVC_LANE_ALIGNED
  dsimp only
  omega

theorem rd_aligned (s : State) (v k : Nat) : (s.wr SVC_LANE_ALIGNED v 0 k).rd SVC_LANE_ALIGNED 0 k = v % 2 :=
  rd_wr s SVC_LANE_ALIGNED v 0 k 0 (by decide) (by decide)

/-- The state with no lane aligned. -/
def State.unaligned (s : State) : State :=
  (((s.wr SVC_LANE_ALIGNED 0 0 0).wr SVC_LANE_ALIGNED 0 0 1).wr SVC_LANE_ALIGNED 0 0 2).wr SVC_LANE_ALIGNED 0 0 3

theorem foldl_unaligned (s : State) :
    (List.range 4).foldl (fun (s : State) i => s.wr SVC_LANE_ALIGNED 0 0 i) s = s.unaligned := rfl

theorem unaligned_frame (s : State) : s.unaligned = { s with regs := s.unaligned.regs } :=
  wr_frame (wr_frame (wr_frame (wr_frame rfl _ _ _ _ _) _ _ _ _ _) _ _ _ _ _) _ _ _ _ _

theorem rd_unaligned (s : State) (i : Fin 4) : s.unaligned.rd SVC_LANE_ALIGNED 0 i = 0 := by
  unfold State.unaligned
  fin_cases i
  all_goals simp [rd_aligned, rd_aligned_ne]

/-- What the link's internal state is while nothing is being sent (R167). -/
def SvcSt.abandoned (v : SvcSt) : SvcSt :=
  { v with sending := none, lpReq := none, out := if v.sending.isSome then setAbort else v.out }

theorem toLink_abandoned (u : State) (v : SvcSt) (st : Nat) (h : u.svc = v) :
    State.toLink { (if u.svc.sending.isSome then u.sendCols setAbort else u) with
      svc := { (if u.svc.sending.isSome then u.sendCols setAbort else u).svc with sending := none, lpReq := none } } st =
      { u with svc := v.abandoned }.toLink st := by
  rw [← h]
  unfold SvcSt.abandoned
  refine congrArg (fun x => State.toLink x st) ?_
  split
  · rfl
  · rfl

theorem linkDown_eq (s : State) (st : Nat) : s.linkDown st = { s.unaligned with svc := s.svc.abandoned }.toLink st := by
  have hsvc : s.unaligned.svc = s.svc := by rw [unaligned_frame]
  unfold State.linkDown
  dsimp only
  rw [foldl_unaligned]
  exact toLink_abandoned _ _ _ hsvc

theorem linkDown_svc (s : State) (st : Nat) : (s.linkDown st).svc = { s.svc.abandoned with progAt := s.now } := by
  have hnow : s.unaligned.now = s.now := by rw [unaligned_frame]
  rw [linkDown_eq, toLink_svc, ← hnow]

theorem linkDown_frame (s : State) (st : Nat) :
    s.linkDown st = { s with regs := (s.linkDown st).regs, svc := (s.linkDown st).svc } := by
  have hu := unaligned_frame s
  rw [linkDown_eq]
  generalize s.unaligned = u at hu
  exact toLink_frame_of (by rw [hu]) st

theorem linkDown_spares (s : State) (st k x : Nat) : Spares k x s (s.linkDown st) := by
  rw [linkDown_frame]
  exact ⟨rfl, rfl, rfl, rfl⟩

theorem link_linkDown (s : State) {st : Nat} (h : st < 8) : (s.linkDown st).link = st := by
  rw [linkDown_eq]
  exact link_toLink _ h

theorem rd_aligned_withSvc (u : State) (v : SvcSt) (st : Nat) (i : Fin 4) :
    ({ u with svc := v }.toLink st).rd SVC_LANE_ALIGNED 0 i = u.rd SVC_LANE_ALIGNED 0 i := by
  rw [rd_toLink _ _ _ _ _ _ (by decide) (.inl (by decide))]
  rfl

/-- No lane is aligned once the link is down (R170). -/
theorem rd_linkDown (s : State) (st : Nat) (i : Fin 4) : (s.linkDown st).rd SVC_LANE_ALIGNED 0 i = 0 := by
  rw [linkDown_eq, rd_aligned_withSvc, rd_unaligned]

/-- Going down and counting why (R170). -/
theorem linkDown_count (s : State) {e : Code} (h : ¬ evPathCounter (e.base + 0)) :
    ((s.linkDown lkCdr).count e).link = lkCdr ∧ (∀ i : Fin 4, ((s.linkDown lkCdr).count e).rd SVC_LANE_ALIGNED 0 i = 0) ∧
      e.counted s ((s.linkDown lkCdr).count e) 0 1 := by
  have hev := count_events (s.linkDown lkCdr) e 0 1
  refine ⟨?_, fun i => ?_, Code.counted_from_spares (linkDown_spares s lkCdr 0 _) (count_counted _ e 0 1 h)⟩
  · exact (hev.rd SVC_STAT_LINK 0 0 0 (by decide)).trans (link_linkDown s (by decide))
  · have hne : SVC_LANE_ALIGNED.addr 0 i 0 ≠ alertAddr := by
      unfold Field.addr SVC_LANE_ALIGNED alertAddr
      dsimp only
      have : Field.addr SVC_ALERT_P0_PEND 0 0 0 = 0o404010002 := by decide
      omega
    exact (hev.rd SVC_LANE_ALIGNED 0 i 0 hne).trans (rd_linkDown s lkCdr i)

/-! ### Bring-up and loss (R168, R170) -/

/-- The state after comma alignment is found on a lane. -/
def State.lockLane (s : State) (lane : Fin 4) : State := (s.wr SVC_LANE_ALIGNED 1 0 lane).toLink lkAlign

theorem rd_aligned_toLink (s : State) (st : Nat) (i : Fin 4) : (s.toLink st).rd SVC_LANE_ALIGNED 0 i = s.rd SVC_LANE_ALIGNED 0 i :=
  rd_toLink s st _ _ _ _ (by decide) (.inl (by decide))

theorem rd_lockLane (s : State) (lane : Fin 4) : (s.lockLane lane).rd SVC_LANE_ALIGNED 0 lane = 1 := by
  rw [State.lockLane, rd_aligned_toLink, rd_aligned]

theorem rd_lockLane_ne (s : State) {lane i : Fin 4} (h : i ≠ lane) :
    (s.lockLane lane).rd SVC_LANE_ALIGNED 0 i = s.rd SVC_LANE_ALIGNED 0 i := by
  rw [State.lockLane, rd_aligned_toLink, rd_aligned_ne _ _ (Fin.val_ne_of_ne h)]

theorem lockLane_svc (s : State) (lane : Fin 4) : (s.lockLane lane).svc = { s.svc with progAt := s.now } := by
  rw [State.lockLane, toLink_svc, wr_svc, wr_now]

theorem lockLane_frame (s : State) (lane : Fin 4) :
    s.lockLane lane = { s with regs := (s.lockLane lane).regs, svc := (s.lockLane lane).svc } :=
  toLink_frame_of_regs (wr_frame rfl SVC_LANE_ALIGNED 1 0 lane 0) lkAlign

theorem lockLane_link (s : State) (lane : Fin 4) : (s.lockLane lane).link = lkAlign := by
  rw [State.lockLane, link_toLink _ (by decide)]

theorem all_aligned_iff (s : State) :
    ((List.range 4).all fun i => s.rdb SVC_LANE_ALIGNED 0 i) = true ↔ ∀ i : Fin 4, s.rdb SVC_LANE_ALIGNED 0 i = true := by
  rw [List.all_eq_true]
  exact ⟨fun h i => h i (List.mem_range.2 i.2), fun h i hi => h ⟨i, List.mem_range.1 hi⟩⟩

/-- All lanes are aligned after the lock of one when the others were. -/
theorem lockLane_all_iff (s : State) (lane : Fin 4) :
    (∀ i : Fin 4, (s.lockLane lane).rdb SVC_LANE_ALIGNED 0 i = true) ↔
      ∀ i : Fin 4, i ≠ lane → s.rdb SVC_LANE_ALIGNED 0 i = true := by
  have hother : ∀ i : Fin 4, i ≠ lane → (s.lockLane lane).rdb SVC_LANE_ALIGNED 0 i = s.rdb SVC_LANE_ALIGNED 0 i := fun i hi => by
    rw [State.rdb, rd_lockLane_ne s hi, State.rdb]
  refine ⟨fun h i hi => (hother i hi).symm.trans (h i), fun h i => ?_⟩
  by_cases hi : i = lane
  · rw [hi, State.rdb, rd_lockLane]
    rfl
  · exact (hother i hi).trans (h i hi)

theorem exec_laneAligned {lane : Fin 4} (hlive : s.svcLive = true) (hlink : s.link = lkAlign)
    (hnew : s.rdb SVC_LANE_ALIGNED 0 lane = false) :
    exec (.svcLaneAligned lane) s = .next (if ∀ i : Fin 4, i ≠ lane → s.rdb SVC_LANE_ALIGNED 0 i = true then
      (s.lockLane lane).toLink lkDeskew else s.lockLane lane) := by
  have hall := (all_aligned_iff (s.lockLane lane)).trans (lockLane_all_iff s lane)
  refine congrArg Host.Outcome.next ((if_pos ⟨hlive, hlink, by rw [hnew]; rfl⟩).trans ?_)
  exact if_congr hall rfl rfl

theorem laneAligned_shows {lane : Fin 4} (hlive : s.svcLive = true) (hlink : s.link = lkAlign)
    (hnew : s.rdb SVC_LANE_ALIGNED 0 lane = false) :
    ∃ t, exec (.svcLaneAligned lane) s = .next t ∧ t.rd SVC_LANE_ALIGNED 0 lane = 1 ∧
      (∀ i : Fin 4, i ≠ lane → t.rd SVC_LANE_ALIGNED 0 i = s.rd SVC_LANE_ALIGNED 0 i) ∧
      ((∀ i : Fin 4, i ≠ lane → s.rdb SVC_LANE_ALIGNED 0 i = true) → t.link = lkDeskew) ∧
      ((∃ i : Fin 4, i ≠ lane ∧ s.rdb SVC_LANE_ALIGNED 0 i = false) → t.link = lkAlign) ∧
      t.svc = { s.svc with progAt := s.now } ∧ t = { s with regs := t.regs, svc := t.svc } := by
  refine ⟨_, exec_laneAligned hlive hlink hnew, ?_⟩
  split
  next hall =>
    have hframe := lockLane_frame s lane
    have hsvc := lockLane_svc s lane
    refine ⟨?_, fun i hi => ?_, fun _ => link_toLink _ (by decide), fun hsome => ?_, ?_, ?_⟩
    · rw [rd_aligned_toLink, rd_lockLane]
    · rw [rd_aligned_toLink, rd_lockLane_ne s hi]
    · obtain ⟨i, hi, hno⟩ := hsome
      rw [hall i hi] at hno
      exact absurd hno (by decide)
    · have hnow : (s.lockLane lane).now = s.now := by rw [hframe]
      rw [toLink_svc, hsvc, hnow]
    · exact toLink_frame_of hframe lkDeskew
  next hsome =>
    exact ⟨rd_lockLane s lane, fun i hi => rd_lockLane_ne s hi, fun hall => absurd hall hsome,
      fun _ => lockLane_link s lane, lockLane_svc s lane, lockLane_frame s lane⟩

/-- The link enters UP with the boot port's offer changed. -/
theorem toLink_offer (u : State) (p : Option OutPkt) :
    let t : State := { u.toLink lkUp with svc := { (u.toLink lkUp).svc with bootOffer := p } }
    t.link = lkUp ∧ t.rd SVC_STAT_SKEW = u.rd SVC_STAT_SKEW ∧ t.svc.linkOut = u.svc.linkOut ∧
      t = { u with regs := t.regs, svc := t.svc } :=
  ⟨link_toLink u (by decide), rd_toLink u _ SVC_STAT_SKEW _ _ _ (by decide) (.inr (by decide)), rfl, rfl⟩

theorem deskew_up {spread : Nat} (hlive : s.svcLive = true) (hlink : s.link = lkDeskew) (hnear : spread ≤ 24) :
    ∃ t, exec (.svcDeskew spread) s = .next t ∧ t.link = lkUp ∧ t.rd SVC_STAT_SKEW = spread ∧
      t.svc.linkOut = s.svc.linkOut ∧ t = { s with regs := t.regs, svc := t.svc } := by
  obtain ⟨hup, hskew, hout, hframe⟩ := toLink_offer (s.wr SVC_STAT_SKEW spread) (s.svc.bootOffer.filter fun p => match p with
    | .completion _ => true
    | _ => false)
  refine ⟨_, congrArg Host.Outcome.next ((if_pos ⟨hlive, hlink⟩).trans (if_pos hnear)), hup, hskew.trans ?_, hout, hframe⟩
  have hlt : spread < 2 ^ (SVC_STAT_SKEW.hi + 1 - SVC_STAT_SKEW.lo) := lt_of_le_of_lt hnear (by decide)
  rw [rd_wr _ _ _ _ _ _ (by decide) (by decide), Nat.mod_eq_of_lt hlt]

theorem deskew_far {spread : Nat} (hlive : s.svcLive = true) (hlink : s.link = lkDeskew) (hfar : 24 < spread) :
    ∃ t, exec (.svcDeskew spread) s = .next t ∧ t.link = lkCdr ∧ (∀ i : Fin 4, t.rd SVC_LANE_ALIGNED 0 i = 0) ∧
      SVC_SKEW.counted s t 0 1 :=
  ⟨_, congrArg Host.Outcome.next ((if_pos ⟨hlive, hlink⟩).trans (if_neg (by omega))),
    linkDown_count s (by unfold evPathCounter; decide +kernel)⟩

theorem bringupTimeout_retries (hlive : s.svcLive = true) (hlink : s.link = lkAlign ∨ s.link = lkDeskew)
    (hlong : s.svc.progAt + 100 * ticksUs ≤ s.now) :
    ∃ t, exec .svcBringupTimeout s = .next t ∧ t.link = lkCdr ∧ (∀ i : Fin 4, t.rd SVC_LANE_ALIGNED 0 i = 0) ∧
      SVC_BRINGUP_RETRY.counted s t 0 1 :=
  ⟨_, congrArg Host.Outcome.next (if_pos ⟨hlive, hlink, hlong⟩), linkDown_count s (by unfold evPathCounter; decide +kernel)⟩

theorem linkLoss_alerts (hlive : s.svcLive = true) (hlink : s.link = lkUp) :
    ∃ t, exec .svcLinkLoss s = .next t ∧ t.link = lkCdr ∧ t.rd SVC_ALERT_LINK_LOST = 1 ∧ SVC_LINK_DOWN.raised s t 0 [] ∧
      t.svc = { s.svc with
        sending := none, lpReq := none, progAt := s.now
        out := if s.svc.sending.isSome then setAbort else s.svc.out } := by
  have hev := occur_events ((s.linkDown lkCdr).wr SVC_ALERT_LINK_LOST 1) SVC_LINK_DOWN 0 []
  refine ⟨_, congrArg Host.Outcome.next (if_pos ⟨hlive, hlink⟩), ?_, ?_, ?_, ?_⟩
  · refine (hev.rd SVC_STAT_LINK 0 0 0 (by decide)).trans ?_
    rw [rd_wr_ne _ _ _ _ _ _ _ _ _ _ (by decide)]
    exact link_linkDown s (by decide)
  · exact Eq.trans (occur_lostKept _ _ _ _) (rd_wr _ SVC_ALERT_LINK_LOST 1 0 0 0 (by decide) (by decide))
  · refine Code.raised_of_now (occur_raised _ _ _ _) ?_
    rw [wr_now, linkDown_frame]
  · rw [hev.svc, wr_svc, linkDown_svc]
    rfl

theorem alignMarker_shows {rxUp : Bool} (hlive : s.svcLive = true) (hlink : s.link = lkDeskew ∨ s.link = lkUp) :
    ∃ t, exec (.svcAlignMarkerReceived rxUp) s = .next t ∧ t.rdb SVC_STAT_FAR_UP = rxUp ∧ t = { s with regs := t.regs } := by
  refine ⟨_, congrArg Host.Outcome.next (if_pos ⟨hlive, hlink⟩), ?_, rfl⟩
  rw [rdb_wr _ _ _ _ _ _ (by decide) (by decide)]
  cases rxUp with
  | false => rfl
  | true => rfl

/-! ### Low-power states (R173, R175) -/

/-- Either request, while the link takes one. -/
theorem exec_lpRequest {i : Instr} {st : Nat} (hi : i = .svcL1Request ∧ st = lkL1 ∨ i = .svcL2Request ∧ st = lkL2)
    (hlive : s.svcLive = true) (hlink : s.link = lkUp ∨ s.link = lkLoop) :
    exec i s = .next (if s.svc.sending.isSome then { s with svc := { s.svc with lpReq := some st } } else s.lpAnswer st) := by
  have hreq : ∀ st, s.lpRequest st =
      if s.svc.sending.isSome then { s with svc := { s.svc with lpReq := some st } } else s.lpAnswer st := fun st =>
    if_pos ⟨hlive, hlink⟩
  obtain ⟨rfl, rfl⟩ | ⟨rfl, rfl⟩ := hi
  · exact congrArg _ (hreq lkL1)
  · exact congrArg _ (hreq lkL2)

theorem lpAnswer_accepts (st : Nat) (hen : s.rdb SVC_CTL_LPM_EN = true) (hmap : s.overheadMapped = false)
    (hloop : s.svc.loop = none) : s.lpAnswer st = (s.sendCols (setPower 3 ++ idleColumns 16)).toLink st :=
  if_pos ⟨hen, by rw [hmap]; rfl, by rw [hloop]; rfl⟩

theorem lpAnswer_refuses (st : Nat)
    (h : s.rdb SVC_CTL_LPM_EN = false ∨ s.overheadMapped = true ∨ s.svc.loop ≠ none) :
    s.lpAnswer st = s.sendCols (setPower 4) := by
  refine if_neg fun hok => ?_
  obtain ⟨hen, hmap, hloop⟩ := hok
  obtain h | h | h := h
  · rw [h] at hen
    exact absurd hen (by decide)
  · rw [h] at hmap
    exact absurd hmap (by decide)
  · exact h (Option.isNone_iff_eq_none.1 hloop)

theorem lpRequest_answers {i : Instr} {st : Nat} (hi : i = .svcL1Request ∧ st = lkL1 ∨ i = .svcL2Request ∧ st = lkL2)
    (hlive : s.svcLive = true) (hlink : s.link = lkUp ∨ s.link = lkLoop) :
    (s.svc.sending = none → s.rdb SVC_CTL_LPM_EN = true → s.overheadMapped = false → s.svc.loop = none →
      ∃ t, exec i s = .next t ∧ t.link = st ∧
        t = { s with regs := t.regs, svc := { s.svc with progAt := s.now, out := setPower 3 ++ idleColumns 16 } }) ∧
    (s.svc.sending = none → (s.rdb SVC_CTL_LPM_EN = false ∨ s.overheadMapped = true ∨ s.svc.loop ≠ none) →
      exec i s = .next { s with svc := { s.svc with out := setPower 4 } }) ∧
    (s.svc.sending ≠ none → exec i s = .next { s with svc := { s.svc with lpReq := some st } }) := by
  have hexec := exec_lpRequest hi hlive hlink
  have hst : st < 8 := by
    obtain ⟨-, rfl⟩ | ⟨-, rfl⟩ := hi
    · decide
    · decide
  refine ⟨fun hidle hen hmap hloop => ?_, fun hidle hno => ?_, fun hbusy => ?_⟩
  · rw [hidle, lpAnswer_accepts st hen hmap hloop] at hexec
    exact ⟨_, hexec, link_toLink _ hst, rfl⟩
  · rw [hidle, lpAnswer_refuses st hno] at hexec
    exact hexec
  · exact hexec.trans (congrArg _ (if_pos (Option.isSome_iff_ne_none.2 hbusy)))

/-! ### Lanes and loops (R176, R178, R179) -/

theorem eqmLow_raises {lane : Fin 4} (hlive : s.svcLive = true)
    (hheld : s.heldMs (sget (fun _ => 0) s.svc.eqmUnder lane) = true) (hnew : lane.val ∉ s.svc.eqmLow) :
    ∃ t, exec (.svcEqmLow lane) s = .next t ∧ t.svc = { s.svc with eqmLow := lane.val :: s.svc.eqmLow } ∧
      SVC_EQM_LOW.raised s t 0 [] ∧ Events s { t with svc := s.svc } := by
  have hev := occur_events { s with svc := { s.svc with eqmLow := lane.val :: s.svc.eqmLow } } SVC_EQM_LOW 0 []
  refine ⟨_, congrArg Host.Outcome.next (if_pos ⟨hlive, hheld, by simpa using hnew⟩), hev.svc,
    Code.raised_of_now (occur_raised _ _ _ _) rfl, ?_, fun a ha => hev.2 a ha⟩
  rw [hev.1]

theorem eqmLow_again {lane : Fin 4} (h : lane.val ∈ s.svc.eqmLow) : exec (.svcEqmLow lane) s = .next s :=
  congrArg Host.Outcome.next (if_neg fun hok => by simp [h] at hok)

theorem b2n_ne_zero (b : Bool) : (b2n b % 2 != 0) = b := by
  cases b with
  | false => rfl
  | true => rfl

/-- The state in which a loop's event is raised: the link is in RESET, and intake is open again unless a drain or the boot
ROM holds it. -/
def State.loopClosed (s : State) : State :=
  (s.linkDown lkReset).wr SVC_STAT_INTAKE (b2n (s.svc.drain.isNone && !s.rdb SVC_STAT_BOOTROM))

theorem loopClosed_shows (s : State) :
    s.loopClosed.link = lkReset ∧ s.loopClosed.rdb SVC_STAT_INTAKE = (s.svc.drain.isNone && !s.rdb SVC_STAT_BOOTROM) ∧
      s.loopClosed.now = s.now := by
  unfold State.loopClosed
  refine ⟨?_, ?_, ?_⟩
  · rw [State.link, rd_wr_apart _ _ _ _ _ _ _ _ _ _ (by decide) (by decide) (by decide) (.inl (by decide))]
    exact link_linkDown s (by decide)
  · rw [rdb_wr _ _ _ _ _ _ (by decide) (by decide), b2n_ne_zero]
  · rw [wr_now, linkDown_frame]

/-- What a loop's event leaves of the state it is raised in, whatever the link's internal state. -/
theorem loopDone_shows (s u : State) (v : SvcSt) (args : List Int) (hnow : u.now = s.now) :
    ({ u with svc := v }.occur SVC_LOOP_DONE 0 args).link = u.link ∧
      ({ u with svc := v }.occur SVC_LOOP_DONE 0 args).rdb SVC_STAT_INTAKE = u.rdb SVC_STAT_INTAKE ∧
      ({ u with svc := v }.occur SVC_LOOP_DONE 0 args).svc = v ∧
      SVC_LOOP_DONE.raised s ({ u with svc := v }.occur SVC_LOOP_DONE 0 args) 0 args := by
  have hev := occur_events { u with svc := v } SVC_LOOP_DONE 0 args
  exact ⟨hev.rd SVC_STAT_LINK 0 0 0 (by decide), hev.rdb SVC_STAT_INTAKE 0 0 0 (by decide), hev.svc,
    Code.raised_of_now (occur_raised _ _ _ _) hnow⟩

theorem exec_loopEnd {lanes : List (List Nat)} {x : Loop} {k : Nat} (hloop : s.svc.loop = some (x, k))
    (hlive : s.svcLive = true) (hlink : s.link = lkLoop) (hend : k + x.ms * ticksMs ≤ s.now) :
    exec (.svcLoopEnd lanes) s = .next (
      if x.mode = 3 then { s.loopClosed with svc := { s.loopClosed.svc with loop := none, out := backColumns lanes } }.occur
        SVC_LOOP_DONE 0 [3]
      else { s.loopClosed with svc := { s.loopClosed.svc with
          loop := none, loopErrs := (List.range 4).map fun i => loopErrors x.seed (lanes.getD i []) } }.occur SVC_LOOP_DONE 0
        ((x.mode : Int) :: ((List.range 4).map fun i => loopErrors x.seed (lanes.getD i [])).map fun e => (e : Int))) := by
  change execSvcLoopEnd lanes s = _
  unfold execSvcLoopEnd
  rw [hloop]
  dsimp only
  rw [if_pos ⟨hlive, hlink, hend⟩]
  rfl

theorem loopEnd_reports {lanes : List (List Nat)} {x : Loop} {k : Nat} (hloop : s.svc.loop = some (x, k))
    (hlive : s.svcLive = true) (hlink : s.link = lkLoop) (hend : k + x.ms * ticksMs ≤ s.now) :
    let errs := (List.range 4).map fun i => loopErrors x.seed (lanes.getD i [])
    ∃ t, exec (.svcLoopEnd lanes) s = .next t ∧ t.link = lkReset ∧ t.svc.loop = none ∧
      t.rdb SVC_STAT_INTAKE = (s.svc.drain.isNone && !s.rdb SVC_STAT_BOOTROM) ∧
      (x.mode = 3 → t.svc.out = backColumns lanes ∧ SVC_LOOP_DONE.raised s t 0 [3]) ∧
      (x.mode ≠ 3 → t.svc.loopErrs = errs ∧ SVC_LOOP_DONE.raised s t 0 ((x.mode : Int) :: errs.map fun e => (e : Int))) := by
  intro errs
  obtain ⟨hreset, hintake, hnow⟩ := loopClosed_shows s
  have hexec := exec_loopEnd (lanes := lanes) hloop hlive hlink hend
  by_cases hback : x.mode = 3
  · obtain ⟨hl, hi, hsvc, hraised⟩ := loopDone_shows s s.loopClosed
      { s.loopClosed.svc with loop := none, out := backColumns lanes } [3] hnow
    rw [if_pos hback] at hexec
    exact ⟨_, hexec, hl.trans hreset, by rw [hsvc], hi.trans hintake, fun _ => ⟨by rw [hsvc], hraised⟩,
      fun hno => absurd hback hno⟩
  · obtain ⟨hl, hi, hsvc, hraised⟩ := loopDone_shows s s.loopClosed { s.loopClosed.svc with loop := none, loopErrs := errs }
      ((x.mode : Int) :: errs.map fun e => (e : Int)) hnow
    rw [if_neg hback] at hexec
    exact ⟨_, hexec, hl.trans hreset, by rw [hsvc], hi.trans hintake, fun hyes => absurd hyes hback,
      fun _ => ⟨by rw [hsvc], hraised⟩⟩

end LinkStates

/-- Settles O42, event by event. -/
theorem linkStateEventsComplete : Obligations.LinkStateEventsComplete := by
  refine ⟨fun s hlive hlink => ?_, fun s lane => laneAligned_shows,
    fun s spread hlive hlink => ⟨deskew_up hlive hlink, deskew_far hlive hlink⟩, fun s => bringupTimeout_retries,
    fun s => linkLoss_alerts, fun s rxUp => alignMarker_shows, fun s hlive h1 h2 => ?_, fun s i st => lpRequest_answers,
    fun s set hlive hlink => ⟨fun hbad => ?_, fun hgood => ?_⟩, fun s hlive hlink => ?_,
    fun s lane hlive => ⟨fun hheld => ⟨eqmLow_raises hlive hheld, eqmLow_again⟩, fun hheld => ?_⟩,
    fun s lanes x k => loopEnd_reports⟩
  · exact ⟨_, congrArg Host.Outcome.next (if_pos ⟨hlive, hlink⟩), link_toLink s (by decide), toLink_svc .., toLink_frame ..⟩
  · exact congrArg Host.Outcome.next (if_pos ⟨hlive, h1, h2⟩)
  · exact ⟨_, congrArg Host.Outcome.next (if_pos ⟨hlive, hlink, hbad⟩), count_events ..,
      count_counted _ _ _ _ (by unfold evPathCounter; decide +kernel)⟩
  · exact congrArg Host.Outcome.next (if_neg fun h => by rw [hgood] at h; exact absurd h.2.2 (by decide))
  · exact ⟨_, congrArg Host.Outcome.next (if_pos ⟨hlive, hlink⟩), link_linkDown s (by decide), linkDown_frame ..⟩
  · exact congrArg Host.Outcome.next (if_pos ⟨hlive, hheld⟩)

end Sys2Proof.Machine
end

section
/-! PROOF. The `PWR` commands (R208, R582, R583, R587, R591). -/

namespace Sys2Proof.Machine

open Ev Reg

section PowerCommands
variable {s t u v : State} {p : HostPkt} {c : Cmd} {i : Instr} {opc : Nat} {bursts : Option (List Burst)}

/-! ### Entering a mode (R582, R593) -/

theorem seeEgress_frame (s : State) (e : Nat) : s.seeEgress e = { s with traf := (s.seeEgress e).traf } := rfl

theorem foldl_seeEgress_frame (l : List Nat) (s : State) :
    l.foldl (fun s e => State.seeEgress s (512 + e)) s =
      { s with traf := (l.foldl (fun s e => State.seeEgress s (512 + e)) s).traf } := by
  refine List.foldlRecOn (motive := fun t : State => t = { s with traf := t.traf }) l _ rfl fun t ht e _ => ?_
  rw [seeEgress_frame, ht]

/-- A change from a mode other than MAINTENANCE stores the mode, raises `PWR_MODE` and looks at the line queues again. -/
theorem setMode_eq {m : Nat} (hne : s.mode ≠ m) (hmode : s.mode ≠ modeMaintenance) :
    s.setMode m = (List.range 4).foldl (fun s e => State.seeEgress s (512 + e))
      ((s.wr PWR_STAT_MODE m).occur Ev.PWR_MODE 0 [(s.mode : Int), (m : Int)]) := by
  unfold State.setMode
  dsimp only
  rw [if_neg hne, if_neg hmode]

theorem setMode_shows {m : Nat} (hne : s.mode ≠ m) (hmode : s.mode ≠ modeMaintenance) (hm : m < 8) :
    (s.setMode m).mode = m ∧ Ev.PWR_MODE.raised s (s.setMode m) 0 [s.mode, m] ∧
      s.setMode m = { s with
        regs := (s.setMode m).regs, cnt := (s.setMode m).cnt, tblRaw := (s.setMode m).tblRaw, evt := (s.setMode m).evt
        traf := (s.setMode m).traf } := by
  rw [setMode_eq hne hmode]
  have hev := occur_events (s.wr PWR_STAT_MODE m) Ev.PWR_MODE 0 [(s.mode : Int), (m : Int)]
  have hraised := occur_raised (s.wr PWR_STAT_MODE m) Ev.PWR_MODE 0 [(s.mode : Int), (m : Int)]
  have hrd := rd_wr s PWR_STAT_MODE m 0 0 0 (by decide) (by decide)
  generalize (s.wr PWR_STAT_MODE m).occur Ev.PWR_MODE 0 [(s.mode : Int), (m : Int)] = w at hev hraised
  have hframe := foldl_seeEgress_frame (List.range 4) w
  have hshown : w.rd PWR_STAT_MODE = m := (hev.rd PWR_STAT_MODE 0 0 0 (by decide)).trans (hrd.trans (Nat.mod_eq_of_lt hm))
  generalize (List.range 4).foldl (fun s e => State.seeEgress s (512 + e)) w = x at hframe
  refine ⟨?_, Code.raised_of_now (raised_of_evt hraised (by rw [hframe])) (wr_now ..), ?_⟩
  · rw [hframe]
    exact hshown
  · have hw := hev.frame_of_regs (wr_frame rfl PWR_STAT_MODE m 0 0 0)
    rw [hframe, hw]

/-! ### `PWR.MODE` (R582, R583) -/

theorem exec_pwrMode (h : Starts s 0x0601 p c u) : exec (.pwrMode p) s = .next (u.cmdPwrMode c) := by
  rw [h.exec rfl]
  simp only [State.perform, h.opcode]

/-- The changes of mode that are made at once (R583). -/
def ChangesAtOnce (u : State) (m : Nat) : Prop :=
  m = modeMaintenance ∧ (u.mode = modeHousekeeping ∨ u.mode = modeProvision) ∨
    m = modeService ∧ u.mode = modeProvision ∧ u.pwr.shedOrder = [] ∨
    m = modeProvision ∧ (u.mode = modeService ∨ u.mode = modeConstrained)

theorem ChangesAtOnce.facts {m : Nat} (h : ChangesAtOnce u m) : u.mode ≠ m ∧ u.mode ≠ modeMaintenance ∧ m < 6 ∧ m ≠ 0 ∧ m ≠ 4 := by
  unfold ChangesAtOnce modeMaintenance modeService modeProvision modeHousekeeping modeConstrained at h
  unfold modeMaintenance
  omega

theorem cmdPwrMode_stays (hclean : c.clean [mask 2 0, 0]) (hshort : u.rdb PWR_STAT_SHORT = false)
    (hm : (c.w 0).bits 2 0 = u.mode) (h0 : (c.w 0).bits 2 0 ≠ 0) (h4 : (c.w 0).bits 2 0 ≠ 4) (h6 : (c.w 0).bits 2 0 < 6) :
    u.cmdPwrMode c = u.complete c.tag eOk 0 ((c.w 0).bits 2 0) := by
  unfold State.cmdPwrMode
  rw [unreserved_of_clean hclean]
  dsimp only
  rw [if_neg (by omega), if_neg (by omega), if_neg (by rw [hshort]; decide), if_pos hm, hm]

theorem cmdPwrMode_changes (hclean : c.clean [mask 2 0, 0]) (hshort : u.rdb PWR_STAT_SHORT = false)
    (h : ChangesAtOnce u ((c.w 0).bits 2 0)) :
    u.cmdPwrMode c = (u.setMode ((c.w 0).bits 2 0)).complete c.tag eOk 0 (u.setMode ((c.w 0).bits 2 0)).mode := by
  obtain ⟨hne, -, h6, h0, h4⟩ := h.facts
  unfold State.cmdPwrMode
  rw [unreserved_of_clean hclean]
  dsimp only
  rw [if_neg (by omega), if_neg (by omega), if_neg (by rw [hshort]; decide), if_neg (Ne.symm hne)]
  obtain hmaint | ⟨hserv, hprov, hshed⟩ | ⟨hprov, hold⟩ := h
  · rw [if_pos hmaint]
  · rw [hserv, if_neg (fun e => absurd e.1 (by decide)), if_pos ⟨rfl, hprov⟩, hshed]
    rfl
  · rw [hprov, if_neg (fun e => absurd e.1 (by decide)), if_neg (fun e => absurd e.1 (by decide)), if_pos ⟨rfl, hold⟩]

theorem cmdPwrMode_rises (hclean : c.clean [mask 2 0, 0]) (hshort : u.rdb PWR_STAT_SHORT = false)
    (hm : (c.w 0).bits 2 0 = modeProvision) (hold : u.mode = modeHousekeeping ∨ u.mode = modeMaintenance) :
    u.cmdPwrMode c = ({ u with pwr := { u.pwr with
      modeCmd := some ((c.w 0).bits 2 0, c.tag),
      rise := (List.range 77).filter fun d => u.dom d = domOff && !u.rdb PWR_DOM_HELD 0 d } }.startRise).progress := by
  obtain ⟨hne, hother⟩ : modeProvision ≠ u.mode ∧ ¬(u.mode = modeService ∨ u.mode = modeConstrained) := by
    unfold modeHousekeeping modeMaintenance at hold
    unfold modeProvision modeService modeConstrained
    omega
  unfold State.cmdPwrMode
  rw [unreserved_of_clean hclean]
  dsimp only
  rw [hm, if_neg (by decide), if_neg (by decide), if_neg (by rw [hshort]; decide), if_neg hne, if_neg (fun e => absurd e.1 (by decide)),
    if_neg (fun e => absurd e.1 (by decide)), if_neg (fun e => hother e.2), if_pos ⟨rfl, hold⟩]

/-! ### `PWR.DOMAIN` (R587, R591) -/

/-- The row of `PWR.DOMAIN` for an OP. -/
def domainRow (op : Nat) (p : HostPkt) (bursts : List Burst) : Instr :=
  if op = 0 then .pwrDomainOff p else if op = 1 then .pwrDomainOn p else .pwrDomainReset p bursts

theorem exec_domainRow {op : Nat} {bursts : List Burst} (h : Starts s 0x0602 p c u) (hop : (c.w 0).bits 35 34 = op) (h3 : op ≠ 3) :
    exec (domainRow op p bursts) s = .next (u.cmdPwrDomain (if op = 2 then some bursts else none) c) := by
  have hword : c.w 0 = payloadWord p 0 := by rw [← h.pkt]; rfl
  have hlt : op < 2 ^ 2 := hop ▸ bitsOf_lt _ _ _
  have hwork : ∀ b, State.perform b c u = u.cmdPwrDomain b c := fun b => by simp only [State.perform, h.opcode]
  rw [hword] at hop
  rw [← hwork]
  obtain rfl | rfl | rfl : op = 0 ∨ op = 1 ∨ op = 2 := by omega
  · exact h.exec (if_pos (.inl hop))
  · exact h.exec (if_pos hop)
  · exact h.exec (if_pos hop)

/-- What `PWR.DOMAIN` asks for: OP `op` of domain `d`, with no reserved bit set. -/
structure Cmd.AsksDomain (c : Cmd) (op d : Nat) : Prop where
  clean : c.clean [mask 35 34 + mask 6 0, 0]
  op : (c.w 0).bits 35 34 = op
  domain : (c.w 0).bits 6 0 = d

theorem cmdPwrDomain_fixed {op d : Nat} {b : Option (List Burst)} (h : c.AsksDomain op d) (h3 : op ≠ 3) (hlo : 77 ≤ d) (hhi : d < 80) :
    u.cmdPwrDomain b c = u.complete c.tag eState 0 1 := by
  obtain ⟨hclean, hop, hd⟩ := h
  unfold State.cmdPwrDomain
  rw [unreserved_of_clean hclean]
  dsimp only
  rw [hop, hd, if_neg (by omega), if_pos hlo]

theorem cmdPwrDomain_noCluster {op d : Nat} {b : Option (List Burst)} (h : c.AsksDomain op d) (hop' : op = 1 ∨ op = 2) (hd' : d < 64)
    (hoff : u.dom (64 + d / 8) = domOff) : u.cmdPwrDomain b c = u.complete c.tag eState 0 2 := by
  obtain ⟨hclean, hop, hd⟩ := h
  unfold State.cmdPwrDomain
  rw [unreserved_of_clean hclean]
  dsimp only
  rw [hop, hd, if_neg (by omega), if_neg (by omega), if_pos (.inl ⟨by omega, hd', hoff⟩)]

theorem rd_withPwr (s : State) (x : PwrSt) (f : Field) (i a b : Nat) : ({ s with pwr := x } : State).rd f i a b = s.rd f i a b := rfl

/-- The state with HELD of a domain set or cleared and the command noted as the one that waits for it. -/
def State.heldFor (s : State) (held op d tag : Nat) : State :=
  { s.wr PWR_DOM_HELD held 0 d with pwr := { s.pwr with domCmd := some (op, d, tag) } }

theorem rd_heldFor (s : State) (held op d tag : Nat) (f : Field) (i a b : Nat) (hf : f.lo ≤ f.hi)
    (h : PWR_DOM_HELD.hi < f.lo ∨ f.hi < PWR_DOM_HELD.lo) : (s.heldFor held op d tag).rd f i a b = s.rd f i a b := by
  rw [State.heldFor, rd_withPwr, rd_wr_apart _ _ _ _ _ _ _ _ _ _ (by decide) (by decide) hf h]

/-- OP 0 and OP 1 on a domain that is not SHED, once their checks pass. -/
theorem cmdPwrDomain_moves {op d : Nat} {b : Option (List Burst)} (h : c.AsksDomain op d) (hop' : op < 2) (hd' : d < 77)
    (hcluster : ¬((op ≠ 0 ∧ d < 64 ∧ u.dom (64 + d / 8) = domOff) ∨ (op = 0 ∧ 64 ≤ d ∧ d < 72)))
    (hon : op = 1 → u.rdb PWR_STAT_SHORT = false ∧ (u.dom d = domOnSt ∨ u.estWithin d u.headroom = true))
    (hshed : u.rdb PWR_DOM_SHED 0 d = false) :
    u.cmdPwrDomain b c =
      (if op = 0 then (u.heldFor 1 op d c.tag).turnOff d else (u.heldFor 0 op d c.tag).requestRise d).progress := by
  obtain ⟨hclean, hop, hd⟩ := h
  have hshed' : (u.wr PWR_DOM_HELD (b2n (decide (op = 0))) 0 d).rdb PWR_DOM_SHED 0 d = false := by
    rw [State.rdb, rd_wr_apart _ _ _ _ _ _ _ _ _ _ (by decide) (by decide) (by decide) (.inl (by decide))]
    exact hshed
  have hest : ¬(op = 1 ∧ u.dom d ≠ domOnSt ∧ (!u.estWithin d u.headroom) = true) := fun ⟨hop1, hne, hno⟩ => by
    obtain honst | hfits := (hon hop1).2
    · exact hne honst
    · rw [hfits] at hno
      exact absurd hno (by decide)
  unfold State.cmdPwrDomain
  rw [unreserved_of_clean hclean]
  dsimp only
  rw [hop, hd, if_neg (by omega), if_neg (by omega),
    if_neg (fun e => hcluster (e.imp_right fun ⟨h0, hlo, hhi, _⟩ => ⟨h0, hlo, hhi⟩)), if_neg (by omega),
    if_neg (fun ⟨h1, hshort⟩ => absurd ((hon h1).1.symm.trans hshort) (by decide)), if_neg hest, if_neg (by omega), hshed',
    if_neg Bool.false_ne_true, wr_pwr]
  by_cases h0 : op = 0
  · rw [if_pos h0, if_pos h0, decide_eq_true h0]
    rfl
  · rw [if_neg h0, if_neg h0, decide_eq_false h0]
    rfl

theorem cmdPwrDomain_noHeadroom {d : Nat} {b : Option (List Burst)} (h : c.AsksDomain 1 d) (hlo : 64 ≤ d) (hhi : d < 77)
    (hshort : u.rdb PWR_STAT_SHORT = false) (hdom : u.dom d ≠ domOnSt) (hest : u.estWithin d u.headroom = false) :
    u.cmdPwrDomain b c = u.complete c.tag eState 0 3 := by
  obtain ⟨hclean, hop, hd⟩ := h
  unfold State.cmdPwrDomain
  rw [unreserved_of_clean hclean]
  dsimp only
  rw [hop, hd, if_neg (by omega), if_neg (by omega), if_neg (by omega), if_neg (by omega), if_neg (by rw [hshort]; decide),
    if_pos ⟨rfl, hdom, by rw [hest]; rfl⟩]

theorem cmdPwrDomain_notOn {d : Nat} {b : Option (List Burst)} (h : c.AsksDomain 2 d) (hlo : 64 ≤ d) (hhi : d < 77)
    (hdom : u.dom d ≠ domOnSt) : u.cmdPwrDomain b c = u.complete c.tag eState 0 4 := by
  obtain ⟨hclean, hop, hd⟩ := h
  unfold State.cmdPwrDomain
  rw [unreserved_of_clean hclean]
  dsimp only
  rw [hop, hd, if_neg (by omega), if_neg (by omega), if_neg (by omega), if_pos ⟨rfl, hdom⟩]

/-- The state in which the light of a domain that is to be reset ramps down. -/
def State.darkening (s : State) (d : Nat) : State :=
  if d < 64 then s.treeShed d
  else if 72 ≤ d ∧ d < 76 ∧ (s.txState (d - 72) = txRampUp ∨ s.txState (d - 72) = txLit) then s.lineShutdown (d - 72)
  else s

theorem cmdPwrDomain_resets {d : Nat} {b : Option (List Burst)} (h : c.AsksDomain 2 d) (hhi : d < 77)
    (hcluster : d < 64 → u.dom (64 + d / 8) ≠ domOff) (hdom : u.dom d = domOnSt) :
    u.cmdPwrDomain b c =
      if (u.darkening d).ramping d then
        { u.darkening d with pwr := { (u.darkening d).pwr with resetting := (u.darkening d).pwr.resetting ++ [(d, 0, c.tag)] } }
      else
        { ((u.darkening d).stopDomain d b).startDomain d with
          pwr := { (((u.darkening d).stopDomain d b).startDomain d).pwr with
            resetting := (((u.darkening d).stopDomain d b).startDomain d).pwr.resetting ++
              [(d, (((u.darkening d).stopDomain d b).startDomain d).now + 10 * ticksUs, c.tag)] } } := by
  obtain ⟨hclean, hop, hd⟩ := h
  have hcl : ¬((2 ≠ 0 ∧ d < 64 ∧ u.dom (64 + d / 8) = domOff) ∨ (2 = 0 ∧ 64 ≤ d ∧ d < 72 ∧
      ((List.range 8).any fun w => decide (u.dom (8 * (d - 64) + w) ≠ domOff)) = true)) := by
    rintro (⟨-, hlt, hoff⟩ | ⟨h0, -⟩)
    · exact hcluster hlt hoff
    · exact absurd h0 (by decide)
  unfold State.cmdPwrDomain
  rw [unreserved_of_clean hclean]
  dsimp only
  rw [hop, hd, if_neg (by omega), if_neg (by omega), if_neg hcl, if_neg (fun e => e.2 hdom), if_neg (fun e => absurd e.1 (by decide)),
    if_neg (fun e => absurd e.1 (by decide)), if_pos rfl]
  rfl

/-- The state in which `PWR.DOMAIN` completes with OP 1 on a domain that is ON. -/
def State.unheld (s : State) (d : Nat) : State :=
  { s.wr PWR_DOM_HELD 0 0 d with pwr := { s.pwr with domCmd := none } }

theorem withPwr_frame {s u : State} (h : u = { s with regs := u.regs }) (x : PwrSt) :
    { u with pwr := x } = { s with regs := ({ u with pwr := x } : State).regs, pwr := x } := by
  rw [h]

theorem unheld_frame (s : State) (d : Nat) :
    s.unheld d = { s with regs := (s.unheld d).regs, pwr := { s.pwr with domCmd := none } } :=
  withPwr_frame (wr_frame rfl PWR_DOM_HELD 0 0 d 0) _

theorem dom_addr_ne {d : Nat} (h : d < 77) : PWR_DOM_STATE.addr 0 d 0 ≠ imgLastAddr := by
  rw [imgLastAddr_eq]
  unfold Field.addr PWR_DOM_STATE
  dsimp only
  omega

/-- A domain that is ON needs no rise, and the command that waits for it completes. -/
theorem requestRise_on {d tag : Nat} (hon : v.dom d = domOnSt) (hmode : v.pwr.modeCmd = none)
    (hcmd : v.pwr.domCmd = some (1, d, tag)) :
    (v.requestRise d).progress = { v with pwr := { v.pwr with domCmd := none } }.complete tag eOk := by
  have hreq : v.requestRise d = v := if_pos (.inl hon)
  rw [hreq]
  unfold State.progress
  rw [hmode]
  dsimp only
  rw [hcmd]
  dsimp only
  rw [if_pos (hon.trans (if_neg (by decide)).symm)]

theorem withPwr_domCmd (w : State) (x : PwrSt) :
    { ({ w with pwr := x } : State) with pwr := { ({ w with pwr := x } : State).pwr with domCmd := none } } =
      { w with pwr := { x with domCmd := none } } := rfl

theorem heldFor_requestRise {d tag : Nat} (hon : u.dom d = domOnSt) (hmode : u.pwr.modeCmd = none) :
    ((u.heldFor 0 1 d tag).requestRise d).progress = (u.unheld d).complete tag eOk := by
  have hdom : (u.heldFor 0 1 d tag).dom d = domOnSt :=
    (rd_heldFor u 0 1 d tag PWR_DOM_STATE 0 d 0 (by decide) (.inl (by decide))).trans hon
  have hcmd : (u.heldFor 0 1 d tag).pwr = { u.pwr with domCmd := some (1, d, tag) } := rfl
  rw [requestRise_on hdom (by rw [hcmd]; exact hmode) (by rw [hcmd]), State.heldFor, withPwr_domCmd, State.unheld]

theorem domainOn_completes {d : Nat} (h : Starts s 0x0602 p c u) (hask : c.AsksDomain 1 d) (hlo : 64 ≤ d) (hhi : d < 77)
    (hshort : u.rdb PWR_STAT_SHORT = false) (hon : u.dom d = domOnSt) (hmode : u.pwr.modeCmd = none)
    (hshed : u.rdb PWR_DOM_SHED 0 d = false) :
    ∃ t, exec (.pwrDomainOn p) s = .next t ∧ t.rd PWR_DOM_HELD 0 d = 0 ∧ t.dom d = domOnSt ∧ Answered u t c eOk 0 0 [] ∧
      t.pwr = { u.pwr with domCmd := none } ∧ t = { u with svc := t.svc, regs := t.regs, pwr := t.pwr } := by
  have hexec := exec_domainRow (bursts := []) h hask.op (by decide)
  have hframe := unheld_frame u d
  have hheld : (u.unheld d).rd PWR_DOM_HELD 0 d = 0 := by
    rw [State.unheld, rd_withPwr, rd_wr _ _ _ _ _ _ (by decide) (by decide)]
    rfl
  have hdom : (u.unheld d).rd PWR_DOM_STATE 0 d = domOnSt := by
    rw [State.unheld, rd_withPwr, rd_wr_apart _ _ _ _ _ _ _ _ _ _ (by decide) (by decide) (by decide) (.inl (by decide))]
    exact hon
  rw [cmdPwrDomain_moves hask (by decide) hhi (by omega) (fun _ => ⟨hshort, .inl hon⟩) hshed, if_neg (by decide),
    heldFor_requestRise hon hmode] at hexec
  generalize u.unheld d = v at hframe hheld hdom hexec
  obtain ⟨hans, hdone⟩ := h.completesFrom (v := v) (st := eOk) (detail := 0) (result := 0) (data := []) (by decide) (by decide)
    (by rw [hframe])
  refine ⟨_, hexec, ?_, ?_, hans, ?_, ?_⟩
  · exact (rd_complete_ne v _ _ _ _ _ (f := PWR_DOM_HELD) (dom_addr_ne hhi)).trans hheld
  · exact (rd_complete_ne v _ _ _ _ _ (f := PWR_DOM_STATE) (dom_addr_ne hhi)).trans hdom
  · rw [hdone, hframe]
  · rw [hdone, hframe]

theorem domainOff_goesOff {d : Nat} (h : Starts s 0x0602 p c u) (hask : c.AsksDomain 0 d) (hhi : d < 77) (hcluster : ¬(64 ≤ d ∧ d < 72))
    (hshed : u.rdb PWR_DOM_SHED 0 d = false) :
    exec (.pwrDomainOff p) s =
      .next (({ u.wr PWR_DOM_HELD 1 0 d with pwr := { u.pwr with domCmd := some (0, d, c.tag) } }.turnOff d).progress) := by
  have hexec := exec_domainRow (bursts := []) h hask.op (by decide)
  rw [cmdPwrDomain_moves hask (by decide) hhi (by omega) (fun e => absurd e (by decide)) hshed, if_pos rfl, State.heldFor] at hexec
  exact hexec

theorem domainOn_rises {d : Nat} (h : Starts s 0x0602 p c u) (hask : c.AsksDomain 1 d) (hhi : d < 77)
    (hcluster : d < 64 → u.dom (64 + d / 8) ≠ domOff) (hshort : u.rdb PWR_STAT_SHORT = false)
    (hest : u.dom d = domOnSt ∨ u.estWithin d u.headroom = true) (hshed : u.rdb PWR_DOM_SHED 0 d = false) :
    exec (.pwrDomainOn p) s =
      .next (({ u.wr PWR_DOM_HELD 0 0 d with pwr := { u.pwr with domCmd := some (1, d, c.tag) } }.requestRise d).progress) := by
  have hexec := exec_domainRow (bursts := []) h hask.op (by decide)
  have hcl : ¬((1 ≠ 0 ∧ d < 64 ∧ u.dom (64 + d / 8) = domOff) ∨ (1 = 0 ∧ 64 ≤ d ∧ d < 72)) := by
    rintro (⟨-, hlt, hoff⟩ | ⟨e, -⟩)
    · exact hcluster hlt hoff
    · exact absurd e (by decide)
  rw [cmdPwrDomain_moves hask (by decide) hhi hcl (fun _ => ⟨hshort, hest⟩) hshed, if_neg (by decide), State.heldFor] at hexec
  exact hexec

/-! ### `PWR.RESET` and `PWR.READ` (R208, R591) -/

theorem exec_pwrReset (h : Starts s 0x0603 p c u) : exec (.pwrReset p) s = .next (u.cmdPwrReset c) := by
  rw [h.exec rfl]
  simp only [State.perform, h.opcode]

theorem exec_pwrRead (h : Starts s 0x0604 p c u) : exec (.pwrRead p) s = .next (u.cmdPwrRead c) := by
  rw [h.exec rfl]
  simp only [State.perform, h.opcode]

theorem withSvc_frame {s u : State} (h : u = { s with regs := u.regs }) (x : SvcSt) :
    { u with svc := x } = { s with svc := x, regs := ({ u with svc := x } : State).regs } := by
  rw [h]

theorem pwrReset_drains (h : Starts s 0x0603 p c u) (hclean : c.clean [mask 35 0, 0]) (hword : c.w 0 = 0o162145163164) :
    ∃ t, exec (.pwrReset p) s = .next t ∧ t.rd SVC_STAT_INTAKE = 0 ∧
      t.svc = { u.svc with drain := some ⟨c.tag, u.now,
        (u.cmds.filter fun x => x.tag ≠ c.tag && x.stage ≠ .done).map (·.tag), none⟩ } ∧
      t = { u with svc := t.svc, regs := t.regs } := by
  have hexec := exec_pwrReset h
  unfold State.cmdPwrReset at hexec
  rw [unreserved_of_clean hclean] at hexec
  dsimp only at hexec
  rw [if_neg (not_not_intro hword)] at hexec
  exact ⟨_, hexec, rd_wr u SVC_STAT_INTAKE 0 0 0 0 (by decide) (by decide), rfl, withSvc_frame (wr_frame rfl SVC_STAT_INTAKE 0 0 0 0) _⟩

theorem pwrReset_refuses (h : Starts s 0x0603 p c u) (hclean : c.clean [mask 35 0, 0]) (hword : c.w 0 ≠ 0o162145163164) :
    ∃ t, exec (.pwrReset p) s = .next t ∧ Answered u t c eReserved 0 0 [] ∧ t = { u with svc := t.svc } := by
  have hexec := exec_pwrReset h
  unfold State.cmdPwrReset at hexec
  rw [unreserved_of_clean hclean] at hexec
  dsimp only at hexec
  rw [if_pos hword] at hexec
  exact h.completes (by decide) (by decide) hexec

theorem pwrRead_completes (h : Starts s 0x0604 p c u) :
    ∃ t, exec (.pwrRead p) s = .next t ∧ t = { u with svc := t.svc } ∧
      Answered u t c eOk 0 (u.reg 0o404001003).toNat
        (cleanWords [(u.reg 0o404001004).toNat, (u.reg 0o404001005).toNat, (u.reg 0o404001006).toNat, (u.reg 0o404001007).toNat]) := by
  obtain ⟨t, hexec, hans, hframe⟩ := h.completes (by decide) (by decide) (exec_pwrRead h)
  exact ⟨t, hexec, hframe, hans⟩

theorem pwrMode_changes (h : Starts s 0x0601 p c u) (hclean : c.clean [mask 2 0, 0]) (hshort : u.rdb PWR_STAT_SHORT = false)
    (hch : ChangesAtOnce u ((c.w 0).bits 2 0)) :
    ∃ t, exec (.pwrMode p) s = .next t ∧ Answered u t c eOk 0 ((c.w 0).bits 2 0) [] ∧ t.mode = (c.w 0).bits 2 0 ∧
      Ev.PWR_MODE.raised u t 0 [u.mode, (c.w 0).bits 2 0] ∧
      t = { u with svc := t.svc, regs := t.regs, cnt := t.cnt, tblRaw := t.tblRaw, evt := t.evt, traf := t.traf } := by
  obtain ⟨hne, hmaint, h6, -⟩ := hch.facts
  obtain ⟨hmode, hraised, hframe⟩ := setMode_shows hne hmaint (by omega)
  have hexec := exec_pwrMode h
  rw [cmdPwrMode_changes hclean hshort hch, hmode] at hexec
  generalize u.setMode ((c.w 0).bits 2 0) = v at hmode hraised hframe hexec
  obtain ⟨hans, hdone⟩ := h.completesFrom (v := v) (st := eOk) (detail := 0) (result := (c.w 0).bits 2 0) (data := [])
    (by decide) (by decide) (by rw [hframe])
  refine ⟨_, hexec, hans, ?_, raised_of_evt hraised (complete_evt ..), ?_⟩
  · exact (rd_complete_ne v _ _ _ _ _ (by decide)).trans hmode
  · rw [hdone, hframe]

end PowerCommands

/-- Settles O33, command by command. -/
theorem powerCommandsComplete : Obligations.PowerCommandsComplete := by
  refine ⟨fun s u p c h hclean hshort => ⟨fun hm h0 h4 h6 => ?_, pwrMode_changes h hclean hshort, fun hm hold => ?_⟩,
    fun s u p c d op bursts h hclean hd hop => ⟨fun h3 hlo hhi => ?_, fun hop' hd' hoff => ?_, fun h0 hd' hcl hshed => ?_,
      fun h1 hlo hhi hshort hon hmode hshed => ?_, fun h1 hhi hcl hshort hest hshed => ?_,
      fun h1 hlo hhi hshort hdom hest => ?_, fun h2 hlo hhi hdom => ?_,
      fun h2 hhi hcl hdom => ⟨fun hramp => ?_, fun hdark => ?_⟩⟩,
    fun s u p c h hclean => ⟨pwrReset_drains h hclean, pwrReset_refuses h hclean⟩, fun s u p c => pwrRead_completes⟩
  · exact h.completes (by decide) (by decide)
      ((exec_pwrMode h).trans (congrArg _ (cmdPwrMode_stays hclean hshort hm h0 h4 h6)))
  · exact (exec_pwrMode h).trans (congrArg _ (cmdPwrMode_rises hclean hshort hm hold))
  · exact h.completes (by decide) (by decide)
      ((exec_domainRow h hop h3).trans (congrArg _ (cmdPwrDomain_fixed ⟨hclean, hop, hd⟩ h3 hlo hhi)))
  · exact h.completes (by decide) (by decide)
      ((exec_domainRow h hop (by omega)).trans (congrArg _ (cmdPwrDomain_noCluster ⟨hclean, hop, hd⟩ hop' hd' hoff)))
  · subst h0
    exact domainOff_goesOff h ⟨hclean, hop, hd⟩ hd' hcl hshed
  · subst h1
    exact domainOn_completes h ⟨hclean, hop, hd⟩ hlo hhi hshort hon hmode hshed
  · subst h1
    exact domainOn_rises h ⟨hclean, hop, hd⟩ hhi hcl hshort hest hshed
  · subst h1
    exact h.completes (by decide) (by decide) ((exec_domainRow (bursts := bursts) h hop (by decide)).trans
      (congrArg _ (cmdPwrDomain_noHeadroom ⟨hclean, hop, hd⟩ hlo hhi hshort hdom hest)))
  · subst h2
    exact h.completes (by decide) (by decide) ((exec_domainRow (bursts := bursts) h hop (by decide)).trans
      (congrArg _ (cmdPwrDomain_notOn ⟨hclean, hop, hd⟩ hlo hhi hdom)))
  · subst h2
    exact (exec_domainRow (bursts := bursts) h hop (by decide)).trans (congrArg _
      ((cmdPwrDomain_resets ⟨hclean, hop, hd⟩ hhi hcl hdom).trans (if_pos hramp)))
  · subst h2
    exact (exec_domainRow (bursts := bursts) h hop (by decide)).trans (congrArg _
      ((cmdPwrDomain_resets ⟨hclean, hop, hd⟩ hhi hcl hdom).trans (if_neg (Bool.eq_false_iff.1 hdark))))

end Sys2Proof.Machine
end

section
/-! PROOF. The power log, faulty domains and the loss of mains (R571, R572, R575, R584, R586, R593). -/

namespace Sys2Proof.Machine

open Ev Reg

section PowerStates
variable {s t u v : State} {c : Cmd} {k x : Nat}

theorem reg_wr_ne (s : State) (f : Field) (w i a b : Nat) {y : Nat} (h : y ≠ f.addr i a b) : (s.wr f w i a b).reg y = s.reg y :=
  reg_setReg_ne _ _ h

/-! ### The power log (R586) -/

/-- A word that is none of the power log's. -/
def OffLog (a : Nat) : Prop := a ≠ 0o404001007 ∧ (a < 0o404001400 ∨ 0o404002400 ≤ a)

/-- Each of a record's words lies in the log. -/
theorem OffLog.ne_record {a r : Nat} (h : OffLog a) (hr : r < 128) {f : Field} (hb : f.base = 0o404001000) (hs1 : f.s1 = 4)
    (hlo : 0o400 ≤ f.off) (hhi : f.off ≤ 0o403) : a ≠ f.addr 0 r 0 := by
  obtain ⟨-, h⟩ := h
  unfold Field.addr
  rw [hb, hs1]
  omega

theorem rd_logNext_lt (s : State) : s.rd PWR_LOG_STAT_NEXT < 128 := bitsOf_lt _ _ _

theorem reg_logPwr (s : State) (e : Code) (arg : Int) {a : Nat} (h : OffLog a) : (s.logPwr e arg).reg a = s.reg a := by
  have hstat : a ≠ PWR_LOG_STAT_NEXT.addr 0 0 0 := h.1
  have htotal : a ≠ PWR_LOG_STAT_TOTAL.addr 0 0 0 := h.1
  have hr := rd_logNext_lt s
  have hrec : ∀ f : Field, f.base = 0o404001000 → f.s1 = 4 → 0o400 ≤ f.off → f.off ≤ 0o403 →
      a ≠ f.addr 0 (s.rd PWR_LOG_STAT_NEXT) 0 := fun f => h.ne_record hr
  unfold State.logPwr State.incSat State.wri
  dsimp only
  rw [reg_wr_ne _ _ _ _ _ _ htotal, reg_wr_ne _ _ _ _ _ _ hstat, reg_wr_ne _ _ _ _ _ _ (hrec _ rfl rfl (by decide) (by decide)),
    reg_wr_ne _ _ _ _ _ _ (hrec _ rfl rfl (by decide) (by decide)), reg_wr_ne _ _ _ _ _ _ (hrec _ rfl rfl (by decide) (by decide)),
    reg_wr_ne _ _ _ _ _ _ (hrec _ rfl rfl (by decide) (by decide)), reg_wr_ne _ _ _ _ _ _ (hrec _ rfl rfl (by decide) (by decide)),
    reg_wr_ne _ _ _ _ _ _ (hrec _ rfl rfl (by decide) (by decide)), reg_wr_ne _ _ _ _ _ _ (hrec _ rfl rfl (by decide) (by decide)),
    reg_wr_ne _ _ _ _ _ _ (hrec _ rfl rfl (by decide) (by decide))]

/-- A record of the log is a matter of register words. -/
theorem logPwr_frame (s : State) (e : Code) (arg : Int) : s.logPwr e arg = { s with regs := (s.logPwr e arg).regs } := by
  unfold State.logPwr State.incSat State.wri
  dsimp only
  exact wr_frame (wr_frame (wr_frame (wr_frame (wr_frame (wr_frame (wr_frame (wr_frame (wr_frame (wr_frame rfl _ _ _ _ _)
    _ _ _ _ _) _ _ _ _ _) _ _ _ _ _) _ _ _ _ _) _ _ _ _ _) _ _ _ _ _) _ _ _ _ _) _ _ _ _ _) _ _ _ _ _

/-! ### A domain is marked SHED (R577, R593) -/

/-- Another code's occurrence leaves the latest record of code number `k`. -/
theorem occur_spares (s : State) {e : Code} (args : List Int) {j : Nat} (hp : OffPath k x) (h : e.num ≠ k) (hx : x ≠ e.base + j) :
    Spares k x s (s.occur e j args) := (addCnt_spares s 1 hp hx).trans (occurRec_spares _ j args hp h)

theorem rd_foldl_seeEgress (l : List Nat) (s : State) (f : Field) (i a b : Nat) :
    (l.foldl (fun s e => State.seeEgress s (512 + e)) s).rd f i a b = s.rd f i a b := by
  have hframe := foldl_seeEgress_frame l s
  generalize l.foldl (fun s e => State.seeEgress s (512 + e)) s = w at hframe ⊢
  rw [hframe]
  rfl

theorem foldl_seeEgress_spares (l : List Nat) (s : State) : Spares k x s (l.foldl (fun s e => State.seeEgress s (512 + e)) s) := by
  have hframe := foldl_seeEgress_frame l s
  generalize l.foldl (fun s e => State.seeEgress s (512 + e)) s = w at hframe ⊢
  rw [hframe]
  exact ⟨rfl, rfl, rfl, rfl⟩

/-- The mode that a shed domain brings. -/
theorem setMode_keeps {m : Nat} (hne : s.mode ≠ m) (hmode : s.mode ≠ modeMaintenance) (hm : m < 8) :
    (s.setMode m).pwr = s.pwr ∧
      (∀ f : Field, ∀ i a b, f.addr i a b ≠ PWR_STAT_MODE.addr 0 0 0 → f.addr i a b ≠ alertAddr →
        (s.setMode m).rd f i a b = s.rd f i a b) ∧
      (OffPath k x → Ev.PWR_MODE.num ≠ k → x ≠ Ev.PWR_MODE.base → Spares k x s (s.setMode m)) := by
  obtain ⟨-, -, hframe⟩ := setMode_shows hne hmode hm
  refine ⟨by rw [hframe], fun f i a b hstat halert => ?_, fun hp hnum hbase => ?_⟩
  · have hev := occur_events (s.wr PWR_STAT_MODE m) Ev.PWR_MODE 0 [(s.mode : Int), (m : Int)]
    have hrd := (hev.rd f i a b halert).trans (rd_wr_ne s PWR_STAT_MODE f m 0 0 0 i a b hstat)
    rw [setMode_eq hne hmode]
    generalize (s.wr PWR_STAT_MODE m).occur Ev.PWR_MODE 0 [(s.mode : Int), (m : Int)] = w at hrd ⊢
    exact (rd_foldl_seeEgress _ w f i a b).trans hrd
  · have hoccur := occur_spares (k := k) (x := x) (s.wr PWR_STAT_MODE m) [(s.mode : Int), (m : Int)] (j := 0) hp hnum
      (by rwa [Nat.add_zero])
    have hall := (wr_spares s PWR_STAT_MODE m 0 0 0).trans hoccur
    rw [setMode_eq hne hmode]
    generalize (s.wr PWR_STAT_MODE m).occur Ev.PWR_MODE 0 [(s.mode : Int), (m : Int)] = w at hall ⊢
    exact hall.trans (foldl_seeEgress_spares _ w)

theorem setShed_shows (s : State) {d : Nat} (on : Bool) :
    (s.setShed d on).rd PWR_DOM_SHED 0 d = b2n on ∧ s.setShed d on = { s with regs := (s.setShed d on).regs } := by
  have hne : PWR_DOM_SHED.addr 0 d 0 ≠ PWR_STAT_NSHED.addr 0 0 0 := by
    unfold Field.addr PWR_DOM_SHED PWR_STAT_NSHED
    dsimp only
    omega
  have hfirst : s.wr PWR_DOM_SHED (b2n on) 0 d = { s with regs := (s.wr PWR_DOM_SHED (b2n on) 0 d).regs } :=
    wr_frame (s := s) (t := s) rfl PWR_DOM_SHED (b2n on) 0 d 0
  have hrd := rd_wr s PWR_DOM_SHED (b2n on) 0 d 0 (by decide) (by decide)
  unfold State.setShed
  dsimp only
  generalize s.wr PWR_DOM_SHED (b2n on) 0 d = w at hfirst hrd ⊢
  refine ⟨?_, wr_frame hfirst PWR_STAT_NSHED _ 0 0 0⟩
  rw [rd_wr_ne _ _ _ _ _ _ _ _ _ _ hne, hrd]
  cases on with
  | false => rfl
  | true => rfl

/-- The state in which the event of a domain that is marked SHED is raised. -/
def State.listShed (s : State) (d : Nat) : State :=
  { s.setShed d true with pwr := { (s.setShed d true).pwr with
    shedOrder := (s.setShed d true).pwr.shedOrder.filter (· ≠ d) ++ [d], headSince := none, lastRestore := none
    lit := (s.setShed d true).pwr.lit ++ (s.setShed d true).litOf d } }

theorem listShed_shows (s : State) (d : Nat) :
    (s.listShed d).rd PWR_DOM_SHED 0 d = 1 ∧ d ∈ (s.listShed d).pwr.shedOrder ∧ (s.listShed d).now = s.now := by
  obtain ⟨hshed, hframe⟩ := setShed_shows s (d := d) true
  unfold State.listShed
  generalize s.setShed d true = w at hshed hframe ⊢
  refine ⟨?_, List.mem_append_right _ List.mem_cons_self, ?_⟩
  · rw [rd_withPwr, hshed]
    rfl
  · have hnow := congrArg State.now hframe
    exact hnow

/-- The state in which the mode is looked at: the event of the domain is raised, and the first one that is shed is in the
power log (R577). -/
def State.shedNoted (s : State) (d : Nat) (e : Code) (args : List Int) : State :=
  if s.pwr.shedOrder.isEmpty then
    ((s.listShed d).occur e d args).logPwr PWR_SHED (((s.listShed d).occur e d args).rd PWR_LOAD_P_DC)
  else (s.listShed d).occur e d args

theorem markShed_eq (s : State) (d : Nat) (e : Code) (args : List Int) :
    s.markShed d (some (e, args)) =
      if (s.shedNoted d e args).mode = modeService then (s.shedNoted d e args).setMode modeConstrained
      else s.shedNoted d e args := by
  unfold State.markShed State.shedNoted State.listShed
  dsimp only

theorem shed_offLog {d : Nat} (h : d < 77) : OffLog (PWR_DOM_SHED.addr 0 d 0) := by
  unfold OffLog Field.addr PWR_DOM_SHED
  dsimp only
  omega

theorem shed_ne_alert {d : Nat} (h : d < 77) : PWR_DOM_SHED.addr 0 d 0 ≠ alertAddr := by
  rw [show alertAddr = 0o404010002 by decide]
  unfold Field.addr PWR_DOM_SHED
  dsimp only
  omega

theorem shed_ne_mode (d : Nat) : PWR_DOM_SHED.addr 0 d 0 ≠ PWR_STAT_MODE.addr 0 0 0 := by
  unfold Field.addr PWR_DOM_SHED PWR_STAT_MODE
  dsimp only
  omega

theorem logPwr_raised {e g : Code} {j : Nat} {args : List Int} {arg : Int} (h : e.raised s t j args) :
    e.raised s (t.logPwr g arg) j args := raised_of_evt h (by rw [logPwr_frame])

theorem shedNoted_shows {d : Nat} (e : Code) (args : List Int) (hd : d < 77) :
    (s.shedNoted d e args).rd PWR_DOM_SHED 0 d = 1 ∧ d ∈ (s.shedNoted d e args).pwr.shedOrder ∧
      e.raised s (s.shedNoted d e args) d args := by
  obtain ⟨hshed, hlist, hnow⟩ := listShed_shows s d
  have hev := occur_events (s.listShed d) e d args
  have hraised : e.raised s ((s.listShed d).occur e d args) d args := Code.raised_of_now (occur_raised _ _ _ _) hnow
  have hshed' := (hev.rd PWR_DOM_SHED 0 d 0 (shed_ne_alert hd)).trans hshed
  have hlist' : d ∈ ((s.listShed d).occur e d args).pwr.shedOrder := by rw [hev.pwr]; exact hlist
  unfold State.shedNoted
  generalize (s.listShed d).occur e d args = w at hraised hshed' hlist' ⊢
  split
  · refine ⟨?_, by rw [logPwr_frame]; exact hlist', logPwr_raised hraised⟩
    rw [State.rd, reg_logPwr _ _ _ (shed_offLog hd)]
    exact hshed'
  · exact ⟨hshed', hlist', hraised⟩

/-- A domain that is faulty is marked SHED with its event (R593), whatever the mode. -/
theorem markShed_fault {d : Nat} (hd : d < 77) :
    (s.markShed d (some (PWR_DOMAIN_FAULT, []))).rd PWR_DOM_SHED 0 d = 1 ∧
      PWR_DOMAIN_FAULT.raised s (s.markShed d (some (PWR_DOMAIN_FAULT, []))) d [] ∧
      d ∈ (s.markShed d (some (PWR_DOMAIN_FAULT, []))).pwr.shedOrder := by
  obtain ⟨hshed, hlist, hraised⟩ := shedNoted_shows (s := s) PWR_DOMAIN_FAULT [] hd
  have hoff : OffPath PWR_DOMAIN_FAULT.num 0 :=
    ⟨by decide, not_evPathCounter_of_lt (by decide), by decide +kernel⟩
  rw [markShed_eq]
  generalize s.shedNoted d PWR_DOMAIN_FAULT [] = w at hshed hlist hraised ⊢
  split
  next hserv =>
    obtain ⟨hpwr, hrd, hspares⟩ := setMode_keeps (s := w) (m := modeConstrained) (k := PWR_DOMAIN_FAULT.num) (x := 0)
      (by rw [hserv]; decide) (by rw [hserv]; decide) (by decide)
    exact ⟨(hrd _ _ _ _ (shed_ne_mode d) (shed_ne_alert hd)).trans hshed,
      Code.raised_of_spares hraised (hspares hoff (by decide) (by decide +kernel)), by rw [hpwr]; exact hlist⟩
  · exact ⟨hshed, hraised, hlist⟩

/-! ### Losing mains (R584) -/

/-- A word that the loss of mains may not write on its way to the dark lines. -/
structure OffDying (a : Nat) : Prop where
  log : OffLog a
  img : a ≠ imgLastAddr
  alert : a ≠ alertAddr
  edw : a ≠ EDW_STAT_ZPEND.addr 0 0 0

/-- What each action of a loss of mains leaves. -/
structure DyingStep (s t : State) : Prop where
  frame : t = { s with
    regs := t.regs, cnt := t.cnt, tblRaw := t.tblRaw, evt := t.evt, svc := t.svc, pwr := t.pwr, img := t.img }
  reg : ∀ a, OffDying a → t.reg a = s.reg a

theorem DyingStep.refl (s : State) : DyingStep s s := ⟨rfl, fun _ _ => rfl⟩

theorem DyingStep.trans (h : DyingStep s t) (h' : DyingStep t u) : DyingStep s u := by
  refine ⟨?_, fun a ha => (h'.reg a ha).trans (h.reg a ha)⟩
  rw [h'.frame, h.frame]

theorem DyingStep.rd (h : DyingStep s t) {f : Field} {i a b : Nat} (hf : OffDying (f.addr i a b)) : t.rd f i a b = s.rd f i a b := by
  rw [State.rd, h.reg _ hf, State.rd]

theorem Events.dyingStep (h : Events s t) : DyingStep s t := ⟨by rw [h.1], fun a ha => h.2 a ha.alert⟩

theorem DyingStep.of_regs (h : t = { s with regs := t.regs }) (hreg : ∀ a, OffDying a → t.reg a = s.reg a) : DyingStep s t :=
  ⟨by rw [h], hreg⟩

theorem dyingStep_logPwr (s : State) (e : Code) (arg : Int) : DyingStep s (s.logPwr e arg) :=
  .of_regs (logPwr_frame ..) fun _ ha => reg_logPwr s e arg ha.log

theorem dyingStep_zpend (s : State) (w : Nat) : DyingStep s (s.wr EDW_STAT_ZPEND w) :=
  .of_regs (wr_frame rfl _ _ _ _ _) fun _ ha => reg_wr_ne s _ _ _ _ _ ha.edw

theorem dyingStep_dropCommands (s : State) : DyingStep s s.dropCommands := ⟨rfl, fun _ _ => rfl⟩

theorem dyingStep_abandonStore (s : State) : DyingStep s s.abandonStore := by
  unfold State.abandonStore
  split
  · exact DyingStep.refl s
  next y _ =>
    refine ⟨?_, fun a ha => reg_complete_ne s y.slot eAbort 0 0 [] ha.img⟩
    rw [complete_same]

theorem abandonStore_store (s : State) : s.abandonStore.img.store = none := by
  unfold State.abandonStore
  split
  · assumption
  · rfl

theorem cmdAt_dropCommands (s : State) (j : Nat) : s.dropCommands.cmdAt j = none := rfl

/-- The state in which mains are lost and intake is closed. -/
def State.mainsLost (s : State) : State := (s.wr PWR_STAT_MAINS_OK 0).wr SVC_STAT_INTAKE 0

/-- A zeroise that is under way when mains are lost is left pending (R452). -/
def State.zeroisePends (s : State) : State := if s.edw.zeroing.isSome then s.wr EDW_STAT_ZPEND 1 else s

/-- The loss of mains is raised while the supervisor is up, and logged. -/
def State.mainsNoted (s : State) : State :=
  (if s.up then s.occur PWR_MAINS_FAIL 0 [(s.rd PWR_MAINS_VRMS : Int)] else s).logPwr PWR_MAINS_FAIL (s.rd PWR_MAINS_VRMS)

/-- The dying sequence begins, and what waits for a domain ends. -/
def State.dies (s : State) : State :=
  { s with pwr := { s.pwr with dying := some s.now, modeCmd := none, domCmd := none, rise := [], pendReset := none } }

/-- The state in which every command has ended and mains are lost. -/
def State.commandsEnded (s : State) : State := s.mainsLost.abandonStore.dropCommands.zeroisePends

/-- The state in which the lines and the channels go dark. -/
def State.dyingFrom (s : State) : State := s.commandsEnded.mainsNoted.dies

theorem mainsFail_eq (s : State) :
    s.mainsFail = (List.range 512).foldl (fun (x : State) c => if dsWarm ≤ x.dsState c then x.chDark c else x)
      s.dyingFrom.shutLines := by
  unfold State.mainsFail State.dyingFrom State.dies State.mainsNoted State.commandsEnded State.zeroisePends State.mainsLost
  dsimp only

theorem mainsLost_frame (s : State) : s.mainsLost = { s with regs := s.mainsLost.regs } :=
  wr_frame (wr_frame rfl PWR_STAT_MAINS_OK 0 0 0 0) SVC_STAT_INTAKE 0 0 0 0

theorem rd_mainsLost (s : State) :
    s.mainsLost.rd PWR_STAT_MAINS_OK = 0 ∧ s.mainsLost.rd SVC_STAT_INTAKE = 0 ∧
      s.mainsLost.rd PWR_MAINS_VRMS = s.rd PWR_MAINS_VRMS ∧ s.mainsLost.up = s.up := by
  unfold State.mainsLost State.up State.domOn
  refine ⟨?_, ?_, ?_, ?_⟩
  · rw [rd_wr_ne _ _ _ _ _ _ _ _ _ _ (by decide), rd_wr _ _ _ _ _ _ (by decide) (by decide)]
    rfl
  · rw [rd_wr _ _ _ _ _ _ (by decide) (by decide)]
    rfl
  · rw [rd_wr_ne _ _ _ _ _ _ _ _ _ _ (by decide), rd_wr_ne _ _ _ _ _ _ _ _ _ _ (by decide)]
  · rw [rd_wr_ne _ _ _ _ _ _ _ _ _ _ (by decide), rd_wr_ne _ _ _ _ _ _ _ _ _ _ (by decide)]

theorem offDying_of {a : Nat} (h : a = 0o404001003 ∨ a = 0o404001004 ∨ a = 0o404001216 ∨ a = 0o404010001) : OffDying a := by
  have himg : imgLastAddr = 0o450030001 := by decide
  have halert : alertAddr = 0o404010002 := by decide
  have hzpend : EDW_STAT_ZPEND.addr 0 0 0 = 0o421200000 := by decide
  refine ⟨⟨?_, ?_⟩, ?_, ?_, ?_⟩
  all_goals omega

theorem dyingStep_zeroisePends (s : State) : DyingStep s s.zeroisePends := by
  unfold State.zeroisePends
  split
  · exact dyingStep_zpend s 1
  · exact DyingStep.refl s

theorem zeroisePends_same (s : State) : s.zeroisePends = { s with regs := s.zeroisePends.regs } := by
  unfold State.zeroisePends
  split
  · exact wr_frame rfl EDW_STAT_ZPEND 1 0 0 0
  · rfl

theorem dyingStep_mainsNoted (s : State) : DyingStep s s.mainsNoted := by
  unfold State.mainsNoted
  split
  · exact (occur_events s _ _ _).dyingStep.trans (dyingStep_logPwr _ _ _)
  · exact dyingStep_logPwr s _ _

theorem mainsNoted_same (s : State) :
    s.mainsNoted = { s with
      regs := s.mainsNoted.regs, cnt := s.mainsNoted.cnt, tblRaw := s.mainsNoted.tblRaw, evt := s.mainsNoted.evt } := by
  unfold State.mainsNoted
  split
  · have hev := (occur_events s PWR_MAINS_FAIL 0 [(s.rd PWR_MAINS_VRMS : Int)]).1
    rw [logPwr_frame]
    generalize s.occur PWR_MAINS_FAIL 0 [(s.rd PWR_MAINS_VRMS : Int)] = w at hev ⊢
    rw [hev]
  · rw [logPwr_frame]

theorem mainsNoted_raised (s : State) (h : s.up = true) :
    PWR_MAINS_FAIL.raised s s.mainsNoted 0 [(s.rd PWR_MAINS_VRMS : Int)] := by
  unfold State.mainsNoted
  rw [if_pos h]
  exact logPwr_raised (occur_raised _ _ _ _)

theorem dyingStep_commandsEnded (s : State) : DyingStep s.mainsLost s.commandsEnded :=
  ((dyingStep_abandonStore _).trans (dyingStep_dropCommands _)).trans (dyingStep_zeroisePends _)

theorem commandsEnded_shows (s : State) :
    s.commandsEnded.img.store = none ∧ (∀ j, s.commandsEnded.cmdAt j = none) ∧ s.commandsEnded.now = s.now ∧
      s.commandsEnded.up = s.up ∧ s.commandsEnded.rd PWR_MAINS_VRMS = s.rd PWR_MAINS_VRMS := by
  obtain ⟨-, -, hvrms, hup⟩ := rd_mainsLost s
  have hstep := dyingStep_commandsEnded s
  have hsame := zeroisePends_same s.mainsLost.abandonStore.dropCommands
  have himg := congrArg State.img hsame
  have hsvc := congrArg State.svc hsame
  refine ⟨?_, fun j => ?_, ?_, ?_, ?_⟩
  · exact (congrArg ImgSt.store himg).trans (abandonStore_store s.mainsLost)
  · rw [State.cmdAt, State.commandsEnded, hsvc]
    exact cmdAt_dropCommands _ j
  · have hnow := congrArg State.now hstep.frame
    have hlost := congrArg State.now (mainsLost_frame s)
    exact hnow.trans hlost
  · rw [State.up, State.domOn, hstep.rd (offDying_of (by decide))]
    exact hup
  · rw [hstep.rd (offDying_of (by decide)), hvrms]

theorem dies_svc (s : State) : s.dies.svc = s.svc := rfl
theorem dies_img (s : State) : s.dies.img = s.img := rfl
theorem dies_evt (s : State) : s.dies.evt = s.evt := rfl

theorem dies_frame {a : State} (h : DyingStep a t) (ha : a = { s with regs := a.regs }) :
    t.dies = { s with
      regs := t.dies.regs, cnt := t.dies.cnt, tblRaw := t.dies.tblRaw, evt := t.dies.evt, svc := t.dies.svc, pwr := t.dies.pwr
      img := t.dies.img } := by
  unfold State.dies
  rw [h.frame, ha]

/-- What the loss of mains has done before the lights go out (R584). -/
theorem dyingFrom_shows (s : State) :
    s.dyingFrom.rd PWR_STAT_MAINS_OK = 0 ∧ s.dyingFrom.rd SVC_STAT_INTAKE = 0 ∧ (∀ j, s.dyingFrom.cmdAt j = none) ∧
      s.dyingFrom.pwr.dying = some s.now ∧ s.dyingFrom.pwr.rise = [] ∧ s.dyingFrom.pwr.modeCmd = none ∧
      s.dyingFrom.img.store = none ∧
      (s.up = true → PWR_MAINS_FAIL.raised s s.dyingFrom 0 [(s.rd PWR_MAINS_VRMS : Int)]) ∧
      s.dyingFrom = { s with
        regs := s.dyingFrom.regs, cnt := s.dyingFrom.cnt, tblRaw := s.dyingFrom.tblRaw, evt := s.dyingFrom.evt
        svc := s.dyingFrom.svc, pwr := s.dyingFrom.pwr, img := s.dyingFrom.img } := by
  obtain ⟨hmains, hintake, -⟩ := rd_mainsLost s
  obtain ⟨hstore, hslots, hnow, hup, hvrms⟩ := commandsEnded_shows s
  have hstep := (dyingStep_commandsEnded s).trans (dyingStep_mainsNoted _)
  have hsame := mainsNoted_same s.commandsEnded
  have hraised := mainsNoted_raised s.commandsEnded
  rw [hup, hvrms] at hraised
  have hframe := dies_frame hstep (mainsLost_frame s)
  rw [State.dyingFrom]
  have hsvc : s.commandsEnded.mainsNoted.svc = s.commandsEnded.svc := by rw [hsame]
  have himg : s.commandsEnded.mainsNoted.img = s.commandsEnded.img := by rw [hsame]
  have htime : s.commandsEnded.mainsNoted.now = s.commandsEnded.now := by rw [hsame]
  generalize s.commandsEnded.mainsNoted = w at hstep hraised hframe hsvc himg htime ⊢
  refine ⟨?_, ?_, fun j => ?_, ?_, rfl, rfl, ?_, fun h => ?_, hframe⟩
  · rw [State.dies, rd_withPwr, hstep.rd (offDying_of (by decide)), hmains]
  · rw [State.dies, rd_withPwr, hstep.rd (offDying_of (by decide)), hintake]
  · rw [← hslots j, State.cmdAt, State.cmdAt, ← hsvc, dies_svc]
  · exact congrArg some (htime.trans hnow)
  · rw [dies_img, himg, hstore]
  · have hw : PWR_MAINS_FAIL.raised s w 0 [(s.rd PWR_MAINS_VRMS : Int)] := Code.raised_of_now (hraised h) hnow
    exact raised_of_evt hw (dies_evt w)

theorem mainsFail_ends (hdying : s.pwr.dying = none) (hmains : s.rdb PWR_STAT_MAINS_OK = true) :
    exec .mainsFail s = .next ((List.range 512).foldl (fun (x : State) c => if dsWarm ≤ x.dsState c then x.chDark c else x)
      s.dyingFrom.shutLines) := by
  rw [← mainsFail_eq]
  exact congrArg Host.Outcome.next (if_pos ⟨hmains, by rw [hdying]; rfl⟩)

end PowerStates
end Sys2Proof.Machine
end

section
/-! PROOF. Domains, resets, the watchdog, the key store and the drain of `PWR.RESET` (R208, R447, R571, R584, R585, R587,
R588, R593, R604). -/

namespace Sys2Proof.Machine

open Ev Reg

section PowerEvents
variable {s t u v : State} {c : Cmd} {d : Drain}

/-! ### A failed CAST (R446, R447) -/

theorem selfTestFail_shows (s : State) {code : Nat} (h : code < 16) :
    (s.selfTestFail code).rd EDW_STAT_ERROR = 1 ∧ (s.selfTestFail code).rd EDW_STAT_ECODE = code ∧
      (s.selfTestFail code).rd EDW_STAT_APPROVED = 0 ∧ EDW_SELFTEST_FAIL.raised s (s.selfTestFail code) 0 [] := by
  have hev := occur_events (((s.wr EDW_STAT_ERROR 1).wr EDW_STAT_ECODE code).wr EDW_STAT_APPROVED 0) EDW_SELFTEST_FAIL 0 []
  unfold State.selfTestFail
  refine ⟨?_, ?_, ?_, Code.raised_of_now (occur_raised _ _ _ _) (by rw [wr_now, wr_now, wr_now])⟩
  · rw [hev.rd _ _ _ _ (by decide), rd_wr_apart _ _ _ _ _ _ _ _ _ _ (by decide) (by decide) (by decide) (.inr (by decide)),
      rd_wr_apart _ _ _ _ _ _ _ _ _ _ (by decide) (by decide) (by decide) (.inl (by decide)),
      rd_wr _ _ _ _ _ _ (by decide) (by decide)]
    rfl
  · rw [hev.rd _ _ _ _ (by decide), rd_wr_apart _ _ _ _ _ _ _ _ _ _ (by decide) (by decide) (by decide) (.inr (by decide)),
      rd_wr _ _ _ _ _ _ (by decide) (by decide)]
    exact Nat.mod_eq_of_lt h
  · rw [hev.rd _ _ _ _ (by decide), rd_wr _ _ _ _ _ _ (by decide) (by decide)]
    rfl

theorem instanceCast_fails (htested : s.edw.tested = true) (hok : s.rdb EDW_STAT_ERROR = false) :
    s.instanceCast true = s.selfTestFail 11 := by
  unfold State.instanceCast
  rw [htested, hok]
  rfl

theorem instanceCast_early (htested : s.edw.tested = false) :
    s.instanceCast true = { s with edw := { s.edw with castFail := true } } := by
  unfold State.instanceCast
  rw [htested]
  rfl

/-! ### Domains (R571, R587, R593) -/

theorem rd_poweredOff (s : State) (q : Nat → Bool) (z : List Nat) (x : PwrSt) (f : Field) (i a b : Nat) :
    ({ s.zeroMem q with zeroing := z, pwr := x } : State).rd f i a b = s.rd f i a b := rfl

theorem powerOff_off (s : State) (d : Nat) : (s.powerOff d).dom d = domOff := by
  unfold State.powerOff State.dom
  dsimp only
  rw [rd_poweredOff, rd_wr _ _ _ _ _ _ (by decide) (by decide)]
  rfl

theorem exec_domainOn_rising {d : Fin 80} {fails : BitVec 4} {cast : Bool} (h : s.dom d = domRising) :
    exec (.domainOn d fails cast) s = .next
      ((if d.val = 78 then s.supervisorUp fails cast else s.powerUp d fails cast).startRise).progress :=
  congrArg Host.Outcome.next (if_pos h)

/-- A domain that `PWR.DOMAIN` resets, by how far the reset has come. -/
theorem exec_domainOn_reset {d : Fin 80} {fails : BitVec 4} {cast : Bool} {k t tag : Nat} (h : s.dom d ≠ domRising)
    (hreset : (s.pwr.resetting.find? fun r => r.1 = d.val) = some (k, t, tag)) :
    exec (.domainOn d fails cast) s = .next (
      if t = 0 then
        if s.ramping d then s
        else { (s.stopDomain d none).startDomain d with
          pwr := { s.pwr with
            resetting := (s.pwr.resetting.filter fun r => r.1 ≠ d.val) ++ [(d.val, s.now + 10 * ticksUs, tag)] } }
      else if s.now < t then s
      else ((domainCore d).elim
        { s with pwr := { s.pwr with resetting := s.pwr.resetting.filter fun r => r.1 ≠ d.val } }
        ({ s with pwr := { s.pwr with resetting := s.pwr.resetting.filter fun r => r.1 ≠ d.val } } : State).imageLoads).complete
          tag eOk) := by
  refine congrArg Host.Outcome.next ((if_neg h).trans ?_)
  rw [hreset]
  dsimp only
  cases domainCore d with
  | none => rfl
  | some n => rfl

theorem exec_domainFault {d : Fin 80} (hd : d.val < 77) (hoff : s.dom d ≠ domOff) (hfall : s.dom d ≠ domFalling)
    (hup : s.up = true) (hdying : s.pwr.dying = none) :
    exec (.domainFault d) s = .next (
      (((if 64 ≤ d.val ∧ d.val < 72 then ((List.range 8).map (8 * (d.val - 64) + ·)).filter fun t => s.dom t = domOnSt
        else []).foldl (fun (x : State) t => (x.markShed t none).turnOff t) s).markShed d
          (some (PWR_DOMAIN_FAULT, []))).turnOff d) := by
  have hno : ¬(77 ≤ d.val ∨ s.dom d = domOff ∨ s.dom d = domFalling ∨ (!s.up) = true ∨ s.pwr.dying.isSome = true) := by
    rw [hup, hdying]
    rintro (h | h | h | h | h)
    · omega
    · exact hoff h
    · exact hfall h
    · exact absurd h (by decide)
    · exact absurd h (by decide)
  exact congrArg Host.Outcome.next (if_neg hno)

theorem domainFault_single {d : Fin 80} (hd : d.val < 64 ∨ 72 ≤ d.val ∧ d.val < 77) (hon : s.dom d = domOnSt) (hup : s.up = true)
    (hdying : s.pwr.dying = none) :
    exec (.domainFault d) s = .next ((s.markShed d (some (PWR_DOMAIN_FAULT, []))).turnOff d) := by
  rw [exec_domainFault (by omega) (by rw [hon]; decide) (by rw [hon]; decide) hup hdying, if_neg (by omega), List.foldl_nil]

/-! ### Backup (R584, R585) -/

/-- The state once every domain but 79 is OFF. -/
def State.allOff (s : State) : State :=
  ((List.range 79).reverse).foldl (fun (s : State) d => if s.dom d = domOff then s else s.powerOff d (some [])) s

theorem enterBackup_eq (s : State) :
    s.enterBackup = { s.allOff.wr PWR_STAT_MODE modeBackup with
      svc := {}
      pwr := { cycles := (s.allOff.wr PWR_STAT_MODE modeBackup).pwr.cycles, lowArmed := (s.allOff.wr PWR_STAT_MODE modeBackup).pwr.lowArmed,
                  lostBackup := (s.allOff.wr PWR_STAT_MODE modeBackup).pwr.lostBackup } } := rfl

theorem backup_mode (w : State) (x : SvcSt) (p : PwrSt) : ({ w with svc := x, pwr := p } : State).mode = w.mode := rfl
theorem backup_pwr (w : State) (x : SvcSt) (p : PwrSt) : ({ w with svc := x, pwr := p } : State).pwr = p := rfl
theorem backup_cmdAt (w : State) (p : PwrSt) (i : Nat) : ({ w with svc := {}, pwr := p } : State).cmdAt i = none := rfl

theorem enterBackup_shows (s : State) :
    s.enterBackup.mode = modeBackup ∧ s.enterBackup.pwr.dying = none ∧ ∀ i, s.enterBackup.cmdAt i = none := by
  have hrd := rd_wr s.allOff PWR_STAT_MODE modeBackup 0 0 0 (by decide) (by decide)
  rw [enterBackup_eq]
  generalize s.allOff.wr PWR_STAT_MODE modeBackup = w at hrd ⊢
  exact ⟨(backup_mode ..).trans hrd, by rw [backup_pwr], backup_cmdAt w _⟩
theorem exec_backupEntry {k : Nat} (h : s.pwr.dying = some k) :
    exec .backupEntry s = .next (if s.linesRamp && decide (s.now < k + 8 * ticksMs) then s else s.enterBackup) := by
  change execBackupEntry s = _
  unfold execBackupEntry
  rw [h]

theorem backupEntry_enters {k : Nat} (h : s.pwr.dying = some k) (hdark : s.linesRamp = false ∨ k + 8 * ticksMs ≤ s.now) :
    exec .backupEntry s = .next s.enterBackup := by
  rw [exec_backupEntry h, if_neg]
  rw [Bool.and_eq_true, decide_eq_true_eq]
  rintro ⟨hramp, hsoon⟩
  obtain hno | hlate := hdark
  · rw [hno] at hramp
    exact absurd hramp (by decide)
  · omega

theorem backupEntry_waits {k : Nat} (h : s.pwr.dying = some k) (hramp : s.linesRamp = true) (hsoon : s.now < k + 8 * ticksMs) :
    exec .backupEntry s = .next s := by
  rw [exec_backupEntry h, hramp, decide_eq_true hsoon]
  rfl

/-- The key store without its keys (R450). -/
def State.keysDropped (s : State) : State :=
  { s with
    edw := { s.edw with keys := [], trk := [], tkey := none, loads := [], tagSf := [], seedAt := s.now }
    regs := s.regs.filter fun e => !(decide (0o420000000 ≤ e.1) && decide (e.1 < 0o421000000) && decide (e.1 % 0o10000 < 3)) }

theorem wipeKeys_eq (s : State) :
    s.wipeKeys = ((s.keysDropped.wr EDW_STAT_TKEY 0).wr EDW_STAT_IMGKEY 0).wr EDW_STAT_BOOTSTRAP 1 := rfl

/-- What a wipe leaves of the key store and of what `EDW_STAT` shows of it. -/
theorem wipeKeys_shows (s : State) :
    s.wipeKeys.edw = s.keysDropped.edw ∧ s.wipeKeys.rd EDW_STAT_TKEY = 0 ∧ s.wipeKeys.rd EDW_STAT_IMGKEY = 0 ∧
      s.wipeKeys = { s with regs := s.wipeKeys.regs, edw := s.wipeKeys.edw } := by
  have hdrop : s.keysDropped = { s with regs := s.keysDropped.regs, edw := s.keysDropped.edw } := rfl
  rw [wipeKeys_eq]
  generalize s.keysDropped = w at hdrop ⊢
  have hframe : ((w.wr EDW_STAT_TKEY 0).wr EDW_STAT_IMGKEY 0).wr EDW_STAT_BOOTSTRAP 1 =
      { w with regs := (((w.wr EDW_STAT_TKEY 0).wr EDW_STAT_IMGKEY 0).wr EDW_STAT_BOOTSTRAP 1).regs } :=
    wr_frame (wr_frame (wr_frame rfl _ _ _ _ _) _ _ _ _ _) _ _ _ _ _
  refine ⟨by rw [wr_edw, wr_edw, wr_edw], ?_, ?_, ?_⟩
  · rw [rd_wr_apart _ _ _ _ _ _ _ _ _ _ (by decide) (by decide) (by decide) (.inl (by decide)),
      rd_wr_apart _ _ _ _ _ _ _ _ _ _ (by decide) (by decide) (by decide) (.inl (by decide)),
      rd_wr _ _ _ _ _ _ (by decide) (by decide)]
    rfl
  · rw [rd_wr_apart _ _ _ _ _ _ _ _ _ _ (by decide) (by decide) (by decide) (.inl (by decide)),
      rd_wr _ _ _ _ _ _ (by decide) (by decide)]
    rfl
  · generalize ((w.wr EDW_STAT_TKEY 0).wr EDW_STAT_IMGKEY 0).wr EDW_STAT_BOOTSTRAP 1 = x at hframe ⊢
    rw [hframe, hdrop]

theorem backupLoss_wipes (hmains : s.rdb PWR_STAT_MAINS_OK = false) (hup : s.up = false) :
    ∃ t, exec .backupLoss s = .next t ∧ t.pwr = { s.pwr with lostBackup := true } ∧ t.edw.keys = [] ∧ t.edw.trk = [] ∧
      t.edw.tkey = none ∧ t.rd EDW_STAT_TKEY = 0 ∧ t.rd EDW_STAT_IMGKEY = 0 ∧
      t = { s with regs := t.regs, edw := t.edw, pwr := t.pwr } := by
  obtain ⟨hedw, htkey, himgkey, hframe⟩ := wipeKeys_shows s
  refine ⟨_, congrArg Host.Outcome.next (if_neg (by rw [hmains, hup]; decide)), rfl, ?_, ?_, ?_,
    (rd_withPwr ..).trans htkey, (rd_withPwr ..).trans himgkey, ?_⟩
  · exact congrArg EdwSt.keys hedw
  · exact congrArg EdwSt.trk hedw
  · exact congrArg EdwSt.tkey hedw
  · generalize s.wipeKeys = w at hframe
    rw [hframe]

/-! ### Resets and the watchdog (R587, R588, R604) -/

theorem hostResetPin_resets (hup : s.up = true) (hrst : s.pwr.hrst = false) (hdying : s.pwr.dying = none) :
    exec .hostResetPin s = .next ({ s with pwr := { s.pwr with hrst := true } }.warmReset .hostPin) :=
  congrArg Host.Outcome.next (if_neg (by rw [hup, hrst, hdying]; decide))

theorem hrstNRelease_boots (hup : s.up = true) (hrst : s.pwr.hrst = true) :
    ∃ t, exec .hrstNRelease s = .next t ∧ t.pwr = { s.pwr with hrst := false } ∧
      t.svc = { s.svc with booting := s.svc.booting || s.pwr.pendReset.isNone } ∧ t = { s with pwr := t.pwr, svc := t.svc } := by
  have hexec : exec .hrstNRelease s = .next ({ s with pwr := { s.pwr with hrst := false } }.bootNow) :=
    congrArg Host.Outcome.next (if_neg (by rw [hup, hrst]; decide))
  refine ⟨_, hexec, ?_⟩
  unfold State.bootNow
  cases hpend : s.pwr.pendReset with
  | none => exact ⟨rfl, by simp [hpend], rfl⟩
  | some kind => exact ⟨rfl, by simp [hpend], rfl⟩

/-- The state in which an expired watchdog resets. -/
def State.wdogNoted (s : State) (cause : Nat) : State :=
  ((s.occur PWR_WDOG_EXPIRE 0 [(cause : Int)]).logPwr PWR_WDOG_EXPIRE cause).wr PWR_WDOG_CTL_EN 0

theorem wdogNoted_shows (s : State) (cause : Nat) :
    PWR_WDOG_EXPIRE.raised s (s.wdogNoted cause) 0 [(cause : Int)] ∧ (s.wdogNoted cause).rd PWR_WDOG_CTL_EN = 0 ∧
      s.wdogNoted cause = { s with
        regs := (s.wdogNoted cause).regs, cnt := (s.wdogNoted cause).cnt, tblRaw := (s.wdogNoted cause).tblRaw
        evt := (s.wdogNoted cause).evt } := by
  have hev := (occur_events s PWR_WDOG_EXPIRE 0 [(cause : Int)]).1
  have hraised := occur_raised s PWR_WDOG_EXPIRE 0 [(cause : Int)]
  unfold State.wdogNoted
  generalize s.occur PWR_WDOG_EXPIRE 0 [(cause : Int)] = w at hev hraised ⊢
  have hframe := wr_frame (logPwr_frame w PWR_WDOG_EXPIRE cause) PWR_WDOG_CTL_EN 0 0 0 0
  have hlogged : PWR_WDOG_EXPIRE.raised s (w.logPwr PWR_WDOG_EXPIRE cause) 0 [(cause : Int)] := logPwr_raised hraised
  generalize w.logPwr PWR_WDOG_EXPIRE cause = x at hframe hlogged ⊢
  refine ⟨raised_of_evt hlogged (wr_evt ..), rd_wr x PWR_WDOG_CTL_EN 0 0 0 0 (by decide) (by decide), ?_⟩
  generalize x.wr PWR_WDOG_CTL_EN 0 = y at hframe ⊢
  rw [hframe, hev]

theorem wdogExpire_resets (hup : s.up = true) (hdying : s.pwr.dying = none) (hen : s.rdb PWR_WDOG_CTL_EN = true)
    (hlate : s.pwr.wdogAt + s.rd PWR_WDOG_CTL_T * (ticksSec / 10) ≤ s.now) :
    exec .wdogExpire s = .next ((s.wdogNoted 1).warmReset .watchdog) :=
  congrArg Host.Outcome.next (if_pos (by rw [hup, hdying, hen, decide_eq_true hlate]; rfl))

/-! ### The drain of `PWR.RESET` (R208) -/

theorem exec_drainEnd (hup : s.up = true) (hpend : s.pwr.pendReset = none) : exec .pwrResetDrainEnd s = .next s.drainStep :=
  congrArg Host.Outcome.next (if_pos ⟨hup, by rw [hpend]; rfl⟩)

/-- The commands that the drain of a `PWR.RESET` has to end. -/
def State.othersOf (s : State) (d : Drain) : List Cmd := s.cmds.filter fun x => x.tag ≠ d.tag && x.stage ≠ .done

theorem any_running_othersOf :
    ((s.othersOf d).any fun x => decide (x.stage = .running)) = true ↔ ∃ x ∈ s.cmds, x.tag ≠ d.tag ∧ x.stage = .running := by
  simp only [State.othersOf, List.any_eq_true, List.mem_filter, Bool.and_eq_true, decide_eq_true_eq]
  constructor
  · rintro ⟨x, ⟨hx, htag, -⟩, hrun⟩
    exact ⟨x, hx, htag, hrun⟩
  · rintro ⟨x, hx, htag, hrun⟩
    exact ⟨x, ⟨hx, htag, by rw [hrun]; decide⟩, hrun⟩

/-- The drain's time is noted once nothing that it waits for runs. -/
def State.drained (s : State) (d : Drain) : State :=
  { s with svc := { s.svc with drain := some { d with closed := some s.now } } }

theorem drainStep_waits (hdrain : s.svc.drain = some d) (hopen : d.closed = none)
    (hrun : ∃ x ∈ s.cmds, x.tag ≠ d.tag ∧ x.stage = .running) (hsoon : s.now < d.since + 100 * ticksMs) : s.drainStep = s := by
  have hany := any_running_othersOf.2 hrun
  unfold State.othersOf at hany
  unfold State.drainStep
  rw [hdrain]
  dsimp only
  rw [hopen]
  dsimp only
  rw [hany, decide_eq_true hsoon]
  rfl

theorem drainStep_drains (hdrain : s.svc.drain = some d) (hopen : d.closed = none)
    (hgo : (∀ x ∈ s.cmds, x.tag ≠ d.tag → x.stage ≠ .running) ∨ d.since + 100 * ticksMs ≤ s.now) :
    s.drainStep =
      if d.left.all fun k => (((s.abortCommands (s.othersOf d)).drained d).cmdAt k).isNone then
        ((s.abortCommands (s.othersOf d)).drained d).complete d.tag eOk
      else (s.abortCommands (s.othersOf d)).drained d := by
  have hstop : ¬((((s.othersOf d).any fun x => decide (x.stage = .running)) && decide (s.now < d.since + 100 * ticksMs)) = true) := by
    rw [Bool.and_eq_true, decide_eq_true_eq]
    rintro ⟨hany, hsoon⟩
    obtain ⟨x, hx, htag, hrun⟩ := any_running_othersOf.1 hany
    obtain hidle | hlate := hgo
    · exact hidle x hx htag hrun
    · omega
  unfold State.othersOf at hstop ⊢
  unfold State.drainStep
  rw [hdrain]
  dsimp only
  rw [hopen]
  dsimp only
  rw [if_neg hstop]
  rfl

theorem drainStep_closed {k : Nat} (hdrain : s.svc.drain = some d) (hclosed : d.closed = some k) :
    s.drainStep =
      if (s.cmdAt d.tag).isNone || decide (k + 100 * ticksMs ≤ s.now) then s.warmReset .command
      else if d.left.all fun j => (s.cmdAt j).isNone then s.complete d.tag eOk else s := by
  unfold State.drainStep
  rw [hdrain]
  dsimp only
  rw [hclosed]

theorem all_isNone_iff {l : List Nat} : (l.all fun k => (s.cmdAt k).isNone) = true ↔ ∀ k ∈ l, s.cmdAt k = none := by
  simp only [List.all_eq_true, Option.isNone_iff_eq_none]

/-- The completion of `PWR.RESET` itself. -/
theorem reset_completes {tag : Nat} (h : s.cmdAt tag = some c) (htag : c.tag = tag) (hstage : c.stage ≠ .done)
    (hop : c.opcode = 0x0603) :
    Answered s (s.complete tag eOk) c eOk 0 0 [] ∧ s.complete tag eOk = { s with svc := (s.complete tag eOk).svc } := by
  have hlives := lives_of_cmdAt h htag hstage
  rw [← htag]
  exact ⟨lives_answered hlives _ _ _ _, complete_frame_of_lives hlives (by rw [hop]; decide) (by rw [hop]; decide) _ _ _ _⟩

theorem othersOf_nil (h : ∀ x ∈ s.cmds, x.tag = d.tag ∨ x.stage = .done) : s.othersOf d = [] := by
  unfold State.othersOf
  rw [List.filter_eq_nil_iff]
  intro x hx
  obtain htag | hdone := h x hx
  · simp [htag]
  · simp [hdone]

theorem abortCommands_nil (s : State) : s.abortCommands [] = s := by
  unfold State.abortCommands
  split
  · rfl
  · rfl

theorem drain_answers (hup : s.up = true) (hpend : s.pwr.pendReset = none) (hdrain : s.svc.drain = some d)
    (hopen : d.closed = none) (h : s.cmdAt d.tag = some c) (htag : c.tag = d.tag) (hstage : c.stage ≠ .done)
    (hop : c.opcode = 0x0603) (hothers : ∀ x ∈ s.cmds, x.tag = d.tag ∨ x.stage = .done) (hleft : ∀ k ∈ d.left, s.cmdAt k = none) :
    ∃ t, exec .pwrResetDrainEnd s = .next t ∧ Answered (s.drained d) t c eOk 0 0 [] ∧ t = { s with svc := t.svc } := by
  have hidle : ∀ x ∈ s.cmds, x.tag ≠ d.tag → x.stage ≠ .running := fun x hx hne hrun => by
    obtain htag' | hdone := hothers x hx
    · exact hne htag'
    · rw [hdone] at hrun
      exact absurd hrun (by decide)
  have hstep := drainStep_drains hdrain hopen (.inl hidle)
  have hsent : (d.left.all fun k => ((s.drained d).cmdAt k).isNone) = true := all_isNone_iff.2 hleft
  rw [othersOf_nil hothers, abortCommands_nil, if_pos hsent] at hstep
  obtain ⟨hans, hframe⟩ := reset_completes (s := s.drained d) h htag hstage hop
  exact ⟨_, (exec_drainEnd hup hpend).trans (congrArg _ hstep), hans, hframe.trans (by rw [State.drained])⟩

theorem drain_keeps (hup : s.up = true) (hpend : s.pwr.pendReset = none) (hdrain : s.svc.drain = some d) (hopen : d.closed = none)
    (hgo : (∀ x ∈ s.cmds, x.tag ≠ d.tag → x.stage ≠ .running) ∨ d.since + 100 * ticksMs ≤ s.now)
    (hleft : ∃ k ∈ d.left, (s.abortCommands (s.othersOf d)).cmdAt k ≠ none) :
    exec .pwrResetDrainEnd s = .next ((s.abortCommands (s.othersOf d)).drained d) := by
  have hstep := drainStep_drains hdrain hopen hgo
  rw [if_neg] at hstep
  · exact (exec_drainEnd hup hpend).trans (congrArg _ hstep)
  · intro hall
    obtain ⟨k, hk, hsome⟩ := hleft
    exact hsome (all_isNone_iff.1 hall k hk)

theorem drain_closes {k : Nat} (hup : s.up = true) (hpend : s.pwr.pendReset = none) (hdrain : s.svc.drain = some d)
    (hclosed : d.closed = some k) (h : s.cmdAt d.tag = some c) (htag : c.tag = d.tag) (hstage : c.stage ≠ .done)
    (hop : c.opcode = 0x0603) (hsoon : s.now < k + 100 * ticksMs) (hleft : ∀ j ∈ d.left, s.cmdAt j = none) :
    ∃ t, exec .pwrResetDrainEnd s = .next t ∧ Answered s t c eOk 0 0 [] ∧ t = { s with svc := t.svc } := by
  have hstep := drainStep_closed hdrain hclosed
  rw [h, decide_eq_false (by omega), if_neg (by simp), if_pos (all_isNone_iff.2 hleft)] at hstep
  obtain ⟨hans, hframe⟩ := reset_completes h htag hstage hop
  exact ⟨_, (exec_drainEnd hup hpend).trans (congrArg _ hstep), hans, hframe⟩

theorem drain_resets {k : Nat} (hup : s.up = true) (hpend : s.pwr.pendReset = none) (hdrain : s.svc.drain = some d)
    (hclosed : d.closed = some k) (h : s.cmdAt d.tag = none ∨ k + 100 * ticksMs ≤ s.now) :
    exec .pwrResetDrainEnd s = .next (s.warmReset .command) := by
  have hstep := drainStep_closed hdrain hclosed
  rw [if_pos] at hstep
  · exact (exec_drainEnd hup hpend).trans (congrArg _ hstep)
  · rw [Bool.or_eq_true, decide_eq_true_eq, Option.isNone_iff_eq_none]
    exact h

theorem exec_mainsReturn {vrms freq : Nat} (hmains : s.rdb PWR_STAT_MAINS_OK = false) (hdying : s.pwr.dying = none)
    (hup : s.up = false) :
    exec (.mainsReturn vrms freq) s = .next
      (if 800 ≤ vrms ∧ vrms ≤ 2700 ∧ 2250 ≤ freq ∧ freq ≤ 3250 then s.powerOnReset vrms freq else s) := by
  refine congrArg Host.Outcome.next ?_
  rw [hmains, hdying, hup]
  split
  next hbad => rw [if_neg (fun hok => by simp [hok] at hbad)]
  next hgood => rw [if_pos (by simpa [and_assoc] using hgood)]

end PowerEvents

/-- Settles O39, event by event. -/
theorem powerStateEventsComplete : Obligations.PowerStateEventsComplete := by
  refine ⟨fun s d fails cast => exec_domainOn_rising,
    fun s fails => ⟨fun hf => ?_, fun hf htested => ?_, fun hf htested hok => ?_⟩,
    fun s d fails cast k t tag hdom hreset ht hlate => ?_,
    fun s d fails cast k tag hdom hreset => ⟨fun hramp => ?_, fun hdark => ?_⟩,
    fun s d hdom => ⟨congrArg Host.Outcome.next (if_neg (not_not_intro hdom)), powerOff_off s d⟩,
    fun s d hd hon hup hdying => ⟨domainFault_single hd hon hup hdying, markShed_fault (by omega)⟩,
    fun s d hlo hhi hoff hfall hup hdying => ⟨?_, markShed_fault (by omega)⟩,
    fun s hdying hmains => ⟨s.dyingFrom, mainsFail_ends hdying hmains, dyingFrom_shows s⟩,
    fun s k hdying hdark => ⟨_, backupEntry_enters hdying hdark, enterBackup_shows s⟩,
    fun s k => backupEntry_waits, fun s vrms freq hmains hdying hup => ⟨fun hok => ?_, fun hbad => ?_⟩,
    fun s => backupLoss_wipes, fun s => hostResetPin_resets, fun s => hrstNRelease_boots,
    fun s hup hdying hen hlate => ⟨s.wdogNoted 1, wdogExpire_resets hup hdying hen hlate, wdogNoted_shows s 1⟩,
    fun s d hup hpend hdrain => ⟨fun c => drain_answers hup hpend hdrain, fun hopen hrun hsoon => ?_,
      drain_keeps hup hpend hdrain, fun k c => drain_closes hup hpend hdrain, fun k => drain_resets hup hpend hdrain⟩⟩
  · rw [hf]
    rfl
  · rw [hf]
    exact instanceCast_early htested
  · rw [hf, instanceCast_fails htested hok]
    exact selfTestFail_shows s (by decide)
  · rw [exec_domainOn_reset hdom hreset, if_neg ht, if_neg (by omega)]
  · rw [exec_domainOn_reset hdom hreset, if_pos rfl, if_pos hramp]
  · rw [exec_domainOn_reset hdom hreset, if_pos rfl, if_neg (by rw [hdark]; decide)]
  · rw [exec_domainFault (by omega) hoff hfall hup hdying, if_pos ⟨hlo, hhi⟩]
  · rw [exec_mainsReturn hmains hdying hup, if_pos hok]
  · rw [exec_mainsReturn hmains hdying hup, if_neg hbad]
  · exact (exec_drainEnd hup hpend).trans (congrArg _ (drainStep_waits hdrain hopen hrun hsoon))

end Sys2Proof.Machine
end
